-- ==== Sys2Proof/Word.lean ====
section
/-!
DEFINITION. Word.lean: the word types of the unit. A line is 64 B of DPA, a sector 64 B of the bulk tier (R13);
a register holds 64 bits (R17).
-/
namespace Sys2Proof

/-- One byte of memory, of a payload or of a flit. -/
abbrev Byte := BitVec 8

/-- A 64-bit quantity: a register access, a device physical address, the byte enables of a line. -/
abbrev Word := BitVec 64

/-- The 64 bytes of one line, byte 0 in the low bits (R13, R17: little-endian). -/
abbrev Line := BitVec 512

end Sys2Proof
end

