-- ==== Sys2Proof/Syntax.lean ====
section
/-!
DEFINITION. Syntax.lean: the commands of the block as syntax. The spec's opcode table gives its rows no bits, so a
command is not decoded from a word; it carries its operands as data. Heads and ports are 0 to 15, LDs 0 to 3, region
slots 0 to 63 (WellFormed.lean checks the ranges).
-/
namespace Sys2Proof

/-- The MetaValue of a CXL.mem request (Table 9.3: Invalid, Shared, Any). -/
inductive MetaValue where
  | invalid | shared | any
  deriving DecidableEq, Repr

/-- What the directory lookup of a request meets (R328, R330): nothing, a corrected or an uncorrectable error in the cached entry
in a way, or an uncorrectable sparse set line. -/
inductive DirErr where
  | none
  | corrected (way : Nat)
  | uncorrectable (way : Nat)
  | lost
  deriving DecidableEq, Repr

/-- What a CXL.mem request asks of the directory, and what its lookup meets there. -/
structure DirLook where
  mv : MetaValue
  err : DirErr
  deriving DecidableEq, Repr

/-- The three access paths to the register space (R540). -/
inductive Path where
  | ld (h l : Nat)
  | sideband
  | cores
  deriving DecidableEq, Repr

/-- Where a mailbox command comes from: an LD mailbox (R297), the sideband mailbox (R553), or an SPDM session (R454). -/
inductive MboxSrc where
  | ld (h l : Nat)
  | sideband
  | session (h l sid : Nat)
  deriving DecidableEq, Repr

/-- The two memory tiers. -/
inductive Tier where
  | near | bulk
  deriving DecidableEq, Repr

/-- What ECC decoding finds in one word (R205, R206). -/
inductive Ecc where
  | clean | corrected | uncorrectable
  deriving DecidableEq, Repr

/-- The pipes that fail while a tile is checked by the scrubber: the AES pipe of the first TAG computation and of the
recomputation (R161), the codec pipe of the first check and of the retry (R119). -/
structure PipeFaults where
  aes : Bool
  aesRetry : Bool
  codec : Bool
  codecRetry : Bool
  deriving DecidableEq, Repr

/-- What the checks of a tile and its frame, or of a reserved unit, meet (R233, R261, R380): the sectors and the lines with
what is wrong in their words, and the pipes that fail. -/
structure Found where
  sectors : List (Nat × List Nat)
  lines : List (Nat × List Nat)
  pipes : PipeFaults
  deriving DecidableEq, Repr

/-- An IDE stream: its port and its number there (Table 8.2). -/
structure IdeStream where
  port : Nat
  number : Nat
  deriving DecidableEq, Repr

/-- A command that the timing of a channel's DRAM allows in a slot (R213): a refresh of a rank, a training step, or the
transfer at a place of the channel's queue. -/
inductive DramCmd where
  | refresh (rank : Nat)
  | training
  | request (i : Nat)
  deriving DecidableEq, Repr

/-- One temperature reading (R220): a near position or a DIMM, its two readings, and whether the read failed. -/
structure TempReading where
  unit : Nat
  t0 : Nat
  t1 : Nat
  fail : Bool
  deriving DecidableEq, Repr

/-- What training finds at one near position (Table 6.3): the density of its devices in Gb, the highest rate it passes
(0: none), and whether the second run at the chosen rate passes. -/
structure NearPos where
  pos : Nat
  density : Nat
  rate : Nat
  second : Bool
  deriving DecidableEq, Repr

/-- What training finds of one DIMM (R196, R209): channel, slot, whether it is a DDR5 RDIMM, its device width, organization, the highest rate it supports in units
of 100 MT/s, its SPD serial number, and whether the first and the second run pass. -/
structure DimmInfo where
  ch : Nat
  slot : Nat
  rdimm : Bool
  width : Nat
  density : Nat
  ranks : Nat
  stack : Nat
  rate : Nat
  serial : BitVec 32
  pass : Bool
  second : Bool
  deriving DecidableEq, Repr

/-- What cold-reset training finds (R209), and the DIMM sideband buses that stay at 1 MHz (R222). -/
structure TrainResult where
  near : List NearPos
  clamshell : Bool
  dimms : List DimmInfo
  slow : BitVec 4
  deriving DecidableEq, Repr

/-- The content of the six fuse rows (Table 16.4). Masks number cores, pipes, engines and ways from bit 0;
badWays holds one mask per directory bank; perms holds the permission bits of Table 8.4 by 4 × head + LD. -/
structure Fuses where
  trim : Nat
  grade : Nat
  sn : BitVec 32
  badCores : Nat
  badCodec : Nat
  badCrypto : Nat
  badScarab : Nat
  badWays : List Nat
  dirFailed : Bool
  keyFused : Nat
  keyHashes : List (BitVec 384)
  revoked : Nat
  minSvn : BitVec 32
  romVer : BitVec 16
  pins : Nat
  perms : List (Nat × Nat)
  secret : Option (BitVec 256)
  deriving DecidableEq, Repr

/-- How one fuse row was loaded (R510): itself, from its copy, or not at all (its safe default stands). -/
inductive FuseOutcome where
  | ok | copy | dflt
  deriving DecidableEq, Repr

/-- The strap pins as sampled (R558, R559). addr0 to addr2 are the levels of the three-level ADDR pins. -/
structure Straps where
  bifur : BitVec 8
  refmode0 : Nat
  refmode1 : Nat
  chainHead : Bool
  addr0 : Nat
  addr1 : Nat
  addr2 : Nat
  deriving DecidableEq, Repr

/-- IDE_KM messages (R159; the CXL specification's key management). -/
inductive IdeMsg where
  | keyProg (stream : Nat) (rx : Bool) (key : BitVec 256)
  | setGo (stream : Nat) (rx : Bool)
  | setStop (stream : Nat) (rx : Bool)
  deriving DecidableEq, Repr

/-- DOE requests: SPDM (R452 to R454), Discovery and Table Access (R277). session opens a session: authd tells whether the requester
authenticated, and root is the SHA-384 of the root its certificate chain ends at. -/
inductive SpdmMsg where
  | version (major minor : Nat)
  | measurements (index : Nat)
  | certificate
  | challenge
  | session (sid : Nat) (authd : Bool) (root : BitVec 384)
  | endSession (sid : Nat)
  | discovery (index : Nat)
  | tableAccess
  deriving DecidableEq, Repr

/-- The link state block of a control flit (bytes 4 to 15): the acknowledgement when ACKV is set, and the cumulative
credits returned. -/
structure LinkState where
  ack : Option Nat
  reqH : Nat
  reqD : Nat
  rspH : Nat
  rspD : Nat
  deriving DecidableEq, Repr

/-- The body of INIT (Table 12.8). -/
structure InitBody where
  sn : BitVec 32
  port : Nat
  ver : Nat
  width : Nat
  seen : Bool
  head : Bool
  idValid : Bool
  id : Nat
  credits : LinkState
  deriving DecidableEq, Repr

/-- One report of RING: the two ports of a unit and its update count. -/
structure RingReport where
  cl0 : Bool
  cl1 : Bool
  ucnt : Nat
  deriving DecidableEq, Repr

/-- An entry of TOKEN or a position of ASSIGN. -/
structure RingEntry where
  sn : BitVec 32
  id : Nat
  valid : Bool
  deriving DecidableEq, Repr

/-- The body of TOKEN (Table 12.8). -/
structure TokenBody where
  round : Nat
  headSn : BitVec 32
  dir : Nat
  ended : Bool
  entries : List RingEntry
  deriving DecidableEq, Repr

/-- The body of ASSIGN (Table 12.8). -/
structure AssignBody where
  round : Nat
  headSn : BitVec 32
  line : Bool
  order : List RingEntry
  deriving DecidableEq, Repr

/-- The header slot of a far request (Table 12.6). -/
structure FarReq where
  src : Nat
  cls : Nat
  ttl : Nat
  key : Nat
  poison : Bool
  tag : Nat
  slot : Nat
  line : Nat
  seq : Nat
  deriving DecidableEq, Repr


/-- The commands: one constructor per row of spec/opcode_table.json, in the table's order. The operands are what the
event brings from outside (an address, a payload, the outcome of a measurement); everything else the unit holds. Where data
is read, bad lists the x4 devices of a bulk word, or the symbols of a near word, that hold an error (R205, R206); with several
words each has its place in the unit. -/
inductive Instr where
  /-- HOST_READ, R580: A CXL.mem read (MemRd or MemRdData, any MetaValue) arrives on a host port, is decoded to a DPA and is presented to ADM after the fixed front-end delay. -/
  | hostRead (h : Nat) (l : Nat) (hpa : BitVec 64) (look : DirLook) (tag : Nat)
  /-- HOST_WRITE, R36: A full-line CXL.mem write arrives on a host port and, once admitted, lands in a near frame. -/
  | hostWrite (h : Nat) (l : Nat) (hpa : BitVec 64) (look : DirLook) (tag : Nat) (data : BitVec 512) (poison : Bool)
  /-- HOST_PARTIAL_WRITE, R243: A CXL.mem write that does not enable all 64 bytes is merged into the line in its near frame. -/
  | hostPartialWrite (h : Nat) (l : Nat) (hpa : BitVec 64) (look : DirLook) (tag : Nat) (data : BitVec 512) (be : BitVec 64) (poison : Bool)
  /-- MEM_INV, R316: A MemInv with MetaValue S or A changes the directory state of a SHARED line without data. -/
  | memInv (h : Nat) (l : Nat) (hpa : BitVec 64) (look : DirLook) (tag : Nat)
  /-- MEM_CLN_EVCT, R316: A MemClnEvct removes the head from the line's directory entry. -/
  | memClnEvct (h : Nat) (l : Nat) (hpa : BitVec 64) (tag : Nat)
  /-- ADMISSION_CYCLE, R354: In each fabric cycle ADM fills up to eight slots with eligible units by class priority, guarantee credit and deficit round robin. -/
  | admissionCycle
  /-- TOKEN_REFILL, R342: At each 1 us refill boundary every bucket is refilled up to BURST. -/
  | tokenRefill
  /-- TME_MISS_FILL, R71: The tile map sector read for a cache miss returns and the TME is installed in the least recently used evictable way. -/
  | tmeMissFill (slot : Nat) (tile : Nat) (bad : List Nat)
  /-- DEMAND_PROMOTION, R180: A request needing a bulk tile reserves a frame, takes a tile lock and issues the bulk read on TMU's fill path. -/
  | demandPromotion (slot : Nat) (tile : Nat)
  /-- BULK_TILE_READ_DONE, R160: The last sector of a bulk tile read arrives, ECC is decided and CRY checks TAG. -/
  | bulkTileReadDone (id : Nat) (bad : List (Nat × List Nat)) (flips : List (Nat × BitVec 8)) (pipe : Nat) (pipeFault : Bool)
  /-- TAG_RECOMPUTE_DONE, R161: A TAG recomputation on another pipe finishes and either delivers the data or confirms the mismatch. -/
  | tagRecomputeDone (id : Nat) (pipe : Nat) (pipeFault : Bool)
  /-- HALT_VIRAL, R162: At T1 + 100 ns every host port signals viral and outstanding reads complete with poison. -/
  | haltViral
  /-- HALT_CHAIN_STOP, R162: At T1 + 1 us CLX stops transmitting on both chain ports. -/
  | haltChainStop
  /-- HALT_ZEROIZE, R162: At T1 + 2 us all keys and the AON retention store are zeroized and the tiers accept no request. -/
  | haltZeroize
  /-- CODEC_TILE_DONE, R118: A codec pipe finishes inline decompression or a tile check and checks TCS. -/
  | codecTileDone (id : Nat) (pipe : Nat) (pipeFault : Bool)
  /-- TCS_RETRY_DONE, R119: The retry of a failed TCS or malformed LZ tile on another pipe finishes and delivers or reports the mismatch. -/
  | tcsRetryDone (id : Nat) (pipe : Nat) (pipeFault : Bool)
  /-- PROMOTION_INSTALL, R88: The promoted tile is written into its frame, NV is set, the lock is released and waiting requests proceed in order. -/
  | promotionInstall (id : Nat)
  /-- CANDIDATE_REFILL, R178: While the candidate list holds fewer than 1,024 entries Scarab reads FTEs under class 13 to refill it. -/
  | candidateRefill
  /-- DEMOTION_SELECT, R183: An engine with a free slot picks the next frame to demote, sets TRANSIT and MOVING and issues the near read. -/
  | demotionSelect (engine : Nat)
  /-- DEMOTION_COMPRESS_DONE, R115: The codec pipe finishes compressing and verifying a demoted tile and fixes its format and length. -/
  | demotionCompressDone (id : Nat) (pipe : Nat × Bool) (bad : List (Nat × List Nat))
  /-- ALLOC_ESCALATION_RESOLVED, R78: Firmware merges or relocates runs and the waiting demotion receives its run. -/
  | allocEscalationResolved (id : Nat)
  /-- DEMOTION_COMMIT, R90: After BTC reports all sectors written TMU commits the new TME in one update, frees the old run and marks the frame CLEAN. -/
  | demotionCommit (id : Nat)
  /-- WRITE_WAIT_RESUME, R85: A write held for a dirty-frame cap, reserve or frame proceeds once its condition is met. -/
  | writeWaitResume (rid : Nat)
  /-- CROSSING_WAIT_RESUME, R148: A crossing attempt waiting for a crossing-table entry takes one freed entry and starts. -/
  | crossingWaitResume (slot : Nat) (tile : Nat)
  /-- REGION_INIT_STEP, R62: TMU writes the next initial TMEs of a new region under class 13 and advances the watermark. -/
  | regionInitStep (slot : Nat) (n : Nat)
  /-- NEAR_PIN_WALK_STEP, R174: The NEAR_PIN walk promotes and pins the next materialized tile of the region. -/
  | nearPinWalkStep (slot : Nat)
  /-- RETAIN_RELOCATION_DONE, R227: Relocation of a RETAIN region's runs into retained sets completes and its BTC_RET_PEND bit clears. -/
  | retainRelocationDone (slot : Nat)
  /-- CODEC_PIPE_DRAINED, R127: A DRAINING codec pipe empties and firmware sets it FAILED, logs it and raises the spare event. -/
  | codecPipeDrained (p : Nat)
  /-- CDC_PIPE_ACTIVATE, R130: CDC_PIPE_CTL.CMD 1 sets a pipe ACTIVE. -/
  | cdcPipeActivate (path : Path) (p : Nat)
  /-- CDC_PIPE_DRAIN, R130: CDC_PIPE_CTL.CMD 2 sets a pipe DRAINING. -/
  | cdcPipeDrain (path : Path) (p : Nat)
  /-- CDC_PIPE_FAIL, R130: CDC_PIPE_CTL.CMD 3 sets a pipe FAILED. -/
  | cdcPipeFail (path : Path) (p : Nat)
  /-- CRY_PIPE_ACTIVATE, R166: CRY_PIPE_CTL.CMD 1 sets an AES pipe ACTIVE. -/
  | cryPipeActivate (path : Path) (p : Nat) (katPass : Bool)
  /-- CRY_PIPE_DRAIN, R166: CRY_PIPE_CTL.CMD 2 sets an AES pipe DRAINING. -/
  | cryPipeDrain (path : Path) (p : Nat)
  /-- CRY_PIPE_FAIL, R166: CRY_PIPE_CTL.CMD 3 sets an AES pipe FAILED. -/
  | cryPipeFail (path : Path) (p : Nat)
  /-- AES_PIPE_DRAINED, R165: A DRAINING AES pipe empties and is set FAILED with its spare record and event. -/
  | aesPipeDrained (p : Nat)
  /-- AES_KNOWN_ANSWER_TEST, R165: Once per epoch each AES pipe runs a known-answer test in an idle slot, counting a fault on failure. -/
  | aesKnownAnswerTest (p : Nat) (pass : Bool)
  /-- SCR_ENG_ACTIVATE, R193: SCR_ENG_CTL.CMD 1 sets a Scarab engine ACTIVE. -/
  | scrEngActivate (path : Path) (e : Nat)
  /-- SCR_ENG_DRAIN, R193: SCR_ENG_CTL.CMD 2 sets a Scarab engine DRAINING. -/
  | scrEngDrain (path : Path) (e : Nat)
  /-- SCR_ENG_FAIL, R193: SCR_ENG_CTL.CMD 3 sets a Scarab engine FAILED. -/
  | scrEngFail (path : Path) (e : Nat)
  /-- SCARAB_ENGINE_DRAINED, R188: A draining engine empties, goes FAILED and SCARAB_FAULT is raised. -/
  | scarabEngineDrained (e : Nat)
  /-- DIR_BANK_ACTIVATE, R331: DIR_BANK_CMD 1 activates a directory cache way. -/
  | dirBankActivate (path : Path) (bank : Nat) (way : Nat)
  /-- DIR_BANK_FAIL, R331: DIR_BANK_CMD 3 sets a directory cache way FAILED. -/
  | dirBankFail (path : Path) (bank : Nat) (way : Nat)
  /-- CTL_CORE_ACTIVATE, R457: CTL_CORE_CTL.CMD 1 sets a control core ACTIVE. -/
  | ctlCoreActivate (path : Path) (core : Nat)
  /-- CTL_CORE_FAIL, R457: CTL_CORE_CTL.CMD 3 sets a control core FAILED. -/
  | ctlCoreFail (path : Path) (core : Nat)
  /-- TRNG_HEALTH_FAIL, R135: A continuous entropy health test fails, clearing TRNG_OK and raising TRNG_FAULT. -/
  | trngHealthFail
  /-- REKEY_KEY_READY, R152: The vault holds the new generation's bulk key and waiting demotions proceed. -/
  | rekeyKeyReady (slot : Nat)
  /-- REKEY_WALK_STEP, R152: The rekey walk crosses the next tile of the old parity under class 14. -/
  | rekeyWalkStep (slot : Nat)
  /-- REKEY_DONE, R152: No entry of the region remains in the crossing table, PREV is retired and REKEY_DONE raised. -/
  | rekeyDone (slot : Nat)
  /-- DRAM_COMMAND_SLOT, R213: Each channel or subchannel issues the first eligible command in a command slot. -/
  | dramCommandSlot (tier : Tier) (ch : Nat) (now : Nat) (ready : List DramCmd)
  /-- DRAM_READ_DATA, R207: A read burst returns and is checked by EDC with retry and then by ECC. -/
  | dramReadData (id : Nat) (edcFails : Nat) (bad : List Nat)
  /-- ROW_REMAP_COPY_DONE, R252: The row copy ends, the remap entry is written and waiting requests proceed. -/
  | rowRemapCopyDone (ch : Nat) (entry : Nat)
  /-- EDC_WRITE_FAIL, R207: A GDDR6 write burst fails EDC and is rewritten, or retrains the channel when retries are exhausted. -/
  | edcWriteFail (ch : Nat) (fails : Nat)
  /-- CHANNEL_RETRAIN_DONE, R212: A retrain ends, resuming the channel or failing it after two failures. -/
  | channelRetrainDone (tier : Tier) (ch : Nat) (ok : Bool)
  /-- PMIC_POWER_FAULT, R222: A DIMM's PMIC reports a power fault and the DIMM fails. -/
  | pmicPowerFault (d : Nat)
  /-- PMIC_STATUS_POLL, R222: Every 16 TPOLL epochs BTC reads PMIC status and raises warnings. -/
  | pmicStatusPoll (status : List (Nat × BitVec 8)) (warn : List Nat)
  /-- TEMPERATURE_POLL, R220: Every TPOLL epochs the controllers read DRAM temperatures and update hot and CRIT state. -/
  | temperaturePoll (tier : Tier) (readings : List TempReading)
  /-- REFRESH_DUE, R219: A refresh falls due and is issued, postponed or issued at the limit. -/
  | refreshDue (tier : Tier) (ch : Nat) (rank : Nat)
  /-- PERIODIC_TRAINING_DUE, R211: A periodic training step falls due by epoch count or temperature drift. -/
  | periodicTrainingDue (tier : Tier) (ch : Nat) (recentre : Bool)
  /-- MEMORY_TRAINING_DONE, R209: Cold-reset training ends and positions, channels and rates are selected. -/
  | memoryTrainingDone (result : TrainResult)
  /-- DIMM_FULL_TRAINING_DONE, R210: Full training of DIMMs powered off in P3 ends and their rank sets become usable. -/
  | dimmFullTrainingDone (passed : List Nat)
  /-- SELF_REFRESH_BULK_COMMIT, R223: BTC finishes draining and issues self-refresh entry on all subchannels, the bulk commit point. -/
  | selfRefreshBulkCommit
  /-- SELF_REFRESH_NEAR_COMMIT, R223: NTC finishes draining and issues self-refresh entry on all channels, the near commit point. -/
  | selfRefreshNearCommit
  /-- SELF_REFRESH_EXIT_DONE, R225: A tier completes self-refresh exit and waiting requests are served. -/
  | selfRefreshExitDone (tier : Tier)
  /-- EVACUATION_MOVE, R258: Evacuation moves the next tile or map sector out of the FAILING rank set. -/
  | evacuationMove
  /-- SCRUB_ALLOWANCE, R260: Each epoch a Weevil walker gains its allowance, capped at four times its rate. -/
  | scrubAllowance
  /-- SCRUB_UNIT, R261: A walker admits and checks the next tile, frame or reserved unit. -/
  | scrubUnit (tier : Tier) (found : Found)
  /-- RETENTION_SWEEP_STEP, R265: After a retention loss TMU sweeps the next tile map entries of RETAIN regions. -/
  | retentionSweepStep
  /-- LINK_TRAINED, R275: A host port finishes training and presents a head or none. -/
  | linkTrained (port : Nat) (width : Nat) (rate : Nat) (flit : Nat) (cxl : Bool)
  /-- PORT_RESET, R290: A hot reset, link down or surprise removal resets one host port. -/
  | portReset (port : Nat)
  /-- FUNCTION_RESET, R291: An FLR or CXL reset resets one LD, with Mem Clr deleting and re-creating its regions. -/
  | functionReset (h : Nat) (l : Nat) (memClr : Bool)
  /-- MEMCLR_DONE, R291: The deletions or in-place clears of a Mem Clr finish and the reset completes. -/
  | memclrDone (h : Nat) (l : Nat)
  /-- HOST_VIRAL, R289: A host signals viral and further CXL.mem writes of that head are discarded. -/
  | hostViral (port : Nat)
  /-- DOORBELL_WRITE, R294: A write to a doorbell line rings an SQ tail or a CQ release index. -/
  | doorbellWrite (h : Nat) (l : Nat) (q : Nat) (value : BitVec 32) (be : BitVec 64)
  /-- DOORBELL_READ, R295: A doorbell read returns the queue's tail and head. -/
  | doorbellRead (h : Nat) (l : Nat) (q : Nat) (tag : Nat)
  /-- FIREFLY_WINDOW_READ, R476: A read of the Firefly window returns snapshot data or zeros. -/
  | fireflyWindowRead (h : Nat) (l : Nat) (off : Nat) (tag : Nat)
  /-- GET_INFO, R300: Avsar command returning version, free slots, key mode, LD count and queue range. -/
  | getInfo (src : MboxSrc) (payload : List (BitVec 8))
  /-- REGION_CREATE, R302: Avsar command creating a region after its ordered checks. -/
  | regionCreate (src : MboxSrc) (payload : List (BitVec 8))
  /-- REGION_DELETE, R62: Avsar background command starting the deletion of a region. -/
  | regionDelete (src : MboxSrc) (payload : List (BitVec 8))
  /-- REGION_DELETE_DONE, R62: A region's frames, sectors and map are freed and the slot set FREE. -/
  | regionDeleteDone (slot : Nat)
  /-- REGION_SET, R60: Avsar command changing selected attributes of a live region. -/
  | regionSet (src : MboxSrc) (payload : List (BitVec 8))
  /-- REGION_GRANT, R86: Avsar command raising an ELASTIC region's BUDGET, possibly lifting its fence. -/
  | regionGrant (src : MboxSrc) (payload : List (BitVec 8))
  /-- REGION_QUERY, R300: Avsar command returning a slot's TMU registers. -/
  | regionQuery (src : MboxSrc) (payload : List (BitVec 8))
  /-- SET_KEY_MODE, R154: Avsar command selecting native or VK4 key mode. -/
  | setKeyMode (src : MboxSrc) (payload : List (BitVec 8))
  /-- LOAD_WRAP_KEY, R155: Avsar command loading the VK4 wrapping key within a secured SPDM session. -/
  | loadWrapKey (src : MboxSrc) (payload : List (BitVec 8))
  /-- LOAD_KEY_SLOT, R156: Avsar command unwrapping and loading a VK4 key slot. -/
  | loadKeySlot (src : MboxSrc) (payload : List (BitVec 8))
  /-- CLEAR_KEY_SLOT, R156: Avsar command clearing a VK4 key slot. -/
  | clearKeySlot (src : MboxSrc) (payload : List (BitVec 8))
  /-- REKEY_REGION, R151: Avsar background command starting a rekey of a region. -/
  | rekeyRegion (src : MboxSrc) (payload : List (BitVec 8))
  /-- SET_POWER_STATE, R481: Avsar command requesting entry to P1 to P4 after its checks. -/
  | setPowerState (src : MboxSrc) (payload : List (BitVec 8))
  /-- GET_POWER_STATE, R300: Avsar command returning the current state and last wake source. -/
  | getPowerState (src : MboxSrc) (payload : List (BitVec 8))
  /-- SET_RETAIN_SETS, R226: Avsar command writing BTC_RETAIN.SETS. -/
  | setRetainSets (src : MboxSrc) (payload : List (BitVec 8))
  /-- SET_SPARE_SET, R271: Avsar command writing RAS_SPARE_SET. -/
  | setSpareSet (src : MboxSrc) (payload : List (BitVec 8))
  /-- EVACUATE_SET, R258: Avsar background command marking a rank set FAILING for evacuation. -/
  | evacuateSet (src : MboxSrc) (payload : List (BitVec 8))
  /-- CLEAR_RETENTION, R266: Avsar command clearing the retention loss list and releasing its sectors. -/
  | clearRetention (src : MboxSrc) (payload : List (BitVec 8))
  /-- GET_SPD, R222: Avsar command reading SPD contents of a DIMM over its sideband bus. -/
  | getSpd (src : MboxSrc) (payload : List (BitVec 8))
  /-- GET_ERROR_LOG, R268: Avsar command returning error log records from CONS. -/
  | getErrorLog (src : MboxSrc) (payload : List (BitVec 8))
  /-- CLEAR_ERROR_LOG, R268: Avsar command advancing RAS_LOG.CONS. -/
  | clearErrorLog (src : MboxSrc) (payload : List (BitVec 8))
  /-- HEAD_CONFIG, R301: Avsar command setting an LD's count, permissions, queue range and region mask. -/
  | headConfig (src : MboxSrc) (payload : List (BitVec 8))
  /-- SET_HOLD, R247: Avsar command setting or clearing HOLD on a channel or subchannel. -/
  | setHold (src : MboxSrc) (payload : List (BitVec 8))
  /-- QUEUE_SET, R369: Avsar command writing a queue context and activating or updating the queue. -/
  | queueSet (src : MboxSrc) (payload : List (BitVec 8))
  /-- QUEUE_DISABLE, R371: Avsar command disabling a queue, aborting its jobs at part boundaries. -/
  | queueDisable (src : MboxSrc) (payload : List (BitVec 8))
  /-- QUEUE_QUERY, R365: Avsar command returning a queue context. -/
  | queueQuery (src : MboxSrc) (payload : List (BitVec 8))
  /-- GET_POISON_LIST, R288: CXL command returning poisoned tile ranges found by a tile map walk. -/
  | getPoisonList (h : Nat) (l : Nat) (start : Nat) (limit : Nat)
  /-- INJECT_POISON, R288: CXL command writing the poison marker to a line. -/
  | injectPoison (h : Nat) (l : Nat) (dpa : BitVec 64)
  /-- CLEAR_POISON, R288: CXL command performing a full-line write with supplied data. -/
  | clearPoison (h : Nat) (l : Nat) (dpa : BitVec 64) (data : BitVec 512)
  /-- GET_EVENT_RECORDS, R466: CXL command returning event records oldest first. -/
  | getEventRecords (h : Nat) (l : Nat) (log : Nat)
  /-- CLEAR_EVENT_RECORDS, R466: CXL command freeing event records. -/
  | clearEventRecords (h : Nat) (l : Nat) (log : Nat) (count : Nat)
  /-- GET_EVENT_INTERRUPT_POLICY, R465: CXL command returning the interrupt policy and vectors of the LD's logs. -/
  | getEventInterruptPolicy (h : Nat) (l : Nat)
  /-- SET_EVENT_INTERRUPT_POLICY, R465: CXL command setting the interrupt policy of the LD's logs. -/
  | setEventInterruptPolicy (h : Nat) (l : Nat) (on : List Bool)
  /-- GET_TIMESTAMP, R526: CXL command returning the device timestamp. -/
  | getTimestamp (h : Nat) (l : Nat)
  /-- SET_TIMESTAMP, R526: CXL command writing TS_BASE so the timestamp equals the supplied value. -/
  | setTimestamp (h : Nat) (l : Nat) (value : BitVec 64)
  /-- IDENTIFY_MEMORY_DEVICE, R450: CXL command identifying the device, served also in recovery. -/
  | identifyMemoryDevice (h : Nat) (l : Nat)
  /-- GET_FW_INFO, R451: CXL command returning firmware slot information. -/
  | getFwInfo (h : Nat) (l : Nat)
  /-- TRANSFER_FW, R451: CXL background command writing a firmware part to the non-running slot. -/
  | transferFw (h : Nat) (l : Nat) (fwSlot : Nat) (offset : Nat) (data : List (BitVec 8)) (last : Bool)
  /-- TRANSFER_FW_DONE, R451: A complete transferred copy is read back and checked. -/
  | transferFwDone (readErr : Bool)
  /-- ACTIVATE_FW, R451: CXL command writing a TRIAL descriptor for the next reset, or Unsupported online. -/
  | activateFw (h : Nat) (l : Nat) (fwSlot : Nat) (online : Bool)
  /-- DC_ADD_ACCEPT, R285: A host accepts an offered extent and its OWNER bit is set, or a grant of backing applies. -/
  | dcAddAccept (h : Nat) (l : Nat) (slot : Nat) (grant : Option Nat)
  /-- DC_ADD_REFUSE, R285: A host refuses an offered extent and leaves the pending offers. -/
  | dcAddRefuse (h : Nat) (l : Nat) (slot : Nat)
  /-- DC_RELEASE, R285: A host releases an extent, clearing its OWNER bit and deleting an unowned offer region. -/
  | dcRelease (h : Nat) (l : Nat) (slot : Nat)
  /-- IDE_KM_MESSAGE, R159: An IDE_KM message over DOE delivers or manages a port's IDE keys. -/
  | ideKmMessage (port : Nat) (msg : IdeMsg)
  /-- SPDM_MESSAGE, R452: An SPDM request over DOE is answered by the attestation unit. -/
  | spdmMessage (h : Nat) (l : Nat) (msg : SpdmMsg)
  /-- SPDM_SECURED_AVSAR, R454: An Avsar command carried as a secured application message runs as through the mailbox. -/
  | spdmSecuredAvsar (h : Nat) (l : Nat) (sid : Nat) (opcode : Nat) (payload : List (BitVec 8))
  /-- BIRSPI, R317: A BIRspI answer removes the head from the entry and may end the line's busy state. -/
  | birspi (h : Nat) (line : Nat)
  /-- BIRSPS, R317: A BIRspS answer leaves the head named with the entry in S. -/
  | birsps (h : Nat) (line : Nat)
  /-- BIRSPE, R317: A BIRspE answer to BISnpCur leaves the head as E holder. -/
  | birspe (h : Nat) (line : Nat)
  /-- BICONFLICT, R321: A BIConflict is answered with BIConflictAck after earlier completions to that head. -/
  | biconflict (h : Nat) (line : Nat)
  /-- BI_TIMEOUT, R323: An unanswered snoop times out and fences the head from SHARED regions. -/
  | biTimeout (h : Nat)
  /-- DIR_SWEEP_DONE, R327: A directory sweep ends, clearing the head's fence or allowing the pending action. -/
  | dirSweepDone (n : Nat)
  /-- GATE_TICK, R345: At each tick the gate list state of the active bank applies to classes and refresh windows. -/
  | gateTick
  /-- MINWIN_END, R349: A lengthened class reaches P + MINWIN and takes the state the list gives. -/
  | minwinEnd (c : Nat)
  /-- GCL_SWAP, R351: At a cycle start a pending bank swap or CYCLE change takes effect and GCL_SWAPPED is raised. -/
  | gclSwap
  /-- GCL_SWAP_REQUEST, R351: A write of ADM_GCL_CFG.SWAP sets SWAP_PEND for the next cycle start. -/
  | gclSwapRequest (path : Path)
  /-- MONITOR_WINDOW_END, R359: A monitor window ends and classes that missed their guarantee raise GUAR_MISSED. -/
  | monitorWindowEnd
  /-- FLOOR_RECOMPUTE, R358: In the cycle after a trigger ADM recomputes RAW, the floor and every effective guarantee. -/
  | floorRecompute
  /-- DESCRIPTOR_FETCH, R383: The job manager fetches a pending descriptor once QDEPTH, an engine slot and a CQ entry allow. -/
  | descriptorFetch (q : Nat)
  /-- NOP, R380: Job that does nothing and completes OK. -/
  | nop (jid : Nat)
  /-- FENCE, R393: Job that starts only after earlier jobs of its queue or LD have ended. -/
  | fence (jid : Nat)
  /-- COPY, R380: Job copying LEN bytes in parts in ascending order. -/
  | copy (jid : Nat)
  /-- FILL, R380: Job filling a range with an 8-byte pattern. -/
  | fill (jid : Nat)
  /-- ZERO, R380: Job writing zero bytes over a range. -/
  | zero (jid : Nat)
  /-- COMPRESS, R120: Job compressing a source into a VTF stream at a given level. -/
  | compress (jid : Nat)
  /-- DECOMPRESS, R121: Job decompressing a VTF stream block by block. -/
  | decompress (jid : Nat)
  /-- CHECKSUM, R123: Job returning the CRC-32C of its source. -/
  | checksum (jid : Nat)
  /-- PROMOTE, R381: Job installing every materialized tile of a range as a prefetch does. -/
  | promote (jid : Nat)
  /-- DEMOTE, R380: Job demoting dirty frames and evicting unpinned clean frames of a range. -/
  | demote (jid : Nat)
  /-- PIN, R174: Job promoting and pinning the tiles of a range. -/
  | pin (jid : Nat)
  /-- UNPIN, R380: Job clearing PINNED on the tiles of a range. -/
  | unpin (jid : Nat)
  /-- RETIRE, R255: Job moving each tile of a range to a new run with RETIRED set. -/
  | retire (jid : Nat)
  /-- REKEY, R381: Job starting a rekey of the region holding DST and completing at REKEY_DONE. -/
  | rekey (jid : Nat)
  /-- SCRUB_RANGE, R380: Job checking every tile and frame line of a range. -/
  | scrubRange (jid : Nat)
  /-- JOB_PART_DONE, R384: A job part completes and the next part is admitted or the job ends. -/
  | jobPartDone (jid : Nat) (found : Found) (pipes : List (Nat × Bool))
  /-- COAL_TIME_EXPIRY, R388: COAL_TIME ticks pass since the first uninterrupted completion and MSI-X is sent. -/
  | coalTimeExpiry (q : Nat)
  /-- CL_DOWN_TIMER, R400: A chain port in DOWN with ENABLE 1 enters DETECT after 1 ms. -/
  | clDownTimer (p : Nat)
  /-- CL_DETECT, R400: A chain port sees its partner on at least four lanes and enters TRAIN, or repeats DETECT. -/
  | clDetect (p : Nat) (lanes : BitVec 9)
  /-- CL_TRAIN_LOCK, R400: Every lane in use locks in TRAIN and the port enters ALIGN. -/
  | clTrainLock (p : Nat) (lanes : BitVec 9) (peerWidth : Nat)
  /-- CL_FLIT_LOCK, R401: Flit lock is found on every active lane and the port enters INIT. -/
  | clFlitLock (p : Nat)
  /-- CL_STATE_TIMEOUT, R400: A chain port exceeds its TRAIN, ALIGN or INIT time limit and returns to DOWN. -/
  | clStateTimeout (p : Nat)
  /-- CL_LOCK_LOSS, R401: A receiver loses lock and its port enters RETRAIN. -/
  | clLockLoss (p : Nat)
  /-- CL_LINK_DOWN, R402: A port stays without lock for LOCK_LOSS_TIME and the link is declared down. -/
  | clLinkDown (p : Nat)
  /-- CL_RETRAIN_DONE, R402: Lock returns in RETRAIN and the port goes ACTIVE, replaying from the oldest unacknowledged flit. -/
  | clRetrainDone (p : Nat) (lanes : BitVec 9) (peerWidth : Nat)
  /-- CL_RETRAIN, R434: CLX_PORT_CTL.RETRAIN starts a retrain of a chain port. -/
  | clRetrain (path : Path) (p : Nat)
  /-- CL_MARK, R434: CLX_PORT_CTL.MARK marks physical lanes failing. -/
  | clMark (path : Path) (p : Nat) (lanes : BitVec 9)
  /-- CL_PORT_ENABLE, R400: A write of CLX_PORT_CTL.ENABLE lets a port leave DOWN or holds it in DOWN. -/
  | clPortEnable (path : Path) (p : Nat) (on : Bool)
  /-- DATA_FLIT, R414: A DATA flit is received, checked under its expected sequence and accepted, discarded or NAKed. -/
  | dataFlit (p : Nat) (bytes : List (BitVec 8))
  /-- IDLE, R411: An IDLE control flit updates ACK and credit state from its link state block. -/
  | idle (p : Nat) (lsb : LinkState)
  /-- INIT, R412: An INIT control flit advances the initialization handshake or raises CABLE. -/
  | init (p : Nat) (lsb : LinkState) (body : InitBody)
  /-- NAK, R413: A NAK control flit makes the sender replay from the named sequence number. -/
  | nak (p : Nat) (lsb : LinkState) (seq : Nat)
  /-- REPLAY, R414: A REPLAY control flit tells the receiver the numbers of the replayed flits. -/
  | replay (p : Nat) (lsb : LinkState) (seq : Nat)
  /-- RING, R418: A RING control flit merges port reports and recomputes routes. -/
  | ring (p : Nat) (lsb : LinkState) (reports : List RingReport) (round : Nat)
  /-- TOKEN, R431: A discovery TOKEN is appended to and passed on, or completes at the head. -/
  | token (p : Nat) (lsb : LinkState) (body : TokenBody)
  /-- ASSIGN, R431: An ASSIGN control flit gives the unit its chain ID, ORDER and N. -/
  | assign (p : Nat) (lsb : LinkState) (body : AssignBody)
  /-- REPLAY_TIMER_EXPIRY, R413: The replay timer expires and the sender replays from the oldest unacknowledged flit, or retrains at the limit. -/
  | replayTimerExpiry (p : Nat)
  /-- CONTROL_FLIT_DUE, R411: 32 flit times pass with advanced ACK or credits and a control flit is sent. -/
  | controlFlitDue (p : Nat)
  /-- INIT_RESEND, R412: In INIT a port sends INIT every 1 us. -/
  | initResend (p : Nat)
  /-- RING_PERIODIC, R418: Once per epoch a unit sends RING on both ports. -/
  | ringPeriodic
  /-- RD, R410: A far read message arriving at the home is queued for admission at ingress 16 or 17. -/
  | rd (p : Nat) (msg : FarReq)
  /-- WR, R426: A full-line far write message at the home is decided against the write sequence window. -/
  | wr (p : Nat) (msg : FarReq) (data : BitVec 512)
  /-- WRP, R426: A partial far write message at the home is decided against the write sequence window. -/
  | wrp (p : Nat) (msg : FarReq) (data : BitVec 512) (be : BitVec 64)
  /-- SYNC, R429: A SYNC message sets the pair's sequence base at the home and is answered with SYNC_ACK. -/
  | sync (p : Nat) (src : Nat) (token : Nat)
  /-- RD_RSP, R423: A far read response returns data or poison to the requester head. -/
  | rdRsp (p : Nat) (src : Nat) (tag : Nat) (status : Nat) (poison : Bool) (data : BitVec 512)
  /-- WR_RSP, R425: A far write response confirms, refuses or demands synchronization. -/
  | wrRsp (p : Nat) (src : Nat) (tag : Nat) (status : Nat) (seq : Nat)
  /-- SYNC_ACK, R429: A SYNC_ACK sets NEXT to BASE at the requester. -/
  | syncAck (p : Nat) (src : Nat) (base : Nat)
  /-- FAR_WRITE_APPLIED, R427: The home's TMU accepts or discards a far write, sets APPLIED, advances LAST and sends WR_RSP. -/
  | farWriteApplied (src : Nat) (seq : Nat)
  /-- E2E_TIMEOUT, R423: A far request or SYNC unanswered for E2E_TIMEOUT is resent on the current route. -/
  | e2eTimeout (id : Nat) (sync : Option Nat)
  /-- FAR_LIMIT_EXPIRY, R423: A far request unanswered for FAR_LIMIT ends with poison or a dropped write. -/
  | farLimitExpiry (id : Nat)
  /-- DISCOVERY_ROUND, R430: The chain head starts a discovery round by sending TOKEN. -/
  | discoveryRound
  /-- ASSIGN_TIMEOUT, R432: No ASSIGN arrives within 100 ms of ports going ACTIVE and CONFIG is set. -/
  | assignTimeout
  /-- HEARTBEAT_CHECK, R438: Each millisecond the supervisor checks core heartbeats and declares stalled cores failed. -/
  | heartbeatCheck (beats : List (Nat × BitVec 32))
  /-- CORE_ROLE_MOVE_DONE, R438: The new core takes the moved roles and the work that waited. -/
  | coreRoleMoveDone (core : Nat)
  /-- BOOT_CORE_ALIVE_TIMEOUT, R448: The boot core does not report alive within 10 ms and AON releases the next boot-capable core. -/
  | bootCoreAliveTimeout
  /-- BOOT_ROM, R446: The boot ROM reads the descriptors, updates trial flags and checks the preferred copy. -/
  | bootRom
  /-- FLASH_COPY_CHECKED, R445: A Penva copy finishes loading and is accepted or rejected by the checks of Table 13.5. -/
  | flashCopyChecked (copy : Nat) (readErr : Bool)
  /-- MEM_ACTIVE, R449: Boot reaches step 8, locks the blocks and accepts CXL.mem. -/
  | memActive
  /-- KICK, R455: CTL_WDT.KICK restarts the watchdog. -/
  | kick (path : Path)
  /-- WDT_HALF_TIMEOUT, R455: Half of TIMEOUT passes without a kick, setting STAGE and raising FW_STALL. -/
  | wdtHalfTimeout
  /-- WDT_TIMEOUT, R455: TIMEOUT passes without a kick and AON performs a warm reset. -/
  | wdtTimeout
  /-- EVENT_TICK, R462: At each event tick EVT samples all sources and delivers them in class and source order. -/
  | eventTick
  /-- EVT_LD_TEST, R478: A write of EVT_LD_TEST.RAISE raises EVT_TEST toward one LD. -/
  | evtLdTest (path : Path) (h : Nat) (l : Nat)
  /-- EVT_FM_TEST, R478: A write of EVT_FM_TEST.RAISE raises EVT_TEST toward every LD holding FM. -/
  | evtFmTest (path : Path)
  /-- NOW, R474: A write of PMU_SNAP.NOW requests a snapshot at the next tick. -/
  | now (path : Path)
  /-- AON_ENTRY_START, R482: The supervisor's wait-for-event with ARM set starts the hardware part of a power-state entry. -/
  | aonEntryStart (pendingEvent : Bool)
  /-- P2_ENTRY_COMPLETE, R489: PHY clocks stop after the near commit, ports request L1 and CUR reads 2. -/
  | p2EntryComplete
  /-- FLUSH_DONE, R189: No RETAIN region holds a dirty frame, the write-backs end and FLUSH_DONE marks the P3 commit point. -/
  | flushDone
  /-- P3_POWER_DOWN, R492: Retained subchannels enter self-refresh, other DIMMs and the core domains power off and CUR reads 3. -/
  | p3PowerDown
  /-- WAKE_EVENT, R484: AON latches an enabled wake event, ending an entry before its commit or starting an exit. -/
  | wakeEvent (code : Nat)
  /-- P2_ENTRY_RETRY, R485: After RETRY_IDLE without requests firmware retries an aborted P2 entry, or abandons it. -/
  | p2EntryRetry
  /-- CRICKET_MATCH, R488: Cricket matches the management address on the sideband, NACKs and raises wake code 3. -/
  | cricketMatch (addr : BitVec 7)
  /-- WAKE_N, R486: WAKE_N held low for 1 us is a wake event. -/
  | wakeN
  /-- EPOCH_ALARM, R498: The epoch alarm position is reached and EPOCH_ALARM is raised. -/
  | epochAlarm
  /-- P1_EXIT_DONE, R487: Cores restart and the unit returns to P0 within 2 us. -/
  | p1ExitDone
  /-- P2_EXIT_DONE, R489: P2 exit completes, CUR returns to 0 and WAKE is raised. -/
  | p2ExitDone
  /-- RESUME_AREA_CHECK, R494: The ROM checks the resume area and runs it or boots from flash. -/
  | resumeAreaCheck (uncorrectable : Bool)
  /-- CANARY_CHECK, R495: Saved canaries are read and failing banks reported to RAS. -/
  | canaryCheck (bad : List (Nat × Nat × Nat)) (corrected : List (Nat × Nat × Nat)) (serials : List (Nat × BitVec 32))
  /-- P3_EXIT_DONE, R493: P3 exit completes, non-RETAIN regions are LOST, CXL.mem is accepted and latched events delivered. -/
  | p3ExitDone (lsTicks : Nat) (switched : Bool)
  /-- POWER_ON_RESET, R499: AON supplies rising or an AON brownout starts a cold reset. -/
  | powerOnReset
  /-- COLD_CMD, R531: A sideband write of AON_RST_CTL.COLD_CMD starts a cold reset. -/
  | coldCmd (path : Path)
  /-- WARM_REQ, R531: A firmware write of AON_RST_CTL.WARM_REQ starts a warm reset with cause 5. -/
  | warmReq (path : Path)
  /-- RESET_N_LOW, R502: RESET_N held low from outside for 1 us starts a warm reset. -/
  | resetNLow (low : Bool)
  /-- QUIESCE_DONE, R504: Self-refresh is reported and every block except AON is held in reset. -/
  | quiesceDone
  /-- QUIESCE_TIMEOUT, R505: A quiesce exceeds its bound and the reset becomes cold with WARM_LOST set. -/
  | quiesceTimeout
  /-- RESET_RELEASE, R501: AON releases RESET_N at the latest of its conditions, starting the boot timeline. -/
  | resetRelease
  /-- BLK_RST_REQ, R509: AON_BLK_RST.REQ resets one block, or performs a warm reset for blocks that cannot reset alone. -/
  | blkRstReq (path : Path) (block : Nat)
  /-- BLOCK_RESET_END, R509: A block reset ends after 10 us and waiting requests proceed. -/
  | blockResetEnd (block : Nat)
  /-- FUSE_LOAD_DONE, R510: The fuse rows are loaded, from copies or safe defaults, and waiting reset causes act. -/
  | fuseLoadDone (rows : List (Nat × FuseOutcome)) (fuses : Fuses) (trngFails : Nat)
  /-- XTAL_QUALIFIED, R521: XTAL qualifies, ALERT_N is released and the straps are sampled. -/
  | xtalQualified (straps : Straps)
  /-- LSCLK_SWITCH, R521: LSCLK misses four edges or returns stably and the sleep counter switches source. -/
  | lsclkSwitch (toRc : Bool)
  /-- PLL_LOCK_LOSS, R520: A PLL loses lock after release, raising CLK_FAULT and resetting as Table 16.8 gives. -/
  | pllLockLoss (pll : Nat)
  /-- PLL_RELOCK_RETRY, R520: Every 100 us AON retries lock of a lost PLL. -/
  | pllRelockRetry (pll : Nat) (locked : Bool)
  /-- PLL_QUALIFIED, R519: A PLL holds lock for 256 reference cycles and its blocks may leave reset. -/
  | pllQualified (pll : Nat)
  /-- SUPPLY_GROUP_ENABLE, R565: The previous supply group passes warning for 1 us and the next PWR_EN rises. -/
  | supplyGroupEnable (g : Nat)
  /-- SUPPLY_RISE_TIMEOUT, R566: A supply does not pass warning within 100 us and all enables are lowered. -/
  | supplyRiseTimeout (i : Nat)
  /-- SUPPLY_WARN, R515: A supply stays below warning for 1 us and brown throttle begins. -/
  | supplyWarn (i : Nat)
  /-- SUPPLY_RECOVERED, R515: A supply stays above -4 % for 1 us and the lift timer starts. -/
  | supplyRecovered (i : Nat)
  /-- BROWN_THROTTLE_LIFT, R515: The lift timer expires 100 us after recovery and brown throttle lifts. -/
  | brownThrottleLift
  /-- SUPPLY_RESET_CROSSING, R516: A supply crosses its reset level, giving a warm reset on core supplies or a cold one on AON supplies. -/
  | supplyResetCrossing (i : Nat)
  /-- THERMAL_THROTTLE, R573: TJ reaches 105 C and brown throttle begins. -/
  | thermalThrottle (tj : Nat)
  /-- THERMAL_THROTTLE_LIFT, R573: 100 us after TJ falls below 100 C the thermal throttle lifts. -/
  | thermalThrottleLift
  /-- THERMAL_SHUTDOWN, R574: The comparator detects 120 C and AON powers the unit off. -/
  | thermalShutdown
  /-- D2D_LINK_LOST, R46: A die-to-die link is lost, the fault is recorded and firmware requests a warm reset. -/
  | d2dLinkLost (k : Nat)
  /-- FTIME_PULSE, R524: An FTIME pulse is accepted, ignored or relocks the timebase. -/
  | ftimePulse (t : Nat)
  /-- FTIME_PULSE_MISSED, R523: The window of a boundary closes without a pulse and the quality becomes HOLDOVER. -/
  | ftimePulseMissed
  /-- XTAL_BOUNDARY, R522: AON places an epoch boundary from XTAL, counting toward HOLD_LIMIT and FREE. -/
  | xtalBoundary
  /-- EPOCH_LOAD, R525: A write of AON_EPOCH_LOAD with ARM arms a load of the epoch number at the next pulse or boundary. -/
  | epochLoad (path : Path) (value : BitVec 48)
  /-- LS_CALIBRATION, R527: Every 2^16 LSCLK edges AON updates RATIO. -/
  | lsCalibration (ratio : BitVec 32)
  /-- READ32, R551: A sideband READ32 request reads a 32-bit register half. -/
  | read32 (req : List (BitVec 8)) (pec : Option (BitVec 8))
  /-- READ64, R551: A sideband READ64 request reads a 64-bit register. -/
  | read64 (req : List (BitVec 8)) (pec : Option (BitVec 8))
  /-- WRITE32, R551: A sideband WRITE32 request writes a 32-bit register half. -/
  | write32 (req : List (BitVec 8)) (pec : Option (BitVec 8))
  /-- WRITE64, R551: A sideband WRITE64 request writes a 64-bit register. -/
  | write64 (req : List (BitVec 8)) (pec : Option (BitVec 8))
  /-- REGISTER_WRITE, R541: A write to a register without a row of its own takes effect per path, clamping and width rules. -/
  | registerWrite (path : Path) (addr : Nat) (width : Nat) (value : BitVec 64)
  /-- REGISTER_READ_CLEAR, R546: A read of a register with RC fields clears them, using the path's upper-half shadow. -/
  | registerReadClear (path : Path) (addr : Nat) (width : Nat)
  /-- LOCK, R537: A control-core write of 1 to BLK_CTL.LOCK locks the block's RWL fields. -/
  | lock (path : Path) (block : Nat)
  /-- AES_KEY_PARITY_ERROR, R165: A key-register parity error in an AES pipe advances that pipe's fault count, which may reach FAULT_THRESH and start substitution. -/
  | aesKeyParityError (p : Nat)
  /-- SCARAB_ENGINE_FAULT, R188: A parity error in a Scarab engine's state, or a transfer timeout, advances the engine's fault count and at FAULT_THRESH starts its draining. -/
  | scarabEngineFault (e : Nat)
  /-- CORE_SRAM_ERROR, R438: An uncorrectable error in a control core's local SRAM declares the core failed at once, and a parity error or corrected SRAM error advances its fault count toward 4. -/
  | coreSramError (core : Nat) (uncorrectable : Bool)
  /-- CHAIN_LOW_POWER_SUBSTATE, R433: In P2 a chain port that has carried no DATA flit for 10 us enters its low-power substate. -/
  | chainLowPowerSubstate (p : Nat)
  /-- IDE_INTEGRITY_FAILURE, R159: An IDE integrity failure on a host port's stream is handled as the CXL specification defines, counted in IDE_FAIL and raises the IDE_FAIL cause. -/
  | ideIntegrityFailure (stream : IdeStream)
  /-- JTAG_INSTRUCTION, R561: A JTAG instruction other than BYPASS, IDCODE or SAMPLE/PRELOAD takes effect only while RESET_N is held low from outside, and otherwise acts as BYPASS. -/
  | jtagInstruction (ir : Nat)
  /-- D2D_TRANSFER_REPLAY, R31: A die-to-die transfer that fails its CRC is replayed, delivering the same data in the same order, and the corrected replay is counted in AON. -/
  | d2dTransferReplay (k : Nat) (failures : Nat)
  deriving DecidableEq, Repr

end Sys2Proof
end

