-- ==== Sys2Proof/WellFormed.lean ====
section
/-!
DEFINITION. WellFormed.lean: the ranges that a command's operands keep. An operand that counts a unit, a place or an
encoded field is a number; Rng names what it counts and Rng.bound how many there are.
-/
namespace Sys2Proof

/-- What a numeric operand counts. -/
inductive Rng where
  | head | ld | slot | tile | line | chain | cdcPipe | aesPipe | engine | core | dirBank | dirWay | channel | bulkChannel | dimm | rank | queue | cls
  | pll | supply | group | die | block | log | copy | unit | tag | key | ttl | seq12 | seq32 | byte | width | regAddr | wake | level | refmode | stream
  deriving DecidableEq, Repr

/-- How many values a range has. -/
def Rng.bound : Rng → Nat
  | .head => 16 -- host ports and heads HP0 to HP15
  | .ld => 4 -- LDs of a head
  | .slot => 64 -- region slots
  | .tile => 4294967296 -- tiles of a region (a region has at most 2^33 bytes of GiB slots; TILE is 32 bits)
  | .line => 1099511627776 -- lines of DPA[45:6]
  | .chain => 2 -- chain ports CL0 and CL1
  | .cdcPipe => 17 -- codec pipes
  | .aesPipe => 50 -- AES pipes
  | .engine => 32 -- Scarab engines
  | .core => 16 -- control cores
  | .dirBank => 16 -- directory banks
  | .dirWay => 17 -- directory ways, the spare with them
  | .channel => 32 -- near channels or bulk subchannels
  | .bulkChannel => 16 -- bulk channels
  | .dimm => 32 -- DIMM slots
  | .rank => 16 -- ranks of a channel
  | .queue => 1048576 -- job queues
  | .cls => 16 -- classes
  | .pll => 10 -- PLLs (Table 16.8)
  | .supply => 10 -- supplies (Table 16.6)
  | .group => 5 -- supply groups 1 to 4
  | .die => 4 -- die-to-die links
  | .block => 15 -- block IDs
  | .log => 4 -- event logs
  | .copy => 2 -- Penva copies
  | .unit => 16 -- chain IDs
  | .tag => 65536 -- CXL.mem and chain tags
  | .key => 64 -- key indexes
  | .ttl => 16 -- TTL of a chain message
  | .seq12 => 4096 -- flit sequence numbers
  | .seq32 => 4294967296 -- write sequence numbers and tokens
  | .byte => 256 -- one-byte codes
  | .width => 513 -- access widths in bits, up to 64 bytes
  | .regAddr => 17825792 -- register addresses (R535)
  | .wake => 9 -- wake codes (Table 15.3)
  | .level => 3 -- levels of an ADDR pin (R559)
  | .refmode => 4 -- values of two REFMODE pins (R558)
  | .stream => 3 -- IDE streams of a port (Table 8.2, log entry 114)

/-- The operands of a path. -/
def Path.operands : Path → List (Rng × Nat)
  | .ld h l => [(.head, h), (.ld, l)]
  | .sideband => []
  | .cores => []

/-- The operands of a mailbox source. -/
def MboxSrc.operands : MboxSrc → List (Rng × Nat)
  | .ld h l => [(.head, h), (.ld, l)]
  | .sideband => []
  | .session h l _ => [(.head, h), (.ld, l)]

/-- The operands of a far request's header (Table 12.6). -/
def FarReq.operands (r : FarReq) : List (Rng × Nat) :=
  [(.unit, r.src), (.cls, r.cls), (.ttl, r.ttl), (.key, r.key), (.tag, r.tag), (.slot, r.slot), (.line, r.line),
   (.seq32, r.seq)]

/-- The numeric operands of a command with their ranges. -/
def Instr.operands : Instr → List (Rng × Nat)
  | .hostRead h l _ _ tag => [(.head, h), (.ld, l), (.tag, tag)]
  | .hostWrite h l _ _ tag _ _ => [(.head, h), (.ld, l), (.tag, tag)]
  | .hostPartialWrite h l _ _ tag _ _ _ => [(.head, h), (.ld, l), (.tag, tag)]
  | .memInv h l _ _ tag => [(.head, h), (.ld, l), (.tag, tag)]
  | .memClnEvct h l _ tag => [(.head, h), (.ld, l), (.tag, tag)]
  | .admissionCycle => []
  | .tokenRefill => []
  | .tmeMissFill slot tile _ => [(.slot, slot), (.tile, tile)]
  | .demandPromotion slot tile => [(.slot, slot), (.tile, tile)]
  | .bulkTileReadDone _ _ _ pipe _ => [(.aesPipe, pipe)]
  | .tagRecomputeDone _ pipe _ => [(.aesPipe, pipe)]
  | .haltViral => []
  | .haltChainStop => []
  | .haltZeroize => []
  | .codecTileDone _ pipe _ => [(.cdcPipe, pipe)]
  | .tcsRetryDone _ pipe _ => [(.cdcPipe, pipe)]
  | .promotionInstall _ => []
  | .candidateRefill => []
  | .demotionSelect engine => [(.engine, engine)]
  | .demotionCompressDone _ pipe _ => [(.cdcPipe, pipe.1)]
  | .allocEscalationResolved _ => []
  | .demotionCommit _ => []
  | .writeWaitResume _ => []
  | .crossingWaitResume slot tile => [(.slot, slot), (.tile, tile)]
  | .regionInitStep slot _ => [(.slot, slot)]
  | .nearPinWalkStep slot => [(.slot, slot)]
  | .retainRelocationDone slot => [(.slot, slot)]
  | .codecPipeDrained p => [(.cdcPipe, p)]
  | .cdcPipeActivate path p => [(.cdcPipe, p)] ++ path.operands
  | .cdcPipeDrain path p => [(.cdcPipe, p)] ++ path.operands
  | .cdcPipeFail path p => [(.cdcPipe, p)] ++ path.operands
  | .cryPipeActivate path p _ => [(.aesPipe, p)] ++ path.operands
  | .cryPipeDrain path p => [(.aesPipe, p)] ++ path.operands
  | .cryPipeFail path p => [(.aesPipe, p)] ++ path.operands
  | .aesPipeDrained p => [(.aesPipe, p)]
  | .aesKnownAnswerTest p _ => [(.aesPipe, p)]
  | .scrEngActivate path e => [(.engine, e)] ++ path.operands
  | .scrEngDrain path e => [(.engine, e)] ++ path.operands
  | .scrEngFail path e => [(.engine, e)] ++ path.operands
  | .scarabEngineDrained e => [(.engine, e)]
  | .dirBankActivate path bank way => [(.dirBank, bank), (.dirWay, way)] ++ path.operands
  | .dirBankFail path bank way => [(.dirBank, bank), (.dirWay, way)] ++ path.operands
  | .ctlCoreActivate path core => [(.core, core)] ++ path.operands
  | .ctlCoreFail path core => [(.core, core)] ++ path.operands
  | .trngHealthFail => []
  | .rekeyKeyReady slot => [(.slot, slot)]
  | .rekeyWalkStep slot => [(.slot, slot)]
  | .rekeyDone slot => [(.slot, slot)]
  | .dramCommandSlot _ ch _ _ => [(.channel, ch)]
  | .dramReadData _ _ _ => []
  | .rowRemapCopyDone ch _ => [(.bulkChannel, ch)]
  | .edcWriteFail ch _ => [(.channel, ch)]
  | .channelRetrainDone _ ch _ => [(.channel, ch)]
  | .pmicPowerFault d => [(.dimm, d)]
  | .pmicStatusPoll _ _ => []
  | .temperaturePoll _ _ => []
  | .refreshDue _ ch rank => [(.channel, ch), (.rank, rank)]
  | .periodicTrainingDue _ ch _ => [(.channel, ch)]
  | .memoryTrainingDone _ => []
  | .dimmFullTrainingDone _ => []
  | .selfRefreshBulkCommit => []
  | .selfRefreshNearCommit => []
  | .selfRefreshExitDone _ => []
  | .evacuationMove => []
  | .scrubAllowance => []
  | .scrubUnit _ _ => []
  | .retentionSweepStep => []
  | .linkTrained port _ _ _ _ => [(.head, port)]
  | .portReset port => [(.head, port)]
  | .functionReset h l _ => [(.head, h), (.ld, l)]
  | .memclrDone h l => [(.head, h), (.ld, l)]
  | .hostViral port => [(.head, port)]
  | .doorbellWrite h l q _ _ => [(.head, h), (.ld, l), (.queue, q)]
  | .doorbellRead h l q tag => [(.head, h), (.ld, l), (.queue, q), (.tag, tag)]
  | .fireflyWindowRead h l _ tag => [(.head, h), (.ld, l), (.tag, tag)]
  | .getInfo src _ => src.operands
  | .regionCreate src _ => src.operands
  | .regionDelete src _ => src.operands
  | .regionDeleteDone slot => [(.slot, slot)]
  | .regionSet src _ => src.operands
  | .regionGrant src _ => src.operands
  | .regionQuery src _ => src.operands
  | .setKeyMode src _ => src.operands
  | .loadWrapKey src _ => src.operands
  | .loadKeySlot src _ => src.operands
  | .clearKeySlot src _ => src.operands
  | .rekeyRegion src _ => src.operands
  | .setPowerState src _ => src.operands
  | .getPowerState src _ => src.operands
  | .setRetainSets src _ => src.operands
  | .setSpareSet src _ => src.operands
  | .evacuateSet src _ => src.operands
  | .clearRetention src _ => src.operands
  | .getSpd src _ => src.operands
  | .getErrorLog src _ => src.operands
  | .clearErrorLog src _ => src.operands
  | .headConfig src _ => src.operands
  | .setHold src _ => src.operands
  | .queueSet src _ => src.operands
  | .queueDisable src _ => src.operands
  | .queueQuery src _ => src.operands
  | .getPoisonList h l _ _ => [(.head, h), (.ld, l)]
  | .injectPoison h l _ => [(.head, h), (.ld, l)]
  | .clearPoison h l _ _ => [(.head, h), (.ld, l)]
  | .getEventRecords h l log => [(.head, h), (.ld, l), (.log, log)]
  | .clearEventRecords h l log _ => [(.head, h), (.ld, l), (.log, log)]
  | .getEventInterruptPolicy h l => [(.head, h), (.ld, l)]
  | .setEventInterruptPolicy h l _ => [(.head, h), (.ld, l)]
  | .getTimestamp h l => [(.head, h), (.ld, l)]
  | .setTimestamp h l _ => [(.head, h), (.ld, l)]
  | .identifyMemoryDevice h l => [(.head, h), (.ld, l)]
  | .getFwInfo h l => [(.head, h), (.ld, l)]
  | .transferFw h l _ _ _ _ => [(.head, h), (.ld, l)]
  | .transferFwDone _ => []
  | .activateFw h l _ _ => [(.head, h), (.ld, l)]
  | .dcAddAccept h l slot _ => [(.head, h), (.ld, l), (.slot, slot)]
  | .dcAddRefuse h l slot => [(.head, h), (.ld, l), (.slot, slot)]
  | .dcRelease h l slot => [(.head, h), (.ld, l), (.slot, slot)]
  | .ideKmMessage port _ => [(.head, port)]
  | .spdmMessage h l _ => [(.head, h), (.ld, l)]
  | .spdmSecuredAvsar h l _ _ _ => [(.head, h), (.ld, l)]
  | .birspi h line => [(.head, h), (.line, line)]
  | .birsps h line => [(.head, h), (.line, line)]
  | .birspe h line => [(.head, h), (.line, line)]
  | .biconflict h line => [(.head, h), (.line, line)]
  | .biTimeout h => [(.head, h)]
  | .dirSweepDone _ => []
  | .gateTick => []
  | .minwinEnd c => [(.cls, c)]
  | .gclSwap => []
  | .gclSwapRequest path => path.operands
  | .monitorWindowEnd => []
  | .floorRecompute => []
  | .descriptorFetch q => [(.queue, q)]
  | .nop _ => []
  | .fence _ => []
  | .copy _ => []
  | .fill _ => []
  | .zero _ => []
  | .compress _ => []
  | .decompress _ => []
  | .checksum _ => []
  | .promote _ => []
  | .demote _ => []
  | .pin _ => []
  | .unpin _ => []
  | .retire _ => []
  | .rekey _ => []
  | .scrubRange _ => []
  | .jobPartDone _ _ pipes => pipes.map (fun p => (.cdcPipe, p.1))
  | .coalTimeExpiry q => [(.queue, q)]
  | .clDownTimer p => [(.chain, p)]
  | .clDetect p _ => [(.chain, p)]
  | .clTrainLock p _ _ => [(.chain, p)]
  | .clFlitLock p => [(.chain, p)]
  | .clStateTimeout p => [(.chain, p)]
  | .clLockLoss p => [(.chain, p)]
  | .clLinkDown p => [(.chain, p)]
  | .clRetrainDone p _ _ => [(.chain, p)]
  | .clRetrain path p => [(.chain, p)] ++ path.operands
  | .clMark path p _ => [(.chain, p)] ++ path.operands
  | .clPortEnable path p _ => [(.chain, p)] ++ path.operands
  | .dataFlit p _ => [(.chain, p)]
  | .idle p _ => [(.chain, p)]
  | .init p _ _ => [(.chain, p)]
  | .nak p _ seq => [(.chain, p), (.seq12, seq)]
  | .replay p _ seq => [(.chain, p), (.seq12, seq)]
  | .ring p _ _ _ => [(.chain, p)]
  | .token p _ _ => [(.chain, p)]
  | .assign p _ _ => [(.chain, p)]
  | .replayTimerExpiry p => [(.chain, p)]
  | .controlFlitDue p => [(.chain, p)]
  | .initResend p => [(.chain, p)]
  | .ringPeriodic => []
  | .rd p msg => [(.chain, p)] ++ msg.operands
  | .wr p msg _ => [(.chain, p)] ++ msg.operands
  | .wrp p msg _ _ => [(.chain, p)] ++ msg.operands
  | .sync p src tok => [(.chain, p), (.unit, src), (.seq32, tok)]
  | .rdRsp p src tag status _ _ => [(.chain, p), (.unit, src), (.tag, tag), (.byte, status)]
  | .wrRsp p src tag status seq => [(.chain, p), (.unit, src), (.tag, tag), (.byte, status), (.seq32, seq)]
  | .syncAck p src base => [(.chain, p), (.unit, src), (.seq32, base)]
  | .farWriteApplied src seq => [(.unit, src), (.seq32, seq)]
  | .e2eTimeout _ _ => []
  | .farLimitExpiry _ => []
  | .discoveryRound => []
  | .assignTimeout => []
  | .heartbeatCheck _ => []
  | .coreRoleMoveDone core => [(.core, core)]
  | .bootCoreAliveTimeout => []
  | .bootRom => []
  | .flashCopyChecked cp _ => [(.copy, cp)]
  | .memActive => []
  | .kick path => path.operands
  | .wdtHalfTimeout => []
  | .wdtTimeout => []
  | .eventTick => []
  | .evtLdTest path h l => [(.head, h), (.ld, l)] ++ path.operands
  | .evtFmTest path => path.operands
  | .now path => path.operands
  | .aonEntryStart _ => []
  | .p2EntryComplete => []
  | .flushDone => []
  | .p3PowerDown => []
  | .wakeEvent code => [(.wake, code)]
  | .p2EntryRetry => []
  | .cricketMatch _ => []
  | .wakeN => []
  | .epochAlarm => []
  | .p1ExitDone => []
  | .p2ExitDone => []
  | .resumeAreaCheck _ => []
  | .canaryCheck _ _ _ => []
  | .p3ExitDone _ _ => []
  | .powerOnReset => []
  | .coldCmd path => path.operands
  | .warmReq path => path.operands
  | .resetNLow _ => []
  | .quiesceDone => []
  | .quiesceTimeout => []
  | .resetRelease => []
  | .blkRstReq path block => [(.block, block)] ++ path.operands
  | .blockResetEnd block => [(.block, block)]
  | .fuseLoadDone _ _ _ => []
  | .xtalQualified x => [(.level, x.addr0), (.level, x.addr1), (.level, x.addr2), (.refmode, x.refmode0), (.refmode, x.refmode1)]
  | .lsclkSwitch _ => []
  | .pllLockLoss pll => [(.pll, pll)]
  | .pllRelockRetry pll _ => [(.pll, pll)]
  | .pllQualified pll => [(.pll, pll)]
  | .supplyGroupEnable g => [(.group, g)]
  | .supplyRiseTimeout i => [(.supply, i)]
  | .supplyWarn i => [(.supply, i)]
  | .supplyRecovered i => [(.supply, i)]
  | .brownThrottleLift => []
  | .supplyResetCrossing i => [(.supply, i)]
  | .thermalThrottle _ => []
  | .thermalThrottleLift => []
  | .thermalShutdown => []
  | .d2dLinkLost k => [(.die, k)]
  | .ftimePulse _ => []
  | .ftimePulseMissed => []
  | .xtalBoundary => []
  | .epochLoad path _ => path.operands
  | .lsCalibration _ => []
  | .read32 _ _ => []
  | .read64 _ _ => []
  | .write32 _ _ => []
  | .write64 _ _ => []
  | .registerWrite path addr width _ => [(.regAddr, addr), (.width, width)] ++ path.operands
  | .registerReadClear path addr width => [(.regAddr, addr), (.width, width)] ++ path.operands
  | .lock path block => [(.block, block)] ++ path.operands
  | .aesKeyParityError p => [(.aesPipe, p)]
  | .scarabEngineFault e => [(.engine, e)]
  | .coreSramError core _ => [(.core, core)]
  | .chainLowPowerSubstate p => [(.chain, p)]
  | .ideIntegrityFailure stream => [(.head, stream.port), (.stream, stream.number)]
  | .jtagInstruction _ => []
  | .d2dTransferReplay k _ => [(.die, k)]

/-- A command is well formed when every numeric operand lies in its range. -/
def Instr.wf (i : Instr) : Bool := i.operands.all (fun p => decide (p.2 < p.1.bound))

end Sys2Proof
end

