-- ==== Sys2Proof/Decode.lean ====
section
/-!
DEFINITION. Decode.lean: the opcode table gives none of its rows any bits (every row's field list is empty), so no
word spells a command.
-/
namespace Sys2Proof

/-- The command that a word of nbits bits spells by the bits of the opcode table: none, for the table gives no row any
bits. -/
def decodeTableWord (_nbits _w : Nat) : Option Instr := none

end Sys2Proof
end

