-- ==== Sys2Proof/Config.lean ====
section
/-!
DEFINITION. Config.lean: what an implementation fixes and the spec leaves open. Every constant here is opaque: nothing
can be proved about its value, so a statement holds whatever the value is (log entry 5).
-/
namespace Sys2Proof.Config

/-- The value a counter holds after it passed its field, where the spec states neither a wrap nor a saturation. -/
opaque counterOverflow : Nat → Nat → Nat

/-- The root key drawn from the random source at a cold reset (R134), by the draw counter. -/
opaque rootKey : Nat → BitVec 256

/-- The bits of the Mayfly sampler's free-running LFSR (R176), by the draw counter. -/
opaque sampler : Nat → Nat

/-- The hash of region slot and tile number that indexes the tile map cache (R70): a set number. -/
opaque cacheSet : Nat → Nat → Nat

/-- The item stream that the encoder makes of plaintext bytes at a level (R114): tile framing when tile is true, a
block of stream framing otherwise. The model checks it with the decoder (R124) and stores it only when it decodes. -/
opaque encode : (tile : Bool) → (level : Nat) → List Byte → List Byte

/-- The key schedule, nonces and certificates of the attestation unit (R452): the bytes of an answer, by a selector
and the draw counter. -/
opaque attest : Nat → Nat → List Byte

/-- Contents of memory the spec calls unspecified (R122, R390), by the draw counter and the offset. -/
opaque unspecified : Nat → Nat → Byte

/-- SPD contents of a DIMM (R222), by DIMM and offset: they lie outside the unit. -/
opaque spd : Nat → Nat → Byte

/-- A register below the block windows that the CXL specification defines (R533), by address and draw counter. -/
opaque cxlRegister : Nat → Nat → BitVec 64

/-- What training saves for a channel (R210), by channel key and draw counter. -/
opaque trainedValue : Nat → Nat → BitVec 64

/-- The certificate chain that the provisioning area holds (R452): the spec gives the area no layout. -/
opaque certChain : List (Nat × Byte) → List Byte

/-- SHA-384 of the boot ROM (Table 13.8): its bytes are not in the spec. -/
opaque romHash : List Byte

/-- SHA-384 of the fuse configuration rows (Table 13.8): how the rows lie in bytes is not in the spec. -/
opaque fuseHash : Fuses → List Byte

/-- The Avsar version that GET_INFO reports (R300): the spec names no number. -/
opaque avsarVersion : Nat

/-- An AES pipe's share of the lines and sectors processed beside the bulk tiles that its commands name (Table 4.13): the spec
does not say which pipe takes a line. By pipe and the lines processed when its count was last read and now. -/
opaque aesLines : Nat → Nat → Nat → Nat

/-- Whether an AES pipe holds some of the work under way (Table 4.13), by pipe and draw counter: as for aesLines. -/
opaque aesBusy : Nat → Nat → Bool

/-- The outcome of the known-answer test that a register write of CRY_PIPE_CTL.CMD 1 starts (R165), by pipe and draw counter. -/
opaque katPass : Nat → Nat → Bool

/-- Check byte i of a bulk ECC word's 64 bytes (R205), and of a near line's (R206): the spec names no generator. -/
opaque bulkCheck : List Byte → Nat → Byte
opaque nearCheck : List Byte → Nat → Byte

/-- The bytes of the sector at a place of a list of runs (length and first sector) in the bulk tier (R73, R77): the spec
gives the allocator's lists no layout. -/
opaque runSector : List (Nat × Nat) → Nat → List Byte

/-- Whether a delay of 1 to 15 ns counts in histogram bin 1, not 0: Table 10.8 gives it no bin (log entry 35). -/
opaque delayLow : Nat → Bool

/-- Whether a delay of 131,072 to 262,143 ns counts in bin 15, not 14: Table 10.8 gives it both (log entry 35). -/
opaque delayHigh : Nat → Bool

end Sys2Proof.Config
end

