-- ==== Sys2Proof/Machine/Data.lean ====
section
/-!
DEFINITION. Machine/Data.lean: the plain containers the state is made of (sparse maps, sets of numbers, byte memories)
and the little-endian byte helpers (R17). All recursion is structural.
-/
namespace Sys2Proof.Machine

/-! ## Sparse maps: lists of (key, value), keys strictly rising. -/

/-- The value listed for a key, if any. -/
def mget {α : Type} (m : List (Nat × α)) (k : Nat) : Option α :=
  match m with
  | [] => none
  | (k', v) :: m => if k = k' then some v else mget m k

/-- List a value for a key, keeping the keys rising. -/
def mput {α : Type} (m : List (Nat × α)) (k : Nat) (v : α) : List (Nat × α) :=
  match m with
  | [] => [(k, v)]
  | (k', v') :: m =>
    if k < k' then (k, v) :: (k', v') :: m
    else if k = k' then (k, v) :: m
    else (k', v') :: mput m k v

/-- Unlist a key. -/
def mdel {α : Type} (m : List (Nat × α)) (k : Nat) : List (Nat × α) :=
  m.filter (fun e => decide (e.1 ≠ k))

/-- The value of a key where unlisted keys hold d. -/
def mgetD {α : Type} (m : List (Nat × α)) (k : Nat) (d : α) : α := (mget m k).getD d

/-- Set a key where unlisted keys hold d: a value equal to d is not listed. -/
def mset {α : Type} [DecidableEq α] (d : α) (m : List (Nat × α)) (k : Nat) (v : α) : List (Nat × α) :=
  if v = d then mdel m k else mput m k v

/-- The keys of a map rise strictly. -/
def mwf {α : Type} (m : List (Nat × α)) : Bool :=
  match m with
  | [] => true
  | (k, _) :: m => m.all (fun e => decide (k < e.1)) && mwf m

/-! ## Sets of numbers: strictly rising lists. -/

/-- Insert a number. -/
def ninsert (s : List Nat) (k : Nat) : List Nat :=
  match s with
  | [] => [k]
  | x :: s => if k < x then k :: x :: s else if k = x then x :: s else x :: ninsert s k

/-- Remove a number. -/
def nerase (s : List Nat) (k : Nat) : List Nat := s.filter (fun x => decide (x ≠ k))

/-- Insert the numbers a, a + 1, … a + n − 1. -/
def ninsertRange (s : List Nat) (a n : Nat) : List Nat :=
  s.filter (fun x => decide (x < a)) ++ (List.range n).map (a + ·) ++ s.filter (fun x => decide (a + n ≤ x))

/-- Remove the numbers a, a + 1, … a + n − 1. -/
def neraseRange (s : List Nat) (a n : Nat) : List Nat :=
  s.filter (fun x => decide (x < a ∨ a + n ≤ x))

/-! ## Byte memories: lists of Host.Cell; an unlisted address reads as the byte d. -/

/-- One byte. -/
def memRead (d : Byte) (m : List Host.Cell) (a : Nat) : Byte := mgetD m a d

/-- n bytes from an address on. -/
def memReadN (d : Byte) (m : List Host.Cell) (a n : Nat) : List Byte :=
  (List.range n).map (fun i => memRead d m (a + i))

/-- The cells that bytes at an address list: none for the default byte. -/
def memCells (d : Byte) (a : Nat) : List Byte → List Host.Cell
  | [] => []
  | b :: bs => if b = d then memCells d (a + 1) bs else (a, b) :: memCells d (a + 1) bs

/-- Write bytes from an address on; the canonical form is kept (memWrite_wf). -/
def memWrite (d : Byte) (m : List Host.Cell) (a : Nat) (bs : List Byte) : List Host.Cell :=
  m.filter (fun c => decide (c.1 < a)) ++ memCells d a bs ++
    m.filter (fun c => decide (a + bs.length ≤ c.1))

/-- The canonical form of a byte memory: addresses strictly rising, no cell equal to the default byte. -/
def memWf (d : Byte) (m : List Host.Cell) : Bool := mwf m && m.all (fun c => decide (c.2 ≠ d))

/-! ## Bytes and numbers, little-endian. -/

/-- The number that bytes spell, byte 0 least significant. -/
def leNat : List Byte → Nat
  | [] => 0
  | b :: bs => b.toNat + 256 * leNat bs

/-- The n low bytes of a number. -/
def leBytes : Nat → Nat → List Byte
  | 0, _ => []
  | n + 1, v => BitVec.ofNat 8 v :: leBytes n (v / 256)

/-- The number that bytes spell, byte 0 most significant. -/
def beNat (bs : List Byte) : Nat := leNat bs.reverse

/-- The n low bytes of a number, most significant first. -/
def beBytes (n v : Nat) : List Byte := (leBytes n v).reverse

/-- Bytes a to a + n − 1 of a list; missing bytes read as zero. -/
def bytesAt (bs : List Byte) (a n : Nat) : List Byte :=
  (List.range n).map (fun i => (bs.drop a).getD i 0)

/-- The number in n bytes from byte a of a list, little-endian. -/
def numAt (bs : List Byte) (a n : Nat) : Nat := leNat (bytesAt bs a n)

/-- Bits hi to lo of a number (R15). -/
def bits (v hi lo : Nat) : Nat := (v / 2 ^ lo) % 2 ^ (hi + 1 - lo)

/-- Bit i of a number. -/
def bitOf (v i : Nat) : Bool := v.testBit i

/-- 1 for true, 0 for false. -/
def b2n (b : Bool) : Nat := if b then 1 else 0

/-- Set bit i of a number. -/
def setBit (v i : Nat) : Nat := v ||| 2 ^ i

/-- Clear bit i of a number. -/
def clrBit (v i : Nat) : Nat := if v.testBit i then v - 2 ^ i else v

/-- Put bit i of a number to b. -/
def putBit (v i : Nat) (b : Bool) : Nat := if b then setBit v i else clrBit v i

/-- How many of bits 0 to n − 1 are 1. -/
def countBits : Nat → Nat → Nat
  | 0, _ => 0
  | n + 1, v => countBits n v + b2n (v.testBit n)

/-- The positions among 0 to n − 1 whose bit is 1, rising. -/
def bitList (n v : Nat) : List Nat := (List.range n).filter (fun i => v.testBit i)

/-- The number with exactly the listed bits set. -/
def maskOf (l : List Nat) : Nat := l.foldl (fun v i => v ||| 2 ^ i) 0

/-- v brought into lo..hi (R22). -/
def clampTo (lo hi v : Nat) : Nat := min hi (max lo v)

/-- a divided by b, rounded up. -/
def ceilDiv (a b : Nat) : Nat := (a + b - 1) / b

/-- Apply f n times. -/
def times {α : Type} : Nat → (α → α) → α → α
  | 0, _, x => x
  | n + 1, f, x => times n f (f x)

/-- The 64 bytes of a line. -/
def lineBytes (v : Line) : List Byte := leBytes 64 v.toNat

/-- The line that 64 bytes spell. -/
def lineOf (bs : List Byte) : Line := BitVec.ofNat 512 (leNat bs)

/-- Split a list into pieces of n, at most k of them. -/
def chunks {α : Type} (n : Nat) : Nat → List α → List (List α)
  | 0, _ => []
  | k + 1, l => if l.isEmpty then [] else l.take n :: chunks n k (l.drop n)

/-- The line that writing the enabled bytes of new over old leaves (byte enable i for byte i). -/
def mergeLine (old new : Line) (be : BitVec 64) : Line :=
  lineOf ((List.range 64).map (fun i =>
    if be.getLsbD i then (lineBytes new).getD i 0 else (lineBytes old).getD i 0))

end Sys2Proof.Machine
end

