-- ==== Sys2Proof/Machine/Fields.lean ====
section
/-!
DEFINITION. Machine/Fields.lean: the register fields of the spec, one definition per field, and the table of them.
Each row is written from the register table of its block's chapter (Table 17.3 for the page header): block ID,
first and last page, offset in the page, stride and count of an indexed register, bits, access code (Table 0.3),
reset value, a note, reset letters (Table 0.4) and the range a write is clamped to (R22, R549).
The note is 0 for a plain reset value, 1 for ADM_ING_BKT's 16 × i + class, 2 for a value that fuses, straps or
training supply (read as zero until they do: log entry 1), 3 for a value that is computed on every read.
-/
namespace Sys2Proof.Machine

/-- Access codes of Table 0.3. -/
inductive Acc where
  | rw | ro | w1c | wo | rwl | rc
  deriving DecidableEq, Repr

/-- One register field of the spec's tables (R17 to R19). -/
structure Fld where
  blk : Nat
  p0 : Nat
  pn : Nat
  off : Nat
  stride : Nat
  cnt : Nat
  hi : Nat
  lo : Nat
  acc : Acc
  rst : Nat
  dyn : Nat
  ltr : Nat
  clamp : Option (Nat × Nat)
  deriving DecidableEq, Repr

/-- The width of a field in bits. -/
def Fld.width (f : Fld) : Nat := f.hi + 1 - f.lo

/-- The byte address of a register (R535): instance page i of the field's pages, index k of an indexed register. -/
def Fld.addr (f : Fld) (i k : Nat) : Nat :=
  0x100000 + f.blk * 0x100000 + (f.p0 + i) * 0x1000 + f.off + k * f.stride

/-- The key a field is stored under: its register's address and its lowest bit. No two fields share one. -/
def Fld.key (f : Fld) (i k : Nat) : Nat := f.addr i k * 64 + f.lo

/-- The reset value of a field (Reset columns). -/
def Fld.rstAt (f : Fld) (i k : Nat) : Nat :=
  if f.dyn = 1 then (if i = 18 then 0 else 16 * i + 4 * k + f.rst) else f.rst

namespace F


/-! Table 2.8, R92, 02_tiles_and_regions.md. -/
def TMU_CAP_TOTAL_SECTORS : Fld := ⟨6, 0, 0, 0x40, 0, 1, 39, 0, .ro, 0, 2, 0x03, none⟩
def TMU_CAP_COMMIT_SECTORS : Fld := ⟨6, 0, 0, 0x48, 0, 1, 39, 0, .ro, 0, 0, 0x21, none⟩
def TMU_CAP_FREE_SECTORS : Fld := ⟨6, 0, 0, 0x50, 0, 1, 39, 0, .ro, 0, 0, 0x21, none⟩
def TMU_MAP_BASE_LOC : Fld := ⟨6, 0, 0, 0x58, 0, 1, 36, 0, .ro, 0, 2, 0x01, none⟩
def TMU_FAULT_ADDR_DPA : Fld := ⟨6, 0, 0, 0x60, 0, 1, 45, 0, .ro, 0, 0, 0x03, none⟩
def TMU_FAULT_ADDR_HEAD : Fld := ⟨6, 0, 0, 0x60, 0, 1, 51, 48, .ro, 0, 0, 0x03, none⟩
def TMU_FAULT_ADDR_CAUSE : Fld := ⟨6, 0, 0, 0x60, 0, 1, 55, 52, .ro, 0, 0, 0x03, none⟩
def TMU_PRESS_PEND_SLOT : Fld := ⟨6, 0, 0, 0x68, 0, 1, 63, 0, .w1c, 0, 0, 0x03, none⟩
def TMU_FENCE_PEND_SLOT : Fld := ⟨6, 0, 0, 0x70, 0, 1, 63, 0, .w1c, 0, 0, 0x03, none⟩
def TMU_LOCK_STS_USED : Fld := ⟨6, 0, 0, 0x78, 0, 1, 11, 0, .ro, 0, 0, 0x13, none⟩
def TMU_LOCK_STS_DIRTY : Fld := ⟨6, 0, 0, 0x78, 0, 1, 31, 16, .ro, 0, 0, 0x13, none⟩
def TMU_MAP_SIZE_SECTORS : Fld := ⟨6, 0, 0, 0x80, 0, 1, 39, 0, .ro, 0, 2, 0x01, none⟩

/-! Table 2.9, R92, 02_tiles_and_regions.md. -/
def TMU_RGN_MAP_BASE : Fld := ⟨6, 1, 64, 0x40, 0, 1, 14, 0, .rw, 0, 0, 0x21, none⟩
def TMU_RGN_MAP_SIZE : Fld := ⟨6, 1, 64, 0x40, 0, 1, 30, 16, .rw, 0, 0, 0x21, none⟩
def TMU_RGN_MAP_TYPE : Fld := ⟨6, 1, 64, 0x40, 0, 1, 34, 32, .rw, 0, 0, 0x21, some (0, 4)⟩
def TMU_RGN_MAP_STATE : Fld := ⟨6, 1, 64, 0x40, 0, 1, 38, 36, .ro, 0, 0, 0x21, none⟩
def TMU_RGN_MAP_RETAIN : Fld := ⟨6, 1, 64, 0x40, 0, 1, 39, 39, .rw, 0, 0, 0x21, none⟩
def TMU_RGN_MAP_OWNER : Fld := ⟨6, 1, 64, 0x40, 0, 1, 63, 48, .rw, 0, 0, 0x21, none⟩
def TMU_RGN_POLICY_DEF_CLASS : Fld := ⟨6, 1, 64, 0x48, 0, 1, 3, 0, .rw, 0, 0, 0x21, none⟩
def TMU_RGN_POLICY_LEVEL : Fld := ⟨6, 1, 64, 0x48, 0, 1, 7, 4, .rw, 2, 0, 0x21, some (0, 9)⟩
def TMU_RGN_POLICY_TIER : Fld := ⟨6, 1, 64, 0x48, 0, 1, 9, 8, .rw, 0, 0, 0x21, some (0, 2)⟩
def TMU_RGN_POLICY_KEYGEN : Fld := ⟨6, 1, 64, 0x48, 0, 1, 47, 16, .ro, 0, 0, 0x21, none⟩
def TMU_RGN_POLICY_HOME : Fld := ⟨6, 1, 64, 0x48, 0, 1, 51, 48, .rw, 0, 0, 0x21, none⟩
def TMU_RGN_POLICY_HOME_SLOT : Fld := ⟨6, 1, 64, 0x48, 0, 1, 57, 52, .rw, 0, 0, 0x21, none⟩
def TMU_RGN_POLICY_EXPORT_EN : Fld := ⟨6, 1, 64, 0x48, 0, 1, 58, 58, .rw, 0, 0, 0x21, none⟩
def TMU_RGN_POLICY_EXPORT_UNIT : Fld := ⟨6, 1, 64, 0x48, 0, 1, 63, 60, .rw, 0, 0, 0x21, none⟩
def TMU_RGN_MAPLOC_LOC : Fld := ⟨6, 1, 64, 0x50, 0, 1, 36, 0, .ro, 0, 0, 0x21, none⟩
def TMU_RGN_BUDGET_BUDGET : Fld := ⟨6, 1, 64, 0x58, 0, 1, 39, 0, .rw, 0, 0, 0x21, none⟩
def TMU_RGN_DIRTYCAP_DIRTY_CAP : Fld := ⟨6, 1, 64, 0x60, 0, 1, 23, 0, .rw, 0x10000, 0, 0x21, some (1, 16777215)⟩
def TMU_RGN_RESERVE_RESERVE : Fld := ⟨6, 1, 64, 0x68, 0, 1, 39, 0, .ro, 0, 0, 0x21, none⟩
def TMU_RGN_USED_USED : Fld := ⟨6, 1, 64, 0x70, 0, 1, 39, 0, .ro, 0, 0, 0x21, none⟩
def TMU_RGN_THRESH_T1 : Fld := ⟨6, 1, 64, 0x78, 0, 1, 6, 0, .rw, 75, 0, 0x21, none⟩
def TMU_RGN_THRESH_T2 : Fld := ⟨6, 1, 64, 0x78, 0, 1, 14, 8, .rw, 90, 0, 0x21, none⟩
def TMU_RGN_THRESH_T3 : Fld := ⟨6, 1, 64, 0x78, 0, 1, 22, 16, .rw, 97, 0, 0x21, none⟩
def TMU_RGN_THRESH_LEVEL : Fld := ⟨6, 1, 64, 0x78, 0, 1, 25, 24, .ro, 0, 0, 0x21, none⟩
def TMU_RGN_DIRTY_FRAMES : Fld := ⟨6, 1, 64, 0x80, 0, 1, 23, 0, .ro, 0, 0, 0x21, none⟩
def TMU_RGN_INIT_WATERMARK : Fld := ⟨6, 1, 64, 0x88, 0, 1, 32, 0, .ro, 0, 0, 0x21, none⟩
def TMU_RGN_DROP_DROP_CNT : Fld := ⟨6, 1, 64, 0x90, 0, 1, 31, 0, .rc, 0, 0, 0x03, none⟩

/-! Table 2.10, R92, 02_tiles_and_regions.md. -/
def TMU_HEAD_TAG_CLASS_EN : Fld := ⟨6, 65, 65, 0x40, 8, 16, 0, 0, .rw, 0, 0, 0x2b, none⟩
def TMU_HEAD_TAG_KEY_EN : Fld := ⟨6, 65, 65, 0x40, 8, 16, 1, 1, .rw, 0, 0, 0x2b, none⟩

/-! Table 3.12, R130, 03_tile_codec.md. -/
def CDC_DISP_JOB_MAX : Fld := ⟨7, 0, 0, 0x40, 0, 1, 4, 0, .rw, 8, 0, 0x03, some (1, 16)⟩
def CDC_DISP_FAULT_THRESH : Fld := ⟨7, 0, 0, 0x40, 0, 1, 11, 8, .rw, 4, 0, 0x03, some (1, 15)⟩
def CDC_DISP_RETRY_EN : Fld := ⟨7, 0, 0, 0x40, 0, 1, 16, 16, .rw, 1, 0, 0x03, none⟩
def CDC_STATUS_ACTIVE : Fld := ⟨7, 0, 0, 0x48, 0, 1, 4, 0, .ro, 0, 2, 0x03, none⟩
def CDC_STATUS_SPARE : Fld := ⟨7, 0, 0, 0x48, 0, 1, 12, 8, .ro, 0, 2, 0x03, none⟩
def CDC_STATUS_FAILED : Fld := ⟨7, 0, 0, 0x48, 0, 1, 20, 16, .ro, 0, 2, 0x21, none⟩
def CDC_STATUS_OFFLINE : Fld := ⟨7, 0, 0, 0x48, 0, 1, 24, 24, .ro, 0, 0, 0x03, none⟩
def CDC_JOB_ERR_QUEUE : Fld := ⟨7, 0, 0, 0x50, 0, 1, 19, 0, .ro, 0, 0, 0x03, none⟩
def CDC_JOB_ERR_CAUSE : Fld := ⟨7, 0, 0, 0x50, 0, 1, 23, 20, .ro, 0, 0, 0x03, none⟩
def CDC_JOB_ERR_OFFSET : Fld := ⟨7, 0, 0, 0x50, 0, 1, 63, 24, .ro, 0, 0, 0x03, none⟩
def CDC_RAW_CNT_TILES : Fld := ⟨7, 0, 0, 0x58, 0, 1, 47, 0, .rc, 0, 0, 0x13, none⟩
def CDC_IN_CNT_TILES : Fld := ⟨7, 0, 0, 0x60, 0, 1, 47, 0, .rc, 0, 0, 0x13, none⟩
def CDC_OUT_SECT_SECTORS : Fld := ⟨7, 0, 0, 0x68, 0, 1, 47, 0, .rc, 0, 0, 0x13, none⟩
def CDC_RETRY_CNT_COUNT : Fld := ⟨7, 0, 0, 0x70, 0, 1, 31, 0, .rc, 0, 0, 0x13, none⟩
def CDC_RETRY_CNT_FAILED : Fld := ⟨7, 0, 0, 0x70, 0, 1, 63, 32, .rc, 0, 0, 0x13, none⟩

/-! Table 3.13, R130, 03_tile_codec.md. -/
def CDC_PIPE_CTL_STATE : Fld := ⟨7, 1, 17, 0x40, 0, 1, 2, 0, .ro, 0, 2, 0x21, none⟩
def CDC_PIPE_CTL_CMD : Fld := ⟨7, 1, 17, 0x40, 0, 1, 6, 4, .wo, 0, 0, 0x00, none⟩
def CDC_PIPE_FAULT_COUNT : Fld := ⟨7, 1, 17, 0x48, 0, 1, 3, 0, .ro, 0, 0, 0x13, none⟩
def CDC_PIPE_FAULT_TOTAL : Fld := ⟨7, 1, 17, 0x48, 0, 1, 31, 16, .ro, 0, 0, 0x01, none⟩
def CDC_PIPE_WORK_UNITS : Fld := ⟨7, 1, 17, 0x50, 0, 1, 47, 0, .rc, 0, 0, 0x13, none⟩
def CDC_PIPE_BUSY_BUSY : Fld := ⟨7, 1, 17, 0x58, 0, 1, 0, 0, .ro, 0, 0, 0x13, none⟩

/-! Table 4.10, R166, 04_crypto.md. -/
def CRY_MODE_MODE : Fld := ⟨8, 0, 0, 0x40, 0, 1, 0, 0, .ro, 0, 0, 0x21, none⟩
def CRY_MODE_ROOT_VALID : Fld := ⟨8, 0, 0, 0x40, 0, 1, 1, 1, .ro, 0, 0, 0x21, none⟩
def CRY_MODE_KEK_VALID : Fld := ⟨8, 0, 0, 0x40, 0, 1, 2, 2, .ro, 0, 0, 0x21, none⟩
def CRY_MODE_TRNG_OK : Fld := ⟨8, 0, 0, 0x40, 0, 1, 3, 3, .ro, 0, 0, 0x01, none⟩
def CRY_MODE_HALTED : Fld := ⟨8, 0, 0, 0x40, 0, 1, 8, 8, .ro, 0, 0, 0x01, none⟩
def CRY_STATUS_ACTIVE : Fld := ⟨8, 0, 0, 0x48, 0, 1, 5, 0, .ro, 0, 2, 0x03, none⟩
def CRY_STATUS_SPARE : Fld := ⟨8, 0, 0, 0x48, 0, 1, 13, 8, .ro, 0, 2, 0x03, none⟩
def CRY_STATUS_FAILED : Fld := ⟨8, 0, 0, 0x48, 0, 1, 21, 16, .ro, 0, 2, 0x21, none⟩
def CRY_CFG_FAULT_THRESH : Fld := ⟨8, 0, 0, 0x50, 0, 1, 3, 0, .rw, 4, 0, 0x03, some (1, 15)⟩
def CRY_CFG_REKEY_FLOOR : Fld := ⟨8, 0, 0, 0x50, 0, 1, 18, 8, .rw, 100, 0, 0x03, some (100, 400)⟩
def CRY_XTAB_USED : Fld := ⟨8, 0, 0, 0x58, 0, 1, 11, 0, .ro, 0, 0, 0x21, none⟩
def CRY_XTAB_WAITS : Fld := ⟨8, 0, 0, 0x58, 0, 1, 47, 16, .rc, 0, 0, 0x03, none⟩
def CRY_HALT_REC_TILE : Fld := ⟨8, 0, 0, 0x60, 0, 1, 31, 0, .ro, 0, 0, 0x01, none⟩
def CRY_HALT_REC_SLOT : Fld := ⟨8, 0, 0, 0x60, 0, 1, 37, 32, .ro, 0, 0, 0x01, none⟩
def CRY_HALT_REC_GEN : Fld := ⟨8, 0, 0, 0x60, 0, 1, 38, 38, .ro, 0, 0, 0x01, none⟩
def CRY_HALT_REC_SRC : Fld := ⟨8, 0, 0, 0x60, 0, 1, 43, 40, .ro, 0, 0, 0x01, none⟩
def CRY_HALT_REC_PIPE : Fld := ⟨8, 0, 0, 0x60, 0, 1, 53, 48, .ro, 0, 0, 0x01, none⟩
def CRY_HALT_TAG_STORED : Fld := ⟨8, 0, 0, 0x68, 0, 1, 63, 0, .ro, 0, 0, 0x01, none⟩
def CRY_HALT_CALC_CALC : Fld := ⟨8, 0, 0, 0x70, 0, 1, 63, 0, .ro, 0, 0, 0x01, none⟩

/-! Table 4.11, R166, 04_crypto.md. -/
def CRY_RGN_GEN_CUR : Fld := ⟨8, 1, 64, 0x40, 0, 1, 31, 0, .ro, 0, 0, 0x21, none⟩
def CRY_RGN_GEN_PREV : Fld := ⟨8, 1, 64, 0x40, 0, 1, 63, 32, .ro, 0, 0, 0x21, none⟩
def CRY_RGN_REKEY_STATE : Fld := ⟨8, 1, 64, 0x48, 0, 1, 0, 0, .ro, 0, 0, 0x21, none⟩
def CRY_RGN_REKEY_QUEUED : Fld := ⟨8, 1, 64, 0x48, 0, 1, 1, 1, .ro, 0, 0, 0x21, none⟩
def CRY_RGN_REKEY_CAUSE : Fld := ⟨8, 1, 64, 0x48, 0, 1, 5, 4, .ro, 0, 0, 0x21, none⟩
def CRY_RGN_REKEY_REMAIN : Fld := ⟨8, 1, 64, 0x48, 0, 1, 40, 8, .ro, 0, 0, 0x21, none⟩
def CRY_RGN_KEY_BASE_GEN : Fld := ⟨8, 1, 64, 0x50, 0, 1, 31, 0, .ro, 0, 0, 0x21, none⟩
def CRY_RGN_KEY_KEY_BIND : Fld := ⟨8, 1, 64, 0x50, 0, 1, 37, 32, .ro, 0, 0, 0x21, none⟩
def CRY_RGN_CNT_MISMATCH : Fld := ⟨8, 1, 64, 0x58, 0, 1, 31, 0, .rc, 0, 0, 0x03, none⟩
def CRY_RGN_CNT_HOLDS : Fld := ⟨8, 1, 64, 0x58, 0, 1, 63, 32, .rc, 0, 0, 0x03, none⟩

/-! Table 4.12, R166, 04_crypto.md. -/
def CRY_KSLOT_STATE : Fld := ⟨8, 65, 65, 0x40, 8, 64, 1, 0, .ro, 0, 0, 0x21, none⟩
def CRY_KSLOT_BINDS : Fld := ⟨8, 65, 65, 0x40, 8, 64, 14, 8, .ro, 0, 0, 0x21, none⟩

/-! Table 4.13, R166, 04_crypto.md. -/
def CRY_PIPE_CTL_STATE : Fld := ⟨8, 66, 115, 0x40, 0, 1, 2, 0, .ro, 0, 2, 0x21, none⟩
def CRY_PIPE_CTL_CMD : Fld := ⟨8, 66, 115, 0x40, 0, 1, 6, 4, .wo, 0, 0, 0x00, none⟩
def CRY_PIPE_FAULT_COUNT : Fld := ⟨8, 66, 115, 0x48, 0, 1, 3, 0, .ro, 0, 0, 0x13, none⟩
def CRY_PIPE_FAULT_TOTAL : Fld := ⟨8, 66, 115, 0x48, 0, 1, 31, 16, .ro, 0, 0, 0x01, none⟩
def CRY_PIPE_WORK_UNITS : Fld := ⟨8, 66, 115, 0x50, 0, 1, 47, 0, .rc, 0, 0, 0x13, none⟩
def CRY_PIPE_BUSY_BUSY : Fld := ⟨8, 66, 115, 0x58, 0, 1, 0, 0, .ro, 0, 0, 0x13, none⟩

/-! Table 5.10, R193, 05_tiers_and_scarab.md. -/
def SCR_MOV_CFG_JOB_ENG : Fld := ⟨9, 0, 0, 0x40, 0, 1, 4, 0, .rw, 16, 0, 0x03, some (0, 31)⟩
def SCR_MOV_CFG_PREFETCH_DEPTH : Fld := ⟨9, 0, 0, 0x40, 0, 1, 11, 8, .rw, 2, 0, 0x03, some (0, 8)⟩
def SCR_MOV_CFG_COLD_THRESH : Fld := ⟨9, 0, 0, 0x40, 0, 1, 19, 16, .rw, 1, 0, 0x03, some (0, 14)⟩
def SCR_MOV_CFG_AGE_EPOCHS : Fld := ⟨9, 0, 0, 0x40, 0, 1, 28, 24, .rw, 4, 0, 0x03, some (1, 16)⟩
def SCR_MOV_CFG_SAMPLE_SHIFT : Fld := ⟨9, 0, 0, 0x40, 0, 1, 34, 32, .rw, 6, 0, 0x03, none⟩
def SCR_MOV_CFG_FAULT_THRESH : Fld := ⟨9, 0, 0, 0x40, 0, 1, 39, 36, .rw, 4, 0, 0x03, some (1, 15)⟩
def SCR_FRAME_WM_FREE_LOW : Fld := ⟨9, 0, 0, 0x48, 0, 1, 7, 0, .rw, 2, 0, 0x03, some (1, 20)⟩
def SCR_FRAME_WM_FREE_MIN : Fld := ⟨9, 0, 0, 0x48, 0, 1, 15, 8, .rw, 1, 0, 0x03, some (1, 255)⟩
def SCR_FRAME_WM_PIN_MAX : Fld := ⟨9, 0, 0, 0x48, 0, 1, 23, 16, .rw, 50, 0, 0x03, some (0, 90)⟩
def SCR_FRAMES_TOTAL : Fld := ⟨9, 0, 0, 0x50, 0, 1, 23, 0, .ro, 0, 2, 0x01, none⟩
def SCR_FRAMES_FREE : Fld := ⟨9, 0, 0, 0x50, 0, 1, 47, 24, .ro, 0, 2, 0x01, none⟩
def SCR_FRAMES2_DIRTY : Fld := ⟨9, 0, 0, 0x58, 0, 1, 23, 0, .ro, 0, 0, 0x01, none⟩
def SCR_FRAMES2_PINNED : Fld := ⟨9, 0, 0, 0x58, 0, 1, 47, 24, .ro, 0, 0, 0x01, none⟩
def SCR_MOV_STS_NEAR_ONLY : Fld := ⟨9, 0, 0, 0x60, 0, 1, 0, 0, .ro, 0, 0, 0x03, none⟩
def SCR_MOV_STS_FLUSH : Fld := ⟨9, 0, 0, 0x60, 0, 1, 1, 1, .ro, 0, 0, 0x03, none⟩
def SCR_MOV_STS_BULK_ONLY : Fld := ⟨9, 0, 0, 0x60, 0, 1, 2, 2, .ro, 0, 0, 0x03, none⟩
def SCR_MOV_STS_ENG_ACTIVE : Fld := ⟨9, 0, 0, 0x60, 0, 1, 13, 8, .ro, 0, 2, 0x03, none⟩
def SCR_MOV_STS_ENG_FAILED : Fld := ⟨9, 0, 0, 0x60, 0, 1, 21, 16, .ro, 0, 0, 0x21, none⟩
def SCR_CNT_PROMO_TILES : Fld := ⟨9, 0, 0, 0x68, 0, 1, 47, 0, .rc, 0, 0, 0x13, none⟩
def SCR_CNT_DEMO_TILES : Fld := ⟨9, 0, 0, 0x70, 0, 1, 47, 0, .rc, 0, 0, 0x13, none⟩
def SCR_CNT_ABORT_TILES : Fld := ⟨9, 0, 0, 0x78, 0, 1, 47, 0, .rc, 0, 0, 0x13, none⟩
def SCR_CNT_PF_ISSUED : Fld := ⟨9, 0, 0, 0x80, 0, 1, 31, 0, .rc, 0, 0, 0x13, none⟩
def SCR_CNT_PF_DROPPED : Fld := ⟨9, 0, 0, 0x80, 0, 1, 63, 32, .rc, 0, 0, 0x13, none⟩
def SCR_CNT_EVICT_FRAMES : Fld := ⟨9, 0, 0, 0x88, 0, 1, 47, 0, .rc, 0, 0, 0x13, none⟩
def SCR_CNT_STARVE_READS : Fld := ⟨9, 0, 0, 0x90, 0, 1, 31, 0, .rc, 0, 0, 0x13, none⟩
def SCR_CNT_STARVE_WRITES : Fld := ⟨9, 0, 0, 0x90, 0, 1, 63, 32, .rc, 0, 0, 0x13, none⟩

/-! Table 5.11, R193, 05_tiers_and_scarab.md. -/
def SCR_ENG_CTL_STATE : Fld := ⟨9, 1, 32, 0x40, 0, 1, 2, 0, .ro, 0, 2, 0x21, none⟩
def SCR_ENG_CTL_CMD : Fld := ⟨9, 1, 32, 0x40, 0, 1, 6, 4, .wo, 0, 0, 0x00, none⟩
def SCR_ENG_FAULT_COUNT : Fld := ⟨9, 1, 32, 0x48, 0, 1, 3, 0, .ro, 0, 0, 0x13, none⟩
def SCR_ENG_FAULT_TOTAL : Fld := ⟨9, 1, 32, 0x48, 0, 1, 31, 16, .ro, 0, 0, 0x01, none⟩
def SCR_ENG_WORK_UNITS : Fld := ⟨9, 1, 32, 0x50, 0, 1, 47, 0, .rc, 0, 0, 0x13, none⟩
def SCR_ENG_BUSY_INFLIGHT : Fld := ⟨9, 1, 32, 0x58, 0, 1, 3, 0, .ro, 0, 0, 0x13, none⟩

/-! Table 6.9, R230, 06_memory_controllers.md. -/
def NTC_CONFIG_POS_ACTIVE : Fld := ⟨10, 0, 0, 0x40, 0, 1, 15, 0, .ro, 0, 2, 0x23, none⟩
def NTC_CONFIG_RATE : Fld := ⟨10, 0, 0, 0x40, 0, 1, 20, 16, .ro, 0, 2, 0x23, none⟩
def NTC_CONFIG_CLAMSHELL : Fld := ⟨10, 0, 0, 0x40, 0, 1, 21, 21, .ro, 0, 2, 0x23, none⟩
def NTC_CONFIG_NCH : Fld := ⟨10, 0, 0, 0x40, 0, 1, 29, 24, .ro, 0, 2, 0x23, none⟩
def NTC_CONFIG_POS_EXCL : Fld := ⟨10, 0, 0, 0x40, 0, 1, 47, 32, .ro, 0, 2, 0x23, none⟩
def NTC_CTL_EDC_RETRY : Fld := ⟨10, 0, 0, 0x48, 0, 1, 2, 0, .rw, 3, 0, 0x03, none⟩
def NTC_CTL_RETRAIN_EP : Fld := ⟨10, 0, 0, 0x48, 0, 1, 14, 8, .rw, 16, 0, 0x03, some (1, 64)⟩
def NTC_CTL_AGE_CAP : Fld := ⟨10, 0, 0, 0x48, 0, 1, 21, 16, .rw, 4, 0, 0x03, some (1, 63)⟩
def NTC_FB_FB1 : Fld := ⟨10, 0, 0, 0x50, 0, 1, 6, 0, .rw, 50, 0, 0x03, none⟩
def NTC_FB_FB2 : Fld := ⟨10, 0, 0, 0x50, 0, 1, 14, 8, .rw, 75, 0, 0x03, none⟩
def NTC_FB_FB3 : Fld := ⟨10, 0, 0, 0x50, 0, 1, 22, 16, .rw, 90, 0, 0x03, none⟩
def NTC_THERM_CRIT : Fld := ⟨10, 0, 0, 0x58, 0, 1, 6, 0, .rw, 95, 0, 0x03, some (86, 105)⟩
def NTC_THERM_TPOLL : Fld := ⟨10, 0, 0, 0x58, 0, 1, 14, 8, .rw, 4, 0, 0x03, some (1, 64)⟩
def NTC_SR_STATE : Fld := ⟨10, 0, 0, 0x60, 0, 1, 1, 0, .ro, 0, 0, 0x03, none⟩
def NTC_SR_ENTRIES : Fld := ⟨10, 0, 0, 0x60, 0, 1, 31, 16, .rc, 0, 0, 0x13, none⟩
def NTC_SR_ABORTS : Fld := ⟨10, 0, 0, 0x60, 0, 1, 47, 32, .rc, 0, 0, 0x13, none⟩
def NTC_PORT_LAT_TARGET : Fld := ⟨10, 0, 0, 0x100, 8, 18, 16, 0, .rw, 0, 0, 0x03, none⟩

/-! Table 6.10, R230, 06_memory_controllers.md. -/
def NTC_CH_CTL_HOLD : Fld := ⟨10, 1, 32, 0x40, 0, 1, 0, 0, .rw, 0, 0, 0x03, none⟩
def NTC_CH_CTL_EXCLUDED : Fld := ⟨10, 1, 32, 0x40, 0, 1, 1, 1, .ro, 0, 2, 0x23, none⟩
def NTC_CH_CTL_FAILED : Fld := ⟨10, 1, 32, 0x40, 0, 1, 2, 2, .ro, 0, 0, 0x01, none⟩
def NTC_CH_CTL_HOT : Fld := ⟨10, 1, 32, 0x40, 0, 1, 3, 3, .ro, 0, 0, 0x03, none⟩
def NTC_CH_STS_TEMP : Fld := ⟨10, 1, 32, 0x48, 0, 1, 7, 0, .ro, 0, 0, 0x03, none⟩
def NTC_CH_STS_RQ : Fld := ⟨10, 1, 32, 0x48, 0, 1, 14, 8, .ro, 0, 0, 0x13, none⟩
def NTC_CH_STS_WQ : Fld := ⟨10, 1, 32, 0x48, 0, 1, 22, 16, .ro, 0, 0, 0x13, none⟩
def NTC_CH_STS_FB : Fld := ⟨10, 1, 32, 0x48, 0, 1, 25, 24, .ro, 0, 0, 0x13, none⟩
def NTC_CH_STS_DRAIN : Fld := ⟨10, 1, 32, 0x48, 0, 1, 26, 26, .ro, 0, 0, 0x13, none⟩
def NTC_CH_REF_POSTPONED : Fld := ⟨10, 1, 32, 0x50, 0, 1, 3, 0, .ro, 0, 0, 0x13, none⟩
def NTC_CH_REF_AT_LIMIT : Fld := ⟨10, 1, 32, 0x50, 0, 1, 47, 16, .rc, 0, 0, 0x13, none⟩
def NTC_CH_EDC_RETRIES : Fld := ⟨10, 1, 32, 0x58, 0, 1, 31, 0, .rc, 0, 0, 0x13, none⟩
def NTC_CH_EDC_EXHAUSTED : Fld := ⟨10, 1, 32, 0x58, 0, 1, 47, 32, .rc, 0, 0, 0x13, none⟩
def NTC_CH_EDC_RETRAINS : Fld := ⟨10, 1, 32, 0x58, 0, 1, 55, 48, .rc, 0, 0, 0x13, none⟩
def NTC_CH_ECC_CORR : Fld := ⟨10, 1, 32, 0x60, 0, 1, 31, 0, .rc, 0, 0, 0x13, none⟩
def NTC_CH_ECC_UNCORR : Fld := ⟨10, 1, 32, 0x60, 0, 1, 63, 32, .rc, 0, 0, 0x13, none⟩

/-! Table 6.12, R231, 06_memory_controllers.md. -/
def BTC_CONFIG_CH_ACTIVE : Fld := ⟨11, 0, 0, 0x40, 0, 1, 15, 0, .ro, 0, 2, 0x23, none⟩
def BTC_CONFIG_RATE : Fld := ⟨11, 0, 0, 0x40, 0, 1, 22, 16, .ro, 0, 2, 0x23, none⟩
def BTC_CONFIG_NCH : Fld := ⟨11, 0, 0, 0x40, 0, 1, 28, 24, .ro, 0, 2, 0x23, none⟩
def BTC_CONFIG_SETS : Fld := ⟨11, 0, 0, 0x40, 0, 1, 36, 32, .ro, 0, 2, 0x23, none⟩
def BTC_CONFIG_REF_MODE : Fld := ⟨11, 0, 0, 0x40, 0, 1, 37, 37, .rwl, 0, 0, 0x01, none⟩
def BTC_CTL_AGE_CAP : Fld := ⟨11, 0, 0, 0x48, 0, 1, 21, 16, .rw, 4, 0, 0x03, some (1, 63)⟩
def BTC_CTL_CRIT : Fld := ⟨11, 0, 0, 0x48, 0, 1, 30, 24, .rw, 95, 0, 0x03, some (86, 105)⟩
def BTC_CTL_TPOLL : Fld := ⟨11, 0, 0, 0x48, 0, 1, 38, 32, .rw, 4, 0, 0x03, some (1, 64)⟩
def BTC_CTL_RETRAIN_EP : Fld := ⟨11, 0, 0, 0x48, 0, 1, 46, 40, .rw, 16, 0, 0x03, some (1, 64)⟩
def BTC_FB_FB1 : Fld := ⟨11, 0, 0, 0x50, 0, 1, 6, 0, .rw, 50, 0, 0x03, none⟩
def BTC_FB_FB2 : Fld := ⟨11, 0, 0, 0x50, 0, 1, 14, 8, .rw, 75, 0, 0x03, none⟩
def BTC_FB_FB3 : Fld := ⟨11, 0, 0, 0x50, 0, 1, 22, 16, .rw, 90, 0, 0x03, none⟩
def BTC_RETAIN_SETS : Fld := ⟨11, 0, 0, 0x58, 0, 1, 15, 0, .rw, 1, 0, 0x21, none⟩
def BTC_RET_PEND_SLOT : Fld := ⟨11, 0, 0, 0x60, 0, 1, 63, 0, .ro, 0, 0, 0x21, none⟩
def BTC_SR_STATE : Fld := ⟨11, 0, 0, 0x68, 0, 1, 1, 0, .ro, 0, 0, 0x03, none⟩
def BTC_SR_ENTRIES : Fld := ⟨11, 0, 0, 0x68, 0, 1, 31, 16, .rc, 0, 0, 0x13, none⟩
def BTC_SR_ABORTS : Fld := ⟨11, 0, 0, 0x68, 0, 1, 47, 32, .rc, 0, 0, 0x13, none⟩
def BTC_SB_SLOW : Fld := ⟨11, 0, 0, 0x70, 0, 1, 3, 0, .ro, 0, 0, 0x03, none⟩
def BTC_SB_ERR : Fld := ⟨11, 0, 0, 0x70, 0, 1, 11, 8, .w1c, 0, 0, 0x03, none⟩

/-! Table 6.13, R231, 06_memory_controllers.md. -/
def BTC_SC_CTL_HOLD : Fld := ⟨11, 1, 32, 0x40, 0, 1, 0, 0, .rw, 0, 0, 0x03, none⟩
def BTC_SC_CTL_EXCLUDED : Fld := ⟨11, 1, 32, 0x40, 0, 1, 1, 1, .ro, 0, 2, 0x23, none⟩
def BTC_SC_CTL_FAILED : Fld := ⟨11, 1, 32, 0x40, 0, 1, 2, 2, .ro, 0, 0, 0x01, none⟩
def BTC_SC_CTL_HOT : Fld := ⟨11, 1, 32, 0x40, 0, 1, 3, 3, .ro, 0, 0, 0x03, none⟩
def BTC_SC_STS_RQ : Fld := ⟨11, 1, 32, 0x48, 0, 1, 14, 8, .ro, 0, 0, 0x13, none⟩
def BTC_SC_STS_WQ : Fld := ⟨11, 1, 32, 0x48, 0, 1, 22, 16, .ro, 0, 0, 0x13, none⟩
def BTC_SC_STS_FB : Fld := ⟨11, 1, 32, 0x48, 0, 1, 25, 24, .ro, 0, 0, 0x13, none⟩
def BTC_SC_STS_DRAIN : Fld := ⟨11, 1, 32, 0x48, 0, 1, 26, 26, .ro, 0, 0, 0x13, none⟩
def BTC_SC_REF_POSTPONED : Fld := ⟨11, 1, 32, 0x50, 0, 1, 3, 0, .ro, 0, 0, 0x13, none⟩
def BTC_SC_REF_AT_LIMIT : Fld := ⟨11, 1, 32, 0x50, 0, 1, 47, 16, .rc, 0, 0, 0x13, none⟩
def BTC_SC_ECC_CORR : Fld := ⟨11, 1, 32, 0x58, 0, 1, 31, 0, .rc, 0, 0, 0x13, none⟩
def BTC_SC_ECC_UNCORR : Fld := ⟨11, 1, 32, 0x58, 0, 1, 63, 32, .rc, 0, 0, 0x13, none⟩
def BTC_SC_TRAIN_RETRAINS : Fld := ⟨11, 1, 32, 0x60, 0, 1, 15, 0, .rc, 0, 0, 0x13, none⟩
def BTC_SC_TRAIN_FAILS : Fld := ⟨11, 1, 32, 0x60, 0, 1, 23, 16, .rc, 0, 0, 0x13, none⟩

/-! Table 6.14, R231, 06_memory_controllers.md. -/
def BTC_DIMM_ID_PRESENT : Fld := ⟨11, 33, 64, 0x40, 0, 1, 0, 0, .ro, 0, 2, 0x23, none⟩
def BTC_DIMM_ID_EXCLUDED : Fld := ⟨11, 33, 64, 0x40, 0, 1, 1, 1, .ro, 0, 2, 0x23, none⟩
def BTC_DIMM_ID_RANKS : Fld := ⟨11, 33, 64, 0x40, 0, 1, 7, 4, .ro, 0, 2, 0x23, none⟩
def BTC_DIMM_ID_DENSITY : Fld := ⟨11, 33, 64, 0x40, 0, 1, 15, 8, .ro, 0, 2, 0x23, none⟩
def BTC_DIMM_ID_SERIAL : Fld := ⟨11, 33, 64, 0x40, 0, 1, 63, 32, .ro, 0, 2, 0x23, none⟩
def BTC_DIMM_TEMP_TS0 : Fld := ⟨11, 33, 64, 0x48, 0, 1, 7, 0, .ro, 0, 0, 0x03, none⟩
def BTC_DIMM_TEMP_TS1 : Fld := ⟨11, 33, 64, 0x48, 0, 1, 15, 8, .ro, 0, 0, 0x03, none⟩
def BTC_DIMM_TEMP_READ_FAIL : Fld := ⟨11, 33, 64, 0x48, 0, 1, 16, 16, .ro, 0, 0, 0x03, none⟩
def BTC_DIMM_PMIC_STATUS : Fld := ⟨11, 33, 64, 0x50, 0, 1, 7, 0, .ro, 0, 0, 0x03, none⟩
def BTC_DIMM_PMIC_WARN : Fld := ⟨11, 33, 64, 0x50, 0, 1, 8, 8, .w1c, 0, 0, 0x03, none⟩
def BTC_DIMM_PMIC_FAULT : Fld := ⟨11, 33, 64, 0x50, 0, 1, 9, 9, .ro, 0, 0, 0x01, none⟩
def BTC_DIMM_PMIC_OFF : Fld := ⟨11, 33, 64, 0x50, 0, 1, 10, 10, .ro, 0, 0, 0x03, none⟩

/-! Table 7.7, R271, 07_ras.md. -/
def RAS_CFG_RPT_THRESH : Fld := ⟨12, 0, 0, 0x40, 0, 1, 3, 0, .rw, 4, 0, 0x03, some (2, 15)⟩
def RAS_CFG_RANK_UE_THRESH : Fld := ⟨12, 0, 0, 0x40, 0, 1, 11, 4, .rw, 8, 0, 0x03, some (1, 255)⟩
def RAS_CFG_RANK_ON_FULL : Fld := ⟨12, 0, 0, 0x40, 0, 1, 12, 12, .rw, 1, 0, 0x03, none⟩
def RAS_CFG_RESERVE_LOW : Fld := ⟨12, 0, 0, 0x40, 0, 1, 22, 16, .rw, 25, 0, 0x03, some (1, 90)⟩
def RAS_RPT_WINDOW_EPOCHS : Fld := ⟨12, 0, 0, 0x48, 0, 1, 31, 0, .rw, 0x141dd760, 0, 0x03, some (1, 4294967295)⟩
def RAS_SCRUB_BULK_RATE : Fld := ⟨12, 0, 0, 0x50, 0, 1, 9, 0, .rw, 64, 0, 0x03, none⟩
def RAS_SCRUB_NEAR_RATE : Fld := ⟨12, 0, 0, 0x50, 0, 1, 25, 16, .rw, 64, 0, 0x03, none⟩
def RAS_SCRUB_TCS_EN : Fld := ⟨12, 0, 0, 0x50, 0, 1, 32, 32, .rw, 0, 0, 0x03, none⟩
def RAS_SCRUB_STS_PASSES : Fld := ⟨12, 0, 0, 0x58, 0, 1, 31, 0, .ro, 0, 0, 0x03, none⟩
def RAS_SCRUB_STS_NEAR_PASSES : Fld := ⟨12, 0, 0, 0x58, 0, 1, 63, 32, .ro, 0, 0, 0x03, none⟩
def RAS_RESERVE_TOTAL : Fld := ⟨12, 0, 0, 0x60, 0, 1, 39, 0, .ro, 0, 2, 0x01, none⟩
def RAS_RESERVE2_REMAIN : Fld := ⟨12, 0, 0, 0x68, 0, 1, 39, 0, .ro, 0, 2, 0x21, none⟩
def RAS_SPARE_SET_SET : Fld := ⟨12, 0, 0, 0x70, 0, 1, 3, 0, .rw, 0, 0, 0x21, some (1, 15)⟩
def RAS_SPARE_SET_VALID : Fld := ⟨12, 0, 0, 0x70, 0, 1, 4, 4, .rw, 0, 0, 0x21, none⟩
def RAS_RANK_STS_FAILING : Fld := ⟨12, 0, 0, 0x78, 0, 1, 15, 0, .ro, 0, 0, 0x21, none⟩
def RAS_RANK_STS_REMOVED : Fld := ⟨12, 0, 0, 0x78, 0, 1, 31, 16, .ro, 0, 0, 0x21, none⟩
def RAS_RANK_STS_STALLED : Fld := ⟨12, 0, 0, 0x78, 0, 1, 32, 32, .ro, 0, 0, 0x21, none⟩
def RAS_LOG_PROD : Fld := ⟨12, 0, 0, 0x80, 0, 1, 9, 0, .ro, 0, 0, 0x01, none⟩
def RAS_LOG_CONS : Fld := ⟨12, 0, 0, 0x80, 0, 1, 25, 16, .rw, 0, 0, 0x01, none⟩
def RAS_LOG_LOST : Fld := ⟨12, 0, 0, 0x80, 0, 1, 63, 32, .rc, 0, 0, 0x03, none⟩
def RAS_POISON_CNT_TILES : Fld := ⟨12, 0, 0, 0x88, 0, 1, 31, 0, .rc, 0, 0, 0x03, none⟩
def RAS_POISON_CNT_LINES : Fld := ⟨12, 0, 0, 0x88, 0, 1, 63, 32, .rc, 0, 0, 0x03, none⟩
def RAS_LEAK_SECTORS : Fld := ⟨12, 0, 0, 0x90, 0, 1, 39, 0, .ro, 0, 0, 0x01, none⟩
def RAS_WITHHELD_FRAMES : Fld := ⟨12, 0, 0, 0x98, 0, 1, 23, 0, .ro, 0, 0, 0x21, none⟩

/-! Table 7.8, R271, 07_ras.md. -/
def RAS_CH_STS_REMAPS : Fld := ⟨12, 1, 48, 0x40, 0, 1, 6, 0, .ro, 0, 0, 0x21, none⟩
def RAS_CH_STS_TRACKED : Fld := ⟨12, 1, 48, 0x40, 0, 1, 13, 8, .ro, 0, 0, 0x03, none⟩
def RAS_CH_STS_FULL : Fld := ⟨12, 1, 48, 0x40, 0, 1, 14, 14, .ro, 0, 0, 0x21, none⟩
def RAS_CH_STS_HARD : Fld := ⟨12, 1, 48, 0x40, 0, 1, 47, 16, .rc, 0, 0, 0x03, none⟩
def RAS_RPT_FIRST : Fld := ⟨12, 1, 48, 0x100, 16, 32, 47, 0, .ro, 0, 0, 0x03, none⟩
def RAS_RPT_COUNT : Fld := ⟨12, 1, 48, 0x100, 16, 32, 51, 48, .ro, 0, 0, 0x03, none⟩
def RAS_RPT_PENDING : Fld := ⟨12, 1, 48, 0x100, 16, 32, 52, 52, .ro, 0, 0, 0x03, none⟩
def RAS_RPT_VALID : Fld := ⟨12, 1, 48, 0x100, 16, 32, 53, 53, .ro, 0, 0, 0x03, none⟩
def RAS_RPT_KEY_ROWKEY : Fld := ⟨12, 1, 48, 0x108, 16, 32, 30, 0, .ro, 0, 0, 0x03, none⟩
def RAS_REMAP_ROW : Fld := ⟨12, 1, 48, 0x300, 8, 64, 19, 0, .ro, 0, 0, 0x21, none⟩
def RAS_REMAP_BANK : Fld := ⟨12, 1, 48, 0x300, 8, 64, 24, 20, .ro, 0, 0, 0x21, none⟩
def RAS_REMAP_SET : Fld := ⟨12, 1, 48, 0x300, 8, 64, 28, 25, .ro, 0, 0, 0x21, none⟩
def RAS_REMAP_SUB_B : Fld := ⟨12, 1, 48, 0x300, 8, 64, 29, 29, .ro, 0, 0, 0x21, none⟩
def RAS_REMAP_SPARE : Fld := ⟨12, 1, 48, 0x300, 8, 64, 51, 32, .ro, 0, 0, 0x21, none⟩
def RAS_REMAP_WITHHELD : Fld := ⟨12, 1, 48, 0x300, 8, 64, 62, 62, .ro, 0, 0, 0x21, none⟩
def RAS_REMAP_VALID : Fld := ⟨12, 1, 48, 0x300, 8, 64, 63, 63, .ro, 0, 0, 0x21, none⟩

/-! Table 7.9, R271, 07_ras.md. -/
def RAS_RET_SUBCH : Fld := ⟨12, 49, 49, 0x40, 8, 256, 4, 0, .ro, 0, 0, 0x21, none⟩
def RAS_RET_SET : Fld := ⟨12, 49, 49, 0x40, 8, 256, 11, 8, .ro, 0, 0, 0x21, none⟩
def RAS_RET_BANK : Fld := ⟨12, 49, 49, 0x40, 8, 256, 20, 16, .ro, 0, 0, 0x21, none⟩
def RAS_RET_VALID : Fld := ⟨12, 49, 49, 0x40, 8, 256, 63, 63, .ro, 0, 0, 0x21, none⟩

/-! Table 8.9, R303, 08_host_links.md. -/
def HLX_BIFUR_MERGE : Fld := ⟨2, 0, 0, 0x40, 0, 1, 7, 0, .rwl, 0, 2, 0x01, none⟩
def HLX_BIFUR_MERGE_ACT : Fld := ⟨2, 0, 0, 0x40, 0, 1, 15, 8, .ro, 0, 2, 0x03, none⟩
def HLX_MBOX_CAP_PAYLOAD_LOG2 : Fld := ⟨2, 0, 0, 0x48, 0, 1, 4, 0, .ro, 12, 0, 0x01, none⟩
def HLX_VIRAL_OUT : Fld := ⟨2, 0, 0, 0x50, 0, 1, 15, 0, .ro, 0, 0, 0x01, none⟩
def HLX_VIRAL_IN : Fld := ⟨2, 0, 0, 0x50, 0, 1, 31, 16, .ro, 0, 0, 0x03, none⟩

/-! Table 8.10, R303, 08_host_links.md. -/
def HLX_PORT_STS_LINK_UP : Fld := ⟨2, 1, 16, 0x40, 0, 1, 0, 0, .ro, 0, 0, 0x07, none⟩
def HLX_PORT_STS_WIDTH : Fld := ⟨2, 1, 16, 0x40, 0, 1, 3, 1, .ro, 0, 0, 0x07, none⟩
def HLX_PORT_STS_RATE : Fld := ⟨2, 1, 16, 0x40, 0, 1, 6, 4, .ro, 0, 0, 0x07, none⟩
def HLX_PORT_STS_FLIT : Fld := ⟨2, 1, 16, 0x40, 0, 1, 9, 8, .ro, 0, 0, 0x07, none⟩
def HLX_PORT_STS_HEAD : Fld := ⟨2, 1, 16, 0x40, 0, 1, 10, 10, .ro, 0, 0, 0x07, none⟩
def HLX_PORT_STS_IDE : Fld := ⟨2, 1, 16, 0x40, 0, 1, 11, 11, .ro, 0, 0, 0x07, none⟩
def HLX_PORT_STS_VIRAL_IN : Fld := ⟨2, 1, 16, 0x40, 0, 1, 12, 12, .ro, 0, 0, 0x0f, none⟩
def HLX_PORT_CTL_MAX_WIDTH : Fld := ⟨2, 1, 16, 0x48, 0, 1, 2, 0, .rw, 5, 0, 0x03, some (1, 5)⟩
def HLX_PORT_CTL_MAX_RATE : Fld := ⟨2, 1, 16, 0x48, 0, 1, 6, 4, .rw, 4, 0, 0x03, some (1, 4)⟩
def HLX_PORT_CTL_LOPT_EN : Fld := ⟨2, 1, 16, 0x48, 0, 1, 8, 8, .rw, 1, 0, 0x03, none⟩
def HLX_PORT_CTL_L0P_EN : Fld := ⟨2, 1, 16, 0x48, 0, 1, 9, 9, .rw, 1, 0, 0x03, none⟩
def HLX_PORT_CTL_REFMODE : Fld := ⟨2, 1, 16, 0x48, 0, 1, 13, 12, .ro, 0, 2, 0x01, none⟩
def HLX_PORT_LINKCNT_DOWNS : Fld := ⟨2, 1, 16, 0x50, 0, 1, 15, 0, .rc, 0, 0, 0x13, none⟩
def HLX_PORT_LINKCNT_RETRAINS : Fld := ⟨2, 1, 16, 0x50, 0, 1, 31, 16, .rc, 0, 0, 0x13, none⟩
def HLX_PORT_LINKCNT_REPLAYS : Fld := ⟨2, 1, 16, 0x50, 0, 1, 63, 32, .rc, 0, 0, 0x13, none⟩
def HLX_PORT_ERRCNT_FEC_CORR : Fld := ⟨2, 1, 16, 0x58, 0, 1, 31, 0, .rc, 0, 0, 0x13, none⟩
def HLX_PORT_ERRCNT_IDE_FAIL : Fld := ⟨2, 1, 16, 0x58, 0, 1, 47, 32, .rc, 0, 0, 0x13, none⟩
def HLX_PORT_ERRCNT_VIRAL_DROP : Fld := ⟨2, 1, 16, 0x58, 0, 1, 63, 48, .rc, 0, 0, 0x13, none⟩

/-! Table 8.11, R303, 08_host_links.md. -/
def HLX_HEAD_PERM_FM : Fld := ⟨2, 17, 80, 0x40, 0, 1, 0, 0, .ro, 0, 2, 0x21, none⟩
def HLX_HEAD_PERM_KEYLOAD : Fld := ⟨2, 17, 80, 0x40, 0, 1, 1, 1, .ro, 0, 2, 0x21, none⟩
def HLX_HEAD_PERM_DIAG : Fld := ⟨2, 17, 80, 0x40, 0, 1, 2, 2, .ro, 0, 2, 0x21, none⟩
def HLX_HEAD_PERM_PERF_USER : Fld := ⟨2, 17, 80, 0x40, 0, 1, 3, 3, .ro, 0, 2, 0x21, none⟩
def HLX_HEAD_LD_LD_COUNT : Fld := ⟨2, 17, 80, 0x48, 0, 1, 2, 0, .ro, 1, 0, 0x21, none⟩
def HLX_HEAD_LD_LD_ACTIVE : Fld := ⟨2, 17, 80, 0x48, 0, 1, 6, 4, .ro, 1, 0, 0x07, none⟩
def HLX_LD_RGN_SLOTS : Fld := ⟨2, 17, 80, 0x50, 0, 1, 63, 0, .ro, 0xffffffffffffffff, 0, 0x21, none⟩
def HLX_LD_QUEUES_QFIRST : Fld := ⟨2, 17, 80, 0x58, 0, 1, 19, 0, .ro, 0, 0, 0x21, none⟩
def HLX_LD_QUEUES_QCOUNT : Fld := ⟨2, 17, 80, 0x58, 0, 1, 40, 20, .ro, 0, 0, 0x21, none⟩
def HLX_HEAD_VEC_MBOX_VEC : Fld := ⟨2, 17, 80, 0x60, 0, 1, 10, 0, .rw, 0, 0, 0x0b, none⟩
def HLX_HEAD_VEC_FATAL_VEC : Fld := ⟨2, 17, 80, 0x60, 0, 1, 21, 11, .rw, 0, 0, 0x0b, none⟩
def HLX_HEAD_VEC_CONTAIN_VEC : Fld := ⟨2, 17, 80, 0x60, 0, 1, 32, 22, .rw, 0, 0, 0x0b, none⟩
def HLX_HEAD_VEC_DEGRADE_VEC : Fld := ⟨2, 17, 80, 0x60, 0, 1, 43, 33, .rw, 0, 0, 0x0b, none⟩
def HLX_HEAD_VEC_NOTICE_VEC : Fld := ⟨2, 17, 80, 0x60, 0, 1, 54, 44, .rw, 0, 0, 0x0b, none⟩
def HLX_HEAD_STS_DB_REJECT : Fld := ⟨2, 17, 80, 0x68, 0, 1, 31, 0, .rc, 0, 0, 0x0b, none⟩
def HLX_HEAD_STS_MEMCLR : Fld := ⟨2, 17, 80, 0x68, 0, 1, 32, 32, .ro, 0, 0, 0x03, none⟩

/-! Table 9.6, R331, 09_coherence.md. -/
def DIR_CFG_BI_TIMEOUT : Fld := ⟨5, 0, 0, 0x40, 0, 1, 13, 0, .rw, 100, 0, 0x03, some (1, 10000)⟩
def DIR_CFG_FAULT_THRESH : Fld := ⟨5, 0, 0, 0x40, 0, 1, 19, 16, .rw, 4, 0, 0x03, some (1, 15)⟩
def DIR_CFG_EVICT_WARN : Fld := ⟨5, 0, 0, 0x40, 0, 1, 47, 24, .rw, 4096, 0, 0x03, some (1, 16777215)⟩
def DIR_STATUS_OFFLINE : Fld := ⟨5, 0, 0, 0x48, 0, 1, 0, 0, .ro, 0, 2, 0x01, none⟩
def DIR_STATUS_BROADCAST : Fld := ⟨5, 0, 0, 0x48, 0, 1, 1, 1, .ro, 0, 0, 0x03, none⟩
def DIR_STATUS_UNKNOWN : Fld := ⟨5, 0, 0, 0x48, 0, 1, 14, 8, .ro, 0, 0, 0x03, none⟩
def DIR_STATUS_SPARES : Fld := ⟨5, 0, 0, 0x48, 0, 1, 20, 16, .ro, 0, 2, 0x21, none⟩
def DIR_FENCE_HEADS : Fld := ⟨5, 0, 0, 0x50, 0, 1, 15, 0, .ro, 0, 0, 0x03, none⟩
def DIR_OCC_ENTRIES : Fld := ⟨5, 0, 0, 0x58, 0, 1, 27, 0, .ro, 0, 0, 0x23, none⟩
def DIR_CNT_LOOKUP_HIT : Fld := ⟨5, 0, 0, 0x60, 0, 1, 31, 0, .rc, 0, 0, 0x13, none⟩
def DIR_CNT_LOOKUP_MISS : Fld := ⟨5, 0, 0, 0x60, 0, 1, 63, 32, .rc, 0, 0, 0x13, none⟩
def DIR_CNT_BI_SENT : Fld := ⟨5, 0, 0, 0x68, 0, 1, 31, 0, .rc, 0, 0, 0x13, none⟩
def DIR_CNT_BI_CONFLICT : Fld := ⟨5, 0, 0, 0x68, 0, 1, 47, 32, .rc, 0, 0, 0x13, none⟩
def DIR_CNT_BI_BAD : Fld := ⟨5, 0, 0, 0x68, 0, 1, 63, 48, .rc, 0, 0, 0x13, none⟩
def DIR_CNT_EVICT_COUNT : Fld := ⟨5, 0, 0, 0x70, 0, 1, 47, 0, .rc, 0, 0, 0x13, none⟩
def DIR_CNT_BCAST_COUNT : Fld := ⟨5, 0, 0, 0x78, 0, 1, 31, 0, .rc, 0, 0, 0x13, none⟩
def DIR_UNKNOWN_SET : Fld := ⟨5, 0, 0, 0x100, 8, 64, 23, 0, .ro, 0, 0, 0x03, none⟩
def DIR_UNKNOWN_VALID : Fld := ⟨5, 0, 0, 0x100, 8, 64, 63, 63, .ro, 0, 0, 0x03, none⟩
def DIR_HEAD_LINES : Fld := ⟨5, 0, 0, 0x300, 8, 16, 27, 0, .ro, 0, 0, 0x27, none⟩
def DIR_HEAD_BI_OUT : Fld := ⟨5, 0, 0, 0x300, 8, 16, 40, 32, .ro, 0, 0, 0x07, none⟩
def DIR_HEAD_SWEEP : Fld := ⟨5, 0, 0, 0x300, 8, 16, 48, 48, .ro, 0, 0, 0x03, none⟩

/-! Table 9.7, R331, 09_coherence.md. -/
def DIR_BANK_WAYS_ACTIVE : Fld := ⟨5, 1, 16, 0x40, 0, 1, 16, 0, .ro, 0, 2, 0x21, none⟩
def DIR_BANK_WAYS_FAILED : Fld := ⟨5, 1, 16, 0x40, 0, 1, 48, 32, .ro, 0, 2, 0x21, none⟩
def DIR_BANK_CMD_WAY : Fld := ⟨5, 1, 16, 0x48, 0, 1, 4, 0, .wo, 0, 0, 0x00, none⟩
def DIR_BANK_CMD_CMD : Fld := ⟨5, 1, 16, 0x48, 0, 1, 10, 8, .wo, 0, 0, 0x00, none⟩
def DIR_WAY_FAULT_COUNT : Fld := ⟨5, 1, 16, 0x100, 8, 17, 3, 0, .ro, 0, 0, 0x13, none⟩
def DIR_WAY_FAULT_TOTAL : Fld := ⟨5, 1, 16, 0x100, 8, 17, 31, 16, .ro, 0, 0, 0x01, none⟩

/-! Table 10.9, R363, 10_admission_and_qos.md. -/
def ADM_CFG_MON_EPOCHS : Fld := ⟨4, 0, 0, 0x40, 0, 1, 6, 0, .rw, 4, 0, 0x21, some (1, 64)⟩
def ADM_FLOOR_PCT : Fld := ⟨4, 0, 0, 0x48, 0, 1, 6, 0, .rw, 70, 0, 0x21, some (10, 70)⟩
def ADM_FLOOR_MAINT_PCT : Fld := ⟨4, 0, 0, 0x48, 0, 1, 14, 8, .rw, 5, 0, 0x21, none⟩
def ADM_FLOOR_STS_RAW : Fld := ⟨4, 0, 0, 0x50, 0, 1, 23, 0, .ro, 0, 2, 0x03, none⟩
def ADM_FLOOR_STS_FLOOR : Fld := ⟨4, 0, 0, 0x50, 0, 1, 47, 24, .ro, 0, 2, 0x03, none⟩
def ADM_GUAR_STS_SUM : Fld := ⟨4, 0, 0, 0x58, 0, 1, 27, 0, .ro, 0, 0, 0x03, none⟩
def ADM_GUAR_STS_OVER : Fld := ⟨4, 0, 0, 0x58, 0, 1, 32, 32, .ro, 0, 0, 0x03, none⟩
def ADM_GUAR_PEND_CLASS : Fld := ⟨4, 0, 0, 0x60, 0, 1, 15, 0, .w1c, 0, 0, 0x03, none⟩
def ADM_BROWN_SAFE_PCT : Fld := ⟨4, 0, 0, 0x68, 0, 1, 6, 0, .rw, 25, 0, 0x21, some (5, 70)⟩
def ADM_BROWN_ACTIVE : Fld := ⟨4, 0, 0, 0x68, 0, 1, 8, 8, .ro, 0, 0, 0x03, none⟩
def ADM_SHP_SEL_BUCKET : Fld := ⟨4, 0, 0, 0x70, 0, 1, 15, 0, .rw, 0, 0, 0x03, none⟩
def ADM_SHP_RATE_RATE : Fld := ⟨4, 0, 0, 0x78, 0, 1, 23, 0, .rw, 0, 0, 0x21, none⟩
def ADM_SHP_RATE_PENDING : Fld := ⟨4, 0, 0, 0x78, 0, 1, 32, 32, .ro, 0, 0, 0x03, none⟩
def ADM_SHP_BURST_BURST : Fld := ⟨4, 0, 0, 0x80, 0, 1, 31, 0, .rw, 0x10000, 0, 0x21, some (64, 4294967295)⟩
def ADM_SHP_BAL_BAL : Fld := ⟨4, 0, 0, 0x88, 0, 1, 39, 0, .ro, 0, 3, 0x13, none⟩
def ADM_SLOT_CYC_CYCLES : Fld := ⟨4, 0, 0, 0x90, 0, 1, 47, 0, .rc, 0, 0, 0x13, none⟩
def ADM_GCL_CFG_CYCLE : Fld := ⟨4, 0, 0, 0x98, 0, 1, 6, 0, .rw, 1, 0, 0x21, some (1, 64)⟩
def ADM_GCL_CFG_ACTIVE : Fld := ⟨4, 0, 0, 0x98, 0, 1, 8, 8, .ro, 0, 0, 0x21, none⟩
def ADM_GCL_CFG_SWAP : Fld := ⟨4, 0, 0, 0x98, 0, 1, 9, 9, .wo, 0, 0, 0x00, none⟩
def ADM_GCL_CFG_SWAP_PEND : Fld := ⟨4, 0, 0, 0x98, 0, 1, 10, 10, .ro, 0, 0, 0x03, none⟩
def ADM_REF_NEAR_CH : Fld := ⟨4, 0, 0, 0xa0, 0, 1, 31, 0, .rw, 0, 0, 0x21, none⟩
def ADM_REF_BULK_SUB : Fld := ⟨4, 0, 0, 0xa8, 0, 1, 31, 0, .rw, 0, 0, 0x21, none⟩

/-! Table 10.10, R363, 10_admission_and_qos.md. -/
def ADM_CLS_CFG_WEIGHT : Fld := ⟨4, 1, 16, 0x40, 0, 1, 7, 0, .rw, 1, 0, 0x21, some (1, 255)⟩
def ADM_CLS_CFG_OVERHEAD : Fld := ⟨4, 1, 16, 0x40, 0, 1, 15, 8, .rw, 0, 0, 0x21, none⟩
def ADM_CLS_CFG_FORCE_OPEN : Fld := ⟨4, 1, 16, 0x40, 0, 1, 16, 16, .rw, 0, 0, 0x03, none⟩
def ADM_CLS_CFG_SHP_SUSPEND : Fld := ⟨4, 1, 16, 0x40, 0, 1, 17, 17, .rw, 0, 0, 0x03, none⟩
def ADM_CLS_GUAR_GUAR : Fld := ⟨4, 1, 16, 0x48, 0, 1, 23, 0, .rw, 0, 0, 0x21, none⟩
def ADM_CLS_GUAR_EFF : Fld := ⟨4, 1, 16, 0x48, 0, 1, 55, 32, .ro, 0, 0, 0x03, none⟩
def ADM_CLS_GATE_GB_RATE : Fld := ⟨4, 1, 16, 0x50, 0, 1, 23, 0, .rw, 0xfa00, 0, 0x21, some (1000, 16000000)⟩
def ADM_CLS_GATE_GUARD : Fld := ⟨4, 1, 16, 0x50, 0, 1, 41, 32, .ro, 1, 0, 0x03, none⟩
def ADM_CLS_GATE_MINWIN : Fld := ⟨4, 1, 16, 0x50, 0, 1, 57, 48, .ro, 2, 0, 0x03, none⟩
def ADM_CLS_DELIV_BYTES : Fld := ⟨4, 1, 16, 0x58, 0, 1, 47, 0, .rc, 0, 0, 0x13, none⟩
def ADM_SLOT_RET_SLOTS : Fld := ⟨4, 1, 16, 0x60, 0, 1, 47, 0, .rc, 0, 0, 0x13, none⟩
def ADM_SLOT_WASTE_SLOTS : Fld := ⟨4, 1, 16, 0x68, 0, 1, 47, 0, .rc, 0, 0, 0x13, none⟩
def ADM_SLOT_FRONT_SLOTS : Fld := ⟨4, 1, 16, 0x70, 0, 1, 47, 0, .rc, 0, 0, 0x13, none⟩
def ADM_SLOT_BACK_SLOTS : Fld := ⟨4, 1, 16, 0x78, 0, 1, 47, 0, .rc, 0, 0, 0x13, none⟩
def ADM_CLS_LEN_WINDOWS : Fld := ⟨4, 1, 16, 0x80, 0, 1, 31, 0, .rc, 0, 0, 0x13, none⟩

/-! Table 10.11, R363, 10_admission_and_qos.md. -/
def ADM_ING_MAXOUT_MAX0 : Fld := ⟨4, 17, 36, 0x40, 8, 4, 10, 0, .rw, 256, 0, 0x21, some (1, 1024)⟩
def ADM_ING_MAXOUT_MAX1 : Fld := ⟨4, 17, 36, 0x40, 8, 4, 26, 16, .rw, 256, 0, 0x21, some (1, 1024)⟩
def ADM_ING_MAXOUT_MAX2 : Fld := ⟨4, 17, 36, 0x40, 8, 4, 42, 32, .rw, 256, 0, 0x21, some (1, 1024)⟩
def ADM_ING_MAXOUT_MAX3 : Fld := ⟨4, 17, 36, 0x40, 8, 4, 58, 48, .rw, 256, 0, 0x21, some (1, 1024)⟩
def ADM_ING_EFF_EFF0 : Fld := ⟨4, 17, 36, 0x60, 8, 4, 10, 0, .ro, 256, 0, 0x03, none⟩
def ADM_ING_EFF_EFF1 : Fld := ⟨4, 17, 36, 0x60, 8, 4, 26, 16, .ro, 256, 0, 0x03, none⟩
def ADM_ING_EFF_EFF2 : Fld := ⟨4, 17, 36, 0x60, 8, 4, 42, 32, .ro, 256, 0, 0x03, none⟩
def ADM_ING_EFF_EFF3 : Fld := ⟨4, 17, 36, 0x60, 8, 4, 58, 48, .ro, 256, 0, 0x03, none⟩
def ADM_ING_BKT_BUCKET0 : Fld := ⟨4, 17, 36, 0x80, 8, 4, 15, 0, .rw, 0, 1, 0x21, none⟩
def ADM_ING_BKT_BUCKET1 : Fld := ⟨4, 17, 36, 0x80, 8, 4, 31, 16, .rw, 1, 1, 0x21, none⟩
def ADM_ING_BKT_BUCKET2 : Fld := ⟨4, 17, 36, 0x80, 8, 4, 47, 32, .rw, 2, 1, 0x21, none⟩
def ADM_ING_BKT_BUCKET3 : Fld := ⟨4, 17, 36, 0x80, 8, 4, 63, 48, .rw, 3, 1, 0x21, none⟩
def ADM_ING_OUT_COUNT0 : Fld := ⟨4, 17, 36, 0xa0, 8, 4, 10, 0, .ro, 0, 0, 0x07, none⟩
def ADM_ING_OUT_COUNT1 : Fld := ⟨4, 17, 36, 0xa0, 8, 4, 26, 16, .ro, 0, 0, 0x07, none⟩
def ADM_ING_OUT_COUNT2 : Fld := ⟨4, 17, 36, 0xa0, 8, 4, 42, 32, .ro, 0, 0, 0x07, none⟩
def ADM_ING_OUT_COUNT3 : Fld := ⟨4, 17, 36, 0xa0, 8, 4, 58, 48, .ro, 0, 0, 0x07, none⟩
def ADM_ING_CFG_DEF_CLASS : Fld := ⟨4, 17, 36, 0xc0, 0, 1, 3, 0, .rw, 0, 0, 0x21, none⟩
def ADM_ING_STS_REMAP : Fld := ⟨4, 17, 36, 0xc8, 0, 1, 31, 0, .rc, 0, 0, 0x13, none⟩
def ADM_HDEP_BIN0 : Fld := ⟨4, 17, 36, 0x400, 8, 128, 31, 0, .rc, 0, 0, 0x13, none⟩
def ADM_HDEP_BIN1 : Fld := ⟨4, 17, 36, 0x400, 8, 128, 63, 32, .rc, 0, 0, 0x13, none⟩
def ADM_HDLY_BIN0 : Fld := ⟨4, 17, 36, 0x800, 8, 128, 31, 0, .rc, 0, 0, 0x13, none⟩
def ADM_HDLY_BIN1 : Fld := ⟨4, 17, 36, 0x800, 8, 128, 63, 32, .rc, 0, 0, 0x13, none⟩

/-! Table 10.12, R363, 10_admission_and_qos.md. -/
def ADM_GCL_ENT_PHASE : Fld := ⟨4, 48, 49, 0x40, 8, 256, 9, 0, .rw, 0, 0, 0x21, none⟩
def ADM_GCL_ENT_EPOCH : Fld := ⟨4, 48, 49, 0x40, 8, 256, 15, 10, .rw, 0, 0, 0x21, none⟩
def ADM_GCL_ENT_OPEN : Fld := ⟨4, 48, 49, 0x40, 8, 256, 31, 16, .rw, 0, 0, 0x21, none⟩
def ADM_GCL_ENT_REF : Fld := ⟨4, 48, 49, 0x40, 8, 256, 32, 32, .rw, 0, 0, 0x21, none⟩
def ADM_GCL_ENT_VALID : Fld := ⟨4, 48, 49, 0x40, 8, 256, 33, 33, .rw, 0, 0, 0x21, none⟩

/-! Table 11.12, R395, 11_job_queues.md. -/
def SCR_JOB_CFG_PARTS : Fld := ⟨9, 64, 64, 0x40, 0, 1, 3, 0, .rw, 4, 0, 0x03, some (1, 8)⟩
def SCR_JOB_CFG_CACHE_WARN : Fld := ⟨9, 64, 64, 0x40, 0, 1, 31, 16, .rw, 4096, 0, 0x03, some (1, 65535)⟩
def SCR_JOB_STS_ACTIVE : Fld := ⟨9, 64, 64, 0x48, 0, 1, 20, 0, .ro, 0, 0, 0x03, none⟩
def SCR_JOB_STS_INFLIGHT : Fld := ⟨9, 64, 64, 0x48, 0, 1, 40, 32, .ro, 0, 0, 0x03, none⟩
def SCR_JOB_STS_PAUSED : Fld := ⟨9, 64, 64, 0x48, 0, 1, 48, 48, .ro, 0, 0, 0x03, none⟩
def SCR_JOB_CACHE_HIT : Fld := ⟨9, 64, 64, 0x50, 0, 1, 31, 0, .rc, 0, 0, 0x13, none⟩
def SCR_JOB_CACHE_MISS : Fld := ⟨9, 64, 64, 0x50, 0, 1, 63, 32, .rc, 0, 0, 0x13, none⟩
def SCR_JOB_DONE_JOBS : Fld := ⟨9, 64, 64, 0x58, 0, 1, 47, 0, .rc, 0, 0, 0x13, none⟩
def SCR_JOB_FAIL_JOBS : Fld := ⟨9, 64, 64, 0x60, 0, 1, 47, 0, .rc, 0, 0, 0x13, none⟩
def SCR_JOB_LOST_CQE : Fld := ⟨9, 64, 64, 0x68, 0, 1, 31, 0, .rc, 0, 0, 0x13, none⟩
def SCR_JOB_LASTERR_QUEUE : Fld := ⟨9, 64, 64, 0x70, 0, 1, 19, 0, .ro, 0, 0, 0x03, none⟩
def SCR_JOB_LASTERR_CAUSE : Fld := ⟨9, 64, 64, 0x70, 0, 1, 27, 20, .ro, 0, 0, 0x03, none⟩

/-! Table 12.14, R434, 12_chain_links.md. -/
def CLX_CFG_LOCK_LOSS : Fld := ⟨3, 0, 0, 0x40, 0, 1, 13, 0, .rw, 100, 0, 0x03, some (1, 10000)⟩
def CLX_CFG_REPLAY_TO : Fld := ⟨3, 0, 0, 0x40, 0, 1, 23, 16, .rw, 20, 0, 0x03, some (5, 200)⟩
def CLX_CFG_REPLAY_LIMIT : Fld := ⟨3, 0, 0, 0x40, 0, 1, 27, 24, .rw, 4, 0, 0x03, some (1, 15)⟩
def CLX_CFG_E2E_TIMEOUT : Fld := ⟨3, 0, 0, 0x40, 0, 1, 47, 32, .rw, 1000, 0, 0x03, some (100, 60000)⟩
def CLX_CFG_FAR_LIMIT : Fld := ⟨3, 0, 0, 0x40, 0, 1, 57, 48, .rw, 20, 0, 0x03, some (1, 1000)⟩
def CLX_ID_ID : Fld := ⟨3, 0, 0, 0x48, 0, 1, 3, 0, .ro, 0, 0, 0x21, none⟩
def CLX_ID_VALID : Fld := ⟨3, 0, 0, 0x48, 0, 1, 4, 4, .ro, 0, 0, 0x21, none⟩
def CLX_ID_HEAD : Fld := ⟨3, 0, 0, 0x48, 0, 1, 5, 5, .ro, 0, 2, 0x01, none⟩
def CLX_ID_SN : Fld := ⟨3, 0, 0, 0x48, 0, 1, 63, 32, .ro, 0, 2, 0x01, none⟩
def CLX_RING_N : Fld := ⟨3, 0, 0, 0x50, 0, 1, 4, 0, .ro, 0, 0, 0x03, none⟩
def CLX_RING_WHOLE : Fld := ⟨3, 0, 0, 0x50, 0, 1, 8, 8, .ro, 0, 0, 0x03, none⟩
def CLX_RING_ROUND : Fld := ⟨3, 0, 0, 0x50, 0, 1, 31, 16, .ro, 0, 0, 0x03, none⟩
def CLX_ORDER_ORDER : Fld := ⟨3, 0, 0, 0x58, 0, 1, 63, 0, .ro, 0, 0, 0x03, none⟩
def CLX_LINKS_UP : Fld := ⟨3, 0, 0, 0x60, 0, 1, 15, 0, .ro, 0, 0, 0x03, none⟩
def CLX_ROUTE_PORT : Fld := ⟨3, 0, 0, 0x68, 0, 1, 31, 0, .ro, 0, 0, 0x03, none⟩
def CLX_HOPS_HOPS : Fld := ⟨3, 0, 0, 0x70, 0, 1, 63, 0, .ro, 0, 0, 0x03, none⟩
def CLX_FAR_STS_OUT : Fld := ⟨3, 0, 0, 0x78, 0, 1, 11, 0, .ro, 0, 0, 0x03, none⟩
def CLX_FAR_STS_UNCONF : Fld := ⟨3, 0, 0, 0x78, 0, 1, 26, 16, .ro, 0, 0, 0x03, none⟩

/-! Table 12.15, R434, 12_chain_links.md. -/
def CLX_PORT_STS_STATE : Fld := ⟨3, 1, 2, 0x40, 0, 1, 2, 0, .ro, 0, 0, 0x13, none⟩
def CLX_PORT_STS_WIDTH : Fld := ⟨3, 1, 2, 0x40, 0, 1, 5, 4, .ro, 0, 0, 0x13, none⟩
def CLX_PORT_STS_FAILED : Fld := ⟨3, 1, 2, 0x40, 0, 1, 14, 6, .ro, 0, 0, 0x01, none⟩
def CLX_PORT_STS_SPARE_IN : Fld := ⟨3, 1, 2, 0x40, 0, 1, 15, 15, .ro, 0, 0, 0x01, none⟩
def CLX_PORT_STS_PEER_SN : Fld := ⟨3, 1, 2, 0x40, 0, 1, 63, 32, .ro, 0, 0, 0x13, none⟩
def CLX_PORT_CTL_ENABLE : Fld := ⟨3, 1, 2, 0x48, 0, 1, 0, 0, .rw, 1, 0, 0x03, none⟩
def CLX_PORT_CTL_RETRAIN : Fld := ⟨3, 1, 2, 0x48, 0, 1, 1, 1, .wo, 0, 0, 0x00, none⟩
def CLX_PORT_CTL_MARK : Fld := ⟨3, 1, 2, 0x48, 0, 1, 10, 2, .wo, 0, 0, 0x00, none⟩
def CLX_PORT_CTL_LANE_ERR : Fld := ⟨3, 1, 2, 0x48, 0, 1, 31, 16, .rw, 1024, 0, 0x03, some (1, 65535)⟩
def CLX_PORT_SEQ_TX_NEXT : Fld := ⟨3, 1, 2, 0x50, 0, 1, 11, 0, .ro, 0, 0, 0x13, none⟩
def CLX_PORT_SEQ_TX_ACKED : Fld := ⟨3, 1, 2, 0x50, 0, 1, 27, 16, .ro, 0, 0, 0x13, none⟩
def CLX_PORT_SEQ_RX_EXP : Fld := ⟨3, 1, 2, 0x50, 0, 1, 43, 32, .ro, 0, 0, 0x13, none⟩
def CLX_PORT_SEQ_UNACKED : Fld := ⟨3, 1, 2, 0x50, 0, 1, 57, 48, .ro, 0, 0, 0x13, none⟩
def CLX_PORT_CRED_AVAIL : Fld := ⟨3, 1, 2, 0x58, 0, 1, 63, 0, .ro, 0, 0, 0x13, none⟩
def CLX_PORT_ERR_CRC_FAIL : Fld := ⟨3, 1, 2, 0x60, 0, 1, 31, 0, .rc, 0, 0, 0x13, none⟩
def CLX_PORT_ERR_NAK_TX : Fld := ⟨3, 1, 2, 0x60, 0, 1, 47, 32, .rc, 0, 0, 0x13, none⟩
def CLX_PORT_ERR_PROTO : Fld := ⟨3, 1, 2, 0x60, 0, 1, 63, 48, .rc, 0, 0, 0x13, none⟩
def CLX_PORT_RPL_REPLAYS : Fld := ⟨3, 1, 2, 0x68, 0, 1, 31, 0, .rc, 0, 0, 0x13, none⟩
def CLX_PORT_RPL_TIMEOUTS : Fld := ⟨3, 1, 2, 0x68, 0, 1, 47, 32, .rc, 0, 0, 0x13, none⟩
def CLX_PORT_RPL_RETRAINS : Fld := ⟨3, 1, 2, 0x68, 0, 1, 63, 48, .rc, 0, 0, 0x13, none⟩
def CLX_PORT_FEC_CORR : Fld := ⟨3, 1, 2, 0x70, 0, 1, 47, 0, .rc, 0, 0, 0x13, none⟩
def CLX_PORT_DROP_TTL : Fld := ⟨3, 1, 2, 0x78, 0, 1, 31, 0, .rc, 0, 0, 0x13, none⟩
def CLX_PORT_DROP_DEAD : Fld := ⟨3, 1, 2, 0x78, 0, 1, 63, 32, .rc, 0, 0, 0x13, none⟩

/-! Table 12.16, R434, 12_chain_links.md. -/
def CLX_PEER_TX_NEXT : Fld := ⟨3, 3, 18, 0x40, 0, 1, 31, 0, .ro, 0, 0, 0x23, none⟩
def CLX_PEER_TX_UNCONF : Fld := ⟨3, 3, 18, 0x40, 0, 1, 40, 32, .ro, 0, 0, 0x03, none⟩
def CLX_PEER_TX_SYNCED : Fld := ⟨3, 3, 18, 0x40, 0, 1, 48, 48, .ro, 0, 0, 0x23, none⟩
def CLX_PEER_RX_LAST : Fld := ⟨3, 3, 18, 0x48, 0, 1, 31, 0, .ro, 0, 0, 0x21, none⟩
def CLX_PEER_RX_SYNCED : Fld := ⟨3, 3, 18, 0x48, 0, 1, 32, 32, .ro, 0, 0, 0x21, none⟩
def CLX_PEER_CNT_DUP : Fld := ⟨3, 3, 18, 0x50, 0, 1, 31, 0, .rc, 0, 0, 0x13, none⟩
def CLX_PEER_CNT_GAP : Fld := ⟨3, 3, 18, 0x50, 0, 1, 47, 32, .rc, 0, 0, 0x13, none⟩
def CLX_PEER_CNT_DROPPED : Fld := ⟨3, 3, 18, 0x50, 0, 1, 63, 48, .rc, 0, 0, 0x13, none⟩

/-! Table 13.9, R457, 13_control_cluster_and_boot.md. -/
def CTL_BOOT_BOOT_CORE : Fld := ⟨1, 0, 0, 0x40, 0, 1, 3, 0, .ro, 0, 2, 0x01, none⟩
def CTL_BOOT_COPY : Fld := ⟨1, 0, 0, 0x40, 0, 1, 5, 4, .ro, 0, 0, 0x03, none⟩
def CTL_BOOT_FALLBACK : Fld := ⟨1, 0, 0, 0x40, 0, 1, 6, 6, .ro, 0, 0, 0x03, none⟩
def CTL_BOOT_TRIAL : Fld := ⟨1, 0, 0, 0x40, 0, 1, 7, 7, .ro, 0, 0, 0x03, none⟩
def CTL_BOOT_REJ_A : Fld := ⟨1, 0, 0, 0x40, 0, 1, 11, 8, .ro, 0, 0, 0x03, none⟩
def CTL_BOOT_REJ_B : Fld := ⟨1, 0, 0, 0x40, 0, 1, 15, 12, .ro, 0, 0, 0x03, none⟩
def CTL_BOOT_ROM_VER : Fld := ⟨1, 0, 0, 0x40, 0, 1, 31, 16, .ro, 0, 2, 0x01, none⟩
def CTL_FW_VER_VERSION : Fld := ⟨1, 0, 0, 0x48, 0, 1, 31, 0, .ro, 0, 0, 0x03, none⟩
def CTL_FW_VER_SVN : Fld := ⟨1, 0, 0, 0x48, 0, 1, 63, 32, .ro, 0, 0, 0x03, none⟩
def CTL_FUSE_SVN_MIN_SVN : Fld := ⟨1, 0, 0, 0x50, 0, 1, 31, 0, .ro, 0, 2, 0x01, none⟩
def CTL_FUSE_SVN_REVOKED : Fld := ⟨1, 0, 0, 0x50, 0, 1, 35, 32, .ro, 0, 2, 0x01, none⟩
def CTL_WDT_TIMEOUT : Fld := ⟨1, 0, 0, 0x58, 0, 1, 15, 0, .rwl, 500, 0, 0x03, some (10, 10000)⟩
def CTL_WDT_KICK : Fld := ⟨1, 0, 0, 0x58, 0, 1, 16, 16, .wo, 0, 0, 0x00, none⟩
def CTL_WDT_STAGE : Fld := ⟨1, 0, 0, 0x58, 0, 1, 17, 17, .ro, 0, 0, 0x03, none⟩
def CTL_HEALTH_STATE : Fld := ⟨1, 0, 0, 0x60, 0, 1, 2, 0, .ro, 0, 0, 0x03, none⟩
def CTL_HEALTH_MEM_ACTIVE : Fld := ⟨1, 0, 0, 0x60, 0, 1, 8, 8, .ro, 0, 0, 0x03, none⟩
def CTL_CORES_ACTIVE : Fld := ⟨1, 0, 0, 0x68, 0, 1, 15, 0, .ro, 0, 2, 0x03, none⟩
def CTL_CORES_SPARE : Fld := ⟨1, 0, 0, 0x68, 0, 1, 31, 16, .ro, 0, 2, 0x03, none⟩
def CTL_CORES_FAILED : Fld := ⟨1, 0, 0, 0x68, 0, 1, 47, 32, .ro, 0, 2, 0x21, none⟩
def CTL_ESC_CNT_ALLOC : Fld := ⟨1, 0, 0, 0x70, 0, 1, 15, 0, .rc, 0, 0, 0x13, none⟩
def CTL_ESC_CNT_RAS : Fld := ⟨1, 0, 0, 0x70, 0, 1, 31, 16, .rc, 0, 0, 0x13, none⟩
def CTL_ESC_CNT_POWER : Fld := ⟨1, 0, 0, 0x70, 0, 1, 47, 32, .rc, 0, 0, 0x13, none⟩
def CTL_ESC_LAT_MAX : Fld := ⟨1, 0, 0, 0x78, 0, 1, 31, 0, .rc, 0, 0, 0x13, none⟩

/-! Table 13.10, R457, 13_control_cluster_and_boot.md. -/
def CTL_CORE_CTL_STATE : Fld := ⟨1, 1, 16, 0x40, 0, 1, 2, 0, .ro, 0, 2, 0x21, none⟩
def CTL_CORE_CTL_CMD : Fld := ⟨1, 1, 16, 0x40, 0, 1, 6, 4, .wo, 0, 0, 0x00, none⟩
def CTL_CORE_ROLE_ROLES : Fld := ⟨1, 1, 16, 0x48, 0, 1, 15, 0, .ro, 0, 0, 0x03, none⟩
def CTL_CORE_FAULT_COUNT : Fld := ⟨1, 1, 16, 0x50, 0, 1, 3, 0, .ro, 0, 0, 0x13, none⟩
def CTL_CORE_FAULT_TOTAL : Fld := ⟨1, 1, 16, 0x50, 0, 1, 31, 16, .ro, 0, 0, 0x01, none⟩
def CTL_CORE_HB_BEAT : Fld := ⟨1, 1, 16, 0x58, 0, 1, 31, 0, .ro, 0, 0, 0x03, none⟩

/-! Table 14.8, R478, 14_events_and_counters.md. -/
def EVT_QUEUE_HEAD : Fld := ⟨13, 0, 0, 0x40, 0, 1, 9, 0, .rw, 0, 0, 0x03, none⟩
def EVT_QUEUE_TAIL : Fld := ⟨13, 0, 0, 0x40, 0, 1, 25, 16, .ro, 0, 0, 0x03, none⟩
def EVT_QUEUE_OVF : Fld := ⟨13, 0, 0, 0x40, 0, 1, 63, 32, .rc, 0, 0, 0x03, none⟩
def EVT_TICKS_TICKS : Fld := ⟨13, 0, 0, 0x48, 0, 1, 47, 0, .ro, 0, 0, 0x03, none⟩
def EVT_FM_TEST_RAISE : Fld := ⟨13, 0, 0, 0x50, 0, 1, 0, 0, .wo, 0, 0, 0x00, none⟩
def EVT_PEND_SRC : Fld := ⟨13, 0, 0, 0x100, 8, 4, 63, 0, .w1c, 0, 0, 0x03, none⟩
def EVT_ALERT_EN_SRC : Fld := ⟨13, 0, 0, 0x140, 8, 4, 63, 0, .rwl, 0, 3, 0x03, none⟩
def EVT_ALERT_PEND_SRC : Fld := ⟨13, 0, 0, 0x180, 8, 4, 63, 0, .w1c, 0, 0, 0x01, none⟩
def EVT_SRC_CLASS : Fld := ⟨13, 0, 0, 0x200, 8, 256, 2, 0, .ro, 0, 3, 0x00, none⟩
def EVT_SRC_COUNT : Fld := ⟨13, 0, 0, 0x200, 8, 256, 31, 8, .rc, 0, 0, 0x03, none⟩
def EVT_SRC_LAST : Fld := ⟨13, 0, 0, 0x200, 8, 256, 63, 32, .ro, 0, 0, 0x03, none⟩

/-! Table 14.9, R478, 14_events_and_counters.md. -/
def EVT_LD_EN_SRC : Fld := ⟨13, 1, 64, 0x40, 8, 4, 63, 0, .rw, 0xffffffffffffffff, 0, 0x0b, none⟩
def EVT_LD_PEND_SRC : Fld := ⟨13, 1, 64, 0x60, 8, 4, 63, 0, .w1c, 0, 0, 0x0b, none⟩
def EVT_LD_LOG_HELD0 : Fld := ⟨13, 1, 64, 0x80, 0, 1, 6, 0, .ro, 0, 0, 0x0b, none⟩
def EVT_LD_LOG_HELD1 : Fld := ⟨13, 1, 64, 0x80, 0, 1, 14, 8, .ro, 0, 0, 0x0b, none⟩
def EVT_LD_LOG_HELD2 : Fld := ⟨13, 1, 64, 0x80, 0, 1, 22, 16, .ro, 0, 0, 0x0b, none⟩
def EVT_LD_LOG_HELD3 : Fld := ⟨13, 1, 64, 0x80, 0, 1, 30, 24, .ro, 0, 0, 0x0b, none⟩
def EVT_LD_LOG_OVF : Fld := ⟨13, 1, 64, 0x80, 0, 1, 35, 32, .ro, 0, 0, 0x0b, none⟩
def EVT_LD_TEST_RAISE : Fld := ⟨13, 1, 64, 0x88, 0, 1, 0, 0, .wo, 0, 0, 0x00, none⟩

/-! Table 14.10, R479, 14_events_and_counters.md. -/
def PMU_TICK_CYCLES : Fld := ⟨14, 0, 13, 0x40, 0, 1, 47, 0, .ro, 0, 0, 0x03, none⟩
def PMU_CNT_COUNT : Fld := ⟨14, 0, 13, 0x48, 8, 6, 47, 0, .rw, 0, 0, 0x13, none⟩
def PMU_SEL_CODE : Fld := ⟨14, 0, 13, 0x78, 8, 6, 7, 0, .rw, 0, 0, 0x23, none⟩
def PMU_SEL_INST_BASE : Fld := ⟨14, 0, 13, 0x78, 8, 6, 15, 8, .rw, 0, 0, 0x23, none⟩
def PMU_SEL_CLASS_MASK : Fld := ⟨14, 0, 13, 0x78, 8, 6, 31, 16, .rw, 0, 0, 0x23, none⟩
def PMU_SEL_INST : Fld := ⟨14, 0, 13, 0x78, 8, 6, 63, 32, .rw, 0, 0, 0x23, none⟩
def PMU_OVF_OVF : Fld := ⟨14, 0, 13, 0xa8, 0, 1, 5, 0, .w1c, 0, 0, 0x13, none⟩
def PMU_OVF_OVF_EN : Fld := ⟨14, 0, 13, 0xa8, 0, 1, 13, 8, .rw, 0, 0, 0x23, none⟩

/-! Table 14.11, R479, 14_events_and_counters.md. -/
def PMU_SNAP_PERIOD : Fld := ⟨14, 14, 14, 0x40, 0, 1, 15, 0, .rw, 0, 0, 0x23, none⟩
def PMU_SNAP_NOW : Fld := ⟨14, 14, 14, 0x40, 0, 1, 16, 16, .wo, 0, 0, 0x00, none⟩
def PMU_SNAP_EVT_EN : Fld := ⟨14, 14, 14, 0x40, 0, 1, 17, 17, .rw, 0, 0, 0x23, none⟩
def PMU_SNAP_EVT_SRC : Fld := ⟨14, 14, 14, 0x40, 0, 1, 31, 24, .rw, 0, 0, 0x23, none⟩
def PMU_SNAP_STS_SEQ : Fld := ⟨14, 14, 14, 0x48, 0, 1, 47, 0, .ro, 0, 0, 0x03, none⟩
def PMU_SNAP_STS_MISSED : Fld := ⟨14, 14, 14, 0x48, 0, 1, 63, 48, .rc, 0, 0, 0x03, none⟩

/-! Table 15.8, R498, 15_power_states.md. -/
def AON_PWR_MODE_TARGET : Fld := ⟨0, 0, 0, 0x40, 0, 1, 2, 0, .rw, 0, 0, 0x23, none⟩
def AON_PWR_MODE_ARM : Fld := ⟨0, 0, 0, 0x40, 0, 1, 8, 8, .rw, 0, 0, 0x03, none⟩
def AON_PWR_MODE_CUR : Fld := ⟨0, 0, 0, 0x40, 0, 1, 18, 16, .ro, 0, 0, 0x23, none⟩
def AON_PWR_MODE_PHASE : Fld := ⟨0, 0, 0, 0x40, 0, 1, 21, 20, .ro, 0, 0, 0x23, none⟩
def AON_PWR_CFG_RETRY_IDLE : Fld := ⟨0, 0, 0, 0x48, 0, 1, 9, 0, .rw, 100, 0, 0x21, some (10, 1000)⟩
def AON_PWR_CFG_RETRY_MAX : Fld := ⟨0, 0, 0, 0x48, 0, 1, 19, 16, .rw, 4, 0, 0x21, none⟩
def AON_PWR_CFG_CRICKET_EN : Fld := ⟨0, 0, 0, 0x48, 0, 1, 24, 24, .rw, 1, 0, 0x21, none⟩
def AON_PWR_CFG_WAKEN_EN : Fld := ⟨0, 0, 0, 0x48, 0, 1, 25, 25, .rw, 1, 0, 0x21, none⟩
def AON_PWR_CFG_ALARM_EN : Fld := ⟨0, 0, 0, 0x48, 0, 1, 26, 26, .rw, 1, 0, 0x21, none⟩
def AON_PWR_STS_LAST_WAKE : Fld := ⟨0, 0, 0, 0x50, 0, 1, 3, 0, .ro, 0, 0, 0x21, none⟩
def AON_PWR_STS_LAST_TARGET : Fld := ⟨0, 0, 0, 0x50, 0, 1, 10, 8, .ro, 0, 0, 0x21, none⟩
def AON_PWR_STS_OUTCOME : Fld := ⟨0, 0, 0, 0x50, 0, 1, 13, 12, .ro, 0, 0, 0x21, none⟩
def AON_PWR_STS_ATTEMPTS : Fld := ⟨0, 0, 0, 0x50, 0, 1, 19, 16, .ro, 0, 0, 0x21, none⟩
def AON_PWR_CNT_P1 : Fld := ⟨0, 0, 0, 0x58, 0, 1, 15, 0, .rc, 0, 0, 0x01, none⟩
def AON_PWR_CNT_P2 : Fld := ⟨0, 0, 0, 0x58, 0, 1, 31, 16, .rc, 0, 0, 0x01, none⟩
def AON_PWR_CNT_P3 : Fld := ⟨0, 0, 0, 0x58, 0, 1, 47, 32, .rc, 0, 0, 0x01, none⟩
def AON_PWR_CNT_ABORTS : Fld := ⟨0, 0, 0, 0x58, 0, 1, 63, 48, .rc, 0, 0, 0x01, none⟩
def AON_ALARM_PHASE : Fld := ⟨0, 0, 0, 0x60, 0, 1, 9, 0, .rw, 0, 0, 0x23, none⟩
def AON_ALARM_EPOCH : Fld := ⟨0, 0, 0, 0x60, 0, 1, 15, 10, .rw, 0, 0, 0x23, none⟩
def AON_ALARM_CYCLE : Fld := ⟨0, 0, 0, 0x60, 0, 1, 22, 16, .rw, 1, 0, 0x23, some (1, 64)⟩
def AON_ALARM_EN : Fld := ⟨0, 0, 0, 0x60, 0, 1, 24, 24, .rw, 0, 0, 0x23, none⟩
def AON_CRICKET_ADDR : Fld := ⟨0, 0, 0, 0x68, 0, 1, 6, 0, .ro, 0, 0, 0x21, none⟩
def AON_CRICKET_MATCHES : Fld := ⟨0, 0, 0, 0x68, 0, 1, 31, 16, .rc, 0, 0, 0x01, none⟩
def AON_CANARY_SEQ : Fld := ⟨0, 0, 0, 0x70, 0, 1, 31, 0, .ro, 0, 0, 0x21, none⟩
def AON_CANARY_SIGNED : Fld := ⟨0, 0, 0, 0x70, 0, 1, 46, 32, .ro, 0, 0, 0x21, none⟩
def AON_CANARY_FAILED : Fld := ⟨0, 0, 0, 0x70, 0, 1, 62, 48, .ro, 0, 0, 0x21, none⟩
def AON_RESUME_VALID : Fld := ⟨0, 0, 0, 0x78, 0, 1, 0, 0, .ro, 0, 0, 0x23, none⟩
def AON_RESUME_RESULT : Fld := ⟨0, 0, 0, 0x78, 0, 1, 1, 1, .ro, 0, 0, 0x23, none⟩

/-! Table 16.10, R531, 16_reset_clocks_time.md. -/
def AON_RST_CAUSE_CAUSE : Fld := ⟨0, 1, 1, 0x40, 0, 1, 3, 0, .ro, 1, 0, 0x01, none⟩
def AON_RST_CAUSE_SUPPLY : Fld := ⟨0, 1, 1, 0x40, 0, 1, 7, 4, .ro, 0, 0, 0x01, none⟩
def AON_RST_CAUSE_WARM_LOST : Fld := ⟨0, 1, 1, 0x40, 0, 1, 8, 8, .ro, 0, 0, 0x00, none⟩
def AON_RST_CTL_WARM_REQ : Fld := ⟨0, 1, 1, 0x48, 0, 1, 0, 0, .wo, 0, 0, 0x00, none⟩
def AON_RST_CTL_COLD_CMD : Fld := ⟨0, 1, 1, 0x48, 0, 1, 1, 1, .wo, 0, 0, 0x00, none⟩
def AON_BLK_RST_BLOCK : Fld := ⟨0, 1, 1, 0x50, 0, 1, 3, 0, .rw, 0, 0, 0x03, none⟩
def AON_BLK_RST_REQ : Fld := ⟨0, 1, 1, 0x50, 0, 1, 8, 8, .wo, 0, 0, 0x00, none⟩
def AON_BLK_RST_LAST : Fld := ⟨0, 1, 1, 0x50, 0, 1, 19, 16, .ro, 0, 0, 0x03, none⟩
def AON_FUSE_STS_COPY : Fld := ⟨0, 1, 1, 0x58, 0, 1, 5, 0, .ro, 0, 0, 0x01, none⟩
def AON_FUSE_STS_DEFAULT : Fld := ⟨0, 1, 1, 0x58, 0, 1, 13, 8, .ro, 0, 0, 0x01, none⟩
def AON_D2D_LOST : Fld := ⟨0, 1, 1, 0x60, 0, 1, 3, 0, .ro, 0, 0, 0x01, none⟩
def AON_PIN_STATE : Fld := ⟨0, 1, 1, 0x68, 0, 1, 17, 0, .ro, 0, 2, 0x03, none⟩

/-! Table 16.11, R531, 16_reset_clocks_time.md. -/
def AON_CLK_STS_LOCK : Fld := ⟨0, 2, 2, 0x40, 0, 1, 11, 0, .ro, 0, 0, 0x03, none⟩
def AON_CLK_STS_LOST : Fld := ⟨0, 2, 2, 0x40, 0, 1, 27, 16, .w1c, 0, 0, 0x01, none⟩
def AON_CLK_STS_XTAL_OK : Fld := ⟨0, 2, 2, 0x40, 0, 1, 32, 32, .ro, 0, 0, 0x01, none⟩
def AON_CLK_STS_LS_RC : Fld := ⟨0, 2, 2, 0x40, 0, 1, 33, 33, .ro, 0, 0, 0x01, none⟩
def AON_SUP_STS_WARN : Fld := ⟨0, 2, 2, 0x48, 0, 1, 9, 0, .ro, 0, 0, 0x03, none⟩
def AON_SUP_STS_MASK : Fld := ⟨0, 2, 2, 0x48, 0, 1, 25, 16, .ro, 0, 0, 0x03, none⟩
def AON_SUP_CNT_WARNS : Fld := ⟨0, 2, 2, 0x50, 0, 1, 31, 0, .rc, 0, 0, 0x01, none⟩
def AON_THERM_TJ : Fld := ⟨0, 2, 2, 0x58, 0, 1, 7, 0, .ro, 0, 0, 0x03, none⟩

/-! Table 16.12, R531, 16_reset_clocks_time.md. -/
def AON_TIME_CFG_PERIOD : Fld := ⟨0, 3, 3, 0x40, 0, 1, 11, 0, .rw, 256, 0, 0x01, some (64, 4000)⟩
def AON_TIME_CFG_WIN : Fld := ⟨0, 3, 3, 0x40, 0, 1, 25, 12, .rw, 500, 0, 0x01, some (50, 10000)⟩
def AON_TIME_CFG_HOLD_LIMIT : Fld := ⟨0, 3, 3, 0x40, 0, 1, 47, 32, .rw, 4096, 0, 0x01, some (1, 65535)⟩
def AON_EPOCH_EPOCH : Fld := ⟨0, 3, 3, 0x48, 0, 1, 47, 0, .ro, 0, 0, 0x01, none⟩
def AON_EPOCH_PHASE : Fld := ⟨0, 3, 3, 0x48, 0, 1, 57, 48, .ro, 0, 0, 0x01, none⟩
def AON_EPOCH_QUALITY : Fld := ⟨0, 3, 3, 0x48, 0, 1, 61, 60, .ro, 2, 0, 0x01, none⟩
def AON_EPOCH_LOAD_VALUE : Fld := ⟨0, 3, 3, 0x50, 0, 1, 47, 0, .rw, 0, 0, 0x01, none⟩
def AON_EPOCH_LOAD_ARM : Fld := ⟨0, 3, 3, 0x50, 0, 1, 48, 48, .rw, 0, 0, 0x01, none⟩
def AON_TIME_STS_OFFWIN : Fld := ⟨0, 3, 3, 0x58, 0, 1, 31, 0, .rc, 0, 0, 0x01, none⟩
def AON_TIME_STS_AMBIG : Fld := ⟨0, 3, 3, 0x58, 0, 1, 32, 32, .ro, 0, 0, 0x01, none⟩
def AON_TIME_EST_ERR : Fld := ⟨0, 3, 3, 0x60, 0, 1, 31, 0, .ro, 0, 0, 0x01, none⟩
def AON_TIME_EST_SWITCHED : Fld := ⟨0, 3, 3, 0x60, 0, 1, 32, 32, .ro, 0, 0, 0x01, none⟩
def AON_TIME_EST_INVALID : Fld := ⟨0, 3, 3, 0x60, 0, 1, 33, 33, .ro, 0, 0, 0x01, none⟩
def AON_LS_CAL_RATIO : Fld := ⟨0, 3, 3, 0x68, 0, 1, 31, 0, .ro, 0, 0, 0x01, none⟩
def AON_LS_CFG_STAB_PPM : Fld := ⟨0, 3, 3, 0x70, 0, 1, 15, 0, .rw, 20, 0, 0x01, some (1, 5000)⟩
def AON_TS_BASE_BASE : Fld := ⟨0, 3, 3, 0x78, 0, 1, 63, 0, .rw, 0, 0, 0x01, none⟩

/-! Table 17.3, R536, 17_register_map.md. -/
def BLK_ID_BLOCK (b : Nat) : Fld := ⟨b, 0, 255, 0x0, 0, 1, 7, 0, .ro, 0, 3, 0x00, none⟩
def BLK_ID_PAGE (b : Nat) : Fld := ⟨b, 0, 255, 0x0, 0, 1, 15, 8, .ro, 0, 3, 0x00, none⟩
def BLK_ID_PART (b : Nat) : Fld := ⟨b, 0, 255, 0x0, 0, 1, 31, 16, .ro, 0, 3, 0x00, none⟩
def BLK_VER_MINOR (b : Nat) : Fld := ⟨b, 0, 255, 0x8, 0, 1, 7, 0, .ro, 0, 3, 0x00, none⟩
def BLK_VER_MAJOR (b : Nat) : Fld := ⟨b, 0, 255, 0x8, 0, 1, 15, 8, .ro, 0, 3, 0x00, none⟩
def BLK_CAP_PAGES (b : Nat) : Fld := ⟨b, 0, 255, 0x10, 0, 1, 7, 0, .ro, 0, 3, 0x00, none⟩
def BLK_CAP_PRESENT (b : Nat) : Fld := ⟨b, 0, 255, 0x10, 0, 1, 8, 8, .ro, 0, 2, 0x01, none⟩
def BLK_CTL_LOCK (b : Nat) : Fld := ⟨b, 0, 255, 0x18, 0, 1, 0, 0, .rw, 0, 0, 0x03, none⟩
def BLK_STS_IN_RESET (b : Nat) : Fld := ⟨b, 0, 255, 0x20, 0, 1, 0, 0, .ro, 0, 0, 0x03, none⟩
def BLK_STS_OFFLINE (b : Nat) : Fld := ⟨b, 0, 255, 0x20, 0, 1, 1, 1, .ro, 0, 0, 0x03, none⟩
def BLK_STS_EVT_ANY (b : Nat) : Fld := ⟨b, 0, 255, 0x20, 0, 1, 2, 2, .ro, 0, 0, 0x13, none⟩
def EVT_RAW_CAUSE (b : Nat) : Fld := ⟨b, 0, 255, 0x28, 0, 1, 63, 0, .ro, 0, 0, 0x13, none⟩
def EVT_EN_EN (b : Nat) : Fld := ⟨b, 0, 255, 0x30, 0, 1, 63, 0, .rw, 0, 3, 0x03, none⟩
def EVT_CLR_CLR (b : Nat) : Fld := ⟨b, 0, 255, 0x38, 0, 1, 63, 0, .w1c, 0, 3, 0x00, none⟩

/-! Table 17.7, R554, 17_register_map.md. -/
def AON_GLB_ID_PART : Fld := ⟨0, 4, 4, 0x40, 0, 1, 15, 0, .ro, 0, 3, 0x00, none⟩
def AON_GLB_ID_GRADE : Fld := ⟨0, 4, 4, 0x40, 0, 1, 19, 16, .ro, 0, 2, 0x01, none⟩
def AON_GLB_ID_PACKAGE : Fld := ⟨0, 4, 4, 0x40, 0, 1, 23, 20, .ro, 0, 3, 0x00, none⟩
def AON_GLB_ID_STEPPING : Fld := ⟨0, 4, 4, 0x40, 0, 1, 31, 24, .ro, 0, 3, 0x00, none⟩
def AON_GLB_SN_SN : Fld := ⟨0, 4, 4, 0x48, 0, 1, 31, 0, .ro, 0, 2, 0x01, none⟩
def AON_GLB_STATE_EDGE : Fld := ⟨0, 4, 4, 0x50, 0, 1, 3, 0, .ro, 0, 0, 0x01, none⟩
def AON_GLB_STATE_MEM_ACTIVE : Fld := ⟨0, 4, 4, 0x50, 0, 1, 4, 4, .ro, 0, 0, 0x03, none⟩
def AON_GLB_STATE_NO_SERVICE : Fld := ⟨0, 4, 4, 0x50, 0, 1, 5, 5, .ro, 0, 0, 0x03, none⟩
def AON_GLB_STATE_NEAR_ONLY : Fld := ⟨0, 4, 4, 0x50, 0, 1, 6, 6, .ro, 0, 0, 0x03, none⟩
def AON_GLB_STATE_HALTED : Fld := ⟨0, 4, 4, 0x50, 0, 1, 7, 7, .ro, 0, 0, 0x01, none⟩
def AON_GLB_STATE_KEY_MODE : Fld := ⟨0, 4, 4, 0x50, 0, 1, 8, 8, .ro, 0, 0, 0x21, none⟩
def AON_GLB_STATE_PSTATE : Fld := ⟨0, 4, 4, 0x50, 0, 1, 18, 16, .ro, 0, 0, 0x23, none⟩
def AON_GLB_EVTSUM_BLOCK : Fld := ⟨0, 4, 4, 0x58, 0, 1, 14, 0, .ro, 0, 0, 0x03, none⟩
def AON_GLB_ACCERR_WIDTH : Fld := ⟨0, 4, 4, 0x60, 0, 1, 15, 0, .rc, 0, 0, 0x03, none⟩
def AON_GLB_ACCERR_DENIED : Fld := ⟨0, 4, 4, 0x60, 0, 1, 31, 16, .rc, 0, 0, 0x03, none⟩
def AON_GLB_ACCERR_LAST_PATH : Fld := ⟨0, 4, 4, 0x60, 0, 1, 36, 32, .ro, 0, 0, 0x03, none⟩
def AON_GLB_ACCERR_LAST_LD : Fld := ⟨0, 4, 4, 0x60, 0, 1, 41, 40, .ro, 0, 0, 0x03, none⟩
def AON_GLB_SCRATCH_DATA : Fld := ⟨0, 4, 4, 0x68, 0, 1, 63, 0, .rw, 0, 0, 0x01, none⟩

end F

/-- The fields of AON, in page order. -/
def tabAON0 : List Fld :=
  [F.AON_PWR_MODE_TARGET, F.AON_PWR_MODE_ARM, F.AON_PWR_MODE_CUR, F.AON_PWR_MODE_PHASE,
   F.AON_PWR_CFG_RETRY_IDLE, F.AON_PWR_CFG_RETRY_MAX, F.AON_PWR_CFG_CRICKET_EN, F.AON_PWR_CFG_WAKEN_EN,
   F.AON_PWR_CFG_ALARM_EN, F.AON_PWR_STS_LAST_WAKE, F.AON_PWR_STS_LAST_TARGET, F.AON_PWR_STS_OUTCOME,
   F.AON_PWR_STS_ATTEMPTS, F.AON_PWR_CNT_P1, F.AON_PWR_CNT_P2, F.AON_PWR_CNT_P3,
   F.AON_PWR_CNT_ABORTS, F.AON_ALARM_PHASE, F.AON_ALARM_EPOCH, F.AON_ALARM_CYCLE,
   F.AON_ALARM_EN, F.AON_CRICKET_ADDR, F.AON_CRICKET_MATCHES, F.AON_CANARY_SEQ,
   F.AON_CANARY_SIGNED, F.AON_CANARY_FAILED, F.AON_RESUME_VALID, F.AON_RESUME_RESULT,
   F.AON_RST_CAUSE_CAUSE, F.AON_RST_CAUSE_SUPPLY, F.AON_RST_CAUSE_WARM_LOST, F.AON_RST_CTL_WARM_REQ,
   F.AON_RST_CTL_COLD_CMD, F.AON_BLK_RST_BLOCK, F.AON_BLK_RST_REQ, F.AON_BLK_RST_LAST,
   F.AON_FUSE_STS_COPY, F.AON_FUSE_STS_DEFAULT, F.AON_D2D_LOST, F.AON_PIN_STATE,
   F.AON_CLK_STS_LOCK, F.AON_CLK_STS_LOST, F.AON_CLK_STS_XTAL_OK, F.AON_CLK_STS_LS_RC,
   F.AON_SUP_STS_WARN, F.AON_SUP_STS_MASK, F.AON_SUP_CNT_WARNS, F.AON_THERM_TJ,
   F.AON_TIME_CFG_PERIOD, F.AON_TIME_CFG_WIN, F.AON_TIME_CFG_HOLD_LIMIT, F.AON_EPOCH_EPOCH,
   F.AON_EPOCH_PHASE, F.AON_EPOCH_QUALITY, F.AON_EPOCH_LOAD_VALUE, F.AON_EPOCH_LOAD_ARM,
   F.AON_TIME_STS_OFFWIN, F.AON_TIME_STS_AMBIG, F.AON_TIME_EST_ERR, F.AON_TIME_EST_SWITCHED]

/-- The fields of AON, in page order. -/
def tabAON1 : List Fld :=
  [F.AON_TIME_EST_INVALID, F.AON_LS_CAL_RATIO, F.AON_LS_CFG_STAB_PPM, F.AON_TS_BASE_BASE,
   F.AON_GLB_ID_PART, F.AON_GLB_ID_GRADE, F.AON_GLB_ID_PACKAGE, F.AON_GLB_ID_STEPPING,
   F.AON_GLB_SN_SN, F.AON_GLB_STATE_EDGE, F.AON_GLB_STATE_MEM_ACTIVE, F.AON_GLB_STATE_NO_SERVICE,
   F.AON_GLB_STATE_NEAR_ONLY, F.AON_GLB_STATE_HALTED, F.AON_GLB_STATE_KEY_MODE, F.AON_GLB_STATE_PSTATE,
   F.AON_GLB_EVTSUM_BLOCK, F.AON_GLB_ACCERR_WIDTH, F.AON_GLB_ACCERR_DENIED, F.AON_GLB_ACCERR_LAST_PATH,
   F.AON_GLB_ACCERR_LAST_LD, F.AON_GLB_SCRATCH_DATA]

/-- The fields of CTL, in page order. -/
def tabCTL : List Fld :=
  [F.CTL_BOOT_BOOT_CORE, F.CTL_BOOT_COPY, F.CTL_BOOT_FALLBACK, F.CTL_BOOT_TRIAL,
   F.CTL_BOOT_REJ_A, F.CTL_BOOT_REJ_B, F.CTL_BOOT_ROM_VER, F.CTL_FW_VER_VERSION,
   F.CTL_FW_VER_SVN, F.CTL_FUSE_SVN_MIN_SVN, F.CTL_FUSE_SVN_REVOKED, F.CTL_WDT_TIMEOUT,
   F.CTL_WDT_KICK, F.CTL_WDT_STAGE, F.CTL_HEALTH_STATE, F.CTL_HEALTH_MEM_ACTIVE,
   F.CTL_CORES_ACTIVE, F.CTL_CORES_SPARE, F.CTL_CORES_FAILED, F.CTL_ESC_CNT_ALLOC,
   F.CTL_ESC_CNT_RAS, F.CTL_ESC_CNT_POWER, F.CTL_ESC_LAT_MAX, F.CTL_CORE_CTL_STATE,
   F.CTL_CORE_CTL_CMD, F.CTL_CORE_ROLE_ROLES, F.CTL_CORE_FAULT_COUNT, F.CTL_CORE_FAULT_TOTAL,
   F.CTL_CORE_HB_BEAT]

/-- The fields of HLX, in page order. -/
def tabHLX : List Fld :=
  [F.HLX_BIFUR_MERGE, F.HLX_BIFUR_MERGE_ACT, F.HLX_MBOX_CAP_PAYLOAD_LOG2, F.HLX_VIRAL_OUT,
   F.HLX_VIRAL_IN, F.HLX_PORT_STS_LINK_UP, F.HLX_PORT_STS_WIDTH, F.HLX_PORT_STS_RATE,
   F.HLX_PORT_STS_FLIT, F.HLX_PORT_STS_HEAD, F.HLX_PORT_STS_IDE, F.HLX_PORT_STS_VIRAL_IN,
   F.HLX_PORT_CTL_MAX_WIDTH, F.HLX_PORT_CTL_MAX_RATE, F.HLX_PORT_CTL_LOPT_EN, F.HLX_PORT_CTL_L0P_EN,
   F.HLX_PORT_CTL_REFMODE, F.HLX_PORT_LINKCNT_DOWNS, F.HLX_PORT_LINKCNT_RETRAINS, F.HLX_PORT_LINKCNT_REPLAYS,
   F.HLX_PORT_ERRCNT_FEC_CORR, F.HLX_PORT_ERRCNT_IDE_FAIL, F.HLX_PORT_ERRCNT_VIRAL_DROP, F.HLX_HEAD_PERM_FM,
   F.HLX_HEAD_PERM_KEYLOAD, F.HLX_HEAD_PERM_DIAG, F.HLX_HEAD_PERM_PERF_USER, F.HLX_HEAD_LD_LD_COUNT,
   F.HLX_HEAD_LD_LD_ACTIVE, F.HLX_LD_RGN_SLOTS, F.HLX_LD_QUEUES_QFIRST, F.HLX_LD_QUEUES_QCOUNT,
   F.HLX_HEAD_VEC_MBOX_VEC, F.HLX_HEAD_VEC_FATAL_VEC, F.HLX_HEAD_VEC_CONTAIN_VEC, F.HLX_HEAD_VEC_DEGRADE_VEC,
   F.HLX_HEAD_VEC_NOTICE_VEC, F.HLX_HEAD_STS_DB_REJECT, F.HLX_HEAD_STS_MEMCLR]

/-- The fields of CLX, in page order. -/
def tabCLX : List Fld :=
  [F.CLX_CFG_LOCK_LOSS, F.CLX_CFG_REPLAY_TO, F.CLX_CFG_REPLAY_LIMIT, F.CLX_CFG_E2E_TIMEOUT,
   F.CLX_CFG_FAR_LIMIT, F.CLX_ID_ID, F.CLX_ID_VALID, F.CLX_ID_HEAD,
   F.CLX_ID_SN, F.CLX_RING_N, F.CLX_RING_WHOLE, F.CLX_RING_ROUND,
   F.CLX_ORDER_ORDER, F.CLX_LINKS_UP, F.CLX_ROUTE_PORT, F.CLX_HOPS_HOPS,
   F.CLX_FAR_STS_OUT, F.CLX_FAR_STS_UNCONF, F.CLX_PORT_STS_STATE, F.CLX_PORT_STS_WIDTH,
   F.CLX_PORT_STS_FAILED, F.CLX_PORT_STS_SPARE_IN, F.CLX_PORT_STS_PEER_SN, F.CLX_PORT_CTL_ENABLE,
   F.CLX_PORT_CTL_RETRAIN, F.CLX_PORT_CTL_MARK, F.CLX_PORT_CTL_LANE_ERR, F.CLX_PORT_SEQ_TX_NEXT,
   F.CLX_PORT_SEQ_TX_ACKED, F.CLX_PORT_SEQ_RX_EXP, F.CLX_PORT_SEQ_UNACKED, F.CLX_PORT_CRED_AVAIL,
   F.CLX_PORT_ERR_CRC_FAIL, F.CLX_PORT_ERR_NAK_TX, F.CLX_PORT_ERR_PROTO, F.CLX_PORT_RPL_REPLAYS,
   F.CLX_PORT_RPL_TIMEOUTS, F.CLX_PORT_RPL_RETRAINS, F.CLX_PORT_FEC_CORR, F.CLX_PORT_DROP_TTL,
   F.CLX_PORT_DROP_DEAD, F.CLX_PEER_TX_NEXT, F.CLX_PEER_TX_UNCONF, F.CLX_PEER_TX_SYNCED,
   F.CLX_PEER_RX_LAST, F.CLX_PEER_RX_SYNCED, F.CLX_PEER_CNT_DUP, F.CLX_PEER_CNT_GAP,
   F.CLX_PEER_CNT_DROPPED]

/-- The fields of ADM, in page order. -/
def tabADM0 : List Fld :=
  [F.ADM_CFG_MON_EPOCHS, F.ADM_FLOOR_PCT, F.ADM_FLOOR_MAINT_PCT, F.ADM_FLOOR_STS_RAW,
   F.ADM_FLOOR_STS_FLOOR, F.ADM_GUAR_STS_SUM, F.ADM_GUAR_STS_OVER, F.ADM_GUAR_PEND_CLASS,
   F.ADM_BROWN_SAFE_PCT, F.ADM_BROWN_ACTIVE, F.ADM_SHP_SEL_BUCKET, F.ADM_SHP_RATE_RATE,
   F.ADM_SHP_RATE_PENDING, F.ADM_SHP_BURST_BURST, F.ADM_SHP_BAL_BAL, F.ADM_SLOT_CYC_CYCLES,
   F.ADM_GCL_CFG_CYCLE, F.ADM_GCL_CFG_ACTIVE, F.ADM_GCL_CFG_SWAP, F.ADM_GCL_CFG_SWAP_PEND,
   F.ADM_REF_NEAR_CH, F.ADM_REF_BULK_SUB, F.ADM_CLS_CFG_WEIGHT, F.ADM_CLS_CFG_OVERHEAD,
   F.ADM_CLS_CFG_FORCE_OPEN, F.ADM_CLS_CFG_SHP_SUSPEND, F.ADM_CLS_GUAR_GUAR, F.ADM_CLS_GUAR_EFF,
   F.ADM_CLS_GATE_GB_RATE, F.ADM_CLS_GATE_GUARD, F.ADM_CLS_GATE_MINWIN, F.ADM_CLS_DELIV_BYTES,
   F.ADM_SLOT_RET_SLOTS, F.ADM_SLOT_WASTE_SLOTS, F.ADM_SLOT_FRONT_SLOTS, F.ADM_SLOT_BACK_SLOTS,
   F.ADM_CLS_LEN_WINDOWS, F.ADM_ING_MAXOUT_MAX0, F.ADM_ING_MAXOUT_MAX1, F.ADM_ING_MAXOUT_MAX2,
   F.ADM_ING_MAXOUT_MAX3, F.ADM_ING_EFF_EFF0, F.ADM_ING_EFF_EFF1, F.ADM_ING_EFF_EFF2,
   F.ADM_ING_EFF_EFF3, F.ADM_ING_BKT_BUCKET0, F.ADM_ING_BKT_BUCKET1, F.ADM_ING_BKT_BUCKET2,
   F.ADM_ING_BKT_BUCKET3, F.ADM_ING_OUT_COUNT0, F.ADM_ING_OUT_COUNT1, F.ADM_ING_OUT_COUNT2,
   F.ADM_ING_OUT_COUNT3, F.ADM_ING_CFG_DEF_CLASS, F.ADM_ING_STS_REMAP, F.ADM_HDEP_BIN0,
   F.ADM_HDEP_BIN1, F.ADM_HDLY_BIN0, F.ADM_HDLY_BIN1, F.ADM_GCL_ENT_PHASE]

/-- The fields of ADM, in page order. -/
def tabADM1 : List Fld :=
  [F.ADM_GCL_ENT_EPOCH, F.ADM_GCL_ENT_OPEN, F.ADM_GCL_ENT_REF, F.ADM_GCL_ENT_VALID]

/-- The fields of DIR, in page order. -/
def tabDIR : List Fld :=
  [F.DIR_CFG_BI_TIMEOUT, F.DIR_CFG_FAULT_THRESH, F.DIR_CFG_EVICT_WARN, F.DIR_STATUS_OFFLINE,
   F.DIR_STATUS_BROADCAST, F.DIR_STATUS_UNKNOWN, F.DIR_STATUS_SPARES, F.DIR_FENCE_HEADS,
   F.DIR_OCC_ENTRIES, F.DIR_CNT_LOOKUP_HIT, F.DIR_CNT_LOOKUP_MISS, F.DIR_CNT_BI_SENT,
   F.DIR_CNT_BI_CONFLICT, F.DIR_CNT_BI_BAD, F.DIR_CNT_EVICT_COUNT, F.DIR_CNT_BCAST_COUNT,
   F.DIR_UNKNOWN_SET, F.DIR_UNKNOWN_VALID, F.DIR_HEAD_LINES, F.DIR_HEAD_BI_OUT,
   F.DIR_HEAD_SWEEP, F.DIR_BANK_WAYS_ACTIVE, F.DIR_BANK_WAYS_FAILED, F.DIR_BANK_CMD_WAY,
   F.DIR_BANK_CMD_CMD, F.DIR_WAY_FAULT_COUNT, F.DIR_WAY_FAULT_TOTAL]

/-- The fields of TMU, in page order. -/
def tabTMU : List Fld :=
  [F.TMU_CAP_TOTAL_SECTORS, F.TMU_CAP_COMMIT_SECTORS, F.TMU_CAP_FREE_SECTORS, F.TMU_MAP_BASE_LOC,
   F.TMU_FAULT_ADDR_DPA, F.TMU_FAULT_ADDR_HEAD, F.TMU_FAULT_ADDR_CAUSE, F.TMU_PRESS_PEND_SLOT,
   F.TMU_FENCE_PEND_SLOT, F.TMU_LOCK_STS_USED, F.TMU_LOCK_STS_DIRTY, F.TMU_MAP_SIZE_SECTORS,
   F.TMU_RGN_MAP_BASE, F.TMU_RGN_MAP_SIZE, F.TMU_RGN_MAP_TYPE, F.TMU_RGN_MAP_STATE,
   F.TMU_RGN_MAP_RETAIN, F.TMU_RGN_MAP_OWNER, F.TMU_RGN_POLICY_DEF_CLASS, F.TMU_RGN_POLICY_LEVEL,
   F.TMU_RGN_POLICY_TIER, F.TMU_RGN_POLICY_KEYGEN, F.TMU_RGN_POLICY_HOME, F.TMU_RGN_POLICY_HOME_SLOT,
   F.TMU_RGN_POLICY_EXPORT_EN, F.TMU_RGN_POLICY_EXPORT_UNIT, F.TMU_RGN_MAPLOC_LOC, F.TMU_RGN_BUDGET_BUDGET,
   F.TMU_RGN_DIRTYCAP_DIRTY_CAP, F.TMU_RGN_RESERVE_RESERVE, F.TMU_RGN_USED_USED, F.TMU_RGN_THRESH_T1,
   F.TMU_RGN_THRESH_T2, F.TMU_RGN_THRESH_T3, F.TMU_RGN_THRESH_LEVEL, F.TMU_RGN_DIRTY_FRAMES,
   F.TMU_RGN_INIT_WATERMARK, F.TMU_RGN_DROP_DROP_CNT, F.TMU_HEAD_TAG_CLASS_EN, F.TMU_HEAD_TAG_KEY_EN]

/-- The fields of CDC, in page order. -/
def tabCDC : List Fld :=
  [F.CDC_DISP_JOB_MAX, F.CDC_DISP_FAULT_THRESH, F.CDC_DISP_RETRY_EN, F.CDC_STATUS_ACTIVE,
   F.CDC_STATUS_SPARE, F.CDC_STATUS_FAILED, F.CDC_STATUS_OFFLINE, F.CDC_JOB_ERR_QUEUE,
   F.CDC_JOB_ERR_CAUSE, F.CDC_JOB_ERR_OFFSET, F.CDC_RAW_CNT_TILES, F.CDC_IN_CNT_TILES,
   F.CDC_OUT_SECT_SECTORS, F.CDC_RETRY_CNT_COUNT, F.CDC_RETRY_CNT_FAILED, F.CDC_PIPE_CTL_STATE,
   F.CDC_PIPE_CTL_CMD, F.CDC_PIPE_FAULT_COUNT, F.CDC_PIPE_FAULT_TOTAL, F.CDC_PIPE_WORK_UNITS,
   F.CDC_PIPE_BUSY_BUSY]

/-- The fields of CRY, in page order. -/
def tabCRY : List Fld :=
  [F.CRY_MODE_MODE, F.CRY_MODE_ROOT_VALID, F.CRY_MODE_KEK_VALID, F.CRY_MODE_TRNG_OK,
   F.CRY_MODE_HALTED, F.CRY_STATUS_ACTIVE, F.CRY_STATUS_SPARE, F.CRY_STATUS_FAILED,
   F.CRY_CFG_FAULT_THRESH, F.CRY_CFG_REKEY_FLOOR, F.CRY_XTAB_USED, F.CRY_XTAB_WAITS,
   F.CRY_HALT_REC_TILE, F.CRY_HALT_REC_SLOT, F.CRY_HALT_REC_GEN, F.CRY_HALT_REC_SRC,
   F.CRY_HALT_REC_PIPE, F.CRY_HALT_TAG_STORED, F.CRY_HALT_CALC_CALC, F.CRY_RGN_GEN_CUR,
   F.CRY_RGN_GEN_PREV, F.CRY_RGN_REKEY_STATE, F.CRY_RGN_REKEY_QUEUED, F.CRY_RGN_REKEY_CAUSE,
   F.CRY_RGN_REKEY_REMAIN, F.CRY_RGN_KEY_BASE_GEN, F.CRY_RGN_KEY_KEY_BIND, F.CRY_RGN_CNT_MISMATCH,
   F.CRY_RGN_CNT_HOLDS, F.CRY_KSLOT_STATE, F.CRY_KSLOT_BINDS, F.CRY_PIPE_CTL_STATE,
   F.CRY_PIPE_CTL_CMD, F.CRY_PIPE_FAULT_COUNT, F.CRY_PIPE_FAULT_TOTAL, F.CRY_PIPE_WORK_UNITS,
   F.CRY_PIPE_BUSY_BUSY]

/-- The fields of SCR, in page order. -/
def tabSCR : List Fld :=
  [F.SCR_MOV_CFG_JOB_ENG, F.SCR_MOV_CFG_PREFETCH_DEPTH, F.SCR_MOV_CFG_COLD_THRESH, F.SCR_MOV_CFG_AGE_EPOCHS,
   F.SCR_MOV_CFG_SAMPLE_SHIFT, F.SCR_MOV_CFG_FAULT_THRESH, F.SCR_FRAME_WM_FREE_LOW, F.SCR_FRAME_WM_FREE_MIN,
   F.SCR_FRAME_WM_PIN_MAX, F.SCR_FRAMES_TOTAL, F.SCR_FRAMES_FREE, F.SCR_FRAMES2_DIRTY,
   F.SCR_FRAMES2_PINNED, F.SCR_MOV_STS_NEAR_ONLY, F.SCR_MOV_STS_FLUSH, F.SCR_MOV_STS_BULK_ONLY,
   F.SCR_MOV_STS_ENG_ACTIVE, F.SCR_MOV_STS_ENG_FAILED, F.SCR_CNT_PROMO_TILES, F.SCR_CNT_DEMO_TILES,
   F.SCR_CNT_ABORT_TILES, F.SCR_CNT_PF_ISSUED, F.SCR_CNT_PF_DROPPED, F.SCR_CNT_EVICT_FRAMES,
   F.SCR_CNT_STARVE_READS, F.SCR_CNT_STARVE_WRITES, F.SCR_ENG_CTL_STATE, F.SCR_ENG_CTL_CMD,
   F.SCR_ENG_FAULT_COUNT, F.SCR_ENG_FAULT_TOTAL, F.SCR_ENG_WORK_UNITS, F.SCR_ENG_BUSY_INFLIGHT,
   F.SCR_JOB_CFG_PARTS, F.SCR_JOB_CFG_CACHE_WARN, F.SCR_JOB_STS_ACTIVE, F.SCR_JOB_STS_INFLIGHT,
   F.SCR_JOB_STS_PAUSED, F.SCR_JOB_CACHE_HIT, F.SCR_JOB_CACHE_MISS, F.SCR_JOB_DONE_JOBS,
   F.SCR_JOB_FAIL_JOBS, F.SCR_JOB_LOST_CQE, F.SCR_JOB_LASTERR_QUEUE, F.SCR_JOB_LASTERR_CAUSE]

/-- The fields of NTC, in page order. -/
def tabNTC : List Fld :=
  [F.NTC_CONFIG_POS_ACTIVE, F.NTC_CONFIG_RATE, F.NTC_CONFIG_CLAMSHELL, F.NTC_CONFIG_NCH,
   F.NTC_CONFIG_POS_EXCL, F.NTC_CTL_EDC_RETRY, F.NTC_CTL_RETRAIN_EP, F.NTC_CTL_AGE_CAP,
   F.NTC_FB_FB1, F.NTC_FB_FB2, F.NTC_FB_FB3, F.NTC_THERM_CRIT,
   F.NTC_THERM_TPOLL, F.NTC_SR_STATE, F.NTC_SR_ENTRIES, F.NTC_SR_ABORTS,
   F.NTC_PORT_LAT_TARGET, F.NTC_CH_CTL_HOLD, F.NTC_CH_CTL_EXCLUDED, F.NTC_CH_CTL_FAILED,
   F.NTC_CH_CTL_HOT, F.NTC_CH_STS_TEMP, F.NTC_CH_STS_RQ, F.NTC_CH_STS_WQ,
   F.NTC_CH_STS_FB, F.NTC_CH_STS_DRAIN, F.NTC_CH_REF_POSTPONED, F.NTC_CH_REF_AT_LIMIT,
   F.NTC_CH_EDC_RETRIES, F.NTC_CH_EDC_EXHAUSTED, F.NTC_CH_EDC_RETRAINS, F.NTC_CH_ECC_CORR,
   F.NTC_CH_ECC_UNCORR]

/-- The fields of BTC, in page order. -/
def tabBTC : List Fld :=
  [F.BTC_CONFIG_CH_ACTIVE, F.BTC_CONFIG_RATE, F.BTC_CONFIG_NCH, F.BTC_CONFIG_SETS,
   F.BTC_CONFIG_REF_MODE, F.BTC_CTL_AGE_CAP, F.BTC_CTL_CRIT, F.BTC_CTL_TPOLL,
   F.BTC_CTL_RETRAIN_EP, F.BTC_FB_FB1, F.BTC_FB_FB2, F.BTC_FB_FB3,
   F.BTC_RETAIN_SETS, F.BTC_RET_PEND_SLOT, F.BTC_SR_STATE, F.BTC_SR_ENTRIES,
   F.BTC_SR_ABORTS, F.BTC_SB_SLOW, F.BTC_SB_ERR, F.BTC_SC_CTL_HOLD,
   F.BTC_SC_CTL_EXCLUDED, F.BTC_SC_CTL_FAILED, F.BTC_SC_CTL_HOT, F.BTC_SC_STS_RQ,
   F.BTC_SC_STS_WQ, F.BTC_SC_STS_FB, F.BTC_SC_STS_DRAIN, F.BTC_SC_REF_POSTPONED,
   F.BTC_SC_REF_AT_LIMIT, F.BTC_SC_ECC_CORR, F.BTC_SC_ECC_UNCORR, F.BTC_SC_TRAIN_RETRAINS,
   F.BTC_SC_TRAIN_FAILS, F.BTC_DIMM_ID_PRESENT, F.BTC_DIMM_ID_EXCLUDED, F.BTC_DIMM_ID_RANKS,
   F.BTC_DIMM_ID_DENSITY, F.BTC_DIMM_ID_SERIAL, F.BTC_DIMM_TEMP_TS0, F.BTC_DIMM_TEMP_TS1,
   F.BTC_DIMM_TEMP_READ_FAIL, F.BTC_DIMM_PMIC_STATUS, F.BTC_DIMM_PMIC_WARN, F.BTC_DIMM_PMIC_FAULT,
   F.BTC_DIMM_PMIC_OFF]

/-- The fields of RAS, in page order. -/
def tabRAS : List Fld :=
  [F.RAS_CFG_RPT_THRESH, F.RAS_CFG_RANK_UE_THRESH, F.RAS_CFG_RANK_ON_FULL, F.RAS_CFG_RESERVE_LOW,
   F.RAS_RPT_WINDOW_EPOCHS, F.RAS_SCRUB_BULK_RATE, F.RAS_SCRUB_NEAR_RATE, F.RAS_SCRUB_TCS_EN,
   F.RAS_SCRUB_STS_PASSES, F.RAS_SCRUB_STS_NEAR_PASSES, F.RAS_RESERVE_TOTAL, F.RAS_RESERVE2_REMAIN,
   F.RAS_SPARE_SET_SET, F.RAS_SPARE_SET_VALID, F.RAS_RANK_STS_FAILING, F.RAS_RANK_STS_REMOVED,
   F.RAS_RANK_STS_STALLED, F.RAS_LOG_PROD, F.RAS_LOG_CONS, F.RAS_LOG_LOST,
   F.RAS_POISON_CNT_TILES, F.RAS_POISON_CNT_LINES, F.RAS_LEAK_SECTORS, F.RAS_WITHHELD_FRAMES,
   F.RAS_CH_STS_REMAPS, F.RAS_CH_STS_TRACKED, F.RAS_CH_STS_FULL, F.RAS_CH_STS_HARD,
   F.RAS_RPT_FIRST, F.RAS_RPT_COUNT, F.RAS_RPT_PENDING, F.RAS_RPT_VALID,
   F.RAS_RPT_KEY_ROWKEY, F.RAS_REMAP_ROW, F.RAS_REMAP_BANK, F.RAS_REMAP_SET,
   F.RAS_REMAP_SUB_B, F.RAS_REMAP_SPARE, F.RAS_REMAP_WITHHELD, F.RAS_REMAP_VALID,
   F.RAS_RET_SUBCH, F.RAS_RET_SET, F.RAS_RET_BANK, F.RAS_RET_VALID]

/-- The fields of EVT, in page order. -/
def tabEVT : List Fld :=
  [F.EVT_QUEUE_HEAD, F.EVT_QUEUE_TAIL, F.EVT_QUEUE_OVF, F.EVT_TICKS_TICKS,
   F.EVT_FM_TEST_RAISE, F.EVT_PEND_SRC, F.EVT_ALERT_EN_SRC, F.EVT_ALERT_PEND_SRC,
   F.EVT_SRC_CLASS, F.EVT_SRC_COUNT, F.EVT_SRC_LAST, F.EVT_LD_EN_SRC,
   F.EVT_LD_PEND_SRC, F.EVT_LD_LOG_HELD0, F.EVT_LD_LOG_HELD1, F.EVT_LD_LOG_HELD2,
   F.EVT_LD_LOG_HELD3, F.EVT_LD_LOG_OVF, F.EVT_LD_TEST_RAISE]

/-- The fields of PMU, in page order. -/
def tabPMU : List Fld :=
  [F.PMU_TICK_CYCLES, F.PMU_CNT_COUNT, F.PMU_SEL_CODE, F.PMU_SEL_INST_BASE,
   F.PMU_SEL_CLASS_MASK, F.PMU_SEL_INST, F.PMU_OVF_OVF, F.PMU_OVF_OVF_EN,
   F.PMU_SNAP_PERIOD, F.PMU_SNAP_NOW, F.PMU_SNAP_EVT_EN, F.PMU_SNAP_EVT_SRC,
   F.PMU_SNAP_STS_SEQ, F.PMU_SNAP_STS_MISSED]

/-- The field table of block b (Table 17.2). -/
def blockTable : Nat → List Fld
  | 0 => tabAON0 ++ tabAON1
  | 1 => tabCTL
  | 2 => tabHLX
  | 3 => tabCLX
  | 4 => tabADM0 ++ tabADM1
  | 5 => tabDIR
  | 6 => tabTMU
  | 7 => tabCDC
  | 8 => tabCRY
  | 9 => tabSCR
  | 10 => tabNTC
  | 11 => tabBTC
  | 12 => tabRAS
  | 13 => tabEVT
  | 14 => tabPMU
  | _ => []

end Sys2Proof.Machine
end

