-- ==== Sys2Proof/Machine/State.lean ====
section
/-!
DEFINITION. Machine/State.lean: the state of the unit as plain data, the reasons a step can stop, and the state after
reset. Every register field of the spec's tables lives in the one sparse map regs (Machine/Fields.lean gives its
key and its reset value); everything the spec gives the machine beside its registers has a structure per block.
-/
namespace Sys2Proof.Machine

/-- Faults: the model has none of its own. unreachable stands for the empty set of reasons and no meaning answers it;
a step never ends in a fault (safe: nothing is hidden by it). -/
inductive Fault where
  | unreachable
  deriving DecidableEq, Repr

/-- Refusals. notModelled names a command that has no meaning yet; it stands only in the dispatcher's arms (safe: the
run stops there). -/
inductive Refusal where
  | notModelled (mnemonic : String)
  deriving DecidableEq, Repr

/-! ## What leaves the unit -/

/-- The state a completion grants (Table 9.3). -/
inductive Grant where
  | cmp | cmpS | cmpE
  deriving DecidableEq, Repr

/-! ## Events (14_events_and_counters.md) -/

/-- A raise held until the next event tick (R459, R462): source, raising page, cause bits set, what it concerns. heads
names heads (or one LD of a head) that the raise concerns. -/
structure Raise where
  src : Nat
  blk : Nat
  page : Nat
  bits : Nat
  region : Option Nat
  queue : Option Nat
  heads : List (Nat × Option Nat)
  deriving DecidableEq, Repr

/-- The data of one event record (Table 14.4), with the device timestamp at its tick. -/
structure EvRec where
  src : Nat
  cls : Nat
  blk : Nat
  page : Nat
  causes : Nat
  epoch : Nat
  phase : Nat
  region : Nat
  queue : Nat
  count : Nat
  stamp : Nat
  deriving DecidableEq, Repr

/-- EVT: raises held, the cores' queue (1,024 entries by index; how many are taken), the event logs, their overflows
(records dropped, time of the first and of the last) and their interrupt policies by (4h + l) × 4 + log, the Firefly
window by slot, Firefly's free-running copies by field key, the NOW triggers due, and the raises that AON latched in P3
with their ticks. -/
structure Evt where
  raises : List Raise
  queue : List (Nat × EvRec)
  qUsed : Nat
  ovfDue : Bool
  records : List (Nat × List EvRec)
  overs : List (Nat × Nat × Nat × Nat)
  policy : List Nat
  window : List (Nat × List Nat)
  copies : List (Nat × Nat)
  nowDue : Nat
  latched : List (Raise × Nat × Nat)
  deriving DecidableEq, Repr

/-! ## Tiles (02_tiles_and_regions.md, 05_tiers_and_scarab.md) -/

/-- TME FMT (Table 2.4). -/
inductive Fmt where
  | raw | lz | pattern | zero
  deriving DecidableEq, Repr

/-- A tile map entry, field by field (R63, Table 2.4; FLAGS of Table 2.6). rsv holds the reserved bits that are set. -/
structure Tme where
  loc : Nat
  len : Nat
  fmt : Fmt
  gen : Bool
  nv : Bool
  near : Nat
  home : Nat
  ctr : Nat
  poison : Bool
  pinned : Bool
  retired : Bool
  transit : Bool
  saturated : Bool
  unmat : Bool
  tcs : BitVec 32
  tag : BitVec 64
  rsv : Nat
  deriving DecidableEq, Repr

/-- One entry of the tile map cache (R70, R72): recency is the order of the last use. -/
structure CacheEnt where
  tme : Tme
  dirty : Bool
  used : Nat
  deriving DecidableEq, Repr

/-- Where a request came from. job gives what it is for a job: 0 its descriptor, 1 its completion, 2 a source line, 3 a
destination line, with the part's offset. -/
inductive Origin where
  | host (h l tag : Nat)
  | far (port src tag seq : Nat)
  | job (id what off : Nat)
  | none
  deriving DecidableEq, Repr

/-- What a request asks of a line; inv changes its directory state without data. -/
inductive ReqKind where
  | read | write | partialWrite | inv
  deriving DecidableEq, Repr

/-- One line request, from its arrival at ADM to its answer. addr is DPA[45:0]; bad is the TMU_FAULT_ADDR cause fixed
at the port (1 for bad tag bits, 0 for none); cls is the class once admitted, before that the label
that it carries (16 for none). homeSlot names the region slot of a
far request at the home. at_ is when it arrived, in ns of the timebase; unit numbers the unit it was admitted in, 0
before that. hold is the region slot and the tier policy that TMU found when it first took the request (R60). -/
structure Req where
  id : Nat
  kind : ReqKind
  org : Origin
  ing : Nat
  raw : Nat
  addr : Nat
  bad : Nat
  mv : MetaValue
  cls : Nat
  key : Nat
  homeSlot : Option Nat
  data : Line
  be : BitVec 64
  poison : Bool
  snooped : Bool
  at_ : Nat
  unit : Nat
  hold : Option (Nat × Nat)
  err : DirErr
  deriving DecidableEq, Repr

/-- Why a request waits inside the device. -/
inductive Why where
  | miss | promo | lock | setFull | lockTable | dirtyCap | reserve | frame | ctrHold
  | busy | dirSet | bySweep | bySnoopCredit | retention | remap | selfRefresh
  deriving DecidableEq, Repr

/-- A waiting request with the tile it waits on. -/
structure Waiting where
  req : Req
  why : Why
  slot : Nat
  tile : Nat
  deriving DecidableEq, Repr

/-- What a move of a tile is. -/
inductive MoveKind where
  | promote | read | demote
  deriving DecidableEq, Repr

/-- Why a move runs (Table 5.9, R177). -/
inductive Purpose where
  | demand | prefetch | walk | pinJob | promoteJob | rekey | relocate | retire | evacuate
  | space | waiting | flush | job
  deriving DecidableEq, Repr

/-- How far a move has come (Tables 5.6 and 5.7). -/
inductive Stage where
  | bulkRead | tagRetry | codec | tcsRetry | ready | keyWait | crossWait | compress | allocWait | written
  deriving DecidableEq, Repr

/-- A move in flight: a tile-lock entry (R87), or a bulk read that takes no lock (kind read). avoid is the codec pipe that
failed on the tile and must not take it again (R119, R125). -/
structure Move where
  id : Nat
  kind : MoveKind
  purpose : Purpose
  stage : Stage
  slot : Nat
  tile : Nat
  frame : Nat
  engine : Option Nat
  cls : Nat
  tme : Tme
  req : Option Req
  data : List Byte
  marks : List Nat
  pipe : Nat
  crossing : Bool
  gen : Nat
  ctr : Nat
  claim : Nat
  loc : Nat
  len : Nat
  fmt : Fmt
  tcs : BitVec 32
  tag : BitVec 64
  record : List Byte
  level : Nat
  job : Option Nat
  avoid : Option Nat
  deriving DecidableEq, Repr

/-- TMU: the tile map as written (256-bit entries by slot × 2^32 + tile), its cache, the moves, the waiting requests,
and the sector allocator (R70 to R79): pools holds the on-chip stacks of up to 256 runs, lists the free-run lists of the
bulk tier. fetches are the reads of map sectors under way, by the key of the sector's first tile, with the id of their
transfer. fixed holds the fixed-slot intervals of PLAIN and SHARED regions in tile order;
orphans the regions whose map was lost with an edge die;
deleting the regions whose decode has stopped, with the request id that was next then; offers the pending offers of
DC_OFFER regions (R285). -/
structure Tmu where
  map : List (Nat × BitVec 256)
  cache : List (Nat × CacheEnt)
  clock : Nat
  moves : List Move
  nextId : Nat
  waits : List Waiting
  pools : List (Nat × List Nat)
  lists : List (Nat × List Nat)
  fetches : List (Nat × Nat)
  freeIv : List (Nat × Nat)
  retired : List (Nat × Nat)
  withheld : List (Nat × Nat)
  fixed : List (Nat × List (Nat × Nat))
  orphans : List Nat
  mapFree : List (Nat × Nat)
  deleting : List (Nat × Nat)
  offers : List (Nat × Nat)
  deriving DecidableEq, Repr

/-- FTE STATE (Table 5.3). -/
inductive FState where
  | free | filling | clean | dirty | moving
  deriving DecidableEq, Repr

/-- A frame-table entry (R170, Table 5.3). -/
structure Fte where
  tile : Nat
  slot : Nat
  state : FState
  pin : Bool
  first : Bool
  heat : Nat
  stamp : Nat
  deriving DecidableEq, Repr

/-- A near read in flight: the line as TMU accepted the read, and what its data will answer (R29, R207). A read for a
partial write carries merge; replaced tells that a later full-line write replaced the line. -/
structure NearRead where
  id : Nat
  frame : Nat
  line : Nat
  data : Line
  poison : Bool
  req : Req
  merge : Bool
  replaced : Bool
  deriving DecidableEq, Repr

/-- The near tier: frame bytes as plaintext (log entry 7), the poison markers by line number, the frame table. -/
structure Near where
  mem : List Host.Cell
  marks : List Nat
  ftes : List (Nat × Fte)
  withheld : List Nat
  reads : List NearRead
  deriving DecidableEq, Repr

/-- A rank set in use (R198, R201): its slot and rank, its first sector and its sectors, its rows per bank and rank. -/
structure RankSet where
  id : Nat
  slot : Nat
  rank : Nat
  first : Nat
  sectors : Nat
  rows : Nat
  usable : Bool
  deriving DecidableEq, Repr

/-- The bulk tier: sector bytes as stored, the poison markers by sector, the rank sets, the DIMMs that SPD answered. -/
structure Bulk where
  mem : List Host.Cell
  marks : List Nat
  sets : List RankSet
  dimms : List DimmInfo
  deriving DecidableEq, Repr

/-- CRY: the vault and the crossing table (R134, R147, R155). cross is keyed by slot × 2^32 + tile and holds NEXT.
halt is the step of Table 4.8 reached, 0 for none. ide holds the IDE keys of a port, ideOn the secure streams (port and number).
walks holds the walk position of a running rekey; keyWait the slots whose new bulk key is not ready; ctrHolds the tiles
whose writes R150 holds (by key). lines counts the near lines and map sectors that the AES pipes have taken, marks what it
stood at when a pipe's UNITS was last read (Table 4.13). -/
structure Cry where
  root : Option (BitVec 256)
  kek : Option (BitVec 256)
  slotKeys : List (Nat × BitVec 256)
  cross : List (Nat × Nat)
  keyWait : List Nat
  walks : List (Nat × Nat)
  rekeyJobs : List (Nat × Nat)
  ctrHolds : List Nat
  lines : Nat
  marks : List (Nat × Nat)
  halt : Nat
  ide : List (Nat × List (Nat × BitVec 256))
  ideOn : List (Nat × Nat)
  deriving DecidableEq, Repr

/-- Work of the codec dispatcher (R94): a tile of a move, or block n of a job's stream. -/
inductive Work where
  | tile (move : Nat)
  | block (job n : Nat)
  deriving DecidableEq, Repr

/-- CDC: the work that each pipe holds. -/
structure Cdc where
  held : List (Nat × Work)
  deriving DecidableEq, Repr

/-- SCR movement: the candidate list in list order, the refill cursor, the demand promotions of the present epoch
(slot, tile, epoch), the prefetches that wait for an engine or for admission (slot and tile), the NEAR_PIN walks, whether
FRAME_LOW has been raised for the present shortage. -/
structure Scr where
  cands : List Nat
  cursor : Nat
  lastPromo : List (Nat × Nat × Nat)
  prefetch : List (Nat × Nat)
  pinWalks : List (Nat × Nat)
  low : Bool
  deriving DecidableEq, Repr

/-! ## Errors (07_ras.md) -/

/-- An error log record before its CRC (Table 7.5). -/
structure LogRec where
  type : Nat
  sev : Nat
  block : Nat
  seq : Nat
  epoch : Nat
  phase : Nat
  dpa : Nat
  location : Nat
  region : Nat
  tile : Nat
  detail : Nat
  head : Nat
  deriving DecidableEq, Repr

/-- A row copy under way (R252): the bulk channel, the remap entry, the row and its spare. -/
structure RowCopy where
  ch : Nat
  entry : Nat
  subB : Bool
  set : Nat
  bank : Nat
  row : Nat
  spare : Nat
  deriving DecidableEq, Repr

/-- RAS: the log ring by index, the walkers (position, allowance, whether SCRUB_BEHIND was raised this pass), the
evacuation and retention sweeps, the uncorrectable-word counts by rank set (first epoch, count), the tiles reported in
the present epoch, the lines of the log that were lost, the reserve chunks released (sparesUsed), and the rows that a hard fault left
unmapped (RAS page, row key, cause; R254), the tile whose read counted last in a tracker entry (seen, by page × 32 + entry),
and the substitutions under way (spare kind, failing unit, substitute). -/
structure Ras where
  log : List (Nat × LogRec)
  lost : List Nat
  seq : Nat
  fullRaised : Bool
  copies : List RowCopy
  bulkPos : Nat × Nat
  bulkAllow : Nat
  bulkBehind : Bool
  nearPos : Nat
  nearAllow : Nat
  nearBehind : Bool
  evac : Option (Nat × Nat × Nat)
  evacDest : Option Nat
  ue : List (Nat × Nat × Nat)
  sweep : Option (Nat × Nat)
  reported : List (Nat × Nat)
  released : Nat
  retiredSeen : Nat
  sparesUsed : List (Nat × Nat)
  unmapped : List (Nat × Nat × Nat)
  seen : List (Nat × Nat)
  subs : List (Nat × Nat × Nat)
  deriving DecidableEq, Repr

/-! ## Admission (10_admission_and_qos.md) -/

/-- A token bucket (R342, R343): the values in force, the values written and not yet in force, the balance. -/
structure Bucket where
  rate : Nat
  burst : Nat
  newRate : Nat
  newBurst : Nat
  pending : Bool
  bal : Int
  deriving DecidableEq, Repr

/-- ADM: the waiting requests in arrival order, guarantee credits, round-robin and deficit state, the buckets that
differ from reset, the brown bucket, the gate state (open classes, whether a refresh window is open, the classes within
MINWIN of their opening with the ticks left and whether the list would have closed them, the CYCLE in force), the epoch of
the last tick, the monitor window and the pending recomputation. -/
structure Adm where
  queue : List Req
  gc : List (Nat × Int)
  deficit : List (Nat × Int)
  rrGuar : Nat
  rrDef : Nat
  rrIng : List (Nat × Nat)
  buckets : List (Nat × Bucket)
  brown : Int
  gateOpen : Nat
  gateRef : Bool
  lengthen : List (Nat × Nat × Bool)
  cycleNow : Nat
  lastEpoch : Nat
  monStart : Nat
  monEpochs : Nat
  monValid : Bool
  monD : List (Nat × Nat)
  monB : List (Nat × Nat)
  recompute : Bool
  taken : Nat
  units : List (Nat × Nat × Nat)
  nextUnit : Nat
  deriving DecidableEq, Repr

/-! ## Coherence (09_coherence.md) -/

/-- Directory states (Table 9.1). -/
inductive DState where
  | i | s | e
  deriving DecidableEq, Repr

/-- A sparse directory entry (R311): the line and its sharers as a 16-bit mask. -/
structure DirEnt where
  line : Nat
  state : DState
  sharers : Nat
  deriving DecidableEq, Repr

/-- The back-invalidate snoops (Table 9.2). -/
inductive Snoop where
  | cur | data | inv
  deriving DecidableEq, Repr

/-- What happens when the last answer on a busy line is taken: a request proceeds, a line of a job proceeds, an
eviction frees its entry, or a sweep goes on. -/
inductive Then where
  | serve (r : Req)
  | evictFor (r : Req)
  | sweep (n : Nat)
  | nothing
  deriving DecidableEq, Repr

/-- A busy line (R320): the heads that still owe an answer, the snoop sent, what follows. -/
structure Busy where
  line : Nat
  snoop : Snoop
  heads : List Nat
  then_ : Then
  deriving DecidableEq, Repr

/-- Why a directory sweep runs (Table 9.5). -/
inductive SweepWhy where
  | reset (h : Nat)
  | delete (slot : Nat)
  | owner (slot h : Nat)
  | p3
  deriving DecidableEq, Repr

/-- DIR: the sparse sets (entries by position 0 to 7), the lines cached with their recency and bank, the busy lines,
the sweeps under way by number, the evictions counted in the present epoch, the heads and lines that a
BIConflictAck is due for. -/
structure Dir where
  sets : List (Nat × List DirEnt)
  cache : List (Nat × Nat)
  busy : List Busy
  sweeps : List (Nat × SweepWhy)
  nextSweep : Nat
  evictEpoch : Nat
  evictCount : Nat
  conflicts : List (Nat × Nat)
  deriving DecidableEq, Repr

/-! ## The memory chain (12_chain_links.md) -/

/-- A chain message (Tables 12.6 and 12.7). stat is SLOT of a request, STATUS of a response; seq is the sequence
number, the sync token or BASE. -/
structure Msg where
  op : Nat
  dst : Nat
  src : Nat
  cls : Nat
  ttl : Nat
  key : Nat
  poison : Bool
  tag : Nat
  stat : Nat
  line : Nat
  seq : Nat
  data : Line
  be : BitVec 64
  deriving DecidableEq, Repr

/-- Cumulative counts of the four credit kinds (R415). -/
structure Credits where
  reqH : Nat
  reqD : Nat
  rspH : Nat
  rspD : Nat
  deriving DecidableEq, Repr

/-- One chain port beside its registers: lanes in use, the replay buffer (number and payload, oldest first), messages
waiting to go (passing through and originated), messages sent since the last originated one, the credit counts, the
receiver (buffered slots, NAKED, the number of the next replayed flit), the handshake of R412 (an INIT taken, one with
SEEN taken, one with SEEN sent), the replay timer and the replays from the oldest flit, the low-power substate, the FEC
corrections of each lane in the epoch corrEpoch (R403), the flits in succession that FEC could not correct. -/
structure ClPort where
  lanes : BitVec 9
  replay : List (Nat × List Byte)
  pass : List Msg
  orig : List Msg
  since : Nat
  init : Credits
  consumed : Credits
  returned : Credits
  freed : Credits
  freedSent : Credits
  ackSent : Nat
  rxBuf : List Byte
  naked : Bool
  replayNo : Option Nat
  seenTaken : Bool
  seenSent : Bool
  timer : Bool
  tries : Nat
  inited : Bool
  low : Bool
  corr : List (Nat × Nat)
  corrEpoch : Nat
  fecFails : Nat
  deriving DecidableEq, Repr

/-- The home's side of a pair beside CLX_PEER_RX (R426, R429): the maps for LAST + 1 to LAST + 256, and every
token answered with its BASE. -/
structure HomePair where
  accepted : Nat
  applied : Nat
  tokens : List (Nat × Nat)
  deriving DecidableEq, Repr

/-- A far request of this unit (R423): the request it serves, the home, its tag, whether it has been sent and on which
port, its sequence number when it is a write. -/
structure FarOut where
  id : Nat
  home : Nat
  slot : Nat
  line : Nat
  tag : Nat
  sent : Bool
  port : Nat
  seq : Nat
  req : Req
  deriving DecidableEq, Repr

/-- A far write that TMU has accepted or discarded and whose response is due (R427). -/
structure FarDone where
  src : Nat
  seq : Nat
  port : Nat
  tag : Nat
  status : Nat
  cls : Nat
  unit : Nat
  deriving DecidableEq, Repr

/-- CLX: two ports, the pairs as home, the SYNCs under way as requester (token and whether a sync is due), the far
requests, abandoned tags with the time they were abandoned, the homes whose new route waits and the old port (R421),
RING reports by ID, the members in ORDER, the head SN seen, discovery at the head (the CL1 side, whether a round runs,
its number), this unit's UCNT, the failing lanes of a port that firmware has recorded (R403). -/
structure Clx where
  ports : List ClPort
  home : List (Nat × HomePair)
  done : List FarDone
  syncs : List (Nat × Nat)
  syncCount : Nat
  reqs : List FarOut
  nextTag : Nat
  deadTags : List (Nat × Nat)
  held : List (Nat × Nat)
  reports : List (Nat × RingReport)
  members : List RingEntry
  headSn : Option (BitVec 32)
  side : Option (List RingEntry)
  running : Bool
  round : Nat
  ucnt : Nat
  lanesRec : List (Nat × Nat)
  deriving DecidableEq, Repr

/-! ## Jobs (11_job_queues.md) -/

/-- A queue context (Table 11.1). typ 0 SQ, 1 CQ; state 0 DISABLED, 1 ACTIVE, 2 ERROR. -/
structure Qctx where
  typ : Nat
  state : Nat
  stopOnErr : Bool
  intEn : Bool
  owner : Nat
  cls : Nat
  key : Nat
  bucket : Nat
  log2 : Nat
  qdepth : Nat
  base : Nat
  cq : Nat
  vector : Nat
  coalCnt : Nat
  coalTime : Nat
  head : Nat
  tail : Nat
  phase : Bool
  errCause : Nat
  errIndex : Nat
  reserved : Nat
  jobs : Nat
  deriving DecidableEq, Repr

/-- How far a job has come: its descriptor is being read, it waits to start, it runs, it has ended and its completion is to
be written, its completion is being written. -/
inductive JobPhase where
  | fetching | waiting | running | ended | posting
  deriving DecidableEq, Repr

/-- A part in flight (R384), or a tile of a tile job by its index (then len is 0): whether a move of that tile holds its ADM
entry, whether its writes or its demotion have begun, the lines still to be read and written, the lines read, the poisoned
ones among them, the first refusal (STATUS, DETAIL), whether its move succeeded, its place in the order of admission. -/
structure JobPart where
  off : Nat
  len : Nat
  move : Bool
  begun : Bool
  reads : Nat
  writes : Nat
  got : List (Nat × Line)
  bad : List Nat
  fault : Option (Nat × Nat)
  ok : Bool
  seq : Nat
  deriving DecidableEq, Repr

/-- A block of a job's stream that waits for a pipe, is held by one, or has been coded (R94, R110, R111): its number, the
source offset and bytes, its place in the order of admission, whether it must follow the block before it (INDEP 0), the pipe
that failed on it, and its outcome: the pipe, the CDC_JOB_ERR cause (0 for none) and the bytes made. -/
structure JobBlock where
  n : Nat
  off : Nat
  src : List Byte
  seq : Nat
  after : Bool
  avoid : Option Nat
  res : Option (Nat × Nat × List Byte)
  deriving DecidableEq, Repr

/-- A job in flight: its queue and ring index, the owner, class, key index and bucket in force at its fetch, its
descriptor, its phase, the engine slot that it holds, the parts in flight (oldest first), how far its source (or its tiles)
and its output have been admitted, the source bytes read in order, the codec's output, RESULT so far, the status decided,
the codec's blocks not yet taken in stream order (blocks), how far the source has been cut into blocks, the number of the
next block, the output of the blocks taken so far and the pipe of the last of them,
the status that applies once the other tiles are done, the ABORTED cause that ends it at its next part boundary (0 for
none), the jobs that a FENCE waits for, its place in the order in which jobs ended. -/
structure Job where
  id : Nat
  queue : Nat
  index : Nat
  owner : Nat
  cls : Nat
  key : Nat
  bucket : Nat
  desc : List Byte
  phase : JobPhase
  engine : Option Nat
  parts : List JobPart
  next : Nat
  outNext : Nat
  acc : List Byte
  out : Option (List Byte)
  result : Nat
  status : Option (Nat × Nat)
  late : Option (Nat × Nat)
  abort : Nat
  before : List Nat
  ended : Nat
  blocks : List JobBlock
  cut : Nat
  nextBlock : Nat
  made : List Byte
  lastPipe : Option Nat
  deriving DecidableEq, Repr

/-- The job manager: the contexts that differ from the reset image, the context lines that are lost, the context
cache (queue and recency), the jobs in flight in the order they were fetched, the coalescing state of a CQ
(completions since the last message, tick of the first), the misses counted in the present epoch, the doorbells held
during P3 entry, the QUEUE_DISABLE commands under way, and for a class the queue fetched from last. -/
structure JobMgr where
  ctxs : List (Nat × Qctx)
  lostCtx : List Nat
  cache : List (Nat × Nat)
  clock : Nat
  jobs : List Job
  nextJob : Nat
  coal : List (Nat × Nat × Nat)
  missEpoch : Nat
  misses : Nat
  held : List (Nat × Nat)
  disabling : List (Nat × MboxSrc)
  turn : List (Nat × Nat)
  deriving DecidableEq, Repr

/-! ## Control cluster and boot (13_control_cluster_and_boot.md) -/

/-- A background command under way (R298): where it came from, its opcode, the slot or set it works on. -/
structure BgOp where
  src : MboxSrc
  opcode : Nat
  arg : Nat
  deriving DecidableEq, Repr

/-- A Transfer FW under way or complete: its slot, the next offset, who sends it. -/
structure FwXfer where
  slot : Nat
  next : Nat
  h : Nat
  l : Nat
  whole : Bool
  deriving DecidableEq, Repr

/-- An SPDM session (R454): whether the requester authenticated and its root is listed. -/
structure Session where
  h : Nat
  l : Nat
  sid : Nat
  authd : Bool
  listed : Bool
  deriving DecidableEq, Repr

/-- CTL: heartbeats seen (core, last beat, checks without an advance), roles moving (failed core, its role mask, the
core that takes them), the boot override in the AON retention store, the boot-capable cores passed over, whether the
watchdog runs, the flash (unwritten bytes read 0xFF), whether FW_REVERTED is due, the
copy being checked, whether it is the preferred one, the header of the running copy, the image transferred in recovery, background commands,
sessions, how far the boot has come. -/
structure Ctl where
  beats : List (Nat × Nat × Nat)
  moves : List (Nat × Nat × Nat)
  override : Option Nat
  passed : List Nat
  wdtRuns : Bool
  flash : List Host.Cell
  revertDue : Bool
  checking : Option Nat
  firstTry : Bool
  header : List Byte
  image : List Host.Cell
  xfer : Option FwXfer
  background : List BgOp
  sessions : List Session
  alive : Bool
  romRan : Bool
  trained : Bool
  deriving DecidableEq, Repr

/-! ## Memory controllers (06_memory_controllers.md) -/

/-- A queued DRAM request (R213, R216): a read or write of a row, the time of its port ingress (ns of the timebase), its
port's target, whether it is a demand promotion's read, its class. -/
structure DramReq where
  id : Nat
  write : Bool
  bank : Nat
  row : Nat
  time : Nat
  target : Nat
  promo : Bool
  cls : Nat
  deriving DecidableEq, Repr

/-- NTC and BTC. A channel key is the near channel number, or 32 + subchannel index. queues holds the requests in
order of arrival; rows the open row of a bank, by channel key × 1024 + bank; inOrder, by the same key, the writes that rows in in-order
mode wait for;
postponed counts by channel key × 64 + rank; by the same key refDue lists the refreshes to issue now and repay those being
repaid. fails counts retrains failed in succession; stopped the channels that are retraining; due the training steps due
(the epoch since when, whether with recentring); lastTrain the epoch and the temperature at the last training. entry is
the self-refresh entry under way: 0 none, 1 P2, 2 P3, 3 warm reset. untrained lists the DIMMs off for P3 and not yet
trained again, dimmTrain the training commands of such a DIMM that have issued (R210); level is a channel's feedback level
by its occupancy alone, which the report of CRIT does not touch (R217); lastWrite the last write burst issued on a near channel,
which an exhausted EDC retry issues again (R207). -/
structure Mem where
  queues : List (Nat × List DramReq)
  rows : List (Nat × Nat)
  inOrder : List (Nat × List Nat)
  postponed : List (Nat × Nat)
  refDue : List Nat
  repay : List Nat
  fails : List (Nat × Nat)
  stopped : List Nat
  due : List (Nat × Nat × Bool)
  lastTrain : List (Nat × Nat × Option Nat)
  dimmHot : List Nat
  posHot : List Nat
  dimmCrit : List Nat
  posCrit : List Nat
  entry : Nat
  bulkIn : Bool
  nearIn : Bool
  untrained : List Nat
  dimmTrain : List (Nat × Nat)
  level : List (Nat × Nat)
  lastWrite : List (Nat × DramReq)
  serials : List (Nat × BitVec 32)
  canaries : List (Nat × BitVec 32)
  resume : List Byte
  resumeHeader : List Byte
  deriving DecidableEq, Repr

/-! ## Host links (08_host_links.md) -/

/-- An entry of an LD's MSI-X table (R534): the message's address and data, and its mask bit. -/
structure MsixEnt where
  addr : Nat
  data : Nat
  masked : Bool
  deriving DecidableEq, Repr

/-- HLX: the function resets that wait for deletions (head and LD index, the slots), the LD whose shadow of a
register's upper half is held (R546) by path code, the epoch in which an LD last raised DB_REJECT (R295), the MSI-X table
entries that differ from reset and the pending bits set, by LD index × 2048 + vector (R534), and the 32-bit words of an LD's
own registers of the CXL specification that differ from zero, by LD index × 2^18 + word address (R279, R282, R533). -/
structure Hlx where
  memclr : List (Nat × List Nat)
  shadow : List (Nat × Nat × Nat)
  rejEpoch : List (Nat × Nat)
  msix : List (Nat × MsixEnt)
  msixPend : List Nat
  words : List (Nat × Nat)
  deriving DecidableEq, Repr

/-- HLX with nothing under way and nothing programmed. -/
def Hlx.empty : Hlx := { memclr := [], shadow := [], rejEpoch := [], msix := [], msixPend := [], words := [] }

/-! ## AON (15_power_states.md, 16_reset_clocks_time.md) -/

/-- A power-state entry (R482 to R485): stage 0 none, 1 accepted, 2 before the commit point, 3 after it, 4 resident,
5 exiting; the wakes latched; the attempts made of a P2 entry; whether a retry is due. -/
structure Entry where
  stage : Nat
  wakes : List Nat
  attempts : Nat
  retry : Bool
  deriving DecidableEq, Repr

/-- The timebase beside its registers: pulses outside the window in succession (their times), the boundaries counted
in HOLDOVER, whether the boundary just placed still has its window open, the position that AON saved at P3 entry with
its quality, the PERIOD in force, the ns elapsed before the present epoch, and whether the tick at
phase 0 of the present epoch is still to come. -/
structure TimeBase where
  offs : List Nat
  hold : Nat
  windowOpen : Bool
  saved : Option (Nat × Nat × Nat)
  period : Nat
  elapsed : Nat
  fresh : Bool
  deriving DecidableEq, Repr

/-- A register access that waits for the end of a block reset (R543, R552): what a write carries, and for the sideband whether
the response to come is over I2C (none: no response, or one that a newer request has discarded). -/
structure HeldAcc where
  path : Path
  addr : Nat
  width : Nat
  data : Option Nat
  reply : Option Bool
  deriving DecidableEq, Repr

/-- AON: whether the device is held in reset and by what (held), whether MEM_ACTIVE has been reached since the last cold
reset, a quiesce under way, off (0 on, 1 P4, 2 thermal shutdown, 3 a supply that did not rise), the fuse load, causes
waiting for it, supply groups enabled, supplies that passed warning since their enable, the external RESET_N,
whether the hub runs on the control-core PLL, the PLLs
qualified, the JTAG instruction in effect, whether the straps are sampled, the two brown throttles and the lift timer, block resets under way
and the register accesses that wait for them, replays counted per die-to-die link (R31), the trained values saved by channel key (R210), the entry, the timebase. -/
structure Aon where
  held : Bool
  seenActive : Bool
  quiescing : Bool
  off : Nat
  loading : Bool
  loaded : Bool
  waiting : List Nat
  groups : Nat
  passed : Nat
  extLow : Bool
  hubOnCore : Bool
  brownSupply : Bool
  liftDue : Bool
  brownThermal : Bool
  pllOk : Nat
  jtag : Nat
  strapped : Bool
  blocks : List Nat
  accs : List HeldAcc
  replays : List (Nat × Nat)
  trainedValues : List (Nat × BitVec 64)
  entry : Entry
  time : TimeBase
  deriving DecidableEq, Repr

/-- What leaves the unit, in the order it leaves (the model's own record; log entry 11): CXL.mem read data and
completions, back-invalidate snoops and acknowledgements, MSI-X messages, mailbox completions (CXL return code and
output payload), answers to register reads and to the sideband, and so on by constructor. -/
inductive Out where
  | data (h l tag : Nat) (line : Line) (poison : Bool) (grant : Grant)
  | done (h l tag : Nat) (grant : Grant)
  | bisnp (h line : Nat) (kind : Snoop)
  | conflictAck (h line : Nat)
  | msix (h l vec addr data : Nat)
  | mbox (src : MboxSrc) (opcode rc : Nat) (payload : List Byte)
  | addCapacity (h slot : Nat)
  | regRead (path : Path) (addr width value : Nat)
  | sideband (bytes : List Byte)
  | spdm (h l : Nat) (code : Nat) (payload : List Byte)
  | flit (p : Nat) (bytes : List Byte)
  | alertN (low : Bool)
  | resetN (low : Bool)
  | enables (on : List Bool)
  deriving DecidableEq, Repr

/-! ## The state -/

/-- The whole unit. pending is the queue of commands, out what has left the unit, draw the model's own counter for
free values (log entry 5); regs holds the register fields that differ from reset. -/
structure State where
  pending : List Instr
  out : List Out
  draw : Nat
  fuses : Fuses
  straps : Straps
  regs : List (Nat × Nat)
  evt : Evt
  tmu : Tmu
  near : Near
  bulk : Bulk
  cry : Cry
  scr : Scr
  cdc : Cdc
  ras : Ras
  adm : Adm
  dir : Dir
  clx : Clx
  job : JobMgr
  ctl : Ctl
  mem : Mem
  hlx : Hlx
  aon : Aon
  deriving DecidableEq, Repr

/-- The fuse contents before any row is loaded: the safe defaults of Table 16.4 (log entry 1). -/
def fusesNone : Fuses :=
  { trim := 0, grade := 1, sn := 0, badCores := 0, badCodec := 0, badCrypto := 0, badScarab := 0, badWays := [],
    dirFailed := false, keyFused := 0, keyHashes := [], revoked := 15, minSvn := 0, romVer := 0, pins := 0,
    perms := [], secret := none }

/-- TMU with nothing stored. -/
def Tmu.empty : Tmu :=
  { map := [], cache := [], clock := 0, moves := [], nextId := 0, waits := [], pools := [], lists := [], fetches := [], freeIv := [],
    retired := [], withheld := [], fixed := [], orphans := [], mapFree := [], deleting := [], offers := [] }

/-- RAS with nothing recorded. -/
def Ras.empty : Ras :=
  { log := [], lost := [], seq := 0, fullRaised := false, copies := [], bulkPos := (0, 0), bulkAllow := 0,
    bulkBehind := false, nearPos := 0, nearAllow := 0, nearBehind := false, evac := none, evacDest := none,
    ue := [], sweep := none, reported := [], released := 0, retiredSeen := 0, sparesUsed := [], unmapped := [], seen := [], subs := [] }

/-- ADM with nothing waiting; every class open (R345: no valid entry). -/
def Adm.empty : Adm :=
  { queue := [], gc := [], deficit := [], rrGuar := 0, rrDef := 0, rrIng := [], buckets := [], brown := 0,
    gateOpen := 0xffff, gateRef := false, lengthen := [], cycleNow := 1, lastEpoch := 0,
    monStart := 0, monEpochs := 4, monValid := false, monD := [], monB := [], recompute := false,
    taken := 0, units := [], nextUnit := 1 }

/-- No credits counted. -/
def Credits.zero : Credits := { reqH := 0, reqD := 0, rspH := 0, rspD := 0 }

/-- A chain port after a reset (R412: everything starts afresh after a link down). -/
def ClPort.fresh : ClPort :=
  { lanes := 0, replay := [], pass := [], orig := [], since := 0, init := Credits.zero, consumed := Credits.zero,
    returned := Credits.zero, freed := Credits.zero, freedSent := Credits.zero, ackSent := 4095, rxBuf := [],
    naked := false, replayNo := none, seenTaken := false, seenSent := false, timer := false, tries := 0,
    inited := false, low := false, corr := [], corrEpoch := 0, fecFails := 0 }

/-- CLX with nothing outstanding. -/
def Clx.empty : Clx :=
  { ports := [ClPort.fresh, ClPort.fresh], home := [], done := [], syncs := [], syncCount := 0, reqs := [],
    nextTag := 0, deadTags := [], held := [], reports := [], members := [], headSn := none, side := none,
    running := false, round := 0, ucnt := 0, lanesRec := [] }

/-- The job manager with every context at the reset image. -/
def JobMgr.empty : JobMgr :=
  { ctxs := [], lostCtx := [], cache := [], clock := 0, jobs := [], nextJob := 0, coal := [], missEpoch := 0,
    misses := 0, held := [], disabling := [], turn := [] }

/-- CTL before the boot ROM runs. -/
def Ctl.empty : Ctl :=
  { beats := [], moves := [], override := none, passed := [], wdtRuns := false, flash := [],
    revertDue := false, checking := none, firstTry := true, header := [], image := [], xfer := none,
    background := [], sessions := [], alive := false, romRan := false, trained := false }

/-- The controllers with nothing queued. -/
def Mem.empty : Mem :=
  { queues := [], rows := [], inOrder := [], postponed := [], refDue := [], repay := [], fails := [], stopped := [],
    due := [], lastTrain := [], dimmHot := [], posHot := [], dimmCrit := [], posCrit := [], entry := 0, bulkIn := false,
    nearIn := false, untrained := [], dimmTrain := [], level := [], lastWrite := [], serials := [], canaries := [], resume := [],
    resumeHeader := [] }

/-- No power-state entry. -/
def Entry.none : Entry := { stage := 0, wakes := [], attempts := 0, retry := false }

/-- AON as the AON supplies come up (Table 18.6 step 1): the device is held in reset. -/
def Aon.reset : Aon :=
  { held := true, seenActive := false, quiescing := false, off := 0, loading := false, loaded := false, waiting := [],
    groups := 0, passed := 0, extLow := false, hubOnCore := false, brownSupply := false, liftDue := false,
    brownThermal := false, pllOk := 0, jtag := 0, strapped := false, blocks := [], accs := [], replays := [], trainedValues := [], entry := Entry.none,
    time := { offs := [], hold := 0, windowOpen := false, saved := Option.none, period := 256, elapsed := 0,
              fresh := true } }

/-- The unit right after a power-on reset, before anything has qualified (Table 16.1 cause 1): every register at its
reset value, nothing stored, nothing waiting. -/
def State.reset : State :=
  { pending := [], out := [], draw := 0, fuses := fusesNone,
    straps := { bifur := 0, refmode0 := 0, refmode1 := 0, chainHead := false, addr0 := 0, addr1 := 0, addr2 := 0 },
    regs := [],
    evt := { raises := [], queue := [], qUsed := 0, ovfDue := false, records := [], overs := [], policy := [], window := [],
             copies := [], nowDue := 0, latched := [] },
    tmu := Tmu.empty,
    near := { mem := [], marks := [], ftes := [], withheld := [], reads := [] },
    bulk := { mem := [], marks := [], sets := [], dimms := [] },
    cry := { root := none, kek := none, slotKeys := [], cross := [], keyWait := [], walks := [], rekeyJobs := [],
             ctrHolds := [], lines := 0, marks := [], halt := 0, ide := [], ideOn := [] },
    scr := { cands := [], cursor := 0, lastPromo := [], prefetch := [], pinWalks := [], low := false },
    cdc := { held := [] },
    ras := Ras.empty, adm := Adm.empty,
    dir := { sets := [], cache := [], busy := [], sweeps := [], nextSweep := 0, evictEpoch := 0, evictCount := 0,
             conflicts := [] },
    clx := Clx.empty, job := JobMgr.empty, ctl := Ctl.empty, mem := Mem.empty,
    hlx := Hlx.empty, aon := Aon.reset }

end Sys2Proof.Machine
end

