-- ==== Sys2Proof/Machine/Ops.lean ====
section
/-!
DEFINITION. Machine/Ops.lean: the named operations on the state that every family uses: register fields, counters,
raises, outputs, free values, fabric time, and the error log (17_register_map.md, 14_events_and_counters.md,
07_ras.md).
-/
namespace Sys2Proof.Machine

/-- What a meaning answers. -/
abbrev Result := Host.Outcome State Fault Refusal

/-! ## Register fields -/

/-- Read a field: instance page i, register index k. -/
def State.rd (s : State) (f : Fld) (i : Nat := 0) (k : Nat := 0) : Nat :=
  mgetD s.regs (f.key i k) (f.rstAt i k)

/-- A one-bit field as a truth value. -/
def State.rdb (s : State) (f : Fld) (i : Nat := 0) (k : Nat := 0) : Bool := decide (s.rd f i k ≠ 0)

/-- Write a field whole: instance i, index k. The value is cut to the field's width. -/
def State.wrAt (s : State) (f : Fld) (i k v : Nat) : State :=
  { s with regs := mset (f.rstAt i k) s.regs (f.key i k) (v % 2 ^ f.width) }

/-- Write a field of a page that stands alone. -/
def State.wr (s : State) (f : Fld) (v : Nat) : State := s.wrAt f 0 0 v

/-- Write a field of instance page i. -/
def State.wrI (s : State) (f : Fld) (i v : Nat) : State := s.wrAt f i 0 v

/-- Put a one-bit field of instance page i. -/
def State.wrb (s : State) (f : Fld) (i : Nat) (b : Bool) : State := s.wrAt f i 0 (b2n b)

/-- Return a field to its reset value. -/
def State.clr (s : State) (f : Fld) (i k : Nat) : State := s.wrAt f i k (f.rstAt i k)

/-! ## Free values and outputs -/

/-- The draw counter goes on by one; the value drawn is a Config constant applied to the count before. -/
def State.drawn (s : State) : State := { s with draw := s.draw + 1 }

/-- Something leaves the unit. -/
def State.emit (s : State) (o : Out) : State := { s with out := s.out ++ [o] }

/-! ## Causes and raises -/

/-- A cause bit of a page and the source it feeds (R459, R576). -/
structure Cause where
  blk : Nat
  page : Nat
  bit : Nat
  src : Nat
  deriving DecidableEq, Repr

/-- Pages with channel or port causes: mask of bits lo to hi. -/
def bitMask (hi lo : Nat) : Nat := 2 ^ (hi + 1) - 2 ^ lo

/-- The defined cause bits of a page (R576 and the event tables). -/
def definedCauses (blk page : Nat) : Nat :=
  if blk = 0 then
    (if page = 0 then 0x0f03 else if page = 1 then 0x1f01 else if page = 2 then 0x1f else if page = 3 then 1 else 0)
  else if blk = 1 then (if page = 0 then 0x7f else 0)
  else if blk = 2 then (if 1 ≤ page ∧ page ≤ 16 then 0x0f0f else 0)
  else if blk = 3 then
    (if page = 0 then 0x0f0f else if page = 1 ∨ page = 2 then 0x30707 else 0)
  else if blk = 4 then (if page = 0 then 0x1f else 0)
  else if blk = 5 then (if page = 0 then 0x7f else 0)
  else if blk = 6 then (if page = 0 then 0x3ff else 0)
  else if blk = 7 then (if page = 0 then 0x0f else 0)
  else if blk = 8 then (if page = 0 then 0x3ff else 0)
  else if blk = 9 then (if page = 0 then 0x7f else if page = 64 then 0x0f else 0)
  else if blk = 10 then (if 1 ≤ page ∧ page ≤ 32 then 0x0f else 0)
  else if blk = 11 then
    (if 1 ≤ page ∧ page ≤ 32 then (if (page - 1) % 2 = 0 then 0x1f else 0x0f) else 0)
  else if blk = 12 then (if page = 0 then 0x7ffff else 0)
  else if blk = 13 then (if page = 0 then 3 else 0)
  else if blk = 14 then (if page = 14 then 3 else 0)
  else 0

/-- EVT_EN of a page. The field is stored as the mask of the bits switched off, so that its reset value, every
defined cause bit of the page 1, is the stored value 0. -/
def State.evtEn (s : State) (blk page : Nat) : Nat :=
  definedCauses blk page &&& (definedCauses blk page ^^^ s.rd (F.EVT_EN_EN blk) page)

/-- Set a cause bit, without a raise. -/
def State.setCause (s : State) (c : Cause) : State :=
  s.wrI (F.EVT_RAW_CAUSE c.blk) c.page (s.rd (F.EVT_RAW_CAUSE c.blk) c.page ||| 2 ^ c.bit)

/-- Hold a raise until the next tick; in P3, until its exit begins, AON latches it with its tick (Table 14.5). -/
def State.hold (s : State) (r : Raise) : State :=
  if s.rd F.AON_PWR_MODE_CUR = 3 ∧ s.aon.entry.stage ≠ 5 then
    (if r.src < 16 then
      { s with evt := { s.evt with latched := s.evt.latched ++
          [(r, s.rd F.AON_EPOCH_EPOCH, s.rd F.AON_EPOCH_PHASE + 2 ^ 14 * s.rd F.AON_EPOCH_QUALITY)] } }
     else s)
  else { s with evt := { s.evt with raises := s.evt.raises ++ [r] } }

/-- Hardware sets a cause bit (R459): the bit is recorded in EVT_RAW; while its EVT_EN bit is 1, the source is raised. -/
def State.raise (s : State) (c : Cause) (region : Option Nat := none) (queue : Option Nat := none)
    (heads : List (Nat × Option Nat) := []) : State :=
  let s1 := s.setCause c
  if (s.evtEn c.blk c.page).testBit c.bit then
    s1.hold { src := c.src, blk := c.blk, page := c.page, bits := 2 ^ c.bit, region := region, queue := queue,
              heads := heads }
  else s1

/-! ## Counters -/

/-- The code of an RC field among its block's RC counter fields (R472): page order, then offset, then bit position. -/
def rcCode (f : Fld) (k : Nat) : Nat :=
  let a := f.off + k * f.stride
  1 + ((blockTable f.blk).foldl (fun n g =>
    if g.acc = .rc then
      n + ((List.range g.cnt).filter (fun j =>
        decide (g.p0 < f.p0 ∨ (g.p0 = f.p0 ∧ (g.off + j * g.stride < a ∨
          (g.off + j * g.stride = a ∧ g.lo < f.lo)))))).length
    else n) 0)

/-- A PMU counter k of block b takes n more events (R472, R473). -/
def State.pmuCount (s : State) (b k n : Nat) : State :=
  let v := s.rd F.PMU_CNT_COUNT b k + n
  let s1 := s.wrAt F.PMU_CNT_COUNT b k v
  if v < 2 ^ 48 then s1
  else
    let s2 := s1.wrI F.PMU_OVF_OVF b (setBit (s1.rd F.PMU_OVF_OVF b) k)
    if (s2.rd F.PMU_OVF_OVF_EN b).testBit k then s2.raise ⟨14, 14, 1, 255⟩ else s2

/-- Whether PMU counter k of the field's block counts this field (R472). -/
def State.pmuSelects (s : State) (f : Fld) (i k : Nat) (cls : Option Nat) (c : Nat) : Bool :=
  let sel := F.PMU_SEL_CODE
  let code := s.rd sel f.blk c
  let mask := s.rd F.PMU_SEL_CLASS_MASK f.blk c
  let inst := s.rd F.PMU_SEL_INST f.blk c
  let base := s.rd F.PMU_SEL_INST_BASE f.blk c
  decide (code ≠ 0) && decide (code = rcCode f k) &&
    (decide (mask = 0) || (match cls with | some x => mask.testBit x | none => true)) &&
    (decide (inst = 0) || decide (f.p0 = 0 ∧ f.pn = 0) ||
      (decide (base + 1 ≤ f.p0 + i) && inst.testBit (f.p0 + i - (base + 1))))

/-- Advance the PMU counters that select a field. -/
def State.pmuAdvance (s : State) (f : Fld) (i k n : Nat) (cls : Option Nat) : State :=
  (List.range 6).foldl (fun s c => if s.pmuSelects f i k cls c then s.pmuCount f.blk c n else s) s

/-- The next value of a counter: where it would pass its field, the value saturates when the spec says so and is
free otherwise. -/
def counterNext (f : Fld) (draw old n : Nat) (sat : Bool) : Nat :=
  if old + n < 2 ^ f.width then old + n
  else if sat then 2 ^ f.width - 1
  else Config.counterOverflow (f.key 0 0) draw

/-- The ADM counts that Firefly copies (R475). -/
def fireflyFields : List Fld :=
  [F.ADM_SLOT_RET_SLOTS, F.ADM_SLOT_WASTE_SLOTS, F.ADM_SLOT_FRONT_SLOTS, F.ADM_SLOT_BACK_SLOTS, F.ADM_CLS_DELIV_BYTES,
   F.ADM_SLOT_CYC_CYCLES]

/-- Firefly's free-running copy of a count advances with it (R475); a read never clears it. -/
def State.copyAdvance (s : State) (f : Fld) (i k n : Nat) : State :=
  if f.blk = 4 ∧ fireflyFields.contains f then
    { s with evt := { s.evt with copies := mput s.evt.copies (f.key i k) ((mgetD s.evt.copies (f.key i k) 0 + n) % 2 ^ 48) } }
  else s

/-- Advance a counter field by n, and the PMU counters that select it. -/
def State.bump (s : State) (f : Fld) (i : Nat := 0) (k : Nat := 0) (n : Nat := 1) (cls : Option Nat := none)
    (sat : Bool := false) : State :=
  ((s.wrAt f i k (counterNext f s.draw (s.rd f i k) n sat)).pmuAdvance f i k n cls).copyAdvance f i k n

/-- Advance a saturating field that is no RC counter (fault counts). -/
def State.sat (s : State) (f : Fld) (i : Nat) (k : Nat := 0) (n : Nat := 1) : State :=
  s.wrAt f i k (min (2 ^ f.width - 1) (s.rd f i k + n))

/-! ## Fabric time -/

/-- The epoch number. -/
def State.epoch (s : State) : Nat := s.rd F.AON_EPOCH_EPOCH

/-- The phase, 0 to 1023. -/
def State.phase (s : State) : Nat := s.rd F.AON_EPOCH_PHASE

/-- The ticks since epoch 0: the position of the present tick. -/
def State.tickNo (s : State) : Nat := s.epoch * 1024 + s.phase

/-- Phase and time quality as log records and event records carry them (Tables 7.5 and 14.4). -/
def State.phaseWord (s : State) : Nat := s.phase + 2 ^ 14 * s.rd F.AON_EPOCH_QUALITY

/-! ## The error log (R268 to R270, R578) -/

/-- What a record is about. -/
structure About where
  slot : Option Nat := none
  tile : Nat := 0
  line : Nat := 0
  location : Nat := 0
  detail : Nat := 0
  blk : Option Nat := none
  sev : Option Nat := none
  deriving DecidableEq, Repr

/-- SEV of a record type (Table 7.11). -/
def recSev : Nat → Nat
  | 0x01 => 2 | 0x02 => 2 | 0x03 => 2 | 0x04 => 2 | 0x07 => 3 | 0x09 => 3 | 0x0c => 2 | 0x0d => 2 | 0x0e => 3
  | 0x10 => 2 | 0x11 => 2 | _ => 4

/-- BLOCK of a record type, where it is fixed (Table 7.11). -/
def recBlk : Nat → Nat
  | 0x01 => 0x0a | 0x02 => 0x0b | 0x03 => 0x07 | 0x04 => 0x06 | 0x0e => 0x0a | 0x10 => 0x06 | 0x11 => 0x0a
  | _ => 0x0c

/-- The OWNER mask of a region. -/
def State.owner (s : State) (slot : Nat) : Nat := s.rd F.TMU_RGN_MAP_OWNER slot

/-- The first DPA of a region. -/
def State.rgnBase (s : State) (slot : Nat) : Nat := s.rd F.TMU_RGN_MAP_BASE slot * 2 ^ 30

/-- The record that RAS forms now (Table 7.5). -/
def State.mkRec (s : State) (type : Nat) (a : About) : LogRec :=
  { type := type, sev := a.sev.getD (recSev type), block := a.blk.getD (recBlk type), seq := s.ras.seq,
    epoch := s.epoch, phase := s.phaseWord,
    dpa := match a.slot with
      | some r => (s.rgnBase r + a.tile * 4096 + a.line * 64) % 2 ^ 46 + 2 ^ 56 * a.line
      | none => 0,
    location := a.location, region := a.slot.getD 0, tile := a.tile, detail := a.detail,
    head := match a.slot with | some r => s.owner r | none => 0 }

/-- RAS writes a record (R268): dropped and counted when the ring is full, LOG_FULL raised once. That a dropped record uses up
no SEQ is the model's choice (log entry 131). -/
def State.log (s : State) (type : Nat) (a : About := {}) : State :=
  let prod := s.rd F.RAS_LOG_PROD
  if (prod + 1) % 1024 = s.rd F.RAS_LOG_CONS then
    let s1 := s.bump F.RAS_LOG_LOST
    if s.ras.fullRaised then s1
    else { s1.raise ⟨12, 0, 14, 218⟩ with ras := { s1.ras with fullRaised := true } }
  else
    let r := s.mkRec type a
    { s.wr F.RAS_LOG_PROD (prod + 1) with
      ras := { s.ras with log := mput s.ras.log prod r, lost := nerase s.ras.lost prod,
                          seq := (s.ras.seq + 1) % 2 ^ 32 } }

end Sys2Proof.Machine
end

