-- ==== Sys2Proof/Machine/Flags.lean ====
section
/-!
DEFINITION. Machine/Flags.lean: the cause bits of every block by name, the severity class of every source (Tables
14.1 and 14.2), and where a source is delivered (the delivery rules R93, R131, R167, R194, R232, R272, R281, R304,
R332, R364, R396, R435, R458 and Tables 14.1, 14.8 and 14.11).
-/
namespace Sys2Proof.Machine

/-! ## Causes by name -/

/-- AON page 0 (Table 15.9). -/
def cAlarm : Cause := ⟨0, 0, 0, 6⟩
def cWake : Cause := ⟨0, 0, 1, 7⟩
def cEntered : Cause := ⟨0, 0, 8, 13⟩
def cRefused : Cause := ⟨0, 0, 9, 13⟩
def cAborted : Cause := ⟨0, 0, 10, 13⟩
def cAbandoned : Cause := ⟨0, 0, 11, 13⟩
/-- AON page 1 (after Table 16.10). -/
def cFuseDegraded : Cause := ⟨0, 1, 0, 4⟩
def cD2d (k : Nat) : Cause := ⟨0, 1, 8 + k, 8 + k⟩
def cResetCause : Cause := ⟨0, 1, 12, 12⟩
/-- AON page 2 (after Table 16.11). -/
def cSupplyWarn : Cause := ⟨0, 2, 0, 0⟩
def cThermalThrottle : Cause := ⟨0, 2, 1, 1⟩
def cThermalShutdown : Cause := ⟨0, 2, 2, 2⟩
def cClkFault : Cause := ⟨0, 2, 3, 3⟩
def cLsclkSwitch : Cause := ⟨0, 2, 4, 14⟩
/-- CTL (Table 13.11). -/
def cCoreSpared : Cause := ⟨1, 0, 0, 236⟩
def cCoreExhausted : Cause := ⟨1, 0, 1, 237⟩
def cFwStall : Cause := ⟨1, 0, 2, 238⟩
def cFwFallback : Cause := ⟨1, 0, 3, 239⟩
def cFwRecovery : Cause := ⟨1, 0, 4, 240⟩
def cFwActivated : Cause := ⟨1, 0, 5, 241⟩
def cFwReverted : Cause := ⟨1, 0, 6, 242⟩
/-- HLX port n (Table 8.12). -/
def cHpLink (n bit : Nat) : Cause := ⟨2, 1 + n, bit, 16 + 2 * n⟩
def cHpFault (n bit : Nat) : Cause := ⟨2, 1 + n, bit, 17 + 2 * n⟩
/-- CLX port p (Table 12.17) and page 0 (Table 12.18). -/
def cClLink (p bit : Nat) : Cause := ⟨3, 1 + p, bit, 48 + 4 * p⟩
def cClLane (p bit : Nat) : Cause := ⟨3, 1 + p, bit, 49 + 4 * p⟩
def cClProto (p bit : Nat) : Cause := ⟨3, 1 + p, bit, 50 + 4 * p⟩
def cRing (bit : Nat) : Cause := ⟨3, 0, bit, 51⟩
def cFar (bit : Nat) : Cause := ⟨3, 0, bit, 55⟩
/-- ADM (Table 10.13). -/
def cAdm (bit : Nat) : Cause := ⟨4, 0, bit, 56 + bit⟩
def cGuarOvercommit : Cause := cAdm 0
def cGuarMissed : Cause := cAdm 1
def cGateLengthened : Cause := cAdm 2
def cFloorChanged : Cause := cAdm 3
def cGclSwapped : Cause := cAdm 4
/-- DIR (Table 9.8). -/
def cDir (bit : Nat) : Cause := ⟨5, 0, bit, 80 + bit⟩
def cBiTimeout : Cause := cDir 0
def cDirEntryLost : Cause := cDir 1
def cDirBroadcast : Cause := cDir 2
def cDirWayFault : Cause := cDir 3
def cDirSparesExhausted : Cause := cDir 4
def cDirEvictHigh : Cause := cDir 5
def cDirOffline : Cause := cDir 6
/-- TMU (Table 2.11). -/
def cTmu (bit : Nat) : Cause := ⟨6, 0, bit, 88 + bit⟩
def cAccessFault : Cause := cTmu 0
def cPressure : Cause := cTmu 1
def cFenced : Cause := cTmu 2
def cUnfenced : Cause := cTmu 3
def cWriteDrop : Cause := cTmu 4
def cElasticHold : Cause := cTmu 5
def cAllocEscalate : Cause := cTmu 6
def cRegionLost : Cause := cTmu 7
def cInitDone : Cause := cTmu 8
def cLockTableFull : Cause := cTmu 9
/-- CDC (Table 3.14). -/
def cCdcPipeFault : Cause := ⟨7, 0, 0, 104⟩
def cCdcPipeSpared : Cause := ⟨7, 0, 1, 105⟩
def cCdcExhausted : Cause := ⟨7, 0, 2, 106⟩
def cCdcOffline : Cause := ⟨7, 0, 3, 107⟩
/-- CRY (Table 4.14). -/
def cCry (bit : Nat) : Cause := ⟨8, 0, bit, 112 + bit⟩
def cHalt : Cause := cCry 0
def cRekeyStarted : Cause := cCry 1
def cRekeyDone : Cause := cCry 2
def cCtrHold : Cause := cCry 3
def cKeyMismatch : Cause := cCry 4
def cCryPipeFault : Cause := cCry 5
def cCryPipeSpared : Cause := cCry 6
def cCryExhausted : Cause := cCry 7
def cTrngFault : Cause := cCry 8
def cKeygenExhausted : Cause := cCry 9
/-- SCR movement (Table 5.12) and jobs (Table 11.13). -/
def cScr (bit : Nat) : Cause := ⟨9, 0, bit, 124 + bit⟩
def cFrameLow : Cause := cScr 0
def cFrameStarved : Cause := cScr 1
def cPinLimit : Cause := cScr 2
def cFlushDone : Cause := cScr 3
def cScarabFault : Cause := cScr 4
def cNearOnly : Cause := cScr 5
def cBulkOnly : Cause := cScr 6
def cQueueError : Cause := ⟨9, 64, 0, 132⟩
def cQctxLost : Cause := ⟨9, 64, 1, 133⟩
def cJobCacheMiss : Cause := ⟨9, 64, 2, 134⟩
def cCqeLost : Cause := ⟨9, 64, 3, 135⟩
/-- NTC channel c (Table 6.11) and BTC subchannel u (Table 6.15). -/
def cNtc (c bit : Nat) : Cause := ⟨10, 1 + c, bit, 140 + c⟩
def cBtc (u bit : Nat) : Cause := ⟨11, 1 + u, bit, 172 + u⟩
/-- RAS (Table 7.10). -/
def cRas (bit : Nat) : Cause := ⟨12, 0, bit, 204 + bit⟩
def cPoisonCreated : Cause := cRas 0
def cHardFault : Cause := cRas 1
def cRowRemapped : Cause := cRas 2
def cRemapFull : Cause := cRas 3
def cTileRetired : Cause := cRas 4
def cReserveLow : Cause := cRas 5
def cReserveExhausted : Cause := cRas 6
def cRankFailing : Cause := cRas 7
def cRankEvacDone : Cause := cRas 8
def cRankEvacStalled : Cause := cRas 9
def cRetentionLoss : Cause := cRas 10
def cRetentionSweepDone : Cause := cRas 11
def cScrubPassDone : Cause := cRas 12
def cScrubBehind : Cause := cRas 13
def cLogFull : Cause := cRas 14
def cSpareUsed : Cause := cRas 15
def cNearRowWithheld : Cause := cRas 16
def cMapSectorLost : Cause := cRas 17
def cReservedUe : Cause := cRas 18
/-- EVT page 0 and PMU page 0x0E. -/
def cEvtQueueOvf : Cause := ⟨13, 0, 0, 252⟩
def cEvtTest : Cause := ⟨13, 0, 1, 253⟩
def cFireflyMissed : Cause := ⟨14, 14, 0, 254⟩
def cPmuOverflow : Cause := ⟨14, 14, 1, 255⟩

/-- The source that a defined cause bit of a page feeds (the event tables and R576). -/
def causeSrc (blk page bit : Nat) : Nat :=
  match blk with
  | 0 => if page = 0 then (if bit < 2 then 6 + bit else 13)
         else if page = 1 then (if bit = 0 then 4 else bit)
         else if page = 2 then (if bit = 4 then 14 else bit) else 5
  | 1 => 236 + bit
  | 2 => 16 + 2 * (page - 1) + (if bit < 8 then 0 else 1)
  | 3 => if page = 0 then (if bit < 8 then 51 else 55)
         else 48 + 4 * (page - 1) + (if bit < 8 then 0 else if bit < 16 then 1 else 2)
  | 4 => 56 + bit
  | 5 => 80 + bit
  | 6 => 88 + bit
  | 7 => 104 + bit
  | 8 => 112 + bit
  | 9 => if page = 0 then 124 + bit else 132 + bit
  | 10 => 139 + page
  | 11 => 171 + page
  | 12 => 204 + bit
  | 13 => 252 + bit
  | _ => 254 + bit

/-- The bits of a page that feed a source. -/
def feedMask (blk page src : Nat) : Nat :=
  maskOf ((bitList 20 (definedCauses blk page)).filter (fun b => decide (causeSrc blk page b = src)))

/-! ## Severity classes -/

/-- Sources of class FATAL. -/
def fatalSrcs : List Nat := [2, 112]
/-- Sources of class CONTAIN. -/
def containSrcs : List Nat := [55, 80, 81, 90, 92, 95, 133, 213, 214, 221, 222, 240]
/-- Sources of class DEGRADE, beside the port, channel and subchannel sources. -/
def degradeSrcs : List Nat :=
  [0, 1, 3, 4, 8, 9, 10, 11, 48, 52, 56, 82, 84, 86, 93, 106, 107, 115, 119, 120, 125, 207, 209, 210, 211,
   237, 238, 239, 242]
/-- Sources of class NOTICE, beside the port sources. -/
def noticeSrcs : List Nat :=
  [5, 6, 7, 12, 13, 14, 49, 50, 51, 53, 54, 57, 58, 59, 60, 83, 85, 88, 89, 91, 94, 96, 97, 104, 105, 113, 114,
   116, 117, 118, 121, 124, 126, 127, 128, 129, 130, 132, 134, 135, 204, 205, 206, 208, 212, 215, 216, 217, 218,
   219, 220, 236, 241, 252, 253, 254, 255]

/-- The class of a source (R461): 1 FATAL, 2 CONTAIN, 3 DEGRADE, 4 NOTICE, 0 reserved. -/
def srcClass (n : Nat) : Nat :=
  if fatalSrcs.contains n then 1
  else if containSrcs.contains n then 2
  else if degradeSrcs.contains n ∨ (16 ≤ n ∧ n ≤ 47 ∧ n % 2 = 0) ∨ (140 ≤ n ∧ n ≤ 203) then 3
  else if noticeSrcs.contains n ∨ (16 ≤ n ∧ n ≤ 47 ∧ n % 2 = 1) then 4
  else 0

/-! ## Heads and LDs -/

/-- The page index of head h, LD l. -/
def hl (h l : Nat) : Nat := 4 * h + l

/-- Whether the ports of the pair of port n are merged (R273, R274). -/
def State.merged (s : State) (n : Nat) : Bool := (s.rd F.HLX_BIFUR_MERGE_ACT).testBit (n / 2)

/-- The port whose page, head and sources stand for port n: the even port of a merged pair (R304). -/
def State.portOf (s : State) (n : Nat) : Nat := if s.merged n then n / 2 * 2 else n

/-- A head is presented on port n (R275). -/
def State.headUp (s : State) (n : Nat) : Bool := s.rdb F.HLX_PORT_STS_LINK_UP n && s.rdb F.HLX_PORT_STS_HEAD n

/-- The tag of a write that firmware sends for an LD (R288): nothing leaves the unit at its completion. -/
def fwTag : Nat := 65536

/-- The LDs in force of head h (R279). -/
def State.ldCount (s : State) (h : Nat) : Nat := max 1 (s.rd F.HLX_HEAD_LD_LD_ACTIVE (hl h 0))

/-- The vectors of each LD of a head (R296). -/
def State.vectors (s : State) (h : Nat) : Nat := 2048 / s.ldCount h

/-- The vector fields of a head page. -/
def vecFields : List Fld :=
  [F.HLX_HEAD_VEC_MBOX_VEC, F.HLX_HEAD_VEC_FATAL_VEC, F.HLX_HEAD_VEC_CONTAIN_VEC, F.HLX_HEAD_VEC_DEGRADE_VEC,
   F.HLX_HEAD_VEC_NOTICE_VEC]

/-- The pairs (head, LD) that the unit can have. -/
def allLds : List (Nat × Nat) := (List.range 64).map (fun i => (i / 4, i % 4))

/-- The LD's queue range covers queue q (R295). -/
def State.ldOwnsQueue (s : State) (h l q : Nat) : Bool :=
  let first := s.rd F.HLX_LD_QUEUES_QFIRST (hl h l)
  decide (first ≤ q ∧ q < first + s.rd F.HLX_LD_QUEUES_QCOUNT (hl h l))

/-- The LD's region mask admits slot r (R280). -/
def State.ldMask (s : State) (h l r : Nat) : Bool := (s.rd F.HLX_LD_RGN_SLOTS (hl h l)).testBit r

/-- The LDs of head h that a delivery concerning a region or queue reaches (R281). -/
def State.ldsFor (s : State) (h : Nat) (region queue : Option Nat) : List (Nat × Nat) :=
  match region, queue with
  | none, none => [(h, 0)]
  | r, q =>
    ((List.range (s.ldCount h)).filter (fun l =>
      (match r with | some x => s.ldMask h l x | none => false) ||
      (match q with | some x => s.ldOwnsQueue h l x | none => false))).map (fun l => (h, l))

/-- The LDs in force that hold a permission. -/
def State.ldsWith (s : State) (f : Fld) : List (Nat × Nat) :=
  allLds.filter (fun p => s.rdb f (hl p.1 p.2) && decide (p.2 < s.ldCount p.1))

/-- The heads with an active port. -/
def State.activeHeads (s : State) : List Nat := (List.range 16).filter s.headUp

/-! ## Delivery -/

/-- Sources that go to no control core. -/
def notCores : List Nat := [2, 88, 89, 90, 91, 92, 93, 95, 96, 113, 114, 115, 116, 126, 238, 240]

/-- Sources that go to every head with an active port. -/
def toActive : List Nat :=
  [0, 1, 7, 8, 9, 10, 11, 12, 56, 86, 106, 107, 112, 119, 120, 129, 130, 210, 211, 212, 213, 214, 215]

/-- Sources that go to every LD holding FM. -/
def toFm : List Nat :=
  [3, 4, 5, 6, 13, 14, 48, 51, 52, 56, 57, 58, 59, 60, 134, 237, 238, 239, 240, 241, 242, 252, 254]

/-- Sources that go to the heads in the OWNER mask of the region concerned. -/
def toOwners : List Nat := [89, 90, 91, 92, 93, 95, 96, 113, 114, 115, 125, 126, 204, 207, 208, 221]

/-- The sources whose delivery rule names ALERT_N (R469): the FATAL sources are never masked. -/
def alertSrcs : List Nat := [1, 2, 112, 238, 240]

/-- The reset value of EVT_ALERT_EN register k: the sources of R469. -/
def alertEnReset (k : Nat) : Nat := maskOf ((alertSrcs.filter (fun n => n / 64 = k)).map (· % 64))

/-- The FATAL bits of a 64-source register k. -/
def fatalBits (k : Nat) : Nat := maskOf ((fatalSrcs.filter (fun n => n / 64 = k)).map (· % 64))

/-- EVT_ALERT_EN register k; stored as the difference from its reset value. -/
def State.alertEn (s : State) (k : Nat) : Nat :=
  (alertEnReset k ^^^ s.rd F.EVT_ALERT_EN_SRC 0 k) ||| fatalBits k

/-- Heads in the OWNER mask of any SHARED region (R332). -/
def State.sharedOwners (s : State) : List Nat :=
  (List.range 16).filter (fun h => (List.range 64).any (fun r =>
    decide (s.rd F.TMU_RGN_MAP_TYPE r = 3 ∧ s.rd F.TMU_RGN_MAP_STATE r ≠ 0) && (s.owner r).testBit h))

/-- The LDs a raise is delivered to, before masking by EVT_LD_EN. -/
def State.deliverTo (s : State) (r : Raise) : List (Nat × Nat) :=
  let n := r.src
  let exact := (r.heads.map (fun p => match p.2 with
    | some l => [(p.1, l)]
    | none => s.ldsFor p.1 r.region r.queue)).flatten
  let act := if toActive.contains n ∨ ((140 ≤ n ∧ n ≤ 203) ∧ r.bits &&& 5 ≠ 0)
    then (s.activeHeads.map (fun h => s.ldsFor h r.region r.queue)).flatten else []
  let fm := if toFm.contains n ∨ (16 ≤ n ∧ n ≤ 47 ∧ n % 2 = 0) then s.ldsWith F.HLX_HEAD_PERM_FM else []
  let own := match r.region with
    | some g => if toOwners.contains n
        then ((bitList 16 (s.owner g)).map (fun h => s.ldsFor h r.region r.queue)).flatten else []
    | none => []
  let shared := if n = 81 ∨ n = 82 ∨ n = 85
    then (s.sharedOwners.map (fun h => s.ldsFor h none none)).flatten else []
  let perf := if n = 255 then s.ldsWith F.HLX_HEAD_PERM_PERF_USER else []
  (exact ++ act ++ fm ++ own ++ shared ++ perf).dedup

/-- Whether a source goes to the control cores. -/
def toCores (n : Nat) : Bool := !notCores.contains n && decide (srcClass n ≠ 0)

end Sys2Proof.Machine
end

