-- ==== Sys2Proof/Machine/Paths.lean ====
section
/-!
DEFINITION. Machine/Paths.lean: the three access paths to the registers and what each may do (R540 to R542, R577), as far
as commands with a row of their own need it; plain register accesses stand in RegAccess.lean.
-/
namespace Sys2Proof.Machine

/-- AON_GLB_ACCERR.LAST_PATH (Table 17.7): heads 0 to 15, 16 the sideband, 17 the control cores. -/
def pathCode : Path → Nat
  | .ld h _ => h
  | .sideband => 16
  | .cores => 17

/-- AON_GLB_ACCERR.LAST_LD. -/
def pathLd : Path → Nat
  | .ld _ l => l
  | _ => 0

/-- A write access that would have changed something it may not change (R577). -/
def State.denied (s : State) (p : Path) : State :=
  (((s.bump F.AON_GLB_ACCERR_DENIED (sat := true)).wr F.AON_GLB_ACCERR_LAST_PATH (pathCode p)).wr
    F.AON_GLB_ACCERR_LAST_LD (pathLd p))

/-- An LD holds FM. -/
def State.holdsFm (s : State) (h l : Nat) : Bool := s.rdb F.HLX_HEAD_PERM_FM (hl h l) && decide (l < s.ldCount h)

/-- The device is off or held in reset: only the AON pages answer (R542, R566). -/
def State.inReset (s : State) : Bool := s.aon.held || decide (s.aon.off ≠ 0)

/-- A path reaches page of block blk now (R162, R542, R496, Table 14.5): the AON pages over the sideband at most times, but for
P2, P3 and P4. -/
def State.reaches (s : State) (p : Path) (blk page : Nat) : Bool :=
  match p with
  | .cores => !s.inReset && decide (s.cry.halt = 0) && decide (s.rd F.AON_PWR_MODE_CUR < 2)
  | .sideband =>
    if s.aon.off = 1 ∨ s.rd F.AON_PWR_MODE_CUR = 2 ∨ s.rd F.AON_PWR_MODE_CUR = 3 then false
    else if s.inReset then decide (blk = 0)
    else if s.cry.halt ≠ 0 then decide (blk = 0 ∨ (blk = 8 ∧ page = 0) ∨ blk = 13)
    else true
  | .ld h l =>
    !s.inReset && decide (s.cry.halt = 0) && decide (s.rd F.AON_PWR_MODE_CUR < 2) && s.headUp h &&
      decide (l < s.ldCount h)

/-- A path's write reaches page of block blk now: in the integrity halt firmware serves reads only, and AON alone still takes a
write, the COLD_CMD that ends the halt among them (R162 step 5, R163, R542; log entry 135). -/
def State.writeReaches (s : State) (p : Path) (blk page : Nat) : Bool :=
  s.reaches p blk page && (decide (s.cry.halt = 0) || decide (blk = 0))

/-- Firmware, the sideband, or an LD holding FM (R363, R395, R498, R531). -/
def State.manages (s : State) (p : Path) : Bool :=
  match p with
  | .cores => true
  | .sideband => true
  | .ld h l => s.holdsFm h l

/-- Run a command that a path orders through a write of page of block blk: nothing where the path does not reach the
page, a denied write where it may not write the field. -/
def State.viaPath (s : State) (p : Path) (blk page : Nat) (may : Bool) (f : State → State) : State :=
  if s.writeReaches p blk page then (if may then f s else s.denied p) else s

/-- Only the control cores (R541: the CMD fields and their like). -/
def isCores : Path → Bool
  | .cores => true
  | _ => false

/-- Only the sideband. -/
def isSideband : Path → Bool
  | .sideband => true
  | _ => false

end Sys2Proof.Machine
end

