-- ==== Sys2Proof/Machine/Queues.lean ====
section
/-!
DEFINITION. Machine/Queues.lean: queue contexts and doorbells as shared operations (R365 to R377, R394,
11_job_queues.md).
-/
namespace Sys2Proof.Machine

/-! ## Outstanding counts (R340) and slots (R362), and MSI-X -/

/-- COUNT of class 4k + j is field j of register k. -/
def outF (c : Nat) : Fld :=
  [F.ADM_ING_OUT_COUNT0, F.ADM_ING_OUT_COUNT1, F.ADM_ING_OUT_COUNT2].getD (c % 4) F.ADM_ING_OUT_COUNT3

/-- The outstanding count of a pair. -/
def State.outCount (s : State) (i c : Nat) : Nat := s.rd (outF c) i (c / 4)

/-- A pair's count changes. -/
def State.outAdd (s : State) (i c n : Nat) : State := s.wrAt (outF c) i (c / 4) (s.outCount i c + n)
def State.outSub (s : State) (i c n : Nat) : State := s.wrAt (outF c) i (c / 4) (s.outCount i c - n)

/-- A slot whose unit's outcome is known (R362 rule 1). -/
def State.slotDone (s : State) (c : Nat) (wasted : Bool) : State :=
  s.bump (if wasted then F.ADM_SLOT_WASTE_SLOTS else F.ADM_SLOT_RET_SLOTS) c 0 1 (some c)

/-- A job part completes. -/
def State.leavePart (s : State) (c : Nat) : State := (s.outSub 18 c 1).slotDone c false

/-- Replace HLX. -/
def State.setHlx (s : State) (x : Hlx) : State := { s with hlx := x }

/-- An entry after reset: masked, as PCI Express has it (log entry 113). -/
def msixReset : MsixEnt := { addr := 0, data := 0, masked := true }

/-- Where vector vec of an LD stands in the tables of HLX. -/
def msixKey (h l vec : Nat) : Nat := 2048 * (4 * h + l) + vec

/-- An LD's MSI-X table entry (R296, R534). -/
def State.msixEnt (s : State) (h l vec : Nat) : MsixEnt := mgetD s.hlx.msix (msixKey h l vec) msixReset

/-- The message of an entry leaves. -/
def State.sendMsix (s : State) (h l vec : Nat) : State :=
  s.emit (.msix h l vec (s.msixEnt h l vec).addr (s.msixEnt h l vec).data)

/-- An MSI-X message: discarded toward a port whose link is down (R388, R467); its pending bit is set while its vector is
masked. -/
def State.msix (s : State) (h l vec : Nat) : State :=
  if !s.headUp h then s
  else if (s.msixEnt h l vec).masked then
    s.setHlx { s.hlx with msixPend := ninsert s.hlx.msixPend (msixKey h l vec) }
  else s.sendMsix h l vec

/-- A 32-bit word of BAR2 (R534): the table from offset 0, the pending-bit array from 0x8000, for the n vectors of the LD. -/
def State.bar2Word (s : State) (h l n off : Nat) : Nat :=
  if off < 16 * n then
    (let e := s.msixEnt h l (off / 16)
     if off % 16 < 4 then e.addr % 2 ^ 32 else if off % 16 < 8 then e.addr / 2 ^ 32 % 2 ^ 32
     else if off % 16 < 12 then e.data else b2n e.masked)
  else if 0x8000 ≤ off ∧ off < 0x8000 + n / 8 then
    leNat ((List.range 4).map (fun i => BitVec.ofNat 8 ((List.range 8).foldl (fun m b =>
      if s.hlx.msixPend.contains (msixKey h l (8 * (off / 4 * 4 - 0x8000 + i) + b)) then m + 2 ^ b else m) 0)))
  else 0

/-- A write of a 32-bit word of BAR2: table entries change; a vector that is unmasked sends what is pending. -/
def State.bar2Put (s : State) (h l n off v : Nat) : State :=
  if off < 16 * n then
    let vec := off / 16
    let k := msixKey h l vec
    let e := s.msixEnt h l vec
    let e1 := if off % 16 < 4 then { e with addr := e.addr / 2 ^ 32 * 2 ^ 32 + v % 2 ^ 32 / 4 * 4 }
      else if off % 16 < 8 then { e with addr := v % 2 ^ 32 * 2 ^ 32 + e.addr % 2 ^ 32 }
      else if off % 16 < 12 then { e with data := v % 2 ^ 32 } else { e with masked := v.testBit 0 }
    let s1 := s.setHlx { s.hlx with msix := mset msixReset s.hlx.msix k e1 }
    if !e1.masked ∧ s1.hlx.msixPend.contains k then
      (s1.setHlx { s1.hlx with msixPend := nerase s1.hlx.msixPend k }).sendMsix h l vec
    else s1
  else s

/-! ## Contexts -/

/-- The reset image (R368): an SQ, DISABLED, every field 0. -/
def qctxReset : Qctx :=
  { typ := 0, state := 0, stopOnErr := false, intEn := false, owner := 0, cls := 0, key := 0, bucket := 0, log2 := 0,
    qdepth := 0, base := 0, cq := 0, vector := 0, coalCnt := 0, coalTime := 0, head := 0, tail := 0, phase := false,
    errCause := 0, errIndex := 0, reserved := 0, jobs := 0 }

/-- The context of queue q. -/
def State.ctx (s : State) (q : Nat) : Qctx := mgetD s.job.ctxs q qctxReset

/-- Replace the job manager. -/
def State.setJob (s : State) (j : JobMgr) : State := { s with job := j }

/-- Put the context of queue q; SCR_JOB_STS.ACTIVE follows the queues that are ACTIVE. -/
def State.setCtx (s : State) (q : Nat) (c : Qctx) : State :=
  let n := s.rd F.SCR_JOB_STS_ACTIVE + b2n (decide (c.state = 1)) - b2n (decide ((s.ctx q).state = 1))
  (s.setJob { s.job with ctxs := mset qctxReset s.job.ctxs q c }).wr F.SCR_JOB_STS_ACTIVE n

/-- The entries of a ring. -/
def Qctx.size (c : Qctx) : Nat := 2 ^ c.log2

/-- The 64 bytes of a context (Table 11.1). -/
def Qctx.bytes (c : Qctx) : List Byte :=
  leBytes 1 (c.typ + 2 * c.state + 16 * b2n c.stopOnErr + 32 * b2n c.intEn) ++ leBytes 1 c.owner ++ leBytes 1 c.cls ++
  leBytes 1 c.key ++ leBytes 2 c.bucket ++ leBytes 1 c.log2 ++ leBytes 1 c.qdepth ++ leBytes 8 c.base ++
  leBytes 4 c.cq ++ leBytes 2 c.vector ++ leBytes 2 c.coalCnt ++ leBytes 2 c.coalTime ++ leBytes 2 0 ++
  leBytes 4 c.head ++ leBytes 4 c.tail ++ leBytes 1 (b2n c.phase) ++ leBytes 1 c.errCause ++ leBytes 2 c.errIndex ++
  leBytes 4 c.reserved ++ leBytes 4 c.jobs ++ leBytes 16 0

/-- A context image as QUEUE_SET stores it (Table 11.1, R366): clamped to range, fields of the other type zero. vecs is
the LD's vector count. -/
def qctxImage (img : List Byte) (owner vecs : Nat) : Qctx :=
  let b0 := numAt img 0 1
  let cq := decide (b0 % 2 = 1)
  let log2 := clampTo 4 16 (bits (numAt img 6 1) 4 0)
  let cls := bits (numAt img 2 1) 3 0
  let ring := 2 ^ log2 * (if cq then 16 else 64)
  let base := numAt img 8 8 % 2 ^ 46
  { typ := b2n cq, state := 0, stopOnErr := !cq && b0.testBit 4, intEn := cq && b0.testBit 5, owner := owner,
    cls := if cq ∨ cls = 13 ∨ cls = 14 then 0 else cls, key := if cq then 0 else bits (numAt img 3 1) 5 0,
    bucket := if cq then 0 else numAt img 4 2, log2 := log2,
    qdepth := if cq then 0 else clampTo 1 8 (bits (numAt img 7 1) 3 0), base := base - base % ring,
    cq := if cq then 0 else numAt img 16 4 % 2 ^ 20,
    vector := if cq then min (bits (numAt img 20 2) 10 0) (vecs - 1) else 0,
    coalCnt := if cq then min (numAt img 22 2) (2 ^ log2 - 1) else 0, coalTime := if cq then numAt img 24 2 else 0,
    head := 0, tail := 0, phase := false, errCause := 0, errIndex := 0, reserved := 0, jobs := 0 }

/-- The LD whose range holds a queue. -/
def State.queueLd (s : State) (q : Nat) : Option (Nat × Nat) := allLds.find? (fun p => s.ldOwnsQueue p.1 p.2 q)

/-- The delivery of a queue's events (R396): the LD whose range holds the queue. -/
def State.queueHeads (s : State) (q : Nat) : List (Nat × Option Nat) :=
  match s.queueLd q with
  | some (h, l) => [(h, some l)]
  | none => []

/-- A queue enters ERROR (R372). -/
def State.queueError (s : State) (q cause index : Nat) : State :=
  let c := s.ctx q
  (((s.setCtx q { c with state := 2, errCause := cause, errIndex := if c.typ = 0 then index else 0 }).wr
      F.SCR_JOB_LASTERR_QUEUE q).wr F.SCR_JOB_LASTERR_CAUSE cause).raise cQueueError (queue := some q)
    (heads := s.queueHeads q)

/-- The ADM entries that a job holds beside those of its moves. -/
def Job.units (j : Job) : Nat := (j.parts.filter (fun p => !p.move)).length + (if j.phase = .fetching then 1 else 0)

/-- The jobs of a queue end without completions (R373, R394): their reservations return. -/
def State.endSilently (s : State) (sel : Job → Bool) : State :=
  let gone := s.job.jobs.filter sel
  let s1 := s.setJob { s.job with jobs := s.job.jobs.filter (fun j => !sel j) }
  let s2 := gone.foldl (fun s j =>
    let q := (s.ctx j.queue).cq
    let c := s.ctx q
    let s3 := s.outSub 18 j.cls j.units
    if c.typ = 1 then s3.setCtx q { c with reserved := c.reserved - 1 } else s3) s1
  s2.wr F.SCR_JOB_STS_INFLIGHT s2.job.jobs.length

/-- Evict down to 16,384 contexts: the least recently used without a job in flight (R367). -/
def JobMgr.fit (j : JobMgr) : JobMgr :=
  if j.cache.length ≤ 16384 then j
  else
    let idle := j.cache.filter (fun e => !j.jobs.any (fun x => decide (x.queue = e.1)))
    match idle.foldl (fun (b : Option (Nat × Nat)) e => match b with
        | some x => if e.2 < x.2 then some e else some x
        | none => some e) none with
    | some e => { j with cache := mdel j.cache e.1 }
    | none => j

/-- An access finds the context in the cache or reads it (R367); the misses of an epoch raise JOB_CACHE_MISS. -/
def State.touchCtx (s : State) (q : Nat) : State :=
  let j := s.job
  let hit := (mget j.cache q).isSome
  let miss0 := if j.missEpoch = s.epoch then j.misses else 0
  let misses := if hit then miss0 else miss0 + 1
  let j1 := { j with cache := mput j.cache q j.clock, clock := j.clock + 1, missEpoch := s.epoch, misses := misses }
  let s1 := s.setJob j1.fit
  if hit then s1.bump F.SCR_JOB_CACHE_HIT
  else
    let s2 := s1.bump F.SCR_JOB_CACHE_MISS
    if misses = s.rd F.SCR_JOB_CFG_CACHE_WARN then s2.raise cJobCacheMiss else s2

/-- An uncorrectable context line is rewritten as the reset image in ERROR with cause 3 (R373, R245). -/
def State.ctxLost (s : State) (q : Nat) : State :=
  if s.job.lostCtx.contains q then
    let s1 := s.endSilently (fun j => decide (j.queue = q))
    let s2 := (s1.setCtx q qctxReset).queueError q 3 0
    let s3 := s2.setJob { s2.job with lostCtx := nerase s2.job.lostCtx q }
    s3.raise cQctxLost (queue := some q) (heads := s.queueHeads q)
  else s

/-- A doorbell write of a value (R374). -/
def State.ring (s : State) (q v : Nat) : State :=
  let s1 := (s.touchCtx q).ctxLost q
  let c := s1.ctx q
  let v := v % c.size
  if c.typ = 0 then s1.setCtx q { c with tail := v }
  else
    let d := fun x => (x + c.size - c.tail % c.size) % c.size
    s1.setCtx q { c with tail := if d v ≤ d c.head then v else c.head }

/-- Every context returns to the reset image (Table 11.8); the jobs in flight end silently. -/
def State.resetQueues (s : State) (sel : Nat → Bool) : State :=
  let s1 := s.endSilently (fun j => sel j.queue)
  let s2 := (s1.job.ctxs.filter (fun e => sel e.1)).foldl (fun s e => s.setCtx e.1 qctxReset) s1
  s2.setJob { s2.job with
    lostCtx := s2.job.lostCtx.filter (fun q => !sel q), cache := s2.job.cache.filter (fun e => !sel e.1),
    coal := s2.job.coal.filter (fun e => !sel e.1), held := s2.job.held.filter (fun e => !sel e.1),
    disabling := s2.job.disabling.filter (fun e => !sel e.1) }

end Sys2Proof.Machine
end

