-- ==== Sys2Proof/Machine/Sleep.lean ====
section
/-!
DEFINITION. Machine/Sleep.lean: power-state entry, wake and self-refresh as shared operations (R223 to R225, R481 to
R488, 06_memory_controllers.md and 15_power_states.md).
-/
namespace Sys2Proof.Machine

/-- Replace AON's data. -/
def State.setAon (s : State) (a : Aon) : State := { s with aon := a }

/-- Replace the entry. -/
def State.setEntry (s : State) (e : Entry) : State := s.setAon { s.aon with entry := e }

/-- Replace the memory controllers. -/
def State.setMem (s : State) (m : Mem) : State := { s with mem := m }

/-- The target and the current state. -/
def State.target (s : State) : Nat := s.rd F.AON_PWR_MODE_TARGET
def State.cur (s : State) : Nat := s.rd F.AON_PWR_MODE_CUR

/-- A wake code wakes a target state (Table 15.3, R486). -/
def State.wakes (s : State) (t code : Nat) : Bool :=
  match code with
  | 1 => decide (t = 1 ∨ t = 2)
  | 2 => decide (t = 1 ∨ t = 2)
  | 3 => decide (1 ≤ t ∧ t ≤ 3) && s.rdb F.AON_PWR_CFG_CRICKET_EN
  | 4 => (decide (t = 2 ∨ t = 3) && s.rdb F.AON_PWR_CFG_WAKEN_EN) || decide (t = 4)
  | 5 => decide (t = 2 ∨ t = 3) && s.rdb F.AON_PWR_CFG_ALARM_EN
  | 6 => decide (1 ≤ t ∧ t ≤ 3)
  | 7 => decide (1 ≤ t ∧ t ≤ 3)
  | 8 => decide (t = 1 ∨ t = 2)
  | _ => false

/-! ## Self-refresh -/

/-- Both STATE fields (0 active, 1 entering, 2 in self-refresh, 3 exiting). -/
def State.nearSr (s : State) : Nat := s.rd F.NTC_SR_STATE
def State.bulkSr (s : State) : Nat := s.rd F.BTC_SR_STATE

/-- Self-refresh entry begins (Table 6.5 step 1): kind 1 for P2, 2 for P3, 3 for a warm reset. -/
def State.srBegin (s : State) (kind : Nat) : State :=
  let s1 := s.setMem { s.mem with entry := kind, bulkIn := false, nearIn := false }
  let s2 := if s.bulkSr = 2 then s1 else s1.wr F.BTC_SR_STATE 1
  if kind = 2 ∨ s.nearSr = 2 then s2 else s2.wr F.NTC_SR_STATE 1

/-- A tier in self-refresh starts its exit. -/
def State.srExit (s : State) (t : Tier) : State :=
  match t with
  | .near => if s.nearSr = 2 then s.wr F.NTC_SR_STATE 3 else s
  | .bulk => if s.bulkSr = 2 ∨ (s.mem.bulkIn ∧ s.bulkSr = 1) then s.wr F.BTC_SR_STATE 3 else s

/-- A controller abandons its entry before its own commit point (Table 6.6). -/
def State.srAbort (s : State) (t : Tier) : State :=
  match t with
  | .near => if s.nearSr = 1 ∧ !s.mem.nearIn then (s.wr F.NTC_SR_STATE 0).bump F.NTC_SR_ABORTS else s
  | .bulk => if s.bulkSr = 1 ∧ !s.mem.bulkIn then (s.wr F.BTC_SR_STATE 0).bump F.BTC_SR_ABORTS else s

/-- The entry is over once neither tier is entering or in self-refresh. -/
def State.srSettle (s : State) : State :=
  if s.nearSr = 0 ∧ s.bulkSr = 0 then s.setMem { s.mem with entry := 0, bulkIn := false, nearIn := false } else s

/-- A tier finishes its exit (R225). -/
def State.srDone (s : State) (t : Tier) : State :=
  match t with
  | .near => if s.nearSr = 3 then (s.wr F.NTC_SR_STATE 0).srSettle else s
  | .bulk => if s.bulkSr = 3 then (s.wr F.BTC_SR_STATE 0).srSettle else s

/-! ## Entry -/

/-- Held doorbells take effect (Table 11.8, an aborted P3 entry). -/
def State.ringHeld (s : State) : State :=
  s.job.held.foldl (fun s e => s.ring e.1 e.2) (s.setJob { s.job with held := [] })

/-- An entry ends before completion (R484, R485): the unit stays in P0. byRequest tells that a request under Table 6.6
ended it; a P2 entry so ended is attempted again while attempts are left, and abandoned after the last. -/
def State.endEntry (s : State) (byRequest : Bool) : State :=
  let e := s.aon.entry
  let p2 := decide (s.target = 2)
  let again := p2 && byRequest && decide (e.attempts ≤ s.rd F.AON_PWR_CFG_RETRY_MAX)
  let gone := p2 && byRequest && !again
  let s1 := ((s.srAbort .bulk).srAbort .near).srExit .bulk
  let s2 := ((s1.wr F.AON_PWR_MODE_ARM 0).wr F.AON_PWR_MODE_PHASE 0).bump F.AON_PWR_CNT_ABORTS
  let s3 := (s2.wr F.AON_PWR_STS_OUTCOME (if gone then 3 else 2)).raise cAborted
  let s4 := if gone then s3.raise cAbandoned else s3
  let s5 := (s4.setAon { s4.aon with time := { s4.aon.time with saved := none } }).wr F.SCR_MOV_STS_FLUSH 0
  let s6 := s5.setEntry { stage := 0, wakes := [], attempts := if again then e.attempts else 0, retry := again }
  s6.ringHeld.srSettle

/-- The exit from P3 begins (Table 15.6 steps 1 and 2): AON raises every supply enable. -/
def State.leaveP3 (s : State) : State :=
  let s1 := (s.wr F.AON_PWR_MODE_PHASE 3).setEntry { s.aon.entry with stage := 5, wakes := [] }
  -- the PMICs are on again (Table 6.8 step 5)
  let s2 := (List.range 32).foldl (fun s d => s.wrI F.BTC_DIMM_PMIC_OFF d 0) s1
  (s2.setAon { s2.aon with groups := 4, passed := 1023 }).emit (.enables (List.replicate 8 true))

/-- Leaving a resident state (R484): LAST_WAKE is written and the exit begins. -/
def State.beginExit (s : State) (code : Nat) : State :=
  let s0 := s.wr F.AON_PWR_STS_LAST_WAKE code
  if s.cur = 3 then s0.leaveP3
  else
    let s1 := (s0.wr F.AON_PWR_MODE_PHASE 3).setEntry { s.aon.entry with stage := 5, wakes := [] }
    if s.cur = 2 then (s1.srExit .bulk).srExit .near else s1

/-- AON latches a wake event (R484). -/
def State.wake (s : State) (code : Nat) : State :=
  let e := s.aon.entry
  if s.wakes s.target code then
    if e.stage = 2 then (s.wr F.AON_PWR_STS_LAST_WAKE code).endEntry false
    else if e.stage = 3 then (s.wr F.AON_PWR_STS_LAST_WAKE code).setEntry { e with wakes := e.wakes ++ [code] }
    else if e.stage = 4 then s.beginExit code
    else s
  else s

/-- The exit from P1 is complete (R487). -/
def State.exitP1 (s : State) : State :=
  ((s.wr F.AON_PWR_MODE_CUR 0).wr F.AON_PWR_MODE_PHASE 0).setEntry Entry.none |>.raise cWake

/-- Something reaches the unit from a host or the chain: it wakes P1 at once (within 2 µs) and P2 (R487). -/
def State.rouse (s : State) (code : Nat) : State :=
  if s.cur = 1 then
    let s1 := s.wake code
    if s1.aon.entry.stage = 5 then s1.exitP1 else s1
  else if s.cur = 2 ∨ s.aon.entry.stage = 3 then s.wake code
  else s

/-- A happening other than a request wakes the unit (R484): before the commit point it ends an entry under way, and in P1
the unit is back in P0 at once. -/
def State.knock (s : State) (code : Nat) : State :=
  let s1 := s.wake code
  if s1.cur = 1 ∧ s1.aon.entry.stage = 5 then s1.exitP1 else s1

/-- A request reaches a tier's controller (R224, Table 6.6): whether it is served now. -/
def State.reachTier (s : State) (t : Tier) : State × Bool :=
  let st := match t with | .near => s.nearSr | .bulk => s.bulkSr
  if st = 0 ∨ st = 3 ∨ s.mem.entry = 0 then (s, decide (st = 0))
  else if s.mem.entry = 1 then
    if !s.mem.bulkIn then (s.endEntry true, true)
    else if !s.mem.nearIn then
      let s1 := (s.srAbort .near).srExit .bulk
      (s1.endEntry true, decide (t = .near))
    else (((s.srExit .near).srExit .bulk).wake 1, false)
  else (s, decide (st = 0))

/-- Work that brown throttle, P2 entry or P2 residency pauses (R386, R497). -/
def State.paused (s : State) : Bool :=
  s.rdb F.ADM_BROWN_ACTIVE || (decide (s.target = 2) && decide (2 ≤ s.aon.entry.stage))

/-- The data path serves CXL.mem: memory active, not held in reset, no integrity halt, not in P3 or P4. -/
def State.serving (s : State) : Bool :=
  s.rdb F.CTL_HEALTH_MEM_ACTIVE && !s.inReset && !s.aon.quiescing && decide (s.cry.halt = 0) && decide (s.cur < 3)

end Sys2Proof.Machine
end

