-- ==== Sys2Proof/Machine/Reply.lean ====
section
/-!
DEFINITION. Machine/Reply.lean: the form of a mailbox command (R297 to R300, Tables 8.5 and 8.6): return codes of the
mailbox, result codes, permissions, background commands. The CXL return codes and opcodes are the CXL specification's
(log entry 15).
-/
namespace Sys2Proof.Machine

/-- CXL return codes. -/
def rcSuccess : Nat := 0
def rcBackground : Nat := 1
def rcInvalidInput : Nat := 2
def rcUnsupported : Nat := 3
def rcBusy : Nat := 6
def rcFwOrder : Nat := 9
def rcFwAuth : Nat := 10
def rcInvalidSlot : Nat := 11
def rcInvalidHandle : Nat := 14
def rcInvalidAddress : Nat := 15

/-- The answer of an Avsar command's own part: OK with the new state and the output, or a result code with its
DETAIL, with the state that an event raised by the refusal leaves (R140). -/
inductive Ans where
  | ok (s : State) (out : List Byte)
  | err (arc detail : Nat)
  | raised (s : State) (arc detail : Nat)

/-- The LD a mailbox command counts for; none for the sideband. -/
def srcLd : MboxSrc → Option (Nat × Nat)
  | .ld h l => some (h, l)
  | .sideband => none
  | .session h l _ => some (h, l)

/-- A permission of the issuer: the sideband holds every permission (R292). -/
def State.srcHas (s : State) (src : MboxSrc) (f : Fld) : Bool :=
  match srcLd src with
  | some (h, l) => s.rdb f (hl h l)
  | none => true

/-- The mailbox takes commands: firmware runs, the LD's port is up; in recovery the primary mailbox serves its three
commands only (R450). -/
def State.mboxUp (s : State) (src : MboxSrc) : Bool :=
  !s.inReset && !s.aon.quiescing && decide (s.cry.halt = 0) && decide (s.cur < 3) && decide (s.rd F.CTL_HEALTH_STATE = 2 ∨ s.rd F.CTL_HEALTH_STATE = 3) &&
    (match srcLd src with
     | some (h, l) => s.headUp h && decide (l < s.ldCount h)
     | none => decide (s.cur < 2)) &&
    (match src with
     | .session h l sid => s.ctl.sessions.any (fun x => decide (x.h = h ∧ x.l = l ∧ x.sid = sid))
     | _ => true)

/-- The mailbox of a source has a command running: a background command (R297), or a QUEUE_DISABLE that waits for its
jobs (R371). -/
def State.mboxBusy (s : State) (src : MboxSrc) : Bool :=
  s.ctl.background.any (fun b => decide (b.src = src)) || s.job.disabling.any (fun e => decide (e.2 = src))

/-- A mailbox completes a command; an LD's mailbox sends its interrupt (R296), the sideband's and a session none (R553). -/
def State.reply (s : State) (src : MboxSrc) (opcode rc : Nat) (out : List Byte) : State :=
  let s1 := s.emit (.mbox src opcode rc out)
  match src with
  | .ld h l => s1.msix h l (s1.rd F.HLX_HEAD_VEC_MBOX_VEC (hl h l))
  | _ => s1

/-- The unit is in recovery. -/
def State.recovery (s : State) : Bool := decide (s.rd F.CTL_HEALTH_STATE = 4)

/-- The primary mailbox that the ROM serves (R450). -/
def State.romMailbox (s : State) (h l : Nat) : Bool :=
  s.recovery && !s.inReset && !s.aon.quiescing && s.headUp h && decide (l = 0)

/-- A command that nobody serves: the ROM's mailbox completes one that is none of its three with Unsupported (R299, R450:
log entry 124), another mailbox is not there. -/
def State.unserved (s : State) (src : MboxSrc) (opcode : Nat) : State :=
  match src with
  | .ld h l => if s.romMailbox h l then s.reply src opcode rcUnsupported [] else s
  | _ => s

/-- The result header (R299). -/
def resultHeader (arc detail : Nat) : List Byte := leBytes 2 arc ++ leBytes 2 detail

/-- The permission a command needs: none, its own queue range or the LD's mask (checked by the command), or one of
the permission bits; DETAIL of DENIED is the number of the (first) bit. -/
inductive Need where
  | free
  | perm (bit : Nat)
  | fmOrDiag
  deriving DecidableEq, Repr

/-- The permission field of a bit. -/
def permField (bit : Nat) : Fld :=
  if bit = 0 then F.HLX_HEAD_PERM_FM else if bit = 1 then F.HLX_HEAD_PERM_KEYLOAD
  else if bit = 2 then F.HLX_HEAD_PERM_DIAG else F.HLX_HEAD_PERM_PERF_USER

/-- The bit lacking, if any. -/
def State.lacks (s : State) (src : MboxSrc) : Need → Option Nat
  | .free => none
  | .perm b => if s.srcHas src (permField b) then none else some b
  | .fmOrDiag => if s.srcHas src F.HLX_HEAD_PERM_FM || s.srcHas src F.HLX_HEAD_PERM_DIAG then none else some 0

/-- An Avsar command through a mailbox or a session (R299): a busy mailbox, the input length, the permission, then the
command's own checks and effect. The state after any result other than OK is the state before. -/
def State.avsar (s : State) (src : MboxSrc) (opcode len : Nat) (need : Need) (input : List Byte)
    (f : State → Ans) : State :=
  let s := s.knock 1
  if !s.mboxUp src then s.unserved src opcode
  else if s.mboxBusy src then s.reply src opcode rcBusy []
  else if input.length ≠ len then s.reply src opcode rcInvalidInput []
  else match s.lacks src need with
    | some b => s.reply src opcode rcSuccess (resultHeader 1 b)
    | none => match f s with
      | .ok s1 out => s1.reply src opcode rcSuccess (resultHeader 0 0 ++ out)
      | .err arc detail => s.reply src opcode rcSuccess (resultHeader arc detail)
      | .raised s1 arc detail => s1.reply src opcode rcSuccess (resultHeader arc detail)

/-- A background command is accepted: the mailbox answers that it has started. -/
def State.background (s : State) (src : MboxSrc) (opcode len : Nat) (need : Need) (input : List Byte) (arg : Nat)
    (f : State → Ans) : State :=
  let s := s.knock 1
  if !s.mboxUp src then s.unserved src opcode
  else if s.mboxBusy src then s.reply src opcode rcBusy []
  else if input.length ≠ len then s.reply src opcode rcInvalidInput []
  else match s.lacks src need with
    | some b => s.reply src opcode rcSuccess (resultHeader 1 b)
    | none => match f s with
      | .ok s1 _ =>
        ({ s1 with ctl := { s1.ctl with background := s1.ctl.background ++ [BgOp.mk src opcode arg] } }).reply src opcode
          rcBackground []
      | .err arc detail => s.reply src opcode rcSuccess (resultHeader arc detail)
      | .raised s1 arc detail => s1.reply src opcode rcSuccess (resultHeader arc detail)

/-- The background commands of an opcode on an item complete. -/
def State.bgDone (s : State) (opcode arg rc : Nat) (out : List Byte) : State :=
  let mine := s.ctl.background.filter (fun b => decide (b.opcode = opcode ∧ b.arg = arg))
  let s1 := { s with ctl := { s.ctl with
    background := s.ctl.background.filter (fun b => !decide (b.opcode = opcode ∧ b.arg = arg)) } }
  mine.foldl (fun s b => s.reply b.src opcode rc out) s1

/-- An Avsar background command runs (R481 step 4). -/
def State.avsarRunning (s : State) : Bool := s.ctl.background.any (fun b => decide (0xc000 ≤ b.opcode))

/-- A region slot is held by a running background command (R298): REGION_DELETE or REKEY_REGION of it. -/
def State.slotHeld (s : State) (slot : Nat) : Bool :=
  s.ctl.background.any (fun b => decide ((b.opcode = 0xc002 ∨ b.opcode = 0xc014) ∧ b.arg = slot))

/-- A rank set is held by a running EVACUATE_SET. -/
def State.setHeld (s : State) (r : Nat) : Bool :=
  s.ctl.background.any (fun b => decide (b.opcode = 0xc032 ∧ b.arg = r))

/-- The first byte offset among a range that is not zero (reserved bytes, R300). -/
def reservedAt (input : List Byte) (a n : Nat) : Option Nat :=
  ((List.range n).map (a + ·)).find? (fun i => decide (input.getD i 0 ≠ 0))

/-- A command of the CXL specification through an LD's primary mailbox. -/
def State.cxlCommand (s : State) (h l opcode : Nat) (f : State → State × Nat × List Byte) : State :=
  let s := s.knock 1
  if !s.mboxUp (.ld h l) then s.unserved (.ld h l) opcode
  else if s.mboxBusy (.ld h l) then s.reply (.ld h l) opcode rcBusy []
  else
    let r := f s
    r.1.reply (.ld h l) opcode r.2.1 r.2.2

end Sys2Proof.Machine
end

