-- ==== Sys2Proof/Machine/Codec.lean ====
section
/-!
DEFINITION. Machine/Codec.lean: CRC-32C, the Veliskes Tile Format and the formats of a tile (03_tile_codec.md, R97 to
R124). Decoding is defined whole by the spec; the encoder's choices are Config.encode, checked by the decoder (R124).
-/
namespace Sys2Proof.Machine

/-! ## CRC-32C (R98, Table 3.2) -/

/-- One bit of the reflected division. -/
def crc32cBit (c : BitVec 32) : BitVec 32 :=
  if c.getLsbD 0 then (c >>> 1) ^^^ 0x82F63B78#32 else c >>> 1

/-- One byte. -/
def crc32cByte (c : BitVec 32) (b : Byte) : BitVec 32 := times 8 crc32cBit (c ^^^ b.setWidth 32)

/-- CRC-32C of a byte string. -/
def crc32c (bs : List Byte) : BitVec 32 := bs.foldl crc32cByte 0xFFFFFFFF#32 ^^^ 0xFFFFFFFF#32

/-! ## Item streams (R99 to R101) -/

/-- The decoder between items: input left, flag bits left and how many, output so far (newest first), bytes of this
block or tile. -/
structure Items where
  inp : List Byte
  flags : Nat
  left : Nat
  out : List Byte
  n : Nat
  deriving DecidableEq, Repr

/-- Copy n bytes from d bytes behind the position, one at a time (R101). -/
def copyBack : Nat → Nat → List Byte → List Byte
  | 0, _, out => out
  | n + 1, d, out => copyBack n d (out.getD (d - 1) 0 :: out)

/-- Take a match: its offset and length, and the input after it (R100); none when the input ends within it. -/
def takeMatch (stream : Bool) (inp : List Byte) : Option (Nat × Nat × List Byte) :=
  match inp with
  | b0 :: b1 :: rest =>
    let code := b1.toNat / 16
    let off := (b1.toNat % 16) * 256 + b0.toNat + 1
    let long := stream && decide (off = 4096)
    match long, rest with
    | true, c0 :: c1 :: rest =>
      let off2 := c1.toNat * 256 + c0.toNat + 1
      if code < 15 then some (off2, code + 3, rest)
      else match rest with
        | e :: rest => some (off2, 18 + e.toNat, rest)
        | [] => none
    | true, _ => none
    | false, rest =>
      if code < 15 then some (off, code + 3, rest)
      else match rest with
        | e :: rest => some (off, 18 + e.toNat, rest)
        | [] => none
  | _ => none

/-- The framing's end condition: a tile ends at its 4,096th byte, an LZ block when its input is consumed. -/
def itemsEnd (stream : Bool) (limit : Nat) (d : Items) : Bool :=
  if stream then d.inp.isEmpty else decide (d.n = limit)

/-- What must hold at the end (R104, R108): the flag bits after the last item are 0, the last flag byte leads an item,
and a tile has consumed its body. 5 is the CDC_JOB_ERR cause of a breach. -/
def itemsClose (stream : Bool) (d : Items) : Except Nat (List Byte) :=
  if d.flags ≠ 0 ∨ (stream ∧ d.left = 8) ∨ (!stream ∧ !d.inp.isEmpty) then .error 5 else .ok d.out

/-- Decode an item stream (the pseudocode of R101). win is how far before the block a match may reach (R104, R109);
an error is the cause code of CDC_JOB_ERR. -/
def decodeItems (stream : Bool) (limit win : Nat) : Nat → Items → Except Nat (List Byte)
  | 0, _ => .error 5
  | fuel + 1, d =>
    if itemsEnd stream limit d then itemsClose stream d
    else if d.left = 0 then
      match d.inp with
      | [] => .error 5
      | f :: rest => decodeItems stream limit win fuel { d with inp := rest, flags := f.toNat, left := 8 }
    else if d.flags % 2 = 0 then
      match d.inp with
      | [] => .error 5
      | b :: rest =>
        if d.n + 1 > limit then .error 4
        else decodeItems stream limit win fuel
          { inp := rest, flags := d.flags / 2, left := d.left - 1, out := b :: d.out, n := d.n + 1 }
    else
      match takeMatch stream d.inp with
      | none => .error 5
      | some (off, len, rest) =>
        if off > d.n + win then .error 3
        else if d.n + len > limit then .error 4
        else decodeItems stream limit win fuel
          { inp := rest, flags := d.flags / 2, left := d.left - 1, out := copyBack len off d.out, n := d.n + len }

/-! ## Tile framing (R102 to R105) -/

/-- Decode the LZ tile record in the stored sectors (R102 to R104); an error is the cause of the malformation. A KIND other
than LZ, for which R112 names no cause, is taken as cause 1 (log entry 129). -/
def decodeTile (rec : List Byte) : Except Nat (List Byte) :=
  let h := numAt rec 0 4
  let blen := bits h 16 4
  if bits h 3 2 ≠ 1 ∨ bits h 31 17 ≠ 0 ∨ bits h 1 0 ≠ 1 then .error 1
  else if blen = 0 ∨ 3772 < blen ∨ rec.length < 4 + blen then .error 2
  else
    match decodeItems false 4096 0 (2 * blen + 8)
        { inp := (rec.drop 4).take blen, flags := 0, left := 0, out := [], n := 0 } with
    | .ok out => .ok out.reverse
    | .error e => .error e

/-- The record of an LZ body, padded with zeros to whole sectors (R105). -/
def tileRecord (body : List Byte) : List Byte :=
  let rec0 := leBytes 4 (1 + 4 + 16 * body.length) ++ body
  rec0 ++ List.replicate (64 * ceilDiv rec0.length 64 - rec0.length) 0

/-- A tile whose bytes repeat with period 8. -/
def isPattern (t : List Byte) : Bool :=
  decide (t = ((List.replicate 512 (t.take 8)).flatten))

/-- What inline compression makes of a tile (R115, R124, R125): format, sectors and stored bytes before encryption.
forceRaw is the level 0 behaviour of a partly poisoned tile (R239), or a codec with no pipe left (R129). -/
def compressTile (level : Nat) (forceRaw noPipe : Bool) (t : List Byte) : Fmt × Nat × List Byte :=
  if forceRaw then (.raw, 64, t)
  else if t.all (fun b => decide (b = 0)) then (.zero, 0, [])
  else if isPattern t then (.pattern, 0, t.take 8)
  else if level = 0 ∨ noPipe then (.raw, 64, t)
  else
    let r := tileRecord (Config.encode true level t)
    let n := r.length / 64
    if n ≤ 59 ∧ decodeTile r = .ok t then (.lz, n, r) else (.raw, 64, t)

/-! ## Stream framing (R106 to R112, R120, R121) -/

/-- The payload of one block, decoded: hist is the output so far, newest first. -/
def blockOutput (type clen : Nat) (indep : Bool) (payload hist : List Byte) : Except Nat (List Byte) :=
  if type = 0 then .ok payload
  else if type = 2 then .ok (List.replicate clen 0)
  else
    match decodeItems true 65536 (if indep then 0 else min 65536 hist.length) (2 * clen + 8)
        { inp := payload, flags := 0, left := 0, out := if indep then [] else hist, n := 0 } with
    | .ok out =>
      let made := if indep then out.reverse else (out.take (out.length - hist.length)).reverse
      if made.isEmpty then .error 2 else .ok made
    | .error e => .error e

/-- What stands at the head of a stream's bytes (R106 to R109, R112): a whole block with its length and INDEP, END, a
malformation by its cause, or less than a block (with what is missing to be cause 7 when the source ends there). -/
inductive Head where
  | block (len : Nat) (indep : Bool)
  | fin
  | bad (cause : Nat)
  | short
  deriving DecidableEq, Repr

/-- The head of a stream. -/
def headOf (src : List Byte) : Head :=
  if src.length < 4 then .short
  else
    let h := numAt src 0 4
    let clen := bits h 16 0
    let type := bits h 18 17
    if bits h 23 20 ≠ 1 ∨ bits h 31 24 ≠ 0 then .bad 1
    else if type = 3 then (if clen = 0 then .fin else .bad 2)
    else if clen = 0 ∨ ((type = 0 ∨ type = 2) ∧ 65536 < clen) then .bad 2
    else
      let len := 8 + (if type = 2 then 0 else clen)
      if src.length < len then .short else .block len (h.testBit 19)

/-- A whole block decoded and its trailing CRC checked (R112, R121): the bytes it stands for, or the cause of its
malformation; hist is the output before it, newest first. -/
def decodeBlock (blk hist : List Byte) : Except Nat (List Byte) :=
  let h := numAt blk 0 4
  let clen := bits h 16 0
  let plen := blk.length - 8
  match blockOutput (bits h 18 17) clen (h.testBit 19) ((blk.drop 4).take plen) hist with
  | .error e => .error e
  | .ok made => if crc32c made ≠ BitVec.ofNat 32 (numAt blk (4 + plen) 4) then .error 6 else .ok made

/-- The block that holds a source block in a given type (R110). -/
def blockOf (type : Nat) (payload blk : List Byte) : List Byte :=
  leBytes 4 ((if type = 2 then blk.length else payload.length) + 2 ^ 17 * type + 2 ^ 19 + 2 ^ 20) ++ payload ++
    leBytes 4 (crc32c blk).toNat

/-- The STORED block of a source block. -/
def storedBlock (blk : List Byte) : List Byte := blockOf 0 blk blk

/-- One block that the device emits for a source block (R110, R124): ZERO; LZ when shorter and verified, at no level but
0 (Table 3.8); else STORED. -/
def encodeBlock (level : Nat) (blk : List Byte) : List Byte :=
  let lz := Config.encode false level blk
  if blk.all (fun b => decide (b = 0)) then blockOf 2 [] blk
  else if level ≠ 0 ∧ lz.length < blk.length ∧ blockOutput 1 lz.length true lz [] = .ok blk then blockOf 1 lz blk
  else storedBlock blk

/-- The verifier of a pipe runs on a block (R124): one that the pipe encodes as an LZ block. -/
def verifies (level : Nat) (blk : List Byte) : Bool := decide (level ≠ 0) && !blk.all (fun b => decide (b = 0))

/-- The END block. -/
def endBlock : List Byte := leBytes 4 (2 ^ 17 * 3 + 2 ^ 19 + 2 ^ 20)

/-- How a COMPRESS job of S source bytes and D bytes of space stands once it has emitted E bytes (R120): the status that ends
it, if one does; more tells that output remains. -/
def compressEnd (d size e : Nat) (more : Bool) : Option (Nat × Nat) :=
  if d < size ∧ (d < e ∨ (d = e ∧ more)) then some (2, 0)
  else if size ≠ 0 ∧ size ≤ e then some (1, 0)
  else if size = 0 ∧ d < e then some (2, 0)
  else none

end Sys2Proof.Machine
end

