-- ==== Sys2Proof/Machine/Crypto.lean ====
section
/-!
DEFINITION. Machine/Crypto.lean: the standards that 04_crypto.md and 13_control_cluster_and_boot.md cite and do not
restate: AES-256 (FIPS 197), CMAC (SP 800-38B), counter-mode key derivation (SP 800-108), GCM (SP 800-38D), XTS (IEEE
1619), KW unwrapping (SP 800-38F), SHA-384 (FIPS 180-4) and ECDSA P-384 verification (FIPS 186-4). PRESUMED: the
standards' content comes from outside the spec (log entry 8).
-/
namespace Sys2Proof.Machine

/-! ## AES-256 -/

/-- Multiplication by x in GF(2^8). -/
def xtime (a : Byte) : Byte := if a.getLsbD 7 then (a <<< 1) ^^^ 0x1b#8 else a <<< 1

/-- Multiplication in GF(2^8). -/
def gmul (a b : Byte) : Byte :=
  ((List.range 8).foldl (fun (p : Byte × Byte) i => (if b.getLsbD i then p.1 ^^^ p.2 else p.1, xtime p.2)) (0, a)).1

/-- The inverse in GF(2^8): the 254th power. -/
def ginv (a : Byte) : Byte :=
  let a2 := gmul a a
  let a4 := gmul a2 a2
  let a8 := gmul a4 a4
  let a16 := gmul a8 a8
  let a32 := gmul a16 a16
  let a64 := gmul a32 a32
  let a128 := gmul a64 a64
  gmul a128 (gmul a64 (gmul a32 (gmul a16 (gmul a8 (gmul a4 a2)))))

/-- The S-box, computed. -/
def sboxOf (a : Byte) : Byte :=
  let b := ginv a
  b ^^^ b.rotateLeft 1 ^^^ b.rotateLeft 2 ^^^ b.rotateLeft 3 ^^^ b.rotateLeft 4 ^^^ 0x63#8

/-- The S-box as a table. -/
def sboxTab : Array Byte := (Array.range 256).map (fun i => sboxOf (BitVec.ofNat 8 i))

/-- The inverse S-box as a table. -/
def invTab : Array Byte :=
  (Array.range 256).map (fun i =>
    BitVec.ofNat 8 (((List.range 256).find? (fun j => decide (sboxTab.getD j 0 = BitVec.ofNat 8 i))).getD 0))

/-- The S-box. -/
def sbox (b : Byte) : Byte := sboxTab.getD b.toNat 0

/-- The inverse S-box. -/
def invSbox (b : Byte) : Byte := invTab.getD b.toNat 0

/-- Bytewise exclusive or, as long as the shorter. -/
def xorBytes (a b : List Byte) : List Byte := List.zipWith (· ^^^ ·) a b

/-- One more word of the key schedule; ws is newest first. -/
def keyWord (ws : List (List Byte)) (i : Nat) : List (List Byte) :=
  let t := ws.getD 0 []
  let rcon : Byte := times (i / 8 - 1) xtime 1
  let t := if i % 8 = 0 then
      (match (t.drop 1 ++ t.take 1).map sbox with | b :: r => (b ^^^ rcon) :: r | [] => [])
    else if i % 8 = 4 then t.map sbox else t
  xorBytes t (ws.getD 7 []) :: ws

/-- The 15 round keys of a 32-byte key. -/
def roundKeys (key : List Byte) : List (List Byte) :=
  let ws := ((List.range 52).foldl (fun ws i => keyWord ws (i + 8)) ((chunks 4 8 key).reverse)).reverse
  (chunks 4 15 ws).map List.flatten

/-- ShiftRows on a block held column by column. -/
def shiftRows (b : List Byte) : List Byte :=
  (List.range 16).map (fun i => b.getD ((i / 4 + i % 4) % 4 * 4 + i % 4) 0)

/-- The inverse of ShiftRows. -/
def invShiftRows (b : List Byte) : List Byte :=
  (List.range 16).map (fun i => b.getD ((i / 4 + 4 - i % 4) % 4 * 4 + i % 4) 0)

/-- A column times the circulant of four coefficients. -/
def mixCol (m c : List Byte) : List Byte :=
  (List.range 4).map (fun r => (List.range 4).foldl (fun a k =>
    a ^^^ gmul (m.getD ((k + 4 - r) % 4) 0) (c.getD k 0)) 0)

/-- MixColumns with a circulant. -/
def mixCols (m b : List Byte) : List Byte := ((chunks 4 4 b).map (mixCol m)).flatten

/-- AES-256 of one block under expanded keys. -/
def aesBlock (rk : List (List Byte)) (b : List Byte) : List Byte :=
  let s := (List.range 13).foldl (fun s i =>
    xorBytes (mixCols [2, 3, 1, 1] (shiftRows (s.map sbox))) (rk.getD (i + 1) [])) (xorBytes b (rk.getD 0 []))
  xorBytes (shiftRows (s.map sbox)) (rk.getD 14 [])

/-- The inverse cipher of one block. -/
def aesInv (rk : List (List Byte)) (b : List Byte) : List Byte :=
  let s := (List.range 13).foldl (fun s i =>
    mixCols [14, 11, 13, 9] (xorBytes ((invShiftRows s).map invSbox) (rk.getD (13 - i) [])))
    (xorBytes b (rk.getD 14 []))
  xorBytes ((invShiftRows s).map invSbox) (rk.getD 0 [])

/-! ## CMAC and key derivation -/

/-- Doubling in GF(2^128), big-endian (CMAC). -/
def dbl (x : BitVec 128) : BitVec 128 := if x.getLsbD 127 then (x <<< 1) ^^^ 0x87#128 else x <<< 1

/-- A 16-byte block as a big-endian number, and back. -/
def blockNum (b : List Byte) : BitVec 128 := BitVec.ofNat 128 (beNat b)
def numBlock (v : BitVec 128) : List Byte := beBytes 16 v.toNat

/-- CMAC-AES-256 of a message. -/
def cmac (key msg : List Byte) : List Byte :=
  let rk := roundKeys key
  let k1 := dbl (blockNum (aesBlock rk (List.replicate 16 0)))
  let k2 := dbl k1
  let n := max 1 (ceilDiv msg.length 16)
  let last := msg.drop (16 * (n - 1))
  let lastB := if last.length = 16 then xorBytes last (numBlock k1)
    else xorBytes (last ++ [0x80#8] ++ List.replicate (15 - last.length) 0) (numBlock k2)
  let c := (chunks 16 (n - 1) msg).foldl (fun c b => aesBlock rk (xorBytes c b)) (List.replicate 16 0)
  aesBlock rk (xorBytes c lastB)

/-- The derivation input M(i) of Table 4.2: label, slot byte, mode byte, key index byte, generation, L. -/
def kdfInput (i : Nat) (label : List Byte) (slot mode index gen len : Nat) : List Byte :=
  beBytes 4 i ++ label ++ [0#8, BitVec.ofNat 8 slot, BitVec.ofNat 8 mode, BitVec.ofNat 8 index, 0#8] ++
    leBytes 4 gen ++ beBytes 4 len

/-- A derived key of len bits (R137). -/
def deriveKey (kdk label : List Byte) (slot mode index gen len : Nat) : List Byte :=
  (((List.range (len / 128)).map (fun i => cmac kdk (kdfInput (i + 1) label slot mode index gen len))).flatten).take
    (len / 8)

/-- The labels of Table 4.3. -/
def labelBulk : List Byte := [0x56, 0x4b, 0x42, 0x31]
def labelNear : List Byte := [0x56, 0x4b, 0x4e, 0x31]
def labelMap : List Byte := [0x56, 0x4b, 0x4d, 0x31]
def labelReserve : List Byte := [0x56, 0x4b, 0x52, 0x31]

/-! ## GCM -/

/-- Multiplication in the GCM field (bit 0 is the most significant). -/
def ghMul (x y : BitVec 128) : BitVec 128 :=
  ((List.range 128).foldl (fun (p : BitVec 128 × BitVec 128) i =>
    (if x.getLsbD (127 - i) then p.1 ^^^ p.2 else p.1,
     if p.2.getLsbD 0 then (p.2 >>> 1) ^^^ (0xe1#128 <<< 120) else p.2 >>> 1)) (0, y)).1

/-- GHASH over whole blocks. -/
def ghash (h : BitVec 128) (bs : List Byte) : BitVec 128 :=
  (chunks 16 (bs.length / 16) bs).foldl (fun y b => ghMul (y ^^^ blockNum b) h) 0

/-- Zero padding to whole blocks. -/
def pad16 (bs : List Byte) : List Byte := bs ++ List.replicate ((16 - bs.length % 16) % 16) 0

/-- The keystream of counter blocks from a first counter value on, n blocks. -/
def ctrStream (rk : List (List Byte)) (iv : List Byte) (first n : Nat) : List Byte :=
  ((List.range n).map (fun i => aesBlock rk (iv ++ beBytes 4 (first + i)))).flatten

/-- GCM encryption or decryption of data (the same keystream), R143. -/
def gcmCrypt (key iv data : List Byte) : List Byte :=
  xorBytes data (ctrStream (roundKeys key) iv 2 (ceilDiv data.length 16))

/-- The GCM tag over ciphertext and additional data; TAG keeps its first 8 bytes. -/
def gcmTag (key iv aad ct : List Byte) : List Byte :=
  let rk := roundKeys key
  let h := blockNum (aesBlock rk (List.replicate 16 0))
  let s := ghash h (pad16 aad ++ pad16 ct ++ beBytes 8 (8 * aad.length) ++ beBytes 8 (8 * ct.length))
  xorBytes (numBlock s) (aesBlock rk (iv ++ beBytes 4 1))

/-! ## XTS -/

/-- Doubling of a tweak, little-endian (XTS). -/
def xtsNext (t : Nat) : Nat := if t.testBit 127 then ((2 * t) % 2 ^ 128) ^^^ 0x87 else 2 * t

/-- AES-256-XTS of one data unit of whole blocks: 64-byte key, data-unit number (R145). -/
def xtsEncrypt (key : List Byte) (unit : Nat) (data : List Byte) : List Byte :=
  let rk1 := roundKeys (key.take 32)
  let t0 := leNat (aesBlock (roundKeys (key.drop 32)) (leBytes 16 unit))
  ((chunks 16 (data.length / 16) data).foldl (fun (p : List Byte × Nat) b =>
    (p.1 ++ xorBytes (aesBlock rk1 (xorBytes b (leBytes 16 p.2))) (leBytes 16 p.2), xtsNext p.2)) ([], t0)).1

/-! ## KW -/

/-- Unwrap a blob of n + 1 words of 8 bytes (SP 800-38F, KW): none when the ICV check fails (R155, R156). -/
def kwUnwrap (kek blob : List Byte) : Option (List Byte) :=
  let rk := roundKeys kek
  let n := blob.length / 8 - 1
  let step (p : List Byte × List (List Byte)) (t : Nat) : List Byte × List (List Byte) :=
    let i := (t - 1) % n
    let b := aesInv rk (xorBytes p.1 (beBytes 8 t) ++ p.2.getD i [])
    (b.take 8, p.2.set i (b.drop 8))
  let r := (List.range (6 * n)).foldl (fun p k => step p (6 * n - k)) (blob.take 8, chunks 8 n (blob.drop 8))
  if r.1 = List.replicate 8 0xa6#8 then some r.2.flatten else none

/-! ## SHA-384 -/

/-- The primes below a bound, by trial division. -/
def primesBelow (n : Nat) : List Nat :=
  (List.range n).filter (fun p => decide (2 ≤ p) && (List.range p).all (fun d => decide (d < 2) || decide (p % d ≠ 0)))

/-- The greatest r below 2^bits with r^e at most v, found bit by bit from the top. -/
def rootUpTo (e v : Nat) : Nat → Nat → Nat
  | 0, r => r
  | bits + 1, r => rootUpTo e v bits (if (r + 2 ^ bits) ^ e ≤ v then r + 2 ^ bits else r)

/-- The first 64 bits of the fraction of the e-th root of a prime: FIPS 180-4 takes its constants so. -/
def rootFraction (e p : Nat) : BitVec 64 := BitVec.ofNat 64 (rootUpTo e (p * 2 ^ (64 * e)) 72 0)

/-- The round constants: the cube roots of the first 80 primes. -/
def shaK : List (BitVec 64) := (primesBelow 410).map (rootFraction 3)

/-- The initial hash of SHA-384: the square roots of the ninth to sixteenth primes. -/
def shaIV : List (BitVec 64) := ((primesBelow 54).drop 8).map (rootFraction 2)

/-- One more word of the message schedule; ws is newest first. -/
def shaWord (ws : List (BitVec 64)) : List (BitVec 64) :=
  let a := ws.getD 14 0
  let b := ws.getD 1 0
  let s0 := a.rotateRight 1 ^^^ a.rotateRight 8 ^^^ (a >>> 7)
  let s1 := b.rotateRight 19 ^^^ b.rotateRight 61 ^^^ (b >>> 6)
  (ws.getD 15 0 + s0 + ws.getD 6 0 + s1) :: ws

/-- One round on the eight working words. -/
def shaRound (v : List (BitVec 64)) (kw : BitVec 64) : List (BitVec 64) :=
  match v with
  | [a, b, c, d, e, f, g, h] =>
    let t1 := h + (e.rotateRight 14 ^^^ e.rotateRight 18 ^^^ e.rotateRight 41) + ((e &&& f) ^^^ (~~~e &&& g)) + kw
    let t2 := (a.rotateRight 28 ^^^ a.rotateRight 34 ^^^ a.rotateRight 39) + ((a &&& b) ^^^ (a &&& c) ^^^ (b &&& c))
    [t1 + t2, a, b, c, d + t1, e, f, g]
  | _ => v

/-- One 128-byte block. -/
def shaBlock (h : List (BitVec 64)) (b : List Byte) : List (BitVec 64) :=
  let w0 := ((chunks 8 16 b).map (fun x => BitVec.ofNat 64 (beNat x))).reverse
  let ws := (times 64 shaWord w0).reverse
  List.zipWith (· + ·) h ((List.zipWith (· + ·) shaK ws).foldl shaRound h)

/-- SHA-384 of a byte string. -/
def sha384 (bs : List Byte) : BitVec 384 :=
  let padded := bs ++ [0x80#8] ++ List.replicate ((111 + 128 - bs.length % 128) % 128) 0 ++ beBytes 16 (8 * bs.length)
  let h := (chunks 128 (padded.length / 128) padded).foldl shaBlock shaIV
  BitVec.ofNat 384 ((h.take 6).foldl (fun n w => n * 2 ^ 64 + w.toNat) 0)

/-! ## ECDSA P-384 -/

/-- The field prime, the order, the coefficient b and the base point. -/
def p384 : Nat := 2 ^ 384 - 2 ^ 128 - 2 ^ 96 + 2 ^ 32 - 1
def n384 : Nat :=
  0xffffffffffffffffffffffffffffffffffffffffffffffffc7634d81f4372ddf581a0db248b0a77aecec196accc52973
def b384 : Nat :=
  0xb3312fa7e23ee7e4988e056be3f82d19181d9c6efe8141120314088f5013875ac656398d8a2ed19d2a85c8edd3ec2aef
def gx384 : Nat :=
  0xaa87ca22be8b05378eb1c71ef320ad746e1d3b628ba79b9859f741e082542a385502f25dbf55296c3a545e3872760ab7
def gy384 : Nat :=
  0x3617de4a96262c6f5d9e98bf9292dc29f8f41dbd289a147ce9da3113b5f0b8c00a60b1ce1d7e819d7a431d7c90ea0e5f

/-- b to the e modulo m, over the e's 384 low bits. -/
def powMod (b e m : Nat) : Nat :=
  ((List.range 384).foldl (fun (p : Nat × Nat) i =>
    (if e.testBit i then p.1 * p.2 % m else p.1, p.2 * p.2 % m)) (1, b % m)).1

/-- A point in Jacobian coordinates; z = 0 is the point at infinity. -/
abbrev JPoint := Nat × Nat × Nat

/-- Subtraction modulo the field prime. -/
def fsub (a b : Nat) : Nat := (a + (p384 - b % p384)) % p384

/-- Doubling. -/
def jdbl (q : JPoint) : JPoint :=
  let (x, y, z) := q
  let d := z * z % p384
  let g := y * y % p384
  let bt := x * g % p384
  let al := 3 * (fsub x d) * (x + d) % p384
  let x3 := fsub (al * al) (8 * bt)
  let z3 := fsub (fsub ((y + z) * (y + z)) g) d
  (x3, fsub (al * fsub (4 * bt) x3) (8 * g * g), z3)

/-- Addition. -/
def jadd (a b : JPoint) : JPoint :=
  let (x1, y1, z1) := a
  let (x2, y2, z2) := b
  if z1 = 0 then b else if z2 = 0 then a
  else
    let z11 := z1 * z1 % p384
    let z22 := z2 * z2 % p384
    let u1 := x1 * z22 % p384
    let u2 := x2 * z11 % p384
    let s1 := y1 * z2 % p384 * z22 % p384
    let s2 := y2 * z1 % p384 * z11 % p384
    if u1 = u2 then (if s1 = s2 then jdbl a else (1, 1, 0))
    else
      let h := fsub u2 u1
      let i := 4 * h * h % p384
      let j := h * i % p384
      let r := 2 * fsub s2 s1 % p384
      let v := u1 * i % p384
      let x3 := fsub (fsub (r * r) j) (2 * v)
      (x3, fsub (r * fsub v x3) (2 * s1 * j), fsub (fsub ((z1 + z2) * (z1 + z2)) z11) z22 * h % p384)

/-- k times a point. -/
def jmul (k : Nat) (q : JPoint) : JPoint :=
  (List.range 384).foldl (fun acc i =>
    let d := jdbl acc
    if k.testBit (383 - i) then jadd d q else d) (1, 1, 0)

/-- The affine x coordinate. -/
def jx (q : JPoint) : Nat :=
  let zi := powMod q.2.2 (p384 - 2) p384
  q.1 * zi % p384 * zi % p384

/-- ECDSA P-384 over SHA-384: public key X ‖ Y and signature r ‖ s, big-endian, 96 bytes each. -/
def ecdsaVerify (pub sig : List Byte) (digest : BitVec 384) : Bool :=
  let x := beNat (pub.take 48)
  let y := beNat ((pub.drop 48).take 48)
  let r := beNat (sig.take 48)
  let s := beNat ((sig.drop 48).take 48)
  let onCurve := decide (x < p384 ∧ y < p384 ∧ y * y % p384 = (x * x * x + (p384 - 3) * x + b384) % p384)
  let w := powMod s (n384 - 2) n384
  let q := jadd (jmul (digest.toNat * w % n384) (gx384, gy384, 1)) (jmul (r * w % n384) (x, y, 1))
  onCurve && decide (1 ≤ r ∧ r < n384 ∧ 1 ≤ s ∧ s < n384 ∧ q.2.2 ≠ 0 ∧ jx q % n384 = r)

end Sys2Proof.Machine
end

