-- ==== Sys2Proof/Machine/Operands.lean ====
section
/-!
DEFINITION. Machine/Operands.lean: the forms that name a line, a tile, a frame or a sector: the tile map entry as 256
bits (R63 to R67), address decode (R50 to R53, R307, R308), placement of lines and sectors in DRAM (R199, R201), the
keys of a region (R137 to R146), and the plain reads and writes of both tiers.
-/
namespace Sys2Proof.Machine

/-! ## Tile map entries -/

/-- FMT codes (Table 2.4). -/
def Fmt.code : Fmt → Nat
  | .raw => 0 | .lz => 1 | .pattern => 2 | .zero => 3

/-- The FMT of a code. -/
def Fmt.ofCode (n : Nat) : Fmt :=
  if n = 0 then .raw else if n = 1 then .lz else if n = 2 then .pattern else .zero

/-- The FLAGS byte (Table 2.6). -/
def Tme.flags (t : Tme) : Nat :=
  b2n t.poison + 2 * b2n t.pinned + 4 * b2n t.retired + 8 * b2n t.transit + 16 * b2n t.saturated + 32 * b2n t.unmat

/-- The 256 bits of an entry (R63, Table 2.4). -/
def Tme.enc (t : Tme) : BitVec 256 :=
  t.tag ++ BitVec.ofNat 32 (t.rsv / 64 % 2 ^ 32) ++ t.tcs ++
    (BitVec.ofNat 2 (t.rsv / 16 % 4) ++ BitVec.ofNat 6 t.flags) ++
    BitVec.ofNat 40 t.ctr ++ BitVec.ofNat 4 (t.rsv % 16) ++ BitVec.ofNat 4 t.home ++ BitVec.ofNat 24 t.near ++
    BitVec.ofBool t.nv ++ BitVec.ofBool t.gen ++ BitVec.ofNat 2 t.fmt.code ++ BitVec.ofNat 7 t.len ++
    BitVec.ofNat 37 t.loc

/-- The entry that 256 bits spell. -/
def Tme.dec (w : BitVec 256) : Tme :=
  { loc := (w.extractLsb 36 0).toNat, len := (w.extractLsb 43 37).toNat,
    fmt := Fmt.ofCode (w.extractLsb 45 44).toNat, gen := w.getLsbD 46, nv := w.getLsbD 47,
    near := (w.extractLsb 71 48).toNat, home := (w.extractLsb 75 72).toNat, ctr := (w.extractLsb 119 80).toNat,
    poison := w.getLsbD 120, pinned := w.getLsbD 121, retired := w.getLsbD 122, transit := w.getLsbD 123,
    saturated := w.getLsbD 124, unmat := w.getLsbD 125, tcs := w.extractLsb 159 128, tag := w.extractLsb 255 192,
    rsv := (w.extractLsb 79 76).toNat + 16 * (w.extractLsb 127 126).toNat + 64 * (w.extractLsb 191 160).toNat }

/-- Every field of an entry fits its bits. -/
def Tme.wf (t : Tme) : Bool :=
  decide (t.loc < 2 ^ 37 ∧ t.len < 2 ^ 7 ∧ t.near < 2 ^ 24 ∧ t.home < 16 ∧ t.ctr < 2 ^ 40 ∧ t.rsv < 2 ^ 38)

/-- The key of a tile: slot × 2^32 + tile. -/
def tkey (slot tile : Nat) : Nat := slot * 2 ^ 32 + tile

/-- The slot and tile of a key. -/
def keySlot (k : Nat) : Nat := k / 2 ^ 32
def keyTile (k : Nat) : Nat := k % 2 ^ 32

/-! ## Frame-table entries -/

/-- STATE codes of a frame (Table 5.3). -/
def FState.code : FState → Nat
  | .free => 0 | .filling => 1 | .clean => 2 | .dirty => 3 | .moving => 4

/-- The state of a code; 5 to 7 are none (an FTE fault, R170). -/
def FState.ofCode (n : Nat) : Option FState :=
  if n = 0 then some .free else if n = 1 then some .filling else if n = 2 then some .clean
  else if n = 3 then some .dirty else if n = 4 then some .moving else none

/-- The 64 bits of a frame-table entry (R170, Table 5.3), stored little-endian. -/
def Fte.enc (e : Fte) : BitVec 64 :=
  BitVec.ofNat 4 0 ++ BitVec.ofNat 12 e.stamp ++ BitVec.ofNat 4 e.heat ++ BitVec.ofNat 1 0 ++ BitVec.ofBool e.first ++
    BitVec.ofBool e.pin ++ BitVec.ofNat 3 e.state.code ++ BitVec.ofNat 6 e.slot ++ BitVec.ofNat 32 e.tile

/-- The entry that 64 bits spell; none for an FTE fault. -/
def Fte.dec (w : BitVec 64) : Option Fte :=
  (FState.ofCode (w.extractLsb 40 38).toNat).map (fun st =>
    { tile := (w.extractLsb 31 0).toNat, slot := (w.extractLsb 37 32).toNat, state := st, pin := w.getLsbD 41,
      first := w.getLsbD 42, heat := (w.extractLsb 47 44).toNat, stamp := (w.extractLsb 59 48).toNat })

/-! ## Regions -/

/-- TYPE of a slot: 1 PLAIN, 2 ELASTIC, 3 SHARED, 4 FAR. -/
def State.rgnType (s : State) (r : Nat) : Nat := s.rd F.TMU_RGN_MAP_TYPE r

/-- STATE of a slot: 0 FREE, 1 ACTIVE, 2 FENCED, 3 LOST. -/
def State.rgnState (s : State) (r : Nat) : Nat := s.rd F.TMU_RGN_MAP_STATE r

/-- The tiles of a region: 262,144 per GiB. -/
def State.rgnTiles (s : State) (r : Nat) : Nat := s.rd F.TMU_RGN_MAP_SIZE r * 262144

/-- The fixed slots: PLAIN and SHARED regions. -/
def State.fixedSlots (s : State) (r : Nat) : Bool := decide (s.rgnType r = 1 ∨ s.rgnType r = 3)

/-- The near-only and bulk-only modes (R190, R191). -/
def State.nearOnly (s : State) : Bool := s.rdb F.SCR_MOV_STS_NEAR_ONLY
def State.bulkOnly (s : State) : Bool := s.rdb F.SCR_MOV_STS_BULK_ONLY

/-- VK4 key mode (R154). -/
def State.vk4 (s : State) : Bool := s.rdb F.CRY_MODE_MODE

/-- The sector of tile t in a list of intervals of fixed slots, taken in order. -/
def slotIn : List (Nat × Nat) → Nat → Nat
  | [], _ => 0
  | (a, n) :: iv, t => if 64 * t < n then a + 64 * t else slotIn iv (t - n / 64)

/-- A FAR region's entry: HOME and nothing else (R65). -/
def farTme (home : Nat) : Tme :=
  { loc := 0, len := 0, fmt := .raw, gen := false, nv := false, near := 0, home := home, ctr := 0, poison := false,
    pinned := false, retired := false, transit := false, saturated := false, unmat := false, tcs := 0, tag := 0, rsv := 0 }

/-- The entry of a tile as creation writes it (R62, R64, R65, R141): ZERO and UNMAT, CTR 0, GEN of the creation
generation, the fixed slot in PLAIN and SHARED regions. -/
def State.initTme (s : State) (slot tile : Nat) : Tme :=
  if s.rgnType slot = 4 then farTme (s.rd F.TMU_RGN_POLICY_HOME slot) else
  { loc := if s.fixedSlots slot then slotIn ((mget s.tmu.fixed slot).getD []) tile else 0, len := 0, fmt := .zero,
    gen := (s.rd F.CRY_RGN_KEY_BASE_GEN slot) % 2 = 1, nv := false, near := 0,
    home := s.rd F.CLX_ID_ID,
    ctr := 0, poison := false, pinned := false, retired := false, transit := false, saturated := false,
    unmat := true, tcs := 0, tag := 0, rsv := 0 }

/-- The entry as the tile map holds it. -/
def State.mapTme (s : State) (slot tile : Nat) : Tme :=
  match mget s.tmu.map (tkey slot tile) with
  | some w => Tme.dec w
  | none => s.initTme slot tile

/-- The tile's entry, through the cache (R70). -/
def State.tme (s : State) (slot tile : Nat) : Tme :=
  match mget s.tmu.cache (tkey slot tile) with
  | some e => e.tme
  | none => s.mapTme slot tile

/-- The cause of a TME fault (R64, R66; codes of Table 7.11), or 0. -/
def State.tmeFault (s : State) (slot tile : Nat) (t : Tme) : Nat :=
  if t.rsv ≠ 0 then 2
  else if (match t.fmt with
      | .raw => decide (t.len ≠ 64)
      | .lz => decide (t.len = 0 ∨ 59 < t.len)
      | .pattern => decide (t.len ≠ 0) || (!s.fixedSlots slot && decide (t.loc ≠ 0))
      | .zero => decide (t.len ≠ 0 ∨ t.tag ≠ 0) || (!s.fixedSlots slot && decide (t.loc ≠ 0))) then 1
  else if s.fixedSlots slot ∧ t.loc ≠ slotIn ((mget s.tmu.fixed slot).getD []) tile then 1
  else if t.nv ∧ s.rd F.SCR_FRAMES_TOTAL ≤ t.near then 3
  else 0

/-! ## Address decode -/

/-- KEY_EN of a head takes effect only in VK4 key mode (R51). -/
def State.keyTags (s : State) (h : Nat) : Bool := s.vk4 && s.rdb F.TMU_HEAD_TAG_KEY_EN 0 h

/-- DPA bits the head's switches leave reserved are 0 (R50, Table 2.1). -/
def State.tagBitsOk (s : State) (h dpa : Nat) : Bool :=
  decide (dpa / 2 ^ 56 = 0) &&
    (s.keyTags h || decide (bits dpa 55 50 = 0)) &&
    (s.rdb F.TMU_HEAD_TAG_CLASS_EN 0 h || decide (bits dpa 49 46 = 0))

/-- The key index of a host request (R158). -/
def State.hostKey (s : State) (h dpa : Nat) : Nat := if s.keyTags h then bits dpa 55 50 else 0

/-- The deletion of a region has stopped its decode (R62 step 1). -/
def State.isDeleting (s : State) (r : Nat) : Bool := s.tmu.deleting.any (fun e => decide (e.1 = r))

/-- A request admitted after decode of a region stopped; those admitted before complete. -/
def State.cutOff (s : State) (r id : Nat) : Bool := s.tmu.deleting.any (fun e => decide (e.1 = r ∧ e.2 ≤ id))

/-- The slot whose region holds DPA[45:0], whatever its owner: ACTIVE, FENCED or LOST and not being deleted. -/
def State.regionAt (s : State) (addr id : Nat) : Option Nat :=
  (List.range 64).find? (fun r =>
    decide (s.rgnState r ≠ 0) && !s.cutOff r id &&
      decide (s.rgnBase r ≤ addr ∧ addr < s.rgnBase r + s.rd F.TMU_RGN_MAP_SIZE r * 2 ^ 30))

/-- The OWNER check of R53 with R280 and R307. -/
def State.admits (s : State) (h l r : Nat) : Bool :=
  (s.owner r).testBit (s.portOf h) && s.ldMask h l r && (decide (s.rgnType r ≠ 3) || decide (s.ldCount h = 1))

/-- A slot that serves a far request from chain ID src (R59). Of the types only SHARED is shut out (R58): that a FAR region can
be a home, so that its requests go on to its own home, is the model's choice (log entry 102). -/
def State.exportOk (s : State) (src r id : Nat) : Bool :=
  decide (s.rgnState r ≠ 0) && !s.cutOff r id && decide (s.rgnType r ≠ 3) &&
    s.rdb F.TMU_RGN_POLICY_EXPORT_EN r && decide (s.rd F.TMU_RGN_POLICY_EXPORT_UNIT r = src)

/-- Decode of a request (R53, R59, R308, R323): the slot, or the CAUSE of the decode miss. That a far request beyond its home
region's size is a miss of cause 4 is the model's choice (log entry 128). -/
def State.decode (s : State) (q : Req) : Except Nat Nat :=
  match q.org, q.homeSlot with
  | .far _ src _ _, some r =>
    if s.exportOk src r q.id ∧ q.addr < s.rd F.TMU_RGN_MAP_SIZE r * 2 ^ 30 then .ok r else .error 4
  | .host h l _, _ =>
    if q.bad ≠ 0 then .error q.bad
    else match s.regionAt q.addr q.id with
      | none => .error 2
      | some r =>
        if !s.admits h l r then .error 3
        else if s.rgnType r = 3 ∧ bits q.raw 49 46 ≠ 0 then .error 1
        else if s.rgnType r = 3 ∧ (s.rd F.DIR_FENCE_HEADS).testBit h then .error 3
        else .ok r
  | .job id _ _, _ =>
    match s.job.jobs.find? (fun j => decide (j.id = id)), s.regionAt q.addr q.id with
    | some j, some r => if s.admits (j.owner % 16) (j.owner / 16) r then .ok r else .error 3
    | _, _ => .error 2
  | _, some r => .ok r
  | _, none => .error 2

/-- The byte offset of a request in its region: a far request's address is already that offset. -/
def State.offsetOf (s : State) (q : Req) (r : Nat) : Nat :=
  match q.org with
  | .host _ _ _ => q.addr - s.rgnBase r
  | .job _ _ _ => q.addr - s.rgnBase r
  | _ => q.addr

/-! ## Placement in DRAM -/

/-- Where a near line lies (R199): channel, bank, row. -/
structure NearPlace where
  ch : Nat
  g : Nat
  bank : Nat
  row : Nat
  slot : Nat
  deriving DecidableEq, Repr

/-- R199, steps 1 to 4, for Nn active channels; the channel is its place among the active ones. -/
def nearPlace (nn f l : Nat) : NearPlace :=
  let k := 64 / nn
  let g := f * k + l / nn
  let r := g / 30
  { ch := (l % nn) ^^^ (f % nn), g := g, bank := r % 16, row := r / 16, slot := g % 30 }

/-- The active near channels, ascending (R197: two per active position). -/
def State.nearChans (s : State) : List Nat :=
  (bitList 16 (s.rd F.NTC_CONFIG_POS_ACTIVE)).flatMap (fun p => [2 * p, 2 * p + 1])

/-- The active bulk channels, ascending. -/
def State.bulkChans (s : State) : List Nat := bitList 16 (s.rd F.BTC_CONFIG_CH_ACTIVE)

/-- Where a bulk sector lies (R201). -/
structure BulkPlace where
  set : Nat
  ch : Nat
  subB : Bool
  bank : Nat
  row : Nat
  col : Nat
  deriving DecidableEq, Repr

/-- R201, steps 2 to 5, for offset y in a set over Nb channels; ch is the place among the active ones. -/
def bulkPlace (nb set y : Nat) : BulkPlace :=
  let u := y % (2 * nb)
  let q := y / (2 * nb)
  let row := q / 4096
  { set := set, ch := u % nb, subB := decide (nb ≤ u), bank := ((q / 128) ^^^ row) % 32, row := row, col := q % 128 }

/-- The rank set that holds sector x. -/
def State.setOf (s : State) (x : Nat) : Option RankSet :=
  s.bulk.sets.find? (fun r => decide (r.first ≤ x ∧ x < r.first + r.sectors))

/-- Where sector x lies, with its true channel number. -/
def State.placeOf (s : State) (x : Nat) : Option BulkPlace :=
  (s.setOf x).map (fun r =>
    let chans := s.bulkChans
    let p := bulkPlace chans.length r.id (x - r.first)
    { p with ch := chans.getD p.ch 0 })

/-- The spare row that stands in for a bulk row (R252 step 3), none for a row that is not remapped. -/
def State.spareFor (s : State) (p : BulkPlace) : Option Nat :=
  let page := 32 + p.ch
  if s.rd F.RAS_CH_STS_REMAPS page = 0 then none
  else ((List.range 64).find? (fun k => s.rdb F.RAS_REMAP_VALID page k && !s.rdb F.RAS_REMAP_WITHHELD page k &&
    decide (s.rd F.RAS_REMAP_ROW page k = p.row ∧ s.rd F.RAS_REMAP_BANK page k = p.bank ∧ s.rd F.RAS_REMAP_SET page k = p.set ∧
      s.rd F.RAS_REMAP_SUB_B page k = b2n p.subB))).map (fun k => s.rd F.RAS_REMAP_SPARE page k)

/-- The row that an access reaches: BTC redirects it, and a spare row may itself be remapped; n bounds the redirections by the
entries of the table. -/
def State.redirect (s : State) : Nat → BulkPlace → BulkPlace
  | 0, p => p
  | n + 1, p => match s.spareFor p with
    | some r => s.redirect n { p with row := r }
    | none => p

/-- Where sector x is found: its place under the remap table (R252). -/
def State.placeNow (s : State) (x : Nat) : Option BulkPlace := (s.placeOf x).map (s.redirect 64)

/-- Where near line l of frame f lies, with its true channel number. -/
def State.nearPlaceOf (s : State) (f l : Nat) : NearPlace :=
  let chans := s.nearChans
  let p := nearPlace (max 1 chans.length) f l
  { p with ch := chans.getD p.ch 0 }

/-- LOCATION of a bulk sector (Table 7.5). -/
def bulkLocation (p : BulkPlace) : Nat :=
  p.ch + 2 ^ 5 * b2n p.subB + 2 ^ 6 + 2 ^ 7 * p.set + 2 ^ 11 * p.bank + 2 ^ 16 * p.row + 2 ^ 36 * p.col

/-- LOCATION of a near line (Table 7.5). -/
def nearLocation (p : NearPlace) : Nat := p.ch + 2 ^ 11 * p.bank + 2 ^ 16 * p.row + 2 ^ 36 * p.slot

/-- The subchannel index u of the BTC pages. -/
def subch (ch : Nat) (subB : Bool) : Nat := 2 * ch + b2n subB

/-- A bank is on the retention loss list (R264, R266); when more than 256 banks failed, entry 255 lists every bank of its
subchannel's retained sets (Table 7.9). -/
def State.bankListed (s : State) (p : BulkPlace) : Bool :=
  (List.range 256).any (fun n => s.rdb F.RAS_RET_VALID 0 n &&
    decide (s.rd F.RAS_RET_SUBCH 0 n = subch p.ch p.subB) &&
    (decide (s.rd F.RAS_RET_SET 0 n = p.set ∧ s.rd F.RAS_RET_BANK 0 n = p.bank) ||
      (decide (n = 255 ∧ 256 < s.rd F.AON_CANARY_FAILED) &&
        (decide (p.set = 0) || (s.rd F.BTC_RETAIN_SETS).testBit p.set))))

/-- A sector lies in a listed bank. -/
def State.sectorListed (s : State) (x : Nat) : Bool :=
  match s.placeOf x with | some p => s.bankListed p | none => false

/-! ## The AON retention store (R210) -/

/-- The trained values of the active channels go to the AON retention store (R210): free values. -/
def State.saveTraining (s : State) : State :=
  let keys := s.nearChans ++ (s.bulkChans.flatMap (fun c => [32 + 2 * c, 33 + 2 * c]))
  { s with aon := { s.aon with trainedValues := keys.map (fun k => (k, Config.trainedValue k s.draw)) }, draw := s.draw + 1 }

/-! ## Both tiers as bytes -/

/-- The line number of line l of frame f. -/
def lineNo (f l : Nat) : Nat := f * 64 + l

/-- A near line. -/
def State.nearLine (s : State) (f l : Nat) : Line := lineOf (memReadN 0 s.near.mem (f * 4096 + l * 64) 64)

/-- A near line holds the poison marker (R234). -/
def State.nearPoison (s : State) (f l : Nat) : Bool := s.near.marks.contains (lineNo f l)

/-- Write a near line, with or without the poison marker. -/
def State.putLine (s : State) (f l : Nat) (v : Line) (poison : Bool) : State :=
  { s with near := { s.near with
      mem := memWrite 0 s.near.mem (f * 4096 + l * 64) (lineBytes v),
      marks := if poison then ninsert s.near.marks (lineNo f l) else nerase s.near.marks (lineNo f l) } }

/-- The 4,096 bytes of a frame. -/
def State.frameBytes (s : State) (f : Nat) : List Byte := memReadN 0 s.near.mem (f * 4096) 4096

/-- The poisoned lines of a frame. -/
def State.frameMarks (s : State) (f : Nat) : List Nat := (List.range 64).filter (fun l => s.nearPoison f l)

/-- Write a frame whole, with poison markers on the given lines. -/
def State.putFrame (s : State) (f : Nat) (bs : List Byte) (marks : List Nat) : State :=
  { s with near := { s.near with
      mem := memWrite 0 s.near.mem (f * 4096) bs,
      marks := marks.foldl (fun m l => ninsert m (lineNo f l)) (neraseRange s.near.marks (f * 64) 64) } }

/-- Put the poison marker on every line of a frame (R238). -/
def State.poisonFrame (s : State) (f : Nat) : State :=
  { s with near := { s.near with marks := ninsertRange s.near.marks (f * 64) 64 } }

/-- n sectors as stored. -/
def State.sectors (s : State) (x n : Nat) : List Byte := memReadN 0 s.bulk.mem (x * 64) (n * 64)

/-- Write sectors as stored, with poison markers on the given places of the run (R237). -/
def State.putSectors (s : State) (x : Nat) (bs : List Byte) (marks : List Nat) : State :=
  { s with bulk := { s.bulk with
      mem := memWrite 0 s.bulk.mem (x * 64) bs,
      marks := marks.foldl (fun m i => ninsert m (x + i)) (neraseRange s.bulk.marks x (ceilDiv bs.length 64)) } }

/-! ## Keys -/

/-- The key-derivation key of a region (R137): the root key, or the slot key bound in VK4 key mode. -/
def State.kdk (s : State) (r : Nat) : List Byte :=
  if s.vk4 then beBytes 32 (((mget s.cry.slotKeys (s.rd F.CRY_RGN_KEY_KEY_BIND r)).getD 0).toNat)
  else beBytes 32 ((s.cry.root.getD 0).toNat)

/-- The bulk key of a region at a generation (Table 4.3). -/
def State.bulkKey (s : State) (r gen : Nat) : List Byte :=
  deriveKey (s.kdk r) labelBulk r (b2n s.vk4) (if s.vk4 then s.rd F.CRY_RGN_KEY_KEY_BIND r else 0) gen 256

/-- The near key of a region. -/
def State.nearKey (s : State) (r : Nat) : List Byte :=
  deriveKey (s.kdk r) labelNear r (b2n s.vk4) (if s.vk4 then s.rd F.CRY_RGN_KEY_KEY_BIND r else 0)
    (s.rd F.CRY_RGN_KEY_BASE_GEN r) 512

/-- The device map key and the device reserve key: the root key derives them in both modes (R138). -/
def State.mapKey (s : State) : List Byte := deriveKey (beBytes 32 ((s.cry.root.getD 0).toNat)) labelMap 0xff (b2n s.vk4) 0 0 512
def State.reserveKey (s : State) : List Byte :=
  deriveKey (beBytes 32 ((s.cry.root.getD 0).toNat)) labelReserve 0xff (b2n s.vk4) 0 0 512

/-- A near line as GDDR6 stores it (R145): the ciphertext of the plaintext view. -/
def State.nearStored (s : State) (r f l : Nat) : List Byte :=
  xtsEncrypt (s.nearKey r) (lineNo f l) (lineBytes (s.nearLine f l))

/-! ## Error-correcting codes (R199, R205, R206, R234) -/

/-- The outcome of a word of a code that corrects an error in one of n parts and detects one in two; errors in more parts
are taken as detected (log entry 110). -/
def codeEcc (n : Nat) (bad : List Nat) : Ecc :=
  match (bad.filter (fun d => decide (d < n))).dedup.length with
  | 0 => .clean
  | 1 => .corrected
  | _ => .uncorrectable

/-- The bulk code: ten x4 devices of 8 bytes (R205). The near code: 32 data and 2 check symbols of 16 bits (R206). -/
def bulkEcc (bad : List Nat) : Ecc := codeEcc 10 bad
def nearEcc (bad : List Nat) : Ecc := codeEcc 34 bad

/-- The words of a unit, each with its outcome. -/
def bulkEccs (bad : List (Nat × List Nat)) : List (Nat × Ecc) := bad.map (fun x => (x.1, bulkEcc x.2))
def nearEccs (bad : List (Nat × List Nat)) : List (Nat × Ecc) := bad.map (fun x => (x.1, nearEcc x.2))

/-- The code of the words of the near tier's lines: the bulk code in bulk-only mode (R191). -/
def State.lineCode (s : State) (bad : List Nat) : Ecc := if s.bulkOnly then bulkEcc bad else nearEcc bad
def State.lineCodes (s : State) (bad : List (Nat × List Nat)) : List (Nat × Ecc) := bad.map (fun x => (x.1, s.lineCode x.2))

/-- Check bytes, with the poison signature when the word is marked (R234). -/
def signed (marked : Bool) (bs : List Byte) : List Byte := if marked then bs.map (· ^^^ 0x5A) else bs

/-- A bulk sector's burst as the ten devices hold it: 64 data bytes, then the 16 check bytes over them (R205). -/
def State.bulkWord (s : State) (x : Nat) : List Byte :=
  let d := s.sectors x 1
  d ++ signed (s.bulk.marks.contains x) ((List.range 16).map (Config.bulkCheck d))

/-- The check bytes of a near line, over its ciphertext (R145, R206). -/
def State.nearChecks (s : State) (r f l : Nat) : List Byte :=
  signed (s.nearPoison f l) ((List.range 4).map (Config.nearCheck (s.nearStored r f l)))

/-- The frame and the line that lie in slot k of a near row (R199). -/
def State.rowLine (s : State) (ch bank row k : Nat) : Nat × Nat :=
  let nn := max 1 s.nearChans.length
  let g := 30 * (row * 16 + bank) + k
  let f := g / (64 / nn)
  (f, g % (64 / nn) * nn + (s.nearChans.findIdx (fun c => decide (c = ch)) ^^^ (f % nn)))

/-- The 2,048 bytes of a near row (R199 steps 5 and 6): line s from byte 64s, its check bytes from byte 1,920 + 4s, zeros
from byte 2,040. A line of no region holds what was last written there: a free value (log entry 5). -/
def State.nearRow (s : State) (ch bank row : Nat) : List Byte :=
  let owner := fun f => (mget s.near.ftes f).map (·.slot)
  let part := fun (n : Nat) (get : Nat → Nat → Nat → List Byte) => (List.range 30).flatMap (fun k =>
    let (f, l) := s.rowLine ch bank row k
    match owner f with
    | some r => get r f l
    | none => (List.range n).map (Config.unspecified (lineNo f l)))
  part 64 s.nearStored ++ part 4 s.nearChecks ++ List.replicate 8 0

/-- Sector x of the tile map or of the allocator's lists as DDR5 stores it (R146): under the device map key. -/
def State.mapCrypt (s : State) (x : Nat) (bs : List Byte) : List Byte := xtsEncrypt s.mapKey x bs

/-- A 64-byte unit of the near tier's reserved memory as GDDR6 stores it (R146): under the device reserve key. -/
def State.reserveCrypt (s : State) (line : Nat) (bs : List Byte) : List Byte := xtsEncrypt s.reserveKey line bs

/-- A tile map sector as DDR5 stores it: two entries. -/
def State.mapStored (s : State) (slot tile : Nat) : List Byte :=
  s.mapCrypt (s.rd F.TMU_RGN_MAPLOC_LOC slot + tile / 2)
    (leBytes 32 (s.mapTme slot (tile / 2 * 2)).enc.toNat ++ leBytes 32 (s.mapTme slot (tile / 2 * 2 + 1)).enc.toNat)

/-- The live generation that a GEN parity selects (R142). -/
def State.genOf (s : State) (r : Nat) (gen : Bool) : Nat :=
  let cur := s.rd F.CRY_RGN_GEN_CUR r
  if decide (cur % 2 = 1) = gen then cur else cur - 1

/-- The GCM IV of Table 4.4: kind 1 tile data, 2 pattern seal. -/
def tileIv (slot tile ctr : Nat) (gen : Bool) (kind : Nat) : List Byte :=
  leBytes 4 tile ++ leBytes 5 ctr ++ [BitVec.ofNat 8 (b2n gen), BitVec.ofNat 8 slot, BitVec.ofNat 8 kind]

/-- The additional data of Table 4.5. -/
def tileAad (tile ctr gen : Nat) (fmt : Fmt) (len : Nat) : List Byte :=
  leBytes 4 tile ++ leBytes 5 ctr ++ leBytes 4 gen ++ [BitVec.ofNat 8 fmt.code, BitVec.ofNat 8 len, 0#8]

/-- The first 8 bytes of the GCM tag, byte k at bits 8k + 7 to 8k (R143). -/
def tagOf (t : List Byte) : BitVec 64 := BitVec.ofNat 64 (leNat (t.take 8))

/-- TAG over a run's ciphertext, recomputed from an entry (R143, R160). -/
def State.calcTag (s : State) (slot tile : Nat) (t : Tme) (ct : List Byte) : BitVec 64 :=
  let g := s.genOf slot t.gen
  tagOf (gcmTag (s.bulkKey slot g) (tileIv slot tile t.ctr t.gen 1) (tileAad tile t.ctr g t.fmt t.len) ct)

/-- The plaintext record of a run. -/
def State.openTile (s : State) (slot tile : Nat) (t : Tme) (ct : List Byte) : List Byte :=
  gcmCrypt (s.bulkKey slot (s.genOf slot t.gen)) (tileIv slot tile t.ctr t.gen 1) ct

/-- The sealing keystream of a pattern (R144). -/
def State.sealStream (s : State) (slot tile gen ctr : Nat) : List Byte :=
  (ctrStream (roundKeys (s.bulkKey slot gen)) (tileIv slot tile ctr (gen % 2 = 1) 2) 2 1).take 8

/-- The tile that a ZERO or PATTERN entry expands to (R35, R144). -/
def State.expand (s : State) (slot tile : Nat) (t : Tme) : List Byte :=
  match t.fmt with
  | .pattern =>
    let p := xorBytes (leBytes 8 t.tag.toNat) (s.sealStream slot tile (s.genOf slot t.gen) t.ctr)
    (List.replicate 512 p).flatten
  | _ => List.replicate 4096 0

end Sys2Proof.Machine
end

