-- ==== Sys2Proof/Machine/Restart.lean ====
section
/-!
DEFINITION. Machine/Restart.lean: resets as shared operations (R499 to R509, R513, R24; 16_reset_clocks_time.md): which
register fields a reset class restores, the start of a warm reset, the cold reset, brown throttle (R515, R573), and
spare substitution records (R267).
-/
namespace Sys2Proof.Machine

/-! ## Register fields by reset class (R24) -/

/-- The page header fields of a block that hold a value (Table 17.3). -/
def headerFields (b : Nat) : List Fld :=
  [F.BLK_CTL_LOCK b, F.BLK_STS_IN_RESET b, F.BLK_STS_OFFLINE b, F.BLK_STS_EVT_ANY b, F.EVT_RAW_CAUSE b, F.EVT_EN_EN b]

/-- A field holds the value under a key. -/
def Fld.holds (f : Fld) (key : Nat) : Bool :=
  let a := key / 64 - 0x100000
  let page := a % 0x100000 / 0x1000
  let off := a % 0x1000
  decide (key % 64 = f.lo ∧ a / 0x100000 = f.blk ∧ f.p0 ≤ page ∧ page ≤ f.pn ∧ f.off ≤ off) &&
    (if f.stride = 0 then decide (off = f.off)
     else decide ((off - f.off) % f.stride = 0 ∧ (off - f.off) / f.stride < f.cnt))

/-- The field that a key belongs to. -/
def fieldOf (key : Nat) : Option Fld :=
  let b := (key / 64 - 0x100000) / 0x100000
  (headerFields b ++ blockTable b).find? (fun f => f.holds key)

/-- Reset letters: C 1, W 2, P 4, F 8, B 16, S 32. -/
def Fld.has (f : Fld) (n : Nat) : Bool := decide (f.ltr / n % 2 = 1)

/-- Keep the fields that a reset leaves alone; the others return to their reset values. -/
def State.keepRegs (s : State) (keep : Fld → Bool) : State :=
  { s with regs := s.regs.filter (fun e => match fieldOf e.1 with | some f => keep f | none => true) }

/-- A field is LOCK of some block. -/
def Fld.isLock (f : Fld) : Bool := decide (f.off = 0x18 ∧ f.p0 = 0 ∧ f.pn = 255)

/-- A warm reset: fields with letter W, but for values that fuses, straps or training supply again. -/
def State.warmRegs (s : State) : State :=
  ((s.keepRegs (fun f => !f.has 2 || decide (f.dyn = 2))).wr F.AON_PIN_STATE s.fuses.pins).wr F.HLX_BIFUR_MERGE_ACT
    (s.rd F.HLX_BIFUR_MERGE)

/-- After P3 every field without S holds its reset value (R24); AON's follow at the end of the exit, which they time, and
LOCK clears at a cold or warm reset only (R537). -/
def State.p3Regs (s : State) : State :=
  s.keepRegs (fun f => f.has 32 || decide (f.blk = 0) || decide (f.dyn = 2) || f.isLock)

/-- After P2 or P3 the fields of AON without S hold their reset values (R24), but for LOCK (R537) and what tells the state of
hardware that stays powered (RO: log entry 16). -/
def State.aonSleepRegs (s : State) : State :=
  s.keepRegs (fun f => f.has 32 || decide (f.blk ≠ 0) || decide (f.acc = .ro) || f.isLock)

/-- What a P2 keeps beside the fields marked S: the log (R269), the event queue and the pending state of EVT (Table 14.5). -/
def p2Kept (f : Fld) : Bool :=
  [F.RAS_LOG_CONS, F.EVT_QUEUE_HEAD].contains f || (decide (f.acc = .w1c) && decide (f.blk = 13))

/-- After P2 every writable or counting field without S holds its reset value; Table 15.1 keeps the rest (log entry 16). -/
def State.p2Regs (s : State) : State :=
  (s.keepRegs (fun f => f.has 32 || decide (f.blk = 0) || decide (f.dyn = 2) || f.isLock || decide (f.acc = .ro) ||
    p2Kept f)).aonSleepRegs

/-- A block reset: the block's fields with letter B. -/
def State.blockRegs (s : State) (b : Nat) : State := s.keepRegs (fun f => !(decide (f.blk = b) && f.has 16))

/-! ## Starting resets -/

/-- RESET_N and the causes of a warm reset (R503): the code, the supply, and WARM_LOST cleared. -/
def State.writeCause (s : State) (code supply : Nat) : State :=
  ((s.wr F.AON_RST_CAUSE_CAUSE code).wr F.AON_RST_CAUSE_SUPPLY supply).wr F.AON_RST_CAUSE_WARM_LOST 0

/-- What every block but AON forgets when it loses power or is reset cold; the board keeps its flash. -/
def State.blank (s : State) : State :=
  { State.reset with
    pending := s.pending, out := s.out, draw := s.draw,
    ctl := { Ctl.empty with flash := s.ctl.flash } }

/-- A cold reset (Table 16.1 cause 1, Table 16.5): everything starts afresh; a POR also starts the supplies again. -/
def State.cold (s : State) (por warmLost : Bool) : State :=
  let s1 := s.blank
  let keepOn := !por && decide (s.aon.off = 0)
  let s2 := s1.setAon { s1.aon with
    groups := if keepOn then s.aon.groups else 0, passed := if keepOn then s.aon.passed else 0, extLow := s.aon.extLow }
  ((s2.wr F.AON_RST_CAUSE_WARM_LOST (b2n warmLost)).emit (.resetN true)).emit (.alertN true)

/-- After a supply that did not rise the sequence is repeated from step 4 of Table 18.6 (R566): AON keeps its clock, straps and
fuse values, the enables are low, the WARN bits clear (log entry 126). -/
def State.retrySupplies (s : State) : State :=
  ((s.setAon { s.aon with off := 0 }).wr F.AON_SUP_STS_WARN 0).emit (.alertN false)

/-- A cold cause (R506, R511): during a fuse load only a POR or AON brownout acts at once. -/
def State.coldCause (s : State) (por : Bool) : State :=
  if s.aon.loading ∧ !por then s.setAon { s.aon with waiting := s.aon.waiting ++ [1] }
  else s.cold por false

/-- Requests of hosts and of the chain that are under way end without a response (R504 step 2, Table 12.13); a far request
already sent keeps its tag and number until its response comes, which then answers nobody. -/
def State.dropRequests (s : State) (gone : Req → Bool) : State :=
  { s with
    adm := { s.adm with queue := s.adm.queue.filter (fun q => !gone q) },
    tmu := { s.tmu with waits := s.tmu.waits.filter (fun w => !gone w.req),
                        moves := s.tmu.moves.map (fun m => match m.req with
                          | some q => if gone q then { m with req := none } else m
                          | none => m) },
    near := { s.near with reads := s.near.reads.filter (fun r => !gone r.req) },
    dir := { s.dir with busy := s.dir.busy.map (fun b => match b.then_ with
      | .serve q => if gone q then { b with then_ := .nothing } else b
      | .evictFor q => if gone q then { b with then_ := .nothing } else b
      | _ => b) },
    clx := { s.clx with reqs := (s.clx.reqs.filter (fun f => f.sent || !gone f.req)).map (fun f =>
      if gone f.req then { f with req := { f.req with org := .none, unit := 0 } } else f) } }

/-- The quiesce begins (R504 steps 1 and 2). -/
def State.quiesce (s : State) (external : Bool) : State :=
  let s1 := s.setAon { s.aon with quiescing := true, entry := Entry.none }
  let s2 := if external then s1 else s1.emit (.resetN true)
  let s3 := (s2.dropRequests (fun q => match q.org with | .host _ _ _ => true | _ => false)).endSilently (fun _ => true)
  let s4 := (((s3.wr F.AON_PWR_MODE_ARM 0).wr F.AON_PWR_MODE_CUR 0).wr F.AON_PWR_MODE_PHASE 0).wr F.AON_PWR_MODE_TARGET 0
  s4.srBegin 3

/-- A warm cause (R499 to R507, R511, R163). -/
def State.warm (s : State) (code supply : Nat) : State :=
  if s.cry.halt ≠ 0 ∨ s.aon.off ≠ 0 then s
  else if s.aon.loading then s.setAon { s.aon with waiting := s.aon.waiting ++ [code] }
  else if s.cur = 3 then
    (if code = 2 ∨ code = 5 then
      let s1 := s.writeCause code supply
      if s.aon.entry.stage = 5 then s1 else s1.leaveP3
     else s)
  else if s.aon.quiescing ∨ s.aon.held then s.writeCause code supply
  else if !s.aon.seenActive ∧ s.rd F.CTL_HEALTH_MEM_ACTIVE = 0 then
    let s1 := (s.writeCause code supply).setAon { s.aon with held := true }
    let s2 := { s1 with
      ctl := { s1.ctl with alive := false, romRan := false, trained := false, checking := none },
      cry := { s1.cry with ide := [], ideOn := [] } }
    let s3 := (s2.warmRegs.writeCause code supply).wr F.CTL_BOOT_BOOT_CORE
      (s.ctl.override.getD (s.rd F.CTL_BOOT_BOOT_CORE))
    if code = 2 then s3 else s3.emit (.resetN true)
  else (s.writeCause code supply).quiesce (decide (code = 2))

/-- A warm reset that cannot keep memory becomes cold with WARM_LOST set (R505). -/
def State.warmLost (s : State) : State := s.cold false true

/-! ## Brown throttle (R360, R515, R573) -/

/-- A throttle starts: the brown bucket is full, ADM recomputes its floor, and an entry before its commit point or a sleep ends by the wake
code. -/
def State.brownStart (s : State) (wakeCode : Nat) : State :=
  let s1 := (if s.rdb F.ADM_BROWN_ACTIVE then s else { s with adm := { s.adm with brown := 65536 } }).wr
    F.ADM_BROWN_ACTIVE 1
  { s1.wake wakeCode with adm := { (s1.wake wakeCode).adm with recompute := true } }

/-- A throttle ends; ACTIVE reads 0 once no other one runs. -/
def State.brownEnd (s : State) : State :=
  let s1 := if s.aon.brownSupply ∨ s.aon.brownThermal then s else s.wr F.ADM_BROWN_ACTIVE 0
  { s1 with adm := { s1.adm with recompute := true } }

/-! ## Spares -/

/-- A SPARE_SUBST record (R267, Table 7.11): kind, failing instance, substitute, containing instance; SPARE_USED when
there is a substitute. -/
def State.spare (s : State) (kind failing : Nat) (sub : Option Nat) (inside : Nat) : State :=
  let s1 := s.log 0x0b { detail := failing % 256 + 2 ^ 8 * (sub.getD 0xff) + 2 ^ 16 * inside, blk := some kind,
                         sev := some (if sub.isSome then 4 else 3) }
  if sub.isSome then s1.raise cSpareUsed else s1

end Sys2Proof.Machine
end

