-- ==== Sys2Proof/Machine/Alloc.lean ====
section
/-!
DEFINITION. Machine/Alloc.lean: bulk sectors as shared operations (R76 to R86, R255, R256; 02_tiles_and_regions.md,
07_ras.md): runs from pools and chunks, the retired set, the accounts of ELASTIC regions.
-/
namespace Sys2Proof.Machine

/-! ## Replacing a part of the state -/

def State.setTmu (s : State) (t : Tmu) : State := { s with tmu := t }
def State.setNear (s : State) (n : Near) : State := { s with near := n }
def State.setBulk (s : State) (b : Bulk) : State := { s with bulk := b }
def State.setScr (s : State) (x : Scr) : State := { s with scr := x }
def State.setCry (s : State) (x : Cry) : State := { s with cry := x }
def State.setRas (s : State) (x : Ras) : State := { s with ras := x }
def State.setAdm (s : State) (x : Adm) : State := { s with adm := x }
def State.setDir (s : State) (x : Dir) : State := { s with dir := x }
def State.setClx (s : State) (x : Clx) : State := { s with clx := x }
def State.setCdc (s : State) (x : Cdc) : State := { s with cdc := x }
def State.setEvt (s : State) (x : Evt) : State := { s with evt := x }

/-- Transfers of a request are still queued at a memory controller. -/
def State.queued (s : State) (id : Nat) : Bool := s.mem.queues.any (fun e => e.2.any (fun r => decide (r.id = id)))

/-! ## Intervals of sectors -/

/-- Insert n sectors at a, joining neighbours. -/
def ivInsert : List (Nat × Nat) → Nat → Nat → List (Nat × Nat)
  | [], a, n => [(a, n)]
  | (b, m) :: iv, a, n =>
    if b + m = a then ivInsert iv b (m + n)
    else if a + n = b then (a, n + m) :: iv
    else if a < b then (a, n) :: (b, m) :: iv
    else (b, m) :: ivInsert iv a n

/-- Take n sectors from the lowest intervals that pick admits: what was taken, and the rest. -/
def ivTake (pick : Nat → Bool) : List (Nat × Nat) → Nat → List (Nat × Nat) × List (Nat × Nat)
  | [], _ => ([], [])
  | (a, m) :: iv, n =>
    if n = 0 then ([], (a, m) :: iv)
    else if !pick a then
      let r := ivTake pick iv n
      (r.1, (a, m) :: r.2)
    else if m ≤ n then
      let r := ivTake pick iv (n - m)
      ((a, m) :: r.1, r.2)
    else ([(a, n)], (a + n, m - n) :: iv)

/-- The sectors of intervals. -/
def ivTotal (iv : List (Nat × Nat)) : Nat := (iv.map (·.2)).foldl (· + ·) 0

/-- The first fit of n sectors. -/
def ivFirstFit : List (Nat × Nat) → Nat → Option (Nat × List (Nat × Nat))
  | [], _ => none
  | (a, m) :: iv, n =>
    if n ≤ m then some (a, if n = m then iv else (a + n, m - n) :: iv)
    else (ivFirstFit iv n).map (fun r => (r.1, (a, m) :: r.2))

/-- The first chunk from a on, among k, that ok admits. -/
def firstChunk (ok : Nat → Bool) : Nat → Nat → Option Nat
  | 0, _ => none
  | k + 1, a => if ok a then some a else firstChunk ok k (a + 4096)

/-- Take the lowest wholly free chunk that ok admits. -/
def takeChunk (ok : Nat → Bool) : List (Nat × Nat) → Option (Nat × List (Nat × Nat))
  | [] => none
  | (a, n) :: iv =>
    match firstChunk ok (n / 4096) a with
    | some c => some (c, ([(a, c - a), (c + 4096, a + n - (c + 4096))].filter (fun e => decide (e.2 ≠ 0))) ++ iv)
    | none => (takeChunk ok iv).map (fun r => (r.1, (a, n) :: r.2))

/-! ## Runs (R76 to R79) -/

/-- A rank set takes new runs: usable, not FAILING (R248), not removed. -/
def State.setOpen (s : State) (r : RankSet) : Bool :=
  r.usable && !(s.rd F.RAS_RANK_STS_FAILING).testBit r.id && !(s.rd F.RAS_RANK_STS_REMOVED).testBit r.id

/-- Some bank is on the retention loss list. -/
def State.retAny (s : State) : Bool := (List.range 256).any (fun n => s.rdb F.RAS_RET_VALID 0 n)

/-- The n sectors from a may become a run. -/
def State.runOk (s : State) (a n : Nat) : Bool :=
  match s.setOf a with
  | some r => s.setOpen r && (!s.retAny || (List.range n).all (fun i => !s.sectorListed (a + i)))
  | none => false

/-- The on-chip stack of pool n, and its free-run list in the bulk tier (R77). -/
def State.stack (s : State) (n : Nat) : List Nat := (mget s.tmu.pools n).getD []
def State.freeList (s : State) (n : Nat) : List Nat := (mget s.tmu.lists n).getD []

/-- The free runs of pool n. -/
def State.pool (s : State) (n : Nat) : List Nat := s.stack n ++ s.freeList n

/-- Put the stack of pool n, and its free-run list. -/
def putPool (m : List (Nat × List Nat)) (n : Nat) (l : List Nat) : List (Nat × List Nat) :=
  if l.isEmpty then mdel m n else mput m n l
def State.setStack (s : State) (n : Nat) (l : List Nat) : State :=
  s.setTmu { s.tmu with pools := putPool s.tmu.pools n l }
def State.setFreeList (s : State) (n : Nat) (l : List Nat) : State :=
  s.setTmu { s.tmu with lists := putPool s.tmu.lists n l }

/-- The stack of a pool holds 256 runs (R77). -/
def stackRuns : Nat := 256

/-- Put pool n: what the stack cannot hold stands in the free-run list, and the stack is refilled (log entry 103). -/
def State.setPool (s : State) (n : Nat) (l : List Nat) : State :=
  (s.setStack n (l.take stackRuns)).setFreeList n (l.drop stackRuns)

/-- Every free run of the pools: (length, first sector). -/
def State.freeRuns (s : State) : List (Nat × Nat) :=
  (s.tmu.pools ++ s.tmu.lists).flatMap (fun e => e.2.map (fun a => (e.1, a)))

/-- A tile moves to a new run: RETIRE, evacuation, relocation. -/
def Purpose.newRun : Purpose → Bool
  | .retire => true | .evacuate => true | .relocate => true | _ => false

/-- The in-flight list (R73): the runs that demotions hold before their commit. -/
def State.inFlight (s : State) : List (Nat × Nat) :=
  (s.tmu.moves.filter (fun m => decide (m.kind = .demote ∧ m.stage = .written) &&
    (!s.fixedSlots m.slot || m.purpose.newRun))).map (fun m =>
      (if s.fixedSlots m.slot then 64 else m.len, m.loc))

/-- Sector i, at sector number x, of pool n's free-run list and of the in-flight list as the bulk tier stores them (R146). -/
def State.freeListStored (s : State) (n i x : Nat) : List Byte :=
  s.mapCrypt x (Config.runSector ((s.freeList n).map (fun a => (n, a))) i)
def State.inFlightStored (s : State) (i x : Nat) : List Byte := s.mapCrypt x (Config.runSector s.inFlight i)

/-- Only the runs that keep admits stay in the pools. -/
def State.keepRuns (s : State) (keep : Nat → Bool) : State :=
  let cut := fun (m : List (Nat × List Nat)) => (m.map (fun e => (e.1, e.2.filter keep))).filter (fun e => !e.2.isEmpty)
  s.setTmu { s.tmu with pools := cut s.tmu.pools, lists := cut s.tmu.lists }

/-- A rank set is retained (R226): set 0 always is. -/
def State.retained (s : State) (id : Nat) : Bool := decide (id = 0) || (s.rd F.BTC_RETAIN_SETS).testBit id

/-- The set that holds a sector is retained. -/
def State.inRetained (s : State) (a : Nat) : Bool :=
  match s.setOf a with | some r => s.retained r.id | none => false

/-- Step 1 of R77, among the runs that ok admits: a run of the stack. -/
def State.popStack (s : State) (ok : Nat → Bool) (n : Nat) : Option (Nat × State) :=
  ((s.stack n).find? (fun a => ok a && s.runOk a n)).map (fun a => (a, s.setStack n ((s.stack n).erase a)))

/-- Step 2 of R77: the stack is refilled from the free-run list, and popped. -/
def State.popRefilled (s : State) (ok : Nat → Bool) (n : Nat) : Option (Nat × State) :=
  ((s.freeList n).find? (fun a => ok a && s.runOk a n)).map (fun a =>
    let rest := (s.freeList n).erase a
    let room := stackRuns - 1 - (s.stack n).length
    (a, (s.setStack n (s.stack n ++ rest.take room)).setFreeList n (rest.drop room)))

/-- Steps 1 and 2 of R77. -/
def State.popRun (s : State) (ok : Nat → Bool) (n : Nat) : Option (Nat × State) :=
  match s.popStack ok n with
  | some r => some r
  | none => s.popRefilled ok n

/-- Step 3 of R77: the rest of the chunk goes to pool n in runs of n; what is left of it below n goes to the pool of
its own length. -/
def State.carve (s : State) (ok : Nat → Bool) (n : Nat) : Option (Nat × State) :=
  let runs := fun c => (List.range (4096 / n)).map (fun i => c + i * n)
  (takeChunk (fun c => ok c && (runs c).any (fun a => s.runOk a n)) s.tmu.freeIv).map (fun r =>
    let a := ((runs r.1).find? (fun a => s.runOk a n)).getD r.1
    let s1 := s.setTmu { s.tmu with freeIv := r.2 }
    let s2 := s1.setPool n ((runs r.1).erase a ++ s1.pool n)
    let left := 4096 % n
    (a, if left = 0 then s2 else s2.setPool left ((r.1 + 4096 - left) :: s2.pool left)))

/-- Step 4 of R77. -/
def State.splitRun (s : State) (ok : Nat → Bool) (n : Nat) : Option (Nat × State) :=
  ((List.range 64).map (· + 1)).foldl (fun (b : Option (Nat × State)) m =>
    if b.isSome ∨ m ≤ n then b
    else (s.popRun ok m).map (fun r => (r.1, r.2.setPool (m - n) ((r.1 + n) :: r.2.pool (m - n))))) none

/-- A run of n sectors that ok admits, by the first step of R77 that succeeds. -/
def State.allocFrom (s : State) (ok : Nat → Bool) (n : Nat) : Option (Nat × State) :=
  match s.popRun ok n with
  | some r => some r
  | none => match s.carve ok n with
    | some r => some r
    | none => s.splitRun ok n

/-- A run of n sectors for a region (R226): a RETAIN region in retained sets only, another first outside them. -/
def State.alloc (s : State) (slot n : Nat) : Option (Nat × State) :=
  if s.rdb F.TMU_RGN_MAP_RETAIN slot then s.allocFrom s.inRetained n
  else match s.allocFrom (fun a => !s.inRetained a) n with
    | some r => some r
    | none => s.allocFrom s.inRetained n

/-- Whole chunks of the free intervals, cut where they may not become runs (R266: a listed bank withholds its sectors). -/
def State.openChunks (s : State) (ok : Nat → Bool) : List (Nat × Nat) × List (Nat × Nat) :=
  let good := fun a => match s.setOf a with | some r => s.setOpen r && ok a | none => false
  if !s.retAny then (s.tmu.freeIv.filter (fun e => good e.1), s.tmu.freeIv.filter (fun e => !good e.1))
  else
    let cs := s.tmu.freeIv.flatMap (fun e => (List.range (ceilDiv e.2 4096)).map (fun i =>
      (e.1 + 4096 * i, min 4096 (e.2 - 4096 * i))))
    let pass := fun (e : Nat × Nat) => good e.1 && (List.range e.2).all (fun i => !s.sectorListed (e.1 + i))
    (cs.filter pass, cs.filter (fun e => !pass e))

/-- n sectors of fixed slots among those that ok admits: whole free chunks, then runs of pool 64. -/
def State.takeSlots (s : State) (ok : Nat → Bool) (n : Nat) : List (Nat × Nat) × State :=
  let (open_, shut) := s.openChunks ok
  let r := ivTake (fun _ => true) open_ n
  let s1 := s.setTmu { s.tmu with freeIv := (r.2 ++ shut).foldl (fun l e => ivInsert l e.1 e.2) [] }
  let more := ((s.pool 64).filter (fun a => s.runOk a 64 && ok a)).take ((n - ivTotal r.1) / 64)
  (r.1 ++ more.map (fun a => (a, 64)), if more.isEmpty then s1
    else s1.setPool 64 ((s1.pool 64).filter (fun a => !more.contains a)))

/-- 64-sector slots for the tiles of a PLAIN or SHARED region (R74), in the order of R226: a RETAIN region's in retained
sets only, another's first outside them; none when they do not suffice. -/
def State.takeFixed (s : State) (retain : Bool) (n : Nat) : Option (List (Nat × Nat) × State) :=
  let first := if retain then ([], s) else s.takeSlots (fun a => !s.inRetained a) n
  let rest := if ivTotal first.1 = n then ([], first.2) else first.2.takeSlots s.inRetained (n - ivTotal first.1)
  if ivTotal first.1 + ivTotal rest.1 = n then some (first.1 ++ rest.1, rest.2) else none

/-- The runs of a chunk that lie in the pools: (length, first sector). -/
def State.chunkRuns (s : State) (c : Nat) : List (Nat × Nat) :=
  s.freeRuns.filter (fun e => decide (e.2 / 4096 = c))

/-- A run returns to its pool; a chunk that is wholly free again returns to the free chunks (R79). -/
def State.freeRun (s : State) (a n : Nat) : State :=
  if n = 0 then s
  else
    let s1 := s.setPool n (a :: s.pool n)
    let c := a / 4096
    let mine := s1.chunkRuns c
    if (mine.map (·.1)).foldl (· + ·) 0 = 4096 then
      let s2 := mine.foldl (fun s e => s.setPool e.1 ((s.pool e.1).erase e.2)) s1
      s2.setTmu { s2.tmu with freeIv := ivInsert s2.tmu.freeIv (c * 4096) 4096 }
    else s1

/-- Withheld sectors return: free runs to their pools, whole chunks to the free chunks. -/
def State.giveBack (s : State) (es : List (Nat × Nat)) : State :=
  es.foldl (fun s e => if e.2 ≤ 64 then s.freeRun e.1 e.2
    else s.setTmu { s.tmu with freeIv := ivInsert s.tmu.freeIv e.1 e.2 }) s

/-- The n sectors from a without those that a listed bank withholds (R266). -/
def State.openCount (s : State) (a n : Nat) : Nat :=
  if s.retAny then ((List.range n).filter (fun i => !s.sectorListed (a + i))).length else n

/-- The free sectors (TMU_CAP_FREE). -/
def State.freeSectors (s : State) : Nat :=
  (s.tmu.freeIv.map (fun e => s.openCount e.1 e.2)).foldl (· + ·) 0 +
    (s.freeRuns.map (fun e => s.openCount e.2 e.1)).foldl (· + ·) 0

/-! ## The retirement reserve (R255, R256) -/

/-- REMAIN of the reserve falls by n; RESERVE_LOW below its threshold. -/
def State.reserveUse (s : State) (n : Nat) : State :=
  let old := s.rd F.RAS_RESERVE2_REMAIN
  let s1 := s.wr F.RAS_RESERVE2_REMAIN (old - n)
  let lim := s.rd F.RAS_CFG_RESERVE_LOW * s.rd F.RAS_RESERVE_TOTAL
  if lim ≤ old * 100 ∧ (old - n) * 100 < lim then s1.raise cReserveLow else s1

/-- The reserve chunks of a rank set, lowest first: the top 2 % of its rows, above the resume area in
set 0 (R490). -/
def reserveChunks (nb : Nat) (r : RankSet) : Nat × Nat :=
  let rows := ceilDiv (r.rows * 2) 100
  let first := r.first + (r.rows - rows) * 4096 * (2 * nb)
  let area := if r.id = 0 then 32 else 0
  (first + area * 4096, rows * (2 * nb) - area)

/-- A spare row in use lies in the chunk at c. -/
def State.chunkSpare (s : State) (c : Nat) : Bool :=
  (List.range 16).any (fun n => (List.range 64).any (fun k =>
    s.rdb F.RAS_REMAP_VALID (32 + n) k && !s.rdb F.RAS_REMAP_WITHHELD (32 + n) k &&
      (List.range 16).any (fun i => match s.placeOf (c + 256 * i) with
       | some p => decide (p.set = s.rd F.RAS_REMAP_SET (32 + n) k ∧ p.row = s.rd F.RAS_REMAP_SPARE (32 + n) k ∧
           p.bank = s.rd F.RAS_REMAP_BANK (32 + n) k)
       | none => false)))

/-- The lowest reserve chunk that holds no spare row in use and has not been released (R255); the highest row of a retained
set is the canary row of each bank (R202, R228) and is never released. -/
def State.nextReserve (s : State) : Option Nat :=
  let nb := s.rd F.BTC_CONFIG_NCH
  s.bulk.sets.foldl (fun (b : Option Nat) r =>
    if b.isSome ∨ !s.setOpen r then b
    else
      let (a, k) := reserveChunks nb r
      let k := if s.retained r.id then k - 2 * nb else k
      firstChunk (fun c => !s.ras.sparesUsed.contains (c, 0) && !s.chunkSpare c) k a) none

/-- RAS releases one reserve chunk (R255). -/
def State.releaseChunk (s : State) : State :=
  match s.nextReserve with
  | some c =>
    let s1 := (s.setRas { s.ras with released := s.ras.released + 1, sparesUsed := (c, 0) :: s.ras.sparesUsed })
    let s2 := s1.setTmu { s1.tmu with freeIv := ivInsert s1.tmu.freeIv c 4096 }
    ((s2.log 0x0b { detail := c, blk := some 8, sev := some 4 }).raise cSpareUsed).reserveUse 4096
  | none => s.raise cReserveExhausted

/-- Put tile t's slot of a list of fixed slots at a. -/
def slotPut : List (Nat × Nat) → Nat → Nat → List (Nat × Nat)
  | [], _, _ => []
  | (b, n) :: iv, t, a =>
    if 64 * t < n then
      ([(b, 64 * t), (a, 64), (b + 64 * (t + 1), n - 64 * (t + 1))].filter (fun e => decide (e.2 ≠ 0))) ++ iv
    else (b, n) :: slotPut iv (t - n / 64) a

/-- The fixed slot of a tile is a now (R255, R258: a tile of a PLAIN or SHARED region receives a new one). -/
def State.setSlot (s : State) (r t a : Nat) : State :=
  match mget s.tmu.fixed r with
  | some iv => s.setTmu { s.tmu with fixed := mput s.tmu.fixed r (slotPut iv t a) }
  | none => s

/-- A run goes to the retired set (R79, R255). -/
def State.retireRun (s : State) (a n : Nat) : State :=
  if n = 0 then s
  else
    let s1 := s.setTmu { s.tmu with retired := (a, n) :: s.tmu.retired }
    let total := (s1.tmu.retired.map (·.2)).foldl (· + ·) 0
    if s1.ras.retiredSeen < total / 4096 then
      (s1.setRas { s1.ras with retiredSeen := total / 4096 }).releaseChunk
    else s1

/-! ## Accounts of ELASTIC regions (R80 to R86) -/

/-- Threshold k of a region in sectors (R83). -/
def State.threshold (s : State) (r k : Nat) : Nat :=
  s.rd F.TMU_RGN_BUDGET_BUDGET r *
    s.rd (if k = 1 then F.TMU_RGN_THRESH_T1 else if k = 2 then F.TMU_RGN_THRESH_T2 else F.TMU_RGN_THRESH_T3) r / 100

/-- LEVEL follows USED, which stood at before (R83): ELASTIC_PRESSURE when USED rises to a threshold, or when LEVEL rises
because a threshold fell (log entry 104); a fall needs one percent of BUDGET. -/
def State.level (s : State) (r before : Nat) : State :=
  let used := s.rd F.TMU_RGN_USED_USED r
  let old := s.rd F.TMU_RGN_THRESH_LEVEL r
  let ks := (List.range 4).filter (fun k => decide (1 ≤ k))
  let up := (ks.filter (fun k => decide (s.threshold r k ≤ used))).foldl max 0
  let stay := (ks.filter (fun k =>
    decide (k ≤ old ∧ s.threshold r k * 100 < used * 100 + s.rd F.TMU_RGN_BUDGET_BUDGET r))).foldl max 0
  let s1 := s.wrI F.TMU_RGN_THRESH_LEVEL r (max up stay)
  if old < up ∨ ks.any (fun k => decide (before < s.threshold r k ∧ s.threshold r k ≤ used)) then
    (s1.wr F.TMU_PRESS_PEND_SLOT (setBit (s1.rd F.TMU_PRESS_PEND_SLOT) r)).raise cPressure (region := some r)
  else s1

/-- RESERVE of a DIRTY_CAP (R81). -/
def reserveOf (cap : Nat) : Nat := 64 * (cap + 256)

/-- USED rises by a demotion's claim (R84): the claim that passes BUDGET fences the region. -/
def State.claim (s : State) (r n : Nat) : State :=
  if s.rgnType r = 2 then
    let s1 := if s.rgnState r = 1 ∧ s.rd F.TMU_RGN_BUDGET_BUDGET r < s.rd F.TMU_RGN_USED_USED r + n then
        ((s.wrI F.TMU_RGN_MAP_STATE r 2).wr F.TMU_FENCE_PEND_SLOT (setBit (s.rd F.TMU_FENCE_PEND_SLOT) r)).raise
          cFenced (region := some r)
      else s
    (s1.wrI F.TMU_RGN_USED_USED r (s.rd F.TMU_RGN_USED_USED r + n)).level r (s.rd F.TMU_RGN_USED_USED r)
  else s

/-- USED falls: a claim is released or a run freed. -/
def State.unclaim (s : State) (r n : Nat) : State :=
  if s.rgnType r = 2 then
    (s.wrI F.TMU_RGN_USED_USED r (s.rd F.TMU_RGN_USED_USED r - n)).level r (s.rd F.TMU_RGN_USED_USED r)
  else s

/-- The sectors that a region commits (R80). -/
def State.commitOf (s : State) (r : Nat) : Nat :=
  if s.rgnState r = 0 then 0
  else if s.fixedSlots r then 64 * s.rgnTiles r
  else if s.rgnType r = 2 then s.rd F.TMU_RGN_BUDGET_BUDGET r + s.rd F.TMU_RGN_RESERVE_RESERVE r
  else 0

/-- The sectors committed (TMU_CAP_COMMIT). -/
def State.committed (s : State) : Nat := ((List.range 64).map s.commitOf).foldl (· + ·) 0

/-- The fence lifts once USED is below threshold 3 (R86). -/
def State.grantLift (s : State) (r : Nat) : State :=
  let s1 := s.level r (s.rd F.TMU_RGN_USED_USED r)
  if s1.rgnState r = 2 ∧ s1.rd F.TMU_RGN_USED_USED r < s1.threshold r 3 then
    ((s1.wrI F.TMU_RGN_MAP_STATE r 1).wr F.TMU_FENCE_PEND_SLOT (setBit (s1.rd F.TMU_FENCE_PEND_SLOT) r)).raise
      cUnfenced (region := some r)
  else s1

end Sys2Proof.Machine
end

