-- ==== Sys2Proof/Machine/TimeBase.lean ====
section
/-!
DEFINITION. Machine/TimeBase.lean: fabric time and the device timestamp (R522 to R530, 16_reset_clocks_time.md), and the
guard bands that follow the epoch length (R347).
-/
namespace Sys2Proof.Machine

/-! ## Guard bands (R347) -/

/-- GUARD of a class: OVERHEAD, GB_RATE in MB/s, the epoch length in µs. -/
def guardOf (overhead gbRate period : Nat) : Nat := max 1 (ceilDiv ((4096 + overhead) * 1024) (gbRate * period))

/-- ADM recomputes every GUARD, and MINWIN as 2 × GUARD. -/
def State.guardBands (s : State) : State :=
  (List.range 16).foldl (fun s c =>
    let g := guardOf (s.rd F.ADM_CLS_CFG_OVERHEAD c) (s.rd F.ADM_CLS_GATE_GB_RATE c) s.aon.time.period
    (s.wrI F.ADM_CLS_GATE_GUARD c g).wrI F.ADM_CLS_GATE_MINWIN c (2 * g)) s

/-! ## The timebase -/

/-- TIME_QUALITY (R523; page 3, bit 0, source 5). -/
def cTimeQuality : Cause := ⟨0, 3, 0, 5⟩

/-- The epoch length in force, in ns. -/
def State.epochNs (s : State) : Nat := s.aon.time.period * 1000

/-- The device timestamp (R526): TS_BASE plus the time elapsed on the timebase. -/
def State.timestamp (s : State) : Nat :=
  (s.rd F.AON_TS_BASE_BASE + s.aon.time.elapsed + s.phase * s.epochNs / 1024) % 2 ^ 64

/-- Replace the timebase's own data. -/
def State.setTime (s : State) (t : TimeBase) : State := { s with aon := { s.aon with time := t } }

/-- A change of quality raises TIME_QUALITY (R523). -/
def State.setQuality (s : State) (q : Nat) : State :=
  if s.rd F.AON_EPOCH_QUALITY = q then s else (s.wr F.AON_EPOCH_QUALITY q).raise cTimeQuality

/-- n boundaries pass: the epoch number advances by n and the phase is 0; with one boundary a changed PERIOD applies
and ADM recomputes its guard bands (R522). -/
def State.passBoundaries (s : State) (n : Nat) : State :=
  let t := s.aon.time
  let s1 := ((s.wr F.AON_EPOCH_EPOCH (s.epoch + n)).wr F.AON_EPOCH_PHASE 0).setTime
    { t with elapsed := (t.elapsed + n * s.epochNs) % 2 ^ 64, fresh := t.fresh || decide (n ≠ 0) }
  if n = 0 ∨ s.rd F.AON_TIME_CFG_PERIOD = t.period then s1
  else (s1.setTime { s1.aon.time with period := s.rd F.AON_TIME_CFG_PERIOD }).guardBands

/-- The load point of an armed epoch load (R525): the epoch that begins here bears VALUE; ARM and AMBIG clear. -/
def State.loadPoint (s : State) : State :=
  if s.rdb F.AON_EPOCH_LOAD_ARM then
    let v := s.rd F.AON_EPOCH_LOAD_VALUE
    let t := s.aon.time
    (((s.wr F.AON_EPOCH_EPOCH v).wr F.AON_EPOCH_LOAD_ARM 0).wr F.AON_TIME_STS_AMBIG 0).setTime
      { t with elapsed := (t.elapsed + v * s.epochNs + 2 ^ 64 - s.epoch * s.epochNs % 2 ^ 64) % 2 ^ 64, offs := [] }
  else s

/-- A pulse t ns after the last boundary is taken as a boundary: the epoch number counts to the boundary nearest the
pulse, and the quality is LOCKED. -/
def State.acceptPulse (s : State) (t : Nat) : State :=
  let n := (t + s.epochNs / 2) / s.epochNs
  let s1 := s.passBoundaries n
  (s1.setTime { s1.aon.time with offs := [], hold := 0, windowOpen := false }).loadPoint.setQuality 0

/-- Pulses in succession that are spaced by PERIOD within WIN of one another (R524). -/
def State.spaced (s : State) : List Nat → List Nat → List Nat
  | [], acc => acc
  | t :: ts, acc =>
    match acc with
    | [] => s.spaced ts [t]
    | a :: _ =>
      let w := s.rd F.AON_TIME_CFG_WIN
      let d := t - a
      if s.epochNs ≤ d + w ∧ d ≤ s.epochNs + w then s.spaced ts (t :: acc) else s.spaced ts [t]

/-- FTIME is watched while AON has a qualified XTAL and the unit is not in P3 or P4 (R521, R527). -/
def State.timed (s : State) : Bool :=
  s.rdb F.AON_CLK_STS_XTAL_OK && decide (s.rd F.AON_PWR_MODE_CUR < 3) && decide (s.aon.off = 0)

/-- An FTIME pulse t ns after the last boundary (R524, R530). -/
def State.pulse (s : State) (t : Nat) : State :=
  let w := s.rd F.AON_TIME_CFG_WIN
  let q := s.rd F.AON_EPOCH_QUALITY
  if q = 0 then
    if t ≤ w ∧ s.aon.time.windowOpen then
      let s1 := s.wr F.AON_EPOCH_PHASE 0
      (s1.setTime { s1.aon.time with windowOpen := false, offs := [] }).loadPoint
    else if s.epochNs ≤ t + w ∧ t ≤ s.epochNs + w then s.acceptPulse t
    else
      let s1 := s.bump F.AON_TIME_STS_OFFWIN
      let run := s1.spaced (s1.aon.time.offs ++ [s1.aon.time.elapsed + t]) []
      if run.length = 4 then s1.acceptPulse t
      else s1.setTime { s1.aon.time with offs := run.reverse }
  else if q = 3 then
    let err := s.rd F.AON_TIME_EST_ERR
    let off := min (t % s.epochNs) (s.epochNs - t % s.epochNs)
    if off ≤ err * 1000 + w ∧ s.epochNs ≤ 2 * (err * 1000) then
      let s1 := s.acceptPulse t
      if s.rdb F.AON_EPOCH_LOAD_ARM then s1 else s1.wr F.AON_TIME_STS_AMBIG 1
    else s.acceptPulse t
  else s.acceptPulse t

/-- AON places a boundary from XTAL (R522, R523, R525). -/
def State.xtalBoundary (s : State) : State :=
  let s1 := s.passBoundaries 1
  if s.rd F.AON_EPOCH_QUALITY = 0 then s1.setTime { s1.aon.time with windowOpen := true }
  else
    let s2 := s1.loadPoint
    if s.rd F.AON_EPOCH_QUALITY = 1 then
      let s3 := s2.setTime { s2.aon.time with hold := s2.aon.time.hold + 1 }
      if s.rd F.AON_TIME_CFG_HOLD_LIMIT ≤ s3.aon.time.hold then s3.setQuality 2 else s3
    else s2

/-- The window of a boundary closes without a pulse while LOCKED (R523, R525). -/
def State.pulseMissed (s : State) : State :=
  let s1 := if s.aon.time.windowOpen then s else s.passBoundaries 1
  let s2 := s1.loadPoint
  (s2.setTime { s2.aon.time with windowOpen := false, hold := 0, offs := [] }).setQuality 1

/-- FTIME_PULSE (R524, R530). -/
def execFtimePulse (t : Nat) (s : State) : Result := .next (if s.timed then s.pulse t else s)

/-- FTIME_PULSE_MISSED (R523): in LOCKED only. -/
def execFtimePulseMissed (s : State) : Result :=
  .next (if s.timed ∧ s.rd F.AON_EPOCH_QUALITY = 0 then s.pulseMissed else s)

/-- XTAL_BOUNDARY (R522). -/
def execXtalBoundary (s : State) : Result := .next (if s.timed then s.xtalBoundary else s)

/-- EPOCH_LOAD (R525, R531): VALUE is written and ARM set. -/
def execEpochLoad (path : Path) (value : BitVec 48) (s : State) : Result :=
  .next (s.viaPath path 0 3 (s.manages path) (fun s =>
    (s.wr F.AON_EPOCH_LOAD_VALUE value.toNat).wr F.AON_EPOCH_LOAD_ARM 1))

/-- LS_CALIBRATION (R527): the last complete measurement, in P0 to P2. -/
def execLsCalibration (ratio : BitVec 32) (s : State) : Result :=
  .next (if s.timed then s.wr F.AON_LS_CAL_RATIO ratio.toNat else s)

end Sys2Proof.Machine
end

