-- ==== Sys2Proof/Machine/Admit.lean ====
section
/-!
DEFINITION. Machine/Admit.lean: admission as shared operations (R333 to R362, 10_admission_and_qos.md): labels, the
outstanding regulators, the token buckets, the gate list, and what entering and leaving count.
-/
namespace Sys2Proof.Machine

/-! ## Pairs of ingress point and class (R340, R341) -/

/-- MAX and BUCKET of class 4k + j are field j of register k. -/
def maxoutF (c : Nat) : Fld :=
  [F.ADM_ING_MAXOUT_MAX0, F.ADM_ING_MAXOUT_MAX1, F.ADM_ING_MAXOUT_MAX2].getD (c % 4) F.ADM_ING_MAXOUT_MAX3
def bucketF (c : Nat) : Fld :=
  [F.ADM_ING_BKT_BUCKET0, F.ADM_ING_BKT_BUCKET1, F.ADM_ING_BKT_BUCKET2].getD (c % 4) F.ADM_ING_BKT_BUCKET3

/-- The feedback level that ADM applies: the higher of the tiers' (R217, R341). -/
def State.feedback (s : State) : Nat :=
  let near := (s.nearChans.map (fun n => s.rd F.NTC_CH_STS_FB n)).foldl max 0
  let bulk := ((s.bulkChans.flatMap (fun n => [2 * n, 2 * n + 1])).map (fun u => s.rd F.BTC_SC_STS_FB u)).foldl max 0
  max near bulk

/-- The effective limit of a limit MAX at level F. -/
def effLimit (m f : Nat) : Nat :=
  max 1 (if f = 0 then m else if f = 1 then m * 3 / 4 else if f = 2 then m / 2 else m / 4)

/-- The effective limit of a pair (ADM_ING_EFF). -/
def State.limit (s : State) (i c : Nat) : Nat := effLimit (s.rd (maxoutF c) i (c / 4)) s.feedback

/-! ## Token buckets (R342 to R344) -/

/-- A bucket as reset leaves it (Table 10.9). -/
def Bucket.reset : Bucket := { rate := 0, burst := 65536, newRate := 0, newBurst := 65536, pending := false, bal := 65536 }

/-- Bucket b. -/
def State.bucket (s : State) (b : Nat) : Bucket := mgetD s.adm.buckets b Bucket.reset

/-- Put bucket b. -/
def State.setBucket (s : State) (b : Nat) (x : Bucket) : State :=
  s.setAdm { s.adm with buckets := mset Bucket.reset s.adm.buckets b x }

/-- One refill (R342, R343): values written come into force first, then RATE bytes are added up to BURST. -/
def Bucket.refill (b : Bucket) : Bucket :=
  let b1 := if b.pending then
      { b with rate := b.newRate, burst := b.newBurst, pending := false,
               bal := if 0 < b.bal then min b.bal b.newBurst else b.bal }
    else b
  { b1 with bal := min (Int.ofNat b1.burst) (b1.bal + Int.ofNat b1.rate) }

/-- The counted length of a unit of length L (R337). -/
def State.counted (s : State) (c len : Nat) : Nat := len + s.rd F.ADM_CLS_CFG_OVERHEAD c

/-- A balance after a debit: not below the floor of the debiting class. -/
def debited (bal : Int) (n overhead : Nat) : Int :=
  let floor : Int := -(4096 + Int.ofNat overhead)
  max (bal - Int.ofNat n) (min bal floor)

/-- The flush before P3 or a directory sweep is under way: firmware holds class 13 open and its shaper suspended (R344,
R352). -/
def State.maintains (s : State) : Bool := s.rdb F.SCR_MOV_STS_FLUSH || !s.dir.sweeps.isEmpty

/-- SHP_SUSPEND and FORCE_OPEN of a class as firmware holds them. -/
def State.suspended (s : State) (c : Nat) : Bool := s.rdb F.ADM_CLS_CFG_SHP_SUSPEND c || (decide (c = 13) && s.maintains)
def State.forced (s : State) (c : Nat) : Bool := s.rdb F.ADM_CLS_CFG_FORCE_OPEN c || (decide (c = 13) && s.maintains)

/-- A class is checked and debited at buckets. -/
def State.shaped (s : State) (b c : Nat) : Bool :=
  decide ((s.bucket b).rate ≠ 0) && !s.suspended c

/-- A bucket admits a class. -/
def State.bucketOk (s : State) (b c : Nat) : Bool := !s.shaped b c || decide (0 < (s.bucket b).bal)

/-- Debit a bucket by a unit's counted length. -/
def State.debit (s : State) (b c len : Nat) : State :=
  if s.shaped b c then
    s.setBucket b { s.bucket b with bal := debited (s.bucket b).bal (s.counted c len) (s.rd F.ADM_CLS_CFG_OVERHEAD c) }
  else s

/-- The bucket of a pair. -/
def State.pairBucket (s : State) (i c : Nat) : Nat := s.rd (bucketF c) i (c / 4)

/-- The bucket that a request is charged to (R339): a job's is its queue's (R365). -/
def State.reqBucket (s : State) (q : Req) : Nat :=
  match q.org with
  | .job id _ _ => match s.job.jobs.find? (fun j => decide (j.id = id)) with
    | some j => j.bucket
    | none => s.pairBucket q.ing q.cls
  | _ => s.pairBucket q.ing q.cls

/-! ## The gate control list (R345 to R352) -/

/-- A valid entry: its point in ticks of the cycle, its index, its classes and its refresh bit. -/
structure GclEnt where
  point : Nat
  idx : Nat
  opn : Nat
  ref : Bool
  deriving DecidableEq, Repr

/-- The valid entries of the active bank. -/
def State.gcl (s : State) : List GclEnt :=
  let b := s.rd F.ADM_GCL_CFG_ACTIVE
  ((List.range 256).filter (fun n => s.rdb F.ADM_GCL_ENT_VALID b n)).map (fun n =>
    { point := s.rd F.ADM_GCL_ENT_EPOCH b n % s.adm.cycleNow * 1024 + s.rd F.ADM_GCL_ENT_PHASE b n, idx := n,
      opn := s.rd F.ADM_GCL_ENT_OPEN b n, ref := s.rdb F.ADM_GCL_ENT_REF b n })

/-- The later of two entries in (point, index) order. -/
def GclEnt.later (a b : GclEnt) : GclEnt :=
  if a.point < b.point ∨ (a.point = b.point ∧ a.idx < b.idx) then b else a

/-- The last of some entries. -/
def lastEnt (l : List GclEnt) : Option GclEnt :=
  l.foldl (fun (b : Option GclEnt) e => match b with | some x => some (x.later e) | none => some e) none

/-- The entry in force at a position of the cycle: the last at or before it, wrapping round. -/
def gclAt (l : List GclEnt) (pos : Nat) : Option GclEnt :=
  match lastEnt (l.filter (fun e => decide (e.point ≤ pos))) with
  | some e => some e
  | none => lastEnt l

/-- The ticks of a cycle. -/
def State.cycleTicks (s : State) : Nat := max 1 s.adm.cycleNow * 1024

/-- The list has class c open at tick t. -/
def State.listOpen (s : State) (l : List GclEnt) (c t : Nat) : Bool :=
  match gclAt l (t % s.cycleTicks) with
  | some e => e.opn.testBit c
  | none => true

/-- The tick until which a class is held open after its opening (R349). -/
def State.heldUntil (s : State) (c : Nat) : Nat :=
  match mget s.adm.lengthen c with | some (n, _) => s.tickNo + n | none => 0

/-- A class is open at the present tick; one whose MINWIN has just elapsed follows the list. -/
def State.classOpen (s : State) (c : Nat) : Bool :=
  s.forced c ||
    (s.adm.gateOpen.testBit c && (decide ((mget s.adm.lengthen c).map (·.1) ≠ some 0) || s.listOpen s.gcl c s.tickNo))

/-- The next close of an open class after tick t; none when it never closes. -/
def State.nextClose (s : State) (c t : Nat) : Option Nat :=
  let l := s.gcl
  let n := s.cycleTicks
  let until_ := s.heldUntil c
  let marks := l.map (fun e => t + 1 + (e.point + n - (t + 1) % n) % n)
  let after := l.map (fun e => until_ + (e.point + n - until_ % n) % n)
  let at_ := (marks ++ after ++ [until_]).filter (fun u => decide (t < u ∧ until_ ≤ u) && !s.listOpen l c u)
  at_.foldl (fun (b : Option Nat) u => match b with | some x => some (min x u) | none => some u) none

/-- A unit of length L may enter an open class now (R348, R352). -/
def State.gateOk (s : State) (c len : Nat) : Bool :=
  if s.forced c then true
  else s.classOpen c &&
    (match s.nextClose c s.tickNo with
     | some u => decide (s.tickNo + s.rd F.ADM_CLS_GATE_GUARD c * ceilDiv len 4096 ≤ u)
     | none => true)

/-! ## Labels (R334, R335) -/

/-- Ns on the timebase. -/
def State.nowNs (s : State) : Nat := s.aon.time.elapsed + s.phase * s.epochNs / 1024

/-- The region that ADM finds for an address, whatever it is (R334). -/
def State.anyRegion (s : State) (addr : Nat) : Option Nat :=
  (List.range 64).find? (fun r => decide (s.rgnState r ≠ 0 ∧ s.rgnBase r ≤ addr ∧
    addr < s.rgnBase r + s.rd F.TMU_RGN_MAP_SIZE r * 2 ^ 30))

/-- The label of a request by Table 10.2. A host request holds its tag's class from its arrival on (R284); 16 stands for
none. -/
def State.label (s : State) (q : Req) : Nat :=
  match q.org with
  | .host _ _ _ =>
    if q.cls < 16 then q.cls
    else match s.anyRegion q.addr with
      | some r => s.rd F.TMU_RGN_POLICY_DEF_CLASS r
      | none => s.rd F.ADM_ING_CFG_DEF_CLASS q.ing
  | _ => q.cls

/-- A label that only internal work bears. -/
def reservedLabel (c : Nat) : Bool := decide (c = 13 ∨ c = 14)

/-- The class of a request. -/
def State.classOf (s : State) (q : Req) : Nat := if reservedLabel (s.label q) then 0 else s.label q

/-! ## Entering and leaving -/

/-- What bars a unit (R353): the number of the first step that does not pass; 0 when it is eligible. -/
def State.barred (s : State) (i c b len lines : Nat) : Nat :=
  if s.rdb F.ADM_BROWN_ACTIVE ∧ (i = 18 ∨ (i = 19 ∧ reservedLabel c)) then 1
  else if s.limit i c < s.outCount i c + lines then 2
  else if !s.gateOk c len then 3
  else if !s.bucketOk b c then 4
  else if s.rdb F.ADM_BROWN_ACTIVE ∧ i < 18 ∧ s.adm.brown ≤ 0 ∧ !s.suspended c then 5
  else 0

/-- Guarantee credit and bytes admitted of a class (R355, R359). -/
def State.credit (s : State) (c len : Nat) : State :=
  let a := s.adm
  let s1 := s.setAdm { a with
    gc := mput a.gc c (max (-8192) ((mget a.gc c).getD 0 - Int.ofNat len)),
    monB := mput a.monB c ((mget a.monB c).getD 0 + len) }
  s1.bump F.ADM_CLS_DELIV_BYTES c 0 len (some c)

/-- A unit enters (R353): its count, its bucket, the brown bucket, the guarantee credit. -/
def State.enter (s : State) (i c b len lines : Nat) : State :=
  let s1 := ((s.outAdd i c lines).debit b c len).credit c len
  if s1.rdb F.ADM_BROWN_ACTIVE ∧ i < 18 ∧ !s1.suspended c then
    s1.setAdm { s1.adm with brown := debited s1.adm.brown (s1.counted c len) (s1.rd F.ADM_CLS_CFG_OVERHEAD c) }
  else s1

/-- A continuation of some bytes enters (R339): no new outstanding entry, no gate, no token; the debit at once. -/
def State.continue_ (s : State) (c b len : Nat) : State := (s.debit b c len).credit c len

/-- Internal work enters under a class at ingress 19, in a slot of the next cycle; none when it is not eligible. -/
def State.admitInternal (s : State) (c len : Nat) : Option State :=
  let b := s.pairBucket 19 c
  if s.barred 19 c b len 1 = 0 then
    let s1 := s.enter 19 c b len 1
    some (s1.setAdm { s1.adm with taken := s1.adm.taken + 1 })
  else none

/-- Internal work leaves: it commits, aborts or is dropped. -/
def State.leaveInternal (s : State) (c : Nat) (wasted : Bool) : State := (s.outSub 19 c 1).slotDone c wasted

/-- A job part enters at ingress 18 under its queue's class and bucket; none when it is not eligible. -/
def State.admitPart (s : State) (c b len : Nat) : Option State :=
  if s.barred 18 c b len 1 = 0 then
    let s1 := s.enter 18 c b len 1
    some (s1.setAdm { s1.adm with taken := s1.adm.taken + 1 })
  else none

/-- A line of a unit leaves the device; the unit's slot is RETIRED with its last line. -/
def State.leaveUnit (s : State) (u : Nat) : State :=
  match s.adm.units.find? (fun e => decide (e.1 = u)) with
  | some (_, c, n) =>
    if n ≤ 1 then (s.setAdm { s.adm with units := s.adm.units.filter (fun e => decide (e.1 ≠ u)) }).slotDone c false
    else s.setAdm { s.adm with units := s.adm.units.map (fun e => if e.1 = u then (u, c, n - 1) else e) }
  | none => s

/-- A request's data or completion leaves the device (R340). -/
def State.leaveReq (s : State) (q : Req) : State :=
  if q.unit = 0 then s else (s.outSub q.ing q.cls 1).leaveUnit q.unit

end Sys2Proof.Machine
end

