-- ==== Sys2Proof/Machine/Flits.lean ====
section
/-!
DEFINITION. Machine/Flits.lean: the wire form of the memory chain (12_chain_links.md): CRC-64 (R406), the FEC code
(R407), messages as slots (R409, R410), DATA and control flits (R405, R408, Table 12.8).
-/
namespace Sys2Proof.Machine

/-! ## CRC-64 (Table 12.4) -/

/-- One bit of the reflected division. -/
def crc64Bit (c : BitVec 64) : BitVec 64 :=
  if c.getLsbD 0 then (c >>> 1) ^^^ 0xC96C5795D7870F42#64 else c >>> 1

/-- CRC-64 of a byte string. -/
def crc64 (bs : List Byte) : BitVec 64 :=
  bs.foldl (fun c b => times 8 crc64Bit (c ^^^ b.setWidth 64)) 0xFFFFFFFFFFFFFFFF#64 ^^^ 0xFFFFFFFFFFFFFFFF#64

/-- The prefix of a control flit (R406). -/
def ctlPrefix : Nat := 0xF000

/-- The CRC of a payload under a prefix. -/
def flitCrc (pre : Nat) (payload : List Byte) : BitVec 64 := crc64 (leBytes 2 pre ++ payload)

/-! ## FEC (R407) -/

/-- Multiplication by x in the FEC field. -/
def fecX (a : Byte) : Byte := if a.getLsbD 7 then (a <<< 1) ^^^ 0x1d#8 else a <<< 1

/-- Multiplication in the FEC field. -/
def fecMul (a b : Byte) : Byte :=
  ((List.range 8).foldl (fun (p : Byte × Byte) i => (if b.getLsbD i then p.1 ^^^ p.2 else p.1, fecX p.2)) (0, a)).1

/-- α to the n. -/
def fecPow (n : Nat) : Byte := times (n % 255) fecX 1

/-- The inverse: the 254th power. -/
def fecInv (a : Byte) : Byte := (List.range 253).foldl (fun r _ => fecMul r a) a

/-- The generator polynomial's coefficients below x^4, highest first: (x − 1)(x − α)(x − α²)(x − α³). -/
def fecGen : List Byte :=
  ((List.range 4).foldl (fun g i => List.zipWith (· ^^^ ·) (g ++ [0]) (0 :: g.map (fecMul (fecPow i)))) [1]).drop 1

/-- The four parity bytes of 124 message bytes, byte 0 the highest-degree coefficient. -/
def fecParity (bs : List Byte) : List Byte :=
  bs.foldl (fun (r : List Byte) b =>
    let f := b ^^^ r.getD 0 0
    List.zipWith (· ^^^ ·) (r.drop 1 ++ [0]) (fecGen.map (fecMul f))) [0, 0, 0, 0]

/-- Syndrome i of 128 received bytes. -/
def syndrome (bs : List Byte) (i : Nat) : Byte := bs.foldl (fun a b => fecMul a (fecPow i) ^^^ b) 0

/-- Exclusive-or a byte into place j. -/
def flipAt (bs : List Byte) (j : Nat) (e : Byte) : List Byte := bs.set j (bs.getD j 0 ^^^ e)

/-- Correct up to two bytes (R407): the corrected bytes and whether anything was corrected; none beyond that. -/
def fecDecode (bs : List Byte) : Option (List Byte × Bool) :=
  let s0 := syndrome bs 0
  let s1 := syndrome bs 1
  let s2 := syndrome bs 2
  let s3 := syndrome bs 3
  if s0 = 0 ∧ s1 = 0 ∧ s2 = 0 ∧ s3 = 0 then some (bs, false)
  else
    let det := fecMul s0 s2 ^^^ fecMul s1 s1
    if det = 0 then
      match (List.range 128).find? (fun j => decide (s0 ≠ 0 ∧ fecMul s0 (fecPow (127 - j)) = s1 ∧
          fecMul s1 (fecPow (127 - j)) = s2 ∧ fecMul s2 (fecPow (127 - j)) = s3)) with
      | some j => some (flipAt bs j s0, true)
      | none => none
    else
      let di := fecInv det
      let a1 := fecMul (fecMul s0 s3 ^^^ fecMul s1 s2) di
      let a2 := fecMul (fecMul s1 s3 ^^^ fecMul s2 s2) di
      match (List.range 128).filter (fun j =>
          let x := fecPow (127 - j)
          decide (fecMul x x ^^^ fecMul a1 x ^^^ a2 = 0)) with
      | [j, k] =>
        let xj := fecPow (127 - j)
        let xk := fecPow (127 - k)
        let e := fecMul (s1 ^^^ fecMul s0 xk) (fecInv (xj ^^^ xk))
        some (flipAt (flipAt bs j e) k (s0 ^^^ e), true)
      | _ => none

/-- The 128 bytes of a flit from its payload under a prefix (R405). -/
def flitBytes (pre : Nat) (payload : List Byte) : List Byte :=
  let b := payload ++ leBytes 8 (flitCrc pre payload).toNat
  b ++ fecParity b

/-! ## Lanes (R404) -/

/-- The bytes of a flit that logical lane l carries at width w, in their order. -/
def laneBytes (w l : Nat) (bs : List Byte) : List Byte :=
  ((List.range (bs.length / w)).map (fun k => bs.getD (k * w + l) 0))

/-- The bits of a lane's bytes, least significant first. -/
def laneBits (bs : List Byte) : List Bool := bs.flatMap (fun b => (List.range 8).map b.getLsbD)

/-- One step of the scrambler x^31 + x^28 + 1: the bit it gives and the register after it (log entry 122). -/
def lfsrStep (r : BitVec 31) : Bool × BitVec 31 :=
  let b := r.getLsbD 30 ^^ r.getLsbD 27
  (r.getLsbD 30, (r <<< 1) ||| BitVec.ofNat 31 (b2n b))

/-- The seed of a logical lane at the end of ALIGN. -/
def lfsrSeed (l : Nat) : BitVec 31 := BitVec.ofNat 31 (0x7FFFFFF0 + l)

/-- Scramble a lane's bits: each is exclusive-ored with one step of the LFSR; the same operation descrambles them. -/
def scramble : BitVec 31 → List Bool → List Bool × BitVec 31
  | r, [] => ([], r)
  | r, b :: bs =>
    let x := lfsrStep r
    let rest := scramble x.2 bs
    ((b ^^ x.1) :: rest.1, rest.2)

/-- The PAM4 level of a pair of bits, Gray-coded, the first bit the more significant: 00, 01, 11, 10 are levels 0 to 3. -/
def pam4 (a b : Bool) : Nat := if a then (if b then 2 else 3) else (if b then 1 else 0)

/-- The symbols of scrambled bits. -/
def symbols : List Bool → List Nat
  | a :: b :: bs => pam4 a b :: symbols bs
  | _ => []

/-- What logical lane l sends for the flits that follow ALIGN, in order (R404). -/
def laneSymbols (w l : Nat) (flits : List (List Byte)) : List Nat :=
  symbols (scramble (lfsrSeed l) (laneBits (flits.flatMap (laneBytes w l)))).1

/-! ## Messages as slots -/

/-- A message belongs to the REQ channel (Table 12.7). -/
def Msg.isReq (m : Msg) : Bool := decide (m.op < 0x10)

/-- Slots of a message by OP (Table 12.7). -/
def opSlots (op : Nat) : Nat :=
  if op = 0x02 then 5 else if op = 0x03 then 6 else if op = 0x11 then 5 else 1

/-- Data credits of a message by OP. -/
def opData (op : Nat) : Nat := if op = 0x02 ∨ op = 0x03 ∨ op = 0x11 then 1 else 0

/-- An OP of Table 12.7. -/
def opKnown (op : Nat) : Bool := [0x01, 0x02, 0x03, 0x04, 0x11, 0x12, 0x14].contains op

/-- The header slot (Table 12.6). -/
def Msg.header (m : Msg) : List Byte :=
  leBytes 1 m.op ++ leBytes 1 (m.dst + 16 * m.src) ++ leBytes 1 (m.cls + 16 * m.ttl) ++
    leBytes 1 (m.key + 64 * b2n m.poison) ++ leBytes 2 m.tag ++ leBytes 1 m.stat ++ leBytes 5 m.line ++
    leBytes 4 m.seq

/-- All the bytes of a message, in slots. -/
def Msg.bytes (m : Msg) : List Byte :=
  m.header ++ (if m.op = 0x03 then leBytes 16 m.be.toNat else []) ++
    (if opData m.op = 1 then lineBytes m.data else [])

/-- The message that slots spell, when they hold one whole message first. -/
def Msg.parse (bs : List Byte) : Option Msg :=
  let op := numAt bs 0 1
  if !opKnown op ∨ bs.length < 16 * opSlots op then none
  else some
    { op := op, dst := bits (numAt bs 1 1) 3 0, src := bits (numAt bs 1 1) 7 4, cls := bits (numAt bs 2 1) 3 0,
      ttl := bits (numAt bs 2 1) 7 4, key := bits (numAt bs 3 1) 5 0, poison := (numAt bs 3 1).testBit 6,
      tag := numAt bs 4 2, stat := numAt bs 6 1, line := bits (numAt bs 7 5) 37 0, seq := numAt bs 12 4,
      data := if opData op = 1 then lineOf ((bs.drop (16 * (opSlots op - 4))).take 64) else 0,
      be := if op = 0x03 then BitVec.ofNat 64 (numAt bs 16 8) else 0 }

/-- Every field of a message fits its place in the header slot (Table 12.6), its OP is one of Table 12.7, and what such a
message does not carry is zero. -/
def Msg.wf (m : Msg) : Bool :=
  opKnown m.op &&
    decide (m.dst < 16 ∧ m.src < 16 ∧ m.cls < 16 ∧ m.ttl < 16 ∧ m.key < 64 ∧ m.tag < 2 ^ 16 ∧ m.stat < 2 ^ 8 ∧
      m.line < 2 ^ 38 ∧ m.seq < 2 ^ 32 ∧ (opData m.op = 0 → m.data = 0) ∧ (m.op ≠ 0x03 → m.be = 0))

/-- The messages in a slot stream, and what is left of an unfinished one; NULL slots are skipped (R409). -/
def parseSlots : Nat → List Byte → List Msg → List Msg × List Byte
  | 0, bs, acc => (acc.reverse, bs)
  | fuel + 1, bs, acc =>
    if bs.length < 16 then (acc.reverse, bs)
    else if numAt bs 0 1 = 0 then parseSlots fuel (bs.drop 16) acc
    else
      match Msg.parse bs with
      | some m => parseSlots fuel (bs.drop (16 * opSlots m.op)) (m :: acc)
      | none => if opKnown (numAt bs 0 1) then (acc.reverse, bs) else parseSlots fuel (bs.drop 16) acc

/-! ## Flits -/

/-- The payload of a DATA flit: ACK, FIRST and seven slots (Table 12.5, R409). -/
def dataPayload (ack : Option Nat) (first : Nat) (slots : List Byte) : List Byte :=
  leBytes 4 ((match ack with | some a => 4 + 2 ^ 8 * a | none => 0) + 2 ^ 20 * first) ++
    slots ++ List.replicate (112 - slots.length) 0

/-- The link state block (bytes 4 to 15 of a control flit). -/
def lsBytes (l : LinkState) : List Byte :=
  leBytes 2 (match l.ack with | some a => a + 2 ^ 15 | none => 0) ++ leBytes 2 l.reqH ++ leBytes 2 l.reqD ++
    leBytes 2 l.rspH ++ leBytes 2 l.rspD ++ leBytes 2 0

/-- The payload of a control flit (Table 12.8). -/
def ctlPayload (ctype : Nat) (l : LinkState) (body : List Byte) : List Byte :=
  let b := leBytes 4 (1 + 2 ^ 3 * ctype) ++ lsBytes l ++ body
  b ++ List.replicate (116 - b.length) 0

/-- The body of INIT. -/
def initBytes (b : InitBody) : List Byte :=
  leBytes 4 b.sn.toNat ++ leBytes 1 (b.port + 16 * b.ver) ++ leBytes 1 b.width ++
    leBytes 1 (b2n b.seen + 2 * b2n b.head + 4 * b2n b.idValid + 16 * b.id) ++ leBytes 1 0 ++
    leBytes 2 b.credits.reqH ++ leBytes 2 b.credits.reqD ++ leBytes 2 b.credits.rspH ++ leBytes 2 b.credits.rspD

/-- An entry of TOKEN or ASSIGN. -/
def entryBytes (e : RingEntry) : List Byte := leBytes 4 e.sn.toNat ++ leBytes 1 (e.id + 16 * b2n e.valid)

/-- The body of RING. -/
def ringBytes (reports : List RingReport) (round : Nat) : List Byte :=
  (reports.map (fun r => BitVec.ofNat 8 (b2n r.cl0 + 2 * b2n r.cl1 + 4 * r.ucnt))) ++ leBytes 2 round

/-- The body of TOKEN. -/
def tokenBytes (t : TokenBody) : List Byte :=
  leBytes 2 t.round ++ leBytes 4 t.headSn.toNat ++ leBytes 1 (t.dir + 2 * b2n t.ended) ++
    leBytes 1 t.entries.length ++ (t.entries.map entryBytes).flatten

/-- The body of ASSIGN. -/
def assignBytes (t : AssignBody) : List Byte :=
  leBytes 2 t.round ++ leBytes 4 t.headSn.toNat ++ leBytes 1 (b2n t.line) ++
    leBytes 1 t.order.length ++ (t.order.map entryBytes).flatten

end Sys2Proof.Machine
end

