-- ==== Sys2Proof/Machine/Chain.lean ====
section
/-!
DEFINITION. Machine/Chain.lean: the sending side of the memory chain as shared operations (12_chain_links.md): credits
and ports (R413, R415, R416), routes (R419), far requests of this unit (R421 to R425, R429), responses of this unit as
a home (R427). A port sends whatever it may send as soon as it is given to it (log entry 14).
-/
namespace Sys2Proof.Machine

/-! ## Ports -/

/-- The port CLp. -/
def State.clp (s : State) (p : Nat) : ClPort := s.clx.ports.getD p ClPort.fresh

/-- Replace the port CLp. -/
def State.setClp (s : State) (p : Nat) (x : ClPort) : State :=
  { s with clx := { s.clx with ports := s.clx.ports.set p x } }

/-- The state of a port (Table 12.2; codes of CLX_PORT_STS). -/
def State.clState (s : State) (p : Nat) : Nat := s.rd F.CLX_PORT_STS_STATE p
def State.clActive (s : State) (p : Nat) : Bool := decide (s.clState p = 5)

/-- The link is up: ACTIVE, or RETRAIN until it is declared down (R402). -/
def State.clUp (s : State) (p : Nat) : Bool := decide (s.clState p = 5 ∨ s.clState p = 6)

/-- The port carries flits: ACTIVE, and CLX has not stopped for an integrity halt (R162 step 3). -/
def State.clSends (s : State) (p : Nat) : Bool := s.clActive p && decide (s.cry.halt < 3)

/-- Modulo-2^16 difference of two cumulative counts. -/
def diff16 (a b : Nat) : Nat := (a + (2 ^ 16 - b % 2 ^ 16)) % 2 ^ 16

/-- The credits available to a sender (R415). -/
def ClPort.avail (c : ClPort) : Credits :=
  { reqH := diff16 (c.init.reqH + c.returned.reqH) c.consumed.reqH,
    reqD := diff16 (c.init.reqD + c.returned.reqD) c.consumed.reqD,
    rspH := diff16 (c.init.rspH + c.returned.rspH) c.consumed.rspH,
    rspD := diff16 (c.init.rspD + c.returned.rspD) c.consumed.rspD }

/-- Add n messages' credits of a message's channel to a count. -/
def Credits.add (c : Credits) (m : Msg) : Credits :=
  if m.isReq then { c with reqH := (c.reqH + 1) % 2 ^ 16, reqD := (c.reqD + opData m.op) % 2 ^ 16 }
  else { c with rspH := (c.rspH + 1) % 2 ^ 16, rspD := (c.rspD + opData m.op) % 2 ^ 16 }

/-- The credits a message needs are there: once for a pass-through message, twice for an originated one (R416). -/
def ClPort.allows (c : ClPort) (m : Msg) (times : Nat) : Bool :=
  let a := c.avail
  if m.isReq then decide (times ≤ a.reqH ∧ times * opData m.op ≤ a.reqD)
  else decide (times ≤ a.rspH ∧ times * opData m.op ≤ a.rspD)

/-- The first message of a queue, RSP before REQ, that the credits allow. -/
def ClPort.firstOf (c : ClPort) (q : List Msg) (times : Nat) : Option Msg :=
  match q.find? (fun m => !m.isReq) with
  | some m => if c.allows m times then some m
    else match q.find? Msg.isReq with
      | some r => if c.allows r times then some r else none
      | none => none
  | none => match q.find? Msg.isReq with
    | some r => if c.allows r times then some r else none
    | none => none

/-- The next message at a boundary (R416), whether it is an originated one. -/
def ClPort.next (c : ClPort) : Option (Msg × Bool) :=
  let o := c.firstOf c.orig 2
  let p := c.firstOf c.pass 1
  match p, o with
  | some m, some x => if 3 ≤ c.since then some (x, true) else some (m, false)
  | some m, none => some (m, false)
  | none, some x => some (x, true)
  | none, none => none

/-- Take that message out of its queue and consume its credits. -/
def ClPort.take (c : ClPort) (m : Msg) (orig : Bool) : ClPort :=
  if orig then { c with orig := c.orig.erase m, since := 0, consumed := c.consumed.add m }
  else { c with pass := c.pass.erase m, since := c.since + 1, consumed := c.consumed.add m }

/-- The messages that go now, at most room slots of them. -/
def ClPort.gather : Nat → Nat → ClPort → List Msg → ClPort × List Msg
  | 0, _, c, acc => (c, acc.reverse)
  | fuel + 1, room, c, acc =>
    match c.next with
    | some (m, o) =>
      if opSlots m.op ≤ room then ClPort.gather fuel (room - opSlots m.op) (c.take m o) (m :: acc)
      else (c, acc.reverse)
    | none => (c, acc.reverse)

/-- The first slot of flit i that begins a message; starts lists the slots at which messages begin (R409). -/
def firstSlot (starts : List Nat) (i : Nat) : Nat :=
  match starts.find? (fun x => decide (7 * i ≤ x ∧ x < 7 * i + 7)) with
  | some x => x - 7 * i
  | none => 7

/-- The slots at which messages begin. -/
def msgStarts : Nat → List Msg → List Nat
  | _, [] => []
  | at_, m :: ms => at_ :: msgStarts (at_ + opSlots m.op) ms

/-- The acknowledgement a port can give: the last number accepted, once any has been. -/
def State.ackOf (s : State) (p : Nat) : Nat := (s.rd F.CLX_PORT_SEQ_RX_EXP p + 4095) % 4096

/-- The link state block of a port now. -/
def State.linkState (s : State) (p : Nat) : LinkState :=
  let c := s.clp p
  { ack := some (s.ackOf p), reqH := c.freed.reqH, reqD := c.freed.reqD, rspH := c.freed.rspH, rspD := c.freed.rspD }

/-- Send a control flit (Table 12.8, R411). -/
def State.sendCtl (s : State) (p ctype : Nat) (body : List Byte) : State :=
  if s.cry.halt < 3 then
    let c := s.clp p
    (s.emit (.flit p (flitBytes ctlPrefix (ctlPayload ctype (s.linkState p) body)))).setClp p
      { c with freedSent := c.freed, ackSent := s.ackOf p }
  else s

/-- Send one new DATA flit: number it, keep it for replay, start the timer (R413, Table 12.9). -/
def State.sendData (s : State) (p : Nat) (first : Nat) (slots : List Byte) : State :=
  let n := s.rd F.CLX_PORT_SEQ_TX_NEXT p
  let payload := dataPayload (some (s.ackOf p)) first slots
  let c := s.clp p
  ((s.emit (.flit p (flitBytes n payload))).wrI F.CLX_PORT_SEQ_TX_NEXT p ((n + 1) % 4096)).setClp p
    { c with replay := c.replay ++ [(n, payload)], timer := true, low := false }

/-- Send every message of a port that may go (R416). -/
def State.pump (s : State) (p : Nat) : State :=
  if s.clSends p then
    let c := s.clp p
    let (c1, ms) := ClPort.gather (c.pass.length + c.orig.length) (7 * (768 - c.replay.length)) c []
    let slots := (ms.map Msg.bytes).flatten
    let starts := msgStarts 0 ms
    let flits := chunks 112 (slots.length / 112 + 1) slots
    (List.range flits.length).foldl (fun s i => s.sendData p (firstSlot starts i) (flits.getD i [])) (s.setClp p c1)
  else s

/-- Give an originated message to a port: discarded and counted when its link is down (R417); while the port retrains it
waits (R402). -/
def State.originate (s : State) (p : Nat) (m : Msg) : State :=
  if s.clUp p then
    let c := s.clp p
    (s.setClp p { c with orig := c.orig ++ [m] }).pump p
  else s.bump F.CLX_PORT_DROP_DEAD p

/-! ## Routes (R419) -/

/-- This unit's chain ID, and whether it holds one. -/
def State.myId (s : State) : Nat := s.rd F.CLX_ID_ID
def State.idValid (s : State) : Bool := s.rdb F.CLX_ID_VALID

/-- The route to an ID: 0 self or none, 1 CL0, 2 CL1, 3 UNREACHABLE. -/
def State.route (s : State) (h : Nat) : Nat := bits (s.rd F.CLX_ROUTE_PORT) (2 * h + 1) (2 * h)

/-- Send an originated message toward its destination. -/
def State.sendMsg (s : State) (m : Msg) : State :=
  if s.route m.dst = 1 then s.originate 0 m
  else if s.route m.dst = 2 then s.originate 1 m
  else s

/-- A blank message from this unit. -/
def State.msgTo (s : State) (op dst : Nat) : Msg :=
  { op := op, dst := dst, src := s.myId, cls := 0, ttl := 15, key := 0, poison := false, tag := 0, stat := 0,
    line := 0, seq := 0, data := 0, be := 0 }

/-! ## Far requests of this unit -/

/-- A request is a far write. -/
def FarOut.isWrite (f : FarOut) : Bool := decide (f.req.kind ≠ .read)

/-- The message that carries a far request (R410, Table 12.6). -/
def State.farMsg (s : State) (f : FarOut) : Msg :=
  { s.msgTo (match f.req.kind with | .read => 1 | .write => 2 | .partialWrite => 3 | .inv => 1) f.home with
    cls := f.req.cls, key := f.req.key, poison := f.req.poison && f.isWrite, tag := f.tag, stat := f.slot,
    line := f.line, seq := if f.isWrite then f.seq else 0, data := if f.isWrite then f.req.data else 0,
    be := if f.req.kind = .partialWrite then f.req.be else 0 }

/-- Sent and unanswered requests. -/
def State.farSent (s : State) : List FarOut := s.clx.reqs.filter (·.sent)

/-- Unconfirmed writes to a home. -/
def State.unconf (s : State) (h : Nat) : List FarOut :=
  s.farSent.filter (fun f => f.isWrite && decide (f.home = h))

/-- All unconfirmed writes. -/
def State.unconfAll (s : State) : Nat := (s.farSent.filter FarOut.isWrite).length

/-- Replace a far request. -/
def State.setFar (s : State) (f : FarOut) : State :=
  { s with clx := { s.clx with reqs := s.clx.reqs.map (fun g => if g.id = f.id then f else g) } }

/-- Remove a far request. -/
def State.dropFar (s : State) (id : Nat) : State :=
  { s with clx := { s.clx with reqs := s.clx.reqs.filter (fun g => decide (g.id ≠ id)) } }

/-- An abandoned tag is out of use for FAR_LIMIT (R420). -/
def State.deadNow (s : State) : List (Nat × Nat) :=
  s.clx.deadTags.filter (fun e => decide (s.nowNs < e.2 + s.rd F.CLX_CFG_FAR_LIMIT * 10 ^ 6))

/-- A tag that no outstanding or abandoned request bears (R420). -/
def State.freshTag (s : State) : Nat :=
  let used := s.farSent.map (·.tag) ++ s.deadNow.map (·.1)
  ((List.range (used.length + 1)).map (fun i => (s.clx.nextTag + i) % 2 ^ 16)).find? (fun t => !used.contains t) |>.getD 0

/-- Start synchronizing with a home when nothing to it is unconfirmed (R429 step 1). -/
def State.startSync (s : State) (h : Nat) : State :=
  if (mget s.clx.syncs h).isSome ∨ (s.unconf h).length ≠ 0 then s
  else
    let n := s.clx.syncCount + 1
    let s1 := { s with clx := { s.clx with syncs := mput s.clx.syncs h n, syncCount := n } }
    s1.sendMsg { s1.msgTo 4 h with seq := n % 2 ^ 32 }

/-- The conditions under which a waiting far request goes out (R421 to R423, R425, R429). -/
def State.farMay (s : State) (f : FarOut) : Bool :=
  decide (s.route f.home = 1 ∨ s.route f.home = 2) && decide (s.farSent.length < 2048) &&
    (mget s.clx.held f.home).isNone &&
    (if f.isWrite then s.rdb F.CLX_PEER_TX_SYNCED f.home && decide ((s.unconf f.home).length < 256 ∧ s.unconfAll < 1024)
     else !s.clx.reqs.any (fun g => g.isWrite &&
       decide (g.home = f.home ∧ g.slot = f.slot ∧ g.line = f.line ∧ g.id < f.id)))

/-- Send a far request for the first time: a read under a new tag, a write with the value of NEXT (R425). -/
def State.farSend (s : State) (f : FarOut) : State :=
  let t := s.freshTag
  let next := s.rd F.CLX_PEER_TX_NEXT f.home
  let f1 := { f with sent := true, tag := t, port := s.route f.home, seq := next }
  let s1 := (s.setFar f1)
  let s2 := { s1 with clx := { s1.clx with nextTag := (t + 1) % 2 ^ 16 } }
  let s3 := if f.isWrite then s2.wrI F.CLX_PEER_TX_NEXT f.home ((next + 1) % 2 ^ 32) else s2
  s3.sendMsg (s3.farMsg f1)

/-- Send what may go among the waiting far requests, in their order; a write to an unsynchronized home starts a SYNC. -/
def State.farPump (s : State) : State :=
  (s.clx.reqs.filter (fun f => !f.sent)).foldl (fun s f =>
    if s.farMay f then s.farSend f
    else if f.isWrite ∧ s.rdb F.CLX_PEER_TX_SYNCED f.home = false ∧ (s.route f.home = 1 ∨ s.route f.home = 2)
      then s.startSync f.home
    else s) s

/-- Hand a request to CLX (R37, R423): it waits there until it may go. -/
def State.farIssue (s : State) (q : Req) (home slot line : Nat) : State :=
  let f : FarOut := { id := s.tmu.nextId, home := home, slot := slot, line := line, tag := 0, sent := false,
                      port := 0, seq := 0, req := q }
  State.farPump { s with tmu := { s.tmu with nextId := s.tmu.nextId + 1 },
                         clx := { s.clx with reqs := s.clx.reqs ++ [f] } }

/-- Answer a far read as its home (RD_RSP; STATUS 1 is REFUSED with every byte poison). -/
def State.farReadRsp (s : State) (src tag status : Nat) (poison : Bool) (v : Line) : State :=
  s.sendMsg { s.msgTo 0x11 src with tag := tag, stat := status, poison := poison, data := v }

/-- Answer a far write as its home (WR_RSP). -/
def State.farWriteRsp (s : State) (src tag status seq : Nat) : State :=
  s.sendMsg { s.msgTo 0x12 src with tag := tag, stat := status, seq := seq }

end Sys2Proof.Machine
end

