-- ==== Sys2Proof/Machine/Tiles.lean ====
section
/-!
DEFINITION. Machine/Tiles.lean: the tile map cache (R70 to R73), tile locks (R87), near frames (R168 to R182), pins
(R174) and poisoned tiles (R236 to R241) as shared operations.
-/
namespace Sys2Proof.Machine

/-! ## The tile map cache -/

/-- Write an entry to the tile map; TRANSIT lives in the cache only (Table 2.6). -/
def State.mapPut (s : State) (key : Nat) (t : Tme) : State :=
  s.setTmu { s.tmu with map := mput s.tmu.map key ({ t with transit := false }).enc }

/-- The tile-lock entry of a tile (R87). -/
def State.lockOf (s : State) (slot tile : Nat) : Option Move :=
  s.tmu.moves.find? (fun m => decide (m.kind ≠ .read ∧ m.stage ≠ .crossWait ∧ m.slot = slot ∧ m.tile = tile))

/-- Tile-lock entries in use, of the device and of a region. -/
def State.locks (s : State) : List Move := s.tmu.moves.filter (fun m => decide (m.kind ≠ .read ∧ m.stage ≠ .crossWait))
def State.lockRoom (s : State) (slot : Nat) : Bool :=
  decide (s.locks.length < 2048 ∧ (s.locks.filter (fun m => decide (m.slot = slot))).length < 256)

/-- The dirty entries of the cache. -/
def State.dirtyEntries (s : State) : List (Nat × CacheEnt) := s.tmu.cache.filter (fun e => e.2.dirty)

/-- The least recently used of some entries. -/
def lruOf (l : List (Nat × CacheEnt)) : Option Nat :=
  (l.foldl (fun (b : Option (Nat × Nat)) e => match b with
    | some x => if e.2.used < x.2 then some (e.1, e.2.used) else some x
    | none => some (e.1, e.2.used)) none).map (·.1)

/-- Write one dirty entry back. -/
def State.cleanEntry (s : State) (key : Nat) : State :=
  match mget s.tmu.cache key with
  | some e =>
    let s1 := s.mapPut key e.tme
    s1.setTmu { s1.tmu with cache := mput s1.tmu.cache key { e with dirty := false } }
  | none => s

/-- At most 16,384 dirty entries: the least recently used one is written back first (R72). -/
def State.capDirty (s : State) : State :=
  if 16384 ≤ s.dirtyEntries.length then
    match lruOf s.dirtyEntries with
    | some k => s.cleanEntry k
    | none => s
  else s

/-- An entry may leave the cache: neither TRANSIT nor locked (R72). -/
def State.evictable (s : State) (e : Nat × CacheEnt) : Bool :=
  !e.2.tme.transit && (s.lockOf (keySlot e.1) (keyTile e.1)).isNone

/-- The cached entries of the set that a tile maps to (R70). -/
def State.cacheSetOf (s : State) (slot tile : Nat) : List (Nat × CacheEnt) :=
  let n := Config.cacheSet slot tile % 32768
  s.tmu.cache.filter (fun e => decide (Config.cacheSet (keySlot e.1) (keyTile e.1) % 32768 = n))

/-- Whether a tile's entry is cached. -/
def State.cached (s : State) (slot tile : Nat) : Bool := (mget s.tmu.cache (tkey slot tile)).isSome

/-- Note the use of a cached entry. -/
def State.useEntry (s : State) (slot tile : Nat) : State :=
  match mget s.tmu.cache (tkey slot tile) with
  | some e => s.setTmu { s.tmu with cache := mput s.tmu.cache (tkey slot tile) { e with used := s.tmu.clock },
                                    clock := s.tmu.clock + 1 }
  | none => s

/-- Install a tile's entry from the map (R71); none when every way of its set is locked or TRANSIT. -/
def State.cacheIn (s : State) (slot tile : Nat) : Option State :=
  if s.cached slot tile then some (s.useEntry slot tile)
  else
    let put := fun (s : State) => s.setTmu { s.tmu with
      cache := mput s.tmu.cache (tkey slot tile) { tme := s.mapTme slot tile, dirty := false, used := s.tmu.clock },
      clock := s.tmu.clock + 1 }
    if s.tmu.cache.length < 16 ∨ (s.cacheSetOf slot tile).length < 16 then some (put s)
    else match lruOf ((s.cacheSetOf slot tile).filter s.evictable) with
      | some k =>
        let s1 := match mget s.tmu.cache k with
          | some e => if e.dirty then s.cleanEntry k else s
          | none => s
        some (put (s1.setTmu { s1.tmu with cache := mdel s1.tmu.cache k }))
      | none => none

/-- Put an entry that the cache holds: it is dirty now. -/
def State.putCached (s : State) (slot tile : Nat) (t : Tme) : State :=
  match mget s.tmu.cache (tkey slot tile) with
  | some e =>
    let s1 := if e.dirty then s else s.capDirty
    s1.setTmu { s1.tmu with cache := mput s1.tmu.cache (tkey slot tile) { e with tme := t, dirty := true } }
  | none => s

/-- Put a tile's entry, through the cache (R70): an entry that is not there is installed first. Where every way of its set
is locked or TRANSIT the update goes to the map (log entry 101). -/
def State.setTme (s : State) (slot tile : Nat) (t : Tme) : State :=
  match s.cacheIn slot tile with
  | some s1 => s1.putCached slot tile t
  | none => s.mapPut (tkey slot tile) t

/-- Write every dirty entry back (R73). -/
def State.writeBack (s : State) : State := s.dirtyEntries.foldl (fun s e => s.cleanEntry e.1) s

/-! ## Frames -/

/-- The frame-table entry of a frame that is not FREE. -/
def State.fte (s : State) (f : Nat) : Option Fte := mget s.near.ftes f

/-- Free frames of a state: not listed and not withheld; in near-only mode every region takes one frame for each of its
tiles (R190). -/
def State.freeCount (s : State) : Nat :=
  if s.nearOnly then
    let taken := (List.range 64).filter (fun r => decide (s.rgnState r ≠ 0 ∧ s.rgnType r ≠ 4))
    s.rd F.SCR_FRAMES_TOTAL - (taken.map s.rgnTiles).foldl (· + ·) 0 -
      (s.near.withheld.filter (fun f => !taken.any (fun r =>
        decide (s.rd F.TMU_RGN_MAPLOC_LOC r ≤ f ∧ f < s.rd F.TMU_RGN_MAPLOC_LOC r + s.rgnTiles r)))).length
  else s.rd F.SCR_FRAMES_TOTAL - s.near.ftes.length - (s.near.withheld.filter (fun f => (s.fte f).isNone)).length

/-- The first number that a rising list leaves out. -/
def firstGap : List Nat → Nat → Nat
  | [], c => c
  | k :: ks, c => if k = c then firstGap ks (c + 1) else if k < c then firstGap ks c else c

/-- The lowest-numbered FREE frame (the spec names no choice). -/
def State.freeFrame (s : State) : Option Nat :=
  let f := firstGap (s.near.withheld.foldl ninsert (s.near.ftes.map (·.1))) 0
  if f < s.rd F.SCR_FRAMES_TOTAL then some f else none

/-- Free frames against a percentage of TOTAL. -/
def State.freeBelow (s : State) (pct : Fld) : Bool :=
  decide (s.freeCount * 100 < s.rd pct * s.rd F.SCR_FRAMES_TOTAL)

/-- FRAME_LOW is raised when free frames fall below FREE_LOW (Table 5.12). -/
def State.watchFree (s : State) : State :=
  if s.freeBelow F.SCR_FRAME_WM_FREE_LOW then
    (if s.scr.low then s else (s.setScr { s.scr with low := true }).raise cFrameLow)
  else s.setScr { s.scr with low := false }

/-- Put a frame-table entry. -/
def State.setFte (s : State) (f : Nat) (e : Fte) : State :=
  (s.setNear { s.near with ftes := mput s.near.ftes f e }).watchFree

/-- A frame becomes FREE, and is no candidate any more. -/
def State.freeFte (s : State) (f : Nat) : State :=
  let s1 := if s.scr.cands.contains f then
      s.setScr { s.scr with cands := s.scr.cands.filter (fun x => decide (x ≠ f)) } else s
  (s1.setNear { s1.near with ftes := mdel s1.near.ftes f }).watchFree

/-- The aging period NOW (R176). -/
def State.agingNow (s : State) : Nat := s.epoch / s.rd F.SCR_MOV_CFG_AGE_EPOCHS % 4096

/-- How many aging periods an entry has not been touched for. -/
def State.age (s : State) (e : Fte) : Nat := (s.agingNow + 4096 - e.stamp) % 4096

/-- The effective heat (R176). -/
def State.heat (s : State) (e : Fte) : Nat := if 4 ≤ s.age e then 0 else e.heat / 2 ^ s.age e

/-- Frames of a region in state DIRTY or MOVING (R82). -/
def State.dirtyOf (s : State) (slot : Nat) : Nat :=
  (s.near.ftes.filter (fun e => decide (e.2.slot = slot ∧ (e.2.state = .dirty ∨ e.2.state = .moving)))).length

/-- Frames with PIN set. -/
def State.pinnedCount (s : State) : Nat := (s.near.ftes.filter (fun e => e.2.pin)).length

/-- A new pin may be taken (R174). -/
def State.pinRoom (s : State) : Bool :=
  decide (s.pinnedCount * 100 < s.rd F.SCR_FRAME_WM_PIN_MAX * s.rd F.SCR_FRAMES_TOTAL)

/-- A saturated tile of a slot without further generations (R579); one that bears the parity of the generation before can
still cross. -/
def State.stuck (s : State) (slot : Nat) (t : Tme) : Bool :=
  t.saturated && t.gen && decide (s.rd F.CRY_RGN_GEN_CUR slot = 0xffffffff)

/-- Some write waits for a frame or for a region's demotions (R178, R183). -/
def Why.forFrame : Why → Bool
  | .frame => true
  | _ => false
def Why.forRegion : Why → Bool
  | .dirtyCap => true
  | .reserve => true
  | _ => false

/-- A frame may stand on the candidate list (R178). -/
def State.mayList (s : State) (f : Nat) (e : Fte) : Bool :=
  let st := s.rgnState e.slot
  !e.pin && decide (st = 1 ∨ st = 2) &&
    (match e.state with
     | .clean => true
     | .dirty => e.first || s.near.withheld.contains f || decide (s.heat e ≤ s.rd F.SCR_MOV_CFG_COLD_THRESH) ||
         s.tmu.waits.any (fun w => w.why.forFrame || (w.why.forRegion && decide (w.slot = e.slot)))
     | _ => false)

/-- The candidates, in list order. -/
def State.cands (s : State) : List (Nat × Fte) :=
  s.scr.cands.filterMap (fun f => match s.fte f with
    | some e => if s.mayList f e then some (f, e) else none
    | none => none)

/-- A frame leaves the candidate list. -/
def State.unlist (s : State) (f : Nat) : State :=
  if s.scr.cands.contains f then s.setScr { s.scr with cands := s.scr.cands.filter (fun x => decide (x ≠ f)) } else s

/-- A Mayfly sample of a frame, one access in 2^SAMPLE_SHIFT (R176); a listed DIRTY frame that it makes too warm leaves the
candidate list (R178). -/
def State.sample (s : State) (f : Nat) : State :=
  match s.fte f with
  | some e =>
    let s1 := s.drawn
    if Config.sampler s.draw % 2 ^ s.rd F.SCR_MOV_CFG_SAMPLE_SHIFT = 0 then
      let e1 := { e with heat := min 15 (s.heat e + 1), stamp := s.agingNow }
      let s2 := s1.setFte f e1
      if s2.mayList f e1 then s2 else s2.unlist f
    else s1
  | none => s

/-- The coldest of some frames: lowest effective heat, oldest STAMP among equals, then list order. -/
def State.coldest (s : State) (l : List (Nat × Fte)) : Option (Nat × Fte) :=
  l.foldl (fun (b : Option (Nat × Fte)) x => match b with
    | none => some x
    | some y => if s.heat x.2 < s.heat y.2 ∨ (s.heat x.2 = s.heat y.2 ∧ s.age y.2 < s.age x.2) then some x else some y)
    none

/-- A CLEAN frame may be evicted: unpinned, not locked, no tile of R579. -/
def State.mayEvict (s : State) (e : Fte) : Bool :=
  decide (e.state = .clean) && !e.pin && (s.lockOf e.slot e.tile).isNone && !s.stuck e.slot (s.tme e.slot e.tile)

/-- Clean eviction (R181): NV clears and the frame is FREE. -/
def State.evict (s : State) (f : Nat) : State :=
  match s.fte f with
  | some e =>
    if s.mayEvict e then
      ((s.setTme e.slot e.tile { s.tme e.slot e.tile with nv := false }).freeFte f).bump F.SCR_CNT_EVICT_FRAMES
    else s
  | none => s

/-- A FREE frame, after evicting the coldest CLEAN candidate where there is none (R179). -/
def State.takeFrame (s : State) : Option (Nat × State) :=
  match s.freeFrame with
  | some f => some (f, s)
  | none => match s.coldest (s.cands.filter (fun x => s.mayEvict x.2)) with
    | some (f, _) =>
      let s1 := s.evict f
      if s1.freeFrame = some f then some (f, s1) else none
    | none => none

/-- Pin a tile that is to be pinned, as far as the limit allows; else PINNED clears (R174). -/
def State.pinTile (s : State) (slot tile f : Nat) : State × Bool :=
  let t := s.tme slot tile
  match s.fte f with
  | some e =>
    if e.pin then (s, true)
    else if s.pinRoom then
      ((s.setFte f { e with pin := true }).setTme slot tile { t with pinned := true }, true)
    else (s.setTme slot tile { t with pinned := false }, false)
  | none => (s, false)

/-- A tile's policy or flag asks for a pin. -/
def State.wantsPin (s : State) (slot : Nat) (t : Tme) : Bool :=
  decide (s.rd F.TMU_RGN_POLICY_TIER slot = 1) || t.pinned

/-- Install a tile in a frame (R88, R177): bytes, poison markers, NV, heat, stamp, pins. -/
def State.install (s : State) (slot tile f : Nat) (bs : List Byte) (marks : List Nat) (heat : Nat) (st : FState) : State :=
  let s1 := (s.unlist f).putFrame f bs marks
  let s2 := s1.setFte f { tile := tile, slot := slot, state := st, pin := false, first := false, heat := heat,
                          stamp := s1.agingNow }
  let s3 := s2.setTme slot tile { s2.tme slot tile with nv := true, near := f }
  if s3.wantsPin slot (s3.tme slot tile) then (s3.pinTile slot tile f).1 else s3

/-! ## Poison -/

/-- The committed run of a tile goes back (R79): to the retired set when RETIRED is set, else to its pool; a fixed slot
stays. -/
def State.returnRun (s : State) (slot : Nat) (t : Tme) : State :=
  if s.fixedSlots slot ∨ t.len = 0 then s
  else
    let s1 := s.unclaim slot t.len
    if t.retired then s1.retireRun t.loc t.len else s1.freeRun t.loc t.len

/-- A tile becomes wholly poisoned (R236, R238): one commit; its near frame, if any, is rewritten with markers. -/
def State.poisonTile (s : State) (slot tile : Nat) : State :=
  let t := s.tme slot tile
  let s1 := s.returnRun slot t
  let s2 := s1.setTme slot tile { t with
    loc := if s.fixedSlots slot then t.loc else 0, len := 0, fmt := .zero, poison := true, tcs := 0, tag := 0,
    unmat := false, retired := if s.fixedSlots slot then t.retired else false }
  let s3 := if t.nv then s2.poisonFrame t.near else s2
  (s3.bump F.RAS_POISON_CNT_TILES).raise cPoisonCreated (region := some slot)

end Sys2Proof.Machine
end

