-- ==== Sys2Proof/Machine/Training.lean ====
section
/-!
DEFINITION. Machine/Training.lean: what memory training selects and how it lays the tiers out (R7, R42, R190, R191, R196 to
R203, R209, R490; Tables 1.8, 5.2, 6.1 to 6.3).
-/
namespace Sys2Proof.Machine

/-! ## The near tier (R197, Table 5.2) -/

/-- The largest power of two not above n, for n below 32. -/
def floorPow2 (n : Nat) : Nat := if 16 ≤ n then 16 else if 8 ≤ n then 8 else if 4 ≤ n then 4 else if 2 ≤ n then 2 else n

/-- The working positions once the second run is settled (R209): a selected position that fails it is taken out and the
selection runs again. -/
def settleNear : Nat → List NearPos → List NearPos
  | 0, _ => []
  | fuel + 1, w =>
    if w.length < 2 then w
    else
      let sel := w.take (floorPow2 w.length)
      if sel.all (·.second) then w
      else settleNear fuel (w.filter (fun p => p.second || !sel.contains p))

/-- The positions that NTC selects: none with fewer than two working positions. -/
def selectNear (fuel : Nat) (w : List NearPos) : List NearPos :=
  let left := settleNear fuel w
  if left.length < 2 then [] else left.take (floorPow2 left.length)

/-- The data rates of Table 6.1. -/
def nearRates : List Nat := [24, 20, 18, 16, 14]

/-- Positions in ascending order that hold devices of Table 6.1 and passed training, on dies that are linked (R195). -/
def State.workingNear (s : State) (r : TrainResult) : List NearPos :=
  (List.range 16).filterMap (fun n =>
    r.near.find? (fun p => decide (p.pos = n ∧ p.density = 16) && nearRates.contains p.rate &&
      !(s.rd F.AON_D2D_LOST).testBit (2 + n / 8) &&
      !(s.rdb F.NTC_CH_CTL_FAILED (2 * n) || s.rdb F.NTC_CH_CTL_FAILED (2 * n + 1))))

/-- Usable frames of n channels: 15,728,640 lines each per device (R199). -/
def usableFrames (nch : Nat) (clamshell : Bool) : Nat := nch * 15728640 * (if clamshell then 2 else 1) / 64

/-- Frames for tiles (Table 5.2): without the sparse directory, the queue contexts, the error log, the frame table. -/
def tileFrames (nch : Nat) (clamshell : Bool) : Nat :=
  let u := usableFrames nch clamshell
  u - (262144 + 16384 + 16 + ceilDiv (u * 8) 4096)

/-! ## The bulk tier (R196, R198) -/

/-- GiB of one logical rank on one channel: sixteen x4 data devices. -/
def rankGib (d : DimmInfo) : Nat := d.density * 2

/-- Logical ranks of a DIMM. -/
def dimmRanks (d : DimmInfo) : Nat := d.ranks * d.stack

/-- A configuration of Table 6.2. -/
def dimmOk (d : DimmInfo) : Bool :=
  d.rdimm && decide (d.width = 4) && [16, 24, 32, 64].contains d.density && [1, 2, 4].contains d.ranks && [1, 2, 4].contains d.stack &&
    decide (dimmRanks d ≤ 8 ∧ rankGib d * dimmRanks d ≤ 256 ∧ 48 ≤ d.rate ∧ d.ch < 16 ∧ d.slot < 2) && d.pass

/-- The organization that a slot shares over its channels. -/
def orgOf (d : DimmInfo) : Nat × Nat × Nat := (d.density, d.ranks, d.stack)

/-- An arrangement: channels and used slots with their DIMMs. -/
structure Arrange where
  chans : List Nat
  slots : List Nat
  dimms : List DimmInfo
  deriving DecidableEq, Repr

/-- The GiB of an arrangement. -/
def Arrange.gib (a : Arrange) : Nat := (a.dimms.map (fun d => rankGib d * dimmRanks d)).foldl (· + ·) 0

/-- Lower-numbered channels weigh more. -/
def Arrange.weight (a : Arrange) : Nat := (a.chans.map (fun c => 2 ^ (15 - c))).foldl (· + ·) 0

/-- a is taken before b (R198 steps 2 to 5). -/
def Arrange.before (a b : Arrange) : Bool :=
  decide (b.gib < a.gib) || (decide (a.gib = b.gib) &&
    (decide (b.chans.length < a.chans.length) || (decide (a.chans.length = b.chans.length) &&
      (decide (b.weight < a.weight) || (decide (a.weight = b.weight) && a.slots.contains 0 && !b.slots.contains 0)))))

/-- The arrangement that uses given slots with the organizations of a channel. -/
def arrangeLike (ds : List DimmInfo) (slots : List Nat) (c : Nat) : Option Arrange :=
  let at_ := fun ch sl => ds.find? (fun d => decide (d.ch = ch ∧ d.slot = sl))
  if slots.all (fun sl => (at_ c sl).isSome) then
    let same := (List.range 16).filter (fun ch => slots.all (fun sl =>
      match at_ ch sl, at_ c sl with | some x, some y => decide (orgOf x = orgOf y) | _, _ => false))
    let chans := same.take (floorPow2 same.length)
    some { chans := chans, slots := slots,
           dimms := slots.flatMap (fun sl => chans.filterMap (fun ch => at_ ch sl)) }
  else none

/-- The arrangement that firmware takes among the usable DIMMs. -/
def bestArrange (ds : List DimmInfo) : Option Arrange :=
  ([[0], [1], [0, 1]].flatMap (fun sl => (List.range 16).filterMap (arrangeLike ds sl))).foldl
    (fun b a => match b with
      | none => some a
      | some x => if a.before x then some a else some x) none

/-- Selection with the second run (R209): a selected DIMM that fails it is taken out and the selection runs again. -/
def selectBulk : Nat → List DimmInfo → Option Arrange
  | 0, _ => none
  | fuel + 1, ds =>
    match bestArrange ds with
    | none => none
    | some a => if a.dimms.all (·.second) then some a
      else selectBulk fuel (ds.filter (fun d => d.second || !a.dimms.contains d))

/-- DIMMs that may be used: in Table 6.2, passed, on linked dies, not FAILED. -/
def State.workingDimms (s : State) (r : TrainResult) : List DimmInfo :=
  r.dimms.filter (fun d => dimmOk d && !(s.rd F.AON_D2D_LOST).testBit (d.ch / 8) &&
    !(s.rdb F.BTC_SC_CTL_FAILED (2 * d.ch) || s.rdb F.BTC_SC_CTL_FAILED (2 * d.ch + 1)) &&
    !s.rdb F.BTC_DIMM_PMIC_FAULT (2 * d.ch + d.slot))

/-- The rank sets of an arrangement (R198, R201): slot 0 ranks first. -/
def rankSetsOf (a : Arrange) : List RankSet :=
  let perSlot := a.slots.flatMap (fun sl =>
    match a.dimms.find? (fun d => decide (d.slot = sl)) with
    | some d => (List.range (dimmRanks d)).map (fun r => (sl, r, d.density))
    | none => [])
  (perSlot.foldl (fun (acc : List RankSet × Nat) e =>
    let sectors := e.2.2 * 2 * a.chans.length * 2 ^ 24
    (acc.1 ++ [{ id := acc.1.length, slot := e.1, rank := e.2.1, first := acc.2, sectors := sectors,
                 rows := e.2.2 * 4096, usable := true }], acc.2 + sectors)) ([], 0)).1

/-- The reserve rows of a bank (R202): the highest 2 %, rounded up. -/
def reserveRows (r : RankSet) : Nat := ceilDiv (r.rows * 2) 100

/-- The first sector of the reserve in a rank set over nb channels. -/
def reserveStart (nb : Nat) (r : RankSet) : Nat := r.first + (r.rows - reserveRows r) * 4096 * (2 * nb)

/-- Reserve sectors of a rank set. -/
def reserveSectors (nb : Nat) (r : RankSet) : Nat := reserveRows r * 4096 * (2 * nb)

/-- Sectors of the resume area (R490). -/
def resumeSectors : Nat := 131072

/-- The tile map space (R42): 1/64 of the raw sectors, whole chunks. -/
def mapSectors (raw : Nat) : Nat := ceilDiv (ceilDiv raw 64) 4096 * 4096

/-- Frames for tiles in bulk-only mode (R191): 1/64 of raw, whole GiB, 2 to 60 GiB. -/
def bulkFrames (rawSectors : Nat) : Nat := clampTo 2 60 (rawSectors / 64 / 2 ^ 24) * 262144

/-- Sectors of the frame area of bulk-only mode: frames, the reserved structures, the frame table. -/
def frameArea (frames : Nat) : Nat :=
  ceilDiv ((frames + 262144 + 16384 + 16 + ceilDiv (frames * 8) 4096) * 64) 4096 * 4096

/-- The free intervals of the tile sectors: each set below its reserve, set 0 above the map space and below the frame
area of bulk-only mode. -/
def tileIntervals (nb : Nat) (sets : List RankSet) (mapN frameN : Nat) : List (Nat × Nat) :=
  sets.map (fun r =>
    let a := r.first + (if r.id = 0 then mapN else 0)
    (a, reserveStart nb r - (if r.id = 0 then frameN else 0) - a))

/-! ## Applying a selection -/

/-- The rate of the bulk tier (R7), in units of 100 MT/s. -/
def bulkRate (grade : Nat) (ds : List DimmInfo) : Nat :=
  let m := ds.foldl (fun m d => min m d.rate) (if grade = 0 then 64 else 56)
  if 64 ≤ m then 64 else if 56 ≤ m then 56 else 48

/-- The near side of a selection; POS_EXCL shows the working positions left out, not those that the second run excluded. -/
def State.layNear (s : State) (r : TrainResult) : State :=
  let w := s.workingNear r
  let sel := selectNear 17 w
  let nch := 2 * sel.length
  let act := maskOf (sel.map (·.pos))
  let rate := sel.foldl (fun m p => min m p.rate) 31
  let s1 := ((((s.wr F.NTC_CONFIG_POS_ACTIVE act).wr F.NTC_CONFIG_RATE (if sel.isEmpty then 0 else rate)).wr
    F.NTC_CONFIG_CLAMSHELL (b2n r.clamshell)).wr F.NTC_CONFIG_NCH nch).wr F.NTC_CONFIG_POS_EXCL
      (maskOf (((settleNear 17 w).map (·.pos)).filter (fun p => !act.testBit p)))
  let s2 := s1.wr F.SCR_FRAMES_TOTAL (if sel.isEmpty then 0 else tileFrames nch r.clamshell)
  (List.range 32).foldl (fun s c =>
    if act.testBit (c / 2) then s.wrI F.NTC_CH_CTL_EXCLUDED c 0
    else (s.wrI F.NTC_CH_CTL_EXCLUDED c 1).raise (cNtc c 1)) s2

/-- The bulk side of a selection: channels, sets, DIMM pages. -/
def State.layBulk (s : State) (r : TrainResult) : State :=
  let a := (selectBulk 33 (s.workingDimms r)).getD { chans := [], slots := [], dimms := [] }
  let sets := rankSetsOf a
  let nb := a.chans.length
  let act := maskOf a.chans
  let s1 := (((s.wr F.BTC_SB_SLOW r.slow.toNat |>.wr F.BTC_CONFIG_CH_ACTIVE act).wr F.BTC_CONFIG_NCH nb).wr F.BTC_CONFIG_SETS sets.length).wr
    F.BTC_CONFIG_RATE (if nb = 0 then 0 else bulkRate s.fuses.grade a.dimms)
  let s2 := { s1 with bulk := { s1.bulk with sets := sets, dimms := r.dimms } }
  let s3 := r.dimms.foldl (fun s d =>
    let i := 2 * d.ch + d.slot
    ((((s.wrI F.BTC_DIMM_ID_PRESENT i 1).wrI F.BTC_DIMM_ID_EXCLUDED i (b2n (!a.dimms.contains d))).wrI
      F.BTC_DIMM_ID_RANKS i (dimmRanks d)).wrI F.BTC_DIMM_ID_DENSITY i d.density).wrI F.BTC_DIMM_ID_SERIAL i
        d.serial.toNat) s2
  (List.range 32).foldl (fun s u =>
    let s4 := s.wrI F.BTC_SC_CTL_EXCLUDED u (b2n (!act.testBit (u / 2)))
    if !act.testBit (u / 2) ∨ r.dimms.any (fun d => decide (d.ch = u / 2) && !a.dimms.contains d)
    then s4.raise (cBtc u 1) else s4) s3

/-- The modes that the selected channels give (R44, R190, R191). -/
def State.selNearOnly (s : State) : Bool := decide (s.rd F.BTC_CONFIG_NCH = 0) && decide (s.rd F.NTC_CONFIG_NCH ≠ 0)
def State.selBulkOnly (s : State) : Bool := decide (s.rd F.BTC_CONFIG_NCH ≠ 0) && decide (s.rd F.NTC_CONFIG_NCH = 0)

/-- The unit enters the mode of its channels; ADM recomputes its floor. -/
def State.enterModes (s : State) : State :=
  let s1 := if s.selNearOnly ∧ !s.rdb F.SCR_MOV_STS_NEAR_ONLY then (s.wr F.SCR_MOV_STS_NEAR_ONLY 1).raise cNearOnly else s
  let s2 := if s1.selBulkOnly ∧ !s1.rdb F.SCR_MOV_STS_BULK_ONLY then (s1.wr F.SCR_MOV_STS_BULK_ONLY 1).raise cBulkOnly else s1
  { s2 with adm := { s2.adm with recompute := true } }

/-- Raw sectors of the rank sets in use. -/
def State.rawSectors (s : State) : Nat := (s.bulk.sets.map (·.sectors)).foldl (· + ·) 0

/-- The layout of the tile sectors, the map space and the reserve. -/
def State.laySpace (s : State) : State :=
  let sets := s.bulk.sets
  let nb := s.rd F.BTC_CONFIG_NCH
  let raw := s.rawSectors
  let nearOnly := s.selNearOnly
  let bulkOnly := s.selBulkOnly
  let mapN := mapSectors raw
  let frames := if bulkOnly then bulkFrames raw else s.rd F.SCR_FRAMES_TOTAL
  let iv := tileIntervals nb sets mapN (if bulkOnly then frameArea frames else 0)
  let cap := if nearOnly then frames * 64 else (iv.map (·.2)).foldl (· + ·) 0
  let res := (sets.map (reserveSectors nb)).foldl (· + ·) 0 - (if nb = 0 then 0 else resumeSectors)
  let s1 := (((s.wr F.TMU_CAP_TOTAL_SECTORS cap).wr F.TMU_MAP_BASE_LOC 0).wr F.TMU_MAP_SIZE_SECTORS mapN).wr
    F.SCR_FRAMES_TOTAL frames
  let s2 := (s1.wr F.RAS_RESERVE_TOTAL res).wr F.RAS_RESERVE2_REMAIN res
  { s2 with tmu := { s2.tmu with freeIv := iv.filter (fun e => decide (e.2 ≠ 0)), mapFree := [(0, mapN)] } }

end Sys2Proof.Machine
end

