-- ==== Sys2Proof/Machine/Faults.lean ====
section
/-!
DEFINITION. Machine/Faults.lean: what RAS does with an error outcome as shared operations (R242 to R259, 07_ras.md): the
repeat tracker, hard faults, remapping, withheld rows, failing rank sets, uncorrectable lines and sectors.
-/
namespace Sys2Proof.Machine

/-! ## Where a line or a sector lies for RAS -/

/-- A place as RAS names it: the RAS page (near channel c at c, bulk channel n at 32 + n), LOCATION, and whether the
write-back is off (HOLD or FAILING, R242), and whether it is by HOLD (R247). -/
structure Spot where
  page : Nat
  loc : Nat
  held : Bool
  hold : Bool
  deriving DecidableEq, Repr

/-- The first sector of the frame area of bulk-only mode (R191). -/
def State.frameBase (s : State) : Nat :=
  match s.bulk.sets with
  | r :: _ => reserveStart (s.rd F.BTC_CONFIG_NCH) r - frameArea (s.rd F.SCR_FRAMES_TOTAL)
  | [] => 0

/-- The spot of a bulk sector: the row that the access reached (R208, R252). -/
def State.sectorSpot (s : State) (x : Nat) : Spot :=
  match s.placeNow x with
  | some p => { page := 32 + p.ch, loc := bulkLocation p,
                held := s.rdb F.BTC_SC_CTL_HOLD (subch p.ch p.subB) || (s.rd F.RAS_RANK_STS_FAILING).testBit p.set,
                hold := s.rdb F.BTC_SC_CTL_HOLD (subch p.ch p.subB) }
  | none => { page := 32, loc := 0, held := false, hold := false }

/-- The spot of line l of frame f, in either mode. -/
def State.lineSpot (s : State) (f l : Nat) : Spot :=
  if s.bulkOnly then s.sectorSpot (s.frameBase + f * 64 + l)
  else
    let p := s.nearPlaceOf f l
    { page := p.ch, loc := nearLocation p, held := s.rdb F.NTC_CH_CTL_HOLD p.ch,
      hold := s.rdb F.NTC_CH_CTL_HOLD p.ch }

/-- The row key: LOCATION bits 35:5 (Table 7.8). -/
def Spot.key (p : Spot) : Nat := p.loc / 32 % 2 ^ 31

/-- Parts of a row key. -/
def keySubB (k : Nat) : Bool := k.testBit 0
def keySet (k : Nat) : Nat := bits k 5 2
def keyBank (k : Nat) : Nat := bits k 10 6
def keyRow (k : Nat) : Nat := bits k 30 11

/-- LOCATION of a row on a RAS page. -/
def rowLocation (page k : Nat) : Nat := page % 32 % 16 + (if page < 32 then page / 16 * 16 else 0) + 32 * k

/-- BLOCK of a failure on a RAS page. -/
def pageBlk (page : Nat) : Nat := if page < 32 then 0x0a else 0x0b

/-- What a tracker action reports: the tile read, when there is one. -/
structure Seen where
  slot : Option Nat := none
  tile : Nat := 0
  deriving DecidableEq, Repr

/-! ## Failing rank sets (R257, R258 step 1) -/

/-- The evacuation of a set begins (R258 step 1): a spare set, where one is configured, becomes its destination. -/
def State.startEvacuation (s : State) (id : Nat) : State :=
  let spare := s.rd F.RAS_SPARE_SET_SET
  let s3 := s.setRas { s.ras with evac := some (id, 0, 0), evacDest := none }
  if s.rdb F.RAS_SPARE_SET_VALID ∧ spare ≠ id then
    let s4 := s3.setRas { s3.ras with evacDest := some spare }
    let mine := s4.tmu.withheld.filter (fun e => match s4.setOf e.1 with
      | some r => decide (r.id = spare) | none => false)
    let s5 := (s4.setTmu { s4.tmu with withheld := s4.tmu.withheld.filter (fun e => !mine.contains e) }).giveBack mine
    if s5.retained id then s5.wr F.BTC_RETAIN_SETS (setBit (s5.rd F.BTC_RETAIN_SETS) spare) else s5
  else s3

/-- A rank set becomes FAILING: the record, the event, the evacuation begins. -/
def State.rankFailing (s : State) (id cause : Nat) : State :=
  if (s.rd F.RAS_RANK_STS_FAILING).testBit id ∨ (s.rd F.RAS_RANK_STS_REMOVED).testBit id ∨
      !s.bulk.sets.any (fun r => decide (r.id = id)) then s
  else
    let s1 := s.wr F.RAS_RANK_STS_FAILING (setBit (s.rd F.RAS_RANK_STS_FAILING) id)
    let s2 := (s1.log 0x09 { detail := id + 2 ^ 8 * cause }).raise cRankFailing
    if s2.ras.evac.isSome then s2
    else s2.startEvacuation id

/-- Uncorrectable words counted against a rank set (R257). The window runs from the first word, and starts again with the
first word after its end (log entry 105). -/
def State.ueWords (s : State) (id n : Nat) : State :=
  let old := mget s.ras.ue id
  let cur := match old with
    | some (first, c) => if s.epoch ≤ first + s.rd F.RAS_RPT_WINDOW_EPOCHS then (first, c + n) else (s.epoch, n)
    | none => (s.epoch, n)
  let s1 := s.setRas { s.ras with ue := mput s.ras.ue id cur }
  if s.rd F.RAS_CFG_RANK_UE_THRESH ≤ cur.2 then s1.rankFailing id 2 else s1

/-! ## Hard faults (R250 to R254) -/

/-- The first free remap entry of a page. -/
def State.freeRemap (s : State) (page : Nat) : Option Nat :=
  (List.range 64).find? (fun k => !s.rdb F.RAS_REMAP_VALID page k && !s.ras.copies.any (fun c =>
    decide (32 + c.ch = page ∧ c.entry = k)))

/-- REMAP_FULL (R254): cause 1 table full, 2 no row; the row is remembered so that later corrections report too. -/
def State.remapFull (s : State) (page key cause : Nat) (who : Seen) : State :=
  let s2 := s.setRas { s.ras with
    unmapped := (page, key, cause) :: s.ras.unmapped.filter (fun e => decide ((e.1, e.2.1) ≠ (page, key))) }
  let k := match who.slot with | some r => tkey r who.tile | none => 2 ^ 40
  if mget s2.ras.reported k = some s2.epoch then s2
  else
    let s3 := s2.setRas { s2.ras with reported := mput s2.ras.reported k s2.epoch }
    (s3.log 0x07 { slot := who.slot, tile := who.tile, location := rowLocation page key, detail := cause }).raise
      cRemapFull (region := who.slot)

/-- Remap entries of a channel in use: RAS_CH_STS counts them and tells a full table (R271). -/
def State.noteRemap (s : State) (page : Nat) : State :=
  let n := s.rd F.RAS_CH_STS_REMAPS page + 1
  (s.wrI F.RAS_CH_STS_REMAPS page n).wrb F.RAS_CH_STS_FULL page (decide (64 ≤ n))

/-- A released reserve chunk takes sectors of a bank's row. -/
def State.rowReleased (s : State) (set bank row : Nat) : Bool :=
  s.ras.sparesUsed.any (fun e => (List.range 16).any (fun i => match s.placeOf (e.1 + 256 * i) with
    | some p => decide (p.set = set ∧ p.bank = bank ∧ p.row = row) | none => false))

/-- The spare row of a bulk hard fault (R252): the highest reserve row of the bank not yet used, no canary row, no row of
the resume area, none of a released chunk. -/
def State.spareRow (s : State) (ch : Nat) (subB : Bool) (set bank : Nat) : Option Nat :=
  match s.bulk.sets.find? (fun r => decide (r.id = set)) with
  | none => none
  | some r =>
    let nb := s.rd F.BTC_CONFIG_NCH
    let base := r.rows - reserveRows r
    let used := fun row => (List.range 64).any (fun k => s.rdb F.RAS_REMAP_VALID (32 + ch) k &&
        decide (s.rd F.RAS_REMAP_SET (32 + ch) k = set ∧ s.rd F.RAS_REMAP_BANK (32 + ch) k = bank ∧
          s.rd F.RAS_REMAP_SUB_B (32 + ch) k = b2n subB ∧ s.rd F.RAS_REMAP_SPARE (32 + ch) k = row)) ||
      s.ras.copies.any (fun c => decide (c.ch = ch ∧ c.subB = subB ∧ c.set = set ∧ c.bank = bank ∧ c.spare = row))
    ((List.range (reserveRows r)).map (fun i => r.rows - 1 - i)).find? (fun row =>
      !used row && !(s.retained set && decide (row = r.rows - 1)) &&
        !(decide (set = 0 ∧ (row - base) * 4096 * (2 * nb) < resumeSectors)) && !s.rowReleased set bank row)

/-- The frames whose lines lie in a near row (R253). -/
def State.rowFrames (s : State) (bank row : Nat) : List Nat :=
  let k := 64 / max 1 s.nearChans.length
  let r := row * 16 + bank
  ((List.range 30).map (fun i => (30 * r + i) / k)).dedup

/-- A near row is withheld (R253): its CLEAN frames are evicted now, its DIRTY ones wait for Scarab. -/
def State.withholdRow (s : State) (page key entry : Nat) : State :=
  let fs := s.rowFrames (keyBank key) (keyRow key)
  let s1 := (((s.wrAt F.RAS_REMAP_ROW page entry (keyRow key)).wrAt F.RAS_REMAP_BANK page entry (keyBank key)).wrAt
    F.RAS_REMAP_WITHHELD page entry 1).wrAt F.RAS_REMAP_VALID page entry 1
  let s2 := s1.noteRemap page
  let s3 := fs.foldl (fun s f => (s.setNear { s.near with withheld := ninsert s.near.withheld f }).evict f) s2
  ((s3.wr F.RAS_WITHHELD_FRAMES s3.near.withheld.length).watchFree).raise cNearRowWithheld

/-- A row with a remap entry, a withheld one, or one with a copy under way. -/
def State.rowKnown (s : State) (page key : Nat) : Bool :=
  s.ras.copies.any (fun c => decide (32 + c.ch = page ∧ c.row = keyRow key ∧ c.bank = keyBank key ∧
    c.set = keySet key) && (c.subB == keySubB key)) ||
  (List.range 64).any (fun k => s.rdb F.RAS_REMAP_VALID page k &&
    decide (s.rd F.RAS_REMAP_ROW page k = keyRow key ∧ s.rd F.RAS_REMAP_BANK page k = keyBank key) &&
    (decide (page < 32) || decide (s.rd F.RAS_REMAP_SET page k = keySet key ∧
      s.rdb F.RAS_REMAP_SUB_B page k = keySubB key)))

/-- A row is a hard fault (R250): record, event, then remapping, withholding or REMAP_FULL; nothing more for a
row that a remap entry or a copy under way already takes out of use. -/
def State.hardFault (s : State) (page key count first : Nat) (who : Seen) : State :=
  let s1 := ((s.log 0x05
    { slot := who.slot, tile := who.tile, location := rowLocation page key,
      detail := count % 16 + 2 ^ 16 * first, blk := some (pageBlk page) }).raise cHardFault).bump
    F.RAS_CH_STS_HARD page
  if s1.rowKnown page key then s1
  else if page < 32 then
    if (s1.rowFrames (keyBank key) (keyRow key)).any (fun f => decide (s1.rd F.SCR_FRAMES_TOTAL ≤ f)) then s1
    else match s1.freeRemap page with
      | some k => s1.withholdRow page key k
      | none => s1.remapFull page key 1 who
  else
    let ch := page - 32
    let full := fun (s : State) cause =>
      let s2 := s.remapFull page key cause who
      if s2.rdb F.RAS_CFG_RANK_ON_FULL then s2.rankFailing (keySet key) 1 else s2
    match s1.freeRemap page, s1.spareRow ch (keySubB key) (keySet key) (keyBank key) with
    | none, _ => full s1 1
    | some _, none => full s1 2
    | some k, some row => s1.setRas { s1.ras with copies := s1.ras.copies ++
        [{ ch := ch, entry := k, subB := keySubB key, set := keySet key, bank := keyBank key, row := keyRow key,
           spare := row }] }

/-! ## The repeat tracker (R249) -/

/-- The tracker entry to take for a new row: a free one, else one whose window has passed, else the lowest count; the
oldest first epoch among equals. -/
def State.trackerVictim (s : State) (page : Nat) : Nat :=
  let better := fun (f : Nat → Nat × Nat) (l : List Nat) => (l.foldl (fun (b : Option Nat) k => match b with
    | none => some k
    | some x => if (f k).1 < (f x).1 ∨ ((f k).1 = (f x).1 ∧ (f k).2 < (f x).2) then some k else some x) none)
  let free := (List.range 32).filter (fun k => !s.rdb F.RAS_RPT_VALID page k)
  let past := (List.range 32).filter (fun k =>
    decide (s.rd F.RAS_RPT_FIRST page k + s.rd F.RAS_RPT_WINDOW_EPOCHS < s.epoch))
  match free with
  | k :: _ => k
  | [] => match better (fun k => (0, s.rd F.RAS_RPT_FIRST page k)) past with
    | some k => k
    | none => (better (fun k => (s.rd F.RAS_RPT_COUNT page k, s.rd F.RAS_RPT_FIRST page k)) (List.range 32)).getD 0

/-- Write a tracker entry. -/
def State.putTracker (s : State) (page k key first count : Nat) : State :=
  (((s.wrAt F.RAS_RPT_VALID page k 1).wrAt F.RAS_RPT_KEY_ROWKEY page k key).wrAt F.RAS_RPT_FIRST page k first).wrAt
    F.RAS_RPT_COUNT page k (min 15 count)

/-- Free a tracker entry. -/
def State.dropTracker (s : State) (page k : Nat) : State :=
  ((((s.wrAt F.RAS_RPT_VALID page k 0).wrAt F.RAS_RPT_KEY_ROWKEY page k 0).wrAt F.RAS_RPT_FIRST page k 0).wrAt
    F.RAS_RPT_COUNT page k 0).wrAt F.RAS_RPT_PENDING page k 0

/-- An entry that has reached the threshold acts (R247, R250). -/
def State.trackerAct (s : State) (page k : Nat) (who : Seen) : State :=
  let key := s.rd F.RAS_RPT_KEY_ROWKEY page k
  let n := s.rd F.RAS_RPT_COUNT page k
  let first := s.rd F.RAS_RPT_FIRST page k
  (s.dropTracker page k).hardFault page key n first who

/-- A correction counts once against its row (R249, R251); a row that stays unmapped reports the tile read as well
(R254). -/
def State.track (s : State) (p : Spot) (who : Seen) : State :=
  let s := match s.ras.unmapped.find? (fun e => decide ((e.1, e.2.1) = (p.page, p.key))) with
    | some e => s.remapFull p.page p.key e.2.2 who
    | none => s
  let hit := (List.range 32).find? (fun k =>
    s.rdb F.RAS_RPT_VALID p.page k && decide (s.rd F.RAS_RPT_KEY_ROWKEY p.page k = p.key))
  let r : Nat × State := match hit with
    | some k =>
      if s.epoch ≤ s.rd F.RAS_RPT_FIRST p.page k + s.rd F.RAS_RPT_WINDOW_EPOCHS then
        (k, s.putTracker p.page k p.key (s.rd F.RAS_RPT_FIRST p.page k) (s.rd F.RAS_RPT_COUNT p.page k + 1))
      else (k, s.putTracker p.page k p.key s.epoch 1)
    | none =>
      let k := s.trackerVictim p.page
      (k, (s.dropTracker p.page k).putTracker p.page k p.key s.epoch 1)
  if r.2.rd F.RAS_RPT_COUNT p.page r.1 < s.rd F.RAS_CFG_RPT_THRESH then r.2
  else if p.hold then
    (r.2.wrAt F.RAS_RPT_PENDING p.page r.1 1).setRas { r.2.ras with
      seen := match who.slot with
        | some slot => mput r.2.ras.seen (32 * p.page + r.1) (tkey slot who.tile)
        | none => mdel r.2.ras.seen (32 * p.page + r.1) }
  else r.2.trackerAct p.page r.1 who

/-- The tile whose read made a PENDING entry reach the threshold: the tile that R254's record names when the entry acts (log
entry 132). -/
def State.seenBy (s : State) (page k : Nat) : Seen :=
  match mget s.ras.seen (32 * page + k) with
  | some x => { slot := some (keySlot x), tile := keyTile x }
  | none => {}

/-- Corrected and uncorrectable words counted by the controller of a spot. -/
def State.countCorr (s : State) (p : Spot) (n : Nat := 1) : State :=
  if p.page < 32 then s.bump F.NTC_CH_ECC_CORR p.page 0 n
  else s.bump F.BTC_SC_ECC_CORR (subch (p.page - 32) (p.loc.testBit 5)) 0 n
def State.countUe (s : State) (p : Spot) (n : Nat := 1) : State :=
  if p.page < 32 then s.bump F.NTC_CH_ECC_UNCORR p.page 0 n
  else s.bump F.BTC_SC_ECC_UNCORR (subch (p.page - 32) (p.loc.testBit 5)) 0 n

/-- A word corrected on a read (R246): delivered corrected and counted; the write-back leaves the same data. -/
def State.corrected (s : State) (p : Spot) (who : Seen) : State := (s.countCorr p).track p who


/-! ## Uncorrectable lines and sectors (R242, Table 7.1) -/

/-- Poison is created in a near line: the marker is written unless the write-back is off (R242, R247). -/
def State.poisonLine (s : State) (slot f l : Nat) : State :=
  let s1 := if (s.lineSpot f l).held then s
    else s.setNear { s.near with marks := ninsert s.near.marks (lineNo f l) }
  (s1.bump F.RAS_POISON_CNT_LINES).raise cPoisonCreated (region := some slot)

/-- The syndrome that a record names is a free value (log entry 5). -/
def State.syndrome (s : State) : Nat := leNat ((List.range 4).map (fun i => Config.unspecified s.draw i))

/-- A near line is uncorrectable: UE_NEAR, then poison. -/
def State.nearUe (s : State) (slot tile f l edc : Nat) : State :=
  let p := s.lineSpot f l
  let s1 := (s.countUe p).log 0x01
    { slot := some slot, tile := tile, line := l, location := p.loc,
      detail := s.syndrome + 2 ^ 32 * edc, blk := some (pageBlk p.page) }
  let s2 := if p.page < 32 then s1 else s1.ueWords (keySet p.key) 1
  s2.drawn.poisonLine slot f l

/-- Sectors of a tile's run are uncorrectable: UE_BULK, and the tile is wholly poisoned. -/
def State.bulkUe (s : State) (slot tile loc : Nat) (bad : List Nat) : State :=
  let i := bad.headD 0
  let s1 := bad.foldl (fun s j =>
    let p := s.sectorSpot (loc + j)
    (s.countUe p).ueWords (keySet p.key) 1) s
  (s1.log 0x02
  { slot := some slot, tile := tile, location := (s.sectorSpot (loc + i)).loc,
    detail := i + 2 ^ 8 * bad.length }).poisonTile slot tile

/-- The outcome of a word that ECC corrected: a marked word with a bit error does not decode as POISONED and is
uncorrectable (R234). -/
def markedEcc (marked : Bool) : Ecc → Ecc
  | .corrected => if marked then .uncorrectable else .corrected
  | e => e

/-- The outcomes of the sectors of a run, and of the lines of a frame. -/
def State.sectorEcc (s : State) (loc : Nat) (ecc : List (Nat × Ecc)) : List (Nat × Ecc) :=
  ecc.map (fun x => (x.1, markedEcc (s.bulk.marks.contains (loc + x.1)) x.2))
def State.lineEcc (s : State) (f : Nat) (ecc : List (Nat × Ecc)) : List (Nat × Ecc) :=
  ecc.map (fun x => (x.1, markedEcc (s.nearPoison f x.1) x.2))

/-- What ECC finds in the sectors of a run, and in the lines of a frame, from what is wrong in each word. -/
def State.sectorsEcc (s : State) (loc : Nat) (bad : List (Nat × List Nat)) : List (Nat × Ecc) := s.sectorEcc loc (bulkEccs bad)
def State.linesEcc (s : State) (f : Nat) (bad : List (Nat × List Nat)) : List (Nat × Ecc) := s.lineEcc f (s.lineCodes bad)

/-- Places of a unit with an outcome. -/
def eccAt (ecc : List (Nat × Ecc)) (k : Ecc) (n : Nat) : List Nat :=
  (ecc.filter (fun x => decide (x.2 = k ∧ x.1 < n))).map (·.1)

/-- Corrected sectors of a run. -/
def State.sectorsCorrected (s : State) (slot tile loc : Nat) (idx : List Nat) : State :=
  idx.foldl (fun s j => s.corrected (s.sectorSpot (loc + j)) { slot := some slot, tile := tile }) s

/-- A TME fault (R66): recorded, and the tile is wholly poisoned; its run goes back (R238), a fixed slot is kept. -/
def State.tmeFaulted (s : State) (slot tile cause blk : Nat) : State :=
  let s1 := s.log 0x04 { slot := some slot, tile := tile, detail := cause, blk := some blk }
  let t := s1.tme slot tile
  let ok := decide (t.nv ∧ t.near < s1.rd F.SCR_FRAMES_TOTAL) &&
    (match s1.fte t.near with | some e => decide (e.slot = slot ∧ e.tile = tile) | none => false)
  (s1.setTme slot tile { t with
    nv := ok, near := if ok then t.near else 0, rsv := 0,
    loc := if s.fixedSlots slot then slotIn ((mget s.tmu.fixed slot).getD []) tile else t.loc }).poisonTile slot tile

/-- An entry that TMU reads through the cache is checked first (R63, R66); none when it cannot be installed now. -/
def State.cacheGood (s : State) (slot tile : Nat) : Option State :=
  (s.cacheIn slot tile).map (fun s1 =>
    let c := s1.tmeFault slot tile (s1.tme slot tile)
    if c ≠ 0 then s1.tmeFaulted slot tile c 6 else s1)

/-- One lost entry of a map sector (R244): its run leaks, the tile is poisoned in a new entry. The counter and generation
parity are those of the entry in the cache, else free values (log entry 5). -/
def State.entryLost (s : State) (slot t : Nat) : State :=
  let e := s.tme slot t
  let fixed := s.fixedSlots slot
  let lost := if fixed then 64 else e.len
  let s2 := s.wr F.RAS_LEAK_SECTORS (s.rd F.RAS_LEAK_SECTORS + lost)
  let s3 := s2.unclaim slot (if fixed then 0 else e.len)
  let place := if fixed then
      match s3.alloc slot 64 with
      | some r => r
      | none => (s3.releaseChunk.alloc slot 64).getD ((s3.initTme slot t).loc, s3.releaseChunk)
    else (0, s3)
  let frame := s3.near.ftes.find? (fun x => decide (x.2.slot = slot ∧ x.2.tile = t ∧ x.2.state ≠ .filling))
  let kept := s.cached slot t
  let new : Tme := { s3.initTme slot t with
    loc := place.1, unmat := false, poison := true,
    gen := if kept then e.gen else (Config.unspecified s3.draw 5).getLsbD 0,
    ctr := if kept then e.ctr else leNat ((List.range 5).map (Config.unspecified s3.draw)), nv := frame.isSome,
    near := match frame with | some x => x.1 | none => 0 }
  let s4 := (if fixed then place.2.setSlot slot t place.1 else place.2).drawn
  let s5 := if kept then s4.setTme slot t new else s4.mapPut (tkey slot t) new
  let s6 := match frame with | some x => s5.poisonFrame x.1 | none => s5
  (s6.bump F.RAS_POISON_CNT_TILES).raise cPoisonCreated (region := some slot)

/-- A tile map sector is uncorrectable (R244): both its entries are lost; the word counts against its rank set (R257). An
entry with a move under way stands until that move's own update (log entry 106). -/
def State.mapSectorLost (s : State) (slot tile : Nat) : State :=
  let sec := s.rd F.TMU_RGN_MAPLOC_LOC slot + tile / 2
  let p := s.sectorSpot sec
  let s1 := (((s.countUe p).ueWords (keySet p.key) 1).log 0x10
    { slot := some slot, tile := tile / 2 * 2, location := p.loc, detail := sec }).raise cMapSectorLost (region := some slot)
  [tile / 2 * 2, tile / 2 * 2 + 1].foldl (fun s t =>
    if (s.lockOf slot t).isSome ∨ s.rgnTiles slot ≤ t then s else s.entryLost slot t) s1

end Sys2Proof.Machine
end

