-- ==== Sys2Proof/Machine/DramQ.lean ====
section
/-!
DEFINITION. Machine/DramQ.lean: the request queues of the near channels and bulk subchannels as shared operations (R213
to R217, 06_memory_controllers.md). A queue takes what it is given; beyond its entries a request waits at its door
(log entry 18).
-/
namespace Sys2Proof.Machine

/-- The channel key of a near channel and of a bulk subchannel. -/
def nearKeyOf (c : Nat) : Nat := c
def bulkKeyOf (u : Nat) : Nat := 32 + u

/-- Entries of each queue of a channel. -/
def queueEntries (key : Nat) : Nat := if key < 32 then 64 else 48

/-- The queued requests of a channel, in order of arrival. -/
def State.chanQ (s : State) (key : Nat) : List DramReq := (mget s.mem.queues key).getD []

/-- The two queues' occupied entries. -/
def State.rqCount (s : State) (key : Nat) : Nat :=
  min (queueEntries key) ((s.chanQ key).filter (fun r => !r.write)).length
def State.wqCount (s : State) (key : Nat) : Nat :=
  min (queueEntries key) ((s.chanQ key).filter (fun r => r.write)).length

/-- A DRAM temperature of the channel is at or above CRIT. -/
def State.chanCrit (s : State) (key : Nat) : Bool :=
  if key < 32 then s.mem.posCrit.contains (key / 2)
  else s.mem.dimmCrit.contains (2 * ((key - 32) / 2)) || s.mem.dimmCrit.contains (2 * ((key - 32) / 2) + 1)

/-- The status fields of a channel: occupancy, drain mode, feedback level. -/
def fbOf (key : Nat) : Fld := if key < 32 then F.NTC_CH_STS_FB else F.BTC_SC_STS_FB
def drainOf (key : Nat) : Fld := if key < 32 then F.NTC_CH_STS_DRAIN else F.BTC_SC_STS_DRAIN
def rqOf (key : Nat) : Fld := if key < 32 then F.NTC_CH_STS_RQ else F.BTC_SC_STS_RQ
def wqOf (key : Nat) : Fld := if key < 32 then F.NTC_CH_STS_WQ else F.BTC_SC_STS_WQ

/-- Threshold k of a tier's feedback, in percent. -/
def State.fbThresh (s : State) (key k : Nat) : Nat :=
  if key < 32 then s.rd ([F.NTC_FB_FB1, F.NTC_FB_FB2].getD (k - 1) F.NTC_FB_FB3)
  else s.rd ([F.BTC_FB_FB1, F.BTC_FB_FB2].getD (k - 1) F.BTC_FB_FB3)

/-- The feedback level that an occupancy and the level before give (R217); level 3 by CRIT comes on top of it. -/
def State.fbLevel (s : State) (key old used : Nat) : Nat :=
  let n := queueEntries key
  let ks := [1, 2, 3]
  let up := (ks.filter (fun k => decide (s.fbThresh key k * n ≤ used * 100))).foldl max 0
  let stay := (ks.filter (fun k => decide (k ≤ old ∧ s.fbThresh key k * n < used * 100 + 10 * n))).foldl max 0
  max up stay

/-- Bring the status of a channel up to date with its queues. -/
def State.chanStatus (s : State) (key : Nat) : State :=
  let i := key % 32
  let r := s.rqCount key
  let w := s.wqCount key
  let n := queueEntries key
  let drain := if 75 * n ≤ w * 100 then true else if w * 100 ≤ 25 * n then false else s.rdb (drainOf key) i
  let fb := s.fbLevel key ((mget s.mem.level key).getD 0) (max r w)
  let s1 := { s with mem := { s.mem with level := mset 0 s.mem.level key fb } }
  (((s1.wrI (rqOf key) i r).wrI (wqOf key) i w).wrb (drainOf key) i drain).wrI (fbOf key) i (if s.chanCrit key then 3 else fb)

/-- Replace the queue of a channel. -/
def State.setChanQ (s : State) (key : Nat) (q : List DramReq) : State :=
  ({ s with mem := { s.mem with queues := if q.isEmpty then mdel s.mem.queues key else mput s.mem.queues key q } }).chanStatus
    key

/-- The bank key of rows and of in-order mode. -/
def bankKey (key bank : Nat) : Nat := key * 1024 + bank % 1024

/-- The writes of a row that are queued. -/
def rowWrites (q : List DramReq) (bank row : Nat) : List Nat :=
  (q.filter (fun r => r.write && decide (r.bank = bank ∧ r.row = row))).map (·.id)

/-- The writes that a bank's in-order rows wait for. -/
def State.orderIds (s : State) (key bank : Nat) : List Nat := (mget s.mem.inOrder (bankKey key bank)).getD []

/-- A row is in in-order mode (R215). -/
def State.rowOrdered (s : State) (key bank row : Nat) : Bool :=
  (rowWrites (s.chanQ key) bank row).any (fun i => (s.orderIds key bank).contains i)

/-- A request enters its channel's queue; a read for a row with a queued write starts in-order mode. -/
def State.enqueue (s : State) (key : Nat) (r : DramReq) : State :=
  let ws := rowWrites (s.chanQ key) r.bank r.row
  let s1 := if !r.write ∧ !ws.isEmpty ∧ !s.rowOrdered key r.bank r.row then
      { s with mem := { s.mem with
          inOrder := mput s.mem.inOrder (bankKey key r.bank) (s.orderIds key r.bank ++ ws) } }
    else s
  s1.setChanQ key (s1.chanQ key ++ [r])

/-- A channel's queue becomes q; rows whose writes have all left it leave in-order mode. -/
def State.requeue (s : State) (key : Nat) (q : List DramReq) : State :=
  let left := s.mem.inOrder.map (fun e => (e.1, if e.1 / 1024 = key then
    e.2.filter (fun i => q.any (fun r => r.write && decide (r.id = i ∧ bankKey key r.bank = e.1))) else e.2))
  let s1 := { s with mem := { s.mem with inOrder := left.filter (fun e => !e.2.isEmpty) } }
  s1.setChanQ key q

/-- The transfers of a request leave the queues. -/
def State.issued (s : State) (id : Nat) : State :=
  s.mem.queues.foldl (fun s e => if e.2.any (fun r => decide (r.id = id)) then
    s.requeue e.1 (e.2.filter (fun r => decide (r.id ≠ id))) else s) s

/-- Where a bulk sector's request queues: channel key, bank, row. -/
def State.sectorQueue (s : State) (x : Nat) : Option (Nat × Nat × Nat) :=
  (s.placeNow x).map (fun p => (bulkKeyOf (subch p.ch p.subB), p.set * 32 + p.bank, p.row))

/-- Where a near line's request queues, in either mode. -/
def State.lineQueue (s : State) (f l : Nat) : Option (Nat × Nat × Nat) :=
  if s.bulkOnly then s.sectorQueue (s.frameBase + f * 64 + l)
  else
    let p := s.nearPlaceOf f l
    some (nearKeyOf p.ch, p.bank, p.row)

/-- The target of an ingress point in the near tier (R216); none for moves and jobs. -/
def State.targetOf (s : State) (ing : Nat) : Nat := if ing < 18 then s.rd F.NTC_PORT_LAT_TARGET 0 ing else 0

/-- Queue one transfer of a request that came in at a time. A near line passes an AES pipe (R145, Table 4.13). -/
def State.transfer (s : State) (at_ : Option (Nat × Nat × Nat)) (id ing cls time : Nat) (write promo : Bool) : State :=
  match at_ with
  | some (key, bank, row) =>
    let s1 := if key < 32 ∨ s.bulkOnly then s.setCry { s.cry with lines := s.cry.lines + 1 } else s
    s1.enqueue key { id := id, write := write, bank := bank, row := row, time := time, target := s.targetOf ing,
                     promo := promo, cls := cls }
  | none => s

/-- Queue the transfers of n sectors from x. -/
def State.sectorTransfers (s : State) (x n id cls : Nat) (write promo : Bool) : State :=
  (List.range n).foldl (fun s i => s.transfer (s.sectorQueue (x + i)) id 19 cls s.nowNs write promo) s

/-- A fresh number for a request or a move. -/
def State.freshId (s : State) : Nat × State := (s.tmu.nextId, s.setTmu { s.tmu with nextId := s.tmu.nextId + 1 })

end Sys2Proof.Machine
end

