-- ==== Sys2Proof/Machine/Control.lean ====
section
/-!
DEFINITION. Machine/Control.lean: the control cores, their roles and their replacement, and the device watchdog (R436 to
R440, R455, R457; 13_control_cluster_and_boot.md).
-/
namespace Sys2Proof.Machine

/-! ## Cores -/

/-- STATE of core n: 0 OFF, 1 ACTIVE, 3 SPARE, 4 FAILED. -/
def State.coreState (s : State) (n : Nat) : Nat := s.rd F.CTL_CORE_CTL_STATE n

/-- The cores in a state. -/
def State.coresIn (s : State) (st : Nat) : List Nat := (List.range 16).filter (fun n => decide (s.coreState n = st))

/-- The boot-capable cores in order (R437). -/
def bootOrder : List Nat := [0, 14, 15]

/-- Firmware runs: a copy has been accepted and the cores' clocks run. -/
def State.fwRuns (s : State) : Bool :=
  !s.inReset && !s.aon.quiescing && decide (s.cry.halt = 0) && decide (s.cur = 0) &&
    decide (s.rd F.CTL_HEALTH_STATE = 2 ∨ s.rd F.CTL_HEALTH_STATE = 3)

/-- Replace CTL. -/
def State.setCtl (s : State) (c : Ctl) : State := { s with ctl := c }

/-- A core stands in for another (R45, R267): noted, and recorded once the log can take it. -/
def State.noteCore (s : State) (n k : Nat) : State :=
  { s with ras := { s.ras with subs := s.ras.subs ++ [(1, n, k)] } }

/-- The core substitutions that were noted are recorded. -/
def State.recordCores (s : State) : State :=
  let l := s.ras.subs.filter (fun e => decide (e.1 = 1))
  l.foldl (fun s e => s.spare 1 e.2.1 (some e.2.2) 0)
    { s with ras := { s.ras with subs := s.ras.subs.filter (fun e => decide (e.1 ≠ 1)) } }

/-- The roles of Table 13.1 on the cores that run: role r on core C(r − 1); a role whose core does not run goes to a spare
core that already runs without a role, else to the lowest-numbered spare, which becomes ACTIVE and is recorded, else to the
next ACTIVE core in table order. -/
def State.placeRoles (s : State) : State :=
  (List.range 14).foldl (fun s c =>
    let give := fun (s : State) n => s.wrI F.CTL_CORE_ROLE_ROLES n (setBit (s.rd F.CTL_CORE_ROLE_ROLES n) c)
    if s.coreState c = 1 then give s c
    else match [14, 15].find? (fun n => decide (s.coreState n = 1 ∧ s.rd F.CTL_CORE_ROLE_ROLES n = 0)) with
      | some n => give s n
      | none => match s.coresIn 3 with
        | n :: _ => (give (s.wrI F.CTL_CORE_CTL_STATE n 1) n).noteCore c n
        | [] => match ((List.range 16).map (fun k => (c + 1 + k) % 16)).find? (fun n => decide (s.coreState n = 1)) with
          | some n => give s n
          | none => s) s

/-- The core that the next warm reset boots from (R439). -/
def State.nextBoot (s : State) : Nat := s.ctl.override.getD (s.rd F.CTL_BOOT_BOOT_CORE)

/-- A core is declared failed (R438): its roles begin to move to the lowest-numbered spare, or to the next ACTIVE core
in Table 13.1 order. A failed boot core leaves the boot override (R439). -/
def State.coreFails (s : State) (n : Nat) : State :=
  if s.coreState n ≠ 1 ∨ s.ctl.moves.any (fun m => decide (m.1 = n)) then s
  else
    let heir := match (s.coresIn 3).filter (fun k => !s.ctl.moves.any (fun m => decide (m.2.2 = k))) with
      | k :: _ => k
      | [] => (((List.range 15).map (fun k => (n + 1 + k) % 16)).find? (fun k =>
          decide (s.coreState k = 1) && !s.ctl.moves.any (fun m => decide (m.1 = k)))).getD n
    let s1 := s.setCtl { s.ctl with moves := s.ctl.moves ++ [(n, s.rd F.CTL_CORE_ROLE_ROLES n, heir)] }
    if n = s.nextBoot then
      s1.setCtl { s1.ctl with override := bootOrder.find? (fun k => decide (k ≠ n ∧ s.coreState k = 1)) }
    else s1

/-- The move of a failed core's roles is complete (R438, R267). -/
def State.moveDone (s : State) (n : Nat) : State :=
  match s.ctl.moves.find? (fun m => decide (m.1 = n)) with
  | none => s
  | some (_, roles, heir) =>
    let fromSpare := decide (s.coreState heir = 3)
    let s1 := s.setCtl { s.ctl with moves := s.ctl.moves.filter (fun m => decide (m.1 ≠ n)) }
    let s2 := if fromSpare then (s1.wrI F.CTL_CORE_CTL_STATE heir 1).wrI F.CTL_CORE_FAULT_COUNT heir 0 else s1
    let s3 := if heir = n then s2
      else s2.wrI F.CTL_CORE_ROLE_ROLES heir (s2.rd F.CTL_CORE_ROLE_ROLES heir ||| roles)
    let s4 := (s3.wrI F.CTL_CORE_CTL_STATE n 4).wrI F.CTL_CORE_ROLE_ROLES n 0
    let s5 := s4.spare 1 n (if fromSpare then some heir else none) 0
    let s6 := if s5.coreState s5.nextBoot = 4 ∧ fromSpare ∧ bootOrder.contains heir then
        s5.setCtl { s5.ctl with override := some heir } else s5
    if fromSpare then s6.raise cCoreSpared else s6.raise cCoreExhausted

/-- One heartbeat check of a core: the beat read, and the checks in succession without an advance. -/
def State.beatCheck (s : State) (n : Nat) (beat : Option Nat) : State :=
  if s.coreState n ≠ 1 then s
  else
    let old := (mget s.ctl.beats n).getD (0, 0)
    let now := beat.getD old.1
    let missed := if now = old.1 then old.2 + 1 else 0
    let s1 := (s.setCtl { s.ctl with beats := mput s.ctl.beats n (now, missed) }).wrI F.CTL_CORE_HB_BEAT n now
    if 3 ≤ missed then s1.coreFails n else s1

/-- HEARTBEAT_CHECK (R438): beats gives the counters read; a core that is not named has not advanced. -/
def execHeartbeatCheck (beats : List (Nat × BitVec 32)) (s : State) : Result :=
  .next (if s.fwRuns then
    (List.range 16).foldl (fun s n => s.beatCheck n ((mget beats n).map (·.toNat))) s
  else s)

/-- CORE_ROLE_MOVE_DONE (R438). -/
def execCoreRoleMoveDone (core : Nat) (s : State) : Result := .next (s.moveDone core)

/-- CORE_SRAM_ERROR (R438): uncorrectable fails the core at once; else its fault count advances toward 4. -/
def execCoreSramError (core : Nat) (uncorrectable : Bool) (s : State) : Result :=
  .next (if s.inReset ∨ s.coreState core ≠ 1 then s
    else
      let s1 := (s.sat F.CTL_CORE_FAULT_COUNT core).sat F.CTL_CORE_FAULT_TOTAL core
      if uncorrectable ∨ 4 ≤ s1.rd F.CTL_CORE_FAULT_COUNT core then s1.coreFails core else s1)

/-- CTL_CORE_CTL.CMD 1 (R457, Table 13.10): a SPARE or OFF core becomes ACTIVE. -/
def State.coreActivate (s : State) (n : Nat) : State :=
  if s.coreState n = 3 ∨ s.coreState n = 0 then
    (s.wrI F.CTL_CORE_CTL_STATE n 1).wrI F.CTL_CORE_FAULT_COUNT n 0
  else s

/-- CTL_CORE_CTL.CMD 3: an ACTIVE core is declared failed and a SPARE one set FAILED. -/
def State.coreCmdFail (s : State) (n : Nat) : State :=
  if s.coreState n = 1 then s.coreFails n
  else if s.coreState n = 3 then (s.wrI F.CTL_CORE_CTL_STATE n 4)
  else s

/-! ## Watchdog (R455) -/

/-- KICK: only from the control cores, and only while every ACTIVE core advances or is being replaced. -/
def execKick (path : Path) (s : State) : Result :=
  .next (s.viaPath path 1 0 (isCores path) (fun s =>
    if (s.coresIn 1).all (fun n => decide (((mget s.ctl.beats n).getD (0, 0)).2 = 0) ||
        s.ctl.moves.any (fun m => decide (m.1 = n))) then
      s.wr F.CTL_WDT_STAGE 0
    else s))

/-- The watchdog counts: not in P2 or P3, not in integrity halt, not before it has been started. -/
def State.wdtCounts (s : State) : Bool :=
  s.ctl.wdtRuns && !s.inReset && !s.aon.quiescing && decide (s.cry.halt = 0) && decide (s.cur < 2)

/-- WDT_HALF_TIMEOUT: TIMEOUT ÷ 2 passes without a kick. -/
def execWdtHalfTimeout (s : State) : Result :=
  .next (if s.wdtCounts then (s.wr F.CTL_WDT_STAGE 1).raise cFwStall else s)

/-- WDT_TIMEOUT: a warm reset with cause 4. -/
def execWdtTimeout (s : State) : Result := .next (if s.wdtCounts then s.warm 4 0 else s)

end Sys2Proof.Machine
end

