-- ==== Sys2Proof/Machine/Pipes.lean ====
section
/-!
DEFINITION. Machine/Pipes.lean: codec pipes, AES pipes, Scarab engines and directory ways: their states, faults and
substitution (R126 to R130, R165, R166, R188, R193, R267, R330, R331), the codec dispatcher (R94 to R96, R111), and the
commands on control cores (R457).
-/
namespace Sys2Proof.Machine

/-- A kind of pipe or engine: its state and fault fields, how many there are, the threshold, its kind in a SPARE_SUBST
record (Table 7.4), and its events. -/
structure Kind where
  state : Fld
  count : Fld
  total : Fld
  n : Nat
  thresh : Fld
  code : Nat
  fault : Option Cause
  spared : Option Cause
  exhausted : Cause

/-- Codec pipes (R127). -/
def cdcKind : Kind :=
  { state := F.CDC_PIPE_CTL_STATE, count := F.CDC_PIPE_FAULT_COUNT, total := F.CDC_PIPE_FAULT_TOTAL, n := 17,
    thresh := F.CDC_DISP_FAULT_THRESH, code := 2, fault := some cCdcPipeFault, spared := some cCdcPipeSpared,
    exhausted := cCdcExhausted }

/-- AES pipes (R165). -/
def cryKind : Kind :=
  { state := F.CRY_PIPE_CTL_STATE, count := F.CRY_PIPE_FAULT_COUNT, total := F.CRY_PIPE_FAULT_TOTAL, n := 50,
    thresh := F.CRY_CFG_FAULT_THRESH, code := 3, fault := some cCryPipeFault, spared := some cCryPipeSpared,
    exhausted := cCryExhausted }

/-- Scarab engines (R188): they have no spare, so an engine that goes FAILED raises SCARAB_FAULT. -/
def scrKind : Kind :=
  { state := F.SCR_ENG_CTL_STATE, count := F.SCR_ENG_FAULT_COUNT, total := F.SCR_ENG_FAULT_TOTAL, n := 32,
    thresh := F.SCR_MOV_CFG_FAULT_THRESH, code := 9, fault := none, spared := none, exhausted := cScarabFault }

/-- STATE of unit p of a kind: 0 OFF, 1 ACTIVE, 2 DRAINING, 3 SPARE, 4 FAILED. -/
def State.unitState (s : State) (k : Kind) (p : Nat) : Nat := s.rd k.state p

/-- The units of a kind in a state. -/
def State.unitsIn (s : State) (k : Kind) (st : Nat) : List Nat :=
  (List.range k.n).filter (fun p => decide (s.unitState k p = st))

/-- Another ACTIVE unit than p. -/
def State.otherActive (s : State) (k : Kind) (p : Nat) : Bool := (s.unitsIn k 1).any (fun q => decide (q ≠ p))

/-- No codec pipe is ACTIVE (R129). -/
def State.cdcOffline (s : State) : Bool := (s.unitsIn cdcKind 1).isEmpty

/-! ## The codec dispatcher -/

/-- A work that waits for a pipe or is held by one: whether a host or far request waits on it (R95), its place in the order of
admission, the pipe that must not take it (R119, R125), the pipe that alone may (R111). -/
structure WorkItem where
  work : Work
  urgent : Bool
  seq : Nat
  avoid : Option Nat
  only : Option Nat

/-- A host or far request. -/
def Origin.outer : Origin → Bool
  | .host _ _ _ => true
  | .far _ _ _ _ => true
  | _ => false

/-- A host or far request waits on the tile of a move. -/
def State.wanted (s : State) (m : Move) : Bool :=
  (match m.req with | some q => q.org.outer | none => false) ||
    s.tmu.waits.any (fun w => decide (w.slot = m.slot ∧ w.tile = m.tile) && w.req.org.outer)

/-- The codec work of a move: a tile to decompress or check, or a frame read whole that is to be compressed. -/
def State.moveWork (s : State) (m : Move) : Option WorkItem :=
  let item : WorkItem := { work := .tile m.id, urgent := false, seq := m.id, avoid := m.avoid, only := none }
  match m.kind, m.stage with
  | .demote, .compress => if s.queued m.id then none else some item
  | .demote, _ => none
  | _, .codec => some { item with urgent := s.wanted m }
  | _, .tcsRetry => some { item with urgent := s.wanted m }
  | _, _ => none

/-- The codec work of a job: its blocks that are not coded yet; one with INDEP 0 only once the block before it has been
taken, on that block's pipe while it is ACTIVE. -/
def State.jobWork (s : State) (j : Job) : List WorkItem :=
  if j.phase ≠ .running ∨ j.status.isSome then []
  else (j.blocks.filter (fun b => b.res.isNone && (!b.after || decide ((j.blocks.head?.map (·.n)) = some b.n)))).map (fun b =>
    { work := .block j.id b.n, urgent := false, seq := b.seq, avoid := b.avoid,
      only := if b.after then j.lastPipe.filter (fun p => decide (s.unitState cdcKind p = 1)) else none })

/-- Insert a work behind those that R95 serves before it. -/
def putWork (x : WorkItem) : List WorkItem → List WorkItem
  | [] => [x]
  | y :: l => if (x.urgent && !y.urgent) || (x.urgent == y.urgent && decide (x.seq < y.seq)) then x :: y :: l
    else y :: putWork x l

/-- All codec work there is, in the order of R95. -/
def State.codecWork (s : State) : List WorkItem :=
  (s.tmu.moves.filterMap s.moveWork ++ s.job.jobs.flatMap s.jobWork).foldl (fun l x => putWork x l) []

/-- Work of a job. -/
def Work.ofJob : Work → Bool
  | .tile _ => false
  | .block _ _ => true

/-- The pipe that holds a work. -/
def State.holder (s : State) (w : Work) : Option Nat := (s.cdc.held.find? (fun e => decide (e.2 = w))).map (·.1)

/-- Free ACTIVE pipes take waiting work, the first that fits to the lowest-numbered pipe that it fits (log entry 20); job work
holds at most JOB_MAX pipes (R96). -/
def State.assign : Nat → State → State
  | 0, s => s
  | fuel + 1, s =>
    let free := (s.unitsIn cdcKind 1).filter (fun p => (mget s.cdc.held p).isNone)
    let full := decide (s.rd F.CDC_DISP_JOB_MAX ≤ (s.cdc.held.filter (fun e => e.2.ofJob)).length)
    let fits := fun (x : WorkItem) (p : Nat) => decide (x.avoid ≠ some p) && (match x.only with
      | some q => decide (p = q)
      | none => true)
    match (s.codecWork.filter (fun x => (s.holder x.work).isNone && !(full && x.work.ofJob))).findSome? (fun x =>
      (free.find? (fits x)).map (fun p => (p, x.work))) with
    | some (p, w) => State.assign fuel (s.setCdc { s.cdc with held := mput s.cdc.held p w })
    | none => s

/-- The dispatcher: pipes let go of work that is no longer there, and free ones take what waits; none while CDC is being
reset (R509). -/
def State.dispatch (s : State) : State :=
  let ws := s.codecWork
  if ws.isEmpty ∧ s.cdc.held.isEmpty then s
  else if s.aon.blocks.contains 7 then s.setCdc { s.cdc with held := [] }
  else
    State.assign 17 (s.setCdc { s.cdc with held := s.cdc.held.filter (fun e => ws.any (fun x => decide (x.work = e.2))) })

/-- A pipe lets go of its work. -/
def State.letGo (s : State) (p : Nat) : State := s.setCdc { s.cdc with held := mdel s.cdc.held p }

/-- Codec jobs whose output is not decided end with CAPACITY once CDC is offline (R129). -/
def State.stopCodecJobs (s : State) : State :=
  s.setJob { s.job with jobs := s.job.jobs.map (fun j =>
    if j.phase = .running ∧ j.status.isNone ∧ j.out.isNone ∧ (numAt j.desc 0 1 = 0x20 ∨ numAt j.desc 0 1 = 0x21 ∨
        numAt j.desc 0 1 = 0x22) then { j with status := some (7, 1) } else j) }

/-- The no-service condition (R43, R44, R135, R165, R276), once firmware runs. -/
def State.noService (s : State) : Bool :=
  !s.inReset && decide (2 ≤ s.rd F.CTL_HEALTH_STATE) &&
    ((s.unitsIn cryKind 1).isEmpty || s.cry.root.isNone ||
      !(List.range 16).any (fun n => s.rdb F.HLX_PORT_STS_LINK_UP n && decide (3 ≤ s.rd F.HLX_PORT_STS_WIDTH n)) ||
      (decide (countBits 16 (s.rd F.NTC_CONFIG_POS_ACTIVE) < 2) && decide (s.rd F.BTC_CONFIG_CH_ACTIVE = 0)))

/-- Without service memory is reported not active; it is active again when the missing element is back (R43, R44). -/
def State.watchService (s : State) : State :=
  if s.noService then s.wr F.CTL_HEALTH_MEM_ACTIVE 0
  else if s.rd F.CTL_HEALTH_STATE = 3 ∧ !s.inReset ∧ s.cry.halt = 0 ∧ s.cur < 3 then s.wr F.CTL_HEALTH_MEM_ACTIVE 1
  else s

/-- Follow a change of unit states: codec offline (R129), the dispatcher, no service without an AES pipe (R44, R165). -/
def State.watchUnits (s : State) : State :=
  let s1 := if s.cdcOffline ∧ !s.rdb F.CDC_STATUS_OFFLINE then ((s.wr F.CDC_STATUS_OFFLINE 1).raise cCdcOffline).stopCodecJobs
    else if !s.cdcOffline then s.wr F.CDC_STATUS_OFFLINE 0 else s
  s1.dispatch.watchService

/-- Raise a cause that a kind may lack. -/
def State.raiseOpt (s : State) : Option Cause → State
  | some c => s.raise c
  | none => s

/-- A unit becomes ACTIVE: its faults since activation start afresh. -/
def State.activateUnit (s : State) (k : Kind) (p : Nat) : State :=
  ((s.wrI k.state p 1).wrI k.count p 0).watchUnits

/-- Substitution begins (R127 steps 1 to 3): the fault event, the lowest-numbered spare, the failing unit drains. -/
def State.substitute (s : State) (k : Kind) (p : Nat) : State :=
  let s1 := s.raiseOpt k.fault
  let s2 := match s1.unitsIn k 3 with
    | q :: _ => (s1.activateUnit k q).setRas { s1.ras with subs := s1.ras.subs ++ [(k.code, p, q)] }
    | [] => s1
  (s2.wrI k.state p 2).watchUnits

/-- A unit counts a fault. -/
def State.unitFault (s : State) (k : Kind) (p : Nat) : State :=
  let s1 := (s.sat k.count p).sat k.total p
  if s1.unitState k p = 1 ∧ s1.rd k.thresh ≤ s1.rd k.count p then s1.substitute k p else s1

/-- The failing unit of a substitute that firmware has activated before it knew which unit it replaces. -/
def anyUnit : Nat := 1000

/-- The substitute of a unit that fails: the one noted for it, else one activated by command. -/
def State.substOf (s : State) (k : Kind) (p : Nat) : Option (Nat × Nat × Nat) :=
  match s.ras.subs.find? (fun e => decide (e.1 = k.code ∧ e.2.1 = p)) with
  | some e => some e
  | none => s.ras.subs.find? (fun e => decide (e.1 = k.code ∧ e.2.1 = anyUnit ∧ e.2.2 ≠ p))

/-- A unit goes FAILED (R127 step 4, R267): with its substitute, or with none left; nothing is recorded while a spare
stands by that no one has activated. A pipe's work goes back to the dispatcher. -/
def State.unitFailed (s : State) (k : Kind) (p : Nat) : State :=
  let s1 := (if k.code = 2 then s.letGo p else s).wrI k.state p 4
  let s2 := match s1.substOf k p with
    | some e =>
      let s3 := s1.setRas { s1.ras with subs := s1.ras.subs.erase e }
      (s3.spare k.code p (some e.2.2) 0).raiseOpt k.spared
    | none => if (s1.unitsIn k 3).isEmpty then (s1.spare k.code p none 0).raise k.exhausted else s1
  s2.watchUnits

/-- A DRAINING unit is empty: it goes FAILED. -/
def State.unitDrained (s : State) (k : Kind) (p : Nat) : State :=
  if s.unitState k p = 2 ∧ !s.inReset then s.unitFailed k p else s

/-- CMD 1, 2 and 3 of a unit; a command that does not fit its state has no effect. Which states each command fits is the
model's reading (log entry 107): ACTIVATE a SPARE or an OFF unit, DRAIN an ACTIVE one, FAIL an ACTIVE, DRAINING or SPARE
one. A spare so activated is the substitute of the next unit of its kind to fail (R45, R267). -/
def State.cmdActivate (s : State) (k : Kind) (p : Nat) : State :=
  if s.unitState k p = 3 then
    (s.activateUnit k p).setRas { (s.activateUnit k p).ras with subs := (s.activateUnit k p).ras.subs ++ [(k.code, anyUnit, p)] }
  else if s.unitState k p = 0 then s.activateUnit k p else s
def State.cmdDrain (s : State) (k : Kind) (p : Nat) : State :=
  if s.unitState k p = 1 then (s.wrI k.state p 2).watchUnits else s
def State.cmdFail (s : State) (k : Kind) (p : Nat) : State :=
  if s.unitState k p = 1 ∨ s.unitState k p = 2 ∨ s.unitState k p = 3 then s.unitFailed k p else s

/-! ## Codec pipes -/

/-- CODEC_PIPE_DRAINED (R127 step 4): a pipe that holds no work. -/
def execCodecPipeDrained (p : Nat) (s : State) : Result :=
  .next (if (mget s.cdc.held p).isNone then s.unitDrained cdcKind p else s)

/-- CDC_PIPE_CTL.CMD 1 (R130). -/
def execCdcPipeActivate (path : Path) (p : Nat) (s : State) : Result :=
  .next (s.viaPath path 7 (1 + p) (isCores path) (fun s => s.cmdActivate cdcKind p))

/-- CDC_PIPE_CTL.CMD 2. -/
def execCdcPipeDrain (path : Path) (p : Nat) (s : State) : Result :=
  .next (s.viaPath path 7 (1 + p) (isCores path) (fun s => s.cmdDrain cdcKind p))

/-- CDC_PIPE_CTL.CMD 3. -/
def execCdcPipeFail (path : Path) (p : Nat) (s : State) : Result :=
  .next (s.viaPath path 7 (1 + p) (isCores path) (fun s => s.cmdFail cdcKind p))

/-! ## AES pipes -/

/-- An AES pipe is activated by command; a known-answer test that fails counts a fault. -/
def State.aesActivate (s : State) (p : Nat) (katPass : Bool) : State :=
  if s.unitState cryKind p = 3 ∨ s.unitState cryKind p = 0 then
    (if katPass then s.cmdActivate cryKind p else (s.cmdActivate cryKind p).unitFault cryKind p)
  else s

/-- CRY_PIPE_CTL.CMD 1 (R166): the known-answer test runs at activation (R165). -/
def execCryPipeActivate (path : Path) (p : Nat) (katPass : Bool) (s : State) : Result :=
  .next (s.viaPath path 8 (66 + p) (isCores path) (fun s =>
    s.aesActivate p katPass))

/-- CRY_PIPE_CTL.CMD 2. -/
def execCryPipeDrain (path : Path) (p : Nat) (s : State) : Result :=
  .next (s.viaPath path 8 (66 + p) (isCores path) (fun s => s.cmdDrain cryKind p))

/-- CRY_PIPE_CTL.CMD 3. -/
def execCryPipeFail (path : Path) (p : Nat) (s : State) : Result :=
  .next (s.viaPath path 8 (66 + p) (isCores path) (fun s => s.cmdFail cryKind p))

/-- AES_PIPE_DRAINED (R165). -/
def execAesPipeDrained (p : Nat) (s : State) : Result := .next (s.unitDrained cryKind p)

/-- AES pipes work: not in reset, not in an integrity halt (R162), not in P3 or P4. -/
def State.aesRuns (s : State) : Bool := !s.inReset && decide (s.cry.halt = 0) && decide (s.cur < 3)

/-- AES_KNOWN_ANSWER_TEST (R165): once per epoch on an ACTIVE pipe. -/
def execAesKnownAnswerTest (p : Nat) (pass : Bool) (s : State) : Result :=
  .next (if s.aesRuns ∧ s.unitState cryKind p = 1 ∧ !pass then s.unitFault cryKind p else s)

/-- AES_KEY_PARITY_ERROR (R165). -/
def execAesKeyParityError (p : Nat) (s : State) : Result :=
  .next (if s.aesRuns ∧ (s.unitState cryKind p = 1 ∨ s.unitState cryKind p = 2) then s.unitFault cryKind p else s)

/-! ## Scarab engines -/

/-- SCR_ENG_CTL.CMD 1 (R193). -/
def execScrEngActivate (path : Path) (e : Nat) (s : State) : Result :=
  .next (s.viaPath path 9 (1 + e) (isCores path) (fun s => s.cmdActivate scrKind e))

/-- SCR_ENG_CTL.CMD 2. -/
def execScrEngDrain (path : Path) (e : Nat) (s : State) : Result :=
  .next (s.viaPath path 9 (1 + e) (isCores path) (fun s => s.cmdDrain scrKind e))

/-- SCR_ENG_CTL.CMD 3. -/
def execScrEngFail (path : Path) (e : Nat) (s : State) : Result :=
  .next (s.viaPath path 9 (1 + e) (isCores path) (fun s => s.cmdFail scrKind e))

/-- The operations that an engine holds (SCR_ENG_BUSY). -/
def State.engineLoad (s : State) (e : Nat) : Nat :=
  (s.tmu.moves.filter (fun m => decide (m.engine = some e))).length +
    (s.job.jobs.filter (fun j => decide (j.engine = some e))).length

/-- SCARAB_ENGINE_DRAINED (R188): a DRAINING engine that holds nothing. -/
def execScarabEngineDrained (e : Nat) (s : State) : Result :=
  .next (if s.engineLoad e = 0 then s.unitDrained scrKind e else s)

/-- SCARAB_ENGINE_FAULT (R188). -/
def execScarabEngineFault (e : Nat) (s : State) : Result :=
  .next (if !s.inReset ∧ (s.unitState scrKind e = 1 ∨ s.unitState scrKind e = 2) then s.unitFault scrKind e else s)

/-! ## Directory ways (R330, R331) -/

/-- A way of a bank is ACTIVE, is FAILED, stands by. -/
def State.wayActive (s : State) (bank w : Nat) : Bool := (s.rd F.DIR_BANK_WAYS_ACTIVE bank).testBit w
def State.wayFailed (s : State) (bank w : Nat) : Bool := (s.rd F.DIR_BANK_WAYS_FAILED bank).testBit w
def State.wayFree (s : State) (bank w : Nat) : Bool := !s.wayActive bank w && !s.wayFailed bank w

/-- A way that stands by becomes ACTIVE; it is the substitute of the next way of its bank to fail. -/
def State.wayOn (s : State) (bank way : Nat) : State :=
  if way < 17 ∧ s.wayFree bank way then
    let s1 := (s.wrI F.DIR_BANK_WAYS_ACTIVE bank (setBit (s.rd F.DIR_BANK_WAYS_ACTIVE bank) way)).wrAt
      F.DIR_WAY_FAULT_COUNT bank way 0
    s1.setRas { s1.ras with subs := s1.ras.subs ++ [(5, bank, way)] }
  else s

/-- R330 steps 2 and 3: the way is FAILED, with the way activated in its place, or with none left. -/
def State.wayOff (s : State) (bank way : Nat) : State :=
  if way < 17 ∧ !s.wayFailed bank way then
    let s1 := (s.wrI F.DIR_BANK_WAYS_ACTIVE bank (clrBit (s.rd F.DIR_BANK_WAYS_ACTIVE bank) way)).wrI
      F.DIR_BANK_WAYS_FAILED bank (setBit (s.rd F.DIR_BANK_WAYS_FAILED bank) way)
    match s1.ras.subs.find? (fun e => decide (e.1 = 5 ∧ e.2.1 = bank ∧ e.2.2 ≠ way)) with
    | some e => ((s1.setRas { s1.ras with subs := s1.ras.subs.erase e }).spare 5 way (some e.2.2) bank).raise
        cDirWayFault
    | none =>
      if (List.range 17).any (fun w => s1.wayFree bank w) then s1.raise cDirWayFault
      else ((s1.spare 5 way none bank).raise cDirSparesExhausted)
  else s

/-- An error in a cached entry counts against its way; at the threshold firmware brings in the bank's spare way and sets the
failing one FAILED (R330). -/
def State.wayFault (s : State) (bank way : Nat) : State :=
  let s1 := (s.sat F.DIR_WAY_FAULT_COUNT bank way).sat F.DIR_WAY_FAULT_TOTAL bank way
  if s1.wayActive bank way ∧ s1.rd F.DIR_CFG_FAULT_THRESH ≤ s1.rd F.DIR_WAY_FAULT_COUNT bank way then
    (match (List.range 17).find? (fun w => s1.wayFree bank w) with
     | some w => s1.wayOn bank w
     | none => s1).wayOff bank way
  else s1

/-- DIR_BANK_CMD 1. -/
def execDirBankActivate (path : Path) (bank way : Nat) (s : State) : Result :=
  .next (s.viaPath path 5 (1 + bank) (isCores path) (fun s => s.wayOn bank way))

/-- DIR_BANK_CMD 3. -/
def execDirBankFail (path : Path) (bank way : Nat) (s : State) : Result :=
  .next (s.viaPath path 5 (1 + bank) (isCores path) (fun s => s.wayOff bank way))

/-! ## Control cores (R457) -/

/-- CTL_CORE_CTL.CMD 1. -/
def execCtlCoreActivate (path : Path) (core : Nat) (s : State) : Result :=
  .next (s.viaPath path 1 (1 + core) (isCores path) (fun s => s.coreActivate core))

/-- CTL_CORE_CTL.CMD 3. -/
def execCtlCoreFail (path : Path) (core : Nat) (s : State) : Result :=
  .next (s.viaPath path 1 (1 + core) (isCores path) (fun s => s.coreCmdFail core))

end Sys2Proof.Machine
end

