-- ==== Sys2Proof/Machine/Moves.lean ====
section
/-!
DEFINITION. Machine/Moves.lean: moves of tiles as shared operations: generations, counters and the crossing table (R139
to R153, R579), promotion (R179 to R182), demotion, its commit and its abort (R68, R69, R74 to R91, R115, R183 to R185,
R236 to R240).
-/
namespace Sys2Proof.Machine

/-! ## Moves in flight -/

/-- Move id. -/
def State.move (s : State) (id : Nat) : Option Move := s.tmu.moves.find? (fun m => decide (m.id = id))

/-- Add, replace or remove a move; the codec dispatcher follows (R95). -/
def State.addMove (s : State) (m : Move) : State := s.setTmu { s.tmu with moves := s.tmu.moves ++ [m] }
def State.putMove (s : State) (m : Move) : State :=
  (s.setTmu { s.tmu with moves := s.tmu.moves.map (fun x => if x.id = m.id then m else x) }).dispatch
def State.dropMove (s : State) (id : Nat) : State :=
  (s.setTmu { s.tmu with moves := s.tmu.moves.filter (fun x => decide (x.id ≠ id)) }).dispatch

/-- A blank move of a tile. -/
def Move.blank (id : Nat) (kind : MoveKind) (purpose : Purpose) (slot tile : Nat) (t : Tme) : Move :=
  { id := id, kind := kind, purpose := purpose, stage := .bulkRead, slot := slot, tile := tile, frame := 0,
    engine := none, cls := 13, tme := t, req := none, data := [], marks := [], pipe := 0,
    crossing := false, gen := 0, ctr := 0, claim := 0, loc := 0, len := 0, fmt := .raw, tcs := 0, tag := 0,
    record := [], level := 0, job := none, avoid := none }

/-- A job's move of a tile ends (R381): its part is done, and counts when the move was not given up. -/
def State.jobMoved (s : State) (id tile : Nat) (wasted : Bool) : State :=
  s.setJob { s.job with jobs := s.job.jobs.map (fun j =>
    if j.id = id then { j with parts := j.parts.map (fun p =>
      if p.off = tile ∧ p.move then { p with move := false, reads := 0, ok := !wasted } else p) } else j) }

/-- A move leaves ADM: a demand promotion took no entry of its own; a job's move is a part of its job, which ADM lets go when
the part ends. -/
def State.leaveMove (s : State) (m : Move) (wasted : Bool) : State :=
  if m.purpose = .demand then s
  else match m.job with
    | some id => if s.job.jobs.any (fun j => decide (j.id = id)) then s.jobMoved id m.tile wasted
        else (s.outSub 18 m.cls 1).slotDone m.cls wasted
    | none => s.leaveInternal m.cls wasted

/-- The engine of a move has completed an operation. -/
def State.engineDone (s : State) (m : Move) : State :=
  match m.engine with
  | some e => s.bump F.SCR_ENG_WORK_UNITS e
  | none => s

/-! ## Generations and counters -/

/-- The current generation of a slot and its parity. -/
def State.curGen (s : State) (slot : Nat) : Nat := s.rd F.CRY_RGN_GEN_CUR slot
def State.rekeying (s : State) (slot : Nat) : Bool := s.rdb F.CRY_RGN_REKEY_STATE slot

/-- A tile bears the parity of CUR. -/
def State.newest (s : State) (slot : Nat) (t : Tme) : Bool := t.gen == decide (s.curGen slot % 2 = 1)

/-- Crossing-table entries of a slot. -/
def crossOf (slot : Nat) (l : List (Nat × Nat)) : List (Nat × Nat) := l.filter (fun e => decide (keySlot e.1 = slot))

/-- A rekey starts (R152 step 1, R140): refused when no generation is left. -/
def State.startRekey (s : State) (slot cause : Nat) : State :=
  let n := s.curGen slot
  if n = 0xffffffff then s.raise cKeygenExhausted
  else
    let s1 := (((s.wrI F.CRY_RGN_GEN_PREV slot n).wrI F.CRY_RGN_GEN_CUR slot (n + 1)).wrI
      F.TMU_RGN_POLICY_KEYGEN slot (n + 1)).wrI F.CRY_RGN_REKEY_STATE slot 1
    let s2 := s1.wrI F.CRY_RGN_REKEY_CAUSE slot cause
    let s3 := s2.setCry { s2.cry with
      cross := s2.cry.cross.filter (fun e => decide (keySlot e.1 ≠ slot)),
      keyWait := ninsert s2.cry.keyWait slot, walks := mput s2.cry.walks slot 0 }
    ({ s3 with adm := { s3.adm with recompute := true } }).raise cRekeyStarted (region := some slot)

/-- SATURATED is set when a commit or an abort leaves CTR at its last value (R149, R150, R579): a rekey starts, or the
running one is followed by another and the tile's writes are held until its crossing in that one commits. -/
def State.saturate (s : State) (slot tile : Nat) : State :=
  let t := s.tme slot tile
  if t.ctr ≠ 2 ^ 40 - 1 ∨ t.saturated then s
  else
    let s1 := s.setTme slot tile { t with saturated := true }
    if s1.curGen slot = 0xffffffff then
      (if s1.newest slot t ∨ !s1.rekeying slot then
        (s1.raise cKeygenExhausted).raise cCtrHold (region := some slot) else s1)
    else if !s1.rekeying slot then s1.startRekey slot 1
    else if s1.newest slot t then
      let s2 := s1.setCry { s1.cry with ctrHolds := ninsert s1.cry.ctrHolds (tkey slot tile) }
      ((s2.wrI F.CRY_RGN_REKEY_QUEUED slot 1).bump F.CRY_RGN_CNT_HOLDS slot).raise cCtrHold (region := some slot)
    else s1

/-- Writes to a tile are held until its crossing commits (R150). -/
def State.ctrHeld (s : State) (slot tile : Nat) : Bool := s.cry.ctrHolds.contains (tkey slot tile)

/-- No demotion of a tile may start: it has no counter value left now (R150, R579). -/
def State.noCounter (s : State) (slot : Nat) (t : Tme) : Bool := t.saturated && s.newest slot t

/-- What a demotion uses (R148): whether it crosses, its generation and counter. -/
structure Use where
  crossing : Bool
  gen : Nat
  ctr : Nat
  deriving DecidableEq, Repr

/-- R148. None when the attempt has to wait for a crossing-table entry. -/
def State.takeCounter (s : State) (slot tile : Nat) (t : Tme) : Option (Use × State) :=
  let n := s.curGen slot
  if s.newest slot t then some ({ crossing := false, gen := n, ctr := t.ctr + 1 }, s)
  else
    let key := tkey slot tile
    match mget s.cry.cross key with
    | some next =>
      some ({ crossing := true, gen := n, ctr := next }, s.setCry { s.cry with cross := mput s.cry.cross key (next + 1) })
    | none =>
      if s.cry.cross.length < 2048 then
        some ({ crossing := true, gen := n, ctr := 0 }, s.setCry { s.cry with cross := mput s.cry.cross key 1 })
      else none

/-- Tiles still to cross (CRY_RGN_REKEY.REMAIN): those of the other parity but for a ZERO tile without a frame, unless writes
to it are held (log entry 108). -/
def State.toCross (s : State) (slot : Nat) : List Nat :=
  let keys := ((s.tmu.map.map (·.1)) ++ (s.tmu.cache.map (·.1))).filter (fun k => decide (keySlot k = slot))
  ((keys.foldl ninsert []).map keyTile).filter (fun tile =>
    let t := s.tme slot tile
    !s.newest slot t && (t.nv || decide (t.fmt ≠ .zero) || s.ctrHeld slot tile))

/-! ## Demotion -/

/-- Queue the transfers of a frame's 64 lines (Table 5.6 step 5, Table 5.7 step 1). -/
def State.lineTransfers (s : State) (f id cls : Nat) (write : Bool) : State :=
  (List.range 64).foldl (fun s l => s.transfer (s.lineQueue f l) id 19 cls s.nowNs write false) s

/-- A frame may be demoted now: DIRTY, its tile not locked, no crossing wait, a counter value left, no pending read for a
merge. -/
def State.mayDemote (s : State) (f : Nat) (e : Fte) : Bool :=
  let t := s.tme e.slot e.tile
  decide (e.state = .dirty) && (s.lockOf e.slot e.tile).isNone && !s.stuck e.slot t && !s.noCounter e.slot t &&
    !s.tmu.moves.any (fun m => decide (m.slot = e.slot ∧ m.tile = e.tile)) &&
    !s.near.reads.any (fun r => decide (r.frame = f) && r.merge) &&
    (!s.isDeleting e.slot || s.tmu.waits.any (fun w => w.why.forRegion && decide (w.slot = e.slot)))

/-- The demotion begins (Table 5.7 step 1): the counter fixed, TRANSIT, MOVING, the near read; or it waits for a
crossing-table entry. It goes on once the vault holds the bulk key of CUR (Table 4.6 step 2). -/
def State.runDemotion (s : State) (m : Move) : State :=
  let t := s.tme m.slot m.tile
  match s.takeCounter m.slot m.tile t with
  | none => (s.putMove { m with stage := .crossWait }).bump F.CRY_XTAB_WAITS
  | some (u, s1) =>
    let wait := s1.cry.keyWait.contains m.slot
    let m1 := { m with
      stage := if wait then .keyWait else .compress, tme := t, crossing := u.crossing, gen := u.gen, ctr := u.ctr,
      data := s1.frameBytes m.frame, marks := s1.frameMarks m.frame,
      level := s1.rd F.TMU_RGN_POLICY_LEVEL m.slot }
    let s2 := ((s1.lineTransfers m.frame m.id m.cls false).putMove m1).setTme m.slot m.tile { t with transit := true }
    match s2.fte m.frame with
    | some e => s2.setFte m.frame { e with state := .moving }
    | none => s2

/-- An admitted demotion takes its lock entry and begins; none when it cannot. -/
def State.beginDemotion (s : State) (f cls : Nat) (purpose : Purpose) (engine job : Option Nat) : Option State :=
  match s.fte f with
  | none => none
  | some e =>
    if s.mayDemote f e ∧ s.lockRoom e.slot then
      match s.cacheGood e.slot e.tile with
      | none => none
      | some s1 =>
        let (id, s2) := s1.freshId
        let m := { Move.blank id .demote purpose e.slot e.tile (s2.tme e.slot e.tile) with
          frame := f, engine := engine, cls := cls, job := job }
        some ((s2.addMove m).runDemotion m)
    else none

/-- A demotion under an internal class: it is admitted first. -/
def State.startDemotion (s : State) (f cls : Nat) (purpose : Purpose) (engine : Option Nat) : Option State :=
  match s.fte f with
  | none => none
  | some e =>
    if s.mayDemote f e ∧ s.lockRoom e.slot then
      (s.admitInternal cls 4096).bind (fun s1 => s1.beginDemotion f cls purpose engine none)
    else none

/-- The plaintext that TCS covers: poisoned lines as zeros (R237). -/
def maskLines (bs : List Byte) (marks : List Nat) : List Byte :=
  (List.range 64).flatMap (fun l => if marks.contains l then List.replicate 64 0 else bytesAt bs (64 * l) 64)

/-- The demotion's format and length are known: the claim (R84). -/
def State.claimMove (s : State) (m : Move) : State :=
  if s.rgnType m.slot = 2 ∧ m.len ≠ 0 then (s.claim m.slot m.len).putMove { m with claim := m.len } else s.putMove m

/-- Encryption and the write of the sectors (Table 5.7 steps 5 and 6; R143, R144, R237). -/
def State.sealMove (s : State) (m : Move) (loc : Nat) : State :=
  let stored := s.fixedSlots m.slot
  let m1 := { m with loc := if m.len = 0 ∧ !stored then 0 else loc, stage := .written }
  match m.fmt with
  | .zero => s.putMove { m1 with tag := 0 }
  | .pattern =>
    s.putMove { m1 with
      tag := BitVec.ofNat 64 (leNat (xorBytes m.record (s.sealStream m.slot m.tile m.gen m.ctr))) }
  | _ =>
    let g := m.gen % 2 = 1
    let key := s.bulkKey m.slot m.gen
    let iv := tileIv m.slot m.tile m.ctr g 1
    let ct := gcmCrypt key iv m.record
    let tag := tagOf (gcmTag key iv (tileAad m.tile m.ctr m.gen m.fmt m.len) ct)
    let s1 := (s.putMove { m1 with tag := tag }).putSectors loc ct (if m.fmt = .raw then m.marks else [])
    s1.sectorTransfers loc m.len m.id m.cls true false

/-- A run for the demotion (R74, R76, R77): the fixed slot, a new one for a tile that leaves its old one, or a run of the
pools; without one the demotion escalates and waits. -/
def State.placeMove (s : State) (m : Move) : State :=
  let fixed := s.fixedSlots m.slot
  if fixed ∧ !m.purpose.newRun then s.sealMove m m.tme.loc
  else if !fixed ∧ m.len = 0 then s.sealMove m 0
  else match s.alloc m.slot (if fixed then 64 else m.len) with
    | some (a, s1) => s1.sealMove m a
    | none => (s.putMove { m with stage := .allocWait }).raise cAllocEscalate (region := some m.slot)

/-- Compression and verification are done (Table 5.7 steps 3 and 4; R115 to R117, R124, R125, R129, R239). CDC counts what
its pipes did: nothing while no pipe is ACTIVE, and as RAW what R115 stored RAW. -/
def State.compressed (s : State) (m : Move) (forceRaw : Bool) : State :=
  let poisoned := !m.marks.isEmpty
  let r := if forceRaw then compressTile 0 poisoned true m.data else compressTile m.level poisoned s.cdcOffline m.data
  let m1 := { m with fmt := r.1, len := r.2.1, record := r.2.2,
                     tcs := crc32c (if poisoned then maskLines m.data m.marks else m.data) }
  let s1 := if s.cdcOffline then s else (s.bump F.CDC_IN_CNT_TILES).bump F.CDC_OUT_SECT_SECTORS 0 0 r.2.1
  let s2 := if r.1 = .raw ∧ !forceRaw ∧ !s.cdcOffline then s1.bump F.CDC_RAW_CNT_TILES else s1
  let s3 := s2.claimMove m1
  match s3.move m.id with
  | some m2 => s3.placeMove m2
  | none => s3

/-- A demotion aborts (R69, R91, R147): the value used is spent, its run goes back, its claim is released. -/
def State.abortDemotion (s : State) (m : Move) : State :=
  let s1 := (s.dropMove m.id).issued m.id
  if m.stage = .crossWait then s1.leaveMove m true
  else
    let s2 := if m.stage = .written ∧ (!s.fixedSlots m.slot ∨ m.purpose.newRun) then
        s1.freeRun m.loc (if s.fixedSlots m.slot then 64 else m.len) else s1
    let s3 := s2.unclaim m.slot m.claim
    let s4 := s3.setTme m.slot m.tile { s3.tme m.slot m.tile with transit := false, ctr := m.ctr }
    let s5 := match s4.fte m.frame with
      | some e => s4.setFte m.frame { e with state := .dirty }
      | none => s4
    (((s5.saturate m.slot m.tile).bump F.SCR_CNT_ABORT_TILES).leaveMove m true).engineDone m

/-- A run has gone to the retired set: the record and the event (R255). -/
def State.tileRetired (s : State) (slot tile loc len : Nat) : State :=
  (s.log 0x08 { slot := some slot, tile := tile, location := (s.sectorSpot loc).loc, detail := loc + 2 ^ 37 * len }).raise
    cTileRetired (region := some slot)

/-- The commit (R90, R79, R185): one update of the entry, the old run returned, the frame CLEAN, the lock freed. The
entry's flags that a job or RAS changed meanwhile stand. -/
def State.commitDemotion (s : State) (m : Move) : State :=
  let t := s.tme m.slot m.tile
  let fixed := s.fixedSlots m.slot
  let s1 := (s.dropMove m.id).issued m.id
  let t1 := { t with
    loc := m.loc, len := m.len, fmt := m.fmt, gen := if m.crossing then decide (m.gen % 2 = 1) else t.gen,
    ctr := m.ctr, tcs := m.tcs, tag := m.tag, transit := false, poison := !m.marks.isEmpty, unmat := false,
    saturated := if m.crossing then false else t.saturated,
    retired := if fixed ∧ !m.purpose.newRun then t.retired else false }
  let s2 := s1.setTme m.slot m.tile t1
  let s3 := if fixed then
      (if m.purpose.newRun then (if t.retired then s2.retireRun t.loc 64 else s2.freeRun t.loc 64) else s2)
    else if t.len = 0 then s2
    else
      let s4 := s2.unclaim m.slot t.len
      if t.retired then s4.retireRun t.loc t.len else s4.freeRun t.loc t.len
  let s3 := if fixed ∧ m.purpose.newRun then s3.setSlot m.slot m.tile m.loc else s3
  let s5 := if t.retired ∧ (!fixed ∨ m.purpose.newRun) then
      s3.tileRetired m.slot m.tile t.loc (if fixed then 64 else t.len) else s3
  let s6 := if m.crossing then s5.setCry { s5.cry with cross := mdel s5.cry.cross (tkey m.slot m.tile) } else s5
  let s7 := match s6.fte m.frame with
    | some e => s6.setFte m.frame { e with state := .clean, first := false }
    | none => s6
  let s8 := (((s7.saturate m.slot m.tile).bump F.SCR_CNT_DEMO_TILES).leaveMove m false).engineDone m
  let direct := decide (s8.rd F.TMU_RGN_POLICY_TIER m.slot = 2) || s8.near.withheld.contains m.frame
  if direct then s8.evict m.frame else s8

/-! ## Promotion -/

/-- What a tile that has no stored sectors expands to is checked against TCS (R118); a poisoned one is not. -/
def State.expandOk (s : State) (slot tile : Nat) (t : Tme) : Bool :=
  t.unmat || (t.poison && t.fmt = .zero) || crc32c (s.expand slot tile t) == t.tcs

/-- A TCS mismatch is confirmed: the record, and the tile is wholly poisoned (R242). blk is 6 for TMU, 7 for CDC; detail
holds the TCS computed or the cause of a malformation (Table 7.11). -/
def State.tcsMismatch (s : State) (slot tile blk detail : Nat) : State :=
  (s.log 0x03 { slot := some slot, tile := tile, detail := detail, blk := some blk }).poisonTile slot tile

/-- A tile that TMU expands fails TCS (R118). -/
def State.expandMismatch (s : State) (slot tile : Nat) : State :=
  s.tcsMismatch slot tile 6 (crc32c (s.expand slot tile (s.tme slot tile))).toNat

/-- A move's data when the tile needs no bulk read: expanded and checked, or wholly poisoned (R35, R240). -/
def State.expandMove (s : State) (m : Move) : State :=
  let t := s.tme m.slot m.tile
  let all := List.range 64
  if t.poison ∧ t.fmt = .zero then
    s.putMove { m with stage := .ready, data := List.replicate 4096 0, marks := all }
  else if s.expandOk m.slot m.tile t then
    s.putMove { m with stage := .ready, data := s.expand m.slot m.tile t }
  else
    (s.expandMismatch m.slot m.tile).putMove
      { m with stage := .ready, data := List.replicate 4096 0, marks := all }

/-- The sectors of a tile's run that hold a poison marker. -/
def State.runMarks (s : State) (t : Tme) : List Nat :=
  (List.range t.len).filter (fun i => s.bulk.marks.contains (t.loc + i))

/-- A promotion takes its lock entry over a reserved frame and issues the bulk read (Table 5.6 step 1). -/
def State.beginPromotion (s : State) (slot tile f cls : Nat) (purpose : Purpose) (engine job : Option Nat)
    (req : Option Req) : State :=
  let t := s.tme slot tile
  let (id, s1) := s.freshId
  let s2 := s1.setFte f { tile := tile, slot := slot, state := .filling, pin := false, first := false, heat := 0,
                          stamp := s1.agingNow }
  let m := { Move.blank id .promote purpose slot tile t with
    frame := f, engine := engine, cls := cls, job := job, req := req,
    record := s2.sectors t.loc t.len, marks := s2.runMarks t }
  let s3 := s2.addMove m
  if t.len = 0 then s3.expandMove m
  else s3.sectorTransfers t.loc t.len id cls false (decide (purpose = .demand))

/-- A bulk read that installs nothing (BULK_DIRECT, R179): it carries its request's port time and target (R216). -/
def State.beginRead (s : State) (slot tile cls : Nat) (q : Req) : State :=
  let t := s.tme slot tile
  let (id, s1) := s.freshId
  let m := { Move.blank id .read .demand slot tile t with
    cls := cls, req := some q, record := s1.sectors t.loc t.len, marks := s1.runMarks t }
  (List.range t.len).foldl (fun s i => s.transfer (s.sectorQueue (t.loc + i)) id q.ing q.cls q.at_ false false) (s1.addMove m)

/-- The tile has yet to be swept after a retention loss (R265). -/
def State.unswept (s : State) (slot tile : Nat) : Bool :=
  match s.ras.sweep with
  | some (r, t) => s.rdb F.TMU_RGN_MAP_RETAIN slot && decide (r < slot ∨ (r = slot ∧ t ≤ tile))
  | none => false

/-- An integrity halt begins (R162 step 1). -/
def State.integrityHalt (s : State) (slot tile : Nat) (gen : Bool) (src pipe : Nat) (stored calcd : BitVec 64) : State :=
  if s.cry.halt ≠ 0 then s
  else
    let s1 := ((((s.wr F.CRY_HALT_REC_TILE tile).wr F.CRY_HALT_REC_SLOT slot).wr F.CRY_HALT_REC_GEN (b2n gen)).wr
      F.CRY_HALT_REC_SRC src).wr F.CRY_HALT_REC_PIPE pipe
    let s2 := (s1.wr F.CRY_HALT_TAG_STORED stored.toNat).wr F.CRY_HALT_CALC_CALC calcd.toNat
    let s3 := s2.setCry { s2.cry with halt := 1 }
    (s3.raise cHalt).emit (.alertN true)

/-- A tile's stored run may be copied as it stands: data, not locked, no move, no row of it being copied. -/
def State.mayCopy (s : State) (slot tile : Nat) : Bool :=
  let t := s.tme slot tile
  decide (t.len ≠ 0) && (s.lockOf slot tile).isNone && !s.unswept slot tile &&
    !s.tmu.moves.any (fun m => decide (m.slot = slot ∧ m.tile = tile))

/-- A tile's stored run is copied to the sectors from a (R78; R227, R255, R258 for a pinned tile, which R173 keeps from being
demoted, log entry 109): its bytes, counter and generation stay. TAG is checked over what is read (R160); a mismatch is an
integrity halt. The run that the tile leaves goes back (R79). -/
def State.copyRun (s : State) (slot tile a cls : Nat) : State :=
  let t := s.tme slot tile
  let fixed := s.fixedSlots slot
  let bytes := s.sectors t.loc t.len
  let tag := s.calcTag slot tile t bytes
  let (id, s0) := s.freshId
  let s1 := s0.sectorTransfers t.loc t.len id cls false false
  if tag ≠ t.tag then s1.integrityHalt slot tile t.gen 2 ((s1.unitsIn cryKind 1).headD 0) t.tag tag
  else
    let s2 := (s1.putSectors a bytes (s.runMarks t)).sectorTransfers a t.len id cls true false
    let s3 := s2.setTme slot tile { t with loc := a, retired := false }
    let s4 := if fixed then s3.setSlot slot tile a else s3
    let n := if fixed then 64 else t.len
    if t.retired then (s4.retireRun t.loc n).tileRetired slot tile t.loc n else s4.freeRun t.loc n

/-- A tile's fixed slot without stored bytes becomes the slot at a: only LOC changes (R255). -/
def State.moveSlot (s : State) (slot tile a : Nat) : State :=
  let t := s.tme slot tile
  let s1 := (s.setTme slot tile { t with loc := a, retired := false }).setSlot slot tile a
  if t.retired then (s1.retireRun t.loc 64).tileRetired slot tile t.loc 64 else s1.freeRun t.loc 64

/-- The tile's frame is pinned, or would be once it is promoted: no job, RAS or relocation demotes it (R173, R174). -/
def State.keepsFrame (s : State) (slot tile : Nat) : Bool :=
  let t := s.tme slot tile
  s.wantsPin slot t || (t.nv && (match s.fte t.near with | some e => e.pin | none => false))

/-- A tile is there to promote: no frame, not locked, not UNMAT, passed by the retention sweep (R265). -/
def State.mayPromote (s : State) (slot tile : Nat) : Bool :=
  let t := s.tme slot tile
  !t.nv && !t.unmat && (s.lockOf slot tile).isNone && decide (tile < s.rgnTiles slot) && !s.isDeleting slot &&
    !s.unswept slot tile

/-- An engine's promotion under an internal class: the cache, the lock, the frame, the admission; none when one lacks. -/
def State.startPromotion (s : State) (slot tile cls : Nat) (purpose : Purpose) (engine : Option Nat) : Option State :=
  match s.cacheGood slot tile with
  | none => none
  | some s1 =>
    if s1.mayPromote slot tile ∧ s1.lockRoom slot then
      match s1.takeFrame with
      | none => none
      | some (f, s2) =>
        (s2.admitInternal cls 4096).map (fun s3 => s3.beginPromotion slot tile f cls purpose engine none none)
    else none

/-- A job's promotion, whose part ADM has admitted. -/
def State.jobPromotion (s : State) (slot tile cls : Nat) (purpose : Purpose) (engine : Option Nat) (job : Nat) :
    Option State :=
  match s.cacheGood slot tile with
  | none => none
  | some s1 =>
    if s1.mayPromote slot tile ∧ s1.lockRoom slot then
      (s1.takeFrame).map (fun r => r.2.beginPromotion slot tile r.1 cls purpose engine (some job) none)
    else none

/-- An ACTIVE engine with a free slot (R188), lowest first. -/
def State.freeEngine (s : State) : Option Nat := (s.unitsIn scrKind 1).find? (fun e => decide (s.engineLoad e < 8))

/-- HEAT at an installation (R177). -/
def Purpose.heat : Purpose → Nat
  | .demand => 4 | .prefetch => 1 | .promoteJob => 1 | _ => 0

/-- The pin limit ends a NEAR_PIN walk (R174). -/
def State.stopPinWalk (s : State) (slot : Nat) : State :=
  (s.setScr { s.scr with pinWalks := mdel s.scr.pinWalks slot }).raise cPinLimit (region := some slot)

/-- A frame installed whole goes into the write queues of its channels (Table 5.6 step 5). -/
def State.installWrites (s : State) (f cls : Nat) : State :=
  let (id, s1) := s.freshId
  s1.lineTransfers f id cls true

/-- The promoted tile is written into its frame (Table 5.6 step 5, R88, R240); the lock is freed. What waits behind the
lock is served afterwards. -/
def State.installMove (s : State) (m : Move) : State :=
  let s1 := (s.dropMove m.id).issued m.id
  let s2 := (s1.install m.slot m.tile m.frame m.data m.marks m.purpose.heat .clean).installWrites m.frame m.cls
  let s3 := match m.purpose with
    | .demand => s2.bump F.SCR_CNT_PROMO_TILES
    | .prefetch => s2.bump F.SCR_CNT_PF_ISSUED
    | _ => s2
  let s4 := if m.purpose = .walk ∨ m.purpose = .pinJob then
      let r := s3.pinTile m.slot m.tile m.frame
      if !r.2 ∧ m.purpose = .walk then r.1.stopPinWalk m.slot else r.1
    else s3
  (s4.leaveMove m false).engineDone m

/-! ## Prefetch (R182) -/

/-- A prefetch is dropped, its slot counted as wasted. -/
def State.dropPrefetch (s : State) : State :=
  ({ s with adm := { s.adm with taken := s.adm.taken + 1 } }.slotDone 13 true).bump F.SCR_CNT_PF_DROPPED

/-- One prefetch: promoted; dropped for one of the three reasons of R182; or kept until an engine, a lock entry or admission
lets it run. A tile that is not there to prefetch is passed over. -/
def State.prefetchTile (s : State) (slot tile : Nat) : State :=
  let later := s.setScr { s.scr with prefetch := s.scr.prefetch ++ [(slot, tile)] }
  if s.rgnTiles slot ≤ tile ∨ s.isDeleting slot ∨ s.unswept slot tile ∨ s.rgnState slot = 0 ∨ s.rgnState slot = 3 then s
  else match s.cacheGood slot tile with
    | none => later
    | some s1 =>
      let t := s1.tme slot tile
      if (s1.lockOf slot tile).isSome ∨ t.nv ∨ t.unmat ∨ s1.freeBelow F.SCR_FRAME_WM_FREE_MIN ∨ !s1.classOpen 13 then
        s1.dropPrefetch
      else match s1.freeEngine with
        | none => later
        | some e => (s1.startPromotion slot tile 13 .prefetch (some e)).getD later

/-- The prefetches that were kept are tried again. -/
def State.runPrefetches (s : State) : State :=
  if s.paused then s
  else s.scr.prefetch.foldl (fun s x => s.prefetchTile x.1 x.2) (s.setScr { s.scr with prefetch := [] })

/-- A demand promotion is noted; with a neighbour promoted in the same epoch, the tiles after the two are prefetched. -/
def State.notePromotion (s : State) (slot tile : Nat) : State :=
  let old := s.scr.lastPromo.filter (fun x => decide (x.2.2 = s.epoch ∧ (x.1, x.2.1) ≠ (slot, tile)))
  let s1 := s.setScr { s.scr with lastPromo := (slot, tile, s.epoch) :: old }
  let has := fun t => old.any (fun x => decide (x.1 = slot ∧ x.2.1 = t))
  let from_ := if has (tile + 1) then some (tile + 2) else if 0 < tile ∧ has (tile - 1) then some (tile + 1) else none
  match from_ with
  | some a =>
    if s.rd F.TMU_RGN_POLICY_TIER slot = 2 ∨ s.paused then s1
    else (List.range (s.rd F.SCR_MOV_CFG_PREFETCH_DEPTH)).foldl (fun s i => s.prefetchTile slot (a + i)) s1
  | none => s1

end Sys2Proof.Machine
end

