-- ==== Sys2Proof/Machine/Coherence.lean ====
section
/-!
DEFINITION. Machine/Coherence.lean: the directory as shared operations (R305 to R329, 09_coherence.md): sparse entries,
the directory cache, snoops, what a request finds, and sweeps.
-/
namespace Sys2Proof.Machine

/-! ## Sparse entries -/

/-- The sparse set of a line (R310). -/
def dirSet (line : Nat) : Nat := (line % 2 ^ 24) ^^^ (line / 2 ^ 24 % 2 ^ 16)

/-- A free entry. -/
def freeEnt : DirEnt := { line := 0, state := .i, sharers := 0 }

/-- STATE as the entry's word holds it (Table 9.1). -/
def DState.code : DState → Nat
  | .i => 0
  | .s => 1
  | .e => 2

/-- The 64-bit word of an entry (R311). -/
def DirEnt.enc (e : DirEnt) : Nat := e.line % 2 ^ 40 + 2 ^ 40 * e.state.code + 2 ^ 42 * (e.sharers % 2 ^ 16)

/-- An entry is well formed (R311). -/
def DirEnt.wellFormed (e : DirEnt) : Bool :=
  decide (e.line < 2 ^ 40 ∧ e.sharers < 2 ^ 16) &&
    (match e.state with
     | .i => decide (e.sharers = 0)
     | .s => decide (e.sharers ≠ 0)
     | .e => decide (countBits 16 e.sharers = 1))

/-- The entry that a word spells; none where the word is a directory fault (R311). -/
def DirEnt.dec (w : Nat) : Option DirEnt :=
  let st := bits w 41 40
  let e : DirEnt := { line := bits w 39 0, state := if st = 0 then .i else if st = 1 then .s else .e, sharers := bits w 57 42 }
  if st = 3 ∨ 2 ^ 58 ≤ w ∨ !e.wellFormed then none else some e

/-- The 8 entries of a set. -/
def State.dirEnts (s : State) (n : Nat) : List DirEnt := (mget s.dir.sets n).getD (List.replicate 8 freeEnt)

/-- The bytes of a set's line (R310, R311), and as they are stored under the device reserve key (R146): the sparse base is the
first line of near-tier reserved memory. -/
def State.dirSetBytes (s : State) (n : Nat) : List Byte := (s.dirEnts n).flatMap (fun e => leBytes 8 e.enc)
def State.dirSetStored (s : State) (n : Nat) : List Byte :=
  s.reserveCrypt (s.rd F.SCR_FRAMES_TOTAL * 64 + n) (s.dirSetBytes n)

/-- Write a set. -/
def State.putDirEnts (s : State) (n : Nat) (l : List DirEnt) : State :=
  let sets := if l.all (fun e => decide (e.state = .i)) then mdel s.dir.sets n else mput s.dir.sets n l
  s.setDir { s.dir with sets := sets }

/-- The entry of a line. -/
def State.dirFind (s : State) (line : Nat) : Option DirEnt :=
  (s.dirEnts (dirSet line)).find? (fun e => decide (e.state ≠ .i ∧ e.line = line))

/-- Put an entry in the first position that pick admits. -/
def putFirst (pick : DirEnt → Bool) (x : DirEnt) : List DirEnt → List DirEnt
  | [] => []
  | e :: l => if pick e then x :: l else e :: putFirst pick x l

/-- Give a line a state and sharers: its entry is replaced, allocated in the first free position, or freed when no
sharer is left (R316). -/
def State.dirPut (s : State) (line : Nat) (st : DState) (sharers : Nat) : State :=
  let n := dirSet line
  let l := s.dirEnts n
  let x : DirEnt := if sharers = 0 then freeEnt else { line := line, state := st, sharers := sharers }
  if (s.dirFind line).isSome then
    s.putDirEnts n (putFirst (fun e => decide (e.state ≠ .i ∧ e.line = line)) x l)
  else if sharers = 0 then s
  else s.putDirEnts n (putFirst (fun e => decide (e.state = .i)) x l)

/-- A position of the line's set is free. -/
def State.dirRoom (s : State) (line : Nat) : Bool :=
  (s.dirEnts (dirSet line)).any (fun e => decide (e.state = .i))

/-- Remove a head from a line's entry. -/
def State.dirDrop (s : State) (line h : Nat) : State :=
  match s.dirFind line with
  | some e => s.dirPut line e.state (clrBit e.sharers h)
  | none => s

/-- A set is recorded as unknown, or all are (R328, R329). -/
def State.setUnknown (s : State) (n : Nat) : Bool :=
  s.rdb F.DIR_STATUS_BROADCAST ||
    (List.range 64).any (fun i => s.rdb F.DIR_UNKNOWN_VALID 0 i && decide (s.rd F.DIR_UNKNOWN_SET 0 i = n))

/-- A sparse set is lost (R328, R329). -/
def State.dirLost (s : State) (n : Nat) : State :=
  let s0 := s.putDirEnts n (List.replicate 8 freeEnt)
  let s1 := s0.setDir { s0.dir with cache := s0.dir.cache.filter (fun e => decide (dirSet e.1 ≠ n)) }
  match (List.range 64).find? (fun i => !s1.rdb F.DIR_UNKNOWN_VALID 0 i) with
  | some i =>
    (((s1.wrAt F.DIR_UNKNOWN_SET 0 i n).wrAt F.DIR_UNKNOWN_VALID 0 i 1).wr F.DIR_STATUS_UNKNOWN
      (s1.rd F.DIR_STATUS_UNKNOWN + 1)).raise cDirEntryLost
  | none => (s1.wr F.DIR_STATUS_BROADCAST 1).raise cDirBroadcast

/-! ## The directory cache (R313, R314) -/

/-- The active ways of the bank of a set. -/
def State.dirWays (s : State) (n : Nat) : Nat := countBits 17 (s.rd F.DIR_BANK_WAYS_ACTIVE (n % 16))

/-- The line's entry stands in the least recently used way of its cache set; a bank with no way caches nothing. -/
def State.dirInstall (s : State) (line : Nat) : State :=
  let n := dirSet line
  let rest := mdel s.dir.cache line
  if (s.dirFind line).isNone ∨ s.dirWays n = 0 then s.setDir { s.dir with cache := rest }
  else
    let mate := fun (e : Nat × Nat) => decide (dirSet e.1 % 2 ^ 17 = n % 2 ^ 17)
    let stamp := (s.dir.cache.map (·.2)).foldl max 0 + 1
    let kept := rest.filter (fun e => !mate e ||
      decide ((rest.filter (fun x => mate x && decide (e.2 < x.2))).length < s.dirWays n - 1))
    s.setDir { s.dir with cache := mput kept line stamp }

/-- A lookup: counted, and the entry is installed. -/
def State.dirLook (s : State) (line : Nat) : State :=
  ((if (mget s.dir.cache line).isSome then s.bump F.DIR_CNT_LOOKUP_HIT else s.bump F.DIR_CNT_LOOKUP_MISS)).dirInstall line

/-- What a lookup meets (R328, R330): an error in a cached entry counts against its way, an uncorrectable one drops the entry; a
sparse set that is read and is uncorrectable, or holds an entry that is not well formed, is lost. -/
def State.dirMeets (s : State) (line : Nat) (err : DirErr) : State :=
  let n := dirSet line
  let hit := (mget s.dir.cache line).isSome
  match err with
  | .corrected w => if hit ∧ s.wayActive (n % 16) w then s.wayFault (n % 16) w else s
  | .uncorrectable w =>
    if hit ∧ s.wayActive (n % 16) w then (s.setDir { s.dir with cache := mdel s.dir.cache line }).wayFault (n % 16) w else s
  | .lost => if hit then s else s.dirLost n
  | .none => if hit ∨ (s.dirEnts n).all DirEnt.wellFormed then s else s.dirLost n

/-! ## Snoops -/

/-- The busy record of a line. -/
def State.busyOf (s : State) (line : Nat) : Option Busy := s.dir.busy.find? (fun b => decide (b.line = line))

/-- Snoops outstanding to a head (R322). -/
def State.snoopsOut (s : State) (h : Nat) : Nat := (s.dir.busy.filter (fun b => b.heads.contains h)).length

/-- A sweep runs for a head's own reset. -/
def State.headSwept (s : State) (h : Nat) : Bool :=
  s.dir.sweeps.any (fun e => match e.2 with | .reset g => decide (g = h) | _ => false)

/-- A head takes snoops: presented, not fenced, not under a sweep for its reset (R323, R327). -/
def State.snoopable (s : State) (h : Nat) : Bool :=
  s.headUp h && !(s.rd F.DIR_FENCE_HEADS).testBit h && !s.headSwept h

/-- Send one snoop. -/
def State.sendSnoop (s : State) (h line : Nat) (k : Snoop) : State :=
  (s.emit (.bisnp h line k)).bump F.DIR_CNT_BI_SENT

/-- What may follow an attempt to snoop. -/
inductive Snooped where
  | free (s : State)
  | busy (s : State)
  | credit

/-- Snoop some heads for a line. Heads that take no snoop hold the line no longer. -/
def State.snoopAll (s : State) (line : Nat) (k : Snoop) (heads : List Nat) (next : Then) : Snooped :=
  let gone := heads.filter (fun h => !s.snoopable h)
  let live := heads.filter s.snoopable
  if live.any (fun h => decide (256 ≤ s.snoopsOut h)) then .credit
  else
    let s1 := gone.foldl (fun s h => s.dirDrop line h) s
    if live.isEmpty then .free s1
    else
      let s2 := live.foldl (fun s h => s.sendSnoop h line k) s1
      .busy (s2.setDir { s2.dir with busy := s2.dir.busy ++ [Busy.mk line k live next] })

/-! ## A request at the directory (Table 9.3) -/

/-- The head of a request. -/
def State.reqHead (s : State) (q : Req) : Nat :=
  match q.org with
  | .host h _ _ => s.portOf h
  | _ => 16

/-- The request writes. -/
def Req.writes (q : Req) : Bool := decide (q.kind = .write ∨ q.kind = .partialWrite)

/-- The snoops that a request needs first. -/
def State.needSnoops (s : State) (q : Req) (owner : Nat) : Snoop × List Nat :=
  let h := s.reqHead q
  let others := fun m => (bitList 16 m).filter (fun g => decide (g ≠ h))
  match s.dirFind (q.addr / 64) with
  | none => if s.setUnknown (dirSet (q.addr / 64)) then (.inv, others owner) else (.inv, [])
  | some e =>
    if q.writes ∨ q.mv = .any then (.inv, others e.sharers)
    else if e.state = .e then
      (if q.mv = .shared ∨ q.kind = .inv then (.data, others e.sharers) else (.cur, others e.sharers))
    else (.inv, [])

/-- The request leaves an entry behind. -/
def Req.needsEntry (q : Req) : Bool := decide (q.mv ≠ .invalid)

/-- The entry after a request (Table 9.3, Entry after). -/
def State.dirAfter (s : State) (q : Req) : State :=
  let h := s.reqHead q
  let line := q.addr / 64
  if q.writes then
    match q.mv with
    | .invalid => s.dirDrop line h
    | .shared => s.dirPut line .s (2 ^ h)
    | .any => s.dirPut line .e (2 ^ h)
  else
    match q.mv with
    | .invalid => s
    | .shared => s.dirPut line .s (match s.dirFind line with | some e => setBit e.sharers h | none => 2 ^ h)
    | .any => s.dirPut line .e (2 ^ h)

/-- The victim of a full set (R324). -/
def State.victim (s : State) (n : Nat) : Option DirEnt :=
  ((s.dirEnts n).filter (fun e => decide (e.state ≠ .i) && (s.busyOf e.line).isNone)).foldl
    (fun (b : Option DirEnt) e => match b with
      | none => some e
      | some x =>
        let ce := countBits 16 e.sharers
        let cx := countBits 16 x.sharers
        if ce < cx ∨ (ce = cx ∧ e.state = .s ∧ x.state = .e) then some e else some x) none

/-- What the directory does with a request: it goes on to memory, the directory holds it, or it waits. -/
inductive DirAns where
  | pass (s : State)
  | held (s : State)
  | wait (s : State) (w : Why)

/-- A sweep that a request of head h to a slot waits for (Table 9.5). -/
def State.sweepBars (s : State) (h slot : Nat) : Bool :=
  s.dir.sweeps.any (fun e => match e.2 with
    | .reset g => decide (g = h)
    | .owner r g => decide (r = slot ∧ g = h)
    | _ => false)

/-- A capacity eviction is counted (R325). -/
def State.countEviction (s : State) : State :=
  let n := if s.dir.evictEpoch = s.epoch then s.dir.evictCount + 1 else 1
  let s1 := (s.setDir { s.dir with evictEpoch := s.epoch, evictCount := n }).bump F.DIR_CNT_EVICT_COUNT
  if n = s1.rd F.DIR_CFG_EVICT_WARN then s1.raise cDirEvictHigh else s1

/-- An earlier request to the same line waits for an eviction (R29, R325). -/
def State.evictsFor (s : State) (q : Req) : Bool :=
  s.dir.busy.any (fun b => match b.then_ with
    | .evictFor x => decide (x.addr / 64 = q.addr / 64 ∧ x.id ≠ q.id)
    | _ => false)

/-- The directory step of a request to a SHARED region (R316, R320, R322, R324, R325, R328). -/
def State.dirStep (s : State) (q : Req) (slot : Nat) : DirAns :=
  let h := s.reqHead q
  let line := q.addr / 64
  match s.busyOf line with
  | some b => if q.writes ∧ b.heads.contains h then .pass s else .wait s .busy
  | none =>
    if s.sweepBars h slot then .wait s .bySweep
    else if s.aon.blocks.contains 5 ∨ s.evictsFor q then .wait s .dirSet
    else
      let s0 := s.dirMeets line q.err
      let q := { q with err := .none }
      let unknown := (s0.dirFind line).isNone && s0.setUnknown (dirSet line)
      let s1 := s0.dirLook line
      let need := s1.needSnoops q (s1.owner slot)
      let told := fun (s : State) => if unknown then s.bump F.DIR_CNT_BCAST_COUNT else s
      let r := if need.2.isEmpty then Snooped.free s1 else s1.snoopAll line need.1 need.2 (.serve q)
      match r with
      | .credit => .wait s .bySnoopCredit
      | .busy s2 => .held (told s2)
      | .free s2 =>
        if q.needsEntry ∧ (s2.dirFind line).isNone ∧ !s2.dirRoom line then
          match s2.victim (dirSet line) with
          | none => .wait s .dirSet
          | some v =>
            match s2.snoopAll v.line .inv (bitList 16 v.sharers) (.evictFor q) with
            | .credit => .wait s .bySnoopCredit
            | .busy s3 => .held s3
            | .free s3 => .pass (told (((s3.dirPut v.line .i 0).countEviction.dirAfter q).dirInstall line))
        else .pass (told ((s2.dirAfter q).dirInstall line))

/-! ## Sweeps (R327) -/

/-- The tracked lines that satisfy a test, with their entries. -/
def State.dirLines (s : State) (sel : DirEnt → Bool) : List DirEnt :=
  s.dir.sets.flatMap (fun e => e.2.filter (fun x => decide (x.state ≠ .i) && sel x))

/-- The lines and heads that a sweep has still to snoop. -/
def State.sweepLeft (s : State) (w : SweepWhy) : List (Nat × List Nat) :=
  let inSlot := fun (r line : Nat) => decide (s.rgnBase r ≤ line * 64 ∧
    line * 64 < s.rgnBase r + s.rd F.TMU_RGN_MAP_SIZE r * 2 ^ 30)
  match w with
  | .reset _ => []
  | .delete r => (s.dirLines (fun e => inSlot r e.line)).map (fun e => (e.line, bitList 16 e.sharers))
  | .owner r h => (s.dirLines (fun e => inSlot r e.line && e.sharers.testBit h)).map (fun e => (e.line, [h]))
  | .p3 => (s.dirLines (fun _ => true)).map (fun e => (e.line, bitList 16 e.sharers))

/-- A sweep sends what it may now: lines that are busy or lack credit come later. -/
def State.sweepSend (s : State) (n : Nat) (w : SweepWhy) : State :=
  (s.sweepLeft w).foldl (fun s x =>
    if (s.busyOf x.1).isSome then s
    else match s.snoopAll x.1 .inv x.2 (.sweep n) with
      | .free s1 => s1
      | .busy s1 => s1
      | .credit => s) s

/-- A sweep begins. -/
def State.startSweep (s : State) (w : SweepWhy) : State :=
  let n := s.dir.nextSweep
  let s1 := s.setDir { s.dir with sweeps := s.dir.sweeps ++ [(n, w)], nextSweep := n + 1 }
  match w with
  | .reset h => s1.wrAt F.DIR_HEAD_SWEEP 0 h 1
  | _ => s1.sweepSend n w

/-- The directory is written empty (Table 9.5). -/
def State.dirClear (s : State) : State :=
  s.setDir { s.dir with sets := [], cache := [], busy := [], sweeps := [], conflicts := [] }

end Sys2Proof.Machine
end

