-- ==== Sys2Proof/Machine/JobEnd.lean ====
section
/-!
DEFINITION. Machine/JobEnd.lean: what memory answers a job, and how a job ends (R371 to R379, R384 to R393,
11_job_queues.md).
-/
namespace Sys2Proof.Machine

/-! ## Jobs and their descriptors (Table 11.4) -/

/-- A job in flight. -/
def State.jobOf (s : State) (id : Nat) : Option Job := s.job.jobs.find? (fun j => decide (j.id = id))

/-- Replace a job. -/
def State.putJob (s : State) (j : Job) : State :=
  s.setJob { s.job with jobs := s.job.jobs.map (fun x => if x.id = j.id then j else x) }

def Job.op (j : Job) : Nat := numAt j.desc 0 1
def Job.flags (j : Job) : Nat := numAt j.desc 1 1
def Job.arg (j : Job) : Nat := numAt j.desc 2 1
def Job.user (j : Job) : Nat := numAt j.desc 4 4
def Job.src (j : Job) : Nat := numAt j.desc 8 8
def Job.dst (j : Job) : Nat := numAt j.desc 16 8
def Job.len (j : Job) : Nat := numAt j.desc 24 4
def Job.dlen (j : Job) : Nat := numAt j.desc 28 4
def Job.pattern (j : Job) : List Byte := bytesAt j.desc 32 8

/-- The owner of a job in flight: head in bits 3:0, LD in bits 5:4. -/
def State.jobOwner (s : State) (id : Nat) : Nat := ((s.jobOf id).map (·.owner)).getD 0

/-- A request of a job that is no longer in flight. -/
def State.jobGone (s : State) (q : Req) : Bool :=
  match q.org with
  | .job id _ _ => (s.jobOf id).isNone
  | _ => false

/-- The fields that Table 11.5 names for an opcode: SRC, DST, LEN, DLEN, PATTERN, ARG; none for an unknown opcode. -/
def opFields (op : Nat) : Option (Bool × Bool × Bool × Bool × Bool × Bool) :=
  if op = 0x00 then some (false, false, false, false, false, false)
  else if op = 0x01 then some (false, false, false, false, false, true)
  else if op = 0x10 then some (true, true, true, false, false, false)
  else if op = 0x11 then some (false, true, true, false, true, false)
  else if op = 0x12 then some (false, true, true, false, false, false)
  else if op = 0x20 then some (true, true, true, true, false, true)
  else if op = 0x21 then some (true, true, true, true, false, false)
  else if op = 0x22 then some (true, false, true, false, false, false)
  else if 0x30 ≤ op ∧ op ≤ 0x34 then some (false, true, true, false, false, false)
  else if op = 0x35 then some (false, true, false, false, false, false)
  else if op = 0x36 then some (false, true, true, false, false, false)
  else none

/-- A job over a range of tiles. -/
def tileOp (op : Nat) : Bool := decide (0x30 ≤ op ∧ op ≤ 0x36 ∧ op ≠ 0x35)

/-- The bytes of a job's destination range. -/
def Job.dstLen (j : Job) : Nat := if j.op = 0x20 ∨ j.op = 0x21 then j.dlen else j.len

/-- Steps 2 to 7 of R379: the DETAIL of the first check that fails, or 0. -/
def Job.malformed (j : Job) : Nat :=
  match opFields j.op with
  | none => 1
  | some (src, dst, len, dlen, pat, arg) =>
    if 8 ≤ j.flags ∨ numAt j.desc 3 1 ≠ 0 ∨ numAt j.desc 40 24 ≠ 0 ∨ (!src ∧ j.src ≠ 0) ∨ (!dst ∧ j.dst ≠ 0) ∨
        (!len ∧ j.len ≠ 0 ∧ j.op ≠ 0x35) ∨ (!dlen ∧ j.dlen ≠ 0) ∨ (!pat ∧ leNat j.pattern ≠ 0) ∨ (!arg ∧ j.arg ≠ 0) then 2
    else if 2 ^ 46 ≤ j.src ∨ 2 ^ 46 ≤ j.dst then 3
    else if (tileOp j.op ∧ (j.dst % 4096 ≠ 0 ∨ j.len % 4096 ≠ 0 ∨ j.len < 4096)) ∨ (j.op = 0x35 ∧ j.len ≠ 0) then 4
    else if src ∧ dst ∧ j.src < j.dst + j.dstLen ∧ j.dst < j.src + j.len ∧ j.len ≠ 0 ∧ j.dstLen ≠ 0 then 5
    else if (j.op = 0x20 ∧ 9 < j.arg) ∨ (j.op = 0x01 ∧ 1 < j.arg) then 6
    else 0

/-! ## The end of a job -/

/-- A job leaves the device: its reservation returns; the QUEUE_DISABLE that waits for the last job of its queue completes
(R371). -/
def State.removeJob (s : State) (j : Job) : State :=
  let s1 := s.setJob { s.job with jobs := s.job.jobs.filter (fun x => decide (x.id ≠ j.id)) }
  let k := (s1.ctx j.queue).cq
  let d := s1.ctx k
  let s2 := if d.typ = 1 then s1.setCtx k { d with reserved := d.reserved - 1 } else s1
  if s2.job.jobs.any (fun x => decide (x.queue = j.queue)) then s2
  else
    let mine := s2.job.disabling.filter (fun e => decide (e.1 = j.queue))
    if mine.isEmpty then s2
    else
      let s3 := s2.setCtx j.queue { s2.ctx j.queue with state := 0 }
      let s4 := s3.setJob { s3.job with disabling := s3.job.disabling.filter (fun e => decide (e.1 ≠ j.queue)) }
      mine.foldl (fun s e => s.reply e.2 0xc061 rcSuccess (resultHeader 0 0)) s4

/-- A job has ended with a status (R389); its completion is still to be written. Under STOP_ON_ERR the queue enters ERROR and
its other jobs end with ABORTED, cause 2 (R391). -/
def State.endJob (s : State) (j : Job) (status detail result : Nat) : State :=
  let c := s.ctx j.queue
  let s1 := s.putJob { j with
    phase := .ended, status := some (status, detail), result := result, engine := none, parts := [], acc := [],
    out := none, blocks := [], made := [], ended := s.job.clock + 1 }
  let s2 := (s1.setJob { s1.job with clock := s1.job.clock + 1 }).bump F.SCR_JOB_DONE_JOBS
  let s3 := if status < 2 then s2 else s2.bump F.SCR_JOB_FAIL_JOBS
  let s4 := match j.engine with | some e => s3.bump F.SCR_ENG_WORK_UNITS e | none => s3
  if c.stopOnErr ∧ (status = 3 ∨ status = 4 ∨ status = 5 ∨ status = 7) then
    let s5 := if c.state = 1 then s4.queueError j.queue 4 j.index else s4
    s5.setJob { s5.job with jobs := s5.job.jobs.map (fun x =>
      if x.queue = j.queue ∧ x.id ≠ j.id ∧ x.status.isNone ∧ x.abort = 0 then { x with abort := 2 } else x) }
  else s4

/-- JOBS of the submitting queue counts a job that ended (Table 11.1). -/
def State.countJob (s : State) (q : Nat) : State :=
  let c := s.ctx q
  if c.typ = 0 then s.setCtx q { c with jobs := (c.jobs + 1) % 2 ^ 32 } else s

/-- The 16 bytes of a completion (Table 11.6). -/
def Job.completion (j : Job) (phase : Bool) : List Byte :=
  let st := j.status.getD (0, 0)
  leBytes 4 j.result ++ leBytes 4 j.user ++
    leBytes 8 (j.queue + 2 ^ 20 * j.index + 2 ^ 36 * st.1 + 2 ^ 44 * st.2 + 2 ^ 63 * b2n phase)

/-- R388: a completion of a status, with IRQ or without, has been posted to CQ k. -/
def State.interrupt (s : State) (k : Nat) (status : Nat) (irq : Bool) : State :=
  let d := s.ctx k
  let e := (mget s.job.coal k).getD (0, s.tickNo)
  let n := e.1 + 1
  if d.intEn ∧ (2 ≤ status ∨ irq ∨ max 1 d.coalCnt ≤ n) then
    (s.setJob { s.job with coal := mdel s.job.coal k }).msix (d.owner % 16) (d.owner / 16) d.vector
  else s.setJob { s.job with coal := mput s.job.coal k (n, e.2) }

/-- The completion of a job has been accepted (R387): HEAD and PHASE of the CQ go on, and what follows. -/
def State.posted (s : State) (j : Job) : State :=
  let k := (s.ctx j.queue).cq
  let d := s.ctx k
  let h := (d.head + 1) % d.size
  let s1 := s.setCtx k { d with head := h, phase := if h = 0 then !d.phase else d.phase }
  ((s1.countJob j.queue).removeJob j).interrupt k (j.status.getD (0, 0)).1 (j.flags.testBit 2)

/-- A completion is not delivered: the CQ enters ERROR (R371 causes 1 and 5). -/
def State.postLost (s : State) (j : Job) (poisoned : Bool) : State :=
  let k := (s.ctx j.queue).cq
  let s1 := s.queueError k (if poisoned then 5 else 1) 0
  let s2 := if poisoned then
      (s1.bump F.SCR_JOB_LOST_CQE).raise cCqeLost (queue := some k) (heads := s.queueHeads k)
    else s1
  (s2.countJob j.queue).removeJob j

/-! ## What memory answers a job -/

/-- The frame line that holds a line of DPA holds the poison marker. -/
def State.linePoison (s : State) (line : Nat) : Bool :=
  match s.regionAt (line * 64) s.tmu.nextId with
  | some r =>
    let off := line * 64 - s.rgnBase r
    if s.nearOnly then s.nearPoison (s.rd F.TMU_RGN_MAPLOC_LOC r + off / 4096) (line % 64)
    else
      let t := s.tme r (off / 4096)
      t.nv && s.nearPoison t.near (line % 64)
  | none => false

/-- The STATUS and DETAIL of a refused request (Table 11.7). -/
def State.jobFault (s : State) (q : Req) : Nat × Nat :=
  let miss := (4, if q.writes then 2 else 1)
  match s.decode q with
  | .error _ => miss
  | .ok r =>
    if s.rgnType r = 4 then miss
    else if s.vk4 ∧ q.key ≠ s.rd F.CRY_RGN_KEY_KEY_BIND r then (4, 3)
    else if s.rgnState r = 3 then (4, 4)
    else if s.rgnState r = 2 then (7, 5)
    else miss

/-- Change the part at an offset whose writes have begun, or have not. -/
def putPart (off : Nat) (begun : Bool) (f : JobPart → JobPart) : List JobPart → List JobPart
  | [] => []
  | p :: ps => if p.off = off ∧ p.begun = begun then f p :: ps else p :: putPart off begun f ps

/-- The descriptor has been read (R379, Table 11.11 step 3): HEAD advances; a malformed one ends at once; a FENCE and a REKEY
hold no engine slot. -/
def State.fetched (s : State) (j : Job) (v : Line) (poison : Bool) (fault : Option (Nat × Nat)) : State :=
  let s0 := s.leavePart j.cls
  let c := s0.ctx j.queue
  match fault with
  | some _ => ((if c.state = 1 then s0.queueError j.queue 1 j.index else s0).removeJob j)
  | none =>
    let s1 := s0.setCtx j.queue { c with head := (c.head + 1) % c.size }
    let j1 := { j with desc := lineBytes v, phase := .waiting }
    if poison then s1.endJob { j1 with desc := List.replicate 64 0 } 5 7 0
    else if j1.malformed ≠ 0 then s1.endJob j1 5 j1.malformed 0
    else
      let live := s1.job.jobs.filter (fun x => decide (x.id ≠ j.id))
      let wide := fun (x : Job) => j1.op = 0x01 && j1.arg = 1 && decide (x.owner = j.owner) &&
        !(decide (x.phase = .fetching ∨ x.phase = .waiting))
      s1.putJob { j1 with
        engine := if j1.op = 0x01 ∨ j1.op = 0x35 then none else j.engine,
        before := (live.filter (fun x => decide (x.queue = j.queue ∧ x.id < j.id) || wide x)).map (·.id) }

/-- A line that a job reads is answered. -/
def State.jobRead (s : State) (id what off line : Nat) (v : Line) (poison : Bool) (fault : Option (Nat × Nat)) : State :=
  match s.jobOf id with
  | none => s
  | some j =>
    if what = 0 then (if j.phase = .fetching then s.fetched j v poison fault else s)
    else s.putJob { j with parts := putPart off false (fun p => { p with
      reads := p.reads - 1, got := p.got ++ [(line, v)], bad := if poison ∧ fault.isNone then p.bad ++ [line] else p.bad,
      fault := if p.fault.isSome then p.fault else fault }) j.parts }

/-- A line that a job writes is accepted by TMU, confirmed by its home, or refused. -/
def State.jobWrote (s : State) (id what off line : Nat) (fault : Option (Nat × Nat)) : State :=
  match s.jobOf id with
  | none => s
  | some j =>
    if what = 1 then
      (if j.phase ≠ .posting then s
       else if fault.isSome then s.postLost j false
       else if s.linePoison line then s.postLost j true
       else s.posted j)
    else s.putJob { j with parts := putPart off true (fun p => { p with
      writes := p.writes - 1, fault := if p.fault.isSome then p.fault else fault }) j.parts }

end Sys2Proof.Machine
end

