-- ==== Sys2Proof/Machine/Serve.lean ====
section
/-!
DEFINITION. Machine/Serve.lean: how TMU serves a line request (R29, R34 to R37, R53, R59, R61, R68, R82, R85, R88, R91, R158,
R160 to R162, R176 to R180, R243, R265, R287, R316, R581), and what follows when a wait ends.
-/
namespace Sys2Proof.Machine

/-! ## Answers -/

/-- The grant of an answer (Table 9.3); only requests that the directory passed have another than Cmp. -/
def Req.grant (q : Req) : Grant :=
  if q.writes ∨ !q.snooped then .cmp
  else match q.mv with | .invalid => .cmp | .shared => .cmpS | .any => .cmpE

/-- BIConflictAcks that wait for no request any more (R321). -/
def State.openReqs (s : State) (h line : Nat) : List Req :=
  ((s.near.reads.map (·.req)) ++ (s.tmu.waits.map (·.req)).filter (·.snooped) ++ s.tmu.moves.filterMap (·.req)).filter
    (fun q => decide (s.reqHead q = h ∧ q.addr / 64 = line) && q.snooped)
def State.settleConflicts (s : State) : State :=
  s.dir.conflicts.foldl (fun s c =>
    if (s.openReqs c.1 c.2).isEmpty then
      (s.emit (.conflictAck c.1 c.2)).setDir { s.dir with conflicts := s.dir.conflicts.filter (fun x => decide (x ≠ c)) }
    else s) s

/-- The answer of a read. The bytes of a poisoned line carry no meaning and are given as zeros. -/
def State.answerRead (s : State) (q : Req) (poison : Bool) (v : Line) (refused : Bool := false) : State :=
  let v := if poison then 0 else v
  let s1 := match q.org with
    | .host h l tag => s.emit (.data h l tag v poison q.grant)
    | .far _ src tag _ => s.farReadRsp src tag (b2n refused) poison v
    | .job id what off => s.jobRead id what off (q.addr / 64) v poison (if refused then some (s.jobFault q) else none)
    | .none => s
  (s1.leaveReq q).settleConflicts

/-- The completion of a write; a far write is answered once the home has noted it as applied (R427). -/
def State.answerWrite (s : State) (q : Req) (refused : Bool := false) : State :=
  match q.org with
  | .host h l tag => ((if tag = fwTag then s else s.emit (.done h l tag q.grant)).leaveReq q).settleConflicts
  | .far p src tag seq =>
    { s with clx := { s.clx with done := s.clx.done ++
        [{ src := src, seq := seq, port := p, tag := tag, status := b2n refused, cls := q.cls, unit := q.unit }] } }
  | .job id what off => s.jobWrote id what off (q.addr / 64) (if refused then some (s.jobFault q) else none)
  | .none => s.leaveReq q

/-- A request ends without effect: poison for a read, discarded for a write, a bare completion otherwise. -/
def State.refuse (s : State) (q : Req) (refused : Bool) : State :=
  match q.kind with
  | .read => s.answerRead q true 0 refused
  | .inv => match q.org with
    | .host h l tag => s.emit (.done h l tag .cmp)
    | _ => s
  | _ => s.answerWrite q refused

/-- The head and LD that a raise about a request concerns. -/
def State.reqHeads (s : State) (q : Req) : List (Nat × Option Nat) :=
  match q.org with
  | .host h l _ => [(h, some l)]
  | .job id _ _ => [(s.jobOwner id % 16, some (s.jobOwner id / 16))]
  | _ => []

/-- A decode miss (R53, R59): recorded, raised, refused. -/
def State.decodeMiss (s : State) (q : Req) (cause : Nat) : State :=
  let who := match q.org with
    | .host h _ _ => h
    | .far _ src _ _ => src
    | .job id _ _ => s.jobOwner id % 16
    | .none => 0
  let s1 := (((s.wr F.TMU_FAULT_ADDR_DPA (q.addr % 2 ^ 46)).wr F.TMU_FAULT_ADDR_HEAD who).wr F.TMU_FAULT_ADDR_CAUSE
    cause).raise cAccessFault (heads := s.reqHeads q)
  s1.refuse q true

/-- A write-back to a SHARED region that is being deleted (Table 9.5). -/
def State.toDeleting (s : State) (q : Req) : Bool :=
  q.writes && (List.range 64).any (fun r => s.isDeleting r &&
    decide (s.rgnType r = 3 ∧ s.rgnBase r ≤ q.addr ∧ q.addr < s.rgnBase r + s.rd F.TMU_RGN_MAP_SIZE r * 2 ^ 30))

/-! ## Waits -/

/-- The key of the map sector that holds a tile's entry. -/
def sectorKey (slot tile : Nat) : Nat := tkey slot (tile / 2 * 2)

/-- The sector that holds a tile's entry is read, once for all that miss in it (R71). -/
def State.fetchSector (s : State) (slot tile cls : Nat) : State :=
  match mget s.tmu.fetches (sectorKey slot tile) with
  | some _ => s
  | none =>
    let (id, s1) := s.freshId
    (s1.setTmu { s1.tmu with fetches := mput s1.tmu.fetches (sectorKey slot tile) id }).transfer
      (s1.sectorQueue (s1.rd F.TMU_RGN_MAPLOC_LOC slot + tile / 2)) id 19 cls s1.nowNs false false

/-- Insert a waiting request in the order of admission. -/
def insertWait (w : Waiting) : List Waiting → List Waiting
  | [] => [w]
  | x :: l => if w.req.id < x.req.id then w :: x :: l else x :: insertWait w l

/-- A request waits. One that misses the tile map cache has its entry's sector read (R71). -/
def State.waitFor (s : State) (q : Req) (why : Why) (slot tile : Nat) : State :=
  let s1 := s.setTmu { s.tmu with waits := insertWait { req := q, why := why, slot := slot, tile := tile } s.tmu.waits }
  if why = .miss then s1.fetchSector slot tile q.cls else s1

/-- An earlier request to the same line waits (R29); a host's or a job's address is a DPA, a far request's an offset. -/
def State.behind (s : State) (q : Req) (slot tile : Nat) : Option Why :=
  (s.tmu.waits.find? (fun w => decide (w.slot = slot ∧ w.tile = tile ∧ s.offsetOf w.req slot / 64 = s.offsetOf q slot / 64 ∧
    w.req.id < q.id ∧ w.req.org ≠ .none))).map (·.why)

/-- The tier policy that a request goes by: the one in force when TMU first took it (R60). -/
def State.tierOf (s : State) (q : Req) (slot : Nat) : Nat :=
  match q.hold with
  | some (_, t) => t
  | none => s.rd F.TMU_RGN_POLICY_TIER slot

/-! ## Near frames -/

/-- The tier that holds the frames. -/
def State.frameTier (s : State) : Tier := if s.bulkOnly then .bulk else .near

/-- A sampled access (R176): host and far requests, not in near-only mode. -/
def State.mayfly (s : State) (q : Req) (f : Nat) : State :=
  match q.org with
  | .job _ _ _ => s
  | .none => s
  | _ => if s.nearOnly then s else s.sample f

/-- A read of a near line is issued; its data is the line as TMU accepts the read (R29). -/
def State.nearRead (s : State) (q : Req) (f l : Nat) (merge : Bool) : State :=
  let (id, s1) := s.freshId
  let r : NearRead := { id := id, frame := f, line := l, data := s1.nearLine f l, poison := s1.nearPoison f l, req := q,
                        merge := merge, replaced := false }
  (s1.setNear { s1.near with reads := s1.near.reads ++ [r] }).transfer (s1.lineQueue f l) id q.ing q.cls q.at_ false false

/-- A line is written into its frame (R36, R243, R287): a full line replaces it, marker and all; a partial write merges,
and is discarded by a poisoned line. -/
def State.nearWrite (s : State) (q : Req) (f l : Nat) : State :=
  let (id, s0) := s.freshId
  if q.kind = .write then
    let s1 := (s0.putLine f l q.data q.poison).transfer (s0.lineQueue f l) id q.ing q.cls q.at_ true false
    let s2 := s1.setNear { s1.near with reads := s1.near.reads.map (fun r =>
      if r.frame = f ∧ r.line = l then { r with replaced := true } else r) }
    s2.answerWrite q
  else if s.nearPoison f l then s.answerWrite q
  else
    let s1 := s.nearRead q f l true
    (s1.putLine f l (mergeLine (s1.nearLine f l) q.data q.be) q.poison).transfer (s1.lineQueue f l) id q.ing q.cls
      q.at_ true false

/-- A write that would dirty another frame of the region may not (R82, R85 step 4). -/
def State.dirtyBar (s : State) (slot : Nat) : Option Why :=
  if s.rgnType slot ≠ 2 then none
  else
    let n := s.dirtyOf slot
    if s.rd F.TMU_RGN_DIRTYCAP_DIRTY_CAP slot ≤ n then some .dirtyCap
    else if s.rgnState slot = 2 ∧
        Int.ofNat (s.rd F.TMU_RGN_RESERVE_RESERVE slot) -
          (Int.ofNat (s.rd F.TMU_RGN_USED_USED slot) - Int.ofNat (s.rd F.TMU_RGN_BUDGET_BUDGET slot)) <
          64 * (Int.ofNat n + 1) then some .reserve
    else none

/-- A write waits for its region's demotions; a hold is raised once. -/
def State.waitDirty (s : State) (q : Req) (why : Why) (slot tile : Nat) (was : Option Why) : State :=
  let s1 := s.waitFor q why slot tile
  if why = .reserve ∧ was ≠ some .reserve then s1.raise cElasticHold (region := some slot) else s1

/-- A write waits for a frame (R179). -/
def State.waitFrame (s : State) (q : Req) (slot tile : Nat) (was : Option Why) : State :=
  let s1 := s.waitFor q .frame slot tile
  if was = some .frame then s1
  else (s1.bump F.SCR_CNT_STARVE_WRITES).raise cFrameStarved (region := some slot)

/-- A write in a frame: a demotion aborts, a CLEAN frame becomes DIRTY as far as the region allows, a saturated tile's
writes are held. -/
def State.writeFrame (s : State) (q : Req) (slot tile f l : Nat) (was : Option Why) : State :=
  if s.ctrHeld slot tile then s.waitFor q .ctrHold slot tile
  else
    let s1 := match s.lockOf slot tile with
      | some m => if m.kind = MoveKind.demote then s.abortDemotion m else s
      | none => s
    match s1.fte f with
    | none => s1.refuse q false
    | some e =>
      let direct := decide (s1.tierOf q slot = 2)
      let put := fun (s : State) =>
        let s1 := s.setFte f { e with state := .dirty, first := e.first || direct }
        let s2 := if s1.wantsPin slot (s1.tme slot tile) then (s1.pinTile slot tile f).1 else s1
        (s2.mayfly q f).nearWrite q f l
      if e.state = FState.clean then
        match s1.dirtyBar slot with
        | some why => s1.waitDirty q why slot tile was
        | none => put s1
      else put s1

/-- A write to a tile without sectors and without a frame takes a FREE frame, FREE → DIRTY (R68, Table 5.4, R177). -/
def State.writeNew (s : State) (q : Req) (slot tile l : Nat) (was : Option Why) : State :=
  let t := s.tme slot tile
  if s.ctrHeld slot tile then s.waitFor q .ctrHold slot tile
  else match s.dirtyBar slot with
  | some why => s.waitDirty q why slot tile was
  | none =>
    let whole := t.poison && decide (t.fmt = .zero)
    let s0 := if t.unmat ∨ whole ∨ s.expandOk slot tile t then s
      else s.expandMismatch slot tile
    let t0 := s0.tme slot tile
    let marks := if t0.poison ∧ t0.fmt = .zero then List.range 64 else []
    match s0.takeFrame with
    | none => s0.waitFrame q slot tile was
    | some (f, s1) =>
      let s2 := s1.setTme slot tile { s1.tme slot tile with unmat := false }
      let s3 := (s2.install slot tile f (s0.expand slot tile t0) marks 4 .dirty).installWrites f q.cls
      match s3.fte f with
      | some e => ((s3.setFte f { e with first := decide (s3.tierOf q slot = 2) }).mayfly q f).nearWrite
          q f l
      | none => s3

/-- A read of a tile without sectors and without a frame (R35, R68, R85, R118, R236, R240): answered at once; but for
UNMAT tiles and BULK_DIRECT regions the tile is installed in a frame when there is one. -/
def State.readNew (s : State) (q : Req) (slot tile l : Nat) : State :=
  let t := s.tme slot tile
  if t.unmat then s.answerRead q (decide (s.rgnState slot = 2)) 0
  else
    let whole := t.poison && decide (t.fmt = .zero)
    let s0 := if whole ∨ s.expandOk slot tile t then s else s.expandMismatch slot tile
    let t0 := s0.tme slot tile
    let bad := t0.poison && decide (t0.fmt = .zero)
    let bytes := s0.expand slot tile t0
    let s1 := s0.answerRead q bad (lineOf (bytesAt bytes (64 * l) 64))
    if s1.tierOf q slot = 2 then s1
    else match s1.takeFrame with
      | none => s1.bump F.SCR_CNT_STARVE_READS
      | some (f, s2) =>
        (((((s2.continue_ q.cls (s2.reqBucket q) 4096).install slot tile f bytes
          (if bad then List.range 64 else []) 4 .clean).installWrites f q.cls).bump F.SCR_CNT_PROMO_TILES).notePromotion
            slot tile)

/-! ## One request -/

/-- A row of the tile's run is being copied (R252). -/
def State.underCopy (s : State) (t : Tme) : Bool :=
  !s.ras.copies.isEmpty && (List.range t.len).any (fun i => match s.placeNow (t.loc + i) with
    | some p => s.ras.copies.any (fun c => decide (c.ch = p.ch ∧ c.set = p.set ∧ c.bank = p.bank ∧ c.row = p.row) &&
        (c.subB == p.subB))
    | none => false)

/-- Near-only mode (R190): tile t lies in frame (first frame + t); above the watermark the region reads as zeros, and a
frame written there is zero otherwise. -/
def State.nearOnlyTile (s : State) (q : Req) (slot off : Nat) : State :=
  let tile := off / 4096
  let l := off / 64 % 64
  let f := s.rd F.TMU_RGN_MAPLOC_LOC slot + tile
  match s.reachTier .near with
  | (s1, false) => s1.waitFor q .selfRefresh slot tile
  | (s1, true) =>
    let fresh := decide (s1.rd F.TMU_RGN_INIT_WATERMARK slot ≤ tile) && (s1.fte f).isNone
    let e : Fte := { tile := tile, slot := slot, state := .dirty, pin := false, first := false, heat := 0, stamp := 0 }
    if q.kind = .read then (if fresh then s1.answerRead q false 0 else s1.nearRead q f l false)
    else
      let s2 := if fresh then (s1.putFrame f (List.replicate 4096 0) []).setNear
          { (s1.putFrame f (List.replicate 4096 0) []).near with ftes := mput s1.near.ftes f e } else s1
      s2.nearWrite q f l

/-- The memory part: the tile is decoded, cached and not locked for promotion, and the directory has passed the
request. -/
def State.serveTile (s : State) (q : Req) (slot tile l : Nat) (was : Option Why) : State :=
  let t := s.tme slot tile
  if t.nv then
    match s.reachTier s.frameTier with
    | (s1, false) => s1.waitFor q .selfRefresh slot tile
    | (s1, true) =>
      if q.writes then s1.writeFrame q slot tile t.near l was
      else (s1.mayfly q t.near).nearRead q t.near l false
  else if t.unmat ∧ s.rgnState slot = 2 ∧ q.writes then
    -- R85 step 2
    let s1 := ((s.bump F.TMU_RGN_DROP_DROP_CNT slot).log 0x0d { slot := some slot, tile := tile, line := l,
                                                                blk := some 6 }).raise
      cWriteDrop (region := some slot)
    s1.answerWrite q true
  else if t.len = 0 then
    (if q.writes then
      match s.reachTier s.frameTier with
      | (s1, false) => s1.waitFor q .selfRefresh slot tile
      | (s1, true) => s1.writeNew q slot tile l was
    else s.readNew q slot tile l)
  else if s.underCopy t then s.waitFor q .remap slot tile
  else
    match s.reachTier .bulk with
    | (s1, false) => s1.waitFor q .selfRefresh slot tile
    | (s1, true) =>
      if q.kind = .read ∧ s1.tierOf q slot = 2 then s1.beginRead slot tile q.cls q
      else s1.waitFor q (match was with
        | some .frame => .frame
        | some .lockTable => .lockTable
        | _ => .promo) slot tile

/-- The line's order (R29), then the directory in a SHARED region, then memory. A write-back that answers a snoop of its
own line waits for nothing (R320). -/
def State.coherent (s : State) (q : Req) (slot tile : Nat) (mem : State → Req → State) : State :=
  let writeBack := q.writes && (match s.busyOf (q.addr / 64) with
    | some b => b.heads.contains (s.reqHead q) | none => false)
  match if writeBack then none else s.behind q slot tile with
  | some why => s.waitFor q why slot tile
  | none =>
    if s.rgnType slot = 3 ∧ !q.snooped then
      match s.dirStep q slot with
      | .wait s2 why => s2.waitFor q why slot tile
      | .held s2 => s2
      | .pass s2 =>
        if q.kind = .inv then (match q.org with
          | .host h lu tag => s2.emit (.done h lu tag ({ q with snooped := true }).grant)
          | _ => s2)
        else mem s2 { q with snooped := true }
    else if q.kind = .inv then s.refuse q false
    else mem s q

/-- A local request to a tile: the cache (R70, R71), the lock (R88), the line's order (R29), the directory, memory. -/
def State.serveLocal (s : State) (q : Req) (slot off : Nat) (was : Option Why) : State :=
  let tile := off / 4096
  let l := off / 64 % 64
  if s.unswept slot tile then s.waitFor q .retention slot tile
  else if !s.cached slot tile then s.waitFor q (if was = some .setFull then .setFull else .miss) slot tile
  else
    let s0 := s.useEntry slot tile
    let c := s0.tmeFault slot tile (s0.tme slot tile)
    let s1 := if c ≠ 0 then s0.tmeFaulted slot tile c 6 else s0
    match s1.lockOf slot tile with
    | some { kind := .promote, .. } => s1.waitFor q .lock slot tile
    | _ => s1.coherent q slot tile (fun s q => s.serveTile q slot tile l was)

/-- Near-only mode (R190): there is no tile map; SHARED regions keep their directory (R309). -/
def State.serveNearOnly (s : State) (q : Req) (slot off : Nat) : State :=
  s.coherent q slot (off / 4096) (fun s q => s.nearOnlyTile q slot off)

/-- A request to a FAR region (R37, R424). -/
def State.serveFar (s : State) (q : Req) (slot off : Nat) : State :=
  let home := s.rd F.TMU_RGN_POLICY_HOME slot
  if !s.idValid ∨ home = s.myId then s.refuse q true
  else if q.kind = .inv then s.refuse q false
  else s.farIssue q home (s.rd F.TMU_RGN_POLICY_HOME_SLOT slot) (off / 64)

/-- A request whose region is known: its state, then its type. -/
def State.serveIn (s : State) (q : Req) (r : Nat) (was : Option Why) : State :=
  if s.rgnState r = 3 then
    (if q.writes then (s.bump F.TMU_RGN_DROP_DROP_CNT r).answerWrite q true else s.refuse q false)
  else if s.rgnType r = 4 then s.serveFar q r (s.offsetOf q r)
  else if s.nearOnly then s.serveNearOnly q r (s.offsetOf q r)
  else s.serveLocal q r (s.offsetOf q r) was

/-- TMU takes a request: R53 first, then the key. What it found then holds while the request waits (R60). was tells why it
waited before. -/
def State.serve (s : State) (q : Req) (was : Option Why) : State :=
  if s.jobGone q then s
  else match q.hold with
  | some (r, _) => s.serveIn q r was
  | none => match s.decode q with
    | .error c => if s.toDeleting q then s.answerWrite q else s.decodeMiss q c
    | .ok r =>
      if s.vk4 ∧ s.rgnType r ≠ 4 ∧ q.key ≠ s.rd F.CRY_RGN_KEY_KEY_BIND r then
        ((s.bump F.CRY_RGN_CNT_MISMATCH r).raise cKeyMismatch (region := some r) (heads := s.reqHeads q)).refuse q true
      else s.serveIn { q with hold := some (r, s.rd F.TMU_RGN_POLICY_TIER r) } r was

/-! ## The end of a wait -/

/-- Everything that waits on a tile is served again, in order. -/
def State.resumeTile (s : State) (slot tile : Nat) : State :=
  let mine := s.tmu.waits.filter (fun w => decide (w.slot = slot ∧ w.tile = tile))
  let s1 := s.setTmu { s.tmu with waits := s.tmu.waits.filter (fun w => !decide (w.slot = slot ∧ w.tile = tile)) }
  mine.foldl (fun s w => s.serve w.req (some w.why)) s1

/-- The tiles of some waiting requests, each once, in order. -/
def tilesOf (l : List Waiting) : List (Nat × Nat) := (l.map (fun w => (w.slot, w.tile))).dedup

/-- Every tile with a request that waits for one of some reasons is served again. -/
def State.resumeWhy (s : State) (sel : Waiting → Bool) : State :=
  (tilesOf (s.tmu.waits.filter sel)).foldl (fun s p => s.resumeTile p.1 p.2) s

/-- The crossing of a tile has committed: the writes that R150 held proceed in arrival order. -/
def State.releaseHold (s : State) (slot tile : Nat) : State :=
  let s1 := s.setCry { s.cry with ctrHolds := nerase s.cry.ctrHolds (tkey slot tile) }
  if s1.tmu.waits.any (fun w => decide (w.why = .ctrHold ∧ w.slot = slot ∧ w.tile = tile)) then s1.resumeTile slot tile
  else s1

/-- A demotion commits, and what its crossing held proceeds (R150). -/
def State.commitMove (s : State) (m : Move) : State :=
  let s1 := s.commitDemotion m
  if m.crossing then s1.releaseHold m.slot m.tile else s1

/-- A request whose snoops are answered takes its entry and proceeds (R316); in a full set it forces an eviction first (R325). -/
def State.dirProceed (s : State) (q : Req) : State :=
  let line := q.addr / 64
  let go := fun (s : State) => ((s.dirAfter q).dirInstall line).serve { q with snooped := true } none
  if !q.needsEntry ∨ (s.dirFind line).isSome ∨ s.dirRoom line then go s
  else match s.victim (dirSet line) with
    | none => s.serve q none
    | some v => match s.snoopAll v.line .inv (bitList 16 v.sharers) (.evictFor { q with snooped := true }) with
      | .credit => s.serve q none
      | .busy s1 => s1
      | .free s1 => go ((s1.dirPut v.line .i 0).countEviction)

/-- The last answer on a busy line is taken (R316, R320, R325): what follows happens, then what waited on the line, on the
set or for credit. -/
def State.dirFinish (s : State) (b : Busy) : State :=
  let s1 := s.setDir { s.dir with busy := s.dir.busy.filter (fun x => decide (x.line ≠ b.line)) }
  let s2 := match b.then_ with
    | .serve q => s1.dirProceed q
    | .evictFor q =>
      let s3 := (s1.dirPut b.line .i 0).countEviction
      if q.snooped then s3.dirProceed q else s3.serve q none
    | .sweep _ => s1.dirPut b.line .i 0
    | .nothing => s1
  s2.resumeWhy (fun w => decide (w.why = .busy ∧ w.req.addr / 64 = b.line) || decide (w.why = .dirSet) ||
    decide (w.why = .bySnoopCredit))

/-- An answer of a head to a snoop (R317): I, S or E. -/
def State.dirAnswer (s : State) (h line : Nat) (a : DState) : State :=
  let bad := s.bump F.DIR_CNT_BI_BAD
  match s.busyOf line with
  | none => bad
  | some b =>
    if !b.heads.contains h ∨ (a = .e ∧ b.snoop ≠ .cur) ∨ (a = .s ∧ b.snoop = .inv) then bad
    else
      let s1 := match a with
        | .i => s.dirDrop line h
        | .s => (match s.dirFind line with | some e => s.dirPut line .s e.sharers | none => s)
        | .e => s
      let b1 := { b with heads := b.heads.filter (fun g => decide (g ≠ h)) }
      if b1.heads.isEmpty then s1.dirFinish b1
      else s1.setDir { s1.dir with busy := s1.dir.busy.map (fun x => if x.line = line then b1 else x) }

/-- DIR takes BIRspI for every snoop outstanding to a head. -/
def State.dirGone (s : State) (h : Nat) : State :=
  ((s.dir.busy.filter (fun b => b.heads.contains h)).map (·.line)).foldl (fun s line => s.dirAnswer h line .i) s

/-! ## Reads and their outcomes -/

/-- SRC of CRY_HALT_REC (Table 4.10). A promotion that a host read demanded counts as a promotion, 2: the table has both (log
entry 130). -/
def Move.haltSrc (m : Move) : Nat :=
  match m.req with
  | some q => (match q.org with | .far _ _ _ _ => 6 | .job _ _ _ => 3 | _ => if m.kind = .read then 1 else 2)
  | none => match m.purpose with
    | .rekey => 5
    | _ => if m.job.isSome then 3 else 2

/-- A move's tile is known whole and good or poisoned; a read that needs no frame is answered now, and so is the first
waiting read of a demand promotion (R34, Table 5.6 step 4). -/
def State.moveReady (s : State) (m : Move) : State :=
  let line := fun (q : Req) => (s.offsetOf q m.slot) / 64 % 64
  let give := fun (s : State) (q : Req) =>
    s.answerRead q (m.marks.contains (line q)) (lineOf (bytesAt m.data (64 * line q) 64))
  if m.kind = .read then
    let s1 := (s.dropMove m.id).issued m.id
    match m.req with
    | some q => give s1 q
    | none => s1
  else
    let s1 := s.putMove { m with stage := .ready }
    match m.req with
    | some q =>
      if q.kind = .read then
        let s2 := s1.setTmu { s1.tmu with waits := s1.tmu.waits.filter (fun w => decide (w.req.id ≠ q.id)) }
        (give s2 q).putMove { m with stage := .ready, req := none }
      else s1
    | none => s1

/-- A move's tile turned out wholly poisoned. -/
def State.moveWhole (s : State) (m : Move) : State :=
  s.moveReady { m with data := List.replicate 4096 0, marks := List.range 64 }

/-- The codec stage of a move: the plaintext of its record (R102 to R104, R118); none when the record is malformed or TCS
does not match. -/
def Move.decoded (m : Move) : Option (List Byte) :=
  match m.tme.fmt with
  | .lz => match decodeTile m.record with
    | .ok bs => if crc32c bs == m.tme.tcs then some bs else none
    | .error _ => none
  | _ => if crc32c (maskLines m.record m.marks) == m.tme.tcs then some m.record else none

/-- DETAIL of a TCS_MISMATCH record over a move's plaintext (Table 7.11): the TCS computed, or the cause of the
malformation. -/
def Move.tcsDetail (m : Move) : Nat :=
  match m.tme.fmt with
  | .lz => match decodeTile m.record with
    | .ok bs => (crc32c bs).toNat
    | .error c => 2 ^ 32 * c
  | _ => (crc32c (maskLines m.record m.marks)).toNat

end Sys2Proof.Machine
end

