-- ==== Sys2Proof/Machine/Events.lean ====
section
/-!
DEFINITION. Machine/Events.lean: sampling and delivery of events, event logs, the Firefly window, the timestamp commands
(R462 to R479, R526; 14_events_and_counters.md), and the doorbell window (R294, R295, R374).
-/
namespace Sys2Proof.Machine

/-! ## Deliveries of one tick -/

/-- The raises of one source in one tick. -/
structure Delivery where
  src : Nat
  epoch : Nat
  phase : Nat
  raises : List Raise
  deriving DecidableEq, Repr

/-- Severity class first, then source number (R464). -/
def Delivery.rank (d : Delivery) : Nat := srcClass d.src * 256 + d.src

/-- Insert behind every delivery of no higher rank. -/
def insDelivery (d : Delivery) : List Delivery → List Delivery
  | [] => [d]
  | x :: l => if d.rank < x.rank then d :: x :: l else x :: insDelivery d l

/-- A raise joins its source's delivery of its tick. -/
def joinRaise (l : List Delivery) (r : Raise) (e p : Nat) : List Delivery :=
  if l.any (fun d => decide (d.src = r.src ∧ d.epoch = e ∧ d.phase = p)) then
    l.map (fun d => if d.src = r.src ∧ d.epoch = e ∧ d.phase = p then { d with raises := d.raises ++ [r] } else d)
  else insDelivery { src := r.src, epoch := e, phase := p, raises := [r] } l

/-- What the tick delivers, in order: the raises that AON latched with their own ticks, then those held. -/
def State.deliveries (s : State) : List Delivery :=
  s.evt.raises.foldl (fun l r => joinRaise l r s.epoch s.phaseWord)
    (s.evt.latched.foldl (fun l x => joinRaise l x.1 x.2.1 x.2.2) [])

/-- The record of a delivery (Table 14.4). -/
def State.evRec (s : State) (d : Delivery) (r : Raise) : EvRec :=
  { src := d.src, cls := srcClass d.src, blk := r.blk, page := r.page,
    causes := s.rd (F.EVT_RAW_CAUSE r.blk) r.page &&& feedMask r.blk r.page d.src, epoch := d.epoch, phase := d.phase,
    region := r.region.getD 0xff, queue := r.queue.getD 0xffffffff, count := s.rd F.EVT_SRC_COUNT 0 d.src,
    stamp := s.timestamp }

/-- The cores' queue has an entry that a class may take (R468). -/
def State.coreRoom (s : State) (cls : Nat) : Bool := decide (s.evt.qUsed < if cls ≤ 2 then 1024 else 1008)

/-- Place a record in the cores' queue. -/
def State.pushCore (s : State) (x : EvRec) : State :=
  let t := s.rd F.EVT_QUEUE_TAIL
  let s1 := (s.setEvt { s.evt with queue := mput s.evt.queue t x, qUsed := s.evt.qUsed + 1 }).wr F.EVT_QUEUE_TAIL (t + 1)
  s1.wrAt F.EVT_PEND_SRC 0 (x.src / 64) (setBit (s1.rd F.EVT_PEND_SRC 0 (x.src / 64)) (x.src % 64))

/-- Deliver to the cores (R468): without an entry the delivery is dropped and counted; EVT_QUEUE_OVF itself waits. -/
def State.toCore (s : State) (x : EvRec) : State :=
  if s.coreRoom x.cls then s.pushCore x
  else if x.src = 252 then s.setEvt { s.evt with ovfDue := true }
  else (s.bump F.EVT_QUEUE_OVF).raise cEvtQueueOvf

/-- The event log of a class (Table 14.3). -/
def logOf (cls : Nat) : Nat := 4 - cls
def heldF (log : Nat) : Fld := [F.EVT_LD_LOG_HELD0, F.EVT_LD_LOG_HELD1, F.EVT_LD_LOG_HELD2].getD log F.EVT_LD_LOG_HELD3
def classVec (cls : Nat) : Fld :=
  [F.HLX_HEAD_VEC_FATAL_VEC, F.HLX_HEAD_VEC_CONTAIN_VEC, F.HLX_HEAD_VEC_DEGRADE_VEC].getD (cls - 1) F.HLX_HEAD_VEC_NOTICE_VEC

/-- The key of an LD's log. -/
def logKey (h l log : Nat) : Nat := hl h l * 4 + log
def State.logRecs (s : State) (h l log : Nat) : List EvRec := (mget s.evt.records (logKey h l log)).getD []

/-- Append a record to a log, or count it as dropped (R466). -/
def State.appendRec (s : State) (h l : Nat) (x : EvRec) : State :=
  let log := logOf x.cls
  let recs := s.logRecs h l log
  if recs.length < 64 then
    (s.setEvt { s.evt with records := mput s.evt.records (logKey h l log) (recs ++ [x]) }).wrI (heldF log) (hl h l)
      (recs.length + 1)
  else
    let o := (mget s.evt.overs (logKey h l log)).getD (0, x.stamp, x.stamp)
    (s.setEvt { s.evt with overs := mput s.evt.overs (logKey h l log) (min 0xffff (o.1 + 1), o.2.1, x.stamp) }).wrI
      F.EVT_LD_LOG_OVF (hl h l) (setBit (s.rd F.EVT_LD_LOG_OVF (hl h l)) log)

/-- Deliver to an LD (R465). -/
def State.toLd (s : State) (h l : Nat) (x : EvRec) : State :=
  let i := hl h l
  let k := x.src / 64
  if !(s.rd F.EVT_LD_EN_SRC i k ||| fatalBits k).testBit (x.src % 64) then s
  else
    let s1 := (s.wrAt F.EVT_LD_PEND_SRC i k (setBit (s.rd F.EVT_LD_PEND_SRC i k) (x.src % 64))).appendRec h l x
    if s1.evt.policy.contains (logKey h l (logOf x.cls)) then s1.msix h l (s1.rd (classVec x.cls) i) else s1

/-- A source holds ALERT_N low. -/
def State.alertLow (s : State) : Bool := (List.range 4).any (fun k => decide (s.rd F.EVT_ALERT_PEND_SRC 0 k ≠ 0))

/-- Deliver to ALERT_N (R469). -/
def State.toAlert (s : State) (src : Nat) : State :=
  if alertSrcs.contains src ∧ (s.alertEn (src / 64)).testBit (src % 64) then
    let s1 := s.wrAt F.EVT_ALERT_PEND_SRC 0 (src / 64) (setBit (s.rd F.EVT_ALERT_PEND_SRC 0 (src / 64)) (src % 64))
    if s.alertLow then s1 else s1.emit (.alertN true)
  else s

/-- A delivery to the cores wakes P1, and one of class FATAL, CONTAIN or DEGRADE wakes P2 (Table 15.3). -/
def State.stir (s : State) (cls : Nat) : State :=
  if s.target = 1 ∨ (s.target = 2 ∧ cls ≤ 3) then s.knock 8 else s

/-- One delivery at all its destinations. -/
def State.deliver (s : State) (d : Delivery) : State :=
  let s0 := s.bump F.EVT_SRC_COUNT 0 d.src d.raises.length none true
  let s1 := s0.wrAt F.EVT_SRC_LAST 0 d.src d.epoch
  match d.raises with
  | [] => s1
  | r :: _ =>
    let s2 := if toCores d.src then (s1.toCore (s1.evRec d r)).stir (srcClass d.src) else s1
    let dest := d.raises.flatMap (fun r => (s2.deliverTo r).map (fun p => (p, r)))
    let once := dest.foldl (fun (l : List ((Nat × Nat) × Raise)) x => if l.any (fun y => decide (y.1 = x.1)) then l
      else l ++ [x]) []
    (once.foldl (fun s x => s.toLd x.1.1 x.1.2 (s2.evRec d x.2)) s2).toAlert d.src

/-! ## Firefly (R474 to R476) -/

/-- The words of a snapshot slot (Table 14.6). -/
def State.snapWords (s : State) (q trig : Nat) : List Nat :=
  let pmu := (List.range 14).flatMap (fun b =>
    [s.rd F.PMU_TICK_CYCLES b] ++ (List.range 6).map (fun k => s.rd F.PMU_CNT_COUNT b k) ++
      [s.rd F.PMU_OVF_OVF b + 256 * s.rd F.PMU_OVF_OVF_EN b])
  let copy := fun (f : Fld) (c : Nat) => mgetD s.evt.copies (f.key c 0) 0
  let slots := (List.range 16).flatMap (fun c => [copy F.ADM_SLOT_RET_SLOTS c, copy F.ADM_SLOT_WASTE_SLOTS c,
    copy F.ADM_SLOT_FRONT_SLOTS c, copy F.ADM_SLOT_BACK_SLOTS c])
  [q, s.epoch + 2 ^ 48 * s.phase + 2 ^ 60 * s.rd F.AON_EPOCH_QUALITY, trig] ++ List.replicate 5 0 ++ pmu ++
    List.replicate 8 0 ++ slots ++ (List.range 16).map (copy F.ADM_CLS_DELIV_BYTES) ++ [copy F.ADM_SLOT_CYC_CYCLES 0] ++
    List.replicate 46 0 ++ [q]

/-- The triggers of the tick: period, NOW, event. -/
def State.snapTriggers (s : State) (srcs : List Nat) : Bool × Nat × Bool :=
  (decide (s.rd F.PMU_SNAP_PERIOD ≠ 0) && decide (s.tickNo % s.rd F.PMU_SNAP_PERIOD = 0), s.evt.nowDue,
   s.rdb F.PMU_SNAP_EVT_EN && srcs.contains (s.rd F.PMU_SNAP_EVT_SRC))

/-- At most one snapshot per tick; the triggers beyond the first are counted. -/
def State.snapshot (s : State) (srcs : List Nat) : State :=
  let t := s.snapTriggers srcs
  let n := b2n t.1 + t.2.1 + b2n t.2.2
  if n = 0 then s
  else
    let q := (s.rd F.PMU_SNAP_STS_SEQ + 1) % 2 ^ 48
    let w := s.snapWords q (b2n t.1 + 2 * b2n (decide (t.2.1 ≠ 0)) + 4 * b2n t.2.2)
    let s1 := (s.setEvt { s.evt with window := mput s.evt.window (q % 256) w, nowDue := 0 }).wr F.PMU_SNAP_STS_SEQ q
    if n = 1 then s1 else (s1.bump F.PMU_SNAP_STS_MISSED 0 0 (n - 1)).raise cFireflyMissed

/-- EVT samples: powered, not in reset nor in a quiesce (R504 step 1, R509); after the halt's own tick it delivers nothing
(Table 14.5). -/
def State.evtRuns (s : State) : Bool :=
  !s.inReset && !s.aon.quiescing && !s.aon.blocks.contains 13 && decide (s.cur < 3) && (decide (s.cry.halt = 0) || s.evt.raises.any (fun r => decide (r.src = 112)))

/-- EVENT_TICK (R462 to R464, R468, R474). -/
def execEventTick (s : State) : Result :=
  .next (if s.evtRuns then
    let ds := s.deliveries
    let s0 := s.snapshot (ds.map (·.src))
    let s1 := (s0.setEvt { s0.evt with raises := s0.evt.raises.drop s.evt.raises.length, latched := [] }).wr F.EVT_TICKS_TICKS
      (s0.rd F.EVT_TICKS_TICKS + 1)
    let s2 := if s1.evt.ovfDue ∧ s1.coreRoom 4 then
        let r : Raise := { src := 252, blk := 13, page := 0, bits := 1, region := none, queue := none, heads := [] }
        (s1.setEvt { s1.evt with ovfDue := false }).pushCore
          (s1.evRec { src := 252, epoch := s1.epoch, phase := s1.phaseWord, raises := [r] } r)
      else s1
    ds.foldl State.deliver s2
  else s)

/-- An LD writes its own EVT page only (R478). -/
def ownPage (p : Path) (h l : Nat) : Bool :=
  match p with
  | .ld a b => decide (a = h ∧ b = l)
  | _ => true

/-- EVT_LD_TEST (R478, after Table 14.9). -/
def execEvtLdTest (path : Path) (h l : Nat) (s : State) : Result :=
  .next (s.viaPath path 13 (1 + hl h l) (ownPage path h l) (fun s => s.raise cEvtTest (heads := [(h, some l)])))

/-- EVT_FM_TEST: firmware and the sideband only. -/
def execEvtFmTest (path : Path) (s : State) : Result :=
  .next (s.viaPath path 13 0 (isCores path || isSideband path) (fun s =>
    s.raise cEvtTest (heads := (s.ldsWith F.HLX_HEAD_PERM_FM).map (fun p => (p.1, some p.2)))))

/-- NOW (R474, R479). -/
def execNow (path : Path) (s : State) : Result :=
  .next (s.viaPath path 14 14 (s.manages path) (fun s => s.setEvt { s.evt with nowDue := s.evt.nowDue + 1 }))

/-! ## Event commands of CXL -/

/-- The event UUID (R466) as it stands in a record, in the order it is written. -/
def eventUuid : List Byte :=
  [0x6b, 0x2e, 0x0f, 0x41, 0x91, 0x44, 0x4c, 0x5e, 0xa1, 0xd7, 0x00, 0x00, 0x00, 0x00, 0x00, 0xe5]

/-- The record data of Table 14.4. -/
def EvRec.bytes (x : EvRec) : List Byte :=
  leBytes 2 x.src ++ leBytes 1 x.cls ++ leBytes 1 x.blk ++ leBytes 2 x.page ++ leBytes 2 0 ++ leBytes 8 x.causes ++
    leBytes 6 x.epoch ++ leBytes 2 x.phase ++ leBytes 1 x.region ++ leBytes 3 0 ++ leBytes 4 x.queue ++ leBytes 4 x.count ++
    leBytes 44 0

/-- A vendor-specific event record in the CXL specification's common form (log entry 15): log and handle. -/
def EvRec.record (x : EvRec) (log handle : Nat) : List Byte :=
  eventUuid ++ leBytes 1 128 ++ leBytes 3 log ++ leBytes 2 handle ++ leBytes 2 0 ++ leBytes 8 x.stamp ++ leBytes 16 0 ++ x.bytes

/-- GET_EVENT_RECORDS (R466): oldest first, at most what the payload of 4 KiB holds. -/
def execGetEventRecords (h l log : Nat) (s : State) : Result :=
  .next (s.cxlCommand h l 0x0100 (fun s =>
    if 4 ≤ log then (s, rcInvalidInput, [])
    else
      let recs := s.logRecs h l log
      let give := recs.take 31
      let o := mget s.evt.overs (logKey h l log)
      let ov := o.getD (0, 0, 0)
      (s, rcSuccess, leBytes 1 (b2n o.isSome + 2 * b2n (decide (31 < recs.length))) ++ leBytes 1 0 ++ leBytes 2 ov.1 ++
        leBytes 8 ov.2.1 ++ leBytes 8 ov.2.2 ++ leBytes 2 give.length ++ leBytes 10 0 ++
        (List.range give.length).flatMap (fun i => match give[i]? with
          | some x => x.record log (i + 1)
          | none => []))))

/-- CLEAR_EVENT_RECORDS (R466): the oldest records are freed. -/
def execClearEventRecords (h l log count : Nat) (s : State) : Result :=
  .next (s.cxlCommand h l 0x0101 (fun s =>
    let recs := s.logRecs h l log
    if 4 ≤ log then (s, rcInvalidInput, [])
    else if recs.length < count then (s, rcInvalidHandle, [])
    else if count = 0 then (s, rcSuccess, [])
    else
      let key := logKey h l log
      let s1 := s.setEvt { s.evt with
        records := if recs.length = count then mdel s.evt.records key else mput s.evt.records key (recs.drop count),
        overs := mdel s.evt.overs key }
      ((s1.wrI (heldF log) (hl h l) (recs.length - count)).wrI F.EVT_LD_LOG_OVF (hl h l)
        (clrBit (s.rd F.EVT_LD_LOG_OVF (hl h l)) log), rcSuccess, [])))

/-- GET_EVENT_INTERRUPT_POLICY (R465): the mode of each log and the vector of its class. -/
def execGetEventInterruptPolicy (h l : Nat) (s : State) : Result :=
  .next (s.cxlCommand h l 0x0102 (fun s =>
    (s, rcSuccess, ((List.range 4).flatMap (fun log =>
      leBytes 1 (b2n (s.evt.policy.contains (logKey h l log)) + 16 * (s.rd (classVec (4 - log)) (hl h l) % 16)))) ++
        leBytes 1 0)))

/-- SET_EVENT_INTERRUPT_POLICY (R465): on tells for each log whether MSI-X is used. -/
def execSetEventInterruptPolicy (h l : Nat) (on : List Bool) (s : State) : Result :=
  .next (s.cxlCommand h l 0x0103 (fun s =>
    if on.length ≠ 4 then (s, rcInvalidInput, [])
    else (s.setEvt { s.evt with policy := (List.range 4).foldl (fun p log =>
      if on.getD log false then ninsert p (logKey h l log) else nerase p (logKey h l log)) s.evt.policy }, rcSuccess, [])))

/-- GET_TIMESTAMP (R526). -/
def execGetTimestamp (h l : Nat) (s : State) : Result :=
  .next (s.cxlCommand h l 0x0300 (fun s => (s, rcSuccess, leBytes 8 s.timestamp)))

/-- SET_TIMESTAMP (R526): the base is written so that the timestamp equals the value. -/
def execSetTimestamp (h l : Nat) (value : BitVec 64) (s : State) : Result :=
  .next (s.cxlCommand h l 0x0301 (fun s =>
    (s.wr F.AON_TS_BASE_BASE (s.rd F.AON_TS_BASE_BASE + value.toNat + 2 ^ 64 - s.timestamp), rcSuccess, [])))

/-! ## The device windows (R283, Table 8.3) -/

/-- HLX answers an LD at its windows. -/
def State.windowUp (s : State) (h l : Nat) : Bool :=
  !s.inReset && !s.aon.quiescing && decide (s.cry.halt = 0) && decide (s.cur < 3) && s.headUp h && decide (l < s.ldCount h)

/-- A queue outside the LD's range (R295): counted, raised once per epoch. -/
def State.dbReject (s : State) (h l : Nat) : State :=
  let s1 := s.bump F.HLX_HEAD_STS_DB_REJECT (hl h l)
  if mget s1.hlx.rejEpoch (hl h l) = some s1.epoch then s1
  else (s1.setHlx { s1.hlx with rejEpoch := mput s1.hlx.rejEpoch (hl h l) s1.epoch }).raise (cHpFault h 10)
    (heads := [(h, some l)])

/-- A doorbell write (R294, R295, R374); held during P3 entry (Table 11.8). -/
def State.doorbellWrite (s : State) (h l q v : Nat) (be : BitVec 64) : State :=
  if !(List.range 4).all (fun i => be.getLsbD i) then s
  else if !s.ldOwnsQueue h l q then s.dbReject h l
  else if s.target = 3 ∧ 1 ≤ s.aon.entry.stage ∧ s.aon.entry.stage ≤ 3 then
    s.setJob { s.job with held := s.job.held ++ [(q, v)] }
  else s.ring q v

/-- A doorbell read (R295, R374). -/
def State.doorbellRead (s : State) (h l q tag : Nat) : State :=
  if s.ldOwnsQueue h l q then
    let s1 := (s.touchCtx q).ctxLost q
    let c := s1.ctx q
    s1.emit (.data h l tag (BitVec.ofNat 512 (c.tail + 2 ^ 32 * c.head)) false .cmp)
  else s.emit (.data h l tag 0 false .cmp)

/-- A read of the Firefly window (R476, R477): 64 bytes from the line that holds the offset. -/
def State.fireflyRead (s : State) (h l off tag : Nat) : State :=
  let line := off / 64 * 64
  let words := if !s.rdb F.HLX_HEAD_PERM_PERF_USER (hl h l) then []
    else if line = 0x80000 then [s.rd F.PMU_SNAP_STS_SEQ]
    else if line < 0x80000 then
      (((mget s.evt.window (line / 2048)).getD []).drop (line % 2048 / 8)).take 8
    else []
  s.emit (.data h l tag (lineOf (words.flatMap (leBytes 8))) false .cmp)

/-- DOORBELL_WRITE: a CXL.mem write, so it is discarded after the host's viral (R289). -/
def execDoorbellWrite (h l q : Nat) (value : BitVec 32) (be : BitVec 64) (s : State) : Result :=
  .next (let s := s.rouse 1
    if !s.windowUp h l then s
    else if s.rdb F.HLX_PORT_STS_VIRAL_IN h then s.bump F.HLX_PORT_ERRCNT_VIRAL_DROP h 0 1 none true
    else s.doorbellWrite h l q value.toNat be)

/-- DOORBELL_READ. -/
def execDoorbellRead (h l q tag : Nat) (s : State) : Result :=
  .next (let s := s.rouse 1
    if s.windowUp h l then s.doorbellRead h l q tag else s)

/-- FIREFLY_WINDOW_READ. -/
def execFireflyWindowRead (h l off tag : Nat) (s : State) : Result :=
  .next (let s := s.rouse 1
    if s.windowUp h l then s.fireflyRead h l off tag else s)

end Sys2Proof.Machine
end

