-- ==== Sys2Proof/Machine/HostPath.lean ====
section
/-!
DEFINITION. Machine/HostPath.lean: what hosts send over CXL.mem (R27, R36, R50 to R54, R243, R283, R284, R287, R289, R316,
R580), up to its presentation to ADM.
-/
namespace Sys2Proof.Machine

/-! ## HDM decoders (R277, R282)

The registers are the CXL specification's HDM Decoder Capability Structure; this chapter names the capability, the four
decoders, the interleave ways and the granularities, not its place in the component registers (log entry 112). -/

/-- Where the HDM decoder capability stands in an LD's component registers. -/
def hdmBase : Nat := 0x1200

/-- The 32-bit word at an address below the block windows, of LD index i. -/
def State.lowWord (s : State) (i addr : Nat) : Nat := mgetD s.hlx.words (2 ^ 18 * i + addr / 4) 0

/-- Replace that word. -/
def State.putLow (s : State) (i addr v : Nat) : State :=
  s.setHlx { s.hlx with words := mset 0 s.hlx.words (2 ^ 18 * i + addr / 4) (v % 2 ^ 32) }

/-- Word k of decoder n: 0 and 1 the base, 2 and 3 the size, 4 the control register, 5 and 6 the DPA skip. -/
def State.hdmWord (s : State) (h l n k : Nat) : Nat := s.lowWord (hl h l) (hdmBase + 0x10 + 0x20 * n + 4 * k)

/-- A decoder: the host physical range, the DPA skipped before its own, its ways and granularity. -/
structure Decoder where
  base : Nat
  size : Nat
  skip : Nat
  ways : Nat
  gran : Nat
  deriving DecidableEq, Repr

/-- The interleave ways of an encoded value: 1, 2, 4, 8, 16, 3, 6, 12. -/
def hdmWays (iw : Nat) : Nat := if iw ≤ 4 then 2 ^ iw else if 8 ≤ iw ∧ iw ≤ 10 then 3 * 2 ^ (iw - 8) else 0

/-- Decoder n of an LD as it is programmed. -/
def State.decoder (s : State) (h l n : Nat) : Decoder :=
  let w := s.hdmWord h l n
  { base := w 0 + 2 ^ 32 * w 1, size := w 2 + 2 ^ 32 * w 3, skip := w 5 + 2 ^ 32 * w 6,
    ways := hdmWays (bits (w 4) 7 4), gran := 256 * 2 ^ bits (w 4) 3 0 }

/-- Decoder n is committed. -/
def State.hdmCommitted (s : State) (h l n : Nat) : Bool := bitOf (s.hdmWord h l n 4) 10

/-- The first DPA of decoder n: what the lower decoders take, and the skips up to its own. -/
def State.dpaBase (s : State) (h l n : Nat) : Nat :=
  ((List.range n).map (fun m => let d := s.decoder h l m; d.skip + d.size / d.ways)).sum + (s.decoder h l n).skip

/-- The offset within the device's own part of an interleaved range: the granule number loses the ways (CXL decode
rules). -/
def Decoder.offset (d : Decoder) (hpa : Nat) : Nat :=
  (hpa - d.base) / (d.gran * d.ways) * d.gran + (hpa - d.base) % d.gran

/-- The DPA of a host physical address through the committed decoders of an LD. -/
def State.hdmDecode (s : State) (h l hpa : Nat) : Option Nat :=
  if (s.lowWord (hl h l) (hdmBase + 4)).testBit 1 then
    ((List.range 4).find? (fun n => s.hdmCommitted h l n && decide ((s.decoder h l n).base ≤ hpa ∧
      hpa < (s.decoder h l n).base + (s.decoder h l n).size))).map
        (fun n => s.dpaBase h l n + (s.decoder h l n).offset hpa)
  else none

/-- Decoder n may be committed: the one below it is, the codes are supported, the range is not empty, divides among the ways
and lies above the one below. -/
def State.mayCommit (s : State) (h l n ctl : Nat) : Bool :=
  let d := { s.decoder h l n with ways := hdmWays (bits ctl 7 4) }
  decide (bits ctl 3 0 ≤ 6 ∧ d.ways ≠ 0 ∧ d.size ≠ 0 ∧ d.size % d.ways = 0) &&
    (decide (n = 0) || (s.hdmCommitted h l (n - 1) &&
      decide ((s.decoder h l (n - 1)).base + (s.decoder h l (n - 1)).size ≤ d.base)))

/-- A write of the control register of decoder n: commit (bit 9) sets COMMITTED (bit 10) or the error (bit 11); a committed
decoder with lock on commit (bit 8) keeps its value, another one is freed by a commit bit of 0. -/
def State.hdmControl (s : State) (h l n v : Nat) : State :=
  let at_ := hdmBase + 0x10 + 0x20 * n + 16
  let old := s.lowWord (hl h l) at_
  let plain := v % 2 ^ 10 + v / 2 ^ 12 % 4 * 2 ^ 12
  if bitOf old 10 then
    (if bitOf old 8 ∨ v.testBit 9 then s else s.putLow (hl h l) at_ plain)
  else if v.testBit 9 then
    s.putLow (hl h l) at_ (plain + (if s.mayCommit h l n plain then 2 ^ 10 else 2 ^ 11))
  else s.putLow (hl h l) at_ plain

/-- A write of a word of an LD's HDM decoder capability. -/
def State.hdmPut (s : State) (h l addr v : Nat) : State :=
  let off := addr - hdmBase
  let n := (off - 0x10) / 0x20
  let k := (off - 0x10) % 0x20 / 4
  if off / 4 = 1 then s.putLow (hl h l) addr (v % 4 / 2 * 2)
  else if off < 0x10 then s
  else if k = 4 then s.hdmControl h l n v
  else if k = 7 ∨ s.hdmCommitted h l n then s
  else if k = 0 ∨ k = 2 ∨ k = 5 then s.putLow (hl h l) addr (v / 2 ^ 28 * 2 ^ 28)
  else s.putLow (hl h l) addr v

/-- A word of the capability as it reads: four decoders, every interleave that Table 8.2 names. -/
def State.hdmRead (s : State) (h l addr : Nat) : Nat :=
  if (addr - hdmBase) / 4 = 0 then 0x1b02 else s.lowWord (hl h l) addr

/-- An address of the capability. -/
def inHdm (addr : Nat) : Bool := decide (hdmBase ≤ addr ∧ addr < hdmBase + 0x90)

/-- The registers of the CXL specification and the MSI-X table of an LD return to reset (R291; log entries 112 and 113). -/
def State.clearLd (s : State) (h l : Nat) : State :=
  let i := hl h l
  s.setHlx { s.hlx with
    words := s.hlx.words.filter (fun e => decide (e.1 / 2 ^ 18 ≠ i)),
    msix := s.hlx.msix.filter (fun e => decide (e.1 / 2048 ≠ i)),
    msixPend := s.hlx.msixPend.filter (fun k => decide (k / 2048 ≠ i)) }

/-! ## CXL.mem -/

/-- The device takes a CXL.mem request of an LD. -/
def State.takesHost (s : State) (h l : Nat) : Bool := s.serving && !s.noService && s.headUp h && decide (l < s.ldCount h)

/-- Enqueue a request at ADM; its id is given afresh when it is admitted. -/
def State.present (s : State) (q : Req) : State := s.setAdm { s.adm with queue := s.adm.queue ++ [q] }

/-- The request that a head sends. -/
def State.hostReq (s : State) (kind : ReqKind) (h l : Nat) (dpa : BitVec 64) (look : DirLook) (tag : Nat) : Req :=
  { id := 0, kind := kind, org := .host h l tag, ing := h, raw := dpa.toNat, addr := dpa.toNat % 2 ^ 46,
    bad := if s.tagBitsOk h dpa.toNat then 0 else 1, mv := look.mv,
    cls := if s.rdb F.TMU_HEAD_TAG_CLASS_EN 0 h then bits dpa.toNat 49 46 else 16, key := s.hostKey h dpa.toNat,
    homeSlot := none, data := 0, be := BitVec.allOnes 64, poison := false, snooped := false, at_ := s.nowNs, unit := 0,
    hold := none, err := look.err }

/-- The windows of Table 8.3. -/
def inDoorbells (addr : Nat) : Bool := decide (0x100000000000 ≤ addr ∧ addr < 0x100004000000)
def inFirefly (addr : Nat) : Bool := decide (0x100040000000 ≤ addr ∧ addr < 0x100080000000)

/-- A request that no committed decoder covers (R282): a read returns all ones, any other request only completes. -/
def State.uncovered (s : State) (h l tag : Nat) (read : Bool) : State :=
  s.emit (if read then .data h l tag (BitVec.allOnes 512) false .cmp else .done h l tag .cmp)

/-- A request on CXL.mem: the LD's decoders give its DPA (R282). -/
def State.throughHdm (s : State) (h l : Nat) (hpa : BitVec 64) (tag : Nat) (read : Bool) (f : State → BitVec 64 → State) :
    State :=
  let s := s.rouse 1
  if !s.takesHost h l then s
  else match s.hdmDecode h l hpa.toNat with
    | none => s.uncovered h l tag read
    | some dpa => f s (BitVec.ofNat 64 dpa)

/-- A write of a head (R283, R289). -/
def State.hostWrites (s : State) (q : Req) (h l tag : Nat) : State :=
  let done := fun (s : State) => s.emit (.done h l tag .cmp)
  if s.rdb F.HLX_PORT_STS_VIRAL_IN h then done (s.bump F.HLX_PORT_ERRCNT_VIRAL_DROP h 0 1 none true)
  else if q.bad = 0 ∧ inDoorbells q.addr then
    done (s.doorbellWrite h l ((q.addr - 0x100000000000) / 64) (q.data.toNat % 2 ^ 32) q.be)
  else if q.bad = 0 ∧ inFirefly q.addr then done s
  else s.present q

/-- HOST_READ (R580). -/
def execHostRead (h l : Nat) (hpa : BitVec 64) (look : DirLook) (tag : Nat) (s : State) : Result :=
  .next (s.throughHdm h l hpa tag true (fun s dpa =>
    let q := s.hostReq .read h l dpa look tag
    if q.bad = 0 ∧ inDoorbells q.addr then s.doorbellRead h l ((q.addr - 0x100000000000) / 64) tag
    else if q.bad = 0 ∧ inFirefly q.addr then s.fireflyRead h l (q.addr - 0x100040000000) tag
    else s.present q))

/-- HOST_WRITE (R36). -/
def execHostWrite (h l : Nat) (hpa : BitVec 64) (look : DirLook) (tag : Nat) (data : BitVec 512) (poison : Bool)
    (s : State) : Result :=
  .next (s.throughHdm h l hpa tag false (fun s dpa =>
    s.hostWrites { s.hostReq .write h l dpa look tag with data := data, poison := poison } h l tag))

/-- HOST_PARTIAL_WRITE (R243): one that enables all 64 bytes is a full-line write. -/
def execHostPartialWrite (h l : Nat) (hpa : BitVec 64) (look : DirLook) (tag : Nat) (data : BitVec 512) (be : BitVec 64)
    (poison : Bool) (s : State) : Result :=
  .next (s.throughHdm h l hpa tag false (fun s dpa =>
    let kind := if be = BitVec.allOnes 64 then ReqKind.write else ReqKind.partialWrite
    s.hostWrites { s.hostReq kind h l dpa look tag with data := data, be := be, poison := poison } h l tag))

/-- The request names one of the windows (R283). -/
def Req.inWindow (q : Req) : Bool := decide (q.bad = 0) && (inDoorbells q.addr || inFirefly q.addr)

/-- MEM_INV (R316): it carries no data and passes no admission; one that names a window never reaches TMU. -/
def execMemInv (h l : Nat) (hpa : BitVec 64) (look : DirLook) (tag : Nat) (s : State) : Result :=
  .next (s.throughHdm h l hpa tag false (fun s dpa =>
    let q := s.hostReq .inv h l dpa look tag
    if q.inWindow then s.emit (.done h l tag .cmp)
    else
      let (id, s1) := s.freshId
      s1.serve { q with id := id } none))

/-- MEM_CLN_EVCT (R316): the head leaves the line's entry, at once even while the line is busy (R320). -/
def execMemClnEvct (h l : Nat) (hpa : BitVec 64) (tag : Nat) (s : State) : Result :=
  .next (s.throughHdm h l hpa tag false (fun s dpa =>
    let q := { s.hostReq .inv h l dpa { mv := .invalid, err := .none } tag with id := s.tmu.nextId }
    if q.inWindow then s.emit (.done h l tag .cmp)
    else match s.decode q with
      | .error c => s.decodeMiss q c
      | .ok r =>
        let s1 := if s.rgnType r = 3 then s.dirDrop (q.addr / 64) h else s
        s1.emit (.done h l tag .cmp)))

end Sys2Proof.Machine
end

