-- ==== Sys2Proof/Machine/Admission.lean ====
section
/-!
DEFINITION. Machine/Admission.lean: the fabric cycle of ADM and its refill boundary (R337, R338, R342, R343, R353 to R355,
R360, R362; 10_admission_and_qos.md).
-/
namespace Sys2Proof.Machine

/-- A unit that stands at the head of an ingress × class queue. -/
structure HeadUnit where
  ing : Nat
  cls : Nat
  reqs : List Req
  deriving DecidableEq, Repr

/-- Its length in bytes and its bucket. -/
def HeadUnit.len (u : HeadUnit) : Nat := 64 * u.reqs.length

/-- Two requests may stand in one unit: both reads or both writes, lines of one tile. -/
def sameSort (a b : Req) : Bool :=
  decide (a.writes = b.writes ∧ a.addr / 4096 = b.addr / 4096 ∧ a.homeSlot = b.homeSlot)

/-- The waiting requests with their classes, in order of arrival. -/
def State.waitingReqs (s : State) : List (Req × Nat) := s.adm.queue.map (fun q => (q, s.classOf q))

/-- The queues that hold requests: ingress and class, the one with the oldest request first. -/
def queueKeys (l : List (Req × Nat)) : List (Nat × Nat) := (l.map (fun x => (x.1.ing, x.2))).dedup

/-- The unit at the head of a queue (R338): never more lines than the pair has room for. -/
def State.headUnit (s : State) (l : List (Req × Nat)) (i c : Nat) : HeadUnit :=
  let mine := (l.filter (fun x => decide (x.1.ing = i ∧ x.2 = c))).map (·.1)
  let room := max 1 (min 4 (s.limit i c - s.outCount i c))
  { ing := i, cls := c, reqs := match mine with | q :: _ => (mine.takeWhile (sameSort q)).take room | [] => [] }

/-- Every head unit, oldest first. -/
def State.headUnits (s : State) : List HeadUnit :=
  let l := s.waitingReqs
  let keys := l.foldl (fun (k : List (Nat × Nat)) x => if k.contains (x.1.ing, x.2) then k else k ++ [(x.1.ing, x.2)]) []
  keys.map (fun k => s.headUnit l k.1 k.2)

/-- The step of R353 that bars a unit; 0 when it is eligible. From the flush before P3 on nothing is admitted (R189). -/
def State.unitBar (s : State) (u : HeadUnit) : Nat :=
  if s.rdb F.SCR_MOV_STS_FLUSH ∨ (s.target = 3 ∧ s.aon.entry.stage = 3) then 1
  else s.barred u.ing u.cls (s.pairBucket u.ing u.cls) u.len u.reqs.length

/-- The cycle under way: the state, the queues that have had their unit, the requests admitted, the slots left. -/
structure Cycle where
  st : State
  used : List (Nat × Nat)
  got : List Req
  room : Nat

/-- The eligible units of queues that have had none in this cycle. -/
def Cycle.eligible (c : Cycle) : List HeadUnit :=
  c.st.headUnits.filter (fun u => !c.used.contains (u.ing, u.cls) && decide (c.st.unitBar u = 0))

/-- A unit is admitted (R353, R362). -/
def Cycle.take (c : Cycle) (u : HeadUnit) : Cycle :=
  let s := c.st
  let n := s.adm.nextUnit
  let gone := fun (q : Req) => u.reqs.contains q
  let remaps := (u.reqs.filter (fun q => reservedLabel (s.label q))).length
  let s1 := s.setAdm { s.adm with
    queue := s.adm.queue.filter (fun q => !gone q), units := s.adm.units ++ [(n, u.cls, u.reqs.length)], nextUnit := n + 1 }
  let s2 := s1.enter u.ing u.cls (s1.pairBucket u.ing u.cls) u.len u.reqs.length
  let s3 := if remaps = 0 then s2 else s2.bump F.ADM_ING_STS_REMAP u.ing 0 remaps
  let s4 := s3.setTmu { s3.tmu with nextId := s3.tmu.nextId + u.reqs.length }
  let reqs := (List.range u.reqs.length).filterMap (fun i => u.reqs[i]?.map (fun q =>
    { q with id := s3.tmu.nextId + i, cls := u.cls, unit := n }))
  { st := s4, used := (u.ing, u.cls) :: c.used, got := c.got ++ reqs, room := c.room - 1 }

/-- Order 1: class 15, oldest first. -/
def realTime : Nat → Cycle → Cycle
  | 0, c => c
  | fuel + 1, c =>
    if c.room = 0 then c
    else match c.eligible.find? (fun u => decide (u.cls = 15)) with
      | some u => realTime fuel (c.take u)
      | none => c

/-- Among units of one class, the one whose ingress point is next in its round. -/
def Cycle.nextOf (c : Cycle) (cls : Nat) : Option HeadUnit :=
  let start := (mget c.st.adm.rrIng cls).getD 0
  (c.eligible.filter (fun u => decide (u.cls = cls))).foldl (fun (b : Option HeadUnit) u => match b with
    | none => some u
    | some x => if (u.ing + 20 - start) % 20 < (x.ing + 20 - start) % 20 then some u else some x) none

/-- Admit the next unit of a class and turn its round. -/
def Cycle.serveClass (c : Cycle) (u : HeadUnit) : Cycle :=
  let c1 := c.take u
  { c1 with st := c1.st.setAdm { c1.st.adm with rrIng := mput c1.st.adm.rrIng u.cls ((u.ing + 1) % 20) } }

/-- The classes from a pointer on. -/
def classesFrom (p : Nat) : List Nat := (List.range 16).map (fun k => (p + k) % 16)

/-- Order 2: classes with positive guarantee credit, in round-robin order. -/
def guaranteed : Nat → Cycle → Cycle
  | 0, c => c
  | fuel + 1, c =>
    if c.room = 0 then c
    else match (classesFrom c.st.adm.rrGuar).findSome? (fun k =>
        if 0 < (mget c.st.adm.gc k).getD 0 then c.nextOf k else none) with
      | some u =>
        let c1 := c.serveClass u
        guaranteed fuel { c1 with st := c1.st.setAdm { c1.st.adm with rrGuar := (u.cls + 1) % 16 } }
      | none => c

/-- The deficit pointer moves on: the next class's turn begins with its quantum (R354). -/
def Cycle.turn (c : Cycle) : Cycle :=
  let s := c.st
  let k := (s.adm.rrDef + 1) % 16
  let q := Int.ofNat (4096 * s.rd F.ADM_CLS_CFG_WEIGHT k)
  { c with st := s.setAdm { s.adm with rrDef := k, deficit := mput s.adm.deficit k ((mget s.adm.deficit k).getD 0 + q) } }

/-- Order 3: deficit round robin. A class without an eligible unit loses its deficit. -/
def deficits : Nat → Cycle → Cycle
  | 0, c => c
  | fuel + 1, c =>
    if c.room = 0 ∨ c.eligible.isEmpty then c
    else
      let k := c.st.adm.rrDef
      let d := (mget c.st.adm.deficit k).getD 0
      let put := fun (c : Cycle) (v : Int) =>
        { c with st := c.st.setAdm { c.st.adm with deficit := mput c.st.adm.deficit k v } }
      match c.nextOf k with
      | none => deficits fuel (put c 0).turn
      | some u => if Int.ofNat u.len ≤ d then deficits fuel (put (c.serveClass u) (d - Int.ofNat u.len))
        else deficits fuel c.turn

/-- A wait that its chapter counts as BACK_STARVED (R70, R82, R87, R150, R179, R265). What a request waits for while its block is
reset (R509) counts as well: DIR's answer, Scarab's promotion. -/
def Why.backStarved : Why → Bool
  | .setFull => true | .dirtyCap => true | .lockTable => true | .ctrHold => true | .frame => true | .retention => true
  | _ => false
def State.starves (s : State) (w : Waiting) : Bool :=
  w.why.backStarved || (s.aon.blocks.contains 5 && decide (w.why = .dirSet)) ||
    (s.aon.blocks.contains 9 && decide (w.why = .promo))

/-- Slots without a unit (R362 rules 2 to 4). -/
def State.idleSlots (s : State) (n : Nat) : State :=
  if n = 0 then s
  else
    match s.headUnits.find? (fun u => s.aon.blocks.contains 6 || decide (2 ≤ s.unitBar u)) with
    | some u => s.bump F.ADM_SLOT_BACK_SLOTS u.cls 0 n (some u.cls)
    | none => match s.tmu.waits.find? s.starves with
      | some w => s.bump F.ADM_SLOT_BACK_SLOTS w.req.cls 0 n (some w.req.cls)
      | none => s.bump F.ADM_SLOT_FRONT_SLOTS s.adm.rrDef 0 n (some s.adm.rrDef)

/-- Every block's fixed counter counts the cycle (R471). -/
def State.tickPmus (s : State) : State :=
  (List.range 14).foldl (fun s b => if s.aon.blocks.contains b then s
    else s.wrI F.PMU_TICK_CYCLES b (s.rd F.PMU_TICK_CYCLES b + 1)) s

/-- ADMISSION_CYCLE (R354): one fabric cycle. Internal work and job parts that entered since the last one fill its first
slots. While TMU is reset its requests wait at ADM (R509). -/
def execAdmissionCycle (s : State) : Result :=
  .next (if s.inReset ∨ 3 ≤ s.cur then s
    else
      let s0 := s.tickPmus
      if !s0.serving ∨ s0.aon.blocks.contains 4 then s0
      else if s0.aon.blocks.contains 6 then (s0.bump F.ADM_SLOT_CYC_CYCLES).idleSlots 8
      else
        let s1 := s0.bump F.ADM_SLOT_CYC_CYCLES
        let taken := min 8 s1.adm.taken
        let c0 : Cycle := { st := s1.setAdm { s1.adm with taken := s1.adm.taken - taken }, used := [], got := [],
                            room := 8 - taken }
        let c1 := deficits 64 (guaranteed 8 (realTime 8 c0))
        c1.got.foldl (fun s q => s.serve q none) (c1.st.idleSlots c1.room))

/-- The brown bucket gains its rate (R360). -/
def State.refillBrown (s : State) : State :=
  if s.rdb F.ADM_BROWN_ACTIVE then
    s.setAdm { s.adm with brown := min 65536 (s.adm.brown +
      Int.ofNat (s.rd F.ADM_FLOOR_STS_RAW * s.rd F.ADM_BROWN_SAFE_PCT / 100)) }
  else s

/-- TOKEN_REFILL (R342, R343, R355). -/
def execTokenRefill (s : State) : Result :=
  .next (if s.inReset ∨ 3 ≤ s.cur ∨ s.cry.halt ≠ 0 then s
    else
      let gain := fun c => min 8192 ((mget s.adm.gc c).getD 0 + Int.ofNat (s.rd F.ADM_CLS_GUAR_EFF c))
      (s.setAdm { s.adm with
        buckets := s.adm.buckets.map (fun e => (e.1, e.2.refill)),
        gc := (List.range 16).foldl (fun m c => mput m c (gain c)) s.adm.gc }).refillBrown)

end Sys2Proof.Machine
end

