-- ==== Sys2Proof/Machine/Fill.lean ====
section
/-!
DEFINITION. Machine/Fill.lean: the fill path of TMU: tile map misses, demand promotions, the checks of a bulk read and the
installation (R70 to R72, R87, R88, R118, R119, R160 to R162, R179 to R182; 02, 03, 04 and 05).
-/
namespace Sys2Proof.Machine

/-- Change why the requests of a tile wait. -/
def State.retag (s : State) (slot tile : Nat) (f : Why → Why) : State :=
  s.setTmu { s.tmu with waits := s.tmu.waits.map (fun w =>
    if w.slot = slot ∧ w.tile = tile then { w with why := f w.why } else w) }

/-- The requests that wait on a tile, in order. -/
def State.waitsOn (s : State) (slot tile : Nat) : List Waiting :=
  s.tmu.waits.filter (fun w => decide (w.slot = slot ∧ w.tile = tile))

/-! ## Tile map misses -/

/-- A way of the set became free, or the sector arrived: the entry is installed and what waits is served (R70, R71). -/
def State.fillEntry (s : State) (slot tile : Nat) : State :=
  match s.cacheIn slot tile with
  | some s1 => s1.resumeTile slot tile
  | none => s.retag slot tile (fun w => if w = .miss then .setFull else w)

/-- A map sector has arrived: what ECC found in it (R244, R246), then the entries that requests wait for. -/
def State.sectorArrived (s : State) (slot tile : Nat) (bad : List Nat) : State :=
  let sec := s.rd F.TMU_RGN_MAPLOC_LOC slot + tile / 2
  let s0 := s.setTmu { s.tmu with fetches := mdel s.tmu.fetches (sectorKey slot tile) }
  let s1 := match bulkEcc bad with
    | .clean => s0
    | .corrected => s0.corrected (s0.sectorSpot sec) { slot := some slot, tile := tile }
    | .uncorrectable => s0.mapSectorLost slot tile
  [tile / 2 * 2, tile / 2 * 2 + 1].foldl (fun s t =>
    if (s.waitsOn slot t).any (fun w => decide (w.why = .miss)) then s.fillEntry slot t else s) s1

/-- TME_MISS_FILL (R71, R244, R246): the sector that a miss waits for arrives once BTC has issued its read; a request that waits
for a way of its set is tried again. -/
def execTmeMissFill (slot tile : Nat) (bad : List Nat) (s : State) : Result :=
  .next (if !s.serving ∨ s.bulkSr ≠ 0 then s
    else match mget s.tmu.fetches (sectorKey slot tile) with
      | some id => if s.queued id then s else s.sectorArrived slot tile bad
      | none => if (s.waitsOn slot tile).any (fun w => decide (w.why = .miss ∨ w.why = .setFull)) then s.fillEntry slot tile
          else s)

/-! ## Demand promotion -/

/-- No frame is to be had (R179): reads with no earlier write to their line are served without an install, the others
wait for a frame. -/
def State.starved (s : State) (slot tile : Nat) : State :=
  (s.waitsOn slot tile).foldl (fun s w =>
    let early := (s.waitsOn slot tile).any (fun x => x.req.writes &&
      decide (s.offsetOf x.req slot / 64 = s.offsetOf w.req slot / 64 ∧ x.req.id < w.req.id))
    let off := s.setTmu { s.tmu with waits := s.tmu.waits.filter (fun x => decide (x.req.id ≠ w.req.id)) }
    if w.req.writes then (off.waitFrame w.req slot tile (some w.why))
    else if early then s
    else (off.beginRead slot tile w.req.cls w.req).bump F.SCR_CNT_STARVE_READS) s

/-- A request that needs a tile's sectors starts the promotion (R180, Table 5.6 step 1, R339). -/
def State.demandPromotion (s : State) (slot tile : Nat) : State :=
  match (s.waitsOn slot tile).find? (fun w => decide (w.why = .promo ∨ w.why = .frame ∨ w.why = .lockTable)) with
  | none => s
  | some w =>
    let t := s.tme slot tile
    if !s.cached slot tile then s.retag slot tile (fun _ => .miss)
    else if t.nv ∨ t.len = 0 ∨ (s.lockOf slot tile).isSome ∨ s.underCopy t then s.resumeTile slot tile
    else match s.reachTier .bulk with
      | (s1, false) => s1.retag slot tile (fun _ => .selfRefresh)
      | (s1, true) =>
        if !s1.lockRoom slot then
          let s2 := s1.retag slot tile (fun _ => .lockTable)
          if 2048 ≤ s1.locks.length ∧ w.why ≠ .lockTable then s2.raise cLockTableFull (region := some slot) else s2
        else match s1.takeFrame with
          | none => s1.starved slot tile
          | some (f, s2) =>
            let q := w.req
            let s3 := (s2.continue_ q.cls (s2.reqBucket q) 4096).retag slot tile (fun _ => .lock)
            (s3.beginPromotion slot tile f q.cls .demand none none (some q)).notePromotion slot tile

/-- DEMAND_PROMOTION. -/
def execDemandPromotion (slot tile : Nat) (s : State) : Result :=
  .next (if s.serving then s.demandPromotion slot tile else s)

/-! ## The checks of a bulk read -/

/-- A pipe that works: ACTIVE, or DRAINING with what it holds; none while its block is being reset (R509). -/
def State.pipeWorks (s : State) (k : Kind) (p : Nat) : Bool :=
  decide (s.unitState k p = 1 ∨ s.unitState k p = 2) && !s.aon.blocks.contains k.state.blk

/-- The bytes of a record as they came: a byte position and what was flipped in it. -/
def flipped (rec : List Byte) (flips : List (Nat × BitVec 8)) : List Byte :=
  flips.foldl (fun r x => flipAt r x.1 x.2) rec

/-- The tag that a pipe computes: a faulty pipe's is a free value (log entry 5). -/
def State.pipeTag (s : State) (m : Move) (fault : Bool) : BitVec 64 :=
  if fault then BitVec.ofNat 64 (leNat ((List.range 8).map (Config.unspecified s.draw)))
  else s.calcTag m.slot m.tile m.tme m.record

/-- The tag matches: decryption, then CDC (Table 5.6 steps 3 and 4). -/
def State.tagMatched (s : State) (m : Move) : State :=
  s.putMove { m with stage := .codec, record := s.openTile m.slot m.tile m.tme m.record }

/-- BULK_TILE_READ_DONE (R160, R161, Table 4.7): bad lists the sectors of the run with errors. -/
def State.bulkReadDone (s : State) (m : Move) (bad : List (Nat × List Nat)) (flips : List (Nat × BitVec 8)) (pipe : Nat)
    (fault : Bool) : State :=
  let t := m.tme
  let of := fun (k : Ecc) => eccAt (s.sectorsEcc t.loc bad) k t.len
  let s1 := ((s.issued m.id).sectorsCorrected m.slot m.tile t.loc (of .corrected)).bump F.CRY_PIPE_WORK_UNITS pipe
  if of .uncorrectable ≠ [] then (s1.bulkUe m.slot m.tile t.loc (of .uncorrectable)).moveWhole m
  else
    let m1 := { m with record := flipped m.record flips, pipe := pipe }
    let tag := s1.pipeTag m1 fault
    let s2 := if fault then s1.drawn else s1
    if tag = t.tag ∧ !fault then s2.tagMatched m1
    else if s2.otherActive cryKind pipe then s2.putMove { m1 with stage := .tagRetry }
    else s2.integrityHalt m.slot m.tile t.gen m.haltSrc pipe t.tag tag

/-- BULK_TILE_READ_DONE. -/
def execBulkTileReadDone (id : Nat) (bad : List (Nat × List Nat)) (flips : List (Nat × BitVec 8)) (pipe : Nat)
    (pipeFault : Bool) (s : State) : Result :=
  .next (match s.move id with
    | some m => if m.stage = Stage.bulkRead ∧ !s.queued id ∧ s.aesRuns ∧ s.pipeWorks cryKind pipe then
        s.bulkReadDone m bad flips pipe pipeFault else s
    | none => s)

/-- TAG_RECOMPUTE_DONE (R161): another ACTIVE pipe has recomputed the tag. When none is left meanwhile, the mismatch stands
confirmed. -/
def execTagRecomputeDone (id pipe : Nat) (pipeFault : Bool) (s : State) : Result :=
  .next (match s.move id with
    | some m =>
      if m.stage = Stage.tagRetry ∧ s.aesRuns ∧ !s.otherActive cryKind m.pipe then
        s.integrityHalt m.slot m.tile m.tme.gen m.haltSrc m.pipe m.tme.tag (s.pipeTag m false)
      else if m.stage = Stage.tagRetry ∧ s.aesRuns ∧ s.unitState cryKind pipe = 1 ∧ pipe ≠ m.pipe then
        let s1 := s.bump F.CRY_PIPE_WORK_UNITS pipe
        let tag := s1.pipeTag m pipeFault
        let s2 := if pipeFault then s1.drawn else s1
        if tag = m.tme.tag ∧ !pipeFault then (s2.unitFault cryKind m.pipe).tagMatched m
        else s2.integrityHalt m.slot m.tile m.tme.gen m.haltSrc m.pipe m.tme.tag tag
      else s
    | none => s)

/-! ## The codec -/

/-- A confirmed TCS mismatch (R119, R242). What a faulty pipe computed over a tile that is right is a free value (log
entry 5). -/
def State.moveMismatch (s : State) (m : Move) : State :=
  match m.decoded with
  | none => (s.tcsMismatch m.slot m.tile 7 m.tcsDetail).moveWhole m
  | some _ => (s.drawn.tcsMismatch m.slot m.tile 7 s.syndrome).moveWhole m

/-- CDC is offline and the tile is LZ (R129): reads get poison and nothing is installed unless a write waits. -/
def State.offlineRead (s : State) (m : Move) : State :=
  let all := { m with data := List.replicate 4096 0, marks := List.range 64 }
  if m.kind = MoveKind.read ∨ (s.waitsOn m.slot m.tile).any (fun w => w.req.writes) then s.moveReady all
  else
    let ws := s.waitsOn m.slot m.tile
    let s1 := (s.dropMove m.id).freeFte m.frame
    let s2 := s1.setTmu { s1.tmu with waits := s1.tmu.waits.filter (fun w => !ws.contains w) }
    ((ws.foldl (fun s w => s.answerRead w.req true 0) s2).leaveMove m true).engineDone m

/-- A pipe has finished a tile: it lets go of it and counts it (CDC_PIPE_WORK). -/
def State.pipeDone (s : State) (p : Nat) : State := (s.letGo p).bump F.CDC_PIPE_WORK_UNITS p

/-- No pipe is ACTIVE and none holds the tile (R129): TMU's checksum unit checks RAW tiles. -/
def State.checkedByTmu (s : State) (m : Move) : State :=
  match m.tme.fmt with
  | .lz => s.offlineRead m
  | _ => match m.decoded with
    | some bs => s.moveReady { m with data := bs }
    | none => (s.tcsMismatch m.slot m.tile 6 m.tcsDetail).moveWhole m

/-- CODEC_TILE_DONE (R118, R119, R129): the pipe that holds the tile is done with it. -/
def State.codecDone (s : State) (m : Move) (pipe : Nat) (fault : Bool) : State :=
  match s.holder (.tile m.id) with
  | none => if s.cdcOffline then s.checkedByTmu m else s
  | some p =>
    if p ≠ pipe then s
    else match m.decoded, fault with
      | some bs, false => (s.pipeDone p).moveReady { m with data := bs }
      | _, _ =>
        if s.rdb F.CDC_DISP_RETRY_EN ∧ s.otherActive cdcKind p then
          ((s.letGo p).putMove { m with stage := .tcsRetry, pipe := p, avoid := some p }).bump F.CDC_RETRY_CNT_COUNT
        else (s.letGo p).moveMismatch m

/-- CODEC_TILE_DONE. -/
def execCodecTileDone (id pipe : Nat) (pipeFault : Bool) (s : State) : Result :=
  .next (match s.move id with
    | some m => if m.stage = Stage.codec ∧ m.kind ≠ MoveKind.demote ∧ s.serving then s.codecDone m pipe pipeFault else s
    | none => s)

/-- The retry of a tile ends (R119). Without a pipe that may take it, the mismatch stands confirmed, and an LZ tile finds CDC
offline (R129). -/
def State.retryDone (s : State) (m : Move) (pipe : Nat) (fault : Bool) : State :=
  match s.holder (.tile m.id) with
  | none =>
    if s.cdcOffline then s.checkedByTmu m
    else if s.otherActive cdcKind m.pipe then s
    else s.moveMismatch m
  | some p =>
    if p ≠ pipe then s
    else match m.decoded, fault with
      | some bs, false => ((s.pipeDone p).unitFault cdcKind m.pipe).moveReady { m with data := bs }
      | _, _ => ((s.letGo p).bump F.CDC_RETRY_CNT_FAILED).moveMismatch m

/-- TCS_RETRY_DONE (R119): the same tile on another ACTIVE pipe. -/
def execTcsRetryDone (id pipe : Nat) (pipeFault : Bool) (s : State) : Result :=
  .next (match s.move id with
    | some m => if m.stage = Stage.tcsRetry ∧ s.serving then s.retryDone m pipe pipeFault else s
    | none => s)

/-! ## Installation -/

/-- A move that rewrites its tile (rekey, relocation, retirement, evacuation) leaves the frame DIRTY and goes on as a
demotion at once when it can; else DEMOTION_SELECT or a later step takes the frame up. -/
def Purpose.rewrites : Purpose → Bool
  | .rekey => true | .relocate => true | .retire => true | .evacuate => true | _ => false

/-- PROMOTION_INSTALL (R88, Table 5.6 step 5). A rewritten tile's frame is marked DIRTY and demoted, as Table 4.6 step 4 says of a
rekey and R227, R255 and R258 mean by promotion and demotion. -/
def State.promotionInstall (s : State) (m : Move) : State :=
  let s1 := s.installMove m
  let s2 := if m.purpose.rewrites then
      match s1.fte m.frame with
      | some e =>
        let s3 := s1.setFte m.frame { e with state := .dirty }
        (match m.job with
         | some _ => s3
         | none => (s3.startDemotion m.frame m.cls m.purpose m.engine).getD s3)
      | none => s1
    else s1
  (s2.resumeTile m.slot m.tile).runPrefetches

/-- PROMOTION_INSTALL. -/
def execPromotionInstall (id : Nat) (s : State) : Result :=
  .next (match s.move id with
    | some m => if m.kind = MoveKind.promote ∧ m.stage = Stage.ready ∧ s.serving then s.promotionInstall m else s
    | none => s)

end Sys2Proof.Machine
end

