-- ==== Sys2Proof/Machine/Movement.lean ====
section
/-!
DEFINITION. Machine/Movement.lean: Scarab's movement: the candidate list, the choice of demotions, their steps, writes and
crossings that wait, NEAR_PIN walks (R78, R85, R90, R115, R125, R148, R174, R178, R183, R184, R189; 02 and 05).
-/
namespace Sys2Proof.Machine

/-- Scarab moves tiles by itself: the data path serves, there is a bulk tier to move to, and no throttle or P2 entry pauses
it. -/
def State.scarabRuns (s : State) : Bool := s.serving && !s.nearOnly && !s.paused && !s.aon.blocks.contains 9

/-! ## The candidate list (R178) -/

/-- CANDIDATE_REFILL: one read of 64 B, 8 entries of the frame table, while the list holds fewer than 1,024. -/
def execCandidateRefill (s : State) : Result :=
  .next (if s.scarabRuns then
    let list := (s.cands.map (·.1))
    if 1024 ≤ list.length then s
    else match s.admitInternal 13 64 with
      | none => s
      | some s1 =>
        let total := max 1 (s.rd F.SCR_FRAMES_TOTAL)
        let fs := (List.range (min 8 total)).map (fun i => (s.scr.cursor + i) % total)
        let fresh := fs.filter (fun f => !list.contains f && (match s.fte f with
          | some e => s.mayList f e
          | none => false))
        (s1.setScr { s1.scr with cands := (list ++ fresh).take 4096, cursor := (s.scr.cursor + 8) % total }).leaveInternal
          13 false
  else s)

/-! ## The choice of a demotion (R183, R189) -/

/-- The oldest write that waits for a frame or for its region's demotions. -/
def State.waitingWrite (s : State) : Option Waiting :=
  s.tmu.waits.find? (fun w => w.req.writes && (w.why.forFrame || w.why.forRegion))

/-- What the next demotion is: the frame, its class, its purpose. Among the equals of step 3, for which R183 names no order,
it takes the oldest STAMP, as steps 1 and 4 do (log entry 111). -/
def State.chooseDemotion (s : State) : Option (Nat × Nat × Purpose) :=
  let dirty := s.cands.filter (fun x => s.mayDemote x.1 x.2)
  let step1 := s.waitingWrite.bind (fun w =>
    (s.coldest (dirty.filter (fun x => w.why.forFrame || decide (x.2.slot = w.slot)))).map
      (fun x => (x.1, w.req.cls, Purpose.waiting)))
  if s.paused then step1
  else
    let step2 := (dirty.find? (fun x => x.2.first || s.near.withheld.contains x.1)).map (fun x => (x.1, 13, Purpose.space))
    let step3 := if s.freeBelow F.SCR_FRAME_WM_FREE_LOW then
        (s.coldest dirty).map (fun x => (x.1, 13, Purpose.space)) else none
    let step4 := (s.coldest (dirty.filter (fun x => decide (s.heat x.2 ≤ s.rd F.SCR_MOV_CFG_COLD_THRESH)))).map
      (fun x => (x.1, 13, Purpose.space))
    step1 <|> step2 <|> step3 <|> step4

/-- Class 13 with its gate held open and its shaper suspended (Table 5.9, R327): only the outstanding limit holds. -/
def State.admitHeldOpen (s : State) (len : Nat) : Option State :=
  if s.limit 19 13 < s.outCount 19 13 + 1 then none else some ((s.outAdd 19 13 1).credit 13 len)

/-- The next frame of the flush (R189 step 2). -/
def State.flushFrame (s : State) : Option Nat :=
  (s.near.ftes.find? (fun x => s.rdb F.TMU_RGN_MAP_RETAIN x.2.slot && s.mayDemote x.1 x.2)).map (·.1)

/-- CLEAN candidates are evicted, coldest first, until the free frames reach FREE_LOW. -/
def State.evictClean : Nat → State → State
  | 0, s => s
  | fuel + 1, s =>
    if s.freeBelow F.SCR_FRAME_WM_FREE_LOW then
      match s.coldest (s.cands.filter (fun x => s.mayEvict x.2)) with
      | some (f, _) => State.evictClean fuel (s.evict f)
      | none => s
    else s

/-- DEMOTION_SELECT. -/
def execDemotionSelect (engine : Nat) (s : State) : Result :=
  .next (if s.serving ∧ !s.nearOnly ∧ !s.aon.blocks.contains 9 ∧ s.unitState scrKind engine = 1 ∧
      !(s.target = 2 ∧ 2 ≤ s.aon.entry.stage) then
    let s0 := if s.paused then s else (State.evictClean s.scr.cands.length s).runPrefetches
    if 8 ≤ s0.engineLoad engine then s0
    else if s0.rdb F.SCR_MOV_STS_FLUSH ∧ !s0.paused then
      match s0.flushFrame with
      | some f => ((s0.admitHeldOpen 4096).bind (fun s1 => s1.beginDemotion f 13 .flush (some engine) none)).getD s0
      | none => s0
    else match s0.chooseDemotion with
      | some (f, c, p) => (s0.startDemotion f c p (some engine)).getD s0
      | none => s0
  else s)

/-! ## The steps of a demotion (Table 5.7) -/

/-- The near read of a demotion (Table 5.7 step 2, Table 7.1): a corrected line is counted, an uncorrectable one is poisoned,
in its frame and in what the demotion stores. The frame is read once, whatever happens to the pipe afterwards. -/
def State.demotedLines (s : State) (m : Move) (bad : List (Nat × List Nat)) : State × Move :=
  if m.avoid.isSome then (s, m)
  else
    let ecc := s.linesEcc m.frame bad
    let who : Seen := { slot := some m.slot, tile := m.tile }
    let s1 := (eccAt ecc .corrected 64).foldl (fun s l => s.corrected (s.lineSpot m.frame l) who) s
    let lost := eccAt ecc .uncorrectable 64
    (lost.foldl (fun s l => s.nearUe m.slot m.tile m.frame l 0) s1, { m with marks := lost.foldl ninsert m.marks })

/-- A frame has been read, compressed and verified (R115, R124): by the pipe that holds it, or stored RAW where there is none
to take it. A pipe that fails verification is counted and the tile starts afresh on another ACTIVE pipe; without one the tile
is stored RAW (R125). -/
def State.compressDone (s : State) (m : Move) (pipe : Nat) (fault : Bool) (bad : List (Nat × List Nat)) : State :=
  let r := s.demotedLines m bad
  match s.holder (.tile m.id) with
  | none =>
    if s.cdcOffline || (match m.avoid with | some p => !s.otherActive cdcKind p | none => false) then
      r.1.compressed r.2 true
    else s
  | some p =>
    if p ≠ pipe then s
    else if !fault then (r.1.pipeDone p).compressed r.2 false
    else if r.1.otherActive cdcKind p then
      ((r.1.letGo p).putMove { r.2 with avoid := some p }).unitFault cdcKind p
    else ((r.1.letGo p).unitFault cdcKind p).compressed r.2 true

/-- DEMOTION_COMPRESS_DONE: the pipe, and whether its verifier found a mismatch. -/
def execDemotionCompressDone (id : Nat) (pipe : Nat × Bool) (bad : List (Nat × List Nat)) (s : State) : Result :=
  .next (match s.move id with
    | some m =>
      if m.kind = MoveKind.demote ∧ m.stage = Stage.compress ∧ !s.queued id ∧ s.serving then
        s.compressDone m pipe.1 pipe.2 bad
      else s
    | none => s)

/-- DEMOTION_COMMIT (R90): BTC has written all sectors. -/
def execDemotionCommit (id : Nat) (s : State) : Result :=
  .next (match s.move id with
    | some m => if m.kind = MoveKind.demote ∧ m.stage = Stage.written ∧ !s.queued id ∧ s.serving then s.commitMove m else s
    | none => s)

/-! ## Escalation (R78) -/

/-- Sectors from a on as runs of at most 64. -/
def restRuns (a m : Nat) : List (Nat × Nat) :=
  (List.range (ceilDiv m 64)).map (fun i => (min 64 (m - 64 * i), a + 64 * i))

/-- Adjacent free runs of a chunk are merged into one of n sectors. -/
def State.mergeIn (s : State) (ok : Nat → Bool) (n c : Nat) : Option (Nat × State) :=
  let runs := s.chunkRuns c
  let iv := runs.foldl (fun iv r => ivInsert iv r.2 r.1) []
  (iv.find? (fun r => decide (n ≤ r.2) && ok r.1 && s.runOk r.1 n)).map (fun r =>
    let mine := runs.filter (fun x => decide (r.1 ≤ x.2 ∧ x.2 < r.1 + r.2))
    let s1 := mine.foldl (fun s x => s.setPool x.1 ((s.pool x.1).erase x.2)) s
    (r.1, (restRuns (r.1 + n) (r.2 - n)).foldl (fun s x => s.setPool x.1 (x.2 :: s.pool x.1)) s1))

/-- The chunks that hold pool runs. -/
def State.poolChunks (s : State) : List Nat := (s.freeRuns.map (fun e => e.2 / 4096)).foldl ninsert []

/-- The first chunk whose free runs merge far enough. -/
def State.mergeRuns (s : State) (ok : Nat → Bool) (n : Nat) : Option (Nat × State) :=
  s.poolChunks.findSome? (s.mergeIn ok n)

/-- A tile's run is copied to another chunk, its bytes checked by TAG (R160), and its own freed; the copy is a transfer of class
13 (R27). -/
def State.relocateRun (s : State) (slot tile : Nat) : Option State :=
  match s.cacheGood slot tile with
  | none => none
  | some s1 =>
    let t := s1.tme slot tile
    if s1.fixedSlots slot ∨ t.retired ∨ s1.underCopy t ∨ !s1.mayCopy slot tile then none
    else
      let away := fun a => decide (a / 4096 ≠ t.loc / 4096)
      let place := if s1.rdb F.TMU_RGN_MAP_RETAIN slot then s1.allocFrom (fun a => away a && s1.inRetained a) t.len
        else match s1.allocFrom (fun a => away a && !s1.inRetained a) t.len with
          | some r => some r
          | none => s1.allocFrom (fun a => away a && s1.inRetained a) t.len
      place.bind (fun r => (r.2.admitInternal 13 4096).map (fun s2 => (s2.copyRun slot tile r.1 13).leaveInternal 13 false))

/-- Firmware makes a run among the sectors that ok admits: it merges free runs; where that does not help it relocates a tile
first. A relocation that finds a TAG mismatch ends in an integrity halt, without a run. -/
def State.makeIn (s : State) (ok : Nat → Bool) (n : Nat) : Option (Option Nat × State) :=
  match s.mergeRuns ok n with
  | some r => some (some r.1, r.2)
  | none =>
    let keys := ((s.tmu.map.map (·.1)) ++ (s.tmu.cache.map (·.1))).foldl ninsert []
    (keys.filter (fun k => ok (s.tme (keySlot k) (keyTile k)).loc)).findSome? (fun k =>
      (s.relocateRun (keySlot k) (keyTile k)).bind (fun s1 =>
        if s1.cry.halt ≠ 0 then some (none, s1)
        else (s1.mergeIn ok n ((s.tme (keySlot k) (keyTile k)).loc / 4096)).map (fun r => (some r.1, r.2))))

/-- The same in the order of R226: a RETAIN region's run in retained sets only, another's first outside them. -/
def State.makeRun (s : State) (slot n : Nat) : Option (Option Nat × State) :=
  match s.alloc slot n with
  | some r => some (some r.1, r.2)
  | none =>
    if s.rdb F.TMU_RGN_MAP_RETAIN slot then s.makeIn s.inRetained n
    else match s.makeIn (fun a => !s.inRetained a) n with
      | some r => some r
      | none => s.makeIn s.inRetained n

/-- ALLOC_ESCALATION_RESOLVED: the waiting demotion receives its run. -/
def execAllocEscalationResolved (id : Nat) (s : State) : Result :=
  .next (match s.move id with
    | some m =>
      if m.stage = Stage.allocWait ∧ s.serving then
        match s.makeRun m.slot (if s.fixedSlots m.slot then 64 else m.len) with
        | some (some a, s1) => s1.sealMove m a
        | some (none, s1) => s1
        | none => s
      else s
    | none => s)

/-! ## Waits that end -/

/-- WRITE_WAIT_RESUME (R82, R85, R179): the write is tried again and waits on where its condition is not met. -/
def execWriteWaitResume (rid : Nat) (s : State) : Result :=
  .next (match s.tmu.waits.find? (fun w => decide (w.req.id = rid ∧ (w.why.forFrame ∨ w.why.forRegion))) with
    | some w =>
      if s.serving then
        let s1 := s.resumeTile w.slot w.tile
        if s1.tmu.waits.any (fun x => decide (x.req.id = rid ∧ x.why = .frame)) ∧ !(s1.tme w.slot w.tile).nv ∧
            (s1.tme w.slot w.tile).len ≠ 0 ∧ (s1.freeFrame.isSome ∨ s1.takeFrame.isSome) then
          (s1.retag w.slot w.tile (fun y => if y = .frame then .promo else y)).demandPromotion w.slot w.tile
        else s1
      else s
    | none => s)

/-- CROSSING_WAIT_RESUME (R148): one freed entry is taken. -/
def execCrossingWaitResume (slot tile : Nat) (s : State) : Result :=
  .next (match s.tmu.moves.find? (fun m => decide (m.stage = .crossWait ∧ m.slot = slot ∧ m.tile = tile)) with
    | some m => match s.cacheGood slot tile with
      | some s1 =>
        if s.serving ∧ s.lockRoom slot ∧ (s1.takeCounter slot tile (s1.tme slot tile)).isSome then s1.runDemotion m else s
      | none => s
    | none => s)

/-! ## NEAR_PIN walks (R174) -/

/-- The materialized tiles of a region, rising. -/
def State.materialized (s : State) (slot : Nat) : List Nat :=
  ((((s.tmu.map.map (·.1)) ++ (s.tmu.cache.map (·.1))).filter (fun k => decide (keySlot k = slot))).foldl ninsert []).filterMap
    (fun k => if (s.tme slot (keyTile k)).unmat then none else some (keyTile k))

/-- NEAR_PIN_WALK_STEP. -/
def execNearPinWalkStep (slot : Nat) (s : State) : Result :=
  .next (match mget s.scr.pinWalks slot with
    | some pos =>
      if !s.scarabRuns then s
      else match (s.materialized slot).find? (fun t => decide (pos ≤ t)) with
        | none => s.setScr { s.scr with pinWalks := mdel s.scr.pinWalks slot }
        | some tile =>
          let on := fun (s : State) => s.setScr { s.scr with pinWalks := mput s.scr.pinWalks slot (tile + 1) }
          let t := s.tme slot tile
          if (s.lockOf slot tile).isSome then s
          else if t.nv then
            let r := s.pinTile slot tile t.near
            if r.2 then on r.1 else r.1.stopPinWalk slot
          else if !s.pinRoom then s.stopPinWalk slot
          else match s.freeEngine with
            | some e => ((s.startPromotion slot tile 13 .walk (some e)).map on).getD s
            | none => s
    | none => s)

end Sys2Proof.Machine
end

