-- ==== Sys2Proof/Machine/Supplies.lean ====
section
/-!
DEFINITION. Machine/Supplies.lean: supplies, crystal, low-speed clock and temperature as AON watches them (R514 to R521,
R564 to R567, R573; 16_reset_clocks_time.md, 18_signals_and_electrical.md).
-/
namespace Sys2Proof.Machine

/-- The supplies of an enable group (Table 18.4). -/
def groupSupplies : Nat → List Nat
  | 1 => [2] | 2 => [3, 4] | 3 => [5, 9] | 4 => [6, 7, 8] | _ => []

/-- The group of a supply; 0 for the AON supplies. -/
def supplyGroup (i : Nat) : Nat := ((List.range 5).find? (fun g => (groupSupplies g).contains i)).getD 0

/-- The monitor of a supply is masked (R517): its enable is low, or it has not passed its warning level since. -/
def State.masked (s : State) (i : Nat) : Bool := decide (2 ≤ i) && !s.aon.passed.testBit i

/-- The enables as driven, PWR_EN[2] to PWR_EN[9]. -/
def enablesOf (groups : Nat) : List Bool :=
  (List.range 8).map (fun k => decide (supplyGroup (k + 2) ≤ groups))

/-- Every supply of groups 1 to g has passed its warning level. -/
def passMask (g : Nat) : Nat := maskOf ((List.range 10).filter (fun i => decide (supplyGroup i ≤ g)))

/-- SUPPLY_GROUP_ENABLE (R565): the groups before g have passed warning, and group g is enabled, in order, once the fuses
are loaded. -/
def execSupplyGroupEnable (g : Nat) (s : State) : Result :=
  .next (if s.aon.held ∧ s.aon.loaded ∧ s.aon.off = 0 ∧ g = s.aon.groups + 1 ∧ g ≤ 4 then
    (s.setAon { s.aon with groups := g, passed := s.aon.passed ||| passMask (g - 1) }).emit (.enables (enablesOf g))
  else s)

/-- SUPPLY_RISE_TIMEOUT (R566): every enable is lowered, RESET_N and ALERT_N stay low, the supply's WARN bit holds 1. -/
def execSupplyRiseTimeout (i : Nat) (s : State) : Result :=
  .next (if s.aon.off = 0 ∧ 2 ≤ i ∧ supplyGroup i ≤ s.aon.groups ∧ s.masked i then
    let s1 := s.setAon { s.aon with groups := 0, passed := 0, off := 3, held := true }
    (((s1.wr F.AON_SUP_STS_WARN (setBit (s1.rd F.AON_SUP_STS_WARN) i)).emit (.enables (enablesOf 0))).emit
      (.resetN true)).emit (.alertN true)
  else s)

/-- SUPPLY_WARN (R515): a supply stays below warning for 1 µs. -/
def execSupplyWarn (i : Nat) (s : State) : Result :=
  .next (if s.masked i ∨ s.aon.off ≠ 0 then s
    else
      let s1 := ((s.wr F.AON_SUP_STS_WARN (setBit (s.rd F.AON_SUP_STS_WARN) i)).bump F.AON_SUP_CNT_WARNS).raise
        cSupplyWarn
      (s1.setAon { s1.aon with brownSupply := true, liftDue := false }).brownStart 7)

/-- SUPPLY_RECOVERED (R515): the lift timer starts once no supply is below warning. -/
def execSupplyRecovered (i : Nat) (s : State) : Result :=
  .next (if (s.rd F.AON_SUP_STS_WARN).testBit i ∧ s.aon.off = 0 then
    let s1 := s.wr F.AON_SUP_STS_WARN (clrBit (s.rd F.AON_SUP_STS_WARN) i)
    s1.setAon { s1.aon with liftDue := decide (s1.rd F.AON_SUP_STS_WARN = 0) && s1.aon.brownSupply }
  else s)

/-- BROWN_THROTTLE_LIFT (R515): 100 µs after the recovery. -/
def execBrownThrottleLift (s : State) : Result :=
  .next (if s.aon.liftDue then (s.setAon { s.aon with liftDue := false, brownSupply := false }).brownEnd else s)

/-- SUPPLY_RESET_CROSSING (R516): warm with cause 3 on a core supply, cold on an AON supply. -/
def execSupplyResetCrossing (i : Nat) (s : State) : Result :=
  .next (if i < 2 then s.coldCause true else if s.masked i then s else s.warm 3 i)

/-- XTAL_QUALIFIED (R521, R558): ALERT_N is released, the straps are sampled once per cold reset, the fuse load begins. -/
def execXtalQualified (straps : Straps) (s : State) : Result :=
  .next (if s.rdb F.AON_CLK_STS_XTAL_OK ∨ s.aon.off = 1 ∨ s.aon.off = 2 then s
    else
      let s1 := (s.wr F.AON_CLK_STS_XTAL_OK 1).emit (.alertN false)
      if s1.aon.strapped then s1
      else
        let m := straps.bifur.toNat
        let s2 := { s1 with straps := straps, aon := { s1.aon with strapped := true, loading := true } }
        let s3 := (s2.wr F.HLX_BIFUR_MERGE m).wr F.HLX_BIFUR_MERGE_ACT m
        let s4 := (List.range 16).foldl (fun s p =>
          s.wrI F.HLX_PORT_CTL_REFMODE p (min 2 (if p < 8 then straps.refmode0 else straps.refmode1))) s3
        s4.wr F.CLX_ID_HEAD (b2n straps.chainHead))

/-- LSCLK_SWITCH (R521): the sleep counter changes its source. -/
def execLsclkSwitch (toRc : Bool) (s : State) : Result :=
  .next (if s.rdb F.AON_CLK_STS_LS_RC = toRc ∨ !s.rdb F.AON_CLK_STS_XTAL_OK then s
    else (s.wr F.AON_CLK_STS_LS_RC (b2n toRc)).raise cLsclkSwitch)

/-- PLL_RELOCK_RETRY (R520): AON retries a lost PLL; a relocked one is qualified again by PLL_QUALIFIED. -/
def execPllRelockRetry (pll : Nat) (locked : Bool) (s : State) : Result :=
  .next (if !s.aon.pllOk.testBit pll ∧ locked then
    s.wr F.AON_CLK_STS_LOCK (setBit (s.rd F.AON_CLK_STS_LOCK) pll) else s)

/-- PLL_QUALIFIED (R519): lock held for 256 reference cycles; with the supplies above warning their monitors unmask. -/
def execPllQualified (pll : Nat) (s : State) : Result :=
  .next (if s.aon.off ≠ 0 ∨ s.aon.groups < 4 then s
    else
      let s1 := s.wr F.AON_CLK_STS_LOCK (setBit (s.rd F.AON_CLK_STS_LOCK) pll)
      s1.setAon { s1.aon with pllOk := setBit s1.aon.pllOk pll, passed := 1023 })

/-- THERMAL_THROTTLE (R573): TJ reaches 105 °C. -/
def execThermalThrottle (tj : Nat) (s : State) : Result :=
  .next (if s.aon.off ≠ 0 then s
    else
      let s1 := s.wr F.AON_THERM_TJ tj
      if tj < 105 ∨ s1.aon.brownThermal then s1
      else ((s1.raise cThermalThrottle).setAon { s1.aon with brownThermal := true }).brownStart 6)

/-- THERMAL_THROTTLE_LIFT (R573): 100 µs after TJ falls below 100 °C; a unit that is off after a shutdown may then restart
(R508: log entry 125). -/
def execThermalThrottleLift (s : State) : Result :=
  .next (if s.aon.brownThermal then (s.setAon { s.aon with brownThermal := false }).brownEnd else s)

/-- THERMAL_SHUTDOWN (R508, R574): cause 7 is written and every core supply is lowered; memory and keys are lost. -/
def execThermalShutdown (s : State) : Result :=
  .next (if s.aon.off = 1 ∨ s.aon.off = 2 then s
    else
      let s1 := (s.blank.wr F.AON_RST_CAUSE_CAUSE 7).setAon { s.blank.aon with off := 2, strapped := s.aon.strapped, brownThermal := true }
      let s2 := { s1 with straps := s.straps }
      let s3 := s2.setCause cThermalShutdown
      (((s3.wr F.AON_CLK_STS_XTAL_OK (s.rd F.AON_CLK_STS_XTAL_OK)).emit (.alertN true)).emit (.resetN true)).emit
        (.enables (enablesOf 0)))

/-- JTAG_INSTRUCTION (R561): 0 BYPASS, 1 IDCODE, 2 SAMPLE/PRELOAD at any time; another one only while RESET_N is held low
from outside, else it acts as BYPASS (log entry 17 for the numbering). -/
def execJtagInstruction (ir : Nat) (s : State) : Result :=
  .next (s.setAon { s.aon with jtag := if ir ≤ 2 ∨ s.aon.extLow then ir else 0 })

end Sys2Proof.Machine
end

