-- ==== Sys2Proof/Machine/RegRead.lean ====
section
/-!
DEFINITION. Machine/RegRead.lean: what the registers read as (R17 to R21, R44, R535 to R539, R542, R554, Table 17.3):
fields that hold a value, fields that copy another part of the state, and whole 64-bit registers. Reading here has no
effect.
-/
namespace Sys2Proof.Machine

/-! ## Pages -/

/-- The highest page in use of a block (Table 17.2). -/
def topPage : Nat → Nat
  | 0 => 4 | 1 => 0x10 | 2 => 0x50 | 3 => 0x12 | 4 => 0x31 | 5 => 0x10 | 6 => 0x41 | 7 => 0x11 | 8 => 0x73
  | 9 => 0x40 | 10 => 0x20 | 11 => 0x40 | 12 => 0x31 | 13 => 0x40 | 14 => 0x0e | _ => 0

/-- A page in use. -/
def pageUsed (blk page : Nat) : Bool :=
  decide (blk < 15 ∧ page ≤ topPage blk) &&
    (if blk = 4 then decide (page ≤ 0x24 ∨ 0x30 ≤ page) else if blk = 9 then decide (page ≤ 0x20 ∨ page = 0x40) else true)

/-- The edge die that a page's instance lies on (Table 1.11). -/
def pageDie (blk page : Nat) : Option Nat :=
  if blk = 2 then
    (if 1 ≤ page ∧ page ≤ 16 then some ((page - 1) / 8)
     else if 17 ≤ page ∧ page ≤ 80 then some ((page - 17) / 32) else none)
  else if blk = 3 then (if page = 1 then some 2 else if page = 2 then some 3 else none)
  else if blk = 10 then (if 1 ≤ page ∧ page ≤ 32 then some (2 + (page - 1) / 16) else none)
  else if blk = 11 then
    (if 1 ≤ page ∧ page ≤ 32 then some ((page - 1) / 16)
     else if 33 ≤ page ∧ page ≤ 64 then some ((page - 33) / 16) else none)
  else none

/-- The instance lies on a lost edge die. -/
def State.pageLost (s : State) (blk page : Nat) : Bool :=
  match pageDie blk page with
  | some d => (s.rd F.AON_D2D_LOST).testBit d
  | none => false

/-- The instance of a page is FAILED. -/
def State.pageFailed (s : State) (blk page : Nat) : Bool :=
  if blk = 1 then decide (1 ≤ page ∧ page ≤ 16) && decide (s.coreState (page - 1) = 4)
  else if blk = 7 then decide (1 ≤ page ∧ page ≤ 17) && decide (s.unitState cdcKind (page - 1) = 4)
  else if blk = 8 then decide (66 ≤ page ∧ page ≤ 115) && decide (s.unitState cryKind (page - 66) = 4)
  else if blk = 9 then decide (1 ≤ page ∧ page ≤ 32) && decide (s.unitState scrKind (page - 1) = 4)
  else if blk = 10 then decide (1 ≤ page ∧ page ≤ 32) && s.rdb F.NTC_CH_CTL_FAILED (page - 1)
  else if blk = 11 then decide (1 ≤ page ∧ page ≤ 32) && s.rdb F.BTC_SC_CTL_FAILED (page - 1)
  else false

/-- OFFLINE (R539). -/
def State.pageOffline (s : State) (blk page : Nat) : Bool :=
  s.pageLost blk page || s.pageFailed blk page ||
    (decide (blk = 5 ∧ page = 0) && s.rdb F.DIR_STATUS_OFFLINE) ||
    (decide (blk = 7 ∧ page = 0) && s.cdcOffline)

/-- EVT_ANY of a page. -/
def State.evtAny (s : State) (blk page : Nat) : Bool :=
  decide (s.rd (F.EVT_RAW_CAUSE blk) page &&& s.evtEn blk page ≠ 0)

/-- The head pages of an odd port that is merged read as zero. -/
def State.pageEmpty (s : State) (blk page : Nat) : Bool :=
  decide (blk = 2 ∧ 17 ≤ page ∧ page ≤ 80) && s.merged ((page - 17) / 4) && decide ((page - 17) / 4 % 2 = 1)

/-! ## Copies -/

/-- Edge dies linked and in service. -/
def State.edgeDies (s : State) : Nat :=
  if s.inReset ∨ s.cur = 3 then 0
  else maskOf ((List.range 4).filter (fun k => !(s.rd F.AON_D2D_LOST).testBit k))

/-- A number as 40-bit two's complement. -/
def twos40 (n : Int) : Nat := (n % (2 ^ 40 : Int)).toNat

/-- Fields of AON, CTL, HLX and CLX that copy something. -/
def State.copyLow (s : State) (f : Fld) (i : Nat) : Option Nat :=
  if f = F.AON_SUP_STS_MASK then some (maskOf ((List.range 10).filter s.masked))
  else if f = F.AON_GLB_ID_PART then some 0x9144
  else if f = F.AON_GLB_ID_GRADE then some s.fuses.grade
  else if f = F.AON_GLB_ID_PACKAGE then some 1
  else if f = F.AON_GLB_ID_STEPPING then some 0x10
  else if f = F.AON_GLB_SN_SN ∨ f = F.CLX_ID_SN then some s.fuses.sn.toNat
  else if f = F.AON_GLB_STATE_EDGE then some s.edgeDies
  else if f = F.AON_GLB_STATE_MEM_ACTIVE then some (s.rd F.CTL_HEALTH_MEM_ACTIVE)
  else if f = F.AON_GLB_STATE_NO_SERVICE then some (b2n s.noService)
  else if f = F.AON_GLB_STATE_NEAR_ONLY then some (b2n s.nearOnly)
  else if f = F.AON_GLB_STATE_HALTED then some (b2n (decide (s.cry.halt = 4)))
  else if f = F.AON_GLB_STATE_KEY_MODE then some (s.rd F.CRY_MODE_MODE)
  else if f = F.AON_GLB_STATE_PSTATE then some (s.rd F.AON_PWR_MODE_CUR)
  else if f = F.AON_GLB_EVTSUM_BLOCK then
    some (maskOf ((List.range 15).filter (fun b => (List.range (topPage b + 1)).any (s.evtAny b))))
  else if f = F.CTL_BOOT_ROM_VER then some s.fuses.romVer.toNat
  else if f = F.CTL_CORES_ACTIVE then some (maskOf (s.coresIn 1))
  else if f = F.CTL_CORES_SPARE then some (maskOf (s.coresIn 3))
  else if f = F.CTL_CORES_FAILED then some (maskOf (s.coresIn 4))
  else if f = F.HLX_PORT_CTL_REFMODE then some (if i < 8 then s.straps.refmode0 else s.straps.refmode1)
  else if f = F.HLX_HEAD_STS_MEMCLR then some (b2n (mget s.hlx.memclr i).isSome)
  else if f = F.CLX_FAR_STS_OUT then some s.farSent.length
  else if f = F.CLX_FAR_STS_UNCONF then some s.unconfAll
  else if f = F.CLX_PORT_SEQ_UNACKED then some (s.clp i).replay.length
  else if f = F.CLX_PORT_CRED_AVAIL then
    (if s.clActive i then
      let a := (s.clp i).avail
      some (a.reqH + 2 ^ 16 * a.reqD + 2 ^ 32 * a.rspH + 2 ^ 48 * a.rspD)
     else some 0)
  else if f = F.CLX_PEER_TX_UNCONF then some (s.unconf i).length
  else none

/-- Fields of ADM, DIR and TMU that copy something. -/
def State.copyMid (s : State) (f : Fld) (i k : Nat) : Option Nat :=
  let b := s.bucket (s.rd F.ADM_SHP_SEL_BUCKET)
  if f = F.ADM_SHP_RATE_RATE then some (if b.pending then b.newRate else b.rate)
  else if f = F.ADM_SHP_RATE_PENDING then some (b2n b.pending)
  else if f = F.ADM_SHP_BURST_BURST then some (if b.pending then b.newBurst else b.burst)
  else if f = F.ADM_SHP_BAL_BAL then some (twos40 b.bal)
  else if f = F.ADM_CLS_CFG_FORCE_OPEN then some (b2n (s.forced i))
  else if f = F.ADM_CLS_CFG_SHP_SUSPEND then some (b2n (s.suspended i))
  else if f = F.ADM_ING_EFF_EFF0 then some (s.limit i (4 * k))
  else if f = F.ADM_ING_EFF_EFF1 then some (s.limit i (4 * k + 1))
  else if f = F.ADM_ING_EFF_EFF2 then some (s.limit i (4 * k + 2))
  else if f = F.ADM_ING_EFF_EFF3 then some (s.limit i (4 * k + 3))
  else if f = F.DIR_STATUS_SPARES then
    some ((List.range 16).filter (fun n => (List.range 17).any (s.wayFree n))).length
  else if f = F.DIR_OCC_ENTRIES then some (s.dirLines (fun _ => true)).length
  else if f = F.DIR_HEAD_LINES then some (s.dirLines (fun e => e.sharers.testBit k)).length
  else if f = F.DIR_HEAD_BI_OUT then some (s.snoopsOut k)
  else if f = F.TMU_CAP_COMMIT_SECTORS then some s.committed
  else if f = F.TMU_CAP_FREE_SECTORS then
    some (if s.nearOnly then s.freeCount * 64 else s.freeSectors)
  else if f = F.TMU_LOCK_STS_USED then some s.locks.length
  else if f = F.TMU_LOCK_STS_DIRTY then some s.dirtyEntries.length
  else if f = F.TMU_RGN_DIRTY_FRAMES then some (s.dirtyOf i)
  else none

/-- The lines and sectors that an AES pipe has taken since its count was last read: a share of those taken (Table 4.13). -/
def State.pipeLines (s : State) (p : Nat) : Nat :=
  let m := (mget s.cry.marks p).getD 0
  min (s.cry.lines - m) (Config.aesLines p m s.cry.lines)

/-- There is work that an AES pipe may hold: a move, a near read, a map sector or a transfer under way. -/
def State.aesWork (s : State) : Bool :=
  !s.tmu.moves.isEmpty || !s.tmu.fetches.isEmpty || !s.near.reads.isEmpty || !s.mem.queues.isEmpty

/-- An AES pipe holds work (Table 4.13). -/
def State.pipeBusy (s : State) (p : Nat) : Bool :=
  s.aesWork && decide (s.unitState cryKind p = 1 ∨ s.unitState cryKind p = 2) && Config.aesBusy p s.draw

/-- Fields of CDC, CRY, SCR, RAS and EVT that copy something. -/
def State.copyHigh (s : State) (f : Fld) (i k : Nat) : Option Nat :=
  if f = F.CDC_STATUS_ACTIVE then some (s.unitsIn cdcKind 1).length
  else if f = F.CDC_STATUS_SPARE then some (s.unitsIn cdcKind 3).length
  else if f = F.CDC_STATUS_FAILED then some (s.unitsIn cdcKind 4).length
  else if f = F.CDC_STATUS_OFFLINE then some (b2n s.cdcOffline)
  else if f = F.CRY_MODE_ROOT_VALID then some (b2n s.cry.root.isSome)
  else if f = F.CRY_MODE_KEK_VALID then some (b2n s.cry.kek.isSome)
  else if f = F.CRY_MODE_HALTED then some (b2n (decide (s.cry.halt = 4)))
  else if f = F.CRY_STATUS_ACTIVE then some (s.unitsIn cryKind 1).length
  else if f = F.CRY_STATUS_SPARE then some (s.unitsIn cryKind 3).length
  else if f = F.CRY_STATUS_FAILED then some (s.unitsIn cryKind 4).length
  else if f = F.CRY_XTAB_USED then some s.cry.cross.length
  else if f = F.CRY_RGN_REKEY_REMAIN then some (if s.rekeying i then (s.toCross i).length else 0)
  else if f = F.CRY_KSLOT_STATE then some (b2n (mget s.cry.slotKeys k).isSome)
  else if f = F.CRY_KSLOT_BINDS then
    some (if s.vk4 then ((List.range 64).filter (fun r =>
      decide (s.rgnState r ≠ 0 ∧ s.rd F.CRY_RGN_KEY_KEY_BIND r = k))).length else 0)
  else if f = F.CDC_PIPE_BUSY_BUSY then some (b2n (s.cdc.held.any (fun e => decide (e.1 = i))))
  else if f = F.CRY_PIPE_WORK_UNITS then some (s.rd f i k + s.pipeLines i)
  else if f = F.CRY_PIPE_BUSY_BUSY then some (b2n (s.pipeBusy i))
  else if f = F.SCR_FRAMES_FREE then some s.freeCount
  else if f = F.SCR_FRAMES2_DIRTY then
    some (s.near.ftes.filter (fun e => decide (e.2.state = .dirty ∨ e.2.state = .moving))).length
  else if f = F.SCR_FRAMES2_PINNED then some s.pinnedCount
  else if f = F.SCR_MOV_STS_ENG_ACTIVE then some (s.unitsIn scrKind 1).length
  else if f = F.SCR_MOV_STS_ENG_FAILED then some (s.unitsIn scrKind 4).length
  else if f = F.SCR_ENG_BUSY_INFLIGHT then some (s.engineLoad i)
  else if f = F.SCR_JOB_STS_ACTIVE then some (s.job.ctxs.filter (fun e => decide (e.2.state = 1))).length
  else if f = F.SCR_JOB_STS_INFLIGHT then some s.job.jobs.length
  else if f = F.SCR_JOB_STS_PAUSED then some (b2n s.paused)
  else if f = F.RAS_CH_STS_TRACKED then
    some ((List.range 32).filter (fun j => s.rdb F.RAS_RPT_VALID i j)).length
  else if f = F.EVT_ALERT_EN_SRC then some (s.alertEn k)
  else if f = F.EVT_LD_EN_SRC then some (s.rd f i k ||| fatalBits k)
  else if f = F.EVT_SRC_CLASS then some (srcClass k)
  else none

/-- What a field reads as. -/
def State.value (s : State) (f : Fld) (i k : Nat) : Nat :=
  let c := if f.blk ≤ 3 then s.copyLow f i else if f.blk ≤ 6 then s.copyMid f i k else s.copyHigh f i k
  c.getD (s.rd f i k)

/-! ## Registers -/

/-- A header register of a page (Table 17.3). -/
def State.headerWord (s : State) (blk page off : Nat) : Nat :=
  if off = 0 then blk + 2 ^ 8 * page + 2 ^ 16 * 0x9144
  else if off = 8 then 2 ^ 8
  else if off = 0x10 then topPage blk + 2 ^ 8 * b2n (decide (page = 0) || s.aon.loaded)
  else if off = 0x18 then s.rd (F.BLK_CTL_LOCK blk)
  else if off = 0x20 then
    b2n (s.aon.blocks.contains blk) + 2 * b2n (s.pageOffline blk page) + 4 * b2n (s.evtAny blk page)
  else if off = 0x28 ∨ off = 0x38 then s.rd (F.EVT_RAW_CAUSE blk) page
  else if off = 0x30 then s.evtEn blk page
  else 0

/-- The index of a field at an offset of a page. -/
def Fld.indexAt (f : Fld) (page off : Nat) : Option (Nat × Nat) :=
  if f.p0 ≤ page ∧ page ≤ f.pn ∧ f.off ≤ off then
    (if off = f.off then some (page - f.p0, 0)
     else if f.stride ≠ 0 ∧ (off - f.off) % f.stride = 0 ∧ (off - f.off) / f.stride < f.cnt then
       some (page - f.p0, (off - f.off) / f.stride)
     else none)
  else none

/-- The fields of the register at an offset of a page, each with its instance and index. -/
def fieldsAt (blk page off : Nat) : List (Fld × Nat × Nat) :=
  (blockTable blk).filterMap (fun f => (f.indexAt page off).map (fun p => (f, p.1, p.2)))

/-- The 64 bits of a register. WO fields read as 0 (Table 0.3). -/
def State.regWord (s : State) (blk page off : Nat) : Nat :=
  if !pageUsed blk page then 0
  else if off < 0x40 then s.headerWord blk page off
  else if s.pageLost blk page ∨ s.pageEmpty blk page then 0
  else ((fieldsAt blk page off).map (fun x =>
    if x.1.acc = Acc.wo then 0 else s.value x.1 x.2.1 x.2.2 % 2 ^ x.1.width * 2 ^ x.1.lo)).foldl (· + ·) 0

end Sys2Proof.Machine
end

