-- ==== Sys2Proof/Machine/Regions.lean ====
section
/-!
DEFINITION. Machine/Regions.lean: creating, changing, deleting and initializing regions (R55 to R62, R79 to R86, R139 to R141,
R157, R174, R175, R190, R226, R227, R285, R291, R300, R302, R307; 02_tiles_and_regions.md, 08_host_links.md).
-/
namespace Sys2Proof.Machine

/-! ## Attributes -/

/-- What a creation fixes (Table 8.7). -/
structure Spec where
  slot : Nat
  type : Nat
  defClass : Nat
  level : Nat
  tier : Nat
  retain : Bool
  exportEn : Bool
  offer : Bool
  home : Nat
  homeSlot : Nat
  owner : Nat
  exportUnit : Nat
  key : Nat
  base : Nat
  size : Nat
  budget : Nat
  dirtyCap : Nat
  t1 : Nat
  t2 : Nat
  t3 : Nat
  deriving DecidableEq, Repr

/-- Input bytes of REGION_CREATE. -/
def Spec.ofInput (p : List Byte) : Spec :=
  { slot := numAt p 0 1, type := numAt p 1 1, defClass := numAt p 2 1, level := numAt p 3 1, tier := numAt p 4 1,
    retain := bitOf (numAt p 5 1) 0, exportEn := bitOf (numAt p 5 1) 1, offer := bitOf (numAt p 5 1) 2,
    home := numAt p 6 1, homeSlot := numAt p 7 1, owner := numAt p 8 2, exportUnit := numAt p 10 1, key := numAt p 11 1,
    base := numAt p 12 2, size := numAt p 14 2, budget := numAt p 16 8, dirtyCap := numAt p 24 4, t1 := numAt p 28 1,
    t2 := numAt p 29 1, t3 := numAt p 30 1 }

/-- The attributes of a region as it stands. -/
def State.specOf (s : State) (r : Nat) : Spec :=
  { slot := r, type := s.rgnType r, defClass := s.rd F.TMU_RGN_POLICY_DEF_CLASS r, level := s.rd F.TMU_RGN_POLICY_LEVEL r,
    tier := s.rd F.TMU_RGN_POLICY_TIER r, retain := s.rdb F.TMU_RGN_MAP_RETAIN r,
    exportEn := s.rdb F.TMU_RGN_POLICY_EXPORT_EN r, offer := (mget s.tmu.offers r).isSome,
    home := s.rd F.TMU_RGN_POLICY_HOME r, homeSlot := s.rd F.TMU_RGN_POLICY_HOME_SLOT r, owner := s.owner r,
    exportUnit := s.rd F.TMU_RGN_POLICY_EXPORT_UNIT r, key := s.rd F.CRY_RGN_KEY_KEY_BIND r,
    base := s.rd F.TMU_RGN_MAP_BASE r, size := s.rd F.TMU_RGN_MAP_SIZE r, budget := s.rd F.TMU_RGN_BUDGET_BUDGET r,
    dirtyCap := s.rd F.TMU_RGN_DIRTYCAP_DIRTY_CAP r, t1 := s.rd F.TMU_RGN_THRESH_T1 r,
    t2 := s.rd F.TMU_RGN_THRESH_T2 r, t3 := s.rd F.TMU_RGN_THRESH_T3 r }

/-- Tiles of a size in GiB. -/
def Spec.tiles (c : Spec) : Nat := c.size * 262144

/-- Sectors that a creation commits (R80). -/
def Spec.commit (c : Spec) : Nat :=
  if c.type = 1 ∨ c.type = 3 then 64 * c.tiles else if c.type = 2 then c.budget + reserveOf c.dirtyCap else 0

/-- An OWNER bit for the odd port of a merged pair. -/
def State.oddOwner (s : State) (m : Nat) : Bool :=
  (List.range 16).any (fun n => m.testBit n && decide (s.portOf n ≠ n))

/-- Thresholds in range and in order. -/
def threshOk (t1 t2 t3 : Nat) : Bool := decide (1 ≤ t1 ∧ t1 ≤ t2 ∧ t2 ≤ t3 ∧ t3 ≤ 99)

/-- The offset of the first bad field of a creation (R302 step 2). -/
def State.badCreate (s : State) (p : List Byte) : Option Nat :=
  let c := Spec.ofInput p
  let far := decide (c.type = 4)
  let el := decide (c.type = 2)
  let thr := if el then threshOk c.t1 c.t2 c.t3 else threshOk c.t1 c.t2 c.t3 || decide (c.t1 = 0 ∧ c.t2 = 0 ∧ c.t3 = 0)
  let badT := if 1 ≤ c.t1 ∧ c.t1 ≤ 99 then (if c.t1 ≤ c.t2 ∧ c.t2 ≤ 99 then 30 else 29) else 28
  ([(decide (63 < c.slot), 0), (decide (c.type = 0 ∨ 4 < c.type), 1), (decide (15 < c.defClass), 2),
    (decide (9 < c.level), 3), (decide (2 < c.tier), 4), (decide (8 ≤ numAt p 5 1), 5),
    (if far then decide (15 < c.home) else decide (c.home ≠ 0), 6),
    (if far then decide (63 < c.homeSlot) else decide (c.homeSlot ≠ 0), 7),
    ((decide (c.owner = 0) && !c.offer) || (far && decide (countBits 16 c.owner ≠ 1)) || s.oddOwner c.owner, 8),
    (decide (15 < c.exportUnit), 10), (decide (63 < c.key), 11), (decide (c.size = 0), 14),
    (if el then decide (2 ^ 40 ≤ c.budget) else decide (c.budget ≠ 0), 16),
    (if el then decide (c.dirtyCap = 0 ∨ 16777215 < c.dirtyCap) else decide (c.dirtyCap ≠ 0), 24),
    (!thr, badT)].find? (·.1)).map (·.2) |>.or (reservedAt p 31 33)

/-- No chain port is left (Table 1.11: both dies with chain ports are lost). -/
def State.noChain (s : State) : Bool := (s.rd F.AON_D2D_LOST).testBit 2 && (s.rd F.AON_D2D_LOST).testBit 3

/-- The type is not available (R190, R309, Table 1.9): near-only mode creates PLAIN and SHARED regions only. -/
def State.typeGone (s : State) (t : Nat) : Bool :=
  (decide (t = 2 ∨ t = 4) && s.nearOnly) || (decide (t = 3) && s.rdb F.DIR_STATUS_OFFLINE) || (decide (t = 4) && s.noChain)

/-- The region that a range would overlap (R55). -/
def State.overlapped (s : State) (base size : Nat) : Option Nat :=
  (List.range 64).find? (fun r => decide (s.rgnState r ≠ 0 ∧ base < s.rd F.TMU_RGN_MAP_BASE r + s.rd F.TMU_RGN_MAP_SIZE r ∧
    s.rd F.TMU_RGN_MAP_BASE r < base + size))

/-- The lowest-numbered run of n free frames (R190). -/
def State.frameRun (s : State) (n : Nat) : Option Nat :=
  let used := ((List.range 64).filter (fun r => decide (s.rgnState r ≠ 0))).map
    (fun r => (s.rd F.TMU_RGN_MAPLOC_LOC r, s.rgnTiles r))
  let gone := s.near.withheld.map (fun f => (f, 1))
  let starts := 0 :: (used ++ gone).map (fun e => e.1 + e.2)
  let free := fun a => decide (a + n ≤ s.rd F.SCR_FRAMES_TOTAL) &&
    (used ++ gone).all (fun e => decide (a + n ≤ e.1 ∨ e.1 + e.2 ≤ a))
  (starts.filter free).foldl (fun (b : Option Nat) a => match b with
    | none => some a
    | some x => some (min x a)) none

/-! ## Creation -/

/-- Where a region's stored things lie: its map or its first frame, and its fixed slots; or the result code. -/
def State.place (s : State) (c : Spec) : Except (Nat × Nat) (Nat × State) :=
  if s.rd F.TMU_CAP_TOTAL_SECTORS < s.committed + c.commit then .error (6, 0)
  else if s.nearOnly then
    (if c.type = 4 then .ok (0, s)
     else match s.frameRun c.tiles with
      | some f => .ok (f, s)
      | none => .error (6, 1))
  else
    let fixed := decide (c.type = 1 ∨ c.type = 3)
    match if fixed then (s.takeFixed c.retain (64 * c.tiles)).map (fun r => (some r.1, r.2)) else some (none, s) with
    | none => .error (6, 0)
    | some (iv, s1) => match ivFirstFit s1.tmu.mapFree (c.size * 131072) with
      | none => .error (7, 0)
      | some (a, rest) =>
        .ok (a, s1.setTmu { s1.tmu with mapFree := rest,
                                        fixed := match iv with
                                          | some l => mput s1.tmu.fixed c.slot l
                                          | none => s1.tmu.fixed })

/-- The region is ACTIVE (R62, R139, R141, R157, R285): its slot's registers and its generation. -/
def State.activate (s : State) (c : Spec) (loc : Nat) : State :=
  let r := c.slot
  let gen := s.curGen r + 1
  let el := decide (c.type = 2)
  let owner := if c.offer then 0 else c.owner
  let s1 := [(F.TMU_RGN_MAP_BASE, c.base), (F.TMU_RGN_MAP_SIZE, c.size), (F.TMU_RGN_MAP_TYPE, c.type),
    (F.TMU_RGN_MAP_STATE, 1), (F.TMU_RGN_MAP_RETAIN, b2n c.retain), (F.TMU_RGN_MAP_OWNER, owner),
    (F.TMU_RGN_POLICY_DEF_CLASS, c.defClass), (F.TMU_RGN_POLICY_LEVEL, c.level), (F.TMU_RGN_POLICY_TIER, c.tier),
    (F.TMU_RGN_POLICY_KEYGEN, gen), (F.TMU_RGN_POLICY_HOME, c.home), (F.TMU_RGN_POLICY_HOME_SLOT, c.homeSlot),
    (F.TMU_RGN_POLICY_EXPORT_EN, b2n c.exportEn), (F.TMU_RGN_POLICY_EXPORT_UNIT, c.exportUnit),
    (F.TMU_RGN_MAPLOC_LOC, loc), (F.TMU_RGN_BUDGET_BUDGET, c.budget), (F.TMU_RGN_USED_USED, 0),
    (F.TMU_RGN_DIRTYCAP_DIRTY_CAP, if el then c.dirtyCap else F.TMU_RGN_DIRTYCAP_DIRTY_CAP.rst),
    (F.TMU_RGN_RESERVE_RESERVE, if el then reserveOf c.dirtyCap else 0),
    (F.TMU_RGN_THRESH_T1, if c.t1 = 0 then 75 else c.t1), (F.TMU_RGN_THRESH_T2, if c.t1 = 0 then 90 else c.t2),
    (F.TMU_RGN_THRESH_T3, if c.t1 = 0 then 97 else c.t3), (F.TMU_RGN_THRESH_LEVEL, 0), (F.TMU_RGN_INIT_WATERMARK, 0),
    (F.CRY_RGN_GEN_CUR, gen), (F.CRY_RGN_GEN_PREV, 0), (F.CRY_RGN_KEY_BASE_GEN, gen),
    (F.CRY_RGN_KEY_KEY_BIND, if s.vk4 then c.key else 0)].foldl (fun s x => s.wrI x.1 r x.2) s
  if c.offer then
    let s2 := s1.watchFree.setTmu { s1.tmu with offers := mput s1.tmu.offers r c.owner }
    (bitList 16 c.owner).foldl (fun s h => s.emit (.addCapacity h r)) s2
  else s1.watchFree

/-- REGION_CREATE (R302). -/
def State.regionCreate (s : State) (src : MboxSrc) (p : List Byte) : State :=
  s.avsar src 0xc001 64 (.perm 0) p (fun s =>
    let c := Spec.ofInput p
    match s.badCreate p with
    | some i => .err 2 i
    | none =>
      if s.typeGone c.type then .err 0xd c.type
      else if s.slotHeld c.slot then .err 0xc 1
      else if s.rgnState c.slot ≠ 0 then .err 3 c.slot
      else if 16384 < c.base + c.size then .err 5 0xffff
      else match s.overlapped c.base c.size with
        | some r => .err 5 r
        | none =>
          if s.vk4 ∧ (mget s.cry.slotKeys c.key).isNone then .err 0xa 4
          else if s.curGen c.slot = 0xffffffff then .raised (s.raise cKeygenExhausted) 8 c.slot
          else match s.place c with
            | .error e => .err e.1 e.2
            | .ok (loc, s1) =>
              .ok (s1.activate c loc) (leBytes 8 loc ++ leBytes 8 (if c.type = 2 then reserveOf c.dirtyCap else 0)))

/-- REGION_CREATE. -/
def execRegionCreate (src : MboxSrc) (payload : List (BitVec 8)) (s : State) : Result :=
  .next (s.regionCreate src payload)

/-- REGION_INIT_STEP (R62, R190): the next n entries stand in the map, or the next n frames hold zeros, and the
watermark advances. -/
def execRegionInitStep (slot n : Nat) (s : State) : Result :=
  .next (
    let w := s.rd F.TMU_RGN_INIT_WATERMARK slot
    let left := s.rgnTiles slot - w
    if s.serving ∧ (s.rgnState slot = 1 ∨ s.rgnState slot = 2) ∧ !s.isDeleting slot ∧ 0 < n ∧ n ≤ left then
      match s.admitInternal 13 (if s.nearOnly then 4096 * n else 32 * n) with
      | none => s
      | some s1 =>
        let first := s.rd F.TMU_RGN_MAPLOC_LOC slot + w
        let s2 := if s.nearOnly ∧ s.rgnType slot ≠ 4 then (List.range n).foldl (fun s i =>
            if (s.fte (first + i)).isSome then s else s.putFrame (first + i) (List.replicate 4096 0) []) s1 else s1
        let s3 := (s2.wrI F.TMU_RGN_INIT_WATERMARK slot (w + n)).leaveInternal 13 false
        if n = left then s3.raise cInitDone (region := some slot) else s3
    else s)

/-! ## Deletion (R62) -/

/-- Steps 1 and 2: decode stops, offers are withdrawn, demotions abort; a SHARED region is swept first (Table 9.5). -/
def State.startDelete (s : State) (r : Nat) : State :=
  let s1 := s.setTmu { s.tmu with deleting := s.tmu.deleting ++ [(r, s.tmu.nextId)], offers := mdel s.tmu.offers r }
  let s2 := s1.setScr { s1.scr with pinWalks := mdel s1.scr.pinWalks r }
  let s3 := s2.wr F.BTC_RET_PEND_SLOT (clrBit (s2.rd F.BTC_RET_PEND_SLOT) r)
  let s4 := (s3.tmu.moves.filter (fun m => decide (m.kind = .demote ∧ m.slot = r))).foldl (fun s m => s.abortDemotion m) s3
  if s.rgnType r = 3 then s4.startSweep (.delete r) else s4

/-- Intervals without the n sectors from a. -/
def ivRemove : List (Nat × Nat) → Nat → Nat → List (Nat × Nat)
  | [], _, _ => []
  | (b, m) :: iv, a, n =>
    if a + n ≤ b ∨ b + m ≤ a then (b, m) :: ivRemove iv a n
    else ([(b, a - b), (a + n, b + m - (a + n))].filter (fun e => decide (e.2 ≠ 0))) ++ ivRemove iv a n

/-- An interval of fixed slots goes back: whole chunks to the free chunks, the rest to pool 64. -/
def State.freeInterval (s : State) (a n : Nat) : State :=
  let c := ceilDiv a 4096 * 4096
  let k := if c ≤ a + n then (a + n - c) / 4096 else 0
  let rest := if k = 0 then (List.range (n / 64)).map (fun i => a + 64 * i)
    else (List.range ((c - a) / 64)).map (fun i => a + 64 * i) ++
      (List.range ((a + n - (c + 4096 * k)) / 64)).map (fun i => c + 4096 * k + 64 * i)
  let s1 := if k = 0 then s else s.setTmu { s.tmu with freeIv := ivInsert s.tmu.freeIv c (4096 * k) }
  rest.foldl (fun s x => s.freeRun x 64) s1

/-- Tiles of a region that have an entry of their own. -/
def State.entries (s : State) (r : Nat) : List Nat :=
  ((((s.tmu.map.map (·.1)) ++ (s.tmu.cache.map (·.1))).filter (fun k => decide (keySlot k = r))).foldl ninsert []).map keyTile

/-- Step 4, the sectors: runs of an ELASTIC region; fixed slots and the runs of fixed tiles that moved. Retired tiles'
runs go to the retired set. -/
def State.freeBacking (s : State) (r : Nat) : State :=
  let tiles := s.entries r
  if s.fixedSlots r then
    let iv := (mget s.tmu.fixed r).getD []
    let moved := tiles.filter (fun t => decide ((s.tme r t).loc ≠ slotIn iv t))
    let bad := tiles.filter (fun t => (s.tme r t).retired && decide ((s.tme r t).loc = slotIn iv t))
    let keep := (moved ++ bad).foldl (fun l t => ivRemove l (slotIn iv t) 64) iv
    let s1 := keep.foldl (fun s e => s.freeInterval e.1 e.2) s
    let s2 := bad.foldl (fun s0 t => s0.retireRun (slotIn iv t) 64) s1
    let s3 := moved.foldl (fun s0 t =>
      if (s.tme r t).retired then s0.retireRun (s.tme r t).loc 64 else s0.freeRun (s.tme r t).loc 64) s2
    s3.setTmu { s3.tmu with fixed := mdel s3.tmu.fixed r }
  else tiles.foldl (fun s0 t => s0.returnRun r (s.tme r t)) s

/-- Step 3 and the rest of step 4: frames, cached and stored entries, the map, the crossing table; the slot is FREE. -/
def State.finishDelete (s : State) (r : Nat) : State :=
  let s1 := s.freeBacking r
  let s2 := s1.setNear { s1.near with
    ftes := s1.near.ftes.filter (fun e => decide (e.2.slot ≠ r)),
    marks := s1.near.marks.filter (fun n => !(match s1.fte (n / 64) with | some e => decide (e.slot = r) | none => false)) }
  let map := if s.nearOnly ∨ s.tmu.orphans.contains r then s2.tmu.mapFree
    else ivInsert s2.tmu.mapFree (s.rd F.TMU_RGN_MAPLOC_LOC r) (s.rd F.TMU_RGN_MAP_SIZE r * 131072)
  let s3 := s2.setTmu { s2.tmu with
    map := s2.tmu.map.filter (fun e => decide (keySlot e.1 ≠ r)),
    cache := s2.tmu.cache.filter (fun e => decide (keySlot e.1 ≠ r)),
    fetches := s2.tmu.fetches.filter (fun e => decide (keySlot e.1 ≠ r)),
    mapFree := map, orphans := nerase s2.tmu.orphans r, deleting := s2.tmu.deleting.filter (fun e => decide (e.1 ≠ r)), offers := mdel s2.tmu.offers r }
  let s4 := s3.setCry { s3.cry with
    cross := s3.cry.cross.filter (fun e => decide (keySlot e.1 ≠ r)), keyWait := nerase s3.cry.keyWait r,
    walks := mdel s3.cry.walks r, rekeyJobs := s3.cry.rekeyJobs.filter (fun e => decide (e.2 ≠ r)),
    ctrHolds := s3.cry.ctrHolds.filter (fun k => decide (keySlot k ≠ r)) }
  let s4 := s4.setScr { s4.scr with
    lastPromo := s4.scr.lastPromo.filter (fun x => decide (x.1 ≠ r)),
    prefetch := s4.scr.prefetch.filter (fun x => decide (x.1 ≠ r)) }
  let s5 := [F.CRY_RGN_REKEY_STATE, F.CRY_RGN_REKEY_QUEUED, F.CRY_RGN_GEN_PREV].foldl (fun s f => s.wrI f r 0) s4
  let s6 := if s.rekeying r then { s5 with adm := { s5.adm with recompute := true } } else s5
  ([F.TMU_RGN_MAP_BASE, F.TMU_RGN_MAP_SIZE, F.TMU_RGN_MAP_TYPE, F.TMU_RGN_MAP_STATE, F.TMU_RGN_MAP_RETAIN,
    F.TMU_RGN_MAP_OWNER, F.TMU_RGN_POLICY_DEF_CLASS, F.TMU_RGN_POLICY_LEVEL, F.TMU_RGN_POLICY_TIER,
    F.TMU_RGN_POLICY_HOME, F.TMU_RGN_POLICY_HOME_SLOT, F.TMU_RGN_POLICY_EXPORT_EN, F.TMU_RGN_POLICY_EXPORT_UNIT,
    F.TMU_RGN_MAPLOC_LOC, F.TMU_RGN_BUDGET_BUDGET, F.TMU_RGN_DIRTYCAP_DIRTY_CAP, F.TMU_RGN_RESERVE_RESERVE,
    F.TMU_RGN_USED_USED, F.TMU_RGN_THRESH_T1, F.TMU_RGN_THRESH_T2, F.TMU_RGN_THRESH_T3, F.TMU_RGN_THRESH_LEVEL,
    F.TMU_RGN_INIT_WATERMARK].foldl (fun s f => s.clr f r 0) s6).watchFree

/-- A request belongs to a region. -/
def State.inRegion (s : State) (q : Req) (r : Nat) : Bool :=
  match q.homeSlot with
  | some x => decide (x = r)
  | none => decide (s.rgnBase r ≤ q.addr ∧ q.addr < s.rgnBase r + s.rd F.TMU_RGN_MAP_SIZE r * 2 ^ 30)

/-- What was admitted when decode stopped is complete, promotions have installed, the sweep is over. -/
def State.quiet (s : State) (r : Nat) : Bool :=
  !s.tmu.moves.any (fun m => decide (m.slot = r)) && !s.tmu.waits.any (fun w => s.inRegion w.req r) &&
    !s.near.reads.any (fun x => s.inRegion x.req r) && !s.clx.reqs.any (fun f => s.inRegion f.req r) &&
    !s.dir.sweeps.any (fun e => decide (e.2 = .delete r)) &&
    !s.dir.busy.any (fun b => decide (s.rgnBase r ≤ b.line * 64 ∧
      b.line * 64 < s.rgnBase r + s.rd F.TMU_RGN_MAP_SIZE r * 2 ^ 30))

/-- A cleared region of Mem Clr is created again with the same attributes, DC_OFFER and its pending offers among them (R291);
the completed reset is on record once none is left. -/
def State.memClrNext (s : State) (r : Nat) (c : Spec) : State :=
  if s.hlx.memclr.any (fun e => e.2.contains r) then
    let s1 := match s.place c with
      | .ok (loc, s1) =>
        let s2 := s1.activate { c with offer := false } loc
        (match mget s.tmu.offers r with
         | some m => s2.setTmu { s2.tmu with offers := mput s2.tmu.offers r m }
         | none => s2)
      | .error _ => s.setTmu { s.tmu with offers := mdel s.tmu.offers r }
    s1.setHlx { s1.hlx with memclr := s1.hlx.memclr.map (fun e => (e.1, e.2.filter (fun x => decide (x ≠ r)))) }
  else s

/-- REGION_DELETE_DONE (R62 steps 3 and 4, R291). -/
def execRegionDeleteDone (slot : Nat) (s : State) : Result :=
  .next (if s.isDeleting slot ∧ s.quiet slot ∧ !s.inReset ∧ s.cry.halt = 0 then
    let c := s.specOf slot
    let gone := s.finishDelete slot
    let s1 := (gone.setTmu { gone.tmu with offers := match mget s.tmu.offers slot with
      | some m => if s.hlx.memclr.any (fun e => e.2.contains slot) then mput gone.tmu.offers slot m else gone.tmu.offers
      | none => gone.tmu.offers }).memClrNext slot c
    s1.bgDone 0xc002 slot rcSuccess (resultHeader 0 0)
  else s)

/-- The checks of a command that names a region's slot in its first four bytes. -/
def State.slotChecks (s : State) (r : Nat) (f : State → Ans) : Ans :=
  if 63 < r then .err 2 0
  else if s.rgnState r = 0 then .err 4 r
  else if s.slotHeld r ∨ s.isDeleting r then .err 0xc 1
  else f s

/-- REGION_DELETE. -/
def State.regionDelete (s : State) (src : MboxSrc) (p : List Byte) : State :=
  let r := numAt p 0 4
  s.background src 0xc002 4 (.perm 0) p r (fun s => s.slotChecks r (fun s => .ok (s.startDelete r) []))

/-- REGION_DELETE. -/
def execRegionDelete (src : MboxSrc) (payload : List (BitVec 8)) (s : State) : Result :=
  .next (s.regionDelete src payload)

/-- Firmware deletes a DC_OFFER region without owners and without pending offers (R285 step 4). -/
def State.dcExpire (s : State) (r : Nat) : State :=
  match mget s.tmu.offers r with
  | some m => if m = 0 ∧ s.owner r = 0 ∧ s.rgnState r ≠ 0 ∧ !s.isDeleting r then s.startDelete r else s
  | none => s

/-! ## Changes (REGION_SET, REGION_GRANT) -/

/-- The input bytes that REGION_SET may change. -/
def setBytes : List Nat := [2, 3, 4, 5, 8, 9, 10, 24, 25, 26, 27, 28, 29, 30]

/-- The offset of the first bad field of REGION_SET. LEVEL and TIER clamp (Table 2.9, R550). -/
def State.badSet (s : State) (p : List Byte) (r : Nat) : Option Nat :=
  let m := numAt p 60 4
  let on := fun (i : Nat) => m.testBit i
  let dc := (mget s.tmu.offers r).isSome
  let owner := leNat [if on 8 then p.getD 8 0 else BitVec.ofNat 8 (s.owner r),
    if on 9 then p.getD 9 0 else BitVec.ofNat 8 (s.owner r / 256)]
  ([(decide (63 < numAt p 0 1), 0), (on 2 && decide (15 < numAt p 2 1), 2), (on 5 && decide (4 ≤ numAt p 5 1), 5),
    ((on 8 || on 9) && ((decide (owner = 0) && !dc) || (decide (s.rgnType r = 4) && decide (countBits 16 owner ≠ 1)) ||
      s.oddOwner owner), 8),
    (on 10 && decide (15 < numAt p 10 1), 10),
    ((on 24 || on 25 || on 26 || on 27) && decide (s.rgnType r ≠ 2), 24)].find? (·.1)).map (·.2)
  |>.or (reservedAt p 31 29) |>.or
    (if (List.range 32).any (fun i => on i && !setBytes.contains i) then some 60 else none)

/-- A byte-selected new value of n bytes at a. -/
def chosen (p : List Byte) (a n old : Nat) : Nat :=
  leNat ((List.range n).map (fun i =>
    if (numAt p 60 4).testBit (a + i) then p.getD (a + i) 0 else BitVec.ofNat 8 (old / 256 ^ i)))

/-- OWNER changes; on a SHARED region a head that leaves is swept first (Table 9.5). -/
def State.setOwner (s : State) (r new : Nat) : State :=
  if s.rgnType r ≠ 3 then s.wrI F.TMU_RGN_MAP_OWNER r new
  else
    let old := s.owner r
    let leave := (bitList 16 old).filter (fun h => !new.testBit h)
    let slow := leave.filter (fun h => decide (s.ldCount h = 1))
    slow.foldl (fun s h => s.startSweep (.owner r h)) (s.wrI F.TMU_RGN_MAP_OWNER r (new ||| maskOf slow))

/-- The sectors of a region outside the retained sets: runs of tiles, or fixed slots. -/
def State.outside (s : State) (r : Nat) : List Nat :=
  (s.entries r).filter (fun t => decide (0 < (s.tme r t).len) && !s.inRetained (s.tme r t).loc)

/-- A demotion in flight holds a new run outside the retained sets, where its commit would put the tile. -/
def State.flyingOutside (s : State) (r : Nat) : Bool :=
  s.tmu.moves.any (fun m => decide (m.kind = .demote ∧ m.slot = r ∧ m.stage = .written ∧ 0 < m.len) && !s.inRetained m.loc)

/-- Some fixed slots lie outside the retained sets. -/
def State.fixedOutside (s : State) (r : Nat) : Bool :=
  s.fixedSlots r && ((mget s.tmu.fixed r).getD []).any (fun e => (s.bulk.sets.any (fun x =>
    !s.retained x.id && decide (e.1 < x.first + x.sectors ∧ x.first < e.1 + e.2))))

/-- RETAIN is set or cleared (R227). -/
def State.setRetain (s : State) (r : Nat) (on : Bool) : State :=
  let s1 := s.wrI F.TMU_RGN_MAP_RETAIN r (b2n on)
  let pend := s.rd F.BTC_RET_PEND_SLOT
  if on ∧ !s.rdb F.TMU_RGN_MAP_RETAIN r ∧ (!(s.outside r).isEmpty ∨ s.flyingOutside r ∨ s.fixedOutside r) then
    s1.wr F.BTC_RET_PEND_SLOT (setBit pend r)
  else if !on then s1.wr F.BTC_RET_PEND_SLOT (clrBit pend r)
  else s1

/-- TIER changes (R174, R175). -/
def State.setTier (s : State) (r new : Nat) : State :=
  let old := s.rd F.TMU_RGN_POLICY_TIER r
  let s1 := s.wrI F.TMU_RGN_POLICY_TIER r new
  if old = new ∨ s.nearOnly then s1
  else
    let s2 := if old = 1 then
        let s2 := (s1.entries r).foldl (fun s t =>
          if (s.tme r t).pinned then s.setTme r t { s.tme r t with pinned := false } else s) s1
        let s3 := s2.setNear { s2.near with ftes := s2.near.ftes.map (fun e =>
          if e.2.slot = r then (e.1, { e.2 with pin := false }) else e) }
        s3.setScr { s3.scr with pinWalks := mdel s3.scr.pinWalks r }
      else s1
    if new = 1 then s2.setScr { s2.scr with pinWalks := mput s2.scr.pinWalks r 0 }
    else if new = 2 then s2.setNear { s2.near with ftes := s2.near.ftes.map (fun e =>
      if e.2.slot = r ∧ e.2.state = .dirty then (e.1, { e.2 with first := true }) else e) }
    else s2

/-- Every field of REGION_SET that the mask selects, clamped (R22, R550). Thresholds lowered to USED or below it raise
ELASTIC_PRESSURE at once, the model's reading of R83 (log entry 104). -/
def State.applySet (s : State) (p : List Byte) (r : Nat) : State :=
  let m := numAt p 60 4
  let s1 := ((s.wrI F.TMU_RGN_POLICY_DEF_CLASS r (chosen p 2 1 (s.rd F.TMU_RGN_POLICY_DEF_CLASS r))).wrI
    F.TMU_RGN_POLICY_LEVEL r (min 9 (chosen p 3 1 (s.rd F.TMU_RGN_POLICY_LEVEL r)))).wrI
    F.TMU_RGN_POLICY_EXPORT_UNIT r (chosen p 10 1 (s.rd F.TMU_RGN_POLICY_EXPORT_UNIT r))
  let s2 := if m.testBit 5 then
      (s1.wrI F.TMU_RGN_POLICY_EXPORT_EN r (b2n (bitOf (numAt p 5 1) 1))).setRetain r (bitOf (numAt p 5 1) 0) else s1
  let s3 := s2.setTier r (min 2 (chosen p 4 1 (s2.rd F.TMU_RGN_POLICY_TIER r)))
  let t1 := clampTo 1 99 (chosen p 28 1 (s3.rd F.TMU_RGN_THRESH_T1 r))
  let t2 := max t1 (clampTo 1 99 (chosen p 29 1 (s3.rd F.TMU_RGN_THRESH_T2 r)))
  let t3 := max t2 (clampTo 1 99 (chosen p 30 1 (s3.rd F.TMU_RGN_THRESH_T3 r)))
  let s4 := ((s3.wrI F.TMU_RGN_THRESH_T1 r t1).wrI F.TMU_RGN_THRESH_T2 r t2).wrI F.TMU_RGN_THRESH_T3 r t3
  let cap := clampTo 1 16777215 (chosen p 24 4 (s4.rd F.TMU_RGN_DIRTYCAP_DIRTY_CAP r))
  let s5 := if s.rgnType r = 2 then
      ((s4.wrI F.TMU_RGN_DIRTYCAP_DIRTY_CAP r cap).wrI F.TMU_RGN_RESERVE_RESERVE r (reserveOf cap)).level r
        (s4.rd F.TMU_RGN_USED_USED r) else s4
  if m.testBit 8 ∨ m.testBit 9 then (s5.setOwner r (chosen p 8 2 (s.owner r))).dcExpire r else s5

/-- REGION_SET (R60, R81). -/
def State.regionSet (s : State) (src : MboxSrc) (p : List Byte) : State :=
  let r := numAt p 0 1
  s.avsar src 0xc003 64 (.perm 0) p (fun s =>
    if 63 < r then .err 2 0
    else if s.rgnState r = 0 then (match s.badSet p r with | some i => .err 2 i | none => .err 4 r)
    else match s.badSet p r with
      | some i => .err 2 i
      | none => s.slotChecks r (fun s =>
        let cap := clampTo 1 16777215 (chosen p 24 4 (s.rd F.TMU_RGN_DIRTYCAP_DIRTY_CAP r))
        let old := s.rd F.TMU_RGN_RESERVE_RESERVE r
        if s.rgnType r = 2 ∧ old < reserveOf cap ∧
            s.rd F.TMU_CAP_TOTAL_SECTORS < s.committed + reserveOf cap - old then .err 6 0
        else .ok (s.applySet p r) []))

/-- REGION_SET. -/
def execRegionSet (src : MboxSrc) (payload : List (BitVec 8)) (s : State) : Result := .next (s.regionSet src payload)

/-- BUDGET rises by n (R80, R86); the fence lifts below threshold 3. -/
def State.grant (s : State) (r n : Nat) : Option State :=
  if s.rd F.TMU_CAP_TOTAL_SECTORS < s.committed + n then none
  else some ((s.wrI F.TMU_RGN_BUDGET_BUDGET r (s.rd F.TMU_RGN_BUDGET_BUDGET r + n)).grantLift r)

/-- REGION_GRANT. -/
def State.regionGrant (s : State) (src : MboxSrc) (p : List Byte) : State :=
  let r := numAt p 0 4
  s.avsar src 0xc004 12 (.perm 0) p (fun s => s.slotChecks r (fun s =>
    if s.rgnType r ≠ 2 then .err 2 0
    else match s.grant r (numAt p 4 8) with
      | none => .err 6 0
      | some s1 => .ok s1 (leBytes 8 (s1.rd F.TMU_RGN_BUDGET_BUDGET r))))

/-- REGION_GRANT. -/
def execRegionGrant (src : MboxSrc) (payload : List (BitVec 8)) (s : State) : Result := .next (s.regionGrant src payload)

/-- REGION_QUERY: the slot's TMU page registers 0x040 to 0x078. -/
def State.regionQuery (s : State) (src : MboxSrc) (p : List Byte) : State :=
  let r := numAt p 0 4
  s.avsar src 0xc005 4 .free p (fun s =>
    if 63 < r then .err 2 0
    else if (match srcLd src with | some (h, l) => !s.admits h l r | none => false) then .err 0xe r
    else if s.slotHeld r then .err 0xc 1
    else .ok s ((List.range 8).flatMap (fun i => leBytes 8 (s.regWord 6 (1 + r) (0x40 + 8 * i)))))

/-- REGION_QUERY. -/
def execRegionQuery (src : MboxSrc) (payload : List (BitVec 8)) (s : State) : Result := .next (s.regionQuery src payload)

/-! ## Relocation into retained sets (R227) -/

/-- The fixed slots of a region cut at tiles with data and at rank sets: (place in tile order, sectors, whether the piece
moves); a piece without data moves when it lies in a set that leave selects. -/
def State.pieces (s : State) (r : Nat) (leave : RankSet → Bool) : List (Nat × Nat × Bool) :=
  let data := (s.entries r).filter (fun t => decide (0 < (s.tme r t).len))
  let iv := (mget s.tmu.fixed r).getD []
  let cuts := data.foldl (fun l t => l.flatMap (fun (e : Nat × Nat) =>
    let a := slotIn iv t
    if a < e.1 ∨ e.1 + e.2 ≤ a then [e]
    else [(e.1, a - e.1), (a, 64), (a + 64, e.1 + e.2 - (a + 64))].filter (fun x => decide (x.2 ≠ 0)))) iv
  let held := data.map (slotIn iv)
  (cuts.flatMap (fun e => s.bulk.sets.filterMap (fun x =>
    let lo := max e.1 x.first
    let hi := min (e.1 + e.2) (x.first + x.sectors)
    if lo < hi then some (lo, hi - lo, leave x && !held.contains e.1) else none)))

/-- Give the pieces that move the intervals taken for them, in order. -/
def assignSlots : List (Nat × Nat × Bool) → List (Nat × Nat) → List (Nat × Nat)
  | [], _ => []
  | (a, n, false) :: l, got => (a, n) :: assignSlots l got
  | (_, n, true) :: l, got =>
    let r := ivTake (fun _ => true) got n
    r.1 ++ assignSlots l r.2

/-- Fixed slots without data in the sets that leave selects are exchanged for other slots, in retained sets only where
retain holds; none when there are not enough. -/
def State.exchangeFixed (s : State) (r : Nat) (leave : RankSet → Bool) (retain : Bool) : Option State :=
  let ps := s.pieces r leave
  let go := ps.filter (fun x => x.2.2)
  if go.isEmpty then some s
  else (s.takeFixed retain ((go.map (fun x => x.2.1)).foldl (· + ·) 0)).map (fun got =>
    let iv := assignSlots ps got.1
    let s1 := got.2.setTmu { got.2.tmu with fixed := mput got.2.tmu.fixed r iv }
    let s2 := (s.entries r).foldl (fun s0 t =>
      if (s0.tme r t).len = 0 ∧ (s0.tme r t).loc ≠ slotIn iv t then s0.setTme r t { s0.tme r t with loc := slotIn iv t } else s0) s1
    go.foldl (fun s x => s.freeInterval x.1 x.2.1) s2)

/-- One tile of a region moves: its frame is demoted to a new run, or it is promoted first; the run of one whose frame stays
pinned is copied (R173, log entry 109). -/
def State.moveTile (s : State) (r tile : Nat) (purpose : Purpose) (e : Nat) : Option State :=
  match s.cacheGood r tile with
  | none => none
  | some s0 =>
    let t := s0.tme r tile
    if s0.keepsFrame r tile then
      if s0.underCopy t ∨ !s0.mayCopy r tile then none
      else (s0.alloc r (if s0.fixedSlots r then 64 else t.len)).bind (fun x => (x.2.admitInternal 13 4096).map (fun s1 =>
        (s1.copyRun r tile x.1 13).leaveInternal 13 false))
    else if t.nv then
      match s0.fte t.near with
      | some x =>
        (if x.state = FState.clean then s0.setFte t.near { x with state := .dirty } else s0).startDemotion t.near 13 purpose
          (some e)
      | none => none
    else s0.startPromotion r tile 13 purpose (some e)

/-- RETAIN_RELOCATION_DONE (R227): the bit clears once nothing lies outside the retained sets; until then the next tile is
moved. -/
def execRetainRelocationDone (slot : Nat) (s : State) : Result :=
  .next (if (s.rd F.BTC_RET_PEND_SLOT).testBit slot ∧ s.scarabRuns then
    match if s.fixedSlots slot then s.exchangeFixed slot (fun x => !s.retained x.id) true else some s with
    | none => s
    | some s1 =>
      let left := s1.outside slot
      if left.isEmpty ∧ !s1.flyingOutside slot ∧ !s1.tmu.moves.any (fun m => decide (m.slot = slot ∧ m.purpose = .relocate)) then
        s1.wr F.BTC_RET_PEND_SLOT (clrBit (s1.rd F.BTC_RET_PEND_SLOT) slot)
      else match left.find? (fun t => !s1.tmu.moves.any (fun m => decide (m.slot = slot ∧ m.tile = t))), s1.freeEngine with
        | some t, some e => (s1.moveTile slot t .relocate e).getD s1
        | _, _ => s1
  else s)

end Sys2Proof.Machine
end

