-- ==== Sys2Proof/Machine/Boot.lean ====
section
/-!
DEFINITION. Machine/Boot.lean: the fuse load, the boot ROM, the copy checks, memory training and the start of memory
service (R43 to R48, R134, R135, R209, R437 to R450, R510; 13_control_cluster_and_boot.md, 16_reset_clocks_time.md).
-/
namespace Sys2Proof.Machine

/-! ## Fuses (R510) -/

/-- The contents in force: a row that neither it nor its copy gave takes the safe default of Table 16.4. -/
def fusesLoaded (rows : List (Nat × FuseOutcome)) (f : Fuses) : Fuses :=
  let lost := fun r => rows.any (fun x => decide (x = (r, .dflt)))
  let d := fusesNone
  { trim := if lost 0 then d.trim else f.trim,
    grade := if lost 1 then d.grade else f.grade, sn := if lost 1 then d.sn else f.sn,
    badCores := if lost 2 then d.badCores else f.badCores, badCodec := if lost 2 then d.badCodec else f.badCodec,
    badCrypto := if lost 2 then d.badCrypto else f.badCrypto,
    badScarab := if lost 2 then d.badScarab else f.badScarab, badWays := if lost 2 then d.badWays else f.badWays,
    dirFailed := if lost 2 then d.dirFailed else f.dirFailed,
    keyFused := if lost 3 then d.keyFused else f.keyFused, keyHashes := if lost 3 then d.keyHashes else f.keyHashes,
    revoked := if lost 3 then d.revoked else f.revoked, minSvn := if lost 3 then d.minSvn else f.minSvn,
    romVer := f.romVer,
    pins := if lost 4 then d.pins else f.pins, perms := if lost 4 then d.perms else f.perms,
    secret := if lost 5 then d.secret else f.secret }

/-- Units of a kind by fuse (R126, R165, R188): the first act working units ACTIVE, the other working ones SPARE. -/
def State.fuseUnits (s : State) (k : Kind) (bad act : Nat) : State :=
  let good := (List.range k.n).filter (fun p => !bad.testBit p)
  (List.range k.n).foldl (fun s p => s.wrI k.state p
    (if bad.testBit p then 4 else if (good.take act).contains p then 1 else 3)) s

/-- The cores by fuse (R436, R437): C14 and C15 SPARE; a spare boots in place of a defective C0. -/
def State.fuseCores (s : State) (bad : Nat) : State :=
  let s1 := (List.range 16).foldl (fun s n => s.wrI F.CTL_CORE_CTL_STATE n
    (if bad.testBit n then 4 else if n < 14 then 1 else 3)) s
  match bootOrder.find? (fun n => !bad.testBit n) with
  | some n =>
    let s2 := (s1.wr F.CTL_BOOT_BOOT_CORE n).wrI F.CTL_CORE_CTL_STATE n 1
    if n = 0 then s2 else s2.noteCore 0 n
  | none => s1

/-- The directory ways of a bank by fuse: the spare way stands in for a defective one. -/
def waysOf (bad : Nat) : Nat :=
  let good := (List.range 17).filter (fun w => !bad.testBit w)
  maskOf (good.take 16)

/-- The permissions of the fuse map (R293). -/
def State.fusePerms (s : State) (l : List (Nat × Nat)) : State :=
  l.foldl (fun s x => (((s.wrb F.HLX_HEAD_PERM_FM x.1 (x.2.testBit 0)).wrb F.HLX_HEAD_PERM_KEYLOAD x.1
    (x.2.testBit 1)).wrb F.HLX_HEAD_PERM_DIAG x.1 (x.2.testBit 2)).wrb F.HLX_HEAD_PERM_PERF_USER x.1 (x.2.testBit 3)) s

/-- Everything that takes its value from the fuses. -/
def State.applyFuses (s : State) (f : Fuses) : State :=
  let s1 := ({ s with fuses := f }).fuseCores f.badCores
  let s2 := ((s1.fuseUnits cdcKind f.badCodec 16).fuseUnits cryKind f.badCrypto 48).fuseUnits scrKind f.badScarab 32
  let s3 := (List.range 16).foldl (fun s n =>
    let bad := f.badWays.getD n 0
    (s.wrI F.DIR_BANK_WAYS_ACTIVE n (waysOf bad)).wrI F.DIR_BANK_WAYS_FAILED n (bad % 2 ^ 17)) s2
  let s4 := if f.dirFailed then (s3.wr F.DIR_STATUS_OFFLINE 1).raise cDirOffline else s3
  let s5 := ((s4.wr F.CTL_FUSE_SVN_MIN_SVN f.minSvn.toNat).wr F.CTL_FUSE_SVN_REVOKED f.revoked).wr F.AON_PIN_STATE f.pins
  (s5.fusePerms f.perms).watchUnits

/-- The start-up tests of the random source (R135): three failed runs leave the unit without a root key. -/
def State.trngStart (s : State) (fails : Nat) : State :=
  if 3 ≤ fails then s.raise cTrngFault else s.wr F.CRY_MODE_TRNG_OK 1

/-- Reset causes that waited for the fuse load act (R511): 1 is a cold reset, the others warm causes. -/
def State.actWaiting (s : State) : State :=
  let l := s.aon.waiting
  let s1 := s.setAon { s.aon with waiting := [] }
  if l.contains 1 then s1.cold false false else l.foldl (fun s c => s.warm c 0) s1

/-- FUSE_LOAD_DONE. -/
def execFuseLoadDone (rows : List (Nat × FuseOutcome)) (fuses : Fuses) (trngFails : Nat) (s : State) : Result :=
  .next (if !s.aon.loading then s
    else
      let of := fun k => maskOf ((rows.filter (fun x => decide (x.2 = k ∧ x.1 < 6))).map (·.1))
      let s1 := s.setAon { s.aon with loading := false, loaded := true }
      let s2 := (s1.wr F.AON_FUSE_STS_COPY (of .copy)).wr F.AON_FUSE_STS_DEFAULT (of .dflt)
      let s3 := if of .dflt = 0 then s2 else s2.raise cFuseDegraded
      ((s3.applyFuses (fusesLoaded rows fuses)).trngStart trngFails).actWaiting)

/-! ## Flash (R442 to R447) -/

/-- Flash bytes. -/
def State.flash (s : State) (a n : Nat) : List Byte := memReadN 0xff s.ctl.flash a n

/-- Flash is written; with erase, 64 KiB from a on are erased first. -/
def State.flashWrite (s : State) (a : Nat) (bs : List Byte) (erase : Bool) : State :=
  let m := if erase then s.ctl.flash.filter (fun c => decide (c.1 < a ∨ a + 65536 ≤ c.1)) else s.ctl.flash
  s.setCtl { s.ctl with flash := memWrite 0xff m a bs }

/-- A flash descriptor (Table 13.3). -/
structure Desc where
  seq : Nat
  prefer : Nat
  trial : Bool
  tried : Bool
  deriving DecidableEq, Repr

/-- Its 64 bytes. -/
def Desc.bytes (d : Desc) : List Byte :=
  let b := [0x50, 0x4e, 0x56, 0x44] ++ leBytes 4 d.seq ++ leBytes 1 d.prefer ++ leBytes 1 (b2n d.trial + 2 * b2n d.tried) ++
    leBytes 50 0
  b ++ leBytes 4 (crc32c b).toNat

/-- The descriptor that 64 bytes hold, when it is valid (R443). -/
def descOf (b : List Byte) : Option Desc :=
  if bytesAt b 0 4 = [0x50, 0x4e, 0x56, 0x44] ∧ numAt b 60 4 = (crc32c (bytesAt b 0 60)).toNat then
    some { seq := numAt b 4 4, prefer := numAt b 8 1 % 2, trial := bitOf (numAt b 9 1) 0, tried := bitOf (numAt b 9 1) 1 }
  else none

/-- The descriptor of a slot. -/
def State.descAt (s : State) (slot : Nat) : Option Desc := descOf (s.flash (65536 * slot) 64)

/-- The slot in force and its descriptor (R446 step 1); without a valid one PREFER 0 and no flag, and the next write goes
to slot 0. -/
def State.descNow (s : State) : Nat × Desc :=
  match s.descAt 0, s.descAt 1 with
  | some a, some b => if a.seq < b.seq then (1, b) else (0, a)
  | some a, none => (0, a)
  | none, some b => (1, b)
  | none, none => (1, { seq := 0, prefer := 0, trial := false, tried := false })

/-- A descriptor is written to the slot that does not hold the one in force, with the next SEQ (R447). -/
def State.writeDesc (s : State) (prefer : Nat) (trial tried : Bool) : State :=
  let (slot, d) := s.descNow
  let d1 : Desc := { seq := (d.seq + 1) % 2 ^ 32, prefer := prefer, trial := trial, tried := tried }
  s.flashWrite (65536 * (1 - slot)) d1.bytes true

/-- The first byte of a copy. -/
def copyBase (copy : Nat) : Nat := if copy = 0 then 0x100000 else 0x900000

/-- The reserved bytes of a header are zero. -/
def headerZero (h : List Byte) : Bool :=
  [(0x19, 7), (0x50, 16), (0xc0, 64), (0x160, 160)].all (fun r => (bytesAt h r.1 r.2).all (fun b => decide (b = 0)))

/-- The first of checks 4 to 8 of Table 13.5 that a copy fails; 0 when it passes them. -/
def checkKeys (f : Fuses) (h body : List Byte) : Nat :=
  let k := numAt h 0x18 1
  let pub := bytesAt h 0x60 96
  if 4 ≤ k ∨ !f.keyFused.testBit k ∨ f.revoked.testBit k then 4
  else if f.keyHashes[k]? ≠ some (sha384 pub) then 5
  else if !ecdsaVerify pub (bytesAt h 0x100 96) (sha384 (bytesAt h 0 256)) then 6
  else if beNat (bytesAt h 0x20 48) ≠ (sha384 (bytesAt body 0 (numAt h 0x10 4))).toNat then 7
  else if numAt h 0xc 4 < f.minSvn.toNat then 8
  else 0

/-- The code of the first check of Table 13.5 that a copy fails; 0 when it passes them all. -/
def checkCopy (f : Fuses) (h body : List Byte) (readErr : Bool) : Nat :=
  let len := numAt h 0x10 4
  if bytesAt h 0 4 ≠ [0x50, 0x4e, 0x56, 0x41] ∨ numAt h 4 2 ≠ 1 ∨ !headerZero h then 1
  else if numAt h 6 2 ≠ 0x9144 then 2
  else if len % 64 ≠ 0 ∨ len < 64 ∨ 8388096 < len ∨ len ≤ numAt h 0x14 4 then 3
  else if checkKeys f h body ≠ 0 then checkKeys f h body
  else if readErr then 9
  else 0

/-- The check of a copy in flash. -/
def State.checkFlash (s : State) (copy : Nat) (readErr : Bool) : Nat :=
  let h := s.flash (copyBase copy) 512
  checkCopy s.fuses h (s.flash (copyBase copy + 512) (min 8388096 (numAt h 0x10 4))) readErr

/-! ## The boot ROM (R446, R448) -/

/-- The boot core in force, and whether it can run. -/
def State.bootCore (s : State) : Nat := s.rd F.CTL_BOOT_BOOT_CORE
def State.bootCoreOk (s : State) : Bool := decide (s.coreState s.bootCore = 1 ∨ s.coreState s.bootCore = 3)

/-- BOOT_CORE_ALIVE_TIMEOUT: the boot core is passed over and marked FAILED; the next one is released. -/
def execBootCoreAliveTimeout (s : State) : Result :=
  .next (if s.inReset ∨ !s.aon.loaded ∨ s.ctl.alive ∨ !s.bootCoreOk then s
    else
      let n := s.bootCore
      let s1 := (s.wrI F.CTL_CORE_CTL_STATE n 4).setCtl { s.ctl with passed := ninsert s.ctl.passed n }
      match (bootOrder.dropWhile (fun k => decide (k ≠ n))).find? (fun k => decide (k ≠ n ∧ s.coreState k ≠ 4)) with
      | some k =>
        let s2 := (s1.wr F.CTL_BOOT_BOOT_CORE k).wrI F.CTL_CORE_CTL_STATE k 1
        if s.coreState k = 3 then s2.noteCore n k else s2
      | none => s1)

/-- BOOT_ROM: steps 1 to 3 of R446, and step 4 begins. -/
def execBootRom (s : State) : Result :=
  .next (if s.inReset ∨ !s.aon.loaded ∨ s.ctl.romRan ∨ !s.bootCoreOk then s
    else
      let s0 := s.wrI F.CTL_CORE_CTL_STATE s.bootCore 1
      let d := s0.descNow.2
      let s1 := if d.trial ∧ d.tried then
          (s0.writeDesc (1 - d.prefer) false false).setCtl
            { (s0.writeDesc (1 - d.prefer) false false).ctl with revertDue := true }
        else if d.trial then s0.writeDesc d.prefer true true
        else s0
      (s1.setCtl { s1.ctl with alive := true, romRan := true, checking := some s1.descNow.2.prefer, firstTry := true }).wr
        F.CTL_HEALTH_STATE 1)

/-- A copy runs (R446 step 4, R450, Table 13.6 steps 3 to 5): its header is noted, the roles are placed, the watchdog
starts, and at a cold reset the root key is drawn (R134). -/
def State.runCopy (s : State) (copy : Nat) (h : List Byte) : State :=
  let s1 := (((s.wr F.CTL_BOOT_COPY copy).wr F.CTL_FW_VER_VERSION (numAt h 8 4)).wr F.CTL_FW_VER_SVN (numAt h 0xc 4)).wr
    F.CTL_HEALTH_STATE 2
  let s2 := s1.setCtl { s1.ctl with header := h, checking := none, wdtRuns := true, beats := [], moves := [] }
  let s3 := if s2.ctl.revertDue then (s2.raise cFwReverted).setCtl { (s2.raise cFwReverted).ctl with revertDue := false }
    else s2
  let s4 := s3.placeRoles
  if s4.cry.root.isNone ∧ s4.rdb F.CRY_MODE_TRNG_OK ∧ !s4.aon.seenActive then
    (s4.setCry { s4.cry with root := some (Config.rootKey s4.draw) }).drawn
  else s4

/-- FLASH_COPY_CHECKED: an accepted copy runs; after a rejected one the other is checked, then recovery (R450). -/
def execFlashCopyChecked (copy : Nat) (readErr : Bool) (s : State) : Result :=
  .next (if s.inReset ∨ s.ctl.checking ≠ some copy ∨ 2 ≤ copy then s
    else
      let code := s.checkFlash copy readErr
      if code = 0 then
        let s1 := s.runCopy copy (s.flash (copyBase copy) 512)
        if s.ctl.firstTry then s1.wr F.CTL_BOOT_TRIAL (b2n s.descNow.2.trial)
        else (s1.wr F.CTL_BOOT_FALLBACK 1).raise cFwFallback
      else
        let s1 := s.wr (if copy = 0 then F.CTL_BOOT_REJ_A else F.CTL_BOOT_REJ_B) code
        if s.ctl.firstTry then s1.setCtl { s1.ctl with checking := some (1 - copy), firstTry := false }
        else ((s1.setCtl { s1.ctl with checking := none }).wr F.CTL_HEALTH_STATE 4).raise cFwRecovery)

/-! ## Memory training (R209, R212, R47) -/

/-- An active near position is FAILED or lies on a lost die. -/
def State.nearBroken (s : State) : Bool :=
  (bitList 16 (s.rd F.NTC_CONFIG_POS_ACTIVE)).any (fun p =>
    s.rdb F.NTC_CH_CTL_FAILED (2 * p) || s.rdb F.NTC_CH_CTL_FAILED (2 * p + 1) || (s.rd F.AON_D2D_LOST).testBit (2 + p / 8))

/-- An active bulk channel is FAILED, has a failed DIMM, or lies on a lost die. -/
def State.bulkBroken (s : State) : Bool :=
  s.bulkChans.any (fun c =>
    s.rdb F.BTC_SC_CTL_FAILED (2 * c) || s.rdb F.BTC_SC_CTL_FAILED (2 * c + 1) ||
      s.rdb F.BTC_DIMM_PMIC_FAULT (2 * c) || s.rdb F.BTC_DIMM_PMIC_FAULT (2 * c + 1) ||
      (s.rd F.AON_D2D_LOST).testBit (c / 8))

/-- A region becomes LOST (R61). -/
def State.loseRegion (s : State) (r : Nat) : State :=
  if s.rgnState r = 0 ∨ s.rgnState r = 3 then s
  else (s.wrI F.TMU_RGN_MAP_STATE r 3).raise cRegionLost (region := some r)

/-- The error log restarts empty with a LOG_RESTART record (R269): cause 1 cold, 2 P3, 3 edge die. -/
def State.restartLog (s : State) (cause : Nat) : State :=
  let s1 := (s.wr F.RAS_LOG_PROD 0).wr F.RAS_LOG_CONS 0
  (s1.setRas { s1.ras with log := [], lost := [], seq := 0, fullRaised := false }).log 0x0f { detail := cause }

/-- The frames of the near rows that are withheld, in the present layout. -/
def State.rewithhold (s : State) : State :=
  let rows := (s.nearChans.flatMap (fun c => (List.range 64).filterMap (fun k =>
    if s.rdb F.RAS_REMAP_VALID c k && s.rdb F.RAS_REMAP_WITHHELD c k then
      some (s.rowFrames (s.rd F.RAS_REMAP_BANK c k) (s.rd F.RAS_REMAP_ROW c k)) else none))).flatten
  let s1 := s.setNear { s.near with withheld := rows.foldl ninsert [] }
  s1.wr F.RAS_WITHHELD_FRAMES s1.near.withheld.length

/-- The loss of near channels (Table 1.11, E2 and E3): every tile with a frame is poisoned and its NEAR cleared, SHARED
regions are LOST, the error log restarts. Where the unit had no bulk tier every tile's bytes lie in the frames that are
gone; Table 1.11 names only tiles whose NEAR is valid, so that every region is LOST then is the model's choice (log entry
117). -/
def State.nearLoss (s : State) : State :=
  let keys := ((s.tmu.map.map (·.1)) ++ (s.tmu.cache.map (·.1))).foldl ninsert []
  let s1 := keys.foldl (fun s k =>
    let t := s.tme (keySlot k) (keyTile k)
    if t.nv then (s.setTme (keySlot k) (keyTile k) { t with nv := false, near := 0 }).poisonTile (keySlot k) (keyTile k)
    else s) s
  let s2 := s1.setNear { s1.near with mem := [], marks := [], ftes := [], reads := [] }
  let s3 := (List.range 64).foldl (fun s r => if s.rgnType r = 3 ∨ s.selNearOnly then s.loseRegion r else s) s2
  s3.restartLog 3

/-- The loss of bulk channels (Table 1.11, E0 and E1): every region is LOST and its map gone. -/
def State.bulkLoss (s : State) : State :=
  let s1 := (List.range 64).foldl (fun s r => s.loseRegion r) s
  let gone := (List.range 64).filter (fun r => decide (s1.rgnState r ≠ 0))
  let s2 := s1.setTmu { s1.tmu with
    map := [], cache := [], fixed := [], pools := [], freeIv := [], retired := [], withheld := [], mapFree := [],
    orphans := gone }
  let s3 := s2.setBulk { s2.bulk with mem := [], marks := [] }
  s3.setNear { s3.near with ftes := [], marks := [] }

/-- A live tile's run or fixed slot leaves the area: its stored bytes are copied to a new run, an empty slot only moves; a
tile that finds no room loses its region. That the tiles of the area are moved is the model's choice (log entry 118). -/
def State.moveAside (s : State) (r t : Nat) : State :=
  let e := s.tme r t
  if s.fixedSlots r then
    match s.takeFixed (s.rdb F.TMU_RGN_MAP_RETAIN r) 64 with
    | some ((a, _) :: _, s1) => if e.len = 0 then s1.moveSlot r t a else s1.copyRun r t a 13
    | _ => s.loseRegion r
  else match s.alloc r e.len with
    | some (a, s1) => s1.copyRun r t a 13
    | none => s.loseRegion r

/-- The tiles of a region whose run or slot lies among n sectors from a. -/
def State.areaTiles (s : State) (a n r : Nat) : List Nat :=
  let inA := fun x => decide (a ≤ x ∧ x < a + n)
  if s.rgnState r = 0 ∨ s.rgnState r = 3 then []
  else if s.fixedSlots r then
    (List.range (s.rgnTiles r)).filter (fun t => inA (slotIn ((mget s.tmu.fixed r).getD []) t))
  else (s.entries r).filter (fun t => decide ((s.tme r t).len ≠ 0) && inA (s.tme r t).loc)

/-- The free sectors among n from a leave the allocator. -/
def State.shutArea (s : State) (a n : Nat) : State :=
  (s.setTmu { s.tmu with freeIv := ivRemove s.tmu.freeIv a n }).keepRuns (fun x => decide (x < a ∨ a + n ≤ x))

/-- The frame area of bulk-only mode is set apart in a bulk tier that is in use: its free sectors leave the allocator, what
live tiles hold in it moves out. -/
def State.setApart (s : State) : State :=
  if !s.selBulkOnly ∨ s.bulkOnly then s
  else
    let raw := s.rawSectors
    let s1 := s.wr F.SCR_FRAMES_TOTAL (bulkFrames raw)
    let a := s1.frameBase
    let n := frameArea (bulkFrames raw)
    let s2 := s1.shutArea a n
    let s3 := (List.range 64).foldl (fun s r => (s.areaTiles a n r).foldl (fun s t => s.moveAside r t) s) s2
    let s4 := s3.shutArea a n
    s4.wr F.TMU_CAP_TOTAL_SECTORS (s4.rd F.TMU_CAP_TOTAL_SECTORS - n)

/-- What training finds takes effect: at a cold reset everything is laid out afresh; after a loss only what was lost. -/
def State.applyTraining (s : State) (r : TrainResult) : State :=
  if !s.aon.seenActive then ((s.layNear r).layBulk r).laySpace.enterModes
  else
    let near := s.nearBroken
    let s1 := if s.bulkBroken then ((s.bulkLoss).layBulk r).laySpace else s
    let s2 := if near then ((s1.nearLoss.layNear r).setApart).rewithhold else s1
    s2.enterModes.watchService

/-- Serial numbers of the DIMMs are kept to be compared after P3 (R229). -/
def serialsOf (l : List DimmInfo) : List (Nat × BitVec 32) := l.foldl (fun m d => mput m (2 * d.ch + d.slot) d.serial) []

/-- The PHY clocks of every die that is linked are qualified (R519, Table 16.8). -/
def State.memClocks (s : State) : Bool :=
  (List.range 4).all (fun k => (s.rd F.AON_D2D_LOST).testBit k || s.aon.pllOk.testBit (2 + k))

/-- MEMORY_TRAINING_DONE. A warm boot, or an exit from P3, that kept the tiers as they were only recentres from the saved
values (R210) and finds anew which sideband buses stay slow (R222). -/
def execMemoryTrainingDone (result : TrainResult) (s : State) : Result :=
  .next (if s.inReset ∨ s.rd F.CTL_HEALTH_STATE ≠ 2 ∨ !s.memClocks then s
    else if s.ctl.trained then s.wr F.BTC_SB_SLOW result.slow.toNat
    else
      let s1 := (s.applyTraining result).wr F.BTC_SB_SLOW result.slow.toNat
      let s2 := s1.setMem { s1.mem with serials := serialsOf result.dimms }
      (s2.setCtl { s2.ctl with trained := true }).saveTraining)

/-! ## Memory service (Table 13.6 steps 7 and 8) -/

/-- MEM_ACTIVE: the blocks are locked (R537), the log restarts after a cold reset and takes the core substitutions of the boot, a trial is confirmed (R449), CXL.mem is
accepted; nothing happens in the no-service condition (R44). -/
def execMemActive (s : State) : Result :=
  .next (if s.inReset ∨ s.aon.quiescing ∨ s.rd F.CTL_HEALTH_STATE ≠ 2 ∨ !s.ctl.trained ∨ s.noService ∨ s.cry.halt ≠ 0 then s
    else
      let s1 := (if s.aon.seenActive then s else s.restartLog 1).recordCores
      let s2 := (List.range 15).foldl (fun s b => s.wr (F.BLK_CTL_LOCK b) 1) s1
      let s3 := ((s2.wr F.NTC_SR_STATE 0).wr F.BTC_SR_STATE 0).setMem { s2.mem with entry := 0, bulkIn := false, nearIn := false }
      let s4 := ((s3.wr F.CTL_HEALTH_STATE 3).wr F.CTL_HEALTH_MEM_ACTIVE 1).setAon { s3.aon with seenActive := true }
      let s5 := if s4.rdb F.CTL_BOOT_TRIAL then (s4.writeDesc s4.descNow.2.prefer false false).raise cFwActivated else s4
      (s5.enterModes).raise cResetCause)

end Sys2Proof.Machine
end

