-- ==== Sys2Proof/Machine/ChainFar.lean ====
section
/-!
DEFINITION. Machine/ChainFar.lean: far requests at the home and at the requester (R37, R38, R420 to R429, R435;
12_chain_links.md).
-/
namespace Sys2Proof.Machine

/-! ## Delivery -/

/-- The LDs that a cause about unit h concerns (R435): the owners of the FAR regions whose HOME it is. -/
def State.farHeads (s : State) (h : Nat) : List (Nat × Option Nat) :=
  ((List.range 64).filter (fun r => decide (s.rgnState r ≠ 0 ∧ s.rgnType r = 4 ∧ s.rd F.TMU_RGN_POLICY_HOME r = h))).flatMap
    (fun r => (bitList 16 (s.owner r)).flatMap (fun g => (s.ldsFor g (some r) none).map (fun x => (x.1, some x.2))))

/-- A chain cause about unit h. -/
def State.raiseFar (s : State) (bit h : Nat) : State := s.raise (cFar bit) (heads := s.farHeads h)

/-! ## The link buffer -/

/-- A message leaves the link buffer of port p: its credit is counted as freed (R415). -/
def State.freeCredit (s : State) (p : Nat) (m : Msg) : State :=
  s.setClp p { s.clp p with freed := (s.clp p).freed.add m }

/-- The port receives messages: its link is ACTIVE and CLX is not being reset. -/
def State.clTakes (s : State) (p : Nat) : Bool := s.clSends p && !s.aon.blocks.contains 3

/-! ## The home (R426, R427, R429) -/

/-- The home's side of a pair. -/
def State.pair (s : State) (src : Nat) : HomePair :=
  (mget s.clx.home src).getD { accepted := 0, applied := 0, tokens := [] }
def State.setPair (s : State) (src : Nat) (x : HomePair) : State :=
  s.setClx { s.clx with home := mput s.clx.home src x }

/-- s ≤ LAST (R426). -/
def seqLe (a last : Nat) : Bool := decide ((last + 2 ^ 32 - a % 2 ^ 32) % 2 ^ 32 < 2 ^ 31)

/-- The place of a sequence number in the maps: 0 stands for LAST + 1. -/
def seqAt (a last : Nat) : Nat := (a + 2 ^ 33 - last - 1) % 2 ^ 32

/-- The request that a far message is at the home. -/
def State.homeReq (s : State) (p : Nat) (kind : ReqKind) (m : Msg) : Req :=
  { id := 0, kind := kind, org := .far p m.src m.tag m.seq, ing := 16 + p, raw := m.line * 64, addr := m.line * 64, bad := 0,
    mv := .invalid, cls := m.cls, key := m.key, homeSlot := some (m.stat % 64), data := m.data, be := m.be,
    poison := m.poison, snooped := false, at_ := s.nowNs, unit := 0, hold := none, err := .none }

/-- A far read at the home (R37): it waits for admission. -/
def State.takeRead (s : State) (p : Nat) (m : Msg) : State := s.present { s.homeReq p .read m with be := BitVec.allOnes 64 }

/-- A far write at the home (Table 12.12). -/
def State.takeWrite (s : State) (p : Nat) (kind : ReqKind) (m : Msg) : State :=
  let last := s.rd F.CLX_PEER_RX_LAST m.src
  let i := seqAt m.seq last
  let x := s.pair m.src
  if !s.rdb F.CLX_PEER_RX_SYNCED m.src then s.farWriteRsp m.src m.tag 2 m.seq
  else if seqLe m.seq last ∨ (i < 256 ∧ x.applied.testBit i) then
    (s.bump F.CLX_PEER_CNT_DUP m.src).farWriteRsp m.src m.tag 0 m.seq
  else if i < 256 then
    if x.accepted.testBit i then s.bump F.CLX_PEER_CNT_DUP m.src
    else (s.setPair m.src { x with accepted := setBit x.accepted i }).present
      { s.homeReq p kind m with be := if kind = .write then BitVec.allOnes 64 else m.be }
  else (s.bump F.CLX_PEER_CNT_GAP m.src).raiseFar 11 m.src

/-- SYNC_ACK goes back. -/
def State.syncAck (s : State) (src tag base : Nat) : State := s.sendMsg { s.msgTo 0x14 src with tag := tag, seq := base }

/-- A SYNC whose token was not seen before: the maps empty, a new base (R429 step 3). -/
def State.newSync (s : State) (src tag token : Nat) : State :=
  let base := (s.rd F.CLX_PEER_RX_LAST src + 512) % 2 ^ 32
  let s1 := s.setPair src { accepted := 0, applied := 0, tokens := mput (s.pair src).tokens token base }
  ((s1.wrI F.CLX_PEER_RX_LAST src ((base + 2 ^ 32 - 1) % 2 ^ 32)).wrI F.CLX_PEER_RX_SYNCED src 1).syncAck src tag base

/-- SYNC at the home (R429 step 3): a token seen from that requester, however long ago, gets the BASE it got then. -/
def State.takeSync (s : State) (m : Msg) : State :=
  match mget (s.pair m.src).tokens m.seq with
  | some base => s.syncAck m.src m.tag base
  | none => s.newSync m.src m.tag m.seq

/-- LAST advances while the bit for LAST + 1 is set in APPLIED (R427). -/
def State.advanceLast : Nat → State → Nat → State
  | 0, s, _ => s
  | fuel + 1, s, src =>
    let x := s.pair src
    if x.applied.testBit 0 then
      State.advanceLast fuel ((s.setPair src { x with applied := x.applied / 2, accepted := x.accepted / 2 }).wrI
        F.CLX_PEER_RX_LAST src ((s.rd F.CLX_PEER_RX_LAST src + 1) % 2 ^ 32)) src
    else s

/-- A far write has been applied (R427): the map, LAST, the response, and its place in ADM. -/
def State.farApplied (s : State) (d : FarDone) : State :=
  let s1 := s.setClx { s.clx with done := s.clx.done.erase d }
  let x := s1.pair d.src
  let last := s1.rd F.CLX_PEER_RX_LAST d.src
  let i := seqAt d.seq last
  let s2 := if seqLe d.seq last ∨ 256 ≤ i then s1
    else State.advanceLast 256 (s1.setPair d.src { x with applied := setBit x.applied i }) d.src
  let s3 := s2.farWriteRsp d.src d.tag d.status d.seq
  if d.unit = 0 then s3 else (s3.outSub (16 + d.port) d.cls 1).leaveUnit d.unit

/-- FAR_WRITE_APPLIED. -/
def execFarWriteApplied (src seq : Nat) (s : State) : Result :=
  .next (match s.clx.done.find? (fun d => decide (d.src = src ∧ d.seq = seq)) with
    | some d => if s.inReset ∨ s.cry.halt ≠ 0 then s else s.farApplied d
    | none => s)

/-! ## The requester -/

/-- A tag is abandoned (R420). -/
def State.killTag (s : State) (tag : Nat) : State :=
  s.setClx { s.clx with deadTags := s.deadNow ++ [(tag, s.nowNs)] }

/-- The wait of R421 ends for the homes whose old route owes no answer any more; then what may go goes. -/
def State.farSettle (s : State) : State :=
  (s.setClx { s.clx with held := s.clx.held.filter (fun e =>
    decide (e.2 = 3) || s.farSent.any (fun f => decide (f.home = e.1 ∧ f.port = e.2))) }).farPump

/-- Send an outstanding request again on the current route (R420, R423): a read under a new tag, a write with its own
sequence number. -/
def State.farResend (s : State) (f : FarOut) : State :=
  let r := s.route f.home
  if r ≠ 1 ∧ r ≠ 2 then s
  else if f.isWrite then
    let f1 := { f with port := r }
    let s1 := s.setFar f1
    s1.sendMsg (s1.farMsg f1)
  else
    let s0 := s.killTag f.tag
    let t := s0.freshTag
    let f1 := { f with port := r, tag := t }
    let s1 := s0.setFar f1
    let s2 := s1.setClx { s1.clx with nextTag := (t + 1) % 2 ^ 16 }
    s2.sendMsg (s2.farMsg f1)

/-- Every outstanding request to a home goes again: the reads, then the writes in sequence order (R420). -/
def State.rerouteHome (s : State) (h : Nat) : State :=
  let mine := s.farSent.filter (fun f => decide (f.home = h))
  (mine.filter FarOut.isWrite).foldl State.farResend ((mine.filter (fun f => !f.isWrite)).foldl State.farResend s)

/-- The answer of a far read reaches its request. -/
def State.farReadDone (s : State) (f : FarOut) (poison : Bool) (v : Line) (fault : Option (Nat × Nat)) : State :=
  let s1 := s.dropFar f.id
  match f.req.org with
  | .job id what off => s1.jobRead id what off (f.req.addr / 64) (if poison then 0 else v) poison fault
  | _ => s1.answerRead f.req (poison || fault.isSome) v

/-- The answer of a far write reaches its request. -/
def State.farWriteDone (s : State) (f : FarOut) (fault : Option (Nat × Nat)) : State :=
  let s1 := s.dropFar f.id
  match f.req.org with
  | .job id what off => s1.jobWrote id what off (f.req.addr / 64) fault
  | _ => s1.answerWrite f.req

/-- A far write is dropped (R423): counted, recorded, raised, completed; the pair is to be synchronized. -/
def State.dropWrite (s : State) (f : FarOut) : State :=
  let slot := s.anyRegion f.req.addr
  let off := match slot with | some r => f.req.addr - s.rgnBase r | none => 0
  let s1 := (s.bump F.CLX_PEER_CNT_DROPPED f.home).log 0x0d
    { slot := slot, tile := off / 4096, line := off / 64 % 64, detail := f.home + 2 ^ 32 * f.seq, blk := some 3 }
  ((s1.raiseFar 9 f.home).farWriteDone f (some (4, 2))).wrI F.CLX_PEER_TX_SYNCED f.home 0

/-- WR_RSP NEED_SYNC (R428): every unconfirmed write to the home is dropped; then the requester synchronizes. -/
def State.needSync (s : State) (h : Nat) : State :=
  let s1 := s.raiseFar 10 h
  let s2 := ((s1.unconf h).foldl State.dropWrite s1).wrI F.CLX_PEER_TX_SYNCED h 0
  s2.startSync h

/-- RD_RSP at the requester; a response bearing a tag that is not outstanding is discarded (R420). -/
def State.takeReadRsp (s : State) (m : Msg) : State :=
  match s.farSent.find? (fun f => decide (f.tag = m.tag ∧ f.home = m.src) && !f.isWrite) with
  | some f => (s.farReadDone f (m.poison || decide (m.stat ≠ 0)) m.data (if m.stat = 0 then none else some (4, 1))).farSettle
  | none => s

/-- WR_RSP at the requester (R425, R428). -/
def State.takeWriteRsp (s : State) (m : Msg) : State :=
  match s.farSent.find? (fun f => decide (f.tag = m.tag ∧ f.home = m.src ∧ f.seq = m.seq) && f.isWrite) with
  | some f =>
    if m.stat = 2 then (s.needSync m.src).farSettle
    else (s.farWriteDone f (if m.stat = 0 then none else some (4, 2))).farSettle
  | none => s

/-- SYNC_ACK at the requester (R429 step 4). -/
def State.takeSyncAck (s : State) (m : Msg) : State :=
  match mget s.clx.syncs m.src with
  | some _ =>
    let s1 := s.setClx { s.clx with syncs := mdel s.clx.syncs m.src }
    ((s1.wrI F.CLX_PEER_TX_NEXT m.src m.seq).wrI F.CLX_PEER_TX_SYNCED m.src 1).farPump
  | none => s

/-- A message for this unit (Table 12.7). -/
def State.takeMine (s : State) (p : Nat) (m : Msg) : State :=
  if m.op = 0x01 then s.takeRead p m
  else if m.op = 0x02 then s.takeWrite p .write m
  else if m.op = 0x03 then s.takeWrite p .partialWrite m
  else if m.op = 0x04 then s.takeSync m
  else if m.op = 0x11 then s.takeReadRsp m
  else if m.op = 0x12 then s.takeWriteRsp m
  else s.takeSyncAck m

/-- A message comes out of the link buffer of port p (R399, R415, R417): it is for this unit, or it leaves by the other port
with its TTL lowered. -/
def State.takeMsg (s : State) (p : Nat) (m : Msg) : State :=
  let s1 := s.freeCredit p m
  if s1.idValid ∧ m.dst = s1.myId then (s1.rouse 2).takeMine p m
  else
    let o := 1 - p
    if m.ttl = 0 then s1.bump F.CLX_PORT_DROP_TTL o
    else if !s1.clActive o then s1.bump F.CLX_PORT_DROP_DEAD o
    else (s1.setClp o { s1.clp o with pass := (s1.clp o).pass ++ [{ m with ttl := m.ttl - 1 }] }).pump o

/-! ## Messages as commands -/

/-- A message that a command carries. -/
def State.arrives (s : State) (p : Nat) (m : Msg) : State :=
  if p < 2 ∧ s.clTakes p ∧ s.idValid then s.takeMsg p { m with dst := s.myId } else s

/-- The header of a request. -/
def farMsgOf (r : FarReq) (op : Nat) (data : Line) (be : BitVec 64) : Msg :=
  { op := op, dst := 0, src := r.src, cls := r.cls, ttl := r.ttl, key := r.key, poison := r.poison, tag := r.tag,
    stat := r.slot, line := r.line, seq := r.seq, data := data, be := be }

/-- The header of a response or a SYNC. -/
def rspMsg (op src tag stat seq : Nat) (poison : Bool) (data : Line) : Msg :=
  { op := op, dst := 0, src := src, cls := 0, ttl := 15, key := 0, poison := poison, tag := tag, stat := stat, line := 0,
    seq := seq, data := data, be := 0 }

/-- RD. -/
def execRd (p : Nat) (msg : FarReq) (s : State) : Result := .next (s.arrives p (farMsgOf msg 0x01 0 0))

/-- WR. -/
def execWr (p : Nat) (msg : FarReq) (data : BitVec 512) (s : State) : Result := .next (s.arrives p (farMsgOf msg 0x02 data 0))

/-- WRP. -/
def execWrp (p : Nat) (msg : FarReq) (data : BitVec 512) (be : BitVec 64) (s : State) : Result :=
  .next (s.arrives p (farMsgOf msg 0x03 data be))

/-- SYNC. -/
def execSync (p src token : Nat) (s : State) : Result := .next (s.arrives p (rspMsg 0x04 src 0 0 token false 0))

/-- RD_RSP. -/
def execRdRsp (p src tag status : Nat) (poison : Bool) (data : BitVec 512) (s : State) : Result :=
  .next (s.arrives p (rspMsg 0x11 src tag status 0 poison data))

/-- WR_RSP. -/
def execWrRsp (p src tag status seq : Nat) (s : State) : Result :=
  .next (s.arrives p (rspMsg 0x12 src tag status seq false 0))

/-- SYNC_ACK. -/
def execSyncAck (p src base : Nat) (s : State) : Result := .next (s.arrives p (rspMsg 0x14 src 0 0 base false 0))

/-! ## Timers (R423, R429) -/

/-- E2E_TIMEOUT of a SYNC to a home, or of a far request. -/
def execE2eTimeout (id : Nat) (sync : Option Nat) (s : State) : Result :=
  .next (if s.inReset ∨ s.cry.halt ≠ 0 ∨ s.cur = 3 then s
    else match sync with
      | some h => match mget s.clx.syncs h with
        | some n => s.sendMsg { s.msgTo 4 h with seq := n % 2 ^ 32 }
        | none => s
      | none => match s.farSent.find? (fun f => decide (f.id = id)) with
        | some f => s.farResend f
        | none => s)

/-- FAR_LIMIT_EXPIRY. -/
def execFarLimitExpiry (id : Nat) (s : State) : Result :=
  .next (if s.inReset ∨ s.cry.halt ≠ 0 ∨ s.cur = 3 then s
    else match s.farSent.find? (fun f => decide (f.id = id)) with
      | some f =>
        if f.isWrite then (s.dropWrite f).farSettle
        else ((s.farReadDone f true 0 (some (4, 2))).killTag f.tag).farSettle
      | none => s)

end Sys2Proof.Machine
end

