-- ==== Sys2Proof/Machine/ChainRing.lean ====
section
/-!
DEFINITION. Machine/ChainRing.lean: the ring of the memory chain (R418 to R421, R430 to R432; 12_chain_links.md): port
reports, routes, reroute, discovery and the assignment of chain IDs.
-/
namespace Sys2Proof.Machine

/-! ## Control flits -/

/-- An acknowledgement frees the flits up to it (R413, Table 12.9). -/
def State.takeAck (s : State) (p a : Nat) : State :=
  let c := s.clp p
  if c.replay.any (fun e => decide (e.1 = a)) then
    let rest := (c.replay.dropWhile (fun e => decide (e.1 ≠ a))).drop 1
    (s.setClp p { c with replay := rest, timer := !rest.isEmpty, tries := 0 }).wrI F.CLX_PORT_SEQ_TX_ACKED p a
  else s

/-- The link state block of a control flit taken (R411, R415): its acknowledgement, then the credits returned. -/
def State.takeLsb (s : State) (p : Nat) (l : LinkState) : State :=
  let s1 := match l.ack with | some a => s.takeAck p a | none => s
  (s1.setClp p { s1.clp p with returned := { reqH := l.reqH, reqD := l.reqD, rspH := l.rspH, rspD := l.rspD } }).pump p

/-! ## Reports (R418) -/

/-- No report held. -/
def noReport : RingReport := { cl0 := false, cl1 := false, ucnt := 0 }

/-- This unit's own entry. -/
def State.ownReport (s : State) : RingReport := { cl0 := s.clUp 0, cl1 := s.clUp 1, ucnt := s.clx.ucnt }

/-- The report held for a chain ID. -/
def State.report (s : State) (id : Nat) : RingReport :=
  if id = s.myId then s.ownReport else mgetD s.clx.reports id noReport

/-- Send RING on a port that carries flits. -/
def State.sendRing (s : State) (p : Nat) : State :=
  if s.clSends p then s.sendCtl p 4 (ringBytes ((List.range 16).map s.report) (s.rd F.CLX_RING_ROUND)) else s

/-- An entry of a RING flit replaces the one held (R418). -/
def newer (old new : RingReport) : Bool :=
  decide (new ≠ noReport) && (decide (old = noReport) ||
    decide (1 ≤ (new.ucnt + 64 - old.ucnt % 64) % 64 ∧ (new.ucnt + 64 - old.ucnt % 64) % 64 ≤ 31))

/-! ## Routes (R419) -/

/-- Members of the ring, and the chain ID at a position of ORDER. -/
def State.ringN (s : State) : Nat := s.rd F.CLX_RING_N
def State.ringAt (s : State) (j : Nat) : Nat := bits (s.rd F.CLX_ORDER_ORDER) (4 * j + 3) (4 * j)

/-- The link from position j to the next is usable: both ends report it up (R418). -/
def State.linkUp (s : State) (j : Nat) : Bool :=
  (s.report (s.ringAt j)).cl1 && (s.report (s.ringAt ((j + 1) % s.ringN))).cl0

/-- The position of an ID in ORDER. -/
def State.ringPos (s : State) (id : Nat) : Option Nat := (List.range s.ringN).find? (fun j => decide (s.ringAt j = id))

/-- The hops from this unit to an ID through CL1 (upward) and CL0 (downward), where that direction is usable. -/
def State.hopsUp (s : State) (id : Nat) : Option Nat :=
  match s.ringPos s.myId, s.ringPos id with
  | some a, some b =>
    let n := s.ringN
    let d := (b + n - a) % n
    if (List.range d).all (fun i => s.linkUp ((a + i) % n)) then some d else none
  | _, _ => none
def State.hopsDown (s : State) (id : Nat) : Option Nat :=
  match s.ringPos s.myId, s.ringPos id with
  | some a, some b =>
    let n := s.ringN
    let d := (a + n - b) % n
    if (List.range d).all (fun i => s.linkUp ((b + i) % n)) then some d else none
  | _, _ => none

/-- The route and hop count of an ID: CL1 on equal hops. -/
def State.routeTo (s : State) (id : Nat) : Nat × Nat :=
  if !s.idValid ∨ s.ringN = 0 ∨ id = s.myId then (0, 0)
  else match s.hopsUp id, s.hopsDown id with
    | some u, some d => if u ≤ d then (2, u) else (1, d)
    | some u, none => (2, u)
    | none, some d => (1, d)
    | none, none => (3, 0)

/-- The direction through a route code is usable to an ID. -/
def State.wayUsable (s : State) (code id : Nat) : Bool :=
  if code = 1 then (s.hopsDown id).isSome else if code = 2 then (s.hopsUp id).isSome else false

/-- What a new set of routes does to the requests outstanding to a home: resent where their path broke (R420), waited for
where it still works (R421), kept for a later route where there is none (R423). -/
def State.rehome (s : State) (h : Nat) : State :=
  let n := s.route h
  let mine := s.farSent.filter (fun f => decide (f.home = h))
  let olds := mine.filter (fun f => decide (f.port ≠ n))
  if n = 1 ∨ n = 2 then
    let s1 := s.setClx { s.clx with held := mdel s.clx.held h }
    if mget s.clx.held h = some 3 ∨ olds.any (fun f => !s.wayUsable f.port h) then s1.rerouteHome h
    else if olds.isEmpty then s1
    else s1.setClx { s1.clx with held := mput s1.clx.held h (3 - n) }
  else if mine.isEmpty then s
  else s.setClx { s.clx with held := mput s.clx.held h 3 }

/-- FAR regions of the unit whose HOME is an ID. -/
def State.farTo (s : State) (h : Nat) : Bool :=
  (List.range 64).any (fun r => decide (s.rgnState r ≠ 0 ∧ s.rgnType r = 4 ∧ s.rd F.TMU_RGN_POLICY_HOME r = h))

/-- Compute links and routes anew; what a change of routes does. -/
def State.computeRoutes (s : State) : State :=
  let n := s.ringN
  let routes := (List.range 16).map s.routeTo
  let ports := (List.range 16).foldl (fun v i => v + (routes.getD i (0, 0)).1 * 4 ^ i) 0
  let hops := (List.range 16).foldl (fun v i => v + (routes.getD i (0, 0)).2 * 16 ^ i) 0
  let ups := (List.range n).filter s.linkUp
  let s1 := (((s.wr F.CLX_LINKS_UP ((ups.map (fun j => 2 ^ j)).sum)).wr F.CLX_RING_WHOLE
    (b2n (decide (2 ≤ n ∧ ups.length = n)))).wr F.CLX_ROUTE_PORT ports).wr F.CLX_HOPS_HOPS hops
  let s2 := if s.rd F.CLX_ROUTE_PORT = ports ∧ s.rd F.CLX_HOPS_HOPS = hops then s1 else s1.raise (cRing 2)
  let lost := (List.range 16).filter (fun h => decide (s2.route h = 3 ∧ s.route h ≠ 3) && s2.farTo h)
  let s3 := lost.foldl (fun s h => s.raiseFar 8 h) s2
  ((List.range 16).foldl State.rehome s3).farPump

/-- A port has come up or gone down (R418): UCNT advances, RING goes out on both ports, routes follow. -/
def State.portChanged (s : State) : State :=
  let s1 := s.setClx { s.clx with ucnt := (s.clx.ucnt + 1) % 64 }
  if s1.idValid then ((s1.sendRing 0).sendRing 1).computeRoutes else s1

/-- RING. -/
def State.takeRing (s : State) (p : Nat) (reports : List RingReport) (round : Nat) : State :=
  if s.idValid ∧ round = s.rd F.CLX_RING_ROUND then
    let ids := (List.range 16).filter (fun k => decide (k ≠ s.myId) && newer (s.report k) (reports.getD k noReport))
    if ids.isEmpty then s
    else
      let s1 := s.setClx { s.clx with
        reports := ids.foldl (fun m k => mput m k (reports.getD k noReport)) s.clx.reports }
      (s1.sendRing (1 - p)).computeRoutes
  else s

/-- A control flit that a command carries is taken while its link is ACTIVE: its link state block, then what it says. -/
def State.takesCtl (s : State) (p : Nat) (l : LinkState) (f : State → State) : State :=
  if p < 2 ∧ s.clTakes p then f ((s.setClp p { s.clp p with fecFails := 0 }).takeLsb p l) else s

/-- RING. -/
def execRing (p : Nat) (lsb : LinkState) (reports : List RingReport) (round : Nat) (s : State) : Result :=
  .next (s.takesCtl p lsb (fun s => s.takeRing p reports round))

/-- RING_PERIODIC. -/
def execRingPeriodic (s : State) : Result :=
  .next (if s.idValid ∧ !s.inReset then (s.sendRing 0).sendRing 1 else s)

/-! ## Discovery (R430 to R432) -/

/-- This unit's entry of a TOKEN. -/
def State.ownEntry (s : State) : RingEntry := { sn := s.fuses.sn, id := s.myId, valid := s.idValid }

/-- This unit is the head of the chain. -/
def State.chainHead (s : State) : Bool := s.rdb F.CLX_ID_HEAD

/-- Send TOKEN or ASSIGN on a port. -/
def State.sendToken (s : State) (p : Nat) (t : TokenBody) : State :=
  if s.clSends p then s.sendCtl p 5 (tokenBytes t) else s
def State.sendAssign (s : State) (p : Nat) (t : AssignBody) : State :=
  if s.clSends p then s.sendCtl p 6 (assignBytes t) else s

/-- The ID an entry claims: the one it reports when that is valid and not 0. -/
def claimOf (e : RingEntry) : Option Nat := if e.valid ∧ e.id ≠ 0 then some e.id else none

/-- The claims that stand, in ORDER: the first claim of an ID (R431 step 4); kept holds the IDs claimed so far. -/
def keepClaims : List Nat → List RingEntry → List (Option Nat)
  | _, [] => []
  | kept, e :: es =>
    match claimOf e with
    | some k => if kept.contains k then none :: keepClaims kept es else some k :: keepClaims (k :: kept) es
    | none => none :: keepClaims kept es

/-- The others take the lowest free IDs; used holds those taken. -/
def fillIds : List Nat → List (Option Nat) → List Nat
  | _, [] => []
  | used, some k :: cs => k :: fillIds used cs
  | used, none :: cs =>
    let k := ((List.range 16).find? (fun i => !used.contains i)).getD 0
    k :: fillIds (k :: used) cs

/-- The IDs of ORDER; its first entry is the head, ID 0. -/
def assignIds : List RingEntry → List RingEntry
  | [] => []
  | head :: es =>
    let claims := keepClaims [] es
    let ids := fillIds (0 :: claims.filterMap id) claims
    { head with id := 0, valid := true } :: List.zipWith (fun (e : RingEntry) k => { e with id := k, valid := true }) es ids

/-- HOME of the entries of every region but FAR ones names the unit's own chain ID (R65). -/
def State.rehomeTmes (s : State) (id : Nat) : State :=
  let own := fun (k : Nat) => decide (s.rgnType (keySlot k) ≠ 4)
  s.setTmu { s.tmu with
    map := s.tmu.map.map (fun e => if own e.1 then (e.1, { Tme.dec e.2 with home := id }.enc) else e),
    cache := s.tmu.cache.map (fun e => if own e.1 then (e.1, { e.2 with tme := { e.2.tme with home := id } }) else e) }

/-- A unit takes its ID, ORDER and N from an ASSIGN (R431 step 5). -/
def State.adopt (s : State) (t : AssignBody) (id : Nat) : State :=
  let new := decide (s.idValid = false ∨ s.myId ≠ id)
  let order := ((List.range t.order.length).map (fun j => ((t.order.map RingEntry.id).getD j 0) * 16 ^ j)).sum
  let s1 := ((((s.wr F.CLX_ID_ID id).wr F.CLX_ID_VALID 1).wr F.CLX_ORDER_ORDER order).wr F.CLX_RING_N
    t.order.length).wr F.CLX_RING_ROUND t.round
  let s2 := s1.setClx { s1.clx with members := t.order, reports := [] }
  let s3 := (if new then (s2.rehomeTmes id).raise (cRing 1) else s2).raise (cRing 3)
  ((s3.sendRing 0).sendRing 1).computeRoutes

/-- The head ends a round with ORDER: IDs, its own part, and ASSIGN (R431 steps 4 and 5). -/
def State.ringDone (s : State) (line : Bool) (order : List RingEntry) : State :=
  let s0 := s.setClx { s.clx with running := false, side := none }
  if 16 < order.length then s0.raise (cRing 0)
  else
    let t : AssignBody := { round := s.clx.round, headSn := s.fuses.sn, line := line, order := assignIds order }
    let s1 := s0.sendAssign 1 t
    (if line then s1.sendAssign 0 t else s1).adopt t 0

/-- The head has the CL1 side; the CL0 side follows, or the round ends (R431 step 3). -/
def State.otherSide (s : State) (side : List RingEntry) : State :=
  if s.clActive 0 then
    (s.setClx { s.clx with side := some side }).sendToken 0
      { round := s.clx.round, headSn := s.fuses.sn, dir := 0, ended := false, entries := [s.ownEntry] }
  else s.ringDone true side

/-- TOKEN at the head. -/
def State.headToken (s : State) (p : Nat) (t : TokenBody) : State :=
  if !s.clx.running ∨ t.round ≠ s.clx.round then s
  else if p = 0 then
    (if !t.ended then s.ringDone false t.entries
     else match s.clx.side with
       | some xs => s.ringDone true (xs ++ (t.entries.drop 1).reverse)
       | none => s)
  else if t.ended then s.otherSide t.entries
  else s

/-- TOKEN at another unit (R431 step 2). -/
def State.passToken (s : State) (p : Nat) (t : TokenBody) : State :=
  if t.ended then s.sendToken (1 - p) t
  else
    let es := t.entries ++ [s.ownEntry]
    if 16 < es.length then s.raise (cRing 0)
    else if s.clActive (1 - p) then s.sendToken (1 - p) { t with entries := es }
    else s.sendToken p { t with entries := es, ended := true }

/-- TOKEN: two different head SNs set CONFIG (R432). -/
def State.takeToken (s : State) (p : Nat) (t : TokenBody) : State :=
  if s.clx.headSn.any (fun h => decide (h ≠ t.headSn)) then s.raise (cRing 0)
  else
    let s1 := s.setClx { s.clx with headSn := some t.headSn }
    if 16 < t.entries.length then s1.raise (cRing 0)
    else if s.chainHead then s1.headToken p t
    else s1.passToken p t

/-- TOKEN. -/
def execToken (p : Nat) (lsb : LinkState) (body : TokenBody) (s : State) : Result :=
  .next (s.takesCtl p lsb (fun s => s.takeToken p body))

/-- ASSIGN: taken when its ROUND is higher than the one held and it names this unit; then it goes on. -/
def State.takeAssign (s : State) (p : Nat) (t : AssignBody) : State :=
  match t.order.find? (fun e => decide (e.sn = s.fuses.sn)) with
  | some e => if s.rd F.CLX_RING_ROUND < t.round then (s.adopt t e.id).sendAssign (1 - p) t else s
  | none => s

/-- ASSIGN. -/
def execAssign (p : Nat) (lsb : LinkState) (body : AssignBody) (s : State) : Result :=
  .next (s.takesCtl p lsb (fun s => s.takeAssign p body))

/-- The head starts a round. -/
def State.startRound (s : State) : State :=
  let round := max s.clx.round (s.rd F.CLX_RING_ROUND) + 1
  let s1 := s.setClx { s.clx with round := round, headSn := some s.fuses.sn, running := true, side := none }
  if s1.clActive 1 then
    s1.sendToken 1 { round := round, headSn := s.fuses.sn, dir := 1, ended := false, entries := [s1.ownEntry] }
  else s1.otherSide [s1.ownEntry]

/-- DISCOVERY_ROUND. -/
def execDiscoveryRound (s : State) : Result :=
  .next (if s.chainHead ∧ !s.inReset ∧ s.cry.halt = 0 ∧ s.cur ≠ 3 ∧
      (s.rd F.CTL_HEALTH_STATE = 2 ∨ s.rd F.CTL_HEALTH_STATE = 3) then s.startRound else s)

/-- ASSIGN_TIMEOUT. -/
def execAssignTimeout (s : State) : Result :=
  .next (if !s.inReset ∧ s.clx.members = [] ∧ (s.clActive 0 ∨ s.clActive 1) then s.raise (cRing 0) else s)

end Sys2Proof.Machine
end

