-- ==== Sys2Proof/Machine/ChainLink.lean ====
section
/-!
DEFINITION. Machine/ChainLink.lean: the chain ports (R398, R400 to R408, R411 to R417, R433, R434; 12_chain_links.md):
their states, lanes, initialization, sequence numbers and replay.
-/
namespace Sys2Proof.Machine

/-! ## Lanes (R398, R403) -/

/-- The port has power, clock and its die link, and CLX runs. -/
def State.clWorks (s : State) (p : Nat) : Bool :=
  decide (p < 2) && !s.inReset && !(s.rd F.AON_D2D_LOST).testBit (2 + p) && s.aon.pllOk.testBit (8 + p) &&
    !s.aon.blocks.contains 3 && decide (s.cry.halt < 3 ∧ s.cur ≠ 3)

/-- The physical lanes marked failing. -/
def State.clFailed (s : State) (p : Nat) : Nat := s.rd F.CLX_PORT_STS_FAILED p

/-- Mark a lane failing (R403). -/
def State.markLane (s : State) (p l : Nat) : State :=
  if (s.clFailed p).testBit l then s
  else (s.wrI F.CLX_PORT_STS_FAILED p (setBit (s.clFailed p) l)).raise (cClLane p 8)

/-- A failing lane at a retrain: the spare takes it, or no substitute is left (R403, R267). -/
def State.spareLane (s : State) (p l : Nat) : State :=
  if l ≠ 8 ∧ !s.rdb F.CLX_PORT_STS_SPARE_IN p ∧ !(s.clFailed p).testBit 8 then
    ((s.wrI F.CLX_PORT_STS_SPARE_IN p 1).raise (cClLane p 9)).spare 4 l (some 8) p
  else s.spare 4 l none p

/-- The failing lanes not yet recorded are dealt with, lowest first. -/
def State.spareLanes (s : State) (p : Nat) : State :=
  let done := mgetD s.clx.lanesRec p 0
  let s1 := ((bitList 9 (s.clFailed p)).filter (fun l => !done.testBit l)).foldl (fun s l => s.spareLane p l) s
  s1.setClx { s1.clx with lanesRec := mput s1.clx.lanesRec p (s1.clFailed p) }

/-- The width code and the physical lanes in use among working ones: x8 on lanes 0 to 7 or with the spare, x4 on the four
lowest (R398, R403). -/
def chooseLanes (working peerWidth : Nat) : Nat × Nat :=
  let ws := bitList 9 working
  let own := if 8 ≤ ws.length then 2 else if 4 ≤ ws.length then 1 else 0
  let w := min own peerWidth
  let n := if w = 2 then 8 else if w = 1 then 4 else 0
  (w, ((ws.take n).map (fun l => 2 ^ l)).sum)

/-- The physical lane that carries byte i of a flit (R404): logical lane i mod W; at x8 a lane not in use is carried by the
spare. -/
def laneOf (lanes width i : Nat) : Nat :=
  if width = 2 then (if lanes.testBit (i % 8) then i % 8 else 8) else (bitList 9 lanes).getD (i % 4) 0

/-! ## Down -/

/-- The messages in a replay buffer. -/
def replayMessages (r : List (Nat × List Byte)) : Nat :=
  let first := match r with | e :: _ => bits (numAt e.2 0 4) 22 20 | [] => 0
  let slots := ((r.map (fun e => (e.2.drop 4).take 112)).flatten).drop (16 * first)
  (parseSlots (slots.length / 16) slots []).1.length

/-- A port restarts from DOWN; its registers and link layer are fresh (R412, R433). -/
def State.clFresh (s : State) (p : Nat) : State :=
  ([F.CLX_PORT_STS_STATE, F.CLX_PORT_STS_WIDTH, F.CLX_PORT_STS_PEER_SN, F.CLX_PORT_SEQ_TX_NEXT, F.CLX_PORT_SEQ_TX_ACKED,
    F.CLX_PORT_SEQ_RX_EXP].foldl (fun s f => s.wrI f p 0) s).setClp p ClPort.fresh

/-- The port goes DOWN; a link that was up is declared down: its messages are discarded and counted (R420), the ring is
told. -/
def State.clDown (s : State) (p : Nat) : State :=
  if s.clUp p then
    let c := s.clp p
    let n := c.pass.length + c.orig.length + replayMessages c.replay
    let s1 := if n = 0 then s else s.bump F.CLX_PORT_DROP_DEAD p (n := n)
    ((s1.raise (cClLink p 0)).clFresh p).portChanged
  else s.clFresh p

/-- A protocol error: counted and raised, the link goes down (R413, R414). -/
def State.protoError (s : State) (p : Nat) : State :=
  ((s.bump F.CLX_PORT_ERR_PROTO p).raise (cClProto p 16)).clDown p

/-- Enter RETRAIN. -/
def State.clRetrainStart (s : State) (p : Nat) : State :=
  (s.wrI F.CLX_PORT_STS_STATE p 6).bump F.CLX_PORT_RPL_RETRAINS p

/-! ## The sender (Table 12.9) -/

/-- Replay from a number: REPLAY, then the flits unchanged. -/
def State.emitReplay (s : State) (p n : Nat) : State :=
  let again := (s.clp p).replay.dropWhile (fun e => decide (e.1 ≠ n))
  let s1 := (s.bump F.CLX_PORT_RPL_REPLAYS p).sendCtl p 3 (leBytes 2 n)
  let s2 := again.foldl (fun s e => s.emit (.flit p (flitBytes e.1 e.2))) s1
  s2.setClp p { s2.clp p with timer := true }

/-- A replay, or the retrain at REPLAY_LIMIT. -/
def State.startReplay (s : State) (p n : Nat) : State :=
  if !s.clSends p then s
  else if s.rd F.CLX_CFG_REPLAY_LIMIT ≤ (s.clp p).tries then (s.raise (cClProto p 17)).clRetrainStart p
  else (s.setClp p { s.clp p with tries := (s.clp p).tries + 1 }).emitReplay p n

/-- NAK at the sender. -/
def State.takeNak (s : State) (p n : Nat) : State :=
  if (s.clp p).replay.any (fun e => decide (e.1 = n)) then s.startReplay p n
  else if (s.rd F.CLX_PORT_SEQ_TX_NEXT p + 4096 - n % 4096) % 4096 ≤ 2048 then s
  else s.protoError p

/-- NAK. -/
def execNak (p : Nat) (lsb : LinkState) (seq : Nat) (s : State) : Result :=
  .next (s.takesCtl p lsb (fun s => s.takeNak p seq))

/-- REPLAY_TIMER_EXPIRY. -/
def execReplayTimerExpiry (p : Nat) (s : State) : Result :=
  .next (if p < 2 ∧ s.clTakes p ∧ (s.clp p).timer then
      match (s.clp p).replay with
      | e :: _ => (s.bump F.CLX_PORT_RPL_TIMEOUTS p).startReplay p e.1
      | [] => s
    else s)

/-- CONTROL_FLIT_DUE: a control flit goes when an acknowledgement or a credit count has advanced. -/
def execControlFlitDue (p : Nat) (s : State) : Result :=
  .next (if p < 2 ∧ s.clSends p ∧ ((s.clp p).ackSent ≠ s.ackOf p ∨ (s.clp p).freedSent ≠ (s.clp p).freed) then
    s.sendCtl p 0 [] else s)

/-- IDLE. -/
def execIdle (p : Nat) (lsb : LinkState) (s : State) : Result := .next (s.takesCtl p lsb (fun s => s))

/-! ## The receiver (Table 12.10) -/

/-- REPLAY at the receiver. -/
def State.takeReplay (s : State) (p n : Nat) : State :=
  if (s.rd F.CLX_PORT_SEQ_RX_EXP p + 4096 - n % 4096) % 4096 ≤ 768 then
    s.setClp p { s.clp p with naked := false, replayNo := some (n % 4096) }
  else s.protoError p

/-- REPLAY. -/
def execReplay (p : Nat) (lsb : LinkState) (seq : Nat) (s : State) : Result :=
  .next (s.takesCtl p lsb (fun s => s.takeReplay p seq))

/-- A CRC failure: NAK, and NAKED. -/
def State.crcFailure (s : State) (p : Nat) : State :=
  let s1 := (s.bump F.CLX_PORT_ERR_CRC_FAIL p).bump F.CLX_PORT_ERR_NAK_TX p
  let s2 := s1.sendCtl p 2 (leBytes 2 (s1.rd F.CLX_PORT_SEQ_RX_EXP p))
  s2.setClp p { s2.clp p with naked := true, replayNo := none }

/-- A DATA flit is accepted: E advances, its acknowledgement is taken, and the messages it completes come out of the link
buffer. -/
def State.acceptFlit (s : State) (p : Nat) (bs : List Byte) : State :=
  let h := numAt bs 0 4
  let e := s.rd F.CLX_PORT_SEQ_RX_EXP p
  let s1 := s.wrI F.CLX_PORT_SEQ_RX_EXP p ((e + 1) % 4096)
  let s2 := if h.testBit 2 then s1.takeAck p (bits h 19 8) else s1
  let c := s2.clp p
  let slots := (bs.drop 4).take 112
  let buf := if c.rxBuf.isEmpty then slots.drop (16 * bits h 22 20) else c.rxBuf ++ slots
  let got := parseSlots (buf.length / 16) buf []
  let s3 := s2.setClp p { c with rxBuf := got.2, replayNo := none, low := false }
  (got.1.foldl (fun s m => s.takeMsg p m) s3).pump p

/-- FEC corrections are attributed to lanes (R403): the counts of this epoch, and the lanes that reach LANE_ERR. -/
def State.laneErrors (s : State) (p : Nat) (wire fixed : List Byte) : State :=
  let c := s.clp p
  let old := if c.corrEpoch = s.epoch then c.corr else []
  let hit := (List.range 128).filter (fun i => decide (wire.getD i 0 ≠ fixed.getD i 0))
  let corr := hit.foldl (fun m i =>
    let l := laneOf c.lanes.toNat (s.rd F.CLX_PORT_STS_WIDTH p) i
    mput m l (mgetD m l 0 + 1)) old
  let s1 := s.setClp p { c with corr := corr, corrEpoch := s.epoch }
  ((List.range 9).filter (fun l => decide (s.rd F.CLX_PORT_CTL_LANE_ERR p ≤ mgetD corr l 0))).foldl
    (fun s l => s.markLane p l) s1

/-- A flit decoded by FEC, checked under its number (R408, R414). -/
def State.checkFlit (s : State) (p : Nat) (bs : List Byte) : State :=
  let payload := bs.take 116
  let crc := numAt bs 116 8
  let kind := bits (numAt bs 0 1) 1 0
  let e := s.rd F.CLX_PORT_SEQ_RX_EXP p
  let n := (s.clp p).replayNo.getD e
  if kind = 1 ∧ (flitCrc ctlPrefix payload).toNat = crc then s
  else if kind ≠ 0 ∨ (flitCrc n payload).toNat ≠ crc then s.crcFailure p
  else if n = e then s.acceptFlit p bs
  else s.setClp p { s.clp p with replayNo := some ((n + 1) % 4096) }

/-- A flit that FEC cannot decode (R401, R408): a CRC failure, which NAKED does not report again; the eighth in a row
loses lock. -/
def State.fecFailure (s : State) (p : Nat) : State :=
  let n := (s.clp p).fecFails + 1
  let s1 := s.setClp p { s.clp p with fecFails := n }
  let s2 := if (s.clp p).naked then s1 else s1.crcFailure p
  if 8 ≤ n then (s2.setClp p { s2.clp p with fecFails := 0 }).clRetrainStart p else s2

/-- A flit decoded by FEC (R408, Table 12.10): NAKED discards it without checking. -/
def State.decodedFlit (s : State) (p : Nat) (bs : List Byte) : State :=
  let s1 := s.setClp p { s.clp p with fecFails := 0 }
  if (s1.clp p).naked then s1 else s1.checkFlit p bs

/-- A DATA flit of 128 bytes at the receiver. When its corrections mark a lane, firmware requests a retrain (R403). -/
def State.takeFlit (s : State) (p : Nat) (wire : List Byte) : State :=
  match fecDecode wire with
  | none => s.fecFailure p
  | some (bs, corrected) =>
    if corrected then
      let s1 := (s.bump F.CLX_PORT_FEC_CORR p).laneErrors p wire bs
      let s2 := s1.decodedFlit p bs
      if s1.clFailed p ≠ s.clFailed p ∧ s2.clActive p then s2.clRetrainStart p else s2
    else s.decodedFlit p bs

/-- DATA_FLIT. -/
def execDataFlit (p : Nat) (bytes : List Byte) (s : State) : Result :=
  .next (if p < 2 ∧ s.clTakes p then s.takeFlit p bytes else s)

/-! ## Initialization (R412) -/

/-- The credits this unit advertises. -/
def ownCredits : LinkState := { ack := none, reqH := 256, reqD := 256, rspH := 256, rspD := 256 }

/-- The port goes ACTIVE once an INIT with SEEN has been taken and one sent. -/
def State.goActive (s : State) (p : Nat) : State :=
  let c := s.clp p
  if c.seenTaken ∧ c.seenSent then
    let s1 := s.setClp p { ClPort.fresh with lanes := c.lanes, init := c.init }
    let s2 := ([F.CLX_PORT_SEQ_TX_NEXT, F.CLX_PORT_SEQ_TX_ACKED, F.CLX_PORT_SEQ_RX_EXP].foldl (fun s f => s.wrI f p 0) s1)
    ((s2.wrI F.CLX_PORT_STS_STATE p 5).raise (cClLink p 1)).portChanged
  else s

/-- INIT. -/
def State.takeInit (s : State) (p : Nat) (b : InitBody) : State :=
  if b.ver ≠ 1 ∨ b.port = p ∨ b.sn = s.fuses.sn then s.raise (cClLink p 2)
  else
    let c := s.clp p
    let s1 := s.setClp p { c with
      inited := true, seenTaken := c.seenTaken || b.seen,
      init := { reqH := b.credits.reqH, reqD := b.credits.reqD, rspH := b.credits.rspH, rspD := b.credits.rspD } }
    (s1.wrI F.CLX_PORT_STS_PEER_SN p b.sn.toNat).goActive p

/-- INIT: its link state block says nothing before the first flit. -/
def execInit (p : Nat) (lsb : LinkState) (body : InitBody) (s : State) : Result :=
  .next (if s.clWorks p ∧ s.clState p = 4 then s.takeInit p body else s.takesCtl p lsb (fun s => s))

/-- INIT_RESEND. -/
def execInitResend (p : Nat) (s : State) : Result :=
  .next (if s.clWorks p ∧ s.clState p = 4 then
      let c := s.clp p
      let s1 := s.sendCtl p 1 (initBytes {
        sn := s.fuses.sn, port := p, ver := 1, width := s.rd F.CLX_PORT_STS_WIDTH p,
        seen := c.inited, head := s.chainHead, idValid := s.idValid, id := s.myId, credits := ownCredits })
      (s1.setClp p { s1.clp p with seenSent := c.seenSent || c.inited }).goActive p
    else s)

/-! ## Port states (Table 12.2) -/

/-- CL_DOWN_TIMER. -/
def execClDownTimer (p : Nat) (s : State) : Result :=
  .next (if s.clWorks p ∧ s.clState p = 0 ∧ s.rdb F.CLX_PORT_CTL_ENABLE p then s.wrI F.CLX_PORT_STS_STATE p 1 else s)

/-- CL_DETECT: lanes is where the partner is seen. -/
def execClDetect (p : Nat) (lanes : BitVec 9) (s : State) : Result :=
  .next (if s.clWorks p ∧ s.clState p = 1 ∧ 4 ≤ (bitList 9 lanes.toNat).length then
    (s.setClp p { s.clp p with lanes := lanes }).wrI F.CLX_PORT_STS_STATE p 2 else s)

/-- Lanes in use that did not lock are marked failing, the spare is used, and the lanes are chosen; none when fewer than
four work. -/
def State.trainLanes (s : State) (p : Nat) (lanes peerWidth : Nat) : State × Nat :=
  let lost := (bitList 9 (s.clp p).lanes.toNat).filter (fun l => !lanes.testBit l)
  let s1 := (lost.foldl (fun s l => s.markLane p l) s).spareLanes p
  let working := ((bitList 9 lanes).filter (fun l => !(s1.clFailed p).testBit l)).map (fun l => 2 ^ l)
  let c := chooseLanes working.sum peerWidth
  let s2 := (s1.wrI F.CLX_PORT_STS_WIDTH p c.1).setClp p { s1.clp p with lanes := BitVec.ofNat 9 c.2 }
  (if c.1 = 1 then s2.raise (cClLane p 10) else s2, c.1)

/-- CL_TRAIN_LOCK. -/
def execClTrainLock (p : Nat) (lanes : BitVec 9) (peerWidth : Nat) (s : State) : Result :=
  .next (if s.clWorks p ∧ s.clState p = 2 then
      let r := s.trainLanes p lanes.toNat peerWidth
      if r.2 = 0 then r.1.clDown p else r.1.wrI F.CLX_PORT_STS_STATE p 3
    else s)

/-- CL_FLIT_LOCK. -/
def execClFlitLock (p : Nat) (s : State) : Result :=
  .next (if s.clWorks p ∧ s.clState p = 3 then s.wrI F.CLX_PORT_STS_STATE p 4 else s)

/-- CL_STATE_TIMEOUT. -/
def execClStateTimeout (p : Nat) (s : State) : Result :=
  .next (if s.clWorks p ∧ (s.clState p = 2 ∨ s.clState p = 3 ∨ s.clState p = 4) then s.clDown p else s)

/-- CL_LOCK_LOSS. -/
def execClLockLoss (p : Nat) (s : State) : Result :=
  .next (if s.clWorks p ∧ s.clActive p then s.clRetrainStart p else s)

/-- CL_LINK_DOWN. -/
def execClLinkDown (p : Nat) (s : State) : Result :=
  .next (if s.clWorks p ∧ s.clState p = 6 then s.clDown p else s)

/-- CL_RETRAIN_DONE: the port is ACTIVE again with its link layer kept, and replays from the oldest unacknowledged flit. -/
def execClRetrainDone (p : Nat) (lanes : BitVec 9) (peerWidth : Nat) (s : State) : Result :=
  .next (if s.clWorks p ∧ s.clState p = 6 then
      let r := s.trainLanes p lanes.toNat peerWidth
      if r.2 = 0 then r.1.clDown p
      else
        let s1 := r.1.wrI F.CLX_PORT_STS_STATE p 5
        let s2 := s1.setClp p { s1.clp p with tries := 0, low := false }
        match (s2.clp p).replay with
        | e :: _ => (s2.startReplay p e.1).pump p
        | [] => s2.pump p
    else s)

/-- CL_RETRAIN: a retrain request (R434). -/
def execClRetrain (path : Path) (p : Nat) (s : State) : Result :=
  .next (if p < 2 then s.viaPath path 3 (1 + p) (isCores path) (fun s =>
    if s.clWorks p ∧ s.clActive p then s.clRetrainStart p else s) else s)

/-- CL_MARK (R434). -/
def execClMark (path : Path) (p : Nat) (lanes : BitVec 9) (s : State) : Result :=
  .next (if p < 2 then s.viaPath path 3 (1 + p) (isCores path) (fun s =>
    (bitList 9 lanes.toNat).foldl (fun s l => s.markLane p l) s) else s)

/-- CL_PORT_ENABLE: a port that is disabled stays in DOWN. -/
def execClPortEnable (path : Path) (p : Nat) (on : Bool) (s : State) : Result :=
  .next (if p < 2 then s.viaPath path 3 (1 + p) (s.manages path) (fun s =>
    let s1 := s.wrb F.CLX_PORT_CTL_ENABLE p on
    if on ∨ s1.clState p = 0 then s1 else s1.clDown p) else s)

/-- CHAIN_LOW_POWER_SUBSTATE. -/
def execChainLowPowerSubstate (p : Nat) (s : State) : Result :=
  .next (if p < 2 ∧ s.cur = 2 ∧ s.clActive p then s.setClp p { s.clp p with low := true } else s)

end Sys2Proof.Machine
end

