-- ==== Sys2Proof/Machine/Directory.lean ====
section
/-!
DEFINITION. Machine/Directory.lean: what answers and timeouts of snoops do, and the end of directory sweeps (R317, R318,
R320 to R323, R327, R328; 09_coherence.md).
-/
namespace Sys2Proof.Machine

/-- An answer is taken while the device serves its hosts. -/
def State.takeAnswer (s : State) (h line : Nat) (a : DState) : State :=
  let s1 := s.rouse 1
  if s1.serving ∧ s1.headUp h then s1.dirAnswer h line a else s1

/-- BIRSPI (R317): the head holds the line no longer. -/
def execBirspi (h line : Nat) (s : State) : Result := .next (s.takeAnswer h line .i)

/-- BIRSPS (R317): the head keeps the line, in S. -/
def execBirsps (h line : Nat) (s : State) : Result := .next (s.takeAnswer h line .s)

/-- BIRSPE (R317): the head stays the E holder, after BISnpCur only. -/
def execBirspe (h line : Nat) (s : State) : Result := .next (s.takeAnswer h line .e)

/-- BICONFLICT (R321): the acknowledgement follows the completions of that head's earlier requests to the line. A head
that owes no answer to a snoop of the line sends an answer that nothing asked for (R317). -/
def execBiconflict (h line : Nat) (s : State) : Result :=
  .next (let s := s.rouse 1
    if s.serving ∧ s.headUp h then
      match s.busyOf line with
      | some b =>
        if b.heads.contains h then
          let s1 := s.bump F.DIR_CNT_BI_CONFLICT
          (if s1.dir.conflicts.contains (h, line) then s1
           else s1.setDir { s1.dir with conflicts := s1.dir.conflicts ++ [(h, line)] }).settleConflicts
        else s.bump F.DIR_CNT_BI_BAD
      | none => s.bump F.DIR_CNT_BI_BAD
    else s)

/-- BI_TIMEOUT (R323): the head is fenced from SHARED regions and DIR takes BIRspI for each of its snoops. -/
def execBiTimeout (h : Nat) (s : State) : Result :=
  .next (if s.serving ∧ 0 < s.snoopsOut h then
    ((s.wr F.DIR_FENCE_HEADS (setBit (s.rd F.DIR_FENCE_HEADS) h)).dirGone h).raise cBiTimeout (heads := [(h, none)])
  else s)

/-- The sweep is off the list, and the requests that it held go on. -/
def State.sweepOver (s : State) (n : Nat) : State :=
  (s.setDir { s.dir with sweeps := s.dir.sweeps.filter (fun e => decide (e.1 ≠ n)) }).resumeWhy
    (fun w => decide (w.why = .bySweep))

/-- What the end of a sweep does beside the entries (Table 9.5). -/
def State.sweepEnds (s : State) (n : Nat) (w : SweepWhy) : State :=
  match w with
  | .reset h =>
    (((s.dirLines (fun e => e.sharers.testBit h)).foldl (fun s e => s.dirDrop e.line h) s).wr F.DIR_FENCE_HEADS
      (clrBit (s.rd F.DIR_FENCE_HEADS) h)).wrAt F.DIR_HEAD_SWEEP 0 h 0 |>.sweepOver n
  | .owner r h =>
    ((if s.ldCount h ≤ 1 then s.wrI F.TMU_RGN_MAP_OWNER r (clrBit (s.owner r) h) else s).sweepOver n).dcExpire r
  | .p3 => (if s.target = 3 ∧ s.aon.entry.stage = 2 then s.wr F.SCR_MOV_STS_FLUSH 1 else s).sweepOver n
  | _ => s.sweepOver n

/-- DIR_SWEEP_DONE (R327): a sweep that has to snoop ends once nothing is left to snoop and every answer is in; what
lacked a credit or found its line busy is snooped now. -/
def execDirSweepDone (n : Nat) (s : State) : Result :=
  .next (match s.dir.sweeps.find? (fun e => decide (e.1 = n)) with
    | none => s
    | some (_, w) =>
      let s1 := s.sweepSend n w
      if (s1.sweepLeft w).isEmpty ∧ !s1.dir.busy.any (fun b => decide (b.then_ = .sweep n)) then s1.sweepEnds n w else s1)

end Sys2Proof.Machine
end

