-- ==== Sys2Proof/Machine/Dram.lean ====
section
/-!
DEFINITION. Machine/Dram.lean: the commands of the near and bulk memory controllers (R207 to R222, 06_memory_controllers.md).
-/
namespace Sys2Proof.Machine

/-! ## Channels -/

/-- The key of channel ch of the near tier or subchannel ch of the bulk tier. -/
def chanKey (t : Tier) (ch : Nat) : Nat := match t with | .near => nearKeyOf ch | .bulk => bulkKeyOf ch

/-- A channel is active, trained and not in self-refresh. -/
def State.chanUp (s : State) (t : Tier) (ch : Nat) : Bool :=
  !s.inReset && decide (s.cur < 3) &&
    (match t with
     | .near => s.nearChans.contains ch && decide (s.nearSr < 2)
     | .bulk => s.bulkChans.contains (ch / 2) && decide (s.bulkSr < 2))

/-- A channel has refresh windows (R350): its bit is set and the list has an entry that opens one. -/
def State.hasWindows (s : State) (key : Nat) : Bool :=
  (if key < 32 then (s.rd F.ADM_REF_NEAR_CH).testBit key else (s.rd F.ADM_REF_BULK_SUB).testBit (key - 32)) &&
    s.gcl.any (·.ref)

/-- A refresh window of a channel is open. -/
def State.inWindow (s : State) (key : Nat) : Bool := s.hasWindows key && s.adm.gateRef

/-! ## Refresh (R218, R219) -/

/-- The postponement limit of a tier (Table 6.4). -/
def State.postponeLimit (s : State) (t : Tier) : Nat :=
  match t with
  | .near => 8
  | .bulk => if s.rdb F.BTC_CONFIG_REF_MODE then 8 else 4

/-- Refreshes postponed for a rank. -/
def State.postponed (s : State) (key rank : Nat) : Nat := (mget s.mem.postponed (key * 64 + rank)).getD 0

/-- The POSTPONED field of a channel: the largest count over its ranks. -/
def State.showPostponed (s : State) (key : Nat) : State :=
  let n := ((List.range 64).map (s.postponed key)).foldl max 0
  s.wrI (if key < 32 then F.NTC_CH_REF_POSTPONED else F.BTC_SC_REF_POSTPONED) (key % 32) n

/-- Replace the refresh lists. -/
def State.setPostponed (s : State) (key rank n : Nat) : State :=
  (s.setMem { s.mem with postponed := mset 0 s.mem.postponed (key * 64 + rank) n }).showPostponed key

/-- A window opens on a channel: its postponed refreshes are repaid in one burst, ranks ascending (R219 rule 3). -/
def State.windowOpens (s : State) (key : Nat) : State :=
  let burst := (List.range 64).flatMap (fun r => List.replicate (s.postponed key r) (key * 64 + r))
  (s.setMem { s.mem with
    repay := s.mem.repay ++ burst,
    postponed := s.mem.postponed.filter (fun e => decide (e.1 / 64 ≠ key)) }).showPostponed key

/-- REFRESH_DUE: issued when due without windows or inside one; postponed outside one; issued at once at the limit. -/
def execRefreshDue (tier : Tier) (ch rank : Nat) (s : State) : Result :=
  .next (
    let key := chanKey tier ch
    let now := s.setMem { s.mem with refDue := s.mem.refDue ++ [key * 64 + rank] }
    if !s.chanUp tier ch then s
    else if !s.hasWindows key ∨ s.inWindow key then now
    else if s.postponed key rank < s.postponeLimit tier then s.setPostponed key rank (s.postponed key rank + 1)
    else now.bump (match tier with | .near => F.NTC_CH_REF_AT_LIMIT | .bulk => F.BTC_SC_REF_AT_LIMIT) ch)

/-! ## Training (R211) -/

/-- The last temperature reading of a channel: of a subchannel, the hottest sensor of its channel's DIMMs. -/
def State.chanTemp (s : State) (key : Nat) : Nat :=
  if key < 32 then s.rd F.NTC_CH_STS_TEMP key
  else
    let n := (key - 32) / 2
    [2 * n, 2 * n + 1].foldl (fun m d => max m (max (s.rd F.BTC_DIMM_TEMP_TS0 d) (s.rd F.BTC_DIMM_TEMP_TS1 d))) 0

/-- When a channel was last trained: epoch, and temperature where one had been read. -/
def State.lastTrained (s : State) (key : Nat) : Nat × Option Nat := (mget s.mem.lastTrain key).getD (0, none)

/-- A training step falls due: RETRAIN_EP epochs have passed, or the temperature has moved 10 °C. -/
def State.trainingDue (s : State) (key : Nat) : Bool :=
  let (e, t) := s.lastTrained key
  decide (e + s.rd (if key < 32 then F.NTC_CTL_RETRAIN_EP else F.BTC_CTL_RETRAIN_EP) ≤ s.epoch) ||
    (match t with
     | some x => decide (x + 10 ≤ s.chanTemp key ∨ s.chanTemp key + 10 ≤ x)
     | none => false)

/-- PERIODIC_TRAINING_DUE: the step waits for a command slot; recentre tells that a subchannel's drift exceeds the
trained margin. -/
def execPeriodicTrainingDue (tier : Tier) (ch : Nat) (recentre : Bool) (s : State) : Result :=
  .next (
    let key := chanKey tier ch
    if s.chanUp tier ch ∧ s.trainingDue key ∧ (mget s.mem.due key).isNone then
      s.setMem { s.mem with due := mput s.mem.due key (s.epoch, recentre) }
    else s)

/-- A due training step must issue outside any window: the channel has none, or CYCLE epochs have passed. -/
def State.trainingForced (s : State) (key since : Nat) : Bool :=
  !s.hasWindows key || decide (since + s.adm.cycleNow ≤ s.epoch)

/-- A training step issues. A subchannel that recentres is stopped until CHANNEL_RETRAIN_DONE. -/
def State.train (s : State) (key : Nat) (recentre : Bool) : State :=
  let s1 := s.setMem { s.mem with
    due := mdel s.mem.due key, lastTrain := mput s.mem.lastTrain key (s.epoch, some (s.chanTemp key)) }
  if 32 ≤ key ∧ recentre then
    (s1.setMem { s1.mem with stopped := ninsert s1.mem.stopped key }).bump F.BTC_SC_TRAIN_RETRAINS (key - 32)
  else s1

/-! ## Command slots (R213 to R216) -/

/-- Urgency of a request after e ns (R216). -/
def urgency (target cap e : Nat) : Nat :=
  if target = 0 then (if cap * 1000 ≤ e then 4 else 0)
  else if e * 100 < 50 * target then 0 else if e * 100 < 75 * target then 1 else if e * 100 < 90 * target then 2
  else if e < target then 3 else 4

/-- A queued request with its place and its urgency. -/
structure Ready where
  i : Nat
  r : DramReq
  urg : Nat
  hit : Bool
  deriving DecidableEq, Repr

/-- The row of a bulk request is being copied (R252 step 1). -/
def State.rowCopied (s : State) (key : Nat) (r : DramReq) : Bool :=
  decide (32 ≤ key) && s.ras.copies.any (fun c =>
    decide (c.ch = (key - 32) / 2 ∧ b2n c.subB = (key - 32) % 2 ∧ c.set = r.bank / 32 ∧ c.bank = r.bank % 32 ∧ c.row = r.row))

/-- Only the oldest queued request of a row in in-order mode is eligible (R215). -/
def State.oldestOfRow (s : State) (key i : Nat) (r : DramReq) : Bool :=
  !s.rowOrdered key r.bank r.row ||
    !((s.chanQ key).take i).any (fun x => decide (x.bank = r.bank ∧ x.row = r.row))

/-- A request stands in its channel's queue: those beyond the entries wait at its door. -/
def State.inQueue (s : State) (key i : Nat) (r : DramReq) : Bool :=
  decide ((((s.chanQ key).take i).filter (fun x => x.write == r.write)).length < queueEntries key)

/-- The requests that a slot may issue, in order of arrival. -/
def State.readyList (s : State) (key now : Nat) (ready : List DramCmd) : List Ready :=
  let cap := s.rd (if key < 32 then F.NTC_CTL_AGE_CAP else F.BTC_CTL_AGE_CAP)
  ((List.range (s.chanQ key).length).zip (s.chanQ key)).filterMap (fun x =>
    if ready.contains (.request x.1) ∧ s.inQueue key x.1 x.2 ∧ s.oldestOfRow key x.1 x.2 ∧ !s.rowCopied key x.2 then
      some { i := x.1, r := x.2, urg := urgency x.2.target cap (now - x.2.time),
             hit := decide (mget s.mem.rows (bankKey key x.2.bank) = some x.2.row) }
    else none)

/-- The first of some requests by an order; the earlier in the queue among equals. -/
def bestOf (before : Ready → Ready → Bool) (l : List Ready) : Option Ready :=
  l.foldl (fun (b : Option Ready) x => match b with
    | none => some x
    | some y => if before x y then some x else some y) none

/-- Orders of R213. -/
def older (x y : Ready) : Bool := decide (x.r.time < y.r.time)
def urgent (x y : Ready) : Bool :=
  decide (y.urg < x.urg) || (decide (x.urg = y.urg) &&
    ((decide (x.r.cls = 15 ∧ y.r.cls ≠ 15)) || (decide ((x.r.cls = 15) = (y.r.cls = 15)) && older x y)))

/-- Steps 4 to 7 of R213. -/
def pickRequest (drain : Bool) (l : List Ready) : Option Ready :=
  let w := l.filter (·.r.write)
  (bestOf older (l.filter (fun x => decide (x.urg = 4)))).orElse fun _ =>
  (if drain then (bestOf older (w.filter (·.hit))).orElse fun _ => bestOf older w else none).orElse fun _ =>
  (bestOf urgent (l.filter (·.hit))).orElse fun _ =>
  (bestOf urgent (l.filter (fun x => !x.r.write))).orElse fun _ => bestOf older w

/-- A refresh issues: the rows of its rank close (R214). -/
def State.refreshRank (s : State) (key rank : Nat) : State :=
  s.setMem { s.mem with rows := s.mem.rows.filter (fun e =>
    !decide (e.1 / 1024 = key ∧ (key < 32 ∨ e.1 % 1024 / 32 = rank))) }

/-- A request issues: its row is open from now on. A near write is kept until the next one for its EDC check (R207). A frame
that has so been read whole goes to the codec (R94). -/
def State.issueReq (s : State) (key : Nat) (x : Ready) : State :=
  let s1 := s.setMem { s.mem with
    rows := mput s.mem.rows (bankKey key x.r.bank) x.r.row,
    lastWrite := if key < 32 ∧ x.r.write then mput s.mem.lastWrite key x.r else s.mem.lastWrite }
  (s1.requeue key ((s1.chanQ key).eraseIdx x.i)).dispatch

/-- The first refresh of a list that a slot may issue on a channel. -/
def firstRefresh (key : Nat) (ready : List DramCmd) (l : List Nat) : Option Nat :=
  l.find? (fun k => decide (k / 64 = key) && ready.contains (.refresh (k % 64)))

/-- The untrained DIMM of a subchannel's channel whose training goes on (R210): the one trained least, slot 0 first. -/
def State.dimmToTrain (s : State) (key : Nat) : Option Nat :=
  let n := (key - 32) / 2
  let told := fun d => (mget s.mem.dimmTrain d).getD 0
  match [2 * n, 2 * n + 1].filter (fun d => decide (32 ≤ key) && s.mem.untrained.contains d && !s.rdb F.BTC_DIMM_ID_EXCLUDED d) with
  | [a, b] => some (if told b < told a then b else a)
  | [a] => some a
  | _ => none

/-- The rest of a slot: urgency 4 and below, and behind every request a training command of an untrained DIMM (R210). -/
def State.slotRequest (s : State) (key now : Nat) (ready : List DramCmd) : State :=
  match pickRequest (s.rdb (drainOf key) (key % 32)) (s.readyList key now ready) with
  | some x => s.issueReq key x
  | none =>
    match s.dimmToTrain key with
    | some d =>
      if ready.contains .training then
        s.setMem { s.mem with dimmTrain := mput s.mem.dimmTrain d ((mget s.mem.dimmTrain d).getD 0 + 1) }
      else s
    | none => s

/-- A read for a demand promotion waits in a subchannel's read queue. -/
def State.promoWaits (s : State) (key : Nat) : Bool := decide (32 ≤ key) && (s.chanQ key).any (fun r => r.promo && !r.write)

/-- A due refresh that steps back behind a waiting demand promotion (R181): its rank's refreshes not yet issued are within
the limit. -/
def State.stepsBack (s : State) (key k : Nat) : Bool :=
  s.promoWaits key &&
    decide (s.postponed key (k % 64) + s.mem.refDue.count k ≤ s.postponeLimit .bulk)

/-- Step 3: a refresh being repaid, or a training step placed in the window. -/
def State.slotWindow (s : State) (key now : Nat) (ready : List DramCmd) : State :=
  match firstRefresh key ready s.mem.repay, mget s.mem.due key with
  | some k, _ => (s.setMem { s.mem with repay := s.mem.repay.erase k }).refreshRank key (k % 64)
  | none, some (_, rc) =>
    if s.inWindow key ∧ ready.contains .training then s.train key rc else s.slotRequest key now ready
  | none, none => s.slotRequest key now ready

/-- Steps 1 and 2: what must issue now, then the oldest read of a demand promotion. -/
def State.slot (s : State) (key now : Nat) (ready : List DramCmd) : State :=
  match firstRefresh key ready (s.mem.refDue.filter (fun k => !s.stepsBack key k)), mget s.mem.due key with
  | some k, _ => (s.setMem { s.mem with refDue := s.mem.refDue.erase k }).refreshRank key (k % 64)
  | none, d =>
    let forced := match d with
      | some (since, rc) => if s.trainingForced key since ∧ ready.contains .training then some rc else none
      | none => none
    match forced with
    | some rc => s.train key rc
    | none =>
      match if 32 ≤ key then bestOf older ((s.readyList key now ready).filter (fun x => x.r.promo && !x.r.write))
          else none with
      | some x => s.issueReq key x
      | none => s.slotWindow key now ready

/-- DRAM_COMMAND_SLOT: one slot of a channel at a time in ns of the timebase; ready lists what the DRAM timing allows. -/
def execDramCommandSlot (tier : Tier) (ch now : Nat) (ready : List DramCmd) (s : State) : Result :=
  .next (if s.chanUp tier ch ∧ !s.mem.stopped.contains (chanKey tier ch) then s.slot (chanKey tier ch) now ready else s)

/-! ## Read data (R207, R242, R243) -/

/-- The tile that a read in flight belongs to. -/
def State.readTile (s : State) (r : NearRead) : Nat × Nat :=
  match s.fte r.frame with
  | some e => (e.slot, e.tile)
  | none => match s.decode r.req with
    | .ok slot => (slot, (s.offsetOf r.req slot) / 4096)
    | .error _ => (0, 0)

/-- EDC retries of a burst, and the burst whose retries are exhausted. fails counts the attempts that failed. -/
def State.edc (s : State) (ch fails : Nat) : State :=
  let n := min fails (s.rd F.NTC_CTL_EDC_RETRY)
  let s1 := if n = 0 then s else s.bump F.NTC_CH_EDC_RETRIES ch 0 n
  if s.rd F.NTC_CTL_EDC_RETRY < fails then s1.bump F.NTC_CH_EDC_EXHAUSTED ch else s1

/-- The line is uncorrectable: it is poisoned, unless a full-line write has replaced it since; the bytes of a partial write
are discarded. -/
def State.readUe (s : State) (r : NearRead) (edc : Nat) : State :=
  let (slot, tile) := s.readTile r
  if r.replaced then s.countUe (s.lineSpot r.frame r.line)
  else
    let s1 := if r.merge then s.putLine r.frame r.line r.data r.poison else s
    s1.nearUe slot tile r.frame r.line edc

/-- The end of a near read: the answer to its request. -/
def State.readEnd (s : State) (r : NearRead) (poison : Bool) : State :=
  if r.merge then s.answerWrite r.req else s.answerRead r.req poison r.data

/-- The data of a near read arrives. -/
def State.readData (s : State) (r : NearRead) (edcFails : Nat) (ecc : Ecc) : State :=
  let s0 := s.setNear { s.near with reads := s.near.reads.filter (fun x => decide (x.id ≠ r.id)) }
  let p := s0.lineSpot r.frame r.line
  let (slot, tile) := s0.readTile r
  let fails := if s0.bulkOnly then 0 else edcFails
  let s1 := if s0.bulkOnly then s0 else s0.edc p.page fails
  match ecc with
  | .clean => s1.readEnd r r.poison
  | .corrected => (s1.corrected p { slot := some slot, tile := tile }).readEnd r r.poison
  | .uncorrectable => (s1.readUe r (min fails (s.rd F.NTC_CTL_EDC_RETRY))).readEnd r true

/-- What ECC finds in a near read: the code's outcome for the parts that are wrong (R205, R206), and a marked word with a bit
error is uncorrectable (R234). -/
def State.readEcc (s : State) (r : NearRead) (bad : List Nat) : Ecc :=
  markedEcc (s.nearPoison r.frame r.line) (s.lineCode bad)

/-- DRAM_READ_DATA: bad lists the symbols of the line (of a sector in bulk-only mode, the devices) that are wrong. -/
def execDramReadData (id edcFails : Nat) (bad : List Nat) (s : State) : Result :=
  .next (match s.near.reads.find? (fun r => decide (r.id = id)) with
    | some r => if s.serving ∧ !s.queued id then s.readData r edcFails (s.readEcc r bad) else s
    | none => s)

/-! ## Retrains and failures (R212) -/

/-- A channel, subchannel or DIMM is FAILED: firmware requests a warm reset. -/
def State.chanFailed (s : State) (t : Tier) (ch : Nat) : State :=
  (match t with
   | .near => (s.wrI F.NTC_CH_CTL_FAILED ch 1).raise (cNtc ch 0)
   | .bulk => (s.wrI F.BTC_SC_CTL_FAILED ch 1).raise (cBtc ch 0)).warm 5 0

/-- A write burst whose EDC retries are exhausted is issued again after the retrain: it keeps its place at the head of the
channel's order, before the requests of its row (R207). -/
def State.writeAgain (s : State) (ch : Nat) : State :=
  match mget s.mem.lastWrite ch with
  | some w =>
    let s1 := s.setMem { s.mem with
      lastWrite := mdel s.mem.lastWrite ch,
      inOrder := if (s.chanQ ch).any (fun r => decide (r.bank = w.bank ∧ r.row = w.row)) then
          mput s.mem.inOrder (bankKey ch w.bank) (w.id :: s.orderIds ch w.bank)
        else s.mem.inOrder }
    s1.setChanQ ch (w :: s1.chanQ ch)
  | none => s

/-- EDC_WRITE_FAIL: the write burst issued last fails EDC on fails attempts; more than EDC_RETRY retries stop the channel for
a retrain. -/
def execEdcWriteFail (ch fails : Nat) (s : State) : Result :=
  .next (if s.chanUp .near ch ∧ !s.mem.stopped.contains ch ∧ 0 < fails then
    let s1 := s.edc ch fails
    if fails ≤ s.rd F.NTC_CTL_EDC_RETRY then s1
    else
      let s2 := (s1.log 0x0e { location := ch, detail := s.rd F.NTC_CTL_EDC_RETRY }).bump F.NTC_CH_EDC_RETRAINS ch
      (s2.setMem { s2.mem with stopped := ninsert s2.mem.stopped ch }).writeAgain ch
  else s)

/-- CHANNEL_RETRAIN_DONE: the channel resumes, trains once more, or is FAILED after the second failure in succession. -/
def execChannelRetrainDone (tier : Tier) (ch : Nat) (ok : Bool) (s : State) : Result :=
  .next (
    let key := chanKey tier ch
    if !s.chanUp tier ch ∨ !s.mem.stopped.contains key then s
    else if ok then s.setMem { s.mem with stopped := nerase s.mem.stopped key, fails := mdel s.mem.fails key }
    else
      let n := (mget s.mem.fails key).getD 0 + 1
      let s1 := match tier with
        | .near => s.raise (cNtc ch 3)
        | .bulk => (s.bump F.BTC_SC_TRAIN_FAILS ch).raise (cBtc ch 3)
      let s2 := s1.setMem { s1.mem with fails := mput s1.mem.fails key n }
      if 2 ≤ n then s2.chanFailed tier ch
      else match tier with
        | .near => s2.bump F.NTC_CH_EDC_RETRAINS ch
        | .bulk => s2)

/-- A DIMM that SPD answered and that is not off. -/
def State.dimmOn (s : State) (d : Nat) : Bool :=
  !s.inReset && decide (s.cur < 3) && s.rdb F.BTC_DIMM_ID_PRESENT d && !s.rdb F.BTC_DIMM_PMIC_OFF d

/-- PMIC_POWER_FAULT (R222, R212). -/
def execPmicPowerFault (d : Nat) (s : State) : Result :=
  .next (if s.dimmOn d ∧ !s.rdb F.BTC_DIMM_PMIC_FAULT d then
    let a := 2 * (d / 2)
    ((((s.wrI F.BTC_DIMM_PMIC_FAULT d 1).raise (cBtc a 4)).raise (cBtc a 0)).raise (cBtc (a + 1) 0)).warm 5 0
  else s)

/-- PMIC_STATUS_POLL (R222): the status bytes read, and the DIMMs whose PMIC warns. -/
def execPmicStatusPoll (status : List (Nat × BitVec 8)) (warn : List Nat) (s : State) : Result :=
  .next (
    let s1 := status.foldl (fun s x => if s.dimmOn x.1 then s.wrI F.BTC_DIMM_PMIC_STATUS x.1 x.2.toNat else s) s
    warn.foldl (fun s d => if s.dimmOn d then (s.wrI F.BTC_DIMM_PMIC_WARN d 1).raise (cBtc (2 * (d / 2)) 4) else s) s1)

/-! ## Temperature (R218, R220) -/

/-- Hot or not by its valid readings (R218); a failed one makes the device hot only until the next. -/
def hotAfter (was fail : Bool) (t : Nat) : Bool :=
  if fail then was else if 85 < t then true else if t ≤ 83 then false else was

/-- At or above CRIT, until 2 °C below it. -/
def critAfter (was fail : Bool) (crit t : Nat) : Bool :=
  if fail then was else if crit ≤ t then true else if t + 2 ≤ crit then false else was

/-- Put a number into a set or take it out. -/
def nput (l : List Nat) (k : Nat) (b : Bool) : List Nat := if b then ninsert l k else nerase l k

/-- The first reading after a training without one is its temperature. -/
def State.baseTemp (s : State) (key : Nat) : State :=
  match s.lastTrained key with
  | (e, none) => s.setMem { s.mem with lastTrain := mput s.mem.lastTrain key (e, some (s.chanTemp key)) }
  | _ => s

/-- A reading of a near position: its two channels follow it. -/
def State.nearTemp (s : State) (r : TempReading) : State :=
  let p := r.unit
  let t := max r.t0 r.t1
  let was := s.mem.posCrit.contains p
  let crit := critAfter was r.fail (s.rd F.NTC_THERM_CRIT) t
  let warm := hotAfter (s.mem.posHot.contains p) r.fail t
  let hot := r.fail || warm
  let s1 := s.setMem { s.mem with posCrit := nput s.mem.posCrit p crit, posHot := nput s.mem.posHot p warm }
  [2 * p, 2 * p + 1].foldl (fun s c =>
    let s2 := if r.fail then s else (s.wrI F.NTC_CH_STS_TEMP c t).baseTemp c
    let s3 := (s2.wrb F.NTC_CH_CTL_HOT c hot).chanStatus c
    if crit ∧ !was then s3.raise (cNtc c 2) else s3) s1

/-- A reading of a DIMM: both subchannels of its channel follow it; a read that failed is a failed transaction of its
sideband bus (R221). -/
def State.dimmTemp (s : State) (r : TempReading) : State :=
  let d := r.unit
  let t := max r.t0 r.t1
  let was := s.mem.dimmCrit.contains d
  let crit := critAfter was r.fail (s.rd F.BTC_CTL_CRIT) t
  let s1 := s.setMem { s.mem with
    dimmCrit := nput s.mem.dimmCrit d crit,
    dimmHot := nput s.mem.dimmHot d (hotAfter (s.mem.dimmHot.contains d) r.fail t) }
  let s2 := if r.fail then s1 else (s1.wrI F.BTC_DIMM_TEMP_TS0 d r.t0).wrI F.BTC_DIMM_TEMP_TS1 d r.t1
  let s0 := s2.wrb F.BTC_DIMM_TEMP_READ_FAIL d r.fail
  let s3 := if r.fail then s0.wr F.BTC_SB_ERR (setBit (s0.rd F.BTC_SB_ERR) (d / 8)) else s0
  let a := 2 * (d / 2)
  let hot := [a, a + 1].any (fun x => s3.mem.dimmHot.contains x || s3.rdb F.BTC_DIMM_TEMP_READ_FAIL x)
  [a, a + 1].foldl (fun s u =>
    let s4 := ((s.wrb F.BTC_SC_CTL_HOT u hot).baseTemp (bulkKeyOf u)).chanStatus (bulkKeyOf u)
    if crit ∧ !was then s4.raise (cBtc u 2) else s4) s3

/-- TEMPERATURE_POLL. -/
def execTemperaturePoll (tier : Tier) (readings : List TempReading) (s : State) : Result :=
  .next (readings.foldl (fun s r =>
    match tier with
    | .near => if !s.inReset ∧ s.cur < 3 ∧ (s.rd F.NTC_CONFIG_POS_ACTIVE).testBit r.unit then s.nearTemp r else s
    | .bulk => if s.dimmOn r.unit then s.dimmTemp r else s) s)

/-! ## Training of DIMMs that were off in P3 (R210) -/

/-- The rank sets that may take runs: those that lie on no untrained DIMM. -/
def State.openSets (s : State) : State :=
  { s with bulk := { s.bulk with sets := s.bulk.sets.map (fun r =>
      { r with usable := !s.mem.untrained.any (fun d => decide (d % 2 = r.slot) && s.bulkChans.contains (d / 2)) }) } }

/-- DIMM_FULL_TRAINING_DONE: the DIMMs that passed, their trained values saved; the others are excluded and stay unused. -/
def execDimmFullTrainingDone (passed : List Nat) (s : State) : Result :=
  .next (if s.inReset ∨ s.mem.untrained.isEmpty ∨ s.cur ≠ 0 then s
    else
      let bad := s.mem.untrained.filter (fun d => !passed.contains d ∧ !s.rdb F.BTC_DIMM_ID_EXCLUDED d)
      let s1 := (s.setMem { s.mem with untrained := s.mem.untrained.filter (fun d => !passed.contains d), dimmTrain := [] }).openSets.saveTraining
      bad.foldl (fun s d =>
        let a := 2 * (d / 2)
        ((s.wrI F.BTC_DIMM_ID_EXCLUDED d 1).raise (cBtc a 1)).raise (cBtc (a + 1) 1)) s1)

end Sys2Proof.Machine
end

