-- ==== Sys2Proof/Machine/Keys.lean ====
section
/-!
DEFINITION. Machine/Keys.lean: the integrity halt, the random source, rekeys and the key commands (R135, R139, R140, R149
to R158, R162 to R164, R299, R300; 04_crypto.md, 08_host_links.md).
-/
namespace Sys2Proof.Machine

/-! ## The integrity halt (Table 4.8) -/

/-- Host reads that are outstanding: head, LD and tag, each once. -/
def State.outstandingReads (s : State) : List (Nat × Nat × Nat) :=
  ((s.adm.queue ++ s.tmu.waits.map (·.req) ++ s.near.reads.map (·.req) ++ s.tmu.moves.filterMap (·.req) ++
    s.dir.busy.filterMap (fun b => match b.then_ with
      | .serve q => some q
      | .evictFor q => some q
      | _ => none) ++ s.clx.reqs.map (·.req)).filterMap (fun q => match q.kind, q.org with
        | .read, .host h l tag => some (h, l, tag)
        | _, _ => none)).dedup

/-- HALT_VIRAL (step 2): every host port signals viral, outstanding reads complete with poison, and what is not complete
is not applied. -/
def execHaltViral (s : State) : Result :=
  .next (if s.cry.halt = 1 then
    let s1 := s.outstandingReads.foldl (fun s x => s.emit (.data x.1 x.2.1 x.2.2 0 true .cmp)) s
    let s2 := (s1.dropRequests (fun _ => true)).wr F.HLX_VIRAL_OUT
      (maskOf ((List.range 16).filter (fun n => decide (s.portOf n = n))))
    s2.setCry { s2.cry with halt := 2 }
  else s)

/-- HALT_CHAIN_STOP (step 3): CLX transmits no further flit (clSends). -/
def execHaltChainStop (s : State) : Result :=
  .next (if s.cry.halt = 2 then s.setCry { s.cry with halt := 3 } else s)

/-- Every generation and binding of the vault reads 0 (Table 4.9, Halt). -/
def State.zeroizeGens (s : State) : State :=
  (List.range 64).foldl (fun s r =>
    [F.CRY_RGN_GEN_CUR, F.CRY_RGN_GEN_PREV, F.CRY_RGN_REKEY_STATE, F.CRY_RGN_REKEY_QUEUED, F.CRY_RGN_KEY_BASE_GEN,
     F.CRY_RGN_KEY_KEY_BIND, F.TMU_RGN_POLICY_KEYGEN].foldl (fun s f => s.wrI f r 0) s) s

/-- HALT_ZEROIZE (step 4): the vault, the IDE keys and what the AON retention store holds are zeroized (R136, R147, R210,
R433, R439, R491, R492); the controllers accept no request. -/
def execHaltZeroize (s : State) : Result :=
  .next (if s.cry.halt = 3 then
    let s1 := s.zeroizeGens.setCry { s.cry with
      root := none, kek := none, slotKeys := [], cross := [], keyWait := [], walks := [], rekeyJobs := [], ide := [],
      ctrHolds := [], halt := 4 }
    let s2 := s1.setClx { s1.clx with home := [] }
    { s2 with
      ctl := { s2.ctl with override := none },
      mem := { s2.mem with canaries := [], serials := [], resumeHeader := [] } }
  else s)

/-- TRNG_HEALTH_FAIL (R135): a continuous test fails once a root key exists. -/
def execTrngHealthFail (s : State) : Result :=
  .next (if s.cry.root.isSome ∧ s.cry.halt = 0 ∧ s.cur < 3 then (s.wr F.CRY_MODE_TRNG_OK 0).raise cTrngFault else s)

/-! ## Rekey (Table 4.6) -/

/-- REKEY_KEY_READY (step 2): the vault holds the new bulk key and the demotions that waited for it go on. -/
def execRekeyKeyReady (slot : Nat) (s : State) : Result :=
  .next (if s.cry.keyWait.contains slot ∧ s.cry.halt = 0 then
    let s1 := s.setCry { s.cry with keyWait := nerase s.cry.keyWait slot }
    (s1.setTmu { s1.tmu with moves := s1.tmu.moves.map (fun m =>
      if m.slot = slot ∧ m.stage = .keyWait then { m with stage := .compress } else m) }).dispatch
  else s)

/-- A PATTERN tile without a near frame is resealed under its crossing counter in one update (step 4), as a ZERO one is whose
writes are held (log entry 108); a seal that does not unseal fails TCS and the tile is poisoned (R160). An attempt that finds
no free crossing-table entry waits, and counts (R148). -/
def State.reseal (s : State) (slot tile : Nat) : Option State :=
  if s.cry.keyWait.contains slot ∨ (s.lockOf slot tile).isSome then none
  else
    let t := s.tme slot tile
    if !s.expandOk slot tile t then
      (s.admitInternal 14 4096).map (fun s1 => (s1.expandMismatch slot tile).leaveInternal 14 false)
    else match s.takeCounter slot tile t with
      | none => some (s.bump F.CRY_XTAB_WAITS)
      | some (u, s0) => (s0.admitInternal 14 4096).map (fun s1 =>
        let p := (s.expand slot tile t).take 8
        let sealed := if t.fmt = .pattern then xorBytes p (s.sealStream slot tile u.gen u.ctr) else []
        let s2 := s1.setTme slot tile { t with
          gen := decide (u.gen % 2 = 1), ctr := u.ctr, tag := BitVec.ofNat 64 (leNat sealed), saturated := false }
        ((s2.setCry { s2.cry with cross := mdel s2.cry.cross (tkey slot tile) }).leaveInternal 14 false).releaseHold slot tile)

/-- One tile of the walk: its frame is made DIRTY and demoted, its pattern is resealed, or it is promoted first. -/
def State.crossTile (s : State) (slot tile e : Nat) : Option State :=
  match s.cacheGood slot tile with
  | none => none
  | some s0 =>
    let t := s0.tme slot tile
    if t.nv then
      match s0.fte t.near with
      | some x =>
        let s1 := if x.state = FState.clean then s0.setFte t.near { x with state := .dirty } else s0
        s1.startDemotion t.near 14 .rekey (some e)
      | none => none
    else if t.len = 0 then s0.reseal slot tile
    else s0.startPromotion slot tile 14 .rekey (some e)

/-- The next tile that the walk takes: a saturated one first, then from its position on, then aborted crossings. -/
def State.walkNext (s : State) (slot pos : Nat) : Option Nat :=
  let left := (s.toCross slot).filter (fun t => !s.tmu.moves.any (fun m => decide (m.slot = slot ∧ m.tile = t)))
  match left.find? (fun t => (s.tme slot t).saturated) with
  | some t => some t
  | none => match left.find? (fun t => decide (pos ≤ t)) with
    | some t => some t
    | none => left.head?

/-- REKEY_WALK_STEP (step 4). -/
def execRekeyWalkStep (slot : Nat) (s : State) : Result :=
  .next (if s.rekeying slot ∧ s.scarabRuns then
    match s.freeEngine, s.walkNext slot ((mget s.cry.walks slot).getD 0) with
    | some e, some tile =>
      match s.crossTile slot tile e with
      | some s1 => s1.setCry { s1.cry with walks := mput s1.cry.walks slot (tile + 1) }
      | none => s
    | _, _ => s
  else s)

/-- REKEY_DONE (steps 5 and 6): nothing is left to cross and no entry of the region is left in the crossing table. -/
def execRekeyDone (slot : Nat) (s : State) : Result :=
  .next (if s.rekeying slot ∧ s.serving ∧ s.toCross slot = [] ∧ crossOf slot s.cry.cross = [] ∧
      !s.cry.keyWait.contains slot then
    let s1 := ((s.wrI F.CRY_RGN_GEN_PREV slot 0).wrI F.CRY_RGN_REKEY_STATE slot 0).setCry { s.cry with
      walks := mdel s.cry.walks slot, rekeyJobs := s.cry.rekeyJobs.filter (fun e => decide (e.2 ≠ slot)) }
    let s2 := ({ s1 with adm := { s1.adm with recompute := true } }).raise cRekeyDone (region := some slot)
    let s3 := s2.bgDone 0xc014 slot rcSuccess (resultHeader 0 0)
    if s3.rdb F.CRY_RGN_REKEY_QUEUED slot then (s3.wrI F.CRY_RGN_REKEY_QUEUED slot 0).startRekey slot 1 else s3
  else s)

/-! ## Key commands (Table 8.6) -/

/-- Regions not FREE. -/
def State.regionsPresent (s : State) : Nat := ((List.range 64).filter (fun r => decide (s.rgnState r ≠ 0))).length

/-- A region in a state other than FREE is bound to a key slot (R156, R157). -/
def State.keyBound (s : State) (k : Nat) : Bool :=
  s.vk4 && (List.range 64).any (fun r => decide (s.rgnState r ≠ 0 ∧ s.rd F.CRY_RGN_KEY_KEY_BIND r = k))

/-- SET_KEY_MODE (R154); native key mode clamps every KEY_EN to 0 (R51, R549). -/
def State.setKeyMode (s : State) (src : MboxSrc) (p : List Byte) : State :=
  s.avsar src 0xc010 4 (.perm 0) p (fun s =>
    let v := numAt p 0 4
    if 1 < v then .err 2 0
    else if s.regionsPresent ≠ 0 then .err 9 s.regionsPresent
    else
      let s1 := s.wr F.CRY_MODE_MODE v
      .ok (if v = 0 then (List.range 16).foldl (fun s h => s.wrAt F.TMU_HEAD_TAG_KEY_EN 0 h 0) s1 else s1) [])

/-- LOAD_WRAP_KEY comes in a session that meets the conditions of R454. -/
def State.wrapSession (s : State) (src : MboxSrc) : Bool :=
  match src with
  | .session h l sid => s.ctl.sessions.any (fun x => decide (x.h = h ∧ x.l = l ∧ x.sid = sid) && x.authd && x.listed)
  | _ => false

/-- LOAD_WRAP_KEY (R155). -/
def State.loadWrapKey (s : State) (src : MboxSrc) (p : List Byte) : State :=
  s.avsar src 0xc011 36 (.perm 0) p (fun s =>
    if !s.wrapSession src then .err 0xb 0
    else match reservedAt p 0 4 with
      | some i => .err 2 i
      | none => .ok (s.setCry { s.cry with kek := some (BitVec.ofNat 256 (beNat (bytesAt p 4 32))) }) [])

/-- LOAD_KEY_SLOT (R155, R156). -/
def State.loadKeySlot (s : State) (src : MboxSrc) (p : List Byte) : State :=
  s.avsar src 0xc012 44 (.perm 1) p (fun s =>
    let k := numAt p 0 4
    if 63 < k then .err 2 0
    else match s.cry.kek with
      | none => .err 0xa 1
      | some kek => match kwUnwrap (beBytes 32 kek.toNat) (bytesAt p 4 40) with
        | none => .err 0xa 2
        | some key =>
          if s.keyBound k then .err 0xa 3
          else .ok (s.setCry { s.cry with slotKeys := mput s.cry.slotKeys k (BitVec.ofNat 256 (beNat key)) }) [])

/-- CLEAR_KEY_SLOT (R156). -/
def State.clearKeySlot (s : State) (src : MboxSrc) (p : List Byte) : State :=
  s.avsar src 0xc013 4 (.perm 1) p (fun s =>
    let k := numAt p 0 4
    if 63 < k then .err 2 0
    else if s.keyBound k then .err 0xa 3
    else .ok (s.setCry { s.cry with slotKeys := mdel s.cry.slotKeys k }) [])

/-- REKEY_REGION (R140, R151, R190): a region that is being rekeyed is joined; a FAR region holds nothing here to rekey. -/
def State.rekeyRegion (s : State) (src : MboxSrc) (p : List Byte) : State :=
  let r := numAt p 0 4
  let checks := fun (s : State) (f : State → Ans) =>
    if 63 < r then Ans.err 2 0
    else if s.rgnState r = 0 then .err 4 r
    else if s.slotHeld r ∨ s.isDeleting r then .err 0xc 1
    else if s.rgnType r = 4 then .err 4 r
    else if s.rgnState r = 3 then .err 0xc 5
    else f s
  if s.nearOnly then s.avsar src 0xc014 4 (.perm 0) p (fun s => checks s (fun s => .ok s []))
  else s.background src 0xc014 4 (.perm 0) p r (fun s => checks s (fun s =>
    if s.rekeying r then .ok s []
    else if s.curGen r = 0xffffffff then .raised (s.raise cKeygenExhausted) 8 r
    else .ok (s.startRekey r 3) []))

/-- SET_KEY_MODE. -/
def execSetKeyMode (src : MboxSrc) (payload : List (BitVec 8)) (s : State) : Result := .next (s.setKeyMode src payload)

/-- LOAD_WRAP_KEY. -/
def execLoadWrapKey (src : MboxSrc) (payload : List (BitVec 8)) (s : State) : Result := .next (s.loadWrapKey src payload)

/-- LOAD_KEY_SLOT. -/
def execLoadKeySlot (src : MboxSrc) (payload : List (BitVec 8)) (s : State) : Result := .next (s.loadKeySlot src payload)

/-- CLEAR_KEY_SLOT. -/
def execClearKeySlot (src : MboxSrc) (payload : List (BitVec 8)) (s : State) : Result := .next (s.clearKeySlot src payload)

/-- REKEY_REGION. -/
def execRekeyRegion (src : MboxSrc) (payload : List (BitVec 8)) (s : State) : Result := .next (s.rekeyRegion src payload)

end Sys2Proof.Machine
end

