-- ==== Sys2Proof/Machine/Ras.lean ====
section
/-!
DEFINITION. Machine/Ras.lean: evacuation, the Weevil scrubber, the retention sweep, row copies and the RAS commands (R247,
R252, R256 to R270; 07_ras.md).
-/
namespace Sys2Proof.Machine

/-! ## Row copies (R252) -/

/-- DETAIL of a ROW_REMAP record (Table 7.11). -/
def RowCopy.detail (c : RowCopy) : Nat := c.row + 2 ^ 20 * c.spare + 2 ^ 40 * c.entry

/-- The row key of a copy's faulted row. -/
def RowCopy.key (c : RowCopy) : Nat := b2n c.subB + 2 * 1 + 4 * c.set + 2 ^ 6 * c.bank + 2 ^ 11 * c.row

/-- The remap entry of a copy is written and BTC redirects the row: its bytes are those of the faulted row, corrected. -/
def State.remapRow (s : State) (c : RowCopy) : State :=
  let p := 32 + c.ch
  let s1 := s.setRas { s.ras with copies := s.ras.copies.filter (fun x => decide (x ≠ c)) }
  let s2 := (((((s1.wrAt F.RAS_REMAP_ROW p c.entry c.row).wrAt F.RAS_REMAP_BANK p c.entry c.bank).wrAt
    F.RAS_REMAP_SET p c.entry c.set).wrAt F.RAS_REMAP_SUB_B p c.entry (b2n c.subB)).wrAt F.RAS_REMAP_SPARE p c.entry
      c.spare).wrAt F.RAS_REMAP_VALID p c.entry 1
  let s3 := s2.noteRemap p
  let s4 := ((s3.reserveUse 128).log 0x06 { location := rowLocation p c.key, detail := c.detail }).raise cRowRemapped
  (s4.log 0x0b { location := rowLocation p c.key, detail := c.detail, blk := some 6, sev := some 4 }).raise cSpareUsed

/-- ROW_REMAP_COPY_DONE: the copy of 128 sectors is one unit of class 13; what waited for the row proceeds. -/
def execRowRemapCopyDone (ch entry : Nat) (s : State) : Result :=
  .next (match s.ras.copies.find? (fun c => decide (c.ch = ch ∧ c.entry = entry)) with
    | some c =>
      if s.serving ∧ s.bulkSr = 0 then
        match s.admitInternal 13 8192 with
        | some s1 => ((s1.remapRow c).leaveInternal 13 false).resumeWhy (fun w => decide (w.why = .remap))
        | none => s
      else s
    | none => s)

/-! ## Evacuation (R258, R259) -/

/-- A sector lies in rank set id. -/
def State.inSet (s : State) (id x : Nat) : Bool :=
  match s.setOf x with | some r => decide (r.id = id) | none => false

/-- The regions that hold sectors. -/
def State.heldSlots (s : State) : List Nat :=
  (List.range 64).filter (fun r => decide (s.rgnState r = 1 ∨ s.rgnState r = 2) && decide (s.rgnType r ≠ 4))

/-- Tiles of a region whose run lies in a set. -/
def State.tilesIn (s : State) (id r : Nat) : List Nat :=
  (s.entries r).filter (fun t => decide (0 < (s.tme r t).len) && s.inSet id (s.tme r t).loc)

/-- The tile map lies in a set. -/
def State.mapsIn (s : State) (id : Nat) : List Nat :=
  (List.range 64).filter (fun r => decide (s.rgnState r ≠ 0) && s.inSet id (s.rd F.TMU_RGN_MAPLOC_LOC r))

/-- The first fit of n free sectors in an open retained set, none of them in a listed bank (R266). -/
def State.retainedRoom (s : State) (n : Nat) : Option (Nat × State) :=
  let ok := fun a => s.inRetained a && (match s.setOf a with | some r => s.setOpen r | none => false)
  (s.tmu.freeIv.find? (fun e => ok e.1 && decide (n ≤ e.2) && decide (s.openCount e.1 n = n))).map (fun e =>
    (e.1, s.setTmu { s.tmu with freeIv := s.tmu.freeIv.flatMap (fun x =>
      if x = e then (if x.2 = n then [] else [(x.1 + n, x.2 - n)]) else [x]) }))

/-- The whole tile map space moves to sector a. -/
def State.shiftMaps (s : State) (a : Nat) : State :=
  let base := s.rd F.TMU_MAP_BASE_LOC
  let s1 := (List.range 64).foldl (fun s r =>
    if s.rgnState r ≠ 0 then s.wrI F.TMU_RGN_MAPLOC_LOC r (a + s.rd F.TMU_RGN_MAPLOC_LOC r - base) else s) s
  let s2 := s1.wr F.TMU_MAP_BASE_LOC a
  s2.setTmu { s2.tmu with mapFree := s2.tmu.mapFree.map (fun e => (a + e.1 - base, e.2)) }

/-- Step 2: the tile map leaves the set, whole where another retained set has room for its space, else one region's map
after the other; none when no retained room is left. -/
def State.moveMaps (s : State) (id : Nat) : Option State :=
  match if s.inSet id (s.rd F.TMU_MAP_BASE_LOC) then s.retainedRoom (s.rd F.TMU_MAP_SIZE_SECTORS) else none with
  | some (a, s1) => some (s1.shiftMaps a)
  | none => match s.mapsIn id with
    | [] => some s
    | r :: _ => (s.retainedRoom (s.rd F.TMU_RGN_MAP_SIZE r * 131072)).map (fun x => x.2.wrI F.TMU_RGN_MAPLOC_LOC r x.1)

/-- A tile or a map sector finds no room: RANK_EVAC_STALLED, once until evacuation goes on. -/
def State.stall (s : State) : State :=
  if s.rdb F.RAS_RANK_STS_STALLED then s else (s.wr F.RAS_RANK_STS_STALLED 1).raise cRankEvacStalled

/-- The set is still named by a move under way. -/
def State.setMoves (s : State) (id : Nat) : Bool :=
  s.tmu.moves.any (fun m => (decide (0 < m.tme.len) && s.inSet id m.tme.loc) || (decide (0 < m.len) && s.inSet id m.loc) ||
    decide (m.purpose = .evacuate))

/-- Steps 4 and 5: the set is removed from service; the next FAILING set's evacuation begins. -/
def State.removeSet (s : State) (id : Nat) : State :=
  let dest := s.ras.evacDest
  let out := fun a => !s.inSet id a
  let s1 := (s.setTmu { s.tmu with
    freeIv := s.tmu.freeIv.filter (fun e => out e.1),
    mapFree := s.tmu.mapFree.filter (fun e => out e.1) }).keepRuns out
  let s2 := ((s1.wr F.RAS_RANK_STS_FAILING (clrBit (s1.rd F.RAS_RANK_STS_FAILING) id)).wr F.RAS_RANK_STS_REMOVED
    (setBit (s1.rd F.RAS_RANK_STS_REMOVED) id)).wr F.RAS_RANK_STS_STALLED 0
  let nb := s.rd F.BTC_CONFIG_NCH
  let size := match s.bulk.sets.find? (fun r => decide (r.id = id)) with
    | some r => r.sectors - reserveSectors nb r | none => 0
  let s3 := match dest with
    | some d => (s2.wr F.RAS_SPARE_SET_VALID 0).spare 7 id (some d) 0
    | none => (s2.wr F.TMU_CAP_TOTAL_SECTORS (s2.rd F.TMU_CAP_TOTAL_SECTORS - size)).spare 7 id none 0
  let s4 := (s3.log 0x0a { detail := id + (match dest with | some d => 16 + 2 ^ 8 * d | none => 0) }).raise cRankEvacDone
  let next := (List.range 16).find? (fun k => (s4.rd F.RAS_RANK_STS_FAILING).testBit k)
  let s5 := match next with
    | some k => s4.startEvacuation k
    | none => s4.setRas { s4.ras with evac := none, evacDest := none }
  (s5.setAdm { s5.adm with recompute := true }).bgDone 0xc032 id rcSuccess (resultHeader 0 0)

/-- The next tile of the set that no move holds: its region and its number. -/
def State.nextTile (s : State) (id : Nat) : Option (Nat × Nat) :=
  s.heldSlots.findSome? (fun r => ((s.tilesIn id r).find? (fun t =>
    !s.tmu.moves.any (fun m => decide (m.slot = r ∧ m.tile = t)) && !s.stuck r (s.tme r t))).map (fun t => (r, t)))

/-- The next piece of an evacuation: a map, the data-less fixed slots of a region, a tile; then the end. -/
def State.evacuate (s : State) (id : Nat) : State :=
  let going := fun (s : State) => s.wr F.RAS_RANK_STS_STALLED 0
  if !(s.mapsIn id).isEmpty ∨ s.inSet id (s.rd F.TMU_MAP_BASE_LOC) ∧ (s.retainedRoom (s.rd F.TMU_MAP_SIZE_SECTORS)).isSome then
    match s.moveMaps id with
    | some s1 => going s1
    | none => s.stall
  else
    let leave := fun (x : RankSet) => decide (x.id = id)
    match s.heldSlots.find? (fun r => s.fixedSlots r && (s.pieces r leave).any (fun x => x.2.2)) with
    | some r => match s.exchangeFixed r leave (s.rdb F.TMU_RGN_MAP_RETAIN r) with
      | some s1 => going s1
      | none => s.stall
    | none => match s.nextTile id with
      | some (r, t) =>
        if (s.alloc r (if s.fixedSlots r then 64 else (s.tme r t).len)).isNone then s.stall
        else match s.freeEngine with
          | some e => ((s.moveTile r t .evacuate e).map going).getD s
          | none => s
      | none =>
        if s.heldSlots.any (fun r => !(s.tilesIn id r).isEmpty) ∨ s.setMoves id then s else s.removeSet id

/-- EVACUATION_MOVE. -/
def execEvacuationMove (s : State) : Result :=
  .next (match s.ras.evac with
    | some (id, _) => if s.scarabRuns then s.evacuate id else s
    | none => s)

/-- EVACUATE_SET (R257): the set becomes FAILING; the command completes when it has been removed. -/
def State.evacuateSet (s : State) (src : MboxSrc) (p : List Byte) : State :=
  let id := numAt p 0 4
  s.background src 0xc032 4 (.perm 0) p id (fun s =>
    if 15 < id then .err 2 0
    else if s.setHeld id then .err 0xc 1
    else if !s.bulk.sets.any (fun r => decide (r.id = id)) ∨ (s.rd F.RAS_RANK_STS_REMOVED).testBit id then .err 4 id
    else .ok (s.rankFailing id 3) [])

/-- EVACUATE_SET. -/
def execEvacuateSet (src : MboxSrc) (payload : List (BitVec 8)) (s : State) : Result := .next (s.evacuateSet src payload)

/-! ## The scrubber (R260 to R263) -/

/-- A tile that the bulk walker visits (R261). -/
def State.scrubs (s : State) (r t : Nat) : Bool :=
  let e := s.tme r t
  decide (0 < e.len) && !e.unmat && (s.lockOf r t).isNone && !e.transit &&
    !(e.nv && (match s.fte e.near with
      | some x => decide (x.state = FState.dirty ∨ x.state = FState.moving) | none => false))

/-- The next tile of the pass, from the walker's position on. -/
def State.nextBulk (s : State) : Option (Nat × Nat) :=
  let (r0, t0) := s.ras.bulkPos
  s.heldSlots.findSome? (fun r =>
    if r < r0 then none
    else ((s.entries r).find? (fun t => (decide (r0 < r) || decide (t0 ≤ t)) && s.scrubs r t)).map (fun t => (r, t)))

/-- Frames of the frame table (Table 5.2): of the near tier's usable frames; in bulk-only mode of the frames for tiles
(R191). -/
def State.tableFrames (s : State) : Nat :=
  ceilDiv ((if s.bulkOnly then s.rd F.SCR_FRAMES_TOTAL
    else usableFrames (s.rd F.NTC_CONFIG_NCH) (s.rdb F.NTC_CONFIG_CLAMSHELL)) * 8) 4096

/-- The near-tier line (address ÷ 64) that holds the FTEs of frames 8n to 8n + 7, and its stored bytes (R146, R170). -/
def State.fteLine (s : State) (n : Nat) : Nat := (s.rd F.SCR_FRAMES_TOTAL + 262144 + 16384 + 16) * 64 + n
def State.fteStored (s : State) (n : Nat) : List Byte :=
  s.reserveCrypt (s.fteLine n) ((List.range 8).flatMap (fun i =>
    leBytes 8 (match s.fte (8 * n + i) with | some e => e.enc.toNat | none => 0)))

/-- Where the context of a queue stands (address ÷ 64), and its stored bytes (R365). -/
def State.ctxLine (s : State) (q : Nat) : Nat := (s.rd F.SCR_FRAMES_TOTAL + 262144) * 64 + q
def State.ctxStored (s : State) (q : Nat) : List Byte := s.reserveCrypt (s.ctxLine q) (s.ctx q).bytes

/-- Frames of near-tier reserved memory: directory, queue contexts, error log, frame table, in the order of Table 5.2. -/
def State.reservedFrames (s : State) : Nat := 262144 + 16384 + 16 + s.tableFrames

/-- The next unit of the near walker: a frame that is neither FREE nor withheld, or 64 reserved lines. -/
def State.nextNear (s : State) : Option Nat :=
  let total := s.rd F.SCR_FRAMES_TOTAL
  match (s.near.ftes.map (·.1)).find? (fun f => decide (s.ras.nearPos ≤ f ∧ f < total) && !s.near.withheld.contains f) with
  | some f => some f
  | none =>
    let u := max total s.ras.nearPos
    if total ≠ 0 ∧ u < total + s.reservedFrames then some u else none

/-- One epoch's allowance of a walker (R260): what it may hold, and whether it stands at its cap. -/
def gainAllow (allow rate : Nat) : Nat × Bool := (min (4 * rate) (allow + rate), decide (4 * rate ≤ allow + rate ∧ rate ≠ 0))

/-- SCRUB_ALLOWANCE. -/
def execScrubAllowance (s : State) : Result :=
  .next (if !s.serving then s
    else
      let b := gainAllow s.ras.bulkAllow (s.rd F.RAS_SCRUB_BULK_RATE)
      let n := gainAllow s.ras.nearAllow (s.rd F.RAS_SCRUB_NEAR_RATE)
      let late := b.2 && !s.ras.bulkBehind && s.nextBulk.isSome
      let late2 := n.2 && !s.ras.nearBehind && s.nextNear.isSome
      let s1 := s.setRas { s.ras with
        bulkAllow := b.1, nearAllow := n.1, bulkBehind := s.ras.bulkBehind || late,
        nearBehind := s.ras.nearBehind || late2 }
      let s2 := if late then s1.raise cScrubBehind else s1
      if late2 then s2.raise cScrubBehind else s2)

/-- A pass of the bulk walker ends when it has no tile left. -/
def State.endBulkPass (s : State) : State :=
  if s.nextBulk.isSome then s
  else ((s.setRas { s.ras with bulkPos := (0, 0), bulkBehind := false }).wr F.RAS_SCRUB_STS_PASSES
    (s.rd F.RAS_SCRUB_STS_PASSES + 1)).raise cScrubPassDone

/-- A pass of the near walker ends. -/
def State.endNearPass (s : State) : State :=
  if s.nextNear.isSome then s
  else ((s.setRas { s.ras with nearPos := 0, nearBehind := false }).wr F.RAS_SCRUB_STS_NEAR_PASSES
    (s.rd F.RAS_SCRUB_STS_NEAR_PASSES + 1)).raise cScrubPassDone

/-- A confirmed TCS mismatch of a tile that is scrubbed (R119, R242); what a faulty pipe computed over a tile that is right is
a free value (log entry 5). -/
def State.scrubMismatch (s : State) (m : Move) : State :=
  match m.decoded with
  | none => s.tcsMismatch m.slot m.tile 7 m.tcsDetail
  | some _ => s.drawn.tcsMismatch m.slot m.tile 7 s.syndrome

/-- TCS of a tile that is scrubbed (R118, R119): by the lowest ACTIVE codec pipe, retried on the next one; while CDC is offline
TMU's checksum unit checks a RAW tile (R129). -/
def State.scrubTcs (s : State) (m : Move) (faults : PipeFaults) : State :=
  match s.unitsIn cdcKind 1 with
  | [] =>
    if m.tme.fmt = .lz ∨ m.decoded.isSome then s else s.tcsMismatch m.slot m.tile 6 m.tcsDetail
  | p :: rest =>
    if m.decoded.isSome ∧ !faults.codec then s.bump F.CDC_PIPE_WORK_UNITS p
    else match rest, s.rdb F.CDC_DISP_RETRY_EN with
      | q :: _, true =>
        let s1 := s.bump F.CDC_RETRY_CNT_COUNT
        if m.decoded.isSome ∧ !faults.codecRetry then (s1.bump F.CDC_PIPE_WORK_UNITS q).unitFault cdcKind p
        else (s1.bump F.CDC_RETRY_CNT_FAILED).scrubMismatch m
      | _, _ => s.scrubMismatch m

/-- TAG of a tile that is scrubbed (R160, R161): by the lowest ACTIVE AES pipe, computed again by the next one; then TCS where
it is checked. src is the SRC of an integrity halt. -/
def State.scrubTag (s : State) (m : Move) (src : Nat) (tcs : Bool) (faults : PipeFaults) : State :=
  let go := fun (s : State) =>
    if tcs then s.scrubTcs { m with record := s.openTile m.slot m.tile m.tme m.record } faults else s
  let try_ := fun (s : State) (p : Nat) (fault : Bool) =>
    (s.pipeTag m fault, (if fault then s.drawn else s).bump F.CRY_PIPE_WORK_UNITS p)
  match s.unitsIn cryKind 1 with
  | [] => s
  | p :: rest =>
    let (tag, s1) := try_ s p faults.aes
    if tag = m.tme.tag ∧ !faults.aes then go s1
    else match rest with
      | [] => s1.integrityHalt m.slot m.tile m.tme.gen src p m.tme.tag tag
      | q :: _ =>
        let (tag2, s2) := try_ s1 q faults.aesRetry
        if tag2 = m.tme.tag ∧ !faults.aesRetry then go (s2.unitFault cryKind p)
        else s2.integrityHalt m.slot m.tile m.tme.gen src p m.tme.tag tag2

/-- The checks of a tile's run, in the order of R233: its entry (R66), ECC by what is wrong in the sectors' words, TAG, TCS. -/
def State.scrubTile (s : State) (r t : Nat) (bad : List (Nat × List Nat)) (src : Nat) (tcs : Bool) (faults : PipeFaults) : State :=
  match s.cacheGood r t with
  | none => s
  | some s0 =>
    let e := s0.tme r t
    let ecc := s0.sectorsEcc e.loc bad
    let s1 := s0.sectorsCorrected r t e.loc (eccAt ecc .corrected e.len)
    let lost := eccAt ecc .uncorrectable e.len
    if e.len = 0 then s0
    else if lost ≠ [] then s1.bulkUe r t e.loc lost
    else s1.scrubTag { Move.blank 0 .read .job r t e with record := s1.sectors e.loc e.len, marks := s1.runMarks e } src tcs faults

/-- One unit of the bulk walker. -/
def State.scrubBulk (s : State) (bad : List (Nat × List Nat)) (faults : PipeFaults) : State :=
  match s.nextBulk with
  | none => s.endBulkPass
  | some (r, t) =>
    if s.ras.bulkAllow = 0 then s
    else match s.admitInternal 13 (64 * (s.tme r t).len) with
      | none => s
      | some s1 =>
        let s2 := s1.setRas { s1.ras with bulkAllow := s1.ras.bulkAllow - 1, bulkPos := (r, t + 1) }
        ((s2.scrubTile r t bad 4 (s2.rdb F.RAS_SCRUB_TCS_EN) faults).leaveInternal 13 false).endBulkPass

/-- Near-tier reserved structures (RESERVED_UE, Table 7.11): 1 sparse directory, 2 queue context, 3 frame table, 4 error
log. A line of reserved frame u with its number in its structure. -/
def reservedLine (n : Nat) : Nat × Nat :=
  let d := 262144 * 64
  let q := d + 16384 * 64
  let g := q + 16 * 64
  if n < d then (1, n) else if n < q then (2, n - d) else if n < g then (4, n - q) else (3, n - g)

/-- A reserved line is uncorrectable (R245, Table 7.3): recorded, counted against its rank set where it lies in one (R257), and handled by its owner. -/
def State.reservedUe (s : State) (f l : Nat) : State :=
  let (k, i) := reservedLine ((f - s.rd F.SCR_FRAMES_TOTAL) * 64 + l)
  let p := s.lineSpot f l
  let s0 := if p.page < 32 then s.countUe p else (s.countUe p).ueWords (keySet p.key) 1
  let s1 := (s0.log 0x11
    { location := p.loc, detail := k + 2 ^ 8 * lineNo f l, blk := some (pageBlk p.page) }).raise cReservedUe
  if k = 1 then s1.dirLost i
  else if k = 2 then (s1.setJob { s1.job with lostCtx := ninsert s1.job.lostCtx i }).ctxLost i
  else if k = 4 then s1.setRas { s1.ras with lost := ninsert s1.ras.lost i }
  else ((List.range 8).map (8 * i + ·)).foldl (fun s x => match s.fte x with
    | some e => s.tmeFaulted e.slot e.tile 4 0x0a
    | none => s) s1

/-- One unit of the near walker. -/
def State.scrubNear (s : State) (bad : List (Nat × List Nat)) : State :=
  match s.nextNear with
  | none => s.endNearPass
  | some f =>
    if s.ras.nearAllow = 0 then s
    else match s.admitInternal 13 4096 with
      | none => s
      | some s1 =>
        let s2 := s1.setRas { s1.ras with nearAllow := s1.ras.nearAllow - 1, nearPos := f + 1 }
        let who : Seen := match s2.fte f with | some e => { slot := some e.slot, tile := e.tile } | none => {}
        let ecc := s2.linesEcc f bad
        let s3 := (eccAt ecc .corrected 64).foldl (fun s l => s.corrected (s.lineSpot f l) who) s2
        let s4 := (eccAt ecc .uncorrectable 64).foldl (fun s l => match s.fte f with
          | some e => s.nearUe e.slot e.tile f l 0
          | none => s.reservedUe f l) s3
        (s4.leaveInternal 13 false).endNearPass

/-- SCRUB_UNIT. -/
def execScrubUnit (tier : Tier) (found : Found) (s : State) : Result :=
  .next (if !s.serving ∨ s.paused then s
    else match tier with
      | .bulk => if s.rd F.RAS_SCRUB_BULK_RATE ≠ 0 ∧ s.bulkSr = 0 ∧ s.aesRuns then s.scrubBulk found.sectors found.pipes else s
      | .near => if s.rd F.RAS_SCRUB_NEAR_RATE ≠ 0 ∧ s.nearSr = 0 then s.scrubNear found.lines else s)

/-! ## The retention sweep (R265, R266) -/

/-- A map sector of a region that the sweep acts on: it lies in a listed bank, or a run of one of its tiles does. -/
def State.sweepHits (s : State) (r k : Nat) : Bool :=
  s.sectorListed (s.rd F.TMU_RGN_MAPLOC_LOC r + k) ||
    [2 * k, 2 * k + 1].any (fun t => (List.range (s.tme r t).len).any (fun i => s.sectorListed ((s.tme r t).loc + i)))

/-- The sweep of one map sector. -/
def State.sweepSector (s : State) (r k : Nat) : State :=
  if s.sectorListed (s.rd F.TMU_RGN_MAPLOC_LOC r + k) then s.mapSectorLost r (2 * k)
  else [2 * k, 2 * k + 1].foldl (fun s t =>
    if (List.range (s.tme r t).len).any (fun i => s.sectorListed ((s.tme r t).loc + i)) then s.poisonTile r t else s) s

/-- RETAIN regions from a slot on, that the sweep visits. -/
def State.sweepRegion (s : State) (r0 : Nat) : Option Nat :=
  (List.range 64).find? (fun r => decide (r0 ≤ r ∧ (s.rgnState r = 1 ∨ s.rgnState r = 2) ∧ s.rgnType r ≠ 4) &&
    s.rdb F.TMU_RGN_MAP_RETAIN r)

/-- The sweep has ended. -/
def State.sweepDone (s : State) : State :=
  (s.setRas { s.ras with sweep := none }).raise cRetentionSweepDone

/-- The sweep goes on to the next map sector that it acts on, or to the end of its region. -/
def State.sweepStep (s : State) (r0 t0 : Nat) : State :=
  match s.sweepRegion r0 with
  | none => s.sweepDone
  | some r =>
    let from_ := if r = r0 then t0 / 2 else 0
    let last := s.rgnTiles r / 2
    match ((List.range (last - from_)).map (from_ + ·)).find? (s.sweepHits r) with
    | some k => (s.sweepSector r k).setRas { (s.sweepSector r k).ras with sweep := some (r, 2 * k + 2) }
    | none => match s.sweepRegion (r + 1) with
      | some r1 => s.setRas { s.ras with sweep := some (r1, 0) }
      | none => s.sweepDone

/-- RETENTION_SWEEP_STEP: requests to the tiles that it has passed proceed. -/
def execRetentionSweepStep (s : State) : Result :=
  .next (match s.ras.sweep with
    | some (r, t) =>
      if s.serving ∧ s.bulkSr = 0 then
        let s1 := s.sweepStep r t
        s1.resumeWhy (fun w => decide (w.why = .retention) && !s1.unswept w.slot w.tile)
      else s
    | none => s)

/-- CLEAR_RETENTION: the list is cleared; the withheld sectors return. -/
def State.clearRetention (s : State) (src : MboxSrc) (p : List Byte) : State :=
  s.avsar src 0xc033 0 (.perm 0) p (fun s =>
    .ok ((List.range 256).foldl (fun s n => (((s.clr F.RAS_RET_VALID 0 n).clr F.RAS_RET_SUBCH 0 n).clr F.RAS_RET_SET 0 n).clr
      F.RAS_RET_BANK 0 n) s) [])

/-- CLEAR_RETENTION. -/
def execClearRetention (src : MboxSrc) (payload : List (BitVec 8)) (s : State) : Result := .next (s.clearRetention src payload)

/-! ## The error log (R268 to R270) -/

/-- A record's 64 bytes (Table 7.5). -/
def LogRec.bytes (r : LogRec) : List Byte :=
  let b := leBytes 2 r.type ++ leBytes 1 r.sev ++ leBytes 1 r.block ++ leBytes 4 r.seq ++ leBytes 6 r.epoch ++
    leBytes 2 r.phase ++ leBytes 8 r.dpa ++ leBytes 8 r.location ++ leBytes 4 r.region ++ leBytes 4 r.tile ++
    leBytes 8 r.detail ++ leBytes 4 r.head ++ leBytes 8 0
  b ++ leBytes 4 (crc32c b).toNat

/-- The record that a lost one is handed out as (Table 7.11). -/
def lostRec (i : Nat) : LogRec :=
  { type := 0, sev := 4, block := 0x0c, seq := 0, epoch := 0, phase := 0, dpa := 0, location := 0, region := 0,
    tile := 0, detail := i, head := 0 }

/-- Record i of the ring as it is handed out. -/
def State.recordAt (s : State) (i : Nat) : LogRec :=
  if s.ras.lost.contains i then lostRec i else (mget s.ras.log i).getD (lostRec i)

/-- The unread records. -/
def State.unread (s : State) : Nat := (s.rd F.RAS_LOG_PROD + 1024 - s.rd F.RAS_LOG_CONS) % 1024

/-- CONS advances by n records, at most to PROD. -/
def State.consume (s : State) (n : Nat) : State :=
  if n = 0 ∨ s.unread = 0 then s
  else (s.wr F.RAS_LOG_CONS ((s.rd F.RAS_LOG_CONS + min n s.unread) % 1024)).setRas { s.ras with fullRaised := false }

/-- GET_ERROR_LOG. -/
def State.getErrorLog (s : State) (src : MboxSrc) (p : List Byte) : State :=
  let count := numAt p 0 4
  s.avsar src 0xc040 4 .fmOrDiag p (fun s =>
    if count < 1 ∨ 63 < count then .err 2 0
    else
      let n := min count s.unread
      .ok s (leBytes 4 n ++ (List.range n).flatMap (fun i => (s.recordAt ((s.rd F.RAS_LOG_CONS + i) % 1024)).bytes)))

/-- GET_ERROR_LOG. -/
def execGetErrorLog (src : MboxSrc) (payload : List (BitVec 8)) (s : State) : Result := .next (s.getErrorLog src payload)

/-- CLEAR_ERROR_LOG. -/
def State.clearErrorLog (s : State) (src : MboxSrc) (p : List Byte) : State :=
  s.avsar src 0xc041 4 (.perm 0) p (fun s =>
    .ok (s.consume (numAt p 0 4)) (leBytes 4 (min (numAt p 0 4) s.unread)))

/-- CLEAR_ERROR_LOG. -/
def execClearErrorLog (src : MboxSrc) (payload : List (BitVec 8)) (s : State) : Result := .next (s.clearErrorLog src payload)

/-! ## HOLD (R247) -/

/-- PENDING entries of a channel act, in entry order. -/
def State.actPending (s : State) (page : Nat) (mine : Nat → Bool) : State :=
  (List.range 32).foldl (fun s k =>
    if s.rdb F.RAS_RPT_VALID page k && s.rdb F.RAS_RPT_PENDING page k && mine (s.rd F.RAS_RPT_KEY_ROWKEY page k)
    then s.trackerAct page k (s.seenBy page k) else s) s

/-- HOLD of a near channel or of a bulk subchannel is set or cleared. -/
def State.putHold (s : State) (bulk : Bool) (ch : Nat) (v : Bool) : State :=
  if bulk then
    let s1 := s.wrb F.BTC_SC_CTL_HOLD ch v
    if v then s1 else s1.actPending (32 + ch / 2) (fun k => keySubB k == decide (ch % 2 = 1))
  else
    let s1 := s.wrb F.NTC_CH_CTL_HOLD ch v
    if v then s1 else s1.actPending ch (fun _ => true)

/-- SET_HOLD: bits 4:0 the channel, bit 7 bulk, bit 8 the value; every other bit is reserved. -/
def State.setHoldCmd (s : State) (src : MboxSrc) (p : List Byte) : State :=
  let v := numAt p 0 4
  s.avsar src 0xc051 4 (.perm 2) p (fun s =>
    if bits v 6 5 ≠ 0 then .err 2 0
    else if bits v 15 9 ≠ 0 then .err 2 1
    else match reservedAt p 2 2 with
      | some i => .err 2 i
      | none => .ok (s.putHold (v.testBit 7) (v % 32) (v.testBit 8)) [])

/-- SET_HOLD. -/
def execSetHold (src : MboxSrc) (payload : List (BitVec 8)) (s : State) : Result := .next (s.setHoldCmd src payload)

end Sys2Proof.Machine
end

