-- ==== Sys2Proof/Machine/Jobs.lean ====
section
/-!
DEFINITION. Machine/Jobs.lean: jobs in their parts (R120 to R123, R129, R151, R173, R174, R188, R190, R255, R261, R319,
R378 to R393; 11_job_queues.md). A part's lines are line requests of ingress 18 that TMU serves as it serves a host's.
-/
namespace Sys2Proof.Machine

/-- Jobs run: the data path serves and SCR is not being reset. -/
def State.jobsRun (s : State) : Bool := s.serving && !s.aon.blocks.contains 9

/-! ## Line requests -/

/-- A request of a job. -/
def Job.req (j : Job) (s : State) (what off addr : Nat) (kind : ReqKind) (data : Line) (be : BitVec 64) : Req :=
  { id := s.tmu.nextId, kind := kind, org := .job j.id what off, ing := 18, raw := addr, addr := addr, bad := 0,
    mv := .invalid, cls := j.cls, key := j.key, homeSlot := none, data := data, be := be, poison := false,
    snooped := false, at_ := s.nowNs, unit := 0, hold := none, err := .none }

/-- TMU takes a request of a job. -/
def State.jobServe (s : State) (j : Job) (what off addr : Nat) (kind : ReqKind) (data : Line) (be : BitVec 64) : State :=
  let (id, s1) := s.freshId
  s1.serve { j.req s what off addr kind data be with id := id } none

/-- The lines of a byte range: line address, first byte in it, bytes of the range before it, bytes in it. -/
def linesOf (addr len : Nat) : List (Nat × Nat × Nat × Nat) :=
  if len = 0 then []
  else (List.range ((addr + len - 1) / 64 - addr / 64 + 1)).map (fun i =>
    let a := (addr / 64 + i) * 64
    let lo := max a addr
    (a, lo - a, lo - addr, min (a + 64) (addr + len) - lo))

/-- The byte enables of n bytes from byte lo. -/
def enables (lo n : Nat) : BitVec 64 := BitVec.ofNat 64 ((2 ^ n - 1) * 2 ^ lo)

/-- Write bytes to a range: whole lines as full-line writes, others as partial writes. -/
def State.jobWrite (s : State) (j : Job) (off addr : Nat) (bs : List Byte) : State :=
  (linesOf addr bs.length).foldl (fun s (x : Nat × Nat × Nat × Nat) =>
    let data := lineOf (List.replicate x.2.1 0 ++ bytesAt bs x.2.2.1 x.2.2.2)
    s.jobServe j 3 off x.1 (if x.2.2.2 = 64 then .write else .partialWrite) data (enables x.2.1 x.2.2.2)) s

/-- Read the lines of a range. -/
def State.jobFill (s : State) (j : Job) (off addr len : Nat) : State :=
  (linesOf addr len).foldl (fun s (x : Nat × Nat × Nat × Nat) => s.jobServe j 2 off x.1 .read 0 0) s

/-- The bytes of a range from the lines read. -/
def gathered (got : List (Nat × Line)) (addr len : Nat) : List Byte :=
  (linesOf addr len).flatMap (fun (x : Nat × Nat × Nat × Nat) =>
    bytesAt (lineBytes (((got.find? (fun e => decide (e.1 = x.1 / 64))).map (·.2)).getD 0)) x.2.1 x.2.2.2)

/-! ## What a refused target is -/

/-- The region that holds a target of a tile job or of a REKEY, or the status (Table 11.7): no FAR region, no LOST one. -/
def State.jobTarget (s : State) (j : Job) (addr : Nat) : Except (State × Nat × Nat) Nat :=
  let q := j.req s 3 0 addr .write 0 0
  match s.decode q with
  | .error c =>
    .error ((((s.wr F.TMU_FAULT_ADDR_DPA (addr % 2 ^ 46)).wr F.TMU_FAULT_ADDR_HEAD (j.owner % 16)).wr F.TMU_FAULT_ADDR_CAUSE
      c).raise cAccessFault (heads := s.reqHeads q), 4, 2)
  | .ok r =>
    if s.rgnType r = 4 then .error (s, 4, 2)
    else if s.vk4 ∧ j.key ≠ s.rd F.CRY_RGN_KEY_KEY_BIND r then
      .error ((s.bump F.CRY_RGN_CNT_MISMATCH r).raise cKeyMismatch (region := some r) (heads := s.reqHeads q), 4, 3)
    else if s.rgnState r = 3 then .error (s, 4, 4)
    else .ok r

/-! ## Unspecified destinations (R122, R390) -/

/-- After a failed job the rest of its destination is unspecified: whether a line was written, and with what, is free. -/
def State.spoil (s : State) (j : Job) (addr len : Nat) : State :=
  (linesOf addr len).foldl (fun s (x : Nat × Nat × Nat × Nat) =>
    let q := j.req s 3 0 x.1 .write 0 0
    match s.decode q with
    | .ok r =>
      if Config.unspecified s.draw x.1 = 0 ∨ s.rgnType r = 4 ∨ s.rgnState r = 3 ∨
          (s.vk4 ∧ j.key ≠ s.rd F.CRY_RGN_KEY_KEY_BIND r) then s.drawn
      else
        let data := lineOf ((List.range 64).map (fun i => Config.unspecified (s.draw + 1) (x.1 + i)))
        let (id, s1) := s.drawn.drawn.freshId
        s1.serve { q with
          id := id, org := .none, addr := x.1 - s.rgnBase r, homeSlot := some r, data := data,
          kind := if x.2.2.2 = 64 then .write else .partialWrite, be := enables x.2.1 x.2.2.2 } none
    | .error _ => s.drawn) s

/-- What a job that fails leaves unspecified: where it stopped, to the end of its destination. -/
def State.spoilRest (s : State) (j : Job) (from_ : Nat) : State :=
  if j.op = 0x10 ∨ j.op = 0x11 ∨ j.op = 0x12 then s.spoil j (j.dst + from_) (j.len - from_)
  else if j.op = 0x20 ∨ j.op = 0x21 then s.spoil j j.dst j.dlen
  else s

/-! ## Posting (R387, R384) -/

/-- Write the completion of a job that has ended: after every job of its CQ that ended before it. It is a continuation of one
line (log entry 120). -/
def State.tryPost (s : State) (id : Nat) : State :=
  match s.jobOf id with
  | none => s
  | some j =>
    if j.phase ≠ .ended ∨ !s.jobsRun then s
    else if j.status = some (0, 0) ∧ j.flags.testBit 1 then (s.countJob j.queue).removeJob j
    else
      let k := (s.ctx j.queue).cq
      let s1 := (s.touchCtx k).ctxLost k
      let d := s1.ctx k
      if d.typ ≠ 1 ∨ d.state ≠ 1 then
        ((if (s1.ctx j.queue).state = 1 then s1.queueError j.queue 2 j.index else s1).countJob j.queue).removeJob j
      else if s.job.jobs.any (fun x => decide ((s.ctx x.queue).cq = k) &&
          (decide (x.phase = .posting) || (decide (x.phase = .ended ∧ x.ended < j.ended)))) then s
      else
        let addr := d.base + 16 * d.head
        let s2 := (s1.putJob { j with phase := .posting }).continue_ j.cls j.bucket 64
        s2.jobServe { j with phase := .posting } 1 0 (addr / 64 * 64) .partialWrite
          (lineOf (List.replicate (addr % 64) 0 ++ j.completion d.phase)) (enables (addr % 64) 16)

/-- Write what completions may be written now, in the order in which the jobs ended. -/
def State.postAll (s : State) : State :=
  let l := (s.job.jobs.filter (fun j => decide (j.phase = .ended))).foldl (fun (l : List Job) j =>
    (l.takeWhile (fun x => decide (x.ended < j.ended))) ++ j :: l.dropWhile (fun x => decide (x.ended < j.ended))) []
  l.foldl (fun s j => s.tryPost j.id) s

/-- Jobs in flight end at their next part boundary with an ABORTED cause; those without a part in flight end at once. -/
def State.abortJobs (s : State) (cause : Nat) (sel : Job → Bool) : State :=
  let s1 := s.setJob { s.job with jobs := s.job.jobs.map (fun j =>
    if sel j ∧ j.abort = 0 ∧ j.status.isNone then { j with abort := cause } else j) }
  ((s1.job.jobs.filter (fun j => decide (j.abort ≠ 0 ∧ j.status.isNone) &&
    (decide (j.phase = .waiting) || (decide (j.phase = .running) && j.parts.isEmpty)))).foldl
      (fun s j => (s.spoilRest j j.next).endJob j 6 j.abort 0) s1).dispatch

/-! ## Parts of data jobs (R384) -/

/-- Bytes up to the next 4 KiB boundary. -/
def toEdge (addr : Nat) : Nat := 4096 - addr % 4096

/-- The part at offset o: never across a 4 KiB boundary of the source or the destination. -/
def Job.partLen (j : Job) (o : Nat) : Nat :=
  let r := j.len - o
  if j.op = 0x10 then min r (min (toEdge (j.src + o)) (toEdge (j.dst + o)))
  else if j.op = 0x11 ∨ j.op = 0x12 then min r (toEdge (j.dst + o))
  else min r (toEdge (j.src + o))

/-- A part before anything of it has been answered; seq places it in the order of admission. -/
def State.newPart (s : State) (off len : Nat) : JobPart :=
  { off := off, len := len, move := false, begun := false, reads := 0, writes := 0, got := [], bad := [], fault := none,
    ok := false, seq := s.tmu.nextId }

/-- Bytes o to o + n of the range that a FILL or ZERO writes. -/
def Job.pattern8 (j : Job) (o n : Nat) : List Byte :=
  if j.op = 0x12 then List.replicate n 0 else (List.range n).map (fun i => j.pattern.getD ((o + i) % 8) 0)

/-- A whole UNMAT tile that stays all zero: nothing is written (Table 11.5). -/
def State.staysUnmat (s : State) (j : Job) (o n : Nat) (bs : List Byte) : Bool :=
  decide (n = 4096 ∧ (j.dst + o) % 4096 = 0) && bs.all (fun b => decide (b = 0)) && !s.nearOnly &&
    (match s.decode (j.req s 3 0 (j.dst + o) .write 0 0) with
     | .ok r => decide (s.rgnType r ≠ 4 ∧ s.rgnState r ≠ 3) && (!s.vk4 || decide (j.key = s.rd F.CRY_RGN_KEY_KEY_BIND r)) &&
         (s.tme r ((j.dst + o - s.rgnBase r) / 4096)).unmat
     | .error _ => false)

/-- The writes of a part begin. -/
def State.beginWrites (s : State) (j : Job) (p : JobPart) (bs : List Byte) (addr : Nat) : State :=
  let n := (linesOf addr bs.length).length
  let j1 := { j with parts := putPart p.off p.begun (fun p => { p with begun := true, writes := n }) j.parts }
  (s.putJob j1).jobWrite j1 p.off addr bs

/-- Admit the next part of a data job; none when it cannot be now. -/
def State.nextPart (s : State) (j : Job) : Option State :=
  match j.out with
  | some out =>
    let o := j.outNext
    let n := min (out.length - o) (toEdge (j.dst + o))
    if n = 0 then none
    else (s.admitPart j.cls j.bucket n).map (fun s1 =>
      let p := { s1.newPart o n with begun := true }
      let j1 := { j with parts := j.parts ++ [p], outNext := o + n }
      (s1.putJob j1).beginWrites j1 p (bytesAt out o n) (j.dst + o))
  | none =>
    let o := j.next
    let n := j.partLen o
    if n = 0 then none
    else if (j.op = 0x11 ∨ j.op = 0x12) ∧ s.staysUnmat j o n (j.pattern8 o n) then some (s.putJob { j with next := o + n })
    else (s.admitPart j.cls j.bucket n).map (fun s1 =>
      let j1 := { j with parts := j.parts ++ [s1.newPart o n], next := o + n }
      if j.op = 0x11 ∨ j.op = 0x12 then
        (s1.putJob j1).beginWrites j1 (s1.newPart o n) (j.pattern8 o n) (j.dst + o)
      else
        let j2 := { j1 with parts := putPart o false (fun p => { p with reads := (linesOf (j.src + o) n).length }) j1.parts }
        (s1.putJob j2).jobFill j2 o (j.src + o) n)

/-! ## Tile jobs (R381) -/

/-- What a tile job does with its next tile: nothing to do (with what it adds to RESULT), a part has begun, it cannot be done
now, or the job stops. -/
inductive TileStep where
  | done (s : State) (n : Nat)
  | begun (s : State)
  | later
  | noFrame
  | stop (s : State) (status detail : Nat)

/-- A part for a tile whose move begins. -/
def State.tileMove (s : State) (j : Job) (tile : Nat) (f : State → Option State) : TileStep :=
  match s.admitPart j.cls j.bucket 4096 with
  | none => .later
  | some s1 =>
    let j1 := { j with parts := j.parts ++ [{ s1.newPart tile 0 with move := true, reads := 1 }] }
    match f (s1.putJob j1) with
    | some s2 => .begun s2
    | none => .later

/-- A tile is promoted by a job. -/
def State.tilePromote (s : State) (j : Job) (r tile k : Nat) (purpose : Purpose) : TileStep :=
  if (s.lockOf r tile).isSome ∨ !s.lockRoom r then .later
  else if s.takeFrame.isNone then .noFrame
  else s.tileMove j k (fun s1 => s1.jobPromotion r tile j.cls purpose none j.id)

/-- The reply of a step of each tile job on tile `tile` of region r, tile k of the range. -/
def State.tileStep (s : State) (j : Job) (r tile k : Nat) : TileStep :=
  let t := s.tme r tile
  let e := if t.nv then s.fte t.near else none
  if j.op = 0x30 then (if t.nv ∨ t.unmat then .done s 0 else s.tilePromote j r tile k .promoteJob)
  else if j.op = 0x31 then
    match e with
    | none => .done s 0
    | some x =>
      if x.state = FState.clean then .done (s.evict t.near) 0
      else if x.state ≠ FState.dirty ∨ s.stuck r t ∨ s.noCounter r t then .done s 0
      else if !s.mayDemote t.near x ∨ !s.lockRoom r then .later
      else s.tileMove j k (fun s1 => s1.beginDemotion t.near j.cls .job none (some j.id))
  else if j.op = 0x32 then
    (if t.unmat then .done (s.setTme r tile { t with pinned := true }) 1
     else match e with
       | some _ =>
         let p := s.pinTile r tile t.near
         if p.2 then .done p.1 1 else .stop (p.1.raise cPinLimit (region := some r)) 7 3
       | none =>
         if !s.pinRoom then .stop (s.raise cPinLimit (region := some r)) 7 3
         else s.tilePromote j r tile k .pinJob)
  else if j.op = 0x33 then
    (if s.rd F.TMU_RGN_POLICY_TIER r = 1 then .done s 0
     else
       let had := t.pinned || (match e with | some x => x.pin | none => false)
       let s1 := if t.pinned then s.setTme r tile { t with pinned := false } else s
       let s2 := match e with | some x => if x.pin then s1.setFte t.near { x with pin := false } else s1 | none => s1
       .done s2 (b2n had))
  else if j.op = 0x34 then
    (if s.nextReserve.isNone then .stop s 7 4
     else if !s.fixedSlots r ∧ t.len = 0 then .done s 0
     else if (s.lockOf r tile).isSome ∨ s.underCopy t ∨ !s.lockRoom r then .later
     else if t.len = 0 ∧ (t.unmat ∨ s.keepsFrame r tile) then
       match s.alloc r 64 with
       | some (a, s1) => .done ((s1.setTme r tile { t with retired := true }).moveSlot r tile a) 1
       | none => .later
     else if s.keepsFrame r tile then
       if !s.mayCopy r tile then .later
       else match s.alloc r (if s.fixedSlots r then 64 else t.len) with
         | some (a, s1) => (match s1.admitPart j.cls j.bucket 4096 with
           | some s2 => .done ((((s2.setTme r tile { t with retired := true }).copyRun r tile a j.cls).outSub 18 j.cls 1).slotDone
               j.cls false) 1
           | none => .later)
         | none => .later
     else
       let s0 := s.setTme r tile { t with retired := true }
       match e with
       | some x =>
         let s1 := if x.state = FState.clean then s0.setFte t.near { x with state := .dirty } else s0
         (match s1.fte t.near with
          | some y => if s1.mayDemote t.near y then
              s1.tileMove j k (fun s2 => s2.beginDemotion t.near j.cls .retire none (some j.id)) else .later
          | none => .later)
       | none => s0.tilePromote j r tile k .retire)
  else
    let run := s.scrubs r tile
    if !run ∧ e.isNone then .done s 0
    else match s.admitPart j.cls j.bucket (if run then 64 * t.len else 4096) with
      | none => .later
      | some s1 => .begun (s1.putJob { j with parts := j.parts ++ [{ s1.newPart k 0 with begun := true }] })

/-- A tile job goes on with its next tile; none when it cannot now. -/
def State.nextTilePart (s : State) (j : Job) : Option State :=
  if j.len / 4096 ≤ j.next then none
  else
    let addr := j.dst + 4096 * j.next
    let on := fun (s : State) (f : Job → Job) => match s.jobOf j.id with
      | some x => s.putJob (f { x with next := j.next + 1 })
      | none => s
    match s.jobTarget j addr with
    | .error (s1, st, d) => some (s1.putJob { j with status := some (st, d) })
    | .ok r =>
      let tile := (addr - s.rgnBase r) / 4096
      if s.nearOnly then some (on s id)
      else match s.cacheGood r tile with
        | none => none
        | some s0 => match s0.tileStep j r tile j.next with
          | .done s1 n => some (on s1 (fun x => { x with result := x.result + n }))
          | .begun s1 => some (on s1 id)
          | .later => none
          | .noFrame => some (on s0 (fun x => { x with late := some (7, 2) }))
          | .stop s1 st d => some (s1.putJob { j with status := some (st, d) })

/-- A part of SCRUB_RANGE is read: what is wrong in the words of the run's sectors and of the frame's lines. -/
def State.scrubPart (s : State) (j : Job) (k : Nat) (sectors lines : List (Nat × List Nat)) (faults : PipeFaults) : State :=
  match s.jobTarget j (j.dst + 4096 * k) with
  | .error _ => s
  | .ok r =>
    let tile := (j.dst + 4096 * k - s.rgnBase r) / 4096
    let s1 := if s.scrubs r tile then s.scrubTile r tile sectors 3 true faults else s
    let t := s1.tme r tile
    if t.nv then
      let f := t.near
      let ecc := s1.linesEcc f lines
      let s2 := (eccAt ecc .corrected 64).foldl (fun s l => s.corrected (s.lineSpot f l) { slot := some r, tile := tile }) s1
      (eccAt ecc .uncorrectable 64).foldl (fun s l => s.nearUe r tile f l 0) s2
    else s1

/-- The tiles of a job's range with POISON set. -/
def State.poisonedTiles (s : State) (j : Job) : Nat :=
  match s.jobTarget j j.dst with
  | .error _ => 0
  | .ok r =>
    let a := (j.dst - s.rgnBase r) / 4096
    ((s.entries r).filter (fun t => decide (a ≤ t ∧ t < a + j.len / 4096) && (s.tme r t).poison)).length

/-! ## The work of a job -/

/-- A job of the codec: COMPRESS, DECOMPRESS, CHECKSUM. -/
def Job.codec (j : Job) : Bool := decide (j.op = 0x20 ∨ j.op = 0x21 ∨ j.op = 0x22)

/-- The source has been read whole. -/
def Job.whole (j : Job) : Bool := decide (j.len ≤ j.acc.length)

/-- A pipe number that stands for none. -/
def noPipe : Nat := 17

/-- Block n of a job, cut from its source at off; seq is the place of the part that brought its last byte. -/
def Job.addBlock (j : Job) (off next seq : Nat) (src : List Byte) (after : Bool) (res : Option (Nat × Nat × List Byte)) : Job :=
  { j with
    blocks := j.blocks ++ [{ n := j.nextBlock, off := off, src := src, seq := seq, after := after, avoid := none, res := res }],
    cut := next, nextBlock := j.nextBlock + 1 }

/-- Cut the source that has been read into blocks (R94): 65,536 bytes of a COMPRESS (R110), the blocks of a DECOMPRESS's stream
by their headers (R106 to R112; a malformed header, a missing END and END itself need no pipe), the whole of a CHECKSUM. -/
def Job.cutBlocks (seq : Nat) : Nat → Job → Job
  | 0, j => j
  | fuel + 1, j =>
    let rest := j.acc.drop j.cut
    if j.op = 0x20 then
      let n := min 65536 rest.length
      if n ≠ 0 ∧ (n = 65536 ∨ j.whole) then
        Job.cutBlocks seq fuel (j.addBlock j.cut (j.cut + n) seq (rest.take n) false none)
      else j
    else if j.op = 0x21 then
      if j.blocks.any (fun b => decide ((b.res.map (·.1)) = some noPipe)) then j
      else match headOf rest with
        | .block len indep =>
          Job.cutBlocks seq fuel (j.addBlock j.cut (j.cut + len) seq (rest.take len) (!indep) none)
        | .fin => j.addBlock j.cut (j.cut + 4) seq [] false (some (noPipe, 0, []))
        | .bad c => j.addBlock j.cut j.cut seq [] false (some (noPipe, c, []))
        | .short => if j.whole then j.addBlock j.cut j.cut seq [] false (some (noPipe, 7, [])) else j
    else if j.whole ∧ j.nextBlock = 0 then j.addBlock 0 j.len seq j.acc false none
    else j

/-- What a pipe makes of a block: the cause of its malformation (0 for none) and the bytes. -/
def Job.code (j : Job) (b : JobBlock) : Nat × List Byte :=
  if j.op = 0x20 then (0, encodeBlock j.arg b.src)
  else if j.op = 0x21 then
    match decodeBlock b.src j.made.reverse with
    | .ok out => (0, out)
    | .error c => (c, [])
  else (0, leBytes 4 (crc32c b.src).toNat)

/-- Change a block of a job. -/
def Job.putBlock (j : Job) (b : JobBlock) : Job :=
  { j with blocks := j.blocks.map (fun x => if x.n = b.n then b else x) }

/-- A pipe ends the block of the job that it holds. A verify mismatch of a COMPRESS block (R124) advances the pipe's fault count
and sends the block to another ACTIVE pipe; without one the block is STORED (R125). -/
def State.blockDone (s : State) (jid p : Nat) (fault : Bool) : State :=
  match mget s.cdc.held p, s.jobOf jid with
  | some (.block id n), some j =>
    if id ≠ jid then s
    else match j.blocks.find? (fun b => decide (b.n = n)) with
      | none => s
      | some b =>
        if fault ∧ j.op = 0x20 ∧ verifies j.arg b.src then
          if s.otherActive cdcKind p then
            (((s.letGo p).putJob (j.putBlock { b with avoid := some p })).dispatch).unitFault cdcKind p
          else ((s.letGo p).putJob (j.putBlock { b with res := some (p, 0, storedBlock b.src) })).unitFault cdcKind p
        else (s.pipeDone p).putJob (j.putBlock { b with res := some (p, j.code b) })
  | _, _ => s

/-- A block whose only pipe left is the one that failed on it is STORED (R125). -/
def State.storeBlocks (s : State) (j : Job) : Job :=
  { j with blocks := j.blocks.map (fun b => match b.avoid with
    | some p => if b.res.isNone ∧ !s.cdcOffline ∧ !s.otherActive cdcKind p then
        { b with res := some (p, 0, storedBlock b.src) } else b
    | none => b) }

/-- The coded block at the head of the stream is taken, in stream order (R111, R120, R121): what is made of it joins the
output, or it decides how the job ends. CDC_JOB_ERR names a malformed block. -/
def State.takeBlock (s : State) (j : Job) (b : JobBlock) (pipe cause : Nat) (bytes : List Byte) : State :=
  let j1 := { j with blocks := j.blocks.drop 1, lastPipe := some pipe }
  let stop := fun (st : Nat × Nat) => s.putJob { j1 with status := some st, next := j.len }
  if j.op = 0x20 then
    match compressEnd j.dlen j.len (j.made.length + bytes.length) true with
    | some st => stop st
    | none => s.putJob { j1 with made := j.made ++ bytes }
  else if j.op = 0x21 then
    if cause ≠ 0 then
      (((s.wr F.CDC_JOB_ERR_QUEUE j.queue).wr F.CDC_JOB_ERR_CAUSE cause).wr F.CDC_JOB_ERR_OFFSET b.off).putJob
        { j1 with status := some (3, 2), next := j.len }
    else if b.src.isEmpty then s.putJob { j1 with out := some j.made, result := j.made.length, next := j.len }
    else if j.dlen < j.made.length + bytes.length then stop (2, 0)
    else s.putJob { j1 with made := j.made ++ bytes }
  else s.putJob { j1 with out := some [], result := leNat bytes }

/-- Blocks are taken while the next in stream order has been coded. -/
def State.takeBlocks : Nat → State → Nat → State
  | 0, s, _ => s
  | fuel + 1, s, id =>
    match s.jobOf id with
    | none => s
    | some j => match j.status, j.out, j.blocks with
      | none, none, b :: _ => (match b.res with
        | some (p, c, bytes) => State.takeBlocks fuel (s.takeBlock j b p c bytes) id
        | none => s)
      | _, _, _ => s

/-- The blocks of a job go on: those that are coded are taken; when none is left, END closes the stream of a COMPRESS, and a
source line that could not be read ends the job, for no block before it has. -/
def State.runBlocks (s : State) (id : Nat) : State :=
  let s0 := match s.jobOf id with
    | some j => if j.blocks.any (fun b => b.avoid.isSome) then s.putJob (s.storeBlocks j) else s
    | none => s
  let n := match s0.jobOf id with
    | some j => j.blocks.length
    | none => 0
  let s1 := State.takeBlocks n s0 id
  match s1.jobOf id with
  | none => s1
  | some j =>
    if !j.codec ∨ j.status.isSome ∨ j.out.isSome ∨ !j.blocks.isEmpty then s1
    else match j.late with
      | some st => s1.putJob { j with status := some st }
      | none =>
        if j.op = 0x20 ∧ j.whole ∧ j.len ≤ j.cut then
          let out := j.made ++ endBlock
          match compressEnd j.dlen j.len out.length false with
          | some st => s1.putJob { j with status := some st }
          | none => s1.putJob { j with out := some out, result := out.length }
        else s1

/-- A part of a codec job's source is over: its bytes join the source. From a line that is poisoned or refused on nothing is
read any more; it ends the job unless a block before it does (R120, R121). -/
def State.takeSource (s : State) (j : Job) (p : JobPart) : State :=
  if j.late.isSome ∨ j.out.isSome ∨ j.status.isSome then s.putJob j
  else
    let addr := j.src + p.off
    let bytes := gathered p.got addr p.len
    let j1 := match p.fault, p.bad with
      | some f, _ => { j with late := some f, next := j.len }
      | none, b :: bs =>
        { j with acc := j.acc ++ bytes.take ((b :: bs).foldl min b * 64 - addr), late := some (3, 1), next := j.len }
      | none, [] => { j with acc := j.acc ++ bytes }
    s.putJob (Job.cutBlocks p.seq (j1.acc.length / 4 + 2) j1)

/-- The oldest part is over: its entry leaves ADM and the job takes what it brought. -/
def State.takePart (s : State) (j : Job) (p : JobPart) (sectors lines : List (Nat × List Nat)) (faults : PipeFaults) : State :=
  let s1 := (s.outSub 18 j.cls 1).slotDone j.cls (tileOp j.op && !p.ok && decide (j.op ≠ 0x36))
  let j1 := { j with parts := j.parts.drop 1 }
  if tileOp j.op then
    let s2 := if j.op = 0x36 then (s1.putJob j1).scrubPart j p.off sectors lines faults else s1
    let at_ := match s2.jobTarget j (j.dst + 4096 * p.off) with
      | .ok r => some r
      | .error _ => none
    let pinned := match at_ with
      | some r => (s2.tme r ((j.dst + 4096 * p.off - s2.rgnBase r) / 4096)).pinned
      | none => false
    if j.op = 0x32 ∧ p.ok ∧ !pinned then
      (s2.raise cPinLimit (region := at_)).putJob { j1 with status := some (7, 3) }
    else s2.putJob { j1 with result := j1.result + b2n p.ok }
  else if j.codec ∧ !p.begun then s1.takeSource j1 p
  else if p.begun ∧ j.op ≠ 0x10 then
    s1.putJob { j1 with status := p.fault, next := if p.fault.isSome ∧ j.out.isNone then p.off else j1.next }
  else
    match p.fault, p.bad with
    | some f, _ => s1.putJob { j1 with status := some f, next := p.off }
    | none, b :: bs =>
      let line := (b :: bs).foldl min b
      s1.putJob { j1 with status := some (3, 1), next := p.off, result := line * 64 - j.src }
    | none, [] => s1.putJob j1

/-- A part is over: every line answered; with a refusal or a poisoned source nothing of it is written. -/
def Job.partOver (j : Job) (p : JobPart) : Bool :=
  !p.move && decide (p.reads = 0 ∧ p.writes = 0) &&
    (decide (j.op ≠ 0x10) || p.begun || p.fault.isSome || !p.bad.isEmpty) && (decide (j.op ≠ 0x34) || p.begun || !p.ok)

/-- No pipe fails. -/
def noFaults : PipeFaults := { aes := false, aesRetry := false, codec := false, codecRetry := false }

/-- Take the oldest parts that are over. -/
def State.takeParts : Nat → State → Nat → List (Nat × List Nat) → List (Nat × List Nat) → PipeFaults → State
  | 0, s, _, _, _, _ => s
  | fuel + 1, s, id, sectors, lines, faults =>
    match s.jobOf id with
    | none => s
    | some j => match j.parts with
      | [] => s
      | p :: _ => if j.partOver p then State.takeParts fuel (s.takePart j p sectors lines faults) id [] [] noFaults else s

/-- Writes of a COPY's parts, and demotions of a RETIRE's promoted tiles, that may begin. -/
def State.followUp (s : State) (id : Nat) : State :=
  match s.jobOf id with
  | none => s
  | some j => j.parts.foldl (fun s p => match s.jobOf id with
    | none => s
    | some x =>
      if x.status.isSome then s
      else if x.op = 0x10 ∧ p.reads = 0 ∧ !p.begun ∧ p.fault.isNone ∧ p.bad.isEmpty then
        s.beginWrites x p (gathered p.got (x.src + p.off) p.len) (x.dst + p.off)
      else if x.op = 0x34 ∧ !p.move ∧ !p.begun ∧ p.ok then
        match s.jobTarget x (x.dst + 4096 * p.off) with
        | .error _ => s.putJob { x with parts := putPart p.off false (fun p => { p with begun := true, ok := false }) x.parts }
        | .ok r =>
          let t := s.tme r ((x.dst + 4096 * p.off - s.rgnBase r) / 4096)
          let x1 := { x with parts := putPart p.off false (fun p => { p with begun := true, move := true, ok := false }) x.parts }
          if !t.nv then s.putJob { x with parts := putPart p.off false (fun p => { p with begun := true, ok := false }) x.parts }
          else ((s.putJob x1).beginDemotion t.near x.cls .retire none (some id)).getD s
      else s) s

/-- Admit what parts may be admitted now (R384, R386). -/
def State.admitParts : Nat → State → Nat → State
  | 0, s, _ => s
  | fuel + 1, s, id =>
    match s.jobOf id with
    | none => s
    | some j =>
      if j.status.isSome ∨ j.abort ≠ 0 ∨ s.paused ∨ s.rd F.SCR_JOB_CFG_PARTS ≤ j.parts.length then s
      else match if tileOp j.op then s.nextTilePart j else s.nextPart j with
        | some s1 => State.admitParts fuel s1 id
        | none => s

/-- The whole of the job has been done. -/
def State.wholeDone (s : State) (j : Job) : State :=
  if j.op = 0x10 ∨ j.op = 0x11 ∨ j.op = 0x12 then s.endJob j 0 0 j.len
  else if j.codec then
    match j.out with
    | some out => if out.length ≤ j.outNext then s.endJob j 0 0 j.result else s
    | none => s
  else if j.op = 0x36 then s.endJob j 0 0 (s.poisonedTiles j)
  else match j.late with
    | some (st, d) => s.endJob j st d 0
    | none => s.endJob j 0 0 j.result

/-- A job goes on: parts that are over leave, follow-ups begin, the job ends or further parts are admitted. -/
def State.runParts (s : State) (id : Nat) (sectors lines : List (Nat × List Nat)) (faults : PipeFaults) : State :=
  let s1 := (State.takeParts 8 (s.followUp id) id sectors lines faults).runBlocks id
  match s1.jobOf id with
  | none => s1
  | some j =>
    if j.phase ≠ .running then s1
    else if j.status.isSome ∨ j.abort ≠ 0 then
      -- a part that has not begun to write stops here; the others run to their end
      let idle := fun (p : JobPart) => !p.move && decide (p.reads = 0 ∧ p.writes = 0)
      let left := j.parts.filter (fun p => !idle p)
      let s2 := (s1.putJob { j with parts := left }).outSub 18 j.cls (j.parts.filter idle).length
      if left.isEmpty then
        let st := j.status.getD (6, j.abort)
        let s3 := s2.spoilRest j j.next
        s3.endJob { j with parts := [] } st.1 st.2 (if j.op = 0x10 ∧ st = (3, 1) then j.result else 0)
      else s2
    else if j.op = 0x35 then
      (if s1.cry.rekeyJobs.any (fun e => decide (e.1 = id)) then s1 else s1.endJob j 0 0 0)
    else
      let total := if tileOp j.op then j.len / 4096 else j.len
      let s2 := if j.parts.isEmpty ∧ total ≤ j.next then s1.wholeDone j else s1
      State.admitParts 8 s2 id

/-- A job goes on, and the codec dispatcher with it. -/
def State.runJob (s : State) (id : Nat) (sectors lines : List (Nat × List Nat)) (faults : PipeFaults) : State :=
  (s.runParts id sectors lines faults).dispatch

/-! ## Starting -/

/-- A job may start: every earlier job of its queue has started (R392); under FENCE, what it waits for has ended and posted
(R393). -/
def State.mayStart (s : State) (j : Job) : Bool :=
  !s.job.jobs.any (fun x => decide (x.queue = j.queue ∧ x.id < j.id ∧ (x.phase = .fetching ∨ x.phase = .waiting))) &&
    (!(j.flags.testBit 0 || decide (j.op = 0x01)) || !j.before.any (fun b => (s.jobOf b).isSome))

/-- A job of an opcode starts with what begin does, and goes on as far as it can. -/
def State.startJob (s : State) (id op : Nat) (begin_ : State → Job → State) : State :=
  match s.jobOf id with
  | none => s
  | some j =>
    if j.phase ≠ .waiting ∨ j.op ≠ op ∨ !s.jobsRun ∨ s.paused ∨ j.abort ≠ 0 ∨ !s.mayStart j then s
    else
      let j1 := { j with phase := .running }
      ((begin_ (s.putJob j1) j1).runJob id [] [] noFaults).runJob id [] [] noFaults |>.postAll

/-- A codec job starts only while a pipe is ACTIVE (R129). One with LEN 0 has no part to bring its blocks. -/
def State.codecStart (s : State) (j : Job) : State :=
  if s.cdcOffline then s.endJob j 7 1 0
  else if j.len = 0 then s.putJob (Job.cutBlocks s.tmu.nextId 2 j)
  else s

/-! ## Commands -/

/-- NOP. -/
def execNop (jid : Nat) (s : State) : Result := .next (s.startJob jid 0x00 (fun s j => s.endJob j 0 0 0))

/-- FENCE (R393). -/
def execFence (jid : Nat) (s : State) : Result := .next (s.startJob jid 0x01 (fun s j => s.endJob j 0 0 0))

/-- COPY. -/
def execCopy (jid : Nat) (s : State) : Result := .next (s.startJob jid 0x10 (fun s _ => s))

/-- FILL. -/
def execFill (jid : Nat) (s : State) : Result := .next (s.startJob jid 0x11 (fun s _ => s))

/-- ZERO. -/
def execZero (jid : Nat) (s : State) : Result := .next (s.startJob jid 0x12 (fun s _ => s))

/-- COMPRESS (R120). -/
def execCompress (jid : Nat) (s : State) : Result := .next (s.startJob jid 0x20 State.codecStart)

/-- DECOMPRESS (R121). -/
def execDecompress (jid : Nat) (s : State) : Result := .next (s.startJob jid 0x21 State.codecStart)

/-- CHECKSUM (R123). -/
def execChecksum (jid : Nat) (s : State) : Result := .next (s.startJob jid 0x22 State.codecStart)

/-- PROMOTE. -/
def execPromote (jid : Nat) (s : State) : Result := .next (s.startJob jid 0x30 (fun s _ => s))

/-- DEMOTE: nothing can be demoted in near-only mode (R190). -/
def execDemote (jid : Nat) (s : State) : Result :=
  .next (s.startJob jid 0x31 (fun s j => if s.nearOnly then s.endJob j 7 6 0 else s))

/-- PIN (R174). -/
def execPin (jid : Nat) (s : State) : Result := .next (s.startJob jid 0x32 (fun s _ => s))

/-- UNPIN. -/
def execUnpin (jid : Nat) (s : State) : Result := .next (s.startJob jid 0x33 (fun s _ => s))

/-- RETIRE (R255, R256): in near-only mode there is no reserve. -/
def execRetire (jid : Nat) (s : State) : Result :=
  .next (s.startJob jid 0x34 (fun s j => if s.nearOnly then s.endJob j 7 4 0 else s))

/-- REKEY (R151, R140): a region that is being rekeyed is joined; the status of one whose generations are used up is free
(the spec names none). -/
def State.rekeyJob (s : State) (j : Job) : State :=
  match s.jobTarget j j.dst with
  | .error (s1, st, d) => s1.endJob j st d 0
  | .ok r =>
    let hold := fun (s : State) => s.setCry { s.cry with rekeyJobs := s.cry.rekeyJobs ++ [(j.id, r)] }
    if s.nearOnly then s.endJob j 0 0 0
    else if s.rekeying r then hold s
    else if s.curGen r = 0xffffffff then
      (s.raise cKeygenExhausted).drawn.endJob j ((Config.unspecified s.draw 0).toNat % 8) (Config.unspecified s.draw 1).toNat 0
    else hold (s.startRekey r 2)

/-- REKEY. -/
def execRekey (jid : Nat) (s : State) : Result := .next (s.startJob jid 0x35 State.rekeyJob)

/-- SCRUB_RANGE. -/
def execScrubRange (jid : Nat) (s : State) : Result := .next (s.startJob jid 0x36 (fun s _ => s))

/-- JOB_PART_DONE (R384, R387): the job's oldest part is over, or its rekey is, or codec pipes have ended blocks of it; the next
parts are admitted or the job ends, and completions are written. found is what a SCRUB_RANGE part met; pipes lists the codec pipes that are done, each with whether
its verifier found a mismatch. -/
def execJobPartDone (jid : Nat) (found : Found) (pipes : List (Nat × Bool)) (s : State) : Result :=
  .next (if !s.jobsRun then s
    else match s.jobOf jid with
      | none => s
      | some j =>
        let s1 := if j.phase = .waiting ∧ j.abort ≠ 0 then s.endJob j 6 j.abort 0 else s
        let s2 := pipes.foldl (fun s p => s.blockDone jid p.1 p.2) s1
        ((s2.runJob jid found.sectors found.lines found.pipes).runJob jid [] [] noFaults).postAll)

end Sys2Proof.Machine
end

