-- ==== Sys2Proof/Machine/JobQueues.lean ====
section
/-!
DEFINITION. Machine/JobQueues.lean: queue commands, the fetch of descriptors and the coalescing timer (R365 to R373, R383,
R388, R553; 11_job_queues.md).
-/
namespace Sys2Proof.Machine

/-! ## Queue commands -/

/-- The LD that a queue command counts for: its own range must hold the queue; the sideband acts as the LD whose range does
(R553). -/
def State.ownQueue (s : State) (src : MboxSrc) (q : Nat) : Option (Nat × Nat) :=
  match srcLd src with
  | some (h, l) => if s.ldOwnsQueue h l q then some (h, l) else none
  | none => s.queueLd q

/-- The ring of a context lies wholly in one ACTIVE PLAIN or SHARED region that admits the owner (R369). -/
def State.ringOk (s : State) (c : Qctx) : Bool :=
  let n := c.size * (if c.typ = 1 then 16 else 64)
  match s.regionAt c.base s.tmu.nextId with
  | some r =>
    s.fixedSlots r && decide (s.rgnState r = 1) && s.admits (c.owner % 16) (c.owner / 16) r && !s.isDeleting r &&
      decide (c.base + n ≤ s.rgnBase r + s.rd F.TMU_RGN_MAP_SIZE r * 2 ^ 30)
  | none => false

/-- The activation checks (R369): the cause of the one that fails, or 0. -/
def State.activation (s : State) (c : Qctx) : Nat :=
  let d := s.ctx c.cq
  if !s.ringOk c then 1
  else if c.typ = 0 ∧ !(s.ldOwnsQueue (c.owner % 16) (c.owner / 16) c.cq && decide (d.typ = 1 ∧ d.state = 1)) then 2
  else 0

/-- QUEUE_SET writes an image (R366 to R370). -/
def State.putQueue (s : State) (q h l : Nat) (img : List Byte) : Ans :=
  let c := s.ctx q
  let n := qctxImage img (h + 16 * l) (s.vectors h)
  if c.state = 1 then
    if n.typ ≠ c.typ ∨ n.log2 ≠ c.log2 ∨ n.base ≠ c.base ∨ n.cq ≠ c.cq then .err 0xc 5
    else
      let c1 := { c with cls := n.cls, key := n.key, bucket := n.bucket, qdepth := n.qdepth, stopOnErr := n.stopOnErr,
                         intEn := n.intEn, vector := n.vector, coalCnt := n.coalCnt, coalTime := n.coalTime }
      .ok (s.setCtx q c1) c1.bytes
  else
    let cause := s.activation n
    let n1 := { n with state := 1, phase := true }
    let s1 := (s.setCtx q n1).setJob { (s.setCtx q n1).job with coal := mdel s.job.coal q }
    let s2 := if cause = 0 then s1 else s1.queueError q cause 0
    .ok s2 (s2.ctx q).bytes

/-- QUEUE_SET. -/
def State.queueSet (s : State) (src : MboxSrc) (p : List Byte) : State :=
  s.avsar src 0xc060 68 .free p (fun s =>
    let q := numAt p 0 4
    match s.ownQueue src q with
    | none => .err 0xe (q % 2 ^ 16)
    | some (h, l) =>
      if s.job.disabling.any (fun e => decide (e.1 = q)) then .err 0xc 1
      else ((s.touchCtx q).ctxLost q).putQueue q h l (p.drop 4))

/-- QUEUE_SET. -/
def execQueueSet (src : MboxSrc) (payload : List (BitVec 8)) (s : State) : Result := .next (s.queueSet src payload)

/-- Some SQ that names CQ k is not DISABLED (R371). -/
def State.cqNamed (s : State) (k : Nat) : Bool :=
  s.job.ctxs.any (fun e => decide (e.2.typ = 0 ∧ e.2.state ≠ 0 ∧ e.2.cq = k))

/-- QUEUE_DISABLE (R371): the answer comes when the last job of the queue has posted its completion. -/
def State.queueDisable (s : State) (src : MboxSrc) (p : List Byte) : State :=
  let q := numAt p 0 4
  let waits := fun (s : State) => (s.ownQueue src q).isSome && decide ((s.ctx q).typ = 0 ∧ (s.ctx q).state ≠ 0) &&
    s.job.jobs.any (fun j => decide (j.queue = q)) && !s.job.disabling.any (fun e => decide (e.1 = q))
  let k := s.knock 1
  if k.mboxUp src ∧ !k.mboxBusy src ∧ p.length = 4 ∧ waits k then
    let s1 := k.setJob { k.job with disabling := k.job.disabling ++ [(q, src)] }
    (s1.abortJobs 1 (fun j => decide (j.queue = q))).postAll
  else s.avsar src 0xc061 4 .free p (fun s =>
    match s.ownQueue src q with
    | none => .err 0xe (q % 2 ^ 16)
    | some _ =>
      if s.job.disabling.any (fun e => decide (e.1 = q)) then .err 0xc 1
      else
        let s1 := (s.touchCtx q).ctxLost q
        let c := s1.ctx q
        if c.typ = 1 ∧ s1.cqNamed q then .err 0xc 5
        else .ok (s1.setCtx q { c with state := 0 }) [])

/-- QUEUE_DISABLE. -/
def execQueueDisable (src : MboxSrc) (payload : List (BitVec 8)) (s : State) : Result := .next (s.queueDisable src payload)

/-- QUEUE_QUERY. -/
def State.queueQuery (s : State) (src : MboxSrc) (p : List Byte) : State :=
  s.avsar src 0xc062 4 .free p (fun s =>
    let q := numAt p 0 4
    match s.ownQueue src q with
    | none => .err 0xe (q % 2 ^ 16)
    | some _ =>
      let s1 := (s.touchCtx q).ctxLost q
      .ok s1 (s1.ctx q).bytes)

/-- QUEUE_QUERY. -/
def execQueueQuery (src : MboxSrc) (payload : List (BitVec 8)) (s : State) : Result := .next (s.queueQuery src payload)

/-! ## Fetching (R383) -/

/-- An ACTIVE engine that may take job work: it has a free slot, and it holds job work already or fewer than JOB_ENG engines
do (R188). -/
def State.jobEngine (s : State) : Option Nat :=
  let busy := fun (e : Nat) => s.job.jobs.any (fun j => decide (j.engine = some e))
  let used := ((List.range 32).filter busy).length
  (s.unitsIn scrKind 1).find? (fun e => decide (s.engineLoad e < 8) && (busy e || decide (used < s.rd F.SCR_MOV_CFG_JOB_ENG)))

/-- Entries of a CQ that no completion and no job holds (R383). -/
def Qctx.free (c : Qctx) : Int :=
  Int.ofNat c.size - 1 - Int.ofNat ((c.head + c.size - c.tail % c.size) % c.size) - Int.ofNat c.reserved

/-- The queue has a pending entry and may have another job in flight; a fetch of it is not under way. -/
def State.mayFetch (s : State) (q : Nat) : Bool :=
  let c := s.ctx q
  let mine := s.job.jobs.filter (fun j => decide (j.queue = q))
  decide (c.typ = 0 ∧ c.state = 1 ∧ c.head ≠ c.tail ∧ mine.length < c.qdepth) &&
    !mine.any (fun j => decide (j.phase = .fetching)) && !s.job.disabling.any (fun e => decide (e.1 = q))

/-- The SQ's CQ would take part in a fetch: it has a free entry, or its failure ends the SQ (R383, R372). -/
def State.cqTakes (s : State) (q : Nat) : Bool :=
  let d := s.ctx (s.ctx q).cq
  decide (d.typ ≠ 1 ∨ d.state ≠ 1 ∨ 0 < d.free)

/-- It is the queue's turn: among the queues of its class that may fetch, fetches go round in order of queue number (R383). -/
def State.fetchTurn (s : State) (q : Nat) : Bool :=
  let c := (s.ctx q).cls
  let last := (mget s.job.turn c).getD (2 ^ 20 - 1)
  let d := fun x => (x + 2 ^ 20 - last - 1) % 2 ^ 20
  s.job.ctxs.all (fun e => decide (e.2.cls ≠ c ∨ d q ≤ d e.1) || !s.mayFetch e.1 || !s.cqTakes e.1)

/-- A queue of a class has had its turn. -/
def State.tookTurn (s : State) (q : Nat) : State := s.setJob { s.job with turn := mput s.job.turn (s.ctx q).cls q }

/-- The fetch of the next descriptor of an SQ: its CQ entry is reserved and its ring line is read. -/
def State.fetch (s : State) (q : Nat) : State :=
  let c := s.ctx q
  let s1 := (s.touchCtx c.cq).ctxLost c.cq
  let d := s1.ctx c.cq
  if d.typ ≠ 1 ∨ d.state ≠ 1 then (s1.tookTurn q).queueError q 2 c.head
  else match s1.jobEngine with
    | none => s
    | some e =>
      if d.free ≤ 0 then s
      else match s1.admitPart c.cls c.bucket 64 with
        | none => s
        | some s2 =>
          let id := s2.job.nextJob
          let j : Job := { id := id, queue := q, index := c.head, owner := c.owner, cls := c.cls, key := c.key,
                           bucket := c.bucket, desc := [], phase := .fetching, engine := some e, parts := [], next := 0,
                           outNext := 0, acc := [], out := none, result := 0, status := none, late := none, abort := 0,
                           before := [], ended := 0, blocks := [], cut := 0, nextBlock := 0, made := [], lastPipe := none }
          let s3 := (s2.tookTurn q).setJob { (s2.tookTurn q).job with jobs := s2.job.jobs ++ [j], nextJob := id + 1 }
          let s4 := s3.setCtx c.cq { d with reserved := d.reserved + 1 }
          (s4.jobServe j 0 0 (c.base + 64 * c.head) .read 0 0).postAll

/-- DESCRIPTOR_FETCH. -/
def execDescriptorFetch (q : Nat) (s : State) : Result :=
  .next (if !s.jobsRun ∨ s.paused ∨ (s.target = 3 ∧ 2 ≤ s.aon.entry.stage) ∨ !s.mayFetch q ∨ !s.fetchTurn q then s
    else
      let s1 := (s.touchCtx q).ctxLost q
      if s1.mayFetch q then s1.fetch q else s1)

/-! ## Interrupt coalescing (R388) -/

/-- COAL_TIME_EXPIRY. -/
def execCoalTimeExpiry (q : Nat) (s : State) : Result :=
  .next (match mget s.job.coal q with
    | some (n, first) =>
      let d := s.ctx q
      if !s.inReset ∧ s.cry.halt = 0 ∧ s.cur < 3 ∧ d.intEn ∧ d.coalTime ≠ 0 ∧ 0 < n ∧ first + d.coalTime ≤ s.tickNo then
        (s.setJob { s.job with coal := mdel s.job.coal q }).msix (d.owner % 16) (d.owner / 16) d.vector
      else s
    | none => s)

end Sys2Proof.Machine
end

