-- ==== Sys2Proof/Machine/Power.lean ====
section
/-!
DEFINITION. Machine/Power.lean: the power states (R223 to R229, R480 to R497, R528, R529; 15_power_states.md): the two
power commands, entry, wake, and the exits.
-/
namespace Sys2Proof.Machine

/-! ## What stops with the core domain -/

/-- A move stops where it stands (Table 2.7, Table 5.8): a demotion aborts, a promotion installs nothing and its frame
returns FREE, and the old entry stands. -/
def State.stopMove (s : State) (m : Move) : State :=
  match m.kind with
  | .demote => s.abortDemotion m
  | .promote =>
    let s1 := (s.dropMove m.id).issued m.id
    let s2 := match s1.fte m.frame with
      | some e => if e.state = FState.filling then s1.freeFte m.frame else s1
      | none => s1
    s2.leaveMove m true
  | .read => (s.dropMove m.id).issued m.id

/-- Every move stops. -/
def State.stopMoves (s : State) : State := s.tmu.moves.foldl State.stopMove s

/-- ADM starts afresh; rates and bursts stand (reset column C S), balances are full. -/
def State.admRest (s : State) : State :=
  s.setAdm { Adm.empty with
    buckets := s.adm.buckets.map (fun e => (e.1, { e.2 with
      rate := e.2.newRate, burst := e.2.newBurst, pending := false, bal := Int.ofNat e.2.newBurst })),
    nextUnit := s.adm.nextUnit, lastEpoch := s.adm.lastEpoch, cycleNow := s.rd F.ADM_GCL_CFG_CYCLE, recompute := true }

/-- The chain ports are down and start afresh; the far writes that TMU has accepted are applied, and the home state stays,
without ACCEPTED; the requester's state stays in P3 only (Table 12.13). The numbers of rounds and of port changes go on. -/
def State.clxRest (s0 : State) (requester : Bool) : State :=
  let s := s0.clx.done.foldl State.farApplied s0
  let c := s.clx
  s.setClx { Clx.empty with
    home := c.home.map (fun e => (e.1, { e.2 with accepted := 0 })),
    syncs := if requester then c.syncs else [], syncCount := c.syncCount,
    reqs := if requester then c.reqs else [], nextTag := c.nextTag, deadTags := if requester then c.deadTags else [],
    round := c.round, ucnt := c.ucnt, lanesRec := c.lanesRec }

/-- CTL stops: sessions, transfers and background commands end; flash, the boot override and the running header stay. -/
def State.ctlRest (s : State) : State :=
  s.setCtl { s.ctl with beats := [], moves := [], wdtRuns := false, checking := none, xfer := none, background := [],
                        sessions := [], alive := false }

/-- The memory controllers stop; what AON retains stays (R210, R491). -/
def State.memRest (s : State) : State :=
  let m := s.mem
  s.setMem { Mem.empty with
    entry := m.entry, bulkIn := m.bulkIn, nearIn := m.nearIn, untrained := m.untrained,
    serials := m.serials, canaries := m.canaries, resume := m.resume, resumeHeader := m.resumeHeader }

/-! ## Self-refresh (R223, R225) -/

/-- The status of channels whose queues and postponed refreshes are gone (R223 steps 3 and 5). -/
def State.drainedStatus (s : State) (keys : List Nat) : State :=
  keys.foldl (fun s k => (s.chanStatus k).wrI (if k < 32 then F.NTC_CH_REF_POSTPONED else F.BTC_SC_REF_POSTPONED) (k % 32) 0) s

/-- The bulk commit point (R223 step 4): queues drained, postponed refreshes repaid, rows closed. -/
def State.srBulk (s : State) : State :=
  let m := s.mem
  ((s.setMem { m with
                     bulkIn := true, queues := m.queues.filter (fun e => decide (e.1 < 32)),
                     postponed := m.postponed.filter (fun e => decide (e.1 < 32 * 64)),
                     refDue := m.refDue.filter (fun k => decide (k < 32 * 64)),
                     repay := m.repay.filter (fun k => decide (k < 32 * 64)),
                     rows := m.rows.filter (fun e => decide (e.1 < 32 * 1024)),
                     inOrder := m.inOrder.filter (fun e => decide (e.1 < 32 * 1024)) }).drainedStatus
    (s.bulkChans.flatMap (fun c => [bulkKeyOf (2 * c), bulkKeyOf (2 * c + 1)]))).bump F.BTC_SR_ENTRIES

/-- The near commit point (R223 step 6) with step 7's report: both STATE fields read 2. -/
def State.srNear (s : State) : State :=
  let m := s.mem
  ((((s.setMem { m with
                       nearIn := true, lastWrite := [], queues := m.queues.filter (fun e => decide (32 ≤ e.1)),
                       postponed := m.postponed.filter (fun e => decide (32 * 64 ≤ e.1)),
                       refDue := m.refDue.filter (fun k => decide (32 * 64 ≤ k)),
                       repay := m.repay.filter (fun k => decide (32 * 64 ≤ k)),
                       rows := m.rows.filter (fun e => decide (32 * 1024 ≤ e.1)),
                       inOrder := m.inOrder.filter (fun e => decide (32 * 1024 ≤ e.1)) }).drainedStatus
    (s.nearChans.map nearKeyOf)).bump F.NTC_SR_ENTRIES).wr
    F.NTC_SR_STATE 2).wr F.BTC_SR_STATE 2

/-- A demotion that waits and moves nothing. -/
def Move.waiting (m : Move) : Bool :=
  decide (m.kind = .demote ∧ (m.stage = .allocWait ∨ m.stage = .keyWait ∨ m.stage = .crossWait))

/-- SELF_REFRESH_BULK_COMMIT: in a P2 entry nothing moves any more and the demotions that wait are given up (Table 5.8);
TMU has written back (R73). -/
def execSelfRefreshBulkCommit (s : State) : Result :=
  .next (if s.inReset ∨ s.bulkSr ≠ 1 ∨ s.mem.bulkIn then s
    else if s.mem.entry = 1 then
      (if s.aon.entry.stage = 2 ∧ s.tmu.moves.all Move.waiting then
        let s1 := s.stopMoves.writeBack.srBulk
        s1.setEntry { s1.aon.entry with stage := 3 }
       else s)
    else if s.mem.entry = 3 then s.writeBack.srBulk
    else s)

/-- SELF_REFRESH_NEAR_COMMIT. -/
def execSelfRefreshNearCommit (s : State) : Result :=
  .next (if s.inReset ∨ s.nearSr ≠ 1 ∨ !s.mem.bulkIn ∨ s.mem.nearIn then s else s.srNear)

/-- SELF_REFRESH_EXIT_DONE: the requests that wait for the tier are served. -/
def execSelfRefreshExitDone (tier : Tier) (s : State) : Result :=
  .next (if s.inReset ∨ (match tier with | .near => s.nearSr | .bulk => s.bulkSr) ≠ 3 then s
    else (s.srDone tier).resumeWhy (fun w => decide (w.why = .selfRefresh)))

/-! ## The commands (R481, R300) -/

/-- A region with RETAIN that is not FREE. -/
def State.retainRegions (s : State) : List Nat :=
  (List.range 64).filter (fun r => decide (s.rgnState r ≠ 0) && s.rdb F.TMU_RGN_MAP_RETAIN r)

/-- A refusal raises the REFUSED cause. -/
def State.refusePower (s : State) (arc detail : Nat) : Ans :=
  .raised ((s.wr F.AON_PWR_STS_OUTCOME 1).raise cRefused) arc detail

/-- The checks of R481, in order, then the supervisor's part (R482): TARGET and ARM. -/
def State.powerChecks (s : State) (src : MboxSrc) (t : Nat) : Ans :=
  if !s.srcHas src F.HLX_HEAD_PERM_FM then s.refusePower 1 0
  else if t < 1 ∨ 4 < t then s.refusePower 2 0
  else if s.aon.entry.stage ≠ 0 ∨ s.cur ≠ 0 then s.refusePower 0xc 5
  else if (t = 2 ∨ t = 3) ∧ s.avsarRunning then s.refusePower 0xc 1
  else if t = 3 ∧ (s.rd F.BTC_RET_PEND_SLOT ≠ 0 ∨
      s.retainRegions.any (fun r => !(s.outside r).isEmpty || s.fixedOutside r)) then s.refusePower 0xc 2
  else if t = 3 ∧ s.retAny then s.refusePower 0xc 3
  else if t = 3 ∧ s.nearOnly ∧ !s.retainRegions.isEmpty then s.refusePower 0xc 4
  else if t = 3 ∧ s.retainRegions.any (fun r => (s.entries r).any (fun k => s.stuck r (s.tme r k))) then
    s.refusePower 0xc 6
  else
    let s1 := (((s.wr F.AON_PWR_MODE_TARGET t).wr F.AON_PWR_MODE_ARM 1).wr F.AON_PWR_STS_LAST_TARGET t)
    .ok (s1.setEntry { stage := 1, wakes := [], attempts := 0, retry := false }) []

/-- SET_POWER_STATE; every refusal raises a cause, the lack of FM too. -/
def State.setPowerState (s : State) (src : MboxSrc) (p : List Byte) : State :=
  s.avsar src 0xc020 4 .free p (fun s => s.powerChecks src (numAt p 0 4))

/-- SET_POWER_STATE. -/
def execSetPowerState (src : MboxSrc) (payload : List Byte) (s : State) : Result := .next (s.setPowerState src payload)

/-- The answer of GET_POWER_STATE: the state and the last wake code, four bytes each. -/
def State.getPowerState (s : State) (src : MboxSrc) (p : List Byte) : State :=
  s.avsar src 0xc021 0 .free p (fun s => .ok s (leBytes 4 s.cur ++ leBytes 4 (s.rd F.AON_PWR_STS_LAST_WAKE)))

/-- GET_POWER_STATE. -/
def execGetPowerState (src : MboxSrc) (payload : List Byte) (s : State) : Result := .next (s.getPowerState src payload)

/-! ## Entry (R482, R483, R489, R492, R496) -/

/-- An entry is complete (R483): CUR reads the target; a wake latched after the commit point is replayed. -/
def State.entered (s : State) (cnt : Fld) : State :=
  let s1 := ((((s.wr F.AON_PWR_MODE_CUR s.target).wr F.AON_PWR_MODE_PHASE 2).wr F.AON_PWR_MODE_ARM 0).wr
    F.AON_PWR_STS_OUTCOME 0).bump cnt
  let s2 := (s1.setEntry { s1.aon.entry with stage := 4, wakes := [], attempts := 0, retry := false }).raise cEntered
  match s.aon.entry.wakes with
  | c :: _ => s2.wake c
  | [] => s2

/-- The management target's bus address by its straps (R559). -/
def strapAddr (x : Straps) : Nat := 0x30 + 9 * x.addr2 + 3 * x.addr1 + x.addr0
def State.targetAddr (s : State) : Nat := strapAddr s.straps

/-- Off (R496, R567): everything is lost; the supply enables fall. -/
def State.enterOff (s : State) : State :=
  let b := s.blank
  (({ b with straps := s.straps, aon := { b.aon with off := 1, strapped := s.aon.strapped } }).emit (.resetN true)).emit
    (.enables (List.replicate 8 false))

/-- AON_ENTRY_START. -/
def execAonEntryStart (pendingEvent : Bool) (s : State) : Result :=
  .next (if s.inReset ∨ s.aon.entry.stage ≠ 1 ∨ !s.rdb F.AON_PWR_MODE_ARM ∨ s.cur ≠ 0 ∨ s.cry.halt ≠ 0 then s
    else
      let t := s.target
      let s1 := s.wr F.AON_PWR_MODE_PHASE 1
      if pendingEvent then s1.endEntry false
      else if t = 1 then s1.entered F.AON_PWR_CNT_P1
      else if t = 2 then
        let n := s.aon.entry.attempts + 1
        let s2 := s1.setEntry { s1.aon.entry with stage := 2, attempts := n }
        ((s2.wr F.AON_PWR_STS_ATTEMPTS (min n 15)).wr F.AON_CRICKET_ADDR s.targetAddr).srBegin 1
      else if t = 3 then
        let s2 := (s1.setEntry { s1.aon.entry with stage := 2 }).wr F.AON_CRICKET_ADDR s.targetAddr
        (s2.abortJobs 3 (fun _ => true)).postAll.startSweep .p3
      else if t = 4 then s1.enterOff
      else s)

/-- P2_ENTRY_COMPLETE. -/
def execP2EntryComplete (s : State) : Result :=
  .next (if s.aon.entry.stage = 3 ∧ s.target = 2 ∧ s.nearSr = 2 ∧ s.bulkSr = 2 then s.entered F.AON_PWR_CNT_P2 else s)

/-! ## Cicada -/

/-- The body of the running copy (R444, R450). -/
def State.runningBody (s : State) : List Byte :=
  let n := min 8388096 (numAt s.ctl.header 0x10 4)
  match s.rd F.CTL_BOOT_COPY with
  | 0 => s.flash (copyBase 0 + 512) n
  | 1 => s.flash (copyBase 1 + 512) n
  | _ => memReadN 0xff s.ctl.image 512 n

/-- The retained rank sets in use. -/
def State.retainedSets (s : State) : List Nat := (s.bulk.sets.map (·.id)).filter s.retained

/-- The key of a canary: subchannel, rank set, bank. -/
def canaryKey (u set bank : Nat) : Nat := u * 512 + set * 32 + bank

/-- The 512 bytes of a canary (R491). -/
def canaryBytes (seq u set bank : Nat) : List Byte :=
  (List.range 128).flatMap (fun j => leBytes 4 (crc32c (leBytes 4 seq ++
    [BitVec.ofNat 8 u, BitVec.ofNat 8 set, BitVec.ofNat 8 bank, 0#8] ++ leBytes 4 j)).toNat)

/-- The banks of the retained sets. -/
def State.canaryBanks (s : State) : List (Nat × Nat × Nat) :=
  s.bulkChans.flatMap (fun c => [2 * c, 2 * c + 1].flatMap (fun u => s.retainedSets.flatMap (fun r =>
    (List.range 32).map (fun b => (u, r, b)))))

/-- Sector j of the canary of a bank: the highest row of its rank set on that subchannel (R201, R202, R491). -/
def State.canarySector (s : State) (u set bank j : Nat) : Nat :=
  match s.bulk.sets.find? (fun r => decide (r.id = set)) with
  | none => 0
  | some r =>
    let nb := s.bulkChans.length
    let place := s.bulkChans.idxOf (u / 2) + nb * (u % 2)
    let row := r.rows - 1
    r.first + (row * 4096 + (bank ^^^ row) % 32 * 128 + j) * (2 * nb) + place

/-- The canary of a bank as bulk memory holds it, and written. -/
def State.canaryRead (s : State) (x : Nat × Nat × Nat) : List Byte :=
  (List.range 8).flatMap (fun j => s.sectors (s.canarySector x.1 x.2.1 x.2.2 j) 1)
def State.canaryPut (s : State) (x : Nat × Nat × Nat) (bs : List Byte) : State :=
  (List.range 8).foldl (fun s j => s.putSectors (s.canarySector x.1 x.2.1 x.2.2 j) (bytesAt bs (64 * j) 64) []) s

/-- Canaries, signatures and the resume area (Table 15.5 step 4). -/
def State.writeCanaries (s0 : State) : State :=
  let seq := (s0.rd F.AON_CANARY_SEQ + 1) % 2 ^ 32
  let s := s0.canaryBanks.foldl (fun s x => s.canaryPut x (canaryBytes seq x.1 x.2.1 x.2.2)) s0
  let sig := s.canaryBanks.map (fun x => (canaryKey x.1 x.2.1 x.2.2, crc32c (canaryBytes seq x.1 x.2.1 x.2.2)))
  let s1 := (s.wr F.AON_CANARY_SEQ seq).wr F.AON_CANARY_SIGNED sig.length
  let s2 := s1.setMem { s1.mem with canaries := sig, resume := s.runningBody, resumeHeader := s.ctl.header }
  s2.wr F.AON_RESUME_VALID 1

/-- FLUSH_DONE: the commit point of a P3 entry. -/
def execFlushDone (s : State) : Result :=
  .next (if s.aon.entry.stage = 2 ∧ s.target = 3 ∧ s.rdb F.SCR_MOV_STS_FLUSH ∧ s.job.jobs.isEmpty ∧
      s.near.ftes.all (fun e => !(s.rdb F.TMU_RGN_MAP_RETAIN e.2.slot &&
        decide (e.2.state = FState.dirty ∨ e.2.state = FState.moving))) then
    let s1 := ((s.writeBack.wr F.SCR_MOV_STS_FLUSH 0).raise cFlushDone).writeCanaries
    (s1.setEntry { s1.aon.entry with stage := 3 }).srBegin 2
  else s)

/-- The near tier is gone: no entry names a frame any more. -/
def State.nearOff (s : State) : State :=
  let s1 := s.near.ftes.foldl (fun s e =>
    s.setTme e.2.slot e.2.tile { s.tme e.2.slot e.2.tile with nv := false, near := 0 }) s
  s1.setNear { s1.near with mem := [], marks := [], ftes := [], reads := [] }

/-- The core domain loses power (Table 15.5 step 7, Table 16.5): what AON and the retained rank sets hold stays. -/
def State.coreOff (s : State) : State :=
  let s1 := s.stopMoves.nearOff.writeBack
  let s2 := (s1.setTmu { s1.tmu with moves := [], cache := [], waits := [], fetches := [] }).setCdc { held := [] }
  let s3 := ((((s2.dirClear.resetQueues (fun _ => true)).admRest).clxRest true).ctlRest).memRest
  let s4 := s3.setScr { s3.scr with cands := [], lastPromo := [], prefetch := [], low := false }
  let s5 := s4.setCry { s4.cry with ide := [], ideOn := [], lines := 0, marks := [] }
  let s6 := (s5.setHlx Hlx.empty).setRas { s5.ras with copies := [] }
  s6.setEvt { State.reset.evt with latched := s.evt.latched }

/-- DIMMs that hold no retained rank (Table 6.8 step 3). -/
def State.offDimms (s : State) : List Nat :=
  (s.bulk.dimms.map (fun d => 2 * d.ch + d.slot)).filter (fun d =>
    !s.bulk.sets.any (fun r => decide (r.slot = d % 2) && s.retained r.id && s.bulkChans.contains (d / 2)))

/-- AON saves the time (R528). -/
def State.saveTime (s : State) : State :=
  s.setTime { s.aon.time with saved := some (s.epoch, s.phase, s.rd F.AON_EPOCH_QUALITY) }

/-- P3_POWER_DOWN. -/
def execP3PowerDown (s : State) : Result :=
  .next (if s.aon.entry.stage = 3 ∧ s.target = 3 then
    let s1 := s.srBulk.coreOff.saveTime
    let s2 := s1.setMem { s1.mem with untrained := s.offDimms, serials := serialsOf s.bulk.dimms }
    let s3 := s.offDimms.foldl (fun s d => s.wrI F.BTC_DIMM_PMIC_OFF d 1)
      ((s2.setCtl { s2.ctl with romRan := true }).p3Regs.wr F.AON_CLK_STS_LOCK 0)
    let s4 := s3.setAon { s3.aon with groups := 0, passed := 0, pllOk := 0, hubOnCore := false, blocks := [], accs := [] }
    (s4.emit (.enables ((List.range 8).map (fun k => decide (k = 5))))).entered F.AON_PWR_CNT_P3
  else s)

/-! ## Wakes (R484 to R488, R491) -/

/-- The exit from P4 (R496): a cold reset, and LAST_WAKE reads 4 after it. -/
def State.leaveOff (s : State) : State := (s.cold false false).wr F.AON_PWR_STS_LAST_WAKE 4

/-- WAKE_N (R486, R496, R508, R566): in P4, and after a supply that did not rise, it starts the unit again; after a thermal
shutdown once the junction is below 100 °C. -/
def State.wakePin (s : State) : State :=
  if s.aon.off = 1 then s.leaveOff
  else if s.aon.off = 2 ∧ s.aon.brownThermal then s
  else if s.aon.off = 2 then s.cold false false
  else if s.aon.off ≠ 0 then s.retrySupplies
  else s.wake 4

/-- WAKE_EVENT. -/
def execWakeEvent (code : Nat) (s : State) : Result :=
  .next (if s.aon.off ≠ 0 then (if code = 4 then s.wakePin else s) else s.wake code)

/-- P2_ENTRY_RETRY: RETRY_IDLE has passed without a request (R485). -/
def execP2EntryRetry (s : State) : Result :=
  .next (if s.aon.entry.retry ∧ s.aon.entry.stage = 0 ∧ s.fwRuns then
    let s1 := s.setEntry { s.aon.entry with stage := 1, wakes := [], retry := false }
    (s1.wr F.AON_PWR_MODE_TARGET 2).wr F.AON_PWR_MODE_ARM 1
  else s)

/-- CRICKET_MATCH (R488): never for the broadcast address. -/
def execCricketMatch (addr : BitVec 7) (s : State) : Result :=
  .next (if s.aon.off = 0 ∧ (s.target = 2 ∨ s.target = 3) ∧ 2 ≤ s.aon.entry.stage ∧ s.aon.entry.stage ≤ 4 ∧
      addr.toNat = s.rd F.AON_CRICKET_ADDR ∧ addr ≠ 0x7e ∧ s.wakes s.target 3 then
    (s.bump F.AON_CRICKET_MATCHES).wake 3
  else s)

/-- WAKE_N. -/
def execWakeN (s : State) : Result := .next s.wakePin

/-- EPOCH_ALARM: the alarm position; in P3 the position is the estimated one. -/
def execEpochAlarm (s : State) : Result :=
  .next (if s.inReset ∨ !s.rdb F.AON_ALARM_EN then s
    else
      let cyc := max 1 (s.rd F.AON_ALARM_CYCLE)
      if s.cur = 3 ∨ (s.epoch % cyc = s.rd F.AON_ALARM_EPOCH % cyc ∧ s.phase = s.rd F.AON_ALARM_PHASE) then
        (s.raise cAlarm).wake 5
      else s)

/-! ## Exits (Tables 15.4 and 15.6) -/

/-- P1_EXIT_DONE. -/
def execP1ExitDone (s : State) : Result :=
  .next (if s.cur = 1 ∧ s.aon.entry.stage = 5 then s.exitP1 else s)

/-- P2_EXIT_DONE: both tiers accept commands again. -/
def execP2ExitDone (s : State) : Result :=
  .next (if s.cur = 2 ∧ s.aon.entry.stage = 5 ∧ s.nearSr = 0 ∧ s.bulkSr = 0 then
    let s1 := ((s.p2Regs.wr F.AON_PWR_MODE_CUR 0).wr F.AON_PWR_MODE_PHASE 0).setEntry Entry.none
    (s1.raise cWake).resumeWhy (fun w => decide (w.why = .selfRefresh))
  else s)

/-- The check of the saved header and the resume area (R494). -/
def State.resumeOk (s : State) : Bool :=
  let h := s.mem.resumeHeader
  decide (beNat (bytesAt h 0x20 48) = (sha384 s.mem.resume).toNat ∧ checkKeys s.fuses h s.mem.resume = 0)

/-- RESUME_AREA_CHECK: on acceptance the copy runs, else the ROM boots from flash (BOOT_ROM follows). -/
def execResumeAreaCheck (uncorrectable : Bool) (s : State) : Result :=
  .next (if s.cur ≠ 3 ∨ s.aon.entry.stage ≠ 5 ∨ s.rd F.CTL_HEALTH_STATE ≠ 0 ∨ !s.ctl.romRan then s
    else if s.resumeOk ∧ !uncorrectable then
      let s1 := s.runCopy (s.rd F.CTL_BOOT_COPY) s.mem.resumeHeader
      (s1.setCtl { s1.ctl with alive := true }).wr F.AON_RESUME_RESULT 0
    else ((s.setCtl { s.ctl with romRan := false }).wr F.AON_RESUME_RESULT 1).wr F.AON_RESUME_VALID 0)

/-- A bank has failed: a word as read, its canary against the signature, or because its DIMM was replaced (R495, R229). -/
def State.bankFails (s : State) (bad : List (Nat × Nat × Nat)) (serials : List (Nat × BitVec 32)) (x : Nat × Nat × Nat) :
    Bool :=
  bad.contains x || decide (mget s.mem.canaries (canaryKey x.1 x.2.1 x.2.2) ≠ some (crc32c (s.canaryRead x))) ||
    (match s.bulk.sets.find? (fun r => decide (r.id = x.2.1)) with
    | some r =>
      let d := 2 * (x.1 / 2) + r.slot
      decide (mget serials d ≠ mget s.mem.serials d)
    | none => false)

/-- The failing banks are listed (R264, Table 7.9). -/
def State.listBanks (s : State) (l : List (Nat × Nat × Nat)) : State :=
  let many := decide (256 < l.length)
  (List.range (min 256 l.length)).foldl (fun s n =>
    let x := l.getD n (0, 0, 0)
    let y := if many ∧ n = 255 then (x.1, 15, 31) else x
    (((s.wrAt F.RAS_RET_SUBCH 0 n y.1).wrAt F.RAS_RET_SET 0 n y.2.1).wrAt F.RAS_RET_BANK 0 n y.2.2).wrAt
      F.RAS_RET_VALID 0 n 1) s

/-- The spot of a bank's canary row. -/
def State.canarySpot (s : State) (x : Nat × Nat × Nat) : Spot :=
  let rows := ((s.bulk.sets.find? (fun r => decide (r.id = x.2.1))).map (·.rows)).getD 1
  let p : BulkPlace := { set := x.2.1, ch := x.1 / 2, subB := decide (x.1 % 2 = 1), bank := x.2.2, row := rows - 1, col := 0 }
  { page := 32 + p.ch, loc := bulkLocation p,
    held := s.rdb F.BTC_SC_CTL_HOLD x.1 || (s.rd F.RAS_RANK_STS_FAILING).testBit p.set,
    hold := s.rdb F.BTC_SC_CTL_HOLD x.1 }

/-- CANARY_CHECK: corrected words are counted (R249), the failing banks listed, and the sweep of R265 is due; the record
follows in the log that restarts at the end of the exit. -/
def execCanaryCheck (bad corrected : List (Nat × Nat × Nat)) (serials : List (Nat × BitVec 32)) (s : State) : Result :=
  .next (if s.cur ≠ 3 ∨ s.aon.entry.stage ≠ 5 ∨ s.mem.canaries.isEmpty then s
    else
      let banks := s.canaryBanks.filter (fun x => (mget s.mem.canaries (canaryKey x.1 x.2.1 x.2.2)).isSome)
      let failed := banks.filter (s.bankFails bad serials)
      let s1 := (corrected.filter banks.contains).foldl (fun s x => s.corrected (s.canarySpot x) {}) s
      let s2 := (s1.setMem { s1.mem with canaries := [] }).wr F.AON_CANARY_FAILED failed.length
      if failed.isEmpty then s2
      else
        let s3 := s2.listBanks failed
        (s3.raise cRetentionLoss).setRas { (s3.raise cRetentionLoss).ras with sweep := some (0, 0) })

/-- The RETENTION_LOSS record of the canary check (R264), once the log has restarted. -/
def State.recordRetention (s : State) : State :=
  let n := s.rd F.AON_CANARY_FAILED
  if n = 0 then s else s.log 0x0c { detail := min 0xffff n + 2 ^ 16 * b2n (decide (256 < n)) }

/-- The ns that AON estimates it slept (R527, R528): ticks of RATIO × 40 ns ÷ 2^16. -/
def State.sleptNs (s : State) (ticks : Nat) : Nat := ticks * s.rd F.AON_LS_CAL_RATIO * 40 / 2 ^ 16

/-- The bound of the estimate in µs, rounded up (R529). -/
def timeErr (stab ns : Nat) : Nat := min (2 ^ 32 - 1) (ceilDiv (3052 * 10 ^ 9 + (2 + 100 * stab) * ns) (100 * 10 ^ 9))

/-- The time after P3 (R528, R529): estimated from the saved time. -/
def State.estimateTime (s : State) (ticks : Nat) (switched : Bool) : State :=
  match s.aon.time.saved with
  | none => s
  | some (e, ph, q) =>
    let slept := s.sleptNs ticks
    let main := e * s.epochNs + ph * s.epochNs / 1024 + slept
    let e1 := main / s.epochNs
    let t := s.aon.time
    let s1 := ((s.wr F.AON_EPOCH_EPOCH e1).wr F.AON_EPOCH_PHASE (main % s.epochNs * 1024 / s.epochNs)).setTime
      { t with elapsed := (t.elapsed + (e1 - e) * s.epochNs) % 2 ^ 64, saved := none, offs := [], windowOpen := false,
               fresh := t.fresh || decide (e1 ≠ e) }
    (((s1.wr F.AON_TIME_EST_ERR (timeErr (if switched then 5000 else s.rd F.AON_LS_CFG_STAB_PPM) slept)).wr
      F.AON_TIME_EST_SWITCHED (b2n switched)).wr F.AON_TIME_EST_INVALID (b2n (decide (q ≠ 0)))).setQuality 3

/-- P3_EXIT_DONE (Table 15.6 steps 7 and 8). Memory is active unless the minimum service set is missing (R44). -/
def execP3ExitDone (lsTicks : Nat) (switched : Bool) (s : State) : Result :=
  .next (if s.cur ≠ 3 ∨ s.aon.entry.stage ≠ 5 ∨ s.rd F.CTL_HEALTH_STATE ≠ 2 ∨ !s.mem.canaries.isEmpty then s
    else
      let s0 := s.estimateTime lsTicks switched
      let s1 := (List.range 64).foldl (fun s r => if s.rdb F.TMU_RGN_MAP_RETAIN r then s else s.loseRegion r) s0
      let s2 := (s1.restartLog 2).recordRetention.recordCores
      let s3 := (s2.setMem { s2.mem with entry := 0, bulkIn := false, nearIn := false }).openSets
      let s4 := ((s3.wr F.NTC_SR_STATE 0).wr F.BTC_SR_STATE 0).wr F.CTL_HEALTH_STATE 3
      let s5 := (List.range 15).foldl (fun s b => s.wr (F.BLK_CTL_LOCK b) 1) s4
      let s6 := if s5.rdb F.CTL_BOOT_TRIAL then (s5.writeDesc s5.descNow.2.prefer false false).raise cFwActivated else s5
      ((((s6.enterModes.aonSleepRegs.wr F.AON_PWR_MODE_CUR 0).wr F.AON_PWR_MODE_PHASE 0).setEntry Entry.none).watchService).raise
        cWake)

end Sys2Proof.Machine
end

