-- ==== Sys2Proof/Machine/Mailbox.lean ====
section
/-!
DEFINITION. Machine/Mailbox.lean: the mailbox commands that no other family holds (R222, R226, R271, R279, R280, R285, R286, R288,
R293, R300, R301; 08_host_links.md): information, rank sets, SPD, heads, poison, dynamic capacity.
-/
namespace Sys2Proof.Machine

/-! ## Information -/

/-- GET_INFO: version (2), slots free, key mode, LD count, 3 zero bytes, first queue (4), queue count (4); through the
sideband there is no LD and its fields are zero. -/
def State.getInfo (s : State) (src : MboxSrc) (p : List Byte) : State :=
  s.avsar src 0xc000 0 .free p (fun s =>
    let free := ((List.range 64).filter (fun r => decide (s.rgnState r = 0))).length
    let ld := match srcLd src with
      | some (h, l) => (s.ldCount h, s.rd F.HLX_LD_QUEUES_QFIRST (hl h l), s.rd F.HLX_LD_QUEUES_QCOUNT (hl h l))
      | none => (0, 0, 0)
    .ok s (leBytes 2 Config.avsarVersion ++ leBytes 1 free ++ leBytes 1 (b2n s.vk4) ++ leBytes 1 ld.1 ++ leBytes 3 0 ++
      leBytes 4 ld.2.1 ++ leBytes 4 ld.2.2))

/-- GET_INFO. -/
def execGetInfo (src : MboxSrc) (payload : List (BitVec 8)) (s : State) : Result := .next (s.getInfo src payload)

/-- GET_SPD (R222): bytes of a DIMM's SPD. -/
def State.getSpd (s : State) (src : MboxSrc) (p : List Byte) : State :=
  let d := numAt p 0 2
  let off := numAt p 2 2
  let n := numAt p 4 4
  s.avsar src 0xc034 8 (.perm 0) p (fun s =>
    if 31 < d then .err 2 0
    else if n = 0 ∨ 1024 < n then .err 2 4
    else if !s.rdb F.BTC_DIMM_ID_PRESENT d then .err 4 d
    else .ok s ((List.range n).map (fun i => Config.spd d (off + i))))

/-- GET_SPD. -/
def execGetSpd (src : MboxSrc) (payload : List (BitVec 8)) (s : State) : Result := .next (s.getSpd src payload)

/-! ## Rank sets -/

/-- SET_RETAIN_SETS (R226): bit 0 reads 1 whatever is written. -/
def State.setRetainSets (s : State) (src : MboxSrc) (p : List Byte) : State :=
  s.avsar src 0xc030 4 (.perm 0) p (fun s =>
    match reservedAt p 2 2 with
    | some i => .err 2 i
    | none =>
      if s.regionsPresent ≠ 0 then .err 9 s.regionsPresent
      else .ok (s.wr F.BTC_RETAIN_SETS (numAt p 0 2 ||| 1)) [])

/-- SET_RETAIN_SETS. -/
def execSetRetainSets (src : MboxSrc) (payload : List (BitVec 8)) (s : State) : Result :=
  .next (s.setRetainSets src payload)

/-- The sectors of a rank set outside the reserve (R258 step 4). -/
def State.setSectors (s : State) (id : Nat) : Nat :=
  match s.bulk.sets.find? (fun r => decide (r.id = id)) with
  | some r => r.sectors - reserveSectors (s.rd F.BTC_CONFIG_NCH) r
  | none => 0

/-- The spare rank set held, if any, goes back into TMU_CAP_TOTAL. -/
def State.dropSpare (s : State) : State :=
  if s.rdb F.RAS_SPARE_SET_VALID then
    let id := s.rd F.RAS_SPARE_SET_SET
    let mine := s.tmu.withheld.filter (fun e => s.inSet id e.1)
    let s1 := (s.setTmu { s.tmu with withheld := s.tmu.withheld.filter (fun e => !s.inSet id e.1) }).giveBack mine
    (s1.wr F.TMU_CAP_TOTAL_SECTORS (s1.rd F.TMU_CAP_TOTAL_SECTORS + s.setSectors id)).wr F.RAS_SPARE_SET_VALID 0
  else s

/-- A rank set becomes the spare: its free sectors leave the allocator and TMU_CAP_TOTAL. -/
def State.takeSpare (s : State) (id : Nat) : State :=
  let runs := (s.freeRuns.filter (fun e => s.inSet id e.2)).map (fun e => (e.2, e.1))
  let s1 := (s.setTmu { s.tmu with
    withheld := s.tmu.withheld ++ s.tmu.freeIv.filter (fun e => s.inSet id e.1) ++ runs,
    freeIv := s.tmu.freeIv.filter (fun e => !s.inSet id e.1) }).keepRuns (fun a => !s.inSet id a)
  (s1.wr F.TMU_CAP_TOTAL_SECTORS (s1.rd F.TMU_CAP_TOTAL_SECTORS - s.setSectors id)).wr F.RAS_SPARE_SET_VALID 1

/-- SET_SPARE_SET (R271): the set in byte 0, VALID in bit 8; a set number of 0 clamps to 1. -/
def State.setSpareSet (s : State) (src : MboxSrc) (p : List Byte) : State :=
  let id := max 1 (numAt p 0 1)
  let valid := bitOf (numAt p 1 1) 0
  s.avsar src 0xc031 4 (.perm 0) p (fun s =>
    if 15 < numAt p 0 1 then .err 2 0
    else if 1 < numAt p 1 1 then .err 2 1
    else match reservedAt p 2 2 with
      | some i => .err 2 i
      | none =>
        if s.setHeld id then .err 0xc 1
        else if s.regionsPresent ≠ 0 then .err 9 s.regionsPresent
        else if valid ∧ (!s.bulk.sets.any (fun r => decide (r.id = id)) ∨ (s.rd F.RAS_RANK_STS_FAILING).testBit id ∨
            (s.rd F.RAS_RANK_STS_REMOVED).testBit id) then .err 4 id
        else
          let s1 := s.dropSpare.wr F.RAS_SPARE_SET_SET id
          .ok (if valid then s1.takeSpare id else s1) [])

/-- SET_SPARE_SET. -/
def execSetSpareSet (src : MboxSrc) (payload : List (BitVec 8)) (s : State) : Result :=
  .next (s.setSpareSet src payload)

/-! ## Heads (R279, R280, R293, R301) -/

/-- A byte-selected new value of n bytes at a, under the select mask of HEAD_CONFIG. -/
def headBytes (p : List Byte) (a n old : Nat) : Nat :=
  leNat ((List.range n).map (fun i =>
    if (numAt p 24 8).testBit (a + i) then p.getD (a + i) 0 else BitVec.ofNat 8 (old / 256 ^ i)))

/-- The queue range that HEAD_CONFIG leaves an LD with. -/
def State.headRange (s : State) (p : List Byte) (i : Nat) : Nat × Nat :=
  (headBytes p 4 4 (s.rd F.HLX_LD_QUEUES_QFIRST i), headBytes p 8 4 (s.rd F.HLX_LD_QUEUES_QCOUNT i))

/-- The offset of the first bad field of HEAD_CONFIG. -/
def State.badHead (s : State) (p : List Byte) : Option Nat :=
  let m := numAt p 24 8
  let i := hl (numAt p 0 1) (numAt p 1 1)
  let r := s.headRange p i
  let n := numAt p 2 1
  ([(decide (15 < numAt p 0 1), 0), (decide (3 < numAt p 1 1), 1),
    (m.testBit 2 && !decide (n = 1 ∨ n = 2 ∨ n = 4), 2), (m.testBit 3 && decide (15 < numAt p 3 1), 3),
    (decide (2 ^ 20 ≤ r.1), 4), (decide (2 ^ 20 < r.1 + r.2), 8)].find? (·.1)).map (·.2)
  |>.or (reservedAt p 12 4)

/-- Ranges of different LDs overlap, or a queue that leaves the range is not DISABLED. -/
def State.rangeRefused (s : State) (i : Nat) (r : Nat × Nat) : Bool :=
  let first := s.rd F.HLX_LD_QUEUES_QFIRST i
  let count := s.rd F.HLX_LD_QUEUES_QCOUNT i
  allLds.any (fun x => let j := hl x.1 x.2
    decide (j ≠ i ∧ r.1 < s.rd F.HLX_LD_QUEUES_QFIRST j + s.rd F.HLX_LD_QUEUES_QCOUNT j ∧
      s.rd F.HLX_LD_QUEUES_QFIRST j < r.1 + r.2)) ||
    s.job.ctxs.any (fun e => decide (first ≤ e.1 ∧ e.1 < first + count) &&
      !decide (r.1 ≤ e.1 ∧ e.1 < r.1 + r.2) && decide (e.2.state ≠ 0))

/-- The fields that the select mask chooses. The LD count is the head's: it stands on the page of LD 0 and takes effect at
the next port reset. -/
def State.applyHead (s : State) (p : List Byte) : State :=
  let h := numAt p 0 1
  let i := hl h (numAt p 1 1)
  let m := numAt p 24 8
  let r := s.headRange p i
  let s1 := if m.testBit 2 then s.wrI F.HLX_HEAD_LD_LD_COUNT (hl h 0) (numAt p 2 1) else s
  let s2 := if m.testBit 3 then
      (List.range 4).foldl (fun s b => s.wrI (permField b) i (bits (numAt p 3 1) b b)) s1 else s1
  let s3 := (s2.wrI F.HLX_LD_QUEUES_QFIRST i r.1).wrI F.HLX_LD_QUEUES_QCOUNT i r.2
  s3.wrI F.HLX_LD_RGN_SLOTS i (headBytes p 16 8 (s3.rd F.HLX_LD_RGN_SLOTS i))

/-- A queue range that a running QUEUE_DISABLE holds (R298). -/
def State.rangeHeld (s : State) (i : Nat) : Bool :=
  let first := s.rd F.HLX_LD_QUEUES_QFIRST i
  s.job.disabling.any (fun e => decide (first ≤ e.1 ∧ e.1 < first + s.rd F.HLX_LD_QUEUES_QCOUNT i))

/-- HEAD_CONFIG. -/
def State.headConfig (s : State) (src : MboxSrc) (p : List Byte) : State :=
  s.avsar src 0xc050 32 (.perm 0) p (fun s =>
    match s.badHead p with
    | some i => .err 2 i
    | none =>
      let i := hl (numAt p 0 1) (numAt p 1 1)
      if s.rangeHeld i then .err 0xc 1
      else if s.rangeRefused i (s.headRange p i) then .err 0xc 5
      else .ok (s.applyHead p) [])

/-- HEAD_CONFIG. -/
def execHeadConfig (src : MboxSrc) (payload : List (BitVec 8)) (s : State) : Result := .next (s.headConfig src payload)

/-! ## Poison (R288) -/

/-- Invalid extent list and resources exhausted, of the CXL return codes. -/
def rcInvalidExtent : Nat := 0x1e
def rcExhausted : Nat := 0x1d

/-- The first addresses of the poisoned tiles of the regions that an LD may reach, ascending, from an address on. -/
def State.poisonedFrom (s : State) (h l start : Nat) : List Nat :=
  (((List.range 64).filter (fun r => decide (s.rgnState r ≠ 0) && s.admits h l r)).flatMap (fun r =>
    ((s.entries r).filter (fun t => (s.tme r t).poison)).map (fun t => s.rgnBase r + 4096 * t))).foldl ninsert []
    |>.filter (fun a => decide (start ≤ a))

/-- The records of 16 bytes that a 4 KiB payload holds after a header of 32 (R297). -/
def poisonRecords : Nat := 254

/-- GET_POISON_LIST: one 4 KiB range for each poisoned tile, at most limit of them and no more than the payload holds; bit 0
of the first byte tells that the walk goes on. -/
def execGetPoisonList (h l start limit : Nat) (s : State) : Result :=
  .next (s.cxlCommand h l 0x4300 (fun s =>
    let all := s.poisonedFrom h l start
    let n := min limit poisonRecords
    let got := all.take n
    (s, rcSuccess, leBytes 1 (b2n (decide (n < all.length))) ++ leBytes 9 0 ++ leBytes 2 got.length ++ leBytes 20 0 ++
      got.flatMap (fun a => leBytes 8 a ++ leBytes 4 64 ++ leBytes 4 0))))

/-- A line that firmware writes for an LD with DIAG. -/
def State.poisonWrite (s : State) (h l opcode : Nat) (dpa : BitVec 64) (data : Line) (poison : Bool) : State :=
  s.cxlCommand h l opcode (fun s =>
    let q := s.hostReq .write h l dpa { mv := .invalid, err := .none } fwTag
    match s.regionAt q.addr s.tmu.nextId with
    | none => (s, rcInvalidAddress, [])
    | some r =>
      if !s.srcHas (.ld h l) F.HLX_HEAD_PERM_DIAG then (s, rcUnsupported, [])
      else if dpa.toNat % 64 ≠ 0 ∨ q.bad ≠ 0 then (s, rcInvalidInput, [])
      else if !s.admits h l r then (s, rcInvalidAddress, [])
      else (s.present { q with data := data, poison := poison, cls := s.rd F.TMU_RGN_POLICY_DEF_CLASS r,
                               key := if s.vk4 then s.rd F.CRY_RGN_KEY_KEY_BIND r else q.key }, rcSuccess, []))

/-- INJECT_POISON: the poison marker is written to the line. -/
def execInjectPoison (h l : Nat) (dpa : BitVec 64) (s : State) : Result :=
  .next (s.poisonWrite h l 0x4301 dpa 0 true)

/-- CLEAR_POISON: a full-line write with the supplied data. -/
def execClearPoison (h l : Nat) (dpa : BitVec 64) (data : BitVec 512) (s : State) : Result :=
  .next (s.poisonWrite h l 0x4302 dpa data false)

/-! ## Dynamic capacity (R285, R286) -/

/-- The offer of a slot to a head is pending. -/
def State.offered (s : State) (h slot : Nat) : Bool :=
  ((mget s.tmu.offers slot).getD 0).testBit h && !s.isDeleting slot

/-- A head's pending offer is answered. -/
def State.offerAnswered (s : State) (h slot : Nat) : State :=
  s.setTmu { s.tmu with offers := mput s.tmu.offers slot (clrBit ((mget s.tmu.offers slot).getD 0) h) }

/-- The sectors of a GiB, the block of a DC region (Table 8.2). -/
def dcBlock : Nat := 2 ^ 24

/-- DC_ADD_ACCEPT: the head owns the region from now on, or a grant of backing raises BUDGET; the grant's length is the
fabric manager's, carried by the command (log entry 116). -/
def execDcAddAccept (h l slot : Nat) (grant : Option Nat) (s : State) : Result :=
  .next (s.cxlCommand h l 0x4802 (fun s =>
    match grant with
    | none =>
      if s.offered h slot ∧ s.ldMask h l slot then
        ((s.offerAnswered h slot).wrI F.TMU_RGN_MAP_OWNER slot (setBit (s.owner slot) h), rcSuccess, [])
      else (s, rcInvalidExtent, [])
    | some n =>
      if s.rgnState slot ≠ 0 ∧ !s.isDeleting slot ∧ s.rgnType slot = 2 ∧ s.admits h l slot ∧ 0 < n ∧ n % dcBlock = 0 then
        match s.grant slot n with
        | some s1 => (s1, rcSuccess, [])
        | none => (s, rcExhausted, [])
      else (s, rcInvalidExtent, [])))

/-- DC_ADD_REFUSE: the head leaves the pending offers. -/
def execDcAddRefuse (h l slot : Nat) (s : State) : Result :=
  .next (s.cxlCommand h l 0x4802 (fun s =>
    if s.offered h slot ∧ s.ldMask h l slot then ((s.offerAnswered h slot).dcExpire slot, rcSuccess, [])
    else (s, rcInvalidExtent, [])))

/-- DC_RELEASE: the head's OWNER bit is cleared. -/
def execDcRelease (h l slot : Nat) (s : State) : Result :=
  .next (s.cxlCommand h l 0x4803 (fun s =>
    if s.rgnState slot ≠ 0 ∧ !s.isDeleting slot ∧ s.admits h l slot then
      ((s.setOwner slot (clrBit (s.owner slot) h)).dcExpire slot, rcSuccess, [])
    else (s, rcInvalidExtent, [])))

end Sys2Proof.Machine
end

