-- ==== Sys2Proof/Machine/Ports.lean ====
section
/-!
DEFINITION. Machine/Ports.lean: host ports: training, port and function resets, Mem Clr, viral from a host, IDE failures
(R159, R273 to R276, R285, R289 to R291, R304, R327, R450; 08_host_links.md).
-/
namespace Sys2Proof.Machine

/-! ## Training (R275) -/

/-- The widest code a port may train at: x16 on a merged pair only. -/
def State.maxWidth (s : State) (n : Nat) : Nat :=
  let w := max 1 (s.rd F.HLX_PORT_CTL_MAX_WIDTH n)
  if s.merged n then min 5 w else min 4 w

/-- The highest rate code. -/
def State.maxRate (s : State) (n : Nat) : Nat := clampTo 1 4 (s.rd F.HLX_PORT_CTL_MAX_RATE n)

/-- The port's die is linked, its SerDes clock qualified, and firmware (or the ROM in recovery: HP0 and HP8) trains it. -/
def State.trains (s : State) (n : Nat) : Bool :=
  !s.inReset && !s.aon.quiescing && !s.aon.blocks.contains 2 && decide (s.cry.halt = 0) &&
    !(s.rd F.AON_D2D_LOST).testBit (n / 8) &&
    s.aon.pllOk.testBit (6 + n / 8) &&
    (decide (s.rd F.CTL_HEALTH_STATE = 2 ∨ s.rd F.CTL_HEALTH_STATE = 3) ||
      decide (s.rd F.CTL_HEALTH_STATE = 4 ∧ (n = 0 ∨ n = 8)))

/-- The port has trained: its status, and the causes of a narrow link and of one without a head. -/
def State.trained (s : State) (n width rate flit : Nat) (cxl : Bool) : State :=
  let rec_ := decide (s.rd F.CTL_HEALTH_STATE = 4)
  let w := min (if rec_ then 4 else 5) (min width (s.maxWidth n))
  let r := min (if rec_ then 3 else 4) (min rate (s.maxRate n))
  let f := if r < 4 then 0 else if flit = 2 ∧ s.rdb F.HLX_PORT_CTL_LOPT_EN n then 2 else 1
  let head := cxl && decide (r ≠ 0)
  let again := s.rdb F.HLX_PORT_STS_LINK_UP n
  let s1 := ((((s.wrI F.HLX_PORT_STS_LINK_UP n 1).wrI F.HLX_PORT_STS_WIDTH n w).wrI F.HLX_PORT_STS_RATE n r).wrI
    F.HLX_PORT_STS_FLIT n f).wrb F.HLX_PORT_STS_HEAD n head
  let s2 := if again then (s1.bump F.HLX_PORT_LINKCNT_RETRAINS n).raise (cHpLink n 2) else s1
  let s3 := if w < s.maxWidth n ∨ r < s.maxRate n then s2.raise (cHpLink n 1) else s2
  (if head then s3 else s3.raise (cHpLink n 3)).watchService

/-- LINK_TRAINED: width and rate are the codes of Table 8.10. -/
def execLinkTrained (port width rate flit : Nat) (cxl : Bool) (s : State) : Result :=
  .next (
    let n := s.portOf port
    if s.trains n ∧ width ≠ 0 then s.trained n width rate flit cxl else s)

/-! ## Port reset (R290, R285, R327) -/

/-- Requests inside the device. -/
def State.insideReqs (s : State) : List Req :=
  s.tmu.waits.map (·.req) ++ s.tmu.moves.filterMap (·.req) ++ s.near.reads.map (·.req) ++
    s.dir.busy.filterMap (fun b => match b.then_ with
      | .serve q => some q
      | .evictFor q => some q
      | _ => none) ++ s.clx.reqs.map (·.req)

/-- A head's requests end without a response and leave ADM. -/
def State.dropHead (s : State) (h : Nat) : State :=
  let mine := fun (q : Req) => match q.org with | .host g _ _ => decide (g = h) | _ => false
  ((s.insideReqs.filter mine).foldl State.leaveReq s).dropRequests mine

/-- A head's pending offers are refused (R285 step 2). -/
def State.dropOffers (s : State) (h : Nat) : State :=
  let mine := s.tmu.offers.filter (fun e => e.2.testBit h)
  mine.foldl (fun s e => (s.setTmu { s.tmu with offers := mput s.tmu.offers e.1 (clrBit e.2 h) }).dcExpire e.1) s

/-- Fields with letter P of a port page and of its head pages return to their reset values; the vectors, those of queue
contexts among them, are clamped to the LD count now in force (R296, R549). -/
def State.portRegs (s : State) (n : Nat) : State :=
  let ports := [F.HLX_PORT_STS_LINK_UP, F.HLX_PORT_STS_WIDTH, F.HLX_PORT_STS_RATE, F.HLX_PORT_STS_FLIT,
    F.HLX_PORT_STS_HEAD, F.HLX_PORT_STS_IDE, F.HLX_PORT_STS_VIRAL_IN]
  let s1 := (ports.foldl (fun s f => s.wrI f n 0) s).wrI F.HLX_HEAD_LD_LD_ACTIVE (hl n 0)
    (s.rd F.HLX_HEAD_LD_LD_COUNT (hl n 0))
  let s2 := (List.range 4).foldl (fun s l => vecFields.foldl (fun s f =>
    s.wrI f (hl n l) (min (s.rd f (hl n l)) (s.vectors n - 1))) s) s1
  s2.setJob { s2.job with ctxs := s2.job.ctxs.map (fun e => (e.1,
    if e.2.typ = 1 ∧ e.2.owner % 16 = n then { e.2 with vector := min e.2.vector (s2.vectors n - 1) } else e.2)) }

/-- What DIR and TMU do at a reset of a head (Table 9.5, R285). -/
def State.headReset (s : State) (h : Nat) : State :=
  let s1 := s.setDir { s.dir with conflicts := s.dir.conflicts.filter (fun e => decide (e.1 ≠ h)) }
  ((s1.dirGone h).startSweep (.reset h)).dropOffers h

/-- A port reset: its LDs keep their HDM decoders and configuration (Table 16.5); service may end (R44). -/
def State.portReset (s : State) (n : Nat) : State :=
  if !s.rdb F.HLX_PORT_STS_LINK_UP n then s
  else
    let s1 := ((s.dropHead n).portRegs n).bump F.HLX_PORT_LINKCNT_DOWNS n
    let s2 := s1.setCry { s1.cry with
      ide := mdel s1.cry.ide n, ideOn := s1.cry.ideOn.filter (fun e => decide (e.1 ≠ n)) }
    ((s2.headReset n).raise (cHpLink n 0)).watchService

/-- PORT_RESET. -/
def execPortReset (port : Nat) (s : State) : Result :=
  .next (if s.inReset ∨ s.aon.quiescing ∨ s.cry.halt ≠ 0 then s else s.portReset (s.portOf port))

/-! ## Function reset and Mem Clr (R291) -/

/-- The event logs, pending bits and interrupt policy of an LD are cleared (Table 14.5). -/
def State.clearLdEvents (s : State) (h l : Nat) : State :=
  let i := hl h l
  let s1 := (List.range 4).foldl (fun s k => (s.wrAt F.EVT_LD_PEND_SRC i k 0).wrI (heldF k) i 0) s
  (s1.wrI F.EVT_LD_LOG_OVF i 0).setEvt { s1.evt with
    records := s1.evt.records.filter (fun e => decide (e.1 / 4 ≠ i)),
    overs := s1.evt.overs.filter (fun e => decide (e.1 / 4 ≠ i)),
    policy := s1.evt.policy.filter (fun k => decide (k / 4 ≠ i)) }

/-- The regions that a Mem Clr of an LD clears: every OWNER bit and every mask bit that admits the region is its own. -/
def State.memClrRegions (s : State) (h l : Nat) : List Nat :=
  (List.range 64).filter (fun r => decide (s.rgnState r ≠ 0 ∧ s.owner r = 2 ^ h) && !s.isDeleting r &&
    (List.range (s.ldCount h)).all (fun k => s.ldMask h k r == decide (k = l)))

/-- A region without a further generation is cleared in place: frames and ELASTIC runs go, every entry becomes ZERO and
UNMAT with its counter and generation. -/
def State.clearInPlace (s : State) (r : Nat) : State :=
  let s1 := (s.tmu.moves.filter (fun m => decide (m.slot = r))).foldl (fun s m => match m.kind with
    | .demote => s.abortDemotion m
    | _ => (s.dropMove m.id).issued m.id) s
  let tiles := s1.entries r
  let s2 := tiles.foldl (fun s0 k =>
    let t := s0.tme r k
    let s3 := if s0.fixedSlots r then s0 else s0.returnRun r t
    s3.setTme r k { t with
      loc := if s0.fixedSlots r then t.loc else 0, len := 0, fmt := .zero, nv := false, near := 0, poison := false,
      transit := false, unmat := true, tcs := 0, tag := 0 }) s1
  let s4 := s2.setNear { s2.near with
    ftes := s2.near.ftes.filter (fun e => decide (e.2.slot ≠ r)),
    marks := s2.near.marks.filter (fun n => !(match s2.fte (n / 64) with | some e => decide (e.slot = r) | none => false)) }
  (s4.watchFree.raise cKeygenExhausted (region := some r)).resumeWhy (fun w => decide (w.slot = r))

/-- The fields with letter F of an LD and of its head return to their reset values (R23, R24, R291). -/
def State.functionRegs (s : State) (h l : Nat) : State :=
  let i := hl h l
  let s1 := (vecFields ++ [F.HLX_HEAD_STS_DB_REJECT]).foldl (fun s f => s.wrI f i 0) (s.wrI F.HLX_PORT_STS_VIRAL_IN h 0)
  let s2 := (List.range 4).foldl (fun s k => s.wrAt F.EVT_LD_EN_SRC i k (F.EVT_LD_EN_SRC.rstAt i k)) s1
  (s2.wrAt F.TMU_HEAD_TAG_CLASS_EN 0 h 0).wrAt F.TMU_HEAD_TAG_KEY_EN 0 h 0

/-- FUNCTION_RESET. A Mem Clr adds to one that is under way; the regions that it deletes keep their DC_OFFER attribute and
pending offers for their re-creation. -/
def execFunctionReset (h l : Nat) (memClr : Bool) (s : State) : Result :=
  .next (if s.inReset ∨ s.aon.quiescing ∨ s.cry.halt ≠ 0 ∨ !s.headUp h ∨ s.ldCount h ≤ l then s
    else
      let i := hl h l
      let s1 := (s.functionRegs h l).clearLd h l
      let s2 := (s1.clearLdEvents h l).resetQueues (s1.ldOwnsQueue h l)
      let s3 := s2.headReset h
      if !memClr then s3
      else
        let rs := s3.memClrRegions h l
        let last := fun r => decide (s3.rd F.CRY_RGN_KEY_BASE_GEN r = 0xffffffff ∨ s3.rd F.CRY_RGN_GEN_CUR r = 0xffffffff)
        let s4 := (rs.filter last).foldl State.clearInPlace s3
        let again := rs.filter (fun r => !last r)
        let under := ((mget s4.hlx.memclr i).getD []) ++ again
        let s5 := again.foldl State.startDelete (s4.setHlx { s4.hlx with memclr := mput s4.hlx.memclr i under })
        let kept := s4.tmu.offers.filter (fun e => again.contains e.1)
        s5.setTmu { s5.tmu with offers := kept.foldl (fun m e => mput m e.1 e.2) s5.tmu.offers })

/-- MEMCLR_DONE: the regions of the Mem Clr are deleted and created again. -/
def execMemclrDone (h l : Nat) (s : State) : Result :=
  .next (match mget s.hlx.memclr (hl h l) with
    | some [] => (s.setHlx { s.hlx with memclr := mdel s.hlx.memclr (hl h l) }).raise (cHpFault h 11)
        (heads := [(h, some l)])
    | _ => s)

/-! ## Viral and IDE (R289, R159) -/

/-- HOST_VIRAL. -/
def execHostViral (port : Nat) (s : State) : Result :=
  .next (
    let n := s.portOf port
    if s.inReset ∨ s.cry.halt ≠ 0 ∨ !s.headUp n ∨ s.rdb F.HLX_PORT_STS_VIRAL_IN n then s
    else
      let s1 := (s.wrI F.HLX_PORT_STS_VIRAL_IN n 1).wr F.HLX_VIRAL_IN (setBit (s.rd F.HLX_VIRAL_IN) n)
      s1.raise (cHpFault n 9) (heads := [(n, some 0)]))

/-- A stream of a port becomes secure or leaves its secure state; HLX_PORT_STS.IDE tells whether one is active. -/
def State.setIde (s : State) (n stream : Nat) (on : Bool) : State :=
  let rest := s.cry.ideOn.filter (fun e => decide (e ≠ (n, stream)))
  let l := if on then rest ++ [(n, stream)] else rest
  (s.setCry { s.cry with ideOn := l }).wrb F.HLX_PORT_STS_IDE n (l.any (fun e => decide (e.1 = n)))

/-- IDE_INTEGRITY_FAILURE: the stream leaves its secure state; it is never an integrity halt. -/
def execIdeIntegrityFailure (stream : IdeStream) (s : State) : Result :=
  .next (
    let n := s.portOf stream.port
    if s.inReset ∨ s.cry.halt ≠ 0 ∨ !s.cry.ideOn.contains (n, stream.number) then s
    else
      let s1 := (s.bump F.HLX_PORT_ERRCNT_IDE_FAIL n).setIde n stream.number false
      s1.raise (cHpFault n 8) (heads := [(n, some 0)]))

end Sys2Proof.Machine
end

