-- ==== Sys2Proof/Machine/Firmware.lean ====
section
/-!
DEFINITION. Machine/Firmware.lean: firmware update and recovery through the mailbox, the attestation unit, IDE keys (R159, R445,
R447, R450 to R454; 13_control_cluster_and_boot.md, 08_host_links.md).
-/
namespace Sys2Proof.Machine

/-! ## The mailbox in recovery (R450) -/

/-- A command that the ROM serves too. -/
def State.romCommand (s : State) (h l opcode : Nat) (f : State → State × Nat × List Byte) : State :=
  if s.romMailbox h l then
    if s.mboxBusy (.ld h l) then s.reply (.ld h l) opcode rcBusy []
    else
      let r := f s
      r.1.reply (.ld h l) opcode r.2.1 r.2.2
  else s.cxlCommand h l opcode f

/-- The update commands need FM (R451); in recovery there is no such check. -/
def State.fwLacks (s : State) (h l : Nat) : Bool := !s.recovery && !s.srcHas (.ld h l) F.HLX_HEAD_PERM_FM

/-! ## Firmware slots -/

/-- FW Transfer in Progress, of the CXL return codes. -/
def rcFwBusy : Nat := 8

/-- VERSION of a copy, as 16 bytes. -/
def verBytes (header : List Byte) : List Byte := bytesAt header 8 4 ++ leBytes 12 0

/-- VERSION of a copy in flash, when the copy is valid. -/
def State.slotVersion (s : State) (copy : Nat) : List Byte :=
  if s.checkFlash copy false = 0 then verBytes (s.flash (copyBase copy) 512) else leBytes 16 0

/-- The slot that runs: 1 for copy A, 2 for copy B, none for a copy run from recovery. -/
def State.activeSlot (s : State) : Nat :=
  if s.recovery ∨ 2 ≤ s.rd F.CTL_BOOT_COPY then 0 else s.rd F.CTL_BOOT_COPY + 1

/-- The slot staged for the next reset. -/
def State.stagedSlot (s : State) : Nat :=
  let d := s.descNow.2
  if d.trial ∧ !d.tried then d.prefer + 1 else 0

/-- IDENTIFY_MEMORY_DEVICE: version, capacity in units of 256 MiB, no persistent part, 64 records in each event log. -/
def execIdentifyMemoryDevice (h l : Nat) (s : State) : Result :=
  .next (s.romCommand h l 0x4000 (fun s =>
    let cap := if s.recovery then 0 else s.rd F.TMU_CAP_TOTAL_SECTORS / 2 ^ 22
    (s, rcSuccess, (if s.recovery then leBytes 16 0 else verBytes s.ctl.header) ++ leBytes 8 cap ++ leBytes 8 cap ++
      leBytes 8 0 ++ leBytes 8 0 ++ leBytes 2 64 ++ leBytes 2 64 ++ leBytes 2 64 ++ leBytes 2 64 ++ leBytes 13 0)))

/-- GET_FW_INFO. -/
def execGetFwInfo (h l : Nat) (s : State) : Result :=
  .next (s.romCommand h l 0x0200 (fun s =>
    if s.fwLacks h l then (s, rcUnsupported, [])
    else (s, rcSuccess, leBytes 1 2 ++ leBytes 1 (s.activeSlot + 8 * s.stagedSlot) ++ leBytes 14 0 ++ s.slotVersion 0 ++
      s.slotVersion 1 ++ leBytes 32 0)))

/-! ## Transfer and activation (R451) -/

/-- A part goes into flash, or into firmware SRAM in recovery; the first part erases the copy. -/
def State.fwPart (s : State) (copy off : Nat) (data : List Byte) : State :=
  if s.recovery then
    s.setCtl { s.ctl with image := memWrite 0xff (if off = 0 then [] else s.ctl.image) off data }
  else
    let a := copyBase copy
    let m := if off = 0 then s.ctl.flash.filter (fun c => decide (c.1 < a ∨ a + 0x800000 ≤ c.1)) else s.ctl.flash
    s.setCtl { s.ctl with flash := memWrite 0xff m (a + off) data }

/-- The part fits the transfer under way, or begins one. -/
def State.fwInOrder (s : State) (h l slot off : Nat) : Bool :=
  decide (off = 0) || (match s.ctl.xfer with
    | some x => decide (x.slot = slot ∧ x.next = off ∧ x.h = h ∧ x.l = l) && !x.whole
    | none => false)

/-- The data that a Transfer FW carries in a 4 KiB payload after the command's own 128 bytes (R297). -/
def xferBytes : Nat := 4096 - 128

/-- TRANSFER_FW: the last part starts the check and completes in the background; an earlier part completes at once. -/
def execTransferFw (h l fwSlot offset : Nat) (data : List (BitVec 8)) (last : Bool) (s : State) : Result :=
  .next (s.romCommand h l 0x0201 (fun s =>
    if s.fwLacks h l then (s, rcUnsupported, [])
    else if fwSlot = 0 ∨ 2 < fwSlot ∨ fwSlot = s.activeSlot then (s, rcInvalidSlot, [])
    else if (match s.ctl.xfer with | some x => x.whole | none => false) then (s, rcFwBusy, [])
    else if !s.fwInOrder h l fwSlot offset then (s, rcFwOrder, [])
    else if data.isEmpty ∨ xferBytes < data.length ∨ 0x800000 < offset + data.length then (s, rcInvalidInput, [])
    else
      let s1 := s.fwPart (fwSlot - 1) offset data
      let x : FwXfer := { slot := fwSlot, next := offset + data.length, h := h, l := l, whole := last }
      let s2 := s1.setCtl { s1.ctl with xfer := some x }
      if last then
        (s2.setCtl { s2.ctl with background := s2.ctl.background ++ [BgOp.mk (.ld h l) 0x0201 fwSlot] }, rcBackground, [])
      else (s2, rcSuccess, [])))

/-- The check of a transferred copy (R445). -/
def State.checkXfer (s : State) (slot : Nat) (readErr : Bool) : Nat :=
  if s.recovery then
    let img := fun (a n : Nat) => memReadN 0xff s.ctl.image a n
    checkCopy s.fuses (img 0 512) (img 512 (min 8388096 (numAt (img 0 512) 0x10 4))) readErr
  else s.checkFlash (slot - 1) readErr

/-- TRANSFER_FW_DONE: the last Transfer FW completes; in recovery an accepted copy runs at once. -/
def execTransferFwDone (readErr : Bool) (s : State) : Result :=
  .next (match s.ctl.xfer with
    | none => s
    | some x =>
      if !x.whole ∨ s.inReset then s
      else
        let code := s.checkXfer x.slot readErr
        let s1 := (s.setCtl { s.ctl with xfer := none }).bgDone 0x0201 x.slot
          (if code = 0 then rcSuccess else rcFwAuth) []
        if code = 0 ∧ s.recovery then s1.runCopy 2 (memReadN 0xff s.ctl.image 0 512) else s1)

/-- ACTIVATE_FW: a descriptor for the next reset; not online. -/
def execActivateFw (h l fwSlot : Nat) (online : Bool) (s : State) : Result :=
  .next (s.cxlCommand h l 0x0202 (fun s =>
    if s.fwLacks h l ∨ online then (s, rcUnsupported, [])
    else if fwSlot = 0 ∨ 2 < fwSlot then (s, rcInvalidSlot, [])
    else (s.writeDesc (fwSlot - 1) true false, rcSuccess, [])))

/-! ## CDAT and DOE Discovery (R277, R278)

Table Access and Discovery are DOE objects beside SPDM; they come with the SPDM requests, and the layout of their tables is
the CXL and PCI Express specifications' (log entry 115). -/

/-- Hops to a home on the shorter way of the ring, whether its links are up or not. -/
def State.shortHops (s : State) (home : Nat) : Nat :=
  match s.ringPos s.myId, s.ringPos home with
  | some a, some b =>
    let d := (b + s.ringN - a) % s.ringN
    min d (s.ringN - d)
  | _, _ => 0

/-- What the DSMAS of a region reports as its latency in ns (R278; NEAR_PIN in bulk-only mode, R191). -/
def State.cdatLatency (s : State) (slot : Nat) : Nat :=
  if s.rgnType slot = 4 then 360 + s.shortHops (s.rd F.TMU_RGN_POLICY_HOME slot) * 220
  else if s.rd F.TMU_RGN_POLICY_TIER slot = 1 then (if s.bulkOnly then 310 else 190)
  else 360

/-- What a DSMAS reports as the bandwidth in GB/s of the port it is read through: 8 GB/s for each trained lane (R278, R39). -/
def State.cdatBandwidth (s : State) (port : Nat) : Nat :=
  let w := s.rd F.HLX_PORT_STS_WIDTH port
  if w = 0 then 0 else 2 ^ (w - 1) * 8

/-- The regions an LD may reach: one DSMAS each; the extents of its DC region are those of them that were offered. -/
def State.ldRegions (s : State) (h l : Nat) : List Nat :=
  (List.range 64).filter (fun r => decide (s.rgnState r ≠ 0) && s.admits h l r)

/-- A DSMAS with its two DSLBIS: read latency in units of 1,000 ps, read bandwidth in units of 1,000 MB/s. -/
def State.dsmas (s : State) (h r : Nat) : List Byte :=
  let dslbis := fun (kind value : Nat) => leBytes 1 1 ++ leBytes 1 0 ++ leBytes 2 24 ++ leBytes 1 r ++ leBytes 1 0 ++
    leBytes 1 kind ++ leBytes 1 0 ++ leBytes 8 1000 ++ leBytes 2 value ++ leBytes 6 0
  leBytes 2 0 ++ leBytes 2 24 ++ leBytes 1 r ++ leBytes 3 0 ++ leBytes 8 (s.rgnBase r) ++
    leBytes 8 (s.rd F.TMU_RGN_MAP_SIZE r * 2 ^ 30) ++ dslbis 1 (s.cdatLatency r) ++ dslbis 4 (s.cdatBandwidth h)

/-- The CDAT of an LD: the header with its length and the byte that makes the sum zero, then the entries. -/
def State.cdat (s : State) (h l : Nat) : List Byte :=
  let body := (s.ldRegions h l).flatMap (s.dsmas h)
  let head := fun (sum : Nat) => leBytes 4 (16 + body.length) ++ leBytes 1 1 ++ leBytes 1 sum ++ leBytes 6 0 ++ leBytes 4 0
  let total := ((head 0 ++ body).map (·.toNat)).sum
  head ((256 - total % 256) % 256) ++ body

/-- The extents of an LD's DC region (R285): base, length in bytes and the tag, which is the slot; at most 64, one for each
slot. -/
def State.dcExtents (s : State) (h l : Nat) : List (Nat × Nat × Nat) :=
  ((s.ldRegions h l).filter (fun r => (mget s.tmu.offers r).isSome)).map (fun r =>
    (s.rgnBase r, s.rd F.TMU_RGN_MAP_SIZE r * 2 ^ 30, r))

/-- DOE Discovery: the vendor and type of the protocol at an index, and the next index. -/
def doeProtocol (index : Nat) : List Byte :=
  let l : List (Nat × Nat) := [(1, 0), (1, 1), (1, 2), (0x1e98, 2)]
  match l[index]? with
  | some (v, t) => leBytes 2 v ++ leBytes 1 t ++ leBytes 1 (if index + 1 < l.length then index + 1 else 0)
  | none => leBytes 2 0xffff ++ leBytes 2 0

/-! ## The attestation unit (R452, R453) -/

/-- The provisioning area's cells. -/
def State.provisioned (s : State) : List Host.Cell :=
  s.ctl.flash.filter (fun c => decide (0x1100000 ≤ c.1 ∧ c.1 < 0x1200000))

/-- A root is listed: its SHA-384 stands in the provisioning area. -/
def State.rootListed (s : State) (root : BitVec 384) : Bool :=
  let b := beBytes 48 root.toNat
  s.provisioned.any (fun c => (List.range 48).any (fun j => decide (0x1100000 + j ≤ c.1 ∧ c.1 - j + 48 ≤ 0x1200000) &&
    decide (s.flash (c.1 - j) 48 = b)))

/-- A measurement (Table 13.8). -/
def State.measurement (s : State) (i : Nat) : List Byte :=
  if i = 1 then Config.romHash
  else if i = 2 then bytesAt s.ctl.header 0x20 48
  else if i = 3 then bytesAt s.ctl.header 0 256
  else if i = 4 then Config.fuseHash s.fuses
  else leBytes 8 (s.regWord 1 0 0x40) ++ leBytes 8 (s.regWord 1 0 F.CTL_FUSE_SVN_MIN_SVN.off) ++
    leBytes 8 (s.rd F.CRY_MODE_MODE)

/-- An SPDM answer with a code of the model: 0 done, 1 an error. -/
def State.spdmAnswer (s : State) (h l code : Nat) (out : List Byte) : State := s.emit (.spdm h l code out)

/-- An answer that carries a signature or a key share of the attestation unit: a free value. -/
def State.spdmSigned (s : State) (h l sel : Nat) (out : List Byte) : State :=
  (s.spdmAnswer h l 0 (out ++ Config.attest sel s.draw)).drawn

/-- The DOE requests. Without the device secret, measurements and sessions fail (Table 16.4). -/
def State.spdm (s : State) (h l : Nat) (msg : SpdmMsg) : State :=
  let none_ := s.fuses.secret.isNone
  match msg with
  | .version major minor =>
    if major = 1 ∧ (minor = 2 ∨ minor = 3) then s.spdmAnswer h l 0 (leBytes 1 (16 * major + minor))
    else s.spdmAnswer h l 1 []
  | .measurements i =>
    if none_ then s.spdmAnswer h l 1 []
    else if i = 0 then s.spdmSigned h l 0 (leBytes 1 5)
    else if i = 255 then s.spdmSigned h l 0 ([1, 2, 3, 4, 5].flatMap s.measurement)
    else if 5 < i then s.spdmAnswer h l 1 []
    else s.spdmSigned h l 0 (s.measurement i)
  | .certificate => s.spdmAnswer h l 0 (Config.certChain s.provisioned)
  | .challenge => if none_ then s.spdmAnswer h l 1 [] else s.spdmSigned h l 1 []
  | .session sid authd root =>
    if none_ ∨ s.ctl.sessions.any (fun x => decide (x.h = h ∧ x.l = l ∧ x.sid = sid)) then s.spdmAnswer h l 1 []
    else (s.setCtl { s.ctl with sessions := s.ctl.sessions ++
      [{ h := h, l := l, sid := sid, authd := authd, listed := s.rootListed root }] }).spdmSigned h l 2 []
  | .endSession sid =>
    if s.ctl.sessions.any (fun x => decide (x.h = h ∧ x.l = l ∧ x.sid = sid)) then
      (s.setCtl { s.ctl with sessions := s.ctl.sessions.filter (fun x => !decide (x.h = h ∧ x.l = l ∧ x.sid = sid)) }).spdmAnswer
        h l 0 []
    else s.spdmAnswer h l 1 []
  | .discovery index => s.spdmAnswer h l 0 (doeProtocol index)
  | .tableAccess => s.spdmAnswer h l 0 (s.cdat h l)

/-- SPDM_MESSAGE. -/
def execSpdmMessage (h l : Nat) (msg : SpdmMsg) (s : State) : Result :=
  .next (let s := s.knock 1
    if s.mboxUp (.ld h l) then s.spdm h l msg else s)

/-! ## IDE keys (R159) -/

/-- The key of a stream and a direction: twice the stream number, plus 1 for the receive key. -/
def ideKey (stream : Nat) (rx : Bool) : Nat := 2 * stream + b2n rx

/-- The streams of a port (Table 8.2): 0 CXL.cachemem, 1 the link stream of CXL.io, 2 its selective stream. -/
def ideStreams : Nat := 3

/-- The stream that a message names. -/
def ideStream : IdeMsg → Nat
  | .keyProg stream _ _ => stream
  | .setGo stream _ => stream
  | .setStop stream _ => stream

/-- IDE_KM_MESSAGE: keys are kept in the vault apart from the region keys; a stream is active once it goes on a key; a port
has no stream beside its three. -/
def execIdeKmMessage (port : Nat) (msg : IdeMsg) (s : State) : Result :=
  .next (let s := s.knock 1
    if !s.mboxUp (.ld port 0) then s
    else if ideStreams ≤ ideStream msg then s.spdmAnswer port 0 1 []
    else
      let keys := (mget s.cry.ide port).getD []
      match msg with
      | .keyProg stream rx key =>
        (s.setCry { s.cry with ide := mput s.cry.ide port (mput keys (ideKey stream rx) key) }).spdmAnswer port 0 0 []
      | .setGo stream rx =>
        if (mget keys (ideKey stream rx)).isSome then (s.setIde port stream true).spdmAnswer port 0 0 []
        else s.spdmAnswer port 0 1 []
      | .setStop stream rx =>
        let left := mdel keys (ideKey stream rx)
        let s1 := s.setCry { s.cry with ide := mput s.cry.ide port left }
        (if left.any (fun e => decide (e.1 / 2 = stream)) then s1 else s1.setIde port stream false).spdmAnswer port 0 0 [])

/-! ## Avsar commands in a session (R454) -/

/-- The command of an opcode of Table 8.6. -/
def State.avsarOf (s : State) (src : MboxSrc) (opcode : Nat) (p : List Byte) : Option State :=
  match opcode with
  | 0xc000 => some (s.getInfo src p)
  | 0xc001 => some (s.regionCreate src p)
  | 0xc002 => some (s.regionDelete src p)
  | 0xc003 => some (s.regionSet src p)
  | 0xc004 => some (s.regionGrant src p)
  | 0xc005 => some (s.regionQuery src p)
  | 0xc010 => some (s.setKeyMode src p)
  | 0xc011 => some (s.loadWrapKey src p)
  | 0xc012 => some (s.loadKeySlot src p)
  | 0xc013 => some (s.clearKeySlot src p)
  | 0xc014 => some (s.rekeyRegion src p)
  | 0xc020 => some (s.setPowerState src p)
  | 0xc021 => some (s.getPowerState src p)
  | 0xc030 => some (s.setRetainSets src p)
  | 0xc031 => some (s.setSpareSet src p)
  | 0xc032 => some (s.evacuateSet src p)
  | 0xc033 => some (s.clearRetention src p)
  | 0xc034 => some (s.getSpd src p)
  | 0xc040 => some (s.getErrorLog src p)
  | 0xc041 => some (s.clearErrorLog src p)
  | 0xc050 => some (s.headConfig src p)
  | 0xc051 => some (s.setHoldCmd src p)
  | 0xc060 => some (s.queueSet src p)
  | 0xc061 => some (s.queueDisable src p)
  | 0xc062 => some (s.queueQuery src p)
  | _ => none

/-- SPDM_SECURED_AVSAR: the command runs as through the mailbox; Unsupported for an opcode not in the table (R299). -/
def execSpdmSecuredAvsar (h l sid opcode : Nat) (payload : List (BitVec 8)) (s : State) : Result :=
  .next (match s.avsarOf (.session h l sid) opcode payload with
    | some s1 => s1
    | none =>
      let s1 := s.knock 1
      if s1.mboxUp (.session h l sid) then s1.reply (.session h l sid) opcode rcUnsupported [] else s1)

end Sys2Proof.Machine
end

