-- ==== Sys2Proof/Machine/Gates.lean ====
section
/-!
DEFINITION. Machine/Gates.lean: the ticks of ADM (R345 to R352, R356 to R361; 10_admission_and_qos.md): the gate list,
refresh windows, bank swaps, monitor windows, histograms, and the deliverable floor.
-/
namespace Sys2Proof.Machine

/-! ## The gate list (R345, R349) -/

/-- The class's MINWIN ends: it takes the state that the list gives for this tick. -/
def State.endLengthen (s : State) (c : Nat) : State :=
  match mget s.adm.lengthen c with
  | some (0, _) =>
    s.setAdm { s.adm with lengthen := mdel s.adm.lengthen c,
                          gateOpen := if s.listOpen s.gcl c s.tickNo then s.adm.gateOpen else clrBit s.adm.gateOpen c }
  | _ => s

/-- One class at a tick: within MINWIN it stays open, and the first tick at which the list would have closed it raises
GATE_LENGTHENED; a class that opens starts its MINWIN. -/
def State.gateClass (s : State) (l : List GclEnt) (c : Nat) : State :=
  let now := s.listOpen l c s.tickNo
  match mget s.adm.lengthen c with
  | some (n, seen) =>
    if n ≠ 0 ∧ !now ∧ !seen then
      ((s.setAdm { s.adm with lengthen := mput s.adm.lengthen c (n, true) }).bump F.ADM_CLS_LEN_WINDOWS c).raise
        cGateLengthened
    else s
  | none =>
    if s.adm.gateOpen.testBit c then (if now then s else s.setAdm { s.adm with gateOpen := clrBit s.adm.gateOpen c })
    else if now then
      s.setAdm { s.adm with gateOpen := setBit s.adm.gateOpen c,
                            lengthen := mput s.adm.lengthen c (s.rd F.ADM_CLS_GATE_MINWIN c, false) }
    else s

/-- The channels with refresh windows (R350). -/
def State.windowKeys (s : State) : List Nat :=
  bitList 32 (s.rd F.ADM_REF_NEAR_CH) ++ (bitList 32 (s.rd F.ADM_REF_BULK_SUB)).map (· + 32)

/-- The refresh state at a tick: a window that opens repays what was postponed (R219). -/
def State.gateRefresh (s : State) (l : List GclEnt) : State :=
  let now := match gclAt l (s.tickNo % s.cycleTicks) with | some e => e.ref | none => false
  let s1 := s.setAdm { s.adm with gateRef := now }
  if now ∧ !s.adm.gateRef then s.windowKeys.foldl (fun s k => if s.hasWindows k then s.windowOpens k else s) s1 else s1

/-- The state of the list applies from the first cycle of the tick. -/
def State.applyGates (s : State) : State :=
  let l := s.gcl
  ((List.range 16).foldl (fun s c => s.gateClass l c) s).gateRefresh l

/-- MINWIN_END. -/
def execMinwinEnd (c : Nat) (s : State) : Result := .next (if s.inReset then s else s.endLengthen c)

/-! ## Cycle starts (R351) -/

/-- The position is a cycle start under the CYCLE in force, and its tick has not begun. -/
def State.atCycleStart (s : State) : Bool :=
  s.aon.time.fresh && decide (s.phase = 0 ∧ s.epoch % max 1 s.adm.cycleNow = 0)

/-- A pending swap and a new CYCLE take effect. -/
def State.cycleStart (s : State) : State :=
  let s1 := s.setAdm { s.adm with cycleNow := s.rd F.ADM_GCL_CFG_CYCLE }
  if s.rdb F.ADM_GCL_CFG_SWAP_PEND then
    ((s1.wr F.ADM_GCL_CFG_ACTIVE (1 - s1.rd F.ADM_GCL_CFG_ACTIVE)).wr F.ADM_GCL_CFG_SWAP_PEND 0).raise cGclSwapped
  else s1

/-- GCL_SWAP: at a cycle start, before the tick's state applies. -/
def execGclSwap (s : State) : Result := .next (if !s.inReset ∧ s.atCycleStart then s.cycleStart else s)

/-- GCL_SWAP_REQUEST (R351, R363). -/
def execGclSwapRequest (path : Path) (s : State) : Result :=
  .next (s.viaPath path 4 0 (s.manages path) (fun s => s.wr F.ADM_GCL_CFG_SWAP_PEND 1))

/-! ## Monitor windows (R359) -/

/-- A class missed its guarantee: B < EFF × D × tick. -/
def State.missed (s : State) (c : Nat) : Bool :=
  decide (mgetD s.adm.monB c 0 * 1024 < s.rd F.ADM_CLS_GUAR_EFF c * mgetD s.adm.monD c 0 * s.aon.time.period)

/-- The judgment at a window's end. -/
def State.judge (s : State) : State :=
  ((List.range 16).filter s.missed).foldl (fun s c =>
    (s.wr F.ADM_GUAR_PEND_CLASS (setBit (s.rd F.ADM_GUAR_PEND_CLASS) c)).raise cGuarMissed) s

/-- The window under way ends. -/
def State.endMonitor (s : State) (judged : Bool) : State :=
  let s1 := if judged then s.judge else s
  s1.setAdm { s1.adm with monValid := false, monD := [], monB := [] }

/-- The window under way has run its epochs. -/
def State.monitorDone (s : State) : Bool :=
  s.adm.monValid && decide (s.epoch = (s.adm.monStart + s.adm.monEpochs) % 2 ^ 48)

/-- MONITOR_WINDOW_END. -/
def execMonitorWindowEnd (s : State) : Result := .next (if !s.inReset ∧ s.monitorDone then s.endMonitor true else s)

/-- At the first tick of an epoch: a window that a move of the epoch number interrupts ends without a judgment, one that
has run its epochs with one; the next begins at a multiple of MON_EPOCHS. -/
def State.monitorEpoch (s : State) : State :=
  let moved := decide (s.epoch ≠ (s.adm.lastEpoch + 1) % 2 ^ 48)
  let s1 := if s.adm.monValid then
      (if s.monitorDone ∧ !moved then s.endMonitor true else if moved then s.endMonitor false else s)
    else s
  let n := max 1 (s1.rd F.ADM_CFG_MON_EPOCHS)
  if !s1.adm.monValid ∧ s1.epoch % n = 0 then
    s1.setAdm { s1.adm with monValid := true, monStart := s1.epoch, monEpochs := n, monD := [], monB := [] }
  else s1

/-- D: the classes with a unit that nothing of their own holds. -/
def State.monitorTick (s : State) : State :=
  if !s.adm.monValid then s
  else
    let free := s.headUnits.filter (fun u => decide (s.unitBar u = 0 ∨ s.unitBar u = 5))
    let cs := (List.range 16).filter (fun c => free.any (fun u => decide (u.cls = c)))
    s.setAdm { s.adm with monD := cs.foldl (fun m c => mput m c (mgetD m c 0 + 1)) s.adm.monD }

/-! ## Histograms (R361) -/

/-- The bin of a depth (Table 10.8). -/
def depthBin (d : Nat) : Nat := if d = 0 then 0 else min 15 (d.log2 + 1)

/-- The bin of a delay in ns (Table 10.8). The table gives no bin to 1 to 15 ns, and both bin 14 and bin 15 to 131,072 to
262,143 ns: free values (log entry 35). -/
def delayBin (d : Nat) : Nat :=
  if d = 0 then 0
  else if d < 16 then (if Config.delayLow d then 1 else 0)
  else if 131072 ≤ d ∧ d < 262144 then (if Config.delayHigh d then 15 else 14)
  else depthBin (d / 16)

/-- The units that waiting requests of one queue make (R338). -/
def unitsOf : Nat → List Req → Nat
  | 0, _ => 0
  | _, [] => 0
  | fuel + 1, q :: qs => 1 + unitsOf fuel ((q :: qs).drop ((((q :: qs).takeWhile (sameSort q)).take 4).length))

/-- Count in bin b of class c, ingress i. -/
def State.binUp (s : State) (f0 f1 : Fld) (i c b : Nat) : State :=
  s.bump (if b % 2 = 0 then f0 else f1) i (8 * c + b / 2) 1 (some c) true

/-- Sample every queue. -/
def State.sampleQueues (s : State) : State :=
  let l := s.waitingReqs
  (List.range 20).foldl (fun s i => (List.range 16).foldl (fun s c =>
    let mine := (l.filter (fun x => decide (x.1.ing = i ∧ x.2 = c))).map (·.1)
    let depth := unitsOf mine.length mine
    let delay := match mine with | q :: _ => s.nowNs - q.at_ | [] => 0
    (s.binUp F.ADM_HDEP_BIN0 F.ADM_HDEP_BIN1 i c (depthBin depth)).binUp F.ADM_HDLY_BIN0 F.ADM_HDLY_BIN1 i c
      (delayBin delay)) s) s

/-! ## Ticks -/

/-- The next tick begins (R522): phase 0 right after a boundary, else the next phase; past phase 1023 the boundary has
yet to come. -/
def State.nextTick (s : State) : Option State :=
  if s.aon.time.fresh then some (s.setTime { s.aon.time with fresh := false })
  else if s.phase < 1023 then some (s.wr F.AON_EPOCH_PHASE (s.phase + 1))
  else none

/-- MINWIN runs in ticks counted, whatever the position does (R346). -/
def State.countMinwin (s : State) : State :=
  let s1 := (List.range 16).foldl State.endLengthen s
  s1.setAdm { s1.adm with lengthen := s1.adm.lengthen.map (fun e => (e.1, e.2.1 - 1, e.2.2)) }

/-- What ADM does at a tick. -/
def State.admTick (s : State) (first : Bool) : State :=
  let s1 := if first then s.monitorEpoch else s
  let s2 := (s1.setAdm { s1.adm with lastEpoch := s1.epoch }).countMinwin.applyGates
  (s2.monitorTick).sampleQueues

/-- GATE_TICK: the time advances by a tick; at a cycle start a swap still pending takes effect first. -/
def execGateTick (s : State) : Result :=
  .next (if !s.timed then s
    else
      let runs := !s.inReset && decide (s.cry.halt = 0)
      let s0 := if runs ∧ s.atCycleStart then s.cycleStart else s
      match s0.nextTick with
      | none => s
      | some s1 => if runs then s1.admTick s.aon.time.fresh else s1)

/-! ## The deliverable floor (R356 to R358, R360) -/

/-- RAW in MB/s. -/
def State.rawBandwidth (s : State) : Nat :=
  s.rd F.NTC_CONFIG_NCH * 2 * s.rd F.NTC_CONFIG_RATE * 1000 + s.rd F.BTC_CONFIG_NCH * s.rd F.BTC_CONFIG_RATE * 100 * 8

/-- The floor as R357 uses it. -/
def State.floorNow (s : State) : Nat :=
  let raw := s.rawBandwidth
  let f := raw * (s.rd F.ADM_FLOOR_PCT - s.rd F.ADM_FLOOR_MAINT_PCT) / 100
  if s.rdb F.ADM_BROWN_ACTIVE then min f (raw * s.rd F.ADM_BROWN_SAFE_PCT / 100) else f

/-- The guarantee in use for a class: none for 13 and 14 during brown throttle, REKEY_FLOOR for 14 while a rekey runs. -/
def State.guaranteeOf (s : State) (c : Nat) : Nat :=
  if s.rdb F.ADM_BROWN_ACTIVE ∧ (c = 13 ∨ c = 14) then 0
  else if c = 14 ∧ (List.range 64).any s.rekeying then s.rd F.CRY_CFG_REKEY_FLOOR * 1000
  else s.rd F.ADM_CLS_GUAR_GUAR c

/-- RAW, the floor and every effective guarantee, as one step. -/
def State.recompute (s : State) : State :=
  let f := s.floorNow
  let sum := ((List.range 16).map s.guaranteeOf).sum
  let many := decide (f < sum)
  let s1 := (((s.wr F.ADM_FLOOR_STS_RAW s.rawBandwidth).wr F.ADM_FLOOR_STS_FLOOR f).wr F.ADM_GUAR_STS_SUM sum).wr
    F.ADM_GUAR_STS_OVER (b2n many)
  let s2 := (List.range 16).foldl (fun t c =>
    t.wrI F.ADM_CLS_GUAR_EFF c (if many then s.guaranteeOf c * f / sum else s.guaranteeOf c)) s1
  let s3 := if s.rd F.ADM_FLOOR_STS_FLOOR = f then s2 else s2.raise cFloorChanged
  let s4 := if many then s3.raise cGuarOvercommit else s3
  s4.setAdm { s4.adm with recompute := false }

/-- FLOOR_RECOMPUTE. -/
def execFloorRecompute (s : State) : Result := .next (if !s.inReset ∧ s.adm.recompute then s.recompute else s)

end Sys2Proof.Machine
end

