-- ==== Sys2Proof/Machine/Resets.lean ====
section
/-!
DEFINITION. Machine/Resets.lean: resets of the whole device and of its blocks, lock losses and die-to-die links (R31, R32,
R46, R499 to R509, R520; 16_reset_clocks_time.md, 01_architecture.md).
-/
namespace Sys2Proof.Machine

/-! ## Cold resets -/

/-- POWER_ON_RESET: the AON supplies rise, or AON browns out. -/
def execPowerOnReset (s : State) : Result := .next (s.coldCause true)

/-- COLD_CMD: over the sideband only; in P4 only WAKE_N acts, and after a thermal shutdown nothing before the junction
has cooled (R507, R508, R531). -/
def execColdCmd (path : Path) (s : State) : Result :=
  .next (s.viaPath path 0 1 (isSideband path) (fun s =>
    if s.aon.off = 1 ∨ (s.aon.off = 2 ∧ s.aon.brownThermal) then s
    else if s.aon.off = 3 then s.retrySupplies else s.coldCause false))

/-! ## Warm resets (R504 to R507) -/

/-- RESET_N as driven from outside; while AON drives the pin itself it is no cause (R502). -/
def execResetNLow (low : Bool) (s : State) : Result :=
  .next (
    let s1 := s.setAon { s.aon with extLow := low }
    if low ∧ !s.aon.held ∧ !s.aon.quiescing ∧ s.aon.off = 0 then s1.warm 2 0 else s1)

/-- WARM_REQ: from the control cores only (R531). -/
def execWarmReq (path : Path) (s : State) : Result :=
  .next (s.viaPath path 0 1 (isCores path) (fun s => s.warm 5 0))

/-- A brown throttle outlasts a warm reset of ADM. -/
def State.brownAgain (s : State) : State :=
  if s.aon.brownSupply ∨ s.aon.brownThermal then
    (s.wr F.ADM_BROWN_ACTIVE 1).setAdm { s.adm with brown := 65536 } else s

/-- Every block except AON is held in reset (Table 16.2 step 4, Table 16.5): memory stays in self-refresh, keys, regions and
the tile map stay; firmware boots from the override core (R439); the lost links are reported again (R32). -/
def State.warmHold (s : State) : State :=
  let s1 := s.stopMoves.writeBack
  let s2 := ((s1.setTmu { s1.tmu with moves := [], cache := [], waits := [], fetches := [] }).setCdc { held := [] }).setNear { s1.near with reads := [] }
  let s3 := ((((s2.dirClear.resetQueues (fun _ => true)).admRest).clxRest false).ctlRest).memRest
  let s4 := s3.setScr { s3.scr with cands := [], lastPromo := [], prefetch := [], low := false }
  let s5 := ((s4.setCry { s4.cry with ide := [], ideOn := [], lines := 0, marks := [] }).setHlx Hlx.empty).setRas
    { s4.ras with copies := [] }
  let s6 := (s5.setEvt State.reset.evt).warmRegs
  let s7 := ((s6.wr F.NTC_SR_STATE 2).wr F.BTC_SR_STATE 2).wr F.CTL_BOOT_BOOT_CORE
    (s.ctl.override.getD (s6.rd F.CTL_BOOT_BOOT_CORE))
  let s8 := s7.setCtl { s7.ctl with romRan := false, trained := !(s7.nearBroken || s7.bulkBroken) }
  let s9 := s8.setAon { s8.aon with held := true, quiescing := false, entry := Entry.none, blocks := [], accs := [], pllOk := 0 }
  (bitList 4 (s9.rd F.AON_D2D_LOST)).foldl (fun s k => s.raise (cD2d k)) s9.brownAgain

/-- QUIESCE_DONE: both tiers report self-refresh. -/
def execQuiesceDone (s : State) : Result :=
  .next (if s.aon.quiescing ∧ s.nearSr = 2 ∧ s.bulkSr = 2 then s.warmHold else s)

/-- QUIESCE_TIMEOUT. -/
def execQuiesceTimeout (s : State) : Result := .next (if s.aon.quiescing then s.warmLost else s)

/-- RESET_RELEASE: every cause has ended, the fuses are loaded, the supplies are up and the clocks of the hub and the
control cores qualified (R501, R519, Table 18.6). -/
def execResetRelease (s : State) : Result :=
  .next (if s.aon.held ∧ !s.aon.extLow ∧ s.aon.loaded ∧ s.rdb F.AON_CLK_STS_XTAL_OK ∧ s.aon.groups = 4 ∧
      s.aon.off = 0 ∧ s.aon.pllOk.testBit 0 ∧ s.aon.pllOk.testBit 1 then
    (s.setAon { s.aon with held := false, hubOnCore := false }).emit (.resetN false)
  else s)

/-! ## Clocks (R520) -/

/-- What the loss of a PLL does (Table 16.8). -/
def State.pllLost (s : State) (pll : Nat) : State :=
  if pll = 0 then
    (if s.cry.halt = 0 ∧ !s.aon.pllOk.testBit 1 then s.warmLost
     else (s.setAon { s.aon with hubOnCore := true }).warm 6 0)
  else if pll = 1 ∧ s.aon.hubOnCore ∧ s.cry.halt = 0 then s.warmLost
  else if pll < 6 then s.warm 6 0
  else if pll < 8 then if s.cry.halt ≠ 0 then s else (List.range 8).foldl (fun s k => s.portReset (8 * (pll - 6) + k)) s
  else s.clDown (pll - 8)

/-- PLL_LOCK_LOSS: before release it only restarts the qualification (R519). -/
def execPllLockLoss (pll : Nat) (s : State) : Result :=
  .next (if 10 ≤ pll ∨ !s.aon.pllOk.testBit pll then s
    else
      let s1 := (s.wr F.AON_CLK_STS_LOCK (clrBit (s.rd F.AON_CLK_STS_LOCK) pll)).setAon
        { s.aon with pllOk := clrBit s.aon.pllOk pll }
      if s.inReset then s1
      else ((s1.wr F.AON_CLK_STS_LOST (setBit (s1.rd F.AON_CLK_STS_LOST) pll)).raise cClkFault).pllLost pll)

/-! ## Die-to-die links (R31, R32, R46) -/

/-- The link to Ek is lost: recorded and raised; firmware requests a warm reset. -/
def State.d2dLost (s : State) (k : Nat) : State :=
  if 4 ≤ k ∨ (s.rd F.AON_D2D_LOST).testBit k ∨ s.aon.off ≠ 0 ∨ s.cur = 3 then s
  else
    let s1 := (s.wr F.AON_D2D_LOST (setBit (s.rd F.AON_D2D_LOST) k)).raise (cD2d k)
    let s2 := if 2 ≤ k ∧ !s1.inReset then s1.clDown (k - 2) else s1
    if s2.inReset then
      -- a die that fails to link in a warm reset: training lays the tiers out anew (Table 1.11)
      s2.setCtl { s2.ctl with trained := s2.ctl.trained && !(s2.nearBroken || s2.bulkBroken) }
    else s2.warm 5 0

/-- D2D_LINK_LOST. -/
def execD2dLinkLost (k : Nat) (s : State) : Result := .next (s.d2dLost k)

/-- D2D_TRANSFER_REPLAY: a corrected replay is counted; eight failures in succession lose the link. -/
def execD2dTransferReplay (k failures : Nat) (s : State) : Result :=
  .next (if 4 ≤ k ∨ s.inReset ∨ (s.rd F.AON_D2D_LOST).testBit k then s
    else if 8 ≤ failures then s.d2dLost k
    else s.setAon { s.aon with replays := mput s.aon.replays k (mgetD s.aon.replays k 0 + 1) })

/-! ## Block resets (R509, Table 16.3) -/

/-- A far request of this unit ends with a block reset of CLX: without a response; a job part ends as one that is never
answered (R423). -/
def State.endFar (s : State) (f : FarOut) : State :=
  match f.req.org with
  | .job id what off =>
    if f.isWrite then s.jobWrote id what off (f.req.addr / 64) (some (4, 2))
    else s.jobRead id what off (f.req.addr / 64) 0 true (some (4, 2))
  | _ => s.leaveReq f.req

/-- A request of another unit. -/
def Req.isFar (q : Req) : Bool := match q.org with | .far _ _ _ _ => true | _ => false

/-- CLX (Table 12.13): both ports go down, the requester's state is cleared, the home state stays without ACCEPTED. -/
def State.resetClx (s : State) : State :=
  let s1 := ((s.insideReqs.filter Req.isFar).foldl State.leaveReq s).dropRequests Req.isFar
  let s2 := (s1.clx.done.foldl State.farApplied s1)
  let mine := s2.clx.reqs
  let s3 := s2.setClx { s2.clx with reqs := [], syncs := [], deadTags := [], held := [],
                                    home := s2.clx.home.map (fun e => (e.1, { e.2 with accepted := 0 })) }
  let s4 := (List.range 16).foldl (fun s h => (s.wrI F.CLX_PEER_TX_NEXT h 0).wrI F.CLX_PEER_TX_SYNCED h 0) s3
  mine.foldl State.endFar ((s4.clDown 0).clDown 1)

/-- A move aborts; what it holds for a request waits again (Table 16.3). -/
def State.abortMove (s : State) (m : Move) : State :=
  if m.kind = .read then s
  else match m.req with
    | some q => (s.stopMove m).waitFor q .promo m.slot m.tile
    | none => s.stopMove m

/-- SCR: the moves abort and the jobs end silently; the contexts stay. -/
def State.resetScr (s : State) : State := (s.tmu.moves.foldl State.abortMove s).endSilently (fun _ => true)

/-- RAS: the repeat trackers are emptied. -/
def trackerFields : List Fld := [F.RAS_RPT_FIRST, F.RAS_RPT_COUNT, F.RAS_RPT_PENDING, F.RAS_RPT_VALID, F.RAS_RPT_KEY_ROWKEY]

/-- EVT: the core queue and EVT_PEND are cleared. -/
def State.resetEvt (s : State) : State :=
  let s1 := s.setEvt { s.evt with queue := [], qUsed := 0, ovfDue := false }
  (List.range 4).foldl (fun s k => s.wrAt F.EVT_PEND_SRC 0 k 0) ((s1.wr F.EVT_QUEUE_HEAD 0).wr F.EVT_QUEUE_TAIL 0)

/-- The effect of a block reset beside the fields with letter B. -/
def State.blockEffect (s : State) (b : Nat) : State :=
  if b = 2 then (List.range 16).foldl (fun s n => s.portReset n) s
  else if b = 3 then s.resetClx
  else if b = 5 then s.setDir { s.dir with cache := [] }
  else if b = 7 then s.setCdc { s.cdc with held := [] }
  else if b = 9 then s.resetScr
  else if b = 12 then s.keepRegs (fun f => !trackerFields.contains f)
  else if b = 13 then s.resetEvt
  else if b = 14 then (s.setEvt { s.evt with window := [] }).wr F.PMU_SNAP_STS_SEQ 0
  else s

/-- The blocks whose reset is a warm reset: AON, CTL, ADM, TMU, CRY, NTC, BTC. -/
def warmBlock (b : Nat) : Bool := [0, 1, 4, 6, 8, 10, 11].contains b

/-- A block reset begins: none during a reset or an integrity halt (R163, R500). -/
def State.resetBlock (s : State) (b : Nat) : State :=
  let s1 := s.wr F.AON_BLK_RST_BLOCK b
  if 15 ≤ b ∨ s.inReset ∨ s.aon.quiescing ∨ s.cry.halt ≠ 0 ∨ s.aon.blocks.contains b then s1
  else if warmBlock b then s1.warm 5 0
  else
    let s2 := (s1.wr F.AON_BLK_RST_LAST b).blockEffect b
    (s2.setAon { s2.aon with blocks := s2.aon.blocks ++ [b] }).blockRegs b

/-- BLK_RST_REQ: from the control cores and the sideband (R531). -/
def execBlkRstReq (path : Path) (block : Nat) (s : State) : Result :=
  .next (s.viaPath path 0 1 (isCores path || isSideband path) (fun s => s.resetBlock block))

end Sys2Proof.Machine
end

