-- ==== Sys2Proof/Machine/RegAccess.lean ====
section
/-!
DEFINITION. Machine/RegAccess.lean: register reads and writes over the three paths and the sideband protocol (R17 to R22, R51,
R460, R478, R531, R533 to R553, R577; 17_register_map.md).
-/
namespace Sys2Proof.Machine

/-! ## Addresses -/

/-- Where an address of the block windows lies: block, page, offset of its 64-bit register. -/
def regBlk (addr : Nat) : Nat := addr / 0x100000 - 1
def regPage (addr : Nat) : Nat := addr % 0x100000 / 0x1000
def regOff (addr : Nat) : Nat := addr % 0x1000 / 8 * 8

/-- An aligned access of 32 or 64 bits (R544). -/
def widthOk (addr width : Nat) : Bool := decide ((width = 32 ∧ addr % 4 = 0) ∨ (width = 64 ∧ addr % 8 = 0))

/-- An access discarded under R544 is counted. -/
def State.badWidth (s : State) : State := s.bump F.AON_GLB_ACCERR_WIDTH 0 0 1 none true

/-- The bits of the register that an access covers. -/
def accMask (addr width : Nat) : Nat :=
  if width = 64 then 2 ^ 64 - 1 else if addr % 8 = 0 then 2 ^ 32 - 1 else 2 ^ 64 - 2 ^ 32

/-- The data of a write at its place in the register. -/
def accData (addr width v : Nat) : Nat :=
  if width = 64 then v % 2 ^ 64 else if addr % 8 = 0 then v % 2 ^ 32 else v % 2 ^ 32 * 2 ^ 32

/-! ## Who may write (R541 and the restrictions of the chapters) -/

/-- Fields that only the control cores write. -/
def coreFields : List Fld :=
  [F.CDC_PIPE_CTL_CMD, F.CRY_PIPE_CTL_CMD, F.SCR_ENG_CTL_CMD, F.DIR_BANK_CMD_WAY, F.DIR_BANK_CMD_CMD, F.CTL_CORE_CTL_CMD,
   F.ADM_CLS_CFG_FORCE_OPEN, F.ADM_CLS_CFG_SHP_SUSPEND, F.CLX_PORT_CTL_RETRAIN, F.CLX_PORT_CTL_MARK, F.AON_PWR_MODE_TARGET,
   F.AON_PWR_MODE_ARM, F.AON_RST_CTL_WARM_REQ, F.CTL_WDT_KICK, F.RAS_LOG_CONS]

/-- Fields that no LD writes: the control cores and the sideband do. -/
def sharedFields : List Fld := [F.AON_BLK_RST_BLOCK, F.AON_BLK_RST_REQ, F.AON_RST_CTL_COLD_CMD]

/-- Fields that only commands write (R56, R231, R271). -/
def commandFields : List Fld :=
  [F.TMU_RGN_MAP_BASE, F.TMU_RGN_MAP_SIZE, F.TMU_RGN_MAP_TYPE, F.TMU_RGN_MAP_RETAIN, F.TMU_RGN_MAP_OWNER,
   F.TMU_RGN_POLICY_DEF_CLASS, F.TMU_RGN_POLICY_LEVEL, F.TMU_RGN_POLICY_TIER, F.TMU_RGN_POLICY_HOME,
   F.TMU_RGN_POLICY_HOME_SLOT, F.TMU_RGN_POLICY_EXPORT_EN, F.TMU_RGN_POLICY_EXPORT_UNIT, F.TMU_RGN_BUDGET_BUDGET,
   F.TMU_RGN_DIRTYCAP_DIRTY_CAP, F.TMU_RGN_THRESH_T1, F.TMU_RGN_THRESH_T2, F.TMU_RGN_THRESH_T3, F.BTC_RETAIN_SETS,
   F.RAS_SPARE_SET_SET, F.RAS_SPARE_SET_VALID]

/-- A path may write index k of a writable field on a page. -/
def State.mayField (s : State) (p : Path) (page : Nat) (f : Fld) (k : Nat) : Bool :=
  !commandFields.contains f &&
    match p with
    | .cores => decide (f ≠ F.AON_RST_CTL_COLD_CMD)
    | .sideband => !coreFields.contains f
    | .ld h l =>
      if f.blk = 13 then decide (page = 1 + hl h l)
      else if f.blk = 6 ∧ page = 65 then decide (k = h)
      else if f.blk = 2 ∧ page = 17 + hl h l then true
      else s.holdsFm h l && !coreFields.contains f && !sharedFields.contains f

/-- A path may write the header's EVT_CLR of a page: an LD without FM on its own pages, no LD on another's EVT page. -/
def State.mayClr (s : State) (p : Path) (blk page : Nat) : Bool :=
  match p with
  | .ld h l =>
    if blk = 13 then decide (page = 1 + hl h l)
    else decide (blk = 2 ∧ page = 17 + hl h l) || s.holdsFm h l
  | _ => true

/-- Writes to the page have an effect (R536, R539). -/
def State.pageLive (s : State) (blk page : Nat) : Bool :=
  pageUsed blk page && !s.pageLost blk page && !s.pageFailed blk page && !s.pageEmpty blk page &&
    (decide (page = 0) || s.aon.loaded || decide (blk = 0))

/-! ## One field under a write -/

/-- The bits of a field, at their place in the register. -/
def Fld.mask (f : Fld) : Nat := 2 ^ (f.hi + 1) - 2 ^ f.lo

/-- RW or RWL. -/
def Fld.stores (f : Fld) : Bool := decide (f.acc = .rw ∨ f.acc = .rwl)

/-- W1C or WO: a write of ones acts. -/
def Fld.strobes (f : Fld) : Bool := decide (f.acc = .w1c ∨ f.acc = .wo)

/-- The whole field after data d is written under mask m over an old value. -/
def Fld.merged (f : Fld) (old m d : Nat) : Nat := ((old * 2 ^ f.lo &&& (m ^^^ (2 ^ 64 - 1))) ||| (d &&& m)) / 2 ^ f.lo % 2 ^ f.width

/-- The bits of the field that the write sets to one. -/
def Fld.ones (f : Fld) (m d : Nat) : Nat := (d &&& m) / 2 ^ f.lo % 2 ^ f.width

/-- The field is open to the write. -/
def State.fieldOpen (s : State) (p : Path) (blk page : Nat) (f : Fld) (k : Nat) : Bool :=
  s.pageLive blk page && (f.strobes || decide (f.acc = .rw) || (decide (f.acc = .rwl) && !s.rdb (F.BLK_CTL_LOCK blk))) &&
    s.mayField p page f k

/-- The write would change a field that it may not change (R577). -/
def State.fieldDenied (s : State) (p : Path) (blk page : Nat) (m d : Nat) (x : Fld × Nat × Nat) : Bool :=
  let f := x.1
  decide (f.mask &&& m ≠ 0) && !s.fieldOpen p blk page f x.2.2 &&
    (if f.strobes then decide (f.ones m d ≠ 0)
     else decide (f.merged (s.value f x.2.1 x.2.2) m d ≠ s.value f x.2.1 x.2.2 % 2 ^ f.width))

/-- The codes of a block's RC counter fields (R472). -/
def rcCodes (blk : Nat) : Nat := (blockTable blk).foldl (fun n g => if g.acc = .rc then n + g.cnt else n) 0

/-- The value that is stored for a value written (R22, R549): the clamps that concern the field alone. -/
def State.clamped (s : State) (f : Fld) (i v : Nat) : Nat :=
  let v := match f.clamp with | some (a, b) => clampTo a b v | none => v
  if f = F.TMU_HEAD_TAG_KEY_EN then (if s.vk4 then v else 0)
  else if f = F.NTC_PORT_LAT_TARGET then (if v = 0 then 0 else clampTo 100 100000 v)
  else if [F.NTC_FB_FB1, F.NTC_FB_FB2, F.NTC_FB_FB3, F.BTC_FB_FB1, F.BTC_FB_FB2, F.BTC_FB_FB3].contains f then clampTo 10 100 v
  else if f = F.HLX_PORT_CTL_MAX_WIDTH then (if s.merged i then v else min 4 v)
  else if vecFields.contains f then min v (s.vectors (i / 4) - 1)
  else if f = F.PMU_SEL_CODE then (if rcCodes i < v then 0 else v)
  else if f = F.AON_PWR_MODE_TARGET then (if 4 < v then 0 else v)
  else v

/-- Entries of the cores' queue that a write of HEAD frees (R468). -/
def State.freeEntries (s : State) (v : Nat) : State :=
  let n := min ((v + 1024 - s.rd F.EVT_QUEUE_HEAD) % 1024) s.evt.qUsed
  let head := s.rd F.EVT_QUEUE_HEAD
  (s.setEvt { s.evt with
    qUsed := s.evt.qUsed - n,
    queue := s.evt.queue.filter (fun e => !decide ((e.1 + 1024 - head) % 1024 < n)) }).wr F.EVT_QUEUE_HEAD ((head + n) % 1024)

/-- The bucket that ADM_SHP_SEL names takes new values at its next refill (R343, R363). -/
def State.newBucket (s : State) (g : Bucket → Bucket) : State :=
  let n := s.rd F.ADM_SHP_SEL_BUCKET
  let b := s.bucket n
  let b1 := if b.pending then b else { b with newRate := b.rate, newBurst := b.burst }
  s.setBucket n { g b1 with pending := true }

/-- PIN_MAX is lowered below the frames already pinned (R174, R194): PIN_LIMIT, to the LDs holding FM and to the heads in
the OWNER mask of every region that holds a pinned frame. -/
def State.lowerPinMax (s : State) (v : Nat) : State :=
  let s1 := s.wr F.SCR_FRAME_WM_PIN_MAX v
  if v < s.rd F.SCR_FRAME_WM_PIN_MAX ∧ v * s.rd F.SCR_FRAMES_TOTAL < 100 * s.pinnedCount then
    let slots := (s.near.ftes.filter (fun e => e.2.pin)).map (fun e => e.2.slot)
    let owners := (List.range 16).filter (fun h => slots.any (fun r => (s.owner r).testBit h))
    s1.raise cPinLimit (heads := (s.ldsWith F.HLX_HEAD_PERM_FM).map (fun p => (p.1, some p.2)) ++
      owners.map (fun h => (h, none)))
  else s1

/-- A value is stored in a RW or RWL field, with what the store does beside. -/
def State.store (s : State) (p : Path) (f : Fld) (i k v : Nat) : State :=
  if f = F.ADM_SHP_RATE_RATE then s.newBucket (fun b => { b with newRate := v })
  else if f = F.ADM_SHP_BURST_BURST then s.newBucket (fun b => { b with newBurst := v })
  else if f = F.EVT_ALERT_EN_SRC then s.wrAt f i k (alertEnReset k ^^^ v)
  else if f = F.NTC_CH_CTL_HOLD then s.putHold false i (decide (v ≠ 0))
  else if f = F.BTC_SC_CTL_HOLD then s.putHold true i (decide (v ≠ 0))
  else if f = F.SCR_FRAME_WM_PIN_MAX then s.lowerPinMax v
  else if f = F.RAS_LOG_CONS then s.consume ((v + 1024 - s.rd F.RAS_LOG_CONS) % 1024)
  else if f = F.EVT_QUEUE_HEAD then s.freeEntries v
  else if f = F.CLX_PORT_CTL_ENABLE then
    (match execClPortEnable p i (decide (v ≠ 0)) s with
     | .next t => t
     | _ => s)
  else s.wrAt f i k v

/-- Bits are cleared by writing ones. -/
def State.clearOnes (s : State) (f : Fld) (i k n : Nat) : State :=
  let keep := if f = F.EVT_ALERT_PEND_SRC ∧ k = 1 ∧ s.cry.halt ≠ 0 then clrBit n 48 else n
  let old := s.rd f i k
  let s1 := s.wrAt f i k (old &&& (keep ^^^ (2 ^ f.width - 1)))
  if f = F.EVT_ALERT_PEND_SRC ∧ s.alertLow ∧ !s1.alertLow then s1.emit (.alertN false) else s1

/-! ## Registers -/

/-- Clamps that order one field against another, and what follows from a written register (R347, R358, R482, R549). -/
def State.settle (s : State) (blk page off : Nat) : State :=
  if blk = 9 ∧ page = 0 ∧ off = 0x48 then
    (s.wr F.SCR_FRAME_WM_FREE_MIN (min (s.rd F.SCR_FRAME_WM_FREE_MIN) (s.rd F.SCR_FRAME_WM_FREE_LOW))).watchFree
  else if blk = 10 ∧ page = 0 ∧ off = 0x50 then
    let s1 := s.wr F.NTC_FB_FB2 (max (s.rd F.NTC_FB_FB2) (s.rd F.NTC_FB_FB1))
    s1.wr F.NTC_FB_FB3 (max (s1.rd F.NTC_FB_FB3) (s1.rd F.NTC_FB_FB2))
  else if blk = 11 ∧ page = 0 ∧ off = 0x50 then
    let s1 := s.wr F.BTC_FB_FB2 (max (s.rd F.BTC_FB_FB2) (s.rd F.BTC_FB_FB1))
    s1.wr F.BTC_FB_FB3 (max (s1.rd F.BTC_FB_FB3) (s1.rd F.BTC_FB_FB2))
  else if blk = 4 ∧ page = 0 ∧ off = 0x48 then
    let s1 := s.wr F.ADM_FLOOR_MAINT_PCT (min (s.rd F.ADM_FLOOR_MAINT_PCT) (s.rd F.ADM_FLOOR_PCT - 5))
    s1.setAdm { s1.adm with recompute := true }
  else if blk = 4 ∧ 1 ≤ page ∧ page ≤ 16 ∧ off = 0x48 then s.setAdm { s.adm with recompute := true }
  else if blk = 4 ∧ 1 ≤ page ∧ page ≤ 16 ∧ (off = 0x40 ∨ off = 0x50) then s.guardBands
  else if blk = 0 ∧ page = 0 ∧ off = 0x40 then
    let armed := s.rdb F.AON_PWR_MODE_ARM && decide (s.rd F.AON_PWR_MODE_TARGET ≠ 0)
    if armed ∧ s.aon.entry.stage = 0 ∧ s.cur = 0 then s.setEntry { stage := 1, wakes := [], attempts := 0, retry := false }
    else if !armed ∧ s.aon.entry.stage = 1 then s.setEntry Entry.none
    else s
  else s

/-- Run a command of its own row. -/
def State.run (s : State) (r : State → Result) : State :=
  match r s with
  | .next t => t
  | _ => s

/-- What a written WO field does: its command. The known-answer test that activates an AES pipe has a free outcome. -/
def State.act (s : State) (p : Path) (f : Fld) (i v : Nat) : State :=
  if f = F.CDC_PIPE_CTL_CMD then
    (if v = 1 then s.run (execCdcPipeActivate p i) else if v = 2 then s.run (execCdcPipeDrain p i)
     else if v = 3 then s.run (execCdcPipeFail p i) else s)
  else if f = F.CRY_PIPE_CTL_CMD then
    (if v = 1 then (s.run (execCryPipeActivate p i (Config.katPass i s.draw))).drawn
     else if v = 2 then s.run (execCryPipeDrain p i) else if v = 3 then s.run (execCryPipeFail p i) else s)
  else if f = F.SCR_ENG_CTL_CMD then
    (if v = 1 then s.run (execScrEngActivate p i) else if v = 2 then s.run (execScrEngDrain p i)
     else if v = 3 then s.run (execScrEngFail p i) else s)
  else if f = F.CTL_CORE_CTL_CMD then
    (if v = 1 then s.run (execCtlCoreActivate p i) else if v = 3 then s.run (execCtlCoreFail p i) else s)
  else if v = 0 then s
  else if f = F.CLX_PORT_CTL_RETRAIN then s.run (execClRetrain p i)
  else if f = F.CLX_PORT_CTL_MARK then s.run (execClMark p i (BitVec.ofNat 9 v))
  else if f = F.CTL_WDT_KICK then s.run (execKick p)
  else if f = F.ADM_GCL_CFG_SWAP then s.run (execGclSwapRequest p)
  else if f = F.EVT_FM_TEST_RAISE then s.run (execEvtFmTest p)
  else if f = F.EVT_LD_TEST_RAISE then s.run (execEvtLdTest p (i / 4) (i % 4))
  else if f = F.PMU_SNAP_NOW then s.run (execNow p)
  else if f = F.AON_RST_CTL_WARM_REQ then s.run (execWarmReq p)
  else if f = F.AON_RST_CTL_COLD_CMD then s.run (execColdCmd p)
  else if f = F.AON_BLK_RST_REQ then s.run (execBlkRstReq p (s.rd F.AON_BLK_RST_BLOCK))
  else s

/-- A directory way command names its way in the same write (R331). -/
def State.actWay (s : State) (p : Path) (bank way v : Nat) : State :=
  if v = 1 then s.run (execDirBankActivate p bank way) else if v = 3 then s.run (execDirBankFail p bank way) else s

/-- The fields of a register that a write covers and that are open to it. -/
def State.openFields (s : State) (p : Path) (blk page off m : Nat) : List (Fld × Nat × Nat) :=
  (fieldsAt blk page off).filter (fun x => decide (x.1.mask &&& m ≠ 0) && s.fieldOpen p blk page x.1 x.2.2)

/-- A write of data d under mask m to a register beyond the header: first the fields that store (one that spans bits 31
and 32 only under a 64-bit write, R547), then the clamps, then bits cleared, then actions (when the write holds all their
bits). -/
def State.writeFields (s : State) (p : Path) (blk page off m d : Nat) : State :=
  let l := s.openFields p blk page off m
  let s1 := (l.filter (fun x => x.1.stores && decide (x.1.mask &&& m = x.1.mask ∨ ¬ (x.1.lo ≤ 31 ∧ 32 ≤ x.1.hi)))).foldl
    (fun s x => s.store p x.1 x.2.1 x.2.2 (s.clamped x.1 x.2.1 (x.1.merged (s.value x.1 x.2.1 x.2.2) m d))) s
  let s2 := if (l.filter (fun x => x.1.stores)).isEmpty then s1 else s1.settle blk page off
  let s3 := (l.filter (fun x => decide (x.1.acc = .w1c))).foldl (fun s x => s.clearOnes x.1 x.2.1 x.2.2 (x.1.ones m d)) s2
  let w := l.filter (fun x => decide (x.1.acc = .wo ∧ x.1.mask &&& m = x.1.mask))
  if w.any (fun x => decide (x.1 = F.DIR_BANK_CMD_CMD)) then
    s3.actWay p (page - 1) (F.DIR_BANK_CMD_WAY.ones m d) (F.DIR_BANK_CMD_CMD.ones m d)
  else w.foldl (fun s x => s.act p x.1 x.2.1 (x.1.ones m d)) s3

/-- The bits of a register that belong to a field. -/
def fieldBits (blk page off : Nat) : Nat := (fieldsAt blk page off).foldl (fun n x => n ||| x.1.mask) 0

/-- The write touches something that it may not change, on a register beyond the header. -/
def State.deniedAt (s : State) (p : Path) (blk page off m d : Nat) : Bool :=
  if !pageUsed blk page ∨ s.pageLost blk page ∨ s.pageEmpty blk page then decide (d &&& m ≠ 0)
  else decide ((d &&& m) &&& (fieldBits blk page off ^^^ (2 ^ 64 - 1)) ≠ 0) ||
    (fieldsAt blk page off).any (s.fieldDenied p blk page m d)

/-- LOCK (R537): a 1 from the control cores sets the block's bit. -/
def State.setLock (s : State) (blk : Nat) : State := s.wr (F.BLK_CTL_LOCK blk) 1

/-- A write to the header of a page (Table 17.3, R460, R536, R537, R576). -/
def State.writeHeader (s : State) (p : Path) (blk page off m d : Nat) : State :=
  let live := s.pageLive blk page
  let now := s.headerWord blk page off
  let odd := decide ((d &&& m) ≠ (now &&& m))
  if off = 0x18 then
    if live ∧ isCores p ∧ m.testBit 0 ∧ d.testBit 0 then
      (let s1 := if d &&& m = 1 then s else s.denied p
       s1.setLock blk)
    else if odd then s.denied p else s
  else if off = 0x30 then
    -- EVT_EN spans bits 31 and 32: only a 64-bit write changes it
    if live ∧ isCores p then
      (if m = 2 ^ 64 - 1 then s.wrI (F.EVT_EN_EN blk) page (definedCauses blk page ^^^ (d &&& definedCauses blk page)) else s)
    else if odd then s.denied p else s
  else if off = 0x38 then
    if live ∧ s.mayClr p blk page then
      s.wrI (F.EVT_RAW_CAUSE blk) page (s.rd (F.EVT_RAW_CAUSE blk) page &&& ((d &&& m) ^^^ (2 ^ 64 - 1)))
    else if d &&& m ≠ 0 then s.denied p else s
  else if odd then s.denied p else s

/-- A write access to the block windows. -/
def State.writeReg (s : State) (p : Path) (addr width v : Nat) : State :=
  let blk := regBlk addr
  let page := regPage addr
  let off := regOff addr
  let m := accMask addr width
  let d := accData addr width v
  if off < 0x40 ∧ pageUsed blk page then s.writeHeader p blk page off m d
  else
    let s1 := if s.deniedAt p blk page off m d then s.denied p else s
    s1.writeFields p blk page off m d

/-! ## Reads -/

/-- What a path reads of the block windows (Table 17.4). -/
def State.mayRead (s : State) (p : Path) (blk page off : Nat) : Bool :=
  match p with
  | .ld h l =>
    decide (off < 0x40) || s.holdsFm h l || decide (blk = 0 ∧ page = 4) ||
      decide (blk = 2 ∧ page = 17 + hl h l) || decide (blk = 13 ∧ page = 1 + hl h l) ||
      decide (blk = 6 ∧ page = 65 ∧ off = 0x40 + 8 * h) ||
      (decide ((blk = 6 ∨ blk = 8) ∧ 1 ≤ page ∧ page ≤ 64) && s.admits h l (page - 1)) ||
      (decide (blk = 14) && s.rdb F.HLX_HEAD_PERM_PERF_USER (hl h l)) ||
      (decide (blk = 12 ∨ blk = 10 ∨ blk = 11) && s.rdb F.HLX_HEAD_PERM_DIAG (hl h l))
  | _ => true

/-- The RC fields of a register that a mask covers whole are cleared. -/
def State.clearRc (s : State) (blk page off m : Nat) : State :=
  ((fieldsAt blk page off).filter (fun x => decide (x.1.acc = .rc ∧ x.1.mask &&& m = x.1.mask))).foldl
    (fun s x =>
      let s1 := if x.1 = F.CRY_PIPE_WORK_UNITS then
          s.setCry { s.cry with marks := mput s.cry.marks x.2.1 s.cry.lines }
        else s
      s1.wrAt x.1 x.2.1 x.2.2 0) s

/-- A path's shadow is kept under a code (R546). -/
def shadowKey : Path → Nat
  | .ld h l => hl h l
  | .sideband => 64
  | .cores => 65

/-- A register access of a path ends the use of its shadow. -/
def State.dropShadow (s : State) (p : Path) : State :=
  s.setHlx { s.hlx with shadow := s.hlx.shadow.filter (fun e => decide (e.1 ≠ shadowKey p)) }

/-- A read access to the block windows: the value and the state after it (R545, R546). -/
def State.readReg (s : State) (p : Path) (addr width : Nat) : Nat × State :=
  let blk := regBlk addr
  let page := regPage addr
  let off := regOff addr
  let w := s.regWord blk page off % 2 ^ 64
  let s1 := s.dropShadow p
  if !s.mayRead p blk page off then (0, s1)
  else if width = 64 then (w, s1.clearRc blk page off (2 ^ 64 - 1))
  else if addr % 8 = 0 then
    let s2 := s1.clearRc blk page off (2 ^ 64 - 1)
    (w % 2 ^ 32, s2.setHlx { s2.hlx with shadow := s2.hlx.shadow ++ [(shadowKey p, addr, w / 2 ^ 32)] })
  else match s.hlx.shadow.find? (fun e => decide (e.1 = shadowKey p ∧ e.2.1 + 4 = addr)) with
    | some e => (e.2.2, s1)
    | none => (w / 2 ^ 32, s1.clearRc blk page off (2 ^ 64 - 2 ^ 32))

/-- An address below the block windows that a path reads as something other than zero (Table 17.1): the registers that the
CXL specification defines. -/
def lowUsed (p : Path) (addr : Nat) : Bool :=
  match p with
  | .ld _ _ => decide (addr < 0x10200 ∨ (0x11000 ≤ addr ∧ addr < 0x12020) ∨ (0x13000 ≤ addr ∧ addr < 0x13008))
  | _ => decide (0x20000 ≤ addr ∧ addr < 0x21020)

/-! ## The LD's own registers below the block windows (R279, R297, R299, R533) and BAR2 (R534)

BAR2 offset o of an LD is the address 0x0100_0000 + o of its path (log entry 113). -/

/-- Where BAR2 stands in the addresses of an LD's path. -/
def bar2Base : Nat := 0x1000000

/-- The mailbox that a path sees: the address of its registers and the mailbox itself (Table 17.1, R553). -/
def mboxAt : Path → Nat × MboxSrc
  | .ld h l => (0x11000, .ld h l)
  | _ => (0x20000, .sideband)

/-- The index under which a path's own words are kept: the LD's, or one for the sideband and the control cores. -/
def lowIndex : Path → Nat
  | .ld h l => hl h l
  | _ => 64

/-- The opcodes that the mailboxes serve: the CXL commands of Table 8.2 and those of Table 8.6, each with a row of its own. -/
def mboxOpcodes : List Nat :=
  [0x0100, 0x0101, 0x0102, 0x0103, 0x0200, 0x0201, 0x0202, 0x0300, 0x0301, 0x4000, 0x4300, 0x4301, 0x4302, 0x4802, 0x4803,
   0xc000, 0xc001, 0xc002, 0xc003, 0xc004, 0xc005, 0xc010, 0xc011, 0xc012, 0xc013, 0xc014, 0xc020, 0xc021] ++
  [0xc030, 0xc031, 0xc032, 0xc033, 0xc034, 0xc040, 0xc041, 0xc050, 0xc051, 0xc060, 0xc061, 0xc062]

/-- The doorbell of a mailbox (bit 0 of its control register): an opcode that no row serves completes with Unsupported (R299),
or with Busy (R297). -/
def State.mboxDoorbell (s : State) (src : MboxSrc) (opcode : Nat) : State :=
  if mboxOpcodes.contains opcode ∨ !s.mboxUp src then s
  else s.reply src opcode (if s.mboxBusy src then rcBusy else rcUnsupported) []

/-- The words that hold what is written: the mailbox's command register and payload, and an LD's HDM decoders. -/
def heldLow (p : Path) (addr : Nat) : Bool :=
  let b := (mboxAt p).1
  decide (b + 8 ≤ addr ∧ addr < b + 0x10) || decide (b + 0x20 ≤ addr ∧ addr < b + 0x1020) ||
    (match p with | .ld _ _ => inHdm addr | _ => false)

/-- A 32-bit word of a path's own registers: the capability of the mailbox, what is held, what the CXL specification gives as
a free value. -/
def State.readLow (s : State) (p : Path) (addr : Nat) : Nat :=
  if addr = (mboxAt p).1 then 12
  else match p with
    | .ld h l => if inHdm addr then s.hdmRead h l addr else if heldLow p addr then s.lowWord (lowIndex p) addr
        else if lowUsed p addr then (Config.cxlRegister addr s.draw).toNat % 2 ^ 32 else 0
    | _ => if heldLow p addr then s.lowWord (lowIndex p) addr
        else if lowUsed p addr then (Config.cxlRegister addr s.draw).toNat % 2 ^ 32 else 0

/-- A write of one 32-bit word there. -/
def State.writeLow (s : State) (p : Path) (addr v : Nat) : State :=
  let m := mboxAt p
  match p with
  | .ld h l =>
    if inHdm addr then s.hdmPut h l addr v
    else if addr = m.1 + 4 then (if v.testBit 0 then s.mboxDoorbell m.2 (s.lowWord (lowIndex p) (m.1 + 8) % 2 ^ 16) else s)
    else if heldLow p addr then s.putLow (lowIndex p) addr v else s
  | _ =>
    if addr = m.1 + 4 then (if v.testBit 0 then s.mboxDoorbell m.2 (s.lowWord (lowIndex p) (m.1 + 8) % 2 ^ 16) else s)
    else if heldLow p addr then s.putLow (lowIndex p) addr v else s

/-- A word that an LD reads of its BAR2. -/
def State.readBar2 (s : State) (p : Path) (addr : Nat) : Nat :=
  match p with
  | .ld h l => if addr < bar2Base + 0x10000 then s.bar2Word h l (s.vectors h) (addr - bar2Base) else 0
  | _ => 0

/-- A word that an LD writes of its BAR2. -/
def State.writeBar2 (s : State) (p : Path) (addr v : Nat) : State :=
  match p with
  | .ld h l => if addr < bar2Base + 0x10000 then s.bar2Put h l (s.vectors h) (addr - bar2Base) v else s
  | _ => s

/-- A read of the words that an access covers, each of 32 bits. -/
def wordsOf (f : Nat → Nat) (addr width : Nat) : Nat := if width = 64 then f addr + 2 ^ 32 * f (addr + 4) else f addr

/-- A write of the words that an access covers, the lower one first. -/
def State.wordsTo (s : State) (f : State → Nat → Nat → State) (addr width v : Nat) : State :=
  let s1 := f s addr (v % 2 ^ 32)
  if width = 64 then f s1 (addr + 4) (v / 2 ^ 32) else s1

/-- A read access anywhere. -/
def State.readAny (s : State) (p : Path) (addr width : Nat) : Nat × State :=
  if !widthOk addr width then (0, s.badWidth)
  else if addr < 0x100000 then
    (wordsOf (s.readLow p) addr width, if lowUsed p addr then (s.dropShadow p).drawn else s.dropShadow p)
  else if bar2Base ≤ addr then (wordsOf (s.readBar2 p) addr width, s.dropShadow p)
  else s.readReg p addr width

/-- A write access anywhere. The commands of the mailboxes are commands of their own. -/
def State.writeAny (s : State) (p : Path) (addr width v : Nat) : State :=
  if !widthOk addr width then s.badWidth
  else
    let s1 := s.dropShadow p
    if addr < 0x100000 then s1.wordsTo (fun s a v => s.writeLow p a v) addr width v
    else if bar2Base ≤ addr then s1.wordsTo (fun s a v => s.writeBar2 p a v) addr width v
    else s1.writeReg p addr width v

/-- An access in P1 wakes the unit: 1 for a host, 3 for the sideband (Table 15.3). -/
def State.regKnock (s : State) (p : Path) : State :=
  match p with
  | .ld _ _ => s.rouse 1
  | .sideband => if s.target = 1 then s.knock 3 else s
  | .cores => s

/-- The page of an access is reached; addresses below the windows belong to page 0 of HLX. -/
def State.reachesAddr (s : State) (p : Path) (addr : Nat) : Bool :=
  if addr < 0x100000 ∨ 0x1000000 ≤ addr then s.reaches p 2 0 else s.reaches p (regBlk addr) (regPage addr)

/-- The page of a write is reached. -/
def State.writeReachesAddr (s : State) (p : Path) (addr : Nat) : Bool :=
  if addr < 0x100000 ∨ 0x1000000 ≤ addr then s.writeReaches p 2 0 else s.writeReaches p (regBlk addr) (regPage addr)

/-- The access reaches a block that is in a block reset: it waits for the end (R543, R552). -/
def State.blockBusy (s : State) (addr width : Nat) : Bool :=
  widthOk addr width && decide (0x100000 ≤ addr ∧ addr < 0x1000000) && s.aon.blocks.contains (regBlk addr)

/-- An access waits. -/
def State.holdAcc (s : State) (a : HeldAcc) : State := s.setAon { s.aon with accs := s.aon.accs ++ [a] }

/-- REGISTER_WRITE. -/
def execRegisterWrite (path : Path) (addr width : Nat) (value : BitVec 64) (s : State) : Result :=
  .next (let s := s.regKnock path
    if !s.writeReachesAddr path addr then s
    else if s.blockBusy addr width then
      s.holdAcc { path := path, addr := addr, width := width, data := some value.toNat, reply := none }
    else s.writeAny path addr width value.toNat)

/-- REGISTER_READ_CLEAR. -/
def execRegisterReadClear (path : Path) (addr width : Nat) (s : State) : Result :=
  .next (let s := s.regKnock path
    if !s.reachesAddr path addr then s
    else if s.blockBusy addr width then
      s.holdAcc { path := path, addr := addr, width := width, data := none, reply := none }
    else
      let r := s.readAny path addr width
      r.2.emit (.regRead path addr width r.1))

/-- LOCK (R537). -/
def execLock (path : Path) (block : Nat) (s : State) : Result :=
  .next (s.viaPath path block 0 true (fun s =>
    if isCores path then (if s.pageLive block 0 then s.setLock block else s)
    else if s.rdb (F.BLK_CTL_LOCK block) then s else s.denied path))

/-! ## The sideband protocol (R551 to R553) -/

/-- One step of the SMBus CRC-8 (polynomial 0x07): a bit leaves at the top. -/
def crc8Bit (c : BitVec 8) : BitVec 8 := if c.getLsbD 7 then (c <<< 1) ^^^ 0x07 else c <<< 1

/-- A byte into the CRC-8. -/
def crc8Byte (c b : BitVec 8) : BitVec 8 :=
  crc8Bit (crc8Bit (crc8Bit (crc8Bit (crc8Bit (crc8Bit (crc8Bit (crc8Bit (c ^^^ b))))))))

/-- The PEC over bytes. -/
def pecOf (l : List Byte) : Byte := l.foldl crc8Byte 0

/-- The address byte of a transfer; read tells its direction. -/
def State.addrByte (s : State) (read : Bool) : Byte := BitVec.ofNat 8 (2 * s.targetAddr + b2n read)

/-- A response leaves: STATUS, data, and over I2C the PEC. -/
def State.respond (s : State) (i2c : Bool) (status : Nat) (data : List Byte) : State :=
  let b := leBytes 1 status ++ data
  s.emit (.sideband (if i2c then b ++ [pecOf (s.addrByte true :: b)] else b))

/-- ADDR of a request. -/
def sbAddr (req : List Byte) : Nat := numAt req 1 3

/-- The request is well formed for its operation: OP, length, alignment, PEC. -/
def State.sbOk (s : State) (op len : Nat) (req : List Byte) (pec : Option Byte) : Bool :=
  decide (req.length = len ∧ numAt req 0 1 = op ∧ sbAddr req % (if op % 2 = 0 then 8 else 4) = 0) &&
    (match pec with
     | some x => decide (x = pecOf (s.addrByte false :: req))
     | none => true)

/-- The response to come of an access that waits is discarded (R551). -/
def State.dropReply (s : State) : State :=
  if s.aon.accs.isEmpty then s
  else s.setAon { s.aon with accs := s.aon.accs.map (fun a => { a with reply := none }) }

/-- A sideband request: no answer in P2, P3 and P4, UNREACHABLE where the path does not reach the page, BAD_REQUEST for a
malformed one, BUSY while its block is in a block reset (R552); n is the number of data bytes of a response, data what a
write carries. A new request discards the response of the one before (R551). -/
def State.sideband (s : State) (op len n : Nat) (req : List Byte) (pec : Option Byte) (data : Option Nat)
    (f : State → State × List Byte) : State :=
  let s := (s.regKnock .sideband).dropReply
  let zeros := List.replicate n (0 : Byte)
  let width := if op % 2 = 0 then 64 else 32
  if s.aon.off = 1 ∨ s.rd F.AON_PWR_MODE_CUR = 2 ∨ s.rd F.AON_PWR_MODE_CUR = 3 then s
  else if !s.sbOk op len req pec then s.respond pec.isSome 2 zeros
  else if !(if 3 ≤ op then s.writeReachesAddr .sideband (sbAddr req) else s.reachesAddr .sideband (sbAddr req)) then
    s.respond pec.isSome 3 zeros
  else if s.blockBusy (sbAddr req) width then
    (s.holdAcc { path := .sideband, addr := sbAddr req, width := width, data := data, reply := some pec.isSome }).respond
      pec.isSome 1 zeros
  else
    let r := f s
    r.1.respond pec.isSome 0 r.2

/-- READ32. -/
def execRead32 (req : List (BitVec 8)) (pec : Option (BitVec 8)) (s : State) : Result :=
  .next (s.sideband 1 4 4 req pec none (fun s =>
    let r := s.readAny .sideband (sbAddr req) 32
    (r.2, leBytes 4 r.1)))

/-- READ64. -/
def execRead64 (req : List (BitVec 8)) (pec : Option (BitVec 8)) (s : State) : Result :=
  .next (s.sideband 2 4 8 req pec none (fun s =>
    let r := s.readAny .sideband (sbAddr req) 64
    (r.2, leBytes 8 r.1)))

/-- WRITE32. -/
def execWrite32 (req : List (BitVec 8)) (pec : Option (BitVec 8)) (s : State) : Result :=
  .next (s.sideband 3 8 0 req pec (some (numAt req 4 4)) (fun s => (s.writeAny .sideband (sbAddr req) 32 (numAt req 4 4), [])))

/-- WRITE64. -/
def execWrite64 (req : List (BitVec 8)) (pec : Option (BitVec 8)) (s : State) : Result :=
  .next (s.sideband 4 12 0 req pec (some (numAt req 4 8)) (fun s => (s.writeAny .sideband (sbAddr req) 64 (numAt req 4 8), [])))

/-! ## The end of a block reset (R509, R543) -/

/-- An access that waited takes place: a host's or a core's read is answered, and the sideband's response is there now unless
a newer request has discarded it. -/
def State.doAcc (s : State) (a : HeldAcc) : State :=
  match a.data with
  | some v =>
    let s1 := s.writeAny a.path a.addr a.width v
    (match a.reply with | some i2c => s1.respond i2c 0 [] | none => s1)
  | none =>
    let r := s.readAny a.path a.addr a.width
    match a.path, a.reply with
    | .sideband, some i2c => r.2.respond i2c 0 (leBytes (a.width / 8) r.1)
    | .sideband, none => r.2
    | _, _ => r.2.emit (.regRead a.path a.addr a.width r.1)

/-- The accesses that waited for a block, in their order. -/
def State.doAccs (s : State) (block : Nat) : State :=
  let mine := s.aon.accs.filter (fun a => decide (regBlk a.addr = block))
  mine.foldl State.doAcc (s.setAon { s.aon with accs := s.aon.accs.filter (fun a => decide (regBlk a.addr ≠ block)) })

/-- BLOCK_RESET_END: what waited for the block proceeds. -/
def execBlockResetEnd (block : Nat) (s : State) : Result :=
  .next (if !s.aon.blocks.contains block then s
    else
      let s0 := s.setAon { s.aon with blocks := s.aon.blocks.erase block }
      let s1 := s0.doAccs block
      if block = 5 then s1.resumeWhy (fun w => decide (w.why = .dirSet))
      else if block = 7 then s1.dispatch
      else if block = 9 then s1.resumeWhy (fun _ => true)
      else s1)

end Sys2Proof.Machine
end

