-- ==== Sys2Proof/Machine/Dispatch.lean ====
section
/-!
DEFINITION. Machine/Dispatch.lean: one arm per command, each a direct call of its meaning.
-/
namespace Sys2Proof.Machine

/-- The effect of a command on everything but the queue of pending commands. -/
def exec (i : Instr) (s : State) : Host.Outcome State Fault Refusal :=
  match i with
  | .hostRead h l hpa look tag => Sys2Proof.Machine.execHostRead h l hpa look tag s
  | .hostWrite h l hpa look tag data poison => Sys2Proof.Machine.execHostWrite h l hpa look tag data poison s
  | .hostPartialWrite h l hpa look tag data be poison => Sys2Proof.Machine.execHostPartialWrite h l hpa look tag data be poison s
  | .memInv h l hpa look tag => Sys2Proof.Machine.execMemInv h l hpa look tag s
  | .memClnEvct h l hpa tag => Sys2Proof.Machine.execMemClnEvct h l hpa tag s
  | .admissionCycle => Sys2Proof.Machine.execAdmissionCycle s
  | .tokenRefill => Sys2Proof.Machine.execTokenRefill s
  | .tmeMissFill slot tile bad => Sys2Proof.Machine.execTmeMissFill slot tile bad s
  | .demandPromotion slot tile => Sys2Proof.Machine.execDemandPromotion slot tile s
  | .bulkTileReadDone id bad flips pipe pipeFault => Sys2Proof.Machine.execBulkTileReadDone id bad flips pipe pipeFault s
  | .tagRecomputeDone id pipe pipeFault => Sys2Proof.Machine.execTagRecomputeDone id pipe pipeFault s
  | .haltViral => Sys2Proof.Machine.execHaltViral s
  | .haltChainStop => Sys2Proof.Machine.execHaltChainStop s
  | .haltZeroize => Sys2Proof.Machine.execHaltZeroize s
  | .codecTileDone id pipe pipeFault => Sys2Proof.Machine.execCodecTileDone id pipe pipeFault s
  | .tcsRetryDone id pipe pipeFault => Sys2Proof.Machine.execTcsRetryDone id pipe pipeFault s
  | .promotionInstall id => Sys2Proof.Machine.execPromotionInstall id s
  | .candidateRefill => Sys2Proof.Machine.execCandidateRefill s
  | .demotionSelect engine => Sys2Proof.Machine.execDemotionSelect engine s
  | .demotionCompressDone id pipe bad => Sys2Proof.Machine.execDemotionCompressDone id pipe bad s
  | .allocEscalationResolved id => Sys2Proof.Machine.execAllocEscalationResolved id s
  | .demotionCommit id => Sys2Proof.Machine.execDemotionCommit id s
  | .writeWaitResume rid => Sys2Proof.Machine.execWriteWaitResume rid s
  | .crossingWaitResume slot tile => Sys2Proof.Machine.execCrossingWaitResume slot tile s
  | .regionInitStep slot n => Sys2Proof.Machine.execRegionInitStep slot n s
  | .nearPinWalkStep slot => Sys2Proof.Machine.execNearPinWalkStep slot s
  | .retainRelocationDone slot => Sys2Proof.Machine.execRetainRelocationDone slot s
  | .codecPipeDrained p => Sys2Proof.Machine.execCodecPipeDrained p s
  | .cdcPipeActivate path p => Sys2Proof.Machine.execCdcPipeActivate path p s
  | .cdcPipeDrain path p => Sys2Proof.Machine.execCdcPipeDrain path p s
  | .cdcPipeFail path p => Sys2Proof.Machine.execCdcPipeFail path p s
  | .cryPipeActivate path p katPass => Sys2Proof.Machine.execCryPipeActivate path p katPass s
  | .cryPipeDrain path p => Sys2Proof.Machine.execCryPipeDrain path p s
  | .cryPipeFail path p => Sys2Proof.Machine.execCryPipeFail path p s
  | .aesPipeDrained p => Sys2Proof.Machine.execAesPipeDrained p s
  | .aesKnownAnswerTest p pass => Sys2Proof.Machine.execAesKnownAnswerTest p pass s
  | .scrEngActivate path e => Sys2Proof.Machine.execScrEngActivate path e s
  | .scrEngDrain path e => Sys2Proof.Machine.execScrEngDrain path e s
  | .scrEngFail path e => Sys2Proof.Machine.execScrEngFail path e s
  | .scarabEngineDrained e => Sys2Proof.Machine.execScarabEngineDrained e s
  | .dirBankActivate path bank way => Sys2Proof.Machine.execDirBankActivate path bank way s
  | .dirBankFail path bank way => Sys2Proof.Machine.execDirBankFail path bank way s
  | .ctlCoreActivate path core => Sys2Proof.Machine.execCtlCoreActivate path core s
  | .ctlCoreFail path core => Sys2Proof.Machine.execCtlCoreFail path core s
  | .trngHealthFail => Sys2Proof.Machine.execTrngHealthFail s
  | .rekeyKeyReady slot => Sys2Proof.Machine.execRekeyKeyReady slot s
  | .rekeyWalkStep slot => Sys2Proof.Machine.execRekeyWalkStep slot s
  | .rekeyDone slot => Sys2Proof.Machine.execRekeyDone slot s
  | .dramCommandSlot tier ch now ready => Sys2Proof.Machine.execDramCommandSlot tier ch now ready s
  | .dramReadData id edcFails bad => Sys2Proof.Machine.execDramReadData id edcFails bad s
  | .rowRemapCopyDone ch entry => Sys2Proof.Machine.execRowRemapCopyDone ch entry s
  | .edcWriteFail ch fails => Sys2Proof.Machine.execEdcWriteFail ch fails s
  | .channelRetrainDone tier ch ok => Sys2Proof.Machine.execChannelRetrainDone tier ch ok s
  | .pmicPowerFault d => Sys2Proof.Machine.execPmicPowerFault d s
  | .pmicStatusPoll status warn => Sys2Proof.Machine.execPmicStatusPoll status warn s
  | .temperaturePoll tier readings => Sys2Proof.Machine.execTemperaturePoll tier readings s
  | .refreshDue tier ch rank => Sys2Proof.Machine.execRefreshDue tier ch rank s
  | .periodicTrainingDue tier ch recentre => Sys2Proof.Machine.execPeriodicTrainingDue tier ch recentre s
  | .memoryTrainingDone result => Sys2Proof.Machine.execMemoryTrainingDone result s
  | .dimmFullTrainingDone passed => Sys2Proof.Machine.execDimmFullTrainingDone passed s
  | .selfRefreshBulkCommit => Sys2Proof.Machine.execSelfRefreshBulkCommit s
  | .selfRefreshNearCommit => Sys2Proof.Machine.execSelfRefreshNearCommit s
  | .selfRefreshExitDone tier => Sys2Proof.Machine.execSelfRefreshExitDone tier s
  | .evacuationMove => Sys2Proof.Machine.execEvacuationMove s
  | .scrubAllowance => Sys2Proof.Machine.execScrubAllowance s
  | .scrubUnit tier found => Sys2Proof.Machine.execScrubUnit tier found s
  | .retentionSweepStep => Sys2Proof.Machine.execRetentionSweepStep s
  | .linkTrained port width rate flit cxl => Sys2Proof.Machine.execLinkTrained port width rate flit cxl s
  | .portReset port => Sys2Proof.Machine.execPortReset port s
  | .functionReset h l memClr => Sys2Proof.Machine.execFunctionReset h l memClr s
  | .memclrDone h l => Sys2Proof.Machine.execMemclrDone h l s
  | .hostViral port => Sys2Proof.Machine.execHostViral port s
  | .doorbellWrite h l q value be => Sys2Proof.Machine.execDoorbellWrite h l q value be s
  | .doorbellRead h l q tag => Sys2Proof.Machine.execDoorbellRead h l q tag s
  | .fireflyWindowRead h l off tag => Sys2Proof.Machine.execFireflyWindowRead h l off tag s
  | .getInfo src payload => Sys2Proof.Machine.execGetInfo src payload s
  | .regionCreate src payload => Sys2Proof.Machine.execRegionCreate src payload s
  | .regionDelete src payload => Sys2Proof.Machine.execRegionDelete src payload s
  | .regionDeleteDone slot => Sys2Proof.Machine.execRegionDeleteDone slot s
  | .regionSet src payload => Sys2Proof.Machine.execRegionSet src payload s
  | .regionGrant src payload => Sys2Proof.Machine.execRegionGrant src payload s
  | .regionQuery src payload => Sys2Proof.Machine.execRegionQuery src payload s
  | .setKeyMode src payload => Sys2Proof.Machine.execSetKeyMode src payload s
  | .loadWrapKey src payload => Sys2Proof.Machine.execLoadWrapKey src payload s
  | .loadKeySlot src payload => Sys2Proof.Machine.execLoadKeySlot src payload s
  | .clearKeySlot src payload => Sys2Proof.Machine.execClearKeySlot src payload s
  | .rekeyRegion src payload => Sys2Proof.Machine.execRekeyRegion src payload s
  | .setPowerState src payload => Sys2Proof.Machine.execSetPowerState src payload s
  | .getPowerState src payload => Sys2Proof.Machine.execGetPowerState src payload s
  | .setRetainSets src payload => Sys2Proof.Machine.execSetRetainSets src payload s
  | .setSpareSet src payload => Sys2Proof.Machine.execSetSpareSet src payload s
  | .evacuateSet src payload => Sys2Proof.Machine.execEvacuateSet src payload s
  | .clearRetention src payload => Sys2Proof.Machine.execClearRetention src payload s
  | .getSpd src payload => Sys2Proof.Machine.execGetSpd src payload s
  | .getErrorLog src payload => Sys2Proof.Machine.execGetErrorLog src payload s
  | .clearErrorLog src payload => Sys2Proof.Machine.execClearErrorLog src payload s
  | .headConfig src payload => Sys2Proof.Machine.execHeadConfig src payload s
  | .setHold src payload => Sys2Proof.Machine.execSetHold src payload s
  | .queueSet src payload => Sys2Proof.Machine.execQueueSet src payload s
  | .queueDisable src payload => Sys2Proof.Machine.execQueueDisable src payload s
  | .queueQuery src payload => Sys2Proof.Machine.execQueueQuery src payload s
  | .getPoisonList h l start limit => Sys2Proof.Machine.execGetPoisonList h l start limit s
  | .injectPoison h l dpa => Sys2Proof.Machine.execInjectPoison h l dpa s
  | .clearPoison h l dpa data => Sys2Proof.Machine.execClearPoison h l dpa data s
  | .getEventRecords h l log => Sys2Proof.Machine.execGetEventRecords h l log s
  | .clearEventRecords h l log count => Sys2Proof.Machine.execClearEventRecords h l log count s
  | .getEventInterruptPolicy h l => Sys2Proof.Machine.execGetEventInterruptPolicy h l s
  | .setEventInterruptPolicy h l on => Sys2Proof.Machine.execSetEventInterruptPolicy h l on s
  | .getTimestamp h l => Sys2Proof.Machine.execGetTimestamp h l s
  | .setTimestamp h l value => Sys2Proof.Machine.execSetTimestamp h l value s
  | .identifyMemoryDevice h l => Sys2Proof.Machine.execIdentifyMemoryDevice h l s
  | .getFwInfo h l => Sys2Proof.Machine.execGetFwInfo h l s
  | .transferFw h l fwSlot offset data last => Sys2Proof.Machine.execTransferFw h l fwSlot offset data last s
  | .transferFwDone readErr => Sys2Proof.Machine.execTransferFwDone readErr s
  | .activateFw h l fwSlot online => Sys2Proof.Machine.execActivateFw h l fwSlot online s
  | .dcAddAccept h l slot grant => Sys2Proof.Machine.execDcAddAccept h l slot grant s
  | .dcAddRefuse h l slot => Sys2Proof.Machine.execDcAddRefuse h l slot s
  | .dcRelease h l slot => Sys2Proof.Machine.execDcRelease h l slot s
  | .ideKmMessage port msg => Sys2Proof.Machine.execIdeKmMessage port msg s
  | .spdmMessage h l msg => Sys2Proof.Machine.execSpdmMessage h l msg s
  | .spdmSecuredAvsar h l sid opcode payload => Sys2Proof.Machine.execSpdmSecuredAvsar h l sid opcode payload s
  | .birspi h line => Sys2Proof.Machine.execBirspi h line s
  | .birsps h line => Sys2Proof.Machine.execBirsps h line s
  | .birspe h line => Sys2Proof.Machine.execBirspe h line s
  | .biconflict h line => Sys2Proof.Machine.execBiconflict h line s
  | .biTimeout h => Sys2Proof.Machine.execBiTimeout h s
  | .dirSweepDone n => Sys2Proof.Machine.execDirSweepDone n s
  | .gateTick => Sys2Proof.Machine.execGateTick s
  | .minwinEnd c => Sys2Proof.Machine.execMinwinEnd c s
  | .gclSwap => Sys2Proof.Machine.execGclSwap s
  | .gclSwapRequest path => Sys2Proof.Machine.execGclSwapRequest path s
  | .monitorWindowEnd => Sys2Proof.Machine.execMonitorWindowEnd s
  | .floorRecompute => Sys2Proof.Machine.execFloorRecompute s
  | .descriptorFetch q => Sys2Proof.Machine.execDescriptorFetch q s
  | .nop jid => Sys2Proof.Machine.execNop jid s
  | .fence jid => Sys2Proof.Machine.execFence jid s
  | .copy jid => Sys2Proof.Machine.execCopy jid s
  | .fill jid => Sys2Proof.Machine.execFill jid s
  | .zero jid => Sys2Proof.Machine.execZero jid s
  | .compress jid => Sys2Proof.Machine.execCompress jid s
  | .decompress jid => Sys2Proof.Machine.execDecompress jid s
  | .checksum jid => Sys2Proof.Machine.execChecksum jid s
  | .promote jid => Sys2Proof.Machine.execPromote jid s
  | .demote jid => Sys2Proof.Machine.execDemote jid s
  | .pin jid => Sys2Proof.Machine.execPin jid s
  | .unpin jid => Sys2Proof.Machine.execUnpin jid s
  | .retire jid => Sys2Proof.Machine.execRetire jid s
  | .rekey jid => Sys2Proof.Machine.execRekey jid s
  | .scrubRange jid => Sys2Proof.Machine.execScrubRange jid s
  | .jobPartDone jid found pipes => Sys2Proof.Machine.execJobPartDone jid found pipes s
  | .coalTimeExpiry q => Sys2Proof.Machine.execCoalTimeExpiry q s
  | .clDownTimer p => Sys2Proof.Machine.execClDownTimer p s
  | .clDetect p lanes => Sys2Proof.Machine.execClDetect p lanes s
  | .clTrainLock p lanes peerWidth => Sys2Proof.Machine.execClTrainLock p lanes peerWidth s
  | .clFlitLock p => Sys2Proof.Machine.execClFlitLock p s
  | .clStateTimeout p => Sys2Proof.Machine.execClStateTimeout p s
  | .clLockLoss p => Sys2Proof.Machine.execClLockLoss p s
  | .clLinkDown p => Sys2Proof.Machine.execClLinkDown p s
  | .clRetrainDone p lanes peerWidth => Sys2Proof.Machine.execClRetrainDone p lanes peerWidth s
  | .clRetrain path p => Sys2Proof.Machine.execClRetrain path p s
  | .clMark path p lanes => Sys2Proof.Machine.execClMark path p lanes s
  | .clPortEnable path p on => Sys2Proof.Machine.execClPortEnable path p on s
  | .dataFlit p bytes => Sys2Proof.Machine.execDataFlit p bytes s
  | .idle p lsb => Sys2Proof.Machine.execIdle p lsb s
  | .init p lsb body => Sys2Proof.Machine.execInit p lsb body s
  | .nak p lsb seq => Sys2Proof.Machine.execNak p lsb seq s
  | .replay p lsb seq => Sys2Proof.Machine.execReplay p lsb seq s
  | .ring p lsb reports round => Sys2Proof.Machine.execRing p lsb reports round s
  | .token p lsb body => Sys2Proof.Machine.execToken p lsb body s
  | .assign p lsb body => Sys2Proof.Machine.execAssign p lsb body s
  | .replayTimerExpiry p => Sys2Proof.Machine.execReplayTimerExpiry p s
  | .controlFlitDue p => Sys2Proof.Machine.execControlFlitDue p s
  | .initResend p => Sys2Proof.Machine.execInitResend p s
  | .ringPeriodic => Sys2Proof.Machine.execRingPeriodic s
  | .rd p msg => Sys2Proof.Machine.execRd p msg s
  | .wr p msg data => Sys2Proof.Machine.execWr p msg data s
  | .wrp p msg data be => Sys2Proof.Machine.execWrp p msg data be s
  | .sync p src token => Sys2Proof.Machine.execSync p src token s
  | .rdRsp p src tag status poison data => Sys2Proof.Machine.execRdRsp p src tag status poison data s
  | .wrRsp p src tag status seq => Sys2Proof.Machine.execWrRsp p src tag status seq s
  | .syncAck p src base => Sys2Proof.Machine.execSyncAck p src base s
  | .farWriteApplied src seq => Sys2Proof.Machine.execFarWriteApplied src seq s
  | .e2eTimeout id sync => Sys2Proof.Machine.execE2eTimeout id sync s
  | .farLimitExpiry id => Sys2Proof.Machine.execFarLimitExpiry id s
  | .discoveryRound => Sys2Proof.Machine.execDiscoveryRound s
  | .assignTimeout => Sys2Proof.Machine.execAssignTimeout s
  | .heartbeatCheck beats => Sys2Proof.Machine.execHeartbeatCheck beats s
  | .coreRoleMoveDone core => Sys2Proof.Machine.execCoreRoleMoveDone core s
  | .bootCoreAliveTimeout => Sys2Proof.Machine.execBootCoreAliveTimeout s
  | .bootRom => Sys2Proof.Machine.execBootRom s
  | .flashCopyChecked copy readErr => Sys2Proof.Machine.execFlashCopyChecked copy readErr s
  | .memActive => Sys2Proof.Machine.execMemActive s
  | .kick path => Sys2Proof.Machine.execKick path s
  | .wdtHalfTimeout => Sys2Proof.Machine.execWdtHalfTimeout s
  | .wdtTimeout => Sys2Proof.Machine.execWdtTimeout s
  | .eventTick => Sys2Proof.Machine.execEventTick s
  | .evtLdTest path h l => Sys2Proof.Machine.execEvtLdTest path h l s
  | .evtFmTest path => Sys2Proof.Machine.execEvtFmTest path s
  | .now path => Sys2Proof.Machine.execNow path s
  | .aonEntryStart pendingEvent => Sys2Proof.Machine.execAonEntryStart pendingEvent s
  | .p2EntryComplete => Sys2Proof.Machine.execP2EntryComplete s
  | .flushDone => Sys2Proof.Machine.execFlushDone s
  | .p3PowerDown => Sys2Proof.Machine.execP3PowerDown s
  | .wakeEvent code => Sys2Proof.Machine.execWakeEvent code s
  | .p2EntryRetry => Sys2Proof.Machine.execP2EntryRetry s
  | .cricketMatch addr => Sys2Proof.Machine.execCricketMatch addr s
  | .wakeN => Sys2Proof.Machine.execWakeN s
  | .epochAlarm => Sys2Proof.Machine.execEpochAlarm s
  | .p1ExitDone => Sys2Proof.Machine.execP1ExitDone s
  | .p2ExitDone => Sys2Proof.Machine.execP2ExitDone s
  | .resumeAreaCheck uncorrectable => Sys2Proof.Machine.execResumeAreaCheck uncorrectable s
  | .canaryCheck bad corrected serials => Sys2Proof.Machine.execCanaryCheck bad corrected serials s
  | .p3ExitDone lsTicks switched => Sys2Proof.Machine.execP3ExitDone lsTicks switched s
  | .powerOnReset => Sys2Proof.Machine.execPowerOnReset s
  | .coldCmd path => Sys2Proof.Machine.execColdCmd path s
  | .warmReq path => Sys2Proof.Machine.execWarmReq path s
  | .resetNLow low => Sys2Proof.Machine.execResetNLow low s
  | .quiesceDone => Sys2Proof.Machine.execQuiesceDone s
  | .quiesceTimeout => Sys2Proof.Machine.execQuiesceTimeout s
  | .resetRelease => Sys2Proof.Machine.execResetRelease s
  | .blkRstReq path block => Sys2Proof.Machine.execBlkRstReq path block s
  | .blockResetEnd block => Sys2Proof.Machine.execBlockResetEnd block s
  | .fuseLoadDone rows fuses trngFails => Sys2Proof.Machine.execFuseLoadDone rows fuses trngFails s
  | .xtalQualified straps => Sys2Proof.Machine.execXtalQualified straps s
  | .lsclkSwitch toRc => Sys2Proof.Machine.execLsclkSwitch toRc s
  | .pllLockLoss pll => Sys2Proof.Machine.execPllLockLoss pll s
  | .pllRelockRetry pll locked => Sys2Proof.Machine.execPllRelockRetry pll locked s
  | .pllQualified pll => Sys2Proof.Machine.execPllQualified pll s
  | .supplyGroupEnable g => Sys2Proof.Machine.execSupplyGroupEnable g s
  | .supplyRiseTimeout k => Sys2Proof.Machine.execSupplyRiseTimeout k s
  | .supplyWarn k => Sys2Proof.Machine.execSupplyWarn k s
  | .supplyRecovered k => Sys2Proof.Machine.execSupplyRecovered k s
  | .brownThrottleLift => Sys2Proof.Machine.execBrownThrottleLift s
  | .supplyResetCrossing k => Sys2Proof.Machine.execSupplyResetCrossing k s
  | .thermalThrottle tj => Sys2Proof.Machine.execThermalThrottle tj s
  | .thermalThrottleLift => Sys2Proof.Machine.execThermalThrottleLift s
  | .thermalShutdown => Sys2Proof.Machine.execThermalShutdown s
  | .d2dLinkLost k => Sys2Proof.Machine.execD2dLinkLost k s
  | .ftimePulse t => Sys2Proof.Machine.execFtimePulse t s
  | .ftimePulseMissed => Sys2Proof.Machine.execFtimePulseMissed s
  | .xtalBoundary => Sys2Proof.Machine.execXtalBoundary s
  | .epochLoad path value => Sys2Proof.Machine.execEpochLoad path value s
  | .lsCalibration ratio => Sys2Proof.Machine.execLsCalibration ratio s
  | .read32 req pec => Sys2Proof.Machine.execRead32 req pec s
  | .read64 req pec => Sys2Proof.Machine.execRead64 req pec s
  | .write32 req pec => Sys2Proof.Machine.execWrite32 req pec s
  | .write64 req pec => Sys2Proof.Machine.execWrite64 req pec s
  | .registerWrite path addr width value => Sys2Proof.Machine.execRegisterWrite path addr width value s
  | .registerReadClear path addr width => Sys2Proof.Machine.execRegisterReadClear path addr width s
  | .lock path block => Sys2Proof.Machine.execLock path block s
  | .aesKeyParityError p => Sys2Proof.Machine.execAesKeyParityError p s
  | .scarabEngineFault e => Sys2Proof.Machine.execScarabEngineFault e s
  | .coreSramError core uncorrectable => Sys2Proof.Machine.execCoreSramError core uncorrectable s
  | .chainLowPowerSubstate p => Sys2Proof.Machine.execChainLowPowerSubstate p s
  | .ideIntegrityFailure stream => Sys2Proof.Machine.execIdeIntegrityFailure stream s
  | .jtagInstruction ir => Sys2Proof.Machine.execJtagInstruction ir s
  | .d2dTransferReplay k failures => Sys2Proof.Machine.execD2dTransferReplay k failures s

end Sys2Proof.Machine
end

