-- ==== Sys2Proof/Safety.lean ====
section
/-!
DEFINITION. Safety.lean: the terms that the statements use: what a command leaves as it was (Frame), and the canonical
form that every step keeps (Canonical).
-/
namespace Sys2Proof.Safety
open Sys2Proof.Machine

/-! ## Frames -/

/-- The parts of the state beside the register fields. -/
inductive Part where
  | pending | out | draw | fuses | straps | evt | tmu | near | bulk | cry | scr | ras | adm | dir | clx | job | ctl | mem
  | hlx | cdc | aon
  deriving DecidableEq, Repr

/-- A part is the same in two states. -/
def Part.same (s t : State) : Part → Prop
  | .pending => t.pending = s.pending
  | .out => t.out = s.out
  | .draw => t.draw = s.draw
  | .fuses => t.fuses = s.fuses
  | .straps => t.straps = s.straps
  | .evt => t.evt = s.evt
  | .tmu => t.tmu = s.tmu
  | .near => t.near = s.near
  | .bulk => t.bulk = s.bulk
  | .cry => t.cry = s.cry
  | .scr => t.scr = s.scr
  | .ras => t.ras = s.ras
  | .adm => t.adm = s.adm
  | .dir => t.dir = s.dir
  | .clx => t.clx = s.clx
  | .job => t.job = s.job
  | .ctl => t.ctl = s.ctl
  | .mem => t.mem = s.mem
  | .hlx => t.hlx = s.hlx
  | .cdc => t.cdc = s.cdc
  | .aon => t.aon = s.aon

/-- A register key lies in block b (R535: 1 MiB for each block ID from 0x100000 on). -/
abbrev InBlock (b key : Nat) : Prop := 0x100000 + b * 0x100000 ≤ key / 64 ∧ key / 64 < 0x200000 + b * 0x100000

/-- The keys of single-instance fields. -/
def keysOf (fs : List Fld) : List Nat := fs.map (fun f => f.key 0 0)

/-- The frame of a command: of the parts of the state only those listed may differ, and of the register fields only
those whose key is in touched and the PMU's, which count and report what others do (R472, R473). The queue of commands
is always the same. -/
def Frame (parts : List Part) (touched : Nat → Prop) (s t : State) : Prop :=
  (∀ p, p ∉ parts → p.same s t) ∧
    ∀ key, ¬ touched key → ¬ InBlock 14 key → mget t.regs key = mget s.regs key

/-! ## Answers of a mailbox -/

/-- The vector that a mailbox sends its interrupt on (R296): an LD's, while its port is up. -/
def mboxVec (s : State) : MboxSrc → Option (Nat × Nat × Nat)
  | .ld h l => if s.headUp h then some (h, l, s.rd F.HLX_HEAD_VEC_MBOX_VEC (hl h l)) else none
  | _ => none

/-- The interrupt of a mailbox that has answered leaves, unless its vector is masked. -/
def notice (s : State) (src : MboxSrc) : List Out :=
  match mboxVec s src with
  | some (h, l, v) => if (s.msixEnt h l v).masked then [] else [.msix h l v (s.msixEnt h l v).addr (s.msixEnt h l v).data]
  | none => []

/-- A masked vector keeps it pending (R534). -/
def noticed (s : State) (src : MboxSrc) (x : Hlx) : Hlx :=
  match mboxVec s src with
  | some (h, l, v) => if (s.msixEnt h l v).masked then { x with msixPend := ninsert x.msixPend (msixKey h l v) } else x
  | none => x

/-- Between two states the mailbox of src has answered a command, and sent or kept its interrupt. -/
abbrev Answered (s t : State) (src : MboxSrc) (opcode rc : Nat) (payload : List Byte) : Prop :=
  t.out = s.out ++ Out.mbox src opcode rc payload :: notice t src ∧ t.hlx = noticed t src s.hlx

/-! ## The canonical form -/

/-- The sparse maps are in canonical form: the listed register fields rise strictly by key and fit their register, and the
byte memories of both tiers and of the flash list rising addresses and no byte that an unlisted address reads as; the
chain has its two ports. -/
def Canonical (s : State) : Prop :=
  mwf s.regs = true ∧ (∀ e ∈ s.regs, e.2 < 2 ^ 64) ∧ memWf 0 s.near.mem = true ∧ memWf 0 s.bulk.mem = true ∧
    memWf 0xff s.ctl.flash = true ∧ s.clx.ports.length = 2

end Sys2Proof.Safety
end

