-- ==== Sys2Proof/Certificates/Slice0/Obligations.lean ====
section
/-!
DEFINITION. Certificates/Slice0/Obligations.lean: the statements for the provers. A statement about commands says of each
that exec answers a next state under hypotheses on the state and the operands alone, what that state holds, and the
command's frame.
-/
open Sys2Proof Sys2Proof.Machine Sys2Proof.Safety

/-- A step on a queue that holds a command is that command on the state with the rest of the queue. The queue is the
model's own field (log entries 3, 98). -/
def Obligations.StepRunsFront : Prop :=
  ∀ (c : Sys2Proof.Instr) (rest : List Sys2Proof.Instr) (s : State),
    step { s with pending := c :: rest } = exec c { s with pending := rest }

/-- The power-up sequence (R565, R566, R567, R519, R501): groups rise in order, a supply that does not rise lowers all of
them, a PLL qualifies, and RESET_N is released when every condition of R501 holds.
Where it rests on the model's choices: log entries 4, 68. -/
def Obligations.SupplyEnables : Prop :=
  (∀ (s : State) (g : Nat),
     s.aon.held = true → s.aon.loaded = true → s.aon.off = 0 → g = s.aon.groups + 1 → g ≤ 4 →
     ∃ t,
       exec (.supplyGroupEnable g) s = .next t ∧ t.aon.groups = g ∧
       t.out = s.out ++ [.enables [decide (1 ≤ g), decide (2 ≤ g), decide (2 ≤ g), decide (3 ≤ g), decide (4 ≤ g), decide (4 ≤ g), decide (4 ≤ g), decide (3 ≤ g)]] ∧
       Frame [.aon, .out] (fun _ => False) s t) ∧
  (∀ (s : State) (i : Nat),
     s.aon.off = 0 → 2 ≤ i → i < 10 → supplyGroup i ≤ s.aon.groups → s.aon.passed.testBit i = false →
     ∃ t,
       exec (.supplyRiseTimeout i) s = .next t ∧ t.aon.groups = 0 ∧ t.aon.held = true ∧
       (t.rd F.AON_SUP_STS_WARN).testBit i = true ∧
       t.out = s.out ++ [.enables (List.replicate 8 false), .resetN true, .alertN true] ∧
       Frame [.aon, .out] (fun key => key = F.AON_SUP_STS_WARN.key 0 0) s t) ∧
  (∀ (s : State) (pll : Nat),
     s.aon.off = 0 → s.aon.groups = 4 → pll < 10 →
     ∃ t,
       exec (.pllQualified pll) s = .next t ∧ (t.rd F.AON_CLK_STS_LOCK).testBit pll = true ∧
       t.aon.pllOk.testBit pll = true ∧ Frame [.aon] (fun key => key = F.AON_CLK_STS_LOCK.key 0 0) s t) ∧
  (∀ (s : State) (pll : Nat),
     s.aon.pllOk.testBit pll = false → pll < 10 →
     ∃ t,
       exec (.pllRelockRetry pll true) s = .next t ∧ (t.rd F.AON_CLK_STS_LOCK).testBit pll = true ∧
       Frame [] (fun key => key = F.AON_CLK_STS_LOCK.key 0 0) s t) ∧
  (∀ (s : State),
     s.aon.held = true → s.aon.extLow = false → s.aon.loaded = true → s.rd F.AON_CLK_STS_XTAL_OK = 1 →
     s.aon.groups = 4 → s.aon.off = 0 → s.aon.pllOk.testBit 0 = true → s.aon.pllOk.testBit 1 = true →
     ∃ t,
       exec (.resetRelease) s = .next t ∧ t.aon.held = false ∧ t.out = s.out ++ [.resetN false] ∧
       Frame [.aon, .out] (fun _ => False) s t)

/-- Brown throttle (R360, R515, R573): what starts it, what ends it, and the sleep counter's source (R521).
Where it rests on the model's choices: log entries 51, 68, 125. -/
def Obligations.BrownThrottle : Prop :=
  (∀ (s : State) (i : Nat),
     i < 10 → s.masked i = false → s.aon.off = 0 → s.aon.entry.stage = 0 → s.rd F.AON_SUP_CNT_WARNS + 1 < 2 ^ 32 →
     ∃ t,
       exec (.supplyWarn i) s = .next t ∧ (t.rd F.AON_SUP_STS_WARN).testBit i = true ∧
       t.rd F.AON_SUP_CNT_WARNS = s.rd F.AON_SUP_CNT_WARNS + 1 ∧ (t.rd (F.EVT_RAW_CAUSE 0) 2).testBit 0 = true ∧
       t.aon.brownSupply = true ∧ t.rd F.ADM_BROWN_ACTIVE = 1 ∧ t.adm.recompute = true ∧
       (Frame [.evt, .aon, .adm] (fun key => key = F.AON_SUP_STS_WARN.key 0 0 ∨ key = F.AON_SUP_CNT_WARNS.key 0 0 ∨ key = F.ADM_BROWN_ACTIVE.key 0 0 ∨ key = (F.EVT_RAW_CAUSE 0).key 2 0) s t)) ∧
  (∀ (s : State) (i : Nat),
     i < 10 → s.aon.off = 0 → s.rd F.AON_SUP_STS_WARN = 2 ^ i →
     ∃ t,
       exec (.supplyRecovered i) s = .next t ∧ t.rd F.AON_SUP_STS_WARN = 0 ∧ t.aon.liftDue = s.aon.brownSupply ∧
       Frame [.aon] (fun key => key = F.AON_SUP_STS_WARN.key 0 0) s t) ∧
  (∀ (s : State),
     s.aon.liftDue = true →
     ∃ t,
       exec (.brownThrottleLift) s = .next t ∧ t.aon.brownSupply = false ∧ t.aon.liftDue = false ∧
       t.adm.recompute = true ∧ (s.aon.brownThermal = false → t.rd F.ADM_BROWN_ACTIVE = 0) ∧
       Frame [.aon, .adm] (fun key => key = F.ADM_BROWN_ACTIVE.key 0 0) s t) ∧
  (∀ (s : State) (tj : Nat),
     105 ≤ tj → tj < 256 → s.aon.off = 0 → s.aon.entry.stage = 0 → s.aon.brownThermal = false →
     ∃ t,
       exec (.thermalThrottle tj) s = .next t ∧ t.rd F.AON_THERM_TJ = tj ∧ t.aon.brownThermal = true ∧
       (t.rd (F.EVT_RAW_CAUSE 0) 2).testBit 1 = true ∧ t.rd F.ADM_BROWN_ACTIVE = 1 ∧ t.adm.recompute = true ∧
       (Frame [.evt, .aon, .adm] (fun key => key = F.AON_THERM_TJ.key 0 0 ∨ key = F.ADM_BROWN_ACTIVE.key 0 0 ∨ key = (F.EVT_RAW_CAUSE 0).key 2 0) s t)) ∧
  (∀ (s : State),
     s.aon.brownThermal = true →
     ∃ t,
       exec (.thermalThrottleLift) s = .next t ∧ t.aon.brownThermal = false ∧ t.adm.recompute = true ∧
       (s.aon.brownSupply = false → t.rd F.ADM_BROWN_ACTIVE = 0) ∧
       Frame [.aon, .adm] (fun key => key = F.ADM_BROWN_ACTIVE.key 0 0) s t) ∧
  (∀ (s : State) (toRc : Bool),
     s.rdb F.AON_CLK_STS_LS_RC ≠ toRc → s.rd F.AON_CLK_STS_XTAL_OK = 1 →
     ∃ t,
       exec (.lsclkSwitch toRc) s = .next t ∧ t.rdb F.AON_CLK_STS_LS_RC = toRc ∧
       (t.rd (F.EVT_RAW_CAUSE 0) 2).testBit 4 = true ∧
       (Frame [.evt] (fun key => key = F.AON_CLK_STS_LS_RC.key 0 0 ∨ key = (F.EVT_RAW_CAUSE 0).key 2 0) s t))

/-- Thermal shutdown (R508, R574), the qualified crystal with the straps (R521, R558), JTAG (R561; the numbering of the
three permitted instructions is the model's, log entry 17).
Where it rests on the model's choices: log entries 1, 68. -/
def Obligations.OffAndIdentity : Prop :=
  (∀ (s : State),
     s.aon.off = 0 →
     ∃ t,
       exec (.thermalShutdown) s = .next t ∧ t.aon.off = 2 ∧ t.rd F.AON_RST_CAUSE_CAUSE = 7 ∧ t.cry.root = none ∧
       t.cry.slotKeys = [] ∧ t.near.mem = [] ∧ t.bulk.mem = [] ∧ t.aon.brownThermal = true ∧ t.straps = s.straps ∧
       t.pending = s.pending ∧ t.out = s.out ++ [.alertN true, .resetN true, .enables (List.replicate 8 false)]) ∧
  (∀ (s : State) (straps : Straps),
     s.rd F.AON_CLK_STS_XTAL_OK = 0 → s.aon.off = 0 → s.aon.strapped = false →
     ∃ t,
       exec (.xtalQualified straps) s = .next t ∧ t.rd F.AON_CLK_STS_XTAL_OK = 1 ∧ t.straps = straps ∧
       t.aon.strapped = true ∧ t.aon.loading = true ∧ t.rd F.HLX_BIFUR_MERGE = straps.bifur.toNat ∧
       t.rd F.HLX_BIFUR_MERGE_ACT = straps.bifur.toNat ∧
       (∀ p < 8, t.rd F.HLX_PORT_CTL_REFMODE p = min 2 straps.refmode0) ∧
       (∀ p < 8, t.rd F.HLX_PORT_CTL_REFMODE (p + 8) = min 2 straps.refmode1) ∧
       t.rdb F.CLX_ID_HEAD = straps.chainHead ∧ t.out = s.out ++ [Out.alertN false] ∧
       (Frame [.out, .straps, .aon] (fun key => (∃ p < 16, key = F.HLX_PORT_CTL_REFMODE.key p 0) ∨ key = F.AON_CLK_STS_XTAL_OK.key 0 0 ∨ key = F.HLX_BIFUR_MERGE.key 0 0 ∨ key = F.HLX_BIFUR_MERGE_ACT.key 0 0 ∨ key = F.CLX_ID_HEAD.key 0 0) s t)) ∧
  (∀ (s : State) (ir : Nat),
     2 < ir →
     ∃ t,
       exec (.jtagInstruction ir) s = .next t ∧ t.aon.jtag = (if s.aon.extLow then ir else 0) ∧
       Frame [.aon] (fun _ => False) s t) ∧
  (∀ (s : State) (ir : Nat),
     ir ≤ 2 →
     ∃ t,
       exec (.jtagInstruction ir) s = .next t ∧ t.aon.jtag = ir ∧ Frame [.aon] (fun _ => False) s t)

/-- Fabric time (R522 to R525, R527) and the epoch alarm (R498).
Where it rests on the model's choices: log entry 53. -/
def Obligations.Timebase : Prop :=
  (∀ (s : State) (p : Nat),
     s.rd F.AON_CLK_STS_XTAL_OK = 1 → s.rd F.AON_PWR_MODE_CUR < 3 → s.aon.off = 0 →
     (s.rd F.AON_EPOCH_QUALITY = 1 ∨ s.rd F.AON_EPOCH_QUALITY = 2) → s.rd F.AON_EPOCH_LOAD_ARM = 0 →
     s.rd F.AON_TIME_CFG_PERIOD = s.aon.time.period →
     ∃ t,
       exec (.ftimePulse p) s = .next t ∧
       t.rd F.AON_EPOCH_EPOCH = (s.rd F.AON_EPOCH_EPOCH + (p + s.aon.time.period * 1000 / 2) / (s.aon.time.period * 1000)) % 2 ^ 48 ∧
       t.rd F.AON_EPOCH_PHASE = 0 ∧ t.rd F.AON_EPOCH_QUALITY = 0 ∧ (t.rd (F.EVT_RAW_CAUSE 0) 3).testBit 0 = true ∧
       (Frame [.evt, .aon] (fun key => key = F.AON_EPOCH_EPOCH.key 0 0 ∨ key = F.AON_EPOCH_PHASE.key 0 0 ∨ key = F.AON_EPOCH_QUALITY.key 0 0 ∨ key = (F.EVT_RAW_CAUSE 0).key 3 0) s t)) ∧
  (∀ (s : State) (p : Nat),
     s.rd F.AON_CLK_STS_XTAL_OK = 1 → s.rd F.AON_PWR_MODE_CUR < 3 → s.aon.off = 0 → s.rd F.AON_EPOCH_QUALITY = 0 →
     s.aon.time.windowOpen = false → s.aon.time.offs = [] → p + s.rd F.AON_TIME_CFG_WIN < s.aon.time.period * 1000 →
     s.rd F.AON_TIME_STS_OFFWIN + 1 < 2 ^ 32 →
     ∃ t,
       exec (.ftimePulse p) s = .next t ∧ t.rd F.AON_TIME_STS_OFFWIN = s.rd F.AON_TIME_STS_OFFWIN + 1 ∧
       t.rd F.AON_EPOCH_QUALITY = 0 ∧ Frame [.evt, .aon] (fun key => key = F.AON_TIME_STS_OFFWIN.key 0 0) s t) ∧
  (∀ (s : State),
     s.rd F.AON_CLK_STS_XTAL_OK = 1 → s.rd F.AON_PWR_MODE_CUR < 3 → s.aon.off = 0 → s.rd F.AON_EPOCH_QUALITY = 0 →
     s.aon.time.windowOpen = true → s.rd F.AON_EPOCH_LOAD_ARM = 0 →
     ∃ t,
       exec (.ftimePulseMissed) s = .next t ∧ t.rd F.AON_EPOCH_QUALITY = 1 ∧
       (t.rd (F.EVT_RAW_CAUSE 0) 3).testBit 0 = true ∧ t.aon.time.windowOpen = false ∧
       (Frame [.evt, .aon] (fun key => key = F.AON_EPOCH_QUALITY.key 0 0 ∨ key = (F.EVT_RAW_CAUSE 0).key 3 0) s t)) ∧
  (∀ (s : State),
     s.rd F.AON_CLK_STS_XTAL_OK = 1 → s.rd F.AON_PWR_MODE_CUR < 3 → s.aon.off = 0 → s.rd F.AON_EPOCH_QUALITY = 1 →
     s.rd F.AON_EPOCH_LOAD_ARM = 0 → s.rd F.AON_TIME_CFG_PERIOD = s.aon.time.period →
     s.rd F.AON_TIME_CFG_HOLD_LIMIT = s.aon.time.hold + 1 →
     ∃ t,
       exec (.xtalBoundary) s = .next t ∧ t.rd F.AON_EPOCH_EPOCH = (s.rd F.AON_EPOCH_EPOCH + 1) % 2 ^ 48 ∧
       t.rd F.AON_EPOCH_PHASE = 0 ∧ t.rd F.AON_EPOCH_QUALITY = 2 ∧ (t.rd (F.EVT_RAW_CAUSE 0) 3).testBit 0 = true ∧
       (Frame [.evt, .aon] (fun key => key = F.AON_EPOCH_EPOCH.key 0 0 ∨ key = F.AON_EPOCH_PHASE.key 0 0 ∨ key = F.AON_EPOCH_QUALITY.key 0 0 ∨ key = (F.EVT_RAW_CAUSE 0).key 3 0) s t)) ∧
  (∀ (s : State),
     s.rd F.AON_CLK_STS_XTAL_OK = 1 → s.rd F.AON_PWR_MODE_CUR < 3 → s.aon.off = 0 → s.rd F.AON_EPOCH_QUALITY = 2 →
     s.rd F.AON_EPOCH_LOAD_ARM = 1 → s.rd F.AON_TIME_CFG_PERIOD = s.aon.time.period →
     ∃ t,
       exec (.xtalBoundary) s = .next t ∧ t.rd F.AON_EPOCH_EPOCH = s.rd F.AON_EPOCH_LOAD_VALUE % 2 ^ 48 ∧
       t.rd F.AON_EPOCH_PHASE = 0 ∧ t.rd F.AON_EPOCH_LOAD_ARM = 0 ∧ t.rd F.AON_TIME_STS_AMBIG = 0 ∧
       (Frame [.aon] (fun key => key = F.AON_EPOCH_EPOCH.key 0 0 ∨ key = F.AON_EPOCH_PHASE.key 0 0 ∨ key = F.AON_EPOCH_LOAD_ARM.key 0 0 ∨ key = F.AON_TIME_STS_AMBIG.key 0 0) s t)) ∧
  (∀ (s : State) (path : Path) (value : BitVec 48),
     s.reaches path 0 3 = true → s.manages path = true →
     ∃ t,
       exec (.epochLoad path value) s = .next t ∧ t.rd F.AON_EPOCH_LOAD_VALUE = value.toNat ∧
       t.rd F.AON_EPOCH_LOAD_ARM = 1 ∧
       (Frame [] (fun key => key = F.AON_EPOCH_LOAD_VALUE.key 0 0 ∨ key = F.AON_EPOCH_LOAD_ARM.key 0 0) s t)) ∧
  (∀ (s : State) (ratio : BitVec 32),
     s.rd F.AON_CLK_STS_XTAL_OK = 1 → s.rd F.AON_PWR_MODE_CUR < 3 → s.aon.off = 0 →
     ∃ t,
       exec (.lsCalibration ratio) s = .next t ∧ t.rd F.AON_LS_CAL_RATIO = ratio.toNat ∧
       Frame [] (fun key => key = F.AON_LS_CAL_RATIO.key 0 0) s t) ∧
  (∀ (s : State),
     s.aon.held = false → s.aon.off = 0 → s.rd F.AON_ALARM_EN = 1 → s.aon.entry.stage = 0 →
     0 < s.rd F.AON_ALARM_CYCLE →
     s.rd F.AON_EPOCH_EPOCH % s.rd F.AON_ALARM_CYCLE = s.rd F.AON_ALARM_EPOCH % s.rd F.AON_ALARM_CYCLE →
     s.rd F.AON_EPOCH_PHASE = s.rd F.AON_ALARM_PHASE →
     ∃ t,
       exec (.epochAlarm) s = .next t ∧ (t.rd (F.EVT_RAW_CAUSE 0) 0).testBit 0 = true ∧
       Frame [.evt] (fun key => key = (F.EVT_RAW_CAUSE 0).key 0 0) s t)

/-- Entry into P1 and P2 (R482, R483, R485, R489) with the self-refresh commits of R223.
Where it rests on the model's choices: log entries 4, 57. -/
def Obligations.PowerEntry : Prop :=
  (∀ (s : State),
     s.aon.held = false → s.aon.off = 0 → s.cry.halt = 0 → s.aon.entry.stage = 1 → s.aon.entry.wakes = [] →
     s.rd F.AON_PWR_MODE_ARM = 1 → s.rd F.AON_PWR_MODE_CUR = 0 → s.rd F.AON_PWR_MODE_TARGET = 1 →
     s.rd F.AON_PWR_CNT_P1 + 1 < 2 ^ 16 →
     ∃ t,
       exec (.aonEntryStart false) s = .next t ∧ t.rd F.AON_PWR_MODE_CUR = 1 ∧ t.rd F.AON_PWR_MODE_PHASE = 2 ∧
       t.rd F.AON_PWR_MODE_ARM = 0 ∧ t.rd F.AON_PWR_STS_OUTCOME = 0 ∧
       t.rd F.AON_PWR_CNT_P1 = s.rd F.AON_PWR_CNT_P1 + 1 ∧ t.aon.entry.stage = 4 ∧
       (t.rd (F.EVT_RAW_CAUSE 0) 0).testBit 8 = true ∧
       (Frame [.evt, .aon] (fun key => key = F.AON_PWR_MODE_CUR.key 0 0 ∨ key = F.AON_PWR_MODE_PHASE.key 0 0 ∨ key = F.AON_PWR_MODE_ARM.key 0 0 ∨ key = F.AON_PWR_STS_OUTCOME.key 0 0 ∨ key = F.AON_PWR_CNT_P1.key 0 0 ∨ key = (F.EVT_RAW_CAUSE 0).key 0 0) s t)) ∧
  (∀ (s : State),
     s.aon.held = false → s.aon.off = 0 → s.cry.halt = 0 → s.aon.entry.stage = 1 → s.rd F.AON_PWR_MODE_ARM = 1 →
     s.rd F.AON_PWR_MODE_CUR = 0 → s.rd F.AON_PWR_MODE_TARGET = 2 → s.rd F.NTC_SR_STATE = 0 →
     s.rd F.BTC_SR_STATE = 0 → s.straps.addr0 < 3 → s.straps.addr1 < 3 → s.straps.addr2 < 3 →
     ∃ t,
       exec (.aonEntryStart false) s = .next t ∧ t.rd F.AON_PWR_MODE_PHASE = 1 ∧ t.aon.entry.stage = 2 ∧
       t.rd F.AON_PWR_STS_ATTEMPTS = min (s.aon.entry.attempts + 1) 15 ∧
       t.rd F.AON_CRICKET_ADDR = 0x30 + 9 * s.straps.addr2 + 3 * s.straps.addr1 + s.straps.addr0 ∧
       t.rd F.NTC_SR_STATE = 1 ∧ t.rd F.BTC_SR_STATE = 1 ∧ t.mem.entry = 1 ∧
       (Frame [.aon, .mem] (fun key => key = F.AON_PWR_MODE_PHASE.key 0 0 ∨ key = F.AON_PWR_STS_ATTEMPTS.key 0 0 ∨ key = F.AON_CRICKET_ADDR.key 0 0 ∨ key = F.NTC_SR_STATE.key 0 0 ∨ key = F.BTC_SR_STATE.key 0 0) s t)) ∧
  (∀ (s : State),
     s.aon.held = false → s.aon.off = 0 → s.cry.halt = 0 → s.aon.entry.stage = 1 → s.rd F.AON_PWR_MODE_ARM = 1 →
     s.rd F.AON_PWR_MODE_CUR = 0 → s.rd F.NTC_SR_STATE = 0 → s.rd F.BTC_SR_STATE = 0 → s.job.held = [] →
     s.rd F.AON_PWR_CNT_ABORTS + 1 < 2 ^ 16 →
     ∃ t,
       exec (.aonEntryStart true) s = .next t ∧ t.rd F.AON_PWR_MODE_ARM = 0 ∧ t.rd F.AON_PWR_MODE_PHASE = 0 ∧
       t.rd F.AON_PWR_STS_OUTCOME = 2 ∧ t.rd F.AON_PWR_CNT_ABORTS = s.rd F.AON_PWR_CNT_ABORTS + 1 ∧
       t.aon.entry.stage = 0 ∧ (t.rd (F.EVT_RAW_CAUSE 0) 0).testBit 10 = true ∧
       (Frame [.evt, .aon, .mem, .job] (fun key => key = F.AON_PWR_MODE_ARM.key 0 0 ∨ key = F.AON_PWR_MODE_PHASE.key 0 0 ∨ key = F.AON_PWR_STS_OUTCOME.key 0 0 ∨ key = F.AON_PWR_CNT_ABORTS.key 0 0 ∨ key = F.SCR_MOV_STS_FLUSH.key 0 0 ∨ key = (F.EVT_RAW_CAUSE 0).key 0 0) s t)) ∧
  (∀ (s : State),
     s.aon.held = false → s.aon.off = 0 → s.rd F.BTC_SR_STATE = 1 → s.mem.bulkIn = false → s.mem.entry = 1 →
     s.aon.entry.stage = 2 → s.tmu.moves = [] → s.rd F.BTC_SR_ENTRIES + 1 < 2 ^ 16 →
     ∃ t,
       exec (.selfRefreshBulkCommit) s = .next t ∧ t.mem.bulkIn = true ∧ t.aon.entry.stage = 3 ∧
       t.rd F.BTC_SR_ENTRIES = s.rd F.BTC_SR_ENTRIES + 1 ∧
       (Frame [.evt, .tmu, .mem, .aon] (fun key => (∃ i < 32, key ∈ [F.BTC_SC_STS_RQ.key i 0, F.BTC_SC_STS_WQ.key i 0, F.BTC_SC_STS_DRAIN.key i 0, F.BTC_SC_STS_FB.key i 0, F.BTC_SC_REF_POSTPONED.key i 0]) ∨ key = F.BTC_SR_ENTRIES.key 0 0) s t)) ∧
  (∀ (s : State),
     s.aon.held = false → s.aon.off = 0 → s.rd F.NTC_SR_STATE = 1 → s.mem.bulkIn = true → s.mem.nearIn = false →
     s.rd F.NTC_SR_ENTRIES + 1 < 2 ^ 16 →
     ∃ t,
       exec (.selfRefreshNearCommit) s = .next t ∧ t.mem.nearIn = true ∧ t.rd F.NTC_SR_STATE = 2 ∧
       t.rd F.BTC_SR_STATE = 2 ∧ t.rd F.NTC_SR_ENTRIES = s.rd F.NTC_SR_ENTRIES + 1 ∧
       (Frame [.evt, .mem] (fun key => (∃ i < 32, key ∈ [F.NTC_CH_STS_RQ.key i 0, F.NTC_CH_STS_WQ.key i 0, F.NTC_CH_STS_DRAIN.key i 0, F.NTC_CH_STS_FB.key i 0, F.NTC_CH_REF_POSTPONED.key i 0]) ∨ key = F.NTC_SR_STATE.key 0 0 ∨ key = F.BTC_SR_STATE.key 0 0 ∨ key = F.NTC_SR_ENTRIES.key 0 0) s t)) ∧
  (∀ (s : State),
     s.aon.entry.stage = 3 → s.aon.entry.wakes = [] → s.rd F.AON_PWR_MODE_TARGET = 2 → s.rd F.NTC_SR_STATE = 2 →
     s.rd F.BTC_SR_STATE = 2 → s.rd F.AON_PWR_CNT_P2 + 1 < 2 ^ 16 →
     ∃ t,
       exec (.p2EntryComplete) s = .next t ∧ t.rd F.AON_PWR_MODE_CUR = 2 ∧ t.rd F.AON_PWR_MODE_PHASE = 2 ∧
       t.rd F.AON_PWR_MODE_ARM = 0 ∧ t.rd F.AON_PWR_CNT_P2 = s.rd F.AON_PWR_CNT_P2 + 1 ∧ t.aon.entry.stage = 4 ∧
       (Frame [.evt, .aon] (fun key => key = F.AON_PWR_MODE_CUR.key 0 0 ∨ key = F.AON_PWR_MODE_PHASE.key 0 0 ∨ key = F.AON_PWR_MODE_ARM.key 0 0 ∨ key = F.AON_PWR_STS_OUTCOME.key 0 0 ∨ key = F.AON_PWR_CNT_P2.key 0 0 ∨ key = (F.EVT_RAW_CAUSE 0).key 0 0) s t))

/-- Wakes (R484, R486, R488), the exits from P1, P2 and P4 (R487, R489, R496, R225) and the retry of R485.
Where it rests on the model's choices: log entries 4, 57. -/
def Obligations.PowerWake : Prop :=
  (∀ (s : State) (code : Nat),
     s.aon.off = 0 → s.aon.entry.stage = 4 → s.rd F.AON_PWR_MODE_CUR = 1 → code < 16 →
     s.wakes (s.rd F.AON_PWR_MODE_TARGET) code = true →
     ∃ t,
       exec (.wakeEvent code) s = .next t ∧ t.rd F.AON_PWR_STS_LAST_WAKE = code ∧ t.rd F.AON_PWR_MODE_PHASE = 3 ∧
       t.aon.entry.stage = 5 ∧
       (Frame [.aon] (fun key => key = F.AON_PWR_STS_LAST_WAKE.key 0 0 ∨ key = F.AON_PWR_MODE_PHASE.key 0 0) s t)) ∧
  (∀ (s : State) (code : Nat),
     s.aon.off = 0 → s.aon.entry.stage = 4 → s.rd F.AON_PWR_MODE_CUR = 2 → s.rd F.NTC_SR_STATE = 2 →
     s.rd F.BTC_SR_STATE = 2 → code < 16 → s.wakes (s.rd F.AON_PWR_MODE_TARGET) code = true →
     ∃ t,
       exec (.wakeEvent code) s = .next t ∧ t.rd F.AON_PWR_STS_LAST_WAKE = code ∧ t.rd F.AON_PWR_MODE_PHASE = 3 ∧
       t.aon.entry.stage = 5 ∧ t.rd F.NTC_SR_STATE = 3 ∧ t.rd F.BTC_SR_STATE = 3 ∧
       (Frame [.aon] (fun key => key = F.AON_PWR_STS_LAST_WAKE.key 0 0 ∨ key = F.AON_PWR_MODE_PHASE.key 0 0 ∨ key = F.NTC_SR_STATE.key 0 0 ∨ key = F.BTC_SR_STATE.key 0 0) s t)) ∧
  (∀ (s : State) (addr : BitVec 7),
     s.aon.off = 0 → s.aon.entry.stage = 3 → s.rd F.AON_PWR_MODE_TARGET = 2 → s.rd F.AON_PWR_CFG_CRICKET_EN = 1 →
     addr.toNat = s.rd F.AON_CRICKET_ADDR → addr ≠ 0x7e → s.rd F.AON_CRICKET_MATCHES + 1 < 2 ^ 16 →
     ∃ t,
       exec (.cricketMatch addr) s = .next t ∧ t.rd F.AON_CRICKET_MATCHES = s.rd F.AON_CRICKET_MATCHES + 1 ∧
       t.rd F.AON_PWR_STS_LAST_WAKE = 3 ∧ t.aon.entry.wakes = s.aon.entry.wakes ++ [3] ∧
       (Frame [.evt, .aon] (fun key => key = F.AON_CRICKET_MATCHES.key 0 0 ∨ key = F.AON_PWR_STS_LAST_WAKE.key 0 0) s t)) ∧
  (∀ (s : State),
     s.aon.off = 1 →
     ∃ t,
       exec (.wakeN) s = .next t ∧ t.aon.off = 0 ∧ t.aon.held = true ∧ t.aon.groups = 0 ∧
       t.rd F.AON_PWR_STS_LAST_WAKE = 4 ∧ t.rd F.AON_RST_CAUSE_CAUSE = 1 ∧ t.cry.root = none ∧ t.near.mem = [] ∧
       t.bulk.mem = [] ∧ t.ctl.flash = s.ctl.flash ∧ t.pending = s.pending) ∧
  (∀ (s : State),
     s.rd F.AON_PWR_MODE_CUR = 1 → s.aon.entry.stage = 5 →
     ∃ t,
       exec (.p1ExitDone) s = .next t ∧ t.rd F.AON_PWR_MODE_CUR = 0 ∧ t.rd F.AON_PWR_MODE_PHASE = 0 ∧
       t.aon.entry.stage = 0 ∧ (t.rd (F.EVT_RAW_CAUSE 0) 0).testBit 1 = true ∧
       (Frame [.evt, .aon] (fun key => key = F.AON_PWR_MODE_CUR.key 0 0 ∨ key = F.AON_PWR_MODE_PHASE.key 0 0 ∨ key = (F.EVT_RAW_CAUSE 0).key 0 0) s t)) ∧
  (∀ (s : State),
     s.rd F.AON_PWR_MODE_CUR = 2 → s.aon.entry.stage = 5 → s.rd F.NTC_SR_STATE = 0 → s.rd F.BTC_SR_STATE = 0 →
     s.tmu.waits = [] →
     ∃ t,
       exec (.p2ExitDone) s = .next t ∧ t.rd F.AON_PWR_MODE_CUR = 0 ∧ t.rd F.AON_PWR_MODE_PHASE = 0 ∧
       t.aon.entry.stage = 0 ∧ (t.rd (F.EVT_RAW_CAUSE 0) 0).testBit 1 = true ∧ t.tmu = s.tmu ∧ t.near = s.near ∧
       t.bulk = s.bulk ∧ t.cry = s.cry) ∧
  (∀ (s : State),
     s.aon.held = false → s.aon.off = 0 → s.rd F.NTC_SR_STATE = 3 → s.tmu.waits = [] →
     ∃ t,
       exec (.selfRefreshExitDone .near) s = .next t ∧ t.rd F.NTC_SR_STATE = 0 ∧
       (s.rd F.BTC_SR_STATE = 0 → t.mem.entry = 0) ∧ Frame [.mem] (fun key => key = F.NTC_SR_STATE.key 0 0) s t) ∧
  (∀ (s : State),
     s.aon.held = false → s.aon.off = 0 → s.rd F.BTC_SR_STATE = 3 → s.tmu.waits = [] →
     ∃ t,
       exec (.selfRefreshExitDone .bulk) s = .next t ∧ t.rd F.BTC_SR_STATE = 0 ∧
       (s.rd F.NTC_SR_STATE = 0 → t.mem.entry = 0) ∧ Frame [.mem] (fun key => key = F.BTC_SR_STATE.key 0 0) s t) ∧
  (∀ (s : State),
     s.aon.entry.retry = true → s.aon.entry.stage = 0 → s.fwRuns = true →
     ∃ t,
       exec (.p2EntryRetry) s = .next t ∧ t.aon.entry.stage = 1 ∧ t.rd F.AON_PWR_MODE_TARGET = 2 ∧
       t.rd F.AON_PWR_MODE_ARM = 1 ∧ t.aon.entry.attempts = s.aon.entry.attempts ∧
       (Frame [.aon] (fun key => key = F.AON_PWR_MODE_TARGET.key 0 0 ∨ key = F.AON_PWR_MODE_ARM.key 0 0) s t))

/-- P3 (R189, R492 to R495, R265).
Where it rests on the model's choices: log entries 16, 55, 57, 58. -/
def Obligations.DeepSleep : Prop :=
  (∀ (s : State),
     s.aon.entry.stage = 2 → s.rd F.AON_PWR_MODE_TARGET = 3 → s.rd F.SCR_MOV_STS_FLUSH = 1 → s.job.jobs = [] →
     s.near.ftes = [] → s.rd F.BTC_SR_STATE = 0 →
     ∃ t,
       exec (.flushDone) s = .next t ∧ t.rd F.SCR_MOV_STS_FLUSH = 0 ∧ (t.rd (F.EVT_RAW_CAUSE 9) 0).testBit 3 = true ∧
       t.rd F.AON_RESUME_VALID = 1 ∧ t.rd F.AON_CANARY_SEQ = (s.rd F.AON_CANARY_SEQ + 1) % 2 ^ 32 ∧
       t.aon.entry.stage = 3 ∧ t.rd F.BTC_SR_STATE = 1 ∧
       (Frame [.evt, .tmu, .bulk, .mem, .aon] (fun key => key = F.SCR_MOV_STS_FLUSH.key 0 0 ∨ key = F.AON_RESUME_VALID.key 0 0 ∨ key = F.AON_CANARY_SEQ.key 0 0 ∨ key = F.AON_CANARY_SIGNED.key 0 0 ∨ key = F.BTC_SR_STATE.key 0 0 ∨ key = (F.EVT_RAW_CAUSE 9).key 0 0) s t)) ∧
  (∀ (s : State),
     s.aon.entry.stage = 3 → s.aon.entry.wakes = [] → s.rd F.AON_PWR_MODE_TARGET = 3 → s.tmu.moves = [] →
     s.job.jobs = [] → s.clx.done = [] →
     ∃ t,
       exec (.p3PowerDown) s = .next t ∧ t.rd F.AON_PWR_MODE_CUR = 3 ∧ t.rd F.AON_PWR_MODE_PHASE = 2 ∧
       t.aon.entry.stage = 4 ∧ t.near.mem = [] ∧ t.near.ftes = [] ∧ t.bulk.mem = s.bulk.mem ∧
       t.cry.slotKeys = s.cry.slotKeys ∧ t.aon.groups = 0 ∧ t.mem.resume = s.mem.resume ∧ t.pending = s.pending) ∧
  (∀ (s : State),
     s.rd F.AON_PWR_MODE_CUR = 3 → s.aon.entry.stage = 5 → s.rd F.CTL_HEALTH_STATE = 0 → s.ctl.romRan = true →
     ∃ t,
       exec (.resumeAreaCheck true) s = .next t ∧ t.ctl.romRan = false ∧ t.rd F.AON_RESUME_RESULT = 1 ∧
       t.rd F.AON_RESUME_VALID = 0 ∧
       (Frame [.ctl] (fun key => key = F.AON_RESUME_RESULT.key 0 0 ∨ key = F.AON_RESUME_VALID.key 0 0) s t)) ∧
  (∀ (s : State),
     s.rd F.AON_PWR_MODE_CUR = 3 → s.aon.entry.stage = 5 → s.rd F.CTL_HEALTH_STATE = 0 → s.ctl.romRan = true →
     s.rd F.CTL_BOOT_COPY < 4 → s.resumeOk = true →
     ∃ t,
       exec (.resumeAreaCheck false) s = .next t ∧ t.rd F.AON_RESUME_RESULT = 0 ∧ t.ctl.alive = true ∧
       t.ctl.checking = none ∧ t.rd F.CTL_BOOT_COPY = s.rd F.CTL_BOOT_COPY ∧
       t.rd F.CTL_FW_VER_VERSION = numAt s.mem.resumeHeader 8 4 ∧
       t.rd F.CTL_FW_VER_SVN = numAt s.mem.resumeHeader 0xc 4 ∧ t.rd F.CTL_HEALTH_STATE = 2 ∧
       t.ctl.header = s.mem.resumeHeader ∧ t.ctl.wdtRuns = true ∧ t.ctl.beats = [] ∧ t.ctl.moves = [] ∧
       (∀ c < 14, s.coreState c = 1 → (t.rd F.CTL_CORE_ROLE_ROLES c).testBit c = true) ∧
       (s.cry.root ≠ none → t.cry = s.cry) ∧
       (s.cry.root = none → s.rd F.CRY_MODE_TRNG_OK = 1 → s.aon.seenActive = false → t.cry = { s.cry with root := some (Config.rootKey s.draw) }) ∧
       (Frame [.ctl, .ras, .evt, .cry, .draw] (fun key => (∃ n < 16, key = F.CTL_CORE_ROLE_ROLES.key n 0 ∨ key = F.CTL_CORE_CTL_STATE.key n 0) ∨ key = F.CTL_BOOT_COPY.key 0 0 ∨ key = F.CTL_FW_VER_VERSION.key 0 0 ∨ key = F.CTL_FW_VER_SVN.key 0 0 ∨ key = F.CTL_HEALTH_STATE.key 0 0 ∨ key = (F.EVT_RAW_CAUSE 1).key 0 0 ∨ key = F.AON_RESUME_RESULT.key 0 0) s t)) ∧
  (∀ (s : State),
     s.rd F.AON_PWR_MODE_CUR = 3 → s.aon.entry.stage = 5 → s.mem.canaries ≠ [] →
     (∀ x ∈ s.canaryBanks, (mget s.mem.canaries (canaryKey x.1 x.2.1 x.2.2)).isSome = true → mget s.mem.canaries (canaryKey x.1 x.2.1 x.2.2) = some (crc32c (s.canaryRead x))) →
     ∃ t,
       exec (.canaryCheck [] [] s.mem.serials) s = .next t ∧ t.mem.canaries = [] ∧ t.rd F.AON_CANARY_FAILED = 0 ∧
       t.ras.sweep = s.ras.sweep ∧ Frame [.mem] (fun key => key = F.AON_CANARY_FAILED.key 0 0) s t) ∧
  (∀ (s : State) (bad : List (Nat × Nat × Nat)),
     s.rd F.AON_PWR_MODE_CUR = 3 → s.aon.entry.stage = 5 →
     s.canaryBanks.any (fun x => (mget s.mem.canaries (canaryKey x.1 x.2.1 x.2.2)).isSome && bad.contains x) = true →
     ∃ t,
       exec (.canaryCheck bad [] s.mem.serials) s = .next t ∧ t.mem.canaries = [] ∧ t.ras.sweep = some (0, 0) ∧
       (t.rd (F.EVT_RAW_CAUSE 12) 0).testBit 10 = true ∧ t.bulk = s.bulk ∧ t.tmu = s.tmu) ∧
  (∀ (s : State) (lsTicks : Nat) (switched : Bool),
     s.aon.held = false → s.aon.off = 0 → s.cry.halt = 0 → s.noService = false → s.rd F.AON_PWR_MODE_CUR = 3 →
     s.aon.entry.stage = 5 → s.rd F.CTL_HEALTH_STATE = 2 → s.mem.canaries = [] → s.rd F.CTL_BOOT_TRIAL = 0 →
     ∃ t,
       exec (.p3ExitDone lsTicks switched) s = .next t ∧ t.rd F.AON_PWR_MODE_CUR = 0 ∧
       t.rd F.AON_PWR_MODE_PHASE = 0 ∧ t.aon.entry.stage = 0 ∧ t.rd F.CTL_HEALTH_STATE = 3 ∧
       t.rd F.CTL_HEALTH_MEM_ACTIVE = 1 ∧ (∀ b < 15, t.rd (F.BLK_CTL_LOCK b) = 1) ∧
       (t.rd (F.EVT_RAW_CAUSE 0) 0).testBit 1 = true ∧ t.near = s.near ∧ t.cry = s.cry) ∧
  (∀ (s : State) (lsTicks : Nat) (switched : Bool),
     s.aon.held = false → s.aon.off = 0 → s.noService = true → s.rd F.AON_PWR_MODE_CUR = 3 → s.aon.entry.stage = 5 →
     s.rd F.CTL_HEALTH_STATE = 2 → s.mem.canaries = [] → s.rd F.CTL_BOOT_TRIAL = 0 →
     ∃ t,
       exec (.p3ExitDone lsTicks switched) s = .next t ∧ t.rd F.AON_PWR_MODE_CUR = 0 ∧
       t.rd F.AON_PWR_MODE_PHASE = 0 ∧ t.aon.entry.stage = 0 ∧ t.rd F.CTL_HEALTH_STATE = 3 ∧
       t.rd F.CTL_HEALTH_MEM_ACTIVE = 0 ∧ (∀ b < 15, t.rd (F.BLK_CTL_LOCK b) = 1) ∧
       (t.rd (F.EVT_RAW_CAUSE 0) 0).testBit 1 = true ∧ t.near = s.near ∧ t.cry = s.cry)

/-- Cold resets (R499, R505, R506, R531): everything but the flash starts afresh.
Where it rests on the model's choices: log entries 1, 11, 65. -/
def Obligations.ColdReset : Prop :=
  (∀ (s : State),
     ∃ t,
       exec (.powerOnReset) s = .next t ∧ t.aon.held = true ∧ t.rd F.AON_RST_CAUSE_CAUSE = 1 ∧ t.tmu.map = [] ∧
       t.near.mem = [] ∧ t.bulk.mem = [] ∧ t.cry.root = none ∧ t.cry.slotKeys = [] ∧ t.job.jobs = [] ∧
       t.ctl.flash = s.ctl.flash ∧ t.pending = s.pending ∧ t.out = s.out ++ [.resetN true, .alertN true] ∧
       t.rd F.AON_RST_CAUSE_WARM_LOST = 0 ∧ t.aon.groups = 0 ∧
       (∀ key, key ≠ F.AON_RST_CAUSE_WARM_LOST.key 0 0 → mget t.regs key = none)) ∧
  (∀ (s : State),
     s.aon.off = 0 → s.aon.loading = false → s.reaches .sideband 0 1 = true →
     ∃ t,
       exec (.coldCmd .sideband) s = .next t ∧ t.aon.held = true ∧ t.rd F.AON_RST_CAUSE_CAUSE = 1 ∧ t.tmu.map = [] ∧
       t.near.mem = [] ∧ t.bulk.mem = [] ∧ t.cry.root = none ∧ t.cry.slotKeys = [] ∧ t.job.jobs = [] ∧
       t.ctl.flash = s.ctl.flash ∧ t.pending = s.pending ∧ t.out = s.out ++ [.resetN true, .alertN true] ∧
       t.rd F.AON_RST_CAUSE_WARM_LOST = 0 ∧ t.aon.groups = s.aon.groups ∧
       (∀ key, key ≠ F.AON_RST_CAUSE_WARM_LOST.key 0 0 → mget t.regs key = none)) ∧
  (∀ (s : State),
     s.aon.quiescing = true →
     ∃ t,
       exec (.quiesceTimeout) s = .next t ∧ t.aon.held = true ∧ t.rd F.AON_RST_CAUSE_CAUSE = 1 ∧ t.tmu.map = [] ∧
       t.near.mem = [] ∧ t.bulk.mem = [] ∧ t.cry.root = none ∧ t.cry.slotKeys = [] ∧ t.job.jobs = [] ∧
       t.ctl.flash = s.ctl.flash ∧ t.pending = s.pending ∧ t.out = s.out ++ [.resetN true, .alertN true] ∧
       t.rd F.AON_RST_CAUSE_WARM_LOST = 1 ∧ (∀ key, key ≠ F.AON_RST_CAUSE_WARM_LOST.key 0 0 → mget t.regs key = none)) ∧
  (∀ (s : State) (i : Nat),
     i < 2 →
     ∃ t,
       exec (.supplyResetCrossing i) s = .next t ∧ t.aon.held = true ∧ t.rd F.AON_RST_CAUSE_CAUSE = 1 ∧
       t.tmu.map = [] ∧ t.near.mem = [] ∧ t.bulk.mem = [] ∧ t.cry.root = none ∧ t.cry.slotKeys = [] ∧
       t.job.jobs = [] ∧ t.ctl.flash = s.ctl.flash ∧ t.pending = s.pending ∧
       t.out = s.out ++ [.resetN true, .alertN true] ∧ t.rd F.AON_RST_CAUSE_WARM_LOST = 0)

/-- Warm resets (R46, R455, R502 to R504, R509, R516, R520) up to the quiesce.
Where it rests on the model's choices: log entry 65. -/
def Obligations.WarmReset : Prop :=
  (∀ (s : State),
     s.aon.held = false → s.aon.off = 0 → s.cry.halt = 0 → s.aon.loading = false → s.aon.quiescing = false →
     s.rd F.AON_PWR_MODE_CUR = 0 → s.rd F.CTL_HEALTH_MEM_ACTIVE = 1 →
     ∃ t,
       exec (.resetNLow true) s = .next t ∧ t.rd F.AON_RST_CAUSE_CAUSE = 2 ∧ t.rd F.AON_RST_CAUSE_SUPPLY = 0 ∧
       t.rd F.AON_RST_CAUSE_WARM_LOST = 0 ∧ t.aon.quiescing = true ∧ t.mem.entry = 3 ∧
       (∀ q ∈ t.adm.queue, ∀ h l tag, q.org ≠ .host h l tag) ∧ t.near.mem = s.near.mem ∧ t.bulk = s.bulk ∧
       t.cry = s.cry ∧ t.tmu.map = s.tmu.map ∧ t.aon.extLow = true) ∧
  (∀ (s : State),
     s.aon.held = false → s.aon.off = 0 → s.cry.halt = 0 → s.aon.loading = false → s.aon.quiescing = false →
     s.rd F.AON_PWR_MODE_CUR = 0 → s.rd F.CTL_HEALTH_MEM_ACTIVE = 1 →
     ∃ t,
       exec (.warmReq .cores) s = .next t ∧ t.rd F.AON_RST_CAUSE_CAUSE = 5 ∧ t.rd F.AON_RST_CAUSE_SUPPLY = 0 ∧
       t.rd F.AON_RST_CAUSE_WARM_LOST = 0 ∧ t.aon.quiescing = true ∧ t.mem.entry = 3 ∧
       (∀ q ∈ t.adm.queue, ∀ h l tag, q.org ≠ .host h l tag) ∧ t.near.mem = s.near.mem ∧ t.bulk = s.bulk ∧
       t.cry = s.cry ∧ t.tmu.map = s.tmu.map) ∧
  (∀ (s : State) (i : Nat),
     s.aon.held = false → s.aon.off = 0 → s.cry.halt = 0 → s.aon.loading = false → s.aon.quiescing = false →
     s.rd F.AON_PWR_MODE_CUR = 0 → s.rd F.CTL_HEALTH_MEM_ACTIVE = 1 → 2 ≤ i → i < 10 →
     s.aon.passed.testBit i = true →
     ∃ t,
       exec (.supplyResetCrossing i) s = .next t ∧ t.rd F.AON_RST_CAUSE_CAUSE = 3 ∧ t.rd F.AON_RST_CAUSE_SUPPLY = i ∧
       t.rd F.AON_RST_CAUSE_WARM_LOST = 0 ∧ t.aon.quiescing = true ∧ t.mem.entry = 3 ∧
       (∀ q ∈ t.adm.queue, ∀ h l tag, q.org ≠ .host h l tag) ∧ t.near.mem = s.near.mem ∧ t.bulk = s.bulk ∧
       t.cry = s.cry ∧ t.tmu.map = s.tmu.map) ∧
  (∀ (s : State) (pll : Nat),
     s.aon.held = false → s.aon.off = 0 → s.cry.halt = 0 → s.aon.loading = false → s.aon.quiescing = false →
     s.rd F.AON_PWR_MODE_CUR = 0 → s.rd F.CTL_HEALTH_MEM_ACTIVE = 1 → 2 ≤ pll → pll < 6 →
     s.aon.pllOk.testBit pll = true →
     ∃ t,
       exec (.pllLockLoss pll) s = .next t ∧ t.rd F.AON_RST_CAUSE_CAUSE = 6 ∧ t.rd F.AON_RST_CAUSE_SUPPLY = 0 ∧
       t.rd F.AON_RST_CAUSE_WARM_LOST = 0 ∧ t.aon.quiescing = true ∧ t.mem.entry = 3 ∧
       (∀ q ∈ t.adm.queue, ∀ h l tag, q.org ≠ .host h l tag) ∧ t.near.mem = s.near.mem ∧ t.bulk = s.bulk ∧
       t.cry = s.cry ∧ t.tmu.map = s.tmu.map ∧ (t.rd F.AON_CLK_STS_LOST).testBit pll = true ∧
       (t.rd F.AON_CLK_STS_LOCK).testBit pll = false ∧ (t.rd (F.EVT_RAW_CAUSE 0) 2).testBit 3 = true) ∧
  (∀ (s : State) (k : Nat),
     s.aon.held = false → s.aon.off = 0 → s.cry.halt = 0 → s.aon.loading = false → s.aon.quiescing = false →
     s.rd F.AON_PWR_MODE_CUR = 0 → s.rd F.CTL_HEALTH_MEM_ACTIVE = 1 → k < 2 →
     (s.rd F.AON_D2D_LOST).testBit k = false →
     ∃ t,
       exec (.d2dLinkLost k) s = .next t ∧ t.rd F.AON_RST_CAUSE_CAUSE = 5 ∧ t.rd F.AON_RST_CAUSE_SUPPLY = 0 ∧
       t.rd F.AON_RST_CAUSE_WARM_LOST = 0 ∧ t.aon.quiescing = true ∧ t.mem.entry = 3 ∧
       (∀ q ∈ t.adm.queue, ∀ h l tag, q.org ≠ .host h l tag) ∧ t.near.mem = s.near.mem ∧ t.bulk = s.bulk ∧
       t.cry = s.cry ∧ t.tmu.map = s.tmu.map ∧ (t.rd F.AON_D2D_LOST).testBit k = true ∧
       (t.rd (F.EVT_RAW_CAUSE 0) 1).testBit (8 + k) = true) ∧
  (∀ (s : State),
     s.aon.held = false → s.aon.off = 0 → s.cry.halt = 0 → s.aon.loading = false → s.aon.quiescing = false →
     s.rd F.AON_PWR_MODE_CUR = 0 → s.rd F.CTL_HEALTH_MEM_ACTIVE = 1 → s.ctl.wdtRuns = true →
     ∃ t,
       exec (.wdtTimeout) s = .next t ∧ t.rd F.AON_RST_CAUSE_CAUSE = 4 ∧ t.rd F.AON_RST_CAUSE_SUPPLY = 0 ∧
       t.rd F.AON_RST_CAUSE_WARM_LOST = 0 ∧ t.aon.quiescing = true ∧ t.mem.entry = 3 ∧
       (∀ q ∈ t.adm.queue, ∀ h l tag, q.org ≠ .host h l tag) ∧ t.near.mem = s.near.mem ∧ t.bulk = s.bulk ∧
       t.cry = s.cry ∧ t.tmu.map = s.tmu.map) ∧
  (∀ (s : State) (block : Nat),
     s.aon.held = false → s.aon.off = 0 → s.cry.halt = 0 → s.aon.loading = false → s.aon.quiescing = false →
     s.rd F.AON_PWR_MODE_CUR = 0 → s.rd F.CTL_HEALTH_MEM_ACTIVE = 1 → block ∈ [0, 1, 4, 6, 8, 10, 11] →
     s.aon.blocks = [] →
     ∃ t,
       exec (.blkRstReq .cores block) s = .next t ∧ t.rd F.AON_RST_CAUSE_CAUSE = 5 ∧
       t.rd F.AON_RST_CAUSE_SUPPLY = 0 ∧ t.rd F.AON_RST_CAUSE_WARM_LOST = 0 ∧ t.aon.quiescing = true ∧
       t.mem.entry = 3 ∧ (∀ q ∈ t.adm.queue, ∀ h l tag, q.org ≠ .host h l tag) ∧ t.near.mem = s.near.mem ∧
       t.bulk = s.bulk ∧ t.cry = s.cry ∧ t.tmu.map = s.tmu.map ∧ t.rd F.AON_BLK_RST_BLOCK = block)

/-- The end of a quiesce (R504), block resets (R509) and corrected replays (R31).
Where it rests on the model's choices: log entries 65, 66, 127. -/
def Obligations.ResetProgress : Prop :=
  (∀ (s : State),
     s.aon.quiescing = true → s.rd F.NTC_SR_STATE = 2 → s.rd F.BTC_SR_STATE = 2 → s.tmu.moves = [] →
     s.clx.done = [] →
     ∃ t,
       exec (.quiesceDone) s = .next t ∧ t.aon.held = true ∧ t.aon.quiescing = false ∧ t.aon.entry.stage = 0 ∧
       t.rd F.NTC_SR_STATE = 2 ∧ t.rd F.BTC_SR_STATE = 2 ∧ t.tmu.waits = [] ∧ t.tmu.cache = [] ∧
       t.near.mem = s.near.mem ∧ t.near.ftes = s.near.ftes ∧ t.bulk = s.bulk ∧ t.cry.root = s.cry.root ∧
       t.cry.slotKeys = s.cry.slotKeys ∧ t.pending = s.pending) ∧
  (∀ (s : State),
     s.aon.held = false → s.aon.off = 0 → s.aon.quiescing = false → s.cry.halt = 0 → s.rd F.AON_PWR_MODE_CUR = 0 →
     s.aon.blocks = [] →
     ∃ t,
       exec (.blkRstReq .cores 5) s = .next t ∧ t.rd F.AON_BLK_RST_BLOCK = 5 ∧ t.rd F.AON_BLK_RST_LAST = 5 ∧
       t.aon.blocks = [5] ∧ t.dir = { s.dir with cache := [] } ∧
       (Frame [.dir, .aon] (fun key => InBlock 5 key ∨ key = F.AON_BLK_RST_BLOCK.key 0 0 ∨ key = F.AON_BLK_RST_LAST.key 0 0) s t)) ∧
  (∀ (s : State) (block : Nat),
     s.aon.blocks.contains block = true → s.tmu.waits = [] → s.aon.accs = [] →
     (block ≠ 7 ∨ (s.tmu.moves = [] ∧ s.job.jobs = [] ∧ s.cdc.held = [])) →
     ∃ t,
       exec (.blockResetEnd block) s = .next t ∧ t.aon.blocks = s.aon.blocks.erase block ∧
       Frame [.aon] (fun _ => False) s t) ∧
  (∀ (s : State) (k : Nat) (failures : Nat),
     s.aon.held = false → s.aon.off = 0 → k < 4 → (s.rd F.AON_D2D_LOST).testBit k = false → failures < 8 →
     ∃ t,
       exec (.d2dTransferReplay k failures) s = .next t ∧ mget t.aon.replays k = some (mgetD s.aon.replays k 0 + 1) ∧
       Frame [.aon] (fun _ => False) s t)

/-- Heartbeats and the replacement of a core (R438, R457), and the watchdog (R455).
Where it rests on the model's choices: log entries 4, 64, 107. -/
def Obligations.Cores : Prop :=
  (∀ (s : State) (beats : List (Nat × BitVec 32)),
     s.fwRuns = true → s.ctl.moves = [] →
     (∀ n < 16, s.coreState n = 1 → (mget beats n).isSome = true ∧ mgetD (beats.map (fun e => (e.1, e.2.toNat))) n 0 ≠ mgetD (s.ctl.beats.map (fun e => (e.1, e.2.1))) n 0) →
     ∃ t,
       exec (.heartbeatCheck beats) s = .next t ∧ t.ctl.moves = [] ∧
       (∀ n < 16, s.coreState n = 1 → t.rd F.CTL_CORE_HB_BEAT n = mgetD (beats.map (fun e => (e.1, e.2.toNat))) n 0) ∧
       (Frame [.ctl] (fun key => ∃ n < 16, key = F.CTL_CORE_HB_BEAT.key n 0) s t)) ∧
  (∀ (s : State) (core : Nat) (old : Nat) (heir : Nat),
     s.fwRuns = true → s.ctl.moves = [] → core < 16 → heir < 16 → mget s.ctl.beats core = some (old, 2) →
     old < 2 ^ 32 → s.coresIn 1 = [core] → s.coresIn 3 = [heir] →
     ∃ t,
       exec (.heartbeatCheck []) s = .next t ∧ t.ctl.moves = [(core, s.rd F.CTL_CORE_ROLE_ROLES core, heir)] ∧
       t.rd F.CTL_CORE_HB_BEAT core = old ∧
       (Frame [.ctl] (fun key => ∃ n < 16, key = F.CTL_CORE_HB_BEAT.key n 0) s t)) ∧
  (∀ (s : State) (core : Nat) (heir : Nat) (roles : Nat),
     core < 16 → heir < 16 → core ≠ heir → s.ctl.moves = [(core, roles, heir)] → s.coreState heir = 3 →
     roles < 2 ^ 16 →
     ∃ t,
       exec (.coreRoleMoveDone core) s = .next t ∧ t.ctl.moves = [] ∧ t.coreState core = 4 ∧ t.coreState heir = 1 ∧
       t.rd F.CTL_CORE_ROLE_ROLES heir = s.rd F.CTL_CORE_ROLE_ROLES heir ||| roles ∧
       t.rd F.CTL_CORE_ROLE_ROLES core = 0 ∧ t.rd F.CTL_CORE_FAULT_COUNT heir = 0 ∧
       (t.rd (F.EVT_RAW_CAUSE 1) 0).testBit 0 = true ∧ (t.rd (F.EVT_RAW_CAUSE 12) 0).testBit 15 = true ∧
       (Frame [.ctl, .ras, .evt] (fun key => key = F.CTL_CORE_CTL_STATE.key core 0 ∨ key = F.CTL_CORE_ROLE_ROLES.key core 0 ∨ key = F.CTL_CORE_CTL_STATE.key heir 0 ∨ key = F.CTL_CORE_ROLE_ROLES.key heir 0 ∨ key = F.CTL_CORE_FAULT_COUNT.key heir 0 ∨ key = F.RAS_LOG_PROD.key 0 0 ∨ key = F.RAS_LOG_LOST.key 0 0 ∨ key = (F.EVT_RAW_CAUSE 12).key 0 0 ∨ key = (F.EVT_RAW_CAUSE 1).key 0 0) s t)) ∧
  (∀ (s : State) (core : Nat) (heir : Nat),
     s.aon.held = false → s.aon.off = 0 → core < 16 → heir < 16 → s.ctl.moves = [] → s.coreState core = 1 →
     s.coresIn 3 = [heir] →
     ∃ t,
       exec (.coreSramError core true) s = .next t ∧ t.ctl.moves = [(core, s.rd F.CTL_CORE_ROLE_ROLES core, heir)] ∧
       t.rd F.CTL_CORE_FAULT_COUNT core = min 15 (s.rd F.CTL_CORE_FAULT_COUNT core + 1) ∧
       (Frame [.ctl] (fun key => key = F.CTL_CORE_FAULT_COUNT.key core 0 ∨ key = F.CTL_CORE_FAULT_TOTAL.key core 0) s t)) ∧
  (∀ (s : State) (core : Nat),
     s.aon.held = false → s.aon.off = 0 → core < 16 → s.coreState core = 1 → s.rd F.CTL_CORE_FAULT_COUNT core < 3 →
     ∃ t,
       exec (.coreSramError core false) s = .next t ∧
       t.rd F.CTL_CORE_FAULT_COUNT core = s.rd F.CTL_CORE_FAULT_COUNT core + 1 ∧ t.coreState core = 1 ∧
       (Frame [] (fun key => key = F.CTL_CORE_FAULT_COUNT.key core 0 ∨ key = F.CTL_CORE_FAULT_TOTAL.key core 0) s t)) ∧
  (∀ (s : State) (core : Nat),
     core < 16 → s.writeReaches .cores 1 (1 + core) = true → s.coreState core = 3 →
     ∃ t,
       exec (.ctlCoreActivate .cores core) s = .next t ∧ t.coreState core = 1 ∧
       t.rd F.CTL_CORE_FAULT_COUNT core = 0 ∧
       (Frame [] (fun key => key = F.CTL_CORE_CTL_STATE.key core 0 ∨ key = F.CTL_CORE_FAULT_COUNT.key core 0) s t)) ∧
  (∀ (s : State) (core : Nat),
     core < 16 → s.writeReaches .cores 1 (1 + core) = true → s.coreState core = 3 →
     ∃ t,
       exec (.ctlCoreFail .cores core) s = .next t ∧ t.coreState core = 4 ∧
       Frame [] (fun key => key = F.CTL_CORE_CTL_STATE.key core 0) s t) ∧
  (∀ (s : State),
     s.writeReaches .cores 1 0 = true → (∀ n < 16, s.coreState n = 1 → ((mget s.ctl.beats n).getD (0, 0)).2 = 0) →
     ∃ t,
       exec (.kick .cores) s = .next t ∧ t.rd F.CTL_WDT_STAGE = 0 ∧
       Frame [] (fun key => key = F.CTL_WDT_STAGE.key 0 0) s t) ∧
  (∀ (s : State),
     s.wdtCounts = true →
     ∃ t,
       exec (.wdtHalfTimeout) s = .next t ∧ t.rd F.CTL_WDT_STAGE = 1 ∧
       (t.rd (F.EVT_RAW_CAUSE 1) 0).testBit 2 = true ∧
       (Frame [.evt] (fun key => key = F.CTL_WDT_STAGE.key 0 0 ∨ key = (F.EVT_RAW_CAUSE 1).key 0 0) s t))

/-- The boot ROM and the copy checks (R446, R448, R450). The fuse load (R510), training (R209) and the start of memory service (R449, R537).
Where it rests on the model's choices: log entries 1, 43, 63, 64, 100, 124. -/
def Obligations.BootCopiesAndMemory : Prop :=
  (∀ (s : State),
     s.aon.held = false → s.aon.off = 0 → s.aon.loaded = true → s.ctl.alive = false → s.rd F.CTL_BOOT_BOOT_CORE = 0 →
     s.coreState 0 = 1 → s.coreState 14 = 3 →
     ∃ t,
       exec (.bootCoreAliveTimeout) s = .next t ∧ t.coreState 0 = 4 ∧ t.rd F.CTL_BOOT_BOOT_CORE = 14 ∧
       t.coreState 14 = 1 ∧ t.ctl.passed = ninsert s.ctl.passed 0 ∧ t.ras.subs = s.ras.subs ++ [(1, 0, 14)] ∧
       (Frame [.ctl, .ras] (fun key => key = F.CTL_BOOT_BOOT_CORE.key 0 0 ∨ key = F.CTL_CORE_CTL_STATE.key 0 0 ∨ key = F.CTL_CORE_CTL_STATE.key 14 0) s t)) ∧
  (∀ (s : State),
     s.aon.held = false → s.aon.off = 0 → s.aon.loaded = true → s.ctl.romRan = false → s.bootCoreOk = true →
     s.descNow.2.trial = false →
     ∃ t,
       exec (.bootRom) s = .next t ∧ t.ctl.romRan = true ∧ t.ctl.alive = true ∧
       t.ctl.checking = some s.descNow.2.prefer ∧ t.rd F.CTL_HEALTH_STATE = 1 ∧ t.ctl.flash = s.ctl.flash ∧
       (Frame [.ctl] (fun key => key = F.CTL_HEALTH_STATE.key 0 0 ∨ key = F.CTL_CORE_CTL_STATE.key s.bootCore 0) s t)) ∧
  (∀ (s : State) (copy : Nat) (readErr : Bool),
     s.aon.held = false → s.aon.off = 0 → copy < 2 → s.ctl.checking = some copy → s.checkFlash copy readErr = 0 →
     ∃ t,
       exec (.flashCopyChecked copy readErr) s = .next t ∧ t.rd F.CTL_BOOT_COPY = copy ∧ t.ctl.checking = none ∧
       (s.ctl.firstTry = true → t.rd F.CTL_BOOT_TRIAL = b2n s.descNow.2.trial) ∧
       (s.ctl.firstTry = false → t.rd F.CTL_BOOT_FALLBACK = 1) ∧
       (s.ctl.firstTry = false → (t.rd (F.EVT_RAW_CAUSE 1) 0).testBit 3 = true) ∧
       t.rd F.CTL_FW_VER_VERSION = numAt (s.flash (copyBase copy) 512) 8 4 ∧
       t.rd F.CTL_FW_VER_SVN = numAt (s.flash (copyBase copy) 512) 0xc 4 ∧ t.rd F.CTL_HEALTH_STATE = 2 ∧
       t.ctl.header = (s.flash (copyBase copy) 512) ∧ t.ctl.wdtRuns = true ∧ t.ctl.beats = [] ∧ t.ctl.moves = [] ∧
       (∀ c < 14, s.coreState c = 1 → (t.rd F.CTL_CORE_ROLE_ROLES c).testBit c = true) ∧
       (s.cry.root ≠ none → t.cry = s.cry) ∧
       (s.cry.root = none → s.rd F.CRY_MODE_TRNG_OK = 1 → s.aon.seenActive = false → t.cry = { s.cry with root := some (Config.rootKey s.draw) }) ∧
       (Frame [.ctl, .ras, .evt, .cry, .draw] (fun key => (∃ n < 16, key = F.CTL_CORE_ROLE_ROLES.key n 0 ∨ key = F.CTL_CORE_CTL_STATE.key n 0) ∨ key = F.CTL_BOOT_COPY.key 0 0 ∨ key = F.CTL_FW_VER_VERSION.key 0 0 ∨ key = F.CTL_FW_VER_SVN.key 0 0 ∨ key = F.CTL_HEALTH_STATE.key 0 0 ∨ key = (F.EVT_RAW_CAUSE 1).key 0 0 ∨ key = F.CTL_BOOT_TRIAL.key 0 0 ∨ key = F.CTL_BOOT_FALLBACK.key 0 0) s t)) ∧
  (∀ (s : State) (copy : Nat) (readErr : Bool),
     s.aon.held = false → s.aon.off = 0 → copy < 2 → s.ctl.checking = some copy → s.checkFlash copy readErr ≠ 0 →
     s.ctl.firstTry = true →
     ∃ t,
       exec (.flashCopyChecked copy readErr) s = .next t ∧
       t.rd (if copy = 0 then F.CTL_BOOT_REJ_A else F.CTL_BOOT_REJ_B) = s.checkFlash copy readErr ∧
       t.ctl.checking = some (1 - copy) ∧ t.ctl.firstTry = false ∧
       (Frame [.ctl] (fun key => key = F.CTL_BOOT_REJ_A.key 0 0 ∨ key = F.CTL_BOOT_REJ_B.key 0 0) s t)) ∧
  (∀ (s : State) (copy : Nat) (readErr : Bool),
     s.aon.held = false → s.aon.off = 0 → copy < 2 → s.ctl.checking = some copy → s.checkFlash copy readErr ≠ 0 →
     s.ctl.firstTry = false →
     ∃ t,
       exec (.flashCopyChecked copy readErr) s = .next t ∧
       t.rd (if copy = 0 then F.CTL_BOOT_REJ_A else F.CTL_BOOT_REJ_B) = s.checkFlash copy readErr ∧
       t.ctl.checking = none ∧ t.rd F.CTL_HEALTH_STATE = 4 ∧ (t.rd (F.EVT_RAW_CAUSE 1) 0).testBit 4 = true ∧
       (Frame [.ctl, .evt] (fun key => key = F.CTL_BOOT_REJ_A.key 0 0 ∨ key = F.CTL_BOOT_REJ_B.key 0 0 ∨ key = F.CTL_HEALTH_STATE.key 0 0 ∨ key = (F.EVT_RAW_CAUSE 1).key 0 0) s t)) ∧
  (∀ (s : State) (rows : List (Nat × FuseOutcome)) (fuses : Fuses) (trngFails : Nat),
     s.aon.loading = true → s.aon.waiting = [] → trngFails < 3 → fuses.dirFailed = false → fuses.perms = [] →
     ∃ t,
       exec (.fuseLoadDone rows fuses trngFails) s = .next t ∧ t.aon.loading = false ∧ t.aon.loaded = true ∧
       t.fuses = fusesLoaded rows fuses ∧
       t.rd F.AON_PIN_STATE = (fusesLoaded rows fuses).pins % 2 ^ F.AON_PIN_STATE.width ∧
       t.rd F.CRY_MODE_TRNG_OK = 1 ∧ t.near = s.near ∧ t.bulk = s.bulk ∧ t.ctl = s.ctl ∧ t.pending = s.pending ∧
       t.out = s.out) ∧
  (∀ (s : State) (result : TrainResult),
     s.aon.held = false → s.aon.off = 0 → s.rd F.CTL_HEALTH_STATE = 2 → s.memClocks = true → s.ctl.trained = false →
     s.aon.seenActive = false →
     ∃ t,
       exec (.memoryTrainingDone result) s = .next t ∧ t.ctl.trained = true ∧
       t.rd F.NTC_CONFIG_POS_ACTIVE = maskOf ((selectNear 17 (s.workingNear result)).map (·.pos)) % 2 ^ 16 ∧
       t.rd F.NTC_CONFIG_NCH = 2 * (selectNear 17 (s.workingNear result)).length % 2 ^ F.NTC_CONFIG_NCH.width ∧
       t.mem.serials = serialsOf result.dimms ∧ t.bulk.dimms = result.dimms ∧ t.adm.recompute = true ∧
       t.cry = s.cry ∧ t.pending = s.pending ∧ t.out = s.out) ∧
  (∀ (s : State),
     s.aon.held = false → s.aon.off = 0 → s.aon.quiescing = false → s.rd F.CTL_HEALTH_STATE = 2 →
     s.ctl.trained = true → s.noService = false → s.cry.halt = 0 → s.rd F.CTL_BOOT_TRIAL = 0 →
     ∃ t,
       exec (.memActive) s = .next t ∧ t.rd F.CTL_HEALTH_STATE = 3 ∧ t.rd F.CTL_HEALTH_MEM_ACTIVE = 1 ∧
       (∀ b < 15, t.rd (F.BLK_CTL_LOCK b) = 1) ∧ t.rd F.NTC_SR_STATE = 0 ∧ t.rd F.BTC_SR_STATE = 0 ∧
       t.aon.seenActive = true ∧ (t.rd (F.EVT_RAW_CAUSE 0) 1).testBit 12 = true ∧ t.near = s.near ∧ t.bulk = s.bulk ∧
       t.tmu = s.tmu ∧ t.cry = s.cry ∧
       (Frame [.evt, .ras, .adm, .aon, .mem] (fun key => (∃ b < 15, key = (F.BLK_CTL_LOCK b).key 0 0) ∨ key = F.CTL_HEALTH_STATE.key 0 0 ∨ key = F.CTL_HEALTH_MEM_ACTIVE.key 0 0 ∨ key = F.NTC_SR_STATE.key 0 0 ∨ key = F.BTC_SR_STATE.key 0 0 ∨ key = F.RAS_LOG_PROD.key 0 0 ∨ key = F.RAS_LOG_CONS.key 0 0 ∨ key = F.RAS_LOG_LOST.key 0 0 ∨ key = F.SCR_MOV_STS_NEAR_ONLY.key 0 0 ∨ key = F.SCR_MOV_STS_BULK_ONLY.key 0 0 ∨ key = (F.EVT_RAW_CAUSE 0).key 1 0 ∨ key = (F.EVT_RAW_CAUSE 9).key 0 0 ∨ key = (F.EVT_RAW_CAUSE 12).key 0 0) s t))

/-- Codec pipes (R127, R130), AES pipes (R165, R166) and Scarab engines (R188, R193), with the records of R267.
Where it rests on the model's choices: log entries 20, 28, 97, 107. -/
def Obligations.CodecAndAesUnits : Prop :=
  (∀ (s : State) (p : Nat),
     p < 17 → s.writeReaches .cores 7 (1 + p) = true → s.unitState cdcKind p = 3 →
     ∃ t,
       exec (.cdcPipeActivate .cores p) s = .next t ∧ t.unitState cdcKind p = 1 ∧ t.rd cdcKind.count p = 0 ∧
       t.ras.subs = s.ras.subs ++ [(cdcKind.code, anyUnit, p)] ∧
       (Frame [.evt, .ras, .job, .cdc] (fun key => key = cdcKind.state.key p 0 ∨ key = cdcKind.count.key p 0 ∨ key = F.CDC_STATUS_OFFLINE.key 0 0 ∨ key = F.CTL_HEALTH_MEM_ACTIVE.key 0 0 ∨ key = (F.EVT_RAW_CAUSE 7).key 0 0) s t)) ∧
  (∀ (s : State) (p : Nat),
     p < 17 → s.writeReaches .cores 7 (1 + p) = true → s.unitState cdcKind p = 1 →
     ∃ t,
       exec (.cdcPipeDrain .cores p) s = .next t ∧ t.unitState cdcKind p = 2 ∧
       (Frame [.evt, .job, .cdc] (fun key => key = cdcKind.state.key p 0 ∨ key = F.CDC_STATUS_OFFLINE.key 0 0 ∨ key = F.CTL_HEALTH_MEM_ACTIVE.key 0 0 ∨ key = (F.EVT_RAW_CAUSE 7).key 0 0) s t)) ∧
  (∀ (s : State) (p : Nat) (q : Nat),
     p < 17 → s.writeReaches .cores 7 (1 + p) = true → s.unitState cdcKind p = 1 → q < 17 → q ≠ p →
     s.unitState cdcKind q = 3 → (∀ e ∈ s.ras.subs, e.1 ≠ cdcKind.code) →
     ∃ t,
       exec (.cdcPipeFail .cores p) s = .next t ∧ t.unitState cdcKind p = 4 ∧
       (Frame [.evt, .job, .cdc] (fun key => key = cdcKind.state.key p 0 ∨ key = F.CDC_STATUS_OFFLINE.key 0 0 ∨ key = F.CTL_HEALTH_MEM_ACTIVE.key 0 0 ∨ key = (F.EVT_RAW_CAUSE 7).key 0 0) s t)) ∧
  (∀ (s : State) (p : Nat) (q : Nat),
     p < 17 → s.aon.held = false → s.aon.off = 0 → (mget s.cdc.held p).isNone = true → q < 17 →
     s.unitState cdcKind p = 2 → s.ras.subs = [(cdcKind.code, p, q)] →
     ∃ t,
       exec (.codecPipeDrained p) s = .next t ∧ t.unitState cdcKind p = 4 ∧ t.ras.subs = [] ∧
       (t.rd (F.EVT_RAW_CAUSE 12) 0).testBit 15 = true ∧
       (Frame [.evt, .ras, .job, .cdc] (fun key => key = cdcKind.state.key p 0 ∨ key = F.CDC_STATUS_OFFLINE.key 0 0 ∨ key = F.CTL_HEALTH_MEM_ACTIVE.key 0 0 ∨ key = (F.EVT_RAW_CAUSE 7).key 0 0 ∨ key = F.RAS_LOG_PROD.key 0 0 ∨ key = F.RAS_LOG_LOST.key 0 0 ∨ key = (F.EVT_RAW_CAUSE 12).key 0 0 ∨ InBlock 7 key) s t)) ∧
  (∀ (s : State) (p : Nat),
     p < 50 → s.writeReaches .cores 8 (66 + p) = true → s.unitState cryKind p = 3 →
     ∃ t,
       exec (.cryPipeActivate .cores p true) s = .next t ∧ t.unitState cryKind p = 1 ∧ t.rd cryKind.count p = 0 ∧
       t.ras.subs = s.ras.subs ++ [(cryKind.code, anyUnit, p)] ∧
       (Frame [.evt, .ras, .job, .cdc] (fun key => key = cryKind.state.key p 0 ∨ key = cryKind.count.key p 0 ∨ key = F.CDC_STATUS_OFFLINE.key 0 0 ∨ key = F.CTL_HEALTH_MEM_ACTIVE.key 0 0 ∨ key = (F.EVT_RAW_CAUSE 7).key 0 0) s t)) ∧
  (∀ (s : State) (p : Nat),
     p < 50 → s.writeReaches .cores 8 (66 + p) = true → s.unitState cryKind p = 1 →
     ∃ t,
       exec (.cryPipeDrain .cores p) s = .next t ∧ t.unitState cryKind p = 2 ∧
       (Frame [.evt, .job, .cdc] (fun key => key = cryKind.state.key p 0 ∨ key = F.CDC_STATUS_OFFLINE.key 0 0 ∨ key = F.CTL_HEALTH_MEM_ACTIVE.key 0 0 ∨ key = (F.EVT_RAW_CAUSE 7).key 0 0) s t)) ∧
  (∀ (s : State) (p : Nat) (q : Nat),
     p < 50 → s.writeReaches .cores 8 (66 + p) = true → s.unitState cryKind p = 1 → q < 50 → q ≠ p →
     s.unitState cryKind q = 3 → (∀ e ∈ s.ras.subs, e.1 ≠ cryKind.code) →
     ∃ t,
       exec (.cryPipeFail .cores p) s = .next t ∧ t.unitState cryKind p = 4 ∧
       (Frame [.evt, .job, .cdc] (fun key => key = cryKind.state.key p 0 ∨ key = F.CDC_STATUS_OFFLINE.key 0 0 ∨ key = F.CTL_HEALTH_MEM_ACTIVE.key 0 0 ∨ key = (F.EVT_RAW_CAUSE 7).key 0 0) s t)) ∧
  (∀ (s : State) (p : Nat) (q : Nat),
     p < 50 → s.aon.held = false → s.aon.off = 0 → q < 50 → s.unitState cryKind p = 2 →
     s.ras.subs = [(cryKind.code, p, q)] →
     ∃ t,
       exec (.aesPipeDrained p) s = .next t ∧ t.unitState cryKind p = 4 ∧ t.ras.subs = [] ∧
       (t.rd (F.EVT_RAW_CAUSE 12) 0).testBit 15 = true ∧
       (Frame [.evt, .ras, .job, .cdc] (fun key => key = cryKind.state.key p 0 ∨ key = F.CDC_STATUS_OFFLINE.key 0 0 ∨ key = F.CTL_HEALTH_MEM_ACTIVE.key 0 0 ∨ key = (F.EVT_RAW_CAUSE 7).key 0 0 ∨ key = F.RAS_LOG_PROD.key 0 0 ∨ key = F.RAS_LOG_LOST.key 0 0 ∨ key = (F.EVT_RAW_CAUSE 12).key 0 0 ∨ InBlock 8 key) s t)) ∧
  (∀ (s : State) (p : Nat),
     p < 32 → s.writeReaches .cores 9 (1 + p) = true → s.unitState scrKind p = 3 →
     ∃ t,
       exec (.scrEngActivate .cores p) s = .next t ∧ t.unitState scrKind p = 1 ∧ t.rd scrKind.count p = 0 ∧
       t.ras.subs = s.ras.subs ++ [(scrKind.code, anyUnit, p)] ∧
       (Frame [.evt, .ras, .job, .cdc] (fun key => key = scrKind.state.key p 0 ∨ key = scrKind.count.key p 0 ∨ key = F.CDC_STATUS_OFFLINE.key 0 0 ∨ key = F.CTL_HEALTH_MEM_ACTIVE.key 0 0 ∨ key = (F.EVT_RAW_CAUSE 7).key 0 0) s t)) ∧
  (∀ (s : State) (p : Nat),
     p < 32 → s.writeReaches .cores 9 (1 + p) = true → s.unitState scrKind p = 1 →
     ∃ t,
       exec (.scrEngDrain .cores p) s = .next t ∧ t.unitState scrKind p = 2 ∧
       (Frame [.evt, .job, .cdc] (fun key => key = scrKind.state.key p 0 ∨ key = F.CDC_STATUS_OFFLINE.key 0 0 ∨ key = F.CTL_HEALTH_MEM_ACTIVE.key 0 0 ∨ key = (F.EVT_RAW_CAUSE 7).key 0 0) s t)) ∧
  (∀ (s : State) (p : Nat) (q : Nat),
     p < 32 → s.writeReaches .cores 9 (1 + p) = true → s.unitState scrKind p = 1 → q < 32 → q ≠ p →
     s.unitState scrKind q = 3 → (∀ e ∈ s.ras.subs, e.1 ≠ scrKind.code) →
     ∃ t,
       exec (.scrEngFail .cores p) s = .next t ∧ t.unitState scrKind p = 4 ∧
       (Frame [.evt, .job, .cdc] (fun key => key = scrKind.state.key p 0 ∨ key = F.CDC_STATUS_OFFLINE.key 0 0 ∨ key = F.CTL_HEALTH_MEM_ACTIVE.key 0 0 ∨ key = (F.EVT_RAW_CAUSE 7).key 0 0) s t)) ∧
  (∀ (s : State) (p : Nat) (q : Nat),
     p < 32 → s.aon.held = false → s.aon.off = 0 → s.engineLoad p = 0 → q < 32 → s.unitState scrKind p = 2 →
     s.ras.subs = [(scrKind.code, p, q)] →
     ∃ t,
       exec (.scarabEngineDrained p) s = .next t ∧ t.unitState scrKind p = 4 ∧ t.ras.subs = [] ∧
       (t.rd (F.EVT_RAW_CAUSE 12) 0).testBit 15 = true ∧
       (Frame [.evt, .ras, .job, .cdc] (fun key => key = scrKind.state.key p 0 ∨ key = F.CDC_STATUS_OFFLINE.key 0 0 ∨ key = F.CTL_HEALTH_MEM_ACTIVE.key 0 0 ∨ key = (F.EVT_RAW_CAUSE 7).key 0 0 ∨ key = F.RAS_LOG_PROD.key 0 0 ∨ key = F.RAS_LOG_LOST.key 0 0 ∨ key = (F.EVT_RAW_CAUSE 12).key 0 0 ∨ InBlock 9 key) s t))

/-- Faults of AES pipes (R165) and engines (R188), and directory ways (R330).
Where it rests on the model's choices: log entries 20, 97, 107. -/
def Obligations.UnitFaults : Prop :=
  (∀ (s : State) (p : Nat),
     s.aesRuns = true →
     ∃ t,
       exec (.aesKnownAnswerTest p true) s = .next t ∧ t = s ∧ Frame [] (fun _ => False) s t) ∧
  (∀ (s : State) (p : Nat),
     s.aesRuns = true → p < 50 → s.unitState cryKind p = 1 → s.rd F.CRY_PIPE_FAULT_COUNT p + 1 < 16 →
     s.rd F.CRY_PIPE_FAULT_COUNT p + 1 < s.rd F.CRY_CFG_FAULT_THRESH →
     ∃ t,
       exec (.aesKnownAnswerTest p false) s = .next t ∧
       t.rd F.CRY_PIPE_FAULT_COUNT p = s.rd F.CRY_PIPE_FAULT_COUNT p + 1 ∧ t.unitState cryKind p = 1 ∧
       (Frame [] (fun key => key = F.CRY_PIPE_FAULT_COUNT.key p 0 ∨ key = F.CRY_PIPE_FAULT_TOTAL.key p 0) s t)) ∧
  (∀ (s : State) (p : Nat) (q : Nat),
     s.aesRuns = true → p < 50 → q < 50 → p ≠ q → s.unitState cryKind p = 1 →
     s.rd F.CRY_CFG_FAULT_THRESH ≤ min 15 (s.rd F.CRY_PIPE_FAULT_COUNT p + 1) → s.unitsIn cryKind 3 = [q] →
     ∃ t,
       exec (.aesKeyParityError p) s = .next t ∧ t.unitState cryKind p = 2 ∧ t.unitState cryKind q = 1 ∧
       t.ras.subs = s.ras.subs ++ [(3, p, q)] ∧ (t.rd (F.EVT_RAW_CAUSE 8) 0).testBit 5 = true ∧
       (Frame [.evt, .ras, .job, .cdc] (fun key => key = F.CRY_PIPE_FAULT_COUNT.key p 0 ∨ key = F.CRY_PIPE_FAULT_TOTAL.key p 0 ∨ key = F.CRY_PIPE_CTL_STATE.key p 0 ∨ key = F.CRY_PIPE_CTL_STATE.key q 0 ∨ key = F.CRY_PIPE_FAULT_COUNT.key q 0 ∨ key = F.CDC_STATUS_OFFLINE.key 0 0 ∨ key = F.CTL_HEALTH_MEM_ACTIVE.key 0 0 ∨ key = (F.EVT_RAW_CAUSE 7).key 0 0 ∨ key = (F.EVT_RAW_CAUSE 8).key 0 0) s t)) ∧
  (∀ (s : State) (e : Nat),
     s.aon.held = false → s.aon.off = 0 → e < 32 → s.unitState scrKind e = 1 →
     s.rd F.SCR_ENG_FAULT_COUNT e + 1 < 16 → s.rd F.SCR_ENG_FAULT_COUNT e + 1 < s.rd F.SCR_MOV_CFG_FAULT_THRESH →
     ∃ t,
       exec (.scarabEngineFault e) s = .next t ∧ t.rd F.SCR_ENG_FAULT_COUNT e = s.rd F.SCR_ENG_FAULT_COUNT e + 1 ∧
       t.unitState scrKind e = 1 ∧
       (Frame [] (fun key => key = F.SCR_ENG_FAULT_COUNT.key e 0 ∨ key = F.SCR_ENG_FAULT_TOTAL.key e 0) s t)) ∧
  (∀ (s : State) (bank : Nat) (way : Nat),
     s.writeReaches .cores 5 (1 + bank) = true → bank < 16 → way < 17 → s.wayFree bank way = true →
     ∃ t,
       exec (.dirBankActivate .cores bank way) s = .next t ∧ t.wayActive bank way = true ∧
       t.rd F.DIR_WAY_FAULT_COUNT bank way = 0 ∧ t.ras.subs = s.ras.subs ++ [(5, bank, way)] ∧
       (Frame [.ras] (fun key => key = F.DIR_BANK_WAYS_ACTIVE.key bank 0 ∨ key = F.DIR_WAY_FAULT_COUNT.key bank way) s t)) ∧
  (∀ (s : State) (bank : Nat) (way : Nat) (way2 : Nat),
     s.writeReaches .cores 5 (1 + bank) = true → bank < 16 → way < 17 → way2 < 17 → way2 ≠ way →
     s.wayFailed bank way = false → s.ras.subs = [(5, bank, way2)] →
     ∃ t,
       exec (.dirBankFail .cores bank way) s = .next t ∧ t.wayActive bank way = false ∧ t.wayFailed bank way = true ∧
       t.ras.subs = [] ∧ (t.rd (F.EVT_RAW_CAUSE 5) 0).testBit 3 = true ∧
       (Frame [.ras, .evt] (fun key => key = F.DIR_BANK_WAYS_ACTIVE.key bank 0 ∨ key = F.DIR_BANK_WAYS_FAILED.key bank 0 ∨ key = (F.EVT_RAW_CAUSE 5).key 0 0 ∨ key = F.RAS_LOG_PROD.key 0 0 ∨ key = F.RAS_LOG_LOST.key 0 0 ∨ key = (F.EVT_RAW_CAUSE 12).key 0 0) s t))

/-- The integrity halt (R136, R162, Table 4.8) and the random source (R135).
Where it rests on the model's choices: log entry 86. -/
def Obligations.HaltSteps : Prop :=
  (∀ (s : State),
     s.cry.halt = 1 →
     ∃ t,
       exec (.haltViral) s = .next t ∧ t.cry.halt = 2 ∧
       t.out = s.out ++ s.outstandingReads.map (fun x => Out.data x.1 x.2.1 x.2.2 0 true .cmp) ∧
       t.rd F.HLX_VIRAL_OUT = maskOf ((List.range 16).filter (fun n => decide (s.portOf n = n))) ∧ t.adm.queue = [] ∧
       t.tmu.waits = [] ∧ t.near.reads = [] ∧ t.near.mem = s.near.mem ∧ t.tmu.map = s.tmu.map ∧
       Frame [.out, .adm, .tmu, .near, .dir, .clx, .cry] (fun key => key = F.HLX_VIRAL_OUT.key 0 0) s t) ∧
  (∀ (s : State),
     s.cry.halt = 2 →
     ∃ t,
       exec (.haltChainStop) s = .next t ∧ t.cry.halt = 3 ∧ t.clSends 0 = false ∧ t.clSends 1 = false ∧
       Frame [.cry] (fun _ => False) s t) ∧
  (∀ (s : State),
     s.cry.halt = 3 →
     ∃ t,
       exec (.haltZeroize) s = .next t ∧ t.cry.halt = 4 ∧ t.cry.root = none ∧ t.cry.kek = none ∧
       t.cry.slotKeys = [] ∧ t.cry.cross = [] ∧ t.cry.ide = [] ∧ t.clx.home = [] ∧ t.ctl.override = none ∧
       t.mem.canaries = [] ∧ t.mem.resumeHeader = [] ∧
       (∀ r < 64, t.rd F.CRY_RGN_GEN_CUR r = 0 ∧ t.rd F.CRY_RGN_GEN_PREV r = 0 ∧ t.rd F.CRY_RGN_REKEY_STATE r = 0 ∧ t.rd F.CRY_RGN_REKEY_QUEUED r = 0 ∧ t.rd F.CRY_RGN_KEY_BASE_GEN r = 0 ∧ t.rd F.CRY_RGN_KEY_KEY_BIND r = 0 ∧ t.rd F.TMU_RGN_POLICY_KEYGEN r = 0) ∧
       (Frame [.cry, .clx, .ctl, .mem] (fun key => ∃ r < 64, key = F.CRY_RGN_GEN_CUR.key r 0 ∨ key = F.CRY_RGN_GEN_PREV.key r 0 ∨ key = F.CRY_RGN_REKEY_STATE.key r 0 ∨ key = F.CRY_RGN_REKEY_QUEUED.key r 0 ∨ key = F.CRY_RGN_KEY_BASE_GEN.key r 0 ∨ key = F.CRY_RGN_KEY_KEY_BIND.key r 0 ∨ key = F.TMU_RGN_POLICY_KEYGEN.key r 0) s t)) ∧
  (∀ (s : State),
     s.cry.root.isSome = true → s.cry.halt = 0 → s.rd F.AON_PWR_MODE_CUR < 3 →
     ∃ t,
       exec (.trngHealthFail) s = .next t ∧ t.rd F.CRY_MODE_TRNG_OK = 0 ∧ t.cry = s.cry ∧
       (t.rd (F.EVT_RAW_CAUSE 8) 0).testBit 8 = true ∧
       (Frame [.evt] (fun key => key = F.CRY_MODE_TRNG_OK.key 0 0 ∨ key = (F.EVT_RAW_CAUSE 8).key 0 0) s t))

/-- The steps of a rekey (Table 4.6, R148, R151, R152).
Where it rests on the model's choices: log entries 47, 83, 108. -/
def Obligations.Rekey : Prop :=
  (∀ (s : State) (slot : Nat),
     s.cry.keyWait.contains slot = true → s.cry.halt = 0 →
     ∃ t,
       exec (.rekeyKeyReady slot) s = .next t ∧ t.cry.keyWait = nerase s.cry.keyWait slot ∧
       (t.tmu.moves = s.tmu.moves.map (fun m => if m.slot = slot ∧ m.stage = .keyWait then { m with stage := .compress } else m)) ∧
       Frame [.cry, .tmu, .cdc] (fun _ => False) s t) ∧
  (∀ (s : State) (slot : Nat) (tile : Nat) (e : Nat) (ent : CacheEnt),
     s.rekeying slot = true → s.scarabRuns = true → s.freeEngine = some e →
     s.walkNext slot ((mget s.cry.walks slot).getD 0) = some tile → mget s.tmu.cache (tkey slot tile) = some ent →
     ent.dirty = true → ent.tme.nv = false → ent.tme.fmt = .pattern → s.newest slot ent.tme = false →
     s.cry.keyWait.contains slot = false → (s.lockOf slot tile).isNone = true → s.expandOk slot tile ent.tme = true →
     s.tmeFault slot tile ent.tme = 0 → s.tmu.waits = [] → mget s.cry.cross (tkey slot tile) = none →
     s.cry.cross.length < 2048 → s.barred 19 14 (s.pairBucket 19 14) 4096 1 = 0 →
     ∃ t,
       exec (.rekeyWalkStep slot) s = .next t ∧
       t.tme slot tile = { ent.tme with gen := decide (s.curGen slot % 2 = 1), ctr := 0, tag := (BitVec.ofNat 64 (leNat (xorBytes ((s.expand slot tile (s.tme slot tile)).take 8) (s.sealStream slot tile (s.curGen slot) 0)))), saturated := false } ∧
       mget t.cry.walks slot = some (tile + 1) ∧ mget t.cry.cross (tkey slot tile) = none ∧
       Frame [.cry, .tmu, .adm, .evt] (fun key => InBlock 4 key) s t) ∧
  (∀ (s : State) (slot : Nat),
     slot < 64 → s.rekeying slot = true → s.serving = true → s.toCross slot = [] → crossOf slot s.cry.cross = [] →
     s.cry.keyWait.contains slot = false → s.ctl.background = [] → s.rd F.CRY_RGN_REKEY_QUEUED slot = 0 →
     ∃ t,
       exec (.rekeyDone slot) s = .next t ∧ t.rd F.CRY_RGN_GEN_PREV slot = 0 ∧ t.rd F.CRY_RGN_REKEY_STATE slot = 0 ∧
       t.cry.walks = mdel s.cry.walks slot ∧ t.adm.recompute = true ∧ (t.rd (F.EVT_RAW_CAUSE 8) 0).testBit 2 = true ∧
       (Frame [.cry, .adm, .evt] (fun key => key = F.CRY_RGN_GEN_PREV.key slot 0 ∨ key = F.CRY_RGN_REKEY_STATE.key slot 0 ∨ key = (F.EVT_RAW_CAUSE 8).key 0 0) s t))

/-- Commands that report (R299, R300; the layouts are the model's, log entry 15).
Where it rests on the model's choices: log entries 37, 38. -/
def Obligations.MailboxInfo : Prop :=
  (∀ (s : State) (h : Nat) (l : Nat),
     s.rd F.AON_PWR_MODE_CUR = 0 → s.aon.entry.stage = 0 → s.mboxUp (.ld h l) = true → s.mboxBusy (.ld h l) = false →
     ∃ t,
       exec (.getInfo (.ld h l) []) s = .next t ∧
       Answered s t (.ld h l) 0xc000 0 (resultHeader 0 0 ++ (leBytes 2 Config.avsarVersion ++ leBytes 1 ((List.range 64).filter (fun r => decide (s.rgnState r = 0))).length ++ leBytes 1 (b2n s.vk4) ++ leBytes 1 (s.ldCount h) ++ leBytes 3 0 ++ leBytes 4 (s.rd F.HLX_LD_QUEUES_QFIRST (hl h l)) ++ leBytes 4 (s.rd F.HLX_LD_QUEUES_QCOUNT (hl h l)))) ∧
       Frame [.out, .hlx] (fun _ => False) s t) ∧
  (∀ (s : State) (src : MboxSrc) (p : List (BitVec 8)) (d : Nat) (off : Nat) (n : Nat),
     s.rd F.AON_PWR_MODE_CUR = 0 → s.aon.entry.stage = 0 → s.mboxUp src = true → s.mboxBusy src = false →
     s.lacks src (.perm 0) = none → p.length = 8 → numAt p 0 2 = d → numAt p 2 2 = off → numAt p 4 4 = n → d ≤ 31 →
     1 ≤ n → n ≤ 1024 → s.rd F.BTC_DIMM_ID_PRESENT d = 1 →
     ∃ t,
       exec (.getSpd src p) s = .next t ∧
       Answered s t (src) 0xc034 0 (resultHeader 0 0 ++ (List.range n).map (fun i => Config.spd d (off + i))) ∧
       Frame [.out, .hlx] (fun _ => False) s t) ∧
  (∀ (s : State) (src : MboxSrc),
     s.rd F.AON_PWR_MODE_CUR = 0 → s.aon.entry.stage = 0 → s.mboxUp src = true → s.mboxBusy src = false →
     ∃ t,
       exec (.getPowerState src []) s = .next t ∧
       Answered s t (src) 0xc021 0 (resultHeader 0 0 ++ (leBytes 4 0 ++ leBytes 4 (s.rd F.AON_PWR_STS_LAST_WAKE))) ∧
       Frame [.out, .hlx] (fun _ => False) s t) ∧
  (∀ (s : State) (h : Nat) (l : Nat) (p : List (BitVec 8)) (r : Nat),
     s.rd F.AON_PWR_MODE_CUR = 0 → s.aon.entry.stage = 0 → s.mboxUp (.ld h l) = true → s.mboxBusy (.ld h l) = false →
     p.length = 4 → numAt p 0 4 = r → r < 64 → s.slotHeld r = false → s.admits h l r = true →
     ∃ t,
       exec (.regionQuery (.ld h l) p) s = .next t ∧
       Answered s t (.ld h l) 0xc005 0 (resultHeader 0 0 ++ (List.range 8).flatMap (fun i => leBytes 8 (s.regWord 6 (1 + r) (0x40 + 8 * i)))) ∧
       Frame [.out, .hlx] (fun _ => False) s t) ∧
  (∀ (s : State) (src : MboxSrc) (p : List (BitVec 8)) (n : Nat),
     s.rd F.AON_PWR_MODE_CUR = 0 → s.aon.entry.stage = 0 → s.mboxUp src = true → s.mboxBusy src = false →
     s.lacks src .fmOrDiag = none → p.length = 4 → 1 ≤ numAt p 0 4 → numAt p 0 4 ≤ 63 →
     n = min (numAt p 0 4) s.unread →
     ∃ t,
       exec (.getErrorLog src p) s = .next t ∧
       Answered s t (src) 0xc040 0 (resultHeader 0 0 ++ (leBytes 4 n ++ (List.range n).flatMap (fun i => (s.recordAt ((s.rd F.RAS_LOG_CONS + i) % 1024)).bytes))) ∧
       Frame [.out, .hlx] (fun _ => False) s t) ∧
  (∀ (s : State) (src : MboxSrc) (p : List (BitVec 8)),
     s.rd F.AON_PWR_MODE_CUR = 0 → s.aon.entry.stage = 0 → s.mboxUp src = true → s.mboxBusy src = false →
     p.length = 8 → s.lacks src (.perm 0) = some 0 →
     ∃ t,
       exec (.getSpd src p) s = .next t ∧ Answered s t (src) 0xc034 0 (resultHeader 1 0) ∧
       Frame [.out, .hlx] (fun _ => False) s t)

/-- Commands that set registers (R226, R247, R270, R271, R293, R301, R481).
Where it rests on the model's choices: log entries 37, 39, 56. -/
def Obligations.MailboxSettings : Prop :=
  (∀ (s : State) (src : MboxSrc) (p : List (BitVec 8)),
     s.rd F.AON_PWR_MODE_CUR = 0 → s.aon.entry.stage = 0 → s.mboxUp src = true → s.mboxBusy src = false →
     s.lacks src (.perm 0) = none → p.length = 4 → reservedAt p 2 2 = none → s.regionsPresent = 0 →
     numAt p 0 2 < 2 ^ 16 →
     ∃ t,
       exec (.setRetainSets src p) s = .next t ∧ t.rd F.BTC_RETAIN_SETS = numAt p 0 2 ||| 1 ∧
       Answered s t (src) 0xc030 0 (resultHeader 0 0 ++ []) ∧
       Frame [.out, .hlx] (fun key => key = F.BTC_RETAIN_SETS.key 0 0) s t) ∧
  (∀ (s : State) (src : MboxSrc) (p : List (BitVec 8)) (id : Nat),
     s.rd F.AON_PWR_MODE_CUR = 0 → s.aon.entry.stage = 0 → s.mboxUp src = true → s.mboxBusy src = false →
     s.lacks src (.perm 0) = none → p.length = 4 → numAt p 0 1 = id → numAt p 1 1 = 1 → 1 ≤ id → id ≤ 15 →
     reservedAt p 2 2 = none → s.setHeld id = false → s.regionsPresent = 0 →
     s.bulk.sets.any (fun r => decide (r.id = id)) = true → (s.rd F.RAS_RANK_STS_FAILING).testBit id = false →
     (s.rd F.RAS_RANK_STS_REMOVED).testBit id = false → s.rd F.RAS_SPARE_SET_VALID = 0 →
     s.rd F.TMU_CAP_TOTAL_SECTORS < 2 ^ 40 →
     ∃ t,
       exec (.setSpareSet src p) s = .next t ∧ t.rd F.RAS_SPARE_SET_SET = id ∧ t.rd F.RAS_SPARE_SET_VALID = 1 ∧
       t.rd F.TMU_CAP_TOTAL_SECTORS = s.rd F.TMU_CAP_TOTAL_SECTORS - s.setSectors id ∧
       (∀ e ∈ t.tmu.freeIv, s.inSet id e.1 = false) ∧ Answered s t (src) 0xc031 0 (resultHeader 0 0 ++ []) ∧
       (Frame [.out, .tmu, .hlx] (fun key => key = F.RAS_SPARE_SET_SET.key 0 0 ∨ key = F.RAS_SPARE_SET_VALID.key 0 0 ∨ key = F.TMU_CAP_TOTAL_SECTORS.key 0 0) s t)) ∧
  (∀ (s : State) (src : MboxSrc) (p : List (BitVec 8)) (i : Nat),
     s.rd F.AON_PWR_MODE_CUR = 0 → s.aon.entry.stage = 0 → s.mboxUp src = true → s.mboxBusy src = false →
     s.lacks src (.perm 0) = none → p.length = 32 → s.badHead p = none → i = hl (numAt p 0 1) (numAt p 1 1) →
     s.rangeHeld i = false → s.rangeRefused i (s.headRange p i) = false →
     ∃ t,
       exec (.headConfig src p) s = .next t ∧
       t.rd F.HLX_LD_QUEUES_QFIRST i = (s.headRange p i).1 % 2 ^ F.HLX_LD_QUEUES_QFIRST.width ∧
       t.rd F.HLX_LD_QUEUES_QCOUNT i = (s.headRange p i).2 % 2 ^ F.HLX_LD_QUEUES_QCOUNT.width ∧
       ((numAt p 24 8).testBit 2 = true → t.rd F.HLX_HEAD_LD_LD_COUNT (hl (numAt p 0 1) 0) = numAt p 2 1) ∧
       ((numAt p 24 8).testBit 3 = true → ∀ b < 4, t.rd (permField b) i = bits (numAt p 3 1) b b) ∧
       Answered s t (src) 0xc050 0 (resultHeader 0 0 ++ []) ∧
       (Frame [.out, .hlx] (fun key => key = F.HLX_HEAD_LD_LD_COUNT.key (hl (numAt p 0 1) 0) 0 ∨ (∃ b < 4, key = (permField b).key i 0) ∨ key = F.HLX_LD_QUEUES_QFIRST.key i 0 ∨ key = F.HLX_LD_QUEUES_QCOUNT.key i 0 ∨ key = F.HLX_LD_RGN_SLOTS.key i 0) s t)) ∧
  (∀ (s : State) (src : MboxSrc) (p : List (BitVec 8)) (ch : Nat),
     s.rd F.AON_PWR_MODE_CUR = 0 → s.aon.entry.stage = 0 → s.mboxUp src = true → s.mboxBusy src = false →
     s.lacks src (.perm 2) = none → p.length = 4 → numAt p 0 4 = 0x180 + ch → ch < 32 →
     ∃ t,
       exec (.setHold src p) s = .next t ∧ t.rd F.BTC_SC_CTL_HOLD ch = 1 ∧
       Answered s t (src) 0xc051 0 (resultHeader 0 0 ++ []) ∧
       Frame [.out, .hlx] (fun key => key = F.BTC_SC_CTL_HOLD.key ch 0) s t) ∧
  (∀ (s : State) (src : MboxSrc) (p : List (BitVec 8)) (ch : Nat),
     s.rd F.AON_PWR_MODE_CUR = 0 → s.aon.entry.stage = 0 → s.mboxUp src = true → s.mboxBusy src = false →
     s.lacks src (.perm 2) = none → p.length = 4 → numAt p 0 4 = 0x100 + ch → ch < 32 →
     ∃ t,
       exec (.setHold src p) s = .next t ∧ t.rd F.NTC_CH_CTL_HOLD ch = 1 ∧
       Answered s t (src) 0xc051 0 (resultHeader 0 0 ++ []) ∧
       Frame [.out, .hlx] (fun key => key = F.NTC_CH_CTL_HOLD.key ch 0) s t) ∧
  (∀ (s : State) (src : MboxSrc),
     s.rd F.AON_PWR_MODE_CUR = 0 → s.aon.entry.stage = 0 → s.mboxUp src = true → s.mboxBusy src = false →
     s.lacks src (.perm 0) = none →
     ∃ t,
       exec (.clearRetention src []) s = .next t ∧ t.retAny = false ∧
       Answered s t (src) 0xc033 0 (resultHeader 0 0 ++ []) ∧
       (Frame [.out, .hlx] (fun key => ∃ n < 256, key = F.RAS_RET_VALID.key 0 n ∨ key = F.RAS_RET_SUBCH.key 0 n ∨ key = F.RAS_RET_SET.key 0 n ∨ key = F.RAS_RET_BANK.key 0 n) s t)) ∧
  (∀ (s : State) (src : MboxSrc) (p : List (BitVec 8)),
     s.rd F.AON_PWR_MODE_CUR = 0 → s.aon.entry.stage = 0 → s.mboxUp src = true → s.mboxBusy src = false →
     s.lacks src (.perm 0) = none → p.length = 4 → 1 ≤ numAt p 0 4 → numAt p 0 4 ≤ s.unread →
     ∃ t,
       exec (.clearErrorLog src p) s = .next t ∧ t.rd F.RAS_LOG_CONS = (s.rd F.RAS_LOG_CONS + numAt p 0 4) % 1024 ∧
       t.ras.log = s.ras.log ∧ Answered s t (src) 0xc041 0 (resultHeader 0 0 ++ leBytes 4 (numAt p 0 4)) ∧
       Frame [.out, .ras, .hlx] (fun key => key = F.RAS_LOG_CONS.key 0 0) s t) ∧
  (∀ (s : State) (src : MboxSrc) (p : List (BitVec 8)) (tgt : Nat),
     s.rd F.AON_PWR_MODE_CUR = 0 → s.aon.entry.stage = 0 → s.mboxUp src = true → s.mboxBusy src = false →
     s.srcHas src F.HLX_HEAD_PERM_FM = true → p.length = 4 → numAt p 0 4 = tgt → (tgt = 1 ∨ tgt = 4) →
     ∃ t,
       exec (.setPowerState src p) s = .next t ∧ t.rd F.AON_PWR_MODE_TARGET = tgt ∧ t.rd F.AON_PWR_MODE_ARM = 1 ∧
       t.rd F.AON_PWR_STS_LAST_TARGET = tgt ∧ t.aon.entry.stage = 1 ∧
       Answered s t (src) 0xc020 0 (resultHeader 0 0 ++ []) ∧
       (Frame [.out, .aon, .hlx] (fun key => key = F.AON_PWR_MODE_TARGET.key 0 0 ∨ key = F.AON_PWR_MODE_ARM.key 0 0 ∨ key = F.AON_PWR_STS_LAST_TARGET.key 0 0) s t)) ∧
  (∀ (s : State) (src : MboxSrc) (p : List (BitVec 8)),
     s.rd F.AON_PWR_MODE_CUR = 0 → s.aon.entry.stage = 0 → s.mboxUp src = true → s.mboxBusy src = false →
     s.srcHas src F.HLX_HEAD_PERM_FM = false → p.length = 4 →
     ∃ t,
       exec (.setPowerState src p) s = .next t ∧ t.rd F.AON_PWR_STS_OUTCOME = 1 ∧
       (t.rd (F.EVT_RAW_CAUSE 0) 0).testBit 9 = true ∧ Answered s t (src) 0xc020 0 (resultHeader 1 0) ∧
       (Frame [.out, .evt, .hlx] (fun key => key = F.AON_PWR_STS_OUTCOME.key 0 0 ∨ key = (F.EVT_RAW_CAUSE 0).key 0 0) s t))

/-- Key commands (R140, R151, R154 to R156).
Where it rests on the model's choices: log entries 37, 83, 84. -/
def Obligations.MailboxKeys : Prop :=
  (∀ (s : State) (src : MboxSrc) (p : List (BitVec 8)),
     s.rd F.AON_PWR_MODE_CUR = 0 → s.aon.entry.stage = 0 → s.mboxUp src = true → s.mboxBusy src = false →
     s.lacks src (.perm 0) = none → p.length = 4 → numAt p 0 4 = 0 → s.regionsPresent = 0 →
     ∃ t,
       exec (.setKeyMode src p) s = .next t ∧ t.rd F.CRY_MODE_MODE = 0 ∧
       (∀ h < 16, t.rd F.TMU_HEAD_TAG_KEY_EN 0 h = 0) ∧ Answered s t (src) 0xc010 0 (resultHeader 0 0 ++ []) ∧
       (Frame [.out, .hlx] (fun key => key = F.CRY_MODE_MODE.key 0 0 ∨ ∃ h < 16, key = F.TMU_HEAD_TAG_KEY_EN.key 0 h) s t)) ∧
  (∀ (s : State) (src : MboxSrc) (p : List (BitVec 8)),
     s.rd F.AON_PWR_MODE_CUR = 0 → s.aon.entry.stage = 0 → s.mboxUp src = true → s.mboxBusy src = false →
     s.lacks src (.perm 0) = none → p.length = 4 → numAt p 0 4 = 1 → s.regionsPresent = 0 →
     ∃ t,
       exec (.setKeyMode src p) s = .next t ∧ t.rd F.CRY_MODE_MODE = 1 ∧
       Answered s t (src) 0xc010 0 (resultHeader 0 0 ++ []) ∧
       Frame [.out, .hlx] (fun key => key = F.CRY_MODE_MODE.key 0 0) s t) ∧
  (∀ (s : State) (h : Nat) (l : Nat) (sid : Nat) (p : List (BitVec 8)),
     s.rd F.AON_PWR_MODE_CUR = 0 → s.aon.entry.stage = 0 → s.mboxUp (.session h l sid) = true →
     s.mboxBusy (.session h l sid) = false → s.lacks (.session h l sid) (.perm 0) = none → p.length = 36 →
     reservedAt p 0 4 = none → s.wrapSession (.session h l sid) = true →
     ∃ t,
       exec (.loadWrapKey (.session h l sid) p) s = .next t ∧
       t.cry.kek = some (BitVec.ofNat 256 (beNat (bytesAt p 4 32))) ∧
       Answered s t (.session h l sid) 0xc011 0 (resultHeader 0 0 ++ []) ∧
       Frame [.out, .cry, .hlx] (fun _ => False) s t) ∧
  (∀ (s : State) (src : MboxSrc) (p : List (BitVec 8)) (k : Nat) (kek : BitVec 256),
     s.rd F.AON_PWR_MODE_CUR = 0 → s.aon.entry.stage = 0 → s.mboxUp src = true → s.mboxBusy src = false →
     s.lacks src (.perm 1) = none → p.length = 44 → numAt p 0 4 = k → k ≤ 63 → s.cry.kek = some kek →
     s.keyBound k = false →
     ∃ t,
       exec (.loadKeySlot src p) s = .next t ∧
       mget t.cry.slotKeys k = (match kwUnwrap (beBytes 32 kek.toNat) (bytesAt p 4 40) with | some key => some (BitVec.ofNat 256 (beNat key)) | none => mget s.cry.slotKeys k) ∧
       Answered s t (src) 0xc012 0 (if (kwUnwrap (beBytes 32 kek.toNat) (bytesAt p 4 40)).isSome then resultHeader 0 0 else resultHeader 0xa 2) ∧
       Frame [.out, .cry, .hlx] (fun _ => False) s t) ∧
  (∀ (s : State) (src : MboxSrc) (p : List (BitVec 8)) (k : Nat),
     s.rd F.AON_PWR_MODE_CUR = 0 → s.aon.entry.stage = 0 → s.mboxUp src = true → s.mboxBusy src = false →
     s.lacks src (.perm 1) = none → p.length = 4 → numAt p 0 4 = k → k ≤ 63 → s.keyBound k = false →
     ∃ t,
       exec (.clearKeySlot src p) s = .next t ∧ mget t.cry.slotKeys k = none ∧
       (∀ j, j ≠ k → mget t.cry.slotKeys j = mget s.cry.slotKeys j) ∧
       Answered s t (src) 0xc013 0 (resultHeader 0 0 ++ []) ∧ Frame [.out, .cry, .hlx] (fun _ => False) s t) ∧
  (∀ (s : State) (src : MboxSrc) (p : List (BitVec 8)) (r : Nat),
     s.rd F.AON_PWR_MODE_CUR = 0 → s.aon.entry.stage = 0 → s.mboxUp src = true → s.mboxBusy src = false →
     s.lacks src (.perm 0) = none → s.nearOnly = false → p.length = 4 → numAt p 0 4 = r → r < 64 → s.rgnState r = 1 →
     s.rgnType r ≠ 4 → s.slotHeld r = false → s.isDeleting r = false → s.rekeying r = false →
     s.curGen r < 0xffffffff →
     ∃ t,
       exec (.rekeyRegion src p) s = .next t ∧ t.rd F.CRY_RGN_GEN_CUR r = s.curGen r + 1 ∧
       t.rd F.CRY_RGN_GEN_PREV r = s.curGen r ∧ t.rd F.TMU_RGN_POLICY_KEYGEN r = s.curGen r + 1 ∧
       t.rekeying r = true ∧ t.rd F.CRY_RGN_REKEY_CAUSE r = 3 ∧ t.cry.keyWait = ninsert s.cry.keyWait r ∧
       (t.rd (F.EVT_RAW_CAUSE 8) 0).testBit 1 = true ∧
       t.ctl.background = s.ctl.background ++ [BgOp.mk src 0xc014 r] ∧ Answered s t (src) 0xc014 1 ([]) ∧
       (Frame [.out, .cry, .adm, .ctl, .evt, .hlx] (fun key => key = F.CRY_RGN_GEN_CUR.key r 0 ∨ key = F.CRY_RGN_GEN_PREV.key r 0 ∨ key = F.TMU_RGN_POLICY_KEYGEN.key r 0 ∨ key = F.CRY_RGN_REKEY_STATE.key r 0 ∨ key = F.CRY_RGN_REKEY_CAUSE.key r 0 ∨ key = (F.EVT_RAW_CAUSE 8).key 0 0) s t))

/-- REGION_CREATE and its initialization (R62, R80, R81, R139, R302). The order of the output's two fields is the
model's reading (log entry 15).
Where it rests on the model's choices: log entries 31, 37, 42, 43. -/
def Obligations.RegionCreate : Prop :=
  (∀ (s : State) (src : MboxSrc) (p : List (BitVec 8)) (c : Spec) (a : Nat) (rest : List (Nat × Nat)),
     s.rd F.AON_PWR_MODE_CUR = 0 → s.aon.entry.stage = 0 → s.mboxUp src = true → s.mboxBusy src = false →
     s.lacks src (.perm 0) = none → p.length = 64 → c = Spec.ofInput p → s.badCreate p = none → c.type = 2 →
     c.offer = false → s.nearOnly = false → s.slotHeld c.slot = false → s.rgnState c.slot = 0 →
     c.base + c.size ≤ 16384 → s.overlapped c.base c.size = none → s.vk4 = false → s.curGen c.slot < 0xffffffff →
     s.committed + c.commit ≤ s.rd F.TMU_CAP_TOTAL_SECTORS →
     ivFirstFit s.tmu.mapFree (c.size * 131072) = some (a, rest) →
     ∃ t,
       exec (.regionCreate src p) s = .next t ∧ t.rgnState c.slot = 1 ∧ t.rgnType c.slot = 2 ∧
       t.rd F.TMU_RGN_MAP_BASE c.slot = c.base % 2 ^ F.TMU_RGN_MAP_BASE.width ∧
       t.rd F.TMU_RGN_MAP_SIZE c.slot = c.size % 2 ^ F.TMU_RGN_MAP_SIZE.width ∧ t.owner c.slot = c.owner % 2 ^ 16 ∧
       t.rd F.TMU_RGN_POLICY_DEF_CLASS c.slot = c.defClass % 2 ^ F.TMU_RGN_POLICY_DEF_CLASS.width ∧
       t.curGen c.slot = s.curGen c.slot + 1 ∧ t.rd F.CRY_RGN_GEN_PREV c.slot = 0 ∧
       t.rd F.TMU_RGN_USED_USED c.slot = 0 ∧ t.rd F.TMU_RGN_INIT_WATERMARK c.slot = 0 ∧
       t.rd F.TMU_RGN_BUDGET_BUDGET c.slot = c.budget % 2 ^ F.TMU_RGN_BUDGET_BUDGET.width ∧
       t.rd F.TMU_RGN_RESERVE_RESERVE c.slot = reserveOf c.dirtyCap % 2 ^ F.TMU_RGN_RESERVE_RESERVE.width ∧
       t.rd F.TMU_RGN_MAPLOC_LOC c.slot = a % 2 ^ F.TMU_RGN_MAPLOC_LOC.width ∧ t.tmu.mapFree = rest ∧
       Answered s t (src) 0xc001 0 (resultHeader 0 0 ++ (leBytes 8 a ++ leBytes 8 (reserveOf c.dirtyCap))) ∧
       (Frame [.out, .tmu, .scr, .evt, .hlx] (fun key => InBlock 6 key ∨ InBlock 8 key ∨ key = (F.EVT_RAW_CAUSE 9).key 0 0) s t)) ∧
  (∀ (s : State) (r : Nat) (n : Nat),
     r < 64 → s.serving = true → s.rgnState r = 1 → s.isDeleting r = false → s.nearOnly = false → 0 < n →
     s.rd F.TMU_RGN_INIT_WATERMARK r + n < s.rgnTiles r → s.rgnTiles r < 2 ^ 32 →
     s.barred 19 13 (s.pairBucket 19 13) (32 * n) 1 = 0 →
     ∃ t,
       exec (.regionInitStep r n) s = .next t ∧
       t.rd F.TMU_RGN_INIT_WATERMARK r = s.rd F.TMU_RGN_INIT_WATERMARK r + n ∧ t.near = s.near ∧
       (Frame [.adm, .evt] (fun key => key = F.TMU_RGN_INIT_WATERMARK.key r 0 ∨ InBlock 4 key) s t)) ∧
  (∀ (s : State) (r : Nat) (n : Nat),
     r < 64 → s.serving = true → s.rgnState r = 1 → s.isDeleting r = false → s.nearOnly = false → 0 < n →
     s.rd F.TMU_RGN_INIT_WATERMARK r + n = s.rgnTiles r → s.rgnTiles r < 2 ^ 32 →
     s.barred 19 13 (s.pairBucket 19 13) (32 * n) 1 = 0 →
     ∃ t,
       exec (.regionInitStep r n) s = .next t ∧ t.rd F.TMU_RGN_INIT_WATERMARK r = s.rgnTiles r ∧
       (t.rd (F.EVT_RAW_CAUSE 6) 0).testBit 8 = true ∧
       (Frame [.adm, .evt] (fun key => key = F.TMU_RGN_INIT_WATERMARK.key r 0 ∨ InBlock 4 key ∨ key = (F.EVT_RAW_CAUSE 6).key 0 0) s t))

/-- Changes and deletion of a region (R62, R80, R81, R86, R227, R302).
Where it rests on the model's choices: log entries 37, 42, 44, 95, 104. -/
def Obligations.RegionChange : Prop :=
  (∀ (s : State) (src : MboxSrc) (p : List (BitVec 8)) (r : Nat),
     s.rd F.AON_PWR_MODE_CUR = 0 → s.aon.entry.stage = 0 → s.mboxUp src = true → s.mboxBusy src = false →
     s.lacks src (.perm 0) = none → p.length = 64 → numAt p 0 1 = r → r < 64 → s.slotHeld r = false →
     s.isDeleting r = false → s.rgnState r ≠ 0 → s.rgnType r = 1 → s.badSet p r = none →
     (numAt p 60 4).testBit 5 = false → (numAt p 60 4).testBit 8 = false → (numAt p 60 4).testBit 9 = false →
     chosen p 4 1 (s.rd F.TMU_RGN_POLICY_TIER r) = s.rd F.TMU_RGN_POLICY_TIER r → s.rd F.TMU_RGN_POLICY_TIER r < 3 →
     ∃ t,
       exec (.regionSet src p) s = .next t ∧
       t.rd F.TMU_RGN_POLICY_DEF_CLASS r = chosen p 2 1 (s.rd F.TMU_RGN_POLICY_DEF_CLASS r) % 2 ^ F.TMU_RGN_POLICY_DEF_CLASS.width ∧
       t.rd F.TMU_RGN_POLICY_LEVEL r = min 9 (chosen p 3 1 (s.rd F.TMU_RGN_POLICY_LEVEL r)) ∧
       t.rd F.TMU_RGN_THRESH_T1 r = clampTo 1 99 (chosen p 28 1 (s.rd F.TMU_RGN_THRESH_T1 r)) ∧
       t.owner r = s.owner r ∧ Answered s t (src) 0xc003 0 (resultHeader 0 0 ++ []) ∧
       (Frame [.out, .hlx] (fun key => key = F.TMU_RGN_POLICY_DEF_CLASS.key r 0 ∨ key = F.TMU_RGN_POLICY_LEVEL.key r 0 ∨ key = F.TMU_RGN_POLICY_EXPORT_UNIT.key r 0 ∨ key = F.TMU_RGN_POLICY_TIER.key r 0 ∨ key = F.TMU_RGN_THRESH_T1.key r 0 ∨ key = F.TMU_RGN_THRESH_T2.key r 0 ∨ key = F.TMU_RGN_THRESH_T3.key r 0) s t)) ∧
  (∀ (s : State) (src : MboxSrc) (p : List (BitVec 8)) (r : Nat) (n : Nat),
     s.rd F.AON_PWR_MODE_CUR = 0 → s.aon.entry.stage = 0 → s.mboxUp src = true → s.mboxBusy src = false →
     s.lacks src (.perm 0) = none → p.length = 12 → numAt p 0 4 = r → numAt p 4 8 = n → r < 64 →
     s.slotHeld r = false → s.isDeleting r = false → s.rgnState r = 1 → s.rgnType r = 2 →
     s.committed + n ≤ s.rd F.TMU_CAP_TOTAL_SECTORS → s.rd F.TMU_RGN_BUDGET_BUDGET r + n < 2 ^ 40 →
     ∃ t,
       exec (.regionGrant src p) s = .next t ∧ t.rd F.TMU_RGN_BUDGET_BUDGET r = s.rd F.TMU_RGN_BUDGET_BUDGET r + n ∧
       t.rgnState r = 1 ∧
       Answered s t (src) 0xc004 0 (resultHeader 0 0 ++ leBytes 8 (s.rd F.TMU_RGN_BUDGET_BUDGET r + n)) ∧
       (Frame [.out, .evt, .hlx] (fun key => key = F.TMU_RGN_BUDGET_BUDGET.key r 0 ∨ key = F.TMU_RGN_THRESH_LEVEL.key r 0 ∨ key = F.TMU_PRESS_PEND_SLOT.key 0 0 ∨ key = (F.EVT_RAW_CAUSE 6).key 0 0) s t)) ∧
  (∀ (s : State) (src : MboxSrc) (p : List (BitVec 8)) (r : Nat),
     s.rd F.AON_PWR_MODE_CUR = 0 → s.aon.entry.stage = 0 → s.mboxUp src = true → s.mboxBusy src = false →
     s.lacks src (.perm 0) = none → p.length = 4 → numAt p 0 4 = r → r < 64 → s.slotHeld r = false →
     s.isDeleting r = false → s.rgnState r ≠ 0 → s.rgnType r ≠ 3 → (∀ m ∈ s.tmu.moves, m.slot ≠ r) →
     s.rd F.BTC_RET_PEND_SLOT < 2 ^ 64 →
     ∃ t,
       exec (.regionDelete src p) s = .next t ∧ t.isDeleting r = true ∧
       t.tmu.deleting = s.tmu.deleting ++ [(r, s.tmu.nextId)] ∧ mget t.tmu.offers r = none ∧
       t.scr.pinWalks = mdel s.scr.pinWalks r ∧ (t.rd F.BTC_RET_PEND_SLOT).testBit r = false ∧
       t.ctl.background = s.ctl.background ++ [BgOp.mk src 0xc002 r] ∧ Answered s t (src) 0xc002 1 ([]) ∧
       Frame [.out, .tmu, .scr, .ctl, .hlx] (fun key => key = F.BTC_RET_PEND_SLOT.key 0 0) s t) ∧
  (∀ (s : State) (r : Nat),
     r < 64 → s.isDeleting r = true → s.quiet r = true → s.aon.held = false → s.aon.off = 0 → s.cry.halt = 0 →
     s.nearOnly = false → s.rgnType r = 2 → s.entries r = [] → s.hlx.memclr = [] → s.ctl.background = [] →
     s.tmu.orphans = [] →
     ∃ t,
       exec (.regionDeleteDone r) s = .next t ∧ t.rgnState r = 0 ∧ t.rgnType r = 0 ∧ t.owner r = 0 ∧
       t.isDeleting r = false ∧ (∀ e ∈ t.near.ftes, e.2.slot ≠ r) ∧ (∀ e ∈ t.tmu.cache, keySlot e.1 ≠ r) ∧
       t.tmu.mapFree = ivInsert s.tmu.mapFree (s.rd F.TMU_RGN_MAPLOC_LOC r) (s.rd F.TMU_RGN_MAP_SIZE r * 131072) ∧
       t.cry.slotKeys = s.cry.slotKeys ∧
       (Frame [.tmu, .near, .cry, .scr, .evt, .adm] (fun key => InBlock 6 key ∨ InBlock 8 key ∨ key = (F.EVT_RAW_CAUSE 9).key 0 0) s t)) ∧
  (∀ (s : State) (r : Nat),
     r < 64 → s.scarabRuns = true → (s.rd F.BTC_RET_PEND_SLOT).testBit r = true → s.rd F.BTC_RET_PEND_SLOT < 2 ^ 64 →
     s.fixedSlots r = false → s.outside r = [] → (∀ m ∈ s.tmu.moves, m.slot ≠ r) →
     ∃ t,
       exec (.retainRelocationDone r) s = .next t ∧ (t.rd F.BTC_RET_PEND_SLOT).testBit r = false ∧
       Frame [] (fun key => key = F.BTC_RET_PEND_SLOT.key 0 0) s t)

/-- Dynamic capacity (R285, R286; opcodes and return codes of the CXL specification, log entry 15).
Where it rests on the model's choices: log entries 41, 116. -/
def Obligations.DynamicCapacity : Prop :=
  (∀ (s : State) (h : Nat) (l : Nat) (r : Nat),
     s.rd F.AON_PWR_MODE_CUR = 0 → s.aon.entry.stage = 0 → s.mboxUp (.ld h l) = true → s.mboxBusy (.ld h l) = false →
     h < 16 → r < 64 → s.offered h r = true → s.ldMask h l r = true → s.owner r < 2 ^ 16 →
     ∃ t,
       exec (.dcAddAccept h l r none) s = .next t ∧ (t.owner r).testBit h = true ∧
       t.tmu.offers = mput s.tmu.offers r (clrBit ((mget s.tmu.offers r).getD 0) h) ∧
       Answered s t (.ld h l) 0x4802 0 ([]) ∧
       Frame [.out, .tmu, .hlx] (fun key => key = F.TMU_RGN_MAP_OWNER.key r 0) s t) ∧
  (∀ (s : State) (h : Nat) (l : Nat) (r : Nat) (n : Nat),
     s.rd F.AON_PWR_MODE_CUR = 0 → s.aon.entry.stage = 0 → s.mboxUp (.ld h l) = true → s.mboxBusy (.ld h l) = false →
     r < 64 → s.rgnState r = 1 → s.isDeleting r = false → s.rgnType r = 2 → s.admits h l r = true → 0 < n →
     n % dcBlock = 0 → s.committed + n ≤ s.rd F.TMU_CAP_TOTAL_SECTORS → s.rd F.TMU_RGN_BUDGET_BUDGET r + n < 2 ^ 40 →
     ∃ t,
       exec (.dcAddAccept h l r (some n)) s = .next t ∧
       t.rd F.TMU_RGN_BUDGET_BUDGET r = s.rd F.TMU_RGN_BUDGET_BUDGET r + n ∧ Answered s t (.ld h l) 0x4802 0 ([]) ∧
       (Frame [.out, .evt, .hlx] (fun key => key = F.TMU_RGN_BUDGET_BUDGET.key r 0 ∨ key = F.TMU_RGN_THRESH_LEVEL.key r 0 ∨ key = F.TMU_PRESS_PEND_SLOT.key 0 0 ∨ key = (F.EVT_RAW_CAUSE 6).key 0 0) s t)) ∧
  (∀ (s : State) (h : Nat) (l : Nat) (r : Nat),
     s.rd F.AON_PWR_MODE_CUR = 0 → s.aon.entry.stage = 0 → s.mboxUp (.ld h l) = true → s.mboxBusy (.ld h l) = false →
     h < 16 → r < 64 → s.offered h r = true → s.ldMask h l r = true → s.owner r ≠ 0 →
     ∃ t,
       exec (.dcAddRefuse h l r) s = .next t ∧
       t.tmu.offers = mput s.tmu.offers r (clrBit ((mget s.tmu.offers r).getD 0) h) ∧ t.rgnState r = s.rgnState r ∧
       Answered s t (.ld h l) 0x4802 0 ([]) ∧ Frame [.out, .tmu, .hlx] (fun _ => False) s t) ∧
  (∀ (s : State) (h : Nat) (l : Nat) (r : Nat),
     s.rd F.AON_PWR_MODE_CUR = 0 → s.aon.entry.stage = 0 → s.mboxUp (.ld h l) = true → s.mboxBusy (.ld h l) = false →
     h < 16 → r < 64 → s.rgnState r ≠ 0 → s.isDeleting r = false → s.rgnType r ≠ 3 → s.admits h l r = true →
     mget s.tmu.offers r = none → s.owner r < 2 ^ 16 →
     ∃ t,
       exec (.dcRelease h l r) s = .next t ∧ t.owner r = clrBit (s.owner r) h ∧
       Answered s t (.ld h l) 0x4803 0 ([]) ∧ Frame [.out, .hlx] (fun key => key = F.TMU_RGN_MAP_OWNER.key r 0) s t)

/-- Queue commands (R366, R369, R371), doorbells (R295, R374) and coalescing (R388).
Where it rests on the model's choices: log entries 37, 87, 89, 96. -/
def Obligations.QueueCommands : Prop :=
  (∀ (s : State) (h : Nat) (l : Nat) (p : List (BitVec 8)) (q : Nat) (n : Qctx),
     s.rd F.AON_PWR_MODE_CUR = 0 → s.aon.entry.stage = 0 → s.mboxUp (.ld h l) = true → s.mboxBusy (.ld h l) = false →
     p.length = 68 → numAt p 0 4 = q → s.ldOwnsQueue h l q = true → s.job.disabling = [] →
     s.job.cache.length ≤ 16384 → (mget s.job.cache q).isSome = true → s.job.lostCtx.contains q = false →
     (s.ctx q).state = 0 → n = qctxImage (p.drop 4) (h + 16 * l) (s.vectors h) → s.activation n = 0 →
     ∃ t,
       exec (.queueSet (.ld h l) p) s = .next t ∧ t.ctx q = { n with state := 1, phase := true } ∧
       mget t.job.coal q = none ∧
       Answered s t (.ld h l) 0xc060 0 (resultHeader 0 0 ++ ({ n with state := 1, phase := true } : Qctx).bytes) ∧
       Frame [.out, .job, .evt, .hlx] (fun key => InBlock 9 key) s t) ∧
  (∀ (s : State) (h : Nat) (l : Nat) (p : List (BitVec 8)) (q : Nat),
     s.rd F.AON_PWR_MODE_CUR = 0 → s.aon.entry.stage = 0 → s.mboxUp (.ld h l) = true → s.mboxBusy (.ld h l) = false →
     p.length = 4 → numAt p 0 4 = q → s.ldOwnsQueue h l q = true → s.job.disabling = [] →
     s.job.cache.length ≤ 16384 → (mget s.job.cache q).isSome = true → s.job.lostCtx.contains q = false →
     (∀ j ∈ s.job.jobs, j.queue ≠ q) → (s.ctx q).typ = 0 →
     ∃ t,
       exec (.queueDisable (.ld h l) p) s = .next t ∧ t.ctx q = { s.ctx q with state := 0 } ∧
       Answered s t (.ld h l) 0xc061 0 (resultHeader 0 0 ++ []) ∧
       Frame [.out, .job, .evt, .hlx] (fun key => InBlock 9 key) s t) ∧
  (∀ (s : State) (h : Nat) (l : Nat) (p : List (BitVec 8)) (q : Nat),
     s.rd F.AON_PWR_MODE_CUR = 0 → s.aon.entry.stage = 0 → s.mboxUp (.ld h l) = true → s.mboxBusy (.ld h l) = false →
     p.length = 4 → numAt p 0 4 = q → s.ldOwnsQueue h l q = true → s.job.cache.length ≤ 16384 →
     (mget s.job.cache q).isSome = true → s.job.lostCtx.contains q = false →
     ∃ t,
       exec (.queueQuery (.ld h l) p) s = .next t ∧ t.job.ctxs = s.job.ctxs ∧
       Answered s t (.ld h l) 0xc062 0 (resultHeader 0 0 ++ (s.ctx q).bytes) ∧
       Frame [.out, .job, .evt, .hlx] (fun key => InBlock 9 key) s t) ∧
  (∀ (s : State) (h : Nat) (l : Nat) (q : Nat) (value : BitVec 32) (be : BitVec 64),
     s.rd F.AON_PWR_MODE_CUR = 0 → s.aon.entry.stage = 0 → s.windowUp h l = true →
     s.rdb F.HLX_PORT_STS_VIRAL_IN h = false → (∀ i < 4, be.getLsbD i = true) → s.ldOwnsQueue h l q = true →
     s.rd F.AON_PWR_MODE_TARGET ≠ 3 → s.job.cache.length ≤ 16384 → (mget s.job.cache q).isSome = true →
     s.job.lostCtx.contains q = false → (s.ctx q).typ = 0 →
     ∃ t,
       exec (.doorbellWrite h l q value be) s = .next t ∧
       t.ctx q = { s.ctx q with tail := value.toNat % (s.ctx q).size } ∧
       Frame [.job, .evt] (fun key => InBlock 9 key) s t) ∧
  (∀ (s : State) (h : Nat) (l : Nat) (q : Nat) (value : BitVec 32) (be : BitVec 64),
     s.rd F.AON_PWR_MODE_CUR = 0 → s.aon.entry.stage = 0 → s.windowUp h l = true →
     s.rdb F.HLX_PORT_STS_VIRAL_IN h = false → h < 16 → l < 4 → (∀ i < 4, be.getLsbD i = true) →
     s.ldOwnsQueue h l q = false → s.rd F.HLX_HEAD_STS_DB_REJECT (hl h l) + 1 < 2 ^ F.HLX_HEAD_STS_DB_REJECT.width →
     ∃ t,
       exec (.doorbellWrite h l q value be) s = .next t ∧
       t.rd F.HLX_HEAD_STS_DB_REJECT (hl h l) = s.rd F.HLX_HEAD_STS_DB_REJECT (hl h l) + 1 ∧ t.job = s.job ∧
       (mget s.hlx.rejEpoch (hl h l) ≠ some s.epoch → (t.rd (F.EVT_RAW_CAUSE 2) (1 + h)).testBit 10 = true) ∧
       Frame [.hlx, .evt] (fun key => InBlock 2 key) s t) ∧
  (∀ (s : State) (h : Nat) (l : Nat) (q : Nat) (value : BitVec 32) (be : BitVec 64),
     s.rd F.AON_PWR_MODE_CUR = 0 → s.aon.entry.stage = 0 → s.windowUp h l = true →
     s.rdb F.HLX_PORT_STS_VIRAL_IN h = true → h < 16 →
     s.rd F.HLX_PORT_ERRCNT_VIRAL_DROP h + 1 < 2 ^ F.HLX_PORT_ERRCNT_VIRAL_DROP.width →
     ∃ t,
       exec (.doorbellWrite h l q value be) s = .next t ∧
       t.rd F.HLX_PORT_ERRCNT_VIRAL_DROP h = s.rd F.HLX_PORT_ERRCNT_VIRAL_DROP h + 1 ∧ t.job = s.job ∧
       t.out = s.out ∧ Frame [.evt] (fun key => key = F.HLX_PORT_ERRCNT_VIRAL_DROP.key h 0) s t) ∧
  (∀ (s : State) (h : Nat) (l : Nat) (q : Nat) (tag : Nat),
     s.rd F.AON_PWR_MODE_CUR = 0 → s.aon.entry.stage = 0 → s.windowUp h l = true → s.ldOwnsQueue h l q = true →
     s.job.cache.length ≤ 16384 → (mget s.job.cache q).isSome = true → s.job.lostCtx.contains q = false →
     ∃ t,
       exec (.doorbellRead h l q tag) s = .next t ∧
       t.out = s.out ++ [Out.data h l tag (BitVec.ofNat 512 ((s.ctx q).tail + 2 ^ 32 * (s.ctx q).head)) false .cmp] ∧
       t.job.ctxs = s.job.ctxs ∧ Frame [.out, .job, .evt] (fun key => InBlock 9 key) s t) ∧
  (∀ (s : State) (h : Nat) (l : Nat) (q : Nat) (tag : Nat),
     s.rd F.AON_PWR_MODE_CUR = 0 → s.aon.entry.stage = 0 → s.windowUp h l = true → s.ldOwnsQueue h l q = false →
     ∃ t,
       exec (.doorbellRead h l q tag) s = .next t ∧ t.out = s.out ++ [Out.data h l tag 0 false .cmp] ∧
       Frame [.out] (fun _ => False) s t) ∧
  (∀ (s : State) (q : Nat) (n : Nat) (first : Nat) (e : MsixEnt),
     s.aon.held = false → s.aon.off = 0 → s.cry.halt = 0 → s.rd F.AON_PWR_MODE_CUR < 3 →
     mget s.job.coal q = some (n, first) → 0 < n → (s.ctx q).intEn = true → (s.ctx q).coalTime ≠ 0 →
     first + (s.ctx q).coalTime ≤ s.tickNo → s.headUp ((s.ctx q).owner % 16) = true →
     e = s.msixEnt ((s.ctx q).owner % 16) ((s.ctx q).owner / 16) (s.ctx q).vector → e.masked = false →
     ∃ t,
       exec (.coalTimeExpiry q) s = .next t ∧
       t.out = s.out ++ [Out.msix ((s.ctx q).owner % 16) ((s.ctx q).owner / 16) (s.ctx q).vector e.addr e.data] ∧
       mget t.job.coal q = none ∧ Frame [.out, .job] (fun _ => False) s t) ∧
  (∀ (s : State) (q : Nat) (n : Nat) (first : Nat) (e : MsixEnt),
     s.aon.held = false → s.aon.off = 0 → s.cry.halt = 0 → s.rd F.AON_PWR_MODE_CUR < 3 →
     mget s.job.coal q = some (n, first) → 0 < n → (s.ctx q).intEn = true → (s.ctx q).coalTime ≠ 0 →
     first + (s.ctx q).coalTime ≤ s.tickNo → s.headUp ((s.ctx q).owner % 16) = true →
     e = s.msixEnt ((s.ctx q).owner % 16) ((s.ctx q).owner / 16) (s.ctx q).vector → e.masked = true →
     ∃ t,
       exec (.coalTimeExpiry q) s = .next t ∧
       t.hlx.msixPend = ninsert s.hlx.msixPend (msixKey ((s.ctx q).owner % 16) ((s.ctx q).owner / 16) (s.ctx q).vector) ∧
       t.hlx.msix = s.hlx.msix ∧ mget t.job.coal q = none ∧ Frame [.job, .hlx] (fun _ => False) s t)

/-- DESCRIPTOR_FETCH (R383) with an engine as R188 allows; here the ring line's tile is not in the tile map cache. NOP, FENCE (R393) and the end of a job (R387, R389).
Where it rests on the model's choices: log entries 20, 47, 87, 88. -/
def Obligations.FetchAndSimpleJobs : Prop :=
  (∀ (s : State) (q : Nat) (k : Nat) (e : Nat) (r : Nat) (c : Qctx) (d : Qctx),
     s.jobsRun = true → s.paused = false → s.rd F.AON_PWR_MODE_TARGET ≠ 3 → s.mayFetch q = true →
     s.fetchTurn q = true → s.ctx q = c → c.cq = k → q ≠ k → s.ctx k = d → d.typ = 1 → d.state = 1 → 0 < d.free →
     s.jobEngine = some e → s.job.cache.length < 16384 → (mget s.job.cache q).isSome = true →
     (mget s.job.cache k).isSome = true → s.job.lostCtx = [] →
     (∀ j ∈ s.job.jobs, j.phase ≠ .ended ∧ j.id < s.job.nextJob) → s.barred 18 c.cls c.bucket 64 1 = 0 →
     s.regionAt (c.base + 64 * c.head) s.tmu.nextId = some r → s.admits (c.owner % 16) (c.owner / 16) r = true →
     s.vk4 = false → s.rgnState r = 1 → s.rgnType r ≠ 4 → s.nearOnly = false → s.ras.sweep = none →
     s.cached r ((c.base + 64 * c.head - s.rgnBase r) / 4096) = false →
     ∃ t,
       exec (.descriptorFetch q) s = .next t ∧ t.job.nextJob = s.job.nextJob + 1 ∧
       (t.ctx k).reserved = d.reserved + 1 ∧
       (t.jobOf s.job.nextJob).map (fun j => (j.queue, j.index, j.phase, j.engine)) = some (q, c.head, .fetching, some e) ∧
       (∃ w ∈ t.tmu.waits, w.req.org = .job s.job.nextJob 0 0 ∧ w.req.kind = .read ∧ w.req.addr = c.base + 64 * c.head ∧ w.why = .miss) ∧
       (Frame [.job, .tmu, .adm, .evt, .mem, .cry] (fun key => InBlock 4 key ∨ InBlock 9 key ∨ (∃ i < 32, key ∈ [F.BTC_SC_STS_RQ.key i 0, F.BTC_SC_STS_WQ.key i 0, F.BTC_SC_STS_DRAIN.key i 0, F.BTC_SC_STS_FB.key i 0])) s t)) ∧
  (∀ (s : State) (j : Job),
     s.jobsRun = true → s.paused = false → s.job.jobs = [j] → j.phase = .waiting → j.parts = [] → j.abort = 0 →
     j.status = none → j.before = [] → j.next = 0 → j.blocks = [] → j.op = 0 → j.flags.testBit 1 = true →
     s.job.disabling = [] → (s.ctx j.queue).typ = 0 → (s.ctx j.queue).cq ≠ j.queue →
     s.rd F.SCR_JOB_DONE_JOBS + 1 < 2 ^ 48 →
     ∃ t,
       exec (.nop j.id) s = .next t ∧ t.job.jobs = [] ∧ (t.ctx j.queue).jobs = ((s.ctx j.queue).jobs + 1) % 2 ^ 32 ∧
       t.rd F.SCR_JOB_DONE_JOBS = s.rd F.SCR_JOB_DONE_JOBS + 1 ∧
       Frame [.job, .evt, .cdc] (fun key => InBlock 9 key) s t) ∧
  (∀ (s : State) (j : Job),
     s.jobsRun = true → s.paused = false → s.job.jobs = [j] → j.phase = .waiting → j.parts = [] → j.abort = 0 →
     j.status = none → j.before = [] → j.next = 0 → j.blocks = [] → j.op = 1 → j.flags.testBit 1 = true →
     s.job.disabling = [] → (s.ctx j.queue).typ = 0 → (s.ctx j.queue).cq ≠ j.queue →
     s.rd F.SCR_JOB_DONE_JOBS + 1 < 2 ^ 48 →
     ∃ t,
       exec (.fence j.id) s = .next t ∧ t.job.jobs = [] ∧
       (t.ctx j.queue).jobs = ((s.ctx j.queue).jobs + 1) % 2 ^ 32 ∧
       t.rd F.SCR_JOB_DONE_JOBS = s.rd F.SCR_JOB_DONE_JOBS + 1 ∧
       Frame [.job, .evt, .cdc] (fun key => InBlock 9 key) s t) ∧
  (∀ (s : State) (j : Job) (p : JobPart),
     s.jobsRun = true → s.paused = false → s.job.jobs = [j] → j.phase = .running → j.op = 0x11 → j.out = none →
     j.abort = 0 → j.status = none → j.blocks = [] → j.next = j.len → j.parts = [p] → p.move = false →
     p.begun = true → p.reads = 0 → p.writes = 0 → p.fault = none → j.flags.testBit 1 = true → s.job.disabling = [] →
     (s.ctx j.queue).typ = 0 → (s.ctx j.queue).cq ≠ j.queue → s.rd F.SCR_JOB_DONE_JOBS + 1 < 2 ^ 48 →
     ∃ t,
       exec (.jobPartDone j.id { sectors := [], lines := [], pipes := noFaults } []) s = .next t ∧ t.job.jobs = [] ∧
       (t.ctx j.queue).jobs = ((s.ctx j.queue).jobs + 1) % 2 ^ 32 ∧
       t.rd F.SCR_JOB_DONE_JOBS = s.rd F.SCR_JOB_DONE_JOBS + 1 ∧
       (Frame [.job, .adm, .evt, .cdc] (fun key => InBlock 4 key ∨ InBlock 9 key) s t))

/-- The start of data jobs (R384, R386, R392).
Where it rests on the model's choices: log entries 20, 47, 87, 120. -/
def Obligations.DataJobs : Prop :=
  (∀ (s : State) (j : Job) (r : Nat),
     s.jobsRun = true → s.paused = false → s.job.jobs = [j] → j.phase = .waiting → j.parts = [] → j.abort = 0 →
     j.status = none → j.before = [] → j.next = 0 → j.blocks = [] → j.op = 0x11 → j.out = none → j.len = 64 →
     j.dst % 64 = 0 → s.regionAt j.dst s.tmu.nextId = some r → s.admits (j.owner % 16) (j.owner / 16) r = true →
     s.vk4 = false → s.rgnState r = 1 → s.rgnType r ≠ 4 → s.nearOnly = false → s.ras.sweep = none →
     s.cached r ((j.dst - s.rgnBase r) / 4096) = false → s.barred 18 j.cls j.bucket 64 1 = 0 →
     s.rd F.SCR_JOB_CFG_PARTS ≠ 0 →
     ∃ t,
       exec (.fill j.id) s = .next t ∧
       (∃ w ∈ t.tmu.waits, w.req.org = .job j.id 3 0 ∧ w.req.kind = .write ∧ w.req.addr = j.dst ∧ w.why = .miss ∧ w.slot = r ∧ w.req.data = lineOf (j.pattern8 0 64)) ∧
       t.job.jobs = [{ j with phase := .running, parts := [{ s.newPart 0 64 with begun := true, writes := 1 }], next := 64 }] ∧
       (Frame [.job, .tmu, .adm, .evt, .mem, .cry, .cdc] (fun key => InBlock 4 key ∨ (∃ i < 32, key ∈ [F.BTC_SC_STS_RQ.key i 0, F.BTC_SC_STS_WQ.key i 0, F.BTC_SC_STS_DRAIN.key i 0, F.BTC_SC_STS_FB.key i 0])) s t)) ∧
  (∀ (s : State) (j : Job) (r : Nat),
     s.jobsRun = true → s.paused = false → s.job.jobs = [j] → j.phase = .waiting → j.parts = [] → j.abort = 0 →
     j.status = none → j.before = [] → j.next = 0 → j.blocks = [] → j.op = 0x12 → j.out = none → j.len = 64 →
     j.dst % 64 = 0 → s.regionAt j.dst s.tmu.nextId = some r → s.admits (j.owner % 16) (j.owner / 16) r = true →
     s.vk4 = false → s.rgnState r = 1 → s.rgnType r ≠ 4 → s.nearOnly = false → s.ras.sweep = none →
     s.cached r ((j.dst - s.rgnBase r) / 4096) = false → s.barred 18 j.cls j.bucket 64 1 = 0 →
     s.rd F.SCR_JOB_CFG_PARTS ≠ 0 →
     ∃ t,
       exec (.zero j.id) s = .next t ∧
       (∃ w ∈ t.tmu.waits, w.req.org = .job j.id 3 0 ∧ w.req.kind = .write ∧ w.req.addr = j.dst ∧ w.why = .miss ∧ w.slot = r ∧ w.req.data = 0) ∧
       t.job.jobs = [{ j with phase := .running, parts := [{ s.newPart 0 64 with begun := true, writes := 1 }], next := 64 }] ∧
       (Frame [.job, .tmu, .adm, .evt, .mem, .cry, .cdc] (fun key => InBlock 4 key ∨ (∃ i < 32, key ∈ [F.BTC_SC_STS_RQ.key i 0, F.BTC_SC_STS_WQ.key i 0, F.BTC_SC_STS_DRAIN.key i 0, F.BTC_SC_STS_FB.key i 0])) s t)) ∧
  (∀ (s : State) (j : Job) (r : Nat),
     s.jobsRun = true → s.paused = false → s.job.jobs = [j] → j.phase = .waiting → j.parts = [] → j.abort = 0 →
     j.status = none → j.before = [] → j.next = 0 → j.blocks = [] → j.op = 0x10 → j.out = none → j.len = 64 →
     j.src % 64 = 0 → j.late = none → j.acc = [] → j.dst % 64 = 0 → s.regionAt j.src s.tmu.nextId = some r →
     s.admits (j.owner % 16) (j.owner / 16) r = true → s.vk4 = false → s.rgnState r = 1 → s.rgnType r ≠ 4 →
     s.nearOnly = false → s.ras.sweep = none → s.cached r ((j.src - s.rgnBase r) / 4096) = false →
     s.barred 18 j.cls j.bucket 64 1 = 0 → s.rd F.SCR_JOB_CFG_PARTS ≠ 0 →
     ∃ t,
       exec (.copy j.id) s = .next t ∧
       (∃ w ∈ t.tmu.waits, w.req.org = .job j.id 2 0 ∧ w.req.kind = .read ∧ w.req.addr = j.src ∧ w.why = .miss ∧ w.slot = r) ∧
       t.job.jobs = [{ j with phase := .running, parts := [{ s.newPart 0 64 with reads := 1 }], next := 64 }] ∧
       (Frame [.job, .tmu, .adm, .evt, .mem, .cry, .cdc] (fun key => InBlock 4 key ∨ (∃ i < 32, key ∈ [F.BTC_SC_STS_RQ.key i 0, F.BTC_SC_STS_WQ.key i 0, F.BTC_SC_STS_DRAIN.key i 0, F.BTC_SC_STS_FB.key i 0])) s t)) ∧
  (∀ (s : State) (j : Job) (r : Nat),
     s.jobsRun = true → s.paused = false → s.job.jobs = [j] → j.phase = .waiting → j.parts = [] → j.abort = 0 →
     j.status = none → j.before = [] → j.next = 0 → j.blocks = [] → j.op = 0x20 → j.out = none → j.len = 64 →
     j.src % 64 = 0 → j.late = none → j.acc = [] → s.cdcOffline = false → s.regionAt j.src s.tmu.nextId = some r →
     s.admits (j.owner % 16) (j.owner / 16) r = true → s.vk4 = false → s.rgnState r = 1 → s.rgnType r ≠ 4 →
     s.nearOnly = false → s.ras.sweep = none → s.cached r ((j.src - s.rgnBase r) / 4096) = false →
     s.barred 18 j.cls j.bucket 64 1 = 0 → s.rd F.SCR_JOB_CFG_PARTS ≠ 0 →
     ∃ t,
       exec (.compress j.id) s = .next t ∧
       (∃ w ∈ t.tmu.waits, w.req.org = .job j.id 2 0 ∧ w.req.kind = .read ∧ w.req.addr = j.src ∧ w.why = .miss ∧ w.slot = r) ∧
       t.job.jobs = [{ j with phase := .running, parts := [{ s.newPart 0 64 with reads := 1 }], next := 64 }] ∧
       (Frame [.job, .tmu, .adm, .evt, .mem, .cry, .cdc] (fun key => InBlock 4 key ∨ (∃ i < 32, key ∈ [F.BTC_SC_STS_RQ.key i 0, F.BTC_SC_STS_WQ.key i 0, F.BTC_SC_STS_DRAIN.key i 0, F.BTC_SC_STS_FB.key i 0])) s t)) ∧
  (∀ (s : State) (j : Job) (r : Nat),
     s.jobsRun = true → s.paused = false → s.job.jobs = [j] → j.phase = .waiting → j.parts = [] → j.abort = 0 →
     j.status = none → j.before = [] → j.next = 0 → j.blocks = [] → j.op = 0x21 → j.out = none → j.len = 64 →
     j.src % 64 = 0 → j.late = none → j.acc = [] → s.cdcOffline = false → s.regionAt j.src s.tmu.nextId = some r →
     s.admits (j.owner % 16) (j.owner / 16) r = true → s.vk4 = false → s.rgnState r = 1 → s.rgnType r ≠ 4 →
     s.nearOnly = false → s.ras.sweep = none → s.cached r ((j.src - s.rgnBase r) / 4096) = false →
     s.barred 18 j.cls j.bucket 64 1 = 0 → s.rd F.SCR_JOB_CFG_PARTS ≠ 0 →
     ∃ t,
       exec (.decompress j.id) s = .next t ∧
       (∃ w ∈ t.tmu.waits, w.req.org = .job j.id 2 0 ∧ w.req.kind = .read ∧ w.req.addr = j.src ∧ w.why = .miss ∧ w.slot = r) ∧
       t.job.jobs = [{ j with phase := .running, parts := [{ s.newPart 0 64 with reads := 1 }], next := 64 }] ∧
       (Frame [.job, .tmu, .adm, .evt, .mem, .cry, .cdc] (fun key => InBlock 4 key ∨ (∃ i < 32, key ∈ [F.BTC_SC_STS_RQ.key i 0, F.BTC_SC_STS_WQ.key i 0, F.BTC_SC_STS_DRAIN.key i 0, F.BTC_SC_STS_FB.key i 0])) s t)) ∧
  (∀ (s : State) (j : Job) (r : Nat),
     s.jobsRun = true → s.paused = false → s.job.jobs = [j] → j.phase = .waiting → j.parts = [] → j.abort = 0 →
     j.status = none → j.before = [] → j.next = 0 → j.blocks = [] → j.op = 0x22 → j.out = none → j.len = 64 →
     j.src % 64 = 0 → j.late = none → j.acc = [] → s.cdcOffline = false → s.regionAt j.src s.tmu.nextId = some r →
     s.admits (j.owner % 16) (j.owner / 16) r = true → s.vk4 = false → s.rgnState r = 1 → s.rgnType r ≠ 4 →
     s.nearOnly = false → s.ras.sweep = none → s.cached r ((j.src - s.rgnBase r) / 4096) = false →
     s.barred 18 j.cls j.bucket 64 1 = 0 → s.rd F.SCR_JOB_CFG_PARTS ≠ 0 →
     ∃ t,
       exec (.checksum j.id) s = .next t ∧
       (∃ w ∈ t.tmu.waits, w.req.org = .job j.id 2 0 ∧ w.req.kind = .read ∧ w.req.addr = j.src ∧ w.why = .miss ∧ w.slot = r) ∧
       t.job.jobs = [{ j with phase := .running, parts := [{ s.newPart 0 64 with reads := 1 }], next := 64 }] ∧
       (Frame [.job, .tmu, .adm, .evt, .mem, .cry, .cdc] (fun key => InBlock 4 key ∨ (∃ i < 32, key ∈ [F.BTC_SC_STS_RQ.key i 0, F.BTC_SC_STS_WQ.key i 0, F.BTC_SC_STS_DRAIN.key i 0, F.BTC_SC_STS_FB.key i 0])) s t))

/-- Tile jobs (R381): PROMOTE (R173), PIN and UNPIN (R174), RETIRE (R255), REKEY (R151).
Where it rests on the model's choices: log entries 25, 34, 47, 83, 88, 109. -/
def Obligations.TileJobs : Prop :=
  (∀ (s : State) (j : Job) (r : Nat) (tile : Nat) (ent : CacheEnt) (f : Nat),
     s.jobsRun = true → s.paused = false → s.job.jobs = [j] → j.phase = .waiting → j.parts = [] → j.abort = 0 →
     j.status = none → j.before = [] → j.next = 0 → j.blocks = [] → j.op = 0x30 → j.len = 4096 → j.out = none →
     s.rd F.SCR_JOB_CFG_PARTS ≠ 0 → tile = (j.dst - s.rgnBase r) / 4096 → mget s.tmu.cache (tkey r tile) = some ent →
     s.tmeFault r tile ent.tme = 0 → j.late = none → s.regionAt j.dst s.tmu.nextId = some r →
     s.admits (j.owner % 16) (j.owner / 16) r = true → s.vk4 = false → s.rgnState r = 1 → s.rgnType r ≠ 4 →
     s.nearOnly = false → ent.tme.nv = false → ent.tme.unmat = false → ent.tme.len = 0 →
     s.expandOk r tile ent.tme = true → (s.lockOf r tile).isNone = true → s.lockRoom r = true →
     s.unswept r tile = false → s.freeFrame = some f → tile < s.rgnTiles r → s.isDeleting r = false →
     s.barred 18 j.cls j.bucket 4096 1 = 0 → (∀ m ∈ s.tmu.moves, m.id ≠ s.tmu.nextId) →
     ∃ t,
       exec (.promote j.id) s = .next t ∧
       (t.fte f).map (fun x => (x.slot, x.tile, x.state)) = some (r, tile, .filling) ∧
       (t.move s.tmu.nextId).map (fun m => (m.kind, m.slot, m.tile, m.frame, m.job)) = some (.promote, r, tile, f, some j.id) ∧
       (t.jobOf j.id).map (fun x => (x.phase, x.next)) = some (.running, 1) ∧
       (Frame [.job, .tmu, .near, .adm, .evt, .scr, .cdc] (fun key => InBlock 4 key ∨ InBlock 9 key) s t)) ∧
  (∀ (s : State) (j : Job) (r : Nat) (tile : Nat) (ent : CacheEnt) (f : Nat) (x : Fte),
     s.jobsRun = true → s.paused = false → s.job.jobs = [j] → j.phase = .waiting → j.parts = [] → j.abort = 0 →
     j.status = none → j.before = [] → j.next = 0 → j.blocks = [] → j.op = 0x31 → j.len = 4096 → j.out = none →
     s.rd F.SCR_JOB_CFG_PARTS ≠ 0 → tile = (j.dst - s.rgnBase r) / 4096 → mget s.tmu.cache (tkey r tile) = some ent →
     s.tmeFault r tile ent.tme = 0 → j.late = none → s.regionAt j.dst s.tmu.nextId = some r →
     s.admits (j.owner % 16) (j.owner / 16) r = true → s.vk4 = false → s.rgnState r = 1 → s.rgnType r ≠ 4 →
     s.nearOnly = false → ent.dirty = true → ent.tme.nv = true → ent.tme.near = f → s.fte f = some x → x.slot = r →
     x.tile = tile → x.state = .clean → s.mayEvict x = true → j.flags.testBit 1 = true → s.job.disabling = [] →
     (s.ctx j.queue).typ = 0 → (s.ctx j.queue).cq ≠ j.queue → s.rd F.SCR_JOB_DONE_JOBS + 1 < 2 ^ 48 →
     ∃ t,
       exec (.demote j.id) s = .next t ∧ t.fte f = none ∧ t.tme r tile = { ent.tme with nv := false } ∧
       t.job.jobs = [] ∧ (t.ctx j.queue).jobs = ((s.ctx j.queue).jobs + 1) % 2 ^ 32 ∧
       t.rd F.SCR_JOB_DONE_JOBS = s.rd F.SCR_JOB_DONE_JOBS + 1 ∧
       Frame [.job, .tmu, .near, .scr, .evt, .cdc] (fun key => InBlock 9 key) s t) ∧
  (∀ (s : State) (j : Job) (r : Nat) (tile : Nat) (ent : CacheEnt),
     s.jobsRun = true → s.paused = false → s.job.jobs = [j] → j.phase = .waiting → j.parts = [] → j.abort = 0 →
     j.status = none → j.before = [] → j.next = 0 → j.blocks = [] → j.op = 0x32 → j.len = 4096 → j.out = none →
     s.rd F.SCR_JOB_CFG_PARTS ≠ 0 → tile = (j.dst - s.rgnBase r) / 4096 → mget s.tmu.cache (tkey r tile) = some ent →
     s.tmeFault r tile ent.tme = 0 → j.late = none → s.regionAt j.dst s.tmu.nextId = some r →
     s.admits (j.owner % 16) (j.owner / 16) r = true → s.vk4 = false → s.rgnState r = 1 → s.rgnType r ≠ 4 →
     s.nearOnly = false → ent.dirty = true → ent.tme.unmat = true → ent.tme.nv = false → j.flags.testBit 1 = true →
     s.job.disabling = [] → (s.ctx j.queue).typ = 0 → (s.ctx j.queue).cq ≠ j.queue →
     s.rd F.SCR_JOB_DONE_JOBS + 1 < 2 ^ 48 →
     ∃ t,
       exec (.pin j.id) s = .next t ∧ t.tme r tile = { ent.tme with pinned := true } ∧ t.job.jobs = [] ∧
       (t.ctx j.queue).jobs = ((s.ctx j.queue).jobs + 1) % 2 ^ 32 ∧
       t.rd F.SCR_JOB_DONE_JOBS = s.rd F.SCR_JOB_DONE_JOBS + 1 ∧
       Frame [.job, .tmu, .evt, .cdc] (fun key => InBlock 9 key) s t) ∧
  (∀ (s : State) (j : Job) (r : Nat) (tile : Nat) (ent : CacheEnt),
     s.jobsRun = true → s.paused = false → s.job.jobs = [j] → j.phase = .waiting → j.parts = [] → j.abort = 0 →
     j.status = none → j.before = [] → j.next = 0 → j.blocks = [] → j.op = 0x33 → j.len = 4096 → j.out = none →
     s.rd F.SCR_JOB_CFG_PARTS ≠ 0 → tile = (j.dst - s.rgnBase r) / 4096 → mget s.tmu.cache (tkey r tile) = some ent →
     s.tmeFault r tile ent.tme = 0 → j.late = none → s.regionAt j.dst s.tmu.nextId = some r →
     s.admits (j.owner % 16) (j.owner / 16) r = true → s.vk4 = false → s.rgnState r = 1 → s.rgnType r ≠ 4 →
     s.nearOnly = false → ent.dirty = true → ent.tme.pinned = true → ent.tme.nv = false →
     s.rd F.TMU_RGN_POLICY_TIER r ≠ 1 → j.flags.testBit 1 = true → s.job.disabling = [] → (s.ctx j.queue).typ = 0 →
     (s.ctx j.queue).cq ≠ j.queue → s.rd F.SCR_JOB_DONE_JOBS + 1 < 2 ^ 48 →
     ∃ t,
       exec (.unpin j.id) s = .next t ∧ t.tme r tile = { ent.tme with pinned := false } ∧ t.job.jobs = [] ∧
       (t.ctx j.queue).jobs = ((s.ctx j.queue).jobs + 1) % 2 ^ 32 ∧
       t.rd F.SCR_JOB_DONE_JOBS = s.rd F.SCR_JOB_DONE_JOBS + 1 ∧
       Frame [.job, .tmu, .evt, .cdc] (fun key => InBlock 9 key) s t) ∧
  (∀ (s : State) (j : Job) (r : Nat) (tile : Nat) (ent : CacheEnt) (a : Nat),
     s.jobsRun = true → s.paused = false → s.job.jobs = [j] → j.phase = .waiting → j.parts = [] → j.abort = 0 →
     j.status = none → j.before = [] → j.next = 0 → j.blocks = [] → j.op = 0x34 → j.len = 4096 → j.out = none →
     s.rd F.SCR_JOB_CFG_PARTS ≠ 0 → tile = (j.dst - s.rgnBase r) / 4096 → mget s.tmu.cache (tkey r tile) = some ent →
     s.tmeFault r tile ent.tme = 0 → j.late = none → s.regionAt j.dst s.tmu.nextId = some r →
     s.admits (j.owner % 16) (j.owner / 16) r = true → s.vk4 = false → s.rgnState r = 1 → s.rgnType r ≠ 4 →
     s.nearOnly = false → ent.dirty = true → ent.tme.unmat = true → ent.tme.len = 0 → ent.tme.retired = false →
     ent.tme.nv = false → s.nextReserve.isSome = true → s.rgnType r = 1 → (s.lockOf r tile).isNone = true →
     s.underCopy ent.tme = false → s.lockRoom r = true → (s.alloc r 64).map (·.1) = some a → s.tmu.retired = [] →
     j.flags.testBit 1 = true → s.job.disabling = [] → (s.ctx j.queue).typ = 0 → (s.ctx j.queue).cq ≠ j.queue →
     s.rd F.SCR_JOB_DONE_JOBS + 1 < 2 ^ 48 →
     ∃ t,
       exec (.retire j.id) s = .next t ∧ t.tme r tile = { ent.tme with loc := a } ∧
       t.tmu.retired = [(ent.tme.loc, 64)] ∧ (t.rd (F.EVT_RAW_CAUSE 12) 0).testBit 4 = true ∧ t.job.jobs = [] ∧
       (t.ctx j.queue).jobs = ((s.ctx j.queue).jobs + 1) % 2 ^ 32 ∧
       t.rd F.SCR_JOB_DONE_JOBS = s.rd F.SCR_JOB_DONE_JOBS + 1 ∧
       (Frame [.job, .tmu, .ras, .evt, .cdc] (fun key => InBlock 9 key ∨ key = F.RAS_LOG_PROD.key 0 0 ∨ key = F.RAS_LOG_LOST.key 0 0 ∨ key = (F.EVT_RAW_CAUSE 12).key 0 0) s t)) ∧
  (∀ (s : State) (j : Job) (r : Nat),
     s.jobsRun = true → s.paused = false → s.job.jobs = [j] → j.phase = .waiting → j.parts = [] → j.abort = 0 →
     j.status = none → j.before = [] → j.next = 0 → j.blocks = [] → j.op = 0x35 →
     s.regionAt j.dst s.tmu.nextId = some r → s.admits (j.owner % 16) (j.owner / 16) r = true → s.vk4 = false →
     s.rgnState r = 1 → s.rgnType r ≠ 4 → s.nearOnly = false → r < 64 → s.rekeying r = false →
     s.curGen r < 0xffffffff → s.cry.rekeyJobs = [] →
     ∃ t,
       exec (.rekey j.id) s = .next t ∧ t.curGen r = s.curGen r + 1 ∧ t.rekeying r = true ∧
       t.rd F.CRY_RGN_REKEY_CAUSE r = 2 ∧ t.cry.rekeyJobs = [(j.id, r)] ∧
       t.job.jobs = [{ j with phase := .running }] ∧
       (Frame [.job, .cry, .adm, .evt, .cdc] (fun key => key = F.CRY_RGN_GEN_CUR.key r 0 ∨ key = F.CRY_RGN_GEN_PREV.key r 0 ∨ key = F.TMU_RGN_POLICY_KEYGEN.key r 0 ∨ key = F.CRY_RGN_REKEY_STATE.key r 0 ∨ key = F.CRY_RGN_REKEY_CAUSE.key r 0 ∨ key = (F.EVT_RAW_CAUSE 8).key 0 0) s t)) ∧
  (∀ (s : State) (j : Job) (r : Nat) (tile : Nat) (ent : CacheEnt) (f : Nat) (x : Fte),
     s.jobsRun = true → s.paused = false → s.job.jobs = [j] → j.phase = .waiting → j.parts = [] → j.abort = 0 →
     j.status = none → j.before = [] → j.next = 0 → j.blocks = [] → j.op = 0x36 → j.len = 4096 → j.out = none →
     s.rd F.SCR_JOB_CFG_PARTS ≠ 0 → tile = (j.dst - s.rgnBase r) / 4096 → mget s.tmu.cache (tkey r tile) = some ent →
     s.tmeFault r tile ent.tme = 0 → j.late = none → s.regionAt j.dst s.tmu.nextId = some r →
     s.admits (j.owner % 16) (j.owner / 16) r = true → s.vk4 = false → s.rgnState r = 1 → s.rgnType r ≠ 4 →
     s.nearOnly = false → ent.dirty = true → ent.tme.nv = true → ent.tme.near = f → s.fte f = some x →
     ent.tme.len = 0 → s.barred 18 j.cls j.bucket 4096 1 = 0 → j.flags.testBit 1 = true → s.job.disabling = [] →
     (s.ctx j.queue).typ = 0 → (s.ctx j.queue).cq ≠ j.queue → s.rd F.SCR_JOB_DONE_JOBS + 1 < 2 ^ 48 →
     ∃ t,
       exec (.scrubRange j.id) s = .next t ∧ t.fte f = some x ∧ t.near.mem = s.near.mem ∧ t.tme r tile = ent.tme ∧
       t.job.jobs = [] ∧ (t.ctx j.queue).jobs = ((s.ctx j.queue).jobs + 1) % 2 ^ 32 ∧
       t.rd F.SCR_JOB_DONE_JOBS = s.rd F.SCR_JOB_DONE_JOBS + 1 ∧
       (Frame [.job, .tmu, .adm, .evt, .cdc] (fun key => InBlock 4 key ∨ InBlock 9 key) s t))

/-- Poison (R288) and event commands (R465, R466), the timestamp (R526); forms and codes are the CXL
specification's (log entry 15).
Where it rests on the model's choices: log entries 37, 40, 54, 69. -/
def Obligations.PoisonAndEventCommands : Prop :=
  (∀ (s : State) (h : Nat) (l : Nat) (start : Nat) (limit : Nat) (got : List Nat),
     s.rd F.AON_PWR_MODE_CUR = 0 → s.aon.entry.stage = 0 → s.mboxUp (.ld h l) = true → s.mboxBusy (.ld h l) = false →
     got = (s.poisonedFrom h l start).take (min limit poisonRecords) →
     ∃ t,
       exec (.getPoisonList h l start limit) s = .next t ∧
       Answered s t (.ld h l) 0x4300 0 (leBytes 1 (b2n (decide (min limit poisonRecords < (s.poisonedFrom h l start).length))) ++ leBytes 9 0 ++ leBytes 2 got.length ++ leBytes 20 0 ++ got.flatMap (fun a => leBytes 8 a ++ leBytes 4 64 ++ leBytes 4 0)) ∧
       Frame [.out, .hlx] (fun _ => False) s t) ∧
  (∀ (s : State) (h : Nat) (l : Nat) (dpa : BitVec 64) (r : Nat),
     s.rd F.AON_PWR_MODE_CUR = 0 → s.aon.entry.stage = 0 → s.mboxUp (.ld h l) = true → s.mboxBusy (.ld h l) = false →
     s.regionAt (dpa.toNat % 2 ^ 46) s.tmu.nextId = some r → s.srcHas (.ld h l) F.HLX_HEAD_PERM_DIAG = true →
     dpa.toNat % 64 = 0 → s.tagBitsOk h dpa.toNat = true → s.admits h l r = true →
     ∃ t,
       exec (.injectPoison h l dpa) s = .next t ∧
       t.adm.queue = s.adm.queue ++ [{ s.hostReq .write h l dpa { mv := .invalid, err := .none } fwTag with data := 0, poison := true, cls := s.rd F.TMU_RGN_POLICY_DEF_CLASS r, key := if s.vk4 then s.rd F.CRY_RGN_KEY_KEY_BIND r else (s.hostReq .write h l dpa { mv := .invalid, err := .none } fwTag).key }] ∧
       Answered s t (.ld h l) 0x4301 0 ([]) ∧ Frame [.out, .adm, .hlx] (fun _ => False) s t) ∧
  (∀ (s : State) (h : Nat) (l : Nat) (dpa : BitVec 64) (data : BitVec 512) (r : Nat),
     s.rd F.AON_PWR_MODE_CUR = 0 → s.aon.entry.stage = 0 → s.mboxUp (.ld h l) = true → s.mboxBusy (.ld h l) = false →
     s.regionAt (dpa.toNat % 2 ^ 46) s.tmu.nextId = some r → s.srcHas (.ld h l) F.HLX_HEAD_PERM_DIAG = true →
     dpa.toNat % 64 = 0 → s.tagBitsOk h dpa.toNat = true → s.admits h l r = true →
     ∃ t,
       exec (.clearPoison h l dpa data) s = .next t ∧
       t.adm.queue = s.adm.queue ++ [{ s.hostReq .write h l dpa { mv := .invalid, err := .none } fwTag with data := data, poison := false, cls := s.rd F.TMU_RGN_POLICY_DEF_CLASS r, key := if s.vk4 then s.rd F.CRY_RGN_KEY_KEY_BIND r else (s.hostReq .write h l dpa { mv := .invalid, err := .none } fwTag).key }] ∧
       Answered s t (.ld h l) 0x4302 0 ([]) ∧ Frame [.out, .adm, .hlx] (fun _ => False) s t) ∧
  (∀ (s : State) (h : Nat) (l : Nat) (log : Nat) (recs : List EvRec) (ov : Nat × Nat × Nat),
     s.rd F.AON_PWR_MODE_CUR = 0 → s.aon.entry.stage = 0 → s.mboxUp (.ld h l) = true → s.mboxBusy (.ld h l) = false →
     log < 4 → recs = s.logRecs h l log → ov = (mget s.evt.overs (logKey h l log)).getD (0, 0, 0) →
     ∃ t,
       exec (.getEventRecords h l log) s = .next t ∧
       Answered s t (.ld h l) 0x0100 0 (leBytes 1 (b2n (mget s.evt.overs (logKey h l log)).isSome + 2 * b2n (decide (31 < recs.length))) ++ leBytes 1 0 ++ leBytes 2 ov.1 ++ leBytes 8 ov.2.1 ++ leBytes 8 ov.2.2 ++ leBytes 2 (recs.take 31).length ++ leBytes 10 0 ++ (List.range (recs.take 31).length).flatMap (fun i => match (recs.take 31)[i]? with | some x => x.record log (i + 1) | none => [])) ∧
       Frame [.out, .hlx] (fun _ => False) s t) ∧
  (∀ (s : State) (h : Nat) (l : Nat) (log : Nat) (count : Nat),
     s.rd F.AON_PWR_MODE_CUR = 0 → s.aon.entry.stage = 0 → s.mboxUp (.ld h l) = true → s.mboxBusy (.ld h l) = false →
     h < 16 → l < 4 → log < 4 → 0 < count → count ≤ (s.logRecs h l log).length → (s.logRecs h l log).length ≤ 64 →
     s.rd F.EVT_LD_LOG_OVF (hl h l) < 16 →
     ∃ t,
       exec (.clearEventRecords h l log count) s = .next t ∧ t.logRecs h l log = (s.logRecs h l log).drop count ∧
       t.rd (heldF log) (hl h l) = (s.logRecs h l log).length - count ∧
       (t.rd F.EVT_LD_LOG_OVF (hl h l)).testBit log = false ∧ Answered s t (.ld h l) 0x0101 0 ([]) ∧
       (Frame [.out, .evt, .hlx] (fun key => key = (heldF log).key (hl h l) 0 ∨ key = F.EVT_LD_LOG_OVF.key (hl h l) 0) s t)) ∧
  (∀ (s : State) (h : Nat) (l : Nat),
     s.rd F.AON_PWR_MODE_CUR = 0 → s.aon.entry.stage = 0 → s.mboxUp (.ld h l) = true → s.mboxBusy (.ld h l) = false →
     ∃ t,
       exec (.getEventInterruptPolicy h l) s = .next t ∧
       Answered s t (.ld h l) 0x0102 0 (((List.range 4).flatMap (fun log => leBytes 1 (b2n (s.evt.policy.contains (logKey h l log)) + 16 * (s.rd (classVec (4 - log)) (hl h l) % 16)))) ++ leBytes 1 0) ∧
       Frame [.out, .hlx] (fun _ => False) s t) ∧
  (∀ (s : State) (h : Nat) (l : Nat) (on : List Bool),
     s.rd F.AON_PWR_MODE_CUR = 0 → s.aon.entry.stage = 0 → s.mboxUp (.ld h l) = true → s.mboxBusy (.ld h l) = false →
     on.length = 4 →
     ∃ t,
       exec (.setEventInterruptPolicy h l on) s = .next t ∧
       (∀ log < 4, t.evt.policy.contains (logKey h l log) = on.getD log false) ∧
       Answered s t (.ld h l) 0x0103 0 ([]) ∧ Frame [.out, .evt, .hlx] (fun _ => False) s t) ∧
  (∀ (s : State) (h : Nat) (l : Nat),
     s.rd F.AON_PWR_MODE_CUR = 0 → s.aon.entry.stage = 0 → s.mboxUp (.ld h l) = true → s.mboxBusy (.ld h l) = false →
     ∃ t,
       exec (.getTimestamp h l) s = .next t ∧ Answered s t (.ld h l) 0x0300 0 (leBytes 8 s.timestamp) ∧
       Frame [.out, .hlx] (fun _ => False) s t) ∧
  (∀ (s : State) (h : Nat) (l : Nat) (value : BitVec 64),
     s.rd F.AON_PWR_MODE_CUR = 0 → s.aon.entry.stage = 0 → s.mboxUp (.ld h l) = true → s.mboxBusy (.ld h l) = false →
     ∃ t,
       exec (.setTimestamp h l value) s = .next t ∧ t.timestamp = value.toNat ∧
       Answered s t (.ld h l) 0x0301 0 ([]) ∧ Frame [.out, .hlx] (fun key => key = F.AON_TS_BASE_BASE.key 0 0) s t)

/-- Firmware update (R447, R451), SPDM and sessions (R453, R454), IDE keys (R159); opcodes and layouts: log entry 15.
Where it rests on the model's choices: log entries 37, 61, 62, 63, 115, 124. -/
def Obligations.FirmwareCommands : Prop :=
  (∀ (s : State) (h : Nat) (l : Nat),
     s.rd F.AON_PWR_MODE_CUR = 0 → s.aon.entry.stage = 0 → s.mboxUp (.ld h l) = true → s.mboxBusy (.ld h l) = false →
     s.rd F.CTL_HEALTH_STATE ≠ 4 →
     ∃ t,
       exec (.identifyMemoryDevice h l) s = .next t ∧
       Answered s t (.ld h l) 0x4000 0 (verBytes s.ctl.header ++ leBytes 8 (s.rd F.TMU_CAP_TOTAL_SECTORS / 2 ^ 22) ++ leBytes 8 (s.rd F.TMU_CAP_TOTAL_SECTORS / 2 ^ 22) ++ leBytes 8 0 ++ leBytes 8 0 ++ leBytes 2 64 ++ leBytes 2 64 ++ leBytes 2 64 ++ leBytes 2 64 ++ leBytes 13 0) ∧
       Frame [.out, .hlx] (fun _ => False) s t) ∧
  (∀ (s : State) (h : Nat) (l : Nat),
     s.rd F.AON_PWR_MODE_CUR = 0 → s.aon.entry.stage = 0 → s.mboxUp (.ld h l) = true → s.mboxBusy (.ld h l) = false →
     s.rd F.CTL_HEALTH_STATE ≠ 4 → s.srcHas (.ld h l) F.HLX_HEAD_PERM_FM = true →
     ∃ t,
       exec (.getFwInfo h l) s = .next t ∧
       Answered s t (.ld h l) 0x0200 0 (leBytes 1 2 ++ leBytes 1 (s.activeSlot + 8 * s.stagedSlot) ++ leBytes 14 0 ++ s.slotVersion 0 ++ s.slotVersion 1 ++ leBytes 32 0) ∧
       Frame [.out, .hlx] (fun _ => False) s t) ∧
  (∀ (s : State) (h : Nat) (l : Nat) (fwSlot : Nat) (data : List (BitVec 8)),
     s.rd F.AON_PWR_MODE_CUR = 0 → s.aon.entry.stage = 0 → s.mboxUp (.ld h l) = true → s.mboxBusy (.ld h l) = false →
     s.rd F.CTL_HEALTH_STATE ≠ 4 → s.srcHas (.ld h l) F.HLX_HEAD_PERM_FM = true → (fwSlot = 1 ∨ fwSlot = 2) →
     fwSlot ≠ s.activeSlot → s.ctl.xfer = none → data ≠ [] → data.length ≤ xferBytes →
     ∃ t,
       exec (.transferFw h l fwSlot 0 data false) s = .next t ∧ t.flash (copyBase (fwSlot - 1)) data.length = data ∧
       t.ctl.xfer = some { slot := fwSlot, next := data.length, h := h, l := l, whole := false } ∧
       Answered s t (.ld h l) 0x0201 0 ([]) ∧ Frame [.out, .ctl, .hlx] (fun _ => False) s t) ∧
  (∀ (s : State) (readErr : Bool) (x : FwXfer) (src : MboxSrc),
     s.ctl.xfer = some x → x.whole = true → s.aon.held = false → s.aon.off = 0 → s.rd F.CTL_HEALTH_STATE ≠ 4 →
     s.ctl.background = [BgOp.mk src 0x0201 x.slot] →
     ∃ t,
       exec (.transferFwDone readErr) s = .next t ∧ t.ctl.xfer = none ∧ t.ctl.background = [] ∧
       t.ctl.flash = s.ctl.flash ∧
       Answered s t (src) 0x0201 (if s.checkFlash (x.slot - 1) readErr = 0 then rcSuccess else rcFwAuth) ([]) ∧
       Frame [.out, .ctl, .hlx] (fun _ => False) s t) ∧
  (∀ (s : State) (h : Nat) (l : Nat) (fwSlot : Nat),
     s.rd F.AON_PWR_MODE_CUR = 0 → s.aon.entry.stage = 0 → s.mboxUp (.ld h l) = true → s.mboxBusy (.ld h l) = false →
     s.rd F.CTL_HEALTH_STATE ≠ 4 → s.srcHas (.ld h l) F.HLX_HEAD_PERM_FM = true → (fwSlot = 1 ∨ fwSlot = 2) →
     ∃ t,
       exec (.activateFw h l fwSlot false) s = .next t ∧
       t.flash (65536 * (1 - s.descNow.1)) 64 = ({ seq := (s.descNow.2.seq + 1) % 2 ^ 32, prefer := fwSlot - 1, trial := true, tried := false } : Desc).bytes ∧
       Answered s t (.ld h l) 0x0202 0 ([]) ∧ Frame [.out, .ctl, .hlx] (fun _ => False) s t) ∧
  (∀ (s : State) (h : Nat) (l : Nat),
     s.rd F.AON_PWR_MODE_CUR = 0 → s.aon.entry.stage = 0 → s.mboxUp (.ld h l) = true →
     ∃ t,
       exec (.spdmMessage h l (.version 1 3)) s = .next t ∧ t.out = s.out ++ [Out.spdm h l 0 [0x13]] ∧
       Frame [.out] (fun _ => False) s t) ∧
  (∀ (s : State) (h : Nat) (l : Nat),
     s.rd F.AON_PWR_MODE_CUR = 0 → s.aon.entry.stage = 0 → s.mboxUp (.ld h l) = true →
     ∃ t,
       exec (.spdmMessage h l .tableAccess) s = .next t ∧ t.out = s.out ++ [Out.spdm h l 0 (s.cdat h l)] ∧
       Frame [.out] (fun _ => False) s t) ∧
  (∀ (s : State) (h : Nat) (l : Nat) (sid : Nat) (authd : Bool) (root : BitVec 384),
     s.rd F.AON_PWR_MODE_CUR = 0 → s.aon.entry.stage = 0 → s.mboxUp (.ld h l) = true → s.fuses.secret.isSome = true →
     (∀ x ∈ s.ctl.sessions, x.sid ≠ sid) →
     ∃ t,
       exec (.spdmMessage h l (.session sid authd root)) s = .next t ∧
       t.ctl.sessions = s.ctl.sessions ++ [{ h := h, l := l, sid := sid, authd := authd, listed := s.rootListed root }] ∧
       t.out = s.out ++ [Out.spdm h l 0 (Config.attest 2 s.draw)] ∧ t.draw = s.draw + 1 ∧
       Frame [.out, .ctl, .draw] (fun _ => False) s t) ∧
  (∀ (s : State) (h : Nat) (l : Nat) (sid : Nat),
     s.rd F.AON_PWR_MODE_CUR = 0 → s.aon.entry.stage = 0 → s.mboxUp (.ld h l) = true →
     ((s.ctl.sessions.any (fun x => decide (x.h = h ∧ x.l = l ∧ x.sid = sid))) = true) →
     ∃ t,
       exec (.spdmMessage h l (.endSession sid)) s = .next t ∧
       (t.ctl.sessions = s.ctl.sessions.filter (fun x => !decide (x.h = h ∧ x.l = l ∧ x.sid = sid))) ∧
       t.out = s.out ++ [Out.spdm h l 0 []] ∧ Frame [.out, .ctl] (fun _ => False) s t) ∧
  (∀ (s : State) (port : Nat) (stream : Nat) (rx : Bool) (k : BitVec 256),
     s.rd F.AON_PWR_MODE_CUR = 0 → s.aon.entry.stage = 0 → s.mboxUp (.ld port 0) = true → stream < 3 →
     ∃ t,
       exec (.ideKmMessage port (.keyProg stream rx k)) s = .next t ∧
       mget ((mget t.cry.ide port).getD []) (ideKey stream rx) = some k ∧ t.out = s.out ++ [Out.spdm port 0 0 []] ∧
       t.cry.slotKeys = s.cry.slotKeys ∧ Frame [.out, .cry] (fun _ => False) s t) ∧
  (∀ (s : State) (port : Nat) (stream : Nat) (rx : Bool),
     s.rd F.AON_PWR_MODE_CUR = 0 → s.aon.entry.stage = 0 → s.mboxUp (.ld port 0) = true → port < 16 → stream < 3 →
     (mget ((mget s.cry.ide port).getD []) (ideKey stream rx)).isSome = true →
     ∃ t,
       exec (.ideKmMessage port (.setGo stream rx)) s = .next t ∧ t.rd F.HLX_PORT_STS_IDE port = 1 ∧
       t.cry.ide = s.cry.ide ∧ t.out = s.out ++ [Out.spdm port 0 0 []] ∧
       Frame [.out, .cry] (fun key => key = F.HLX_PORT_STS_IDE.key port 0) s t) ∧
  (∀ (s : State) (h : Nat) (l : Nat) (sid : Nat),
     s.rd F.AON_PWR_MODE_CUR = 0 → s.aon.entry.stage = 0 → s.mboxUp (.session h l sid) = true →
     s.mboxBusy (.session h l sid) = false →
     ∃ t,
       exec (.spdmSecuredAvsar h l sid 0xc021 []) s = .next t ∧
       Answered s t (.session h l sid) 0xc021 0 (resultHeader 0 0 ++ (leBytes 4 0 ++ leBytes 4 (s.rd F.AON_PWR_STS_LAST_WAKE))) ∧
       Frame [.out, .hlx] (fun _ => False) s t) ∧
  (∀ (s : State) (h : Nat) (l : Nat) (sid : Nat) (opcode : Nat) (payload : List (BitVec 8)),
     s.rd F.AON_PWR_MODE_CUR = 0 → s.aon.entry.stage = 0 → s.mboxUp (.session h l sid) = true →
     s.mboxBusy (.session h l sid) = false → opcode < 0xc000 →
     ∃ t,
       exec (.spdmSecuredAvsar h l sid opcode payload) s = .next t ∧ Answered s t (.session h l sid) opcode 3 ([]) ∧
       Frame [.out, .hlx] (fun _ => False) s t)

/-- Events (R462, R464, R465, R468, R478) and Firefly (R476, R479).
Where it rests on the model's choices: log entries 69, 96. -/
def Obligations.Events : Prop :=
  (∀ (s : State),
     s.evtRuns = true → s.evt.raises = [] → s.rd F.EVT_TICKS_TICKS + 1 < 2 ^ F.EVT_TICKS_TICKS.width →
     s.evt.latched = [] → s.snapTriggers (s.deliveries.map (·.src)) = (false, 0, false) → s.evt.ovfDue = false →
     ∃ t,
       exec (.eventTick) s = .next t ∧ t.rd F.EVT_TICKS_TICKS = s.rd F.EVT_TICKS_TICKS + 1 ∧ t.evt.raises = [] ∧
       Frame [.evt] (fun key => key = F.EVT_TICKS_TICKS.key 0 0) s t) ∧
  (∀ (s : State) (r : Raise),
     s.evtRuns = true → s.evt.raises = [r] → s.evt.latched = [] →
     s.snapTriggers (s.deliveries.map (·.src)) = (false, 0, false) → s.evt.ovfDue = false → r.src < 256 →
     toCores r.src = true → s.coreRoom (srcClass r.src) = true → s.deliverTo r = [] →
     alertSrcs.contains r.src = false → s.rd F.AON_PWR_MODE_TARGET = 0 →
     s.rd F.EVT_SRC_COUNT 0 r.src + 1 < 2 ^ F.EVT_SRC_COUNT.width →
     ∃ t,
       exec (.eventTick) s = .next t ∧ t.evt.raises = [] ∧
       (mget t.evt.queue (s.rd F.EVT_QUEUE_TAIL)).map (fun x => (x.src, x.cls, x.blk, x.page, x.epoch, x.count)) = some (r.src, srcClass r.src, r.blk, r.page, s.epoch, s.rd F.EVT_SRC_COUNT 0 r.src + 1) ∧
       t.evt.qUsed = s.evt.qUsed + 1 ∧ t.rd F.EVT_SRC_COUNT 0 r.src = s.rd F.EVT_SRC_COUNT 0 r.src + 1 ∧
       (t.rd F.EVT_PEND_SRC 0 (r.src / 64)).testBit (r.src % 64) = true ∧ t.out = s.out ∧
       Frame [.evt] (fun key => InBlock 13 key) s t) ∧
  (∀ (s : State) (r : Raise) (h : Nat) (l : Nat),
     s.evtRuns = true → s.evt.raises = [r] → h < 16 → l < 4 →
     r = { src := 253, blk := 13, page := 0, bits := 2, region := none, queue := none, heads := [(h, some l)] } →
     s.evt.latched = [] → s.snapTriggers (s.deliveries.map (·.src)) = (false, 0, false) → s.evt.ovfDue = false →
     s.coreRoom 4 = true → s.rd F.AON_PWR_MODE_TARGET = 0 → (s.rd F.EVT_LD_EN_SRC (hl h l) 3).testBit 61 = true →
     (s.logRecs h l 0).length < 64 → s.evt.policy = [] →
     ∃ t,
       exec (.eventTick) s = .next t ∧ (t.logRecs h l 0).length = (s.logRecs h l 0).length + 1 ∧
       t.rd F.EVT_LD_LOG_HELD0 (hl h l) = (s.logRecs h l 0).length + 1 ∧
       (t.rd F.EVT_LD_PEND_SRC (hl h l) 3).testBit 61 = true ∧ t.out = s.out ∧
       Frame [.evt] (fun key => InBlock 13 key) s t) ∧
  (∀ (s : State) (path : Path) (h : Nat) (l : Nat),
     h < 16 → l < 4 → s.writeReaches path 13 (1 + hl h l) = true → ownPage path h l = true →
     (s.evtEn 13 0).testBit 1 = true → s.rd F.AON_PWR_MODE_CUR ≠ 3 →
     ∃ t,
       exec (.evtLdTest path h l) s = .next t ∧
       t.evt.raises = s.evt.raises ++ [{ src := 253, blk := 13, page := 0, bits := 2, region := none, queue := none, heads := [(h, some l)] }] ∧
       (t.rd (F.EVT_RAW_CAUSE 13) 0).testBit 1 = true ∧
       Frame [.evt] (fun key => key = (F.EVT_RAW_CAUSE 13).key 0 0) s t) ∧
  (∀ (s : State) (path : Path),
     (path = .cores ∨ path = .sideband) → s.writeReaches path 13 0 = true → (s.evtEn 13 0).testBit 1 = true →
     s.rd F.AON_PWR_MODE_CUR ≠ 3 →
     ∃ t,
       exec (.evtFmTest path) s = .next t ∧
       t.evt.raises = s.evt.raises ++ [{ src := 253, blk := 13, page := 0, bits := 2, region := none, queue := none, heads := (s.ldsWith F.HLX_HEAD_PERM_FM).map (fun p => (p.1, some p.2)) }] ∧
       (t.rd (F.EVT_RAW_CAUSE 13) 0).testBit 1 = true ∧
       Frame [.evt] (fun key => key = (F.EVT_RAW_CAUSE 13).key 0 0) s t) ∧
  (∀ (s : State) (path : Path),
     s.writeReaches path 14 14 = true → s.manages path = true →
     ∃ t,
       exec (.now path) s = .next t ∧ t.evt = { s.evt with nowDue := s.evt.nowDue + 1 } ∧
       Frame [.evt] (fun _ => False) s t) ∧
  (∀ (s : State) (h : Nat) (l : Nat) (off : Nat) (tag : Nat),
     s.rd F.AON_PWR_MODE_CUR = 0 → s.aon.entry.stage = 0 → s.windowUp h l = true →
     s.rd F.HLX_HEAD_PERM_PERF_USER (hl h l) = 0 →
     ∃ t,
       exec (.fireflyWindowRead h l off tag) s = .next t ∧
       t.out = s.out ++ [Out.data h l tag (lineOf []) false .cmp] ∧ Frame [.out] (fun _ => False) s t) ∧
  (∀ (s : State) (h : Nat) (l : Nat) (off : Nat) (tag : Nat) (w : List Nat),
     s.rd F.AON_PWR_MODE_CUR = 0 → s.aon.entry.stage = 0 → s.windowUp h l = true →
     s.rd F.HLX_HEAD_PERM_PERF_USER (hl h l) = 1 → off / 64 * 64 < 0x80000 →
     mget s.evt.window (off / 64 * 64 / 2048) = some w →
     ∃ t,
       exec (.fireflyWindowRead h l off tag) s = .next t ∧
       t.out = s.out ++ [Out.data h l tag (lineOf (((w.drop (off / 64 * 64 % 2048 / 8)).take 8).flatMap (leBytes 8))) false .cmp] ∧
       Frame [.out] (fun _ => False) s t)

/-- Refresh (R218, R219), training (R210 to R212), command slots (R213, R214) and EDC (R207).
Where it rests on the model's choices: log entries 18, 74, 110, 133. -/
def Obligations.DramControllers : Prop :=
  (∀ (s : State) (tier : Tier) (ch : Nat) (rank : Nat),
     s.chanUp tier ch = true → s.hasWindows (chanKey tier ch) = false →
     ∃ t,
       exec (.refreshDue tier ch rank) s = .next t ∧
       t.mem = { s.mem with refDue := s.mem.refDue ++ [chanKey tier ch * 64 + rank] } ∧
       Frame [.mem] (fun _ => False) s t) ∧
  (∀ (s : State) (tier : Tier) (ch : Nat) (rank : Nat),
     s.chanUp tier ch = true → ch < 32 → rank < 64 → s.hasWindows (chanKey tier ch) = true →
     s.inWindow (chanKey tier ch) = false → s.postponed (chanKey tier ch) rank < s.postponeLimit tier →
     ∃ t,
       exec (.refreshDue tier ch rank) s = .next t ∧
       t.postponed (chanKey tier ch) rank = s.postponed (chanKey tier ch) rank + 1 ∧ t.mem.refDue = s.mem.refDue ∧
       (Frame [.mem] (fun key => key = F.NTC_CH_REF_POSTPONED.key ch 0 ∨ key = F.BTC_SC_REF_POSTPONED.key ch 0) s t)) ∧
  (∀ (s : State) (tier : Tier) (ch : Nat) (rc : Bool),
     s.chanUp tier ch = true → s.trainingDue (chanKey tier ch) = true → mget s.mem.due (chanKey tier ch) = none →
     ∃ t,
       exec (.periodicTrainingDue tier ch rc) s = .next t ∧ mget t.mem.due (chanKey tier ch) = some (s.epoch, rc) ∧
       t.mem.refDue = s.mem.refDue ∧ Frame [.mem] (fun _ => False) s t) ∧
  (∀ (s : State) (tier : Tier) (ch : Nat) (now : Nat) (ready : List DramCmd) (rank : Nat),
     s.chanUp tier ch = true → s.mem.stopped.contains (chanKey tier ch) = false → rank < 64 →
     s.mem.refDue = [chanKey tier ch * 64 + rank] →
     s.stepsBack (chanKey tier ch) (chanKey tier ch * 64 + rank) = false → ready.contains (.refresh rank) = true →
     ∃ t,
       exec (.dramCommandSlot tier ch now ready) s = .next t ∧ t.mem.refDue = [] ∧ t.mem.queues = s.mem.queues ∧
       (t.mem.rows = s.mem.rows.filter (fun e => !decide (e.1 / 1024 = chanKey tier ch ∧ (chanKey tier ch < 32 ∨ e.1 % 1024 / 32 = rank)))) ∧
       Frame [.mem] (fun _ => False) s t) ∧
  (∀ (s : State) (tier : Tier) (ch : Nat) (now : Nat) (ready : List DramCmd) (r : DramReq),
     s.chanUp tier ch = true → ch < 32 → s.mem.stopped.contains (chanKey tier ch) = false → s.mem.refDue = [] →
     s.mem.repay = [] → mget s.mem.due (chanKey tier ch) = none → s.chanQ (chanKey tier ch) = [r] →
     s.ras.copies = [] → ready.contains (.request 0) = true →
     ∃ t,
       exec (.dramCommandSlot tier ch now ready) s = .next t ∧ t.chanQ (chanKey tier ch) = [] ∧
       mget t.mem.rows (bankKey (chanKey tier ch) r.bank) = some r.row ∧ t.near = s.near ∧
       (Frame [.mem, .cdc] (fun key => key = F.NTC_CH_STS_RQ.key ch 0 ∨ key = F.NTC_CH_STS_WQ.key ch 0 ∨ key = F.NTC_CH_STS_DRAIN.key ch 0 ∨ key = F.NTC_CH_STS_FB.key ch 0 ∨ key = F.BTC_SC_STS_RQ.key ch 0 ∨ key = F.BTC_SC_STS_WQ.key ch 0 ∨ key = F.BTC_SC_STS_DRAIN.key ch 0 ∨ key = F.BTC_SC_STS_FB.key ch 0) s t)) ∧
  (∀ (s : State) (ch : Nat) (fails : Nat),
     s.chanUp .near ch = true → s.mem.stopped.contains ch = false → 0 < fails → fails ≤ s.rd F.NTC_CTL_EDC_RETRY →
     s.rd F.NTC_CH_EDC_RETRIES ch + fails < 2 ^ F.NTC_CH_EDC_RETRIES.width →
     ∃ t,
       exec (.edcWriteFail ch fails) s = .next t ∧
       t.rd F.NTC_CH_EDC_RETRIES ch = s.rd F.NTC_CH_EDC_RETRIES ch + fails ∧ t.mem = s.mem ∧
       Frame [.evt] (fun key => key = F.NTC_CH_EDC_RETRIES.key ch 0) s t) ∧
  (∀ (s : State) (ch : Nat) (fails : Nat),
     s.chanUp .near ch = true → s.mem.stopped.contains ch = false → s.rd F.NTC_CTL_EDC_RETRY < fails →
     (s.rd F.RAS_LOG_PROD + 1) % 1024 ≠ s.rd F.RAS_LOG_CONS →
     ∃ t,
       exec (.edcWriteFail ch fails) s = .next t ∧ t.mem.stopped = ninsert s.mem.stopped ch ∧
       (mget t.ras.log (s.rd F.RAS_LOG_PROD)).map (fun x => (x.type, x.location, x.detail)) = some (0x0e, ch, s.rd F.NTC_CTL_EDC_RETRY) ∧
       (Frame [.evt, .mem, .ras] (fun key => InBlock 10 key ∨ key = F.RAS_LOG_PROD.key 0 0 ∨ key = F.RAS_LOG_LOST.key 0 0 ∨ key = (F.EVT_RAW_CAUSE 12).key 0 0) s t)) ∧
  (∀ (s : State) (ch : Nat) (fails : Nat) (w : DramReq),
     s.chanUp .near ch = true → s.mem.stopped.contains ch = false → s.rd F.NTC_CTL_EDC_RETRY < fails →
     mget s.mem.lastWrite ch = some w →
     ∃ t,
       exec (.edcWriteFail ch fails) s = .next t ∧ t.chanQ ch = w :: s.chanQ ch ∧ mget t.mem.lastWrite ch = none ∧
       t.near = s.near ∧
       (Frame [.evt, .mem, .ras] (fun key => InBlock 10 key ∨ key = F.RAS_LOG_PROD.key 0 0 ∨ key = F.RAS_LOG_LOST.key 0 0 ∨ key = (F.EVT_RAW_CAUSE 12).key 0 0) s t)) ∧
  (∀ (s : State) (tier : Tier) (ch : Nat),
     s.chanUp tier ch = true → s.mem.stopped.contains (chanKey tier ch) = true →
     ∃ t,
       exec (.channelRetrainDone tier ch true) s = .next t ∧
       t.mem = { s.mem with stopped := nerase s.mem.stopped (chanKey tier ch), fails := mdel s.mem.fails (chanKey tier ch) } ∧
       Frame [.mem] (fun _ => False) s t) ∧
  (∀ (s : State) (passed : List Nat),
     s.aon.held = false → s.aon.off = 0 → s.mem.untrained ≠ [] → s.rd F.AON_PWR_MODE_CUR = 0 →
     (∀ d ∈ s.mem.untrained, passed.contains d = true) →
     ∃ t,
       exec (.dimmFullTrainingDone passed) s = .next t ∧ t.mem = { s.mem with untrained := [], dimmTrain := [] } ∧
       (∀ r ∈ t.bulk.sets, r.usable = true) ∧ t.bulk.mem = s.bulk.mem ∧
       (∀ c ∈ s.nearChans, (mget t.aon.trainedValues c).isSome = true) ∧
       Frame [.mem, .bulk, .aon, .draw] (fun _ => False) s t)

/-- The answer of a near read (R242 for a clean word), PMIC faults (R222), temperatures (R218, R220).
Where it rests on the model's choices: log entries 18, 73, 74. -/
def Obligations.DramStatus : Prop :=
  (∀ (s : State) (id : Nat) (r : NearRead) (h : Nat) (l : Nat) (tag : Nat),
     s.serving = true → s.near.reads = [r] → r.id = id → s.queued id = false → r.merge = false →
     r.req.org = .host h l tag → s.dir.conflicts = [] →
     ∃ t,
       exec (.dramReadData id 0 []) s = .next t ∧ t.near.reads = [] ∧
       t.out = s.out ++ [Out.data h l tag (if r.poison then 0 else r.data) r.poison r.req.grant] ∧
       t.near.mem = s.near.mem ∧ Frame [.near, .out, .adm, .evt] (fun key => InBlock 4 key) s t) ∧
  (∀ (s : State) (d : Nat),
     s.dimmOn d = true → d < 32 → s.rdb F.BTC_DIMM_PMIC_FAULT d = false → s.rd F.AON_PWR_MODE_CUR = 0 →
     s.aon.quiescing = false → s.aon.loading = false →
     ∃ t,
       exec (.pmicPowerFault d) s = .next t ∧ t.rd F.BTC_DIMM_PMIC_FAULT d = 1 ∧
       (t.rd (F.EVT_RAW_CAUSE 11) (1 + 2 * (d / 2))).testBit 4 = true ∧
       (t.rd (F.EVT_RAW_CAUSE 11) (1 + 2 * (d / 2))).testBit 0 = true ∧
       (t.rd (F.EVT_RAW_CAUSE 11) (2 + 2 * (d / 2))).testBit 0 = true ∧ t.aon.quiescing = true ∧
       t.rd F.AON_RST_CAUSE_CAUSE = 5) ∧
  (∀ (s : State) (d : Nat) (v : BitVec 8),
     s.dimmOn d = true →
     ∃ t,
       exec (.pmicStatusPoll [(d, v)] []) s = .next t ∧ t.rd F.BTC_DIMM_PMIC_STATUS d = v.toNat ∧
       Frame [] (fun key => key = F.BTC_DIMM_PMIC_STATUS.key d 0) s t) ∧
  (∀ (s : State) (x : TempReading),
     s.aon.held = false → s.aon.off = 0 → s.cur < 3 → x.unit < 16 →
     (s.rd F.NTC_CONFIG_POS_ACTIVE).testBit x.unit = true → x.fail = false → x.t0 ≤ 83 → x.t1 ≤ 83 →
     max x.t0 x.t1 < s.rd F.NTC_THERM_CRIT →
     ∃ t,
       exec (.temperaturePoll .near [x]) s = .next t ∧
       (∀ k < 2, t.rd F.NTC_CH_CTL_HOT (2 * x.unit + k) = 0 ∧ t.rd F.NTC_CH_STS_TEMP (2 * x.unit + k) = max x.t0 x.t1) ∧
       t.mem.queues = s.mem.queues ∧ t.mem.refDue = s.mem.refDue ∧ Frame [.mem] (fun key => InBlock 10 key) s t) ∧
  (∀ (s : State) (x : TempReading),
     s.aon.held = false → s.aon.off = 0 → s.cur < 3 → x.unit < 16 →
     (s.rd F.NTC_CONFIG_POS_ACTIVE).testBit x.unit = true → (x.fail = true ∨ 85 < max x.t0 x.t1) →
     (x.fail = true ∨ max x.t0 x.t1 < s.rd F.NTC_THERM_CRIT) → s.mem.posCrit = [] →
     ∃ t,
       exec (.temperaturePoll .near [x]) s = .next t ∧
       (∀ k < 2, t.rd F.NTC_CH_CTL_HOT (2 * x.unit + k) = 1 ∧ (x.fail = true → t.rd F.NTC_CH_STS_TEMP (2 * x.unit + k) = s.rd F.NTC_CH_STS_TEMP (2 * x.unit + k))) ∧
       Frame [.mem] (fun key => InBlock 10 key) s t)

/-- The scrubber (R260 to R262) and the sweep after a retention loss (R265).
Where it rests on the model's choices: log entries 20, 75, 77, 110. -/
def Obligations.Scrubbing : Prop :=
  (∀ (s : State),
     s.serving = true →
     ∃ t,
       exec (.scrubAllowance) s = .next t ∧
       t.ras.bulkAllow = min (4 * s.rd F.RAS_SCRUB_BULK_RATE) (s.ras.bulkAllow + s.rd F.RAS_SCRUB_BULK_RATE) ∧
       t.ras.nearAllow = min (4 * s.rd F.RAS_SCRUB_NEAR_RATE) (s.ras.nearAllow + s.rd F.RAS_SCRUB_NEAR_RATE) ∧
       t.ras.nearPos = s.ras.nearPos ∧ t.ras.bulkPos = s.ras.bulkPos ∧ t.ras.log = s.ras.log ∧
       Frame [.ras, .evt] (fun key => key = (F.EVT_RAW_CAUSE 12).key 0 0) s t) ∧
  (∀ (s : State) (f : Nat) (e : Fte),
     s.serving = true → s.paused = false → s.rd F.RAS_SCRUB_NEAR_RATE ≠ 0 → s.nearSr = 0 → s.nextNear = some f →
     s.fte f = some e → s.ras.nearAllow ≠ 0 → s.barred 19 13 (s.pairBucket 19 13) 4096 1 = 0 →
     ({ s with ras := { s.ras with nearPos := f + 1 } } : State).nextNear.isSome = true →
     ∃ t,
       exec (.scrubUnit .near { sectors := [], lines := [], pipes := noFaults }) s = .next t ∧
       t.ras = { s.ras with nearAllow := s.ras.nearAllow - 1, nearPos := f + 1 } ∧ t.near = s.near ∧
       t.adm.taken = s.adm.taken + 1 ∧ Frame [.ras, .adm, .evt] (fun key => InBlock 4 key) s t) ∧
  (∀ (s : State) (found : Found),
     s.serving = true → s.paused = false → s.rd F.RAS_SCRUB_NEAR_RATE ≠ 0 → s.nearSr = 0 → s.nextNear = none →
     s.rd F.RAS_SCRUB_STS_NEAR_PASSES + 1 < 2 ^ F.RAS_SCRUB_STS_NEAR_PASSES.width →
     ∃ t,
       exec (.scrubUnit .near found) s = .next t ∧ t.ras = { s.ras with nearPos := 0, nearBehind := false } ∧
       t.rd F.RAS_SCRUB_STS_NEAR_PASSES = s.rd F.RAS_SCRUB_STS_NEAR_PASSES + 1 ∧
       (t.rd (F.EVT_RAW_CAUSE cScrubPassDone.blk) 0).testBit cScrubPassDone.bit = true ∧
       (Frame [.ras, .evt] (fun key => key = F.RAS_SCRUB_STS_NEAR_PASSES.key 0 0 ∨ key = (F.EVT_RAW_CAUSE 12).key 0 0) s t)) ∧
  (∀ (s : State) (found : Found),
     s.serving = true → s.paused = false → s.rd F.RAS_SCRUB_BULK_RATE ≠ 0 → s.bulkSr = 0 → s.aesRuns = true →
     s.nextBulk = none → s.rd F.RAS_SCRUB_STS_PASSES + 1 < 2 ^ F.RAS_SCRUB_STS_PASSES.width →
     ∃ t,
       exec (.scrubUnit .bulk found) s = .next t ∧ t.ras = { s.ras with bulkPos := (0, 0), bulkBehind := false } ∧
       t.rd F.RAS_SCRUB_STS_PASSES = s.rd F.RAS_SCRUB_STS_PASSES + 1 ∧
       (t.rd (F.EVT_RAW_CAUSE cScrubPassDone.blk) 0).testBit cScrubPassDone.bit = true ∧
       (Frame [.ras, .evt] (fun key => key = F.RAS_SCRUB_STS_PASSES.key 0 0 ∨ key = (F.EVT_RAW_CAUSE 12).key 0 0) s t)) ∧
  (∀ (s : State) (p : Nat × Nat),
     s.serving = true → s.bulkSr = 0 → s.ras.sweep = some p → s.sweepRegion p.1 = none →
     (∀ w ∈ s.tmu.waits, w.why ≠ .retention) →
     ∃ t,
       exec (.retentionSweepStep) s = .next t ∧ t.ras = { s.ras with sweep := none } ∧
       (t.rd (F.EVT_RAW_CAUSE cRetentionSweepDone.blk) 0).testBit cRetentionSweepDone.bit = true ∧
       Frame [.ras, .evt] (fun key => key = (F.EVT_RAW_CAUSE 12).key 0 0) s t) ∧
  (∀ (s : State) (r : Nat) (x : Nat) (q : Nat),
     s.serving = true → s.bulkSr = 0 → s.ras.sweep = some (r, x) → s.sweepRegion r = some r →
     ((List.range (s.rgnTiles r / 2 - x / 2)).map (x / 2 + ·)).find? (s.sweepHits r) = none →
     s.sweepRegion (r + 1) = some q → (∀ w ∈ s.tmu.waits, w.why ≠ .retention) →
     ∃ t,
       exec (.retentionSweepStep) s = .next t ∧ t.ras = { s.ras with sweep := some (q, 0) } ∧
       Frame [.ras] (fun _ => False) s t) ∧
  (∀ (s : State) (r : Nat) (x : Nat) (k : Nat) (y : Nat) (ent : CacheEnt),
     s.serving = true → s.bulkSr = 0 → s.ras.sweep = some (r, x) → s.sweepRegion r = some r →
     ((List.range (s.rgnTiles r / 2 - x / 2)).map (x / 2 + ·)).find? (s.sweepHits r) = some k →
     s.sectorListed (s.rd F.TMU_RGN_MAPLOC_LOC r + k) = false → (y = 2 * k ∨ y = 2 * k + 1) →
     mget s.tmu.cache (tkey r y) = some ent → ent.dirty = true →
     (List.range ent.tme.len).any (fun i => s.sectorListed (ent.tme.loc + i)) = true → ent.tme.nv = false →
     s.fixedSlots r = false → (s.tme r (4 * k + 1 - y)).len = 0 → (∀ w ∈ s.tmu.waits, w.why ≠ .retention) →
     ∃ t,
       exec (.retentionSweepStep) s = .next t ∧ t.ras.sweep = some (r, 2 * k + 2) ∧ (t.tme r y).poison = true ∧
       (t.tme r y).len = 0 ∧ (t.tme r y).fmt = .zero ∧ (t.tme r y).ctr = ent.tme.ctr ∧ t.near = s.near ∧
       t.bulk.mem = s.bulk.mem ∧
       (Frame [.tmu, .ras, .evt, .bulk] (fun key => key = F.TMU_RGN_USED_USED.key r 0 ∨ key = F.TMU_CAP_FREE_SECTORS.key 0 0 ∨ InBlock 12 key ∨ InBlock 6 key) s t))

/-- Row remapping (R252), evacuation (R257 to R259).
Where it rests on the model's choices: log entries 75, 76, 105, 109, 132. -/
def Obligations.RowAndRankRepair : Prop :=
  (∀ (s : State) (ch : Nat) (entry : Nat) (c : RowCopy),
     s.serving = true → s.bulkSr = 0 → s.ras.copies = [c] → c.ch = ch → c.entry = entry → ch < 16 → entry < 64 →
     c.row < 2 ^ 20 → c.bank < 32 → c.set < 16 → c.spare < 2 ^ 20 → s.barred 19 13 (s.pairBucket 19 13) 8192 1 = 0 →
     (s.rd F.RAS_LOG_PROD + 1) % 1024 ≠ s.rd F.RAS_LOG_CONS →
     ∃ t,
       exec (.rowRemapCopyDone ch entry) s = .next t ∧ t.ras.copies = [] ∧
       t.rd F.RAS_REMAP_VALID (32 + ch) entry = 1 ∧ t.rd F.RAS_REMAP_ROW (32 + ch) entry = c.row ∧
       t.rd F.RAS_REMAP_BANK (32 + ch) entry = c.bank ∧ t.rd F.RAS_REMAP_SET (32 + ch) entry = c.set ∧
       t.rd F.RAS_REMAP_SPARE (32 + ch) entry = c.spare ∧
       (mget t.ras.log (s.rd F.RAS_LOG_PROD)).map (fun x => (x.type, x.detail)) = some (0x06, c.row + 2 ^ 20 * c.spare + 2 ^ 40 * c.entry) ∧
       (Frame [.ras, .adm, .evt] (fun key => InBlock 4 key ∨ InBlock 12 key) s t)) ∧
  (∀ (s : State) (src : MboxSrc) (p : List (BitVec 8)) (id : Nat),
     s.rd F.AON_PWR_MODE_CUR = 0 → s.aon.entry.stage = 0 → s.mboxUp src = true → s.mboxBusy src = false →
     s.lacks src (.perm 0) = none → p.length = 4 → numAt p 0 4 = id → id ≤ 15 → s.setHeld id = false →
     s.bulk.sets.any (fun r => decide (r.id = id)) = true → (s.rd F.RAS_RANK_STS_REMOVED).testBit id = false →
     (s.rd F.RAS_RANK_STS_FAILING).testBit id = false → s.ras.evac = none → s.rd F.RAS_SPARE_SET_VALID = 0 →
     (s.rd F.RAS_LOG_PROD + 1) % 1024 ≠ s.rd F.RAS_LOG_CONS →
     ∃ t,
       exec (.evacuateSet src p) s = .next t ∧ (t.rd F.RAS_RANK_STS_FAILING).testBit id = true ∧
       t.ras.evac = some (id, 0, 0) ∧ t.ras.evacDest = none ∧
       (mget t.ras.log (s.rd F.RAS_LOG_PROD)).map (fun x => (x.type, x.detail)) = some (0x09, id + 2 ^ 8 * 3) ∧
       t.ctl.background = s.ctl.background ++ [BgOp.mk src 0xc032 id] ∧ Answered s t (src) 0xc032 1 ([]) ∧
       (Frame [.ras, .ctl, .out, .evt, .hlx] (fun key => key = F.RAS_RANK_STS_FAILING.key 0 0 ∨ key = F.RAS_LOG_PROD.key 0 0 ∨ key = F.RAS_LOG_LOST.key 0 0 ∨ key = (F.EVT_RAW_CAUSE 12).key 0 0) s t)) ∧
  (∀ (s : State) (id : Nat) (x : Nat × Nat) (a : Nat) (s1 : State),
     s.scarabRuns = true → s.ras.evac = some (id, x) → s.inSet id (s.rd F.TMU_MAP_BASE_LOC) = true →
     s.retainedRoom (s.rd F.TMU_MAP_SIZE_SECTORS) = some (a, s1) → a < 2 ^ F.TMU_MAP_BASE_LOC.width →
     (∀ r < 64, s.rgnState r ≠ 0 → a + s.rd F.TMU_RGN_MAPLOC_LOC r - s.rd F.TMU_MAP_BASE_LOC < 2 ^ F.TMU_RGN_MAPLOC_LOC.width) →
     ∃ t,
       exec (.evacuationMove) s = .next t ∧ t.rd F.TMU_MAP_BASE_LOC = a ∧
       (∀ r < 64, s.rgnState r ≠ 0 → t.rd F.TMU_RGN_MAPLOC_LOC r = a + s.rd F.TMU_RGN_MAPLOC_LOC r - s.rd F.TMU_MAP_BASE_LOC) ∧
       t.rd F.RAS_RANK_STS_STALLED = 0 ∧ t.tmu.freeIv = s1.tmu.freeIv ∧ t.tmu.cache = s.tmu.cache ∧
       t.tmu.map = s.tmu.map ∧
       (Frame [.tmu] (fun key => key = F.TMU_MAP_BASE_LOC.key 0 0 ∨ key = F.RAS_RANK_STS_STALLED.key 0 0 ∨ (∃ r < 64, key = F.TMU_RGN_MAPLOC_LOC.key r 0)) s t)) ∧
  (∀ (s : State) (id : Nat) (p : Nat × Nat) (r : Nat) (x : Nat) (e : Nat) (f : Nat) (ent : CacheEnt),
     s.scarabRuns = true → s.ras.evac = some (id, p) → s.mapsIn id = [] →
     s.inSet id (s.rd F.TMU_MAP_BASE_LOC) = false → (∀ k ∈ s.heldSlots, s.fixedSlots k = false) →
     s.nextTile id = some (r, x) → (s.alloc r ent.tme.len).isSome = true → s.freeEngine = some e →
     mget s.tmu.cache (tkey r x) = some ent → s.tmeFault r x ent.tme = 0 → ent.tme.nv = false →
     s.keepsFrame r x = false → s.mayPromote r x = true → s.lockRoom r = true → s.freeFrame = some f →
     s.barred 19 13 (s.pairBucket 19 13) 4096 1 = 0 →
     ∃ t,
       exec (.evacuationMove) s = .next t ∧
       (t.fte f).map (fun y => (y.slot, y.tile, y.state)) = some (r, x, .filling) ∧
       (t.move s.tmu.nextId).map (fun m => (m.kind, m.purpose, m.stage)) = some (.promote, .evacuate, .bulkRead) ∧
       (t.move s.tmu.nextId).map (fun m => (m.slot, m.tile, m.frame, m.engine)) = some (r, x, f, some e) ∧
       (t.move s.tmu.nextId).map (fun m => m.record) = some (s.sectors ent.tme.loc ent.tme.len) ∧
       t.rd F.RAS_RANK_STS_STALLED = 0 ∧ t.bulk = s.bulk ∧ t.near.mem = s.near.mem ∧
       (Frame [.tmu, .near, .scr, .mem, .adm, .evt, .cdc, .cry] (fun key => InBlock 4 key ∨ InBlock 11 key ∨ key = F.RAS_RANK_STS_STALLED.key 0 0 ∨ key = (F.EVT_RAW_CAUSE 9).key 0 0) s t)) ∧
  (∀ (s : State) (id : Nat) (x : Nat × Nat) (r : RankSet) (src : MboxSrc),
     s.scarabRuns = true → s.ras.evac = some (id, x) → s.ras.evacDest = none → id < 16 → s.heldSlots = [] →
     s.mapsIn id = [] → s.inSet id (s.rd F.TMU_MAP_BASE_LOC) = false → s.setMoves id = false →
     s.bulk.sets.find? (fun r => decide (r.id = id)) = some r → s.rd F.RAS_RANK_STS_FAILING = 2 ^ id →
     s.ctl.background = [BgOp.mk src 0xc032 id] → (s.rd F.RAS_LOG_PROD + 1) % 1024 ≠ s.rd F.RAS_LOG_CONS →
     ∃ t,
       exec (.evacuationMove) s = .next t ∧ (t.rd F.RAS_RANK_STS_FAILING).testBit id = false ∧
       (t.rd F.RAS_RANK_STS_REMOVED).testBit id = true ∧ t.ras.evac = none ∧
       t.rd F.TMU_CAP_TOTAL_SECTORS = s.rd F.TMU_CAP_TOTAL_SECTORS - (r.sectors - reserveSectors (s.rd F.BTC_CONFIG_NCH) r) ∧
       (t.rd (F.EVT_RAW_CAUSE cRankEvacDone.blk) 0).testBit cRankEvacDone.bit = true ∧ t.ctl.background = [] ∧
       (∀ e ∈ t.tmu.freeIv, s.inSet id e.1 = false) ∧ Answered s t (src) 0xc032 0 (resultHeader 0 0) ∧
       (Frame [.ras, .tmu, .adm, .ctl, .out, .evt, .hlx] (fun key => key = F.RAS_RANK_STS_FAILING.key 0 0 ∨ key = F.RAS_RANK_STS_REMOVED.key 0 0 ∨ key = F.RAS_RANK_STS_STALLED.key 0 0 ∨ key = F.TMU_CAP_TOTAL_SECTORS.key 0 0 ∨ key = F.RAS_LOG_PROD.key 0 0 ∨ key = F.RAS_LOG_LOST.key 0 0 ∨ key = (F.EVT_RAW_CAUSE 12).key 0 0) s t))

/-- CXL.mem requests up to ADM (R36, R50, R243, R282, R283, R289, R334).
Where it rests on the model's choices: log entries 6, 30, 80, 112, 134. -/
def Obligations.HostRequests : Prop :=
  (∀ (s : State) (h : Nat) (l : Nat) (hpa : BitVec 64) (dpa : BitVec 64) (look : DirLook) (tag : Nat),
     s.rd F.AON_PWR_MODE_CUR = 0 → s.aon.entry.stage = 0 → s.takesHost h l = true →
     (s.hdmDecode h l hpa.toNat).map (BitVec.ofNat 64) = some dpa →
     (¬ ((s.hostReq .read h l dpa look tag).bad = 0 ∧ (inDoorbells (s.hostReq .read h l dpa look tag).addr = true ∨ inFirefly (s.hostReq .read h l dpa look tag).addr = true))) →
     ∃ t,
       exec (.hostRead h l hpa look tag) s = .next t ∧
       t.adm = { s.adm with queue := s.adm.queue ++ [s.hostReq .read h l dpa look tag] } ∧
       Frame [.adm] (fun _ => False) s t) ∧
  (∀ (s : State) (h : Nat) (l : Nat) (hpa : BitVec 64) (dpa : BitVec 64) (look : DirLook) (tag : Nat) (data : BitVec 512) (poison : Bool),
     s.rd F.AON_PWR_MODE_CUR = 0 → s.aon.entry.stage = 0 → s.takesHost h l = true →
     (s.hdmDecode h l hpa.toNat).map (BitVec.ofNat 64) = some dpa → s.rd F.HLX_PORT_STS_VIRAL_IN h = 0 →
     (¬ ((s.hostReq .write h l dpa look tag).bad = 0 ∧ (inDoorbells (s.hostReq .write h l dpa look tag).addr = true ∨ inFirefly (s.hostReq .write h l dpa look tag).addr = true))) →
     ∃ t,
       exec (.hostWrite h l hpa look tag data poison) s = .next t ∧
       t.adm = { s.adm with queue := s.adm.queue ++ [{ s.hostReq .write h l dpa look tag with data := data, poison := poison }] } ∧
       Frame [.adm] (fun _ => False) s t) ∧
  (∀ (s : State) (h : Nat) (l : Nat) (hpa : BitVec 64) (dpa : BitVec 64) (look : DirLook) (tag : Nat) (data : BitVec 512) (poison : Bool),
     s.rd F.AON_PWR_MODE_CUR = 0 → s.aon.entry.stage = 0 → s.takesHost h l = true →
     (s.hdmDecode h l hpa.toNat).map (BitVec.ofNat 64) = some dpa → s.rd F.HLX_PORT_STS_VIRAL_IN h = 1 →
     s.rd F.HLX_PORT_ERRCNT_VIRAL_DROP h < 2 ^ F.HLX_PORT_ERRCNT_VIRAL_DROP.width →
     ∃ t,
       exec (.hostWrite h l hpa look tag data poison) s = .next t ∧
       t.rd F.HLX_PORT_ERRCNT_VIRAL_DROP h = min (2 ^ F.HLX_PORT_ERRCNT_VIRAL_DROP.width - 1) (s.rd F.HLX_PORT_ERRCNT_VIRAL_DROP h + 1) ∧
       t.out = s.out ++ [Out.done h l tag .cmp] ∧
       Frame [.out, .evt] (fun key => key = F.HLX_PORT_ERRCNT_VIRAL_DROP.key h 0) s t) ∧
  (∀ (s : State) (h : Nat) (l : Nat) (hpa : BitVec 64) (dpa : BitVec 64) (look : DirLook) (tag : Nat) (data : BitVec 512) (be : BitVec 64) (poison : Bool) (k : ReqKind),
     s.rd F.AON_PWR_MODE_CUR = 0 → s.aon.entry.stage = 0 → s.takesHost h l = true →
     (s.hdmDecode h l hpa.toNat).map (BitVec.ofNat 64) = some dpa → s.rd F.HLX_PORT_STS_VIRAL_IN h = 0 →
     k = (if be = BitVec.allOnes 64 then ReqKind.write else ReqKind.partialWrite) →
     (¬ ((s.hostReq k h l dpa look tag).bad = 0 ∧ (inDoorbells (s.hostReq k h l dpa look tag).addr = true ∨ inFirefly (s.hostReq k h l dpa look tag).addr = true))) →
     ∃ t,
       exec (.hostPartialWrite h l hpa look tag data be poison) s = .next t ∧
       t.adm = { s.adm with queue := s.adm.queue ++ [{ s.hostReq k h l dpa look tag with data := data, be := be, poison := poison }] } ∧
       Frame [.adm] (fun _ => False) s t) ∧
  (∀ (s : State) (h : Nat) (l : Nat) (hpa : BitVec 64) (look : DirLook) (tag : Nat),
     s.rd F.AON_PWR_MODE_CUR = 0 → s.aon.entry.stage = 0 → s.takesHost h l = true →
     s.hdmDecode h l hpa.toNat = none →
     ∃ t,
       exec (.hostRead h l hpa look tag) s = .next t ∧
       t.out = s.out ++ [Out.data h l tag (BitVec.allOnes 512) false .cmp] ∧ t.adm = s.adm ∧
       Frame [.out] (fun _ => False) s t) ∧
  (∀ (s : State) (h : Nat) (l : Nat) (hpa : BitVec 64) (look : DirLook) (tag : Nat) (data : BitVec 512) (poison : Bool),
     s.rd F.AON_PWR_MODE_CUR = 0 → s.aon.entry.stage = 0 → s.takesHost h l = true →
     s.hdmDecode h l hpa.toNat = none →
     ∃ t,
       exec (.hostWrite h l hpa look tag data poison) s = .next t ∧ t.out = s.out ++ [Out.done h l tag .cmp] ∧
       t.adm = s.adm ∧ Frame [.out] (fun _ => False) s t)

/-- Coherence commands (R316), snoop responses (R317, R320, R321), timeouts (R323), sweeps (R327).
Where it rests on the model's choices: log entries 6, 78, 79, 119, 134. -/
def Obligations.Coherence : Prop :=
  (∀ (s : State) (h : Nat) (l : Nat) (hpa : BitVec 64) (dpa : BitVec 64) (tag : Nat) (r : Nat) (ent : CacheEnt),
     s.rd F.AON_PWR_MODE_CUR = 0 → s.aon.entry.stage = 0 → s.takesHost h l = true →
     (s.hdmDecode h l hpa.toNat).map (BitVec.ofNat 64) = some dpa →
     (s.hostReq .inv h l dpa { mv := .any, err := .none } tag).inWindow = false →
     (s.dirEnts (dirSet (dpa.toNat % 2 ^ 46 / 64))).all DirEnt.wellFormed = true →
     s.regionAt (dpa.toNat % 2 ^ 46) s.tmu.nextId = some r → s.tagBitsOk h dpa.toNat = true → s.admits h l r = true →
     s.rgnType r = 3 → bits dpa.toNat 49 46 = 0 → (s.rd F.DIR_FENCE_HEADS).testBit h = false → s.vk4 = false →
     s.rgnState r = 1 → s.nearOnly = false → s.ras.sweep = none →
     mget s.tmu.cache (tkey r ((dpa.toNat % 2 ^ 46 - s.rgnBase r) / 4096)) = some ent →
     s.tmeFault r ((dpa.toNat % 2 ^ 46 - s.rgnBase r) / 4096) ent.tme = 0 → s.tmu.moves = [] → s.tmu.waits = [] →
     s.dir.busy = [] → s.dir.sweeps = [] → s.aon.blocks = [] → s.dirFind (dpa.toNat % 2 ^ 46 / 64) = none →
     s.dirRoom (dpa.toNat % 2 ^ 46 / 64) = true → s.setUnknown (dirSet (dpa.toNat % 2 ^ 46 / 64)) = false →
     s.job.jobs = [] →
     ∃ t,
       exec (.memInv h l hpa { mv := .any, err := .none } tag) s = .next t ∧
       t.dirFind (dpa.toNat % 2 ^ 46 / 64) = some { line := dpa.toNat % 2 ^ 46 / 64, state := .e, sharers := 2 ^ s.portOf h } ∧
       t.out = s.out ++ [Out.done h l tag .cmpE] ∧
       (Frame [.out, .tmu, .dir, .evt] (fun key => key = F.DIR_CNT_LOOKUP_MISS.key 0 0 ∨ key = F.DIR_CNT_LOOKUP_HIT.key 0 0) s t)) ∧
  (∀ (s : State) (h : Nat) (l : Nat) (hpa : BitVec 64) (dpa : BitVec 64) (tag : Nat) (r : Nat) (e : DirEnt),
     s.rd F.AON_PWR_MODE_CUR = 0 → s.aon.entry.stage = 0 → s.takesHost h l = true →
     (s.hdmDecode h l hpa.toNat).map (BitVec.ofNat 64) = some dpa →
     (s.hostReq .inv h l dpa { mv := .invalid, err := .none } tag).inWindow = false →
     s.regionAt (dpa.toNat % 2 ^ 46) s.tmu.nextId = some r → s.tagBitsOk h dpa.toNat = true → s.admits h l r = true →
     s.rgnType r = 3 → bits dpa.toNat 49 46 = 0 → (s.rd F.DIR_FENCE_HEADS).testBit h = false →
     s.dirFind (dpa.toNat % 2 ^ 46 / 64) = some e →
     ∃ t,
       exec (.memClnEvct h l hpa tag) s = .next t ∧
       t.dir = (s.dirPut (dpa.toNat % 2 ^ 46 / 64) e.state (clrBit e.sharers h)).dir ∧
       t.out = s.out ++ [Out.done h l tag .cmp] ∧ Frame [.out, .dir] (fun _ => False) s t) ∧
  (∀ (s : State) (h : Nat) (line : Nat) (b : Busy),
     s.rd F.AON_PWR_MODE_CUR = 0 → s.aon.entry.stage = 0 → s.serving = true → s.headUp h = true → s.dir.busy = [b] →
     b.line = line → b.heads = [h] → b.then_ = .nothing → s.tmu.waits = [] →
     ∃ t,
       exec (.birspi h line) s = .next t ∧ t.dir = { (s.dirDrop line h).dir with busy := [] } ∧ t.out = s.out ∧
       Frame [.dir] (fun _ => False) s t) ∧
  (∀ (s : State) (h : Nat) (line : Nat) (b : Busy) (e : DirEnt),
     s.rd F.AON_PWR_MODE_CUR = 0 → s.aon.entry.stage = 0 → s.serving = true → s.headUp h = true → s.dir.busy = [b] →
     b.line = line → b.heads = [h] → b.then_ = .nothing → s.tmu.waits = [] → b.snoop = .data →
     s.dirFind line = some e →
     ∃ t,
       exec (.birsps h line) s = .next t ∧ t.dir = { (s.dirPut line .s e.sharers).dir with busy := [] } ∧
       t.out = s.out ∧ Frame [.dir] (fun _ => False) s t) ∧
  (∀ (s : State) (h : Nat) (line : Nat) (b : Busy),
     s.rd F.AON_PWR_MODE_CUR = 0 → s.aon.entry.stage = 0 → s.serving = true → s.headUp h = true → s.dir.busy = [b] →
     b.line = line → b.heads = [h] → b.then_ = .nothing → s.tmu.waits = [] → b.snoop = .cur →
     ∃ t,
       exec (.birspe h line) s = .next t ∧ t.dir = { s.dir with busy := [] } ∧ t.out = s.out ∧
       Frame [.dir] (fun _ => False) s t) ∧
  (∀ (s : State) (h : Nat) (line : Nat),
     s.rd F.AON_PWR_MODE_CUR = 0 → s.aon.entry.stage = 0 → s.serving = true → s.headUp h = true →
     s.busyOf line = none → s.rd F.DIR_CNT_BI_BAD + 1 < 2 ^ F.DIR_CNT_BI_BAD.width →
     ∃ t,
       exec (.birspi h line) s = .next t ∧ t.rd F.DIR_CNT_BI_BAD = s.rd F.DIR_CNT_BI_BAD + 1 ∧ t.dir = s.dir ∧
       Frame [.evt] (fun key => key = F.DIR_CNT_BI_BAD.key 0 0) s t) ∧
  (∀ (s : State) (h : Nat) (line : Nat) (b : Busy),
     s.rd F.AON_PWR_MODE_CUR = 0 → s.aon.entry.stage = 0 → s.serving = true → s.headUp h = true → s.dir.busy = [b] →
     b.line = line → b.heads = [h] → s.openReqs h line = [] → s.dir.conflicts = [] →
     ∃ t,
       exec (.biconflict h line) s = .next t ∧ t.out = s.out ++ [Out.conflictAck h line] ∧ t.dir = s.dir ∧
       Frame [.out, .dir, .evt] (fun key => key = F.DIR_CNT_BI_CONFLICT.key 0 0) s t) ∧
  (∀ (s : State) (h : Nat) (b : Busy),
     s.serving = true → h < 16 → s.dir.busy = [b] → b.heads = [h] → b.then_ = .nothing → s.tmu.waits = [] →
     ∃ t,
       exec (.biTimeout h) s = .next t ∧ (t.rd F.DIR_FENCE_HEADS).testBit h = true ∧ t.dir.busy = [] ∧
       (t.rd (F.EVT_RAW_CAUSE cBiTimeout.blk) 0).testBit cBiTimeout.bit = true ∧
       (Frame [.dir, .evt] (fun key => key = F.DIR_FENCE_HEADS.key 0 0 ∨ key = (F.EVT_RAW_CAUSE 5).key 0 0) s t)) ∧
  (∀ (s : State) (n : Nat) (h : Nat) (e : DirEnt),
     s.dir.sweeps = [(n, .reset h)] → h < 16 → (∀ b ∈ s.dir.busy, b.then_ ≠ .sweep n) → s.tmu.waits = [] →
     s.dirLines (fun e => e.sharers.testBit h) = [e] →
     ∃ t,
       exec (.dirSweepDone n) s = .next t ∧ t.dir = { (s.dirDrop e.line h).dir with sweeps := [] } ∧
       t.rd F.DIR_HEAD_SWEEP 0 h = 0 ∧ (t.rd F.DIR_FENCE_HEADS).testBit h = false ∧
       (Frame [.dir] (fun key => key = F.DIR_HEAD_SWEEP.key 0 h ∨ key = F.DIR_FENCE_HEADS.key 0 0) s t))

/-- Host ports: training (R275), resets (R290, R291), viral (R289), IDE (R159).
Where it rests on the model's choices: log entries 59, 60, 61, 113, 114. -/
def Obligations.HostPorts : Prop :=
  (∀ (s : State) (port : Nat) (width : Nat) (rate : Nat) (flit : Nat),
     s.trains port = true → s.merged port = false → port < 16 → s.rd F.CTL_HEALTH_STATE = 3 → 1 ≤ width →
     width ≤ s.maxWidth port → 1 ≤ rate → rate ≤ s.maxRate port → rate < 4 → s.rd F.HLX_PORT_STS_LINK_UP port = 0 →
     ∃ t,
       exec (.linkTrained port width rate flit true) s = .next t ∧ t.rd F.HLX_PORT_STS_LINK_UP port = 1 ∧
       t.rd F.HLX_PORT_STS_WIDTH port = width ∧ t.rd F.HLX_PORT_STS_RATE port = rate ∧
       t.rd F.HLX_PORT_STS_FLIT port = 0 ∧ t.rd F.HLX_PORT_STS_HEAD port = 1 ∧
       (Frame [.evt] (fun key => key = F.HLX_PORT_STS_LINK_UP.key port 0 ∨ key = F.HLX_PORT_STS_WIDTH.key port 0 ∨ key = F.HLX_PORT_STS_RATE.key port 0 ∨ key = F.HLX_PORT_STS_FLIT.key port 0 ∨ key = F.HLX_PORT_STS_HEAD.key port 0 ∨ key = F.CTL_HEALTH_MEM_ACTIVE.key 0 0 ∨ key = (F.EVT_RAW_CAUSE 2).key (1 + port) 0) s t)) ∧
  (∀ (s : State) (port : Nat),
     s.aon.held = false → s.aon.off = 0 → s.aon.quiescing = false → s.cry.halt = 0 → s.merged port = false →
     port < 16 → s.rd F.HLX_PORT_STS_LINK_UP port = 1 →
     s.rd F.HLX_PORT_LINKCNT_DOWNS port + 1 < 2 ^ F.HLX_PORT_LINKCNT_DOWNS.width →
     (∀ b ∈ s.dir.busy, b.heads.contains port = false) → (∀ e ∈ s.tmu.offers, e.2.testBit port = false) →
     ∃ t,
       exec (.portReset port) s = .next t ∧ t.rd F.HLX_PORT_STS_LINK_UP port = 0 ∧
       t.rd F.HLX_PORT_STS_HEAD port = 0 ∧
       t.rd F.HLX_PORT_LINKCNT_DOWNS port = s.rd F.HLX_PORT_LINKCNT_DOWNS port + 1 ∧
       (∀ q ∈ t.adm.queue, ∀ l tag, q.org ≠ .host port l tag) ∧ t.rd F.DIR_HEAD_SWEEP 0 port = 1 ∧
       t.near.mem = s.near.mem ∧ t.bulk.mem = s.bulk.mem ∧ mget t.cry.ide port = none ∧
       t.cry.slotKeys = s.cry.slotKeys ∧ t.hlx.words = s.hlx.words ∧
       (Frame [.adm, .dir, .cry, .tmu, .near, .clx, .evt, .hlx, .job] (fun key => InBlock 2 key ∨ InBlock 4 key ∨ InBlock 5 key ∨ key = F.CTL_HEALTH_MEM_ACTIVE.key 0 0) s t)) ∧
  (∀ (s : State) (h : Nat) (l : Nat),
     s.aon.held = false → s.aon.off = 0 → s.aon.quiescing = false → s.cry.halt = 0 → s.headUp h = true →
     l < s.ldCount h → h < 16 → l < 4 → (∀ b ∈ s.dir.busy, b.heads.contains h = false) →
     (∀ e ∈ s.tmu.offers, e.2.testBit h = false) →
     ∃ t,
       exec (.functionReset h l false) s = .next t ∧ t.rd F.HLX_HEAD_VEC_MBOX_VEC (hl h l) = 0 ∧
       t.rd F.HLX_HEAD_VEC_FATAL_VEC (hl h l) = 0 ∧ t.rd F.HLX_HEAD_VEC_NOTICE_VEC (hl h l) = 0 ∧
       t.rd F.HLX_PORT_STS_VIRAL_IN h = 0 ∧ (∀ log < 4, t.logRecs h l log = [] ∧ t.rd (heldF log) (hl h l) = 0) ∧
       (∀ k < 4, t.rd F.EVT_LD_PEND_SRC (hl h l) k = 0) ∧ t.rd F.DIR_HEAD_SWEEP 0 h = 1 ∧
       t.rd F.TMU_HEAD_TAG_CLASS_EN 0 h = 0 ∧ t.rd F.TMU_HEAD_TAG_KEY_EN 0 h = 0 ∧
       (∀ n < 4, t.hdmCommitted h l n = false) ∧ t.near.mem = s.near.mem ∧ t.bulk.mem = s.bulk.mem ∧
       (Frame [.dir, .job, .evt, .hlx] (fun key => InBlock 2 key ∨ InBlock 4 key ∨ InBlock 5 key ∨ InBlock 9 key ∨ InBlock 13 key ∨ key = F.TMU_HEAD_TAG_CLASS_EN.key 0 h ∨ key = F.TMU_HEAD_TAG_KEY_EN.key 0 h) s t)) ∧
  (∀ (s : State) (h : Nat) (l : Nat),
     mget s.hlx.memclr (hl h l) = some [] → h < 16 →
     ∃ t,
       exec (.memclrDone h l) s = .next t ∧ mget t.hlx.memclr (hl h l) = none ∧
       (t.rd (F.EVT_RAW_CAUSE 2) (1 + h)).testBit 11 = true ∧
       Frame [.hlx, .evt] (fun key => key = (F.EVT_RAW_CAUSE 2).key (1 + h) 0) s t) ∧
  (∀ (s : State) (port : Nat),
     s.aon.held = false → s.aon.off = 0 → s.cry.halt = 0 → s.merged port = false → port < 16 → s.headUp port = true →
     s.rd F.HLX_PORT_STS_VIRAL_IN port = 0 →
     ∃ t,
       exec (.hostViral port) s = .next t ∧ t.rd F.HLX_PORT_STS_VIRAL_IN port = 1 ∧
       (t.rd F.HLX_VIRAL_IN).testBit port = true ∧ (t.rd (F.EVT_RAW_CAUSE 2) (1 + port)).testBit 9 = true ∧
       (Frame [.evt] (fun key => key = F.HLX_PORT_STS_VIRAL_IN.key port 0 ∨ key = F.HLX_VIRAL_IN.key 0 0 ∨ key = (F.EVT_RAW_CAUSE 2).key (1 + port) 0) s t)) ∧
  (∀ (s : State) (port : Nat) (stream : Nat),
     s.aon.held = false → s.aon.off = 0 → s.cry.halt = 0 → s.merged port = false → port < 16 →
     s.cry.ideOn.contains (port, stream) = true →
     s.rd F.HLX_PORT_ERRCNT_IDE_FAIL port + 1 < 2 ^ F.HLX_PORT_ERRCNT_IDE_FAIL.width →
     ∃ t,
       exec (.ideIntegrityFailure { port := port, number := stream }) s = .next t ∧
       t.cry = { s.cry with ideOn := s.cry.ideOn.filter (fun e => decide (e ≠ (port, stream))) } ∧
       t.rd F.HLX_PORT_STS_IDE port = (if t.cry.ideOn.any (fun e => decide (e.1 = port)) then 1 else 0) ∧
       t.rd F.HLX_PORT_ERRCNT_IDE_FAIL port = s.rd F.HLX_PORT_ERRCNT_IDE_FAIL port + 1 ∧
       (t.rd (F.EVT_RAW_CAUSE 2) (1 + port)).testBit 8 = true ∧
       (Frame [.cry, .evt] (fun key => key = F.HLX_PORT_STS_IDE.key port 0 ∨ key = F.HLX_PORT_ERRCNT_IDE_FAIL.key port 0 ∨ key = (F.EVT_RAW_CAUSE 2).key (1 + port) 0) s t))

/-- The fabric cycle (R353, R354) and the refill (R342, R343, R355, R360).
Where it rests on the model's choices: log entries 48, 49, 50, 52. -/
def Obligations.AdmissionCycles : Prop :=
  (∀ (s : State) (q : Req) (h : Nat) (l : Nat) (tag : Nat) (r : Nat),
     s.serving = true → s.aon.blocks = [] → s.adm.taken = 0 → s.adm.queue = [q] → s.classOf q = 15 →
     s.unitBar { ing := q.ing, cls := 15, reqs := [q] } = 0 → s.regionAt q.addr s.tmu.nextId = some r →
     s.admits h l r = true → s.cached r ((q.addr - s.rgnBase r) / 4096) = false → s.tmu.waits = [] →
     q.org = .host h l tag → q.hold = none → q.homeSlot = none → q.bad = 0 → s.vk4 = false → s.rgnState r = 1 →
     s.rgnType r = 2 → s.nearOnly = false → s.ras.sweep = none →
     ∃ t,
       exec (.admissionCycle) s = .next t ∧ t.adm.queue = [] ∧
       t.adm.units = s.adm.units ++ [(s.adm.nextUnit, 15, 1)] ∧ t.adm.nextUnit = s.adm.nextUnit + 1 ∧
       t.tmu.waits = [{ req := { q with id := s.tmu.nextId, cls := 15, unit := s.adm.nextUnit, hold := some (r, s.rd F.TMU_RGN_POLICY_TIER r) }, why := .miss, slot := r, tile := (q.addr - s.rgnBase r) / 4096 }] ∧
       (mget t.tmu.fetches (sectorKey r ((q.addr - s.rgnBase r) / 4096))).isSome = true ∧ t.tmu.cache = s.tmu.cache ∧
       (Frame [.adm, .tmu, .mem, .cry, .evt] (fun key => InBlock 4 key ∨ (∃ i < 32, key ∈ [F.BTC_SC_STS_RQ.key i 0, F.BTC_SC_STS_WQ.key i 0, F.BTC_SC_STS_DRAIN.key i 0, F.BTC_SC_STS_FB.key i 0])) s t)) ∧
  (∀ (s : State),
     s.aon.held = false → s.aon.off = 0 → s.cur < 3 → s.cry.halt = 0 → s.rdb F.ADM_BROWN_ACTIVE = false →
     ∃ t,
       exec (.tokenRefill) s = .next t ∧
       (∀ c < 16, mget t.adm.gc c = some (min 8192 ((mget s.adm.gc c).getD 0 + Int.ofNat (s.rd F.ADM_CLS_GUAR_EFF c)))) ∧
       (∀ b, mget t.adm.buckets b = (mget s.adm.buckets b).map Bucket.refill) ∧ t.adm.queue = s.adm.queue ∧
       t.adm.brown = s.adm.brown ∧ Frame [.adm] (fun _ => False) s t) ∧
  (∀ (s : State),
     s.aon.held = false → s.aon.off = 0 → s.cur < 3 → s.cry.halt = 0 → s.rdb F.ADM_BROWN_ACTIVE = true →
     ∃ t,
       exec (.tokenRefill) s = .next t ∧
       t.adm.brown = min 65536 (s.adm.brown + Int.ofNat (s.rd F.ADM_FLOOR_STS_RAW * s.rd F.ADM_BROWN_SAFE_PCT / 100)) ∧
       t.adm.queue = s.adm.queue ∧ Frame [.adm] (fun _ => False) s t)

/-- Tile map misses (R71, R35) and demand promotion (R88, R180). Installation (R88, R170, R177). Writes that wait (R179, R82) and the first write of a tile (R68).
Where it rests on the model's choices: log entries 10, 25, 46, 81, 101. -/
def Obligations.FillsAndInstalls : Prop :=
  (∀ (s : State) (r : Nat) (tile : Nat) (w : Waiting) (h : Nat) (l : Nat) (tag : Nat) (e : Tme) (id : Nat) (k : Nat),
     s.serving = true → s.bulkSr = 0 → s.tmu.waits = [w] → w.slot = r → w.tile = tile → w.why = .miss →
     s.cached r tile = false → (s.cacheSetOf r tile).length < 16 → w.req.org = .host h l tag → w.req.kind = .read →
     w.req.hold = some (r, k) → mget s.tmu.fetches (sectorKey r tile) = some id → s.queued id = false →
     s.rgnState r = 1 → s.rgnType r = 2 → s.nearOnly = false → s.ras.sweep = none →
     s.offsetOf w.req r / 4096 = tile → s.mapTme r tile = e → s.tmeFault r tile e = 0 → e.unmat = true →
     e.nv = false → e.len = 0 → s.tmu.moves = [] → s.dir.conflicts = [] →
     ∃ t,
       exec (.tmeMissFill r tile []) s = .next t ∧ t.out = s.out ++ [Out.data h l tag 0 false w.req.grant] ∧
       t.tmu.waits = [] ∧ t.cached r tile = true ∧ t.tme r tile = e ∧
       Frame [.out, .tmu, .adm, .evt] (fun key => InBlock 4 key) s t) ∧
  (∀ (s : State) (r : Nat) (tile : Nat) (w : Waiting) (ent : CacheEnt) (f : Nat),
     s.serving = true → s.tmu.waits = [w] → w.slot = r → w.tile = tile → w.why = .promo →
     mget s.tmu.cache (tkey r tile) = some ent → ent.tme.nv = false → 0 < ent.tme.len → s.ras.copies = [] →
     s.bulkSr = 0 → (s.lockOf r tile).isNone = true → s.lockRoom r = true → s.freeFrame = some f →
     s.scr.lastPromo = [] → (∀ m ∈ s.tmu.moves, m.id ≠ s.tmu.nextId) →
     ∃ t,
       exec (.demandPromotion r tile) s = .next t ∧
       (t.fte f).map (fun x => (x.slot, x.tile, x.state)) = some (r, tile, .filling) ∧
       (t.move s.tmu.nextId).map (fun m => (m.kind, m.purpose, m.stage, m.slot, m.tile, m.frame)) = some (.promote, .demand, .bulkRead, r, tile, f) ∧
       (t.move s.tmu.nextId).map (fun m => m.record) = some (s.sectors ent.tme.loc ent.tme.len) ∧
       t.tmu.waits = [{ w with why := .lock }] ∧ t.out = s.out ∧
       (Frame [.tmu, .near, .scr, .mem, .adm, .cry, .cdc, .evt] (fun key => InBlock 4 key ∨ InBlock 11 key ∨ key = (F.EVT_RAW_CAUSE 9).key 0 0) s t)) ∧
  (∀ (s : State) (id : Nat) (m : Move),
     s.move id = some m → m.kind = .promote → m.stage = .ready → s.serving = true → m.purpose = .demand →
     s.queued id = false → (∀ w ∈ s.tmu.waits, w.slot ≠ m.slot ∨ w.tile ≠ m.tile) →
     s.rd F.TMU_RGN_POLICY_TIER m.slot ≠ 1 → (s.tme m.slot m.tile).pinned = false → m.engine = none →
     s.scr.prefetch = [] → (mget s.tmu.cache (tkey m.slot m.tile)).map (·.dirty) = some true →
     s.rd F.SCR_CNT_PROMO_TILES 0 + 1 < 2 ^ F.SCR_CNT_PROMO_TILES.width →
     ∃ t,
       exec (.promotionInstall id) s = .next t ∧
       (t.fte m.frame).map (fun x => (x.slot, x.tile, x.state, x.heat, x.pin)) = some (m.slot, m.tile, .clean, 4, false) ∧
       t.tme m.slot m.tile = { s.tme m.slot m.tile with nv := true, near := m.frame } ∧
       t.near.mem = (s.putFrame m.frame m.data m.marks).near.mem ∧
       t.near.marks = (s.putFrame m.frame m.data m.marks).near.marks ∧ t.move id = none ∧
       t.rd F.SCR_CNT_PROMO_TILES 0 = s.rd F.SCR_CNT_PROMO_TILES 0 + 1 ∧ t.bulk = s.bulk ∧
       (Frame [.tmu, .near, .scr, .mem, .cry, .cdc, .evt] (fun key => key = F.SCR_CNT_PROMO_TILES.key 0 0 ∨ InBlock 10 key ∨ InBlock 11 key ∨ key = (F.EVT_RAW_CAUSE 9).key 0 0) s t)) ∧
  (∀ (s : State) (id : Nat) (w : Waiting) (h : Nat) (l : Nat) (tag : Nat) (r : Nat) (tile : Nat) (f : Nat) (ent : CacheEnt) (k : Nat),
     s.serving = true → s.tmu.waits = [w] → w.req.id = id → w.why = .frame → w.slot = r → w.tile = tile →
     w.req.org = .host h l tag → tag ≠ fwTag → w.req.kind = .write → w.req.hold = some (r, k) → k ≠ 2 →
     w.req.poison = false → s.ctrHeld r tile = false → s.rgnState r = 1 → s.rgnType r = 2 → s.nearOnly = false →
     s.nearSr = 0 → s.bulkOnly = false → s.ras.sweep = none → s.offsetOf w.req r / 4096 = tile →
     mget s.tmu.cache (tkey r tile) = some ent → ent.dirty = true → s.tmeFault r tile ent.tme = 0 →
     ent.tme.unmat = true → ent.tme.nv = false → ent.tme.len = 0 → ent.tme.poison = false → ent.tme.fmt = .zero →
     s.tmu.moves = [] → s.rd F.TMU_RGN_POLICY_TIER r ≠ 1 → ent.tme.pinned = false → s.dir.conflicts = [] →
     s.freeFrame = some f → s.dirtyBar r = none →
     ∃ t,
       exec (.writeWaitResume id) s = .next t ∧ t.tmu.waits = [] ∧
       (t.fte f).map (fun x => (x.slot, x.tile, x.state)) = some (r, tile, .dirty) ∧ (t.tme r tile).unmat = false ∧
       (t.tme r tile).nv = true ∧ (t.tme r tile).near = f ∧
       (∀ k < 64, t.nearLine f k = if k = s.offsetOf w.req r / 64 % 64 then w.req.data else 0) ∧
       t.out = s.out ++ [Out.done h l tag w.req.grant] ∧
       (Frame [.tmu, .near, .scr, .mem, .adm, .cry, .cdc, .out, .draw, .evt] (fun key => InBlock 4 key ∨ InBlock 10 key ∨ key = (F.EVT_RAW_CAUSE 9).key 0 0) s t))

/-- Bulk reads: tags (R160, R161), the integrity halt (R162), TCS (R118, R119).
Where it rests on the model's choices: log entries 8, 20, 97, 110, 130. -/
def Obligations.BulkReads : Prop :=
  (∀ (s : State) (id : Nat) (pipe : Nat) (m : Move),
     s.move id = some m → m.stage = .bulkRead → s.queued id = false → s.aesRuns = true →
     s.pipeWorks cryKind pipe = true → s.calcTag m.slot m.tile m.tme m.record = m.tme.tag →
     s.rd F.CRY_PIPE_WORK_UNITS pipe + 1 < 2 ^ F.CRY_PIPE_WORK_UNITS.width →
     ∃ t,
       exec (.bulkTileReadDone id [] [] pipe false) s = .next t ∧
       t.move id = some { m with stage := .codec, pipe := pipe, record := s.openTile m.slot m.tile m.tme m.record } ∧
       t.rd F.CRY_PIPE_WORK_UNITS pipe = s.rd F.CRY_PIPE_WORK_UNITS pipe + 1 ∧
       Frame [.tmu, .cdc, .evt] (fun key => key = F.CRY_PIPE_WORK_UNITS.key pipe 0) s t) ∧
  (∀ (s : State) (id : Nat) (pipe : Nat) (m : Move),
     s.move id = some m → m.stage = .bulkRead → s.queued id = false → s.aesRuns = true →
     s.pipeWorks cryKind pipe = true → s.otherActive cryKind pipe = false → m.tile < 2 ^ 32 → m.slot < 64 →
     pipe < 16 →
     ∃ t,
       exec (.bulkTileReadDone id [] [] pipe true) s = .next t ∧ t.cry = { s.cry with halt := 1 } ∧
       t.out = s.out ++ [Out.alertN true] ∧ t.rd F.CRY_HALT_REC_TILE = m.tile ∧ t.rd F.CRY_HALT_REC_SLOT = m.slot ∧
       t.rd F.CRY_HALT_REC_GEN = b2n m.tme.gen ∧ t.rd F.CRY_HALT_REC_PIPE = pipe ∧
       t.rd F.CRY_HALT_TAG_STORED = m.tme.tag.toNat ∧ (t.rd (F.EVT_RAW_CAUSE 8) 0).testBit cHalt.bit = true ∧
       t.tmu = s.tmu ∧
       (Frame [.cry, .out, .draw, .evt] (fun key => key = F.CRY_PIPE_WORK_UNITS.key pipe 0 ∨ key = F.CRY_HALT_REC_TILE.key 0 0 ∨ key = F.CRY_HALT_REC_SLOT.key 0 0 ∨ key = F.CRY_HALT_REC_GEN.key 0 0 ∨ key = F.CRY_HALT_REC_SRC.key 0 0 ∨ key = F.CRY_HALT_REC_PIPE.key 0 0 ∨ key = F.CRY_HALT_TAG_STORED.key 0 0 ∨ key = F.CRY_HALT_CALC_CALC.key 0 0 ∨ key = (F.EVT_RAW_CAUSE 8).key 0 0) s t)) ∧
  (∀ (s : State) (id : Nat) (pipe : Nat) (m : Move),
     s.move id = some m → m.stage = .tagRetry → s.aesRuns = true → s.unitState cryKind pipe = 1 → pipe ≠ m.pipe →
     s.calcTag m.slot m.tile m.tme m.record = m.tme.tag →
     s.rd F.CRY_PIPE_WORK_UNITS pipe + 1 < 2 ^ F.CRY_PIPE_WORK_UNITS.width →
     s.rd cryKind.count m.pipe + 1 < s.rd cryKind.thresh → s.rd cryKind.count m.pipe + 1 < 2 ^ cryKind.count.width →
     ∃ t,
       exec (.tagRecomputeDone id pipe false) s = .next t ∧
       t.move id = some { m with stage := .codec, record := s.openTile m.slot m.tile m.tme m.record } ∧
       t.rd cryKind.count m.pipe = s.rd cryKind.count m.pipe + 1 ∧
       t.rd F.CRY_PIPE_WORK_UNITS pipe = s.rd F.CRY_PIPE_WORK_UNITS pipe + 1 ∧
       (Frame [.tmu, .cdc, .evt] (fun key => key = F.CRY_PIPE_WORK_UNITS.key pipe 0 ∨ key = cryKind.count.key m.pipe 0 ∨ key = cryKind.total.key m.pipe 0) s t)) ∧
  (∀ (s : State) (id : Nat) (pipe : Nat) (m : Move),
     s.move id = some m → m.stage = .codec → m.kind = .promote → m.req = none → s.serving = true →
     s.holder (.tile id) = some pipe → m.tme.fmt = .raw → crc32c (maskLines m.record m.marks) = m.tme.tcs →
     s.rd F.CDC_PIPE_WORK_UNITS pipe + 1 < 2 ^ F.CDC_PIPE_WORK_UNITS.width →
     ∃ t,
       exec (.codecTileDone id pipe false) s = .next t ∧
       t.move id = some { m with stage := .ready, data := m.record } ∧
       t.rd F.CDC_PIPE_WORK_UNITS pipe = s.rd F.CDC_PIPE_WORK_UNITS pipe + 1 ∧ t.ras = s.ras ∧
       Frame [.tmu, .cdc, .evt] (fun key => key = F.CDC_PIPE_WORK_UNITS.key pipe 0) s t) ∧
  (∀ (s : State) (id : Nat) (pipe : Nat) (m : Move),
     s.move id = some m → m.stage = .tcsRetry → m.kind = .promote → m.req = none → s.serving = true →
     s.holder (.tile id) = some pipe → pipe ≠ m.pipe → m.tme.fmt = .raw →
     crc32c (maskLines m.record m.marks) = m.tme.tcs →
     s.rd F.CDC_PIPE_WORK_UNITS pipe + 1 < 2 ^ F.CDC_PIPE_WORK_UNITS.width →
     s.rd cdcKind.count m.pipe + 1 < s.rd cdcKind.thresh → s.rd cdcKind.count m.pipe + 1 < 2 ^ cdcKind.count.width →
     ∃ t,
       exec (.tcsRetryDone id pipe false) s = .next t ∧
       t.move id = some { m with stage := .ready, data := m.record } ∧
       t.rd cdcKind.count m.pipe = s.rd cdcKind.count m.pipe + 1 ∧
       t.rd F.CDC_PIPE_WORK_UNITS pipe = s.rd F.CDC_PIPE_WORK_UNITS pipe + 1 ∧ t.ras = s.ras ∧
       (Frame [.tmu, .cdc, .evt] (fun key => key = F.CDC_PIPE_WORK_UNITS.key pipe 0 ∨ key = cdcKind.count.key m.pipe 0 ∨ key = cdcKind.total.key m.pipe 0) s t))

/-- The candidate list (R178), the choice of demotions (R183), counters (R148), NEAR_PIN walks (R174).
Where it rests on the model's choices: log entries 26, 46, 47, 111. -/
def Obligations.CandidatesAndChoice : Prop :=
  (∀ (s : State) (total : Nat),
     s.scarabRuns = true → s.cands = [] → s.barred 19 13 (s.pairBucket 19 13) 64 1 = 0 →
     s.rd F.SCR_FRAMES_TOTAL = total → 0 < total →
     ∃ t,
       exec (.candidateRefill) s = .next t ∧ t.scr.cursor = (s.scr.cursor + 8) % total ∧
       t.scr.cands = ((List.range (min 8 total)).map (fun i => (s.scr.cursor + i) % total)).filter (fun f => match s.fte f with | some e => s.mayList f e | none => false) ∧
       t.near = s.near ∧ t.adm.taken = s.adm.taken + 1 ∧ Frame [.scr, .adm, .evt] (fun key => InBlock 4 key) s t) ∧
  (∀ (s : State) (engine : Nat) (f : Nat) (e : Fte) (ent : CacheEnt),
     s.serving = true → s.nearOnly = false → s.paused = false → s.aon.blocks = [] → s.unitState scrKind engine = 1 →
     s.engineLoad engine < 8 → s.rdb F.SCR_MOV_STS_FLUSH = false → s.target = 0 → s.tmu.waits = [] →
     s.cands = [(f, e)] → s.fte f = some e → e.state = .dirty →
     (e.first = true ∨ s.heat e ≤ s.rd F.SCR_MOV_CFG_COLD_THRESH) →
     mget s.tmu.cache (tkey e.slot e.tile) = some ent → ent.dirty = true → s.newest e.slot ent.tme = true →
     ent.tme.saturated = false → s.tmu.moves = [] → s.isDeleting e.slot = false → (∀ r ∈ s.near.reads, r.frame ≠ f) →
     s.barred 19 13 (s.pairBucket 19 13) 4096 1 = 0 → s.scr.prefetch = [] → s.cry.keyWait.contains e.slot = false →
     s.tmeFault e.slot e.tile ent.tme = 0 →
     ∃ t,
       exec (.demotionSelect engine) s = .next t ∧
       (t.move s.tmu.nextId).map (fun m => (m.kind, m.purpose, m.stage, m.slot, m.tile, m.frame)) = some (.demote, .space, .compress, e.slot, e.tile, f) ∧
       (t.move s.tmu.nextId).map (fun m => m.engine) = some (some engine) ∧
       (t.move s.tmu.nextId).map (fun m => (m.cls, m.gen, m.ctr, m.crossing)) = some (13, s.curGen e.slot, ent.tme.ctr + 1, false) ∧
       (t.move s.tmu.nextId).map (fun m => m.data) = some (s.frameBytes f) ∧
       t.tme e.slot e.tile = { ent.tme with transit := true } ∧ t.fte f = some { e with state := .moving } ∧
       t.near.mem = s.near.mem ∧
       (Frame [.tmu, .near, .scr, .adm, .mem, .cry, .cdc, .evt] (fun key => InBlock 4 key ∨ InBlock 10 key ∨ InBlock 11 key ∨ key = (F.EVT_RAW_CAUSE 9).key 0 0) s t)) ∧
  (∀ (s : State) (r : Nat) (pos : Nat),
     mget s.scr.pinWalks r = some pos → s.scarabRuns = true → (∀ t ∈ s.materialized r, t < pos) →
     ∃ t,
       exec (.nearPinWalkStep r) s = .next t ∧ t.scr = { s.scr with pinWalks := mdel s.scr.pinWalks r } ∧
       Frame [.scr] (fun _ => False) s t) ∧
  (∀ (s : State) (r : Nat) (pos : Nat) (tile : Nat) (ent : CacheEnt) (e : Fte),
     mget s.scr.pinWalks r = some pos → s.scarabRuns = true →
     (s.materialized r).find? (fun t => decide (pos ≤ t)) = some tile → (s.lockOf r tile).isNone = true →
     mget s.tmu.cache (tkey r tile) = some ent → ent.dirty = true → ent.tme.nv = true → s.fte ent.tme.near = some e →
     e.pin = false → s.pinRoom = true →
     ∃ t,
       exec (.nearPinWalkStep r) s = .next t ∧ mget t.scr.pinWalks r = some (tile + 1) ∧
       t.fte ent.tme.near = some { e with pin := true } ∧ t.tme r tile = { ent.tme with pinned := true } ∧
       Frame [.tmu, .near, .scr, .evt] (fun key => key = (F.EVT_RAW_CAUSE 9).key 0 0) s t)

/-- Demotion: compression (R98), the seal (R143), escalation (R78), the commit (R90), crossings (R148).
Where it rests on the model's choices: log entries 9, 20, 21, 23, 47, 110. -/
def Obligations.DemotionSteps : Prop :=
  (∀ (s : State) (id : Nat) (pipe : Nat) (m : Move),
     s.move id = some m → m.kind = .demote → m.stage = .compress → s.serving = true → s.queued id = false →
     s.holder (.tile id) = some pipe → s.cdcOffline = false → m.marks = [] →
     m.data.all (fun b => decide (b = 0)) = true → s.rgnType m.slot = 2 → m.purpose = .space →
     s.rd F.CDC_PIPE_WORK_UNITS pipe + 1 < 2 ^ F.CDC_PIPE_WORK_UNITS.width →
     s.rd F.CDC_IN_CNT_TILES 0 + 1 < 2 ^ F.CDC_IN_CNT_TILES.width →
     s.rd F.CDC_OUT_SECT_SECTORS 0 + 1 < 2 ^ F.CDC_OUT_SECT_SECTORS.width →
     ∃ t,
       exec (.demotionCompressDone id (pipe, false) []) s = .next t ∧
       t.move id = some { m with fmt := .zero, len := 0, record := [], tcs := crc32c m.data, loc := 0, tag := 0, stage := .written } ∧
       t.rd F.CDC_IN_CNT_TILES = s.rd F.CDC_IN_CNT_TILES + 1 ∧
       t.rd F.CDC_OUT_SECT_SECTORS = s.rd F.CDC_OUT_SECT_SECTORS ∧
       t.rd F.CDC_PIPE_WORK_UNITS pipe = s.rd F.CDC_PIPE_WORK_UNITS pipe + 1 ∧ t.bulk = s.bulk ∧
       (Frame [.tmu, .cdc, .evt] (fun key => key = F.CDC_PIPE_WORK_UNITS.key pipe 0 ∨ key = F.CDC_IN_CNT_TILES.key 0 0 ∨ key = F.CDC_OUT_SECT_SECTORS.key 0 0) s t)) ∧
  (∀ (s : State) (id : Nat) (m : Move) (ent : CacheEnt) (e : Fte),
     s.move id = some m → m.kind = .demote → m.stage = .written → s.serving = true → s.queued id = false →
     m.purpose = .space → m.engine = none → m.job = none → m.crossing = false →
     mget s.tmu.cache (tkey m.slot m.tile) = some ent → ent.dirty = true → ent.tme.len = 0 →
     ent.tme.retired = false → ent.tme.saturated = false → m.ctr ≠ 2 ^ 40 - 1 → s.rgnType m.slot = 2 →
     s.fte m.frame = some e → s.rd F.TMU_RGN_POLICY_TIER m.slot ≠ 2 → s.near.withheld = [] →
     s.rd F.SCR_CNT_DEMO_TILES 0 + 1 < 2 ^ F.SCR_CNT_DEMO_TILES.width →
     ∃ t,
       exec (.demotionCommit id) s = .next t ∧
       t.tme m.slot m.tile = { ent.tme with loc := m.loc, len := m.len, fmt := m.fmt, ctr := m.ctr, tcs := m.tcs, tag := m.tag, transit := false, poison := !m.marks.isEmpty, unmat := false } ∧
       t.fte m.frame = some { e with state := .clean, first := false } ∧ t.move id = none ∧ t.near.mem = s.near.mem ∧
       t.rd F.SCR_CNT_DEMO_TILES = s.rd F.SCR_CNT_DEMO_TILES + 1 ∧
       (Frame [.tmu, .near, .scr, .evt] (fun key => InBlock 4 key ∨ key = F.SCR_CNT_DEMO_TILES.key 0 0 ∨ key = (F.EVT_RAW_CAUSE 9).key 0 0) s t)) ∧
  (∀ (s : State) (id : Nat) (m : Move) (a : Nat),
     s.move id = some m → m.kind = .demote → m.stage = .allocWait → s.serving = true → s.rgnType m.slot = 2 →
     m.fmt = .lz → 0 < m.len → m.record.length = 64 * m.len → (s.alloc m.slot m.len).map (·.1) = some a →
     ∃ t,
       exec (.allocEscalationResolved id) s = .next t ∧
       (t.move id).map (fun x => (x.stage, x.loc, x.len)) = some (.written, a, m.len) ∧
       t.sectors a m.len = gcmCrypt (s.bulkKey m.slot m.gen) (tileIv m.slot m.tile m.ctr (m.gen % 2 = 1) 1) m.record ∧
       t.near = s.near ∧ Frame [.tmu, .bulk, .mem] (fun key => InBlock 11 key) s t) ∧
  (∀ (s : State) (r : Nat) (tile : Nat) (m : Move) (ent : CacheEnt) (e : Fte),
     s.tmu.moves = [m] → m.stage = .crossWait → m.slot = r → m.tile = tile → s.serving = true →
     mget s.tmu.cache (tkey r tile) = some ent → ent.dirty = true → s.newest r ent.tme = false →
     mget s.cry.cross (tkey r tile) = none → s.cry.cross.length < 2048 → s.cry.keyWait.contains r = false →
     s.tmeFault r tile ent.tme = 0 → s.fte m.frame = some e →
     ∃ t,
       exec (.crossingWaitResume r tile) s = .next t ∧
       (t.move m.id).map (fun x => (x.stage, x.crossing, x.gen, x.ctr)) = some (.compress, true, s.curGen r, 0) ∧
       mget t.cry.cross (tkey r tile) = some 1 ∧ t.tme r tile = { ent.tme with transit := true } ∧
       t.fte m.frame = some { e with state := .moving } ∧
       (Frame [.tmu, .near, .scr, .cry, .mem, .cdc, .evt] (fun key => InBlock 10 key ∨ InBlock 11 key ∨ key = (F.EVT_RAW_CAUSE 9).key 0 0) s t))

/-- Ticks and gates (R345, R349, R351), monitor windows (R359), the floor (R356, R357).
Where it rests on the model's choices: log entries 52, 53. -/
def Obligations.GateTicks : Prop :=
  (∀ (s : State),
     s.timed = true → s.aon.held = false → s.cry.halt = 0 → s.aon.time.fresh = false → s.phase < 1023 → s.gcl = [] →
     s.adm.lengthen = [] → s.adm.gateOpen = 65535 → s.adm.monValid = false →
     ∃ t,
       exec (.gateTick) s = .next t ∧ t.rd F.AON_EPOCH_PHASE = s.rd F.AON_EPOCH_PHASE + 1 ∧
       t.adm = { s.adm with lastEpoch := s.epoch, gateRef := false } ∧
       (Frame [.adm, .evt] (fun key => InBlock 4 key ∨ key = F.AON_EPOCH_PHASE.key 0 0) s t)) ∧
  (∀ (s : State) (c : Nat) (b : Bool),
     s.aon.held = false → s.aon.off = 0 → mget s.adm.lengthen c = some (0, b) → c < 16 →
     ∃ t,
       exec (.minwinEnd c) s = .next t ∧ mget t.adm.lengthen c = none ∧
       t.adm.gateOpen.testBit c = (s.adm.gateOpen.testBit c && s.listOpen s.gcl c s.tickNo) ∧
       t.adm.queue = s.adm.queue ∧ Frame [.adm] (fun _ => False) s t) ∧
  (∀ (s : State),
     s.aon.held = false → s.aon.off = 0 → s.atCycleStart = true → s.rd F.ADM_GCL_CFG_SWAP_PEND = 1 →
     ∃ t,
       exec (.gclSwap) s = .next t ∧ t.rd F.ADM_GCL_CFG_ACTIVE = 1 - s.rd F.ADM_GCL_CFG_ACTIVE ∧
       t.rd F.ADM_GCL_CFG_SWAP_PEND = 0 ∧ t.adm = { s.adm with cycleNow := s.rd F.ADM_GCL_CFG_CYCLE } ∧
       (t.rd (F.EVT_RAW_CAUSE cGclSwapped.blk) 0).testBit cGclSwapped.bit = true ∧
       (Frame [.adm, .evt] (fun key => key = F.ADM_GCL_CFG_ACTIVE.key 0 0 ∨ key = F.ADM_GCL_CFG_SWAP_PEND.key 0 0 ∨ key = (F.EVT_RAW_CAUSE 4).key 0 0) s t)) ∧
  (∀ (s : State) (path : Path),
     s.reaches path 4 0 = true → s.manages path = true →
     ∃ t,
       exec (.gclSwapRequest path) s = .next t ∧ t.rd F.ADM_GCL_CFG_SWAP_PEND = 1 ∧
       Frame [] (fun key => key = F.ADM_GCL_CFG_SWAP_PEND.key 0 0) s t) ∧
  (∀ (s : State),
     s.aon.held = false → s.aon.off = 0 → s.monitorDone = true → s.rd F.ADM_GUAR_PEND_CLASS < 2 ^ 16 →
     ∃ t,
       exec (.monitorWindowEnd) s = .next t ∧
       (∀ c < 16, (t.rd F.ADM_GUAR_PEND_CLASS).testBit c = ((s.rd F.ADM_GUAR_PEND_CLASS).testBit c || s.missed c)) ∧
       t.adm = { s.adm with monValid := false, monD := [], monB := [] } ∧
       (Frame [.adm, .evt] (fun key => key = F.ADM_GUAR_PEND_CLASS.key 0 0 ∨ key = (F.EVT_RAW_CAUSE 4).key 0 0) s t)) ∧
  (∀ (s : State),
     s.aon.held = false → s.aon.off = 0 → s.adm.recompute = true → s.rawBandwidth < 2 ^ 24 → s.floorNow < 2 ^ 24 →
     ((List.range 16).map s.guaranteeOf).sum ≤ s.floorNow →
     ∃ t,
       exec (.floorRecompute) s = .next t ∧ t.rd F.ADM_FLOOR_STS_RAW = s.rawBandwidth ∧
       t.rd F.ADM_FLOOR_STS_FLOOR = s.floorNow ∧ t.rd F.ADM_GUAR_STS_SUM = ((List.range 16).map s.guaranteeOf).sum ∧
       t.rd F.ADM_GUAR_STS_OVER = 0 ∧ (∀ c < 16, t.rd F.ADM_CLS_GUAR_EFF c = s.guaranteeOf c) ∧
       t.adm = { s.adm with recompute := false } ∧ Frame [.adm, .evt] (fun key => InBlock 4 key) s t)

/-- Chain port states and lanes (R398, R400 to R403, R412, R433, R434).
Where it rests on the model's choices: log entries 14, 90, 91. -/
def Obligations.ChainPortStates : Prop :=
  (∀ (s : State) (p : Nat),
     p < 2 → s.clWorks p = true → s.clx.ports.length = 2 → s.clState p = 0 → s.rd F.CLX_PORT_CTL_ENABLE p = 1 →
     ∃ t,
       exec (.clDownTimer p) s = .next t ∧ t.clState p = 1 ∧
       Frame [] (fun key => key = F.CLX_PORT_STS_STATE.key p 0) s t) ∧
  (∀ (s : State) (p : Nat) (lanes : BitVec 9),
     p < 2 → s.clWorks p = true → s.clx.ports.length = 2 → s.clState p = 1 → 4 ≤ (bitList 9 lanes.toNat).length →
     ∃ t,
       exec (.clDetect p lanes) s = .next t ∧ t.clState p = 2 ∧ t.clp p = { s.clp p with lanes := lanes } ∧
       t.clp (1 - p) = s.clp (1 - p) ∧ Frame [.clx] (fun key => key = F.CLX_PORT_STS_STATE.key p 0) s t) ∧
  (∀ (s : State) (p : Nat) (lanes : BitVec 9) (w : Nat),
     p < 2 → s.clWorks p = true → s.clx.ports.length = 2 → s.clState p = 2 → s.clFailed p = 0 →
     (s.clp p).lanes = lanes → (chooseLanes lanes.toNat w).1 ≠ 0 →
     ∃ t,
       exec (.clTrainLock p lanes w) s = .next t ∧ t.clState p = 3 ∧
       t.rd F.CLX_PORT_STS_WIDTH p = (chooseLanes lanes.toNat w).1 ∧
       (t.clp p).lanes.toNat = (chooseLanes lanes.toNat w).2 % 512 ∧ t.clFailed p = 0 ∧
       (Frame [.clx, .evt] (fun key => key = F.CLX_PORT_STS_STATE.key p 0 ∨ key = F.CLX_PORT_STS_WIDTH.key p 0 ∨ key = (F.EVT_RAW_CAUSE 3).key (1 + p) 0) s t)) ∧
  (∀ (s : State) (p : Nat),
     p < 2 → s.clWorks p = true → s.clx.ports.length = 2 → s.clState p = 3 →
     ∃ t,
       exec (.clFlitLock p) s = .next t ∧ t.clState p = 4 ∧
       Frame [] (fun key => key = F.CLX_PORT_STS_STATE.key p 0) s t) ∧
  (∀ (s : State) (p : Nat),
     p < 2 → s.clWorks p = true → s.clx.ports.length = 2 → (s.clState p = 2 ∨ s.clState p = 3 ∨ s.clState p = 4) →
     ∃ t,
       exec (.clStateTimeout p) s = .next t ∧ t.clState p = 0 ∧ t.clp p = ClPort.fresh ∧
       t.clp (1 - p) = s.clp (1 - p) ∧
       (Frame [.clx] (fun key => key = F.CLX_PORT_STS_STATE.key p 0 ∨ key = F.CLX_PORT_STS_WIDTH.key p 0 ∨ key = F.CLX_PORT_STS_PEER_SN.key p 0 ∨ key = F.CLX_PORT_SEQ_TX_NEXT.key p 0 ∨ key = F.CLX_PORT_SEQ_TX_ACKED.key p 0 ∨ key = F.CLX_PORT_SEQ_RX_EXP.key p 0) s t)) ∧
  (∀ (s : State) (p : Nat),
     p < 2 → s.clWorks p = true → s.clx.ports.length = 2 → s.clState p = 5 →
     s.rd F.CLX_PORT_RPL_RETRAINS p + 1 < 2 ^ F.CLX_PORT_RPL_RETRAINS.width →
     ∃ t,
       exec (.clLockLoss p) s = .next t ∧ t.clState p = 6 ∧
       t.rd F.CLX_PORT_RPL_RETRAINS p = s.rd F.CLX_PORT_RPL_RETRAINS p + 1 ∧ t.clx = s.clx ∧
       (Frame [.evt] (fun key => key = F.CLX_PORT_STS_STATE.key p 0 ∨ key = F.CLX_PORT_RPL_RETRAINS.key p 0) s t)) ∧
  (∀ (s : State) (p : Nat),
     p < 2 → s.clWorks p = true → s.clx.ports.length = 2 → s.clState p = 6 → s.rd F.CLX_ID_VALID = 0 →
     ∃ t,
       exec (.clLinkDown p) s = .next t ∧ t.clState p = 0 ∧ t.clp p = ClPort.fresh ∧
       t.clx.ucnt = (s.clx.ucnt + 1) % 64 ∧ (t.rd (F.EVT_RAW_CAUSE 3) (1 + p)).testBit 0 = true ∧
       t.clp (1 - p) = s.clp (1 - p) ∧
       (Frame [.clx, .evt] (fun key => key = F.CLX_PORT_STS_STATE.key p 0 ∨ key = F.CLX_PORT_STS_WIDTH.key p 0 ∨ key = F.CLX_PORT_STS_PEER_SN.key p 0 ∨ key = F.CLX_PORT_SEQ_TX_NEXT.key p 0 ∨ key = F.CLX_PORT_SEQ_TX_ACKED.key p 0 ∨ key = F.CLX_PORT_SEQ_RX_EXP.key p 0 ∨ key = F.CLX_PORT_DROP_DEAD.key p 0 ∨ key = (F.EVT_RAW_CAUSE 3).key (1 + p) 0) s t)) ∧
  (∀ (s : State) (p : Nat) (lanes : BitVec 9) (w : Nat),
     p < 2 → s.clWorks p = true → s.clx.ports.length = 2 → s.clState p = 6 → s.clFailed p = 0 →
     (s.clp p).lanes = lanes → (chooseLanes lanes.toNat w).1 ≠ 0 → (s.clp p).replay = [] → (s.clp p).pass = [] →
     (s.clp p).orig = [] →
     ∃ t,
       exec (.clRetrainDone p lanes w) s = .next t ∧ t.clState p = 5 ∧
       t.rd F.CLX_PORT_STS_WIDTH p = (chooseLanes lanes.toNat w).1 ∧ (t.clp p).tries = 0 ∧ t.out = s.out ∧
       (Frame [.clx, .evt] (fun key => key = F.CLX_PORT_STS_STATE.key p 0 ∨ key = F.CLX_PORT_STS_WIDTH.key p 0 ∨ key = (F.EVT_RAW_CAUSE 3).key (1 + p) 0) s t)) ∧
  (∀ (s : State) (p : Nat),
     p < 2 → s.clWorks p = true → s.clx.ports.length = 2 → s.reaches .cores 3 (1 + p) = true → s.clState p = 5 →
     s.rd F.CLX_PORT_RPL_RETRAINS p + 1 < 2 ^ F.CLX_PORT_RPL_RETRAINS.width →
     ∃ t,
       exec (.clRetrain .cores p) s = .next t ∧ t.clState p = 6 ∧
       t.rd F.CLX_PORT_RPL_RETRAINS p = s.rd F.CLX_PORT_RPL_RETRAINS p + 1 ∧ t.clx = s.clx ∧
       (Frame [.evt] (fun key => key = F.CLX_PORT_STS_STATE.key p 0 ∨ key = F.CLX_PORT_RPL_RETRAINS.key p 0) s t)) ∧
  (∀ (s : State) (p : Nat) (lanes : BitVec 9),
     p < 2 → s.reaches .cores 3 (1 + p) = true → s.clFailed p < 512 →
     ∃ t,
       exec (.clMark .cores p lanes) s = .next t ∧ t.clFailed p = s.clFailed p ||| lanes.toNat ∧
       (Frame [.evt] (fun key => key = F.CLX_PORT_STS_FAILED.key p 0 ∨ key = (F.EVT_RAW_CAUSE 3).key (1 + p) 0) s t)) ∧
  (∀ (s : State) (path : Path) (p : Nat) (on : Bool),
     p < 2 → s.reaches path 3 (1 + p) = true → s.manages path = true → (on = true ∨ s.clState p = 0) →
     ∃ t,
       exec (.clPortEnable path p on) s = .next t ∧ t.rd F.CLX_PORT_CTL_ENABLE p = b2n on ∧
       t.clState p = s.clState p ∧ Frame [] (fun key => key = F.CLX_PORT_CTL_ENABLE.key p 0) s t) ∧
  (∀ (s : State) (p : Nat),
     p < 2 → s.cur = 2 → s.clState p = 5 → s.clx.ports.length = 2 →
     ∃ t,
       exec (.chainLowPowerSubstate p) s = .next t ∧ t.clp p = { s.clp p with low := true } ∧
       t.clp (1 - p) = s.clp (1 - p) ∧ Frame [.clx] (fun _ => False) s t)

/-- Flits of the chain (R405, R406, R408, R411 to R415).
Where it rests on the model's choices: log entries 14, 90, 94, 122, 123. -/
def Obligations.ChainFlits : Prop :=
  (∀ (s : State) (p : Nat) (lsb : LinkState),
     p < 2 → s.clTakes p = true → s.clx.ports.length = 2 → lsb.ack = none → (s.clp p).pass = [] →
     (s.clp p).orig = [] →
     ∃ t,
       exec (.idle p lsb) s = .next t ∧
       t.clp p = { s.clp p with returned := { reqH := lsb.reqH, reqD := lsb.reqD, rspH := lsb.rspH, rspD := lsb.rspD } } ∧
       t.clp (1 - p) = s.clp (1 - p) ∧ Frame [.clx] (fun _ => False) s t) ∧
  (∀ (s : State) (p : Nat) (lsb : LinkState) (b : InitBody),
     p < 2 → s.clWorks p = true → s.clx.ports.length = 2 → s.clState p = 4 → b.ver = 1 → b.port ≠ p →
     b.sn ≠ s.fuses.sn → (s.clp p).seenSent = false →
     ∃ t,
       exec (.init p lsb b) s = .next t ∧
       t.clp p = { s.clp p with inited := true, seenTaken := (s.clp p).seenTaken || b.seen, init := { reqH := b.credits.reqH, reqD := b.credits.reqD, rspH := b.credits.rspH, rspD := b.credits.rspD } } ∧
       t.rd F.CLX_PORT_STS_PEER_SN p = b.sn.toNat ∧ t.clState p = 4 ∧
       Frame [.clx] (fun key => key = F.CLX_PORT_STS_PEER_SN.key p 0) s t) ∧
  (∀ (s : State) (p : Nat),
     p < 2 → s.clWorks p = true → s.clx.ports.length = 2 → s.clState p = 4 → (s.clp p).seenTaken = false →
     ∃ t,
       exec (.initResend p) s = .next t ∧
       t.out = s.out ++ [Out.flit (p) (flitBytes ctlPrefix (ctlPayload 1 (s.linkState (p)) (initBytes { sn := s.fuses.sn, port := p, ver := 1, width := s.rd F.CLX_PORT_STS_WIDTH p, seen := (s.clp p).inited, head := s.chainHead, idValid := s.idValid, id := s.myId, credits := ownCredits })))] ∧
       (t.clp p).seenSent = ((s.clp p).seenSent || (s.clp p).inited) ∧ t.clState p = 4 ∧
       Frame [.clx, .out] (fun _ => False) s t) ∧
  (∀ (s : State) (p : Nat) (lsb : LinkState) (seq : Nat),
     p < 2 → s.clTakes p = true → s.clx.ports.length = 2 → lsb.ack = none → (s.clp p).pass = [] →
     (s.clp p).orig = [] → (s.clp p).replay.any (fun e => decide (e.1 = seq)) = true →
     (s.clp p).tries < s.rd F.CLX_CFG_REPLAY_LIMIT →
     s.rd F.CLX_PORT_RPL_REPLAYS p + 1 < 2 ^ F.CLX_PORT_RPL_REPLAYS.width →
     ∃ t,
       exec (.nak p lsb seq) s = .next t ∧
       t.out = s.out ++ [Out.flit (p) (flitBytes ctlPrefix (ctlPayload 3 (s.linkState (p)) (leBytes 2 seq)))] ++ ((s.clp p).replay.dropWhile (fun e => decide (e.1 ≠ seq))).map (fun e => Out.flit p (flitBytes e.1 e.2)) ∧
       (t.clp p).tries = (s.clp p).tries + 1 ∧ (t.clp p).replay = (s.clp p).replay ∧
       t.rd F.CLX_PORT_RPL_REPLAYS p = s.rd F.CLX_PORT_RPL_REPLAYS p + 1 ∧
       Frame [.clx, .out, .evt] (fun key => key = F.CLX_PORT_RPL_REPLAYS.key p 0) s t) ∧
  (∀ (s : State) (p : Nat) (e : Nat × List Byte) (seq : Nat) (rest : List (Nat × List Byte)),
     p < 2 → s.clTakes p = true → s.clx.ports.length = 2 → (s.clp p).timer = true → (s.clp p).replay = e :: rest →
     seq = e.1 → (s.clp p).tries < s.rd F.CLX_CFG_REPLAY_LIMIT →
     s.rd F.CLX_PORT_RPL_REPLAYS p + 1 < 2 ^ F.CLX_PORT_RPL_REPLAYS.width →
     s.rd F.CLX_PORT_RPL_TIMEOUTS p + 1 < 2 ^ F.CLX_PORT_RPL_TIMEOUTS.width →
     ∃ t,
       exec (.replayTimerExpiry p) s = .next t ∧
       t.out = s.out ++ [Out.flit (p) (flitBytes ctlPrefix (ctlPayload 3 (s.linkState (p)) (leBytes 2 seq)))] ++ ((s.clp p).replay.dropWhile (fun e => decide (e.1 ≠ seq))).map (fun e => Out.flit p (flitBytes e.1 e.2)) ∧
       (t.clp p).tries = (s.clp p).tries + 1 ∧ t.rd F.CLX_PORT_RPL_REPLAYS p = s.rd F.CLX_PORT_RPL_REPLAYS p + 1 ∧
       t.rd F.CLX_PORT_RPL_TIMEOUTS p = s.rd F.CLX_PORT_RPL_TIMEOUTS p + 1 ∧
       (Frame [.clx, .out, .evt] (fun key => key = F.CLX_PORT_RPL_REPLAYS.key p 0 ∨ key = F.CLX_PORT_RPL_TIMEOUTS.key p 0) s t)) ∧
  (∀ (s : State) (p : Nat) (lsb : LinkState) (seq : Nat),
     p < 2 → s.clTakes p = true → s.clx.ports.length = 2 → lsb.ack = none → (s.clp p).pass = [] →
     (s.clp p).orig = [] → (s.rd F.CLX_PORT_SEQ_RX_EXP p + 4096 - seq % 4096) % 4096 ≤ 768 →
     ∃ t,
       exec (.replay p lsb seq) s = .next t ∧
       t.clp p = { s.clp p with returned := { reqH := lsb.reqH, reqD := lsb.reqD, rspH := lsb.rspH, rspD := lsb.rspD }, naked := false, replayNo := some (seq % 4096) } ∧
       t.clp (1 - p) = s.clp (1 - p) ∧ Frame [.clx] (fun _ => False) s t) ∧
  (∀ (s : State) (p : Nat) (wire : List (BitVec 8)) (bs : List Byte) (e : Nat),
     p < 2 → s.clTakes p = true → s.clx.ports.length = 2 → (s.clp p).naked = false → (s.clp p).replayNo = none →
     (s.clp p).rxBuf = [] → s.rd F.CLX_PORT_SEQ_RX_EXP p = e → e < 4096 → fecDecode wire = some (bs, false) →
     bits (numAt bs 0 1) 1 0 = 0 → (flitCrc e (bs.take 116)).toNat = numAt bs 116 8 →
     (numAt bs 0 4).testBit 2 = false → bits (numAt bs 0 4) 22 20 = 7 → bs.length = 128 → (s.clp p).pass = [] →
     (s.clp p).orig = [] →
     ∃ t,
       exec (.dataFlit p wire) s = .next t ∧ t.rd F.CLX_PORT_SEQ_RX_EXP p = (e + 1) % 4096 ∧ (t.clp p).rxBuf = [] ∧
       (t.clp p).naked = false ∧ t.out = s.out ∧ Frame [.clx] (fun key => key = F.CLX_PORT_SEQ_RX_EXP.key p 0) s t) ∧
  (∀ (s : State) (p : Nat) (wire : List (BitVec 8)),
     p < 2 → s.clTakes p = true → s.clx.ports.length = 2 → (s.clp p).naked = false → fecDecode wire = none →
     s.rd F.CLX_PORT_ERR_CRC_FAIL p + 1 < 2 ^ F.CLX_PORT_ERR_CRC_FAIL.width →
     s.rd F.CLX_PORT_ERR_NAK_TX p + 1 < 2 ^ F.CLX_PORT_ERR_NAK_TX.width →
     ∃ t,
       exec (.dataFlit p wire) s = .next t ∧
       t.out = s.out ++ [Out.flit (p) (flitBytes ctlPrefix (ctlPayload 2 (s.linkState (p)) (leBytes 2 (s.rd F.CLX_PORT_SEQ_RX_EXP p))))] ∧
       (t.clp p).naked = true ∧ t.rd F.CLX_PORT_SEQ_RX_EXP p = s.rd F.CLX_PORT_SEQ_RX_EXP p ∧
       t.rd F.CLX_PORT_ERR_CRC_FAIL p = s.rd F.CLX_PORT_ERR_CRC_FAIL p + 1 ∧
       t.rd F.CLX_PORT_ERR_NAK_TX p = s.rd F.CLX_PORT_ERR_NAK_TX p + 1 ∧
       (Frame [.clx, .out, .evt] (fun key => key = F.CLX_PORT_ERR_CRC_FAIL.key p 0 ∨ key = F.CLX_PORT_ERR_NAK_TX.key p 0) s t)) ∧
  (∀ (s : State) (p : Nat),
     p < 2 → s.clSends p = true → s.clx.ports.length = 2 → (s.clp p).ackSent ≠ s.ackOf p →
     ∃ t,
       exec (.controlFlitDue p) s = .next t ∧
       t.out = s.out ++ [Out.flit (p) (flitBytes ctlPrefix (ctlPayload 0 (s.linkState (p)) ([])))] ∧
       t.clp p = { s.clp p with freedSent := (s.clp p).freed, ackSent := s.ackOf p } ∧
       Frame [.clx, .out] (fun _ => False) s t)

/-- RING (R418), routes (R419), discovery (R430 to R432).
Where it rests on the model's choices: log entries 92, 123. -/
def Obligations.RingControl : Prop :=
  (∀ (s : State) (p : Nat) (lsb : LinkState) (reports : List RingReport) (round : Nat) (k : Nat),
     p < 2 → s.clTakes p = true → s.clx.ports.length = 2 → lsb.ack = none → (s.clp p).pass = [] →
     (s.clp p).orig = [] → s.idValid = true → round = s.rd F.CLX_RING_ROUND → s.clx.reqs = [] → k < 16 → k ≠ s.myId →
     newer (s.report k) (reports.getD k noReport) = true →
     ∃ t,
       exec (.ring p lsb reports round) s = .next t ∧ mget t.clx.reports k = some (reports.getD k noReport) ∧
       t.out = s.out ++ (if s.clSends (1 - p) then [Out.flit (1 - p) (flitBytes ctlPrefix (ctlPayload 4 (s.linkState (1 - p)) (ringBytes ((List.range 16).map t.report) round)))] else []) ∧
       (∀ h ∈ List.range 16, t.route h = (t.routeTo h).1) ∧ Frame [.clx, .out, .evt] (fun key => InBlock 3 key) s t) ∧
  (∀ (s : State) (p : Nat) (lsb : LinkState) (body : TokenBody),
     p < 2 → s.clTakes p = true → s.clx.ports.length = 2 → lsb.ack = none → (s.clp p).pass = [] →
     (s.clp p).orig = [] → (s.clx.headSn = none ∨ s.clx.headSn = some body.headSn) → s.chainHead = false →
     body.ended = false → body.entries.length < 16 → s.clActive (1 - p) = true → s.cry.halt < 3 →
     ∃ t,
       exec (.token p lsb body) s = .next t ∧
       t.out = s.out ++ [Out.flit (1 - p) (flitBytes ctlPrefix (ctlPayload 5 (s.linkState (1 - p)) (tokenBytes { body with entries := body.entries ++ [s.ownEntry] })))] ∧
       t.clx.headSn = some body.headSn ∧ Frame [.clx, .out] (fun _ => False) s t) ∧
  (∀ (s : State) (p : Nat) (lsb : LinkState) (body : TokenBody) (h : BitVec 32),
     p < 2 → s.clTakes p = true → s.clx.ports.length = 2 → lsb.ack = none → (s.clp p).pass = [] →
     (s.clp p).orig = [] → s.clx.headSn = some h → h ≠ body.headSn →
     ∃ t,
       exec (.token p lsb body) s = .next t ∧
       (t.rd (F.EVT_RAW_CAUSE (cRing 0).blk) (cRing 0).page).testBit (cRing 0).bit = true ∧ t.clx.headSn = some h ∧
       t.out = s.out ∧ Frame [.clx, .evt] (fun key => key = (F.EVT_RAW_CAUSE 3).key 0 0) s t) ∧
  (∀ (s : State) (p : Nat) (lsb : LinkState) (body : AssignBody) (e : RingEntry),
     p < 2 → s.clTakes p = true → s.clx.ports.length = 2 → lsb.ack = none → (s.clp p).pass = [] →
     (s.clp p).orig = [] → body.order.find? (fun e => decide (e.sn = s.fuses.sn)) = some e →
     s.rd F.CLX_RING_ROUND < body.round → body.round < 2 ^ 16 → body.order.length ≤ 16 →
     (∀ e ∈ body.order, e.id < 16) → s.clx.reqs = [] → s.clSends (1 - p) = true →
     ∃ t,
       exec (.assign p lsb body) s = .next t ∧ t.myId = e.id ∧ t.idValid = true ∧ t.ringN = body.order.length ∧
       t.rd F.CLX_RING_ROUND = body.round ∧ t.clx.members = body.order ∧ t.clx.reports = [] ∧
       (∀ j ∈ List.range body.order.length, t.ringAt j = (body.order.map RingEntry.id).getD j 0) ∧
       (∀ h ∈ List.range 16, t.route h = (t.routeTo h).1) ∧
       (t.rd (F.EVT_RAW_CAUSE (cRing 3).blk) (cRing 3).page).testBit (cRing 3).bit = true ∧
       t.out.getLast? = some (Out.flit (1 - p) (flitBytes ctlPrefix (ctlPayload 6 (s.linkState (1 - p)) (assignBytes body)))) ∧
       Frame [.clx, .out, .evt] (fun key => InBlock 3 key) s t) ∧
  (∀ (s : State),
     s.idValid = true → s.inReset = false → s.clx.ports.length = 2 → s.clSends 0 = true → s.clSends 1 = true →
     ∃ t,
       exec (.ringPeriodic) s = .next t ∧
       t.out = s.out ++ [Out.flit (0) (flitBytes ctlPrefix (ctlPayload 4 (s.linkState (0)) (ringBytes ((List.range 16).map s.report) (s.rd F.CLX_RING_ROUND)))), Out.flit (1) (flitBytes ctlPrefix (ctlPayload 4 (s.linkState (1)) (ringBytes ((List.range 16).map s.report) (s.rd F.CLX_RING_ROUND))))] ∧
       Frame [.clx, .out] (fun _ => False) s t) ∧
  (∀ (s : State),
     s.chainHead = true → s.inReset = false → s.cry.halt = 0 → s.cur ≠ 3 →
     (s.rd F.CTL_HEALTH_STATE = 2 ∨ s.rd F.CTL_HEALTH_STATE = 3) → s.clActive 1 = true →
     ∃ t,
       exec (.discoveryRound) s = .next t ∧ t.clx.round = max s.clx.round (s.rd F.CLX_RING_ROUND) + 1 ∧
       t.clx.running = true ∧ t.clx.headSn = some s.fuses.sn ∧
       t.out = s.out ++ [Out.flit (1) (flitBytes ctlPrefix (ctlPayload 5 (s.linkState (1)) (tokenBytes { round := max s.clx.round (s.rd F.CLX_RING_ROUND) + 1, headSn := s.fuses.sn, dir := 1, ended := false, entries := [s.ownEntry] })))] ∧
       Frame [.clx, .out] (fun _ => False) s t) ∧
  (∀ (s : State),
     s.inReset = false → s.clx.members = [] → (s.clActive 0 = true ∨ s.clActive 1 = true) →
     ∃ t,
       exec (.assignTimeout) s = .next t ∧
       (t.rd (F.EVT_RAW_CAUSE (cRing 0).blk) (cRing 0).page).testBit (cRing 0).bit = true ∧
       Frame [.evt] (fun key => key = (F.EVT_RAW_CAUSE 3).key 0 0) s t)

/-- Far requests at the home (R37, R426, R427, R429).
Where it rests on the model's choices: log entries 93, 102, 128. -/
def Obligations.FarRequestsAtHome : Prop :=
  (∀ (s : State) (p : Nat) (msg : FarReq),
     s.rd F.AON_PWR_MODE_CUR = 0 → s.aon.entry.stage = 0 → p < 2 → s.clTakes p = true → s.idValid = true →
     s.clx.ports.length = 2 →
     ∃ t,
       exec (.rd p msg) s = .next t ∧
       t.adm = { s.adm with queue := s.adm.queue ++ [{ s.homeReq p .read (farMsgOf msg 0x01 (0) (0)) with be := BitVec.allOnes 64 }] } ∧
       t.clp p = { s.clp p with freed := (s.clp p).freed.add (farMsgOf msg 0x01 (0) (0)) } ∧
       t.clp (1 - p) = s.clp (1 - p) ∧ Frame [.adm, .clx] (fun _ => False) s t) ∧
  (∀ (s : State) (p : Nat) (msg : FarReq) (data : BitVec 512) (n : Nat),
     s.rd F.AON_PWR_MODE_CUR = 0 → s.aon.entry.stage = 0 → p < 2 → s.clTakes p = true → s.idValid = true →
     s.clx.ports.length = 2 → msg.src < 16 → s.rd F.CLX_PEER_RX_SYNCED msg.src = 1 →
     seqLe msg.seq (s.rd F.CLX_PEER_RX_LAST msg.src) = false → n = seqAt msg.seq (s.rd F.CLX_PEER_RX_LAST msg.src) →
     n < 256 → (s.pair msg.src).applied.testBit n = false → (s.pair msg.src).accepted.testBit n = false →
     ∃ t,
       exec (.wr p msg data) s = .next t ∧
       t.pair msg.src = { s.pair msg.src with accepted := setBit (s.pair msg.src).accepted n } ∧
       t.adm = { s.adm with queue := s.adm.queue ++ [{ s.homeReq p .write (farMsgOf msg 0x02 (data) (0)) with be := BitVec.allOnes 64 }] } ∧
       t.clp p = { s.clp p with freed := (s.clp p).freed.add (farMsgOf msg 0x02 (data) (0)) } ∧
       t.clp (1 - p) = s.clp (1 - p) ∧ Frame [.adm, .clx] (fun _ => False) s t) ∧
  (∀ (s : State) (p : Nat) (msg : FarReq) (data : BitVec 512) (be : BitVec 64) (n : Nat),
     s.rd F.AON_PWR_MODE_CUR = 0 → s.aon.entry.stage = 0 → p < 2 → s.clTakes p = true → s.idValid = true →
     s.clx.ports.length = 2 → msg.src < 16 → s.rd F.CLX_PEER_RX_SYNCED msg.src = 1 →
     seqLe msg.seq (s.rd F.CLX_PEER_RX_LAST msg.src) = false → n = seqAt msg.seq (s.rd F.CLX_PEER_RX_LAST msg.src) →
     n < 256 → (s.pair msg.src).applied.testBit n = false → (s.pair msg.src).accepted.testBit n = false →
     ∃ t,
       exec (.wrp p msg data be) s = .next t ∧
       t.pair msg.src = { s.pair msg.src with accepted := setBit (s.pair msg.src).accepted n } ∧
       t.adm = { s.adm with queue := s.adm.queue ++ [s.homeReq p .partialWrite (farMsgOf msg 0x03 (data) (be))] } ∧
       t.clp p = { s.clp p with freed := (s.clp p).freed.add (farMsgOf msg 0x03 (data) (be)) } ∧
       t.clp (1 - p) = s.clp (1 - p) ∧ Frame [.adm, .clx] (fun _ => False) s t) ∧
  (∀ (s : State) (p : Nat) (msg : FarReq) (data : BitVec 512) (n : Nat),
     s.rd F.AON_PWR_MODE_CUR = 0 → s.aon.entry.stage = 0 → p < 2 → s.clTakes p = true → s.idValid = true →
     s.clx.ports.length = 2 → msg.src < 16 → s.rd F.CLX_PEER_RX_SYNCED msg.src = 1 →
     seqLe msg.seq (s.rd F.CLX_PEER_RX_LAST msg.src) = false → n = seqAt msg.seq (s.rd F.CLX_PEER_RX_LAST msg.src) →
     n < 256 → (s.pair msg.src).applied.testBit n = false → (s.pair msg.src).accepted.testBit n = true →
     s.rd F.CLX_PEER_CNT_DUP msg.src + 1 < 2 ^ F.CLX_PEER_CNT_DUP.width →
     ∃ t,
       exec (.wr p msg data) s = .next t ∧ t.rd F.CLX_PEER_CNT_DUP msg.src = s.rd F.CLX_PEER_CNT_DUP msg.src + 1 ∧
       t.adm = s.adm ∧ t.pair msg.src = s.pair msg.src ∧
       Frame [.clx, .evt] (fun key => key = F.CLX_PEER_CNT_DUP.key msg.src 0) s t) ∧
  (∀ (s : State) (p : Nat) (msg : FarReq) (data : BitVec 512) (n : Nat),
     s.rd F.AON_PWR_MODE_CUR = 0 → s.aon.entry.stage = 0 → p < 2 → s.clTakes p = true → s.idValid = true →
     s.clx.ports.length = 2 → msg.src < 16 → s.rd F.CLX_PEER_RX_SYNCED msg.src = 1 →
     seqLe msg.seq (s.rd F.CLX_PEER_RX_LAST msg.src) = false → n = seqAt msg.seq (s.rd F.CLX_PEER_RX_LAST msg.src) →
     256 ≤ n → s.rd F.CLX_PEER_CNT_GAP msg.src + 1 < 2 ^ F.CLX_PEER_CNT_GAP.width →
     ∃ t,
       exec (.wr p msg data) s = .next t ∧ t.rd F.CLX_PEER_CNT_GAP msg.src = s.rd F.CLX_PEER_CNT_GAP msg.src + 1 ∧
       (t.rd (F.EVT_RAW_CAUSE (cFar 11).blk) (cFar 11).page).testBit (cFar 11).bit = true ∧ t.adm = s.adm ∧
       t.pair msg.src = s.pair msg.src ∧
       (Frame [.clx, .evt] (fun key => key = F.CLX_PEER_CNT_GAP.key msg.src 0 ∨ key = (F.EVT_RAW_CAUSE 3).key 0 0) s t)) ∧
  (∀ (s : State) (p : Nat) (src : Nat) (token : Nat) (base : Nat),
     s.rd F.AON_PWR_MODE_CUR = 0 → s.aon.entry.stage = 0 → p < 2 → s.clTakes p = true → s.idValid = true →
     s.clx.ports.length = 2 → src < 16 → mget (s.pair src).tokens token = none →
     base = (s.rd F.CLX_PEER_RX_LAST src + 512) % 2 ^ 32 → s.route src = 1 → s.clState 0 = 6 →
     ∃ t,
       exec (.sync p src token) s = .next t ∧
       t.pair src = { accepted := 0, applied := 0, tokens := mput (s.pair src).tokens token base } ∧
       t.rd F.CLX_PEER_RX_LAST src = (base + 2 ^ 32 - 1) % 2 ^ 32 ∧ t.rd F.CLX_PEER_RX_SYNCED src = 1 ∧
       (t.clp 0).orig = (s.clp 0).orig ++ [{ s.msgTo 0x14 src with seq := base }] ∧
       (Frame [.clx] (fun key => key = F.CLX_PEER_RX_LAST.key src 0 ∨ key = F.CLX_PEER_RX_SYNCED.key src 0) s t)) ∧
  (∀ (s : State) (p : Nat) (src : Nat) (token : Nat) (base : Nat),
     s.rd F.AON_PWR_MODE_CUR = 0 → s.aon.entry.stage = 0 → p < 2 → s.clTakes p = true → s.idValid = true →
     s.clx.ports.length = 2 → src < 16 → mget (s.pair src).tokens token = some base → s.route src = 1 →
     s.clState 0 = 6 →
     ∃ t,
       exec (.sync p src token) s = .next t ∧ t.pair src = s.pair src ∧
       (t.clp 0).orig = (s.clp 0).orig ++ [{ s.msgTo 0x14 src with seq := base }] ∧ Frame [.clx] (fun _ => False) s t) ∧
  (∀ (s : State) (src : Nat) (seq : Nat) (d : FarDone) (last : Nat),
     s.clx.done = [d] → d.src = src → d.seq = seq → src < 16 → s.inReset = false → s.cry.halt = 0 →
     s.clx.ports.length = 2 → s.rd F.CLX_PEER_RX_LAST src = last → last < 2 ^ 32 → seq = (last + 1) % 2 ^ 32 →
     (s.pair src).applied = 0 → s.route src = 1 → s.clState 0 = 6 →
     ∃ t,
       exec (.farWriteApplied src seq) s = .next t ∧ t.rd F.CLX_PEER_RX_LAST src = seq ∧
       t.pair src = { s.pair src with accepted := (s.pair src).accepted / 2 } ∧ t.clx.done = [] ∧
       (t.clp 0).orig = (s.clp 0).orig ++ [{ s.msgTo 0x12 src with tag := d.tag, stat := d.status, seq := seq }] ∧
       (Frame [.clx, .adm, .evt] (fun key => key = F.CLX_PEER_RX_LAST.key src 0 ∨ InBlock 4 key) s t))

/-- Far requests at the requester (R38, R420, R423, R425, R429).
Where it rests on the model's choices: log entries 14, 93. -/
def Obligations.FarRequestsAtRequester : Prop :=
  (∀ (s : State) (p : Nat) (src : Nat) (tag : Nat) (status : Nat) (poison : Bool) (data : BitVec 512) (poisoned : Bool) (f : FarOut) (h : Nat) (l : Nat) (tg : Nat),
     s.rd F.AON_PWR_MODE_CUR = 0 → s.aon.entry.stage = 0 → p < 2 → s.clTakes p = true → s.idValid = true →
     s.clx.ports.length = 2 → s.clx.reqs = [f] → f.sent = true → s.dir.conflicts = [] → f.req.org = .host h l tg →
     f.req.kind = .read → f.tag = tag → f.home = src → poisoned = (poison || decide (status ≠ 0)) →
     ∃ t,
       exec (.rdRsp p src tag status poison data) s = .next t ∧ t.clx.reqs = [] ∧
       t.out = s.out ++ [Out.data h l tg (if poisoned then 0 else data) poisoned f.req.grant] ∧
       Frame [.clx, .out, .adm, .evt] (fun key => InBlock 4 key) s t) ∧
  (∀ (s : State) (p : Nat) (src : Nat) (tag : Nat) (status : Nat) (seq : Nat) (f : FarOut) (h : Nat) (l : Nat) (tg : Nat),
     s.rd F.AON_PWR_MODE_CUR = 0 → s.aon.entry.stage = 0 → p < 2 → s.clTakes p = true → s.idValid = true →
     s.clx.ports.length = 2 → s.clx.reqs = [f] → f.sent = true → s.dir.conflicts = [] → f.req.org = .host h l tg →
     (f.req.kind = .write ∨ f.req.kind = .partialWrite) → f.tag = tag → f.home = src → f.seq = seq → status ≠ 2 →
     tg ≠ fwTag →
     ∃ t,
       exec (.wrRsp p src tag status seq) s = .next t ∧ t.clx.reqs = [] ∧
       t.out = s.out ++ [Out.done h l tg f.req.grant] ∧ Frame [.clx, .out, .adm, .evt] (fun key => InBlock 4 key) s t) ∧
  (∀ (s : State) (p : Nat) (src : Nat) (base : Nat) (n : Nat),
     s.rd F.AON_PWR_MODE_CUR = 0 → s.aon.entry.stage = 0 → p < 2 → s.clTakes p = true → s.idValid = true →
     s.clx.ports.length = 2 → src < 16 → base < 2 ^ 32 → mget s.clx.syncs src = some n → s.clx.reqs = [] →
     ∃ t,
       exec (.syncAck p src base) s = .next t ∧ t.rd F.CLX_PEER_TX_NEXT src = base ∧
       t.rd F.CLX_PEER_TX_SYNCED src = 1 ∧ mget t.clx.syncs src = none ∧
       (Frame [.clx] (fun key => key = F.CLX_PEER_TX_NEXT.key src 0 ∨ key = F.CLX_PEER_TX_SYNCED.key src 0) s t)) ∧
  (∀ (s : State) (id : Nat) (h : Nat) (n : Nat),
     s.inReset = false → s.cry.halt = 0 → s.cur ≠ 3 → mget s.clx.syncs h = some n → s.route h = 1 → s.clState 0 = 6 →
     s.clx.ports.length = 2 →
     ∃ t,
       exec (.e2eTimeout id (some h)) s = .next t ∧
       (t.clp 0).orig = (s.clp 0).orig ++ [{ s.msgTo 4 h with seq := n % 2 ^ 32 }] ∧ t.clx.syncs = s.clx.syncs ∧
       Frame [.clx] (fun _ => False) s t) ∧
  (∀ (s : State) (id : Nat) (f : FarOut),
     s.inReset = false → s.cry.halt = 0 → s.cur ≠ 3 → s.clx.reqs = [f] → f.sent = true → f.id = id →
     (f.req.kind = .write ∨ f.req.kind = .partialWrite) → s.route f.home = 1 → s.clState 0 = 6 →
     s.clx.ports.length = 2 →
     ∃ t,
       exec (.e2eTimeout id none) s = .next t ∧ (t.clp 0).orig = (s.clp 0).orig ++ [s.farMsg f] ∧
       t.clx.reqs = [{ f with port := 1 }] ∧ Frame [.clx] (fun _ => False) s t) ∧
  (∀ (s : State) (id : Nat) (f : FarOut) (tag : Nat),
     s.inReset = false → s.cry.halt = 0 → s.cur ≠ 3 → s.clx.reqs = [f] → f.sent = true → f.id = id →
     f.req.kind = .read → s.clx.deadTags = [] → s.route f.home = 1 → s.clState 0 = 6 → s.clx.ports.length = 2 →
     tag = (if s.clx.nextTag % 2 ^ 16 = f.tag then s.clx.nextTag + 1 else s.clx.nextTag) % 2 ^ 16 →
     ∃ t,
       exec (.e2eTimeout id none) s = .next t ∧ (t.clp 0).orig = (s.clp 0).orig ++ [s.farMsg { f with tag := tag }] ∧
       t.clx.reqs = [{ f with port := 1, tag := tag }] ∧ t.clx.deadTags = [(f.tag, s.nowNs)] ∧
       Frame [.clx] (fun _ => False) s t) ∧
  (∀ (s : State) (id : Nat) (f : FarOut) (h : Nat) (l : Nat) (tg : Nat),
     s.inReset = false → s.cry.halt = 0 → s.cur ≠ 3 → s.clx.reqs = [f] → f.sent = true → s.dir.conflicts = [] →
     f.req.org = .host h l tg → f.id = id → f.req.kind = .read →
     ∃ t,
       exec (.farLimitExpiry id) s = .next t ∧ t.clx.reqs = [] ∧ (f.tag, s.nowNs) ∈ t.clx.deadTags ∧
       t.out = s.out ++ [Out.data h l tg 0 true f.req.grant] ∧
       Frame [.clx, .out, .adm, .evt] (fun key => InBlock 4 key) s t) ∧
  (∀ (s : State) (id : Nat) (f : FarOut) (h : Nat) (l : Nat) (tg : Nat),
     s.inReset = false → s.cry.halt = 0 → s.cur ≠ 3 → s.clx.reqs = [f] → f.sent = true → s.dir.conflicts = [] →
     f.req.org = .host h l tg → f.id = id → (f.req.kind = .write ∨ f.req.kind = .partialWrite) → f.home < 16 →
     s.rd F.CLX_PEER_CNT_DROPPED f.home + 1 < 2 ^ F.CLX_PEER_CNT_DROPPED.width →
     (s.rd F.RAS_LOG_PROD + 1) % 1024 ≠ s.rd F.RAS_LOG_CONS → tg ≠ fwTag →
     ∃ t,
       exec (.farLimitExpiry id) s = .next t ∧ t.clx.reqs = [] ∧
       t.rd F.CLX_PEER_CNT_DROPPED f.home = s.rd F.CLX_PEER_CNT_DROPPED f.home + 1 ∧
       t.rd F.CLX_PEER_TX_SYNCED f.home = 0 ∧
       (t.rd (F.EVT_RAW_CAUSE (cFar 9).blk) (cFar 9).page).testBit (cFar 9).bit = true ∧
       (mget t.ras.log (s.rd F.RAS_LOG_PROD)).map (fun x => (x.type, x.detail, x.block)) = some (0x0d, f.home + 2 ^ 32 * f.seq, 3) ∧
       t.out = s.out ++ [Out.done h l tg f.req.grant] ∧
       (Frame [.clx, .out, .ras, .adm, .evt] (fun key => key = F.CLX_PEER_CNT_DROPPED.key f.home 0 ∨ key = F.CLX_PEER_TX_SYNCED.key f.home 0 ∨ key = F.RAS_LOG_PROD.key 0 0 ∨ key = F.RAS_LOG_LOST.key 0 0 ∨ key = (F.EVT_RAW_CAUSE 12).key 0 0 ∨ key = (F.EVT_RAW_CAUSE 3).key 0 0 ∨ InBlock 4 key) s t))

/-- Register accesses (R19, R20, R22, R460, R537, R541, R544, R545, R549, R577).
Where it rests on the model's choices: log entries 36, 71, 113, 127. -/
def Obligations.RegisterAccess : Prop :=
  (∀ (s : State) (path : Path) (addr : Nat) (value : BitVec 64) (f : Fld) (i : Nat) (k : Nat),
     s.rd F.AON_PWR_MODE_CUR = 0 → s.aon.entry.stage = 0 → s.aon.blocks = [] → s.writeReachesAddr path addr = true →
     0x100000 ≤ addr → addr < 0x1000000 → 0x40 ≤ regOff (addr) → addr % 8 = 0 →
     fieldsAt (regBlk addr) (regPage addr) (regOff addr) = [(f, i, k)] →
     s.fieldOpen path (regBlk addr) (regPage addr) f k = true → f.acc = .rw → f.hi < 64 →
     f ∉ [F.ADM_SHP_RATE_RATE, F.ADM_SHP_BURST_BURST, F.EVT_ALERT_EN_SRC, F.NTC_CH_CTL_HOLD, F.BTC_SC_CTL_HOLD, F.SCR_FRAME_WM_PIN_MAX, F.RAS_LOG_CONS, F.EVT_QUEUE_HEAD, F.CLX_PORT_CTL_ENABLE] →
     regBlk addr ≠ 4 →
     (regBlk addr, regPage addr, regOff addr) ∉ [(9, 0, 0x48), (10, 0, 0x50), (11, 0, 0x50), (0, 0, 0x40)] →
     s.deniedAt path (regBlk addr) (regPage addr) (regOff addr) (2 ^ 64 - 1) value.toNat = false →
     ∃ t,
       exec (.registerWrite path addr 64 value) s = .next t ∧
       t.rd f i k = s.clamped f i (value.toNat / 2 ^ f.lo % 2 ^ f.width) % 2 ^ f.width ∧
       t.hlx = (s.dropShadow path).hlx ∧ Frame [.hlx] (fun key => key = f.key i k) s t) ∧
  (∀ (s : State) (value : BitVec 64),
     s.aon.blocks = [] → s.writeReaches .cores 3 0 = true → s.pageLive 3 0 = true →
     s.deniedAt .cores 3 0 0x40 (2 ^ 64 - 1) value.toNat = false →
     ∃ t,
       exec (.registerWrite .cores 0x400040 64 value) s = .next t ∧
       t.rd F.CLX_CFG_LOCK_LOSS = clampTo 1 10000 (bits value.toNat 13 0) ∧
       t.rd F.CLX_CFG_REPLAY_TO = clampTo 5 200 (bits value.toNat 23 16) ∧
       t.rd F.CLX_CFG_REPLAY_LIMIT = clampTo 1 15 (bits value.toNat 27 24) ∧
       t.rd F.CLX_CFG_E2E_TIMEOUT = clampTo 100 60000 (bits value.toNat 47 32) ∧
       t.rd F.CLX_CFG_FAR_LIMIT = clampTo 1 1000 (bits value.toNat 57 48) ∧
       (Frame [.hlx] (fun key => key = F.CLX_CFG_LOCK_LOSS.key 0 0 ∨ key = F.CLX_CFG_REPLAY_TO.key 0 0 ∨ key = F.CLX_CFG_REPLAY_LIMIT.key 0 0 ∨ key = F.CLX_CFG_E2E_TIMEOUT.key 0 0 ∨ key = F.CLX_CFG_FAR_LIMIT.key 0 0) s t)) ∧
  (∀ (s : State) (path : Path) (addr : Nat) (value : BitVec 64) (f : Fld) (i : Nat) (k : Nat),
     s.rd F.AON_PWR_MODE_CUR = 0 → s.aon.entry.stage = 0 → s.aon.blocks = [] → s.writeReachesAddr path addr = true →
     0x100000 ≤ addr → addr < 0x1000000 → 0x40 ≤ regOff (addr) → addr % 8 = 0 →
     fieldsAt (regBlk addr) (regPage addr) (regOff addr) = [(f, i, k)] → f.acc = .ro →
     s.deniedAt path (regBlk addr) (regPage addr) (regOff addr) (2 ^ 64 - 1) value.toNat = true →
     ∃ t,
       exec (.registerWrite path addr 64 value) s = .next t ∧
       t.rd F.AON_GLB_ACCERR_DENIED = min (2 ^ F.AON_GLB_ACCERR_DENIED.width - 1) (s.rd F.AON_GLB_ACCERR_DENIED + 1) ∧
       t.rd F.AON_GLB_ACCERR_LAST_PATH = pathCode path % 2 ^ F.AON_GLB_ACCERR_LAST_PATH.width ∧
       t.rd F.AON_GLB_ACCERR_LAST_LD = pathLd path % 2 ^ F.AON_GLB_ACCERR_LAST_LD.width ∧
       (Frame [.hlx, .evt] (fun key => key = F.AON_GLB_ACCERR_DENIED.key 0 0 ∨ key = F.AON_GLB_ACCERR_LAST_PATH.key 0 0 ∨ key = F.AON_GLB_ACCERR_LAST_LD.key 0 0) s t)) ∧
  (∀ (s : State) (path : Path) (addr : Nat) (value : BitVec 64),
     s.rd F.AON_PWR_MODE_CUR = 0 → s.aon.entry.stage = 0 → s.aon.blocks = [] → s.writeReachesAddr path addr = true →
     0x100000 ≤ addr → addr < 0x1000000 → addr % 8 = 0 → regOff addr = 0x38 →
     s.pageLive (regBlk addr) (regPage addr) = true → s.mayClr path (regBlk addr) (regPage addr) = true →
     ∃ t,
       exec (.registerWrite path addr 64 value) s = .next t ∧
       t.rd (F.EVT_RAW_CAUSE (regBlk addr)) (regPage addr) = (s.rd (F.EVT_RAW_CAUSE (regBlk addr)) (regPage addr) &&& (value.toNat ^^^ (2 ^ 64 - 1))) % 2 ^ (F.EVT_RAW_CAUSE (regBlk addr)).width ∧
       Frame [.hlx] (fun key => key = (F.EVT_RAW_CAUSE (regBlk addr)).key (regPage addr) 0) s t) ∧
  (∀ (s : State) (path : Path) (addr : Nat) (width : Nat) (value : BitVec 64),
     s.rd F.AON_PWR_MODE_CUR = 0 → s.aon.entry.stage = 0 → s.writeReachesAddr path addr = true →
     widthOk addr width = false →
     ∃ t,
       exec (.registerWrite path addr width value) s = .next t ∧
       t.rd F.AON_GLB_ACCERR_WIDTH = min (2 ^ F.AON_GLB_ACCERR_WIDTH.width - 1) (s.rd F.AON_GLB_ACCERR_WIDTH + 1) ∧
       Frame [.evt] (fun key => key = F.AON_GLB_ACCERR_WIDTH.key 0 0) s t) ∧
  (∀ (s : State) (path : Path) (addr : Nat),
     s.rd F.AON_PWR_MODE_CUR = 0 → s.aon.entry.stage = 0 → s.aon.blocks = [] → s.reachesAddr path addr = true →
     0x100000 ≤ addr → addr < 0x1000000 → 0x40 ≤ regOff (addr) → addr % 8 = 0 →
     (∀ x ∈ fieldsAt (regBlk addr) (regPage addr) (regOff addr), x.1.hi < 64) →
     pageUsed (regBlk addr) (regPage addr) = true → s.pageLost (regBlk addr) (regPage addr) = false →
     s.pageEmpty (regBlk addr) (regPage addr) = false →
     s.mayRead path (regBlk addr) (regPage addr) (regOff addr) = true →
     ∃ t,
       exec (.registerReadClear path addr 64) s = .next t ∧
       t.out = s.out ++ [Out.regRead path addr 64 (s.regWord (regBlk addr) (regPage addr) (regOff addr) % 2 ^ 64)] ∧
       (∀ x ∈ fieldsAt (regBlk addr) (regPage addr) (regOff addr), x.1.acc = .rc → t.rd x.1 x.2.1 x.2.2 = 0) ∧
       t.hlx = (s.dropShadow path).hlx ∧
       (Frame [.out, .hlx, .cry] (fun key => (∃ x ∈ fieldsAt (regBlk addr) (regPage addr) (regOff addr), key = x.1.key x.2.1 x.2.2)) s t)) ∧
  (∀ (s : State) (block : Nat),
     s.writeReaches .cores block 0 = true → s.pageLive block 0 = true →
     ∃ t,
       exec (.lock .cores block) s = .next t ∧ t.rd (F.BLK_CTL_LOCK block) = 1 ∧
       Frame [] (fun key => key = (F.BLK_CTL_LOCK block).key 0 0) s t) ∧
  (∀ (s : State) (path : Path) (block : Nat),
     isCores path = false → s.writeReaches path block 0 = true → s.rdb (F.BLK_CTL_LOCK block) = false →
     ∃ t,
       exec (.lock path block) s = .next t ∧
       t.rd F.AON_GLB_ACCERR_DENIED = min (2 ^ F.AON_GLB_ACCERR_DENIED.width - 1) (s.rd F.AON_GLB_ACCERR_DENIED + 1) ∧
       t.rd F.AON_GLB_ACCERR_LAST_PATH = pathCode path % 2 ^ F.AON_GLB_ACCERR_LAST_PATH.width ∧
       t.rd (F.BLK_CTL_LOCK block) = s.rd (F.BLK_CTL_LOCK block) ∧
       (Frame [.evt] (fun key => key = F.AON_GLB_ACCERR_DENIED.key 0 0 ∨ key = F.AON_GLB_ACCERR_LAST_PATH.key 0 0 ∨ key = F.AON_GLB_ACCERR_LAST_LD.key 0 0) s t))

/-- The sideband protocol (R551 to R553) over the register rules (R22, R545, R549).
Where it rests on the model's choices: log entries 72, 127, 135. -/
def Obligations.SidebandAccess : Prop :=
  (∀ (s : State) (req : List (BitVec 8)) (pec : Option (BitVec 8)) (b : List Byte),
     s.rd F.AON_PWR_MODE_CUR = 0 → s.aon.entry.stage = 0 → s.aon.off = 0 → s.aon.blocks = [] → s.aon.accs = [] →
     s.sbOk 1 4 req pec = true → s.reachesAddr .sideband (sbAddr req) = true → 0x100000 ≤ sbAddr req →
     sbAddr req < 0x1000000 → 0x40 ≤ regOff (sbAddr req) → sbAddr req % 8 = 0 →
     (∀ x ∈ fieldsAt (regBlk (sbAddr req)) (regPage (sbAddr req)) (regOff (sbAddr req)), x.1.hi < 64) →
     pageUsed (regBlk (sbAddr req)) (regPage (sbAddr req)) = true →
     s.pageLost (regBlk (sbAddr req)) (regPage (sbAddr req)) = false →
     s.pageEmpty (regBlk (sbAddr req)) (regPage (sbAddr req)) = false →
     s.mayRead .sideband (regBlk (sbAddr req)) (regPage (sbAddr req)) (regOff (sbAddr req)) = true →
     b = leBytes 1 0 ++ leBytes 4 (s.regWord (regBlk (sbAddr req)) (regPage (sbAddr req)) (regOff (sbAddr req)) % 2 ^ 64 % 2 ^ 32) →
     ∃ t,
       exec (.read32 req pec) s = .next t ∧
       t.out = s.out ++ [Out.sideband (b ++ (if pec.isSome then [pecOf (s.addrByte true :: b)] else []))] ∧
       (∀ x ∈ fieldsAt (regBlk (sbAddr req)) (regPage (sbAddr req)) (regOff (sbAddr req)), x.1.acc = .rc → t.rd x.1 x.2.1 x.2.2 = 0) ∧
       (Frame [.out, .hlx, .cry] (fun key => (∃ x ∈ fieldsAt (regBlk (sbAddr req)) (regPage (sbAddr req)) (regOff (sbAddr req)), key = x.1.key x.2.1 x.2.2)) s t)) ∧
  (∀ (s : State) (req : List (BitVec 8)) (pec : Option (BitVec 8)) (b : List Byte),
     s.rd F.AON_PWR_MODE_CUR = 0 → s.aon.entry.stage = 0 → s.aon.off = 0 → s.aon.blocks = [] → s.aon.accs = [] →
     s.sbOk 2 4 req pec = true → s.reachesAddr .sideband (sbAddr req) = true → 0x100000 ≤ sbAddr req →
     sbAddr req < 0x1000000 → 0x40 ≤ regOff (sbAddr req) →
     (∀ x ∈ fieldsAt (regBlk (sbAddr req)) (regPage (sbAddr req)) (regOff (sbAddr req)), x.1.hi < 64) →
     pageUsed (regBlk (sbAddr req)) (regPage (sbAddr req)) = true →
     s.pageLost (regBlk (sbAddr req)) (regPage (sbAddr req)) = false →
     s.pageEmpty (regBlk (sbAddr req)) (regPage (sbAddr req)) = false →
     s.mayRead .sideband (regBlk (sbAddr req)) (regPage (sbAddr req)) (regOff (sbAddr req)) = true →
     b = leBytes 1 0 ++ leBytes 8 (s.regWord (regBlk (sbAddr req)) (regPage (sbAddr req)) (regOff (sbAddr req)) % 2 ^ 64) →
     ∃ t,
       exec (.read64 req pec) s = .next t ∧
       t.out = s.out ++ [Out.sideband (b ++ (if pec.isSome then [pecOf (s.addrByte true :: b)] else []))] ∧
       (∀ x ∈ fieldsAt (regBlk (sbAddr req)) (regPage (sbAddr req)) (regOff (sbAddr req)), x.1.acc = .rc → t.rd x.1 x.2.1 x.2.2 = 0) ∧
       (Frame [.out, .hlx, .cry] (fun key => (∃ x ∈ fieldsAt (regBlk (sbAddr req)) (regPage (sbAddr req)) (regOff (sbAddr req)), key = x.1.key x.2.1 x.2.2)) s t)) ∧
  (∀ (s : State) (req : List (BitVec 8)) (pec : Option (BitVec 8)) (b : List Byte) (f : Fld) (i : Nat) (k : Nat),
     s.rd F.AON_PWR_MODE_CUR = 0 → s.aon.entry.stage = 0 → s.aon.off = 0 → s.aon.blocks = [] → s.aon.accs = [] →
     s.sbOk 3 8 req pec = true → s.writeReachesAddr .sideband (sbAddr req) = true → 0x100000 ≤ sbAddr req →
     sbAddr req < 0x1000000 → 0x40 ≤ regOff (sbAddr req) → sbAddr req % 8 = 0 →
     fieldsAt (regBlk (sbAddr req)) (regPage (sbAddr req)) (regOff (sbAddr req)) = [(f, i, k)] →
     s.fieldOpen .sideband (regBlk (sbAddr req)) (regPage (sbAddr req)) f k = true → f.acc = .rw → f.hi < 64 →
     f ∉ [F.ADM_SHP_RATE_RATE, F.ADM_SHP_BURST_BURST, F.EVT_ALERT_EN_SRC, F.NTC_CH_CTL_HOLD, F.BTC_SC_CTL_HOLD, F.SCR_FRAME_WM_PIN_MAX, F.RAS_LOG_CONS, F.EVT_QUEUE_HEAD, F.CLX_PORT_CTL_ENABLE] →
     regBlk (sbAddr req) ≠ 4 →
     (regBlk (sbAddr req), regPage (sbAddr req), regOff (sbAddr req)) ∉ [(9, 0, 0x48), (10, 0, 0x50), (11, 0, 0x50), (0, 0, 0x40)] →
     f.hi < 32 →
     s.deniedAt .sideband (regBlk (sbAddr req)) (regPage (sbAddr req)) (regOff (sbAddr req)) (2 ^ 32 - 1) (numAt req 4 4) = false →
     b = leBytes 1 0 →
     ∃ t,
       exec (.write32 req pec) s = .next t ∧
       t.out = s.out ++ [Out.sideband (b ++ (if pec.isSome then [pecOf (s.addrByte true :: b)] else []))] ∧
       t.rd f i k = s.clamped f i (numAt req 4 4 / 2 ^ f.lo % 2 ^ f.width) % 2 ^ f.width ∧
       Frame [.out, .hlx] (fun key => key = f.key i k) s t) ∧
  (∀ (s : State) (req : List (BitVec 8)) (pec : Option (BitVec 8)) (b : List Byte) (f : Fld) (i : Nat) (k : Nat),
     s.rd F.AON_PWR_MODE_CUR = 0 → s.aon.entry.stage = 0 → s.aon.off = 0 → s.aon.blocks = [] → s.aon.accs = [] →
     s.sbOk 4 12 req pec = true → s.writeReachesAddr .sideband (sbAddr req) = true → 0x100000 ≤ sbAddr req →
     sbAddr req < 0x1000000 → 0x40 ≤ regOff (sbAddr req) →
     fieldsAt (regBlk (sbAddr req)) (regPage (sbAddr req)) (regOff (sbAddr req)) = [(f, i, k)] →
     s.fieldOpen .sideband (regBlk (sbAddr req)) (regPage (sbAddr req)) f k = true → f.acc = .rw → f.hi < 64 →
     f ∉ [F.ADM_SHP_RATE_RATE, F.ADM_SHP_BURST_BURST, F.EVT_ALERT_EN_SRC, F.NTC_CH_CTL_HOLD, F.BTC_SC_CTL_HOLD, F.SCR_FRAME_WM_PIN_MAX, F.RAS_LOG_CONS, F.EVT_QUEUE_HEAD, F.CLX_PORT_CTL_ENABLE] →
     regBlk (sbAddr req) ≠ 4 →
     (regBlk (sbAddr req), regPage (sbAddr req), regOff (sbAddr req)) ∉ [(9, 0, 0x48), (10, 0, 0x50), (11, 0, 0x50), (0, 0, 0x40)] →
     s.deniedAt .sideband (regBlk (sbAddr req)) (regPage (sbAddr req)) (regOff (sbAddr req)) (2 ^ 64 - 1) (numAt req 4 8) = false →
     b = leBytes 1 0 →
     ∃ t,
       exec (.write64 req pec) s = .next t ∧
       t.out = s.out ++ [Out.sideband (b ++ (if pec.isSome then [pecOf (s.addrByte true :: b)] else []))] ∧
       t.rd f i k = s.clamped f i (numAt req 4 8 / 2 ^ f.lo % 2 ^ f.width) % 2 ^ f.width ∧
       Frame [.out, .hlx] (fun key => key = f.key i k) s t) ∧
  (∀ (s : State) (req : List (BitVec 8)) (pec : Option (BitVec 8)) (b : List Byte),
     s.rd F.AON_PWR_MODE_CUR = 0 → s.aon.entry.stage = 0 → s.aon.off = 0 → s.aon.blocks = [] → s.aon.accs = [] →
     s.sbOk 2 4 req pec = false → b = leBytes 1 2 ++ List.replicate 8 0 →
     ∃ t,
       exec (.read64 req pec) s = .next t ∧
       t.out = s.out ++ [Out.sideband (b ++ (if pec.isSome then [pecOf (s.addrByte true :: b)] else []))] ∧
       Frame [.out] (fun _ => False) s t) ∧
  (∀ (s : State) (req : List (BitVec 8)) (pec : Option (BitVec 8)) (b : List Byte),
     s.rd F.AON_PWR_MODE_CUR = 0 → s.aon.entry.stage = 0 → s.aon.off = 0 → s.aon.blocks = [] → s.aon.accs = [] →
     s.sbOk 3 8 req pec = true → s.writeReachesAddr .sideband (sbAddr req) = false → b = leBytes 1 3 →
     ∃ t,
       exec (.write32 req pec) s = .next t ∧
       t.out = s.out ++ [Out.sideband (b ++ (if pec.isSome then [pecOf (s.addrByte true :: b)] else []))] ∧
       Frame [.out] (fun _ => False) s t)

/-- R544: accesses that are not aligned ones of 32 or 64 bits. -/
def Obligations.MisalignedAccess : Prop :=
  (∀ (s : State) (path : Path) (addr : Nat) (width : Nat) (value : BitVec 64),
     s.writeReachesAddr path addr = true → s.rd F.AON_PWR_MODE_CUR = 0 → s.aon.entry.stage = 0 →
     widthOk addr width = false → (∀ c ∈ List.range 6, s.pmuSelects F.AON_GLB_ACCERR_WIDTH 0 0 none c = false) →
     ∃ t,
       exec (.registerWrite path addr width value) s = .next t ∧
       t.rd F.AON_GLB_ACCERR_WIDTH = min (2 ^ F.AON_GLB_ACCERR_WIDTH.width - 1) (s.rd F.AON_GLB_ACCERR_WIDTH + 1) ∧
       Frame [] (fun key => key = F.AON_GLB_ACCERR_WIDTH.key 0 0) s t) ∧
  (∀ (s : State) (path : Path) (addr : Nat) (width : Nat),
     s.reachesAddr path addr = true → s.rd F.AON_PWR_MODE_CUR = 0 → s.aon.entry.stage = 0 →
     widthOk addr width = false → (∀ c ∈ List.range 6, s.pmuSelects F.AON_GLB_ACCERR_WIDTH 0 0 none c = false) →
     ∃ t,
       exec (.registerReadClear path addr width) s = .next t ∧ t.out = s.out ++ [Out.regRead path addr width 0] ∧
       t.rd F.AON_GLB_ACCERR_WIDTH = min (2 ^ F.AON_GLB_ACCERR_WIDTH.width - 1) (s.rd F.AON_GLB_ACCERR_WIDTH + 1) ∧
       Frame [.out] (fun key => key = F.AON_GLB_ACCERR_WIDTH.key 0 0) s t)

/-- R51: KEY_EN in native and VK4 key mode. -/
def Obligations.KeyTagSwitch : Prop :=
  (∀ (s : State) (h : Nat) (value : BitVec 64),
     h < 16 → s.vk4 = false → s.aon.blocks = [] → s.writeReaches .cores 6 65 = true → s.pageLive 6 65 = true →
     ∃ t,
       exec (.registerWrite .cores (0x741040 + 8 * h) 64 value) s = .next t ∧ t.rd F.TMU_HEAD_TAG_KEY_EN 0 h = 0 ∧
       (Frame [.hlx, .evt] (fun key => key = F.TMU_HEAD_TAG_KEY_EN.key 0 h ∨ key = F.TMU_HEAD_TAG_CLASS_EN.key 0 h ∨ key = F.AON_GLB_ACCERR_DENIED.key 0 0 ∨ key = F.AON_GLB_ACCERR_LAST_PATH.key 0 0 ∨ key = F.AON_GLB_ACCERR_LAST_LD.key 0 0) s t)) ∧
  (∀ (s : State) (h dpa : Nat), s.vk4 = false → s.tagBitsOk h dpa = true →
     bits dpa 55 50 = 0 ∧ s.hostKey h dpa = 0) ∧
  (∀ (s : State) (h dpa : Nat), s.vk4 = true → s.rd F.TMU_HEAD_TAG_KEY_EN 0 h = 1 →
     s.hostKey h dpa = bits dpa 55 50 ∧
       (s.tagBitsOk h dpa = true ↔
         dpa < 2 ^ 56 ∧ (s.rd F.TMU_HEAD_TAG_CLASS_EN 0 h ≠ 0 ∨ bits dpa 49 46 = 0)))

/-- R422: a far read waits behind an unconfirmed far write of its line. -/
def Obligations.FarReadWaits : Prop :=
  (∀ (s : State) (f g : FarOut), (s.clx.reqs.map (·.id)).Nodup → f ∈ s.clx.reqs → f.sent = false →
     f.isWrite = false → g ∈ s.clx.reqs → g.isWrite = true → g.home = f.home → g.slot = f.slot → g.line = f.line →
     g.id < f.id → f ∈ s.farPump.clx.reqs) ∧
  (∀ (s : State) (f : FarOut), f.isWrite = false →
     (∀ g ∈ s.clx.reqs, g.isWrite = true → ¬ (g.home = f.home ∧ g.slot = f.slot ∧ g.line = f.line ∧ g.id < f.id)) →
     (s.route f.home = 1 ∨ s.route f.home = 2) → mget s.clx.held f.home = none → s.farSent.length < 2048 →
     s.farMay f = true)

/-- Tables 12.6 and 12.7 (R409, R410): the slot form of messages and its reading agree.
Where it rests on the model's choices: log entry 14. -/
def Obligations.MessageRoundTrip : Prop :=
  ∀ ms : List Msg, (∀ m ∈ ms, m.wf = true) →
    parseSlots ((ms.map Msg.bytes).flatten.length / 16) (ms.map Msg.bytes).flatten [] = (ms, [])

/-- Tables 2.4 and 2.6 (R63, R67), Table 5.3 (R170), the directory entry (R311).
Where it rests on the model's choices: log entries 7, 12, 27. -/
def Obligations.TmeRoundTrip : Prop :=
  (∀ t : Tme, t.wf = true → Tme.dec t.enc = t) ∧
  (∀ w : BitVec 256, (Tme.dec w).wf = true ∧ (Tme.dec w).enc = w) ∧
  (∀ e : Fte, e.tile < 2 ^ 32 → e.slot < 64 → e.heat < 16 → e.stamp < 2 ^ 12 → Fte.dec e.enc = some e) ∧
  (∀ e : DirEnt, e.wellFormed = true → e.enc < 2 ^ 64 ∧ DirEnt.dec e.enc = some e)

/-- Canonical is the model's own form of its data (log entry 12): no rule of the spec states it. -/
def Obligations.StepKeepsCanonical : Prop :=
  ∀ s t : State, Canonical s → step s = .next t → Canonical t

/-- Canonical is the model's own form of its data (log entry 12). -/
def Obligations.ResetCanonical : Prop :=
  Canonical State.reset

/-- The queue of commands is the model's own field (log entry 3). -/
def Obligations.ExecKeepsQueue : Prop :=
  ∀ (c : Instr) (s t : State), exec c s = .next t → t.pending = s.pending

/-- A command that finds nothing to do changes nothing (log entry 4).
Where it rests on the model's choices: log entry 98. -/
def Obligations.EveryCommandAnswers : Prop :=
  ∀ (c : Instr) (s : State), ∃ t, exec c s = .next t

/-- Reset columns (R23, R24). What reset leaves in registers without a reset value is no part of it.
Where it rests on the model's choices: log entry 1. -/
def Obligations.ResetValues : Prop :=
  State.reset.rd F.CTL_HEALTH_STATE = 0 ∧
  State.reset.rd F.CTL_HEALTH_MEM_ACTIVE = 0 ∧
  State.reset.rd F.AON_PWR_MODE_CUR = 0 ∧
  State.reset.rd F.CLX_ID_VALID = 0 ∧
  State.reset.rd F.CLX_CFG_LOCK_LOSS = 100 ∧
  State.reset.rd F.CLX_CFG_REPLAY_TO = 20 ∧
  State.reset.rd F.CLX_CFG_REPLAY_LIMIT = 4 ∧
  State.reset.rd F.CLX_CFG_E2E_TIMEOUT = 1000 ∧
  State.reset.rd F.CLX_CFG_FAR_LIMIT = 20 ∧
  State.reset.rd F.CDC_DISP_JOB_MAX = 8 ∧
  State.reset.rd F.CDC_DISP_FAULT_THRESH = 4 ∧
  State.reset.rd F.CDC_DISP_RETRY_EN = 1 ∧
  State.reset.rd F.CRY_CFG_FAULT_THRESH = 4 ∧
  State.reset.rd F.DIR_CFG_BI_TIMEOUT = 100 ∧
  State.reset.rd F.RAS_CFG_RPT_THRESH = 4 ∧
  State.reset.rd F.RAS_CFG_RANK_UE_THRESH = 8 ∧
  State.reset.rd F.RAS_SCRUB_BULK_RATE = 64 ∧
  State.reset.rd F.CRY_MODE_MODE = 0 ∧
  (∀ r < 64, State.reset.rgnState r = 0 ∧ State.reset.rd F.TMU_RGN_THRESH_T1 r = 75 ∧ State.reset.rd F.TMU_RGN_THRESH_T2 r = 90 ∧
     State.reset.rd F.TMU_RGN_THRESH_T3 r = 97 ∧ State.reset.rd F.TMU_RGN_DIRTYCAP_DIRTY_CAP r = 0x10000) ∧
  (∀ b < 15, State.reset.rd (F.BLK_CTL_LOCK b) = 0 ∧ ∀ page < 0x74,
     State.reset.rd (F.EVT_RAW_CAUSE b) page = 0 ∧ State.reset.evtEn b page = definedCauses b page) ∧
  (∀ p < 2, State.reset.clState p = 0) ∧
  State.reset.pending = [] ∧
  State.reset.aon.held = true
end

