-- ==== Sys2Proof/Laws/State.lean ====
section
/-!
SUPPORT. Laws/State.lean: one lemma per field of State and named update, true by rfl, so that no proof unfolds a record
update; and the registers over each replaced part.
-/
namespace Sys2Proof.Machine

/-! ### setTmu -/

@[simp] theorem State.setTmu_pending (s : State) (x : Tmu) : (s.setTmu x).pending = s.pending := rfl
@[simp] theorem State.setTmu_out (s : State) (x : Tmu) : (s.setTmu x).out = s.out := rfl
@[simp] theorem State.setTmu_draw (s : State) (x : Tmu) : (s.setTmu x).draw = s.draw := rfl
@[simp] theorem State.setTmu_fuses (s : State) (x : Tmu) : (s.setTmu x).fuses = s.fuses := rfl
@[simp] theorem State.setTmu_straps (s : State) (x : Tmu) : (s.setTmu x).straps = s.straps := rfl
@[simp] theorem State.setTmu_regs (s : State) (x : Tmu) : (s.setTmu x).regs = s.regs := rfl
@[simp] theorem State.setTmu_evt (s : State) (x : Tmu) : (s.setTmu x).evt = s.evt := rfl
@[simp] theorem State.setTmu_tmu (s : State) (x : Tmu) : (s.setTmu x).tmu = x := rfl
@[simp] theorem State.setTmu_near (s : State) (x : Tmu) : (s.setTmu x).near = s.near := rfl
@[simp] theorem State.setTmu_bulk (s : State) (x : Tmu) : (s.setTmu x).bulk = s.bulk := rfl
@[simp] theorem State.setTmu_cry (s : State) (x : Tmu) : (s.setTmu x).cry = s.cry := rfl
@[simp] theorem State.setTmu_scr (s : State) (x : Tmu) : (s.setTmu x).scr = s.scr := rfl
@[simp] theorem State.setTmu_ras (s : State) (x : Tmu) : (s.setTmu x).ras = s.ras := rfl
@[simp] theorem State.setTmu_adm (s : State) (x : Tmu) : (s.setTmu x).adm = s.adm := rfl
@[simp] theorem State.setTmu_dir (s : State) (x : Tmu) : (s.setTmu x).dir = s.dir := rfl
@[simp] theorem State.setTmu_clx (s : State) (x : Tmu) : (s.setTmu x).clx = s.clx := rfl
@[simp] theorem State.setTmu_job (s : State) (x : Tmu) : (s.setTmu x).job = s.job := rfl
@[simp] theorem State.setTmu_ctl (s : State) (x : Tmu) : (s.setTmu x).ctl = s.ctl := rfl
@[simp] theorem State.setTmu_mem (s : State) (x : Tmu) : (s.setTmu x).mem = s.mem := rfl
@[simp] theorem State.setTmu_hlx (s : State) (x : Tmu) : (s.setTmu x).hlx = s.hlx := rfl
@[simp] theorem State.setTmu_cdc (s : State) (x : Tmu) : (s.setTmu x).cdc = s.cdc := rfl
@[simp] theorem State.setTmu_aon (s : State) (x : Tmu) : (s.setTmu x).aon = s.aon := rfl
@[simp] theorem State.setTmu_rd (s : State) (x : Tmu) (f : Fld) (i k : Nat) : (s.setTmu x).rd f i k = s.rd f i k := rfl
@[simp] theorem State.setTmu_rdb (s : State) (x : Tmu) (f : Fld) (i k : Nat) : (s.setTmu x).rdb f i k = s.rdb f i k := rfl

/-! ### setNear -/

@[simp] theorem State.setNear_pending (s : State) (x : Near) : (s.setNear x).pending = s.pending := rfl
@[simp] theorem State.setNear_out (s : State) (x : Near) : (s.setNear x).out = s.out := rfl
@[simp] theorem State.setNear_draw (s : State) (x : Near) : (s.setNear x).draw = s.draw := rfl
@[simp] theorem State.setNear_fuses (s : State) (x : Near) : (s.setNear x).fuses = s.fuses := rfl
@[simp] theorem State.setNear_straps (s : State) (x : Near) : (s.setNear x).straps = s.straps := rfl
@[simp] theorem State.setNear_regs (s : State) (x : Near) : (s.setNear x).regs = s.regs := rfl
@[simp] theorem State.setNear_evt (s : State) (x : Near) : (s.setNear x).evt = s.evt := rfl
@[simp] theorem State.setNear_tmu (s : State) (x : Near) : (s.setNear x).tmu = s.tmu := rfl
@[simp] theorem State.setNear_near (s : State) (x : Near) : (s.setNear x).near = x := rfl
@[simp] theorem State.setNear_bulk (s : State) (x : Near) : (s.setNear x).bulk = s.bulk := rfl
@[simp] theorem State.setNear_cry (s : State) (x : Near) : (s.setNear x).cry = s.cry := rfl
@[simp] theorem State.setNear_scr (s : State) (x : Near) : (s.setNear x).scr = s.scr := rfl
@[simp] theorem State.setNear_ras (s : State) (x : Near) : (s.setNear x).ras = s.ras := rfl
@[simp] theorem State.setNear_adm (s : State) (x : Near) : (s.setNear x).adm = s.adm := rfl
@[simp] theorem State.setNear_dir (s : State) (x : Near) : (s.setNear x).dir = s.dir := rfl
@[simp] theorem State.setNear_clx (s : State) (x : Near) : (s.setNear x).clx = s.clx := rfl
@[simp] theorem State.setNear_job (s : State) (x : Near) : (s.setNear x).job = s.job := rfl
@[simp] theorem State.setNear_ctl (s : State) (x : Near) : (s.setNear x).ctl = s.ctl := rfl
@[simp] theorem State.setNear_mem (s : State) (x : Near) : (s.setNear x).mem = s.mem := rfl
@[simp] theorem State.setNear_hlx (s : State) (x : Near) : (s.setNear x).hlx = s.hlx := rfl
@[simp] theorem State.setNear_cdc (s : State) (x : Near) : (s.setNear x).cdc = s.cdc := rfl
@[simp] theorem State.setNear_aon (s : State) (x : Near) : (s.setNear x).aon = s.aon := rfl
@[simp] theorem State.setNear_rd (s : State) (x : Near) (f : Fld) (i k : Nat) : (s.setNear x).rd f i k = s.rd f i k := rfl
@[simp] theorem State.setNear_rdb (s : State) (x : Near) (f : Fld) (i k : Nat) : (s.setNear x).rdb f i k = s.rdb f i k := rfl

/-! ### setBulk -/

@[simp] theorem State.setBulk_pending (s : State) (x : Bulk) : (s.setBulk x).pending = s.pending := rfl
@[simp] theorem State.setBulk_out (s : State) (x : Bulk) : (s.setBulk x).out = s.out := rfl
@[simp] theorem State.setBulk_draw (s : State) (x : Bulk) : (s.setBulk x).draw = s.draw := rfl
@[simp] theorem State.setBulk_fuses (s : State) (x : Bulk) : (s.setBulk x).fuses = s.fuses := rfl
@[simp] theorem State.setBulk_straps (s : State) (x : Bulk) : (s.setBulk x).straps = s.straps := rfl
@[simp] theorem State.setBulk_regs (s : State) (x : Bulk) : (s.setBulk x).regs = s.regs := rfl
@[simp] theorem State.setBulk_evt (s : State) (x : Bulk) : (s.setBulk x).evt = s.evt := rfl
@[simp] theorem State.setBulk_tmu (s : State) (x : Bulk) : (s.setBulk x).tmu = s.tmu := rfl
@[simp] theorem State.setBulk_near (s : State) (x : Bulk) : (s.setBulk x).near = s.near := rfl
@[simp] theorem State.setBulk_bulk (s : State) (x : Bulk) : (s.setBulk x).bulk = x := rfl
@[simp] theorem State.setBulk_cry (s : State) (x : Bulk) : (s.setBulk x).cry = s.cry := rfl
@[simp] theorem State.setBulk_scr (s : State) (x : Bulk) : (s.setBulk x).scr = s.scr := rfl
@[simp] theorem State.setBulk_ras (s : State) (x : Bulk) : (s.setBulk x).ras = s.ras := rfl
@[simp] theorem State.setBulk_adm (s : State) (x : Bulk) : (s.setBulk x).adm = s.adm := rfl
@[simp] theorem State.setBulk_dir (s : State) (x : Bulk) : (s.setBulk x).dir = s.dir := rfl
@[simp] theorem State.setBulk_clx (s : State) (x : Bulk) : (s.setBulk x).clx = s.clx := rfl
@[simp] theorem State.setBulk_job (s : State) (x : Bulk) : (s.setBulk x).job = s.job := rfl
@[simp] theorem State.setBulk_ctl (s : State) (x : Bulk) : (s.setBulk x).ctl = s.ctl := rfl
@[simp] theorem State.setBulk_mem (s : State) (x : Bulk) : (s.setBulk x).mem = s.mem := rfl
@[simp] theorem State.setBulk_hlx (s : State) (x : Bulk) : (s.setBulk x).hlx = s.hlx := rfl
@[simp] theorem State.setBulk_cdc (s : State) (x : Bulk) : (s.setBulk x).cdc = s.cdc := rfl
@[simp] theorem State.setBulk_aon (s : State) (x : Bulk) : (s.setBulk x).aon = s.aon := rfl
@[simp] theorem State.setBulk_rd (s : State) (x : Bulk) (f : Fld) (i k : Nat) : (s.setBulk x).rd f i k = s.rd f i k := rfl
@[simp] theorem State.setBulk_rdb (s : State) (x : Bulk) (f : Fld) (i k : Nat) : (s.setBulk x).rdb f i k = s.rdb f i k := rfl

/-! ### setScr -/

@[simp] theorem State.setScr_pending (s : State) (x : Scr) : (s.setScr x).pending = s.pending := rfl
@[simp] theorem State.setScr_out (s : State) (x : Scr) : (s.setScr x).out = s.out := rfl
@[simp] theorem State.setScr_draw (s : State) (x : Scr) : (s.setScr x).draw = s.draw := rfl
@[simp] theorem State.setScr_fuses (s : State) (x : Scr) : (s.setScr x).fuses = s.fuses := rfl
@[simp] theorem State.setScr_straps (s : State) (x : Scr) : (s.setScr x).straps = s.straps := rfl
@[simp] theorem State.setScr_regs (s : State) (x : Scr) : (s.setScr x).regs = s.regs := rfl
@[simp] theorem State.setScr_evt (s : State) (x : Scr) : (s.setScr x).evt = s.evt := rfl
@[simp] theorem State.setScr_tmu (s : State) (x : Scr) : (s.setScr x).tmu = s.tmu := rfl
@[simp] theorem State.setScr_near (s : State) (x : Scr) : (s.setScr x).near = s.near := rfl
@[simp] theorem State.setScr_bulk (s : State) (x : Scr) : (s.setScr x).bulk = s.bulk := rfl
@[simp] theorem State.setScr_cry (s : State) (x : Scr) : (s.setScr x).cry = s.cry := rfl
@[simp] theorem State.setScr_scr (s : State) (x : Scr) : (s.setScr x).scr = x := rfl
@[simp] theorem State.setScr_ras (s : State) (x : Scr) : (s.setScr x).ras = s.ras := rfl
@[simp] theorem State.setScr_adm (s : State) (x : Scr) : (s.setScr x).adm = s.adm := rfl
@[simp] theorem State.setScr_dir (s : State) (x : Scr) : (s.setScr x).dir = s.dir := rfl
@[simp] theorem State.setScr_clx (s : State) (x : Scr) : (s.setScr x).clx = s.clx := rfl
@[simp] theorem State.setScr_job (s : State) (x : Scr) : (s.setScr x).job = s.job := rfl
@[simp] theorem State.setScr_ctl (s : State) (x : Scr) : (s.setScr x).ctl = s.ctl := rfl
@[simp] theorem State.setScr_mem (s : State) (x : Scr) : (s.setScr x).mem = s.mem := rfl
@[simp] theorem State.setScr_hlx (s : State) (x : Scr) : (s.setScr x).hlx = s.hlx := rfl
@[simp] theorem State.setScr_cdc (s : State) (x : Scr) : (s.setScr x).cdc = s.cdc := rfl
@[simp] theorem State.setScr_aon (s : State) (x : Scr) : (s.setScr x).aon = s.aon := rfl
@[simp] theorem State.setScr_rd (s : State) (x : Scr) (f : Fld) (i k : Nat) : (s.setScr x).rd f i k = s.rd f i k := rfl
@[simp] theorem State.setScr_rdb (s : State) (x : Scr) (f : Fld) (i k : Nat) : (s.setScr x).rdb f i k = s.rdb f i k := rfl

/-! ### setCry -/

@[simp] theorem State.setCry_pending (s : State) (x : Cry) : (s.setCry x).pending = s.pending := rfl
@[simp] theorem State.setCry_out (s : State) (x : Cry) : (s.setCry x).out = s.out := rfl
@[simp] theorem State.setCry_draw (s : State) (x : Cry) : (s.setCry x).draw = s.draw := rfl
@[simp] theorem State.setCry_fuses (s : State) (x : Cry) : (s.setCry x).fuses = s.fuses := rfl
@[simp] theorem State.setCry_straps (s : State) (x : Cry) : (s.setCry x).straps = s.straps := rfl
@[simp] theorem State.setCry_regs (s : State) (x : Cry) : (s.setCry x).regs = s.regs := rfl
@[simp] theorem State.setCry_evt (s : State) (x : Cry) : (s.setCry x).evt = s.evt := rfl
@[simp] theorem State.setCry_tmu (s : State) (x : Cry) : (s.setCry x).tmu = s.tmu := rfl
@[simp] theorem State.setCry_near (s : State) (x : Cry) : (s.setCry x).near = s.near := rfl
@[simp] theorem State.setCry_bulk (s : State) (x : Cry) : (s.setCry x).bulk = s.bulk := rfl
@[simp] theorem State.setCry_cry (s : State) (x : Cry) : (s.setCry x).cry = x := rfl
@[simp] theorem State.setCry_scr (s : State) (x : Cry) : (s.setCry x).scr = s.scr := rfl
@[simp] theorem State.setCry_ras (s : State) (x : Cry) : (s.setCry x).ras = s.ras := rfl
@[simp] theorem State.setCry_adm (s : State) (x : Cry) : (s.setCry x).adm = s.adm := rfl
@[simp] theorem State.setCry_dir (s : State) (x : Cry) : (s.setCry x).dir = s.dir := rfl
@[simp] theorem State.setCry_clx (s : State) (x : Cry) : (s.setCry x).clx = s.clx := rfl
@[simp] theorem State.setCry_job (s : State) (x : Cry) : (s.setCry x).job = s.job := rfl
@[simp] theorem State.setCry_ctl (s : State) (x : Cry) : (s.setCry x).ctl = s.ctl := rfl
@[simp] theorem State.setCry_mem (s : State) (x : Cry) : (s.setCry x).mem = s.mem := rfl
@[simp] theorem State.setCry_hlx (s : State) (x : Cry) : (s.setCry x).hlx = s.hlx := rfl
@[simp] theorem State.setCry_cdc (s : State) (x : Cry) : (s.setCry x).cdc = s.cdc := rfl
@[simp] theorem State.setCry_aon (s : State) (x : Cry) : (s.setCry x).aon = s.aon := rfl
@[simp] theorem State.setCry_rd (s : State) (x : Cry) (f : Fld) (i k : Nat) : (s.setCry x).rd f i k = s.rd f i k := rfl
@[simp] theorem State.setCry_rdb (s : State) (x : Cry) (f : Fld) (i k : Nat) : (s.setCry x).rdb f i k = s.rdb f i k := rfl

/-! ### setRas -/

@[simp] theorem State.setRas_pending (s : State) (x : Ras) : (s.setRas x).pending = s.pending := rfl
@[simp] theorem State.setRas_out (s : State) (x : Ras) : (s.setRas x).out = s.out := rfl
@[simp] theorem State.setRas_draw (s : State) (x : Ras) : (s.setRas x).draw = s.draw := rfl
@[simp] theorem State.setRas_fuses (s : State) (x : Ras) : (s.setRas x).fuses = s.fuses := rfl
@[simp] theorem State.setRas_straps (s : State) (x : Ras) : (s.setRas x).straps = s.straps := rfl
@[simp] theorem State.setRas_regs (s : State) (x : Ras) : (s.setRas x).regs = s.regs := rfl
@[simp] theorem State.setRas_evt (s : State) (x : Ras) : (s.setRas x).evt = s.evt := rfl
@[simp] theorem State.setRas_tmu (s : State) (x : Ras) : (s.setRas x).tmu = s.tmu := rfl
@[simp] theorem State.setRas_near (s : State) (x : Ras) : (s.setRas x).near = s.near := rfl
@[simp] theorem State.setRas_bulk (s : State) (x : Ras) : (s.setRas x).bulk = s.bulk := rfl
@[simp] theorem State.setRas_cry (s : State) (x : Ras) : (s.setRas x).cry = s.cry := rfl
@[simp] theorem State.setRas_scr (s : State) (x : Ras) : (s.setRas x).scr = s.scr := rfl
@[simp] theorem State.setRas_ras (s : State) (x : Ras) : (s.setRas x).ras = x := rfl
@[simp] theorem State.setRas_adm (s : State) (x : Ras) : (s.setRas x).adm = s.adm := rfl
@[simp] theorem State.setRas_dir (s : State) (x : Ras) : (s.setRas x).dir = s.dir := rfl
@[simp] theorem State.setRas_clx (s : State) (x : Ras) : (s.setRas x).clx = s.clx := rfl
@[simp] theorem State.setRas_job (s : State) (x : Ras) : (s.setRas x).job = s.job := rfl
@[simp] theorem State.setRas_ctl (s : State) (x : Ras) : (s.setRas x).ctl = s.ctl := rfl
@[simp] theorem State.setRas_mem (s : State) (x : Ras) : (s.setRas x).mem = s.mem := rfl
@[simp] theorem State.setRas_hlx (s : State) (x : Ras) : (s.setRas x).hlx = s.hlx := rfl
@[simp] theorem State.setRas_cdc (s : State) (x : Ras) : (s.setRas x).cdc = s.cdc := rfl
@[simp] theorem State.setRas_aon (s : State) (x : Ras) : (s.setRas x).aon = s.aon := rfl
@[simp] theorem State.setRas_rd (s : State) (x : Ras) (f : Fld) (i k : Nat) : (s.setRas x).rd f i k = s.rd f i k := rfl
@[simp] theorem State.setRas_rdb (s : State) (x : Ras) (f : Fld) (i k : Nat) : (s.setRas x).rdb f i k = s.rdb f i k := rfl

/-! ### setAdm -/

@[simp] theorem State.setAdm_pending (s : State) (x : Adm) : (s.setAdm x).pending = s.pending := rfl
@[simp] theorem State.setAdm_out (s : State) (x : Adm) : (s.setAdm x).out = s.out := rfl
@[simp] theorem State.setAdm_draw (s : State) (x : Adm) : (s.setAdm x).draw = s.draw := rfl
@[simp] theorem State.setAdm_fuses (s : State) (x : Adm) : (s.setAdm x).fuses = s.fuses := rfl
@[simp] theorem State.setAdm_straps (s : State) (x : Adm) : (s.setAdm x).straps = s.straps := rfl
@[simp] theorem State.setAdm_regs (s : State) (x : Adm) : (s.setAdm x).regs = s.regs := rfl
@[simp] theorem State.setAdm_evt (s : State) (x : Adm) : (s.setAdm x).evt = s.evt := rfl
@[simp] theorem State.setAdm_tmu (s : State) (x : Adm) : (s.setAdm x).tmu = s.tmu := rfl
@[simp] theorem State.setAdm_near (s : State) (x : Adm) : (s.setAdm x).near = s.near := rfl
@[simp] theorem State.setAdm_bulk (s : State) (x : Adm) : (s.setAdm x).bulk = s.bulk := rfl
@[simp] theorem State.setAdm_cry (s : State) (x : Adm) : (s.setAdm x).cry = s.cry := rfl
@[simp] theorem State.setAdm_scr (s : State) (x : Adm) : (s.setAdm x).scr = s.scr := rfl
@[simp] theorem State.setAdm_ras (s : State) (x : Adm) : (s.setAdm x).ras = s.ras := rfl
@[simp] theorem State.setAdm_adm (s : State) (x : Adm) : (s.setAdm x).adm = x := rfl
@[simp] theorem State.setAdm_dir (s : State) (x : Adm) : (s.setAdm x).dir = s.dir := rfl
@[simp] theorem State.setAdm_clx (s : State) (x : Adm) : (s.setAdm x).clx = s.clx := rfl
@[simp] theorem State.setAdm_job (s : State) (x : Adm) : (s.setAdm x).job = s.job := rfl
@[simp] theorem State.setAdm_ctl (s : State) (x : Adm) : (s.setAdm x).ctl = s.ctl := rfl
@[simp] theorem State.setAdm_mem (s : State) (x : Adm) : (s.setAdm x).mem = s.mem := rfl
@[simp] theorem State.setAdm_hlx (s : State) (x : Adm) : (s.setAdm x).hlx = s.hlx := rfl
@[simp] theorem State.setAdm_cdc (s : State) (x : Adm) : (s.setAdm x).cdc = s.cdc := rfl
@[simp] theorem State.setAdm_aon (s : State) (x : Adm) : (s.setAdm x).aon = s.aon := rfl
@[simp] theorem State.setAdm_rd (s : State) (x : Adm) (f : Fld) (i k : Nat) : (s.setAdm x).rd f i k = s.rd f i k := rfl
@[simp] theorem State.setAdm_rdb (s : State) (x : Adm) (f : Fld) (i k : Nat) : (s.setAdm x).rdb f i k = s.rdb f i k := rfl

/-! ### setDir -/

@[simp] theorem State.setDir_pending (s : State) (x : Dir) : (s.setDir x).pending = s.pending := rfl
@[simp] theorem State.setDir_out (s : State) (x : Dir) : (s.setDir x).out = s.out := rfl
@[simp] theorem State.setDir_draw (s : State) (x : Dir) : (s.setDir x).draw = s.draw := rfl
@[simp] theorem State.setDir_fuses (s : State) (x : Dir) : (s.setDir x).fuses = s.fuses := rfl
@[simp] theorem State.setDir_straps (s : State) (x : Dir) : (s.setDir x).straps = s.straps := rfl
@[simp] theorem State.setDir_regs (s : State) (x : Dir) : (s.setDir x).regs = s.regs := rfl
@[simp] theorem State.setDir_evt (s : State) (x : Dir) : (s.setDir x).evt = s.evt := rfl
@[simp] theorem State.setDir_tmu (s : State) (x : Dir) : (s.setDir x).tmu = s.tmu := rfl
@[simp] theorem State.setDir_near (s : State) (x : Dir) : (s.setDir x).near = s.near := rfl
@[simp] theorem State.setDir_bulk (s : State) (x : Dir) : (s.setDir x).bulk = s.bulk := rfl
@[simp] theorem State.setDir_cry (s : State) (x : Dir) : (s.setDir x).cry = s.cry := rfl
@[simp] theorem State.setDir_scr (s : State) (x : Dir) : (s.setDir x).scr = s.scr := rfl
@[simp] theorem State.setDir_ras (s : State) (x : Dir) : (s.setDir x).ras = s.ras := rfl
@[simp] theorem State.setDir_adm (s : State) (x : Dir) : (s.setDir x).adm = s.adm := rfl
@[simp] theorem State.setDir_dir (s : State) (x : Dir) : (s.setDir x).dir = x := rfl
@[simp] theorem State.setDir_clx (s : State) (x : Dir) : (s.setDir x).clx = s.clx := rfl
@[simp] theorem State.setDir_job (s : State) (x : Dir) : (s.setDir x).job = s.job := rfl
@[simp] theorem State.setDir_ctl (s : State) (x : Dir) : (s.setDir x).ctl = s.ctl := rfl
@[simp] theorem State.setDir_mem (s : State) (x : Dir) : (s.setDir x).mem = s.mem := rfl
@[simp] theorem State.setDir_hlx (s : State) (x : Dir) : (s.setDir x).hlx = s.hlx := rfl
@[simp] theorem State.setDir_cdc (s : State) (x : Dir) : (s.setDir x).cdc = s.cdc := rfl
@[simp] theorem State.setDir_aon (s : State) (x : Dir) : (s.setDir x).aon = s.aon := rfl
@[simp] theorem State.setDir_rd (s : State) (x : Dir) (f : Fld) (i k : Nat) : (s.setDir x).rd f i k = s.rd f i k := rfl
@[simp] theorem State.setDir_rdb (s : State) (x : Dir) (f : Fld) (i k : Nat) : (s.setDir x).rdb f i k = s.rdb f i k := rfl

/-! ### setClx -/

@[simp] theorem State.setClx_pending (s : State) (x : Clx) : (s.setClx x).pending = s.pending := rfl
@[simp] theorem State.setClx_out (s : State) (x : Clx) : (s.setClx x).out = s.out := rfl
@[simp] theorem State.setClx_draw (s : State) (x : Clx) : (s.setClx x).draw = s.draw := rfl
@[simp] theorem State.setClx_fuses (s : State) (x : Clx) : (s.setClx x).fuses = s.fuses := rfl
@[simp] theorem State.setClx_straps (s : State) (x : Clx) : (s.setClx x).straps = s.straps := rfl
@[simp] theorem State.setClx_regs (s : State) (x : Clx) : (s.setClx x).regs = s.regs := rfl
@[simp] theorem State.setClx_evt (s : State) (x : Clx) : (s.setClx x).evt = s.evt := rfl
@[simp] theorem State.setClx_tmu (s : State) (x : Clx) : (s.setClx x).tmu = s.tmu := rfl
@[simp] theorem State.setClx_near (s : State) (x : Clx) : (s.setClx x).near = s.near := rfl
@[simp] theorem State.setClx_bulk (s : State) (x : Clx) : (s.setClx x).bulk = s.bulk := rfl
@[simp] theorem State.setClx_cry (s : State) (x : Clx) : (s.setClx x).cry = s.cry := rfl
@[simp] theorem State.setClx_scr (s : State) (x : Clx) : (s.setClx x).scr = s.scr := rfl
@[simp] theorem State.setClx_ras (s : State) (x : Clx) : (s.setClx x).ras = s.ras := rfl
@[simp] theorem State.setClx_adm (s : State) (x : Clx) : (s.setClx x).adm = s.adm := rfl
@[simp] theorem State.setClx_dir (s : State) (x : Clx) : (s.setClx x).dir = s.dir := rfl
@[simp] theorem State.setClx_clx (s : State) (x : Clx) : (s.setClx x).clx = x := rfl
@[simp] theorem State.setClx_job (s : State) (x : Clx) : (s.setClx x).job = s.job := rfl
@[simp] theorem State.setClx_ctl (s : State) (x : Clx) : (s.setClx x).ctl = s.ctl := rfl
@[simp] theorem State.setClx_mem (s : State) (x : Clx) : (s.setClx x).mem = s.mem := rfl
@[simp] theorem State.setClx_hlx (s : State) (x : Clx) : (s.setClx x).hlx = s.hlx := rfl
@[simp] theorem State.setClx_cdc (s : State) (x : Clx) : (s.setClx x).cdc = s.cdc := rfl
@[simp] theorem State.setClx_aon (s : State) (x : Clx) : (s.setClx x).aon = s.aon := rfl
@[simp] theorem State.setClx_rd (s : State) (x : Clx) (f : Fld) (i k : Nat) : (s.setClx x).rd f i k = s.rd f i k := rfl
@[simp] theorem State.setClx_rdb (s : State) (x : Clx) (f : Fld) (i k : Nat) : (s.setClx x).rdb f i k = s.rdb f i k := rfl

/-! ### setEvt -/

@[simp] theorem State.setEvt_pending (s : State) (x : Evt) : (s.setEvt x).pending = s.pending := rfl
@[simp] theorem State.setEvt_out (s : State) (x : Evt) : (s.setEvt x).out = s.out := rfl
@[simp] theorem State.setEvt_draw (s : State) (x : Evt) : (s.setEvt x).draw = s.draw := rfl
@[simp] theorem State.setEvt_fuses (s : State) (x : Evt) : (s.setEvt x).fuses = s.fuses := rfl
@[simp] theorem State.setEvt_straps (s : State) (x : Evt) : (s.setEvt x).straps = s.straps := rfl
@[simp] theorem State.setEvt_regs (s : State) (x : Evt) : (s.setEvt x).regs = s.regs := rfl
@[simp] theorem State.setEvt_evt (s : State) (x : Evt) : (s.setEvt x).evt = x := rfl
@[simp] theorem State.setEvt_tmu (s : State) (x : Evt) : (s.setEvt x).tmu = s.tmu := rfl
@[simp] theorem State.setEvt_near (s : State) (x : Evt) : (s.setEvt x).near = s.near := rfl
@[simp] theorem State.setEvt_bulk (s : State) (x : Evt) : (s.setEvt x).bulk = s.bulk := rfl
@[simp] theorem State.setEvt_cry (s : State) (x : Evt) : (s.setEvt x).cry = s.cry := rfl
@[simp] theorem State.setEvt_scr (s : State) (x : Evt) : (s.setEvt x).scr = s.scr := rfl
@[simp] theorem State.setEvt_ras (s : State) (x : Evt) : (s.setEvt x).ras = s.ras := rfl
@[simp] theorem State.setEvt_adm (s : State) (x : Evt) : (s.setEvt x).adm = s.adm := rfl
@[simp] theorem State.setEvt_dir (s : State) (x : Evt) : (s.setEvt x).dir = s.dir := rfl
@[simp] theorem State.setEvt_clx (s : State) (x : Evt) : (s.setEvt x).clx = s.clx := rfl
@[simp] theorem State.setEvt_job (s : State) (x : Evt) : (s.setEvt x).job = s.job := rfl
@[simp] theorem State.setEvt_ctl (s : State) (x : Evt) : (s.setEvt x).ctl = s.ctl := rfl
@[simp] theorem State.setEvt_mem (s : State) (x : Evt) : (s.setEvt x).mem = s.mem := rfl
@[simp] theorem State.setEvt_hlx (s : State) (x : Evt) : (s.setEvt x).hlx = s.hlx := rfl
@[simp] theorem State.setEvt_cdc (s : State) (x : Evt) : (s.setEvt x).cdc = s.cdc := rfl
@[simp] theorem State.setEvt_aon (s : State) (x : Evt) : (s.setEvt x).aon = s.aon := rfl
@[simp] theorem State.setEvt_rd (s : State) (x : Evt) (f : Fld) (i k : Nat) : (s.setEvt x).rd f i k = s.rd f i k := rfl
@[simp] theorem State.setEvt_rdb (s : State) (x : Evt) (f : Fld) (i k : Nat) : (s.setEvt x).rdb f i k = s.rdb f i k := rfl

/-! ### setHlx -/

@[simp] theorem State.setHlx_pending (s : State) (x : Hlx) : (s.setHlx x).pending = s.pending := rfl
@[simp] theorem State.setHlx_out (s : State) (x : Hlx) : (s.setHlx x).out = s.out := rfl
@[simp] theorem State.setHlx_draw (s : State) (x : Hlx) : (s.setHlx x).draw = s.draw := rfl
@[simp] theorem State.setHlx_fuses (s : State) (x : Hlx) : (s.setHlx x).fuses = s.fuses := rfl
@[simp] theorem State.setHlx_straps (s : State) (x : Hlx) : (s.setHlx x).straps = s.straps := rfl
@[simp] theorem State.setHlx_regs (s : State) (x : Hlx) : (s.setHlx x).regs = s.regs := rfl
@[simp] theorem State.setHlx_evt (s : State) (x : Hlx) : (s.setHlx x).evt = s.evt := rfl
@[simp] theorem State.setHlx_tmu (s : State) (x : Hlx) : (s.setHlx x).tmu = s.tmu := rfl
@[simp] theorem State.setHlx_near (s : State) (x : Hlx) : (s.setHlx x).near = s.near := rfl
@[simp] theorem State.setHlx_bulk (s : State) (x : Hlx) : (s.setHlx x).bulk = s.bulk := rfl
@[simp] theorem State.setHlx_cry (s : State) (x : Hlx) : (s.setHlx x).cry = s.cry := rfl
@[simp] theorem State.setHlx_scr (s : State) (x : Hlx) : (s.setHlx x).scr = s.scr := rfl
@[simp] theorem State.setHlx_ras (s : State) (x : Hlx) : (s.setHlx x).ras = s.ras := rfl
@[simp] theorem State.setHlx_adm (s : State) (x : Hlx) : (s.setHlx x).adm = s.adm := rfl
@[simp] theorem State.setHlx_dir (s : State) (x : Hlx) : (s.setHlx x).dir = s.dir := rfl
@[simp] theorem State.setHlx_clx (s : State) (x : Hlx) : (s.setHlx x).clx = s.clx := rfl
@[simp] theorem State.setHlx_job (s : State) (x : Hlx) : (s.setHlx x).job = s.job := rfl
@[simp] theorem State.setHlx_ctl (s : State) (x : Hlx) : (s.setHlx x).ctl = s.ctl := rfl
@[simp] theorem State.setHlx_mem (s : State) (x : Hlx) : (s.setHlx x).mem = s.mem := rfl
@[simp] theorem State.setHlx_hlx (s : State) (x : Hlx) : (s.setHlx x).hlx = x := rfl
@[simp] theorem State.setHlx_cdc (s : State) (x : Hlx) : (s.setHlx x).cdc = s.cdc := rfl
@[simp] theorem State.setHlx_aon (s : State) (x : Hlx) : (s.setHlx x).aon = s.aon := rfl
@[simp] theorem State.setHlx_rd (s : State) (x : Hlx) (f : Fld) (i k : Nat) : (s.setHlx x).rd f i k = s.rd f i k := rfl
@[simp] theorem State.setHlx_rdb (s : State) (x : Hlx) (f : Fld) (i k : Nat) : (s.setHlx x).rdb f i k = s.rdb f i k := rfl

/-! ### setAon -/

@[simp] theorem State.setAon_pending (s : State) (x : Aon) : (s.setAon x).pending = s.pending := rfl
@[simp] theorem State.setAon_out (s : State) (x : Aon) : (s.setAon x).out = s.out := rfl
@[simp] theorem State.setAon_draw (s : State) (x : Aon) : (s.setAon x).draw = s.draw := rfl
@[simp] theorem State.setAon_fuses (s : State) (x : Aon) : (s.setAon x).fuses = s.fuses := rfl
@[simp] theorem State.setAon_straps (s : State) (x : Aon) : (s.setAon x).straps = s.straps := rfl
@[simp] theorem State.setAon_regs (s : State) (x : Aon) : (s.setAon x).regs = s.regs := rfl
@[simp] theorem State.setAon_evt (s : State) (x : Aon) : (s.setAon x).evt = s.evt := rfl
@[simp] theorem State.setAon_tmu (s : State) (x : Aon) : (s.setAon x).tmu = s.tmu := rfl
@[simp] theorem State.setAon_near (s : State) (x : Aon) : (s.setAon x).near = s.near := rfl
@[simp] theorem State.setAon_bulk (s : State) (x : Aon) : (s.setAon x).bulk = s.bulk := rfl
@[simp] theorem State.setAon_cry (s : State) (x : Aon) : (s.setAon x).cry = s.cry := rfl
@[simp] theorem State.setAon_scr (s : State) (x : Aon) : (s.setAon x).scr = s.scr := rfl
@[simp] theorem State.setAon_ras (s : State) (x : Aon) : (s.setAon x).ras = s.ras := rfl
@[simp] theorem State.setAon_adm (s : State) (x : Aon) : (s.setAon x).adm = s.adm := rfl
@[simp] theorem State.setAon_dir (s : State) (x : Aon) : (s.setAon x).dir = s.dir := rfl
@[simp] theorem State.setAon_clx (s : State) (x : Aon) : (s.setAon x).clx = s.clx := rfl
@[simp] theorem State.setAon_job (s : State) (x : Aon) : (s.setAon x).job = s.job := rfl
@[simp] theorem State.setAon_ctl (s : State) (x : Aon) : (s.setAon x).ctl = s.ctl := rfl
@[simp] theorem State.setAon_mem (s : State) (x : Aon) : (s.setAon x).mem = s.mem := rfl
@[simp] theorem State.setAon_hlx (s : State) (x : Aon) : (s.setAon x).hlx = s.hlx := rfl
@[simp] theorem State.setAon_cdc (s : State) (x : Aon) : (s.setAon x).cdc = s.cdc := rfl
@[simp] theorem State.setAon_aon (s : State) (x : Aon) : (s.setAon x).aon = x := rfl
@[simp] theorem State.setAon_rd (s : State) (x : Aon) (f : Fld) (i k : Nat) : (s.setAon x).rd f i k = s.rd f i k := rfl
@[simp] theorem State.setAon_rdb (s : State) (x : Aon) (f : Fld) (i k : Nat) : (s.setAon x).rdb f i k = s.rdb f i k := rfl

/-! ### setMem -/

@[simp] theorem State.setMem_pending (s : State) (x : Mem) : (s.setMem x).pending = s.pending := rfl
@[simp] theorem State.setMem_out (s : State) (x : Mem) : (s.setMem x).out = s.out := rfl
@[simp] theorem State.setMem_draw (s : State) (x : Mem) : (s.setMem x).draw = s.draw := rfl
@[simp] theorem State.setMem_fuses (s : State) (x : Mem) : (s.setMem x).fuses = s.fuses := rfl
@[simp] theorem State.setMem_straps (s : State) (x : Mem) : (s.setMem x).straps = s.straps := rfl
@[simp] theorem State.setMem_regs (s : State) (x : Mem) : (s.setMem x).regs = s.regs := rfl
@[simp] theorem State.setMem_evt (s : State) (x : Mem) : (s.setMem x).evt = s.evt := rfl
@[simp] theorem State.setMem_tmu (s : State) (x : Mem) : (s.setMem x).tmu = s.tmu := rfl
@[simp] theorem State.setMem_near (s : State) (x : Mem) : (s.setMem x).near = s.near := rfl
@[simp] theorem State.setMem_bulk (s : State) (x : Mem) : (s.setMem x).bulk = s.bulk := rfl
@[simp] theorem State.setMem_cry (s : State) (x : Mem) : (s.setMem x).cry = s.cry := rfl
@[simp] theorem State.setMem_scr (s : State) (x : Mem) : (s.setMem x).scr = s.scr := rfl
@[simp] theorem State.setMem_ras (s : State) (x : Mem) : (s.setMem x).ras = s.ras := rfl
@[simp] theorem State.setMem_adm (s : State) (x : Mem) : (s.setMem x).adm = s.adm := rfl
@[simp] theorem State.setMem_dir (s : State) (x : Mem) : (s.setMem x).dir = s.dir := rfl
@[simp] theorem State.setMem_clx (s : State) (x : Mem) : (s.setMem x).clx = s.clx := rfl
@[simp] theorem State.setMem_job (s : State) (x : Mem) : (s.setMem x).job = s.job := rfl
@[simp] theorem State.setMem_ctl (s : State) (x : Mem) : (s.setMem x).ctl = s.ctl := rfl
@[simp] theorem State.setMem_mem (s : State) (x : Mem) : (s.setMem x).mem = x := rfl
@[simp] theorem State.setMem_hlx (s : State) (x : Mem) : (s.setMem x).hlx = s.hlx := rfl
@[simp] theorem State.setMem_cdc (s : State) (x : Mem) : (s.setMem x).cdc = s.cdc := rfl
@[simp] theorem State.setMem_aon (s : State) (x : Mem) : (s.setMem x).aon = s.aon := rfl
@[simp] theorem State.setMem_rd (s : State) (x : Mem) (f : Fld) (i k : Nat) : (s.setMem x).rd f i k = s.rd f i k := rfl
@[simp] theorem State.setMem_rdb (s : State) (x : Mem) (f : Fld) (i k : Nat) : (s.setMem x).rdb f i k = s.rdb f i k := rfl

/-! ### setJob -/

@[simp] theorem State.setJob_pending (s : State) (x : JobMgr) : (s.setJob x).pending = s.pending := rfl
@[simp] theorem State.setJob_out (s : State) (x : JobMgr) : (s.setJob x).out = s.out := rfl
@[simp] theorem State.setJob_draw (s : State) (x : JobMgr) : (s.setJob x).draw = s.draw := rfl
@[simp] theorem State.setJob_fuses (s : State) (x : JobMgr) : (s.setJob x).fuses = s.fuses := rfl
@[simp] theorem State.setJob_straps (s : State) (x : JobMgr) : (s.setJob x).straps = s.straps := rfl
@[simp] theorem State.setJob_regs (s : State) (x : JobMgr) : (s.setJob x).regs = s.regs := rfl
@[simp] theorem State.setJob_evt (s : State) (x : JobMgr) : (s.setJob x).evt = s.evt := rfl
@[simp] theorem State.setJob_tmu (s : State) (x : JobMgr) : (s.setJob x).tmu = s.tmu := rfl
@[simp] theorem State.setJob_near (s : State) (x : JobMgr) : (s.setJob x).near = s.near := rfl
@[simp] theorem State.setJob_bulk (s : State) (x : JobMgr) : (s.setJob x).bulk = s.bulk := rfl
@[simp] theorem State.setJob_cry (s : State) (x : JobMgr) : (s.setJob x).cry = s.cry := rfl
@[simp] theorem State.setJob_scr (s : State) (x : JobMgr) : (s.setJob x).scr = s.scr := rfl
@[simp] theorem State.setJob_ras (s : State) (x : JobMgr) : (s.setJob x).ras = s.ras := rfl
@[simp] theorem State.setJob_adm (s : State) (x : JobMgr) : (s.setJob x).adm = s.adm := rfl
@[simp] theorem State.setJob_dir (s : State) (x : JobMgr) : (s.setJob x).dir = s.dir := rfl
@[simp] theorem State.setJob_clx (s : State) (x : JobMgr) : (s.setJob x).clx = s.clx := rfl
@[simp] theorem State.setJob_job (s : State) (x : JobMgr) : (s.setJob x).job = x := rfl
@[simp] theorem State.setJob_ctl (s : State) (x : JobMgr) : (s.setJob x).ctl = s.ctl := rfl
@[simp] theorem State.setJob_mem (s : State) (x : JobMgr) : (s.setJob x).mem = s.mem := rfl
@[simp] theorem State.setJob_hlx (s : State) (x : JobMgr) : (s.setJob x).hlx = s.hlx := rfl
@[simp] theorem State.setJob_cdc (s : State) (x : JobMgr) : (s.setJob x).cdc = s.cdc := rfl
@[simp] theorem State.setJob_aon (s : State) (x : JobMgr) : (s.setJob x).aon = s.aon := rfl
@[simp] theorem State.setJob_rd (s : State) (x : JobMgr) (f : Fld) (i k : Nat) : (s.setJob x).rd f i k = s.rd f i k := rfl
@[simp] theorem State.setJob_rdb (s : State) (x : JobMgr) (f : Fld) (i k : Nat) : (s.setJob x).rdb f i k = s.rdb f i k := rfl

/-! ### setCtl -/

@[simp] theorem State.setCtl_pending (s : State) (x : Ctl) : (s.setCtl x).pending = s.pending := rfl
@[simp] theorem State.setCtl_out (s : State) (x : Ctl) : (s.setCtl x).out = s.out := rfl
@[simp] theorem State.setCtl_draw (s : State) (x : Ctl) : (s.setCtl x).draw = s.draw := rfl
@[simp] theorem State.setCtl_fuses (s : State) (x : Ctl) : (s.setCtl x).fuses = s.fuses := rfl
@[simp] theorem State.setCtl_straps (s : State) (x : Ctl) : (s.setCtl x).straps = s.straps := rfl
@[simp] theorem State.setCtl_regs (s : State) (x : Ctl) : (s.setCtl x).regs = s.regs := rfl
@[simp] theorem State.setCtl_evt (s : State) (x : Ctl) : (s.setCtl x).evt = s.evt := rfl
@[simp] theorem State.setCtl_tmu (s : State) (x : Ctl) : (s.setCtl x).tmu = s.tmu := rfl
@[simp] theorem State.setCtl_near (s : State) (x : Ctl) : (s.setCtl x).near = s.near := rfl
@[simp] theorem State.setCtl_bulk (s : State) (x : Ctl) : (s.setCtl x).bulk = s.bulk := rfl
@[simp] theorem State.setCtl_cry (s : State) (x : Ctl) : (s.setCtl x).cry = s.cry := rfl
@[simp] theorem State.setCtl_scr (s : State) (x : Ctl) : (s.setCtl x).scr = s.scr := rfl
@[simp] theorem State.setCtl_ras (s : State) (x : Ctl) : (s.setCtl x).ras = s.ras := rfl
@[simp] theorem State.setCtl_adm (s : State) (x : Ctl) : (s.setCtl x).adm = s.adm := rfl
@[simp] theorem State.setCtl_dir (s : State) (x : Ctl) : (s.setCtl x).dir = s.dir := rfl
@[simp] theorem State.setCtl_clx (s : State) (x : Ctl) : (s.setCtl x).clx = s.clx := rfl
@[simp] theorem State.setCtl_job (s : State) (x : Ctl) : (s.setCtl x).job = s.job := rfl
@[simp] theorem State.setCtl_ctl (s : State) (x : Ctl) : (s.setCtl x).ctl = x := rfl
@[simp] theorem State.setCtl_mem (s : State) (x : Ctl) : (s.setCtl x).mem = s.mem := rfl
@[simp] theorem State.setCtl_hlx (s : State) (x : Ctl) : (s.setCtl x).hlx = s.hlx := rfl
@[simp] theorem State.setCtl_cdc (s : State) (x : Ctl) : (s.setCtl x).cdc = s.cdc := rfl
@[simp] theorem State.setCtl_aon (s : State) (x : Ctl) : (s.setCtl x).aon = s.aon := rfl
@[simp] theorem State.setCtl_rd (s : State) (x : Ctl) (f : Fld) (i k : Nat) : (s.setCtl x).rd f i k = s.rd f i k := rfl
@[simp] theorem State.setCtl_rdb (s : State) (x : Ctl) (f : Fld) (i k : Nat) : (s.setCtl x).rdb f i k = s.rdb f i k := rfl

/-! ### setCdc -/

@[simp] theorem State.setCdc_pending (s : State) (x : Cdc) : (s.setCdc x).pending = s.pending := rfl
@[simp] theorem State.setCdc_out (s : State) (x : Cdc) : (s.setCdc x).out = s.out := rfl
@[simp] theorem State.setCdc_draw (s : State) (x : Cdc) : (s.setCdc x).draw = s.draw := rfl
@[simp] theorem State.setCdc_fuses (s : State) (x : Cdc) : (s.setCdc x).fuses = s.fuses := rfl
@[simp] theorem State.setCdc_straps (s : State) (x : Cdc) : (s.setCdc x).straps = s.straps := rfl
@[simp] theorem State.setCdc_regs (s : State) (x : Cdc) : (s.setCdc x).regs = s.regs := rfl
@[simp] theorem State.setCdc_evt (s : State) (x : Cdc) : (s.setCdc x).evt = s.evt := rfl
@[simp] theorem State.setCdc_tmu (s : State) (x : Cdc) : (s.setCdc x).tmu = s.tmu := rfl
@[simp] theorem State.setCdc_near (s : State) (x : Cdc) : (s.setCdc x).near = s.near := rfl
@[simp] theorem State.setCdc_bulk (s : State) (x : Cdc) : (s.setCdc x).bulk = s.bulk := rfl
@[simp] theorem State.setCdc_cry (s : State) (x : Cdc) : (s.setCdc x).cry = s.cry := rfl
@[simp] theorem State.setCdc_scr (s : State) (x : Cdc) : (s.setCdc x).scr = s.scr := rfl
@[simp] theorem State.setCdc_ras (s : State) (x : Cdc) : (s.setCdc x).ras = s.ras := rfl
@[simp] theorem State.setCdc_adm (s : State) (x : Cdc) : (s.setCdc x).adm = s.adm := rfl
@[simp] theorem State.setCdc_dir (s : State) (x : Cdc) : (s.setCdc x).dir = s.dir := rfl
@[simp] theorem State.setCdc_clx (s : State) (x : Cdc) : (s.setCdc x).clx = s.clx := rfl
@[simp] theorem State.setCdc_job (s : State) (x : Cdc) : (s.setCdc x).job = s.job := rfl
@[simp] theorem State.setCdc_ctl (s : State) (x : Cdc) : (s.setCdc x).ctl = s.ctl := rfl
@[simp] theorem State.setCdc_mem (s : State) (x : Cdc) : (s.setCdc x).mem = s.mem := rfl
@[simp] theorem State.setCdc_hlx (s : State) (x : Cdc) : (s.setCdc x).hlx = s.hlx := rfl
@[simp] theorem State.setCdc_cdc (s : State) (x : Cdc) : (s.setCdc x).cdc = x := rfl
@[simp] theorem State.setCdc_aon (s : State) (x : Cdc) : (s.setCdc x).aon = s.aon := rfl
@[simp] theorem State.setCdc_rd (s : State) (x : Cdc) (f : Fld) (i k : Nat) : (s.setCdc x).rd f i k = s.rd f i k := rfl
@[simp] theorem State.setCdc_rdb (s : State) (x : Cdc) (f : Fld) (i k : Nat) : (s.setCdc x).rdb f i k = s.rdb f i k := rfl

/-! ### setEntry -/

@[simp] theorem State.setEntry_pending (s : State) (e : Entry) : (s.setEntry e).pending = s.pending := rfl
@[simp] theorem State.setEntry_out (s : State) (e : Entry) : (s.setEntry e).out = s.out := rfl
@[simp] theorem State.setEntry_draw (s : State) (e : Entry) : (s.setEntry e).draw = s.draw := rfl
@[simp] theorem State.setEntry_fuses (s : State) (e : Entry) : (s.setEntry e).fuses = s.fuses := rfl
@[simp] theorem State.setEntry_straps (s : State) (e : Entry) : (s.setEntry e).straps = s.straps := rfl
@[simp] theorem State.setEntry_regs (s : State) (e : Entry) : (s.setEntry e).regs = s.regs := rfl
@[simp] theorem State.setEntry_evt (s : State) (e : Entry) : (s.setEntry e).evt = s.evt := rfl
@[simp] theorem State.setEntry_tmu (s : State) (e : Entry) : (s.setEntry e).tmu = s.tmu := rfl
@[simp] theorem State.setEntry_near (s : State) (e : Entry) : (s.setEntry e).near = s.near := rfl
@[simp] theorem State.setEntry_bulk (s : State) (e : Entry) : (s.setEntry e).bulk = s.bulk := rfl
@[simp] theorem State.setEntry_cry (s : State) (e : Entry) : (s.setEntry e).cry = s.cry := rfl
@[simp] theorem State.setEntry_scr (s : State) (e : Entry) : (s.setEntry e).scr = s.scr := rfl
@[simp] theorem State.setEntry_ras (s : State) (e : Entry) : (s.setEntry e).ras = s.ras := rfl
@[simp] theorem State.setEntry_adm (s : State) (e : Entry) : (s.setEntry e).adm = s.adm := rfl
@[simp] theorem State.setEntry_dir (s : State) (e : Entry) : (s.setEntry e).dir = s.dir := rfl
@[simp] theorem State.setEntry_clx (s : State) (e : Entry) : (s.setEntry e).clx = s.clx := rfl
@[simp] theorem State.setEntry_job (s : State) (e : Entry) : (s.setEntry e).job = s.job := rfl
@[simp] theorem State.setEntry_ctl (s : State) (e : Entry) : (s.setEntry e).ctl = s.ctl := rfl
@[simp] theorem State.setEntry_mem (s : State) (e : Entry) : (s.setEntry e).mem = s.mem := rfl
@[simp] theorem State.setEntry_hlx (s : State) (e : Entry) : (s.setEntry e).hlx = s.hlx := rfl
@[simp] theorem State.setEntry_cdc (s : State) (e : Entry) : (s.setEntry e).cdc = s.cdc := rfl
@[simp] theorem State.setEntry_aon (s : State) (e : Entry) : (s.setEntry e).aon = { s.aon with entry := e } := rfl
@[simp] theorem State.setEntry_rd (s : State) (e : Entry) (g : Fld) (i k : Nat) : (s.setEntry e).rd g i k = s.rd g i k := rfl
@[simp] theorem State.setEntry_rdb (s : State) (e : Entry) (g : Fld) (i k : Nat) : (s.setEntry e).rdb g i k = s.rdb g i k := rfl

/-! ### setTime -/

@[simp] theorem State.setTime_pending (s : State) (t : TimeBase) : (s.setTime t).pending = s.pending := rfl
@[simp] theorem State.setTime_out (s : State) (t : TimeBase) : (s.setTime t).out = s.out := rfl
@[simp] theorem State.setTime_draw (s : State) (t : TimeBase) : (s.setTime t).draw = s.draw := rfl
@[simp] theorem State.setTime_fuses (s : State) (t : TimeBase) : (s.setTime t).fuses = s.fuses := rfl
@[simp] theorem State.setTime_straps (s : State) (t : TimeBase) : (s.setTime t).straps = s.straps := rfl
@[simp] theorem State.setTime_regs (s : State) (t : TimeBase) : (s.setTime t).regs = s.regs := rfl
@[simp] theorem State.setTime_evt (s : State) (t : TimeBase) : (s.setTime t).evt = s.evt := rfl
@[simp] theorem State.setTime_tmu (s : State) (t : TimeBase) : (s.setTime t).tmu = s.tmu := rfl
@[simp] theorem State.setTime_near (s : State) (t : TimeBase) : (s.setTime t).near = s.near := rfl
@[simp] theorem State.setTime_bulk (s : State) (t : TimeBase) : (s.setTime t).bulk = s.bulk := rfl
@[simp] theorem State.setTime_cry (s : State) (t : TimeBase) : (s.setTime t).cry = s.cry := rfl
@[simp] theorem State.setTime_scr (s : State) (t : TimeBase) : (s.setTime t).scr = s.scr := rfl
@[simp] theorem State.setTime_ras (s : State) (t : TimeBase) : (s.setTime t).ras = s.ras := rfl
@[simp] theorem State.setTime_adm (s : State) (t : TimeBase) : (s.setTime t).adm = s.adm := rfl
@[simp] theorem State.setTime_dir (s : State) (t : TimeBase) : (s.setTime t).dir = s.dir := rfl
@[simp] theorem State.setTime_clx (s : State) (t : TimeBase) : (s.setTime t).clx = s.clx := rfl
@[simp] theorem State.setTime_job (s : State) (t : TimeBase) : (s.setTime t).job = s.job := rfl
@[simp] theorem State.setTime_ctl (s : State) (t : TimeBase) : (s.setTime t).ctl = s.ctl := rfl
@[simp] theorem State.setTime_mem (s : State) (t : TimeBase) : (s.setTime t).mem = s.mem := rfl
@[simp] theorem State.setTime_hlx (s : State) (t : TimeBase) : (s.setTime t).hlx = s.hlx := rfl
@[simp] theorem State.setTime_cdc (s : State) (t : TimeBase) : (s.setTime t).cdc = s.cdc := rfl
@[simp] theorem State.setTime_aon (s : State) (t : TimeBase) : (s.setTime t).aon = { s.aon with time := t } := rfl
@[simp] theorem State.setTime_rd (s : State) (t : TimeBase) (g : Fld) (i k : Nat) : (s.setTime t).rd g i k = s.rd g i k := rfl
@[simp] theorem State.setTime_rdb (s : State) (t : TimeBase) (g : Fld) (i k : Nat) : (s.setTime t).rdb g i k = s.rdb g i k := rfl

/-! ### drawn -/

@[simp] theorem State.drawn_pending (s : State)  : (s.drawn).pending = s.pending := rfl
@[simp] theorem State.drawn_out (s : State)  : (s.drawn).out = s.out := rfl
@[simp] theorem State.drawn_draw (s : State)  : (s.drawn).draw = s.draw + 1 := rfl
@[simp] theorem State.drawn_fuses (s : State)  : (s.drawn).fuses = s.fuses := rfl
@[simp] theorem State.drawn_straps (s : State)  : (s.drawn).straps = s.straps := rfl
@[simp] theorem State.drawn_regs (s : State)  : (s.drawn).regs = s.regs := rfl
@[simp] theorem State.drawn_evt (s : State)  : (s.drawn).evt = s.evt := rfl
@[simp] theorem State.drawn_tmu (s : State)  : (s.drawn).tmu = s.tmu := rfl
@[simp] theorem State.drawn_near (s : State)  : (s.drawn).near = s.near := rfl
@[simp] theorem State.drawn_bulk (s : State)  : (s.drawn).bulk = s.bulk := rfl
@[simp] theorem State.drawn_cry (s : State)  : (s.drawn).cry = s.cry := rfl
@[simp] theorem State.drawn_scr (s : State)  : (s.drawn).scr = s.scr := rfl
@[simp] theorem State.drawn_ras (s : State)  : (s.drawn).ras = s.ras := rfl
@[simp] theorem State.drawn_adm (s : State)  : (s.drawn).adm = s.adm := rfl
@[simp] theorem State.drawn_dir (s : State)  : (s.drawn).dir = s.dir := rfl
@[simp] theorem State.drawn_clx (s : State)  : (s.drawn).clx = s.clx := rfl
@[simp] theorem State.drawn_job (s : State)  : (s.drawn).job = s.job := rfl
@[simp] theorem State.drawn_ctl (s : State)  : (s.drawn).ctl = s.ctl := rfl
@[simp] theorem State.drawn_mem (s : State)  : (s.drawn).mem = s.mem := rfl
@[simp] theorem State.drawn_hlx (s : State)  : (s.drawn).hlx = s.hlx := rfl
@[simp] theorem State.drawn_cdc (s : State)  : (s.drawn).cdc = s.cdc := rfl
@[simp] theorem State.drawn_aon (s : State)  : (s.drawn).aon = s.aon := rfl
@[simp] theorem State.drawn_rd (s : State)  (g : Fld) (i k : Nat) : (s.drawn).rd g i k = s.rd g i k := rfl
@[simp] theorem State.drawn_rdb (s : State)  (g : Fld) (i k : Nat) : (s.drawn).rdb g i k = s.rdb g i k := rfl

/-! ### emit -/

@[simp] theorem State.emit_pending (s : State) (o : Out) : (s.emit o).pending = s.pending := rfl
@[simp] theorem State.emit_out (s : State) (o : Out) : (s.emit o).out = s.out ++ [o] := rfl
@[simp] theorem State.emit_draw (s : State) (o : Out) : (s.emit o).draw = s.draw := rfl
@[simp] theorem State.emit_fuses (s : State) (o : Out) : (s.emit o).fuses = s.fuses := rfl
@[simp] theorem State.emit_straps (s : State) (o : Out) : (s.emit o).straps = s.straps := rfl
@[simp] theorem State.emit_regs (s : State) (o : Out) : (s.emit o).regs = s.regs := rfl
@[simp] theorem State.emit_evt (s : State) (o : Out) : (s.emit o).evt = s.evt := rfl
@[simp] theorem State.emit_tmu (s : State) (o : Out) : (s.emit o).tmu = s.tmu := rfl
@[simp] theorem State.emit_near (s : State) (o : Out) : (s.emit o).near = s.near := rfl
@[simp] theorem State.emit_bulk (s : State) (o : Out) : (s.emit o).bulk = s.bulk := rfl
@[simp] theorem State.emit_cry (s : State) (o : Out) : (s.emit o).cry = s.cry := rfl
@[simp] theorem State.emit_scr (s : State) (o : Out) : (s.emit o).scr = s.scr := rfl
@[simp] theorem State.emit_ras (s : State) (o : Out) : (s.emit o).ras = s.ras := rfl
@[simp] theorem State.emit_adm (s : State) (o : Out) : (s.emit o).adm = s.adm := rfl
@[simp] theorem State.emit_dir (s : State) (o : Out) : (s.emit o).dir = s.dir := rfl
@[simp] theorem State.emit_clx (s : State) (o : Out) : (s.emit o).clx = s.clx := rfl
@[simp] theorem State.emit_job (s : State) (o : Out) : (s.emit o).job = s.job := rfl
@[simp] theorem State.emit_ctl (s : State) (o : Out) : (s.emit o).ctl = s.ctl := rfl
@[simp] theorem State.emit_mem (s : State) (o : Out) : (s.emit o).mem = s.mem := rfl
@[simp] theorem State.emit_hlx (s : State) (o : Out) : (s.emit o).hlx = s.hlx := rfl
@[simp] theorem State.emit_cdc (s : State) (o : Out) : (s.emit o).cdc = s.cdc := rfl
@[simp] theorem State.emit_aon (s : State) (o : Out) : (s.emit o).aon = s.aon := rfl
@[simp] theorem State.emit_rd (s : State) (o : Out) (g : Fld) (i k : Nat) : (s.emit o).rd g i k = s.rd g i k := rfl
@[simp] theorem State.emit_rdb (s : State) (o : Out) (g : Fld) (i k : Nat) : (s.emit o).rdb g i k = s.rdb g i k := rfl

/-! ### wrAt -/

@[simp] theorem State.wrAt_pending (s : State) (f : Fld) (i k v : Nat) : (s.wrAt f i k v).pending = s.pending := rfl
@[simp] theorem State.wrAt_out (s : State) (f : Fld) (i k v : Nat) : (s.wrAt f i k v).out = s.out := rfl
@[simp] theorem State.wrAt_draw (s : State) (f : Fld) (i k v : Nat) : (s.wrAt f i k v).draw = s.draw := rfl
@[simp] theorem State.wrAt_fuses (s : State) (f : Fld) (i k v : Nat) : (s.wrAt f i k v).fuses = s.fuses := rfl
@[simp] theorem State.wrAt_straps (s : State) (f : Fld) (i k v : Nat) : (s.wrAt f i k v).straps = s.straps := rfl
@[simp] theorem State.wrAt_evt (s : State) (f : Fld) (i k v : Nat) : (s.wrAt f i k v).evt = s.evt := rfl
@[simp] theorem State.wrAt_tmu (s : State) (f : Fld) (i k v : Nat) : (s.wrAt f i k v).tmu = s.tmu := rfl
@[simp] theorem State.wrAt_near (s : State) (f : Fld) (i k v : Nat) : (s.wrAt f i k v).near = s.near := rfl
@[simp] theorem State.wrAt_bulk (s : State) (f : Fld) (i k v : Nat) : (s.wrAt f i k v).bulk = s.bulk := rfl
@[simp] theorem State.wrAt_cry (s : State) (f : Fld) (i k v : Nat) : (s.wrAt f i k v).cry = s.cry := rfl
@[simp] theorem State.wrAt_scr (s : State) (f : Fld) (i k v : Nat) : (s.wrAt f i k v).scr = s.scr := rfl
@[simp] theorem State.wrAt_ras (s : State) (f : Fld) (i k v : Nat) : (s.wrAt f i k v).ras = s.ras := rfl
@[simp] theorem State.wrAt_adm (s : State) (f : Fld) (i k v : Nat) : (s.wrAt f i k v).adm = s.adm := rfl
@[simp] theorem State.wrAt_dir (s : State) (f : Fld) (i k v : Nat) : (s.wrAt f i k v).dir = s.dir := rfl
@[simp] theorem State.wrAt_clx (s : State) (f : Fld) (i k v : Nat) : (s.wrAt f i k v).clx = s.clx := rfl
@[simp] theorem State.wrAt_job (s : State) (f : Fld) (i k v : Nat) : (s.wrAt f i k v).job = s.job := rfl
@[simp] theorem State.wrAt_ctl (s : State) (f : Fld) (i k v : Nat) : (s.wrAt f i k v).ctl = s.ctl := rfl
@[simp] theorem State.wrAt_mem (s : State) (f : Fld) (i k v : Nat) : (s.wrAt f i k v).mem = s.mem := rfl
@[simp] theorem State.wrAt_hlx (s : State) (f : Fld) (i k v : Nat) : (s.wrAt f i k v).hlx = s.hlx := rfl
@[simp] theorem State.wrAt_cdc (s : State) (f : Fld) (i k v : Nat) : (s.wrAt f i k v).cdc = s.cdc := rfl
@[simp] theorem State.wrAt_aon (s : State) (f : Fld) (i k v : Nat) : (s.wrAt f i k v).aon = s.aon := rfl

/-! ### wr -/

@[simp] theorem State.wr_pending (s : State) (f : Fld) (v : Nat) : (s.wr f v).pending = s.pending := rfl
@[simp] theorem State.wr_out (s : State) (f : Fld) (v : Nat) : (s.wr f v).out = s.out := rfl
@[simp] theorem State.wr_draw (s : State) (f : Fld) (v : Nat) : (s.wr f v).draw = s.draw := rfl
@[simp] theorem State.wr_fuses (s : State) (f : Fld) (v : Nat) : (s.wr f v).fuses = s.fuses := rfl
@[simp] theorem State.wr_straps (s : State) (f : Fld) (v : Nat) : (s.wr f v).straps = s.straps := rfl
@[simp] theorem State.wr_evt (s : State) (f : Fld) (v : Nat) : (s.wr f v).evt = s.evt := rfl
@[simp] theorem State.wr_tmu (s : State) (f : Fld) (v : Nat) : (s.wr f v).tmu = s.tmu := rfl
@[simp] theorem State.wr_near (s : State) (f : Fld) (v : Nat) : (s.wr f v).near = s.near := rfl
@[simp] theorem State.wr_bulk (s : State) (f : Fld) (v : Nat) : (s.wr f v).bulk = s.bulk := rfl
@[simp] theorem State.wr_cry (s : State) (f : Fld) (v : Nat) : (s.wr f v).cry = s.cry := rfl
@[simp] theorem State.wr_scr (s : State) (f : Fld) (v : Nat) : (s.wr f v).scr = s.scr := rfl
@[simp] theorem State.wr_ras (s : State) (f : Fld) (v : Nat) : (s.wr f v).ras = s.ras := rfl
@[simp] theorem State.wr_adm (s : State) (f : Fld) (v : Nat) : (s.wr f v).adm = s.adm := rfl
@[simp] theorem State.wr_dir (s : State) (f : Fld) (v : Nat) : (s.wr f v).dir = s.dir := rfl
@[simp] theorem State.wr_clx (s : State) (f : Fld) (v : Nat) : (s.wr f v).clx = s.clx := rfl
@[simp] theorem State.wr_job (s : State) (f : Fld) (v : Nat) : (s.wr f v).job = s.job := rfl
@[simp] theorem State.wr_ctl (s : State) (f : Fld) (v : Nat) : (s.wr f v).ctl = s.ctl := rfl
@[simp] theorem State.wr_mem (s : State) (f : Fld) (v : Nat) : (s.wr f v).mem = s.mem := rfl
@[simp] theorem State.wr_hlx (s : State) (f : Fld) (v : Nat) : (s.wr f v).hlx = s.hlx := rfl
@[simp] theorem State.wr_cdc (s : State) (f : Fld) (v : Nat) : (s.wr f v).cdc = s.cdc := rfl
@[simp] theorem State.wr_aon (s : State) (f : Fld) (v : Nat) : (s.wr f v).aon = s.aon := rfl

/-! ### wrI -/

@[simp] theorem State.wrI_pending (s : State) (f : Fld) (i v : Nat) : (s.wrI f i v).pending = s.pending := rfl
@[simp] theorem State.wrI_out (s : State) (f : Fld) (i v : Nat) : (s.wrI f i v).out = s.out := rfl
@[simp] theorem State.wrI_draw (s : State) (f : Fld) (i v : Nat) : (s.wrI f i v).draw = s.draw := rfl
@[simp] theorem State.wrI_fuses (s : State) (f : Fld) (i v : Nat) : (s.wrI f i v).fuses = s.fuses := rfl
@[simp] theorem State.wrI_straps (s : State) (f : Fld) (i v : Nat) : (s.wrI f i v).straps = s.straps := rfl
@[simp] theorem State.wrI_evt (s : State) (f : Fld) (i v : Nat) : (s.wrI f i v).evt = s.evt := rfl
@[simp] theorem State.wrI_tmu (s : State) (f : Fld) (i v : Nat) : (s.wrI f i v).tmu = s.tmu := rfl
@[simp] theorem State.wrI_near (s : State) (f : Fld) (i v : Nat) : (s.wrI f i v).near = s.near := rfl
@[simp] theorem State.wrI_bulk (s : State) (f : Fld) (i v : Nat) : (s.wrI f i v).bulk = s.bulk := rfl
@[simp] theorem State.wrI_cry (s : State) (f : Fld) (i v : Nat) : (s.wrI f i v).cry = s.cry := rfl
@[simp] theorem State.wrI_scr (s : State) (f : Fld) (i v : Nat) : (s.wrI f i v).scr = s.scr := rfl
@[simp] theorem State.wrI_ras (s : State) (f : Fld) (i v : Nat) : (s.wrI f i v).ras = s.ras := rfl
@[simp] theorem State.wrI_adm (s : State) (f : Fld) (i v : Nat) : (s.wrI f i v).adm = s.adm := rfl
@[simp] theorem State.wrI_dir (s : State) (f : Fld) (i v : Nat) : (s.wrI f i v).dir = s.dir := rfl
@[simp] theorem State.wrI_clx (s : State) (f : Fld) (i v : Nat) : (s.wrI f i v).clx = s.clx := rfl
@[simp] theorem State.wrI_job (s : State) (f : Fld) (i v : Nat) : (s.wrI f i v).job = s.job := rfl
@[simp] theorem State.wrI_ctl (s : State) (f : Fld) (i v : Nat) : (s.wrI f i v).ctl = s.ctl := rfl
@[simp] theorem State.wrI_mem (s : State) (f : Fld) (i v : Nat) : (s.wrI f i v).mem = s.mem := rfl
@[simp] theorem State.wrI_hlx (s : State) (f : Fld) (i v : Nat) : (s.wrI f i v).hlx = s.hlx := rfl
@[simp] theorem State.wrI_cdc (s : State) (f : Fld) (i v : Nat) : (s.wrI f i v).cdc = s.cdc := rfl
@[simp] theorem State.wrI_aon (s : State) (f : Fld) (i v : Nat) : (s.wrI f i v).aon = s.aon := rfl

/-! ### A replaced field -/

@[simp] theorem State.rd_with_pending (s : State) (x : List Instr) (f : Fld) (i k : Nat) :
    State.rd { s with pending := x } f i k = s.rd f i k := rfl
@[simp] theorem State.rdb_with_pending (s : State) (x : List Instr) (f : Fld) (i k : Nat) :
    State.rdb { s with pending := x } f i k = s.rdb f i k := rfl
@[simp] theorem State.rd_with_out (s : State) (x : List Out) (f : Fld) (i k : Nat) :
    State.rd { s with out := x } f i k = s.rd f i k := rfl
@[simp] theorem State.rdb_with_out (s : State) (x : List Out) (f : Fld) (i k : Nat) :
    State.rdb { s with out := x } f i k = s.rdb f i k := rfl
@[simp] theorem State.rd_with_draw (s : State) (x : Nat) (f : Fld) (i k : Nat) :
    State.rd { s with draw := x } f i k = s.rd f i k := rfl
@[simp] theorem State.rdb_with_draw (s : State) (x : Nat) (f : Fld) (i k : Nat) :
    State.rdb { s with draw := x } f i k = s.rdb f i k := rfl
@[simp] theorem State.rd_with_fuses (s : State) (x : Fuses) (f : Fld) (i k : Nat) :
    State.rd { s with fuses := x } f i k = s.rd f i k := rfl
@[simp] theorem State.rdb_with_fuses (s : State) (x : Fuses) (f : Fld) (i k : Nat) :
    State.rdb { s with fuses := x } f i k = s.rdb f i k := rfl
@[simp] theorem State.rd_with_straps (s : State) (x : Straps) (f : Fld) (i k : Nat) :
    State.rd { s with straps := x } f i k = s.rd f i k := rfl
@[simp] theorem State.rdb_with_straps (s : State) (x : Straps) (f : Fld) (i k : Nat) :
    State.rdb { s with straps := x } f i k = s.rdb f i k := rfl
@[simp] theorem State.rd_with_evt (s : State) (x : Evt) (f : Fld) (i k : Nat) :
    State.rd { s with evt := x } f i k = s.rd f i k := rfl
@[simp] theorem State.rdb_with_evt (s : State) (x : Evt) (f : Fld) (i k : Nat) :
    State.rdb { s with evt := x } f i k = s.rdb f i k := rfl
@[simp] theorem State.rd_with_tmu (s : State) (x : Tmu) (f : Fld) (i k : Nat) :
    State.rd { s with tmu := x } f i k = s.rd f i k := rfl
@[simp] theorem State.rdb_with_tmu (s : State) (x : Tmu) (f : Fld) (i k : Nat) :
    State.rdb { s with tmu := x } f i k = s.rdb f i k := rfl
@[simp] theorem State.rd_with_near (s : State) (x : Near) (f : Fld) (i k : Nat) :
    State.rd { s with near := x } f i k = s.rd f i k := rfl
@[simp] theorem State.rdb_with_near (s : State) (x : Near) (f : Fld) (i k : Nat) :
    State.rdb { s with near := x } f i k = s.rdb f i k := rfl
@[simp] theorem State.rd_with_bulk (s : State) (x : Bulk) (f : Fld) (i k : Nat) :
    State.rd { s with bulk := x } f i k = s.rd f i k := rfl
@[simp] theorem State.rdb_with_bulk (s : State) (x : Bulk) (f : Fld) (i k : Nat) :
    State.rdb { s with bulk := x } f i k = s.rdb f i k := rfl
@[simp] theorem State.rd_with_cry (s : State) (x : Cry) (f : Fld) (i k : Nat) :
    State.rd { s with cry := x } f i k = s.rd f i k := rfl
@[simp] theorem State.rdb_with_cry (s : State) (x : Cry) (f : Fld) (i k : Nat) :
    State.rdb { s with cry := x } f i k = s.rdb f i k := rfl
@[simp] theorem State.rd_with_scr (s : State) (x : Scr) (f : Fld) (i k : Nat) :
    State.rd { s with scr := x } f i k = s.rd f i k := rfl
@[simp] theorem State.rdb_with_scr (s : State) (x : Scr) (f : Fld) (i k : Nat) :
    State.rdb { s with scr := x } f i k = s.rdb f i k := rfl
@[simp] theorem State.rd_with_ras (s : State) (x : Ras) (f : Fld) (i k : Nat) :
    State.rd { s with ras := x } f i k = s.rd f i k := rfl
@[simp] theorem State.rdb_with_ras (s : State) (x : Ras) (f : Fld) (i k : Nat) :
    State.rdb { s with ras := x } f i k = s.rdb f i k := rfl
@[simp] theorem State.rd_with_adm (s : State) (x : Adm) (f : Fld) (i k : Nat) :
    State.rd { s with adm := x } f i k = s.rd f i k := rfl
@[simp] theorem State.rdb_with_adm (s : State) (x : Adm) (f : Fld) (i k : Nat) :
    State.rdb { s with adm := x } f i k = s.rdb f i k := rfl
@[simp] theorem State.rd_with_dir (s : State) (x : Dir) (f : Fld) (i k : Nat) :
    State.rd { s with dir := x } f i k = s.rd f i k := rfl
@[simp] theorem State.rdb_with_dir (s : State) (x : Dir) (f : Fld) (i k : Nat) :
    State.rdb { s with dir := x } f i k = s.rdb f i k := rfl
@[simp] theorem State.rd_with_clx (s : State) (x : Clx) (f : Fld) (i k : Nat) :
    State.rd { s with clx := x } f i k = s.rd f i k := rfl
@[simp] theorem State.rdb_with_clx (s : State) (x : Clx) (f : Fld) (i k : Nat) :
    State.rdb { s with clx := x } f i k = s.rdb f i k := rfl
@[simp] theorem State.rd_with_job (s : State) (x : JobMgr) (f : Fld) (i k : Nat) :
    State.rd { s with job := x } f i k = s.rd f i k := rfl
@[simp] theorem State.rdb_with_job (s : State) (x : JobMgr) (f : Fld) (i k : Nat) :
    State.rdb { s with job := x } f i k = s.rdb f i k := rfl
@[simp] theorem State.rd_with_ctl (s : State) (x : Ctl) (f : Fld) (i k : Nat) :
    State.rd { s with ctl := x } f i k = s.rd f i k := rfl
@[simp] theorem State.rdb_with_ctl (s : State) (x : Ctl) (f : Fld) (i k : Nat) :
    State.rdb { s with ctl := x } f i k = s.rdb f i k := rfl
@[simp] theorem State.rd_with_mem (s : State) (x : Mem) (f : Fld) (i k : Nat) :
    State.rd { s with mem := x } f i k = s.rd f i k := rfl
@[simp] theorem State.rdb_with_mem (s : State) (x : Mem) (f : Fld) (i k : Nat) :
    State.rdb { s with mem := x } f i k = s.rdb f i k := rfl
@[simp] theorem State.rd_with_hlx (s : State) (x : Hlx) (f : Fld) (i k : Nat) :
    State.rd { s with hlx := x } f i k = s.rd f i k := rfl
@[simp] theorem State.rdb_with_hlx (s : State) (x : Hlx) (f : Fld) (i k : Nat) :
    State.rdb { s with hlx := x } f i k = s.rdb f i k := rfl
@[simp] theorem State.rd_with_cdc (s : State) (x : Cdc) (f : Fld) (i k : Nat) :
    State.rd { s with cdc := x } f i k = s.rd f i k := rfl
@[simp] theorem State.rdb_with_cdc (s : State) (x : Cdc) (f : Fld) (i k : Nat) :
    State.rdb { s with cdc := x } f i k = s.rdb f i k := rfl
@[simp] theorem State.rd_with_aon (s : State) (x : Aon) (f : Fld) (i k : Nat) :
    State.rd { s with aon := x } f i k = s.rd f i k := rfl
@[simp] theorem State.rdb_with_aon (s : State) (x : Aon) (f : Fld) (i k : Nat) :
    State.rdb { s with aon := x } f i k = s.rdb f i k := rfl

end Sys2Proof.Machine
end

