-- ==== Sys2Proof/Laws/Regs.lean ====
section
/-!
SUPPORT. Laws/Regs.lean: what the shared operations of Machine/Ops.lean do to the sparse map and to the register fields:
a field just written reads as what was written, and every other one reads as before.
-/
namespace Sys2Proof.Machine
open Sys2Proof.Safety

/-! ## The sparse map -/

theorem mget_mput_same {α : Type} (m : List (Nat × α)) (k : Nat) (v : α) : mget (mput m k v) k = some v := by
  induction m with
  | nil => simp [mput, mget]
  | cons e m ih =>
    obtain ⟨k', v'⟩ := e
    by_cases h : k < k'
    · simp [mput, h, mget]
    · by_cases h2 : k = k' <;> simp [mput, h, h2, mget, ih]

theorem mget_mput_ne {α : Type} (m : List (Nat × α)) {k j : Nat} (v : α) (h : j ≠ k) :
    mget (mput m k v) j = mget m j := by
  induction m with
  | nil => simp [mput, mget, h]
  | cons e m ih =>
    obtain ⟨k', v'⟩ := e
    by_cases h1 : k < k'
    · simp [mput, h1, mget, h]
    · by_cases h2 : k = k'
      · subst h2; simp [mput, mget, h]
      · simp only [mput, h1, h2, if_false, mget]
        split <;> simp_all

theorem mget_mdel_same {α : Type} (m : List (Nat × α)) (k : Nat) : mget (mdel m k) k = none := by
  induction m with
  | nil => rfl
  | cons e m ih =>
    obtain ⟨k', v'⟩ := e
    by_cases h : k' = k
    · simpa [mdel, h] using ih
    · have h' : k ≠ k' := fun x => h x.symm
      simpa [mdel, h, mget, h'] using ih

theorem mget_mdel_ne {α : Type} (m : List (Nat × α)) {k j : Nat} (h : j ≠ k) : mget (mdel m k) j = mget m j := by
  induction m with
  | nil => rfl
  | cons e m ih =>
    obtain ⟨k', v'⟩ := e
    by_cases h1 : k' = k
    · subst h1; simpa [mdel, mget, h] using ih
    · simp only [mdel] at ih
      simp only [mdel, List.filter_cons, h1, ne_eq, not_false_eq_true, decide_true, if_true, mget, ih]

theorem mget_mset_ne {α : Type} [DecidableEq α] (d : α) (m : List (Nat × α)) {k j : Nat} (v : α) (h : j ≠ k) :
    mget (mset d m k v) j = mget m j := by
  unfold mset; split
  · exact mget_mdel_ne m h
  · exact mget_mput_ne m v h

theorem mgetD_mset_same {α : Type} [DecidableEq α] (d : α) (m : List (Nat × α)) (k : Nat) (v : α) :
    mgetD (mset d m k v) k d = v := by
  unfold mset mgetD; split
  · simp [mget_mdel_same, *]
  · simp [mget_mput_same]

theorem mgetD_mset_ne {α : Type} [DecidableEq α] (d d' : α) (m : List (Nat × α)) {k j : Nat} (v : α) (h : j ≠ k) :
    mgetD (mset d m k v) j d' = mgetD m j d' := by
  unfold mgetD; rw [mget_mset_ne d m v h]

/-! ## One field -/

@[simp] theorem State.rd_wrAt_same (s : State) (f : Fld) (i k v : Nat) :
    (s.wrAt f i k v).rd f i k = v % 2 ^ f.width := mgetD_mset_same ..

theorem State.rd_wrAt_ne (s : State) (f g : Fld) (i k j l v : Nat) (h : g.key j l ≠ f.key i k) :
    (s.wrAt f i k v).rd g j l = s.rd g j l := mgetD_mset_ne _ _ _ _ h

@[simp] theorem State.rd_wr_same (s : State) (f : Fld) (v : Nat) : (s.wr f v).rd f = v % 2 ^ f.width :=
  s.rd_wrAt_same f 0 0 v

theorem State.rd_wr_ne (s : State) (f g : Fld) (j l v : Nat) (h : g.key j l ≠ f.key 0 0) :
    (s.wr f v).rd g j l = s.rd g j l := s.rd_wrAt_ne f g 0 0 j l v h

@[simp] theorem State.rd_wrI_same (s : State) (f : Fld) (i v : Nat) : (s.wrI f i v).rd f i = v % 2 ^ f.width :=
  s.rd_wrAt_same f i 0 v

theorem State.rd_wrI_ne (s : State) (f g : Fld) (i j l v : Nat) (h : g.key j l ≠ f.key i 0) :
    (s.wrI f i v).rd g j l = s.rd g j l := s.rd_wrAt_ne f g i 0 j l v h

/-! ## Raises -/

/-- Holding a raise changes EVT's data only. -/
theorem State.hold_shape (s : State) (r : Raise) : ∃ e, s.hold r = { s with evt := e } := by
  unfold State.hold
  by_cases h : s.rd F.AON_PWR_MODE_CUR = 3 ∧ s.aon.entry.stage ≠ 5
  · rw [if_pos h]
    by_cases h2 : r.src < 16
    · rw [if_pos h2]; exact ⟨_, rfl⟩
    · rw [if_neg h2]; exact ⟨s.evt, rfl⟩
  · rw [if_neg h]; exact ⟨_, rfl⟩

/-- A raise changes EVT_RAW of its page and EVT's data, nothing else. -/
theorem State.raise_shape (s : State) (c : Cause) (r q : Option Nat) (hs : List (Nat × Option Nat)) :
    ∃ e, s.raise c r q hs = { s.setCause c with evt := e } := by
  simp only [State.raise]
  by_cases h : (s.evtEn c.blk c.page).testBit c.bit = true
  · rw [if_pos h]; exact State.hold_shape _ _
  · rw [if_neg h]; exact ⟨(s.setCause c).evt, rfl⟩

theorem State.rd_raise_ne (s : State) (c : Cause) (r q : Option Nat) (hs : List (Nat × Option Nat)) (g : Fld) (j l : Nat)
    (h : g.key j l ≠ (F.EVT_RAW_CAUSE c.blk).key c.page 0) : (s.raise c r q hs).rd g j l = s.rd g j l := by
  obtain ⟨e, he⟩ := s.raise_shape c r q hs
  rw [he, State.rd_with_evt]; exact State.rd_wrAt_ne _ _ _ _ _ _ _ _ h

/-- The cause bit reads as set after a raise. -/
theorem State.rd_raise_raw (s : State) (c : Cause) (r q : Option Nat) (hs : List (Nat × Option Nat)) :
    (s.raise c r q hs).rd (F.EVT_RAW_CAUSE c.blk) c.page =
      (s.rd (F.EVT_RAW_CAUSE c.blk) c.page ||| 2 ^ c.bit) % 2 ^ 64 := by
  obtain ⟨e, he⟩ := s.raise_shape c r q hs
  rw [he, State.rd_with_evt]; exact State.rd_wrI_same _ _ _ _

/-- While its EVT_EN bit is 1 and the unit is not in P3, the source is raised at the next tick. -/
theorem State.raise_raises (s : State) (c : Cause) (r q : Option Nat) (hs : List (Nat × Option Nat))
    (h : (s.evtEn c.blk c.page).testBit c.bit = true) (h3 : (s.setCause c).rd F.AON_PWR_MODE_CUR ≠ 3) :
    (s.raise c r q hs).evt.raises = s.evt.raises ++
      [{ src := c.src, blk := c.blk, page := c.page, bits := 2 ^ c.bit, region := r, queue := q, heads := hs }] := by
  simp only [State.raise]
  rw [if_pos h]
  unfold State.hold
  rw [if_neg (fun x => h3 x.1)]
  rfl

/-! ## Counters -/

/-- s and t differ in the register fields under the keys of K and in EVT's data alone. -/
def onlyRegs (K : Nat → Prop) (s t : State) : Prop :=
  (∃ r e, t = { s with regs := r, evt := e }) ∧ ∀ k, ¬ K k → mget t.regs k = mget s.regs k

theorem onlyRegs.refl (K : Nat → Prop) (s : State) : onlyRegs K s s := ⟨⟨s.regs, s.evt, rfl⟩, fun _ _ => rfl⟩

theorem onlyRegs.trans {K : Nat → Prop} {s t u : State} (h : onlyRegs K s t) (h' : onlyRegs K t u) : onlyRegs K s u := by
  obtain ⟨⟨r, e, rfl⟩, hk⟩ := h
  obtain ⟨⟨r', e', rfl⟩, hk'⟩ := h'
  exact ⟨⟨r', e', rfl⟩, fun k hn => (hk' k hn).trans (hk k hn)⟩

theorem onlyRegs.mono {K L : Nat → Prop} {s t : State} (h : onlyRegs K s t) (hkl : ∀ k, K k → L k) : onlyRegs L s t :=
  ⟨h.1, fun k hn => h.2 k (fun x => hn (hkl k x))⟩

theorem onlyRegs.rd {K : Nat → Prop} {s t : State} (h : onlyRegs K s t) (g : Fld) (j l : Nat) (hg : ¬ K (g.key j l)) :
    t.rd g j l = s.rd g j l := by
  unfold State.rd mgetD; rw [h.2 _ hg]

theorem onlyRegs.wrAt (K : Nat → Prop) (s : State) (f : Fld) (i k v : Nat) (h : K (f.key i k)) :
    onlyRegs K s (s.wrAt f i k v) :=
  ⟨⟨_, s.evt, rfl⟩, fun _ hj => mget_mset_ne _ _ _ (fun e => hj (e ▸ h))⟩

theorem onlyRegs.raise (K : Nat → Prop) (s : State) (c : Cause) (r q : Option Nat) (hs : List (Nat × Option Nat))
    (h : K ((F.EVT_RAW_CAUSE c.blk).key c.page 0)) : onlyRegs K s (s.raise c r q hs) := by
  obtain ⟨e, he⟩ := s.raise_shape c r q hs
  rw [he]
  exact (onlyRegs.wrAt K s _ _ _ _ h).trans ⟨⟨(s.setCause c).regs, e, rfl⟩, fun _ _ => rfl⟩

theorem onlyRegs.foldl {α : Type} (K : Nat → Prop) (f : State → α → State) (l : List α) (s : State)
    (h : ∀ s, ∀ x ∈ l, onlyRegs K s (f s x)) : onlyRegs K s (l.foldl f s) := by
  induction l generalizing s with
  | nil => exact onlyRegs.refl K s
  | cons x l ih =>
    exact (h s x (by simp)).trans (ih _ (fun s y hy => h s y (by simp [hy])))

theorem onlyRegs.pmuCount (K : Nat → Prop) (s : State) (b k n : Nat) (hb : b < 14) (hk : k < 6)
    (h : ∀ key, InBlock 14 key → K key) : onlyRegs K s (s.pmuCount b k n) := by
  have h1 : K (F.PMU_CNT_COUNT.key b k) := h _ (by
    simp only [InBlock, Fld.key, Fld.addr, F.PMU_CNT_COUNT]; omega)
  have h2 : K (F.PMU_OVF_OVF.key b 0) := h _ (by
    simp only [InBlock, Fld.key, Fld.addr, F.PMU_OVF_OVF]; omega)
  have h3 : K ((F.EVT_RAW_CAUSE 14).key 14 0) := h _ (by decide)
  simp only [State.pmuCount]
  by_cases hv : s.rd F.PMU_CNT_COUNT b k + n < 2 ^ 48
  · rw [if_pos hv]; exact onlyRegs.wrAt K s _ _ _ _ h1
  · rw [if_neg hv]
    have a := (onlyRegs.wrAt K s F.PMU_CNT_COUNT b k (s.rd F.PMU_CNT_COUNT b k + n) h1).trans
      (onlyRegs.wrAt K _ F.PMU_OVF_OVF b 0 (setBit ((s.wrAt F.PMU_CNT_COUNT b k
        (s.rd F.PMU_CNT_COUNT b k + n)).rd F.PMU_OVF_OVF b) k) h2)
    split
    · exact a.trans (onlyRegs.raise K _ ⟨14, 14, 1, 255⟩ none none [] h3)
    · exact a

theorem onlyRegs.pmuAdvance (K : Nat → Prop) (s : State) (f : Fld) (i k n : Nat) (cls : Option Nat) (hf : f.blk < 14)
    (h : ∀ key, InBlock 14 key → K key) : onlyRegs K s (s.pmuAdvance f i k n cls) := by
  refine onlyRegs.foldl K _ _ s (fun s c hc => ?_)
  split
  · exact onlyRegs.pmuCount K s _ _ _ hf (by simpa using hc) h
  · exact onlyRegs.refl K s

theorem onlyRegs.copyAdvance (K : Nat → Prop) (s : State) (f : Fld) (i k n : Nat) :
    onlyRegs K s (s.copyAdvance f i k n) := by
  unfold State.copyAdvance
  split
  · exact ⟨⟨s.regs, _, rfl⟩, fun _ _ => rfl⟩
  · exact onlyRegs.refl K s

/-- A counter field advances: only it, the PMU and EVT's data change. -/
theorem onlyRegs.bump (K : Nat → Prop) (s : State) (f : Fld) (i k n : Nat) (cls : Option Nat) (sat : Bool)
    (hf : f.blk < 14) (hk : K (f.key i k)) (h : ∀ key, InBlock 14 key → K key) :
    onlyRegs K s (s.bump f i k n cls sat) :=
  ((onlyRegs.wrAt K s f i k _ hk).trans (onlyRegs.pmuAdvance K _ f i k n cls hf h)).trans
    (onlyRegs.copyAdvance K _ f i k n)

/-- What a counter field reads after it advanced, for a field outside the PMU's block. -/
theorem State.rd_bump_same (s : State) (f : Fld) (i k n : Nat) (cls : Option Nat) (sat : Bool) (hf : f.blk < 14)
    (hk : ¬ InBlock 14 (f.key i k)) (hlt : s.rd f i k + n < 2 ^ f.width) :
    (s.bump f i k n cls sat).rd f i k = s.rd f i k + n := by
  have h1 : onlyRegs (InBlock 14) (s.wrAt f i k (counterNext f s.draw (s.rd f i k) n sat))
      (s.bump f i k n cls sat) :=
    (onlyRegs.pmuAdvance _ _ f i k n cls hf (fun _ x => x)).trans (onlyRegs.copyAdvance _ _ f i k n)
  rw [h1.rd f i k hk, State.rd_wrAt_same, counterNext, if_pos hlt, Nat.mod_eq_of_lt hlt]

theorem State.rd_bump_ne (s : State) (f g : Fld) (i k n j l : Nat) (cls : Option Nat) (sat : Bool) (hf : f.blk < 14)
    (hg : g.key j l ≠ f.key i k) (hp : ¬ InBlock 14 (g.key j l)) :
    (s.bump f i k n cls sat).rd g j l = s.rd g j l :=
  (onlyRegs.bump (fun x => x = f.key i k ∨ InBlock 14 x) s f i k n cls sat hf (.inl rfl) (fun _ x => .inr x)).rd g j l
    (fun x => x.elim hg hp)

end Sys2Proof.Machine
end

