-- ==== Sys2Proof/Laws/Data.lean ====
section
/-!
SUPPORT. Laws/Data.lean: every operation on the sparse maps and the byte memories keeps their canonical form, and a byte
memory reads back what was written and nothing else changes.
-/
namespace Sys2Proof.Machine

/-! ## Canonical maps -/

/-- The canonical form as a chain of strictly rising keys. -/
theorem mwf_iff {α : Type} (m : List (Nat × α)) : mwf m = true ↔ m.Pairwise (fun a b => a.1 < b.1) := by
  induction m with
  | nil => simp [mwf]
  | cons e m ih =>
    obtain ⟨k, v⟩ := e
    simp [mwf, List.pairwise_cons, ih]

theorem mem_mput {α : Type} {m : List (Nat × α)} {k : Nat} {v : α} {e : Nat × α} (h : e ∈ mput m k v) :
    e = (k, v) ∨ e ∈ m := by
  induction m with
  | nil => simp [mput] at h; exact .inl h
  | cons x m ih =>
    obtain ⟨k', v'⟩ := x
    simp only [mput] at h
    split at h
    · simpa using h
    · split at h
      · rcases List.mem_cons.1 h with rfl | h
        · exact .inl rfl
        · exact .inr (List.mem_cons_of_mem _ h)
      · rcases List.mem_cons.1 h with rfl | h
        · exact .inr (by simp)
        · exact (ih h).imp id (List.mem_cons_of_mem _)

theorem mput_wf {α : Type} (m : List (Nat × α)) (k : Nat) (v : α) (h : mwf m = true) : mwf (mput m k v) = true := by
  induction m with
  | nil => simp [mput, mwf]
  | cons e m ih =>
    obtain ⟨k', v'⟩ := e
    rw [mwf_iff, List.pairwise_cons] at h
    simp only [mput]
    split
    · rename_i hk
      rw [mwf_iff, List.pairwise_cons, List.pairwise_cons]
      refine ⟨fun a ha => ?_, h⟩
      rcases List.mem_cons.1 ha with rfl | ha
      · exact hk
      · exact lt_trans hk (h.1 a ha)
    · split
      · rename_i hk hk'
        subst hk'
        rw [mwf_iff, List.pairwise_cons]; exact h
      · rename_i hk hk'
        rw [mwf_iff, List.pairwise_cons]
        refine ⟨fun a ha => ?_, (mwf_iff _).1 (ih ((mwf_iff _).2 h.2))⟩
        rcases mem_mput ha with rfl | ha
        · simp; omega
        · exact h.1 a ha

theorem filter_wf {α : Type} (m : List (Nat × α)) (p : Nat × α → Bool) (h : mwf m = true) : mwf (m.filter p) = true :=
  (mwf_iff _).2 (((mwf_iff _).1 h).filter p)

theorem mdel_wf {α : Type} (m : List (Nat × α)) (k : Nat) (h : mwf m = true) : mwf (mdel m k) = true := filter_wf m _ h

theorem mset_wf {α : Type} [DecidableEq α] (d : α) (m : List (Nat × α)) (k : Nat) (v : α) (h : mwf m = true) :
    mwf (mset d m k v) = true := by
  unfold mset; split
  · exact mdel_wf m k h
  · exact mput_wf m k v h

/-! ## Byte memories -/

theorem mget_append {α : Type} (m n : List (Nat × α)) (k : Nat) : mget (m ++ n) k = (mget m k).or (mget n k) := by
  induction m with
  | nil => simp [mget]
  | cons e m ih =>
    obtain ⟨k', v⟩ := e
    by_cases h : k = k' <;> simp [mget, h, ih]

theorem mget_filter {α : Type} (m : List (Nat × α)) (p : Nat → Bool) (k : Nat) :
    mget (m.filter (fun e => p e.1)) k = if p k then mget m k else none := by
  induction m with
  | nil => simp [mget]
  | cons e m ih =>
    obtain ⟨k', v⟩ := e
    by_cases hp : p k' = true
    · rw [List.filter_cons_of_pos (by simpa using hp)]
      by_cases h : k = k'
      · subst h; simp [mget, hp]
      · simp [mget, h, ih]
    · rw [List.filter_cons_of_neg (by simpa using hp), ih]
      by_cases h : k = k'
      · subst h; simp [hp]
      · simp [mget, h]

theorem memCells_bounds (d : Byte) (a : Nat) (bs : List Byte) :
    ∀ c ∈ memCells d a bs, a ≤ c.1 ∧ c.1 < a + bs.length ∧ c.2 ≠ d := by
  induction bs generalizing a with
  | nil => simp [memCells]
  | cons b bs ih =>
    intro c hc
    have hi := ih (a + 1)
    simp only [memCells] at hc
    split at hc
    · have := hi c hc; simp only [List.length_cons]; exact ⟨by omega, by omega, this.2.2⟩
    · rcases List.mem_cons.1 hc with rfl | hc
      · simp only [List.length_cons]; exact ⟨le_refl _, by omega, by assumption⟩
      · have := hi c hc; simp only [List.length_cons]; exact ⟨by omega, by omega, this.2.2⟩

theorem memCells_wf (d : Byte) (a : Nat) (bs : List Byte) : mwf (memCells d a bs) = true := by
  induction bs generalizing a with
  | nil => rfl
  | cons b bs ih =>
    simp only [memCells]
    split
    · exact ih (a + 1)
    · rw [mwf_iff, List.pairwise_cons]
      refine ⟨fun c hc => ?_, (mwf_iff _).1 (ih (a + 1))⟩
      have := memCells_bounds d (a + 1) bs c hc
      show a < c.1
      omega

/-- Writing keeps the canonical form of a byte memory. -/
theorem memWrite_wf (d : Byte) (m : List Host.Cell) (a : Nat) (bs : List Byte) (h : memWf d m = true) :
    memWf d (memWrite d m a bs) = true := by
  simp only [memWf, Bool.and_eq_true] at h ⊢
  obtain ⟨hw, hd⟩ := h
  have hd' : ∀ c ∈ m, c.2 ≠ d := by simpa [List.all_eq_true] using hd
  refine ⟨?_, ?_⟩
  · rw [mwf_iff] at hw ⊢
    simp only [memWrite, List.pairwise_append]
    refine ⟨⟨hw.filter _, (mwf_iff _).1 (memCells_wf d a bs), ?_⟩, hw.filter _, ?_⟩
    · intro x hx y hy
      have := memCells_bounds d a bs y hy
      simp only [List.mem_filter, decide_eq_true_eq] at hx
      omega
    · intro x hx y hy
      simp only [List.mem_filter, decide_eq_true_eq] at hy
      rcases List.mem_append.1 hx with hx | hx
      · simp only [List.mem_filter, decide_eq_true_eq] at hx; omega
      · have := memCells_bounds d a bs x hx; omega
  · simp only [memWrite, List.all_append, Bool.and_eq_true, List.all_eq_true, decide_eq_true_eq]
    exact ⟨⟨fun c hc => hd' c (List.mem_of_mem_filter hc), fun c hc => (memCells_bounds d a bs c hc).2.2⟩,
      fun c hc => hd' c (List.mem_of_mem_filter hc)⟩

theorem memCells_get (d : Byte) (a : Nat) (bs : List Byte) (x : Nat) :
    mgetD (memCells d a bs) x d = if a ≤ x ∧ x < a + bs.length then bs.getD (x - a) d else d := by
  induction bs generalizing a with
  | nil => simp [memCells, mgetD, mget]
  | cons b bs ih =>
    have step : mgetD (memCells d a (b :: bs)) x d = if x = a then b else mgetD (memCells d (a + 1) bs) x d := by
      simp only [memCells]
      split
      · rename_i hb
        by_cases hx : x = a
        · subst hx; rw [if_pos rfl, ih (x + 1), if_neg (by omega), hb]
        · rw [if_neg hx]
      · by_cases hx : x = a <;> simp [mgetD, mget, hx]
    rw [step, ih (a + 1)]
    by_cases hx : x = a
    · subst hx; simp
    · rw [if_neg hx]
      by_cases h : a + 1 ≤ x ∧ x < a + 1 + bs.length
      · rw [if_pos h, if_pos (by simp only [List.length_cons]; omega)]
        have : x - a = (x - (a + 1)) + 1 := by omega
        rw [this, List.getD_cons_succ]
      · rw [if_neg h, if_neg (by simp only [List.length_cons]; omega)]

theorem mem_of_mget {α : Type} {m : List (Nat × α)} {k : Nat} {v : α} (h : mget m k = some v) : (k, v) ∈ m := by
  induction m with
  | nil => simp [mget] at h
  | cons e m ih =>
    obtain ⟨k', v'⟩ := e
    simp only [mget] at h
    split at h
    · rename_i hk; subst hk; simp at h; simp [h]
    · exact List.mem_cons_of_mem _ (ih h)

theorem memCells_none (d : Byte) (a : Nat) (bs : List Byte) (x : Nat) (h : ¬ (a ≤ x ∧ x < a + bs.length)) :
    mget (memCells d a bs) x = none := by
  cases hg : mget (memCells d a bs) x with
  | none => rfl
  | some v => exact absurd (memCells_bounds d a bs _ (mem_of_mget hg)) (by simp only; omega)

/-- A byte memory reads back the bytes written, and every other byte as before. -/
theorem memRead_memWrite (d : Byte) (m : List Host.Cell) (a : Nat) (bs : List Byte) (x : Nat) :
    memRead d (memWrite d m a bs) x = if a ≤ x ∧ x < a + bs.length then bs.getD (x - a) d else memRead d m x := by
  simp only [memRead, mgetD, memWrite, mget_append, mget_filter m (fun k => decide (k < a)),
    mget_filter m (fun k => decide (a + bs.length ≤ k))]
  by_cases h : a ≤ x ∧ x < a + bs.length
  · rw [if_pos h]
    have hc := memCells_get d a bs x
    rw [if_pos h] at hc
    have h1 : ¬ x < a := by omega
    have h2 : ¬ a + bs.length ≤ x := by omega
    simpa [h1, h2, mgetD] using hc
  · rw [if_neg h, memCells_none d a bs x h]
    by_cases h1 : x < a
    · have h2 : ¬ a + bs.length ≤ x := by omega
      simp [h1, h2]
    · have h2 : a + bs.length ≤ x := by omega
      simp [h1, h2]

/-- A stretch of what was written reads back. -/
theorem memReadN_memWrite (d : Byte) (m : List Host.Cell) (a : Nat) (bs : List Byte) (o n : Nat) (h : o + n ≤ bs.length) :
    memReadN d (memWrite d m a bs) (a + o) n = (bs.drop o).take n := by
  apply List.ext_getElem
  · simp [memReadN]; omega
  · intro i h1 h2
    simp only [memReadN, List.length_map, List.length_range] at h1
    have hin : a ≤ a + o + i ∧ a + o + i < a + bs.length := by omega
    simp only [memReadN, List.getElem_map, List.getElem_range, memRead_memWrite, if_pos hin, List.getElem_take,
      List.getElem_drop]
    rw [show a + o + i - a = o + i by omega, List.getD_eq_getElem?_getD, List.getElem?_eq_getElem (by omega)]
    rfl

end Sys2Proof.Machine
end

