-- ==== Sys2Proof/Laws/Frames.lean ====
section
/-!
SUPPORT. Laws/Frames.lean: the frame of each shared operation (Safety.Frame): what it may change, said once.
-/
namespace Sys2Proof.Safety
open Sys2Proof.Machine

theorem Part.same_refl (s : State) (p : Part) : p.same s s := by cases p <;> rfl

theorem Part.same_trans {s t u : State} (p : Part) (h : p.same s t) (h' : p.same t u) : p.same s u := by
  cases p <;> exact Eq.trans h' h

theorem Frame.refl (P : List Part) (K : Nat → Prop) (s : State) : Frame P K s s :=
  ⟨fun p _ => Part.same_refl s p, fun _ _ _ => rfl⟩

theorem Frame.trans {P : List Part} {K : Nat → Prop} {s t u : State} (h : Frame P K s t) (h' : Frame P K t u) :
    Frame P K s u :=
  ⟨fun p hp => Part.same_trans p (h.1 p hp) (h'.1 p hp), fun k hk h14 => (h'.2 k hk h14).trans (h.2 k hk h14)⟩

theorem Frame.mono {P Q : List Part} {K L : Nat → Prop} {s t : State} (h : Frame P K s t) (hp : ∀ p ∈ P, p ∈ Q)
    (hk : ∀ k, K k → L k) : Frame Q L s t :=
  ⟨fun p hq => h.1 p (fun x => hq (hp p x)), fun k hl h14 => h.2 k (fun x => hl (hk k x)) h14⟩

theorem Frame.ite {P : List Part} {K : Nat → Prop} {s t u : State} (c : Prop) [Decidable c] (h : c → Frame P K s t)
    (h' : ¬ c → Frame P K s u) : Frame P K s (if c then t else u) := by
  by_cases hc : c
  · rw [if_pos hc]; exact h hc
  · rw [if_neg hc]; exact h' hc

theorem Frame.foldl {α : Type} {P : List Part} {K : Nat → Prop} (f : State → α → State) (l : List α) (s : State)
    (h : ∀ s, ∀ x ∈ l, Frame P K s (f s x)) : Frame P K s (l.foldl f s) := by
  induction l generalizing s with
  | nil => exact Frame.refl P K s
  | cons x l ih => exact (h s x (by simp)).trans (ih _ (fun s y hy => h s y (by simp [hy])))

/-- An operation that changes register fields and EVT's data alone. -/
theorem Frame.ofRegs {P : List Part} {K : Nat → Prop} {s t : State} (he : .evt ∈ P)
    (h : onlyRegs (fun k => K k ∨ InBlock 14 k) s t) : Frame P K s t := by
  obtain ⟨⟨r, e, rfl⟩, hk⟩ := h
  refine ⟨fun p hp => ?_, fun k hn h14 => hk k (fun x => x.elim hn h14)⟩
  cases p <;> first | rfl | exact absurd he hp

/-! ## The shared operations -/

theorem Frame.wrAt {P : List Part} {K : Nat → Prop} {s t : State} (h : Frame P K s t) (f : Fld) (i k v : Nat)
    (hk : K (f.key i k) ∨ InBlock 14 (f.key i k)) : Frame P K s (t.wrAt f i k v) :=
  h.trans ⟨fun p _ => by cases p <;> rfl,
    fun _ hn h14 => mget_mset_ne _ _ _ (fun e => hk.elim (fun x => hn (e ▸ x)) (fun x => h14 (e ▸ x)))⟩

theorem Frame.wr {P : List Part} {K : Nat → Prop} {s t : State} (h : Frame P K s t) (f : Fld) (v : Nat)
    (hk : K (f.key 0 0) ∨ InBlock 14 (f.key 0 0)) : Frame P K s (t.wr f v) := h.wrAt f 0 0 v hk

theorem Frame.wrI {P : List Part} {K : Nat → Prop} {s t : State} (h : Frame P K s t) (f : Fld) (i v : Nat)
    (hk : K (f.key i 0) ∨ InBlock 14 (f.key i 0)) : Frame P K s (t.wrI f i v) := h.wrAt f i 0 v hk

theorem Frame.wrb {P : List Part} {K : Nat → Prop} {s t : State} (h : Frame P K s t) (f : Fld) (i : Nat) (b : Bool)
    (hk : K (f.key i 0) ∨ InBlock 14 (f.key i 0)) : Frame P K s (t.wrb f i b) := h.wrAt f i 0 _ hk

theorem Frame.sat {P : List Part} {K : Nat → Prop} {s t : State} (h : Frame P K s t) (f : Fld) (i k n : Nat)
    (hk : K (f.key i k) ∨ InBlock 14 (f.key i k)) : Frame P K s (t.sat f i k n) := h.wrAt f i k _ hk

theorem Frame.raise {P : List Part} {K : Nat → Prop} {s t : State} (h : Frame P K s t) (c : Cause)
    (r q : Option Nat) (hs : List (Nat × Option Nat)) (he : .evt ∈ P)
    (hk : K ((F.EVT_RAW_CAUSE c.blk).key c.page 0) ∨ InBlock 14 ((F.EVT_RAW_CAUSE c.blk).key c.page 0)) :
    Frame P K s (t.raise c r q hs) := h.trans (Frame.ofRegs he (onlyRegs.raise _ t c r q hs hk))

theorem Frame.bump {P : List Part} {K : Nat → Prop} {s t : State} (h : Frame P K s t) (f : Fld) (i k n : Nat)
    (cls : Option Nat) (sat : Bool) (he : .evt ∈ P) (hf : f.blk < 14)
    (hk : K (f.key i k) ∨ InBlock 14 (f.key i k)) : Frame P K s (t.bump f i k n cls sat) :=
  h.trans (Frame.ofRegs he (onlyRegs.bump _ t f i k n cls sat hf hk (fun _ x => .inr x)))

theorem Frame.emit {P : List Part} {K : Nat → Prop} {s t : State} (h : Frame P K s t) (o : Out) (ho : .out ∈ P) :
    Frame P K s (t.emit o) :=
  h.trans ⟨fun p hp => by cases p <;> first | rfl | exact absurd ho hp, fun _ _ _ => rfl⟩

theorem Frame.setTmu {P : List Part} {K : Nat → Prop} {s t : State} (h : Frame P K s t) (x : Tmu) (hp : .tmu ∈ P) :
    Frame P K s (t.setTmu x) :=
  h.trans ⟨fun p hq => by cases p <;> first | rfl | exact absurd hp hq, fun _ _ _ => rfl⟩

theorem Frame.setNear {P : List Part} {K : Nat → Prop} {s t : State} (h : Frame P K s t) (x : Near) (hp : .near ∈ P) :
    Frame P K s (t.setNear x) :=
  h.trans ⟨fun p hq => by cases p <;> first | rfl | exact absurd hp hq, fun _ _ _ => rfl⟩

theorem Frame.setBulk {P : List Part} {K : Nat → Prop} {s t : State} (h : Frame P K s t) (x : Bulk) (hp : .bulk ∈ P) :
    Frame P K s (t.setBulk x) :=
  h.trans ⟨fun p hq => by cases p <;> first | rfl | exact absurd hp hq, fun _ _ _ => rfl⟩

theorem Frame.setScr {P : List Part} {K : Nat → Prop} {s t : State} (h : Frame P K s t) (x : Scr) (hp : .scr ∈ P) :
    Frame P K s (t.setScr x) :=
  h.trans ⟨fun p hq => by cases p <;> first | rfl | exact absurd hp hq, fun _ _ _ => rfl⟩

theorem Frame.setCry {P : List Part} {K : Nat → Prop} {s t : State} (h : Frame P K s t) (x : Cry) (hp : .cry ∈ P) :
    Frame P K s (t.setCry x) :=
  h.trans ⟨fun p hq => by cases p <;> first | rfl | exact absurd hp hq, fun _ _ _ => rfl⟩

theorem Frame.setRas {P : List Part} {K : Nat → Prop} {s t : State} (h : Frame P K s t) (x : Ras) (hp : .ras ∈ P) :
    Frame P K s (t.setRas x) :=
  h.trans ⟨fun p hq => by cases p <;> first | rfl | exact absurd hp hq, fun _ _ _ => rfl⟩

theorem Frame.setAdm {P : List Part} {K : Nat → Prop} {s t : State} (h : Frame P K s t) (x : Adm) (hp : .adm ∈ P) :
    Frame P K s (t.setAdm x) :=
  h.trans ⟨fun p hq => by cases p <;> first | rfl | exact absurd hp hq, fun _ _ _ => rfl⟩

theorem Frame.setDir {P : List Part} {K : Nat → Prop} {s t : State} (h : Frame P K s t) (x : Dir) (hp : .dir ∈ P) :
    Frame P K s (t.setDir x) :=
  h.trans ⟨fun p hq => by cases p <;> first | rfl | exact absurd hp hq, fun _ _ _ => rfl⟩

theorem Frame.setClx {P : List Part} {K : Nat → Prop} {s t : State} (h : Frame P K s t) (x : Clx) (hp : .clx ∈ P) :
    Frame P K s (t.setClx x) :=
  h.trans ⟨fun p hq => by cases p <;> first | rfl | exact absurd hp hq, fun _ _ _ => rfl⟩

theorem Frame.setEvt {P : List Part} {K : Nat → Prop} {s t : State} (h : Frame P K s t) (x : Evt) (hp : .evt ∈ P) :
    Frame P K s (t.setEvt x) :=
  h.trans ⟨fun p hq => by cases p <;> first | rfl | exact absurd hp hq, fun _ _ _ => rfl⟩

theorem Frame.setHlx {P : List Part} {K : Nat → Prop} {s t : State} (h : Frame P K s t) (x : Hlx) (hp : .hlx ∈ P) :
    Frame P K s (t.setHlx x) :=
  h.trans ⟨fun p hq => by cases p <;> first | rfl | exact absurd hp hq, fun _ _ _ => rfl⟩

theorem Frame.setAon {P : List Part} {K : Nat → Prop} {s t : State} (h : Frame P K s t) (x : Aon) (hp : .aon ∈ P) :
    Frame P K s (t.setAon x) :=
  h.trans ⟨fun p hq => by cases p <;> first | rfl | exact absurd hp hq, fun _ _ _ => rfl⟩

theorem Frame.setMem {P : List Part} {K : Nat → Prop} {s t : State} (h : Frame P K s t) (x : Mem) (hp : .mem ∈ P) :
    Frame P K s (t.setMem x) :=
  h.trans ⟨fun p hq => by cases p <;> first | rfl | exact absurd hp hq, fun _ _ _ => rfl⟩

theorem Frame.setJob {P : List Part} {K : Nat → Prop} {s t : State} (h : Frame P K s t) (x : JobMgr) (hp : .job ∈ P) :
    Frame P K s (t.setJob x) :=
  h.trans ⟨fun p hq => by cases p <;> first | rfl | exact absurd hp hq, fun _ _ _ => rfl⟩

theorem Frame.setCtl {P : List Part} {K : Nat → Prop} {s t : State} (h : Frame P K s t) (x : Ctl) (hp : .ctl ∈ P) :
    Frame P K s (t.setCtl x) :=
  h.trans ⟨fun p hq => by cases p <;> first | rfl | exact absurd hp hq, fun _ _ _ => rfl⟩

theorem Frame.setCdc {P : List Part} {K : Nat → Prop} {s t : State} (h : Frame P K s t) (x : Cdc) (hp : .cdc ∈ P) :
    Frame P K s (t.setCdc x) :=
  h.trans ⟨fun p hq => by cases p <;> first | rfl | exact absurd hp hq, fun _ _ _ => rfl⟩

theorem Frame.setEntry {P : List Part} {K : Nat → Prop} {s t : State} (h : Frame P K s t) (x : Entry) (hp : .aon ∈ P) :
    Frame P K s (t.setEntry x) :=
  h.trans ⟨fun p hq => by cases p <;> first | rfl | exact absurd hp hq, fun _ _ _ => rfl⟩

theorem Frame.setTime {P : List Part} {K : Nat → Prop} {s t : State} (h : Frame P K s t) (x : TimeBase) (hp : .aon ∈ P) :
    Frame P K s (t.setTime x) :=
  h.trans ⟨fun p hq => by cases p <;> first | rfl | exact absurd hp hq, fun _ _ _ => rfl⟩

/-! ## A replaced part -/

theorem Frame.with_out {P : List Part} {K : Nat → Prop} {s t : State} (h : Frame P K s t) (x : List Out) (hp : .out ∈ P) :
    Frame P K s { t with out := x } :=
  h.trans ⟨fun p hq => by cases p <;> first | rfl | exact absurd hp hq, fun _ _ _ => rfl⟩

theorem Frame.with_draw {P : List Part} {K : Nat → Prop} {s t : State} (h : Frame P K s t) (x : Nat) (hp : .draw ∈ P) :
    Frame P K s { t with draw := x } :=
  h.trans ⟨fun p hq => by cases p <;> first | rfl | exact absurd hp hq, fun _ _ _ => rfl⟩

theorem Frame.with_fuses {P : List Part} {K : Nat → Prop} {s t : State} (h : Frame P K s t) (x : Fuses) (hp : .fuses ∈ P) :
    Frame P K s { t with fuses := x } :=
  h.trans ⟨fun p hq => by cases p <;> first | rfl | exact absurd hp hq, fun _ _ _ => rfl⟩

theorem Frame.with_straps {P : List Part} {K : Nat → Prop} {s t : State} (h : Frame P K s t) (x : Straps) (hp : .straps ∈ P) :
    Frame P K s { t with straps := x } :=
  h.trans ⟨fun p hq => by cases p <;> first | rfl | exact absurd hp hq, fun _ _ _ => rfl⟩

theorem Frame.with_evt {P : List Part} {K : Nat → Prop} {s t : State} (h : Frame P K s t) (x : Evt) (hp : .evt ∈ P) :
    Frame P K s { t with evt := x } :=
  h.trans ⟨fun p hq => by cases p <;> first | rfl | exact absurd hp hq, fun _ _ _ => rfl⟩

theorem Frame.with_tmu {P : List Part} {K : Nat → Prop} {s t : State} (h : Frame P K s t) (x : Tmu) (hp : .tmu ∈ P) :
    Frame P K s { t with tmu := x } :=
  h.trans ⟨fun p hq => by cases p <;> first | rfl | exact absurd hp hq, fun _ _ _ => rfl⟩

theorem Frame.with_near {P : List Part} {K : Nat → Prop} {s t : State} (h : Frame P K s t) (x : Near) (hp : .near ∈ P) :
    Frame P K s { t with near := x } :=
  h.trans ⟨fun p hq => by cases p <;> first | rfl | exact absurd hp hq, fun _ _ _ => rfl⟩

theorem Frame.with_bulk {P : List Part} {K : Nat → Prop} {s t : State} (h : Frame P K s t) (x : Bulk) (hp : .bulk ∈ P) :
    Frame P K s { t with bulk := x } :=
  h.trans ⟨fun p hq => by cases p <;> first | rfl | exact absurd hp hq, fun _ _ _ => rfl⟩

theorem Frame.with_cry {P : List Part} {K : Nat → Prop} {s t : State} (h : Frame P K s t) (x : Cry) (hp : .cry ∈ P) :
    Frame P K s { t with cry := x } :=
  h.trans ⟨fun p hq => by cases p <;> first | rfl | exact absurd hp hq, fun _ _ _ => rfl⟩

theorem Frame.with_scr {P : List Part} {K : Nat → Prop} {s t : State} (h : Frame P K s t) (x : Scr) (hp : .scr ∈ P) :
    Frame P K s { t with scr := x } :=
  h.trans ⟨fun p hq => by cases p <;> first | rfl | exact absurd hp hq, fun _ _ _ => rfl⟩

theorem Frame.with_ras {P : List Part} {K : Nat → Prop} {s t : State} (h : Frame P K s t) (x : Ras) (hp : .ras ∈ P) :
    Frame P K s { t with ras := x } :=
  h.trans ⟨fun p hq => by cases p <;> first | rfl | exact absurd hp hq, fun _ _ _ => rfl⟩

theorem Frame.with_adm {P : List Part} {K : Nat → Prop} {s t : State} (h : Frame P K s t) (x : Adm) (hp : .adm ∈ P) :
    Frame P K s { t with adm := x } :=
  h.trans ⟨fun p hq => by cases p <;> first | rfl | exact absurd hp hq, fun _ _ _ => rfl⟩

theorem Frame.with_dir {P : List Part} {K : Nat → Prop} {s t : State} (h : Frame P K s t) (x : Dir) (hp : .dir ∈ P) :
    Frame P K s { t with dir := x } :=
  h.trans ⟨fun p hq => by cases p <;> first | rfl | exact absurd hp hq, fun _ _ _ => rfl⟩

theorem Frame.with_clx {P : List Part} {K : Nat → Prop} {s t : State} (h : Frame P K s t) (x : Clx) (hp : .clx ∈ P) :
    Frame P K s { t with clx := x } :=
  h.trans ⟨fun p hq => by cases p <;> first | rfl | exact absurd hp hq, fun _ _ _ => rfl⟩

theorem Frame.with_job {P : List Part} {K : Nat → Prop} {s t : State} (h : Frame P K s t) (x : JobMgr) (hp : .job ∈ P) :
    Frame P K s { t with job := x } :=
  h.trans ⟨fun p hq => by cases p <;> first | rfl | exact absurd hp hq, fun _ _ _ => rfl⟩

theorem Frame.with_ctl {P : List Part} {K : Nat → Prop} {s t : State} (h : Frame P K s t) (x : Ctl) (hp : .ctl ∈ P) :
    Frame P K s { t with ctl := x } :=
  h.trans ⟨fun p hq => by cases p <;> first | rfl | exact absurd hp hq, fun _ _ _ => rfl⟩

theorem Frame.with_mem {P : List Part} {K : Nat → Prop} {s t : State} (h : Frame P K s t) (x : Mem) (hp : .mem ∈ P) :
    Frame P K s { t with mem := x } :=
  h.trans ⟨fun p hq => by cases p <;> first | rfl | exact absurd hp hq, fun _ _ _ => rfl⟩

theorem Frame.with_hlx {P : List Part} {K : Nat → Prop} {s t : State} (h : Frame P K s t) (x : Hlx) (hp : .hlx ∈ P) :
    Frame P K s { t with hlx := x } :=
  h.trans ⟨fun p hq => by cases p <;> first | rfl | exact absurd hp hq, fun _ _ _ => rfl⟩

theorem Frame.with_cdc {P : List Part} {K : Nat → Prop} {s t : State} (h : Frame P K s t) (x : Cdc) (hp : .cdc ∈ P) :
    Frame P K s { t with cdc := x } :=
  h.trans ⟨fun p hq => by cases p <;> first | rfl | exact absurd hp hq, fun _ _ _ => rfl⟩

theorem Frame.with_aon {P : List Part} {K : Nat → Prop} {s t : State} (h : Frame P K s t) (x : Aon) (hp : .aon ∈ P) :
    Frame P K s { t with aon := x } :=
  h.trans ⟨fun p hq => by cases p <;> first | rfl | exact absurd hp hq, fun _ _ _ => rfl⟩

/-- A log record: RAS's page 0 and its data (R268). -/
theorem Frame.log {P : List Part} {K : Nat → Prop} {s t : State} (h : Frame P K s t) (type : Nat) (a : About)
    (he : .evt ∈ P) (hr : .ras ∈ P) (h1 : K (F.RAS_LOG_PROD.key 0 0)) (h2 : K (F.RAS_LOG_LOST.key 0 0))
    (h3 : K ((F.EVT_RAW_CAUSE 12).key 0 0)) : Frame P K s (t.log type a) := by
  refine h.trans ?_
  unfold State.log
  refine Frame.ite _ (fun _ => Frame.ite _ (fun _ => ?_) (fun _ => ?_)) (fun _ => ?_)
  · exact (Frame.refl P K t).bump _ _ _ _ _ _ he (by decide) (.inl h2)
  · exact (((Frame.refl P K t).bump _ _ _ _ _ _ he (by decide) (.inl h2)).raise ⟨12, 0, 14, 218⟩ _ _ _ he
      (.inl h3)).with_ras _ hr
  · exact ((Frame.refl P K t).wr _ _ (.inl h1)).with_ras _ hr

end Sys2Proof.Safety
end

