-- ==== Sys2Proof/Laws/PerInstr.lean ====
section
/-!
SUPPORT. Laws/PerInstr.lean: well-formedness as a property of the operands, command by command.
-/
namespace Sys2Proof.Laws.WellFormedness

/-- A command is well formed exactly when each of its numeric operands is below the bound of what it counts. -/
def Statement (i : Instr) : Prop := i.wf = true ↔ ∀ p ∈ i.operands, p.2 < p.1.bound

/-- The check is the conjunction over the operands, whatever the command. -/
theorem wf_iff (i : Instr) : Statement i := by
  unfold Statement Instr.wf
  simp [List.all_eq_true]

theorem hostRead (h : Nat) (l : Nat) (hpa : BitVec 64) (look : DirLook) (tag : Nat) : Statement (.hostRead h l hpa look tag) := wf_iff _
theorem hostWrite (h : Nat) (l : Nat) (hpa : BitVec 64) (look : DirLook) (tag : Nat) (data : BitVec 512) (poison : Bool) : Statement (.hostWrite h l hpa look tag data poison) := wf_iff _
theorem hostPartialWrite (h : Nat) (l : Nat) (hpa : BitVec 64) (look : DirLook) (tag : Nat) (data : BitVec 512) (be : BitVec 64) (poison : Bool) : Statement (.hostPartialWrite h l hpa look tag data be poison) := wf_iff _
theorem memInv (h : Nat) (l : Nat) (hpa : BitVec 64) (look : DirLook) (tag : Nat) : Statement (.memInv h l hpa look tag) := wf_iff _
theorem memClnEvct (h : Nat) (l : Nat) (hpa : BitVec 64) (tag : Nat) : Statement (.memClnEvct h l hpa tag) := wf_iff _
theorem admissionCycle  : Statement (.admissionCycle) := wf_iff _
theorem tokenRefill  : Statement (.tokenRefill) := wf_iff _
theorem tmeMissFill (slot : Nat) (tile : Nat) (bad : List Nat) : Statement (.tmeMissFill slot tile bad) := wf_iff _
theorem demandPromotion (slot : Nat) (tile : Nat) : Statement (.demandPromotion slot tile) := wf_iff _
theorem bulkTileReadDone (id : Nat) (bad : List (Nat × List Nat)) (flips : List (Nat × BitVec 8)) (pipe : Nat) (pipeFault : Bool) : Statement (.bulkTileReadDone id bad flips pipe pipeFault) := wf_iff _
theorem tagRecomputeDone (id : Nat) (pipe : Nat) (pipeFault : Bool) : Statement (.tagRecomputeDone id pipe pipeFault) := wf_iff _
theorem haltViral  : Statement (.haltViral) := wf_iff _
theorem haltChainStop  : Statement (.haltChainStop) := wf_iff _
theorem haltZeroize  : Statement (.haltZeroize) := wf_iff _
theorem codecTileDone (id : Nat) (pipe : Nat) (pipeFault : Bool) : Statement (.codecTileDone id pipe pipeFault) := wf_iff _
theorem tcsRetryDone (id : Nat) (pipe : Nat) (pipeFault : Bool) : Statement (.tcsRetryDone id pipe pipeFault) := wf_iff _
theorem promotionInstall (id : Nat) : Statement (.promotionInstall id) := wf_iff _
theorem candidateRefill  : Statement (.candidateRefill) := wf_iff _
theorem demotionSelect (engine : Nat) : Statement (.demotionSelect engine) := wf_iff _
theorem demotionCompressDone (id : Nat) (pipe : Nat × Bool) (bad : List (Nat × List Nat)) : Statement (.demotionCompressDone id pipe bad) := wf_iff _
theorem allocEscalationResolved (id : Nat) : Statement (.allocEscalationResolved id) := wf_iff _
theorem demotionCommit (id : Nat) : Statement (.demotionCommit id) := wf_iff _
theorem writeWaitResume (rid : Nat) : Statement (.writeWaitResume rid) := wf_iff _
theorem crossingWaitResume (slot : Nat) (tile : Nat) : Statement (.crossingWaitResume slot tile) := wf_iff _
theorem regionInitStep (slot : Nat) (n : Nat) : Statement (.regionInitStep slot n) := wf_iff _
theorem nearPinWalkStep (slot : Nat) : Statement (.nearPinWalkStep slot) := wf_iff _
theorem retainRelocationDone (slot : Nat) : Statement (.retainRelocationDone slot) := wf_iff _
theorem codecPipeDrained (p : Nat) : Statement (.codecPipeDrained p) := wf_iff _
theorem cdcPipeActivate (path : Path) (p : Nat) : Statement (.cdcPipeActivate path p) := wf_iff _
theorem cdcPipeDrain (path : Path) (p : Nat) : Statement (.cdcPipeDrain path p) := wf_iff _
theorem cdcPipeFail (path : Path) (p : Nat) : Statement (.cdcPipeFail path p) := wf_iff _
theorem cryPipeActivate (path : Path) (p : Nat) (katPass : Bool) : Statement (.cryPipeActivate path p katPass) := wf_iff _
theorem cryPipeDrain (path : Path) (p : Nat) : Statement (.cryPipeDrain path p) := wf_iff _
theorem cryPipeFail (path : Path) (p : Nat) : Statement (.cryPipeFail path p) := wf_iff _
theorem aesPipeDrained (p : Nat) : Statement (.aesPipeDrained p) := wf_iff _
theorem aesKnownAnswerTest (p : Nat) (pass : Bool) : Statement (.aesKnownAnswerTest p pass) := wf_iff _
theorem scrEngActivate (path : Path) (e : Nat) : Statement (.scrEngActivate path e) := wf_iff _
theorem scrEngDrain (path : Path) (e : Nat) : Statement (.scrEngDrain path e) := wf_iff _
theorem scrEngFail (path : Path) (e : Nat) : Statement (.scrEngFail path e) := wf_iff _
theorem scarabEngineDrained (e : Nat) : Statement (.scarabEngineDrained e) := wf_iff _
theorem dirBankActivate (path : Path) (bank : Nat) (way : Nat) : Statement (.dirBankActivate path bank way) := wf_iff _
theorem dirBankFail (path : Path) (bank : Nat) (way : Nat) : Statement (.dirBankFail path bank way) := wf_iff _
theorem ctlCoreActivate (path : Path) (core : Nat) : Statement (.ctlCoreActivate path core) := wf_iff _
theorem ctlCoreFail (path : Path) (core : Nat) : Statement (.ctlCoreFail path core) := wf_iff _
theorem trngHealthFail  : Statement (.trngHealthFail) := wf_iff _
theorem rekeyKeyReady (slot : Nat) : Statement (.rekeyKeyReady slot) := wf_iff _
theorem rekeyWalkStep (slot : Nat) : Statement (.rekeyWalkStep slot) := wf_iff _
theorem rekeyDone (slot : Nat) : Statement (.rekeyDone slot) := wf_iff _
theorem dramCommandSlot (tier : Tier) (ch : Nat) (now : Nat) (ready : List DramCmd) : Statement (.dramCommandSlot tier ch now ready) := wf_iff _
theorem dramReadData (id : Nat) (edcFails : Nat) (bad : List Nat) : Statement (.dramReadData id edcFails bad) := wf_iff _
theorem rowRemapCopyDone (ch : Nat) (entry : Nat) : Statement (.rowRemapCopyDone ch entry) := wf_iff _
theorem edcWriteFail (ch : Nat) (fails : Nat) : Statement (.edcWriteFail ch fails) := wf_iff _
theorem channelRetrainDone (tier : Tier) (ch : Nat) (ok : Bool) : Statement (.channelRetrainDone tier ch ok) := wf_iff _
theorem pmicPowerFault (d : Nat) : Statement (.pmicPowerFault d) := wf_iff _
theorem pmicStatusPoll (status : List (Nat × BitVec 8)) (warn : List Nat) : Statement (.pmicStatusPoll status warn) := wf_iff _
theorem temperaturePoll (tier : Tier) (readings : List TempReading) : Statement (.temperaturePoll tier readings) := wf_iff _
theorem refreshDue (tier : Tier) (ch : Nat) (rank : Nat) : Statement (.refreshDue tier ch rank) := wf_iff _
theorem periodicTrainingDue (tier : Tier) (ch : Nat) (recentre : Bool) : Statement (.periodicTrainingDue tier ch recentre) := wf_iff _
theorem memoryTrainingDone (result : TrainResult) : Statement (.memoryTrainingDone result) := wf_iff _
theorem dimmFullTrainingDone (passed : List Nat) : Statement (.dimmFullTrainingDone passed) := wf_iff _
theorem selfRefreshBulkCommit  : Statement (.selfRefreshBulkCommit) := wf_iff _
theorem selfRefreshNearCommit  : Statement (.selfRefreshNearCommit) := wf_iff _
theorem selfRefreshExitDone (tier : Tier) : Statement (.selfRefreshExitDone tier) := wf_iff _
theorem evacuationMove  : Statement (.evacuationMove) := wf_iff _
theorem scrubAllowance  : Statement (.scrubAllowance) := wf_iff _
theorem scrubUnit (tier : Tier) (found : Found) : Statement (.scrubUnit tier found) := wf_iff _
theorem retentionSweepStep  : Statement (.retentionSweepStep) := wf_iff _
theorem linkTrained (port : Nat) (width : Nat) (rate : Nat) (flit : Nat) (cxl : Bool) : Statement (.linkTrained port width rate flit cxl) := wf_iff _
theorem portReset (port : Nat) : Statement (.portReset port) := wf_iff _
theorem functionReset (h : Nat) (l : Nat) (memClr : Bool) : Statement (.functionReset h l memClr) := wf_iff _
theorem memclrDone (h : Nat) (l : Nat) : Statement (.memclrDone h l) := wf_iff _
theorem hostViral (port : Nat) : Statement (.hostViral port) := wf_iff _
theorem doorbellWrite (h : Nat) (l : Nat) (q : Nat) (value : BitVec 32) (be : BitVec 64) : Statement (.doorbellWrite h l q value be) := wf_iff _
theorem doorbellRead (h : Nat) (l : Nat) (q : Nat) (tag : Nat) : Statement (.doorbellRead h l q tag) := wf_iff _
theorem fireflyWindowRead (h : Nat) (l : Nat) (off : Nat) (tag : Nat) : Statement (.fireflyWindowRead h l off tag) := wf_iff _
theorem getInfo (src : MboxSrc) (payload : List (BitVec 8)) : Statement (.getInfo src payload) := wf_iff _
theorem regionCreate (src : MboxSrc) (payload : List (BitVec 8)) : Statement (.regionCreate src payload) := wf_iff _
theorem regionDelete (src : MboxSrc) (payload : List (BitVec 8)) : Statement (.regionDelete src payload) := wf_iff _
theorem regionDeleteDone (slot : Nat) : Statement (.regionDeleteDone slot) := wf_iff _
theorem regionSet (src : MboxSrc) (payload : List (BitVec 8)) : Statement (.regionSet src payload) := wf_iff _
theorem regionGrant (src : MboxSrc) (payload : List (BitVec 8)) : Statement (.regionGrant src payload) := wf_iff _
theorem regionQuery (src : MboxSrc) (payload : List (BitVec 8)) : Statement (.regionQuery src payload) := wf_iff _
theorem setKeyMode (src : MboxSrc) (payload : List (BitVec 8)) : Statement (.setKeyMode src payload) := wf_iff _
theorem loadWrapKey (src : MboxSrc) (payload : List (BitVec 8)) : Statement (.loadWrapKey src payload) := wf_iff _
theorem loadKeySlot (src : MboxSrc) (payload : List (BitVec 8)) : Statement (.loadKeySlot src payload) := wf_iff _
theorem clearKeySlot (src : MboxSrc) (payload : List (BitVec 8)) : Statement (.clearKeySlot src payload) := wf_iff _
theorem rekeyRegion (src : MboxSrc) (payload : List (BitVec 8)) : Statement (.rekeyRegion src payload) := wf_iff _
theorem setPowerState (src : MboxSrc) (payload : List (BitVec 8)) : Statement (.setPowerState src payload) := wf_iff _
theorem getPowerState (src : MboxSrc) (payload : List (BitVec 8)) : Statement (.getPowerState src payload) := wf_iff _
theorem setRetainSets (src : MboxSrc) (payload : List (BitVec 8)) : Statement (.setRetainSets src payload) := wf_iff _
theorem setSpareSet (src : MboxSrc) (payload : List (BitVec 8)) : Statement (.setSpareSet src payload) := wf_iff _
theorem evacuateSet (src : MboxSrc) (payload : List (BitVec 8)) : Statement (.evacuateSet src payload) := wf_iff _
theorem clearRetention (src : MboxSrc) (payload : List (BitVec 8)) : Statement (.clearRetention src payload) := wf_iff _
theorem getSpd (src : MboxSrc) (payload : List (BitVec 8)) : Statement (.getSpd src payload) := wf_iff _
theorem getErrorLog (src : MboxSrc) (payload : List (BitVec 8)) : Statement (.getErrorLog src payload) := wf_iff _
theorem clearErrorLog (src : MboxSrc) (payload : List (BitVec 8)) : Statement (.clearErrorLog src payload) := wf_iff _
theorem headConfig (src : MboxSrc) (payload : List (BitVec 8)) : Statement (.headConfig src payload) := wf_iff _
theorem setHold (src : MboxSrc) (payload : List (BitVec 8)) : Statement (.setHold src payload) := wf_iff _
theorem queueSet (src : MboxSrc) (payload : List (BitVec 8)) : Statement (.queueSet src payload) := wf_iff _
theorem queueDisable (src : MboxSrc) (payload : List (BitVec 8)) : Statement (.queueDisable src payload) := wf_iff _
theorem queueQuery (src : MboxSrc) (payload : List (BitVec 8)) : Statement (.queueQuery src payload) := wf_iff _
theorem getPoisonList (h : Nat) (l : Nat) (start : Nat) (limit : Nat) : Statement (.getPoisonList h l start limit) := wf_iff _
theorem injectPoison (h : Nat) (l : Nat) (dpa : BitVec 64) : Statement (.injectPoison h l dpa) := wf_iff _
theorem clearPoison (h : Nat) (l : Nat) (dpa : BitVec 64) (data : BitVec 512) : Statement (.clearPoison h l dpa data) := wf_iff _
theorem getEventRecords (h : Nat) (l : Nat) (log : Nat) : Statement (.getEventRecords h l log) := wf_iff _
theorem clearEventRecords (h : Nat) (l : Nat) (log : Nat) (count : Nat) : Statement (.clearEventRecords h l log count) := wf_iff _
theorem getEventInterruptPolicy (h : Nat) (l : Nat) : Statement (.getEventInterruptPolicy h l) := wf_iff _
theorem setEventInterruptPolicy (h : Nat) (l : Nat) (on : List Bool) : Statement (.setEventInterruptPolicy h l on) := wf_iff _
theorem getTimestamp (h : Nat) (l : Nat) : Statement (.getTimestamp h l) := wf_iff _
theorem setTimestamp (h : Nat) (l : Nat) (value : BitVec 64) : Statement (.setTimestamp h l value) := wf_iff _
theorem identifyMemoryDevice (h : Nat) (l : Nat) : Statement (.identifyMemoryDevice h l) := wf_iff _
theorem getFwInfo (h : Nat) (l : Nat) : Statement (.getFwInfo h l) := wf_iff _
theorem transferFw (h : Nat) (l : Nat) (fwSlot : Nat) (offset : Nat) (data : List (BitVec 8)) (last : Bool) : Statement (.transferFw h l fwSlot offset data last) := wf_iff _
theorem transferFwDone (readErr : Bool) : Statement (.transferFwDone readErr) := wf_iff _
theorem activateFw (h : Nat) (l : Nat) (fwSlot : Nat) (online : Bool) : Statement (.activateFw h l fwSlot online) := wf_iff _
theorem dcAddAccept (h : Nat) (l : Nat) (slot : Nat) (grant : Option Nat) : Statement (.dcAddAccept h l slot grant) := wf_iff _
theorem dcAddRefuse (h : Nat) (l : Nat) (slot : Nat) : Statement (.dcAddRefuse h l slot) := wf_iff _
theorem dcRelease (h : Nat) (l : Nat) (slot : Nat) : Statement (.dcRelease h l slot) := wf_iff _
theorem ideKmMessage (port : Nat) (msg : IdeMsg) : Statement (.ideKmMessage port msg) := wf_iff _
theorem spdmMessage (h : Nat) (l : Nat) (msg : SpdmMsg) : Statement (.spdmMessage h l msg) := wf_iff _
theorem spdmSecuredAvsar (h : Nat) (l : Nat) (sid : Nat) (opcode : Nat) (payload : List (BitVec 8)) : Statement (.spdmSecuredAvsar h l sid opcode payload) := wf_iff _
theorem birspi (h : Nat) (line : Nat) : Statement (.birspi h line) := wf_iff _
theorem birsps (h : Nat) (line : Nat) : Statement (.birsps h line) := wf_iff _
theorem birspe (h : Nat) (line : Nat) : Statement (.birspe h line) := wf_iff _
theorem biconflict (h : Nat) (line : Nat) : Statement (.biconflict h line) := wf_iff _
theorem biTimeout (h : Nat) : Statement (.biTimeout h) := wf_iff _
theorem dirSweepDone (n : Nat) : Statement (.dirSweepDone n) := wf_iff _
theorem gateTick  : Statement (.gateTick) := wf_iff _
theorem minwinEnd (c : Nat) : Statement (.minwinEnd c) := wf_iff _
theorem gclSwap  : Statement (.gclSwap) := wf_iff _
theorem gclSwapRequest (path : Path) : Statement (.gclSwapRequest path) := wf_iff _
theorem monitorWindowEnd  : Statement (.monitorWindowEnd) := wf_iff _
theorem floorRecompute  : Statement (.floorRecompute) := wf_iff _
theorem descriptorFetch (q : Nat) : Statement (.descriptorFetch q) := wf_iff _
theorem nop (jid : Nat) : Statement (.nop jid) := wf_iff _
theorem fence (jid : Nat) : Statement (.fence jid) := wf_iff _
theorem copy (jid : Nat) : Statement (.copy jid) := wf_iff _
theorem fill (jid : Nat) : Statement (.fill jid) := wf_iff _
theorem zero (jid : Nat) : Statement (.zero jid) := wf_iff _
theorem compress (jid : Nat) : Statement (.compress jid) := wf_iff _
theorem decompress (jid : Nat) : Statement (.decompress jid) := wf_iff _
theorem checksum (jid : Nat) : Statement (.checksum jid) := wf_iff _
theorem promote (jid : Nat) : Statement (.promote jid) := wf_iff _
theorem demote (jid : Nat) : Statement (.demote jid) := wf_iff _
theorem pin (jid : Nat) : Statement (.pin jid) := wf_iff _
theorem unpin (jid : Nat) : Statement (.unpin jid) := wf_iff _
theorem retire (jid : Nat) : Statement (.retire jid) := wf_iff _
theorem rekey (jid : Nat) : Statement (.rekey jid) := wf_iff _
theorem scrubRange (jid : Nat) : Statement (.scrubRange jid) := wf_iff _
theorem jobPartDone (jid : Nat) (found : Found) (pipes : List (Nat × Bool)) : Statement (.jobPartDone jid found pipes) := wf_iff _
theorem coalTimeExpiry (q : Nat) : Statement (.coalTimeExpiry q) := wf_iff _
theorem clDownTimer (p : Nat) : Statement (.clDownTimer p) := wf_iff _
theorem clDetect (p : Nat) (lanes : BitVec 9) : Statement (.clDetect p lanes) := wf_iff _
theorem clTrainLock (p : Nat) (lanes : BitVec 9) (peerWidth : Nat) : Statement (.clTrainLock p lanes peerWidth) := wf_iff _
theorem clFlitLock (p : Nat) : Statement (.clFlitLock p) := wf_iff _
theorem clStateTimeout (p : Nat) : Statement (.clStateTimeout p) := wf_iff _
theorem clLockLoss (p : Nat) : Statement (.clLockLoss p) := wf_iff _
theorem clLinkDown (p : Nat) : Statement (.clLinkDown p) := wf_iff _
theorem clRetrainDone (p : Nat) (lanes : BitVec 9) (peerWidth : Nat) : Statement (.clRetrainDone p lanes peerWidth) := wf_iff _
theorem clRetrain (path : Path) (p : Nat) : Statement (.clRetrain path p) := wf_iff _
theorem clMark (path : Path) (p : Nat) (lanes : BitVec 9) : Statement (.clMark path p lanes) := wf_iff _
theorem clPortEnable (path : Path) (p : Nat) (on : Bool) : Statement (.clPortEnable path p on) := wf_iff _
theorem dataFlit (p : Nat) (bytes : List (BitVec 8)) : Statement (.dataFlit p bytes) := wf_iff _
theorem idle (p : Nat) (lsb : LinkState) : Statement (.idle p lsb) := wf_iff _
theorem init (p : Nat) (lsb : LinkState) (body : InitBody) : Statement (.init p lsb body) := wf_iff _
theorem nak (p : Nat) (lsb : LinkState) (seq : Nat) : Statement (.nak p lsb seq) := wf_iff _
theorem replay (p : Nat) (lsb : LinkState) (seq : Nat) : Statement (.replay p lsb seq) := wf_iff _
theorem ring (p : Nat) (lsb : LinkState) (reports : List RingReport) (round : Nat) : Statement (.ring p lsb reports round) := wf_iff _
theorem token (p : Nat) (lsb : LinkState) (body : TokenBody) : Statement (.token p lsb body) := wf_iff _
theorem assign (p : Nat) (lsb : LinkState) (body : AssignBody) : Statement (.assign p lsb body) := wf_iff _
theorem replayTimerExpiry (p : Nat) : Statement (.replayTimerExpiry p) := wf_iff _
theorem controlFlitDue (p : Nat) : Statement (.controlFlitDue p) := wf_iff _
theorem initResend (p : Nat) : Statement (.initResend p) := wf_iff _
theorem ringPeriodic  : Statement (.ringPeriodic) := wf_iff _
theorem rd (p : Nat) (msg : FarReq) : Statement (.rd p msg) := wf_iff _
theorem wr (p : Nat) (msg : FarReq) (data : BitVec 512) : Statement (.wr p msg data) := wf_iff _
theorem wrp (p : Nat) (msg : FarReq) (data : BitVec 512) (be : BitVec 64) : Statement (.wrp p msg data be) := wf_iff _
theorem sync (p : Nat) (src : Nat) (token : Nat) : Statement (.sync p src token) := wf_iff _
theorem rdRsp (p : Nat) (src : Nat) (tag : Nat) (status : Nat) (poison : Bool) (data : BitVec 512) : Statement (.rdRsp p src tag status poison data) := wf_iff _
theorem wrRsp (p : Nat) (src : Nat) (tag : Nat) (status : Nat) (seq : Nat) : Statement (.wrRsp p src tag status seq) := wf_iff _
theorem syncAck (p : Nat) (src : Nat) (base : Nat) : Statement (.syncAck p src base) := wf_iff _
theorem farWriteApplied (src : Nat) (seq : Nat) : Statement (.farWriteApplied src seq) := wf_iff _
theorem e2eTimeout (id : Nat) (sync : Option Nat) : Statement (.e2eTimeout id sync) := wf_iff _
theorem farLimitExpiry (id : Nat) : Statement (.farLimitExpiry id) := wf_iff _
theorem discoveryRound  : Statement (.discoveryRound) := wf_iff _
theorem assignTimeout  : Statement (.assignTimeout) := wf_iff _
theorem heartbeatCheck (beats : List (Nat × BitVec 32)) : Statement (.heartbeatCheck beats) := wf_iff _
theorem coreRoleMoveDone (core : Nat) : Statement (.coreRoleMoveDone core) := wf_iff _
theorem bootCoreAliveTimeout  : Statement (.bootCoreAliveTimeout) := wf_iff _
theorem bootRom  : Statement (.bootRom) := wf_iff _
theorem flashCopyChecked (copy : Nat) (readErr : Bool) : Statement (.flashCopyChecked copy readErr) := wf_iff _
theorem memActive  : Statement (.memActive) := wf_iff _
theorem kick (path : Path) : Statement (.kick path) := wf_iff _
theorem wdtHalfTimeout  : Statement (.wdtHalfTimeout) := wf_iff _
theorem wdtTimeout  : Statement (.wdtTimeout) := wf_iff _
theorem eventTick  : Statement (.eventTick) := wf_iff _
theorem evtLdTest (path : Path) (h : Nat) (l : Nat) : Statement (.evtLdTest path h l) := wf_iff _
theorem evtFmTest (path : Path) : Statement (.evtFmTest path) := wf_iff _
theorem now (path : Path) : Statement (.now path) := wf_iff _
theorem aonEntryStart (pendingEvent : Bool) : Statement (.aonEntryStart pendingEvent) := wf_iff _
theorem p2EntryComplete  : Statement (.p2EntryComplete) := wf_iff _
theorem flushDone  : Statement (.flushDone) := wf_iff _
theorem p3PowerDown  : Statement (.p3PowerDown) := wf_iff _
theorem wakeEvent (code : Nat) : Statement (.wakeEvent code) := wf_iff _
theorem p2EntryRetry  : Statement (.p2EntryRetry) := wf_iff _
theorem cricketMatch (addr : BitVec 7) : Statement (.cricketMatch addr) := wf_iff _
theorem wakeN  : Statement (.wakeN) := wf_iff _
theorem epochAlarm  : Statement (.epochAlarm) := wf_iff _
theorem p1ExitDone  : Statement (.p1ExitDone) := wf_iff _
theorem p2ExitDone  : Statement (.p2ExitDone) := wf_iff _
theorem resumeAreaCheck (uncorrectable : Bool) : Statement (.resumeAreaCheck uncorrectable) := wf_iff _
theorem canaryCheck (bad : List (Nat × Nat × Nat)) (corrected : List (Nat × Nat × Nat)) (serials : List (Nat × BitVec 32)) : Statement (.canaryCheck bad corrected serials) := wf_iff _
theorem p3ExitDone (lsTicks : Nat) (switched : Bool) : Statement (.p3ExitDone lsTicks switched) := wf_iff _
theorem powerOnReset  : Statement (.powerOnReset) := wf_iff _
theorem coldCmd (path : Path) : Statement (.coldCmd path) := wf_iff _
theorem warmReq (path : Path) : Statement (.warmReq path) := wf_iff _
theorem resetNLow (low : Bool) : Statement (.resetNLow low) := wf_iff _
theorem quiesceDone  : Statement (.quiesceDone) := wf_iff _
theorem quiesceTimeout  : Statement (.quiesceTimeout) := wf_iff _
theorem resetRelease  : Statement (.resetRelease) := wf_iff _
theorem blkRstReq (path : Path) (block : Nat) : Statement (.blkRstReq path block) := wf_iff _
theorem blockResetEnd (block : Nat) : Statement (.blockResetEnd block) := wf_iff _
theorem fuseLoadDone (rows : List (Nat × FuseOutcome)) (fuses : Fuses) (trngFails : Nat) : Statement (.fuseLoadDone rows fuses trngFails) := wf_iff _
theorem xtalQualified (straps : Straps) : Statement (.xtalQualified straps) := wf_iff _
theorem lsclkSwitch (toRc : Bool) : Statement (.lsclkSwitch toRc) := wf_iff _
theorem pllLockLoss (pll : Nat) : Statement (.pllLockLoss pll) := wf_iff _
theorem pllRelockRetry (pll : Nat) (locked : Bool) : Statement (.pllRelockRetry pll locked) := wf_iff _
theorem pllQualified (pll : Nat) : Statement (.pllQualified pll) := wf_iff _
theorem supplyGroupEnable (g : Nat) : Statement (.supplyGroupEnable g) := wf_iff _
theorem supplyRiseTimeout (i : Nat) : Statement (.supplyRiseTimeout i) := wf_iff _
theorem supplyWarn (i : Nat) : Statement (.supplyWarn i) := wf_iff _
theorem supplyRecovered (i : Nat) : Statement (.supplyRecovered i) := wf_iff _
theorem brownThrottleLift  : Statement (.brownThrottleLift) := wf_iff _
theorem supplyResetCrossing (i : Nat) : Statement (.supplyResetCrossing i) := wf_iff _
theorem thermalThrottle (tj : Nat) : Statement (.thermalThrottle tj) := wf_iff _
theorem thermalThrottleLift  : Statement (.thermalThrottleLift) := wf_iff _
theorem thermalShutdown  : Statement (.thermalShutdown) := wf_iff _
theorem d2dLinkLost (k : Nat) : Statement (.d2dLinkLost k) := wf_iff _
theorem ftimePulse (t : Nat) : Statement (.ftimePulse t) := wf_iff _
theorem ftimePulseMissed  : Statement (.ftimePulseMissed) := wf_iff _
theorem xtalBoundary  : Statement (.xtalBoundary) := wf_iff _
theorem epochLoad (path : Path) (value : BitVec 48) : Statement (.epochLoad path value) := wf_iff _
theorem lsCalibration (ratio : BitVec 32) : Statement (.lsCalibration ratio) := wf_iff _
theorem read32 (req : List (BitVec 8)) (pec : Option (BitVec 8)) : Statement (.read32 req pec) := wf_iff _
theorem read64 (req : List (BitVec 8)) (pec : Option (BitVec 8)) : Statement (.read64 req pec) := wf_iff _
theorem write32 (req : List (BitVec 8)) (pec : Option (BitVec 8)) : Statement (.write32 req pec) := wf_iff _
theorem write64 (req : List (BitVec 8)) (pec : Option (BitVec 8)) : Statement (.write64 req pec) := wf_iff _
theorem registerWrite (path : Path) (addr : Nat) (width : Nat) (value : BitVec 64) : Statement (.registerWrite path addr width value) := wf_iff _
theorem registerReadClear (path : Path) (addr : Nat) (width : Nat) : Statement (.registerReadClear path addr width) := wf_iff _
theorem lock (path : Path) (block : Nat) : Statement (.lock path block) := wf_iff _
theorem aesKeyParityError (p : Nat) : Statement (.aesKeyParityError p) := wf_iff _
theorem scarabEngineFault (e : Nat) : Statement (.scarabEngineFault e) := wf_iff _
theorem coreSramError (core : Nat) (uncorrectable : Bool) : Statement (.coreSramError core uncorrectable) := wf_iff _
theorem chainLowPowerSubstate (p : Nat) : Statement (.chainLowPowerSubstate p) := wf_iff _
theorem ideIntegrityFailure (stream : IdeStream) : Statement (.ideIntegrityFailure stream) := wf_iff _
theorem jtagInstruction (ir : Nat) : Statement (.jtagInstruction ir) := wf_iff _
theorem d2dTransferReplay (k : Nat) (failures : Nat) : Statement (.d2dTransferReplay k failures) := wf_iff _

end Sys2Proof.Laws.WellFormedness
end

