-- ==== Sys2Proof/Tests/Slice0.lean ====
section
/-!
SUPPORT. Tests/Slice0.lean: the model's own tests: operands out of range are refused, the spec's worked examples and
check values, and for every statement with hypotheses a state and operands that meet them.
-/
namespace Sys2Proof.Tests
open Sys2Proof.Machine Sys2Proof.Safety
set_option linter.unusedVariables false
set_option Elab.async false

/-! ## Well-formedness: the last value of each range, and the first beyond it -/

theorem test_wf_head : (Instr.hostRead 15 0 0 { mv := .any, err := .none } 0).wf = true ∧ (Instr.hostRead 16 0 0 { mv := .any, err := .none } 0).wf = false := by decide

theorem test_wf_ld : (Instr.hostRead 0 3 0 { mv := .any, err := .none } 0).wf = true ∧ (Instr.hostRead 0 4 0 { mv := .any, err := .none } 0).wf = false := by decide

theorem test_wf_tag : (Instr.hostRead 0 0 0 { mv := .any, err := .none } 65535).wf = true ∧ (Instr.hostRead 0 0 0 { mv := .any, err := .none } 65536).wf = false := by decide

theorem test_wf_slot : (Instr.tmeMissFill 63 0 []).wf = true ∧ (Instr.tmeMissFill 64 0 []).wf = false := by decide

theorem test_wf_tile : (Instr.tmeMissFill 0 4294967295 []).wf = true ∧ (Instr.tmeMissFill 0 4294967296 []).wf = false := by decide

theorem test_wf_aesPipe : (Instr.bulkTileReadDone 0 [] [] 49 false).wf = true ∧ (Instr.bulkTileReadDone 0 [] [] 50 false).wf = false := by decide

theorem test_wf_cdcPipe : (Instr.codecTileDone 0 16 false).wf = true ∧ (Instr.codecTileDone 0 17 false).wf = false := by decide

theorem test_wf_engine : (Instr.demotionSelect 31).wf = true ∧ (Instr.demotionSelect 32).wf = false := by decide

theorem test_wf_dirBank : (Instr.dirBankActivate .cores 15 0).wf = true ∧ (Instr.dirBankActivate .cores 16 0).wf = false := by decide

theorem test_wf_dirWay : (Instr.dirBankActivate .cores 0 16).wf = true ∧ (Instr.dirBankActivate .cores 0 17).wf = false := by decide

theorem test_wf_core : (Instr.ctlCoreActivate .cores 15).wf = true ∧ (Instr.ctlCoreActivate .cores 16).wf = false := by decide

theorem test_wf_channel : (Instr.dramCommandSlot .near 31 0 []).wf = true ∧ (Instr.dramCommandSlot .near 32 0 []).wf = false := by decide

theorem test_wf_bulkChannel : (Instr.rowRemapCopyDone 15 0).wf = true ∧ (Instr.rowRemapCopyDone 16 0).wf = false := by decide

theorem test_wf_dimm : (Instr.pmicPowerFault 31).wf = true ∧ (Instr.pmicPowerFault 32).wf = false := by decide

theorem test_wf_rank : (Instr.refreshDue .near 0 15).wf = true ∧ (Instr.refreshDue .near 0 16).wf = false := by decide

theorem test_wf_queue : (Instr.doorbellWrite 0 0 1048575 0 0).wf = true ∧ (Instr.doorbellWrite 0 0 1048576 0 0).wf = false := by decide

theorem test_wf_log : (Instr.getEventRecords 0 0 3).wf = true ∧ (Instr.getEventRecords 0 0 4).wf = false := by decide

theorem test_wf_line : (Instr.birspi 0 1099511627775).wf = true ∧ (Instr.birspi 0 1099511627776).wf = false := by decide

theorem test_wf_cls : (Instr.minwinEnd 15).wf = true ∧ (Instr.minwinEnd 16).wf = false := by decide

theorem test_wf_chain : (Instr.clDownTimer 1).wf = true ∧ (Instr.clDownTimer 2).wf = false := by decide

theorem test_wf_seq12 : (Instr.nak 0 { ack := none, reqH := 0, reqD := 0, rspH := 0, rspD := 0 } 4095).wf = true ∧ (Instr.nak 0 { ack := none, reqH := 0, reqD := 0, rspH := 0, rspD := 0 } 4096).wf = false := by decide

theorem test_wf_unit : (Instr.sync 0 15 0).wf = true ∧ (Instr.sync 0 16 0).wf = false := by decide

theorem test_wf_seq32 : (Instr.sync 0 0 4294967295).wf = true ∧ (Instr.sync 0 0 4294967296).wf = false := by decide

theorem test_wf_byte : (Instr.rdRsp 0 0 0 255 false 0).wf = true ∧ (Instr.rdRsp 0 0 0 256 false 0).wf = false := by decide

theorem test_wf_copy : (Instr.flashCopyChecked 1 false).wf = true ∧ (Instr.flashCopyChecked 2 false).wf = false := by decide

theorem test_wf_wake : (Instr.wakeEvent 8).wf = true ∧ (Instr.wakeEvent 9).wf = false := by decide

theorem test_wf_block : (Instr.blkRstReq .cores 14).wf = true ∧ (Instr.blkRstReq .cores 15).wf = false := by decide

theorem test_wf_pll : (Instr.pllLockLoss 9).wf = true ∧ (Instr.pllLockLoss 10).wf = false := by decide

theorem test_wf_group : (Instr.supplyGroupEnable 4).wf = true ∧ (Instr.supplyGroupEnable 5).wf = false := by decide

theorem test_wf_supply : (Instr.supplyRiseTimeout 9).wf = true ∧ (Instr.supplyRiseTimeout 10).wf = false := by decide

theorem test_wf_die : (Instr.d2dLinkLost 3).wf = true ∧ (Instr.d2dLinkLost 4).wf = false := by decide

theorem test_wf_regAddr : (Instr.registerWrite .cores 17825791 64 0).wf = true ∧ (Instr.registerWrite .cores 17825792 64 0).wf = false := by decide

theorem test_wf_width : (Instr.registerWrite .cores 0 512 0).wf = true ∧ (Instr.registerWrite .cores 0 513 0).wf = false := by decide

theorem test_wf_level : (Instr.xtalQualified { bifur := 0, refmode0 := 0, refmode1 := 0, chainHead := false, addr0 := 2, addr1 := 0, addr2 := 0 }).wf = true ∧ (Instr.xtalQualified { bifur := 0, refmode0 := 0, refmode1 := 0, chainHead := false, addr0 := 3, addr1 := 0, addr2 := 0 }).wf = false := by decide

theorem test_wf_stream : (Instr.ideIntegrityFailure { port := 0, number := 2 }).wf = true ∧ (Instr.ideIntegrityFailure { port := 0, number := 3 }).wf = false := by decide

theorem test_wf_refmode : (Instr.xtalQualified { bifur := 0, refmode0 := 3, refmode1 := 0, chainHead := false, addr0 := 0, addr1 := 0, addr2 := 0 }).wf = true ∧ (Instr.xtalQualified { bifur := 0, refmode0 := 4, refmode1 := 0, chainHead := false, addr0 := 0, addr1 := 0, addr2 := 0 }).wf = false := by decide

/-! ## The queue -/

theorem test_idle : step State.reset = .next State.reset := rfl

theorem test_decodes_nothing : decodeTableWord 16 0x1234 = none := rfl

/-! ## Check values and worked examples of the spec -/

/-- Table 3.2: the check value of CRC-32C over "123456789". -/
theorem test_crc32c : crc32c [0x31, 0x32, 0x33, 0x34, 0x35, 0x36, 0x37, 0x38, 0x39] = 0xE3069283#32 := by decide +kernel

/-- Table 12.4: the check value of CRC-64 over "123456789". -/
theorem test_crc64 : crc64 [0x31, 0x32, 0x33, 0x34, 0x35, 0x36, 0x37, 0x38, 0x39] = 0x995DC9BBDF1939FA#64 := by
  decide +kernel

/-- Table 3.10: the stored sector of the example. -/
def sector310 : List Byte :=
  [0x95, 3, 0, 0, 0x40, 0x61, 0x62, 0x63, 0x64, 0x65, 0x66, 0x05, 0x30, 0, 0xff] ++
    (List.replicate 8 [0x00, 0xf0, 0xff]).flatten ++ [0x7f] ++ (List.replicate 6 [0x00, 0xf0, 0xff]).flatten ++
    [0x00, 0xf0, 0xf3, 0, 0, 0]

/-- Table 3.11: its decode. -/
theorem test_vtf_decode :
    (match decodeTile sector310 with
     | .ok t => decide (t.length = 4096 ∧ t.take 13 = [0x61, 0x62, 0x63, 0x64, 0x65, 0x66, 0x61, 0x62, 0x63, 0x64, 0x65, 0x66, 0])
     | .error _ => false) = true := by decide +kernel

/-- The example of R201's chapter: frame 1,000, line 37 with 32 channels lies on NC13, bank 2, row 4. -/
theorem test_near_place : (nearPlace 32 1000 37).ch = 13 ∧ (nearPlace 32 1000 37).bank = 2 ∧ (nearPlace 32 1000 37).row = 4 := by
  decide

/-- The directory example (09): the set of the line at DPA 0x0123_4567_8940. -/
theorem test_dir_set : dirSet (0x012345678940 / 64) = 0x159aa8 := by decide

/-- The example of R341: MAX = 10 gives 10, 7, 5 and 2. -/
theorem test_limits : (List.range 4).map (effLimit 10) = [10, 7, 5, 2] := by decide

/-- Table 10.4, steps 1, 2 and 3: tiles A and B, the refill at b1, tile C. -/
theorem test_bucket :
    let b : Bucket := { rate := 2000, burst := 8192, newRate := 2000, newBurst := 8192, pending := false, bal := 8192 }
    let b1 := { b with bal := debited (debited b.bal 4112 16) 4112 16 }
    b1.bal = -32 ∧ b1.refill.bal = 1968 ∧ debited b1.refill.bal 4112 16 = -2144 := by decide

/-- Table 10.4, step 6: new values in force, the debt kept. -/
theorem test_bucket_debt :
    ({ rate := 2000, burst := 8192, newRate := 500, newBurst := 2048, pending := true, bal := -2256 } : Bucket).refill =
      { rate := 500, burst := 2048, newRate := 500, newBurst := 2048, pending := false, bal := -1756 } := by decide

/-- The floor of the same example: a balance of −40 debited 4,112 stops at −4,112. -/
theorem test_bucket_floor : debited (-40) 4112 16 = -4112 := by decide

/-- Table 8.8: the input of REGION_CREATE, and RESERVE. -/
theorem test_region_input :
    let c := Spec.ofInput ([0x09, 0x02, 0x03, 0x02, 0, 0, 0, 0, 0x10, 0, 0, 0, 0, 0x04, 0, 0x02, 0, 0, 0, 0x80, 0, 0, 0, 0,
      0, 0, 1, 0, 0x4b, 0x5a, 0x61, 0] ++ List.replicate 32 0)
    c.slot = 9 ∧ c.type = 2 ∧ c.base = 1024 ∧ c.size = 512 ∧ c.owner = 16 ∧ c.budget = 0x80000000 ∧
      reserveOf c.dirtyCap = 0x404000 ∧ (c.t1, c.t2, c.t3) = (75, 90, 97) := by decide

/-- The KDF example of 04: the message of the first iteration for slot 5 at generation 3. -/
theorem test_kdf_input :
    kdfInput 1 labelBulk 5 0 0 3 256 =
      [0, 0, 0, 1, 0x56, 0x4b, 0x42, 0x31, 0, 5, 0, 0, 0, 3, 0, 0, 0, 0, 0, 1, 0] := by decide

/-- The PMU example of R472: TMU_RGN_DROP.DROP_CNT is code 1 of its block. -/
theorem test_pmu_code : rcCode F.TMU_RGN_DROP_DROP_CNT 0 = 1 := by decide +kernel

/-- R535: page 1 of HLX lies at 0x0030_1000, HP15 at 0x0031_0000. -/
theorem test_pages : (regBlk 0x301000, regPage 0x301000) = (2, 1) ∧ (regBlk 0x310000, regPage 0x310000) = (2, 16) := by decide

/-- R407: a codeword decodes as it is, and with one byte wrong it is corrected. -/
theorem test_fec :
    let b := List.replicate 124 (0x5a : Byte)
    let w := b ++ fecParity b
    fecDecode w = some (w, false) ∧ fecDecode (flipAt w 77 0x33) = some (w, true) := by decide +kernel

/-- FIPS 197, appendix C.3: AES-256. -/
theorem test_aes :
    aesBlock (roundKeys ((List.range 32).map (BitVec.ofNat 8)))
      [0x00, 0x11, 0x22, 0x33, 0x44, 0x55, 0x66, 0x77, 0x88, 0x99, 0xaa, 0xbb, 0xcc, 0xdd, 0xee, 0xff] =
      [0x8e, 0xa2, 0xb7, 0xca, 0x51, 0x67, 0x45, 0xbf, 0xea, 0xfc, 0x49, 0x90, 0x4b, 0x49, 0x60, 0x89] := by decide +kernel

/-- Table 5.3: an entry of tile 5 in slot 3, DIRTY, pinned, HEAT 9, STAMP 0x123, written out from its bit ranges. -/
theorem test_fte :
    (Fte.enc { tile := 5, slot := 3, state := .dirty, pin := true, first := false, heat := 9, stamp := 0x123 }).toNat =
      5 + 3 * 2 ^ 32 + 3 * 2 ^ 38 + 2 ^ 41 + 9 * 2 ^ 44 + 0x123 * 2 ^ 48 ∧
    Fte.dec (BitVec.ofNat 64 (5 * 2 ^ 38)) = none := by decide

/-- CXL decode: with 3 ways of 256 B, bytes 0x300 and on of a range are the device's second granule. -/
theorem test_hdm_offset :
    Decoder.offset { base := 0x10000000, size := 0x30000000, skip := 0, ways := 3, gran := 256 } 0x10000345 = 0x145 := by decide

/-- Scrambling twice from one seed gives the bits back (R404). -/
theorem test_scramble :
    (scramble (lfsrSeed 0) (scramble (lfsrSeed 0) [true, false, true, true]).1).1 = [true, false, true, true] := by decide

/-- R205 and R206: one bad device or symbol is corrected, two are detected. -/
theorem test_codes : bulkEcc [3] = .corrected ∧ bulkEcc [3, 7] = .uncorrectable ∧ nearEcc [33, 33] = .corrected := by decide

/-! ## States for witnesses -/

/-- The unit out of reset with firmware running and memory active: the state in which most commands act. -/
def up : State :=
  let s := State.reset.setAon { State.reset.aon with
    held := false, loaded := true, strapped := true, groups := 4, passed := 1023, pllOk := 1023, seenActive := true }
  ((s.wr F.AON_CLK_STS_XTAL_OK 1).wr F.CTL_HEALTH_STATE 2).wr F.CTL_HEALTH_MEM_ACTIVE 1

/-- The AON supplies are up and the fuses are loaded; no supply group is enabled yet. -/
def cold : State := State.reset.setAon { State.reset.aon with loaded := true, strapped := true }

/-- SET_POWER_STATE has been taken for state t. -/
def armed (t : Nat) : State :=
  ((up.wr F.AON_PWR_MODE_TARGET t).wr F.AON_PWR_MODE_ARM 1).setEntry { stage := 1, wakes := [], attempts := 0, retry := false }

/-- A P2 entry whose tiers are entering self-refresh. -/
def entering : State :=
  let s := ((armed 2).wr F.NTC_SR_STATE 1).wr F.BTC_SR_STATE 1
  (s.setMem { s.mem with entry := 1 }).setEntry { stage := 2, wakes := [], attempts := 1, retry := false }

/-- Resident in P1, P2 or P3. -/
def asleep (t : Nat) : State :=
  let s := (up.wr F.AON_PWR_MODE_TARGET t).wr F.AON_PWR_MODE_CUR t
  (if t = 1 then s else (s.wr F.NTC_SR_STATE 2).wr F.BTC_SR_STATE 2).setEntry
    { stage := 4, wakes := [], attempts := 0, retry := false }

/-- On the way out of P3, before the resume area is checked. -/
def leaving : State :=
  let s := ((asleep 3).wr F.CTL_HEALTH_STATE 0).setEntry { stage := 5, wakes := [], attempts := 0, retry := false }
  s.setCtl { s.ctl with romRan := true }

/-- One rank set of one channel, and a signed canary in its bank 3. -/
def canaried : State :=
  let s := leaving.wr F.BTC_CONFIG_CH_ACTIVE 1
  (s.setBulk { s.bulk with sets := [{ id := 0, slot := 0, rank := 0, first := 0, sectors := 8192, rows := 1, usable := true }] }).setMem
    { s.mem with canaries := [(canaryKey 0 0 3, 1#32)] }

/-- A unit that may serve: an AES pipe, a root key, a port and two near positions. -/
def serves (s : State) : State :=
  let s := (((s.wrI F.CRY_PIPE_CTL_STATE 0 1).wrI F.HLX_PORT_STS_LINK_UP 0 1).wrI F.HLX_PORT_STS_WIDTH 0 5).wrI F.HLX_PORT_STS_HEAD 0 1
  let s := (s.wr F.NTC_CONFIG_POS_ACTIVE 3).wr F.NTC_CONFIG_NCH 4
  let s := (s.wr F.BTC_CONFIG_CH_ACTIVE 1).wr F.BTC_CONFIG_NCH 1
  s.setCry { s.cry with root := some 1 }

/-- Trained and about to serve. -/
def servable : State :=
  let s := (serves up).wr F.CTL_HEALTH_MEM_ACTIVE 0
  s.setCtl { s.ctl with trained := true }

/-! ### A firmware copy that passes the checks of Table 13.5: 64 zero bytes, signed with the private key 1, whose public
key is the base point; the numbers were worked out outside Lean from the definition of ECDSA. -/

/-- Its body. -/
def image0 : List Byte := List.replicate 64 0

/-- The signing key, and the hash of it that a fuse row holds. -/
def key0 : List Byte := beBytes 48 gx384 ++ beBytes 48 gy384
def keyHash0 : BitVec 384 := 0xa19d4db171b582eb8052b0cfe555e17894aa22d1c8a9770950697dd8f796d2fa4bf0a56ad80006b7ea08e1191f814b65#384

/-- Its header: VERSION 7, SVN 3, LEN 64, ENTRY 0, KEY 0. -/
def header0 : List Byte :=
  [0x50, 0x4e, 0x56, 0x41] ++ leBytes 2 1 ++ leBytes 2 0x9144 ++ leBytes 4 7 ++ leBytes 4 3 ++ leBytes 4 64 ++ leBytes 12 0 ++
  beBytes 48 0xc516aa8d3b457c636c6826937099c0d23a13f2c3701a388b3c8fe4bc2073281b0c4462610369884c4ababa8e97b6debe ++
  leBytes 16 0 ++ key0 ++ leBytes 64 0 ++
  beBytes 48 0x08d999057ba3d2d969260045c55b97f089025959a6f434d651d207d19fb96e9e4fe0e86ebe0e64f85b96a9c75295df61 ++
  beBytes 48 0x418640b9a42dc91d9f2c62869d1159f9215e3eca4ce2a080b769d3918354729d6cf1ec246df23c9093390b5dfe75125e ++
  leBytes 160 0

/-- A unit whose fuses hold the key. -/
def fused (s : State) : State :=
  { s with fuses := { s.fuses with keyFused := 1, keyHashes := [keyHash0], revoked := 0, minSvn := 3 } }

/-- Copy A of the flash holds the image and is the one to check. -/
def flashed : State :=
  fused (up.setCtl { up.ctl with flash := memWrite 0xff [] 0x100000 (header0 ++ image0), checking := some 0 })

/-- The copy passes every check. -/
theorem flashed_ok : flashed.checkFlash 0 false = 0 := by
  have hf : ∀ o n, o + n ≤ 576 → flashed.flash (0x100000 + o) n = ((header0 ++ image0).drop o).take n :=
    fun o n h => memReadN_memWrite 0xff [] 0x100000 (header0 ++ image0) o n (Nat.le_trans h (by decide +kernel))
  have h0 : flashed.flash (copyBase 0) 512 = header0 := (hf 0 512 (by decide)).trans (by decide +kernel)
  have h1 : flashed.flash (copyBase 0 + 512) 64 = image0 := (hf 512 64 (by decide)).trans (by decide +kernel)
  have hl : min 8388096 (numAt header0 0x10 4) = 64 := by decide +kernel
  have hc : checkCopy flashed.fuses header0 image0 false = 0 := by decide +kernel
  unfold State.checkFlash
  simp only [h0, hl, h1, hc]

/-- A copy whose first bytes are not the magic fails check 1. -/
theorem checkFlash_magic (s : State) (copy : Nat) (e : Bool)
    (h : bytesAt (s.flash (copyBase copy) 512) 0 4 ≠ [0x50, 0x4e, 0x56, 0x41]) : s.checkFlash copy e ≠ 0 := by
  intro hc
  unfold State.checkFlash checkCopy at hc
  dsimp only at hc
  rw [if_pos (Or.inl h)] at hc
  exact absurd hc (by decide)

/-- HDM decoder 0 of LD 0 of head 0 is committed over the host physical addresses below 2^47. -/
def decoded (s : State) : State :=
  (((s.putLow 0 (hdmBase + 4) 2).putLow 0 (hdmBase + 0x1c) 0x8000).putLow 0 (hdmBase + 0x20) 1024)

/-- The unit serving: a pipe and an engine of each kind, head 0 up, near frames, and region 1, ELASTIC, of head 0. -/
def live : State :=
  let s := (((servable.wr F.CTL_HEALTH_MEM_ACTIVE 1).wr F.CTL_HEALTH_STATE 3).wrI F.CDC_PIPE_CTL_STATE 0 1).wrI F.SCR_ENG_CTL_STATE 0 1
  let s := ((s.wrI F.TMU_RGN_MAP_TYPE 1 2).wrI F.TMU_RGN_MAP_STATE 1 1).wrI F.TMU_RGN_MAP_OWNER 1 1
  decoded ((s.wrI F.TMU_RGN_MAP_SIZE 1 1).wr F.SCR_FRAMES_TOTAL 8)

/-- A ZERO tile. -/
def tile0 : Tme :=
  { loc := 0, len := 0, fmt := .zero, gen := false, nv := false, near := 0, home := 0, ctr := 0, poison := false,
    pinned := false, retired := false, transit := false, saturated := false, unmat := true, tcs := 0, tag := 0, rsv := 0 }

/-- A tile of region 1 held in the tile map cache. -/
def withTile (s : State) (tile : Nat) (t : Tme) : State :=
  s.setTmu { s.tmu with cache := mput s.tmu.cache (tkey 1 tile) { tme := t, dirty := true, used := 0 } }

/-- The same with LD 0 of head 0 holding every permission. -/
def owned : State :=
  (((live.wrI F.HLX_HEAD_PERM_FM 0 1).wrI F.HLX_HEAD_PERM_KEYLOAD 0 1).wrI F.HLX_HEAD_PERM_DIAG 0 1).wrI
    F.HLX_HEAD_PERM_PERF_USER 0 1

/-- No region. -/
def bare : State := owned.wrI F.TMU_RGN_MAP_STATE 1 0

/-- A descriptor. -/
def descr (op flags arg src dst len dlen : Nat) : List Byte :=
  leBytes 1 op ++ leBytes 1 flags ++ leBytes 1 arg ++ leBytes 1 0 ++ leBytes 4 0 ++ leBytes 8 src ++ leBytes 8 dst ++
    leBytes 4 len ++ leBytes 4 dlen ++ List.replicate 32 0

/-- A job of queue 0 that waits to start. -/
def mkJob (desc : List Byte) : Job :=
  { id := 4, queue := 0, index := 0, owner := 0, cls := 2, key := 0, bucket := 1, desc := desc, phase := .waiting,
    engine := none, parts := [], next := 0, outNext := 0, acc := [], out := none, result := 0, status := none,
    late := none, abort := 0, before := [], ended := 0, blocks := [], cut := 0,
    nextBlock := 0, made := [], lastPipe := none }

/-- An SQ, 0, and its CQ, 1, both ACTIVE and cached, of LD 0 of head 0, which may reach region 1. -/
def queued : State :=
  let s := (owned.wrI F.HLX_LD_RGN_SLOTS 0 2).wrI F.HLX_LD_QUEUES_QCOUNT 0 16
  s.setJob { s.job with
    ctxs := [(0, { qctxReset with state := 1, qdepth := 4, log2 := 4, cq := 1 }),
             (1, { qctxReset with typ := 1, state := 1, log2 := 4, base := 8192, intEn := true })],
    cache := [(0, 0), (1, 1), (2, 2), (3, 3)], clock := 4 }

/-- One job of it. -/
def jobbed (j : Job) : State := queued.setJob { queued.job with jobs := [j], nextJob := 5 }

/-- Region 1 PLAIN over one rank set, a free chunk at sector 4096, and one reserve chunk. -/
def spared (s : State) : State :=
  let s := ((s.wrI F.TMU_RGN_MAP_TYPE 1 1).wr F.RAS_RESERVE_TOTAL 4096).wr F.RAS_RESERVE2_REMAIN 4096
  (s.setBulk { s.bulk with sets := [{ id := 0, slot := 0, rank := 0, first := 0, sectors := 8192000, rows := 1000, usable := true }] }).setTmu
    { s.tmu with freeIv := [(4096, 4096)] }

/-- Both chain ports ACTIVE, the unit without a chain ID. -/
def linked : State :=
  let s := (live.wrI F.CLX_PORT_STS_STATE 0 5).wrI F.CLX_PORT_STS_STATE 1 5
  { s with fuses := { s.fuses with sn := 7 } }

/-- The same as member 2 of a ring. -/
def member : State := (linked.wr F.CLX_ID_ID 2).wr F.CLX_ID_VALID 1

/-- A port in another state, with changed contents. -/
def portAt (s : State) (p st : Nat) (c : ClPort) : State := (s.wrI F.CLX_PORT_STS_STATE p st).setClp p c

/-- A link state block without an acknowledgement. -/
def lsb0 : LinkState := { ack := none, reqH := 9, reqD := 8, rspH := 7, rspD := 6 }

/-- The header of a far request of unit 3 for line 5 of slot 1. -/
def far3 : FarReq := { src := 3, cls := 2, ttl := 9, key := 0, poison := false, tag := 40, slot := 1, line := 5, seq := 0 }

/-- A message that has waited to go. -/
def farReq (s : State) (kind : ReqKind) : FarOut :=
  { id := 8, home := 3, slot := 1, line := 5, tag := 40, sent := true, port := 1, seq := 6,
    req := { s.hostReq kind 0 0 (0x140#64) { mv := .invalid, err := .none } 6 with id := 8, cls := 2 } }

/-- One far request out. -/
def asking (kind : ReqKind) : State := member.setClx { member.clx with reqs := [farReq member kind] }

theorem wit_SupplyEnables_supplyGroupEnable :
    ∃ (s : State) (g : Nat), s.aon.held = true ∧ s.aon.loaded = true ∧ s.aon.off = 0 ∧ g = s.aon.groups + 1 ∧ g ≤ 4 :=
  ⟨cold, 1, by decide⟩

theorem wit_SupplyEnables_supplyRiseTimeout :
    ∃ (s : State) (i : Nat), s.aon.off = 0 ∧ 2 ≤ i ∧ i < 10 ∧ supplyGroup i ≤ s.aon.groups ∧ s.aon.passed.testBit i = false :=
  ⟨cold.setAon { cold.aon with groups := 1 }, 2, by decide⟩

theorem wit_SupplyEnables_pllQualified :
    ∃ (s : State) (pll : Nat), s.aon.off = 0 ∧ s.aon.groups = 4 ∧ pll < 10 :=
  ⟨up, 0, by decide⟩

theorem wit_SupplyEnables_pllRelockRetry :
    ∃ (s : State) (pll : Nat), s.aon.pllOk.testBit pll = false ∧ pll < 10 :=
  ⟨State.reset, 0, by decide⟩

theorem wit_SupplyEnables_resetRelease :
    ∃ (s : State), s.aon.held = true ∧ s.aon.extLow = false ∧ s.aon.loaded = true ∧ s.rd F.AON_CLK_STS_XTAL_OK = 1 ∧ s.aon.groups = 4 ∧ s.aon.off = 0 ∧ s.aon.pllOk.testBit 0 = true ∧ s.aon.pllOk.testBit 1 = true :=
  ⟨up.setAon { up.aon with held := true }, by decide⟩

theorem wit_BrownThrottle_supplyWarn :
    ∃ (s : State) (i : Nat), i < 10 ∧ s.masked i = false ∧ s.aon.off = 0 ∧ s.aon.entry.stage = 0 ∧ s.rd F.AON_SUP_CNT_WARNS + 1 < 2 ^ 32 :=
  ⟨up, 3, by decide⟩

theorem wit_BrownThrottle_supplyRecovered :
    ∃ (s : State) (i : Nat), i < 10 ∧ s.aon.off = 0 ∧ s.rd F.AON_SUP_STS_WARN = 2 ^ i :=
  ⟨up.wr F.AON_SUP_STS_WARN 8, 3, by decide⟩

theorem wit_BrownThrottle_brownThrottleLift :
    ∃ (s : State), s.aon.liftDue = true :=
  ⟨up.setAon { up.aon with liftDue := true }, by decide⟩

theorem wit_BrownThrottle_thermalThrottle :
    ∃ (s : State) (tj : Nat), 105 ≤ tj ∧ tj < 256 ∧ s.aon.off = 0 ∧ s.aon.entry.stage = 0 ∧ s.aon.brownThermal = false :=
  ⟨up, 105, by decide⟩

theorem wit_BrownThrottle_thermalThrottleLift :
    ∃ (s : State), s.aon.brownThermal = true :=
  ⟨up.setAon { up.aon with brownThermal := true }, by decide⟩

theorem wit_BrownThrottle_lsclkSwitch :
    ∃ (s : State) (toRc : Bool), s.rdb F.AON_CLK_STS_LS_RC ≠ toRc ∧ s.rd F.AON_CLK_STS_XTAL_OK = 1 :=
  ⟨up, true, by decide⟩

theorem wit_OffAndIdentity_thermalShutdown :
    ∃ (s : State), s.aon.off = 0 :=
  ⟨up, by decide⟩

theorem wit_OffAndIdentity_xtalQualified :
    ∃ (s : State) (straps : Straps), s.rd F.AON_CLK_STS_XTAL_OK = 0 ∧ s.aon.off = 0 ∧ s.aon.strapped = false :=
  ⟨State.reset, { bifur := 0x81#8, refmode0 := 1, refmode1 := 2, chainHead := true, addr0 := 2, addr1 := 1, addr2 := 0 }, by decide⟩

theorem wit_OffAndIdentity_jtagInstruction :
    ∃ (s : State) (ir : Nat), 2 < ir :=
  ⟨State.reset, 3, by decide⟩

theorem wit_OffAndIdentity_jtagInstruction2 :
    ∃ (s : State) (ir : Nat), ir ≤ 2 :=
  ⟨State.reset, 1, by decide⟩

theorem wit_Timebase_ftimePulse :
    ∃ (s : State) (p : Nat), s.rd F.AON_CLK_STS_XTAL_OK = 1 ∧ s.rd F.AON_PWR_MODE_CUR < 3 ∧ s.aon.off = 0 ∧ (s.rd F.AON_EPOCH_QUALITY = 1 ∨ s.rd F.AON_EPOCH_QUALITY = 2) ∧ s.rd F.AON_EPOCH_LOAD_ARM = 0 ∧ s.rd F.AON_TIME_CFG_PERIOD = s.aon.time.period :=
  ⟨up.wr F.AON_EPOCH_QUALITY 1, 255900, by decide⟩

theorem wit_Timebase_ftimePulse2 :
    ∃ (s : State) (p : Nat), s.rd F.AON_CLK_STS_XTAL_OK = 1 ∧ s.rd F.AON_PWR_MODE_CUR < 3 ∧ s.aon.off = 0 ∧ s.rd F.AON_EPOCH_QUALITY = 0 ∧ s.aon.time.windowOpen = false ∧ s.aon.time.offs = [] ∧ p + s.rd F.AON_TIME_CFG_WIN < s.aon.time.period * 1000 ∧ s.rd F.AON_TIME_STS_OFFWIN + 1 < 2 ^ 32 :=
  ⟨up.wr F.AON_EPOCH_QUALITY 0, 1000, by decide⟩

theorem wit_Timebase_ftimePulseMissed :
    ∃ (s : State), s.rd F.AON_CLK_STS_XTAL_OK = 1 ∧ s.rd F.AON_PWR_MODE_CUR < 3 ∧ s.aon.off = 0 ∧ s.rd F.AON_EPOCH_QUALITY = 0 ∧ s.aon.time.windowOpen = true ∧ s.rd F.AON_EPOCH_LOAD_ARM = 0 :=
  ⟨(up.wr F.AON_EPOCH_QUALITY 0).setTime { up.aon.time with windowOpen := true }, by decide⟩

theorem wit_Timebase_xtalBoundary :
    ∃ (s : State), s.rd F.AON_CLK_STS_XTAL_OK = 1 ∧ s.rd F.AON_PWR_MODE_CUR < 3 ∧ s.aon.off = 0 ∧ s.rd F.AON_EPOCH_QUALITY = 1 ∧ s.rd F.AON_EPOCH_LOAD_ARM = 0 ∧ s.rd F.AON_TIME_CFG_PERIOD = s.aon.time.period ∧ s.rd F.AON_TIME_CFG_HOLD_LIMIT = s.aon.time.hold + 1 :=
  ⟨(up.wr F.AON_EPOCH_QUALITY 1).setTime { up.aon.time with hold := 4095 }, by decide⟩

theorem wit_Timebase_xtalBoundary2 :
    ∃ (s : State), s.rd F.AON_CLK_STS_XTAL_OK = 1 ∧ s.rd F.AON_PWR_MODE_CUR < 3 ∧ s.aon.off = 0 ∧ s.rd F.AON_EPOCH_QUALITY = 2 ∧ s.rd F.AON_EPOCH_LOAD_ARM = 1 ∧ s.rd F.AON_TIME_CFG_PERIOD = s.aon.time.period :=
  ⟨(up.wr F.AON_EPOCH_LOAD_VALUE 77).wr F.AON_EPOCH_LOAD_ARM 1, by decide⟩

theorem wit_Timebase_epochLoad :
    ∃ (s : State) (path : Path) (value : BitVec 48), s.reaches path 0 3 = true ∧ s.manages path = true :=
  ⟨up, .sideband, 5, by decide⟩

theorem wit_Timebase_lsCalibration :
    ∃ (s : State) (ratio : BitVec 32), s.rd F.AON_CLK_STS_XTAL_OK = 1 ∧ s.rd F.AON_PWR_MODE_CUR < 3 ∧ s.aon.off = 0 :=
  ⟨up, 65536, by decide⟩

theorem wit_Timebase_epochAlarm :
    ∃ (s : State), s.aon.held = false ∧ s.aon.off = 0 ∧ s.rd F.AON_ALARM_EN = 1 ∧ s.aon.entry.stage = 0 ∧ 0 < s.rd F.AON_ALARM_CYCLE ∧ s.rd F.AON_EPOCH_EPOCH % s.rd F.AON_ALARM_CYCLE = s.rd F.AON_ALARM_EPOCH % s.rd F.AON_ALARM_CYCLE ∧ s.rd F.AON_EPOCH_PHASE = s.rd F.AON_ALARM_PHASE :=
  ⟨(up.wr F.AON_ALARM_EN 1).wr F.AON_ALARM_CYCLE 4, by decide⟩

theorem wit_PowerEntry_aonEntryStart :
    ∃ (s : State), s.aon.held = false ∧ s.aon.off = 0 ∧ s.cry.halt = 0 ∧ s.aon.entry.stage = 1 ∧ s.aon.entry.wakes = [] ∧ s.rd F.AON_PWR_MODE_ARM = 1 ∧ s.rd F.AON_PWR_MODE_CUR = 0 ∧ s.rd F.AON_PWR_MODE_TARGET = 1 ∧ s.rd F.AON_PWR_CNT_P1 + 1 < 2 ^ 16 :=
  ⟨(armed 1), by decide⟩

theorem wit_PowerEntry_aonEntryStart2 :
    ∃ (s : State), s.aon.held = false ∧ s.aon.off = 0 ∧ s.cry.halt = 0 ∧ s.aon.entry.stage = 1 ∧ s.rd F.AON_PWR_MODE_ARM = 1 ∧ s.rd F.AON_PWR_MODE_CUR = 0 ∧ s.rd F.AON_PWR_MODE_TARGET = 2 ∧ s.rd F.NTC_SR_STATE = 0 ∧ s.rd F.BTC_SR_STATE = 0 ∧ s.straps.addr0 < 3 ∧ s.straps.addr1 < 3 ∧ s.straps.addr2 < 3 :=
  ⟨(armed 2), by decide⟩

theorem wit_PowerEntry_aonEntryStart3 :
    ∃ (s : State), s.aon.held = false ∧ s.aon.off = 0 ∧ s.cry.halt = 0 ∧ s.aon.entry.stage = 1 ∧ s.rd F.AON_PWR_MODE_ARM = 1 ∧ s.rd F.AON_PWR_MODE_CUR = 0 ∧ s.rd F.NTC_SR_STATE = 0 ∧ s.rd F.BTC_SR_STATE = 0 ∧ s.job.held = [] ∧ s.rd F.AON_PWR_CNT_ABORTS + 1 < 2 ^ 16 :=
  ⟨(armed 1), by decide⟩

theorem wit_PowerEntry_selfRefreshBulkCommit :
    ∃ (s : State), s.aon.held = false ∧ s.aon.off = 0 ∧ s.rd F.BTC_SR_STATE = 1 ∧ s.mem.bulkIn = false ∧ s.mem.entry = 1 ∧ s.aon.entry.stage = 2 ∧ s.tmu.moves = [] ∧ s.rd F.BTC_SR_ENTRIES + 1 < 2 ^ 16 :=
  ⟨entering, by decide⟩

theorem wit_PowerEntry_selfRefreshNearCommit :
    ∃ (s : State), s.aon.held = false ∧ s.aon.off = 0 ∧ s.rd F.NTC_SR_STATE = 1 ∧ s.mem.bulkIn = true ∧ s.mem.nearIn = false ∧ s.rd F.NTC_SR_ENTRIES + 1 < 2 ^ 16 :=
  ⟨entering.setMem { entering.mem with bulkIn := true }, by decide⟩

theorem wit_PowerEntry_p2EntryComplete :
    ∃ (s : State), s.aon.entry.stage = 3 ∧ s.aon.entry.wakes = [] ∧ s.rd F.AON_PWR_MODE_TARGET = 2 ∧ s.rd F.NTC_SR_STATE = 2 ∧ s.rd F.BTC_SR_STATE = 2 ∧ s.rd F.AON_PWR_CNT_P2 + 1 < 2 ^ 16 :=
  ⟨((entering.wr F.NTC_SR_STATE 2).wr F.BTC_SR_STATE 2).setEntry { stage := 3, wakes := [], attempts := 0, retry := false }, by decide⟩

theorem wit_PowerWake_wakeEvent :
    ∃ (s : State) (code : Nat), s.aon.off = 0 ∧ s.aon.entry.stage = 4 ∧ s.rd F.AON_PWR_MODE_CUR = 1 ∧ code < 16 ∧ s.wakes (s.rd F.AON_PWR_MODE_TARGET) code = true :=
  ⟨(asleep 1), 2, by decide⟩

theorem wit_PowerWake_wakeEvent2 :
    ∃ (s : State) (code : Nat), s.aon.off = 0 ∧ s.aon.entry.stage = 4 ∧ s.rd F.AON_PWR_MODE_CUR = 2 ∧ s.rd F.NTC_SR_STATE = 2 ∧ s.rd F.BTC_SR_STATE = 2 ∧ code < 16 ∧ s.wakes (s.rd F.AON_PWR_MODE_TARGET) code = true :=
  ⟨(asleep 2), 1, by decide⟩

theorem wit_PowerWake_cricketMatch :
    ∃ (s : State) (addr : BitVec 7), s.aon.off = 0 ∧ s.aon.entry.stage = 3 ∧ s.rd F.AON_PWR_MODE_TARGET = 2 ∧ s.rd F.AON_PWR_CFG_CRICKET_EN = 1 ∧ addr.toNat = s.rd F.AON_CRICKET_ADDR ∧ addr ≠ 0x7e ∧ s.rd F.AON_CRICKET_MATCHES + 1 < 2 ^ 16 :=
  ⟨((armed 2).setEntry { stage := 3, wakes := [], attempts := 0, retry := false }).wr F.AON_CRICKET_ADDR 0x30, 0x30, by decide⟩

theorem wit_PowerWake_wakeN :
    ∃ (s : State), s.aon.off = 1 :=
  ⟨State.reset.setAon { State.reset.aon with off := 1 }, by decide⟩

theorem wit_PowerWake_p1ExitDone :
    ∃ (s : State), s.rd F.AON_PWR_MODE_CUR = 1 ∧ s.aon.entry.stage = 5 :=
  ⟨(asleep 1).setEntry { stage := 5, wakes := [], attempts := 0, retry := false }, by decide⟩

theorem wit_PowerWake_p2ExitDone :
    ∃ (s : State), s.rd F.AON_PWR_MODE_CUR = 2 ∧ s.aon.entry.stage = 5 ∧ s.rd F.NTC_SR_STATE = 0 ∧ s.rd F.BTC_SR_STATE = 0 ∧ s.tmu.waits = [] :=
  ⟨(((asleep 2).wr F.NTC_SR_STATE 0).wr F.BTC_SR_STATE 0).setEntry { stage := 5, wakes := [], attempts := 0, retry := false }, by decide⟩

theorem wit_PowerWake_selfRefreshExitDone :
    ∃ (s : State), s.aon.held = false ∧ s.aon.off = 0 ∧ s.rd F.NTC_SR_STATE = 3 ∧ s.tmu.waits = [] :=
  ⟨up.wr F.NTC_SR_STATE 3, by decide⟩

theorem wit_PowerWake_selfRefreshExitDone2 :
    ∃ (s : State), s.aon.held = false ∧ s.aon.off = 0 ∧ s.rd F.BTC_SR_STATE = 3 ∧ s.tmu.waits = [] :=
  ⟨up.wr F.BTC_SR_STATE 3, by decide⟩

theorem wit_PowerWake_p2EntryRetry :
    ∃ (s : State), s.aon.entry.retry = true ∧ s.aon.entry.stage = 0 ∧ s.fwRuns = true :=
  ⟨up.setEntry { stage := 0, wakes := [], attempts := 0, retry := true }, by decide⟩

theorem wit_DeepSleep_flushDone :
    ∃ (s : State), s.aon.entry.stage = 2 ∧ s.rd F.AON_PWR_MODE_TARGET = 3 ∧ s.rd F.SCR_MOV_STS_FLUSH = 1 ∧ s.job.jobs = [] ∧ s.near.ftes = [] ∧ s.rd F.BTC_SR_STATE = 0 :=
  ⟨((armed 3).setEntry { stage := 2, wakes := [], attempts := 0, retry := false }).wr F.SCR_MOV_STS_FLUSH 1, by decide⟩

theorem wit_DeepSleep_p3PowerDown :
    ∃ (s : State), s.aon.entry.stage = 3 ∧ s.aon.entry.wakes = [] ∧ s.rd F.AON_PWR_MODE_TARGET = 3 ∧ s.tmu.moves = [] ∧ s.job.jobs = [] ∧ s.clx.done = [] :=
  ⟨(armed 3).setEntry { stage := 3, wakes := [], attempts := 0, retry := false }, by decide⟩

theorem wit_DeepSleep_resumeAreaCheck :
    ∃ (s : State), s.rd F.AON_PWR_MODE_CUR = 3 ∧ s.aon.entry.stage = 5 ∧ s.rd F.CTL_HEALTH_STATE = 0 ∧ s.ctl.romRan = true :=
  ⟨leaving, by decide⟩

theorem wit_DeepSleep_resumeAreaCheck2 :
    ∃ (s : State), s.rd F.AON_PWR_MODE_CUR = 3 ∧ s.aon.entry.stage = 5 ∧ s.rd F.CTL_HEALTH_STATE = 0 ∧ s.ctl.romRan = true ∧ s.rd F.CTL_BOOT_COPY < 4 ∧ s.resumeOk = true :=
  ⟨fused (leaving.setMem { leaving.mem with resume := image0, resumeHeader := header0 }), by decide, by decide, by decide, by decide, by decide, by decide +kernel⟩

set_option maxRecDepth 100000 in
theorem wit_DeepSleep_canaryCheck :
    ∃ (s : State), s.rd F.AON_PWR_MODE_CUR = 3 ∧ s.aon.entry.stage = 5 ∧ s.mem.canaries ≠ [] ∧ (∀ x ∈ s.canaryBanks, (mget s.mem.canaries (canaryKey x.1 x.2.1 x.2.2)).isSome = true → mget s.mem.canaries (canaryKey x.1 x.2.1 x.2.2) = some (crc32c (s.canaryRead x))) :=
  ⟨canaried.setMem { canaried.mem with canaries := [(canaryKey 0 0 3, crc32c (canaried.canaryRead (0, 0, 3)))] }, by decide, by decide, by decide, by decide +kernel⟩

theorem wit_DeepSleep_canaryCheck2 :
    ∃ (s : State) (bad : List (Nat × Nat × Nat)), s.rd F.AON_PWR_MODE_CUR = 3 ∧ s.aon.entry.stage = 5 ∧ s.canaryBanks.any (fun x => (mget s.mem.canaries (canaryKey x.1 x.2.1 x.2.2)).isSome && bad.contains x) = true :=
  ⟨canaried, [(0, 0, 3)], by decide⟩

theorem wit_DeepSleep_p3ExitDone :
    ∃ (s : State) (lsTicks : Nat) (switched : Bool), s.aon.held = false ∧ s.aon.off = 0 ∧ s.cry.halt = 0 ∧ s.noService = false ∧ s.rd F.AON_PWR_MODE_CUR = 3 ∧ s.aon.entry.stage = 5 ∧ s.rd F.CTL_HEALTH_STATE = 2 ∧ s.mem.canaries = [] ∧ s.rd F.CTL_BOOT_TRIAL = 0 :=
  ⟨(serves leaving).wr F.CTL_HEALTH_STATE 2, 1000, false, by decide⟩

theorem wit_DeepSleep_p3ExitDone2 :
    ∃ (s : State) (lsTicks : Nat) (switched : Bool), s.aon.held = false ∧ s.aon.off = 0 ∧ s.noService = true ∧ s.rd F.AON_PWR_MODE_CUR = 3 ∧ s.aon.entry.stage = 5 ∧ s.rd F.CTL_HEALTH_STATE = 2 ∧ s.mem.canaries = [] ∧ s.rd F.CTL_BOOT_TRIAL = 0 :=
  ⟨leaving.wr F.CTL_HEALTH_STATE 2, 1000, false, by decide⟩

theorem wit_ColdReset_coldCmd :
    ∃ (s : State), s.aon.off = 0 ∧ s.aon.loading = false ∧ s.reaches .sideband 0 1 = true :=
  ⟨up, by decide⟩

theorem wit_ColdReset_quiesceTimeout :
    ∃ (s : State), s.aon.quiescing = true :=
  ⟨up.setAon { up.aon with quiescing := true }, by decide⟩

theorem wit_ColdReset_supplyResetCrossing :
    ∃ (s : State) (i : Nat), i < 2 :=
  ⟨up, 0, by decide⟩

theorem wit_WarmReset_resetNLow :
    ∃ (s : State), s.aon.held = false ∧ s.aon.off = 0 ∧ s.cry.halt = 0 ∧ s.aon.loading = false ∧ s.aon.quiescing = false ∧ s.rd F.AON_PWR_MODE_CUR = 0 ∧ s.rd F.CTL_HEALTH_MEM_ACTIVE = 1 :=
  ⟨up, by decide⟩

theorem wit_WarmReset_warmReq :
    ∃ (s : State), s.aon.held = false ∧ s.aon.off = 0 ∧ s.cry.halt = 0 ∧ s.aon.loading = false ∧ s.aon.quiescing = false ∧ s.rd F.AON_PWR_MODE_CUR = 0 ∧ s.rd F.CTL_HEALTH_MEM_ACTIVE = 1 :=
  ⟨up, by decide⟩

theorem wit_WarmReset_supplyResetCrossing :
    ∃ (s : State) (i : Nat), s.aon.held = false ∧ s.aon.off = 0 ∧ s.cry.halt = 0 ∧ s.aon.loading = false ∧ s.aon.quiescing = false ∧ s.rd F.AON_PWR_MODE_CUR = 0 ∧ s.rd F.CTL_HEALTH_MEM_ACTIVE = 1 ∧ 2 ≤ i ∧ i < 10 ∧ s.aon.passed.testBit i = true :=
  ⟨up, 4, by decide⟩

theorem wit_WarmReset_pllLockLoss :
    ∃ (s : State) (pll : Nat), s.aon.held = false ∧ s.aon.off = 0 ∧ s.cry.halt = 0 ∧ s.aon.loading = false ∧ s.aon.quiescing = false ∧ s.rd F.AON_PWR_MODE_CUR = 0 ∧ s.rd F.CTL_HEALTH_MEM_ACTIVE = 1 ∧ 2 ≤ pll ∧ pll < 6 ∧ s.aon.pllOk.testBit pll = true :=
  ⟨up, 2, by decide⟩

theorem wit_WarmReset_d2dLinkLost :
    ∃ (s : State) (k : Nat), s.aon.held = false ∧ s.aon.off = 0 ∧ s.cry.halt = 0 ∧ s.aon.loading = false ∧ s.aon.quiescing = false ∧ s.rd F.AON_PWR_MODE_CUR = 0 ∧ s.rd F.CTL_HEALTH_MEM_ACTIVE = 1 ∧ k < 2 ∧ (s.rd F.AON_D2D_LOST).testBit k = false :=
  ⟨up, 1, by decide⟩

theorem wit_WarmReset_wdtTimeout :
    ∃ (s : State), s.aon.held = false ∧ s.aon.off = 0 ∧ s.cry.halt = 0 ∧ s.aon.loading = false ∧ s.aon.quiescing = false ∧ s.rd F.AON_PWR_MODE_CUR = 0 ∧ s.rd F.CTL_HEALTH_MEM_ACTIVE = 1 ∧ s.ctl.wdtRuns = true :=
  ⟨up.setCtl { up.ctl with wdtRuns := true }, by decide⟩

theorem wit_WarmReset_blkRstReq :
    ∃ (s : State) (block : Nat), s.aon.held = false ∧ s.aon.off = 0 ∧ s.cry.halt = 0 ∧ s.aon.loading = false ∧ s.aon.quiescing = false ∧ s.rd F.AON_PWR_MODE_CUR = 0 ∧ s.rd F.CTL_HEALTH_MEM_ACTIVE = 1 ∧ block ∈ [0, 1, 4, 6, 8, 10, 11] ∧ s.aon.blocks = [] :=
  ⟨up, 6, by decide⟩

theorem wit_ResetProgress_quiesceDone :
    ∃ (s : State), s.aon.quiescing = true ∧ s.rd F.NTC_SR_STATE = 2 ∧ s.rd F.BTC_SR_STATE = 2 ∧ s.tmu.moves = [] ∧ s.clx.done = [] :=
  ⟨((up.setAon { up.aon with quiescing := true }).wr F.NTC_SR_STATE 2).wr F.BTC_SR_STATE 2, by decide⟩

theorem wit_ResetProgress_blkRstReq :
    ∃ (s : State), s.aon.held = false ∧ s.aon.off = 0 ∧ s.aon.quiescing = false ∧ s.cry.halt = 0 ∧ s.rd F.AON_PWR_MODE_CUR = 0 ∧ s.aon.blocks = [] :=
  ⟨up, by decide⟩

theorem wit_ResetProgress_blockResetEnd :
    ∃ (s : State) (block : Nat), s.aon.blocks.contains block = true ∧ s.tmu.waits = [] ∧ s.aon.accs = [] ∧ (block ≠ 7 ∨ (s.tmu.moves = [] ∧ s.job.jobs = [] ∧ s.cdc.held = [])) :=
  ⟨up.setAon { up.aon with blocks := [5] }, 5, by decide⟩

theorem wit_ResetProgress_d2dTransferReplay :
    ∃ (s : State) (k : Nat) (failures : Nat), s.aon.held = false ∧ s.aon.off = 0 ∧ k < 4 ∧ (s.rd F.AON_D2D_LOST).testBit k = false ∧ failures < 8 :=
  ⟨up, 2, 1, by decide⟩

theorem wit_Cores_heartbeatCheck :
    ∃ (s : State) (beats : List (Nat × BitVec 32)), s.fwRuns = true ∧ s.ctl.moves = [] ∧ (∀ n < 16, s.coreState n = 1 → (mget beats n).isSome = true ∧ mgetD (beats.map (fun e => (e.1, e.2.toNat))) n 0 ≠ mgetD (s.ctl.beats.map (fun e => (e.1, e.2.1))) n 0) :=
  ⟨(up.wrI F.CTL_CORE_CTL_STATE 2 1), [(2, 7#32)], by decide⟩

theorem wit_Cores_heartbeatCheck2 :
    ∃ (s : State) (core : Nat) (old : Nat) (heir : Nat), s.fwRuns = true ∧ s.ctl.moves = [] ∧ core < 16 ∧ heir < 16 ∧ mget s.ctl.beats core = some (old, 2) ∧ old < 2 ^ 32 ∧ s.coresIn 1 = [core] ∧ s.coresIn 3 = [heir] :=
  ⟨((up.wrI F.CTL_CORE_CTL_STATE 2 1).wrI F.CTL_CORE_CTL_STATE 15 3).setCtl { up.ctl with beats := [(2, 7, 2)] }, 2, 7, 15, by decide⟩

theorem wit_Cores_coreRoleMoveDone :
    ∃ (s : State) (core : Nat) (heir : Nat) (roles : Nat), core < 16 ∧ heir < 16 ∧ core ≠ heir ∧ s.ctl.moves = [(core, roles, heir)] ∧ s.coreState heir = 3 ∧ roles < 2 ^ 16 :=
  ⟨((up.wrI F.CTL_CORE_CTL_STATE 2 1).wrI F.CTL_CORE_CTL_STATE 15 3).setCtl { up.ctl with moves := [(2, 4, 15)] }, 2, 15, 4, by decide⟩

theorem wit_Cores_coreSramError :
    ∃ (s : State) (core : Nat) (heir : Nat), s.aon.held = false ∧ s.aon.off = 0 ∧ core < 16 ∧ heir < 16 ∧ s.ctl.moves = [] ∧ s.coreState core = 1 ∧ s.coresIn 3 = [heir] :=
  ⟨(up.wrI F.CTL_CORE_CTL_STATE 2 1).wrI F.CTL_CORE_CTL_STATE 15 3, 2, 15, by decide⟩

theorem wit_Cores_coreSramError2 :
    ∃ (s : State) (core : Nat), s.aon.held = false ∧ s.aon.off = 0 ∧ core < 16 ∧ s.coreState core = 1 ∧ s.rd F.CTL_CORE_FAULT_COUNT core < 3 :=
  ⟨(up.wrI F.CTL_CORE_CTL_STATE 2 1), 2, by decide⟩

theorem wit_Cores_ctlCoreActivate :
    ∃ (s : State) (core : Nat), core < 16 ∧ s.writeReaches .cores 1 (1 + core) = true ∧ s.coreState core = 3 :=
  ⟨up.wrI F.CTL_CORE_CTL_STATE 15 3, 15, by decide⟩

theorem wit_Cores_ctlCoreFail :
    ∃ (s : State) (core : Nat), core < 16 ∧ s.writeReaches .cores 1 (1 + core) = true ∧ s.coreState core = 3 :=
  ⟨up.wrI F.CTL_CORE_CTL_STATE 15 3, 15, by decide⟩

theorem wit_Cores_kick :
    ∃ (s : State), s.writeReaches .cores 1 0 = true ∧ (∀ n < 16, s.coreState n = 1 → ((mget s.ctl.beats n).getD (0, 0)).2 = 0) :=
  ⟨up.wr F.CTL_WDT_STAGE 1, by decide⟩

theorem wit_Cores_wdtHalfTimeout :
    ∃ (s : State), s.wdtCounts = true :=
  ⟨up.setCtl { up.ctl with wdtRuns := true }, by decide⟩

theorem wit_BootCopiesAndMemory_bootCoreAliveTimeout :
    ∃ (s : State), s.aon.held = false ∧ s.aon.off = 0 ∧ s.aon.loaded = true ∧ s.ctl.alive = false ∧ s.rd F.CTL_BOOT_BOOT_CORE = 0 ∧ s.coreState 0 = 1 ∧ s.coreState 14 = 3 :=
  ⟨(up.wrI F.CTL_CORE_CTL_STATE 0 1).wrI F.CTL_CORE_CTL_STATE 14 3, by decide⟩

theorem wit_BootCopiesAndMemory_bootRom :
    ∃ (s : State), s.aon.held = false ∧ s.aon.off = 0 ∧ s.aon.loaded = true ∧ s.ctl.romRan = false ∧ s.bootCoreOk = true ∧ s.descNow.2.trial = false :=
  ⟨up.wrI F.CTL_CORE_CTL_STATE 0 1, by decide +kernel⟩

theorem wit_BootCopiesAndMemory_flashCopyChecked :
    ∃ (s : State) (copy : Nat) (readErr : Bool), s.aon.held = false ∧ s.aon.off = 0 ∧ copy < 2 ∧ s.ctl.checking = some copy ∧ s.checkFlash copy readErr = 0 :=
  ⟨flashed, 0, false, by decide, by decide, by decide, by decide, flashed_ok⟩

theorem wit_BootCopiesAndMemory_flashCopyChecked2 :
    ∃ (s : State) (copy : Nat) (readErr : Bool), s.aon.held = false ∧ s.aon.off = 0 ∧ copy < 2 ∧ s.ctl.checking = some copy ∧ s.checkFlash copy readErr ≠ 0 ∧ s.ctl.firstTry = true :=
  ⟨up.setCtl { up.ctl with checking := some 0 }, 0, false, by decide, by decide, by decide, by decide, checkFlash_magic _ _ _ (by decide +kernel), by decide⟩

theorem wit_BootCopiesAndMemory_flashCopyChecked3 :
    ∃ (s : State) (copy : Nat) (readErr : Bool), s.aon.held = false ∧ s.aon.off = 0 ∧ copy < 2 ∧ s.ctl.checking = some copy ∧ s.checkFlash copy readErr ≠ 0 ∧ s.ctl.firstTry = false :=
  ⟨up.setCtl { up.ctl with checking := some 1, firstTry := false }, 1, false, by decide, by decide, by decide, by decide, checkFlash_magic _ _ _ (by decide +kernel), by decide⟩

theorem wit_BootCopiesAndMemory_fuseLoadDone :
    ∃ (s : State) (rows : List (Nat × FuseOutcome)) (fuses : Fuses) (trngFails : Nat), s.aon.loading = true ∧ s.aon.waiting = [] ∧ trngFails < 3 ∧ fuses.dirFailed = false ∧ fuses.perms = [] :=
  ⟨cold.setAon { cold.aon with loading := true }, [], fusesNone, 0, by decide⟩

theorem wit_BootCopiesAndMemory_memoryTrainingDone :
    ∃ (s : State) (result : TrainResult), s.aon.held = false ∧ s.aon.off = 0 ∧ s.rd F.CTL_HEALTH_STATE = 2 ∧ s.memClocks = true ∧ s.ctl.trained = false ∧ s.aon.seenActive = false :=
  ⟨up.setAon { up.aon with seenActive := false }, { near := [], clamshell := false, dimms := [], slow := 0#4 }, by decide⟩

theorem wit_BootCopiesAndMemory_memActive :
    ∃ (s : State), s.aon.held = false ∧ s.aon.off = 0 ∧ s.aon.quiescing = false ∧ s.rd F.CTL_HEALTH_STATE = 2 ∧ s.ctl.trained = true ∧ s.noService = false ∧ s.cry.halt = 0 ∧ s.rd F.CTL_BOOT_TRIAL = 0 :=
  ⟨servable, by decide⟩

theorem wit_CodecAndAesUnits_cdcPipeActivate :
    ∃ (s : State) (p : Nat), p < 17 ∧ s.writeReaches .cores 7 (1 + p) = true ∧ s.unitState cdcKind p = 3 :=
  ⟨live.wrI cdcKind.state 2 3, 2, by decide⟩

theorem wit_CodecAndAesUnits_cdcPipeDrain :
    ∃ (s : State) (p : Nat), p < 17 ∧ s.writeReaches .cores 7 (1 + p) = true ∧ s.unitState cdcKind p = 1 :=
  ⟨live.wrI cdcKind.state 2 1, 2, by decide⟩

theorem wit_CodecAndAesUnits_cdcPipeFail :
    ∃ (s : State) (p : Nat) (q : Nat), p < 17 ∧ s.writeReaches .cores 7 (1 + p) = true ∧ s.unitState cdcKind p = 1 ∧ q < 17 ∧ q ≠ p ∧ s.unitState cdcKind q = 3 ∧ (∀ e ∈ s.ras.subs, e.1 ≠ cdcKind.code) :=
  ⟨(live.wrI cdcKind.state 2 1).wrI cdcKind.state 3 3, 2, 3, by decide⟩

theorem wit_CodecAndAesUnits_codecPipeDrained :
    ∃ (s : State) (p : Nat) (q : Nat), p < 17 ∧ s.aon.held = false ∧ s.aon.off = 0 ∧ (mget s.cdc.held p).isNone = true ∧ q < 17 ∧ s.unitState cdcKind p = 2 ∧ s.ras.subs = [(cdcKind.code, p, q)] :=
  ⟨(live.wrI cdcKind.state 2 2).setRas { live.ras with subs := [(cdcKind.code, 2, 3)] }, 2, 3, by decide⟩

theorem wit_CodecAndAesUnits_cryPipeActivate :
    ∃ (s : State) (p : Nat), p < 50 ∧ s.writeReaches .cores 8 (66 + p) = true ∧ s.unitState cryKind p = 3 :=
  ⟨live.wrI cryKind.state 2 3, 2, by decide⟩

theorem wit_CodecAndAesUnits_cryPipeDrain :
    ∃ (s : State) (p : Nat), p < 50 ∧ s.writeReaches .cores 8 (66 + p) = true ∧ s.unitState cryKind p = 1 :=
  ⟨live.wrI cryKind.state 2 1, 2, by decide⟩

theorem wit_CodecAndAesUnits_cryPipeFail :
    ∃ (s : State) (p : Nat) (q : Nat), p < 50 ∧ s.writeReaches .cores 8 (66 + p) = true ∧ s.unitState cryKind p = 1 ∧ q < 50 ∧ q ≠ p ∧ s.unitState cryKind q = 3 ∧ (∀ e ∈ s.ras.subs, e.1 ≠ cryKind.code) :=
  ⟨(live.wrI cryKind.state 2 1).wrI cryKind.state 3 3, 2, 3, by decide⟩

theorem wit_CodecAndAesUnits_aesPipeDrained :
    ∃ (s : State) (p : Nat) (q : Nat), p < 50 ∧ s.aon.held = false ∧ s.aon.off = 0 ∧ q < 50 ∧ s.unitState cryKind p = 2 ∧ s.ras.subs = [(cryKind.code, p, q)] :=
  ⟨(live.wrI cryKind.state 2 2).setRas { live.ras with subs := [(cryKind.code, 2, 3)] }, 2, 3, by decide⟩

theorem wit_CodecAndAesUnits_scrEngActivate :
    ∃ (s : State) (p : Nat), p < 32 ∧ s.writeReaches .cores 9 (1 + p) = true ∧ s.unitState scrKind p = 3 :=
  ⟨live.wrI scrKind.state 2 3, 2, by decide⟩

theorem wit_CodecAndAesUnits_scrEngDrain :
    ∃ (s : State) (p : Nat), p < 32 ∧ s.writeReaches .cores 9 (1 + p) = true ∧ s.unitState scrKind p = 1 :=
  ⟨live.wrI scrKind.state 2 1, 2, by decide⟩

theorem wit_CodecAndAesUnits_scrEngFail :
    ∃ (s : State) (p : Nat) (q : Nat), p < 32 ∧ s.writeReaches .cores 9 (1 + p) = true ∧ s.unitState scrKind p = 1 ∧ q < 32 ∧ q ≠ p ∧ s.unitState scrKind q = 3 ∧ (∀ e ∈ s.ras.subs, e.1 ≠ scrKind.code) :=
  ⟨(live.wrI scrKind.state 2 1).wrI scrKind.state 3 3, 2, 3, by decide⟩

theorem wit_CodecAndAesUnits_scarabEngineDrained :
    ∃ (s : State) (p : Nat) (q : Nat), p < 32 ∧ s.aon.held = false ∧ s.aon.off = 0 ∧ s.engineLoad p = 0 ∧ q < 32 ∧ s.unitState scrKind p = 2 ∧ s.ras.subs = [(scrKind.code, p, q)] :=
  ⟨(live.wrI scrKind.state 2 2).setRas { live.ras with subs := [(scrKind.code, 2, 3)] }, 2, 3, by decide⟩

theorem wit_UnitFaults_aesKnownAnswerTest :
    ∃ (s : State) (p : Nat), s.aesRuns = true :=
  ⟨live, 0, by decide⟩

theorem wit_UnitFaults_aesKnownAnswerTest2 :
    ∃ (s : State) (p : Nat), s.aesRuns = true ∧ p < 50 ∧ s.unitState cryKind p = 1 ∧ s.rd F.CRY_PIPE_FAULT_COUNT p + 1 < 16 ∧ s.rd F.CRY_PIPE_FAULT_COUNT p + 1 < s.rd F.CRY_CFG_FAULT_THRESH :=
  ⟨live, 0, by decide⟩

theorem wit_UnitFaults_aesKeyParityError :
    ∃ (s : State) (p : Nat) (q : Nat), s.aesRuns = true ∧ p < 50 ∧ q < 50 ∧ p ≠ q ∧ s.unitState cryKind p = 1 ∧ s.rd F.CRY_CFG_FAULT_THRESH ≤ min 15 (s.rd F.CRY_PIPE_FAULT_COUNT p + 1) ∧ s.unitsIn cryKind 3 = [q] :=
  ⟨(live.wrI F.CRY_PIPE_CTL_STATE 3 3).wrI F.CRY_PIPE_FAULT_COUNT 0 5, 0, 3, by decide⟩

theorem wit_UnitFaults_scarabEngineFault :
    ∃ (s : State) (e : Nat), s.aon.held = false ∧ s.aon.off = 0 ∧ e < 32 ∧ s.unitState scrKind e = 1 ∧ s.rd F.SCR_ENG_FAULT_COUNT e + 1 < 16 ∧ s.rd F.SCR_ENG_FAULT_COUNT e + 1 < s.rd F.SCR_MOV_CFG_FAULT_THRESH :=
  ⟨live, 0, by decide⟩

theorem wit_UnitFaults_dirBankActivate :
    ∃ (s : State) (bank : Nat) (way : Nat), s.writeReaches .cores 5 (1 + bank) = true ∧ bank < 16 ∧ way < 17 ∧ s.wayFree bank way = true :=
  ⟨live, 1, 16, by decide⟩

theorem wit_UnitFaults_dirBankFail :
    ∃ (s : State) (bank : Nat) (way : Nat) (way2 : Nat), s.writeReaches .cores 5 (1 + bank) = true ∧ bank < 16 ∧ way < 17 ∧ way2 < 17 ∧ way2 ≠ way ∧ s.wayFailed bank way = false ∧ s.ras.subs = [(5, bank, way2)] :=
  ⟨live.setRas { live.ras with subs := [(5, 1, 16)] }, 1, 3, 16, by decide⟩

theorem wit_HaltSteps_haltViral :
    ∃ (s : State), s.cry.halt = 1 :=
  ⟨live.setCry { live.cry with halt := 1 }, by decide⟩

theorem wit_HaltSteps_haltChainStop :
    ∃ (s : State), s.cry.halt = 2 :=
  ⟨live.setCry { live.cry with halt := 2 }, by decide⟩

theorem wit_HaltSteps_haltZeroize :
    ∃ (s : State), s.cry.halt = 3 :=
  ⟨(live.setCry { live.cry with halt := 3 }).wrI F.CRY_RGN_GEN_CUR 5 9, by decide⟩

theorem wit_HaltSteps_trngHealthFail :
    ∃ (s : State), s.cry.root.isSome = true ∧ s.cry.halt = 0 ∧ s.rd F.AON_PWR_MODE_CUR < 3 :=
  ⟨live, by decide⟩

theorem wit_Rekey_rekeyKeyReady :
    ∃ (s : State) (slot : Nat), s.cry.keyWait.contains slot = true ∧ s.cry.halt = 0 :=
  ⟨live.setCry { live.cry with keyWait := [1] }, 1, by decide⟩

theorem wit_Rekey_rekeyWalkStep :
    ∃ (s : State) (slot : Nat) (tile : Nat) (e : Nat) (ent : CacheEnt), s.rekeying slot = true ∧ s.scarabRuns = true ∧ s.freeEngine = some e ∧ s.walkNext slot ((mget s.cry.walks slot).getD 0) = some tile ∧ mget s.tmu.cache (tkey slot tile) = some ent ∧ ent.dirty = true ∧ ent.tme.nv = false ∧ ent.tme.fmt = .pattern ∧ s.newest slot ent.tme = false ∧ s.cry.keyWait.contains slot = false ∧ (s.lockOf slot tile).isNone = true ∧ s.expandOk slot tile ent.tme = true ∧ s.tmeFault slot tile ent.tme = 0 ∧ s.tmu.waits = [] ∧ mget s.cry.cross (tkey slot tile) = none ∧ s.cry.cross.length < 2048 ∧ s.barred 19 14 (s.pairBucket 19 14) 4096 1 = 0 :=
  ⟨((withTile live 3 { tile0 with fmt := .pattern }).wrI F.CRY_RGN_GEN_CUR 1 1).wrI F.CRY_RGN_REKEY_STATE 1 1, 1, 3, 0, { tme := { tile0 with fmt := .pattern }, dirty := true, used := 0 }, by decide⟩

theorem wit_Rekey_rekeyDone :
    ∃ (s : State) (slot : Nat), slot < 64 ∧ s.rekeying slot = true ∧ s.serving = true ∧ s.toCross slot = [] ∧ crossOf slot s.cry.cross = [] ∧ s.cry.keyWait.contains slot = false ∧ s.ctl.background = [] ∧ s.rd F.CRY_RGN_REKEY_QUEUED slot = 0 :=
  ⟨live.wrI F.CRY_RGN_REKEY_STATE 1 1, 1, by decide⟩

theorem wit_MailboxInfo_getInfo :
    ∃ (s : State) (h : Nat) (l : Nat), s.rd F.AON_PWR_MODE_CUR = 0 ∧ s.aon.entry.stage = 0 ∧ s.mboxUp (.ld h l) = true ∧ s.mboxBusy (.ld h l) = false :=
  ⟨owned, 0, 0, by decide⟩

theorem wit_MailboxInfo_getSpd :
    ∃ (s : State) (src : MboxSrc) (p : List (BitVec 8)) (d : Nat) (off : Nat) (n : Nat), s.rd F.AON_PWR_MODE_CUR = 0 ∧ s.aon.entry.stage = 0 ∧ s.mboxUp src = true ∧ s.mboxBusy src = false ∧ s.lacks src (.perm 0) = none ∧ p.length = 8 ∧ numAt p 0 2 = d ∧ numAt p 2 2 = off ∧ numAt p 4 4 = n ∧ d ≤ 31 ∧ 1 ≤ n ∧ n ≤ 1024 ∧ s.rd F.BTC_DIMM_ID_PRESENT d = 1 :=
  ⟨owned.wrI F.BTC_DIMM_ID_PRESENT 2 1, .sideband, [2, 0, 16, 0, 4, 0, 0, 0], 2, 16, 4, by decide⟩

theorem wit_MailboxInfo_getPowerState :
    ∃ (s : State) (src : MboxSrc), s.rd F.AON_PWR_MODE_CUR = 0 ∧ s.aon.entry.stage = 0 ∧ s.mboxUp src = true ∧ s.mboxBusy src = false :=
  ⟨owned, .sideband, by decide⟩

theorem wit_MailboxInfo_regionQuery :
    ∃ (s : State) (h : Nat) (l : Nat) (p : List (BitVec 8)) (r : Nat), s.rd F.AON_PWR_MODE_CUR = 0 ∧ s.aon.entry.stage = 0 ∧ s.mboxUp (.ld h l) = true ∧ s.mboxBusy (.ld h l) = false ∧ p.length = 4 ∧ numAt p 0 4 = r ∧ r < 64 ∧ s.slotHeld r = false ∧ s.admits h l r = true :=
  ⟨owned.wrI F.HLX_LD_RGN_SLOTS 0 2, 0, 0, [1, 0, 0, 0], 1, by decide⟩

theorem wit_MailboxInfo_getErrorLog :
    ∃ (s : State) (src : MboxSrc) (p : List (BitVec 8)) (n : Nat), s.rd F.AON_PWR_MODE_CUR = 0 ∧ s.aon.entry.stage = 0 ∧ s.mboxUp src = true ∧ s.mboxBusy src = false ∧ s.lacks src .fmOrDiag = none ∧ p.length = 4 ∧ 1 ≤ numAt p 0 4 ∧ numAt p 0 4 ≤ 63 ∧ n = min (numAt p 0 4) s.unread :=
  ⟨owned, .sideband, [5, 0, 0, 0], 0, by decide⟩

theorem wit_MailboxInfo_getSpd2 :
    ∃ (s : State) (src : MboxSrc) (p : List (BitVec 8)), s.rd F.AON_PWR_MODE_CUR = 0 ∧ s.aon.entry.stage = 0 ∧ s.mboxUp src = true ∧ s.mboxBusy src = false ∧ p.length = 8 ∧ s.lacks src (.perm 0) = some 0 :=
  ⟨live, .ld 0 0, [0, 0, 0, 0, 1, 0, 0, 0], by decide⟩

theorem wit_MailboxSettings_setRetainSets :
    ∃ (s : State) (src : MboxSrc) (p : List (BitVec 8)), s.rd F.AON_PWR_MODE_CUR = 0 ∧ s.aon.entry.stage = 0 ∧ s.mboxUp src = true ∧ s.mboxBusy src = false ∧ s.lacks src (.perm 0) = none ∧ p.length = 4 ∧ reservedAt p 2 2 = none ∧ s.regionsPresent = 0 ∧ numAt p 0 2 < 2 ^ 16 :=
  ⟨bare, .sideband, [6, 0, 0, 0], by decide⟩

theorem wit_MailboxSettings_setSpareSet :
    ∃ (s : State) (src : MboxSrc) (p : List (BitVec 8)) (id : Nat), s.rd F.AON_PWR_MODE_CUR = 0 ∧ s.aon.entry.stage = 0 ∧ s.mboxUp src = true ∧ s.mboxBusy src = false ∧ s.lacks src (.perm 0) = none ∧ p.length = 4 ∧ numAt p 0 1 = id ∧ numAt p 1 1 = 1 ∧ 1 ≤ id ∧ id ≤ 15 ∧ reservedAt p 2 2 = none ∧ s.setHeld id = false ∧ s.regionsPresent = 0 ∧ s.bulk.sets.any (fun r => decide (r.id = id)) = true ∧ (s.rd F.RAS_RANK_STS_FAILING).testBit id = false ∧ (s.rd F.RAS_RANK_STS_REMOVED).testBit id = false ∧ s.rd F.RAS_SPARE_SET_VALID = 0 ∧ s.rd F.TMU_CAP_TOTAL_SECTORS < 2 ^ 40 :=
  ⟨((bare.setBulk { bare.bulk with sets := [{ id := 1, slot := 0, rank := 1, first := 8192, sectors := 8192, rows := 1, usable := true }] }).setTmu { bare.tmu with freeIv := [(0, 4096), (8192, 4096)] }).wr F.TMU_CAP_TOTAL_SECTORS 8192, .sideband, [1, 1, 0, 0], 1, by decide⟩

theorem wit_MailboxSettings_headConfig :
    ∃ (s : State) (src : MboxSrc) (p : List (BitVec 8)) (i : Nat), s.rd F.AON_PWR_MODE_CUR = 0 ∧ s.aon.entry.stage = 0 ∧ s.mboxUp src = true ∧ s.mboxBusy src = false ∧ s.lacks src (.perm 0) = none ∧ p.length = 32 ∧ s.badHead p = none ∧ i = hl (numAt p 0 1) (numAt p 1 1) ∧ s.rangeHeld i = false ∧ s.rangeRefused i (s.headRange p i) = false :=
  ⟨owned, .sideband, [1, 0, 2, 5, 16, 0, 0, 0, 4, 0, 0, 0, 0, 0, 0, 0, 3, 0, 0, 0, 0, 0, 0, 0, 255, 255, 255, 0, 0, 0, 0, 0], 4, by decide⟩

theorem wit_MailboxSettings_setHold :
    ∃ (s : State) (src : MboxSrc) (p : List (BitVec 8)) (ch : Nat), s.rd F.AON_PWR_MODE_CUR = 0 ∧ s.aon.entry.stage = 0 ∧ s.mboxUp src = true ∧ s.mboxBusy src = false ∧ s.lacks src (.perm 2) = none ∧ p.length = 4 ∧ numAt p 0 4 = 0x180 + ch ∧ ch < 32 :=
  ⟨owned, .sideband, [0x85, 1, 0, 0], 5, by decide⟩

theorem wit_MailboxSettings_setHold2 :
    ∃ (s : State) (src : MboxSrc) (p : List (BitVec 8)) (ch : Nat), s.rd F.AON_PWR_MODE_CUR = 0 ∧ s.aon.entry.stage = 0 ∧ s.mboxUp src = true ∧ s.mboxBusy src = false ∧ s.lacks src (.perm 2) = none ∧ p.length = 4 ∧ numAt p 0 4 = 0x100 + ch ∧ ch < 32 :=
  ⟨owned, .sideband, [5, 1, 0, 0], 5, by decide⟩

theorem wit_MailboxSettings_clearRetention :
    ∃ (s : State) (src : MboxSrc), s.rd F.AON_PWR_MODE_CUR = 0 ∧ s.aon.entry.stage = 0 ∧ s.mboxUp src = true ∧ s.mboxBusy src = false ∧ s.lacks src (.perm 0) = none :=
  ⟨owned.wrAt F.RAS_RET_VALID 0 3 1, .sideband, by decide⟩

theorem wit_MailboxSettings_clearErrorLog :
    ∃ (s : State) (src : MboxSrc) (p : List (BitVec 8)), s.rd F.AON_PWR_MODE_CUR = 0 ∧ s.aon.entry.stage = 0 ∧ s.mboxUp src = true ∧ s.mboxBusy src = false ∧ s.lacks src (.perm 0) = none ∧ p.length = 4 ∧ 1 ≤ numAt p 0 4 ∧ numAt p 0 4 ≤ s.unread :=
  ⟨owned.wr F.RAS_LOG_PROD 3, .sideband, [2, 0, 0, 0], by decide⟩

theorem wit_MailboxSettings_setPowerState :
    ∃ (s : State) (src : MboxSrc) (p : List (BitVec 8)) (tgt : Nat), s.rd F.AON_PWR_MODE_CUR = 0 ∧ s.aon.entry.stage = 0 ∧ s.mboxUp src = true ∧ s.mboxBusy src = false ∧ s.srcHas src F.HLX_HEAD_PERM_FM = true ∧ p.length = 4 ∧ numAt p 0 4 = tgt ∧ (tgt = 1 ∨ tgt = 4) :=
  ⟨owned, .sideband, [4, 0, 0, 0], 4, by decide⟩

theorem wit_MailboxSettings_setPowerState2 :
    ∃ (s : State) (src : MboxSrc) (p : List (BitVec 8)), s.rd F.AON_PWR_MODE_CUR = 0 ∧ s.aon.entry.stage = 0 ∧ s.mboxUp src = true ∧ s.mboxBusy src = false ∧ s.srcHas src F.HLX_HEAD_PERM_FM = false ∧ p.length = 4 :=
  ⟨live, .ld 0 0, [4, 0, 0, 0], by decide⟩

theorem wit_MailboxKeys_setKeyMode :
    ∃ (s : State) (src : MboxSrc) (p : List (BitVec 8)), s.rd F.AON_PWR_MODE_CUR = 0 ∧ s.aon.entry.stage = 0 ∧ s.mboxUp src = true ∧ s.mboxBusy src = false ∧ s.lacks src (.perm 0) = none ∧ p.length = 4 ∧ numAt p 0 4 = 0 ∧ s.regionsPresent = 0 :=
  ⟨(bare.wr F.CRY_MODE_MODE 1).wrAt F.TMU_HEAD_TAG_KEY_EN 0 3 1, .sideband, [0, 0, 0, 0], by decide⟩

theorem wit_MailboxKeys_setKeyMode2 :
    ∃ (s : State) (src : MboxSrc) (p : List (BitVec 8)), s.rd F.AON_PWR_MODE_CUR = 0 ∧ s.aon.entry.stage = 0 ∧ s.mboxUp src = true ∧ s.mboxBusy src = false ∧ s.lacks src (.perm 0) = none ∧ p.length = 4 ∧ numAt p 0 4 = 1 ∧ s.regionsPresent = 0 :=
  ⟨bare, .sideband, [1, 0, 0, 0], by decide⟩

theorem wit_MailboxKeys_loadWrapKey :
    ∃ (s : State) (h : Nat) (l : Nat) (sid : Nat) (p : List (BitVec 8)), s.rd F.AON_PWR_MODE_CUR = 0 ∧ s.aon.entry.stage = 0 ∧ s.mboxUp (.session h l sid) = true ∧ s.mboxBusy (.session h l sid) = false ∧ s.lacks (.session h l sid) (.perm 0) = none ∧ p.length = 36 ∧ reservedAt p 0 4 = none ∧ s.wrapSession (.session h l sid) = true :=
  ⟨owned.setCtl { owned.ctl with sessions := [{ h := 0, l := 0, sid := 7, authd := true, listed := true }] }, 0, 0, 7, [0, 0, 0, 0] ++ List.replicate 32 9, by decide⟩

theorem wit_MailboxKeys_loadKeySlot :
    ∃ (s : State) (src : MboxSrc) (p : List (BitVec 8)) (k : Nat) (kek : BitVec 256), s.rd F.AON_PWR_MODE_CUR = 0 ∧ s.aon.entry.stage = 0 ∧ s.mboxUp src = true ∧ s.mboxBusy src = false ∧ s.lacks src (.perm 1) = none ∧ p.length = 44 ∧ numAt p 0 4 = k ∧ k ≤ 63 ∧ s.cry.kek = some kek ∧ s.keyBound k = false :=
  ⟨owned.setCry { owned.cry with kek := some 0x000102030405060708090A0B0C0D0E0F101112131415161718191A1B1C1D1E1F#256 }, .sideband, [3, 0, 0, 0] ++ [0x28, 0xC9, 0xF4, 0x04, 0xC4, 0xB8, 0x10, 0xF4, 0xCB, 0xCC, 0xB3, 0x5C, 0xFB, 0x87, 0xF8, 0x26, 0x3F, 0x57, 0x86, 0xE2, 0xD8, 0x0E, 0xD3, 0x26, 0xCB, 0xC7, 0xF0, 0xE7, 0x1A, 0x99, 0xF4, 0x3B, 0xFB, 0x98, 0x8B, 0x9B, 0x7A, 0x02, 0xDD, 0x21], 3, 0x000102030405060708090A0B0C0D0E0F101112131415161718191A1B1C1D1E1F#256, by decide⟩

theorem wit_MailboxKeys_clearKeySlot :
    ∃ (s : State) (src : MboxSrc) (p : List (BitVec 8)) (k : Nat), s.rd F.AON_PWR_MODE_CUR = 0 ∧ s.aon.entry.stage = 0 ∧ s.mboxUp src = true ∧ s.mboxBusy src = false ∧ s.lacks src (.perm 1) = none ∧ p.length = 4 ∧ numAt p 0 4 = k ∧ k ≤ 63 ∧ s.keyBound k = false :=
  ⟨owned.setCry { owned.cry with slotKeys := [(3, 5)] }, .sideband, [3, 0, 0, 0], 3, by decide⟩

theorem wit_MailboxKeys_rekeyRegion :
    ∃ (s : State) (src : MboxSrc) (p : List (BitVec 8)) (r : Nat), s.rd F.AON_PWR_MODE_CUR = 0 ∧ s.aon.entry.stage = 0 ∧ s.mboxUp src = true ∧ s.mboxBusy src = false ∧ s.lacks src (.perm 0) = none ∧ s.nearOnly = false ∧ p.length = 4 ∧ numAt p 0 4 = r ∧ r < 64 ∧ s.rgnState r = 1 ∧ s.rgnType r ≠ 4 ∧ s.slotHeld r = false ∧ s.isDeleting r = false ∧ s.rekeying r = false ∧ s.curGen r < 0xffffffff :=
  ⟨owned, .sideband, [1, 0, 0, 0], 1, by decide⟩

theorem wit_RegionCreate_regionCreate :
    ∃ (s : State) (src : MboxSrc) (p : List (BitVec 8)) (c : Spec) (a : Nat) (rest : List (Nat × Nat)), s.rd F.AON_PWR_MODE_CUR = 0 ∧ s.aon.entry.stage = 0 ∧ s.mboxUp src = true ∧ s.mboxBusy src = false ∧ s.lacks src (.perm 0) = none ∧ p.length = 64 ∧ c = Spec.ofInput p ∧ s.badCreate p = none ∧ c.type = 2 ∧ c.offer = false ∧ s.nearOnly = false ∧ s.slotHeld c.slot = false ∧ s.rgnState c.slot = 0 ∧ c.base + c.size ≤ 16384 ∧ s.overlapped c.base c.size = none ∧ s.vk4 = false ∧ s.curGen c.slot < 0xffffffff ∧ s.committed + c.commit ≤ s.rd F.TMU_CAP_TOTAL_SECTORS ∧ ivFirstFit s.tmu.mapFree (c.size * 131072) = some (a, rest) :=
  ⟨(bare.setTmu { bare.tmu with mapFree := [(0, 262144)] }).wr F.TMU_CAP_TOTAL_SECTORS 1000000, .sideband, [5, 2, 3, 4, 0, 0, 0, 0, 1, 0, 0, 0, 8, 0, 1, 0] ++ leBytes 8 4096 ++ leBytes 4 16 ++ [75, 90, 97] ++ List.replicate 33 0, Spec.ofInput ([5, 2, 3, 4, 0, 0, 0, 0, 1, 0, 0, 0, 8, 0, 1, 0] ++ leBytes 8 4096 ++ leBytes 4 16 ++ [75, 90, 97] ++ List.replicate 33 0), 0, [(131072, 131072)], by decide⟩

theorem wit_RegionCreate_regionInitStep :
    ∃ (s : State) (r : Nat) (n : Nat), r < 64 ∧ s.serving = true ∧ s.rgnState r = 1 ∧ s.isDeleting r = false ∧ s.nearOnly = false ∧ 0 < n ∧ s.rd F.TMU_RGN_INIT_WATERMARK r + n < s.rgnTiles r ∧ s.rgnTiles r < 2 ^ 32 ∧ s.barred 19 13 (s.pairBucket 19 13) (32 * n) 1 = 0 :=
  ⟨live, 1, 64, by decide⟩

theorem wit_RegionCreate_regionInitStep2 :
    ∃ (s : State) (r : Nat) (n : Nat), r < 64 ∧ s.serving = true ∧ s.rgnState r = 1 ∧ s.isDeleting r = false ∧ s.nearOnly = false ∧ 0 < n ∧ s.rd F.TMU_RGN_INIT_WATERMARK r + n = s.rgnTiles r ∧ s.rgnTiles r < 2 ^ 32 ∧ s.barred 19 13 (s.pairBucket 19 13) (32 * n) 1 = 0 :=
  ⟨live.wrI F.TMU_RGN_INIT_WATERMARK 1 262080, 1, 64, by decide⟩

theorem wit_RegionChange_regionSet :
    ∃ (s : State) (src : MboxSrc) (p : List (BitVec 8)) (r : Nat), s.rd F.AON_PWR_MODE_CUR = 0 ∧ s.aon.entry.stage = 0 ∧ s.mboxUp src = true ∧ s.mboxBusy src = false ∧ s.lacks src (.perm 0) = none ∧ p.length = 64 ∧ numAt p 0 1 = r ∧ r < 64 ∧ s.slotHeld r = false ∧ s.isDeleting r = false ∧ s.rgnState r ≠ 0 ∧ s.rgnType r = 1 ∧ s.badSet p r = none ∧ (numAt p 60 4).testBit 5 = false ∧ (numAt p 60 4).testBit 8 = false ∧ (numAt p 60 4).testBit 9 = false ∧ chosen p 4 1 (s.rd F.TMU_RGN_POLICY_TIER r) = s.rd F.TMU_RGN_POLICY_TIER r ∧ s.rd F.TMU_RGN_POLICY_TIER r < 3 :=
  ⟨owned.wrI F.TMU_RGN_MAP_TYPE 1 1, .sideband, [1, 0, 7, 5] ++ List.replicate 56 0 ++ [12, 0, 0, 0], 1, by decide⟩

theorem wit_RegionChange_regionGrant :
    ∃ (s : State) (src : MboxSrc) (p : List (BitVec 8)) (r : Nat) (n : Nat), s.rd F.AON_PWR_MODE_CUR = 0 ∧ s.aon.entry.stage = 0 ∧ s.mboxUp src = true ∧ s.mboxBusy src = false ∧ s.lacks src (.perm 0) = none ∧ p.length = 12 ∧ numAt p 0 4 = r ∧ numAt p 4 8 = n ∧ r < 64 ∧ s.slotHeld r = false ∧ s.isDeleting r = false ∧ s.rgnState r = 1 ∧ s.rgnType r = 2 ∧ s.committed + n ≤ s.rd F.TMU_CAP_TOTAL_SECTORS ∧ s.rd F.TMU_RGN_BUDGET_BUDGET r + n < 2 ^ 40 :=
  ⟨owned.wr F.TMU_CAP_TOTAL_SECTORS 1000000, .sideband, leBytes 4 1 ++ leBytes 8 500, 1, 500, by decide⟩

theorem wit_RegionChange_regionDelete :
    ∃ (s : State) (src : MboxSrc) (p : List (BitVec 8)) (r : Nat), s.rd F.AON_PWR_MODE_CUR = 0 ∧ s.aon.entry.stage = 0 ∧ s.mboxUp src = true ∧ s.mboxBusy src = false ∧ s.lacks src (.perm 0) = none ∧ p.length = 4 ∧ numAt p 0 4 = r ∧ r < 64 ∧ s.slotHeld r = false ∧ s.isDeleting r = false ∧ s.rgnState r ≠ 0 ∧ s.rgnType r ≠ 3 ∧ (∀ m ∈ s.tmu.moves, m.slot ≠ r) ∧ s.rd F.BTC_RET_PEND_SLOT < 2 ^ 64 :=
  ⟨owned, .sideband, [1, 0, 0, 0], 1, by decide⟩

theorem wit_RegionChange_regionDeleteDone :
    ∃ (s : State) (r : Nat), r < 64 ∧ s.isDeleting r = true ∧ s.quiet r = true ∧ s.aon.held = false ∧ s.aon.off = 0 ∧ s.cry.halt = 0 ∧ s.nearOnly = false ∧ s.rgnType r = 2 ∧ s.entries r = [] ∧ s.hlx.memclr = [] ∧ s.ctl.background = [] ∧ s.tmu.orphans = [] :=
  ⟨live.setTmu { live.tmu with deleting := [(1, 0)] }, 1, by decide⟩

theorem wit_RegionChange_retainRelocationDone :
    ∃ (s : State) (r : Nat), r < 64 ∧ s.scarabRuns = true ∧ (s.rd F.BTC_RET_PEND_SLOT).testBit r = true ∧ s.rd F.BTC_RET_PEND_SLOT < 2 ^ 64 ∧ s.fixedSlots r = false ∧ s.outside r = [] ∧ (∀ m ∈ s.tmu.moves, m.slot ≠ r) :=
  ⟨live.wr F.BTC_RET_PEND_SLOT 2, 1, by decide⟩

theorem wit_DynamicCapacity_dcAddAccept :
    ∃ (s : State) (h : Nat) (l : Nat) (r : Nat), s.rd F.AON_PWR_MODE_CUR = 0 ∧ s.aon.entry.stage = 0 ∧ s.mboxUp (.ld h l) = true ∧ s.mboxBusy (.ld h l) = false ∧ h < 16 ∧ r < 64 ∧ s.offered h r = true ∧ s.ldMask h l r = true ∧ s.owner r < 2 ^ 16 :=
  ⟨(owned.setTmu { owned.tmu with offers := [(2, 1)] }).wrI F.HLX_LD_RGN_SLOTS 0 6, 0, 0, 2, by decide⟩

theorem wit_DynamicCapacity_dcAddAccept2 :
    ∃ (s : State) (h : Nat) (l : Nat) (r : Nat) (n : Nat), s.rd F.AON_PWR_MODE_CUR = 0 ∧ s.aon.entry.stage = 0 ∧ s.mboxUp (.ld h l) = true ∧ s.mboxBusy (.ld h l) = false ∧ r < 64 ∧ s.rgnState r = 1 ∧ s.isDeleting r = false ∧ s.rgnType r = 2 ∧ s.admits h l r = true ∧ 0 < n ∧ n % dcBlock = 0 ∧ s.committed + n ≤ s.rd F.TMU_CAP_TOTAL_SECTORS ∧ s.rd F.TMU_RGN_BUDGET_BUDGET r + n < 2 ^ 40 :=
  ⟨(owned.wr F.TMU_CAP_TOTAL_SECTORS 0x4000000).wrI F.HLX_LD_RGN_SLOTS 0 6, 0, 0, 1, 0x1000000, by decide⟩

theorem wit_DynamicCapacity_dcAddRefuse :
    ∃ (s : State) (h : Nat) (l : Nat) (r : Nat), s.rd F.AON_PWR_MODE_CUR = 0 ∧ s.aon.entry.stage = 0 ∧ s.mboxUp (.ld h l) = true ∧ s.mboxBusy (.ld h l) = false ∧ h < 16 ∧ r < 64 ∧ s.offered h r = true ∧ s.ldMask h l r = true ∧ s.owner r ≠ 0 :=
  ⟨((owned.setTmu { owned.tmu with offers := [(2, 1)] }).wrI F.HLX_LD_RGN_SLOTS 0 6).wrI F.TMU_RGN_MAP_OWNER 2 2, 0, 0, 2, by decide⟩

theorem wit_DynamicCapacity_dcRelease :
    ∃ (s : State) (h : Nat) (l : Nat) (r : Nat), s.rd F.AON_PWR_MODE_CUR = 0 ∧ s.aon.entry.stage = 0 ∧ s.mboxUp (.ld h l) = true ∧ s.mboxBusy (.ld h l) = false ∧ h < 16 ∧ r < 64 ∧ s.rgnState r ≠ 0 ∧ s.isDeleting r = false ∧ s.rgnType r ≠ 3 ∧ s.admits h l r = true ∧ mget s.tmu.offers r = none ∧ s.owner r < 2 ^ 16 :=
  ⟨owned.wrI F.HLX_LD_RGN_SLOTS 0 6, 0, 0, 1, by decide⟩

theorem wit_QueueCommands_queueSet :
    ∃ (s : State) (h : Nat) (l : Nat) (p : List (BitVec 8)) (q : Nat) (n : Qctx), s.rd F.AON_PWR_MODE_CUR = 0 ∧ s.aon.entry.stage = 0 ∧ s.mboxUp (.ld h l) = true ∧ s.mboxBusy (.ld h l) = false ∧ p.length = 68 ∧ numAt p 0 4 = q ∧ s.ldOwnsQueue h l q = true ∧ s.job.disabling = [] ∧ s.job.cache.length ≤ 16384 ∧ (mget s.job.cache q).isSome = true ∧ s.job.lostCtx.contains q = false ∧ (s.ctx q).state = 0 ∧ n = qctxImage (p.drop 4) (h + 16 * l) (s.vectors h) ∧ s.activation n = 0 :=
  ⟨queued.wrI F.TMU_RGN_MAP_TYPE 1 1, 0, 0, leBytes 4 2 ++ [1, 0, 0, 0, 0, 0, 4, 0] ++ leBytes 8 0x3000 ++ List.replicate 48 0, 2, qctxImage ((leBytes 4 2 ++ [1, 0, 0, 0, 0, 0, 4, 0] ++ leBytes 8 0x3000 ++ List.replicate 48 0).drop 4) 0 (queued.vectors 0), by decide⟩

theorem wit_QueueCommands_queueDisable :
    ∃ (s : State) (h : Nat) (l : Nat) (p : List (BitVec 8)) (q : Nat), s.rd F.AON_PWR_MODE_CUR = 0 ∧ s.aon.entry.stage = 0 ∧ s.mboxUp (.ld h l) = true ∧ s.mboxBusy (.ld h l) = false ∧ p.length = 4 ∧ numAt p 0 4 = q ∧ s.ldOwnsQueue h l q = true ∧ s.job.disabling = [] ∧ s.job.cache.length ≤ 16384 ∧ (mget s.job.cache q).isSome = true ∧ s.job.lostCtx.contains q = false ∧ (∀ j ∈ s.job.jobs, j.queue ≠ q) ∧ (s.ctx q).typ = 0 :=
  ⟨queued, 0, 0, leBytes 4 0, 0, by decide⟩

theorem wit_QueueCommands_queueQuery :
    ∃ (s : State) (h : Nat) (l : Nat) (p : List (BitVec 8)) (q : Nat), s.rd F.AON_PWR_MODE_CUR = 0 ∧ s.aon.entry.stage = 0 ∧ s.mboxUp (.ld h l) = true ∧ s.mboxBusy (.ld h l) = false ∧ p.length = 4 ∧ numAt p 0 4 = q ∧ s.ldOwnsQueue h l q = true ∧ s.job.cache.length ≤ 16384 ∧ (mget s.job.cache q).isSome = true ∧ s.job.lostCtx.contains q = false :=
  ⟨queued, 0, 0, leBytes 4 0, 0, by decide⟩

theorem wit_QueueCommands_doorbellWrite :
    ∃ (s : State) (h : Nat) (l : Nat) (q : Nat) (value : BitVec 32) (be : BitVec 64), s.rd F.AON_PWR_MODE_CUR = 0 ∧ s.aon.entry.stage = 0 ∧ s.windowUp h l = true ∧ s.rdb F.HLX_PORT_STS_VIRAL_IN h = false ∧ (∀ i < 4, be.getLsbD i = true) ∧ s.ldOwnsQueue h l q = true ∧ s.rd F.AON_PWR_MODE_TARGET ≠ 3 ∧ s.job.cache.length ≤ 16384 ∧ (mget s.job.cache q).isSome = true ∧ s.job.lostCtx.contains q = false ∧ (s.ctx q).typ = 0 :=
  ⟨queued, 0, 0, 0, 3, BitVec.allOnes 64, by decide⟩

theorem wit_QueueCommands_doorbellWrite2 :
    ∃ (s : State) (h : Nat) (l : Nat) (q : Nat) (value : BitVec 32) (be : BitVec 64), s.rd F.AON_PWR_MODE_CUR = 0 ∧ s.aon.entry.stage = 0 ∧ s.windowUp h l = true ∧ s.rdb F.HLX_PORT_STS_VIRAL_IN h = false ∧ h < 16 ∧ l < 4 ∧ (∀ i < 4, be.getLsbD i = true) ∧ s.ldOwnsQueue h l q = false ∧ s.rd F.HLX_HEAD_STS_DB_REJECT (hl h l) + 1 < 2 ^ F.HLX_HEAD_STS_DB_REJECT.width :=
  ⟨queued, 0, 0, 99, 3, BitVec.allOnes 64, by decide⟩

theorem wit_QueueCommands_doorbellWrite3 :
    ∃ (s : State) (h : Nat) (l : Nat) (q : Nat) (value : BitVec 32) (be : BitVec 64), s.rd F.AON_PWR_MODE_CUR = 0 ∧ s.aon.entry.stage = 0 ∧ s.windowUp h l = true ∧ s.rdb F.HLX_PORT_STS_VIRAL_IN h = true ∧ h < 16 ∧ s.rd F.HLX_PORT_ERRCNT_VIRAL_DROP h + 1 < 2 ^ F.HLX_PORT_ERRCNT_VIRAL_DROP.width :=
  ⟨queued.wrI F.HLX_PORT_STS_VIRAL_IN 0 1, 0, 0, 0, 3, BitVec.allOnes 64, by decide⟩

theorem wit_QueueCommands_doorbellRead :
    ∃ (s : State) (h : Nat) (l : Nat) (q : Nat) (tag : Nat), s.rd F.AON_PWR_MODE_CUR = 0 ∧ s.aon.entry.stage = 0 ∧ s.windowUp h l = true ∧ s.ldOwnsQueue h l q = true ∧ s.job.cache.length ≤ 16384 ∧ (mget s.job.cache q).isSome = true ∧ s.job.lostCtx.contains q = false :=
  ⟨queued, 0, 0, 0, 9, by decide⟩

theorem wit_QueueCommands_doorbellRead2 :
    ∃ (s : State) (h : Nat) (l : Nat) (q : Nat) (tag : Nat), s.rd F.AON_PWR_MODE_CUR = 0 ∧ s.aon.entry.stage = 0 ∧ s.windowUp h l = true ∧ s.ldOwnsQueue h l q = false :=
  ⟨queued, 0, 0, 99, 9, by decide⟩

theorem wit_QueueCommands_coalTimeExpiry :
    ∃ (s : State) (q : Nat) (n : Nat) (first : Nat) (e : MsixEnt), s.aon.held = false ∧ s.aon.off = 0 ∧ s.cry.halt = 0 ∧ s.rd F.AON_PWR_MODE_CUR < 3 ∧ mget s.job.coal q = some (n, first) ∧ 0 < n ∧ (s.ctx q).intEn = true ∧ (s.ctx q).coalTime ≠ 0 ∧ first + (s.ctx q).coalTime ≤ s.tickNo ∧ s.headUp ((s.ctx q).owner % 16) = true ∧ e = s.msixEnt ((s.ctx q).owner % 16) ((s.ctx q).owner / 16) (s.ctx q).vector ∧ e.masked = false :=
  ⟨((queued.setJob { queued.job with coal := [(1, 2, 0)], ctxs := [(1, { qctxReset with typ := 1, state := 1, log2 := 4, intEn := true, coalTime := 5 })] }).wr F.AON_EPOCH_EPOCH 9).setHlx { queued.hlx with msix := [(0, { addr := 0xfee00000, data := 33, masked := false })] }, 1, 2, 0, { addr := 0xfee00000, data := 33, masked := false }, by decide⟩

theorem wit_QueueCommands_coalTimeExpiry2 :
    ∃ (s : State) (q : Nat) (n : Nat) (first : Nat) (e : MsixEnt), s.aon.held = false ∧ s.aon.off = 0 ∧ s.cry.halt = 0 ∧ s.rd F.AON_PWR_MODE_CUR < 3 ∧ mget s.job.coal q = some (n, first) ∧ 0 < n ∧ (s.ctx q).intEn = true ∧ (s.ctx q).coalTime ≠ 0 ∧ first + (s.ctx q).coalTime ≤ s.tickNo ∧ s.headUp ((s.ctx q).owner % 16) = true ∧ e = s.msixEnt ((s.ctx q).owner % 16) ((s.ctx q).owner / 16) (s.ctx q).vector ∧ e.masked = true :=
  ⟨((queued.setJob { queued.job with coal := [(1, 2, 0)], ctxs := [(1, { qctxReset with typ := 1, state := 1, log2 := 4, intEn := true, coalTime := 5 })] }).wr F.AON_EPOCH_EPOCH 9), 1, 2, 0, msixReset, by decide⟩

theorem wit_FetchAndSimpleJobs_descriptorFetch :
    ∃ (s : State) (q : Nat) (k : Nat) (e : Nat) (r : Nat) (c : Qctx) (d : Qctx), s.jobsRun = true ∧ s.paused = false ∧ s.rd F.AON_PWR_MODE_TARGET ≠ 3 ∧ s.mayFetch q = true ∧ s.fetchTurn q = true ∧ s.ctx q = c ∧ c.cq = k ∧ q ≠ k ∧ s.ctx k = d ∧ d.typ = 1 ∧ d.state = 1 ∧ 0 < d.free ∧ s.jobEngine = some e ∧ s.job.cache.length < 16384 ∧ (mget s.job.cache q).isSome = true ∧ (mget s.job.cache k).isSome = true ∧ s.job.lostCtx = [] ∧ (∀ j ∈ s.job.jobs, j.phase ≠ .ended ∧ j.id < s.job.nextJob) ∧ s.barred 18 c.cls c.bucket 64 1 = 0 ∧ s.regionAt (c.base + 64 * c.head) s.tmu.nextId = some r ∧ s.admits (c.owner % 16) (c.owner / 16) r = true ∧ s.vk4 = false ∧ s.rgnState r = 1 ∧ s.rgnType r ≠ 4 ∧ s.nearOnly = false ∧ s.ras.sweep = none ∧ s.cached r ((c.base + 64 * c.head - s.rgnBase r) / 4096) = false :=
  ⟨queued.setJob { queued.job with ctxs := [(0, { qctxReset with state := 1, qdepth := 4, log2 := 4, cq := 1, tail := 1, cls := 2, bucket := 1 }), (1, { qctxReset with typ := 1, state := 1, log2 := 4, base := 8192 })] }, 0, 1, 0, 1, { qctxReset with state := 1, qdepth := 4, log2 := 4, cq := 1, tail := 1, cls := 2, bucket := 1 }, { qctxReset with typ := 1, state := 1, log2 := 4, base := 8192 }, by decide⟩

theorem wit_DataJobs_fill :
    ∃ (s : State) (j : Job) (r : Nat), s.jobsRun = true ∧ s.paused = false ∧ s.job.jobs = [j] ∧ j.phase = .waiting ∧ j.parts = [] ∧ j.abort = 0 ∧ j.status = none ∧ j.before = [] ∧ j.next = 0 ∧ j.blocks = [] ∧ j.op = 0x11 ∧ j.out = none ∧ j.len = 64 ∧ j.dst % 64 = 0 ∧ s.regionAt j.dst s.tmu.nextId = some r ∧ s.admits (j.owner % 16) (j.owner / 16) r = true ∧ s.vk4 = false ∧ s.rgnState r = 1 ∧ s.rgnType r ≠ 4 ∧ s.nearOnly = false ∧ s.ras.sweep = none ∧ s.cached r ((j.dst - s.rgnBase r) / 4096) = false ∧ s.barred 18 j.cls j.bucket 64 1 = 0 ∧ s.rd F.SCR_JOB_CFG_PARTS ≠ 0 :=
  ⟨jobbed (mkJob (descr 0x11 2 0 0 128 64 0)), mkJob (descr 0x11 2 0 0 128 64 0), 1, by decide⟩

theorem wit_DataJobs_zero :
    ∃ (s : State) (j : Job) (r : Nat), s.jobsRun = true ∧ s.paused = false ∧ s.job.jobs = [j] ∧ j.phase = .waiting ∧ j.parts = [] ∧ j.abort = 0 ∧ j.status = none ∧ j.before = [] ∧ j.next = 0 ∧ j.blocks = [] ∧ j.op = 0x12 ∧ j.out = none ∧ j.len = 64 ∧ j.dst % 64 = 0 ∧ s.regionAt j.dst s.tmu.nextId = some r ∧ s.admits (j.owner % 16) (j.owner / 16) r = true ∧ s.vk4 = false ∧ s.rgnState r = 1 ∧ s.rgnType r ≠ 4 ∧ s.nearOnly = false ∧ s.ras.sweep = none ∧ s.cached r ((j.dst - s.rgnBase r) / 4096) = false ∧ s.barred 18 j.cls j.bucket 64 1 = 0 ∧ s.rd F.SCR_JOB_CFG_PARTS ≠ 0 :=
  ⟨jobbed (mkJob (descr 0x12 2 0 0 128 64 0)), mkJob (descr 0x12 2 0 0 128 64 0), 1, by decide⟩

theorem wit_DataJobs_copy :
    ∃ (s : State) (j : Job) (r : Nat), s.jobsRun = true ∧ s.paused = false ∧ s.job.jobs = [j] ∧ j.phase = .waiting ∧ j.parts = [] ∧ j.abort = 0 ∧ j.status = none ∧ j.before = [] ∧ j.next = 0 ∧ j.blocks = [] ∧ j.op = 0x10 ∧ j.out = none ∧ j.len = 64 ∧ j.src % 64 = 0 ∧ j.late = none ∧ j.acc = [] ∧ j.dst % 64 = 0 ∧ s.regionAt j.src s.tmu.nextId = some r ∧ s.admits (j.owner % 16) (j.owner / 16) r = true ∧ s.vk4 = false ∧ s.rgnState r = 1 ∧ s.rgnType r ≠ 4 ∧ s.nearOnly = false ∧ s.ras.sweep = none ∧ s.cached r ((j.src - s.rgnBase r) / 4096) = false ∧ s.barred 18 j.cls j.bucket 64 1 = 0 ∧ s.rd F.SCR_JOB_CFG_PARTS ≠ 0 :=
  ⟨jobbed (mkJob (descr 0x10 2 0 128 8192 64 64)), mkJob (descr 0x10 2 0 128 8192 64 64), 1, by decide⟩

theorem wit_DataJobs_compress :
    ∃ (s : State) (j : Job) (r : Nat), s.jobsRun = true ∧ s.paused = false ∧ s.job.jobs = [j] ∧ j.phase = .waiting ∧ j.parts = [] ∧ j.abort = 0 ∧ j.status = none ∧ j.before = [] ∧ j.next = 0 ∧ j.blocks = [] ∧ j.op = 0x20 ∧ j.out = none ∧ j.len = 64 ∧ j.src % 64 = 0 ∧ j.late = none ∧ j.acc = [] ∧ s.cdcOffline = false ∧ s.regionAt j.src s.tmu.nextId = some r ∧ s.admits (j.owner % 16) (j.owner / 16) r = true ∧ s.vk4 = false ∧ s.rgnState r = 1 ∧ s.rgnType r ≠ 4 ∧ s.nearOnly = false ∧ s.ras.sweep = none ∧ s.cached r ((j.src - s.rgnBase r) / 4096) = false ∧ s.barred 18 j.cls j.bucket 64 1 = 0 ∧ s.rd F.SCR_JOB_CFG_PARTS ≠ 0 :=
  ⟨jobbed (mkJob (descr 0x20 2 0 128 8192 64 64)), mkJob (descr 0x20 2 0 128 8192 64 64), 1, by decide⟩

theorem wit_DataJobs_decompress :
    ∃ (s : State) (j : Job) (r : Nat), s.jobsRun = true ∧ s.paused = false ∧ s.job.jobs = [j] ∧ j.phase = .waiting ∧ j.parts = [] ∧ j.abort = 0 ∧ j.status = none ∧ j.before = [] ∧ j.next = 0 ∧ j.blocks = [] ∧ j.op = 0x21 ∧ j.out = none ∧ j.len = 64 ∧ j.src % 64 = 0 ∧ j.late = none ∧ j.acc = [] ∧ s.cdcOffline = false ∧ s.regionAt j.src s.tmu.nextId = some r ∧ s.admits (j.owner % 16) (j.owner / 16) r = true ∧ s.vk4 = false ∧ s.rgnState r = 1 ∧ s.rgnType r ≠ 4 ∧ s.nearOnly = false ∧ s.ras.sweep = none ∧ s.cached r ((j.src - s.rgnBase r) / 4096) = false ∧ s.barred 18 j.cls j.bucket 64 1 = 0 ∧ s.rd F.SCR_JOB_CFG_PARTS ≠ 0 :=
  ⟨jobbed (mkJob (descr 0x21 2 0 128 8192 64 64)), mkJob (descr 0x21 2 0 128 8192 64 64), 1, by decide⟩

theorem wit_DataJobs_checksum :
    ∃ (s : State) (j : Job) (r : Nat), s.jobsRun = true ∧ s.paused = false ∧ s.job.jobs = [j] ∧ j.phase = .waiting ∧ j.parts = [] ∧ j.abort = 0 ∧ j.status = none ∧ j.before = [] ∧ j.next = 0 ∧ j.blocks = [] ∧ j.op = 0x22 ∧ j.out = none ∧ j.len = 64 ∧ j.src % 64 = 0 ∧ j.late = none ∧ j.acc = [] ∧ s.cdcOffline = false ∧ s.regionAt j.src s.tmu.nextId = some r ∧ s.admits (j.owner % 16) (j.owner / 16) r = true ∧ s.vk4 = false ∧ s.rgnState r = 1 ∧ s.rgnType r ≠ 4 ∧ s.nearOnly = false ∧ s.ras.sweep = none ∧ s.cached r ((j.src - s.rgnBase r) / 4096) = false ∧ s.barred 18 j.cls j.bucket 64 1 = 0 ∧ s.rd F.SCR_JOB_CFG_PARTS ≠ 0 :=
  ⟨jobbed (mkJob (descr 0x22 2 0 128 8192 64 64)), mkJob (descr 0x22 2 0 128 8192 64 64), 1, by decide⟩

theorem wit_FetchAndSimpleJobs_nop :
    ∃ (s : State) (j : Job), s.jobsRun = true ∧ s.paused = false ∧ s.job.jobs = [j] ∧ j.phase = .waiting ∧ j.parts = [] ∧ j.abort = 0 ∧ j.status = none ∧ j.before = [] ∧ j.next = 0 ∧ j.blocks = [] ∧ j.op = 0 ∧ j.flags.testBit 1 = true ∧ s.job.disabling = [] ∧ (s.ctx j.queue).typ = 0 ∧ (s.ctx j.queue).cq ≠ j.queue ∧ s.rd F.SCR_JOB_DONE_JOBS + 1 < 2 ^ 48 :=
  ⟨jobbed (mkJob (descr 0 2 0 0 0 0 0)), mkJob (descr 0 2 0 0 0 0 0), by decide⟩

theorem wit_FetchAndSimpleJobs_fence :
    ∃ (s : State) (j : Job), s.jobsRun = true ∧ s.paused = false ∧ s.job.jobs = [j] ∧ j.phase = .waiting ∧ j.parts = [] ∧ j.abort = 0 ∧ j.status = none ∧ j.before = [] ∧ j.next = 0 ∧ j.blocks = [] ∧ j.op = 1 ∧ j.flags.testBit 1 = true ∧ s.job.disabling = [] ∧ (s.ctx j.queue).typ = 0 ∧ (s.ctx j.queue).cq ≠ j.queue ∧ s.rd F.SCR_JOB_DONE_JOBS + 1 < 2 ^ 48 :=
  ⟨jobbed (mkJob (descr 1 2 0 0 0 0 0)), mkJob (descr 1 2 0 0 0 0 0), by decide⟩

theorem wit_FetchAndSimpleJobs_jobPartDone :
    ∃ (s : State) (j : Job) (p : JobPart), s.jobsRun = true ∧ s.paused = false ∧ s.job.jobs = [j] ∧ j.phase = .running ∧ j.op = 0x11 ∧ j.out = none ∧ j.abort = 0 ∧ j.status = none ∧ j.blocks = [] ∧ j.next = j.len ∧ j.parts = [p] ∧ p.move = false ∧ p.begun = true ∧ p.reads = 0 ∧ p.writes = 0 ∧ p.fault = none ∧ j.flags.testBit 1 = true ∧ s.job.disabling = [] ∧ (s.ctx j.queue).typ = 0 ∧ (s.ctx j.queue).cq ≠ j.queue ∧ s.rd F.SCR_JOB_DONE_JOBS + 1 < 2 ^ 48 :=
  ⟨jobbed { mkJob (descr 0x11 2 0 0 128 64 0) with phase := .running, next := 64, parts := [{ live.newPart 0 64 with begun := true }] }, { mkJob (descr 0x11 2 0 0 128 64 0) with phase := .running, next := 64, parts := [{ live.newPart 0 64 with begun := true }] }, { live.newPart 0 64 with begun := true }, by decide⟩

theorem wit_TileJobs_promote :
    ∃ (s : State) (j : Job) (r : Nat) (tile : Nat) (ent : CacheEnt) (f : Nat), s.jobsRun = true ∧ s.paused = false ∧ s.job.jobs = [j] ∧ j.phase = .waiting ∧ j.parts = [] ∧ j.abort = 0 ∧ j.status = none ∧ j.before = [] ∧ j.next = 0 ∧ j.blocks = [] ∧ j.op = 0x30 ∧ j.len = 4096 ∧ j.out = none ∧ s.rd F.SCR_JOB_CFG_PARTS ≠ 0 ∧ tile = (j.dst - s.rgnBase r) / 4096 ∧ mget s.tmu.cache (tkey r tile) = some ent ∧ s.tmeFault r tile ent.tme = 0 ∧ j.late = none ∧ s.regionAt j.dst s.tmu.nextId = some r ∧ s.admits (j.owner % 16) (j.owner / 16) r = true ∧ s.vk4 = false ∧ s.rgnState r = 1 ∧ s.rgnType r ≠ 4 ∧ s.nearOnly = false ∧ ent.tme.nv = false ∧ ent.tme.unmat = false ∧ ent.tme.len = 0 ∧ s.expandOk r tile ent.tme = true ∧ (s.lockOf r tile).isNone = true ∧ s.lockRoom r = true ∧ s.unswept r tile = false ∧ s.freeFrame = some f ∧ tile < s.rgnTiles r ∧ s.isDeleting r = false ∧ s.barred 18 j.cls j.bucket 4096 1 = 0 ∧ (∀ m ∈ s.tmu.moves, m.id ≠ s.tmu.nextId) :=
  ⟨(withTile (jobbed (mkJob (descr 0x30 2 0 0 8192 4096 0))) 2 { tile0 with unmat := false, poison := true }), mkJob (descr 0x30 2 0 0 8192 4096 0), 1, 2, { tme := { tile0 with unmat := false, poison := true }, dirty := true, used := 0 }, 0, by decide⟩

theorem wit_TileJobs_demote :
    ∃ (s : State) (j : Job) (r : Nat) (tile : Nat) (ent : CacheEnt) (f : Nat) (x : Fte), s.jobsRun = true ∧ s.paused = false ∧ s.job.jobs = [j] ∧ j.phase = .waiting ∧ j.parts = [] ∧ j.abort = 0 ∧ j.status = none ∧ j.before = [] ∧ j.next = 0 ∧ j.blocks = [] ∧ j.op = 0x31 ∧ j.len = 4096 ∧ j.out = none ∧ s.rd F.SCR_JOB_CFG_PARTS ≠ 0 ∧ tile = (j.dst - s.rgnBase r) / 4096 ∧ mget s.tmu.cache (tkey r tile) = some ent ∧ s.tmeFault r tile ent.tme = 0 ∧ j.late = none ∧ s.regionAt j.dst s.tmu.nextId = some r ∧ s.admits (j.owner % 16) (j.owner / 16) r = true ∧ s.vk4 = false ∧ s.rgnState r = 1 ∧ s.rgnType r ≠ 4 ∧ s.nearOnly = false ∧ ent.dirty = true ∧ ent.tme.nv = true ∧ ent.tme.near = f ∧ s.fte f = some x ∧ x.slot = r ∧ x.tile = tile ∧ x.state = .clean ∧ s.mayEvict x = true ∧ j.flags.testBit 1 = true ∧ s.job.disabling = [] ∧ (s.ctx j.queue).typ = 0 ∧ (s.ctx j.queue).cq ≠ j.queue ∧ s.rd F.SCR_JOB_DONE_JOBS + 1 < 2 ^ 48 :=
  ⟨((withTile (jobbed (mkJob (descr 0x31 2 0 0 8192 4096 0))) 2 { tile0 with unmat := false, nv := true, near := 3 })).setNear { live.near with ftes := [(3, { tile := 2, slot := 1, state := .clean, pin := false, first := false, heat := 0, stamp := 0 })] }, mkJob (descr 0x31 2 0 0 8192 4096 0), 1, 2, { tme := { tile0 with unmat := false, nv := true, near := 3 }, dirty := true, used := 0 }, 3, { tile := 2, slot := 1, state := .clean, pin := false, first := false, heat := 0, stamp := 0 }, by decide⟩

theorem wit_TileJobs_pin :
    ∃ (s : State) (j : Job) (r : Nat) (tile : Nat) (ent : CacheEnt), s.jobsRun = true ∧ s.paused = false ∧ s.job.jobs = [j] ∧ j.phase = .waiting ∧ j.parts = [] ∧ j.abort = 0 ∧ j.status = none ∧ j.before = [] ∧ j.next = 0 ∧ j.blocks = [] ∧ j.op = 0x32 ∧ j.len = 4096 ∧ j.out = none ∧ s.rd F.SCR_JOB_CFG_PARTS ≠ 0 ∧ tile = (j.dst - s.rgnBase r) / 4096 ∧ mget s.tmu.cache (tkey r tile) = some ent ∧ s.tmeFault r tile ent.tme = 0 ∧ j.late = none ∧ s.regionAt j.dst s.tmu.nextId = some r ∧ s.admits (j.owner % 16) (j.owner / 16) r = true ∧ s.vk4 = false ∧ s.rgnState r = 1 ∧ s.rgnType r ≠ 4 ∧ s.nearOnly = false ∧ ent.dirty = true ∧ ent.tme.unmat = true ∧ ent.tme.nv = false ∧ j.flags.testBit 1 = true ∧ s.job.disabling = [] ∧ (s.ctx j.queue).typ = 0 ∧ (s.ctx j.queue).cq ≠ j.queue ∧ s.rd F.SCR_JOB_DONE_JOBS + 1 < 2 ^ 48 :=
  ⟨(withTile (jobbed (mkJob (descr 0x32 2 0 0 8192 4096 0))) 2 tile0), mkJob (descr 0x32 2 0 0 8192 4096 0), 1, 2, { tme := tile0, dirty := true, used := 0 }, by decide⟩

theorem wit_TileJobs_unpin :
    ∃ (s : State) (j : Job) (r : Nat) (tile : Nat) (ent : CacheEnt), s.jobsRun = true ∧ s.paused = false ∧ s.job.jobs = [j] ∧ j.phase = .waiting ∧ j.parts = [] ∧ j.abort = 0 ∧ j.status = none ∧ j.before = [] ∧ j.next = 0 ∧ j.blocks = [] ∧ j.op = 0x33 ∧ j.len = 4096 ∧ j.out = none ∧ s.rd F.SCR_JOB_CFG_PARTS ≠ 0 ∧ tile = (j.dst - s.rgnBase r) / 4096 ∧ mget s.tmu.cache (tkey r tile) = some ent ∧ s.tmeFault r tile ent.tme = 0 ∧ j.late = none ∧ s.regionAt j.dst s.tmu.nextId = some r ∧ s.admits (j.owner % 16) (j.owner / 16) r = true ∧ s.vk4 = false ∧ s.rgnState r = 1 ∧ s.rgnType r ≠ 4 ∧ s.nearOnly = false ∧ ent.dirty = true ∧ ent.tme.pinned = true ∧ ent.tme.nv = false ∧ s.rd F.TMU_RGN_POLICY_TIER r ≠ 1 ∧ j.flags.testBit 1 = true ∧ s.job.disabling = [] ∧ (s.ctx j.queue).typ = 0 ∧ (s.ctx j.queue).cq ≠ j.queue ∧ s.rd F.SCR_JOB_DONE_JOBS + 1 < 2 ^ 48 :=
  ⟨(withTile (jobbed (mkJob (descr 0x33 2 0 0 8192 4096 0))) 2 { tile0 with pinned := true }), mkJob (descr 0x33 2 0 0 8192 4096 0), 1, 2, { tme := { tile0 with pinned := true }, dirty := true, used := 0 }, by decide⟩

theorem wit_TileJobs_retire :
    ∃ (s : State) (j : Job) (r : Nat) (tile : Nat) (ent : CacheEnt) (a : Nat), s.jobsRun = true ∧ s.paused = false ∧ s.job.jobs = [j] ∧ j.phase = .waiting ∧ j.parts = [] ∧ j.abort = 0 ∧ j.status = none ∧ j.before = [] ∧ j.next = 0 ∧ j.blocks = [] ∧ j.op = 0x34 ∧ j.len = 4096 ∧ j.out = none ∧ s.rd F.SCR_JOB_CFG_PARTS ≠ 0 ∧ tile = (j.dst - s.rgnBase r) / 4096 ∧ mget s.tmu.cache (tkey r tile) = some ent ∧ s.tmeFault r tile ent.tme = 0 ∧ j.late = none ∧ s.regionAt j.dst s.tmu.nextId = some r ∧ s.admits (j.owner % 16) (j.owner / 16) r = true ∧ s.vk4 = false ∧ s.rgnState r = 1 ∧ s.rgnType r ≠ 4 ∧ s.nearOnly = false ∧ ent.dirty = true ∧ ent.tme.unmat = true ∧ ent.tme.len = 0 ∧ ent.tme.retired = false ∧ ent.tme.nv = false ∧ s.nextReserve.isSome = true ∧ s.rgnType r = 1 ∧ (s.lockOf r tile).isNone = true ∧ s.underCopy ent.tme = false ∧ s.lockRoom r = true ∧ (s.alloc r 64).map (·.1) = some a ∧ s.tmu.retired = [] ∧ j.flags.testBit 1 = true ∧ s.job.disabling = [] ∧ (s.ctx j.queue).typ = 0 ∧ (s.ctx j.queue).cq ≠ j.queue ∧ s.rd F.SCR_JOB_DONE_JOBS + 1 < 2 ^ 48 :=
  ⟨spared ((withTile (jobbed (mkJob (descr 0x34 2 0 0 8192 4096 0))) 2 tile0)), mkJob (descr 0x34 2 0 0 8192 4096 0), 1, 2, { tme := tile0, dirty := true, used := 0 }, 4096, by decide +kernel⟩

theorem wit_TileJobs_rekey :
    ∃ (s : State) (j : Job) (r : Nat), s.jobsRun = true ∧ s.paused = false ∧ s.job.jobs = [j] ∧ j.phase = .waiting ∧ j.parts = [] ∧ j.abort = 0 ∧ j.status = none ∧ j.before = [] ∧ j.next = 0 ∧ j.blocks = [] ∧ j.op = 0x35 ∧ s.regionAt j.dst s.tmu.nextId = some r ∧ s.admits (j.owner % 16) (j.owner / 16) r = true ∧ s.vk4 = false ∧ s.rgnState r = 1 ∧ s.rgnType r ≠ 4 ∧ s.nearOnly = false ∧ r < 64 ∧ s.rekeying r = false ∧ s.curGen r < 0xffffffff ∧ s.cry.rekeyJobs = [] :=
  ⟨jobbed (mkJob (descr 0x35 2 0 0 8192 0 0)), mkJob (descr 0x35 2 0 0 8192 0 0), 1, by decide⟩

theorem wit_TileJobs_scrubRange :
    ∃ (s : State) (j : Job) (r : Nat) (tile : Nat) (ent : CacheEnt) (f : Nat) (x : Fte), s.jobsRun = true ∧ s.paused = false ∧ s.job.jobs = [j] ∧ j.phase = .waiting ∧ j.parts = [] ∧ j.abort = 0 ∧ j.status = none ∧ j.before = [] ∧ j.next = 0 ∧ j.blocks = [] ∧ j.op = 0x36 ∧ j.len = 4096 ∧ j.out = none ∧ s.rd F.SCR_JOB_CFG_PARTS ≠ 0 ∧ tile = (j.dst - s.rgnBase r) / 4096 ∧ mget s.tmu.cache (tkey r tile) = some ent ∧ s.tmeFault r tile ent.tme = 0 ∧ j.late = none ∧ s.regionAt j.dst s.tmu.nextId = some r ∧ s.admits (j.owner % 16) (j.owner / 16) r = true ∧ s.vk4 = false ∧ s.rgnState r = 1 ∧ s.rgnType r ≠ 4 ∧ s.nearOnly = false ∧ ent.dirty = true ∧ ent.tme.nv = true ∧ ent.tme.near = f ∧ s.fte f = some x ∧ ent.tme.len = 0 ∧ s.barred 18 j.cls j.bucket 4096 1 = 0 ∧ j.flags.testBit 1 = true ∧ s.job.disabling = [] ∧ (s.ctx j.queue).typ = 0 ∧ (s.ctx j.queue).cq ≠ j.queue ∧ s.rd F.SCR_JOB_DONE_JOBS + 1 < 2 ^ 48 :=
  ⟨((withTile (jobbed (mkJob (descr 0x36 2 0 0 8192 4096 0))) 2 { tile0 with unmat := false, nv := true, near := 3 })).setNear { live.near with ftes := [(3, { tile := 2, slot := 1, state := .clean, pin := false, first := false, heat := 0, stamp := 0 })] }, mkJob (descr 0x36 2 0 0 8192 4096 0), 1, 2, { tme := { tile0 with unmat := false, nv := true, near := 3 }, dirty := true, used := 0 }, 3, { tile := 2, slot := 1, state := .clean, pin := false, first := false, heat := 0, stamp := 0 }, by decide⟩

theorem wit_PoisonAndEventCommands_getPoisonList :
    ∃ (s : State) (h : Nat) (l : Nat) (start : Nat) (limit : Nat) (got : List Nat), s.rd F.AON_PWR_MODE_CUR = 0 ∧ s.aon.entry.stage = 0 ∧ s.mboxUp (.ld h l) = true ∧ s.mboxBusy (.ld h l) = false ∧ got = (s.poisonedFrom h l start).take (min limit poisonRecords) :=
  ⟨(withTile owned 3 { tile0 with poison := true }).wrI F.HLX_LD_RGN_SLOTS 0 2, 0, 0, 0, 4, [12288], by decide⟩

theorem wit_PoisonAndEventCommands_injectPoison :
    ∃ (s : State) (h : Nat) (l : Nat) (dpa : BitVec 64) (r : Nat), s.rd F.AON_PWR_MODE_CUR = 0 ∧ s.aon.entry.stage = 0 ∧ s.mboxUp (.ld h l) = true ∧ s.mboxBusy (.ld h l) = false ∧ s.regionAt (dpa.toNat % 2 ^ 46) s.tmu.nextId = some r ∧ s.srcHas (.ld h l) F.HLX_HEAD_PERM_DIAG = true ∧ dpa.toNat % 64 = 0 ∧ s.tagBitsOk h dpa.toNat = true ∧ s.admits h l r = true :=
  ⟨owned.wrI F.HLX_LD_RGN_SLOTS 0 2, 0, 0, 4096#64, 1, by decide⟩

theorem wit_PoisonAndEventCommands_clearPoison :
    ∃ (s : State) (h : Nat) (l : Nat) (dpa : BitVec 64) (data : BitVec 512) (r : Nat), s.rd F.AON_PWR_MODE_CUR = 0 ∧ s.aon.entry.stage = 0 ∧ s.mboxUp (.ld h l) = true ∧ s.mboxBusy (.ld h l) = false ∧ s.regionAt (dpa.toNat % 2 ^ 46) s.tmu.nextId = some r ∧ s.srcHas (.ld h l) F.HLX_HEAD_PERM_DIAG = true ∧ dpa.toNat % 64 = 0 ∧ s.tagBitsOk h dpa.toNat = true ∧ s.admits h l r = true :=
  ⟨owned.wrI F.HLX_LD_RGN_SLOTS 0 2, 0, 0, 4096#64, 5#512, 1, by decide⟩

theorem wit_PoisonAndEventCommands_getEventRecords :
    ∃ (s : State) (h : Nat) (l : Nat) (log : Nat) (recs : List EvRec) (ov : Nat × Nat × Nat), s.rd F.AON_PWR_MODE_CUR = 0 ∧ s.aon.entry.stage = 0 ∧ s.mboxUp (.ld h l) = true ∧ s.mboxBusy (.ld h l) = false ∧ log < 4 ∧ recs = s.logRecs h l log ∧ ov = (mget s.evt.overs (logKey h l log)).getD (0, 0, 0) :=
  ⟨owned, 0, 0, 1, [], (0, 0, 0), by decide⟩

theorem wit_PoisonAndEventCommands_clearEventRecords :
    ∃ (s : State) (h : Nat) (l : Nat) (log : Nat) (count : Nat), s.rd F.AON_PWR_MODE_CUR = 0 ∧ s.aon.entry.stage = 0 ∧ s.mboxUp (.ld h l) = true ∧ s.mboxBusy (.ld h l) = false ∧ h < 16 ∧ l < 4 ∧ log < 4 ∧ 0 < count ∧ count ≤ (s.logRecs h l log).length ∧ (s.logRecs h l log).length ≤ 64 ∧ s.rd F.EVT_LD_LOG_OVF (hl h l) < 16 :=
  ⟨owned.setEvt { owned.evt with records := [(1, [{ src := 5, cls := 3, blk := 0, page := 3, causes := 1, epoch := 0, phase := 0, region := 255, queue := 0, count := 1, stamp := 0 }])] }, 0, 0, 1, 1, by decide⟩

theorem wit_PoisonAndEventCommands_getEventInterruptPolicy :
    ∃ (s : State) (h : Nat) (l : Nat), s.rd F.AON_PWR_MODE_CUR = 0 ∧ s.aon.entry.stage = 0 ∧ s.mboxUp (.ld h l) = true ∧ s.mboxBusy (.ld h l) = false :=
  ⟨owned, 0, 0, by decide⟩

theorem wit_PoisonAndEventCommands_setEventInterruptPolicy :
    ∃ (s : State) (h : Nat) (l : Nat) (on : List Bool), s.rd F.AON_PWR_MODE_CUR = 0 ∧ s.aon.entry.stage = 0 ∧ s.mboxUp (.ld h l) = true ∧ s.mboxBusy (.ld h l) = false ∧ on.length = 4 :=
  ⟨owned, 0, 0, [true, false, true, false], by decide⟩

theorem wit_PoisonAndEventCommands_getTimestamp :
    ∃ (s : State) (h : Nat) (l : Nat), s.rd F.AON_PWR_MODE_CUR = 0 ∧ s.aon.entry.stage = 0 ∧ s.mboxUp (.ld h l) = true ∧ s.mboxBusy (.ld h l) = false :=
  ⟨owned, 0, 0, by decide⟩

theorem wit_PoisonAndEventCommands_setTimestamp :
    ∃ (s : State) (h : Nat) (l : Nat) (value : BitVec 64), s.rd F.AON_PWR_MODE_CUR = 0 ∧ s.aon.entry.stage = 0 ∧ s.mboxUp (.ld h l) = true ∧ s.mboxBusy (.ld h l) = false :=
  ⟨owned, 0, 0, 77#64, by decide⟩

theorem wit_FirmwareCommands_identifyMemoryDevice :
    ∃ (s : State) (h : Nat) (l : Nat), s.rd F.AON_PWR_MODE_CUR = 0 ∧ s.aon.entry.stage = 0 ∧ s.mboxUp (.ld h l) = true ∧ s.mboxBusy (.ld h l) = false ∧ s.rd F.CTL_HEALTH_STATE ≠ 4 :=
  ⟨owned, 0, 0, by decide⟩

theorem wit_FirmwareCommands_getFwInfo :
    ∃ (s : State) (h : Nat) (l : Nat), s.rd F.AON_PWR_MODE_CUR = 0 ∧ s.aon.entry.stage = 0 ∧ s.mboxUp (.ld h l) = true ∧ s.mboxBusy (.ld h l) = false ∧ s.rd F.CTL_HEALTH_STATE ≠ 4 ∧ s.srcHas (.ld h l) F.HLX_HEAD_PERM_FM = true :=
  ⟨owned, 0, 0, by decide⟩

theorem wit_FirmwareCommands_transferFw :
    ∃ (s : State) (h : Nat) (l : Nat) (fwSlot : Nat) (data : List (BitVec 8)), s.rd F.AON_PWR_MODE_CUR = 0 ∧ s.aon.entry.stage = 0 ∧ s.mboxUp (.ld h l) = true ∧ s.mboxBusy (.ld h l) = false ∧ s.rd F.CTL_HEALTH_STATE ≠ 4 ∧ s.srcHas (.ld h l) F.HLX_HEAD_PERM_FM = true ∧ (fwSlot = 1 ∨ fwSlot = 2) ∧ fwSlot ≠ s.activeSlot ∧ s.ctl.xfer = none ∧ data ≠ [] ∧ data.length ≤ xferBytes :=
  ⟨owned, 0, 0, 2, [1, 2, 255, 4], by decide⟩

theorem wit_FirmwareCommands_transferFwDone :
    ∃ (s : State) (readErr : Bool) (x : FwXfer) (src : MboxSrc), s.ctl.xfer = some x ∧ x.whole = true ∧ s.aon.held = false ∧ s.aon.off = 0 ∧ s.rd F.CTL_HEALTH_STATE ≠ 4 ∧ s.ctl.background = [BgOp.mk src 0x0201 x.slot] :=
  ⟨owned.setCtl { owned.ctl with xfer := some { slot := 2, next := 64, h := 0, l := 0, whole := true }, background := [BgOp.mk (.ld 0 0) 0x0201 2] }, false, { slot := 2, next := 64, h := 0, l := 0, whole := true }, .ld 0 0, by decide⟩

theorem wit_FirmwareCommands_activateFw :
    ∃ (s : State) (h : Nat) (l : Nat) (fwSlot : Nat), s.rd F.AON_PWR_MODE_CUR = 0 ∧ s.aon.entry.stage = 0 ∧ s.mboxUp (.ld h l) = true ∧ s.mboxBusy (.ld h l) = false ∧ s.rd F.CTL_HEALTH_STATE ≠ 4 ∧ s.srcHas (.ld h l) F.HLX_HEAD_PERM_FM = true ∧ (fwSlot = 1 ∨ fwSlot = 2) :=
  ⟨owned, 0, 0, 2, by decide⟩

theorem wit_FirmwareCommands_spdmMessage :
    ∃ (s : State) (h : Nat) (l : Nat), s.rd F.AON_PWR_MODE_CUR = 0 ∧ s.aon.entry.stage = 0 ∧ s.mboxUp (.ld h l) = true :=
  ⟨owned, 0, 0, by decide⟩

theorem wit_FirmwareCommands_spdmMessage2 :
    ∃ (s : State) (h : Nat) (l : Nat), s.rd F.AON_PWR_MODE_CUR = 0 ∧ s.aon.entry.stage = 0 ∧ s.mboxUp (.ld h l) = true :=
  ⟨owned, 0, 0, by decide⟩

theorem wit_FirmwareCommands_spdmMessage3 :
    ∃ (s : State) (h : Nat) (l : Nat) (sid : Nat) (authd : Bool) (root : BitVec 384), s.rd F.AON_PWR_MODE_CUR = 0 ∧ s.aon.entry.stage = 0 ∧ s.mboxUp (.ld h l) = true ∧ s.fuses.secret.isSome = true ∧ (∀ x ∈ s.ctl.sessions, x.sid ≠ sid) :=
  ⟨{ owned with fuses := { owned.fuses with secret := some 5 } }, 0, 0, 7, true, 0#384, by decide⟩

theorem wit_FirmwareCommands_spdmMessage4 :
    ∃ (s : State) (h : Nat) (l : Nat) (sid : Nat), s.rd F.AON_PWR_MODE_CUR = 0 ∧ s.aon.entry.stage = 0 ∧ s.mboxUp (.ld h l) = true ∧ ((s.ctl.sessions.any (fun x => decide (x.h = h ∧ x.l = l ∧ x.sid = sid))) = true) :=
  ⟨owned.setCtl { owned.ctl with sessions := [{ h := 0, l := 0, sid := 7, authd := true, listed := true }] }, 0, 0, 7, by decide⟩

theorem wit_FirmwareCommands_ideKmMessage :
    ∃ (s : State) (port : Nat) (stream : Nat) (rx : Bool) (k : BitVec 256), s.rd F.AON_PWR_MODE_CUR = 0 ∧ s.aon.entry.stage = 0 ∧ s.mboxUp (.ld port 0) = true ∧ stream < 3 :=
  ⟨owned, 0, 1, true, 9, by decide⟩

theorem wit_FirmwareCommands_ideKmMessage2 :
    ∃ (s : State) (port : Nat) (stream : Nat) (rx : Bool), s.rd F.AON_PWR_MODE_CUR = 0 ∧ s.aon.entry.stage = 0 ∧ s.mboxUp (.ld port 0) = true ∧ port < 16 ∧ stream < 3 ∧ (mget ((mget s.cry.ide port).getD []) (ideKey stream rx)).isSome = true :=
  ⟨owned.setCry { owned.cry with ide := [(0, [(3, 9)])] }, 0, 1, true, by decide⟩

theorem wit_FirmwareCommands_spdmSecuredAvsar :
    ∃ (s : State) (h : Nat) (l : Nat) (sid : Nat), s.rd F.AON_PWR_MODE_CUR = 0 ∧ s.aon.entry.stage = 0 ∧ s.mboxUp (.session h l sid) = true ∧ s.mboxBusy (.session h l sid) = false :=
  ⟨owned.setCtl { owned.ctl with sessions := [{ h := 0, l := 0, sid := 7, authd := true, listed := true }] }, 0, 0, 7, by decide⟩

theorem wit_FirmwareCommands_spdmSecuredAvsar2 :
    ∃ (s : State) (h : Nat) (l : Nat) (sid : Nat) (opcode : Nat) (payload : List (BitVec 8)), s.rd F.AON_PWR_MODE_CUR = 0 ∧ s.aon.entry.stage = 0 ∧ s.mboxUp (.session h l sid) = true ∧ s.mboxBusy (.session h l sid) = false ∧ opcode < 0xc000 :=
  ⟨owned.setCtl { owned.ctl with sessions := [{ h := 0, l := 0, sid := 7, authd := true, listed := true }] }, 0, 0, 7, 5, [], by decide⟩

theorem wit_Events_eventTick :
    ∃ (s : State), s.evtRuns = true ∧ s.evt.raises = [] ∧ s.rd F.EVT_TICKS_TICKS + 1 < 2 ^ F.EVT_TICKS_TICKS.width ∧ s.evt.latched = [] ∧ s.snapTriggers (s.deliveries.map (·.src)) = (false, 0, false) ∧ s.evt.ovfDue = false :=
  ⟨live, by decide⟩

theorem wit_Events_eventTick2 :
    ∃ (s : State) (r : Raise), s.evtRuns = true ∧ s.evt.raises = [r] ∧ s.evt.latched = [] ∧ s.snapTriggers (s.deliveries.map (·.src)) = (false, 0, false) ∧ s.evt.ovfDue = false ∧ r.src < 256 ∧ toCores r.src = true ∧ s.coreRoom (srcClass r.src) = true ∧ s.deliverTo r = [] ∧ alertSrcs.contains r.src = false ∧ s.rd F.AON_PWR_MODE_TARGET = 0 ∧ s.rd F.EVT_SRC_COUNT 0 r.src + 1 < 2 ^ F.EVT_SRC_COUNT.width :=
  ⟨live.setEvt { live.evt with raises := [{ src := 104, blk := 7, page := 0, bits := 1, region := none, queue := none, heads := [] }] }, { src := 104, blk := 7, page := 0, bits := 1, region := none, queue := none, heads := [] }, by decide⟩

theorem wit_Events_eventTick3 :
    ∃ (s : State) (r : Raise) (h : Nat) (l : Nat), s.evtRuns = true ∧ s.evt.raises = [r] ∧ h < 16 ∧ l < 4 ∧ r = { src := 253, blk := 13, page := 0, bits := 2, region := none, queue := none, heads := [(h, some l)] } ∧ s.evt.latched = [] ∧ s.snapTriggers (s.deliveries.map (·.src)) = (false, 0, false) ∧ s.evt.ovfDue = false ∧ s.coreRoom 4 = true ∧ s.rd F.AON_PWR_MODE_TARGET = 0 ∧ (s.rd F.EVT_LD_EN_SRC (hl h l) 3).testBit 61 = true ∧ (s.logRecs h l 0).length < 64 ∧ s.evt.policy = [] :=
  ⟨(live.setEvt { live.evt with raises := [{ src := 253, blk := 13, page := 0, bits := 2, region := none, queue := none, heads := [(0, some 0)] }] }).wrAt F.EVT_LD_EN_SRC 0 3 (2 ^ 61), { src := 253, blk := 13, page := 0, bits := 2, region := none, queue := none, heads := [(0, some 0)] }, 0, 0, by decide⟩

theorem wit_Events_evtLdTest :
    ∃ (s : State) (path : Path) (h : Nat) (l : Nat), h < 16 ∧ l < 4 ∧ s.writeReaches path 13 (1 + hl h l) = true ∧ ownPage path h l = true ∧ (s.evtEn 13 0).testBit 1 = true ∧ s.rd F.AON_PWR_MODE_CUR ≠ 3 :=
  ⟨owned, .ld 0 0, 0, 0, by decide⟩

theorem wit_Events_evtFmTest :
    ∃ (s : State) (path : Path), (path = .cores ∨ path = .sideband) ∧ s.writeReaches path 13 0 = true ∧ (s.evtEn 13 0).testBit 1 = true ∧ s.rd F.AON_PWR_MODE_CUR ≠ 3 :=
  ⟨owned, .cores, by decide⟩

theorem wit_Events_now :
    ∃ (s : State) (path : Path), s.writeReaches path 14 14 = true ∧ s.manages path = true :=
  ⟨owned, .sideband, by decide⟩

theorem wit_Events_fireflyWindowRead :
    ∃ (s : State) (h : Nat) (l : Nat) (off : Nat) (tag : Nat), s.rd F.AON_PWR_MODE_CUR = 0 ∧ s.aon.entry.stage = 0 ∧ s.windowUp h l = true ∧ s.rd F.HLX_HEAD_PERM_PERF_USER (hl h l) = 0 :=
  ⟨live, 0, 0, 64, 5, by decide⟩

theorem wit_Events_fireflyWindowRead2 :
    ∃ (s : State) (h : Nat) (l : Nat) (off : Nat) (tag : Nat) (w : List Nat), s.rd F.AON_PWR_MODE_CUR = 0 ∧ s.aon.entry.stage = 0 ∧ s.windowUp h l = true ∧ s.rd F.HLX_HEAD_PERM_PERF_USER (hl h l) = 1 ∧ off / 64 * 64 < 0x80000 ∧ mget s.evt.window (off / 64 * 64 / 2048) = some w :=
  ⟨owned.setEvt { owned.evt with window := [(1, [1, 2, 3, 4, 5, 6, 7, 8, 9, 10])] }, 0, 0, 2048, 5, [1, 2, 3, 4, 5, 6, 7, 8, 9, 10], by decide⟩

theorem wit_DramControllers_refreshDue :
    ∃ (s : State) (tier : Tier) (ch : Nat) (rank : Nat), s.chanUp tier ch = true ∧ s.hasWindows (chanKey tier ch) = false :=
  ⟨live, .near, 1, 0, by decide⟩

theorem wit_DramControllers_refreshDue2 :
    ∃ (s : State) (tier : Tier) (ch : Nat) (rank : Nat), s.chanUp tier ch = true ∧ ch < 32 ∧ rank < 64 ∧ s.hasWindows (chanKey tier ch) = true ∧ s.inWindow (chanKey tier ch) = false ∧ s.postponed (chanKey tier ch) rank < s.postponeLimit tier :=
  ⟨(((live.wr F.ADM_REF_NEAR_CH 2).wrAt F.ADM_GCL_ENT_VALID 0 3 1).wrAt F.ADM_GCL_ENT_REF 0 3 1), .near, 1, 0, by decide⟩

theorem wit_DramControllers_periodicTrainingDue :
    ∃ (s : State) (tier : Tier) (ch : Nat) (rc : Bool), s.chanUp tier ch = true ∧ s.trainingDue (chanKey tier ch) = true ∧ mget s.mem.due (chanKey tier ch) = none :=
  ⟨(live.wr F.NTC_CTL_RETRAIN_EP 0), .near, 1, false, by decide⟩

theorem wit_DramControllers_dramCommandSlot :
    ∃ (s : State) (tier : Tier) (ch : Nat) (now : Nat) (ready : List DramCmd) (rank : Nat), s.chanUp tier ch = true ∧ s.mem.stopped.contains (chanKey tier ch) = false ∧ rank < 64 ∧ s.mem.refDue = [chanKey tier ch * 64 + rank] ∧ s.stepsBack (chanKey tier ch) (chanKey tier ch * 64 + rank) = false ∧ ready.contains (.refresh rank) = true :=
  ⟨live.setMem { live.mem with refDue := [64], rows := [(1026, 4), (2050, 5)] }, .near, 1, 5, [.refresh 0, .training], 0, by decide⟩

theorem wit_DramControllers_dramCommandSlot2 :
    ∃ (s : State) (tier : Tier) (ch : Nat) (now : Nat) (ready : List DramCmd) (r : DramReq), s.chanUp tier ch = true ∧ ch < 32 ∧ s.mem.stopped.contains (chanKey tier ch) = false ∧ s.mem.refDue = [] ∧ s.mem.repay = [] ∧ mget s.mem.due (chanKey tier ch) = none ∧ s.chanQ (chanKey tier ch) = [r] ∧ s.ras.copies = [] ∧ ready.contains (.request 0) = true :=
  ⟨live.setMem { live.mem with queues := [(1, [{ id := 9, write := false, bank := 2, row := 7, time := 0, target := 0, promo := false, cls := 2 }])] }, .near, 1, 5, [.request 0], { id := 9, write := false, bank := 2, row := 7, time := 0, target := 0, promo := false, cls := 2 }, by decide⟩

theorem wit_DramControllers_edcWriteFail :
    ∃ (s : State) (ch : Nat) (fails : Nat), s.chanUp .near ch = true ∧ s.mem.stopped.contains ch = false ∧ 0 < fails ∧ fails ≤ s.rd F.NTC_CTL_EDC_RETRY ∧ s.rd F.NTC_CH_EDC_RETRIES ch + fails < 2 ^ F.NTC_CH_EDC_RETRIES.width :=
  ⟨(live.wr F.NTC_CTL_EDC_RETRY 3), 1, 2, by decide⟩

theorem wit_DramControllers_edcWriteFail2 :
    ∃ (s : State) (ch : Nat) (fails : Nat), s.chanUp .near ch = true ∧ s.mem.stopped.contains ch = false ∧ s.rd F.NTC_CTL_EDC_RETRY < fails ∧ (s.rd F.RAS_LOG_PROD + 1) % 1024 ≠ s.rd F.RAS_LOG_CONS :=
  ⟨(live.wr F.NTC_CTL_EDC_RETRY 3), 1, 4, by decide⟩

theorem wit_DramControllers_edcWriteFail3 :
    ∃ (s : State) (ch : Nat) (fails : Nat) (w : DramReq), s.chanUp .near ch = true ∧ s.mem.stopped.contains ch = false ∧ s.rd F.NTC_CTL_EDC_RETRY < fails ∧ mget s.mem.lastWrite ch = some w :=
  ⟨(live.wr F.NTC_CTL_EDC_RETRY 3).setMem { (live.wr F.NTC_CTL_EDC_RETRY 3).mem with lastWrite := [(1, { id := 9, write := true, bank := 2, row := 7, time := 0, target := 0, promo := false, cls := 2 })] }, 1, 4, { id := 9, write := true, bank := 2, row := 7, time := 0, target := 0, promo := false, cls := 2 }, by decide⟩

theorem wit_DramControllers_channelRetrainDone :
    ∃ (s : State) (tier : Tier) (ch : Nat), s.chanUp tier ch = true ∧ s.mem.stopped.contains (chanKey tier ch) = true :=
  ⟨live.setMem { live.mem with stopped := [1], fails := [(1, 1)] }, .near, 1, by decide⟩

theorem wit_DramControllers_dimmFullTrainingDone :
    ∃ (s : State) (passed : List Nat), s.aon.held = false ∧ s.aon.off = 0 ∧ s.mem.untrained ≠ [] ∧ s.rd F.AON_PWR_MODE_CUR = 0 ∧ (∀ d ∈ s.mem.untrained, passed.contains d = true) :=
  ⟨live.setMem { live.mem with untrained := [3] }, [3, 4], by decide⟩

theorem wit_DramStatus_dramReadData :
    ∃ (s : State) (id : Nat) (r : NearRead) (h : Nat) (l : Nat) (tag : Nat), s.serving = true ∧ s.near.reads = [r] ∧ r.id = id ∧ s.queued id = false ∧ r.merge = false ∧ r.req.org = .host h l tag ∧ s.dir.conflicts = [] :=
  ⟨live.setNear { live.near with reads := [{ id := 9, frame := 3, line := 1, data := 77, poison := false, req := live.hostReq .read 0 0 (0x1040#64) { mv := .invalid, err := .none } 6, merge := false, replaced := false }] }, 9, { id := 9, frame := 3, line := 1, data := 77, poison := false, req := live.hostReq .read 0 0 (0x1040#64) { mv := .invalid, err := .none } 6, merge := false, replaced := false }, 0, 0, 6, by decide +kernel⟩

theorem wit_DramStatus_pmicPowerFault :
    ∃ (s : State) (d : Nat), s.dimmOn d = true ∧ d < 32 ∧ s.rdb F.BTC_DIMM_PMIC_FAULT d = false ∧ s.rd F.AON_PWR_MODE_CUR = 0 ∧ s.aon.quiescing = false ∧ s.aon.loading = false :=
  ⟨(live.wrI F.BTC_DIMM_ID_PRESENT 3 1), 3, by decide⟩

theorem wit_DramStatus_pmicStatusPoll :
    ∃ (s : State) (d : Nat) (v : BitVec 8), s.dimmOn d = true :=
  ⟨(live.wrI F.BTC_DIMM_ID_PRESENT 3 1), 3, 0x5a, by decide⟩

theorem wit_DramStatus_temperaturePoll :
    ∃ (s : State) (x : TempReading), s.aon.held = false ∧ s.aon.off = 0 ∧ s.cur < 3 ∧ x.unit < 16 ∧ (s.rd F.NTC_CONFIG_POS_ACTIVE).testBit x.unit = true ∧ x.fail = false ∧ x.t0 ≤ 83 ∧ x.t1 ≤ 83 ∧ max x.t0 x.t1 < s.rd F.NTC_THERM_CRIT :=
  ⟨((live.wr F.NTC_THERM_CRIT 95).wrI F.NTC_CH_CTL_HOT 2 1), { unit := 1, t0 := 60, t1 := 70, fail := false }, by decide⟩

theorem wit_DramStatus_temperaturePoll2 :
    ∃ (s : State) (x : TempReading), s.aon.held = false ∧ s.aon.off = 0 ∧ s.cur < 3 ∧ x.unit < 16 ∧ (s.rd F.NTC_CONFIG_POS_ACTIVE).testBit x.unit = true ∧ (x.fail = true ∨ 85 < max x.t0 x.t1) ∧ (x.fail = true ∨ max x.t0 x.t1 < s.rd F.NTC_THERM_CRIT) ∧ s.mem.posCrit = [] :=
  ⟨(live.wr F.NTC_THERM_CRIT 95), { unit := 1, t0 := 86, t1 := 70, fail := false }, by decide⟩

theorem wit_Scrubbing_scrubAllowance :
    ∃ (s : State), s.serving = true :=
  ⟨(live.wr F.RAS_SCRUB_NEAR_RATE 5), by decide⟩

theorem wit_Scrubbing_scrubUnit :
    ∃ (s : State) (f : Nat) (e : Fte), s.serving = true ∧ s.paused = false ∧ s.rd F.RAS_SCRUB_NEAR_RATE ≠ 0 ∧ s.nearSr = 0 ∧ s.nextNear = some f ∧ s.fte f = some e ∧ s.ras.nearAllow ≠ 0 ∧ s.barred 19 13 (s.pairBucket 19 13) 4096 1 = 0 ∧ ({ s with ras := { s.ras with nearPos := f + 1 } } : State).nextNear.isSome = true :=
  ⟨((live.wr F.RAS_SCRUB_NEAR_RATE 5).setNear { live.near with ftes := [(3, { tile := 2, slot := 1, state := .clean, pin := false, first := false, heat := 0, stamp := 0 })] }).setRas { live.ras with nearAllow := 2 }, 3, { tile := 2, slot := 1, state := .clean, pin := false, first := false, heat := 0, stamp := 0 }, by decide⟩

theorem wit_Scrubbing_scrubUnit2 :
    ∃ (s : State) (found : Found), s.serving = true ∧ s.paused = false ∧ s.rd F.RAS_SCRUB_NEAR_RATE ≠ 0 ∧ s.nearSr = 0 ∧ s.nextNear = none ∧ s.rd F.RAS_SCRUB_STS_NEAR_PASSES + 1 < 2 ^ F.RAS_SCRUB_STS_NEAR_PASSES.width :=
  ⟨((live.wr F.RAS_SCRUB_NEAR_RATE 5).wr F.SCR_FRAMES_TOTAL 0), { sectors := [], lines := [], pipes := noFaults }, by decide⟩

theorem wit_Scrubbing_scrubUnit3 :
    ∃ (s : State) (found : Found), s.serving = true ∧ s.paused = false ∧ s.rd F.RAS_SCRUB_BULK_RATE ≠ 0 ∧ s.bulkSr = 0 ∧ s.aesRuns = true ∧ s.nextBulk = none ∧ s.rd F.RAS_SCRUB_STS_PASSES + 1 < 2 ^ F.RAS_SCRUB_STS_PASSES.width :=
  ⟨(bare.wr F.RAS_SCRUB_BULK_RATE 5), { sectors := [], lines := [], pipes := noFaults }, by decide⟩

theorem wit_Scrubbing_retentionSweepStep :
    ∃ (s : State) (p : Nat × Nat), s.serving = true ∧ s.bulkSr = 0 ∧ s.ras.sweep = some p ∧ s.sweepRegion p.1 = none ∧ (∀ w ∈ s.tmu.waits, w.why ≠ .retention) :=
  ⟨(live.setRas { live.ras with sweep := some (0, 0) }), (0, 0), by decide⟩

theorem wit_Scrubbing_retentionSweepStep2 :
    ∃ (s : State) (r : Nat) (x : Nat) (q : Nat), s.serving = true ∧ s.bulkSr = 0 ∧ s.ras.sweep = some (r, x) ∧ s.sweepRegion r = some r ∧ ((List.range (s.rgnTiles r / 2 - x / 2)).map (x / 2 + ·)).find? (s.sweepHits r) = none ∧ s.sweepRegion (r + 1) = some q ∧ (∀ w ∈ s.tmu.waits, w.why ≠ .retention) :=
  ⟨(((((live.wrI F.TMU_RGN_MAP_RETAIN 1 1).wrI F.TMU_RGN_MAP_RETAIN 2 1).wrI F.TMU_RGN_MAP_STATE 2 1).wrI F.TMU_RGN_MAP_SIZE 2 1).setRas { live.ras with sweep := some (1, 262140) }), 1, 262140, 2, by decide⟩

theorem wit_Scrubbing_retentionSweepStep3 :
    ∃ (s : State) (r : Nat) (x : Nat) (k : Nat) (y : Nat) (ent : CacheEnt), s.serving = true ∧ s.bulkSr = 0 ∧ s.ras.sweep = some (r, x) ∧ s.sweepRegion r = some r ∧ ((List.range (s.rgnTiles r / 2 - x / 2)).map (x / 2 + ·)).find? (s.sweepHits r) = some k ∧ s.sectorListed (s.rd F.TMU_RGN_MAPLOC_LOC r + k) = false ∧ (y = 2 * k ∨ y = 2 * k + 1) ∧ mget s.tmu.cache (tkey r y) = some ent ∧ ent.dirty = true ∧ (List.range ent.tme.len).any (fun i => s.sectorListed (ent.tme.loc + i)) = true ∧ ent.tme.nv = false ∧ s.fixedSlots r = false ∧ (s.tme r (4 * k + 1 - y)).len = 0 ∧ (∀ w ∈ s.tmu.waits, w.why ≠ .retention) :=
  ⟨((((withTile ((((((live.wrI F.TMU_RGN_MAP_RETAIN 1 1).wrI F.TMU_RGN_MAP_RETAIN 2 1).wrI F.TMU_RGN_MAP_STATE 2 1).wrI F.TMU_RGN_MAP_SIZE 2 1).setRas { live.ras with sweep := some (1, 262140) }).setBulk { live.bulk with sets := [{ id := 0, slot := 0, rank := 0, first := 0, sectors := 8192000, rows := 1000, usable := true }] }) 262140 { tile0 with unmat := false, fmt := .raw, len := 64, loc := 4096 }).wrAt F.RAS_RET_VALID 0 0 1).wrI F.TMU_RGN_MAPLOC_LOC 1 8000000).wrAt F.RAS_RET_BANK 0 0 16), 1, 262140, 131070, 262140, { tme := { tile0 with unmat := false, fmt := .raw, len := 64, loc := 4096 }, dirty := true, used := 0 }, by decide +kernel⟩

theorem wit_RowAndRankRepair_rowRemapCopyDone :
    ∃ (s : State) (ch : Nat) (entry : Nat) (c : RowCopy), s.serving = true ∧ s.bulkSr = 0 ∧ s.ras.copies = [c] ∧ c.ch = ch ∧ c.entry = entry ∧ ch < 16 ∧ entry < 64 ∧ c.row < 2 ^ 20 ∧ c.bank < 32 ∧ c.set < 16 ∧ c.spare < 2 ^ 20 ∧ s.barred 19 13 (s.pairBucket 19 13) 8192 1 = 0 ∧ (s.rd F.RAS_LOG_PROD + 1) % 1024 ≠ s.rd F.RAS_LOG_CONS :=
  ⟨(live.setRas { live.ras with copies := [{ ch := 0, entry := 2, subB := false, set := 0, bank := 3, row := 9, spare := 995 }] }), 0, 2, { ch := 0, entry := 2, subB := false, set := 0, bank := 3, row := 9, spare := 995 }, by decide⟩

theorem wit_RowAndRankRepair_evacuateSet :
    ∃ (s : State) (src : MboxSrc) (p : List (BitVec 8)) (id : Nat), s.rd F.AON_PWR_MODE_CUR = 0 ∧ s.aon.entry.stage = 0 ∧ s.mboxUp src = true ∧ s.mboxBusy src = false ∧ s.lacks src (.perm 0) = none ∧ p.length = 4 ∧ numAt p 0 4 = id ∧ id ≤ 15 ∧ s.setHeld id = false ∧ s.bulk.sets.any (fun r => decide (r.id = id)) = true ∧ (s.rd F.RAS_RANK_STS_REMOVED).testBit id = false ∧ (s.rd F.RAS_RANK_STS_FAILING).testBit id = false ∧ s.ras.evac = none ∧ s.rd F.RAS_SPARE_SET_VALID = 0 ∧ (s.rd F.RAS_LOG_PROD + 1) % 1024 ≠ s.rd F.RAS_LOG_CONS :=
  ⟨spared owned, .sideband, [0, 0, 0, 0], 0, by decide +kernel⟩

theorem wit_RowAndRankRepair_evacuationMove :
    ∃ (s : State) (id : Nat) (x : Nat × Nat) (a : Nat) (s1 : State), s.scarabRuns = true ∧ s.ras.evac = some (id, x) ∧ s.inSet id (s.rd F.TMU_MAP_BASE_LOC) = true ∧ s.retainedRoom (s.rd F.TMU_MAP_SIZE_SECTORS) = some (a, s1) ∧ a < 2 ^ F.TMU_MAP_BASE_LOC.width ∧ (∀ r < 64, s.rgnState r ≠ 0 → a + s.rd F.TMU_RGN_MAPLOC_LOC r - s.rd F.TMU_MAP_BASE_LOC < 2 ^ F.TMU_RGN_MAPLOC_LOC.width) :=
  ⟨((((((live.setBulk { live.bulk with sets := [{ id := 0, slot := 0, rank := 0, first := 0, sectors := 8192000, rows := 1000, usable := true }, { id := 1, slot := 0, rank := 1, first := 8192000, sectors := 8192000, rows := 1000, usable := true }] }).setRas { live.ras with evac := some (0, 0, 0) }).setTmu { live.tmu with freeIv := [(8196096, 4096)] }).wr F.TMU_MAP_BASE_LOC 4096).wr F.TMU_MAP_SIZE_SECTORS 64).wr F.BTC_RETAIN_SETS 2), 0, (0, 0), 8196096, (((((((live.setBulk { live.bulk with sets := [{ id := 0, slot := 0, rank := 0, first := 0, sectors := 8192000, rows := 1000, usable := true }, { id := 1, slot := 0, rank := 1, first := 8192000, sectors := 8192000, rows := 1000, usable := true }] }).setRas { live.ras with evac := some (0, 0, 0) }).setTmu { live.tmu with freeIv := [(8196096, 4096)] }).wr F.TMU_MAP_BASE_LOC 4096).wr F.TMU_MAP_SIZE_SECTORS 64).wr F.BTC_RETAIN_SETS 2).setTmu { ((((((live.setBulk { live.bulk with sets := [{ id := 0, slot := 0, rank := 0, first := 0, sectors := 8192000, rows := 1000, usable := true }, { id := 1, slot := 0, rank := 1, first := 8192000, sectors := 8192000, rows := 1000, usable := true }] }).setRas { live.ras with evac := some (0, 0, 0) }).setTmu { live.tmu with freeIv := [(8196096, 4096)] }).wr F.TMU_MAP_BASE_LOC 4096).wr F.TMU_MAP_SIZE_SECTORS 64).wr F.BTC_RETAIN_SETS 2).tmu with freeIv := [(8196160, 4032)] }), by decide +kernel⟩

theorem wit_RowAndRankRepair_evacuationMove2 :
    ∃ (s : State) (id : Nat) (p : Nat × Nat) (r : Nat) (x : Nat) (e : Nat) (f : Nat) (ent : CacheEnt), s.scarabRuns = true ∧ s.ras.evac = some (id, p) ∧ s.mapsIn id = [] ∧ s.inSet id (s.rd F.TMU_MAP_BASE_LOC) = false ∧ (∀ k ∈ s.heldSlots, s.fixedSlots k = false) ∧ s.nextTile id = some (r, x) ∧ (s.alloc r ent.tme.len).isSome = true ∧ s.freeEngine = some e ∧ mget s.tmu.cache (tkey r x) = some ent ∧ s.tmeFault r x ent.tme = 0 ∧ ent.tme.nv = false ∧ s.keepsFrame r x = false ∧ s.mayPromote r x = true ∧ s.lockRoom r = true ∧ s.freeFrame = some f ∧ s.barred 19 13 (s.pairBucket 19 13) 4096 1 = 0 :=
  ⟨((((withTile (((live.setBulk { live.bulk with sets := [{ id := 0, slot := 0, rank := 0, first := 0, sectors := 8192000, rows := 1000, usable := true }, { id := 1, slot := 0, rank := 1, first := 8192000, sectors := 8192000, rows := 1000, usable := true }] }).setRas { live.ras with evac := some (0, 0, 0) }).setTmu { live.tmu with freeIv := [(8196096, 4096)] }) 2 { tile0 with unmat := false, fmt := .raw, len := 64, loc := 4096 }).wr F.TMU_MAP_BASE_LOC 99999999).wrI F.TMU_RGN_MAPLOC_LOC 1 99999999).wr F.RAS_RANK_STS_FAILING 1), 0, (0, 0), 1, 2, 0, 0, { tme := { tile0 with unmat := false, fmt := .raw, len := 64, loc := 4096 }, dirty := true, used := 0 }, by decide +kernel⟩

theorem wit_RowAndRankRepair_evacuationMove3 :
    ∃ (s : State) (id : Nat) (x : Nat × Nat) (r : RankSet) (src : MboxSrc), s.scarabRuns = true ∧ s.ras.evac = some (id, x) ∧ s.ras.evacDest = none ∧ id < 16 ∧ s.heldSlots = [] ∧ s.mapsIn id = [] ∧ s.inSet id (s.rd F.TMU_MAP_BASE_LOC) = false ∧ s.setMoves id = false ∧ s.bulk.sets.find? (fun r => decide (r.id = id)) = some r ∧ s.rd F.RAS_RANK_STS_FAILING = 2 ^ id ∧ s.ctl.background = [BgOp.mk src 0xc032 id] ∧ (s.rd F.RAS_LOG_PROD + 1) % 1024 ≠ s.rd F.RAS_LOG_CONS :=
  ⟨((((spared bare).wr F.RAS_RANK_STS_FAILING 1).wr F.TMU_MAP_BASE_LOC 99999999).setRas { bare.ras with evac := some (0, 0, 0) }).setCtl { bare.ctl with background := [BgOp.mk .sideband 0xc032 0] }, 0, (0, 0), { id := 0, slot := 0, rank := 0, first := 0, sectors := 8192000, rows := 1000, usable := true }, .sideband, by decide +kernel⟩

theorem wit_HostRequests_hostRead :
    ∃ (s : State) (h : Nat) (l : Nat) (hpa : BitVec 64) (dpa : BitVec 64) (look : DirLook) (tag : Nat), s.rd F.AON_PWR_MODE_CUR = 0 ∧ s.aon.entry.stage = 0 ∧ s.takesHost h l = true ∧ (s.hdmDecode h l hpa.toNat).map (BitVec.ofNat 64) = some dpa ∧ (¬ ((s.hostReq .read h l dpa look tag).bad = 0 ∧ (inDoorbells (s.hostReq .read h l dpa look tag).addr = true ∨ inFirefly (s.hostReq .read h l dpa look tag).addr = true))) :=
  ⟨owned, 0, 0, 4096#64, 4096#64, { mv := .invalid, err := .none }, 6, by decide⟩

theorem wit_HostRequests_hostWrite :
    ∃ (s : State) (h : Nat) (l : Nat) (hpa : BitVec 64) (dpa : BitVec 64) (look : DirLook) (tag : Nat) (data : BitVec 512) (poison : Bool), s.rd F.AON_PWR_MODE_CUR = 0 ∧ s.aon.entry.stage = 0 ∧ s.takesHost h l = true ∧ (s.hdmDecode h l hpa.toNat).map (BitVec.ofNat 64) = some dpa ∧ s.rd F.HLX_PORT_STS_VIRAL_IN h = 0 ∧ (¬ ((s.hostReq .write h l dpa look tag).bad = 0 ∧ (inDoorbells (s.hostReq .write h l dpa look tag).addr = true ∨ inFirefly (s.hostReq .write h l dpa look tag).addr = true))) :=
  ⟨owned, 0, 0, 4096#64, 4096#64, { mv := .invalid, err := .none }, 6, 0x55, false, by decide⟩

theorem wit_HostRequests_hostWrite2 :
    ∃ (s : State) (h : Nat) (l : Nat) (hpa : BitVec 64) (dpa : BitVec 64) (look : DirLook) (tag : Nat) (data : BitVec 512) (poison : Bool), s.rd F.AON_PWR_MODE_CUR = 0 ∧ s.aon.entry.stage = 0 ∧ s.takesHost h l = true ∧ (s.hdmDecode h l hpa.toNat).map (BitVec.ofNat 64) = some dpa ∧ s.rd F.HLX_PORT_STS_VIRAL_IN h = 1 ∧ s.rd F.HLX_PORT_ERRCNT_VIRAL_DROP h < 2 ^ F.HLX_PORT_ERRCNT_VIRAL_DROP.width :=
  ⟨(owned.wrI F.HLX_PORT_STS_VIRAL_IN 0 1), 0, 0, 4096#64, 4096#64, { mv := .invalid, err := .none }, 6, 0x55, false, by decide⟩

theorem wit_HostRequests_hostPartialWrite :
    ∃ (s : State) (h : Nat) (l : Nat) (hpa : BitVec 64) (dpa : BitVec 64) (look : DirLook) (tag : Nat) (data : BitVec 512) (be : BitVec 64) (poison : Bool) (k : ReqKind), s.rd F.AON_PWR_MODE_CUR = 0 ∧ s.aon.entry.stage = 0 ∧ s.takesHost h l = true ∧ (s.hdmDecode h l hpa.toNat).map (BitVec.ofNat 64) = some dpa ∧ s.rd F.HLX_PORT_STS_VIRAL_IN h = 0 ∧ k = (if be = BitVec.allOnes 64 then ReqKind.write else ReqKind.partialWrite) ∧ (¬ ((s.hostReq k h l dpa look tag).bad = 0 ∧ (inDoorbells (s.hostReq k h l dpa look tag).addr = true ∨ inFirefly (s.hostReq k h l dpa look tag).addr = true))) :=
  ⟨owned, 0, 0, 4096#64, 4096#64, { mv := .invalid, err := .none }, 6, 0x55, 15#64, false, .partialWrite, by decide⟩

theorem wit_HostRequests_hostRead2 :
    ∃ (s : State) (h : Nat) (l : Nat) (hpa : BitVec 64) (look : DirLook) (tag : Nat), s.rd F.AON_PWR_MODE_CUR = 0 ∧ s.aon.entry.stage = 0 ∧ s.takesHost h l = true ∧ s.hdmDecode h l hpa.toNat = none :=
  ⟨owned, 0, 0, 0x800000000000#64, { mv := .invalid, err := .none }, 6, by decide⟩

theorem wit_HostRequests_hostWrite3 :
    ∃ (s : State) (h : Nat) (l : Nat) (hpa : BitVec 64) (look : DirLook) (tag : Nat) (data : BitVec 512) (poison : Bool), s.rd F.AON_PWR_MODE_CUR = 0 ∧ s.aon.entry.stage = 0 ∧ s.takesHost h l = true ∧ s.hdmDecode h l hpa.toNat = none :=
  ⟨owned, 0, 0, 0x800000000000#64, { mv := .invalid, err := .none }, 6, 0x55, false, by decide⟩

theorem wit_Coherence_memInv :
    ∃ (s : State) (h : Nat) (l : Nat) (hpa : BitVec 64) (dpa : BitVec 64) (tag : Nat) (r : Nat) (ent : CacheEnt), s.rd F.AON_PWR_MODE_CUR = 0 ∧ s.aon.entry.stage = 0 ∧ s.takesHost h l = true ∧ (s.hdmDecode h l hpa.toNat).map (BitVec.ofNat 64) = some dpa ∧ (s.hostReq .inv h l dpa { mv := .any, err := .none } tag).inWindow = false ∧ (s.dirEnts (dirSet (dpa.toNat % 2 ^ 46 / 64))).all DirEnt.wellFormed = true ∧ s.regionAt (dpa.toNat % 2 ^ 46) s.tmu.nextId = some r ∧ s.tagBitsOk h dpa.toNat = true ∧ s.admits h l r = true ∧ s.rgnType r = 3 ∧ bits dpa.toNat 49 46 = 0 ∧ (s.rd F.DIR_FENCE_HEADS).testBit h = false ∧ s.vk4 = false ∧ s.rgnState r = 1 ∧ s.nearOnly = false ∧ s.ras.sweep = none ∧ mget s.tmu.cache (tkey r ((dpa.toNat % 2 ^ 46 - s.rgnBase r) / 4096)) = some ent ∧ s.tmeFault r ((dpa.toNat % 2 ^ 46 - s.rgnBase r) / 4096) ent.tme = 0 ∧ s.tmu.moves = [] ∧ s.tmu.waits = [] ∧ s.dir.busy = [] ∧ s.dir.sweeps = [] ∧ s.aon.blocks = [] ∧ s.dirFind (dpa.toNat % 2 ^ 46 / 64) = none ∧ s.dirRoom (dpa.toNat % 2 ^ 46 / 64) = true ∧ s.setUnknown (dirSet (dpa.toNat % 2 ^ 46 / 64)) = false ∧ s.job.jobs = [] :=
  ⟨((withTile ((live.wrI F.TMU_RGN_MAP_TYPE 1 3).wrI F.HLX_LD_RGN_SLOTS 0 2) 1 tile0).wr F.DIR_BANK_WAYS_ACTIVE 0x1ffff), 0, 0, 4160#64, 4160#64, 6, 1, { tme := tile0, dirty := true, used := 0 }, by decide⟩

theorem wit_Coherence_memClnEvct :
    ∃ (s : State) (h : Nat) (l : Nat) (hpa : BitVec 64) (dpa : BitVec 64) (tag : Nat) (r : Nat) (e : DirEnt), s.rd F.AON_PWR_MODE_CUR = 0 ∧ s.aon.entry.stage = 0 ∧ s.takesHost h l = true ∧ (s.hdmDecode h l hpa.toNat).map (BitVec.ofNat 64) = some dpa ∧ (s.hostReq .inv h l dpa { mv := .invalid, err := .none } tag).inWindow = false ∧ s.regionAt (dpa.toNat % 2 ^ 46) s.tmu.nextId = some r ∧ s.tagBitsOk h dpa.toNat = true ∧ s.admits h l r = true ∧ s.rgnType r = 3 ∧ bits dpa.toNat 49 46 = 0 ∧ (s.rd F.DIR_FENCE_HEADS).testBit h = false ∧ s.dirFind (dpa.toNat % 2 ^ 46 / 64) = some e :=
  ⟨(((withTile ((live.wrI F.TMU_RGN_MAP_TYPE 1 3).wrI F.HLX_LD_RGN_SLOTS 0 2) 1 tile0).wr F.DIR_BANK_WAYS_ACTIVE 0x1ffff).dirPut 65 .s 3), 0, 0, 4160#64, 4160#64, 6, 1, { line := 65, state := .s, sharers := 3 }, by decide⟩

theorem wit_Coherence_birspi :
    ∃ (s : State) (h : Nat) (line : Nat) (b : Busy), s.rd F.AON_PWR_MODE_CUR = 0 ∧ s.aon.entry.stage = 0 ∧ s.serving = true ∧ s.headUp h = true ∧ s.dir.busy = [b] ∧ b.line = line ∧ b.heads = [h] ∧ b.then_ = .nothing ∧ s.tmu.waits = [] :=
  ⟨((((withTile ((live.wrI F.TMU_RGN_MAP_TYPE 1 3).wrI F.HLX_LD_RGN_SLOTS 0 2) 1 tile0).wr F.DIR_BANK_WAYS_ACTIVE 0x1ffff).dirPut 65 .s 3).setDir { (((withTile ((live.wrI F.TMU_RGN_MAP_TYPE 1 3).wrI F.HLX_LD_RGN_SLOTS 0 2) 1 tile0).wr F.DIR_BANK_WAYS_ACTIVE 0x1ffff).dirPut 65 .s 3).dir with busy := [{ line := 65, snoop := .inv, heads := [0], then_ := .nothing }] }), 0, 65, { line := 65, snoop := .inv, heads := [0], then_ := .nothing }, by decide⟩

theorem wit_Coherence_birsps :
    ∃ (s : State) (h : Nat) (line : Nat) (b : Busy) (e : DirEnt), s.rd F.AON_PWR_MODE_CUR = 0 ∧ s.aon.entry.stage = 0 ∧ s.serving = true ∧ s.headUp h = true ∧ s.dir.busy = [b] ∧ b.line = line ∧ b.heads = [h] ∧ b.then_ = .nothing ∧ s.tmu.waits = [] ∧ b.snoop = .data ∧ s.dirFind line = some e :=
  ⟨((((withTile ((live.wrI F.TMU_RGN_MAP_TYPE 1 3).wrI F.HLX_LD_RGN_SLOTS 0 2) 1 tile0).wr F.DIR_BANK_WAYS_ACTIVE 0x1ffff).dirPut 65 .s 3).setDir { (((withTile ((live.wrI F.TMU_RGN_MAP_TYPE 1 3).wrI F.HLX_LD_RGN_SLOTS 0 2) 1 tile0).wr F.DIR_BANK_WAYS_ACTIVE 0x1ffff).dirPut 65 .s 3).dir with busy := [{ line := 65, snoop := .data, heads := [0], then_ := .nothing }] }), 0, 65, { line := 65, snoop := .data, heads := [0], then_ := .nothing }, { line := 65, state := .s, sharers := 3 }, by decide⟩

theorem wit_Coherence_birspe :
    ∃ (s : State) (h : Nat) (line : Nat) (b : Busy), s.rd F.AON_PWR_MODE_CUR = 0 ∧ s.aon.entry.stage = 0 ∧ s.serving = true ∧ s.headUp h = true ∧ s.dir.busy = [b] ∧ b.line = line ∧ b.heads = [h] ∧ b.then_ = .nothing ∧ s.tmu.waits = [] ∧ b.snoop = .cur :=
  ⟨((((withTile ((live.wrI F.TMU_RGN_MAP_TYPE 1 3).wrI F.HLX_LD_RGN_SLOTS 0 2) 1 tile0).wr F.DIR_BANK_WAYS_ACTIVE 0x1ffff).dirPut 65 .s 3).setDir { (((withTile ((live.wrI F.TMU_RGN_MAP_TYPE 1 3).wrI F.HLX_LD_RGN_SLOTS 0 2) 1 tile0).wr F.DIR_BANK_WAYS_ACTIVE 0x1ffff).dirPut 65 .s 3).dir with busy := [{ line := 65, snoop := .cur, heads := [0], then_ := .nothing }] }), 0, 65, { line := 65, snoop := .cur, heads := [0], then_ := .nothing }, by decide⟩

theorem wit_Coherence_birspi2 :
    ∃ (s : State) (h : Nat) (line : Nat), s.rd F.AON_PWR_MODE_CUR = 0 ∧ s.aon.entry.stage = 0 ∧ s.serving = true ∧ s.headUp h = true ∧ s.busyOf line = none ∧ s.rd F.DIR_CNT_BI_BAD + 1 < 2 ^ F.DIR_CNT_BI_BAD.width :=
  ⟨(((withTile ((live.wrI F.TMU_RGN_MAP_TYPE 1 3).wrI F.HLX_LD_RGN_SLOTS 0 2) 1 tile0).wr F.DIR_BANK_WAYS_ACTIVE 0x1ffff).dirPut 65 .s 3), 0, 65, by decide⟩

theorem wit_Coherence_biconflict :
    ∃ (s : State) (h : Nat) (line : Nat) (b : Busy), s.rd F.AON_PWR_MODE_CUR = 0 ∧ s.aon.entry.stage = 0 ∧ s.serving = true ∧ s.headUp h = true ∧ s.dir.busy = [b] ∧ b.line = line ∧ b.heads = [h] ∧ s.openReqs h line = [] ∧ s.dir.conflicts = [] :=
  ⟨((((withTile ((live.wrI F.TMU_RGN_MAP_TYPE 1 3).wrI F.HLX_LD_RGN_SLOTS 0 2) 1 tile0).wr F.DIR_BANK_WAYS_ACTIVE 0x1ffff).dirPut 65 .s 3).setDir { (((withTile ((live.wrI F.TMU_RGN_MAP_TYPE 1 3).wrI F.HLX_LD_RGN_SLOTS 0 2) 1 tile0).wr F.DIR_BANK_WAYS_ACTIVE 0x1ffff).dirPut 65 .s 3).dir with busy := [{ line := 65, snoop := .inv, heads := [0], then_ := .nothing }] }), 0, 65, { line := 65, snoop := .inv, heads := [0], then_ := .nothing }, by decide⟩

theorem wit_Coherence_biTimeout :
    ∃ (s : State) (h : Nat) (b : Busy), s.serving = true ∧ h < 16 ∧ s.dir.busy = [b] ∧ b.heads = [h] ∧ b.then_ = .nothing ∧ s.tmu.waits = [] :=
  ⟨((((withTile ((live.wrI F.TMU_RGN_MAP_TYPE 1 3).wrI F.HLX_LD_RGN_SLOTS 0 2) 1 tile0).wr F.DIR_BANK_WAYS_ACTIVE 0x1ffff).dirPut 65 .s 3).setDir { (((withTile ((live.wrI F.TMU_RGN_MAP_TYPE 1 3).wrI F.HLX_LD_RGN_SLOTS 0 2) 1 tile0).wr F.DIR_BANK_WAYS_ACTIVE 0x1ffff).dirPut 65 .s 3).dir with busy := [{ line := 65, snoop := .inv, heads := [0], then_ := .nothing }] }), 0, { line := 65, snoop := .inv, heads := [0], then_ := .nothing }, by decide⟩

theorem wit_Coherence_dirSweepDone :
    ∃ (s : State) (n : Nat) (h : Nat) (e : DirEnt), s.dir.sweeps = [(n, .reset h)] ∧ h < 16 ∧ (∀ b ∈ s.dir.busy, b.then_ ≠ .sweep n) ∧ s.tmu.waits = [] ∧ s.dirLines (fun e => e.sharers.testBit h) = [e] :=
  ⟨(((((withTile ((live.wrI F.TMU_RGN_MAP_TYPE 1 3).wrI F.HLX_LD_RGN_SLOTS 0 2) 1 tile0).wr F.DIR_BANK_WAYS_ACTIVE 0x1ffff).dirPut 65 .s 3).wr F.DIR_FENCE_HEADS 3).setDir { (((withTile ((live.wrI F.TMU_RGN_MAP_TYPE 1 3).wrI F.HLX_LD_RGN_SLOTS 0 2) 1 tile0).wr F.DIR_BANK_WAYS_ACTIVE 0x1ffff).dirPut 65 .s 3).dir with sweeps := [(4, .reset 0)] }), 4, 0, { line := 65, state := .s, sharers := 3 }, by decide⟩

theorem wit_HostPorts_linkTrained :
    ∃ (s : State) (port : Nat) (width : Nat) (rate : Nat) (flit : Nat), s.trains port = true ∧ s.merged port = false ∧ port < 16 ∧ s.rd F.CTL_HEALTH_STATE = 3 ∧ 1 ≤ width ∧ width ≤ s.maxWidth port ∧ 1 ≤ rate ∧ rate ≤ s.maxRate port ∧ rate < 4 ∧ s.rd F.HLX_PORT_STS_LINK_UP port = 0 :=
  ⟨(live.setAon { live.aon with pllOk := 1023 }), 3, 4, 3, 1, by decide⟩

theorem wit_HostPorts_portReset :
    ∃ (s : State) (port : Nat), s.aon.held = false ∧ s.aon.off = 0 ∧ s.aon.quiescing = false ∧ s.cry.halt = 0 ∧ s.merged port = false ∧ port < 16 ∧ s.rd F.HLX_PORT_STS_LINK_UP port = 1 ∧ s.rd F.HLX_PORT_LINKCNT_DOWNS port + 1 < 2 ^ F.HLX_PORT_LINKCNT_DOWNS.width ∧ (∀ b ∈ s.dir.busy, b.heads.contains port = false) ∧ (∀ e ∈ s.tmu.offers, e.2.testBit port = false) :=
  ⟨live, 0, by decide⟩

theorem wit_HostPorts_functionReset :
    ∃ (s : State) (h : Nat) (l : Nat), s.aon.held = false ∧ s.aon.off = 0 ∧ s.aon.quiescing = false ∧ s.cry.halt = 0 ∧ s.headUp h = true ∧ l < s.ldCount h ∧ h < 16 ∧ l < 4 ∧ (∀ b ∈ s.dir.busy, b.heads.contains h = false) ∧ (∀ e ∈ s.tmu.offers, e.2.testBit h = false) :=
  ⟨live.setEvt { live.evt with records := [(1, [{ src := 5, cls := 3, blk := 0, page := 3, causes := 1, epoch := 0, phase := 0, region := 255, queue := 0, count := 1, stamp := 0 }])] }, 0, 0, by decide⟩

theorem wit_HostPorts_memclrDone :
    ∃ (s : State) (h : Nat) (l : Nat), mget s.hlx.memclr (hl h l) = some [] ∧ h < 16 :=
  ⟨live.setHlx { live.hlx with memclr := [(0, [])] }, 0, 0, by decide⟩

theorem wit_HostPorts_hostViral :
    ∃ (s : State) (port : Nat), s.aon.held = false ∧ s.aon.off = 0 ∧ s.cry.halt = 0 ∧ s.merged port = false ∧ port < 16 ∧ s.headUp port = true ∧ s.rd F.HLX_PORT_STS_VIRAL_IN port = 0 :=
  ⟨live, 0, by decide⟩

theorem wit_HostPorts_ideIntegrityFailure :
    ∃ (s : State) (port : Nat) (stream : Nat), s.aon.held = false ∧ s.aon.off = 0 ∧ s.cry.halt = 0 ∧ s.merged port = false ∧ port < 16 ∧ s.cry.ideOn.contains (port, stream) = true ∧ s.rd F.HLX_PORT_ERRCNT_IDE_FAIL port + 1 < 2 ^ F.HLX_PORT_ERRCNT_IDE_FAIL.width :=
  ⟨(live.setCry { live.cry with ideOn := [(0, 0), (0, 2)] }).wrI F.HLX_PORT_STS_IDE 0 1, 0, 2, by decide⟩

theorem wit_AdmissionCycles_admissionCycle :
    ∃ (s : State) (q : Req) (h : Nat) (l : Nat) (tag : Nat) (r : Nat), s.serving = true ∧ s.aon.blocks = [] ∧ s.adm.taken = 0 ∧ s.adm.queue = [q] ∧ s.classOf q = 15 ∧ s.unitBar { ing := q.ing, cls := 15, reqs := [q] } = 0 ∧ s.regionAt q.addr s.tmu.nextId = some r ∧ s.admits h l r = true ∧ s.cached r ((q.addr - s.rgnBase r) / 4096) = false ∧ s.tmu.waits = [] ∧ q.org = .host h l tag ∧ q.hold = none ∧ q.homeSlot = none ∧ q.bad = 0 ∧ s.vk4 = false ∧ s.rgnState r = 1 ∧ s.rgnType r = 2 ∧ s.nearOnly = false ∧ s.ras.sweep = none :=
  ⟨((owned.wrI F.HLX_LD_RGN_SLOTS 0 2).setAdm { owned.adm with queue := [{ owned.hostReq .read 0 0 (8256#64) { mv := .invalid, err := .none } 6 with cls := 15 }] }), { owned.hostReq .read 0 0 (8256#64) { mv := .invalid, err := .none } 6 with cls := 15 }, 0, 0, 6, 1, by decide +kernel⟩

theorem wit_AdmissionCycles_tokenRefill :
    ∃ (s : State), s.aon.held = false ∧ s.aon.off = 0 ∧ s.cur < 3 ∧ s.cry.halt = 0 ∧ s.rdb F.ADM_BROWN_ACTIVE = false :=
  ⟨(live.wrI F.ADM_CLS_GUAR_EFF 3 100), by decide⟩

theorem wit_AdmissionCycles_tokenRefill2 :
    ∃ (s : State), s.aon.held = false ∧ s.aon.off = 0 ∧ s.cur < 3 ∧ s.cry.halt = 0 ∧ s.rdb F.ADM_BROWN_ACTIVE = true :=
  ⟨(live.wr F.ADM_BROWN_ACTIVE 1), by decide⟩

theorem wit_FillsAndInstalls_tmeMissFill :
    ∃ (s : State) (r : Nat) (tile : Nat) (w : Waiting) (h : Nat) (l : Nat) (tag : Nat) (e : Tme) (id : Nat) (k : Nat), s.serving = true ∧ s.bulkSr = 0 ∧ s.tmu.waits = [w] ∧ w.slot = r ∧ w.tile = tile ∧ w.why = .miss ∧ s.cached r tile = false ∧ (s.cacheSetOf r tile).length < 16 ∧ w.req.org = .host h l tag ∧ w.req.kind = .read ∧ w.req.hold = some (r, k) ∧ mget s.tmu.fetches (sectorKey r tile) = some id ∧ s.queued id = false ∧ s.rgnState r = 1 ∧ s.rgnType r = 2 ∧ s.nearOnly = false ∧ s.ras.sweep = none ∧ s.offsetOf w.req r / 4096 = tile ∧ s.mapTme r tile = e ∧ s.tmeFault r tile e = 0 ∧ e.unmat = true ∧ e.nv = false ∧ e.len = 0 ∧ s.tmu.moves = [] ∧ s.dir.conflicts = [] :=
  ⟨((live.wrI F.HLX_LD_RGN_SLOTS 0 2).setTmu { live.tmu with waits := [{ req := { live.hostReq .read 0 0 (8256#64) { mv := .invalid, err := .none } 6 with id := 3, cls := 2, hold := some (1, 0) }, why := .miss, slot := 1, tile := 2 }], fetches := [(sectorKey 1 2, 9)] }), 1, 2, { req := { live.hostReq .read 0 0 (8256#64) { mv := .invalid, err := .none } 6 with id := 3, cls := 2, hold := some (1, 0) }, why := .miss, slot := 1, tile := 2 }, 0, 0, 6, tile0, 9, 0, by decide +kernel⟩

theorem wit_FillsAndInstalls_demandPromotion :
    ∃ (s : State) (r : Nat) (tile : Nat) (w : Waiting) (ent : CacheEnt) (f : Nat), s.serving = true ∧ s.tmu.waits = [w] ∧ w.slot = r ∧ w.tile = tile ∧ w.why = .promo ∧ mget s.tmu.cache (tkey r tile) = some ent ∧ ent.tme.nv = false ∧ 0 < ent.tme.len ∧ s.ras.copies = [] ∧ s.bulkSr = 0 ∧ (s.lockOf r tile).isNone = true ∧ s.lockRoom r = true ∧ s.freeFrame = some f ∧ s.scr.lastPromo = [] ∧ (∀ m ∈ s.tmu.moves, m.id ≠ s.tmu.nextId) :=
  ⟨((withTile (spared (live.wrI F.HLX_LD_RGN_SLOTS 0 2)) 2 { tile0 with unmat := false, fmt := .lz, len := 1, loc := 4096, nv := false }).setTmu { (withTile (spared (live.wrI F.HLX_LD_RGN_SLOTS 0 2)) 2 { tile0 with unmat := false, fmt := .lz, len := 1, loc := 4096, nv := false }).tmu with waits := [{ req := { live.hostReq .read 0 0 (8256#64) { mv := .invalid, err := .none } 6 with id := 3, cls := 2, hold := some (1, 0) }, why := .promo, slot := 1, tile := 2 }] }), 1, 2, { req := { live.hostReq .read 0 0 (8256#64) { mv := .invalid, err := .none } 6 with id := 3, cls := 2, hold := some (1, 0) }, why := .promo, slot := 1, tile := 2 }, { tme := { tile0 with unmat := false, fmt := .lz, len := 1, loc := 4096, nv := false }, dirty := true, used := 0 }, 0, by decide +kernel⟩

/-- A tag does not cover itself. -/
theorem calcTag_tag (s : State) (slot tile : Nat) (t : Tme) (ct : List Byte) (x : BitVec 64) :
    s.calcTag slot tile { t with tag := x } ct = s.calcTag slot tile t ct := rfl

/-- Nor does it depend on what TMU holds. -/
theorem calcTag_tmu (s : State) (x : Tmu) (slot tile : Nat) (t : Tme) (ct : List Byte) :
    (s.setTmu x).calcTag slot tile t ct = s.calcTag slot tile t ct := rfl

theorem wit_BulkReads_bulkTileReadDone :
    ∃ (s : State) (id : Nat) (pipe : Nat) (m : Move), s.move id = some m ∧ m.stage = .bulkRead ∧ s.queued id = false ∧ s.aesRuns = true ∧ s.pipeWorks cryKind pipe = true ∧ s.calcTag m.slot m.tile m.tme m.record = m.tme.tag ∧ s.rd F.CRY_PIPE_WORK_UNITS pipe + 1 < 2 ^ F.CRY_PIPE_WORK_UNITS.width :=
  ⟨(live.setTmu { live.tmu with moves := [{ Move.blank 7 .promote .demand 1 2 { tile0 with fmt := .lz, len := 1, tag := live.calcTag 1 2 { tile0 with fmt := .lz, len := 1 } [] } with pipe := 0 }] }), 7, 0, { Move.blank 7 .promote .demand 1 2 { tile0 with fmt := .lz, len := 1, tag := live.calcTag 1 2 { tile0 with fmt := .lz, len := 1 } [] } with pipe := 0 }, ⟨rfl, rfl, by decide, by decide, by decide, (calcTag_tmu live _ 1 2 _ []).trans (calcTag_tag live 1 2 { tile0 with fmt := .lz, len := 1 } [] _), by decide⟩⟩

theorem wit_BulkReads_bulkTileReadDone2 :
    ∃ (s : State) (id : Nat) (pipe : Nat) (m : Move), s.move id = some m ∧ m.stage = .bulkRead ∧ s.queued id = false ∧ s.aesRuns = true ∧ s.pipeWorks cryKind pipe = true ∧ s.otherActive cryKind pipe = false ∧ m.tile < 2 ^ 32 ∧ m.slot < 64 ∧ pipe < 16 :=
  ⟨(live.setTmu { live.tmu with moves := [{ Move.blank 7 .promote .demand 1 2 tile0 with  }] }), 7, 0, { Move.blank 7 .promote .demand 1 2 tile0 with  }, by decide⟩

theorem wit_BulkReads_tagRecomputeDone :
    ∃ (s : State) (id : Nat) (pipe : Nat) (m : Move), s.move id = some m ∧ m.stage = .tagRetry ∧ s.aesRuns = true ∧ s.unitState cryKind pipe = 1 ∧ pipe ≠ m.pipe ∧ s.calcTag m.slot m.tile m.tme m.record = m.tme.tag ∧ s.rd F.CRY_PIPE_WORK_UNITS pipe + 1 < 2 ^ F.CRY_PIPE_WORK_UNITS.width ∧ s.rd cryKind.count m.pipe + 1 < s.rd cryKind.thresh ∧ s.rd cryKind.count m.pipe + 1 < 2 ^ cryKind.count.width :=
  ⟨(live.setTmu { live.tmu with moves := [{ Move.blank 7 .promote .demand 1 2 { tile0 with fmt := .lz, len := 1, tag := live.calcTag 1 2 { tile0 with fmt := .lz, len := 1 } [] } with stage := .tagRetry, pipe := 1 }] }), 7, 0, { Move.blank 7 .promote .demand 1 2 { tile0 with fmt := .lz, len := 1, tag := live.calcTag 1 2 { tile0 with fmt := .lz, len := 1 } [] } with stage := .tagRetry, pipe := 1 }, ⟨rfl, rfl, by decide, by decide, by decide, (calcTag_tmu live _ 1 2 _ []).trans (calcTag_tag live 1 2 { tile0 with fmt := .lz, len := 1 } [] _), by decide, by decide, by decide⟩⟩

theorem wit_BulkReads_codecTileDone :
    ∃ (s : State) (id : Nat) (pipe : Nat) (m : Move), s.move id = some m ∧ m.stage = .codec ∧ m.kind = .promote ∧ m.req = none ∧ s.serving = true ∧ s.holder (.tile id) = some pipe ∧ m.tme.fmt = .raw ∧ crc32c (maskLines m.record m.marks) = m.tme.tcs ∧ s.rd F.CDC_PIPE_WORK_UNITS pipe + 1 < 2 ^ F.CDC_PIPE_WORK_UNITS.width :=
  ⟨((live.setTmu { live.tmu with moves := [{ Move.blank 7 .promote .demand 1 2 { tile0 with fmt := .raw, len := 64, tcs := crc32c (maskLines [] []) } with stage := .codec, pipe := 1 }] }).setCdc { held := [(0, .tile 7)] }), 7, 0, { Move.blank 7 .promote .demand 1 2 { tile0 with fmt := .raw, len := 64, tcs := crc32c (maskLines [] []) } with stage := .codec, pipe := 1 }, ⟨rfl, rfl, rfl, rfl, by decide, by decide, rfl, rfl, by decide⟩⟩

theorem wit_BulkReads_tcsRetryDone :
    ∃ (s : State) (id : Nat) (pipe : Nat) (m : Move), s.move id = some m ∧ m.stage = .tcsRetry ∧ m.kind = .promote ∧ m.req = none ∧ s.serving = true ∧ s.holder (.tile id) = some pipe ∧ pipe ≠ m.pipe ∧ m.tme.fmt = .raw ∧ crc32c (maskLines m.record m.marks) = m.tme.tcs ∧ s.rd F.CDC_PIPE_WORK_UNITS pipe + 1 < 2 ^ F.CDC_PIPE_WORK_UNITS.width ∧ s.rd cdcKind.count m.pipe + 1 < s.rd cdcKind.thresh ∧ s.rd cdcKind.count m.pipe + 1 < 2 ^ cdcKind.count.width :=
  ⟨((live.setTmu { live.tmu with moves := [{ Move.blank 7 .promote .demand 1 2 { tile0 with fmt := .raw, len := 64, tcs := crc32c (maskLines [] []) } with stage := .tcsRetry, pipe := 1 }] }).setCdc { held := [(0, .tile 7)] }), 7, 0, { Move.blank 7 .promote .demand 1 2 { tile0 with fmt := .raw, len := 64, tcs := crc32c (maskLines [] []) } with stage := .tcsRetry, pipe := 1 }, ⟨rfl, rfl, rfl, rfl, by decide, by decide, by decide, rfl, rfl, by decide, by decide, by decide⟩⟩

theorem wit_FillsAndInstalls_promotionInstall :
    ∃ (s : State) (id : Nat) (m : Move), s.move id = some m ∧ m.kind = .promote ∧ m.stage = .ready ∧ s.serving = true ∧ m.purpose = .demand ∧ s.queued id = false ∧ (∀ w ∈ s.tmu.waits, w.slot ≠ m.slot ∨ w.tile ≠ m.tile) ∧ s.rd F.TMU_RGN_POLICY_TIER m.slot ≠ 1 ∧ (s.tme m.slot m.tile).pinned = false ∧ m.engine = none ∧ s.scr.prefetch = [] ∧ (mget s.tmu.cache (tkey m.slot m.tile)).map (·.dirty) = some true ∧ s.rd F.SCR_CNT_PROMO_TILES 0 + 1 < 2 ^ F.SCR_CNT_PROMO_TILES.width :=
  ⟨(((withTile live 2 { tile0 with fmt := .raw, len := 64, unmat := false }).setTmu { (withTile live 2 { tile0 with fmt := .raw, len := 64, unmat := false }).tmu with moves := [{ Move.blank 7 .promote .demand 1 2 { tile0 with fmt := .raw, len := 64, unmat := false } with stage := .ready, frame := 3, data := List.replicate 64 9 }] }).setNear { ((withTile live 2 { tile0 with fmt := .raw, len := 64, unmat := false }).setTmu { (withTile live 2 { tile0 with fmt := .raw, len := 64, unmat := false }).tmu with moves := [{ Move.blank 7 .promote .demand 1 2 { tile0 with fmt := .raw, len := 64, unmat := false } with stage := .ready, frame := 3, data := List.replicate 64 9 }] }).near with ftes := [(3, { tile := 2, slot := 1, state := .filling, pin := false, first := false, heat := 0, stamp := 0 })] }), 7, { Move.blank 7 .promote .demand 1 2 { tile0 with fmt := .raw, len := 64, unmat := false } with stage := .ready, frame := 3, data := List.replicate 64 9 }, by decide⟩

theorem wit_CandidatesAndChoice_candidateRefill :
    ∃ (s : State) (total : Nat), s.scarabRuns = true ∧ s.cands = [] ∧ s.barred 19 13 (s.pairBucket 19 13) 64 1 = 0 ∧ s.rd F.SCR_FRAMES_TOTAL = total ∧ 0 < total :=
  ⟨((withTile live 2 { tile0 with unmat := false, nv := true, near := 3 }).setNear { (withTile live 2 { tile0 with unmat := false, nv := true, near := 3 }).near with ftes := [(3, { tile := 2, slot := 1, state := .dirty, pin := false, first := false, heat := 0, stamp := 0 })] }), 8, by decide⟩

theorem wit_CandidatesAndChoice_demotionSelect :
    ∃ (s : State) (engine : Nat) (f : Nat) (e : Fte) (ent : CacheEnt), s.serving = true ∧ s.nearOnly = false ∧ s.paused = false ∧ s.aon.blocks = [] ∧ s.unitState scrKind engine = 1 ∧ s.engineLoad engine < 8 ∧ s.rdb F.SCR_MOV_STS_FLUSH = false ∧ s.target = 0 ∧ s.tmu.waits = [] ∧ s.cands = [(f, e)] ∧ s.fte f = some e ∧ e.state = .dirty ∧ (e.first = true ∨ s.heat e ≤ s.rd F.SCR_MOV_CFG_COLD_THRESH) ∧ mget s.tmu.cache (tkey e.slot e.tile) = some ent ∧ ent.dirty = true ∧ s.newest e.slot ent.tme = true ∧ ent.tme.saturated = false ∧ s.tmu.moves = [] ∧ s.isDeleting e.slot = false ∧ (∀ r ∈ s.near.reads, r.frame ≠ f) ∧ s.barred 19 13 (s.pairBucket 19 13) 4096 1 = 0 ∧ s.scr.prefetch = [] ∧ s.cry.keyWait.contains e.slot = false ∧ s.tmeFault e.slot e.tile ent.tme = 0 :=
  ⟨(((withTile live 2 { tile0 with unmat := false, nv := true, near := 3 }).setNear { (withTile live 2 { tile0 with unmat := false, nv := true, near := 3 }).near with ftes := [(3, { tile := 2, slot := 1, state := .dirty, pin := false, first := false, heat := 0, stamp := 0 })] }).setScr { live.scr with cands := [3] }), 0, 3, { tile := 2, slot := 1, state := .dirty, pin := false, first := false, heat := 0, stamp := 0 }, { tme := { tile0 with unmat := false, nv := true, near := 3 }, dirty := true, used := 0 }, by decide +kernel⟩

theorem wit_CandidatesAndChoice_nearPinWalkStep :
    ∃ (s : State) (r : Nat) (pos : Nat), mget s.scr.pinWalks r = some pos ∧ s.scarabRuns = true ∧ (∀ t ∈ s.materialized r, t < pos) :=
  ⟨(live.setScr { live.scr with pinWalks := [(1, 0)] }), 1, 0, by decide⟩

theorem wit_CandidatesAndChoice_nearPinWalkStep2 :
    ∃ (s : State) (r : Nat) (pos : Nat) (tile : Nat) (ent : CacheEnt) (e : Fte), mget s.scr.pinWalks r = some pos ∧ s.scarabRuns = true ∧ (s.materialized r).find? (fun t => decide (pos ≤ t)) = some tile ∧ (s.lockOf r tile).isNone = true ∧ mget s.tmu.cache (tkey r tile) = some ent ∧ ent.dirty = true ∧ ent.tme.nv = true ∧ s.fte ent.tme.near = some e ∧ e.pin = false ∧ s.pinRoom = true :=
  ⟨(((withTile live 2 { tile0 with unmat := false, nv := true, near := 3 }).setNear { (withTile live 2 { tile0 with unmat := false, nv := true, near := 3 }).near with ftes := [(3, { tile := 2, slot := 1, state := .dirty, pin := false, first := false, heat := 0, stamp := 0 })] }).setScr { live.scr with pinWalks := [(1, 0)] }), 1, 0, 2, { tme := { tile0 with unmat := false, nv := true, near := 3 }, dirty := true, used := 0 }, { tile := 2, slot := 1, state := .dirty, pin := false, first := false, heat := 0, stamp := 0 }, by decide⟩

theorem wit_DemotionSteps_demotionCompressDone :
    ∃ (s : State) (id : Nat) (pipe : Nat) (m : Move), s.move id = some m ∧ m.kind = .demote ∧ m.stage = .compress ∧ s.serving = true ∧ s.queued id = false ∧ s.holder (.tile id) = some pipe ∧ s.cdcOffline = false ∧ m.marks = [] ∧ m.data.all (fun b => decide (b = 0)) = true ∧ s.rgnType m.slot = 2 ∧ m.purpose = .space ∧ s.rd F.CDC_PIPE_WORK_UNITS pipe + 1 < 2 ^ F.CDC_PIPE_WORK_UNITS.width ∧ s.rd F.CDC_IN_CNT_TILES 0 + 1 < 2 ^ F.CDC_IN_CNT_TILES.width ∧ s.rd F.CDC_OUT_SECT_SECTORS 0 + 1 < 2 ^ F.CDC_OUT_SECT_SECTORS.width :=
  ⟨((((withTile live 2 { tile0 with unmat := false, nv := true, near := 3 }).setNear { (withTile live 2 { tile0 with unmat := false, nv := true, near := 3 }).near with ftes := [(3, { tile := 2, slot := 1, state := .moving, pin := false, first := false, heat := 0, stamp := 0 })] }).setTmu { ((withTile live 2 { tile0 with unmat := false, nv := true, near := 3 }).setNear { (withTile live 2 { tile0 with unmat := false, nv := true, near := 3 }).near with ftes := [(3, { tile := 2, slot := 1, state := .moving, pin := false, first := false, heat := 0, stamp := 0 })] }).tmu with moves := [{ Move.blank 7 .demote .space 1 2 { tile0 with unmat := false, nv := true, near := 3 } with stage := .compress, frame := 3, engine := none, gen := 0, ctr := 5, data := [0, 0, 0] }] }).setCdc { held := [(0, .tile 7)] }), 7, 0, { Move.blank 7 .demote .space 1 2 { tile0 with unmat := false, nv := true, near := 3 } with stage := .compress, frame := 3, engine := none, gen := 0, ctr := 5, data := [0, 0, 0] }, by decide⟩

theorem wit_DemotionSteps_demotionCommit :
    ∃ (s : State) (id : Nat) (m : Move) (ent : CacheEnt) (e : Fte), s.move id = some m ∧ m.kind = .demote ∧ m.stage = .written ∧ s.serving = true ∧ s.queued id = false ∧ m.purpose = .space ∧ m.engine = none ∧ m.job = none ∧ m.crossing = false ∧ mget s.tmu.cache (tkey m.slot m.tile) = some ent ∧ ent.dirty = true ∧ ent.tme.len = 0 ∧ ent.tme.retired = false ∧ ent.tme.saturated = false ∧ m.ctr ≠ 2 ^ 40 - 1 ∧ s.rgnType m.slot = 2 ∧ s.fte m.frame = some e ∧ s.rd F.TMU_RGN_POLICY_TIER m.slot ≠ 2 ∧ s.near.withheld = [] ∧ s.rd F.SCR_CNT_DEMO_TILES 0 + 1 < 2 ^ F.SCR_CNT_DEMO_TILES.width :=
  ⟨(((withTile live 2 { tile0 with unmat := false, nv := true, near := 3 }).setNear { (withTile live 2 { tile0 with unmat := false, nv := true, near := 3 }).near with ftes := [(3, { tile := 2, slot := 1, state := .moving, pin := false, first := false, heat := 0, stamp := 0 })] }).setTmu { ((withTile live 2 { tile0 with unmat := false, nv := true, near := 3 }).setNear { (withTile live 2 { tile0 with unmat := false, nv := true, near := 3 }).near with ftes := [(3, { tile := 2, slot := 1, state := .moving, pin := false, first := false, heat := 0, stamp := 0 })] }).tmu with moves := [{ Move.blank 7 .demote .space 1 2 { tile0 with unmat := false, nv := true, near := 3 } with stage := .written, frame := 3, engine := none, gen := 0, ctr := 5, fmt := .zero, tcs := 0x98f94189 }] }), 7, { Move.blank 7 .demote .space 1 2 { tile0 with unmat := false, nv := true, near := 3 } with stage := .written, frame := 3, engine := none, gen := 0, ctr := 5, fmt := .zero, tcs := 0x98f94189 }, { tme := { tile0 with unmat := false, nv := true, near := 3 }, dirty := true, used := 0 }, { tile := 2, slot := 1, state := .moving, pin := false, first := false, heat := 0, stamp := 0 }, by decide⟩

theorem wit_DemotionSteps_allocEscalationResolved :
    ∃ (s : State) (id : Nat) (m : Move) (a : Nat), s.move id = some m ∧ m.kind = .demote ∧ m.stage = .allocWait ∧ s.serving = true ∧ s.rgnType m.slot = 2 ∧ m.fmt = .lz ∧ 0 < m.len ∧ m.record.length = 64 * m.len ∧ (s.alloc m.slot m.len).map (·.1) = some a :=
  ⟨(((spared live).wrI F.TMU_RGN_MAP_TYPE 1 2).setTmu { ((spared live).wrI F.TMU_RGN_MAP_TYPE 1 2).tmu with moves := [{ Move.blank 7 .demote .space 1 2 { tile0 with unmat := false, nv := true, near := 3 } with stage := .allocWait, frame := 3, len := 1, fmt := .lz, record := List.replicate 64 3, ctr := 5 }] }), 7, { Move.blank 7 .demote .space 1 2 { tile0 with unmat := false, nv := true, near := 3 } with stage := .allocWait, frame := 3, len := 1, fmt := .lz, record := List.replicate 64 3, ctr := 5 }, 4096, by decide +kernel⟩

theorem wit_DemotionSteps_crossingWaitResume :
    ∃ (s : State) (r : Nat) (tile : Nat) (m : Move) (ent : CacheEnt) (e : Fte), s.tmu.moves = [m] ∧ m.stage = .crossWait ∧ m.slot = r ∧ m.tile = tile ∧ s.serving = true ∧ mget s.tmu.cache (tkey r tile) = some ent ∧ ent.dirty = true ∧ s.newest r ent.tme = false ∧ mget s.cry.cross (tkey r tile) = none ∧ s.cry.cross.length < 2048 ∧ s.cry.keyWait.contains r = false ∧ s.tmeFault r tile ent.tme = 0 ∧ s.fte m.frame = some e :=
  ⟨((((withTile live 2 { tile0 with unmat := false, nv := true, near := 3 }).setNear { (withTile live 2 { tile0 with unmat := false, nv := true, near := 3 }).near with ftes := [(3, { tile := 2, slot := 1, state := .dirty, pin := false, first := false, heat := 0, stamp := 0 })] }).setTmu { ((withTile live 2 { tile0 with unmat := false, nv := true, near := 3 }).setNear { (withTile live 2 { tile0 with unmat := false, nv := true, near := 3 }).near with ftes := [(3, { tile := 2, slot := 1, state := .dirty, pin := false, first := false, heat := 0, stamp := 0 })] }).tmu with moves := [{ Move.blank 7 .demote .space 1 2 { tile0 with unmat := false, nv := true, near := 3 } with stage := .crossWait, frame := 3 }] }).wrI F.CRY_RGN_GEN_CUR 1 1), 1, 2, { Move.blank 7 .demote .space 1 2 { tile0 with unmat := false, nv := true, near := 3 } with stage := .crossWait, frame := 3 }, { tme := { tile0 with unmat := false, nv := true, near := 3 }, dirty := true, used := 0 }, { tile := 2, slot := 1, state := .dirty, pin := false, first := false, heat := 0, stamp := 0 }, by decide⟩

theorem wit_FillsAndInstalls_writeWaitResume :
    ∃ (s : State) (id : Nat) (w : Waiting) (h : Nat) (l : Nat) (tag : Nat) (r : Nat) (tile : Nat) (f : Nat) (ent : CacheEnt) (k : Nat), s.serving = true ∧ s.tmu.waits = [w] ∧ w.req.id = id ∧ w.why = .frame ∧ w.slot = r ∧ w.tile = tile ∧ w.req.org = .host h l tag ∧ tag ≠ fwTag ∧ w.req.kind = .write ∧ w.req.hold = some (r, k) ∧ k ≠ 2 ∧ w.req.poison = false ∧ s.ctrHeld r tile = false ∧ s.rgnState r = 1 ∧ s.rgnType r = 2 ∧ s.nearOnly = false ∧ s.nearSr = 0 ∧ s.bulkOnly = false ∧ s.ras.sweep = none ∧ s.offsetOf w.req r / 4096 = tile ∧ mget s.tmu.cache (tkey r tile) = some ent ∧ ent.dirty = true ∧ s.tmeFault r tile ent.tme = 0 ∧ ent.tme.unmat = true ∧ ent.tme.nv = false ∧ ent.tme.len = 0 ∧ ent.tme.poison = false ∧ ent.tme.fmt = .zero ∧ s.tmu.moves = [] ∧ s.rd F.TMU_RGN_POLICY_TIER r ≠ 1 ∧ ent.tme.pinned = false ∧ s.dir.conflicts = [] ∧ s.freeFrame = some f ∧ s.dirtyBar r = none :=
  ⟨((withTile (live.wrI F.HLX_LD_RGN_SLOTS 0 2) 2 tile0).setTmu { (withTile (live.wrI F.HLX_LD_RGN_SLOTS 0 2) 2 tile0).tmu with waits := [{ req := { live.hostReq .write 0 0 (8256#64) { mv := .invalid, err := .none } 6 with id := 3, cls := 2, hold := some (1, 0), data := 0x55 }, why := .frame, slot := 1, tile := 2 }] }), 3, { req := { live.hostReq .write 0 0 (8256#64) { mv := .invalid, err := .none } 6 with id := 3, cls := 2, hold := some (1, 0), data := 0x55 }, why := .frame, slot := 1, tile := 2 }, 0, 0, 6, 1, 2, 0, { tme := tile0, dirty := true, used := 0 }, 0, by decide +kernel⟩

theorem wit_GateTicks_gateTick :
    ∃ (s : State), s.timed = true ∧ s.aon.held = false ∧ s.cry.halt = 0 ∧ s.aon.time.fresh = false ∧ s.phase < 1023 ∧ s.gcl = [] ∧ s.adm.lengthen = [] ∧ s.adm.gateOpen = 65535 ∧ s.adm.monValid = false :=
  ⟨(live.setAdm { live.adm with gateOpen := 65535 }).setTime { live.aon.time with fresh := false }, by decide⟩

theorem wit_GateTicks_minwinEnd :
    ∃ (s : State) (c : Nat) (b : Bool), s.aon.held = false ∧ s.aon.off = 0 ∧ mget s.adm.lengthen c = some (0, b) ∧ c < 16 :=
  ⟨(live.setAdm { live.adm with lengthen := [(3, 0, false)] }), 3, false, by decide⟩

theorem wit_GateTicks_gclSwap :
    ∃ (s : State), s.aon.held = false ∧ s.aon.off = 0 ∧ s.atCycleStart = true ∧ s.rd F.ADM_GCL_CFG_SWAP_PEND = 1 :=
  ⟨((live.wr F.ADM_GCL_CFG_SWAP_PEND 1).setTime { live.aon.time with fresh := true }), by decide⟩

theorem wit_GateTicks_gclSwapRequest :
    ∃ (s : State) (path : Path), s.reaches path 4 0 = true ∧ s.manages path = true :=
  ⟨owned, .ld 0 0, by decide⟩

theorem wit_GateTicks_monitorWindowEnd :
    ∃ (s : State), s.aon.held = false ∧ s.aon.off = 0 ∧ s.monitorDone = true ∧ s.rd F.ADM_GUAR_PEND_CLASS < 2 ^ 16 :=
  ⟨((((live.wr F.AON_EPOCH_EPOCH 1).wrI F.ADM_CLS_GUAR_EFF 3 100).setTime { live.aon.time with period := 1000 }).setAdm { live.adm with monValid := true, monEpochs := 1, monD := [(3, 7)] }), by decide⟩

theorem wit_GateTicks_floorRecompute :
    ∃ (s : State), s.aon.held = false ∧ s.aon.off = 0 ∧ s.adm.recompute = true ∧ s.rawBandwidth < 2 ^ 24 ∧ s.floorNow < 2 ^ 24 ∧ ((List.range 16).map s.guaranteeOf).sum ≤ s.floorNow :=
  ⟨((live.wrI F.ADM_CLS_GUAR_GUAR 3 100).wr F.NTC_CONFIG_RATE 16).setAdm { live.adm with recompute := true }, by decide⟩

theorem wit_ChainPortStates_clDownTimer :
    ∃ (s : State) (p : Nat), p < 2 ∧ s.clWorks p = true ∧ s.clx.ports.length = 2 ∧ s.clState p = 0 ∧ s.rd F.CLX_PORT_CTL_ENABLE p = 1 :=
  ⟨(portAt linked 1 0 ClPort.fresh), 1, by decide⟩

theorem wit_ChainPortStates_clDetect :
    ∃ (s : State) (p : Nat) (lanes : BitVec 9), p < 2 ∧ s.clWorks p = true ∧ s.clx.ports.length = 2 ∧ s.clState p = 1 ∧ 4 ≤ (bitList 9 lanes.toNat).length :=
  ⟨(portAt linked 1 1 ClPort.fresh), 1, 15, by decide⟩

theorem wit_ChainPortStates_clTrainLock :
    ∃ (s : State) (p : Nat) (lanes : BitVec 9) (w : Nat), p < 2 ∧ s.clWorks p = true ∧ s.clx.ports.length = 2 ∧ s.clState p = 2 ∧ s.clFailed p = 0 ∧ (s.clp p).lanes = lanes ∧ (chooseLanes lanes.toNat w).1 ≠ 0 :=
  ⟨(portAt linked 1 2 { ClPort.fresh with lanes := 255 }), 1, 255, 2, by decide⟩

theorem wit_ChainPortStates_clFlitLock :
    ∃ (s : State) (p : Nat), p < 2 ∧ s.clWorks p = true ∧ s.clx.ports.length = 2 ∧ s.clState p = 3 :=
  ⟨(portAt linked 1 3 ClPort.fresh), 1, by decide⟩

theorem wit_ChainPortStates_clStateTimeout :
    ∃ (s : State) (p : Nat), p < 2 ∧ s.clWorks p = true ∧ s.clx.ports.length = 2 ∧ (s.clState p = 2 ∨ s.clState p = 3 ∨ s.clState p = 4) :=
  ⟨(portAt linked 1 4 { ClPort.fresh with lanes := 255 }), 1, by decide⟩

theorem wit_ChainPortStates_clLockLoss :
    ∃ (s : State) (p : Nat), p < 2 ∧ s.clWorks p = true ∧ s.clx.ports.length = 2 ∧ s.clState p = 5 ∧ s.rd F.CLX_PORT_RPL_RETRAINS p + 1 < 2 ^ F.CLX_PORT_RPL_RETRAINS.width :=
  ⟨linked, 1, by decide⟩

theorem wit_ChainPortStates_clLinkDown :
    ∃ (s : State) (p : Nat), p < 2 ∧ s.clWorks p = true ∧ s.clx.ports.length = 2 ∧ s.clState p = 6 ∧ s.rd F.CLX_ID_VALID = 0 :=
  ⟨(portAt linked 1 6 { ClPort.fresh with lanes := 255 }), 1, by decide⟩

theorem wit_ChainPortStates_clRetrainDone :
    ∃ (s : State) (p : Nat) (lanes : BitVec 9) (w : Nat), p < 2 ∧ s.clWorks p = true ∧ s.clx.ports.length = 2 ∧ s.clState p = 6 ∧ s.clFailed p = 0 ∧ (s.clp p).lanes = lanes ∧ (chooseLanes lanes.toNat w).1 ≠ 0 ∧ (s.clp p).replay = [] ∧ (s.clp p).pass = [] ∧ (s.clp p).orig = [] :=
  ⟨(portAt linked 1 6 { ClPort.fresh with lanes := 255 }), 1, 255, 2, by decide⟩

theorem wit_ChainPortStates_clRetrain :
    ∃ (s : State) (p : Nat), p < 2 ∧ s.clWorks p = true ∧ s.clx.ports.length = 2 ∧ s.reaches .cores 3 (1 + p) = true ∧ s.clState p = 5 ∧ s.rd F.CLX_PORT_RPL_RETRAINS p + 1 < 2 ^ F.CLX_PORT_RPL_RETRAINS.width :=
  ⟨linked, 1, by decide⟩

theorem wit_ChainPortStates_clMark :
    ∃ (s : State) (p : Nat) (lanes : BitVec 9), p < 2 ∧ s.reaches .cores 3 (1 + p) = true ∧ s.clFailed p < 512 :=
  ⟨linked, 1, 5, by decide⟩

theorem wit_ChainPortStates_clPortEnable :
    ∃ (s : State) (path : Path) (p : Nat) (on : Bool), p < 2 ∧ s.reaches path 3 (1 + p) = true ∧ s.manages path = true ∧ (on = true ∨ s.clState p = 0) :=
  ⟨linked, .cores, 1, true, by decide⟩

theorem wit_ChainPortStates_chainLowPowerSubstate :
    ∃ (s : State) (p : Nat), p < 2 ∧ s.cur = 2 ∧ s.clState p = 5 ∧ s.clx.ports.length = 2 :=
  ⟨linked.wr F.AON_PWR_MODE_CUR 2, 1, by decide⟩

theorem wit_ChainFlits_idle :
    ∃ (s : State) (p : Nat) (lsb : LinkState), p < 2 ∧ s.clTakes p = true ∧ s.clx.ports.length = 2 ∧ lsb.ack = none ∧ (s.clp p).pass = [] ∧ (s.clp p).orig = [] :=
  ⟨linked, 1, lsb0, by decide⟩

theorem wit_ChainFlits_init :
    ∃ (s : State) (p : Nat) (lsb : LinkState) (b : InitBody), p < 2 ∧ s.clWorks p = true ∧ s.clx.ports.length = 2 ∧ s.clState p = 4 ∧ b.ver = 1 ∧ b.port ≠ p ∧ b.sn ≠ s.fuses.sn ∧ (s.clp p).seenSent = false :=
  ⟨(portAt linked 1 4 ClPort.fresh), 1, lsb0, { sn := 9, port := 0, ver := 1, width := 2, seen := false, head := false, idValid := false, id := 0, credits := lsb0 }, by decide⟩

theorem wit_ChainFlits_initResend :
    ∃ (s : State) (p : Nat), p < 2 ∧ s.clWorks p = true ∧ s.clx.ports.length = 2 ∧ s.clState p = 4 ∧ (s.clp p).seenTaken = false :=
  ⟨(portAt linked 1 4 { ClPort.fresh with inited := true }), 1, by decide⟩

theorem wit_ChainFlits_nak :
    ∃ (s : State) (p : Nat) (lsb : LinkState) (seq : Nat), p < 2 ∧ s.clTakes p = true ∧ s.clx.ports.length = 2 ∧ lsb.ack = none ∧ (s.clp p).pass = [] ∧ (s.clp p).orig = [] ∧ (s.clp p).replay.any (fun e => decide (e.1 = seq)) = true ∧ (s.clp p).tries < s.rd F.CLX_CFG_REPLAY_LIMIT ∧ s.rd F.CLX_PORT_RPL_REPLAYS p + 1 < 2 ^ F.CLX_PORT_RPL_REPLAYS.width :=
  ⟨(portAt linked 1 5 { ClPort.fresh with replay := [(5, dataPayload none 7 []), (6, dataPayload none 7 [])], timer := true }), 1, lsb0, 6, by decide⟩

theorem wit_ChainFlits_replayTimerExpiry :
    ∃ (s : State) (p : Nat) (e : Nat × List Byte) (seq : Nat) (rest : List (Nat × List Byte)), p < 2 ∧ s.clTakes p = true ∧ s.clx.ports.length = 2 ∧ (s.clp p).timer = true ∧ (s.clp p).replay = e :: rest ∧ seq = e.1 ∧ (s.clp p).tries < s.rd F.CLX_CFG_REPLAY_LIMIT ∧ s.rd F.CLX_PORT_RPL_REPLAYS p + 1 < 2 ^ F.CLX_PORT_RPL_REPLAYS.width ∧ s.rd F.CLX_PORT_RPL_TIMEOUTS p + 1 < 2 ^ F.CLX_PORT_RPL_TIMEOUTS.width :=
  ⟨(portAt linked 1 5 { ClPort.fresh with replay := [(5, dataPayload none 7 []), (6, dataPayload none 7 [])], timer := true }), 1, (5, dataPayload none 7 []), 5, [(6, dataPayload none 7 [])], by decide⟩

theorem wit_ChainFlits_replay :
    ∃ (s : State) (p : Nat) (lsb : LinkState) (seq : Nat), p < 2 ∧ s.clTakes p = true ∧ s.clx.ports.length = 2 ∧ lsb.ack = none ∧ (s.clp p).pass = [] ∧ (s.clp p).orig = [] ∧ (s.rd F.CLX_PORT_SEQ_RX_EXP p + 4096 - seq % 4096) % 4096 ≤ 768 :=
  ⟨(portAt linked 1 5 { ClPort.fresh with naked := true }), 1, lsb0, 0, by decide⟩

set_option maxRecDepth 100000 in
theorem wit_ChainFlits_dataFlit :
    ∃ (s : State) (p : Nat) (wire : List (BitVec 8)) (bs : List Byte) (e : Nat), p < 2 ∧ s.clTakes p = true ∧ s.clx.ports.length = 2 ∧ (s.clp p).naked = false ∧ (s.clp p).replayNo = none ∧ (s.clp p).rxBuf = [] ∧ s.rd F.CLX_PORT_SEQ_RX_EXP p = e ∧ e < 4096 ∧ fecDecode wire = some (bs, false) ∧ bits (numAt bs 0 1) 1 0 = 0 ∧ (flitCrc e (bs.take 116)).toNat = numAt bs 116 8 ∧ (numAt bs 0 4).testBit 2 = false ∧ bits (numAt bs 0 4) 22 20 = 7 ∧ bs.length = 128 ∧ (s.clp p).pass = [] ∧ (s.clp p).orig = [] :=
  ⟨linked, 1, flitBytes 0 (dataPayload none 7 []), flitBytes 0 (dataPayload none 7 []), 0, by decide +kernel⟩

set_option maxRecDepth 100000 in
theorem wit_ChainFlits_dataFlit2 :
    ∃ (s : State) (p : Nat) (wire : List (BitVec 8)), p < 2 ∧ s.clTakes p = true ∧ s.clx.ports.length = 2 ∧ (s.clp p).naked = false ∧ fecDecode wire = none ∧ s.rd F.CLX_PORT_ERR_CRC_FAIL p + 1 < 2 ^ F.CLX_PORT_ERR_CRC_FAIL.width ∧ s.rd F.CLX_PORT_ERR_NAK_TX p + 1 < 2 ^ F.CLX_PORT_ERR_NAK_TX.width :=
  ⟨linked, 1, (List.range 128).map (BitVec.ofNat 8), by decide +kernel⟩

theorem wit_ChainFlits_controlFlitDue :
    ∃ (s : State) (p : Nat), p < 2 ∧ s.clSends p = true ∧ s.clx.ports.length = 2 ∧ (s.clp p).ackSent ≠ s.ackOf p :=
  ⟨linked.wrI F.CLX_PORT_SEQ_RX_EXP 1 3, 1, by decide⟩

theorem wit_RingControl_ring :
    ∃ (s : State) (p : Nat) (lsb : LinkState) (reports : List RingReport) (round : Nat) (k : Nat), p < 2 ∧ s.clTakes p = true ∧ s.clx.ports.length = 2 ∧ lsb.ack = none ∧ (s.clp p).pass = [] ∧ (s.clp p).orig = [] ∧ s.idValid = true ∧ round = s.rd F.CLX_RING_ROUND ∧ s.clx.reqs = [] ∧ k < 16 ∧ k ≠ s.myId ∧ newer (s.report k) (reports.getD k noReport) = true :=
  ⟨(member.wr F.CLX_RING_N 2).wr F.CLX_ORDER_ORDER 0x32, 1, lsb0, [noReport, noReport, noReport, { cl0 := true, cl1 := true, ucnt := 3 }], 0, 3, by decide⟩

theorem wit_RingControl_token :
    ∃ (s : State) (p : Nat) (lsb : LinkState) (body : TokenBody), p < 2 ∧ s.clTakes p = true ∧ s.clx.ports.length = 2 ∧ lsb.ack = none ∧ (s.clp p).pass = [] ∧ (s.clp p).orig = [] ∧ (s.clx.headSn = none ∨ s.clx.headSn = some body.headSn) ∧ s.chainHead = false ∧ body.ended = false ∧ body.entries.length < 16 ∧ s.clActive (1 - p) = true ∧ s.cry.halt < 3 :=
  ⟨linked, 1, lsb0, { round := 1, headSn := 9, dir := 1, ended := false, entries := [{ sn := 9, id := 0, valid := false }] }, by decide⟩

theorem wit_RingControl_token2 :
    ∃ (s : State) (p : Nat) (lsb : LinkState) (body : TokenBody) (h : BitVec 32), p < 2 ∧ s.clTakes p = true ∧ s.clx.ports.length = 2 ∧ lsb.ack = none ∧ (s.clp p).pass = [] ∧ (s.clp p).orig = [] ∧ s.clx.headSn = some h ∧ h ≠ body.headSn :=
  ⟨(linked.setClx { linked.clx with headSn := some 8 }), 1, lsb0, { round := 1, headSn := 9, dir := 1, ended := false, entries := [{ sn := 9, id := 0, valid := false }] }, 8, by decide⟩

theorem wit_RingControl_assign :
    ∃ (s : State) (p : Nat) (lsb : LinkState) (body : AssignBody) (e : RingEntry), p < 2 ∧ s.clTakes p = true ∧ s.clx.ports.length = 2 ∧ lsb.ack = none ∧ (s.clp p).pass = [] ∧ (s.clp p).orig = [] ∧ body.order.find? (fun e => decide (e.sn = s.fuses.sn)) = some e ∧ s.rd F.CLX_RING_ROUND < body.round ∧ body.round < 2 ^ 16 ∧ body.order.length ≤ 16 ∧ (∀ e ∈ body.order, e.id < 16) ∧ s.clx.reqs = [] ∧ s.clSends (1 - p) = true :=
  ⟨linked, 1, lsb0, { round := 4, headSn := 9, line := false, order := [{ sn := 9, id := 0, valid := true }, { sn := 7, id := 5, valid := true }] }, { sn := 7, id := 5, valid := true }, by decide⟩

theorem wit_RingControl_ringPeriodic :
    ∃ (s : State), s.idValid = true ∧ s.inReset = false ∧ s.clx.ports.length = 2 ∧ s.clSends 0 = true ∧ s.clSends 1 = true :=
  ⟨member, by decide⟩

theorem wit_RingControl_discoveryRound :
    ∃ (s : State), s.chainHead = true ∧ s.inReset = false ∧ s.cry.halt = 0 ∧ s.cur ≠ 3 ∧ (s.rd F.CTL_HEALTH_STATE = 2 ∨ s.rd F.CTL_HEALTH_STATE = 3) ∧ s.clActive 1 = true :=
  ⟨linked.wr F.CLX_ID_HEAD 1, by decide⟩

theorem wit_RingControl_assignTimeout :
    ∃ (s : State), s.inReset = false ∧ s.clx.members = [] ∧ (s.clActive 0 = true ∨ s.clActive 1 = true) :=
  ⟨linked, by decide⟩

theorem wit_FarRequestsAtHome_rd :
    ∃ (s : State) (p : Nat) (msg : FarReq), s.rd F.AON_PWR_MODE_CUR = 0 ∧ s.aon.entry.stage = 0 ∧ p < 2 ∧ s.clTakes p = true ∧ s.idValid = true ∧ s.clx.ports.length = 2 :=
  ⟨member, 1, far3, by decide +kernel⟩

theorem wit_FarRequestsAtHome_wr :
    ∃ (s : State) (p : Nat) (msg : FarReq) (data : BitVec 512) (n : Nat), s.rd F.AON_PWR_MODE_CUR = 0 ∧ s.aon.entry.stage = 0 ∧ p < 2 ∧ s.clTakes p = true ∧ s.idValid = true ∧ s.clx.ports.length = 2 ∧ msg.src < 16 ∧ s.rd F.CLX_PEER_RX_SYNCED msg.src = 1 ∧ seqLe msg.seq (s.rd F.CLX_PEER_RX_LAST msg.src) = false ∧ n = seqAt msg.seq (s.rd F.CLX_PEER_RX_LAST msg.src) ∧ n < 256 ∧ (s.pair msg.src).applied.testBit n = false ∧ (s.pair msg.src).accepted.testBit n = false :=
  ⟨((member.wrI F.CLX_PEER_RX_SYNCED 3 1).wrI F.CLX_PEER_RX_LAST 3 9), 1, { far3 with seq := 12 }, 0x55, 2, by decide +kernel⟩

theorem wit_FarRequestsAtHome_wrp :
    ∃ (s : State) (p : Nat) (msg : FarReq) (data : BitVec 512) (be : BitVec 64) (n : Nat), s.rd F.AON_PWR_MODE_CUR = 0 ∧ s.aon.entry.stage = 0 ∧ p < 2 ∧ s.clTakes p = true ∧ s.idValid = true ∧ s.clx.ports.length = 2 ∧ msg.src < 16 ∧ s.rd F.CLX_PEER_RX_SYNCED msg.src = 1 ∧ seqLe msg.seq (s.rd F.CLX_PEER_RX_LAST msg.src) = false ∧ n = seqAt msg.seq (s.rd F.CLX_PEER_RX_LAST msg.src) ∧ n < 256 ∧ (s.pair msg.src).applied.testBit n = false ∧ (s.pair msg.src).accepted.testBit n = false :=
  ⟨((member.wrI F.CLX_PEER_RX_SYNCED 3 1).wrI F.CLX_PEER_RX_LAST 3 9), 1, { far3 with seq := 12 }, 0x55, 15, 2, by decide +kernel⟩

theorem wit_FarRequestsAtHome_wr2 :
    ∃ (s : State) (p : Nat) (msg : FarReq) (data : BitVec 512) (n : Nat), s.rd F.AON_PWR_MODE_CUR = 0 ∧ s.aon.entry.stage = 0 ∧ p < 2 ∧ s.clTakes p = true ∧ s.idValid = true ∧ s.clx.ports.length = 2 ∧ msg.src < 16 ∧ s.rd F.CLX_PEER_RX_SYNCED msg.src = 1 ∧ seqLe msg.seq (s.rd F.CLX_PEER_RX_LAST msg.src) = false ∧ n = seqAt msg.seq (s.rd F.CLX_PEER_RX_LAST msg.src) ∧ n < 256 ∧ (s.pair msg.src).applied.testBit n = false ∧ (s.pair msg.src).accepted.testBit n = true ∧ s.rd F.CLX_PEER_CNT_DUP msg.src + 1 < 2 ^ F.CLX_PEER_CNT_DUP.width :=
  ⟨(((member.wrI F.CLX_PEER_RX_SYNCED 3 1).wrI F.CLX_PEER_RX_LAST 3 9).setPair 3 { accepted := 4, applied := 0, tokens := [] }), 1, { far3 with seq := 12 }, 0x55, 2, by decide +kernel⟩

theorem wit_FarRequestsAtHome_wr3 :
    ∃ (s : State) (p : Nat) (msg : FarReq) (data : BitVec 512) (n : Nat), s.rd F.AON_PWR_MODE_CUR = 0 ∧ s.aon.entry.stage = 0 ∧ p < 2 ∧ s.clTakes p = true ∧ s.idValid = true ∧ s.clx.ports.length = 2 ∧ msg.src < 16 ∧ s.rd F.CLX_PEER_RX_SYNCED msg.src = 1 ∧ seqLe msg.seq (s.rd F.CLX_PEER_RX_LAST msg.src) = false ∧ n = seqAt msg.seq (s.rd F.CLX_PEER_RX_LAST msg.src) ∧ 256 ≤ n ∧ s.rd F.CLX_PEER_CNT_GAP msg.src + 1 < 2 ^ F.CLX_PEER_CNT_GAP.width :=
  ⟨((member.wrI F.CLX_PEER_RX_SYNCED 3 1).wrI F.CLX_PEER_RX_LAST 3 9), 1, { far3 with seq := 300 }, 0x55, 290, by decide +kernel⟩

theorem wit_FarRequestsAtHome_sync :
    ∃ (s : State) (p : Nat) (src : Nat) (token : Nat) (base : Nat), s.rd F.AON_PWR_MODE_CUR = 0 ∧ s.aon.entry.stage = 0 ∧ p < 2 ∧ s.clTakes p = true ∧ s.idValid = true ∧ s.clx.ports.length = 2 ∧ src < 16 ∧ mget (s.pair src).tokens token = none ∧ base = (s.rd F.CLX_PEER_RX_LAST src + 512) % 2 ^ 32 ∧ s.route src = 1 ∧ s.clState 0 = 6 :=
  ⟨(((portAt member 0 6 ClPort.fresh)).wr F.CLX_ROUTE_PORT 64), 1, 3, 5, 512, by decide +kernel⟩

theorem wit_FarRequestsAtHome_sync2 :
    ∃ (s : State) (p : Nat) (src : Nat) (token : Nat) (base : Nat), s.rd F.AON_PWR_MODE_CUR = 0 ∧ s.aon.entry.stage = 0 ∧ p < 2 ∧ s.clTakes p = true ∧ s.idValid = true ∧ s.clx.ports.length = 2 ∧ src < 16 ∧ mget (s.pair src).tokens token = some base ∧ s.route src = 1 ∧ s.clState 0 = 6 :=
  ⟨((((portAt member 0 6 ClPort.fresh)).wr F.CLX_ROUTE_PORT 64).setPair 3 { accepted := 0, applied := 0, tokens := [(5, 512)] }), 1, 3, 5, 512, by decide +kernel⟩

theorem wit_FarRequestsAtHome_farWriteApplied :
    ∃ (s : State) (src : Nat) (seq : Nat) (d : FarDone) (last : Nat), s.clx.done = [d] ∧ d.src = src ∧ d.seq = seq ∧ src < 16 ∧ s.inReset = false ∧ s.cry.halt = 0 ∧ s.clx.ports.length = 2 ∧ s.rd F.CLX_PEER_RX_LAST src = last ∧ last < 2 ^ 32 ∧ seq = (last + 1) % 2 ^ 32 ∧ (s.pair src).applied = 0 ∧ s.route src = 1 ∧ s.clState 0 = 6 :=
  ⟨(((((portAt member 0 6 ClPort.fresh)).wr F.CLX_ROUTE_PORT 64).setPair 3 { accepted := 5, applied := 0, tokens := [] }).setClx { ((((portAt member 0 6 ClPort.fresh)).wr F.CLX_ROUTE_PORT 64).setPair 3 { accepted := 5, applied := 0, tokens := [] }).clx with done := [{ src := 3, seq := 1, port := 1, tag := 40, status := 0, cls := 2, unit := 0 }] }), 3, 1, { src := 3, seq := 1, port := 1, tag := 40, status := 0, cls := 2, unit := 0 }, 0, by decide⟩

theorem wit_FarRequestsAtRequester_rdRsp :
    ∃ (s : State) (p : Nat) (src : Nat) (tag : Nat) (status : Nat) (poison : Bool) (data : BitVec 512) (poisoned : Bool) (f : FarOut) (h : Nat) (l : Nat) (tg : Nat), s.rd F.AON_PWR_MODE_CUR = 0 ∧ s.aon.entry.stage = 0 ∧ p < 2 ∧ s.clTakes p = true ∧ s.idValid = true ∧ s.clx.ports.length = 2 ∧ s.clx.reqs = [f] ∧ f.sent = true ∧ s.dir.conflicts = [] ∧ f.req.org = .host h l tg ∧ f.req.kind = .read ∧ f.tag = tag ∧ f.home = src ∧ poisoned = (poison || decide (status ≠ 0)) :=
  ⟨asking .read, 1, 3, 40, 0, false, 0x55, false, farReq member .read, 0, 0, 6, by decide +kernel⟩

theorem wit_FarRequestsAtRequester_wrRsp :
    ∃ (s : State) (p : Nat) (src : Nat) (tag : Nat) (status : Nat) (seq : Nat) (f : FarOut) (h : Nat) (l : Nat) (tg : Nat), s.rd F.AON_PWR_MODE_CUR = 0 ∧ s.aon.entry.stage = 0 ∧ p < 2 ∧ s.clTakes p = true ∧ s.idValid = true ∧ s.clx.ports.length = 2 ∧ s.clx.reqs = [f] ∧ f.sent = true ∧ s.dir.conflicts = [] ∧ f.req.org = .host h l tg ∧ (f.req.kind = .write ∨ f.req.kind = .partialWrite) ∧ f.tag = tag ∧ f.home = src ∧ f.seq = seq ∧ status ≠ 2 ∧ tg ≠ fwTag :=
  ⟨asking .write, 1, 3, 40, 0, 6, farReq member .write, 0, 0, 6, by decide +kernel⟩

theorem wit_FarRequestsAtRequester_syncAck :
    ∃ (s : State) (p : Nat) (src : Nat) (base : Nat) (n : Nat), s.rd F.AON_PWR_MODE_CUR = 0 ∧ s.aon.entry.stage = 0 ∧ p < 2 ∧ s.clTakes p = true ∧ s.idValid = true ∧ s.clx.ports.length = 2 ∧ src < 16 ∧ base < 2 ^ 32 ∧ mget s.clx.syncs src = some n ∧ s.clx.reqs = [] :=
  ⟨(member.setClx { member.clx with syncs := [(3, 4)] }), 1, 3, 512, 4, by decide +kernel⟩

theorem wit_FarRequestsAtRequester_e2eTimeout :
    ∃ (s : State) (id : Nat) (h : Nat) (n : Nat), s.inReset = false ∧ s.cry.halt = 0 ∧ s.cur ≠ 3 ∧ mget s.clx.syncs h = some n ∧ s.route h = 1 ∧ s.clState 0 = 6 ∧ s.clx.ports.length = 2 :=
  ⟨(let s := (((portAt member 0 6 ClPort.fresh)).wr F.CLX_ROUTE_PORT 64); s.setClx { s.clx with syncs := [(3, 4)] }), 0, 3, 4, by decide +kernel⟩

theorem wit_FarRequestsAtRequester_e2eTimeout2 :
    ∃ (s : State) (id : Nat) (f : FarOut), s.inReset = false ∧ s.cry.halt = 0 ∧ s.cur ≠ 3 ∧ s.clx.reqs = [f] ∧ f.sent = true ∧ f.id = id ∧ (f.req.kind = .write ∨ f.req.kind = .partialWrite) ∧ s.route f.home = 1 ∧ s.clState 0 = 6 ∧ s.clx.ports.length = 2 :=
  ⟨(let s := (((portAt member 0 6 ClPort.fresh)).wr F.CLX_ROUTE_PORT 64); s.setClx { s.clx with reqs := [farReq member .write] }), 8, farReq member .write, by decide +kernel⟩

theorem wit_FarRequestsAtRequester_e2eTimeout3 :
    ∃ (s : State) (id : Nat) (f : FarOut) (tag : Nat), s.inReset = false ∧ s.cry.halt = 0 ∧ s.cur ≠ 3 ∧ s.clx.reqs = [f] ∧ f.sent = true ∧ f.id = id ∧ f.req.kind = .read ∧ s.clx.deadTags = [] ∧ s.route f.home = 1 ∧ s.clState 0 = 6 ∧ s.clx.ports.length = 2 ∧ tag = (if s.clx.nextTag % 2 ^ 16 = f.tag then s.clx.nextTag + 1 else s.clx.nextTag) % 2 ^ 16 :=
  ⟨(let s := (((portAt member 0 6 ClPort.fresh)).wr F.CLX_ROUTE_PORT 64); s.setClx { s.clx with reqs := [farReq member .read] }), 8, farReq member .read, 0, by decide +kernel⟩

theorem wit_FarRequestsAtRequester_farLimitExpiry :
    ∃ (s : State) (id : Nat) (f : FarOut) (h : Nat) (l : Nat) (tg : Nat), s.inReset = false ∧ s.cry.halt = 0 ∧ s.cur ≠ 3 ∧ s.clx.reqs = [f] ∧ f.sent = true ∧ s.dir.conflicts = [] ∧ f.req.org = .host h l tg ∧ f.id = id ∧ f.req.kind = .read :=
  ⟨asking .read, 8, farReq member .read, 0, 0, 6, by decide +kernel⟩

theorem wit_FarRequestsAtRequester_farLimitExpiry2 :
    ∃ (s : State) (id : Nat) (f : FarOut) (h : Nat) (l : Nat) (tg : Nat), s.inReset = false ∧ s.cry.halt = 0 ∧ s.cur ≠ 3 ∧ s.clx.reqs = [f] ∧ f.sent = true ∧ s.dir.conflicts = [] ∧ f.req.org = .host h l tg ∧ f.id = id ∧ (f.req.kind = .write ∨ f.req.kind = .partialWrite) ∧ f.home < 16 ∧ s.rd F.CLX_PEER_CNT_DROPPED f.home + 1 < 2 ^ F.CLX_PEER_CNT_DROPPED.width ∧ (s.rd F.RAS_LOG_PROD + 1) % 1024 ≠ s.rd F.RAS_LOG_CONS ∧ tg ≠ fwTag :=
  ⟨asking .write, 8, farReq member .write, 0, 0, 6, by decide +kernel⟩

theorem wit_RegisterAccess_registerWrite :
    ∃ (s : State) (path : Path) (addr : Nat) (value : BitVec 64) (f : Fld) (i : Nat) (k : Nat), s.rd F.AON_PWR_MODE_CUR = 0 ∧ s.aon.entry.stage = 0 ∧ s.aon.blocks = [] ∧ s.writeReachesAddr path addr = true ∧ 0x100000 ≤ addr ∧ addr < 0x1000000 ∧ 0x40 ≤ regOff (addr) ∧ addr % 8 = 0 ∧ fieldsAt (regBlk addr) (regPage addr) (regOff addr) = [(f, i, k)] ∧ s.fieldOpen path (regBlk addr) (regPage addr) f k = true ∧ f.acc = .rw ∧ f.hi < 64 ∧ f ∉ [F.ADM_SHP_RATE_RATE, F.ADM_SHP_BURST_BURST, F.EVT_ALERT_EN_SRC, F.NTC_CH_CTL_HOLD, F.BTC_SC_CTL_HOLD, F.SCR_FRAME_WM_PIN_MAX, F.RAS_LOG_CONS, F.EVT_QUEUE_HEAD, F.CLX_PORT_CTL_ENABLE] ∧ regBlk addr ≠ 4 ∧ (regBlk addr, regPage addr, regOff addr) ∉ [(9, 0, 0x48), (10, 0, 0x50), (11, 0, 0x50), (0, 0, 0x40)] ∧ s.deniedAt path (regBlk addr) (regPage addr) (regOff addr) (2 ^ 64 - 1) value.toNat = false :=
  ⟨up, .cores, 0xd00048, 77, F.RAS_RPT_WINDOW_EPOCHS, 0, 0, by decide +kernel⟩

theorem wit_RegisterAccess_registerWrite2 :
    ∃ (s : State) (value : BitVec 64), s.aon.blocks = [] ∧ s.writeReaches .cores 3 0 = true ∧ s.pageLive 3 0 = true ∧ s.deniedAt .cores 3 0 0x40 (2 ^ 64 - 1) value.toNat = false :=
  ⟨up, 0x0014000100000000, by decide +kernel⟩

theorem wit_RegisterAccess_registerWrite3 :
    ∃ (s : State) (path : Path) (addr : Nat) (value : BitVec 64) (f : Fld) (i : Nat) (k : Nat), s.rd F.AON_PWR_MODE_CUR = 0 ∧ s.aon.entry.stage = 0 ∧ s.aon.blocks = [] ∧ s.writeReachesAddr path addr = true ∧ 0x100000 ≤ addr ∧ addr < 0x1000000 ∧ 0x40 ≤ regOff (addr) ∧ addr % 8 = 0 ∧ fieldsAt (regBlk addr) (regPage addr) (regOff addr) = [(f, i, k)] ∧ f.acc = .ro ∧ s.deniedAt path (regBlk addr) (regPage addr) (regOff addr) (2 ^ 64 - 1) value.toNat = true :=
  ⟨up, .cores, 0x400058, 77, F.CLX_ORDER_ORDER, 0, 0, by decide +kernel⟩

theorem wit_RegisterAccess_registerWrite4 :
    ∃ (s : State) (path : Path) (addr : Nat) (value : BitVec 64), s.rd F.AON_PWR_MODE_CUR = 0 ∧ s.aon.entry.stage = 0 ∧ s.aon.blocks = [] ∧ s.writeReachesAddr path addr = true ∧ 0x100000 ≤ addr ∧ addr < 0x1000000 ∧ addr % 8 = 0 ∧ regOff addr = 0x38 ∧ s.pageLive (regBlk addr) (regPage addr) = true ∧ s.mayClr path (regBlk addr) (regPage addr) = true :=
  ⟨(up.wrI (F.EVT_RAW_CAUSE 3) 0 5), .cores, 0x400038, 1, by decide +kernel⟩

theorem wit_RegisterAccess_registerWrite5 :
    ∃ (s : State) (path : Path) (addr : Nat) (width : Nat) (value : BitVec 64), s.rd F.AON_PWR_MODE_CUR = 0 ∧ s.aon.entry.stage = 0 ∧ s.writeReachesAddr path addr = true ∧ widthOk addr width = false :=
  ⟨up, .cores, 0x400044, 64, 1, by decide +kernel⟩

theorem wit_RegisterAccess_registerReadClear :
    ∃ (s : State) (path : Path) (addr : Nat), s.rd F.AON_PWR_MODE_CUR = 0 ∧ s.aon.entry.stage = 0 ∧ s.aon.blocks = [] ∧ s.reachesAddr path addr = true ∧ 0x100000 ≤ addr ∧ addr < 0x1000000 ∧ 0x40 ≤ regOff (addr) ∧ addr % 8 = 0 ∧ (∀ x ∈ fieldsAt (regBlk addr) (regPage addr) (regOff addr), x.1.hi < 64) ∧ pageUsed (regBlk addr) (regPage addr) = true ∧ s.pageLost (regBlk addr) (regPage addr) = false ∧ s.pageEmpty (regBlk addr) (regPage addr) = false ∧ s.mayRead path (regBlk addr) (regPage addr) (regOff addr) = true :=
  ⟨(up.wrI F.CLX_PEER_CNT_DUP 2 9), .sideband, 0x405050, by decide +kernel⟩

theorem wit_RegisterAccess_lock :
    ∃ (s : State) (block : Nat), s.writeReaches .cores block 0 = true ∧ s.pageLive block 0 = true :=
  ⟨up, 12, by decide +kernel⟩

theorem wit_RegisterAccess_lock2 :
    ∃ (s : State) (path : Path) (block : Nat), isCores path = false ∧ s.writeReaches path block 0 = true ∧ s.rdb (F.BLK_CTL_LOCK block) = false :=
  ⟨up, .sideband, 12, by decide +kernel⟩

theorem wit_SidebandAccess_read32 :
    ∃ (s : State) (req : List (BitVec 8)) (pec : Option (BitVec 8)) (b : List Byte), s.rd F.AON_PWR_MODE_CUR = 0 ∧ s.aon.entry.stage = 0 ∧ s.aon.off = 0 ∧ s.aon.blocks = [] ∧ s.aon.accs = [] ∧ s.sbOk 1 4 req pec = true ∧ s.reachesAddr .sideband (sbAddr req) = true ∧ 0x100000 ≤ sbAddr req ∧ sbAddr req < 0x1000000 ∧ 0x40 ≤ regOff (sbAddr req) ∧ sbAddr req % 8 = 0 ∧ (∀ x ∈ fieldsAt (regBlk (sbAddr req)) (regPage (sbAddr req)) (regOff (sbAddr req)), x.1.hi < 64) ∧ pageUsed (regBlk (sbAddr req)) (regPage (sbAddr req)) = true ∧ s.pageLost (regBlk (sbAddr req)) (regPage (sbAddr req)) = false ∧ s.pageEmpty (regBlk (sbAddr req)) (regPage (sbAddr req)) = false ∧ s.mayRead .sideband (regBlk (sbAddr req)) (regPage (sbAddr req)) (regOff (sbAddr req)) = true ∧ b = leBytes 1 0 ++ leBytes 4 (s.regWord (regBlk (sbAddr req)) (regPage (sbAddr req)) (regOff (sbAddr req)) % 2 ^ 64 % 2 ^ 32) :=
  ⟨(up.wrI F.CLX_PEER_CNT_DUP 2 9), [1, 0x50, 0x50, 0x40], none, [0, 9, 0, 0, 0], by decide +kernel⟩

theorem wit_SidebandAccess_read64 :
    ∃ (s : State) (req : List (BitVec 8)) (pec : Option (BitVec 8)) (b : List Byte), s.rd F.AON_PWR_MODE_CUR = 0 ∧ s.aon.entry.stage = 0 ∧ s.aon.off = 0 ∧ s.aon.blocks = [] ∧ s.aon.accs = [] ∧ s.sbOk 2 4 req pec = true ∧ s.reachesAddr .sideband (sbAddr req) = true ∧ 0x100000 ≤ sbAddr req ∧ sbAddr req < 0x1000000 ∧ 0x40 ≤ regOff (sbAddr req) ∧ (∀ x ∈ fieldsAt (regBlk (sbAddr req)) (regPage (sbAddr req)) (regOff (sbAddr req)), x.1.hi < 64) ∧ pageUsed (regBlk (sbAddr req)) (regPage (sbAddr req)) = true ∧ s.pageLost (regBlk (sbAddr req)) (regPage (sbAddr req)) = false ∧ s.pageEmpty (regBlk (sbAddr req)) (regPage (sbAddr req)) = false ∧ s.mayRead .sideband (regBlk (sbAddr req)) (regPage (sbAddr req)) (regOff (sbAddr req)) = true ∧ b = leBytes 1 0 ++ leBytes 8 (s.regWord (regBlk (sbAddr req)) (regPage (sbAddr req)) (regOff (sbAddr req)) % 2 ^ 64) :=
  ⟨(up.wrI F.CLX_PEER_CNT_DUP 2 9), [2, 0x50, 0x50, 0x40], none, [0, 9, 0, 0, 0, 0, 0, 0, 0], by decide +kernel⟩

theorem wit_SidebandAccess_write32 :
    ∃ (s : State) (req : List (BitVec 8)) (pec : Option (BitVec 8)) (b : List Byte) (f : Fld) (i : Nat) (k : Nat), s.rd F.AON_PWR_MODE_CUR = 0 ∧ s.aon.entry.stage = 0 ∧ s.aon.off = 0 ∧ s.aon.blocks = [] ∧ s.aon.accs = [] ∧ s.sbOk 3 8 req pec = true ∧ s.writeReachesAddr .sideband (sbAddr req) = true ∧ 0x100000 ≤ sbAddr req ∧ sbAddr req < 0x1000000 ∧ 0x40 ≤ regOff (sbAddr req) ∧ sbAddr req % 8 = 0 ∧ fieldsAt (regBlk (sbAddr req)) (regPage (sbAddr req)) (regOff (sbAddr req)) = [(f, i, k)] ∧ s.fieldOpen .sideband (regBlk (sbAddr req)) (regPage (sbAddr req)) f k = true ∧ f.acc = .rw ∧ f.hi < 64 ∧ f ∉ [F.ADM_SHP_RATE_RATE, F.ADM_SHP_BURST_BURST, F.EVT_ALERT_EN_SRC, F.NTC_CH_CTL_HOLD, F.BTC_SC_CTL_HOLD, F.SCR_FRAME_WM_PIN_MAX, F.RAS_LOG_CONS, F.EVT_QUEUE_HEAD, F.CLX_PORT_CTL_ENABLE] ∧ regBlk (sbAddr req) ≠ 4 ∧ (regBlk (sbAddr req), regPage (sbAddr req), regOff (sbAddr req)) ∉ [(9, 0, 0x48), (10, 0, 0x50), (11, 0, 0x50), (0, 0, 0x40)] ∧ f.hi < 32 ∧ s.deniedAt .sideband (regBlk (sbAddr req)) (regPage (sbAddr req)) (regOff (sbAddr req)) (2 ^ 32 - 1) (numAt req 4 4) = false ∧ b = leBytes 1 0 :=
  ⟨up, [3, 0x48, 0x0, 0xd0, 9, 1, 0, 0], none, [0], F.RAS_RPT_WINDOW_EPOCHS, 0, 0, by decide +kernel⟩

theorem wit_SidebandAccess_write64 :
    ∃ (s : State) (req : List (BitVec 8)) (pec : Option (BitVec 8)) (b : List Byte) (f : Fld) (i : Nat) (k : Nat), s.rd F.AON_PWR_MODE_CUR = 0 ∧ s.aon.entry.stage = 0 ∧ s.aon.off = 0 ∧ s.aon.blocks = [] ∧ s.aon.accs = [] ∧ s.sbOk 4 12 req pec = true ∧ s.writeReachesAddr .sideband (sbAddr req) = true ∧ 0x100000 ≤ sbAddr req ∧ sbAddr req < 0x1000000 ∧ 0x40 ≤ regOff (sbAddr req) ∧ fieldsAt (regBlk (sbAddr req)) (regPage (sbAddr req)) (regOff (sbAddr req)) = [(f, i, k)] ∧ s.fieldOpen .sideband (regBlk (sbAddr req)) (regPage (sbAddr req)) f k = true ∧ f.acc = .rw ∧ f.hi < 64 ∧ f ∉ [F.ADM_SHP_RATE_RATE, F.ADM_SHP_BURST_BURST, F.EVT_ALERT_EN_SRC, F.NTC_CH_CTL_HOLD, F.BTC_SC_CTL_HOLD, F.SCR_FRAME_WM_PIN_MAX, F.RAS_LOG_CONS, F.EVT_QUEUE_HEAD, F.CLX_PORT_CTL_ENABLE] ∧ regBlk (sbAddr req) ≠ 4 ∧ (regBlk (sbAddr req), regPage (sbAddr req), regOff (sbAddr req)) ∉ [(9, 0, 0x48), (10, 0, 0x50), (11, 0, 0x50), (0, 0, 0x40)] ∧ s.deniedAt .sideband (regBlk (sbAddr req)) (regPage (sbAddr req)) (regOff (sbAddr req)) (2 ^ 64 - 1) (numAt req 4 8) = false ∧ b = leBytes 1 0 :=
  ⟨up, [4, 0x48, 0x0, 0xd0, 9, 1, 0, 0, 0, 0, 0, 0], none, [0], F.RAS_RPT_WINDOW_EPOCHS, 0, 0, by decide +kernel⟩

theorem wit_SidebandAccess_read642 :
    ∃ (s : State) (req : List (BitVec 8)) (pec : Option (BitVec 8)) (b : List Byte), s.rd F.AON_PWR_MODE_CUR = 0 ∧ s.aon.entry.stage = 0 ∧ s.aon.off = 0 ∧ s.aon.blocks = [] ∧ s.aon.accs = [] ∧ s.sbOk 2 4 req pec = false ∧ b = leBytes 1 2 ++ List.replicate 8 0 :=
  ⟨up, [2, 0x54, 0x50, 0x40], none, [2, 0, 0, 0, 0, 0, 0, 0, 0], by decide +kernel⟩

theorem wit_SidebandAccess_write322 :
    ∃ (s : State) (req : List (BitVec 8)) (pec : Option (BitVec 8)) (b : List Byte), s.rd F.AON_PWR_MODE_CUR = 0 ∧ s.aon.entry.stage = 0 ∧ s.aon.off = 0 ∧ s.aon.blocks = [] ∧ s.aon.accs = [] ∧ s.sbOk 3 8 req pec = true ∧ s.writeReachesAddr .sideband (sbAddr req) = false ∧ b = leBytes 1 3 :=
  ⟨(up.setCry { up.cry with halt := 4 }), [3, 0x48, 0x0, 0xd0, 9, 1, 0, 0], none, [3], by decide +kernel⟩

theorem wit_MisalignedAccess_registerWrite :
    ∃ (s : State) (path : Path) (addr : Nat) (width : Nat) (value : BitVec 64), s.writeReachesAddr path addr = true ∧ s.rd F.AON_PWR_MODE_CUR = 0 ∧ s.aon.entry.stage = 0 ∧ widthOk addr width = false ∧ (∀ c ∈ List.range 6, s.pmuSelects F.AON_GLB_ACCERR_WIDTH 0 0 none c = false) :=
  ⟨up, .cores, 0x400044, 64, 1, by decide +kernel⟩

theorem wit_MisalignedAccess_registerReadClear :
    ∃ (s : State) (path : Path) (addr : Nat) (width : Nat), s.reachesAddr path addr = true ∧ s.rd F.AON_PWR_MODE_CUR = 0 ∧ s.aon.entry.stage = 0 ∧ widthOk addr width = false ∧ (∀ c ∈ List.range 6, s.pmuSelects F.AON_GLB_ACCERR_WIDTH 0 0 none c = false) :=
  ⟨up, .sideband, 0x405052, 32, by decide +kernel⟩

theorem wit_KeyTagSwitch_registerWrite :
    ∃ (s : State) (h : Nat) (value : BitVec 64), h < 16 ∧ s.vk4 = false ∧ s.aon.blocks = [] ∧ s.writeReaches .cores 6 65 = true ∧ s.pageLive 6 65 = true :=
  ⟨up, 3, 3, by decide +kernel⟩

/-! ## Witnesses of the general statements -/

theorem wit_StepKeepsCanonical :
    ∃ s t : State, Canonical s ∧ step s = .next t := by
  refine ⟨State.reset, State.reset, ?_, rfl⟩
  unfold Canonical
  decide

theorem wit_ExecKeepsQueue : ∃ (c : Instr) (s t : State), exec c s = .next t :=
  ⟨.ringPeriodic, State.reset, State.reset, rfl⟩

/-- A message of each shape. -/
def msg0 : Msg :=
  { op := 0x03, dst := 15, src := 7, cls := 9, ttl := 15, key := 63, poison := true, tag := 65535, stat := 255,
    line := 2 ^ 38 - 1, seq := 2 ^ 32 - 1, data := 5, be := 3 }

theorem wit_MessageRoundTrip : ∃ ms : List Msg, ms ≠ [] ∧ ∀ m ∈ ms, m.wf = true :=
  ⟨[msg0, { msg0 with op := 0x12, data := 0, be := 0 }], by simp, by decide +kernel⟩

theorem wit_TmeRoundTrip : ∃ t : Tme, t.wf = true := ⟨{ tile0 with loc := 2 ^ 37 - 1, near := 2 ^ 24 - 1 }, by decide⟩

theorem wit_KeyTagSwitch_native : ∃ (s : State) (h dpa : Nat), s.vk4 = false ∧ s.tagBitsOk h dpa = true :=
  ⟨up, 0, 4096, by decide⟩

theorem wit_KeyTagSwitch_vk4 : ∃ (s : State) (h : Nat), s.vk4 = true ∧ s.rd F.TMU_HEAD_TAG_KEY_EN 0 h = 1 :=
  ⟨(up.wr F.CRY_MODE_MODE 1).wrAt F.TMU_HEAD_TAG_KEY_EN 0 3 1, 3, by decide⟩

/-- A far read behind a far write of its line. -/
def behind : State :=
  member.setClx { member.clx with reqs := [farReq member .write, { farReq member .read with id := 9, sent := false }] }

theorem wit_FarReadWaits :
    ∃ (s : State) (f g : FarOut), (s.clx.reqs.map (·.id)).Nodup ∧ f ∈ s.clx.reqs ∧ f.sent = false ∧ f.isWrite = false ∧
      g ∈ s.clx.reqs ∧ g.isWrite = true ∧ g.home = f.home ∧ g.slot = f.slot ∧ g.line = f.line ∧ g.id < f.id :=
  ⟨behind, { farReq member .read with id := 9, sent := false }, farReq member .write, by decide +kernel⟩

theorem wit_FarReadWaits_free :
    ∃ (s : State) (f : FarOut), f.isWrite = false ∧
      (∀ g ∈ s.clx.reqs, g.isWrite = true → ¬ (g.home = f.home ∧ g.slot = f.slot ∧ g.line = f.line ∧ g.id < f.id)) ∧
      (s.route f.home = 1 ∨ s.route f.home = 2) ∧ mget s.clx.held f.home = none ∧ s.farSent.length < 2048 :=
  ⟨asking .read |>.wr F.CLX_ROUTE_PORT 64, farReq member .read, by decide +kernel⟩

theorem wit_StepRunsFront : ∃ (c : Instr) (s t : State), step { s with pending := c :: s.pending } = .next t :=
  ⟨.ringPeriodic, State.reset, State.reset, rfl⟩

end Sys2Proof.Tests
end

section
/-!
PROOFS of O49, O50 and O60: register accesses over the paths and over the sideband, and the values at reset. First the
rules of the shared operations of Machine/RegAccess.lean, then each statement from them.
-/
namespace Sys2Proof.Machine
open Sys2Proof.Safety

/-! ## What comes before an access -/

theorem State.wake_of_stage_zero (s : State) (code : Nat) (h : s.aon.entry.stage = 0) : s.wake code = s := by
  simp [State.wake, h]

/-- In P0 with no entry under way an access wakes nothing. -/
theorem State.regKnock_of_idle (s : State) (p : Path) (hcur : s.rd F.AON_PWR_MODE_CUR = 0)
    (hst : s.aon.entry.stage = 0) : s.regKnock p = s := by
  cases p with
  | ld h l => simp [State.regKnock, State.rouse, State.cur, hcur, hst]
  | sideband => simp [State.regKnock, State.knock, s.wake_of_stage_zero 3 hst, State.cur, hcur]
  | cores => rfl

theorem State.blockBusy_of_no_reset (s : State) (addr width : Nat) (h : s.aon.blocks = []) :
    s.blockBusy addr width = false := by
  simp [State.blockBusy, h]

theorem State.blockBusy_of_bad_width (s : State) (addr width : Nat) (h : widthOk addr width = false) :
    s.blockBusy addr width = false := by
  simp [State.blockBusy, h]

theorem State.dropReply_of_no_accs (s : State) (h : s.aon.accs = []) : s.dropReply = s := by
  simp [State.dropReply, h]

/-! ## The shadow of a 32-bit read: part of HLX's data, which no register rule looks at -/

@[simp] theorem State.rd_dropShadow (s : State) (p : Path) (f : Fld) (i k : Nat) :
    (s.dropShadow p).rd f i k = s.rd f i k := rfl
@[simp] theorem State.deniedAt_dropShadow (s : State) (p q : Path) (blk page off m d : Nat) :
    (s.dropShadow q).deniedAt p blk page off m d = s.deniedAt p blk page off m d := rfl

/-! ## The tables of fields -/

/-- Every row of a block's table names the block and has its bits in order; a read-clear field returns to 0 at reset. -/
theorem blockTable_rows : ∀ b < 15, ∀ f ∈ blockTable b,
    f.blk = b ∧ f.lo ≤ f.hi ∧ (f.acc = .rc → f.rst = 0 ∧ f.dyn ≠ 1) := by
  decide

theorem mem_blockTable_of_mem_fieldsAt {blk page off : Nat} {x : Fld × Nat × Nat} (h : x ∈ fieldsAt blk page off) :
    x.1 ∈ blockTable blk := by
  obtain ⟨f, hf, hx⟩ := List.mem_filterMap.1 h
  obtain ⟨y, -, rfl⟩ := Option.map_eq_some_iff.1 hx
  exact hf

theorem lo_le_hi_of_mem_fieldsAt {blk page off : Nat} {x : Fld × Nat × Nat} (hb : blk < 15)
    (h : x ∈ fieldsAt blk page off) : x.1.lo ≤ x.1.hi :=
  (blockTable_rows blk hb _ (mem_blockTable_of_mem_fieldsAt h)).2.1

theorem rstAt_of_rc_mem_fieldsAt {blk page off : Nat} {x : Fld × Nat × Nat} (hb : blk < 15)
    (h : x ∈ fieldsAt blk page off) (hrc : x.1.acc = .rc) (i k : Nat) : x.1.rstAt i k = 0 := by
  obtain ⟨-, -, hr⟩ := blockTable_rows blk hb _ (mem_blockTable_of_mem_fieldsAt h)
  simp [Fld.rstAt, hr hrc]

/-! ## A field under a mask of the register's n low bits -/

theorem Fld.mask_ne_zero {f : Fld} (h : f.lo ≤ f.hi) : f.mask ≠ 0 := by
  have : 2 ^ f.lo < 2 ^ (f.hi + 1) := Nat.pow_lt_pow_right (by omega) (by omega)
  unfold Fld.mask; omega

theorem Fld.mask_and_low {f : Fld} {n : Nat} (h : f.hi < n) : f.mask &&& (2 ^ n - 1) = f.mask := by
  have h1 : 2 ^ (f.hi + 1) ≤ 2 ^ n := Nat.pow_le_pow_right (by omega) (by omega)
  have h2 : 0 < 2 ^ f.lo := Nat.two_pow_pos _
  have h3 : 0 < 2 ^ (f.hi + 1) := Nat.two_pow_pos _
  rw [Nat.and_two_pow_sub_one_eq_mod, Nat.mod_eq_of_lt]
  unfold Fld.mask; omega

/-- A write that covers a field whole leaves nothing of its old value. -/
theorem Fld.merged_of_covered {f : Fld} {n : Nat} (old d : Nat) (hn : n ≤ 64) (hlo : f.lo ≤ f.hi) (hhi : f.hi < n) :
    f.merged old (2 ^ n - 1) d = d / 2 ^ f.lo % 2 ^ f.width := by
  refine Nat.eq_of_testBit_eq fun j => ?_
  by_cases hj : j < f.width
  · have h1 : j + f.lo < n := by unfold Fld.width at hj; omega
    have h2 : j + f.lo < 64 := by omega
    simp only [Fld.merged, Nat.testBit_mod_two_pow, Nat.testBit_div_two_pow, Nat.testBit_or, Nat.testBit_and,
      Nat.testBit_xor, Nat.testBit_two_pow_sub_one, hj, h1, h2, decide_true, bne_self_eq_false, Bool.and_false,
      Bool.false_or, Bool.and_true, Bool.true_and]
  · simp [Fld.merged, Nat.testBit_mod_two_pow, hj]

/-! ## Writes beyond the header -/

/-- The fields whose store does something beside storing. -/
def sideStores : List Fld :=
  [F.ADM_SHP_RATE_RATE, F.ADM_SHP_BURST_BURST, F.EVT_ALERT_EN_SRC, F.NTC_CH_CTL_HOLD, F.BTC_SC_CTL_HOLD,
   F.SCR_FRAME_WM_PIN_MAX, F.RAS_LOG_CONS, F.EVT_QUEUE_HEAD, F.CLX_PORT_CTL_ENABLE]

theorem State.store_of_plain (s : State) (p : Path) {f : Fld} (i k v : Nat) (h : f ∉ sideStores) :
    s.store p f i k v = s.wrAt f i k v := by
  simp only [sideStores, List.mem_cons, List.not_mem_nil, or_false, not_or] at h
  obtain ⟨h1, h2, h3, h4, h5, h6, h7, h8, h9⟩ := h
  rw [State.store, if_neg h1, if_neg h2, if_neg h3, if_neg h4, if_neg h5, if_neg h6, if_neg h7, if_neg h8, if_neg h9]

/-- A register outside ADM that no clamp orders field against field has nothing to settle. -/
theorem State.settle_of_other (s : State) {blk page off : Nat} (hadm : blk ≠ 4)
    (h : (blk, page, off) ∉ [(9, 0, 0x48), (10, 0, 0x50), (11, 0, 0x50), (0, 0, 0x40)]) :
    s.settle blk page off = s := by
  simp only [List.mem_cons, Prod.mk.injEq, List.not_mem_nil, or_false, not_or] at h
  obtain ⟨h1, h2, h3, h4⟩ := h
  simp only [State.settle, hadm, h1, h2, h3, h4, false_and, if_false]

/-- A field that is RW, open to path p and covered by the register's n low bits, and whose store only stores. -/
structure PlainRw (s : State) (p : Path) (blk page n : Nat) (x : Fld × Nat × Nat) : Prop where
  opened : s.fieldOpen p blk page x.1 x.2.2 = true
  acc_eq : x.1.acc = .rw
  lo_le_hi : x.1.lo ≤ x.1.hi
  covered : x.1.hi < n
  plain : x.1 ∉ sideStores

/-- A write that covers a register's n low bits stores into each of its fields the clamped value written, when the fields
are plain RW ones and the register has nothing to settle. -/
theorem State.writeFields_of_plain {s : State} {p : Path} {blk page off n : Nat} (d : Nat) (hn : n ≤ 64)
    (hf : ∀ x ∈ fieldsAt blk page off, PlainRw s p blk page n x)
    (hs : ∀ t : State, t.settle blk page off = t) :
    s.writeFields p blk page off (2 ^ n - 1) d =
      (fieldsAt blk page off).foldl
        (fun t x => t.wrAt x.1 x.2.1 x.2.2 (t.clamped x.1 x.2.1 (d / 2 ^ x.1.lo % 2 ^ x.1.width))) s := by
  have hopen : s.openFields p blk page off (2 ^ n - 1) = fieldsAt blk page off := by
    refine List.filter_eq_self.2 fun x hx => ?_
    have h := hf x hx
    simp [Fld.mask_and_low h.covered, Fld.mask_ne_zero h.lo_le_hi, h.opened]
  have hstores : (fieldsAt blk page off).filter (fun x => x.1.stores &&
      decide (x.1.mask &&& (2 ^ n - 1) = x.1.mask ∨ ¬ (x.1.lo ≤ 31 ∧ 32 ≤ x.1.hi))) = fieldsAt blk page off := by
    refine List.filter_eq_self.2 fun x hx => ?_
    have h := hf x hx
    simp [Fld.stores, h.acc_eq, Fld.mask_and_low h.covered]
  have hw1c : (fieldsAt blk page off).filter (fun x => decide (x.1.acc = .w1c)) = [] :=
    List.filter_eq_nil_iff.2 fun x hx => by simp [(hf x hx).acc_eq]
  have hwo : (fieldsAt blk page off).filter
      (fun x => decide (x.1.acc = .wo ∧ x.1.mask &&& (2 ^ n - 1) = x.1.mask)) = [] :=
    List.filter_eq_nil_iff.2 fun x hx => by simp [(hf x hx).acc_eq]
  simp only [State.writeFields, hopen, hstores, hw1c, hwo, hs, ite_self, List.foldl_nil, List.any_nil]
  refine List.foldl_ext _ _ _ fun t x hx => ?_
  have h := hf x hx
  rw [State.store_of_plain _ _ _ _ _ h.plain, Fld.merged_of_covered _ _ hn h.lo_le_hi h.covered]

/-- A write changes nothing in a register of RO fields. -/
theorem State.writeFields_of_ro (s : State) (p : Path) {blk page off : Nat} (m d : Nat)
    (hf : ∀ x ∈ fieldsAt blk page off, x.1.acc = .ro) : s.writeFields p blk page off m d = s := by
  have hopen : s.openFields p blk page off m = [] :=
    List.filter_eq_nil_iff.2 fun x hx => by simp [State.fieldOpen, Fld.strobes, hf x hx]
  simp [State.writeFields, hopen]

/-! ## Access to the block windows -/

/-- The address of a register beyond the page header, in the block windows (R535, R536). -/
structure FieldAddr (addr : Nat) : Prop where
  low : 0x100000 ≤ addr
  high : addr < 0x1000000
  beyond : 0x40 ≤ regOff addr

theorem widthOk_64 {addr : Nat} (h : addr % 8 = 0) : widthOk addr 64 = true :=
  decide_eq_true (.inr ⟨rfl, h⟩)

theorem widthOk_32_low {addr : Nat} (h : addr % 8 = 0) : widthOk addr 32 = true :=
  decide_eq_true (.inl ⟨rfl, by omega⟩)

theorem accMask_64 (addr : Nat) : accMask addr 64 = 2 ^ 64 - 1 := rfl

theorem accMask_32_low {addr : Nat} (h : addr % 8 = 0) : accMask addr 32 = 2 ^ 32 - 1 := by
  simp [accMask, h]

theorem accData_64 {addr v : Nat} (h : v < 2 ^ 64) : accData addr 64 v = v := Nat.mod_eq_of_lt h

theorem accData_32_low {addr v : Nat} (h : addr % 8 = 0) (hv : v < 2 ^ 32) : accData addr 32 v = v := by
  simpa [accData, h] using hv

theorem regBlk_lt {addr : Nat} (h : addr < 0x1000000) : regBlk addr < 15 := by
  unfold regBlk; omega

theorem State.writeAny_of_bad_width (s : State) (p : Path) {addr width : Nat} (v : Nat)
    (hw : widthOk addr width = false) : s.writeAny p addr width v = s.badWidth := by
  simp [State.writeAny, hw]

theorem State.writeAny_window (s : State) (p : Path) {addr width : Nat} (v : Nat) (hw : widthOk addr width = true)
    (hlo : 0x100000 ≤ addr) (hhi : addr < 0x1000000) :
    s.writeAny p addr width v = (s.dropShadow p).writeReg p addr width v := by
  have hbar : ¬ bar2Base ≤ addr := Nat.not_le.2 hhi
  simp [State.writeAny, hw, Nat.not_lt.2 hlo, hbar]

theorem State.readAny_window (s : State) (p : Path) {addr width : Nat} (hw : widthOk addr width = true)
    (hlo : 0x100000 ≤ addr) (hhi : addr < 0x1000000) : s.readAny p addr width = s.readReg p addr width := by
  have hbar : ¬ bar2Base ≤ addr := Nat.not_le.2 hhi
  simp [State.readAny, hw, Nat.not_lt.2 hlo, hbar]

/-- A write beyond the header: counted when it is denied, then done field by field. -/
theorem State.writeAny_fields (s : State) (p : Path) {addr width n v : Nat} (hw : widthOk addr width = true)
    (ha : FieldAddr addr) (hm : accMask addr width = 2 ^ n - 1) (hd : accData addr width v = v) :
    s.writeAny p addr width v =
      State.writeFields (if s.deniedAt p (regBlk addr) (regPage addr) (regOff addr) (2 ^ n - 1) v
        then (s.dropShadow p).denied p else s.dropShadow p)
        p (regBlk addr) (regPage addr) (regOff addr) (2 ^ n - 1) v := by
  have hoff : ¬ (regOff addr < 0x40 ∧ pageUsed (regBlk addr) (regPage addr) = true) :=
    fun h => absurd h.1 (Nat.not_lt.2 ha.beyond)
  rw [State.writeAny_window s p v hw ha.low ha.high]
  simp only [State.writeReg, if_neg hoff, hm, hd, State.deniedAt_dropShadow]

/-- A write that is not denied stores the clamped value in a register's only field, when it is a plain RW one. -/
theorem State.writeAny_single {s : State} {p : Path} {addr width n v : Nat} {f : Fld} {i k : Nat} (hn : n ≤ 64)
    (hw : widthOk addr width = true) (ha : FieldAddr addr) (hm : accMask addr width = 2 ^ n - 1)
    (hd : accData addr width v = v)
    (hat : fieldsAt (regBlk addr) (regPage addr) (regOff addr) = [(f, i, k)])
    (hopen : s.fieldOpen p (regBlk addr) (regPage addr) f k = true) (hrw : f.acc = .rw) (hhi : f.hi < n)
    (hplain : f ∉ sideStores) (hadm : regBlk addr ≠ 4)
    (hset : (regBlk addr, regPage addr, regOff addr) ∉ [(9, 0, 0x48), (10, 0, 0x50), (11, 0, 0x50), (0, 0, 0x40)])
    (hden : s.deniedAt p (regBlk addr) (regPage addr) (regOff addr) (2 ^ n - 1) v = false) :
    s.writeAny p addr width v = (s.dropShadow p).wrAt f i k (s.clamped f i (v / 2 ^ f.lo % 2 ^ f.width)) := by
  have hlo : f.lo ≤ f.hi :=
    lo_le_hi_of_mem_fieldsAt (x := (f, i, k)) (regBlk_lt ha.high) (by rw [hat]; exact List.mem_singleton_self _)
  have hf : ∀ x ∈ fieldsAt (regBlk addr) (regPage addr) (regOff addr),
      PlainRw (s.dropShadow p) p (regBlk addr) (regPage addr) n x := by
    intro x hx
    obtain rfl := List.mem_singleton.1 (hat ▸ hx)
    exact ⟨hopen, hrw, hlo, hhi, hplain⟩
  rw [s.writeAny_fields p hw ha hm hd, hden, if_neg Bool.false_ne_true,
    State.writeFields_of_plain v hn hf fun t => t.settle_of_other hadm hset, hat]
  rfl

/-! ## Denied and misaligned accesses are counted -/

/-- What a saturating counter field reads after it advanced, for a field outside the PMU's block. -/
theorem State.rd_bump_sat (s : State) (f : Fld) (i k n : Nat) (cls : Option Nat) (hf : f.blk < 14)
    (hk : ¬ InBlock 14 (f.key i k)) :
    (s.bump f i k n cls true).rd f i k = min (2 ^ f.width - 1) (s.rd f i k + n) := by
  have hpos : 0 < 2 ^ f.width := Nat.two_pow_pos _
  have h1 : onlyRegs (InBlock 14) (s.wrAt f i k (counterNext f s.draw (s.rd f i k) n true))
      (s.bump f i k n cls true) :=
    (onlyRegs.pmuAdvance _ _ f i k n cls hf (fun _ x => x)).trans (onlyRegs.copyAdvance _ _ f i k n)
  rw [h1.rd f i k hk, State.rd_wrAt_same, counterNext]
  split
  · rw [Nat.mod_eq_of_lt (by assumption)]; omega
  · rw [if_pos rfl, Nat.mod_eq_of_lt (by omega)]; omega

theorem State.rd_badWidth_width (s : State) :
    s.badWidth.rd F.AON_GLB_ACCERR_WIDTH =
      min (2 ^ F.AON_GLB_ACCERR_WIDTH.width - 1) (s.rd F.AON_GLB_ACCERR_WIDTH + 1) :=
  s.rd_bump_sat _ _ _ _ _ (by decide) (by decide)

theorem State.rd_denied_denied (s : State) (p : Path) :
    (s.denied p).rd F.AON_GLB_ACCERR_DENIED =
      min (2 ^ F.AON_GLB_ACCERR_DENIED.width - 1) (s.rd F.AON_GLB_ACCERR_DENIED + 1) := by
  rw [State.denied, State.rd_wr_ne _ _ _ _ _ _ (by decide), State.rd_wr_ne _ _ _ _ _ _ (by decide)]
  exact s.rd_bump_sat _ _ _ _ _ (by decide) (by decide)

theorem State.rd_denied_last_path (s : State) (p : Path) :
    (s.denied p).rd F.AON_GLB_ACCERR_LAST_PATH = pathCode p % 2 ^ F.AON_GLB_ACCERR_LAST_PATH.width := by
  rw [State.denied, State.rd_wr_ne _ _ _ _ _ _ (by decide), State.rd_wr_same]

theorem State.rd_denied_last_ld (s : State) (p : Path) :
    (s.denied p).rd F.AON_GLB_ACCERR_LAST_LD = pathLd p % 2 ^ F.AON_GLB_ACCERR_LAST_LD.width :=
  State.rd_wr_same _ _ _

/-- A PMU counter that advances changes its count, its overflow bit and its cause. -/
theorem onlyRegs.pmuCount_of_keys (K : Nat → Prop) (s : State) (b k n : Nat) (h1 : K (F.PMU_CNT_COUNT.key b k))
    (h2 : K (F.PMU_OVF_OVF.key b 0)) (h3 : K ((F.EVT_RAW_CAUSE 14).key 14 0)) : onlyRegs K s (s.pmuCount b k n) := by
  have hcount := fun v => onlyRegs.wrAt K s F.PMU_CNT_COUNT b k v h1
  have hovf := fun t v => onlyRegs.wrAt K t F.PMU_OVF_OVF b 0 v h2
  simp only [State.pmuCount]
  split
  · exact hcount _
  · split
    · exact ((hcount _).trans (hovf _ _)).trans (onlyRegs.raise K _ ⟨14, 14, 1, 255⟩ none none [] h3)
    · exact (hcount _).trans (hovf _ _)

/-- No key of a BLK_CTL: its offset in the page is not 0x18. -/
abbrev OffBlkCtl (key : Nat) : Prop := key / 64 % 0x1000 ≠ 0x18

/-- Counting a denied access leaves every LOCK bit, the PMU's own among them. -/
theorem State.rd_denied_lock (s : State) (p : Path) (block : Nat) :
    (s.denied p).rd (F.BLK_CTL_LOCK block) = s.rd (F.BLK_CTL_LOCK block) := by
  have hlock : ¬ OffBlkCtl ((F.BLK_CTL_LOCK block).key 0 0) := by
    simp only [OffBlkCtl, Fld.key, Fld.addr, F.BLK_CTL_LOCK]; omega
  have hcount : ∀ k < 6, OffBlkCtl (F.PMU_CNT_COUNT.key 0 k) := by decide
  have hadv : ∀ t : State, onlyRegs OffBlkCtl t (t.pmuAdvance F.AON_GLB_ACCERR_DENIED 0 0 1 none) := by
    refine fun t => onlyRegs.foldl _ _ _ t fun u c hc => ?_
    split
    · exact onlyRegs.pmuCount_of_keys _ u _ c 1 (hcount c (List.mem_range.1 hc)) (by decide) (by decide)
    · exact onlyRegs.refl _ u
  have hall : onlyRegs OffBlkCtl s (s.denied p) :=
    ((((onlyRegs.wrAt _ s _ _ _ _ (by decide)).trans (hadv _)).trans (onlyRegs.copyAdvance _ _ _ _ _ _)).trans
      (onlyRegs.wrAt _ _ _ _ _ _ (by decide))).trans (onlyRegs.wrAt _ _ _ _ _ _ (by decide))
  exact hall.rd _ _ _ hlock

/-! ## Read-clear fields -/

/-- One RC field is cleared; the count of an AES pipe's work starts anew. -/
def State.clearRcField (s : State) (x : Fld × Nat × Nat) : State :=
  let s1 := if x.1 = F.CRY_PIPE_WORK_UNITS then
      s.setCry { s.cry with marks := mput s.cry.marks x.2.1 s.cry.lines }
    else s
  s1.wrAt x.1 x.2.1 x.2.2 0

theorem State.clearRc_eq_foldl (s : State) (blk page off m : Nat) :
    s.clearRc blk page off m =
      ((fieldsAt blk page off).filter (fun x => decide (x.1.acc = .rc ∧ x.1.mask &&& m = x.1.mask))).foldl
        State.clearRcField s := rfl

/-- A field whose reset value is 0 is unlisted once it is cleared, and what was unlisted stays so. -/
theorem State.mget_clearRcField (s : State) (x : Fld × Nat × Nat) (hr : x.1.rstAt x.2.1 x.2.2 = 0) (key : Nat)
    (h : key = x.1.key x.2.1 x.2.2 ∨ mget s.regs key = none) : mget (s.clearRcField x).regs key = none := by
  have hregs : (s.clearRcField x).regs = mdel s.regs (x.1.key x.2.1 x.2.2) := by
    simp only [State.clearRcField, State.wrAt, hr, mset, Nat.zero_mod, if_true]
    split <;> rfl
  rw [hregs]
  by_cases hkey : key = x.1.key x.2.1 x.2.2
  · rw [hkey]; exact mget_mdel_same _ _
  · rw [mget_mdel_ne _ hkey]; exact h.resolve_left hkey

theorem State.mget_foldl_clearRcField (l : List (Fld × Nat × Nat)) (s : State)
    (hr : ∀ x ∈ l, x.1.rstAt x.2.1 x.2.2 = 0) (key : Nat)
    (h : (∃ x ∈ l, key = x.1.key x.2.1 x.2.2) ∨ mget s.regs key = none) :
    mget (l.foldl State.clearRcField s).regs key = none := by
  induction l generalizing s with
  | nil => simpa using h
  | cons y l ih =>
    refine ih _ (fun x hx => hr x (List.mem_cons_of_mem _ hx)) ?_
    have hy := s.mget_clearRcField y (hr y List.mem_cons_self) key
    rcases h with ⟨x, hx, hkey⟩ | hnone
    · rcases List.mem_cons.1 hx with rfl | hx
      · exact .inr (hy (.inl hkey))
      · exact .inl ⟨x, hx, hkey⟩
    · exact .inr (hy (.inr hnone))

/-- A read that covers a register whole leaves its RC fields at 0. -/
theorem State.rd_clearRc_of_rc (s : State) {blk page off : Nat} (hb : blk < 15) {x : Fld × Nat × Nat}
    (hx : x ∈ fieldsAt blk page off) (hrc : x.1.acc = .rc) (hhi : x.1.hi < 64) :
    (s.clearRc blk page off (2 ^ 64 - 1)).rd x.1 x.2.1 x.2.2 = 0 := by
  have hnone : mget (s.clearRc blk page off (2 ^ 64 - 1)).regs (x.1.key x.2.1 x.2.2) = none := by
    rw [State.clearRc_eq_foldl]
    refine State.mget_foldl_clearRcField _ s (fun y hy => ?_) _ (.inl ⟨x, ?_, rfl⟩)
    · obtain ⟨hy, hc⟩ := List.mem_filter.1 hy
      exact rstAt_of_rc_mem_fieldsAt hb hy (of_decide_eq_true hc).1 _ _
    · exact List.mem_filter.2 ⟨hx, decide_eq_true ⟨hrc, Fld.mask_and_low hhi⟩⟩
  rw [State.rd, mgetD, hnone]
  exact rstAt_of_rc_mem_fieldsAt hb hx hrc _ _

/-- The state that a read of a whole register leaves: its RC fields cleared, the path's shadow dropped. -/
def State.afterRead (s : State) (p : Path) (addr : Nat) : State :=
  (s.dropShadow p).clearRc (regBlk addr) (regPage addr) (regOff addr) (2 ^ 64 - 1)

theorem State.rd_afterRead_of_rc (s : State) (p : Path) {addr : Nat} (ha : addr < 0x1000000)
    (hhi : ∀ x ∈ fieldsAt (regBlk addr) (regPage addr) (regOff addr), x.1.hi < 64) :
    ∀ x ∈ fieldsAt (regBlk addr) (regPage addr) (regOff addr), x.1.acc = .rc →
      (s.afterRead p addr).rd x.1 x.2.1 x.2.2 = 0 :=
  fun x hx hrc => State.rd_clearRc_of_rc _ (regBlk_lt ha) hx hrc (hhi x hx)

/-- A 64-bit read of a register that the path may read. -/
theorem State.readAny64 (s : State) (p : Path) {addr : Nat} (hal : addr % 8 = 0) (hlo : 0x100000 ≤ addr)
    (hhi : addr < 0x1000000) (hmay : s.mayRead p (regBlk addr) (regPage addr) (regOff addr) = true) :
    s.readAny p addr 64 =
      (s.regWord (regBlk addr) (regPage addr) (regOff addr) % 2 ^ 64, s.afterRead p addr) := by
  rw [s.readAny_window p (widthOk_64 hal) hlo hhi]
  simp only [State.readReg, hmay, Bool.not_true, if_true]
  rfl

/-- A 32-bit read of a register's low half clears the whole register and keeps the high half in the path's shadow. -/
theorem State.readAny32_low (s : State) (p : Path) {addr : Nat} (hal : addr % 8 = 0) (hlo : 0x100000 ≤ addr)
    (hhi : addr < 0x1000000) (hmay : s.mayRead p (regBlk addr) (regPage addr) (regOff addr) = true) :
    ∃ x, s.readAny p addr 32 =
      (s.regWord (regBlk addr) (regPage addr) (regOff addr) % 2 ^ 64 % 2 ^ 32, (s.afterRead p addr).setHlx x) := by
  rw [s.readAny_window p (widthOk_32_low hal) hlo hhi]
  simp only [State.readReg, hmay, hal, Bool.not_true, if_true]
  exact ⟨_, rfl⟩

end Sys2Proof.Machine

namespace Sys2Proof.Safety
open Sys2Proof.Machine

/-! ## Frames of register accesses -/

theorem Frame.dropShadow {P : List Part} {K : Nat → Prop} {s t : State} (h : Frame P K s t) (p : Path)
    (hp : .hlx ∈ P) : Frame P K s (t.dropShadow p) := h.setHlx _ hp

theorem Frame.of_wrAt_dropShadow (P : List Part) (s : State) (p : Path) (f : Fld) (i k v : Nat) (hp : .hlx ∈ P) :
    Frame P (fun key => key = f.key i k) s ((s.dropShadow p).wrAt f i k v) :=
  ((Frame.refl _ _ s).dropShadow p hp).wrAt f i k v (.inl rfl)

theorem Frame.badWidth (s : State) :
    Frame [.evt] (fun key => key = F.AON_GLB_ACCERR_WIDTH.key 0 0) s s.badWidth :=
  (Frame.refl _ _ s).bump _ _ _ _ _ _ (by decide) (by decide) (.inl rfl)

theorem Frame.denied {P : List Part} {s t : State} {K : Nat → Prop} (h : Frame P K s t) (p : Path) (he : .evt ∈ P)
    (h1 : K (F.AON_GLB_ACCERR_DENIED.key 0 0)) (h2 : K (F.AON_GLB_ACCERR_LAST_PATH.key 0 0))
    (h3 : K (F.AON_GLB_ACCERR_LAST_LD.key 0 0)) : Frame P K s (t.denied p) :=
  ((h.bump _ _ _ _ _ _ he (by decide) (.inl h1)).wr _ _ (.inl h2)).wr _ _ (.inl h3)

theorem Frame.clearRcField {P : List Part} {K : Nat → Prop} {s t : State} (h : Frame P K s t) (x : Fld × Nat × Nat)
    (hc : .cry ∈ P) (hk : K (x.1.key x.2.1 x.2.2)) : Frame P K s (t.clearRcField x) :=
  (h.trans (Frame.ite _ (fun _ => (Frame.refl P K t).setCry _ hc) (fun _ => Frame.refl P K t))).wrAt _ _ _ _ (.inl hk)

theorem Frame.clearRc {P : List Part} {K : Nat → Prop} {s t : State} (h : Frame P K s t) (blk page off m : Nat)
    (hc : .cry ∈ P) (hk : ∀ x ∈ fieldsAt blk page off, K (x.1.key x.2.1 x.2.2)) :
    Frame P K s (t.clearRc blk page off m) :=
  h.trans (Frame.foldl _ _ t fun u x hx =>
    (Frame.refl P K u).clearRcField x hc (hk x (List.mem_of_mem_filter hx)))

theorem Frame.afterRead (s : State) (p : Path) (addr : Nat) :
    Frame [.hlx, .cry] (fun key => ∃ x ∈ fieldsAt (regBlk addr) (regPage addr) (regOff addr),
      key = x.1.key x.2.1 x.2.2) s (s.afterRead p addr) :=
  ((Frame.refl _ _ s).dropShadow p (by decide)).clearRc _ _ _ _ (by decide) fun x hx => ⟨x, hx, rfl⟩

end Sys2Proof.Safety

namespace Sys2Proof.Machine
open Sys2Proof.Safety

/-! ## What a read leaves -/

@[simp] theorem State.afterRead_out (s : State) (p : Path) (addr : Nat) : (s.afterRead p addr).out = s.out :=
  (Frame.afterRead s p addr).1 .out (by decide)

@[simp] theorem State.afterRead_straps (s : State) (p : Path) (addr : Nat) :
    (s.afterRead p addr).straps = s.straps :=
  (Frame.afterRead s p addr).1 .straps (by decide)

theorem State.afterRead_hlx (s : State) (p : Path) (addr : Nat) :
    (s.afterRead p addr).hlx = (s.dropShadow p).hlx :=
  ((Frame.refl [.cry] (fun _ => True) (s.dropShadow p)).clearRc _ _ _ _ (by decide) fun _ _ => trivial).1 .hlx
    (by decide)

/-! ## The commands -/

theorem execRegisterWrite_of_reached {s : State} {path : Path} {addr width : Nat} (value : BitVec 64)
    (hk : s.regKnock path = s) (hr : s.writeReachesAddr path addr = true) (hb : s.blockBusy addr width = false) :
    exec (.registerWrite path addr width value) s = .next (s.writeAny path addr width value.toNat) := by
  simp [exec, execRegisterWrite, hk, hr, hb]

theorem execRegisterReadClear_of_reached {s : State} {path : Path} {addr width : Nat} (hk : s.regKnock path = s)
    (hr : s.reachesAddr path addr = true) (hb : s.blockBusy addr width = false) :
    exec (.registerReadClear path addr width) s =
      .next ((s.readAny path addr width).2.emit (.regRead path addr width (s.readAny path addr width).1)) := by
  simp [exec, execRegisterReadClear, hk, hr, hb]

theorem execLock_of_reached {s : State} {path : Path} {block : Nat} (hr : s.writeReaches path block 0 = true) :
    exec (.lock path block) s = .next (if isCores path then (if s.pageLive block 0 then s.setLock block else s)
      else if s.rdb (F.BLK_CTL_LOCK block) then s else s.denied path) := by
  simp [exec, execLock, State.viaPath, hr]

theorem pageUsed_of_pageLive {s : State} {blk page : Nat} (h : s.pageLive blk page = true) :
    pageUsed blk page = true := by
  simp only [State.pageLive, Bool.and_eq_true] at h
  obtain ⟨⟨⟨⟨hused, -⟩, -⟩, -⟩, -⟩ := h
  exact hused

theorem State.writeHeader_evtClr (s : State) (p : Path) {blk page : Nat} (m d : Nat)
    (hlive : s.pageLive blk page = true) (hmay : s.mayClr p blk page = true) :
    s.writeHeader p blk page 0x38 m d =
      s.wrI (F.EVT_RAW_CAUSE blk) page (s.rd (F.EVT_RAW_CAUSE blk) page &&& ((d &&& m) ^^^ (2 ^ 64 - 1))) := by
  simp [State.writeHeader, hlive, hmay]

/-- The header's EVT_CLR clears the causes that the write holds a 1 for (R460). -/
theorem State.writeAny_evtClr (s : State) (p : Path) {addr v : Nat} (hal : addr % 8 = 0) (hlo : 0x100000 ≤ addr)
    (hhi : addr < 0x1000000) (hv : v < 2 ^ 64) (hoff : regOff addr = 0x38)
    (hlive : s.pageLive (regBlk addr) (regPage addr) = true)
    (hmay : s.mayClr p (regBlk addr) (regPage addr) = true) :
    s.writeAny p addr 64 v = (s.dropShadow p).wrI (F.EVT_RAW_CAUSE (regBlk addr)) (regPage addr)
      (s.rd (F.EVT_RAW_CAUSE (regBlk addr)) (regPage addr) &&& (v ^^^ (2 ^ 64 - 1))) := by
  have hone : v &&& (2 ^ 64 - 1) = v := by rw [Nat.and_two_pow_sub_one_eq_mod, Nat.mod_eq_of_lt hv]
  rw [State.writeAny_window s p v (widthOk_64 hal) hlo hhi]
  have hhdr : regOff addr < 0x40 ∧ pageUsed (regBlk addr) (regPage addr) = true :=
    ⟨by omega, pageUsed_of_pageLive hlive⟩
  simp only [State.writeReg, if_pos hhdr]
  rw [hoff, accMask_64, accData_64 hv, (s.dropShadow p).writeHeader_evtClr _ _ _ hlive hmay, hone, State.rd_dropShadow]

/-! ## CLX_CFG -/

/-- The fields whose clamp looks at the state, or at more than the field's range (R22, R549). -/
def ownClamps : List Fld :=
  [F.TMU_HEAD_TAG_KEY_EN, F.NTC_PORT_LAT_TARGET, F.NTC_FB_FB1, F.NTC_FB_FB2, F.NTC_FB_FB3, F.BTC_FB_FB1, F.BTC_FB_FB2,
   F.BTC_FB_FB3, F.HLX_PORT_CTL_MAX_WIDTH, F.PMU_SEL_CODE, F.AON_PWR_MODE_TARGET] ++ vecFields

/-- A value brought into the range of a field that has one. -/
def Fld.inRange (f : Fld) (v : Nat) : Nat := f.clamp.elim v (fun c => clampTo c.1 c.2 v)

/-- Every other field's clamp is its range. -/
theorem State.clamped_of_range (s : State) {f : Fld} (i v : Nat) (hf : f ∉ ownClamps) :
    s.clamped f i v = f.inRange v := by
  simp only [ownClamps, List.mem_append, List.mem_cons, List.not_mem_nil, or_false, not_or] at hf
  obtain ⟨⟨h1, h2, h3, h4, h5, h6, h7, h8, h9, h10, h11⟩, hvec⟩ := hf
  cases hc : f.clamp <;>
    simp [State.clamped, Fld.inRange, hc, h1, h2, h3, h4, h5, h6, h7, h8, h9, h10, h11, hvec]

theorem Fld.inRange_of_clamp {f : Fld} {c : Nat × Nat} (h : c ∈ f.clamp) (v : Nat) :
    f.inRange v = clampTo c.1 c.2 v := by
  rw [Fld.inRange, Option.mem_def.1 h]; rfl

theorem clampTo_mod_two_pow {a b v w : Nat} (h : b < 2 ^ w) : clampTo a b v % 2 ^ w = clampTo a b v :=
  Nat.mod_eq_of_lt (by unfold clampTo; omega)

/-- Fields of a list written in turn leave a field under another key as it was. -/
theorem State.rd_foldl_wrAt_ne (l : List (Fld × Nat × Nat)) (g : Fld × Nat × Nat → Nat) (s : State) (f : Fld)
    (i k : Nat) (h : ∀ y ∈ l, f.key i k ≠ y.1.key y.2.1 y.2.2) :
    (l.foldl (fun t y => t.wrAt y.1 y.2.1 y.2.2 (g y)) s).rd f i k = s.rd f i k := by
  induction l generalizing s with
  | nil => rfl
  | cons y l ih =>
    rw [List.foldl_cons, ih _ fun z hz => h z (List.mem_cons_of_mem _ hz)]
    exact s.rd_wrAt_ne _ _ _ _ _ _ _ (h y List.mem_cons_self)

/-- Each of them reads as what was written, when no two share a key. -/
theorem State.rd_foldl_wrAt (l : List (Fld × Nat × Nat)) (g : Fld × Nat × Nat → Nat) (s : State)
    (hk : (l.map fun x => x.1.key x.2.1 x.2.2).Nodup) {x : Fld × Nat × Nat} (hx : x ∈ l) :
    (l.foldl (fun t x => t.wrAt x.1 x.2.1 x.2.2 (g x)) s).rd x.1 x.2.1 x.2.2 = g x % 2 ^ x.1.width := by
  induction l generalizing s with
  | nil => simp at hx
  | cons y l ih =>
    obtain ⟨hy, hl⟩ := List.nodup_cons.1 hk
    rcases List.mem_cons.1 hx with rfl | hx
    · have hne : ∀ z ∈ l, x.1.key x.2.1 x.2.2 ≠ z.1.key z.2.1 z.2.2 :=
        fun z hz e => hy (List.mem_map.2 ⟨z, hz, e.symm⟩)
      rw [List.foldl_cons, State.rd_foldl_wrAt_ne l g _ _ _ _ hne, State.rd_wrAt_same]
    · exact ih _ hl hx

theorem fieldsAt_clxCfg : fieldsAt 3 0 0x40 =
    [(F.CLX_CFG_LOCK_LOSS, 0, 0), (F.CLX_CFG_REPLAY_TO, 0, 0), (F.CLX_CFG_REPLAY_LIMIT, 0, 0),
     (F.CLX_CFG_E2E_TIMEOUT, 0, 0), (F.CLX_CFG_FAR_LIMIT, 0, 0)] := by decide

/-- The control cores may write an RW field of a live page, unless it is a command's or COLD_CMD. -/
theorem State.fieldOpen_cores (s : State) {blk page : Nat} {f : Fld} (k : Nat) (hl : s.pageLive blk page = true)
    (hrw : f.acc = .rw) (hc : f ∉ commandFields) (hcold : f ≠ F.AON_RST_CTL_COLD_CMD) :
    s.fieldOpen .cores blk page f k = true := by
  simp [State.fieldOpen, State.mayField, hl, hrw, hc, hcold]

/-- What the rows of CLX_CFG say of its five fields. -/
theorem clxCfg_rows : ∀ x ∈ fieldsAt 3 0 0x40,
    x.1.acc = .rw ∧ x.1 ∉ commandFields ∧ x.1 ≠ F.AON_RST_CTL_COLD_CMD ∧ x.1.hi < 64 ∧ x.1 ∉ sideStores ∧
      x.1 ∉ ownClamps ∧ ∀ c ∈ x.1.clamp, c.2 < 2 ^ x.1.width := by
  decide

/-- A 64-bit write of CLX_CFG by the control cores brings each of its fields into its range. -/
theorem State.writeAny_clxCfg {s : State} {v : Nat} (hlive : s.pageLive 3 0 = true) (hv : v < 2 ^ 64)
    (hden : s.deniedAt .cores 3 0 0x40 (2 ^ 64 - 1) v = false) :
    Frame [.hlx] (fun key => ∃ x ∈ fieldsAt 3 0 0x40, key = x.1.key x.2.1 x.2.2) s (s.writeAny .cores 0x400040 64 v) ∧
      ∀ x ∈ fieldsAt 3 0 0x40, ∀ c ∈ x.1.clamp,
        (s.writeAny .cores 0x400040 64 v).rd x.1 x.2.1 x.2.2 = clampTo c.1 c.2 (bits v x.1.hi x.1.lo) := by
  have hplain : ∀ x ∈ fieldsAt 3 0 0x40, PlainRw (s.dropShadow .cores) .cores 3 0 64 x := by
    intro x hx
    obtain ⟨hrw, hcmd, hcold, hhi, hside, -, -⟩ := clxCfg_rows x hx
    exact ⟨(s.dropShadow .cores).fieldOpen_cores _ hlive hrw hcmd hcold, hrw,
      lo_le_hi_of_mem_fieldsAt (by decide) hx, hhi, hside⟩
  have hval : s.writeAny .cores 0x400040 64 v = (fieldsAt 3 0 0x40).foldl
      (fun t x => t.wrAt x.1 x.2.1 x.2.2 (x.1.inRange (bits v x.1.hi x.1.lo))) (s.dropShadow .cores) := by
    rw [s.writeAny_fields .cores (n := 64) (widthOk_64 rfl) ⟨by decide, by decide, by decide⟩ rfl (accData_64 hv)]
    change State.writeFields (if s.deniedAt .cores 3 0 0x40 (2 ^ 64 - 1) v then _ else _) .cores 3 0 0x40 _ v = _
    rw [hden, if_neg Bool.false_ne_true,
      State.writeFields_of_plain v (by decide) hplain fun t => t.settle_of_other (by decide) (by decide)]
    refine List.foldl_ext _ _ _ fun t x hx => ?_
    obtain ⟨-, -, -, -, -, hown, -⟩ := clxCfg_rows x hx
    rw [State.clamped_of_range _ _ _ hown]
    rfl
  rw [hval]
  refine ⟨((Frame.refl _ _ s).dropShadow .cores (by decide)).trans (Frame.foldl _ _ _ fun t x hx => ?_),
    fun x hx c hc => ?_⟩
  · exact (Frame.refl _ _ t).wrAt _ _ _ _ (.inl ⟨x, hx, rfl⟩)
  · obtain ⟨-, -, -, -, -, -, hwidth⟩ := clxCfg_rows x hx
    rw [State.rd_foldl_wrAt _ _ _ (by decide) hx, Fld.inRange_of_clamp hc, clampTo_mod_two_pow (hwidth c hc)]

/-! ## Register accesses over the paths -/

/-- Settles O49: each write is one field's store, a count or the header's, and a read is the register's word with its
read-clear fields cleared, by the rules above. -/
theorem registerAccess : Obligations.RegisterAccess := by
  unfold Obligations.RegisterAccess
  refine ⟨?storesField, ?storesClxCfg, ?deniesRo, ?clearsCauses, ?countsWidth, ?reads, ?locks, ?deniesLock⟩
  case storesField =>
    intro s path addr value f i k hcur hst hblk hreach hlo hhi hoff hal hat hopen hrw hf hplain hadm hset hden
    have hexec := execRegisterWrite_of_reached value (s.regKnock_of_idle path hcur hst) hreach
      (s.blockBusy_of_no_reset _ 64 hblk)
    rw [State.writeAny_single (le_refl 64) (widthOk_64 hal) ⟨hlo, hhi, hoff⟩ (accMask_64 _) (accData_64 value.isLt)
      hat hopen hrw hf hplain hadm hset hden] at hexec
    exact ⟨_, hexec, State.rd_wrAt_same _ _ _ _ _, rfl, Frame.of_wrAt_dropShadow _ s path f i k _ (by decide)⟩
  case storesClxCfg =>
    intro s value hblk hreach hlive hden
    obtain ⟨hframe, hval⟩ := State.writeAny_clxCfg hlive value.isLt hden
    refine ⟨_, execRegisterWrite_of_reached value rfl hreach (s.blockBusy_of_no_reset _ _ hblk),
      hval (F.CLX_CFG_LOCK_LOSS, 0, 0) (by decide) (1, 10000) rfl,
      hval (F.CLX_CFG_REPLAY_TO, 0, 0) (by decide) (5, 200) rfl,
      hval (F.CLX_CFG_REPLAY_LIMIT, 0, 0) (by decide) (1, 15) rfl,
      hval (F.CLX_CFG_E2E_TIMEOUT, 0, 0) (by decide) (100, 60000) rfl,
      hval (F.CLX_CFG_FAR_LIMIT, 0, 0) (by decide) (1, 1000) rfl, hframe.mono (fun _ h => h) fun key hkey => ?_⟩
    simpa [fieldsAt_clxCfg] using hkey
  case deniesRo =>
    intro s path addr value f i k hcur hst hblk hreach hlo hhi hoff hal hat hro hden
    have hexec := execRegisterWrite_of_reached value (s.regKnock_of_idle path hcur hst) hreach
      (s.blockBusy_of_no_reset _ 64 hblk)
    rw [s.writeAny_fields path (widthOk_64 hal) ⟨hlo, hhi, hoff⟩ (accMask_64 _) (accData_64 value.isLt),
      if_pos hden, State.writeFields_of_ro _ _ _ _ (by simp [hat, hro])] at hexec
    exact ⟨_, hexec, State.rd_denied_denied _ path, State.rd_denied_last_path _ path, State.rd_denied_last_ld _ path,
      ((Frame.refl _ _ s).dropShadow path (by decide)).denied path (by decide) (.inl rfl) (.inr (.inl rfl))
        (.inr (.inr rfl))⟩
  case clearsCauses =>
    intro s path addr value hcur hst hblk hreach hlo hhi hal hoff hlive hmay
    have hexec := execRegisterWrite_of_reached value (s.regKnock_of_idle path hcur hst) hreach
      (s.blockBusy_of_no_reset _ 64 hblk)
    rw [s.writeAny_evtClr path hal hlo hhi value.isLt hoff hlive hmay] at hexec
    exact ⟨_, hexec, State.rd_wrI_same _ _ _ _, Frame.of_wrAt_dropShadow _ s path _ _ _ _ (by decide)⟩
  case countsWidth =>
    intro s path addr width value hcur hst hreach hwidth
    have hexec := execRegisterWrite_of_reached value (s.regKnock_of_idle path hcur hst) hreach
      (s.blockBusy_of_bad_width _ _ hwidth)
    rw [s.writeAny_of_bad_width path _ hwidth] at hexec
    exact ⟨_, hexec, s.rd_badWidth_width, Frame.badWidth s⟩
  case reads =>
    intro s path addr hcur hst hblk hreach hlo hhi hoff hal hfit _ _ _ hmay
    have hexec := execRegisterReadClear_of_reached (s.regKnock_of_idle path hcur hst) hreach
      (s.blockBusy_of_no_reset _ 64 hblk)
    rw [s.readAny64 path hal hlo hhi hmay] at hexec
    exact ⟨_, hexec, by simp, s.rd_afterRead_of_rc path hhi hfit, s.afterRead_hlx path addr,
      ((Frame.afterRead s path addr).mono (by simp) fun _ h => h).emit _ (by decide)⟩
  case locks =>
    intro s block hreach hlive
    refine ⟨s.setLock block, by rw [execLock_of_reached hreach]; simp [isCores, hlive], State.rd_wr_same _ _ _, ?_⟩
    exact (Frame.refl _ _ s).wr _ _ (.inl rfl)
  case deniesLock =>
    intro s path block hpath hreach hlock
    refine ⟨s.denied path, by rw [execLock_of_reached hreach]; simp [hpath, hlock], s.rd_denied_denied path,
      s.rd_denied_last_path path, s.rd_denied_lock path block, ?_⟩
    exact (Frame.refl _ _ s).denied path (by decide) (.inl rfl) (.inr (.inl rfl)) (.inr (.inr rfl))

/-! ## The values at reset -/

/-- At reset no register field is listed: each reads as its Reset column says. -/
theorem State.rd_reset (f : Fld) (i k : Nat) : State.reset.rd f i k = f.rstAt i k := rfl

/-- At reset every defined cause of a page is enabled (R576). -/
theorem State.evtEn_reset (blk page : Nat) : State.reset.evtEn blk page = definedCauses blk page := by
  simp [State.evtEn, State.rd_reset, Fld.rstAt, F.EVT_EN_EN]

/-- Settles O60: the register map is empty at reset, so that each field named reads as its row's reset value. -/
theorem resetValues : Obligations.ResetValues := by
  unfold Obligations.ResetValues
  refine ⟨rfl, rfl, rfl, rfl, rfl, rfl, rfl, rfl, rfl, rfl, rfl, rfl, rfl, rfl, rfl, rfl, rfl, rfl,
    fun r _ => ⟨rfl, rfl, rfl, rfl, rfl⟩, fun b _ => ⟨rfl, fun page _ => ⟨rfl, State.evtEn_reset b page⟩⟩,
    fun p _ => rfl, rfl, rfl⟩

/-! ## The sideband -/

theorem leNat_lt (l : List Byte) : leNat l < 2 ^ (8 * l.length) := by
  induction l with
  | nil => decide
  | cons b l ih =>
    have hb : b.toNat < 256 := b.isLt
    have hpow : 2 ^ (8 * (b :: l).length) = 256 * 2 ^ (8 * l.length) := by
      rw [List.length_cons, Nat.mul_succ, Nat.pow_add, Nat.mul_comm]
    rw [hpow, leNat]; omega

theorem numAt_lt (l : List Byte) (a n : Nat) : numAt l a n < 2 ^ (8 * n) := by
  simpa [numAt, bytesAt] using leNat_lt (bytesAt l a n)

/-- In P0, with no entry under way, no block in reset and no access waiting, the sideband serves a request at once. -/
structure SbReady (s : State) : Prop where
  cur : s.rd F.AON_PWR_MODE_CUR = 0
  stage : s.aon.entry.stage = 0
  off : s.aon.off = 0
  blocks : s.aon.blocks = []
  accs : s.aon.accs = []

/-- What a ready sideband does: a malformed request, one that it does not reach, one that it serves. -/
theorem State.sideband_of_ready {s : State} (h : SbReady s) (op len n : Nat) (req : List Byte) (pec : Option Byte)
    (data : Option Nat) (f : State → State × List Byte) :
    s.sideband op len n req pec data f =
      if s.sbOk op len req pec = false then s.respond pec.isSome 2 (List.replicate n 0)
      else if (if 3 ≤ op then s.writeReachesAddr .sideband (sbAddr req) else s.reachesAddr .sideband (sbAddr req)) = false
      then s.respond pec.isSome 3 (List.replicate n 0)
      else (f s).1.respond pec.isSome 0 (f s).2 := by
  simp [State.sideband, s.regKnock_of_idle .sideband h.cur h.stage, s.dropReply_of_no_accs h.accs, h.off, h.cur,
    s.blockBusy_of_no_reset _ _ h.blocks]

theorem State.sideband_served {s : State} (h : SbReady s) {op len : Nat} (n : Nat) {req : List Byte}
    {pec : Option Byte} (data : Option Nat) (f : State → State × List Byte) (hok : s.sbOk op len req pec = true)
    (hr : (if 3 ≤ op then s.writeReachesAddr .sideband (sbAddr req) else s.reachesAddr .sideband (sbAddr req)) = true) :
    s.sideband op len n req pec data f = (f s).1.respond pec.isSome 0 (f s).2 := by
  rw [State.sideband_of_ready h, hok, hr]; rfl

theorem aligned_of_sbOk {s : State} {op len : Nat} {req : List Byte} {pec : Option Byte}
    (h : s.sbOk op len req pec = true) : sbAddr req % (if op % 2 = 0 then 8 else 4) = 0 := by
  simp only [State.sbOk, Bool.and_eq_true, decide_eq_true_eq] at h
  exact h.1.2.2

/-- The bytes of a response: STATUS and data, and over I2C their PEC. -/
theorem State.respond_out {s t : State} (hout : t.out = s.out) (hstraps : t.straps = s.straps) (i2c : Bool)
    (status : Nat) (data : List Byte) :
    (t.respond i2c status data).out = s.out ++ [Out.sideband ((leBytes 1 status ++ data) ++
      if i2c then [pecOf (s.addrByte true :: (leBytes 1 status ++ data))] else [])] := by
  cases i2c <;> simp [State.respond, State.addrByte, State.targetAddr, hout, hstraps]

end Sys2Proof.Machine

namespace Sys2Proof.Safety
open Sys2Proof.Machine

theorem Frame.respond {P : List Part} {K : Nat → Prop} {s t : State} (h : Frame P K s t) (i2c : Bool) (status : Nat)
    (data : List Byte) (ho : .out ∈ P) : Frame P K s (t.respond i2c status data) := h.emit _ ho

end Sys2Proof.Safety

namespace Sys2Proof.Machine
open Sys2Proof.Safety

/-- The response to a write over the sideband: STATUS 0 and no data, with one field written. -/
theorem State.respond_write (s : State) (f : Fld) (i k v : Nat) (i2c : Bool) :
    (((s.dropShadow .sideband).wrAt f i k v).respond i2c 0 []).out =
        s.out ++ [Out.sideband (leBytes 1 0 ++ if i2c then [pecOf (s.addrByte true :: leBytes 1 0)] else [])] ∧
      (((s.dropShadow .sideband).wrAt f i k v).respond i2c 0 []).rd f i k = v % 2 ^ f.width ∧
      Frame [.out, .hlx] (fun key => key = f.key i k) s
        (((s.dropShadow .sideband).wrAt f i k v).respond i2c 0 []) :=
  ⟨State.respond_out rfl rfl i2c 0 [], State.rd_wrAt_same _ _ _ _ _,
    (Frame.of_wrAt_dropShadow _ s .sideband f i k v (by decide)).respond _ _ _ (by decide)⟩

/-- Settles O50: a served read or write is the same access over the sideband's path, and its response adds to what leaves
the unit alone. -/
theorem sidebandAccess : Obligations.SidebandAccess := by
  unfold Obligations.SidebandAccess
  refine ⟨?reads32, ?reads64, ?writes32, ?writes64, ?malformed, ?unreachable⟩
  case reads32 =>
    intro s req pec b hcur hst hoff hblk haccs hok hreach hlo hhi _ hal hfit _ _ _ hmay hb
    obtain ⟨x, hread⟩ := s.readAny32_low .sideband hal hlo hhi hmay
    refine ⟨_, congrArg Host.Outcome.next
      (State.sideband_served ⟨hcur, hst, hoff, hblk, haccs⟩ 4 none _ hok hreach), ?_⟩
    simp only [hread, hb]
    exact ⟨State.respond_out (by simp) (by simp) _ _ _, s.rd_afterRead_of_rc .sideband hhi hfit,
      (((Frame.afterRead s .sideband _).mono (by simp) fun _ h => h).setHlx x (by decide)).respond _ _ _ (by decide)⟩
  case reads64 =>
    intro s req pec b hcur hst hoff hblk haccs hok hreach hlo hhi _ hfit _ _ _ hmay hb
    have hread := s.readAny64 .sideband (aligned_of_sbOk hok) hlo hhi hmay
    refine ⟨_, congrArg Host.Outcome.next
      (State.sideband_served ⟨hcur, hst, hoff, hblk, haccs⟩ 8 none _ hok hreach), ?_⟩
    simp only [hread, hb]
    exact ⟨State.respond_out (by simp) (by simp) _ _ _, s.rd_afterRead_of_rc .sideband hhi hfit,
      ((Frame.afterRead s .sideband _).mono (by simp) fun _ h => h).respond _ _ _ (by decide)⟩
  case writes32 =>
    intro s req pec b f i k hcur hst hoff hblk haccs hok hreach hlo hhi hbey hal hat hopen hrw _ hplain hadm hset hf
      hden hb
    have hwrite := State.writeAny_single (by decide) (widthOk_32_low hal) ⟨hlo, hhi, hbey⟩ (accMask_32_low hal)
      (accData_32_low hal (numAt_lt req 4 4)) hat hopen hrw hf hplain hadm hset hden
    refine ⟨_, congrArg Host.Outcome.next
      (State.sideband_served ⟨hcur, hst, hoff, hblk, haccs⟩ 0 _ _ hok hreach), ?_⟩
    simp only [hwrite, hb]
    exact State.respond_write s f i k _ _
  case writes64 =>
    intro s req pec b f i k hcur hst hoff hblk haccs hok hreach hlo hhi hbey hat hopen hrw hf hplain hadm hset hden hb
    have hwrite := State.writeAny_single (le_refl 64) (widthOk_64 (aligned_of_sbOk hok)) ⟨hlo, hhi, hbey⟩
      (accMask_64 _) (accData_64 (numAt_lt req 4 8)) hat hopen hrw hf hplain hadm hset hden
    refine ⟨_, congrArg Host.Outcome.next
      (State.sideband_served ⟨hcur, hst, hoff, hblk, haccs⟩ 0 _ _ hok hreach), ?_⟩
    simp only [hwrite, hb]
    exact State.respond_write s f i k _ _
  case malformed =>
    intro s req pec b hcur hst hoff hblk haccs hok hb
    have hanswer := fun f => (State.sideband_of_ready ⟨hcur, hst, hoff, hblk, haccs⟩ 2 4 8 req pec none f).trans
      (if_pos hok)
    rw [hb]
    exact ⟨_, congrArg Host.Outcome.next (hanswer _), State.respond_out rfl rfl _ _ _,
      (Frame.refl _ _ s).respond _ _ _ (by decide)⟩
  case unreachable =>
    intro s req pec b hcur hst hoff hblk haccs hok hreach hb
    have hanswer := fun data f => ((State.sideband_of_ready ⟨hcur, hst, hoff, hblk, haccs⟩ 3 8 0 req pec data f).trans
      (if_neg (by simp [hok]))).trans (if_pos hreach)
    rw [hb]
    exact ⟨_, congrArg Host.Outcome.next (hanswer _ _), State.respond_out rfl rfl _ _ [],
      (Frame.refl _ _ s).respond _ _ _ (by decide)⟩

end Sys2Proof.Machine
end

section
/-!
PROOFS of O35, O47 and O48: what hosts send over CXL.mem, and far requests at their home and at their requester. O35 holds,
from the rules of Machine/HostPath.lean. O47 and O48 fail where a request leaves the device: its outstanding count is
looked up by the ingress that the state notes for it, and the statements do not bound that.
-/
namespace Sys2Proof.Machine
open Sys2Proof.Safety

/-! ## A request on CXL.mem up to its decoder -/

/-- In P0 with no entry under way, the device takes a CXL.mem request of LD l of head h. -/
structure HostReady (s : State) (h l : Nat) : Prop where
  cur : s.rd F.AON_PWR_MODE_CUR = 0
  stage : s.aon.entry.stage = 0
  takes : s.takesHost h l = true

/-- In P0 with no entry under way there is nothing to rouse. -/
theorem State.rouse_of_idle (s : State) (code : Nat) (hcur : s.rd F.AON_PWR_MODE_CUR = 0)
    (hst : s.aon.entry.stage = 0) : s.rouse code = s := by
  simp [State.rouse, State.cur, hcur, hst]

theorem State.throughHdm_of_ready {s : State} {h l : Nat} (hr : HostReady s h l) (hpa : BitVec 64) (tag : Nat)
    (read : Bool) (f : State → BitVec 64 → State) :
    s.throughHdm h l hpa tag read f =
      (((s.hdmDecode h l hpa.toNat).map (BitVec.ofNat 64)).map (f s)).getD (s.uncovered h l tag read) := by
  simp only [State.throughHdm, s.rouse_of_idle 1 hr.cur hr.stage, hr.takes]
  cases s.hdmDecode h l hpa.toNat <;> rfl

theorem State.throughHdm_covered {s : State} {h l : Nat} {hpa dpa : BitVec 64} (hr : HostReady s h l) (tag : Nat)
    (read : Bool) (f : State → BitVec 64 → State)
    (hdec : (s.hdmDecode h l hpa.toNat).map (BitVec.ofNat 64) = some dpa) :
    s.throughHdm h l hpa tag read f = f s dpa := by
  rw [State.throughHdm_of_ready hr, hdec]; rfl

theorem State.throughHdm_uncovered {s : State} {h l : Nat} {hpa : BitVec 64} (hr : HostReady s h l) (tag : Nat)
    (read : Bool) (f : State → BitVec 64 → State) (hdec : s.hdmDecode h l hpa.toNat = none) :
    s.throughHdm h l hpa tag read f = s.uncovered h l tag read := by
  rw [State.throughHdm_of_ready hr, hdec]; rfl

/-! ## What becomes of a request that a decoder covers -/

theorem Req.inWindow_eq_false {q : Req}
    (h : ¬ (q.bad = 0 ∧ (inDoorbells q.addr = true ∨ inFirefly q.addr = true))) : q.inWindow = false := by
  simpa [Req.inWindow] using h

/-- Outside the windows, and while its head is not viral, a write is presented to ADM. -/
theorem State.hostWrites_outside (s : State) {q : Req} (h l tag : Nat) (hv : s.rd F.HLX_PORT_STS_VIRAL_IN h = 0)
    (hw : q.inWindow = false) : s.hostWrites q h l tag = s.present q := by
  have hbell : ¬ (q.bad = 0 ∧ inDoorbells q.addr = true) := by simp_all [Req.inWindow]
  have hfly : ¬ (q.bad = 0 ∧ inFirefly q.addr = true) := by simp_all [Req.inWindow]
  simp [State.hostWrites, State.rdb, hv, hbell, hfly]

/-- A viral head's write is discarded: counted and completed (R289). -/
theorem State.hostWrites_viral (s : State) (q : Req) (h l tag : Nat) (hv : s.rd F.HLX_PORT_STS_VIRAL_IN h = 1) :
    s.hostWrites q h l tag =
      (s.bump F.HLX_PORT_ERRCNT_VIRAL_DROP h 0 1 none true).emit (.done h l tag .cmp) := by
  simp [State.hostWrites, State.rdb, hv]

theorem State.present_frame (s : State) (q : Req) : Frame [.adm] (fun _ => False) s (s.present q) :=
  (Frame.refl _ _ s).setAdm _ (by decide)

/-! ## The count of a viral head's writes -/

/-- A saturating counter stops at the field's last value. -/
theorem counterNext_sat (f : Fld) (draw old n : Nat) :
    counterNext f draw old n true = min (2 ^ f.width - 1) (old + n) := by
  have hpos : 0 < 2 ^ f.width := Nat.two_pow_pos _
  simp only [counterNext, if_true]
  split <;> omega

/-- The PMU writes fields that begin at bit 0 of their register. -/
theorem onlyRegs.pmuAdvance_low (s : State) (f : Fld) (i k n : Nat) (cls : Option Nat) :
    onlyRegs (fun key => key % 64 = 0) s (s.pmuAdvance f i k n cls) := by
  refine onlyRegs.foldl _ _ _ s fun u c _ => ?_
  split
  · exact onlyRegs.pmuCount_of_keys _ u _ c n (by simp [Fld.key, F.PMU_CNT_COUNT]) (by simp [Fld.key, F.PMU_OVF_OVF])
      (by decide)
  · exact onlyRegs.refl _ u

/-- What a saturating counter field reads after it advanced, at any index, when it does not begin at bit 0: an index
beyond the table may give it a register of the PMU, but no field that the PMU writes. -/
theorem State.rd_bump_sat_of_high (s : State) (f : Fld) (i k n : Nat) (cls : Option Nat) (hlo : f.lo % 64 ≠ 0) :
    (s.bump f i k n cls true).rd f i k = min (2 ^ f.width - 1) (s.rd f i k + n) := by
  have hkey : ¬ f.key i k % 64 = 0 := by unfold Fld.key; omega
  have hrest : onlyRegs (fun key => key % 64 = 0) (s.wrAt f i k (counterNext f s.draw (s.rd f i k) n true))
      (s.bump f i k n cls true) := (onlyRegs.pmuAdvance_low _ f i k n cls).trans (onlyRegs.copyAdvance _ _ f i k n)
  have hpos : 0 < 2 ^ f.width := Nat.two_pow_pos _
  rw [hrest.rd f i k hkey, State.rd_wrAt_same, counterNext_sat, Nat.mod_eq_of_lt (by omega)]

/-! ## The commands of a host -/

section
variable {s : State} {h l : Nat} {hpa dpa : BitVec 64} (look : DirLook) (tag : Nat)

theorem execHostRead_outside (hr : HostReady s h l)
    (hdec : (s.hdmDecode h l hpa.toNat).map (BitVec.ofNat 64) = some dpa)
    (hw : (s.hostReq .read h l dpa look tag).inWindow = false) :
    exec (.hostRead h l hpa look tag) s = .next (s.present (s.hostReq .read h l dpa look tag)) := by
  refine congrArg Host.Outcome.next ((State.throughHdm_covered hr tag true _ hdec).trans ?_)
  have hbell : ¬ ((s.hostReq .read h l dpa look tag).bad = 0 ∧
      inDoorbells (s.hostReq .read h l dpa look tag).addr = true) := by simp_all [Req.inWindow]
  have hfly : ¬ ((s.hostReq .read h l dpa look tag).bad = 0 ∧
      inFirefly (s.hostReq .read h l dpa look tag).addr = true) := by simp_all [Req.inWindow]
  exact (if_neg hbell).trans (if_neg hfly)

theorem execHostWrite_covered (data : BitVec 512) (poison : Bool) (hr : HostReady s h l)
    (hdec : (s.hdmDecode h l hpa.toNat).map (BitVec.ofNat 64) = some dpa) :
    exec (.hostWrite h l hpa look tag data poison) s =
      .next (s.hostWrites { s.hostReq .write h l dpa look tag with data := data, poison := poison } h l tag) :=
  congrArg Host.Outcome.next (State.throughHdm_covered hr tag false _ hdec)

theorem execHostWrite_outside (data : BitVec 512) (poison : Bool) (hr : HostReady s h l)
    (hdec : (s.hdmDecode h l hpa.toNat).map (BitVec.ofNat 64) = some dpa) (hv : s.rd F.HLX_PORT_STS_VIRAL_IN h = 0)
    (hw : (s.hostReq .write h l dpa look tag).inWindow = false) :
    exec (.hostWrite h l hpa look tag data poison) s =
      .next (s.present { s.hostReq .write h l dpa look tag with data := data, poison := poison }) :=
  (execHostWrite_covered look tag data poison hr hdec).trans
    (congrArg Host.Outcome.next (s.hostWrites_outside h l tag hv hw))

theorem execHostWrite_viral (data : BitVec 512) (poison : Bool) (hr : HostReady s h l)
    (hdec : (s.hdmDecode h l hpa.toNat).map (BitVec.ofNat 64) = some dpa) (hv : s.rd F.HLX_PORT_STS_VIRAL_IN h = 1) :
    exec (.hostWrite h l hpa look tag data poison) s =
      .next ((s.bump F.HLX_PORT_ERRCNT_VIRAL_DROP h 0 1 none true).emit (.done h l tag .cmp)) :=
  (execHostWrite_covered look tag data poison hr hdec).trans
    (congrArg Host.Outcome.next (s.hostWrites_viral _ h l tag hv))

theorem execHostPartialWrite_outside (data : BitVec 512) (be : BitVec 64) (poison : Bool) {k : ReqKind}
    (hk : k = if be = BitVec.allOnes 64 then ReqKind.write else ReqKind.partialWrite) (hr : HostReady s h l)
    (hdec : (s.hdmDecode h l hpa.toNat).map (BitVec.ofNat 64) = some dpa) (hv : s.rd F.HLX_PORT_STS_VIRAL_IN h = 0)
    (hw : (s.hostReq k h l dpa look tag).inWindow = false) :
    exec (.hostPartialWrite h l hpa look tag data be poison) s =
      .next (s.present { s.hostReq k h l dpa look tag with data := data, be := be, poison := poison }) := by
  subst hk
  exact (congrArg Host.Outcome.next (State.throughHdm_covered hr tag false _ hdec)).trans
    (congrArg Host.Outcome.next (s.hostWrites_outside h l tag hv hw))

end

/-- Settles O35: a covered request outside the windows is presented to ADM, a viral head's write is counted, and an
uncovered request is answered at once. -/
theorem hostRequests : Obligations.HostRequests := by
  unfold Obligations.HostRequests
  refine ⟨?reads, ?writes, ?viral, ?partials, ?uncoveredRead, ?uncoveredWrite⟩
  case reads =>
    intro s h l hpa dpa look tag hcur hst htakes hdec hw
    exact ⟨_, execHostRead_outside look tag ⟨hcur, hst, htakes⟩ hdec (Req.inWindow_eq_false hw), rfl, State.present_frame s _⟩
  case writes =>
    intro s h l hpa dpa look tag data poison hcur hst htakes hdec hv hw
    exact ⟨_, execHostWrite_outside look tag data poison ⟨hcur, hst, htakes⟩ hdec hv (Req.inWindow_eq_false hw), rfl,
      State.present_frame s _⟩
  case viral =>
    intro s h l hpa dpa look tag data poison hcur hst htakes hdec hv _
    have hframe : Frame [.evt] (fun key => key = F.HLX_PORT_ERRCNT_VIRAL_DROP.key h 0) s
        (s.bump F.HLX_PORT_ERRCNT_VIRAL_DROP h 0 1 none true) :=
      (Frame.refl _ _ s).bump _ _ _ _ _ _ (by decide) (by decide) (.inl rfl)
    refine ⟨_, execHostWrite_viral look tag data poison ⟨hcur, hst, htakes⟩ hdec hv, ?_, ?_, ?_⟩
    · rw [State.emit_rd, State.rd_bump_sat_of_high _ _ _ _ _ _ (by decide)]
    · rw [State.emit_out, hframe.1 .out (by decide)]
    · exact (hframe.mono (by simp) fun _ hk => hk).emit _ (by decide)
  case partials =>
    intro s h l hpa dpa look tag data be poison k hcur hst htakes hdec hv hk hw
    exact ⟨_, execHostPartialWrite_outside look tag data be poison hk ⟨hcur, hst, htakes⟩ hdec hv
      (Req.inWindow_eq_false hw), rfl, State.present_frame s _⟩
  case uncoveredRead =>
    intro s h l hpa look tag hcur hst htakes hdec
    exact ⟨_, congrArg Host.Outcome.next (State.throughHdm_uncovered ⟨hcur, hst, htakes⟩ tag true _ hdec), rfl, rfl,
      (Frame.refl _ _ s).emit _ (by decide)⟩
  case uncoveredWrite =>
    intro s h l hpa look tag data poison hcur hst htakes hdec
    exact ⟨_, congrArg Host.Outcome.next (State.throughHdm_uncovered ⟨hcur, hst, htakes⟩ tag false _ hdec), rfl, rfl,
      (Frame.refl _ _ s).emit _ (by decide)⟩

/-! ## Counts of ingresses that do not exist

A request that leaves the device lowers the outstanding count of its ingress and class (R340), and the model looks the count
up by the ingress that the state holds for the request. R334 has ingresses 0 to 19; the statements of O47 and O48 take a far
request with any, and the count of ingress 239 would stand in a register page of DIR. -/

/-- The key of the count that ingress 239 would have for class 2. -/
def strayKey : Nat := (outF 2).key 239 0

/-- The key is a register of block 5 (DIR). -/
theorem strayKey_inBlock : InBlock 5 strayKey := by decide

/-- Hence none of ADM's, which the frames of both statements allow. -/
theorem strayKey_not_inBlock_four : ¬ InBlock 4 strayKey := fun h => absurd h.2 (Nat.not_lt.2 strayKey_inBlock.1)

/-- Out of reset, with one unit counted for ingress 239 under class 2. -/
def strayCounted : State :=
  (State.reset.setAon { State.reset.aon with held := false }).outAdd 239 2 1

/-- What the command leaves at a register key. -/
def regAfter (c : Instr) (s : State) (key : Nat) : Option Nat :=
  match exec c s with
  | .next t => mget t.regs key
  | _ => none

theorem regAfter_of_next {c : Instr} {s t : State} (hexec : exec c s = .next t) (key : Nat) :
    regAfter c s key = mget t.regs key := by
  simp only [regAfter, hexec]

/-- A command that changes a register outside the keys of K and the PMU does not have the frame of K. -/
theorem not_frame_of_regAfter_ne {c : Instr} {s t : State} {P : List Part} {K : Nat → Prop} {key : Nat}
    (hexec : exec c s = .next t) (hne : regAfter c s key ≠ mget s.regs key) (hk : ¬ K key) (hpmu : ¬ InBlock 14 key) :
    ¬ Frame P K s t :=
  fun hframe => hne ((regAfter_of_next hexec key).trans (hframe.2 key hk hpmu))

/-! ## The home -/

/-- A far write of unit 3 that has been applied, noted with chain port 223: its ingress is 16 + 223. -/
def strayDone : FarDone := { src := 3, seq := 1, port := 223, tag := 40, status := 0, cls := 2, unit := 1 }

/-- That write's response is due, on a route by CL0, which retrains. -/
def strayHome : State :=
  let s := (strayCounted.wr F.CLX_ROUTE_PORT 64).wrI F.CLX_PORT_STS_STATE 0 6
  s.setClx { s.clx with done := [strayDone] }

/-- The stray count falls from 1 to 0, its reset value, so that it is listed no more. -/
theorem farWriteApplied_lowers_strayCount :
    regAfter (.farWriteApplied 3 1) strayHome strayKey = none ∧ mget strayHome.regs strayKey = some 1 := by
  decide +kernel

/-- Refutes O47: in strayHome the far write that has been applied leaves by a port that does not exist, and lowering its
count changes a register of DIR, outside the frame of FAR_WRITE_APPLIED. The clause lacks bounds on the port (and the class)
of the FarDone. -/
theorem not_farRequestsAtHome : ¬ Obligations.FarRequestsAtHome := by
  unfold Obligations.FarRequestsAtHome
  rintro ⟨-, -, -, -, -, -, -, happlied⟩
  obtain ⟨t, hexec, -, -, -, -, hframe⟩ := happlied strayHome 3 1 strayDone 0 rfl rfl rfl (by decide) rfl rfl rfl
    (by decide) (by decide) rfl rfl (by decide) (by decide)
  obtain ⟨hafter, hbefore⟩ := farWriteApplied_lowers_strayCount
  exact not_frame_of_regAfter_ne hexec (by rw [hafter, hbefore]; simp)
    (not_or.2 ⟨by decide, strayKey_not_inBlock_four⟩) (by decide) hframe

/-! ## The requester -/

/-- A far read of a host, noted with ingress 239. -/
def strayRead : FarOut :=
  { id := 8, home := 3, slot := 1, line := 5, tag := 40, sent := true, port := 1, seq := 0,
    req := { strayCounted.hostReq .read 0 0 0x140 { mv := .invalid, err := .none } 6 with ing := 239, cls := 2, unit := 1 } }

/-- That read is out. -/
def strayAsking : State := strayCounted.setClx { strayCounted.clx with reqs := [strayRead] }

/-- The stray count falls from 1 to 0, its reset value, so that it is listed no more. -/
theorem farLimitExpiry_lowers_strayCount :
    regAfter (.farLimitExpiry 8) strayAsking strayKey = none ∧ mget strayAsking.regs strayKey = some 1 := by
  decide +kernel

/-- Refutes O48: in strayAsking the far read that is given up came from an ingress that does not exist, and lowering its
count changes a register of DIR, outside the frame of FAR_LIMIT_EXPIRY. The clause lacks bounds on the ingress (and the
class) of the request. -/
theorem not_farRequestsAtRequester : ¬ Obligations.FarRequestsAtRequester := by
  unfold Obligations.FarRequestsAtRequester
  rintro ⟨-, -, -, -, -, -, hexpiry, -⟩
  obtain ⟨t, hexec, -, -, -, hframe⟩ := hexpiry strayAsking 8 strayRead 0 0 6 rfl rfl (by decide) rfl rfl rfl rfl rfl rfl
  obtain ⟨hafter, hbefore⟩ := farLimitExpiry_lowers_strayCount
  exact not_frame_of_regAfter_ne hexec (by rw [hafter, hbefore]; simp) strayKey_not_inBlock_four (by decide) hframe

end Sys2Proof.Machine
end

section
/-!
PROOFS of O39, O42, O52 and O55: the words of the maps' entries, KEY_EN in both key modes, and the fills and
demotions. O52 and O55 hold. O39 and O42 fail at a frame: a waiting request may be noted with an ingress that does
not exist, and in bulk-only mode the sectors of a run are counted in CRY.
-/
namespace Sys2Proof.Machine
open Sys2Proof.Safety

/-! ## Words made of parts: codes, flags and reserved bits -/

theorem Fmt.ofCode_code (f : Fmt) : Fmt.ofCode f.code = f := by cases f <;> rfl

theorem Fmt.code_lt (f : Fmt) : f.code < 4 := by cases f <;> decide

theorem Fmt.code_ofCode {n : Nat} (h : n < 4) : (Fmt.ofCode n).code = n := by
  interval_cases n <;> rfl

/-- The FLAGS byte's bits of Table 2.6, highest first. -/
theorem Tme.ofNat_flags (t : Tme) :
    BitVec.ofNat 6 t.flags = BitVec.ofBool t.unmat ++ BitVec.ofBool t.saturated ++ BitVec.ofBool t.transit ++
      BitVec.ofBool t.retired ++ BitVec.ofBool t.pinned ++ BitVec.ofBool t.poison := by
  unfold Tme.flags
  generalize t.unmat = u, t.saturated = s, t.transit = r, t.retired = x, t.pinned = p, t.poison = q
  revert u s r x p q
  decide

/-! ## Fields of a word -/

theorem ofBool_getLsbD {n : Nat} (w : BitVec n) (i : Nat) : BitVec.ofBool (w.getLsbD i) = w.extractLsb' i 1 := by
  refine BitVec.eq_of_getLsbD_eq fun j hj => ?_
  obtain rfl : j = 0 := by omega
  simp

/-- Two words that agree agree part by part. -/
theorem append_inj {n m : Nat} {x x' : BitVec n} {y y' : BitVec m} (h : x ++ y = x' ++ y') : x = x' ∧ y = y' :=
  ⟨by simpa [BitVec.extractLsb'_append_eq_left] using congrArg (BitVec.extractLsb' m n) h,
   by simpa [BitVec.extractLsb'_append_eq_right] using congrArg (BitVec.extractLsb' 0 m) h⟩

theorem ofNat_inj_of_lt {n a b : Nat} (h : BitVec.ofNat n a = BitVec.ofNat n b) (ha : a < 2 ^ n) (hb : b < 2 ^ n) :
    a = b := by
  simpa [Nat.mod_eq_of_lt ha, Nat.mod_eq_of_lt hb] using congrArg BitVec.toNat h

theorem Fmt.ofNat_code_inj {f g : Fmt} (h : BitVec.ofNat 2 f.code = BitVec.ofNat 2 g.code) : f = g := by
  rw [← f.ofCode_code, ofNat_inj_of_lt h f.code_lt g.code_lt, g.ofCode_code]

/-! ## Tile map entries -/

theorem Tme.flags_inj {t u : Tme} (h : BitVec.ofNat 6 t.flags = BitVec.ofNat 6 u.flags) :
    t.poison = u.poison ∧ t.pinned = u.pinned ∧ t.retired = u.retired ∧ t.transit = u.transit ∧
      t.saturated = u.saturated ∧ t.unmat = u.unmat := by
  rw [t.ofNat_flags, u.ofNat_flags] at h
  obtain ⟨h, epoison⟩ := append_inj h
  obtain ⟨h, epinned⟩ := append_inj h
  obtain ⟨h, eretired⟩ := append_inj h
  obtain ⟨h, etransit⟩ := append_inj h
  obtain ⟨eunmat, esaturated⟩ := append_inj h
  simp only [BitVec.ofBool_eq_iff_eq] at epoison epinned eretired etransit esaturated eunmat
  exact ⟨epoison, epinned, eretired, etransit, esaturated, eunmat⟩

/-- Reserved bits that agree in each of the three places of the word. -/
theorem rsv_inj {m n : Nat} (hm : m < 2 ^ 38) (hn : n < 2 ^ 38)
    (hlow : BitVec.ofNat 4 (m % 16) = BitVec.ofNat 4 (n % 16))
    (hmid : BitVec.ofNat 2 (m / 16 % 4) = BitVec.ofNat 2 (n / 16 % 4))
    (hhigh : BitVec.ofNat 32 (m / 64 % 2 ^ 32) = BitVec.ofNat 32 (n / 64 % 2 ^ 32)) : m = n := by
  have elow := ofNat_inj_of_lt hlow (by omega) (by omega)
  have emid := ofNat_inj_of_lt hmid (by omega) (by omega)
  have ehigh := ofNat_inj_of_lt hhigh (by omega) (by omega)
  omega

/-- Entries whose fields fit and whose words agree are the same: the parts of the words are compared from the lowest up. -/
theorem Tme.eq_of_enc_eq {t u : Tme} (ht : t.wf = true) (hu : u.wf = true) (h : t.enc = u.enc) : t = u := by
  obtain ⟨hloc, hlen, hnear, hhome, hctr, hrsv⟩ := of_decide_eq_true ht
  obtain ⟨hloc', hlen', hnear', hhome', hctr', hrsv'⟩ := of_decide_eq_true hu
  rw [Tme.enc, Tme.enc] at h
  obtain ⟨h, eloc⟩ := append_inj h
  obtain ⟨h, elen⟩ := append_inj h
  obtain ⟨h, efmt⟩ := append_inj h
  obtain ⟨h, egen⟩ := append_inj h
  obtain ⟨h, env⟩ := append_inj h
  obtain ⟨h, enear⟩ := append_inj h
  obtain ⟨h, ehome⟩ := append_inj h
  obtain ⟨h, ersvLow⟩ := append_inj h
  obtain ⟨h, ectr⟩ := append_inj h
  obtain ⟨h, hbyte⟩ := append_inj h
  obtain ⟨h, etcs⟩ := append_inj h
  obtain ⟨etag, ersvHigh⟩ := append_inj h
  obtain ⟨ersvMid, hflags⟩ := append_inj hbyte
  obtain ⟨epoison, epinned, eretired, etransit, esaturated, eunmat⟩ := Tme.flags_inj hflags
  cases t; cases u
  simp only [Tme.mk.injEq]
  exact ⟨ofNat_inj_of_lt eloc hloc hloc', ofNat_inj_of_lt elen hlen hlen', Fmt.ofNat_code_inj efmt,
    BitVec.ofBool_eq_iff_eq.1 egen, BitVec.ofBool_eq_iff_eq.1 env, ofNat_inj_of_lt enear hnear hnear',
    ofNat_inj_of_lt ehome hhome hhome', ofNat_inj_of_lt ectr hctr hctr', epoison, epinned, eretired, etransit,
    esaturated, eunmat, etcs, etag, rsv_inj hrsv hrsv' ersvLow ersvMid ersvHigh⟩

/-- The three parts of the reserved bits, as a number that holds them spells them. -/
theorem rsv_parts (low : BitVec 4) (mid : BitVec 2) (high : BitVec 32) :
    let n := low.toNat + 16 * mid.toNat + 64 * high.toNat
    n < 2 ^ 38 ∧ BitVec.ofNat 4 (n % 16) = low ∧ BitVec.ofNat 2 (n / 16 % 4) = mid ∧
      BitVec.ofNat 32 (n / 64 % 2 ^ 32) = high := by
  have := low.isLt
  have := mid.isLt
  have := high.isLt
  refine ⟨by omega, ?_, ?_, ?_⟩ <;> refine BitVec.eq_of_toNat_eq ?_ <;> rw [BitVec.toNat_ofNat] <;> omega

theorem Tme.wf_dec (w : BitVec 256) : (Tme.dec w).wf = true := by
  obtain ⟨hrsv, -⟩ := rsv_parts (w.extractLsb 79 76) (w.extractLsb 127 126) (w.extractLsb 191 160)
  exact decide_eq_true ⟨BitVec.isLt _, BitVec.isLt _, BitVec.isLt _, BitVec.isLt _, BitVec.isLt _, hrsv⟩

theorem Tme.enc_dec (w : BitVec 256) : (Tme.dec w).enc = w := by
  obtain ⟨-, hlow, hmid, hhigh⟩ := rsv_parts (w.extractLsb 79 76) (w.extractLsb 127 126) (w.extractLsb 191 160)
  have hfmt : BitVec.ofNat 2 (Tme.dec w).fmt.code = w.extractLsb 45 44 := by
    rw [Tme.dec, Fmt.code_ofCode (BitVec.isLt _), BitVec.ofNat_toNat, BitVec.setWidth_eq]
  rw [Tme.enc, Tme.ofNat_flags, hfmt]
  simp only [Tme.dec, ofBool_getLsbD, hlow, hmid, hhigh, BitVec.ofNat_toNat, BitVec.setWidth_eq]
  simp only [BitVec.extractLsb]
  simp (disch := decide) only [BitVec.extractLsb'_append_extractLsb'_eq_extractLsb']
  exact BitVec.extractLsb'_eq_self

theorem Tme.dec_enc {t : Tme} (h : t.wf = true) : Tme.dec t.enc = t :=
  Tme.eq_of_enc_eq (Tme.wf_dec _) h (Tme.enc_dec _)

/-! ## Frame-table entries -/

theorem FState.ofCode_code (st : FState) : FState.ofCode st.code = some st := by cases st <;> rfl

theorem FState.code_lt (st : FState) : st.code < 8 := by cases st <;> decide

/-- The fields of Table 5.3 make up the word. -/
theorem fte_fields (w : BitVec 64) :
    w.extractLsb' 60 4 ++ w.extractLsb 59 48 ++ w.extractLsb 47 44 ++ w.extractLsb' 43 1 ++
      BitVec.ofBool (w.getLsbD 42) ++ BitVec.ofBool (w.getLsbD 41) ++ w.extractLsb 40 38 ++ w.extractLsb 37 32 ++
      w.extractLsb 31 0 = w := by
  simp (disch := decide) only [BitVec.extractLsb, ofBool_getLsbD, BitVec.extractLsb'_append_extractLsb'_eq_extractLsb']
  exact BitVec.extractLsb'_eq_self

theorem Fte.dec_enc {e : Fte} (htile : e.tile < 2 ^ 32) (hslot : e.slot < 64) (hheat : e.heat < 16)
    (hstamp : e.stamp < 2 ^ 12) : Fte.dec e.enc = some e := by
  have h := (fte_fields e.enc).trans (Fte.enc.eq_1 e)
  obtain ⟨h, etile⟩ := append_inj h
  obtain ⟨h, eslot⟩ := append_inj h
  obtain ⟨h, estate⟩ := append_inj h
  obtain ⟨h, epin⟩ := append_inj h
  obtain ⟨h, efirst⟩ := append_inj h
  obtain ⟨h, -⟩ := append_inj h
  obtain ⟨h, eheat⟩ := append_inj h
  obtain ⟨-, estamp⟩ := append_inj h
  simp only [Fte.dec, etile, eslot, estate, eheat, estamp, BitVec.ofBool_eq_iff_eq.1 epin,
    BitVec.ofBool_eq_iff_eq.1 efirst, BitVec.toNat_ofNat, Nat.mod_eq_of_lt htile,
    Nat.mod_eq_of_lt hslot, Nat.mod_eq_of_lt hheat, Nat.mod_eq_of_lt hstamp,
    Nat.mod_eq_of_lt e.state.code_lt, FState.ofCode_code, Option.map_some]

/-! ## Directory entries -/

theorem DState.code_lt (st : DState) : st.code < 3 := by cases st <;> decide

theorem DState.ofCode_code (st : DState) :
    (if st.code = 0 then DState.i else if st.code = 1 then .s else .e) = st := by cases st <;> rfl

theorem DirEnt.enc_fields {e : DirEnt} (hline : e.line < 2 ^ 40) (hsharers : e.sharers < 2 ^ 16) :
    e.enc < 2 ^ 58 ∧ bits e.enc 39 0 = e.line ∧ bits e.enc 41 40 = e.state.code ∧ bits e.enc 57 42 = e.sharers := by
  have := e.state.code_lt
  simp only [DirEnt.enc, bits]
  omega

theorem DirEnt.dec_enc {e : DirEnt} (h : e.wellFormed = true) : e.enc < 2 ^ 58 ∧ DirEnt.dec e.enc = some e := by
  obtain ⟨hline, hsharers⟩ := of_decide_eq_true (Bool.and_eq_true_iff.1 h).1
  obtain ⟨hlt, eline, estate, esharers⟩ := DirEnt.enc_fields hline hsharers
  have hcode := e.state.code_lt
  refine ⟨hlt, ?_⟩
  simp only [DirEnt.dec, eline, estate, esharers, DState.ofCode_code]
  rw [if_neg (by simp [h]; omega)]

/-- Settles O55: the fields of each word are disjoint and make it up whole, so that each reads back. -/
theorem tmeRoundTrip : Obligations.TmeRoundTrip := by
  unfold Obligations.TmeRoundTrip
  refine ⟨?tmeWord, ?tmeEntry, ?fteEntry, ?dirEntry⟩
  case tmeWord => exact fun t h => Tme.dec_enc h
  case tmeEntry => exact fun w => ⟨Tme.wf_dec w, Tme.enc_dec w⟩
  case fteEntry => exact fun e htile hslot hheat hstamp => Fte.dec_enc htile hslot hheat hstamp
  case dirEntry =>
    intro e h
    obtain ⟨hlt, hdec⟩ := DirEnt.dec_enc h
    exact ⟨hlt.trans (by decide), hdec⟩

end Sys2Proof.Machine

namespace Sys2Proof.Safety
open Sys2Proof.Machine

/-- A field outside a frame's keys and the PMU's reads as before. -/
theorem Frame.rd {P : List Part} {K : Nat → Prop} {s t : State} (h : Frame P K s t) (f : Fld) (i k : Nat)
    (hk : ¬ K (f.key i k)) (hpmu : ¬ InBlock 14 (f.key i k)) : t.rd f i k = s.rd f i k := by
  rw [State.rd, mgetD, h.2 _ hk hpmu]; rfl

theorem Frame.vk4 {P : List Part} {K : Nat → Prop} {s t : State} (h : Frame P K s t)
    (hk : ¬ K (F.CRY_MODE_MODE.key 0 0)) : t.vk4 = s.vk4 := by
  rw [State.vk4, State.rdb, h.rd _ _ _ hk (by decide)]; rfl

end Sys2Proof.Safety

namespace Sys2Proof.Machine
open Sys2Proof.Safety

/-! ## A head's TMU_HEAD_TAG -/

theorem fieldsAt_headTag : ∀ h < 16, fieldsAt 6 65 (0x40 + 8 * h) =
    [(F.TMU_HEAD_TAG_CLASS_EN, 0, h), (F.TMU_HEAD_TAG_KEY_EN, 0, h)] := by
  decide

/-- What the rows of TMU_HEAD_TAG say of its two fields. -/
theorem headTag_rows : ∀ f ∈ [F.TMU_HEAD_TAG_CLASS_EN, F.TMU_HEAD_TAG_KEY_EN],
    f.acc = .rw ∧ f ∉ commandFields ∧ f ≠ F.AON_RST_CTL_COLD_CMD ∧ f.lo ≤ f.hi ∧ f.hi < 64 ∧ f ∉ sideStores := by
  decide

/-- The page lies on no edge die and no part of it can fail: it is live once the fuses are loaded. -/
theorem State.pageLive_headTag (s : State) : s.pageLive 6 65 = s.aon.loaded := by
  simp [State.pageLive, State.pageLost, State.pageFailed, State.pageEmpty, pageUsed, topPage, pageDie]

/-- KEY_EN is clamped to 0 in native key mode (R51). -/
theorem State.clamped_keyEn_of_native {s : State} (hvk : s.vk4 = false) (i v : Nat) :
    s.clamped F.TMU_HEAD_TAG_KEY_EN i v = 0 := by
  simp [State.clamped, hvk]

/-- The register keys that a write of head h's tag register may touch: its two fields and the count of denied accesses. -/
abbrev HeadTagKeys (h key : Nat) : Prop :=
  key = F.TMU_HEAD_TAG_KEY_EN.key 0 h ∨ key = F.TMU_HEAD_TAG_CLASS_EN.key 0 h ∨
    key = F.AON_GLB_ACCERR_DENIED.key 0 0 ∨ key = F.AON_GLB_ACCERR_LAST_PATH.key 0 0 ∨
    key = F.AON_GLB_ACCERR_LAST_LD.key 0 0

theorem mode_not_headTagKeys : ∀ h < 16, ¬ HeadTagKeys h (F.CRY_MODE_MODE.key 0 0) := by
  decide

/-- In native key mode a 64-bit write of a head's tag register by the control cores stores KEY_EN as 0. -/
theorem State.writeFields_headTag {s : State} {h : Nat} (d : Nat) (hh : h < 16) (hvk : s.vk4 = false)
    (hlive : s.pageLive 6 65 = true) :
    ∃ c, s.writeFields .cores 6 65 (0x40 + 8 * h) (2 ^ 64 - 1) d =
      (s.wrAt F.TMU_HEAD_TAG_CLASS_EN 0 h c).wrAt F.TMU_HEAD_TAG_KEY_EN 0 h 0 := by
  have hplain : ∀ x ∈ fieldsAt 6 65 (0x40 + 8 * h), PlainRw s .cores 6 65 64 x := by
    intro x hx
    rw [fieldsAt_headTag h hh] at hx
    obtain ⟨hrw, hcmd, hcold, hlo, hhi, hside⟩ := headTag_rows x.1 (List.mem_map_of_mem (f := Prod.fst) hx)
    exact ⟨s.fieldOpen_cores _ hlive hrw hcmd hcold, hrw, hlo, hhi, hside⟩
  have hmode : ∀ c, (s.wrAt F.TMU_HEAD_TAG_CLASS_EN 0 h c).vk4 = false := fun c =>
    (((Frame.refl [] (HeadTagKeys h) s).wrAt _ _ _ _ (.inl (.inr (.inl rfl)))).vk4
      (mode_not_headTagKeys h hh)).trans hvk
  rw [State.writeFields_of_plain d (le_refl 64) hplain fun t => t.settle_of_other (by decide) (by simp),
    fieldsAt_headTag h hh]
  simp only [List.foldl_cons, List.foldl_nil, State.clamped_keyEn_of_native (hmode _)]
  exact ⟨_, rfl⟩

theorem headTag_addr {h : Nat} (hh : h < 16) :
    regBlk (0x741040 + 8 * h) = 6 ∧ regPage (0x741040 + 8 * h) = 65 ∧ regOff (0x741040 + 8 * h) = 0x40 + 8 * h := by
  unfold regBlk regPage regOff
  omega

/-- The same write as an access, which may be counted as denied as well, for its reserved bits. -/
theorem State.writeAny_headTag {s : State} {h v : Nat} (hh : h < 16) (hvk : s.vk4 = false)
    (hlive : s.pageLive 6 65 = true) (hv : v < 2 ^ 64) :
    (s.writeAny .cores (0x741040 + 8 * h) 64 v).rd F.TMU_HEAD_TAG_KEY_EN 0 h = 0 ∧
      Frame [.hlx, .evt] (HeadTagKeys h) s (s.writeAny .cores (0x741040 + 8 * h) 64 v) := by
  obtain ⟨hblk, hpage, hoff⟩ := headTag_addr hh
  rw [s.writeAny_fields .cores (n := 64) (widthOk_64 (by omega)) ⟨by omega, by omega, by omega⟩ (accMask_64 _)
    (accData_64 hv), hblk, hpage, hoff]
  have hdrop : Frame [.hlx, .evt] (HeadTagKeys h) s (s.dropShadow .cores) :=
    (Frame.refl _ _ s).dropShadow _ (by decide)
  have hdenied : Frame [.hlx, .evt] (HeadTagKeys h) s ((s.dropShadow .cores).denied .cores) :=
    hdrop.denied .cores (by decide) (.inr (.inr (.inl rfl))) (.inr (.inr (.inr (.inl rfl))))
      (.inr (.inr (.inr (.inr rfl))))
  have hcount := Frame.ite (s.deniedAt .cores 6 65 (0x40 + 8 * h) (2 ^ 64 - 1) v = true) (fun _ => hdenied)
    (fun _ => hdrop)
  obtain ⟨c, hwrite⟩ := State.writeFields_headTag v hh ((hcount.vk4 (mode_not_headTagKeys h hh)).trans hvk)
    (by rwa [State.pageLive_headTag, hcount.1 .aon (by decide), ← State.pageLive_headTag])
  rw [hwrite]
  exact ⟨State.rd_wrAt_same _ _ _ _ _, (hcount.wrAt _ _ _ _ (.inl (.inr (.inl rfl)))).wrAt _ _ _ _ (.inl (.inl rfl))⟩

/-! ## The tag bits of an address -/

theorem State.keyTags_of_native {s : State} (hvk : s.vk4 = false) (h : Nat) : s.keyTags h = false := by
  simp [State.keyTags, hvk]

theorem State.keyTags_of_enabled {s : State} {h : Nat} (hvk : s.vk4 = true)
    (hen : s.rd F.TMU_HEAD_TAG_KEY_EN 0 h = 1) : s.keyTags h = true := by
  simp [State.keyTags, State.rdb, hvk, hen]

/-- Settles O52: a head's key tags count under KEY_EN in VK4 key mode alone, and the clamp of KEY_EN looks at the mode. -/
theorem keyTagSwitch : Obligations.KeyTagSwitch := by
  unfold Obligations.KeyTagSwitch
  refine ⟨?clamps, ?native, ?vk4⟩
  case clamps =>
    intro s h value hh hvk hblk hreach hlive
    obtain ⟨haddr, hpage, -⟩ := headTag_addr hh
    have hreachAddr : s.writeReachesAddr .cores (0x741040 + 8 * h) = true := by
      rw [State.writeReachesAddr, if_neg (by omega), haddr, hpage, hreach]
    exact ⟨_, execRegisterWrite_of_reached value rfl hreachAddr (s.blockBusy_of_no_reset _ _ hblk),
      State.writeAny_headTag hh hvk hlive value.isLt⟩
  case native =>
    intro s h dpa hvk hok
    simp only [State.tagBitsOk, s.keyTags_of_native hvk, Bool.false_or, Bool.and_eq_true, decide_eq_true_eq] at hok
    obtain ⟨⟨-, hkey⟩, -⟩ := hok
    exact ⟨hkey, by rw [State.hostKey, State.keyTags_of_native hvk]; rfl⟩
  case vk4 =>
    intro s h dpa hvk hen
    have htags := State.keyTags_of_enabled hvk hen
    refine ⟨by rw [State.hostKey, htags, if_pos rfl], ?_⟩
    simp only [State.tagBitsOk, htags, State.rdb, Bool.true_or, Bool.and_true, Bool.and_eq_true, Bool.or_eq_true,
      decide_eq_true_eq]
    rw [Nat.div_eq_zero_iff_lt (by decide)]

/-! ## A read that waits for its tile's entry -/

/-- A host read of tile 2 of region 1 that waits for the tile's entry, noted with ingress 239. -/
def strayMiss : Waiting :=
  { req := { strayCounted.hostReq .read 0 0 8256 { mv := .invalid, err := .none } 6 with
      id := 3, ing := 239, cls := 2, unit := 1, hold := some (1, 0) },
    why := .miss, slot := 1, tile := 2 }

/-- Region 1 is ELASTIC and ACTIVE, none of its tiles is cached, and the sector that holds the entry has been read. -/
def strayMissing : State :=
  let s := ((strayCounted.wr F.CTL_HEALTH_MEM_ACTIVE 1).wrI F.TMU_RGN_MAP_TYPE 1 2).wrI F.TMU_RGN_MAP_STATE 1 1
  s.setTmu { s.tmu with waits := [strayMiss], fetches := [(sectorKey 1 2, 9)] }

/-- The stray count falls from 1 to 0, its reset value, so that it is listed no more. -/
theorem tmeMissFill_lowers_strayCount :
    regAfter (.tmeMissFill 1 2 []) strayMissing strayKey = none ∧ mget strayMissing.regs strayKey = some 1 := by
  decide +kernel

/-- Refutes O39: in strayMissing the read that its tile's entry lets through came from an ingress that does not exist, and
lowering its count changes a register of DIR, outside the frame of TME_MISS_FILL. The clause lacks bounds on the ingress
(and the class) of the waiting request. -/
theorem not_fillsAndInstalls : ¬ Obligations.FillsAndInstalls := by
  unfold Obligations.FillsAndInstalls
  rintro ⟨hfill, -⟩
  obtain ⟨t, hexec, -, -, -, -, hframe⟩ := hfill strayMissing 1 2 strayMiss 0 0 6 _ 9 0 (by decide) (by decide) rfl rfl
    rfl rfl (by decide) (by decide) rfl rfl rfl (by decide) (by decide) (by decide) (by decide) (by decide) rfl
    (by decide) rfl (by decide) (by decide) (by decide) (by decide) rfl rfl
  obtain ⟨hafter, hbefore⟩ := tmeMissFill_lowers_strayCount
  exact not_frame_of_regAfter_ne hexec (by rw [hafter, hbefore]; simp) strayKey_not_inBlock_four (by decide) hframe

/-! ## A demotion that escalated in bulk-only mode -/

/-- A demotion of tile 2 of region 1 that waits for a run of one sector. -/
def waitingDemotion : Move :=
  { Move.blank 7 .demote .space 1 2 (State.reset.initTme 1 2) with
    stage := .allocWait, len := 1, fmt := .lz, record := List.replicate 64 3 }

/-- Bulk-only mode (R191), region 1 ELASTIC, one rank set, and a free run of one sector at sector 4096. -/
def bulkOnlyWaiting : State :=
  let s := (((State.reset.setAon { State.reset.aon with held := false }).wr F.CTL_HEALTH_MEM_ACTIVE 1).wrI
    F.TMU_RGN_MAP_TYPE 1 2).wr F.SCR_MOV_STS_BULK_ONLY 1
  (s.setBulk { s.bulk with
    sets := [{ id := 0, slot := 0, rank := 0, first := 0, sectors := 8192000, rows := 1000, usable := true }] }).setTmu
      { s.tmu with pools := [(1, [4096])], moves := [waitingDemotion] }

/-- The lines that have passed the AES pipes, as CRY counts them, after a command. -/
def linesAfter (c : Instr) (s : State) : Option Nat :=
  match exec c s with
  | .next t => some t.cry.lines
  | _ => none

theorem linesAfter_of_frame {c : Instr} {s t : State} {P : List Part} {K : Nat → Prop} (hexec : exec c s = .next t)
    (hframe : Frame P K s t) (hcry : .cry ∉ P) : linesAfter c s = some s.cry.lines := by
  have hsame : t.cry = s.cry := hframe.1 .cry hcry
  simp only [linesAfter, hexec, hsame]

/-- The sector of the run counts as a line, since bulk-only mode keeps the frames in the bulk tier. -/
theorem allocEscalationResolved_counts_line :
    linesAfter (.allocEscalationResolved 7) bulkOnlyWaiting = some 1 ∧ bulkOnlyWaiting.cry.lines = 0 := by
  decide +kernel

/-- Refutes O42: in bulk-only mode a transfer of a bulk sector counts as a line that passes the AES pipes, so that the
escalated demotion of bulkOnlyWaiting changes CRY when it writes its run, outside the frame of ALLOC_ESCALATION_RESOLVED.
The clause lacks CRY among the frame's parts, or the hypothesis that the mode is off. -/
theorem not_demotionSteps : ¬ Obligations.DemotionSteps := by
  unfold Obligations.DemotionSteps
  rintro ⟨-, -, hresolved, -⟩
  obtain ⟨t, hexec, -, -, -, hframe⟩ := hresolved bulkOnlyWaiting 7 waitingDemotion 4096 rfl rfl rfl (by decide)
    (by decide) rfl (by decide) (by decide) (by decide +kernel)
  obtain ⟨hafter, hbefore⟩ := allocEscalationResolved_counts_line
  have hsame := linesAfter_of_frame hexec hframe (by decide)
  rw [hafter, hbefore] at hsame
  simp at hsame

end Sys2Proof.Machine
end

section
/-!
PROOFS, what O15, O16, O17 and O20 share: keys told apart by their places, and the frames of the codec dispatcher, of the
watch over the units and of the records of substitution.
-/
namespace Sys2Proof.Machine
open Sys2Proof.Safety

/-! ## Where a field stands in its page -/

/-- A field's place in its page: the offset of register k and the lowest bit, as a key counts them. -/
def Fld.place (f : Fld) (k : Nat) : Nat := (f.off + k * f.stride) * 64 + f.lo

theorem Fld.key_mod_page (f : Fld) (i k : Nat) : f.key i k % 0x40000 = f.place k % 0x40000 := by
  simp only [Fld.key, Fld.addr, Fld.place]; omega

/-- Fields at different places of a page share no key, whatever their pages. -/
theorem Fld.key_ne_of_place {f g : Fld} {i j k l : Nat} (h : f.place k % 0x40000 ≠ g.place l % 0x40000) :
    f.key i k ≠ g.key j l :=
  fun e => h (by rw [← f.key_mod_page i, ← g.key_mod_page j, e])

/-- The same field of two pages has two keys. -/
theorem Fld.key_ne_of_inst (f : Fld) {i j : Nat} (k : Nat) (h : i ≠ j) : f.key i k ≠ f.key j k := by
  simp only [Fld.key, Fld.addr]; omega

/-- The pages of a block before the PMU's hold no key of the PMU's. -/
theorem Fld.not_inBlock_pmu {f : Fld} {i k : Nat} (hb : f.blk < 14) (hi : f.p0 + i < 256)
    (hk : f.place k < 0x40000) : ¬ InBlock 14 (f.key i k) := by
  simp only [Fld.place] at hk
  simp only [InBlock, Fld.key, Fld.addr]; omega

end Sys2Proof.Machine

namespace Sys2Proof.Safety
open Sys2Proof.Machine

/-! ## The codec dispatcher and the watch over the units -/

theorem Frame.assign {P : List Part} {K : Nat → Prop} {s t : State} (fuel : Nat) (h : Frame P K s t) (hc : .cdc ∈ P) :
    Frame P K s (State.assign fuel t) := by
  induction fuel generalizing t with
  | zero => exact h
  | succ fuel ih =>
    simp only [State.assign]
    split
    · exact ih (h.setCdc _ hc)
    · exact h

/-- The dispatcher changes CDC's data alone (R95, R96). -/
theorem Frame.dispatch {P : List Part} {K : Nat → Prop} {s t : State} (h : Frame P K s t) (hc : .cdc ∈ P) :
    Frame P K s t.dispatch := by
  simp only [State.dispatch]
  split
  · exact h
  · split
    · exact h.setCdc _ hc
    · exact (h.setCdc _ hc).assign 17 hc

theorem Frame.watchService {P : List Part} {K : Nat → Prop} {s t : State} (h : Frame P K s t)
    (hm : K (F.CTL_HEALTH_MEM_ACTIVE.key 0 0)) : Frame P K s t.watchService := by
  unfold State.watchService
  split
  · exact h.wr _ _ (.inl hm)
  · split
    · exact h.wr _ _ (.inl hm)
    · exact h

/-- The keys that following a change of unit states may write: OFFLINE, its cause, and MEM_ACTIVE. -/
abbrev watchKeys (key : Nat) : Prop :=
  key = F.CDC_STATUS_OFFLINE.key 0 0 ∨ key = F.CTL_HEALTH_MEM_ACTIVE.key 0 0 ∨ key = (F.EVT_RAW_CAUSE 7).key 0 0

theorem Frame.watchUnits {P : List Part} {K : Nat → Prop} {s t : State} (h : Frame P K s t) (he : .evt ∈ P)
    (hj : .job ∈ P) (hc : .cdc ∈ P) (hk : ∀ key, watchKeys key → K key) : Frame P K s t.watchUnits := by
  have hoff := hk _ (.inl rfl)
  have hmem := hk _ (.inr (.inl rfl))
  have hraw := hk _ (.inr (.inr rfl))
  refine Frame.watchService (Frame.dispatch ?_ hc) hmem
  split
  · exact ((h.wr _ _ (.inl hoff)).raise cCdcOffline _ _ _ he (.inl hraw)).setJob _ hj
  · split
    · exact h.wr _ _ (.inl hoff)
    · exact h

/-- Following a change of unit states, by itself. -/
theorem Frame.of_watchUnits (s : State) : Frame [.evt, .job, .cdc] watchKeys s s.watchUnits :=
  (Frame.refl _ _ s).watchUnits (by decide) (by decide) (by decide) fun _ h => h

/-- A SPARE_SUBST record (R267): RAS's page 0 and its data. -/
theorem Frame.spare {P : List Part} {K : Nat → Prop} {s t : State} (h : Frame P K s t) (kind failing : Nat)
    (sub : Option Nat) (inside : Nat) (he : .evt ∈ P) (hr : .ras ∈ P) (h1 : K (F.RAS_LOG_PROD.key 0 0))
    (h2 : K (F.RAS_LOG_LOST.key 0 0)) (h3 : K ((F.EVT_RAW_CAUSE 12).key 0 0)) :
    Frame P K s (t.spare kind failing sub inside) := by
  have hlog := fun a => h.log 0x0b a he hr h1 h2 h3
  unfold State.spare
  split
  · exact (hlog _).raise _ _ _ _ he (.inl h3)
  · exact hlog _

end Sys2Proof.Safety
end

section
/-!
PROOFS of O15: faults of AES pipes, engines and directory ways.
-/
namespace Sys2Proof.Machine
open Sys2Proof.Safety

/-! ## Bits of a field -/

theorem testBit_setBit_mod {v i w : Nat} (h : i < w) : (setBit v i % 2 ^ w).testBit i = true := by
  simp [setBit, Nat.testBit_mod_two_pow, h]

theorem testBit_clrBit_mod (v i w : Nat) : (clrBit v i % 2 ^ w).testBit i = false := by
  have hclr : (clrBit v i).testBit i = false := by
    unfold clrBit
    split
    · next h =>
      have hge : 2 ^ i ≤ v := Nat.ge_two_pow_of_testBit h
      have hdiv : v / 2 ^ i = (v - 2 ^ i) / 2 ^ i + 1 := by
        rw [← Nat.add_div_right _ (Nat.two_pow_pos i), Nat.sub_add_cancel hge]
      rw [Nat.testBit_eq_decide_div_mod_eq] at h ⊢
      simp only [decide_eq_true_eq, decide_eq_false_iff_not] at h ⊢
      omega
    · next h => simpa using h
  simp [Nat.testBit_mod_two_pow, hclr]

/-- A raise leaves its cause bit set. -/
theorem State.raise_testBit (s : State) (c : Cause) (r q : Option Nat) (hs : List (Nat × Option Nat))
    (h : c.bit < 64) : ((s.raise c r q hs).rd (F.EVT_RAW_CAUSE c.blk) c.page).testBit c.bit = true := by
  rw [State.rd_raise_raw]; exact testBit_setBit_mod h

/-! ## Units and their faults -/

/-- The fields of a kind stand at places of their own. -/
structure Kind.Apart (k : Kind) : Prop where
  count_total : k.count.place 0 % 0x40000 ≠ k.total.place 0 % 0x40000
  state_count : k.state.place 0 % 0x40000 ≠ k.count.place 0 % 0x40000
  state_total : k.state.place 0 % 0x40000 ≠ k.total.place 0 % 0x40000
  thresh_count : k.thresh.place 0 % 0x40000 ≠ k.count.place 0 % 0x40000
  thresh_total : k.thresh.place 0 % 0x40000 ≠ k.total.place 0 % 0x40000

theorem cryKind_apart : cryKind.Apart := by constructor <;> decide

theorem scrKind_apart : scrKind.Apart := by constructor <;> decide

/-- A unit's counts of a fault, before the threshold is looked at. -/
def State.faultCounted (s : State) (k : Kind) (p : Nat) : State := (s.sat k.count p).sat k.total p

section
variable {k : Kind} (hk : k.Apart) (s : State) (p : Nat)
include hk

theorem State.rd_count_faultCounted :
    (s.faultCounted k p).rd k.count p = min (2 ^ k.count.width - 1) (s.rd k.count p + 1) := by
  have hpos : 0 < 2 ^ k.count.width := Nat.two_pow_pos _
  rw [State.faultCounted, State.sat, State.rd_wrAt_ne _ _ _ _ _ _ _ _ (Fld.key_ne_of_place hk.count_total), State.sat,
    State.rd_wrAt_same, Nat.mod_eq_of_lt (by omega)]

theorem State.unitState_faultCounted (q : Nat) : (s.faultCounted k p).unitState k q = s.unitState k q := by
  rw [State.faultCounted, State.unitState, State.sat, State.rd_wrAt_ne _ _ _ _ _ _ _ _ (Fld.key_ne_of_place hk.state_total),
    State.sat, State.rd_wrAt_ne _ _ _ _ _ _ _ _ (Fld.key_ne_of_place hk.state_count)]; rfl

theorem State.rd_thresh_faultCounted : (s.faultCounted k p).rd k.thresh = s.rd k.thresh := by
  rw [State.faultCounted, State.sat, State.rd_wrAt_ne _ _ _ _ _ _ _ _ (Fld.key_ne_of_place hk.thresh_total), State.sat,
    State.rd_wrAt_ne _ _ _ _ _ _ _ _ (Fld.key_ne_of_place hk.thresh_count)]

theorem State.unitFault_eq :
    s.unitFault k p = if s.unitState k p = 1 ∧ s.rd k.thresh ≤ min (2 ^ k.count.width - 1) (s.rd k.count p + 1)
      then (s.faultCounted k p).substitute k p else s.faultCounted k p := by
  rw [← State.unitState_faultCounted hk s p p, ← State.rd_thresh_faultCounted hk s p,
    ← State.rd_count_faultCounted hk s p]; rfl

/-- Below its threshold a unit only counts. -/
theorem State.unitFault_below (h : s.rd k.count p + 1 < s.rd k.thresh) : s.unitFault k p = s.faultCounted k p := by
  rw [State.unitFault_eq hk, if_neg (by omega)]

/-- Below its threshold an ACTIVE unit stays so, with one fault more. -/
theorem State.faultCounted_below {P : List Part} (hw : s.rd k.count p + 1 < 2 ^ k.count.width)
    (h1 : s.unitState k p = 1) :
    (s.faultCounted k p).rd k.count p = s.rd k.count p + 1 ∧ (s.faultCounted k p).unitState k p = 1 ∧
      Frame P (fun key => key = k.count.key p 0 ∨ key = k.total.key p 0) s (s.faultCounted k p) :=
  ⟨by rw [State.rd_count_faultCounted hk]; omega, by rw [State.unitState_faultCounted hk, h1],
    ((Frame.refl _ _ s).sat _ _ _ _ (.inl (.inl rfl))).sat _ _ _ _ (.inl (.inr rfl))⟩

end

/-! ## Substitution of an AES pipe (R165) -/

/-- Following a change of unit states leaves the pipes' own registers. -/
theorem State.rd_watchUnits_pipe (s : State) {f : Fld} {p : Nat} (hp : p < 50)
    (hf : f ∈ [F.CRY_PIPE_CTL_STATE, F.CRY_PIPE_FAULT_COUNT]) : s.watchUnits.rd f p = s.rd f p := by
  have hrow : ∀ g ∈ [F.CRY_PIPE_CTL_STATE, F.CRY_PIPE_FAULT_COUNT], g.blk < 14 ∧ g.p0 = 66 ∧ g.place 0 < 0x40000 ∧
      ∀ w ∈ [F.CDC_STATUS_OFFLINE, F.CTL_HEALTH_MEM_ACTIVE, F.EVT_RAW_CAUSE 7],
        g.place 0 % 0x40000 ≠ w.place 0 % 0x40000 := by decide
  obtain ⟨hblk, hpage, hplace, hw⟩ := hrow f hf
  refine (Frame.of_watchUnits s).rd f p 0 ?_ (Fld.not_inBlock_pmu hblk (by omega) hplace)
  rintro (h | h | h) <;> exact Fld.key_ne_of_place (hw _ (by simp)) h

theorem State.unitState_watchUnits_cry (s : State) {p : Nat} (hp : p < 50) :
    s.watchUnits.unitState cryKind p = s.unitState cryKind p := s.rd_watchUnits_pipe hp (by decide)

theorem State.unitState_wrI_other (s : State) (k : Kind) (v : Nat) {p q : Nat} (h : q ≠ p) :
    (s.wrI k.state p v).unitState k q = s.unitState k q :=
  s.rd_wrI_ne _ _ _ _ _ _ (Fld.key_ne_of_inst _ 0 h)

theorem State.unitState_setRas (s : State) (x : Ras) (k : Kind) (p : Nat) :
    (s.setRas x).unitState k p = s.unitState k p := rfl

theorem State.unitsIn_congr {s t : State} {k : Kind} (h : ∀ p, t.unitState k p = s.unitState k p) (st : Nat) :
    t.unitsIn k st = s.unitsIn k st := by
  simp only [State.unitsIn, h]

theorem State.unitState_raise (s : State) (c : Cause) (p : Nat) : (s.raise c).unitState cryKind p = s.unitState cryKind p :=
  s.rd_raise_ne _ _ _ _ _ _ _ (Fld.key_ne_of_place (show _ by simp only [Fld.place, F.EVT_RAW_CAUSE]; decide))

theorem State.ras_raise (s : State) (c : Cause) (r q : Option Nat) (hs : List (Nat × Option Nat)) :
    (s.raise c r q hs).ras = s.ras := by
  obtain ⟨e, he⟩ := s.raise_shape c r q hs
  rw [he]; rfl

/-- The only spare pipe q is activated, and then pipe p drains. -/
theorem State.substitute_cry {s : State} {p q : Nat} (hq : s.unitsIn cryKind 3 = [q]) :
    s.substitute cryKind p = ((((s.raise cCryPipeFault).activateUnit cryKind q).setRas
      { s.ras with subs := s.ras.subs ++ [(3, p, q)] }).wrI cryKind.state p 2).watchUnits := by
  have hspares : (s.raiseOpt cryKind.fault).unitsIn cryKind 3 = [q] :=
    (State.unitsIn_congr (s.unitState_raise cCryPipeFault) 3).trans hq
  simp only [State.substitute, hspares]
  rw [show (s.raiseOpt cryKind.fault).ras = s.ras from s.ras_raise _ _ _ _]; rfl

/-- A pipe that has been activated: ACTIVE, with no fault counted. -/
theorem State.unitState_activateUnit_cry (s : State) {q : Nat} (hq : q < 50) :
    (s.activateUnit cryKind q).unitState cryKind q = 1 := by
  rw [State.activateUnit, State.unitState_watchUnits_cry _ hq, State.unitState,
    State.rd_wrI_ne _ _ _ _ _ _ _ (Fld.key_ne_of_place cryKind_apart.state_count)]
  exact State.rd_wrI_same _ _ _ _

end Sys2Proof.Machine

namespace Sys2Proof.Safety
open Sys2Proof.Machine

theorem Frame.activateUnit {P : List Part} {K : Nat → Prop} {s t : State} (h : Frame P K s t) (k : Kind) (q : Nat)
    (he : .evt ∈ P) (hj : .job ∈ P) (hc : .cdc ∈ P) (hs : K (k.state.key q 0)) (hn : K (k.count.key q 0))
    (hk : ∀ key, watchKeys key → K key) : Frame P K s (t.activateUnit k q) :=
  ((h.wrI _ _ _ (.inl hs)).wrI _ _ _ (.inl hn)).watchUnits he hj hc hk

end Sys2Proof.Safety

namespace Sys2Proof.Machine
open Sys2Proof.Safety

/-- The keys that the substitution of pipe q for pipe p may write. -/
abbrev substituteKeys (p q key : Nat) : Prop :=
  key = F.CRY_PIPE_CTL_STATE.key p 0 ∨ key = F.CRY_PIPE_CTL_STATE.key q 0 ∨ key = F.CRY_PIPE_FAULT_COUNT.key q 0 ∨
    watchKeys key ∨ key = (F.EVT_RAW_CAUSE 8).key 0 0

/-- Substitution (R165): pipe p drains, spare q is ACTIVE and noted for it, and the fault event is raised. -/
theorem State.substitute_cry_spec {s : State} {p q : Nat} (hp : p < 50) (hq : q < 50) (hpq : p ≠ q)
    (hspare : s.unitsIn cryKind 3 = [q]) :
    (s.substitute cryKind p).unitState cryKind p = 2 ∧ (s.substitute cryKind p).unitState cryKind q = 1 ∧
      (s.substitute cryKind p).ras.subs = s.ras.subs ++ [(3, p, q)] ∧
      ((s.substitute cryKind p).rd (F.EVT_RAW_CAUSE 8) 0).testBit 5 = true ∧
      Frame [.evt, .ras, .job, .cdc] (substituteKeys p q) s (s.substitute cryKind p) := by
  have hactive : Frame [.evt, .job, .cdc] (fun key => key = F.CRY_PIPE_CTL_STATE.key q 0 ∨
      key = F.CRY_PIPE_FAULT_COUNT.key q 0 ∨ watchKeys key) (s.raise cCryPipeFault)
      ((s.raise cCryPipeFault).activateUnit cryKind q) :=
    (Frame.refl _ _ _).activateUnit cryKind q (by decide) (by decide) (by decide) (.inl rfl) (.inr (.inl rfl))
      fun _ h => .inr (.inr h)
  have hraise := (Frame.refl [.evt] (fun key => key = (F.EVT_RAW_CAUSE 8).key 0 0) s).raise cCryPipeFault none none []
    (by decide) (.inl rfl)
  rw [State.substitute_cry hspare]
  refine ⟨?_, ?_, ?_, ?_, ?_⟩
  · rw [State.unitState_watchUnits_cry _ hp]; exact State.rd_wrI_same _ _ _ _
  · rw [State.unitState_watchUnits_cry _ hq, State.unitState_wrI_other _ _ _ hpq.symm, State.unitState_setRas]
    exact State.unitState_activateUnit_cry _ hq
  · exact congrArg Ras.subs ((Frame.of_watchUnits _).1 .ras (by decide))
  · rw [(Frame.of_watchUnits _).rd _ _ _ (by decide) (by decide),
      State.rd_wrI_ne _ _ _ _ _ _ _ (Fld.key_ne_of_place (by decide)), State.setRas_rd,
      hactive.rd _ _ _ ?_ (by decide)]
    · exact s.raise_testBit cCryPipeFault none none [] (by decide)
    · rintro (h | h | h)
      · exact Fld.key_ne_of_place (by decide) h
      · exact Fld.key_ne_of_place (by decide) h
      · revert h; decide
  · have hstart : Frame [.evt, .ras, .job, .cdc] (substituteKeys p q) s
        ((s.raise cCryPipeFault).activateUnit cryKind q) :=
      (hraise.mono (by decide) fun _ h => .inr (.inr (.inr (.inr h)))).trans
        (hactive.mono (by decide) fun _ h => h.elim (fun h => .inr (.inl h)) fun h =>
          h.elim (fun h => .inr (.inr (.inl h))) fun h => .inr (.inr (.inr (.inl h))))
    exact ((hstart.setRas _ (by decide)).wrI _ _ _ (.inl (.inl rfl))).watchUnits (by decide) (by decide) (by decide)
      fun _ h => .inr (.inr (.inr (.inl h)))

/-! ## Directory ways (R330) -/

/-- The control cores reach a page: their command runs. -/
theorem State.viaPath_cores {s : State} {blk page : Nat} (h : s.writeReaches .cores blk page = true)
    (f : State → State) : s.viaPath .cores blk page (isCores .cores) f = f s := by
  simp [State.viaPath, h, isCores]

/-- What a way's fault count shares no key with. -/
theorem wayFaultCount_ne (bank way : Nat) (i : Nat) {f : Fld} (hf : f ∈ [F.DIR_BANK_WAYS_ACTIVE, F.DIR_BANK_WAYS_FAILED])
    (hw : way < 17) : f.key i 0 ≠ F.DIR_WAY_FAULT_COUNT.key bank way := by
  refine Fld.key_ne_of_place ?_
  rcases List.mem_pair.1 hf with rfl | rfl <;>
    simp only [Fld.place, F.DIR_BANK_WAYS_ACTIVE, F.DIR_BANK_WAYS_FAILED, F.DIR_WAY_FAULT_COUNT] <;> omega

/-- A way that stands by becomes ACTIVE, with no fault counted, and is noted as its bank's substitute. -/
theorem State.wayOn_spec {s : State} {bank way : Nat} (hw : way < 17) (hfree : s.wayFree bank way = true) :
    (s.wayOn bank way).wayActive bank way = true ∧ (s.wayOn bank way).rd F.DIR_WAY_FAULT_COUNT bank way = 0 ∧
      (s.wayOn bank way).ras.subs = s.ras.subs ++ [(5, bank, way)] ∧
      Frame [.ras] (fun key => key = F.DIR_BANK_WAYS_ACTIVE.key bank 0 ∨ key = F.DIR_WAY_FAULT_COUNT.key bank way) s
        (s.wayOn bank way) := by
  rw [State.wayOn, if_pos ⟨hw, hfree⟩]
  refine ⟨?_, ?_, rfl, ?_⟩
  · rw [State.wayActive, State.setRas_rd, State.rd_wrAt_ne _ _ _ _ _ _ _ _ (wayFaultCount_ne bank way bank (by simp) hw),
      State.rd_wrI_same]
    exact testBit_setBit_mod hw
  · rw [State.setRas_rd, State.rd_wrAt_same]; rfl
  · exact (((Frame.refl _ _ s).wrI _ _ _ (.inl (.inl rfl))).wrAt _ _ _ _ (.inl (.inr rfl))).setRas _ (by decide)

/-- A record leaves the noted substitutes. -/
theorem State.subs_log (s : State) (type : Nat) (a : About) : (s.log type a).ras.subs = s.ras.subs := by
  have hbump := ((Frame.refl [.evt] (fun key => key = F.RAS_LOG_LOST.key 0 0) s).bump F.RAS_LOG_LOST 0 0 1 none false
    (by decide) (by decide) (.inl rfl)).1 .ras (by decide)
  by_cases hfull : (s.rd F.RAS_LOG_PROD + 1) % 1024 = s.rd F.RAS_LOG_CONS
  · by_cases hraised : s.ras.fullRaised
    · simp only [State.log, if_pos hfull, if_pos hraised]; exact congrArg Ras.subs hbump
    · simp only [State.log, if_pos hfull, if_neg hraised]; exact congrArg Ras.subs hbump
  · simp only [State.log, if_neg hfull]

theorem State.subs_spare (s : State) (kind failing : Nat) (sub : Option Nat) (inside : Nat) :
    (s.spare kind failing sub inside).ras.subs = s.ras.subs := by
  unfold State.spare
  split
  · rw [State.ras_raise, State.subs_log]
  · exact s.subs_log _ _

/-- The state that a way leaves when it is FAILED with way2 in its place. -/
theorem State.wayOff_eq {s : State} {bank way way2 : Nat} (hw : way < 17) (hne : way2 ≠ way)
    (hf : s.wayFailed bank way = false) (hsubs : s.ras.subs = [(5, bank, way2)]) :
    s.wayOff bank way = (((((s.wrI F.DIR_BANK_WAYS_ACTIVE bank (clrBit (s.rd F.DIR_BANK_WAYS_ACTIVE bank) way)).wrI
      F.DIR_BANK_WAYS_FAILED bank (setBit (s.rd F.DIR_BANK_WAYS_FAILED bank) way)).setRas
        { s.ras with subs := [] }).spare 5 way (some way2) bank).raise cDirWayFault) := by
  have hfind : s.ras.subs.find? (fun e => decide (e.1 = 5 ∧ e.2.1 = bank ∧ e.2.2 ≠ way)) = some (5, bank, way2) := by
    simp [hsubs, hne]
  have hcond : way < 17 ∧ (!s.wayFailed bank way) = true := ⟨hw, by rw [hf]; rfl⟩
  rw [State.wayOff, if_pos hcond]
  change (match s.ras.subs.find? _ with | some e => _ | none => _) = _
  rw [hfind]
  change (((State.setRas _ { s.ras with subs := s.ras.subs.erase (5, bank, way2) }).spare _ _ _ _).raise _) = _
  rw [hsubs, List.erase_cons_head]

/-- The keys that a way's failure writes: its two bits, the fault event, and the record of the substitution. -/
abbrev wayOffKeys (bank key : Nat) : Prop :=
  key = F.DIR_BANK_WAYS_ACTIVE.key bank 0 ∨ key = F.DIR_BANK_WAYS_FAILED.key bank 0 ∨
    key = (F.EVT_RAW_CAUSE 5).key 0 0 ∨ key = F.RAS_LOG_PROD.key 0 0 ∨ key = F.RAS_LOG_LOST.key 0 0 ∨
    key = (F.EVT_RAW_CAUSE 12).key 0 0

/-- The record and the event after a way's bits have been written leave them as they are. -/
theorem State.rd_way_spare_raise (s : State) {bank : Nat} (hb : bank < 16) {f : Fld}
    (hf : f ∈ [F.DIR_BANK_WAYS_ACTIVE, F.DIR_BANK_WAYS_FAILED]) (kind failing : Nat) (sub : Option Nat) (inside : Nat) :
    ((s.spare kind failing sub inside).raise cDirWayFault).rd f bank = s.rd f bank := by
  have hrow : ∀ g ∈ [F.DIR_BANK_WAYS_ACTIVE, F.DIR_BANK_WAYS_FAILED], g.blk < 14 ∧ g.p0 = 1 ∧ g.place 0 < 0x40000 ∧
      ∀ w ∈ [F.EVT_RAW_CAUSE 5, F.RAS_LOG_PROD, F.RAS_LOG_LOST, F.EVT_RAW_CAUSE 12],
        g.place 0 % 0x40000 ≠ w.place 0 % 0x40000 := by decide
  obtain ⟨hblk, hpage, hplace, hw⟩ := hrow f hf
  have hframe : Frame [.ras, .evt] (fun key => key = (F.EVT_RAW_CAUSE 5).key 0 0 ∨ key = F.RAS_LOG_PROD.key 0 0 ∨
      key = F.RAS_LOG_LOST.key 0 0 ∨ key = (F.EVT_RAW_CAUSE 12).key 0 0) s
      ((s.spare kind failing sub inside).raise cDirWayFault) :=
    ((Frame.refl _ _ s).spare kind failing sub inside (by decide) (by decide) (.inr (.inl rfl)) (.inr (.inr (.inl rfl)))
      (.inr (.inr (.inr rfl)))).raise cDirWayFault _ _ _ (by decide) (.inl (.inl rfl))
  refine hframe.rd f bank 0 ?_ (Fld.not_inBlock_pmu hblk (by omega) hplace)
  rintro (h | h | h | h) <;> exact Fld.key_ne_of_place (hw _ (by simp)) h

/-- R330 steps 2 and 3, with way2 noted as the substitute. -/
theorem State.wayOff_spec {s : State} {bank way way2 : Nat} (hb : bank < 16) (hw : way < 17) (hne : way2 ≠ way)
    (hf : s.wayFailed bank way = false) (hsubs : s.ras.subs = [(5, bank, way2)]) :
    (s.wayOff bank way).wayActive bank way = false ∧ (s.wayOff bank way).wayFailed bank way = true ∧
      (s.wayOff bank way).ras.subs = [] ∧ ((s.wayOff bank way).rd (F.EVT_RAW_CAUSE 5) 0).testBit 3 = true ∧
      Frame [.ras, .evt] (wayOffKeys bank) s (s.wayOff bank way) := by
  rw [State.wayOff_eq hw hne hf hsubs]
  refine ⟨?_, ?_, ?_, ?_, ?_⟩
  · rw [State.wayActive, State.rd_way_spare_raise _ hb (by simp), State.setRas_rd,
      State.rd_wrI_ne _ _ _ _ _ _ _ (Fld.key_ne_of_place (by decide)), State.rd_wrI_same]
    exact testBit_clrBit_mod _ _ _
  · rw [State.wayFailed, State.rd_way_spare_raise _ hb (by simp), State.setRas_rd, State.rd_wrI_same]
    exact testBit_setBit_mod hw
  · rw [State.ras_raise, State.subs_spare]; rfl
  · exact State.raise_testBit _ cDirWayFault _ _ _ (by decide)
  · have hbits : Frame [.ras, .evt] (wayOffKeys bank) s _ :=
      (((Frame.refl _ _ s).wrI F.DIR_BANK_WAYS_ACTIVE bank (clrBit (s.rd F.DIR_BANK_WAYS_ACTIVE bank) way)
        (.inl (.inl rfl))).wrI F.DIR_BANK_WAYS_FAILED bank (setBit (s.rd F.DIR_BANK_WAYS_FAILED bank) way)
        (.inl (.inr (.inl rfl)))).setRas { s.ras with subs := [] } (by decide)
    exact (hbits.spare 5 way (some way2) bank (by decide) (by decide) (.inr (.inr (.inr (.inl rfl))))
      (.inr (.inr (.inr (.inr (.inl rfl))))) (.inr (.inr (.inr (.inr (.inr rfl)))))).raise cDirWayFault _ _ _ (by decide)
        (.inl (.inr (.inr (.inl rfl))))

/-! ## The commands -/

/-- Settles O15: each command is the shared operation that counts a fault, substitutes a pipe or moves a way. -/
theorem unitFaults : Obligations.UnitFaults := by
  unfold Obligations.UnitFaults
  refine ⟨?passes, ?fails, ?substitutes, ?engine, ?wayOn, ?wayOff⟩
  case passes =>
    intro s p _
    exact ⟨s, congrArg Host.Outcome.next (if_neg (by simp)), rfl, Frame.refl _ _ s⟩
  case fails =>
    intro s p hruns _ hactive hwidth hbelow
    refine ⟨s.faultCounted cryKind p, ?_, State.faultCounted_below cryKind_apart s p hwidth hactive⟩
    rw [← State.unitFault_below cryKind_apart s p hbelow]
    exact congrArg Host.Outcome.next (if_pos ⟨hruns, hactive, rfl⟩)
  case substitutes =>
    intro s p q hruns hp hq hpq hactive hthresh hspare
    have hspares : (s.faultCounted cryKind p).unitsIn cryKind 3 = [q] :=
      (State.unitsIn_congr (State.unitState_faultCounted cryKind_apart s p) 3).trans hspare
    obtain ⟨hdrains, hon, hsubs, hraw, hframe⟩ := State.substitute_cry_spec hp hq hpq hspares
    refine ⟨(s.faultCounted cryKind p).substitute cryKind p, ?_, hdrains, hon, hsubs, hraw, ?_⟩
    · refine (congrArg Host.Outcome.next (if_pos ⟨hruns, .inl hactive⟩)).trans ?_
      rw [State.unitFault_eq cryKind_apart, if_pos ⟨hactive, hthresh⟩]
    · refine Frame.trans ?_ (hframe.mono (fun _ h => h) fun _ h => ?_)
      · exact ((Frame.refl _ _ s).sat _ _ _ _ (.inl (.inl rfl))).sat _ _ _ _ (.inl (.inr (.inl rfl)))
      · obtain h | h | h | (h | h | h) | h := h <;> simp [h]
  case engine =>
    intro s e hheld hoff _ hactive hwidth hbelow
    have hreset : s.inReset = false := by simp [State.inReset, hheld, hoff]
    refine ⟨s.faultCounted scrKind e, ?_, State.faultCounted_below scrKind_apart s e hwidth hactive⟩
    rw [← State.unitFault_below scrKind_apart s e hbelow]
    exact congrArg Host.Outcome.next (if_pos ⟨by rw [hreset]; rfl, .inl hactive⟩)
  case wayOn =>
    intro s bank way hreach _ hw hfree
    exact ⟨s.wayOn bank way, congrArg Host.Outcome.next (State.viaPath_cores hreach _), State.wayOn_spec hw hfree⟩
  case wayOff =>
    intro s bank way way2 hreach hb hw _ hne hfailed hsubs
    exact ⟨s.wayOff bank way, congrArg Host.Outcome.next (State.viaPath_cores hreach _),
      State.wayOff_spec hb hw hne hfailed hsubs⟩

end Sys2Proof.Machine
end

section
/-!
PROOFS of O16: the steps of an integrity halt, and the random source.
-/
namespace Sys2Proof.Safety
open Sys2Proof.Machine

/-- Requests that are dropped leave ADM, TMU, the near tier, the directory and the chain (R504 step 2). -/
theorem Frame.dropRequests {P : List Part} {K : Nat → Prop} {s t : State} (h : Frame P K s t) (gone : Req → Bool)
    (ha : .adm ∈ P) (ht : .tmu ∈ P) (hn : .near ∈ P) (hd : .dir ∈ P) (hc : .clx ∈ P) :
    Frame P K s (t.dropRequests gone) :=
  ((((h.with_adm (t.dropRequests gone).adm ha).with_tmu (t.dropRequests gone).tmu ht).with_near
    (t.dropRequests gone).near hn).with_dir (t.dropRequests gone).dir hd).with_clx (t.dropRequests gone).clx hc

end Sys2Proof.Safety

namespace Sys2Proof.Machine
open Sys2Proof.Safety

/-! ## Step 2: viral -/

theorem State.foldl_emit {α : Type} (s : State) (l : List α) (f : α → Out) :
    l.foldl (fun s x => s.emit (f x)) s = { s with out := s.out ++ l.map f } := by
  induction l generalizing s with
  | nil => simp
  | cons x l ih => rw [List.foldl_cons, ih]; simp [State.emit]

/-- A mask of bits below w fits w bits. -/
theorem maskOf_lt {l : List Nat} {w : Nat} (h : ∀ i ∈ l, i < w) : maskOf l < 2 ^ w := by
  have hfold : ∀ (l : List Nat) (v : Nat), v < 2 ^ w → (∀ i ∈ l, i < w) →
      l.foldl (fun v i => v ||| 2 ^ i) v < 2 ^ w := by
    intro l
    induction l with
    | nil => exact fun _ hv _ => hv
    | cons i l ih =>
      intro v hv hl
      exact ih _ (Nat.or_lt_two_pow hv (Nat.pow_lt_pow_right (by decide) (hl i List.mem_cons_self)))
        fun j hj => hl j (List.mem_cons_of_mem _ hj)
  exact hfold l 0 (Nat.two_pow_pos w) h

/-- The answers to the reads that are outstanding when the halt begins: data with poison. -/
def State.poisonedAnswers (s : State) : List Out :=
  s.outstandingReads.map fun x => Out.data x.1 x.2.1 x.2.2 0 true .cmp

/-- The ports that stand for themselves: each signals viral. -/
def State.viralPorts (s : State) : List Nat := (List.range 16).filter fun n => decide (s.portOf n = n)

/-- What step 2 leaves: answers out, every request dropped, viral signalled, the halt at step 2. -/
def State.viralHalted (s : State) : State :=
  ((State.dropRequests { s with out := s.out ++ s.poisonedAnswers } fun _ => true).wr F.HLX_VIRAL_OUT
    (maskOf s.viralPorts)).setCry { s.cry with halt := 2 }

theorem execHaltViral_of_begun {s : State} (h : s.cry.halt = 1) : exec .haltViral s = .next s.viralHalted := by
  refine (congrArg Host.Outcome.next (if_pos h)).trans ?_
  rw [State.foldl_emit]; rfl

theorem State.viralHalted_frame (s : State) :
    Frame [.out, .adm, .tmu, .near, .dir, .clx, .cry] (fun key => key = F.HLX_VIRAL_OUT.key 0 0) s s.viralHalted := by
  have hout : Frame [.out, .adm, .tmu, .near, .dir, .clx, .cry] (fun key => key = F.HLX_VIRAL_OUT.key 0 0) s
      { s with out := s.out ++ s.poisonedAnswers } := (Frame.refl _ _ s).with_out _ (by decide)
  exact ((hout.dropRequests _ (by decide) (by decide) (by decide) (by decide) (by decide)).wr _ _ (.inl rfl)).setCry _
    (by decide)

/-! ## Step 4: zeroization -/

/-- The vault's fields that step 4 zeroizes in every slot (Table 4.9). -/
def vaultFields : List Fld :=
  [F.CRY_RGN_GEN_CUR, F.CRY_RGN_GEN_PREV, F.CRY_RGN_REKEY_STATE, F.CRY_RGN_REKEY_QUEUED, F.CRY_RGN_KEY_BASE_GEN,
   F.CRY_RGN_KEY_KEY_BIND, F.TMU_RGN_POLICY_KEYGEN]

/-- Field by field, slot by slot. -/
def vaultEntries : List (Fld × Nat × Nat) := (List.range 64).flatMap fun r => vaultFields.map fun f => (f, r, 0)

theorem mem_vaultEntries {x : Fld × Nat × Nat} :
    x ∈ vaultEntries ↔ ∃ r < 64, ∃ f ∈ vaultFields, (f, r, 0) = x := by
  simp [vaultEntries]

theorem vaultFields_rows : ∀ f ∈ vaultFields, f ≠ F.CRY_PIPE_WORK_UNITS ∧ f.rst = 0 ∧ f.dyn ≠ 1 := by decide

theorem rstAt_of_mem_vaultFields {f : Fld} (h : f ∈ vaultFields) (i k : Nat) : f.rstAt i k = 0 := by
  obtain ⟨-, hrst, hdyn⟩ := vaultFields_rows f h
  simp [Fld.rstAt, hdyn, hrst]

/-- Zeroizing the vault clears its fields one by one. -/
theorem State.zeroizeGens_eq_foldl (s : State) : s.zeroizeGens = vaultEntries.foldl State.clearRcField s := by
  rw [vaultEntries, List.foldl_flatMap]
  refine List.foldl_ext _ _ _ fun t r _ => ?_
  rw [List.foldl_map]
  refine List.foldl_ext _ _ _ fun u f hf => ?_
  rw [State.clearRcField, if_neg (vaultFields_rows f hf).1]; rfl

theorem State.rd_zeroizeGens (s : State) {f : Fld} (hf : f ∈ vaultFields) {r : Nat} (hr : r < 64) :
    s.zeroizeGens.rd f r = 0 := by
  have hnone : mget s.zeroizeGens.regs (f.key r 0) = none := by
    rw [State.zeroizeGens_eq_foldl]
    refine State.mget_foldl_clearRcField _ s (fun x hx => ?_) _ (.inl ⟨(f, r, 0), ?_, rfl⟩)
    · obtain ⟨_, _, g, hg, rfl⟩ := mem_vaultEntries.1 hx
      exact rstAt_of_mem_vaultFields hg _ _
    · exact mem_vaultEntries.2 ⟨r, hr, f, hf, rfl⟩
  rw [State.rd, mgetD, hnone]
  exact rstAt_of_mem_vaultFields hf r 0

/-- The rest of step 4, once the generations of g read 0: the keys of the vault x, the IDE keys and what the AON retention
store holds are gone, and the halt is at step 4. -/
def State.keysGone (g : State) (x : Cry) : State :=
  let s1 := (g.setCry { x with
    root := none, kek := none, slotKeys := [], cross := [], keyWait := [], walks := [], rekeyJobs := [], ide := [],
    ctrHolds := [], halt := 4 }).setClx { g.clx with home := [] }
  { s1 with
    ctl := { s1.ctl with override := none }, mem := { s1.mem with canaries := [], serials := [], resumeHeader := [] } }

theorem State.rd_keysGone (g : State) (x : Cry) (f : Fld) (i k : Nat) : (g.keysGone x).rd f i k = g.rd f i k := rfl

theorem Frame.keysGone {P : List Part} {K : Nat → Prop} {s g : State} (h : Frame P K s g) (x : Cry) (hy : .cry ∈ P)
    (hx : .clx ∈ P) (hc : .ctl ∈ P) (hm : .mem ∈ P) : Frame P K s (g.keysGone x) :=
  (((h.setCry (g.keysGone x).cry hy).setClx (g.keysGone x).clx hx).with_ctl (g.keysGone x).ctl hc).with_mem
    (g.keysGone x).mem hm

theorem execHaltZeroize_of_stopped {s : State} (h : s.cry.halt = 3) :
    exec .haltZeroize s = .next (s.zeroizeGens.keysGone s.cry) :=
  congrArg Host.Outcome.next (if_pos h)

theorem State.zeroizeGens_frame (s : State) (P : List Part) :
    Frame P (fun key => ∃ r < 64, ∃ f ∈ vaultFields, key = f.key r 0) s s.zeroizeGens :=
  Frame.foldl _ _ s fun t r hr => Frame.foldl _ _ t fun u f hf =>
    (Frame.refl _ _ u).wrI _ _ _ (.inl ⟨r, List.mem_range.1 hr, f, hf, rfl⟩)

/-! ## The commands -/

/-- Settles O16: each step is taken from the state of the step before; the vault's fields are cleared one by one. -/
theorem haltSteps : Obligations.HaltSteps := by
  unfold Obligations.HaltSteps
  refine ⟨?viral, ?chainStop, ?zeroize, ?trng⟩
  case viral =>
    intro s hhalt
    refine ⟨_, execHaltViral_of_begun hhalt, rfl, rfl, ?_, ?_, ?_, ?_, rfl, rfl, ?_⟩
    · rw [State.viralHalted, State.setCry_rd, State.rd_wr_same]
      exact Nat.mod_eq_of_lt (maskOf_lt fun i hi => List.mem_range.1 (List.mem_of_mem_filter hi))
    · exact List.filter_eq_nil_iff.2 (by simp)
    · exact List.filter_eq_nil_iff.2 (by simp)
    · exact List.filter_eq_nil_iff.2 (by simp)
    · exact s.viralHalted_frame
  case chainStop =>
    intro s hhalt
    have hsends : ∀ p, (s.setCry { s.cry with halt := 3 }).clSends p = false := by simp [State.clSends]
    exact ⟨_, congrArg Host.Outcome.next (if_pos hhalt), rfl, hsends 0, hsends 1,
      (Frame.refl _ _ s).setCry _ (by decide)⟩
  case zeroize =>
    intro s hhalt
    refine ⟨_, execHaltZeroize_of_stopped hhalt, rfl, rfl, rfl, rfl, rfl, rfl, rfl, rfl, rfl, rfl, fun r hr => ?_,
      Frame.keysGone ((s.zeroizeGens_frame _).mono (fun _ h => h) fun key hkey => ?_) s.cry (by decide) (by decide)
        (by decide) (by decide)⟩
    · have hzero := fun f hf => (State.rd_keysGone _ s.cry f r 0).trans (s.rd_zeroizeGens hf hr)
      exact ⟨hzero _ (by decide), hzero _ (by decide), hzero _ (by decide), hzero _ (by decide), hzero _ (by decide),
        hzero _ (by decide), hzero _ (by decide)⟩
    · obtain ⟨r, hr, f, hf, rfl⟩ := hkey
      refine ⟨r, hr, ?_⟩
      simp only [vaultFields, List.mem_cons, List.not_mem_nil, or_false] at hf
      rcases hf with rfl | rfl | rfl | rfl | rfl | rfl | rfl <;> simp
  case trng =>
    intro s hroot hhalt hcur
    have hframe : Frame [.evt] (fun key => key = F.CRY_MODE_TRNG_OK.key 0 0 ∨ key = (F.EVT_RAW_CAUSE 8).key 0 0) s
        ((s.wr F.CRY_MODE_TRNG_OK 0).raise cTrngFault) :=
      ((Frame.refl _ _ s).wr _ _ (.inl (.inl rfl))).raise _ _ _ _ (by decide) (.inl (.inr rfl))
    refine ⟨_, congrArg Host.Outcome.next (if_pos ⟨hroot, hhalt, hcur⟩), ?_, hframe.1 .cry (by decide),
      State.raise_testBit _ cTrngFault _ _ _ (by decide), hframe⟩
    rw [State.rd_raise_ne _ _ _ _ _ _ _ _ (by decide), State.rd_wr_same]; rfl

end Sys2Proof.Machine
end

section
/-!
PROOFS of O20: the commands on keys, by what an Avsar command leaves when it is served.
-/
namespace Sys2Proof.Machine
open Sys2Proof.Safety

/-! ## What a mailbox leaves when it answers -/

/-- An answer adds to what leaves the unit, or keeps its interrupt in HLX, and changes nothing else. -/
theorem State.reply_eq (s : State) (src : MboxSrc) (op rc : Nat) (out : List Byte) :
    s.reply src op rc out =
      { s with out := s.out ++ Out.mbox src op rc out :: notice s src, hlx := noticed s src s.hlx } := by
  cases src with
  | sideband => rfl
  | session h l sid => rfl
  | ld h l =>
    have hup : (s.emit (.mbox (.ld h l) op rc out)).headUp h = s.headUp h := rfl
    have hent : ∀ v, (s.emit (.mbox (.ld h l) op rc out)).msixEnt h l v = s.msixEnt h l v := fun _ => rfl
    simp only [State.reply, State.msix, State.sendMsix, hup, hent, notice, noticed, mboxVec, State.emit_rd]
    by_cases h1 : s.headUp h = true
    · by_cases h2 : (s.msixEnt h l (s.rd F.HLX_HEAD_VEC_MBOX_VEC (hl h l))).masked = true <;>
        simp [h1, h2, State.emit, State.setHlx]
    · simp [h1, State.emit]

/-- A kept interrupt leaves the vectors' table. -/
theorem msix_noticed (s : State) (src : MboxSrc) (x : Hlx) : (noticed s src x).msix = x.msix := by
  unfold noticed
  split
  · next h l v _ => by_cases hm : (s.msixEnt h l v).masked = true <;> simp [hm]
  · rfl

theorem State.reply_rd (s : State) (src : MboxSrc) (op rc : Nat) (out : List Byte) (f : Fld) (i k : Nat) :
    (s.reply src op rc out).rd f i k = s.rd f i k := by
  rw [State.reply_eq]; rfl

/-- Between s and the answer of a state t, whose outputs and HLX are those of s, the mailbox has answered. -/
theorem State.answered_reply {s t : State} (hout : t.out = s.out) (hhlx : t.hlx = s.hlx) (src : MboxSrc) (op rc : Nat)
    (out : List Byte) : Answered s (t.reply src op rc out) src op rc out := by
  have hvec : mboxVec (t.reply src op rc out) src = mboxVec t src := by rw [State.reply_eq]; rfl
  have hent : ∀ h l v, (t.reply src op rc out).msixEnt h l v = t.msixEnt h l v := by
    intro h l v
    rw [State.reply_eq]
    simp only [State.msixEnt, msix_noticed]
  have hnotice : notice (t.reply src op rc out) src = notice t src := by simp only [notice, hvec, hent]
  have hnoticed : ∀ x, noticed (t.reply src op rc out) src x = noticed t src x := by
    simp only [noticed, hvec, hent, implies_true]
  refine ⟨?_, ?_⟩
  · rw [hnotice, State.reply_eq, ← hout]
  · rw [hnoticed, State.reply_eq, ← hhlx]

end Sys2Proof.Machine

namespace Sys2Proof.Safety
open Sys2Proof.Machine

theorem Frame.reply {P : List Part} {K : Nat → Prop} {s t : State} (h : Frame P K s t) (src : MboxSrc) (op rc : Nat)
    (out : List Byte) (ho : .out ∈ P) (hh : .hlx ∈ P) : Frame P K s (t.reply src op rc out) := by
  rw [State.reply_eq]
  exact (h.with_out (t.out ++ Out.mbox src op rc out :: notice t src) ho).with_hlx (noticed t src t.hlx) hh

end Sys2Proof.Safety

namespace Sys2Proof.Machine
open Sys2Proof.Safety

/-! ## An Avsar command that is served -/

/-- In P0 with no entry under way a happening wakes nothing. -/
theorem State.knock_of_idle (s : State) (code : Nat) (hcur : s.rd F.AON_PWR_MODE_CUR = 0)
    (hst : s.aon.entry.stage = 0) : s.knock code = s := by
  simp [State.knock, s.wake_of_stage_zero code hst, State.cur, hcur]

/-- In P0 with no entry under way, a mailbox that is up and free takes a command that its issuer may give. -/
structure MboxReady (s : State) (src : MboxSrc) (need : Need) : Prop where
  cur : s.rd F.AON_PWR_MODE_CUR = 0
  stage : s.aon.entry.stage = 0
  up : s.mboxUp src = true
  free : s.mboxBusy src = false
  permitted : s.lacks src need = none

section
variable {s : State} {src : MboxSrc} {need : Need} (hr : MboxReady s src need) {op len : Nat} {p : List Byte}
  (hlen : p.length = len) {f : State → Ans}
include hr hlen

theorem State.avsar_ok {t : State} {out : List Byte} (hf : f s = .ok t out) :
    s.avsar src op len need p f = t.reply src op rcSuccess (resultHeader 0 0 ++ out) := by
  simp [State.avsar, s.knock_of_idle 1 hr.cur hr.stage, hr.up, hr.free, hlen, hr.permitted, hf]

theorem State.avsar_err {arc detail : Nat} (hf : f s = .err arc detail) :
    s.avsar src op len need p f = s.reply src op rcSuccess (resultHeader arc detail) := by
  simp [State.avsar, s.knock_of_idle 1 hr.cur hr.stage, hr.up, hr.free, hlen, hr.permitted, hf]

theorem State.background_ok {t : State} {out : List Byte} {arg : Nat} (hf : f s = .ok t out) :
    s.background src op len need p arg f =
      (t.setCtl { t.ctl with background := t.ctl.background ++ [BgOp.mk src op arg] }).reply src op rcBackground [] := by
  simp [State.background, s.knock_of_idle 1 hr.cur hr.stage, hr.up, hr.free, hlen, hr.permitted, hf, State.setCtl]

end

/-! ## Native key mode -/

/-- Every head's KEY_EN is cleared (R51, R549). -/
def State.keyTagsOff (s : State) : State :=
  (List.range 16).foldl (fun s h => s.wrAt F.TMU_HEAD_TAG_KEY_EN 0 h 0) s

theorem State.rd_keyTagsOff (s : State) {h : Nat} (hh : h < 16) : s.keyTagsOff.rd F.TMU_HEAD_TAG_KEY_EN 0 h = 0 := by
  have hfold : s.keyTagsOff = ((List.range 16).map fun h => (F.TMU_HEAD_TAG_KEY_EN, 0, h)).foldl
      (fun t x => t.wrAt x.1 x.2.1 x.2.2 0) s := by rw [List.foldl_map]; rfl
  rw [hfold]
  have hmem : (F.TMU_HEAD_TAG_KEY_EN, 0, h) ∈ (List.range 16).map fun h => (F.TMU_HEAD_TAG_KEY_EN, 0, h) :=
    List.mem_map_of_mem (List.mem_range.2 hh)
  rw [State.rd_foldl_wrAt _ (fun _ => 0) s (by decide) hmem, Nat.zero_mod]

theorem State.keyTagsOff_frame (s : State) :
    Frame [] (fun key => ∃ h < 16, key = F.TMU_HEAD_TAG_KEY_EN.key 0 h) s s.keyTagsOff :=
  Frame.foldl _ _ s fun t h hh => (Frame.refl _ _ t).wrAt _ _ _ _ (.inl ⟨h, List.mem_range.1 hh, rfl⟩)

theorem State.rd_mode_keyTagsOff (s : State) : s.keyTagsOff.rd F.CRY_MODE_MODE = s.rd F.CRY_MODE_MODE :=
  s.keyTagsOff_frame.rd _ _ _ (by decide) (by decide)

/-- Native key mode: the mode and the heads' KEY_EN, nothing else. -/
theorem State.nativeMode_frame (s : State) :
    Frame [] (fun key => key = F.CRY_MODE_MODE.key 0 0 ∨ ∃ h < 16, key = F.TMU_HEAD_TAG_KEY_EN.key 0 h) s
      (s.wr F.CRY_MODE_MODE 0).keyTagsOff :=
  ((Frame.refl _ _ s).wr _ _ (.inl (.inl rfl))).trans ((State.keyTagsOff_frame _).mono (by simp) fun _ hk => .inr hk)

section
variable {s : State} {src : MboxSrc} (hr : MboxReady s src (.perm 0)) {p : List Byte} (hlen : p.length = 4)
  (hnone : s.regionsPresent = 0)
include hr hlen hnone

theorem State.setKeyMode_native (hv : numAt p 0 4 = 0) :
    s.setKeyMode src p =
      (s.wr F.CRY_MODE_MODE 0).keyTagsOff.reply src 0xc010 rcSuccess (resultHeader 0 0 ++ []) := by
  refine State.avsar_ok hr hlen ?_
  simp only [hv, hnone, State.keyTagsOff, Nat.not_lt_zero, ne_eq, not_true, if_false, if_true]

theorem State.setKeyMode_vk4 (hv : numAt p 0 4 = 1) :
    s.setKeyMode src p = (s.wr F.CRY_MODE_MODE 1).reply src 0xc010 rcSuccess (resultHeader 0 0 ++ []) := by
  refine State.avsar_ok hr hlen ?_
  simp only [hv, hnone, Nat.lt_irrefl, ne_eq, not_true, if_false, Nat.one_ne_zero]

end

/-! ## Keys that are wrapped -/

theorem State.loadWrapKey_served {s : State} {src : MboxSrc} (hr : MboxReady s src (.perm 0)) {p : List Byte}
    (hlen : p.length = 36) (hres : reservedAt p 0 4 = none) (hsess : s.wrapSession src = true) :
    s.loadWrapKey src p =
      (s.setCry { s.cry with kek := some (BitVec.ofNat 256 (beNat (bytesAt p 4 32))) }).reply src 0xc011 rcSuccess
        (resultHeader 0 0 ++ []) :=
  State.avsar_ok hr hlen (by simp only [hsess, hres, Bool.not_true, Bool.false_eq_true, if_false])

section
variable {s : State} {src : MboxSrc} (hr : MboxReady s src (.perm 1)) {p : List Byte} (hk : numAt p 0 4 ≤ 63)
  (hbound : s.keyBound (numAt p 0 4) = false)
include hr hk hbound

theorem State.clearKeySlot_served (hlen : p.length = 4) :
    s.clearKeySlot src p = (s.setCry { s.cry with slotKeys := mdel s.cry.slotKeys (numAt p 0 4) }).reply src 0xc013
      rcSuccess (resultHeader 0 0 ++ []) := by
  refine State.avsar_ok hr hlen ?_
  simp only [Nat.not_lt.2 hk, hbound, if_false, Bool.false_eq_true]

end

/-- What LOAD_KEY_SLOT answers, over the function that unwraps: so a proof about it looks into no cipher. -/
def State.loadKeyAns (unwrap : List Byte → List Byte → Option (List Byte)) (p : List Byte) (s : State) : Ans :=
  let k := numAt p 0 4
  if 63 < k then .err 2 0
  else match s.cry.kek with
    | none => .err 0xa 1
    | some kek => match unwrap (beBytes 32 kek.toNat) (bytesAt p 4 40) with
      | none => .err 0xa 2
      | some key =>
        if s.keyBound k then .err 0xa 3
        else .ok (s.setCry { s.cry with slotKeys := mput s.cry.slotKeys k (BitVec.ofNat 256 (beNat key)) }) []

theorem State.loadKeySlot_eq (s : State) (src : MboxSrc) (p : List Byte) :
    s.loadKeySlot src p = s.avsar src 0xc012 44 (.perm 1) p (State.loadKeyAns kwUnwrap p) := rfl

section
variable {unwrap : List Byte → List Byte → Option (List Byte)} {s : State} {p : List Byte} (hk : numAt p 0 4 ≤ 63)
  {kek : BitVec 256} (hkek : s.cry.kek = some kek)
include hk hkek

theorem State.loadKeyAns_unwraps {key : List Byte} (hkey : unwrap (beBytes 32 kek.toNat) (bytesAt p 4 40) = some key)
    (hbound : s.keyBound (numAt p 0 4) = false) :
    State.loadKeyAns unwrap p s = .ok (s.setCry { s.cry with
      slotKeys := mput s.cry.slotKeys (numAt p 0 4) (BitVec.ofNat 256 (beNat key)) }) [] := by
  simp [State.loadKeyAns, Nat.not_lt.2 hk, hkek, hkey, hbound]

/-- A key that does not unwrap is refused with DETAIL 2. -/
theorem State.loadKeyAns_refuses (hkey : unwrap (beBytes 32 kek.toNat) (bytesAt p 4 40) = none) :
    State.loadKeyAns unwrap p s = .err 0xa 2 := by
  simp [State.loadKeyAns, Nat.not_lt.2 hk, hkek, hkey]

end

section
variable {s : State} {src : MboxSrc} (hr : MboxReady s src (.perm 1)) {p : List Byte} (hlen : p.length = 44)
  (hk : numAt p 0 4 ≤ 63) {kek : BitVec 256} (hkek : s.cry.kek = some kek)
include hr hlen hk hkek

theorem State.loadKeySlot_unwraps {key : List Byte}
    (hkey : kwUnwrap (beBytes 32 kek.toNat) (bytesAt p 4 40) = some key) (hbound : s.keyBound (numAt p 0 4) = false) :
    s.loadKeySlot src p = (s.setCry { s.cry with
      slotKeys := mput s.cry.slotKeys (numAt p 0 4) (BitVec.ofNat 256 (beNat key)) }).reply src 0xc012 rcSuccess
        (resultHeader 0 0 ++ []) :=
  (s.loadKeySlot_eq src p).trans (State.avsar_ok hr hlen (State.loadKeyAns_unwraps hk hkek hkey hbound))

theorem State.loadKeySlot_refuses (hkey : kwUnwrap (beBytes 32 kek.toNat) (bytesAt p 4 40) = none) :
    s.loadKeySlot src p = s.reply src 0xc012 rcSuccess (resultHeader 0xa 2) :=
  (s.loadKeySlot_eq src p).trans (State.avsar_err hr hlen (State.loadKeyAns_refuses hk hkek hkey))

end

/-! ## The start of a rekey -/

/-- The keys that the start of a rekey of region r writes (R152 step 1). -/
abbrev rekeyKeys (r key : Nat) : Prop :=
  key = F.CRY_RGN_GEN_CUR.key r 0 ∨ key = F.CRY_RGN_GEN_PREV.key r 0 ∨ key = F.TMU_RGN_POLICY_KEYGEN.key r 0 ∨
    key = F.CRY_RGN_REKEY_STATE.key r 0 ∨ key = F.CRY_RGN_REKEY_CAUSE.key r 0 ∨ key = (F.EVT_RAW_CAUSE 8).key 0 0

/-- The registers of region r once its generation n + 1 is the current one. -/
def State.rekeyRegs (s : State) (r n cause : Nat) : State :=
  ((((s.wrI F.CRY_RGN_GEN_PREV r n).wrI F.CRY_RGN_GEN_CUR r (n + 1)).wrI F.TMU_RGN_POLICY_KEYGEN r (n + 1)).wrI
    F.CRY_RGN_REKEY_STATE r 1).wrI F.CRY_RGN_REKEY_CAUSE r cause

/-- The vault once the rekey of region r has begun: no crossing of it yet, its walk at tile 0, its bulk key awaited. -/
def State.rekeyVault (s : State) (r : Nat) : Cry :=
  { s.cry with
    cross := s.cry.cross.filter (fun e => decide (keySlot e.1 ≠ r)), keyWait := ninsert s.cry.keyWait r,
    walks := mput s.cry.walks r 0 }

theorem State.startRekey_eq {s : State} {r : Nat} (hlt : s.curGen r < 0xffffffff) (cause : Nat) :
    s.startRekey r cause = (((s.rekeyRegs r (s.curGen r) cause).setCry (s.rekeyVault r)).setAdm
      { s.adm with recompute := true }).raise cRekeyStarted (some r) :=
  if_neg (Nat.ne_of_lt hlt)

/-- Writing a field leaves the fields at other places. -/
theorem State.rd_wrI_apart (s : State) {f g : Fld} (i j v : Nat)
    (h : g.place 0 % 0x40000 ≠ f.place 0 % 0x40000) : (s.wrI f i v).rd g j = s.rd g j :=
  s.rd_wrI_ne _ _ _ _ _ _ (Fld.key_ne_of_place h)

theorem State.rd_rekeyRegs (s : State) {r n cause : Nat} (hn : n + 1 < 2 ^ 32) (hc : cause < 4) :
    (s.rekeyRegs r n cause).rd F.CRY_RGN_GEN_CUR r = n + 1 ∧ (s.rekeyRegs r n cause).rd F.CRY_RGN_GEN_PREV r = n ∧
      (s.rekeyRegs r n cause).rd F.TMU_RGN_POLICY_KEYGEN r = n + 1 ∧
      (s.rekeyRegs r n cause).rd F.CRY_RGN_REKEY_STATE r = 1 ∧
      (s.rekeyRegs r n cause).rd F.CRY_RGN_REKEY_CAUSE r = cause := by
  unfold State.rekeyRegs
  refine ⟨?_, ?_, ?_, ?_, ?_⟩
  · rw [State.rd_wrI_apart _ _ _ _ (by decide), State.rd_wrI_apart _ _ _ _ (by decide),
      State.rd_wrI_apart _ _ _ _ (by decide), State.rd_wrI_same]
    exact Nat.mod_eq_of_lt hn
  · rw [State.rd_wrI_apart _ _ _ _ (by decide), State.rd_wrI_apart _ _ _ _ (by decide),
      State.rd_wrI_apart _ _ _ _ (by decide), State.rd_wrI_apart _ _ _ _ (by decide), State.rd_wrI_same]
    exact Nat.mod_eq_of_lt (Nat.lt_of_succ_lt hn)
  · rw [State.rd_wrI_apart _ _ _ _ (by decide), State.rd_wrI_apart _ _ _ _ (by decide), State.rd_wrI_same]
    exact Nat.mod_eq_of_lt hn
  · rw [State.rd_wrI_apart _ _ _ _ (by decide), State.rd_wrI_same]; rfl
  · rw [State.rd_wrI_same]; exact Nat.mod_eq_of_lt hc

theorem State.startRekey_spec {s : State} {r : Nat} (hlt : s.curGen r < 0xffffffff) {cause : Nat} (hc : cause < 4) :
    (s.startRekey r cause).rd F.CRY_RGN_GEN_CUR r = s.curGen r + 1 ∧
      (s.startRekey r cause).rd F.CRY_RGN_GEN_PREV r = s.curGen r ∧
      (s.startRekey r cause).rd F.TMU_RGN_POLICY_KEYGEN r = s.curGen r + 1 ∧
      (s.startRekey r cause).rekeying r = true ∧ (s.startRekey r cause).rd F.CRY_RGN_REKEY_CAUSE r = cause ∧
      (s.startRekey r cause).cry.keyWait = ninsert s.cry.keyWait r ∧
      ((s.startRekey r cause).rd (F.EVT_RAW_CAUSE 8) 0).testBit 1 = true ∧
      Frame [.cry, .adm, .evt] (rekeyKeys r) s (s.startRekey r cause) := by
  have hregs : ∀ f : Fld, f.place 0 % 0x40000 ≠ (F.EVT_RAW_CAUSE 8).place 0 % 0x40000 →
      (s.startRekey r cause).rd f r = (s.rekeyRegs r (s.curGen r) cause).rd f r := by
    intro f hf
    rw [State.startRekey_eq hlt]
    exact State.rd_raise_ne _ cRekeyStarted _ _ _ _ _ _ (Fld.key_ne_of_place hf)
  obtain ⟨hcur, hprev, hpolicy, hstate, hcause⟩ := s.rd_rekeyRegs (r := r) (n := s.curGen r) (by omega) hc
  have hframe : Frame [.cry, .adm, .evt] (rekeyKeys r) s (s.rekeyRegs r (s.curGen r) cause) :=
    (((((Frame.refl _ _ s).wrI _ _ _ (.inl (.inr (.inl rfl)))).wrI _ _ _ (.inl (.inl rfl))).wrI _ _ _
      (.inl (.inr (.inr (.inl rfl))))).wrI _ _ _ (.inl (.inr (.inr (.inr (.inl rfl)))))).wrI _ _ _
        (.inl (.inr (.inr (.inr (.inr (.inl rfl))))))
  refine ⟨(hregs _ (by decide)).trans hcur, (hregs _ (by decide)).trans hprev, (hregs _ (by decide)).trans hpolicy, ?_,
    (hregs _ (by decide)).trans hcause, ?_, ?_, ?_⟩
  · rw [State.rekeying, State.rdb, hregs _ (by decide), hstate]; rfl
  · rw [State.startRekey_eq hlt]
    exact congrArg Cry.keyWait
      (((Frame.refl [.evt] (fun key => key = (F.EVT_RAW_CAUSE 8).key 0 0) _).raise cRekeyStarted _ _ _ (by decide)
        (.inl rfl)).1 .cry (by decide))
  · rw [State.startRekey_eq hlt]; exact State.raise_testBit _ cRekeyStarted _ _ _ (by decide)
  · rw [State.startRekey_eq hlt]
    exact ((hframe.setCry _ (by decide)).setAdm _ (by decide)).raise _ _ _ _ (by decide)
      (.inl (.inr (.inr (.inr (.inr (.inr rfl))))))

/-- REKEY_REGION of an ACTIVE region that is not being rekeyed starts a rekey and runs on in the background. -/
theorem State.rekeyRegion_starts {s : State} {src : MboxSrc} (hr : MboxReady s src (.perm 0)) {p : List Byte}
    (hlen : p.length = 4) (hnear : s.nearOnly = false) {r : Nat} (hnum : numAt p 0 4 = r) (hlt : r < 64)
    (hstate : s.rgnState r = 1) (htype : s.rgnType r ≠ 4) (hheld : s.slotHeld r = false)
    (hdel : s.isDeleting r = false) (hrekey : s.rekeying r = false) (hgen : s.curGen r < 0xffffffff) :
    s.rekeyRegion src p = ((s.startRekey r 3).setCtl { (s.startRekey r 3).ctl with
      background := (s.startRekey r 3).ctl.background ++ [BgOp.mk src 0xc014 r] }).reply src 0xc014 rcBackground [] := by
  rw [State.rekeyRegion]
  simp only [hnear, hnum, Bool.false_eq_true, if_false]
  refine State.background_ok hr hlen (out := []) ?_
  simp [Nat.not_lt.2 (Nat.le_of_lt_succ hlt), hstate, htype, hheld, hdel, hrekey, Nat.ne_of_lt hgen]

/-! ## The commands -/

/-- Settles O20: each command is served by what it does to the vault's data and fields, and the answer follows it. -/
theorem mailboxKeys : Obligations.MailboxKeys := by
  unfold Obligations.MailboxKeys
  refine ⟨?native, ?vk4, ?wrapKey, ?loadSlot, ?clearSlot, ?rekey⟩
  case native =>
    intro s src p hcur hst hup hfree hperm hlen hv hnone
    have hframe : Frame [.out, .hlx] _ s _ := s.nativeMode_frame.mono (P := []) (by simp) fun _ h => h
    have hout := s.nativeMode_frame.1 .out (by simp)
    have hhlx := s.nativeMode_frame.1 .hlx (by simp)
    refine ⟨_, congrArg Host.Outcome.next (State.setKeyMode_native ⟨hcur, hst, hup, hfree, hperm⟩ hlen hnone hv),
      ?_, fun h hh => ?_, ?_, ?_⟩
    · rw [State.reply_rd, State.rd_mode_keyTagsOff, State.rd_wr_same]; rfl
    · rw [State.reply_rd, State.rd_keyTagsOff _ hh]
    · exact State.answered_reply hout hhlx _ _ _ _
    · exact hframe.reply _ _ _ _ (by decide) (by decide)
  case vk4 =>
    intro s src p hcur hst hup hfree hperm hlen hv hnone
    have hframe : Frame [.out, .hlx] (fun key => key = F.CRY_MODE_MODE.key 0 0) s (s.wr F.CRY_MODE_MODE 1) :=
      (Frame.refl _ _ s).wr _ _ (.inl rfl)
    refine ⟨_, congrArg Host.Outcome.next (State.setKeyMode_vk4 ⟨hcur, hst, hup, hfree, hperm⟩ hlen hnone hv), ?_,
      State.answered_reply rfl rfl _ _ _ _, hframe.reply _ _ _ _ (by decide) (by decide)⟩
    rw [State.reply_rd, State.rd_wr_same]; rfl
  case wrapKey =>
    intro s h l sid p hcur hst hup hfree hperm hlen hres hsess
    have hr : MboxReady s (.session h l sid) (.perm 0) := ⟨hcur, hst, hup, hfree, hperm⟩
    exact ⟨_, congrArg Host.Outcome.next (State.loadWrapKey_served hr hlen hres hsess), rfl,
      State.answered_reply rfl rfl _ _ _ _,
      ((Frame.refl _ _ s).setCry _ (by decide)).reply _ _ _ _ (by decide) (by decide)⟩
  case loadSlot =>
    intro s src p k kek hcur hst hup hfree hperm hlen hnum hk hkek hbound
    subst hnum
    have hr : MboxReady s src (.perm 1) := ⟨hcur, hst, hup, hfree, hperm⟩
    cases hkey : kwUnwrap (beBytes 32 kek.toNat) (bytesAt p 4 40) with
    | none =>
      exact ⟨_, congrArg Host.Outcome.next (State.loadKeySlot_refuses hr hlen hk hkek hkey), by rw [State.reply_eq],
        State.answered_reply rfl rfl _ _ _ _, (Frame.refl _ _ s).reply _ _ _ _ (by decide) (by decide)⟩
    | some key =>
      refine ⟨_, congrArg Host.Outcome.next (State.loadKeySlot_unwraps hr hlen hk hkek hkey hbound), ?_,
        State.answered_reply rfl rfl _ _ _ _,
        ((Frame.refl _ _ s).setCry _ (by decide)).reply _ _ _ _ (by decide) (by decide)⟩
      rw [State.reply_eq]
      exact mget_mput_same _ _ _
  case clearSlot =>
    intro s src p k hcur hst hup hfree hperm hlen hnum hk hbound
    subst hnum
    have hr : MboxReady s src (.perm 1) := ⟨hcur, hst, hup, hfree, hperm⟩
    refine ⟨_, congrArg Host.Outcome.next (State.clearKeySlot_served hr hk hbound hlen), ?_, fun j hj => ?_, State.answered_reply rfl rfl _ _ _ _,
      ((Frame.refl _ _ s).setCry _ (by decide)).reply _ _ _ _ (by decide) (by decide)⟩
    · rw [State.reply_eq]; exact mget_mdel_same _ _
    · rw [State.reply_eq]; exact mget_mdel_ne _ hj
  case rekey =>
    intro s src p r hcur hst hup hfree hperm hnear hlen hnum hlt hstate htype hheld hdel hrekey hgen
    obtain ⟨hnew, hprev, hpolicy, hon, hcause, hwait, hraw, hframe⟩ :=
      State.startRekey_spec hgen (cause := 3) (by decide)
    have hctl : (s.startRekey r 3).ctl = s.ctl := hframe.1 .ctl (by decide)
    have hout : (s.startRekey r 3).out = s.out := hframe.1 .out (by decide)
    have hhlx : (s.startRekey r 3).hlx = s.hlx := hframe.1 .hlx (by decide)
    have hstarts := State.rekeyRegion_starts ⟨hcur, hst, hup, hfree, hperm⟩ hlen hnear hnum hlt hstate htype hheld hdel
      hrekey hgen
    generalize s.startRekey r 3 = t at *
    refine ⟨_, congrArg Host.Outcome.next hstarts, ?_, ?_, ?_, ?_, ?_, ?_, ?_, ?_, ?_, ?_⟩
    · rw [State.reply_rd]; exact hnew
    · rw [State.reply_rd]; exact hprev
    · rw [State.reply_rd]; exact hpolicy
    · rw [State.rekeying, State.rdb, State.reply_rd]; exact hon
    · rw [State.reply_rd]; exact hcause
    · rw [State.reply_eq]; exact hwait
    · rw [State.reply_rd]; exact hraw
    · rw [State.reply_eq, hctl]; rfl
    · refine State.answered_reply ?_ ?_ _ _ _ _
      · exact hout
      · exact hhlx
    · exact ((hframe.mono (by decide) fun _ h => h).setCtl _ (by decide)).reply _ _ _ _ (by decide) (by decide)

end Sys2Proof.Machine
end

section
/-!
PROOFS of O17: the steps of a rekey.
-/
namespace Sys2Proof.Machine
open Sys2Proof.Safety

/-! ## Internal work that enters and leaves -/

/-- ADM's registers, and what its work writes besides. -/
abbrev AdmFrame : State → State → Prop := Frame [.adm, .evt] (fun key => InBlock 4 key)

theorem admFrame_outAdd (s : State) (n : Nat) : AdmFrame s (s.outAdd 19 14 n) :=
  (Frame.refl _ _ s).wrAt _ _ _ _ (by decide)

theorem admFrame_outSub (s : State) (n : Nat) : AdmFrame s (s.outSub 19 14 n) :=
  (Frame.refl _ _ s).wrAt _ _ _ _ (by decide)

theorem admFrame_debit (s : State) (b len : Nat) : AdmFrame s (s.debit b 14 len) :=
  Frame.ite _ (fun _ => (Frame.refl _ _ s).setAdm _ (by decide)) fun _ => Frame.refl _ _ s

theorem admFrame_credit (s : State) (len : Nat) : AdmFrame s (s.credit 14 len) := by
  unfold State.credit
  exact ((Frame.refl _ _ s).setAdm _ (by decide)).bump _ _ _ _ _ _ (by decide) (by decide) (by decide)

theorem admFrame_enter (s : State) (b len : Nat) : AdmFrame s (s.enter 19 14 b len 1) := by
  unfold State.enter
  have hcredit := ((admFrame_outAdd s 1).trans (admFrame_debit _ b len)).trans (admFrame_credit _ len)
  exact Frame.ite _ (fun _ => hcredit.setAdm _ (by decide)) fun _ => hcredit

/-- Demotion work (class 14) that nothing bars enters (R353). -/
theorem State.admitInternal_spec {s : State} {len : Nat}
    (h : s.barred 19 14 (s.pairBucket 19 14) len 1 = 0) :
    ∃ t, s.admitInternal 14 len = some t ∧ AdmFrame s t :=
  ⟨_, by rw [State.admitInternal]; exact if_pos h,
    (admFrame_enter s _ len).setAdm _ (by decide)⟩

/-- Demotion work leaves (R340, R362). -/
theorem admFrame_leaveInternal (s : State) : AdmFrame s (s.leaveInternal 14 false) := by
  rw [State.leaveInternal, State.slotDone, if_neg Bool.false_ne_true]
  exact (admFrame_outSub s 1).bump _ _ _ _ _ _ (by decide) (by decide) (by decide)

/-! ## A cached entry -/

/-- TMU's data once the use of a cached entry is noted (R70). -/
def Tmu.noteUse (x : Tmu) (key : Nat) (ent : CacheEnt) : Tmu :=
  { x with cache := mput x.cache key { ent with used := x.clock }, clock := x.clock + 1 }

/-- TMU's data once an entry is put in the place of a dirty one. -/
def Tmu.putDirty (x : Tmu) (key : Nat) (ent : CacheEnt) (t : Tme) : Tmu :=
  { x.noteUse key ent with
    cache := mput (x.noteUse key ent).cache key { ent with used := x.clock, tme := t, dirty := true } }

theorem State.tme_of_cached {s : State} {slot tile : Nat} {ent : CacheEnt}
    (hent : mget s.tmu.cache (tkey slot tile) = some ent) : s.tme slot tile = ent.tme := by
  rw [State.tme, hent]

theorem State.tme_noteUse (s : State) (slot tile : Nat) (ent : CacheEnt) :
    (s.setTmu (s.tmu.noteUse (tkey slot tile) ent)).tme slot tile = ent.tme :=
  State.tme_of_cached (ent := { ent with used := s.tmu.clock }) (mget_mput_same _ _ _)

theorem State.tme_putDirty (s : State) (slot tile : Nat) (ent : CacheEnt) (x : Tme) :
    (s.setTmu (s.tmu.putDirty (tkey slot tile) ent x)).tme slot tile = x :=
  State.tme_of_cached (ent := { ent with used := s.tmu.clock, tme := x, dirty := true }) (mget_mput_same _ _ _)

section
variable {s : State} {slot tile : Nat} {ent : CacheEnt} (hent : mget s.tmu.cache (tkey slot tile) = some ent)
include hent

theorem State.cacheIn_cached :
    s.cacheIn slot tile = some (s.setTmu (s.tmu.noteUse (tkey slot tile) ent)) := by
  rw [State.cacheIn, if_pos (by rw [State.cached, hent]; rfl), State.useEntry, hent]
  rfl

/-- Reading a sound entry through the cache notes its use, and no more (R63, R70). -/
theorem State.cacheGood_cached (hfault : s.tmeFault slot tile ent.tme = 0) :
    s.cacheGood slot tile = some (s.setTmu (s.tmu.noteUse (tkey slot tile) ent)) := by
  have hsound : (s.setTmu (s.tmu.noteUse (tkey slot tile) ent)).tmeFault slot tile ent.tme = 0 := hfault
  rw [State.cacheGood, State.cacheIn_cached hent]
  simp only [Option.map_some, State.tme_noteUse, hsound, ne_eq, not_true, if_false]

/-- A dirty entry is put in its place: nothing is written back. -/
theorem State.setTme_cached (hdirty : ent.dirty = true) (x : Tme) :
    s.setTme slot tile x = s.setTmu (s.tmu.putDirty (tkey slot tile) ent x) := by
  have hnoted : mget (s.setTmu (s.tmu.noteUse (tkey slot tile) ent)).tmu.cache (tkey slot tile) =
      some { ent with used := s.tmu.clock } := mget_mput_same _ _ _
  rw [State.setTme, State.cacheIn_cached hent]
  simp only [State.putCached, hnoted, hdirty, if_true]
  rfl

end

/-- Writes that no wait holds need no release (R150). -/
theorem State.releaseHold_eq {s : State} (h : s.tmu.waits = []) (slot tile : Nat) :
    s.releaseHold slot tile = s.setCry { s.cry with ctrHolds := nerase s.cry.ctrHolds (tkey slot tile) } := by
  rw [State.releaseHold]
  refine if_neg ?_
  rw [State.setCry, h]
  exact Bool.false_ne_true

/-! ## A pattern under a new seal -/

/-- The frame of work on a tile's entry under a crossing counter. -/
abbrev SealFrame : State → State → Prop := Frame [.cry, .tmu, .adm, .evt] (fun key => InBlock 4 key)

theorem AdmFrame.seal {s t : State} (h : AdmFrame s t) : SealFrame s t := h.mono (by decide) fun _ hk => hk

/-- A crossing commits: the entry is put, its row of the crossing table is free, the work leaves, its held writes go on. -/
def State.commitSeal (s : State) (slot tile : Nat) (x : Tme) : State :=
  (((s.setTme slot tile x).setCry { (s.setTme slot tile x).cry with
    cross := mdel (s.setTme slot tile x).cry.cross (tkey slot tile) }).leaveInternal 14 false).releaseHold slot tile

theorem State.commitSeal_spec {s : State} {slot tile : Nat} {ent : CacheEnt}
    (hent : mget s.tmu.cache (tkey slot tile) = some ent) (hdirty : ent.dirty = true) (hwaits : s.tmu.waits = [])
    (x : Tme) :
    (s.commitSeal slot tile x).tme slot tile = x ∧ mget (s.commitSeal slot tile x).cry.cross (tkey slot tile) = none ∧
      SealFrame s (s.commitSeal slot tile x) := by
  rw [State.commitSeal, State.setTme_cached hent hdirty]
  generalize hs2 : s.setTmu (s.tmu.putDirty (tkey slot tile) ent x) = s2
  generalize hs3 : s2.setCry { s2.cry with cross := mdel s2.cry.cross (tkey slot tile) } = s3
  have hleave := admFrame_leaveInternal s3
  generalize s3.leaveInternal 14 false = s4 at hleave
  have hframe3 : SealFrame s s3 := by
    rw [← hs3, ← hs2]
    exact ((Frame.refl _ _ s).setTmu _ (by decide)).setCry _ (by decide)
  have htmu : s4.tmu = s.tmu.putDirty (tkey slot tile) ent x :=
    (hleave.1 .tmu (by decide)).trans (by rw [← hs3, ← hs2]; rfl)
  have htme : s4.tme slot tile = x :=
    State.tme_of_cached (ent := { ent with used := s.tmu.clock, tme := x, dirty := true })
      (by rw [htmu]; exact mget_mput_same _ _ _)
  have hcry : s4.cry = s3.cry := hleave.1 .cry (by decide)
  rw [State.releaseHold_eq (by rw [htmu]; exact hwaits)]
  refine ⟨htme, ?_, (hframe3.trans hleave.seal).setCry _ (by decide)⟩
  rw [State.setCry_cry, hcry, ← hs3]
  exact mget_mdel_same _ _

/-- An old tile's first crossing takes counter 0 of the current generation and an entry of the crossing table (R148). -/
theorem State.takeCounter_first {s : State} {slot tile : Nat} {x : Tme} (hold : s.newest slot x = false)
    (hcross : mget s.cry.cross (tkey slot tile) = none) (hroom : s.cry.cross.length < 2048) :
    s.takeCounter slot tile x = some ({ crossing := true, gen := s.curGen slot, ctr := 0 },
      s.setCry { s.cry with cross := mput s.cry.cross (tkey slot tile) 1 }) := by
  simp only [State.takeCounter, hold, hcross, Bool.false_eq_true, if_false, if_pos hroom]

/-- A PATTERN tile's entry under counter 0 of the current generation (R144, R151). -/
def State.resealed (s : State) (slot tile : Nat) (x : Tme) : Tme :=
  { x with
    gen := decide (s.curGen slot % 2 = 1), ctr := 0, saturated := false,
    tag := BitVec.ofNat 64 (leNat (xorBytes ((s.expand slot tile x).take 8)
      (s.sealStream slot tile (s.curGen slot) 0))) }

theorem State.resealed_setTmu (s : State) (y : Tmu) (slot tile : Nat) (x : Tme) :
    (s.setTmu y).resealed slot tile x = s.resealed slot tile x := rfl

section
variable {s : State} {slot tile : Nat} {ent : CacheEnt} (hent : mget s.tmu.cache (tkey slot tile) = some ent)
  (hdirty : ent.dirty = true) (hfmt : ent.tme.fmt = .pattern) (hkey : s.cry.keyWait.contains slot = false)
  (hlock : (s.lockOf slot tile).isNone = true) (hok : s.expandOk slot tile ent.tme = true)
  (hold : s.newest slot ent.tme = false) (hcross : mget s.cry.cross (tkey slot tile) = none)
  (hroom : s.cry.cross.length < 2048) (hbar : s.barred 19 14 (s.pairBucket 19 14) 4096 1 = 0)
  (hwaits : s.tmu.waits = [])
include hent hdirty hfmt hkey hlock hok hold hcross hroom hbar hwaits

/-- A PATTERN tile is resealed under counter 0 of the current generation in one update (R151 step 4). -/
theorem State.reseal_pattern :
    ∃ t, s.reseal slot tile = some t ∧ t.tme slot tile = s.resealed slot tile ent.tme ∧
      mget t.cry.cross (tkey slot tile) = none ∧ SealFrame s t := by
  have htme : s.tme slot tile = ent.tme := State.tme_of_cached hent
  have hunlocked : (s.lockOf slot tile).isSome = false := by
    rw [Option.isNone_iff_eq_none.1 hlock]; rfl
  have htake := State.takeCounter_first hold hcross hroom
  generalize hs0 : s.setCry { s.cry with cross := mput s.cry.cross (tkey slot tile) 1 } = s0 at htake
  have hframe0 : SealFrame s s0 := by rw [← hs0]; exact (Frame.refl _ _ s).setCry _ (by decide)
  obtain ⟨s1, hadmit, hframe1⟩ := State.admitInternal_spec (s := s0) (len := 4096) (by rw [← hs0]; exact hbar)
  have htmu1 : s1.tmu = s.tmu := (hframe1.1 .tmu (by decide)).trans (by rw [← hs0]; rfl)
  have hreseal : s.reseal slot tile = some (s1.commitSeal slot tile (s.resealed slot tile ent.tme)) := by
    simp only [State.reseal, State.commitSeal, State.resealed, hkey, hunlocked, htme, hok, htake, hadmit, hfmt,
      Option.map_some, Bool.false_eq_true, or_self, if_false, Bool.not_true, if_true]
  obtain ⟨hput, hfree, hframe2⟩ := State.commitSeal_spec (s := s1) (by rw [htmu1, hent]) hdirty (htmu1 ▸ hwaits)
    (s.resealed slot tile ent.tme)
  exact ⟨_, hreseal, hput, hfree, (hframe0.trans hframe1.seal).trans hframe2⟩

end

/-! ## The end of a rekey -/

theorem State.bgDone_nil {s : State} (h : s.ctl.background = []) (opcode arg rc : Nat) (out : List Byte) :
    s.bgDone opcode arg rc out = s := by
  simp only [State.bgDone, h, List.filter_nil, List.foldl_nil]
  rw [← h]

/-- A region whose rekey is over (R152 steps 5 and 6): PREV and STATE are clear and the event is raised. -/
def State.rekeyEnded (s : State) (slot : Nat) : State :=
  let s1 := ((s.wrI F.CRY_RGN_GEN_PREV slot 0).wrI F.CRY_RGN_REKEY_STATE slot 0).setCry { s.cry with
    walks := mdel s.cry.walks slot, rekeyJobs := s.cry.rekeyJobs.filter (fun e => decide (e.2 ≠ slot)) }
  (s1.setAdm { s1.adm with recompute := true }).raise cRekeyDone (some slot)

/-- The keys that the end of a rekey of a slot writes. -/
abbrev rekeyEndKeys (slot key : Nat) : Prop :=
  key = F.CRY_RGN_GEN_PREV.key slot 0 ∨ key = F.CRY_RGN_REKEY_STATE.key slot 0 ∨ key = (F.EVT_RAW_CAUSE 8).key 0 0

theorem State.rekeyEnded_frame (s : State) (slot : Nat) :
    Frame [.cry, .adm, .evt] (rekeyEndKeys slot) s (s.rekeyEnded slot) :=
  (((((Frame.refl _ _ s).wrI _ _ _ (.inl (.inl rfl))).wrI _ _ _ (.inl (.inr (.inl rfl)))).setCry _ (by decide)).setAdm _
    (by decide)).raise _ _ _ _ (by decide) (.inl (.inr (.inr rfl)))

theorem State.rd_rekeyEnded (s : State) (slot : Nat) :
    (s.rekeyEnded slot).rd F.CRY_RGN_GEN_PREV slot = 0 ∧ (s.rekeyEnded slot).rd F.CRY_RGN_REKEY_STATE slot = 0 ∧
      ((s.rekeyEnded slot).rd (F.EVT_RAW_CAUSE 8) 0).testBit 2 = true := by
  have hregs : ∀ f : Fld, f.place 0 % 0x40000 ≠ (F.EVT_RAW_CAUSE 8).place 0 % 0x40000 →
      (s.rekeyEnded slot).rd f slot =
        ((s.wrI F.CRY_RGN_GEN_PREV slot 0).wrI F.CRY_RGN_REKEY_STATE slot 0).rd f slot := fun f hf =>
    State.rd_raise_ne _ cRekeyDone _ _ _ _ _ _ (Fld.key_ne_of_place hf)
  refine ⟨?_, ?_, State.raise_testBit _ cRekeyDone _ _ _ (by decide)⟩
  · rw [hregs _ (by decide), State.rd_wrI_apart _ _ _ _ (by decide), State.rd_wrI_same]; rfl
  · rw [hregs _ (by decide), State.rd_wrI_same]; rfl

theorem State.rekeyEnded_data (s : State) (slot : Nat) :
    (s.rekeyEnded slot).cry.walks = mdel s.cry.walks slot ∧ (s.rekeyEnded slot).adm.recompute = true := by
  have hraise : ∀ u : State,
      Frame [.evt] (fun key => key = (F.EVT_RAW_CAUSE 8).key 0 0) u (u.raise cRekeyDone (some slot)) := fun u =>
    (Frame.refl _ _ u).raise _ _ _ _ (by decide) (.inl rfl)
  exact ⟨congrArg Cry.walks ((hraise _).1 .cry (by decide)), congrArg Adm.recompute ((hraise _).1 .adm (by decide))⟩

section
variable {s : State} {slot : Nat} (hslot : slot < 64) (hqueued : s.rd F.CRY_RGN_REKEY_QUEUED slot = 0)
include hslot hqueued

theorem State.queued_rekeyEnded : (s.rekeyEnded slot).rd F.CRY_RGN_REKEY_QUEUED slot = 0 := by
  have hpmu : ¬ InBlock 14 (F.CRY_RGN_REKEY_QUEUED.key slot 0) :=
    Fld.not_inBlock_pmu (by decide) (show 1 + slot < 256 by omega) (by decide)
  rw [(s.rekeyEnded_frame slot).rd _ _ _ ?_ hpmu, hqueued]
  rintro (h | h | h)
  · exact Fld.key_ne_of_place (by decide) h
  · exact Fld.key_ne_of_place (by decide) h
  · exact Fld.key_ne_of_place (by decide) h

theorem State.execRekeyDone_eq (hon : s.rekeying slot = true) (hserv : s.serving = true) (hleft : s.toCross slot = [])
    (hcross : crossOf slot s.cry.cross = []) (hkey : s.cry.keyWait.contains slot = false) (hbg : s.ctl.background = []) :
    execRekeyDone slot s = .next (s.rekeyEnded slot) := by
  have hctl : (s.rekeyEnded slot).ctl = s.ctl := (s.rekeyEnded_frame slot).1 .ctl (by decide)
  have hend : (s.rekeyEnded slot).bgDone 0xc014 slot rcSuccess (resultHeader 0 0) = s.rekeyEnded slot :=
    State.bgDone_nil (by rw [hctl, hbg]) _ _ _ _
  have hnone : (s.rekeyEnded slot).rdb F.CRY_RGN_REKEY_QUEUED slot = false := by
    rw [State.rdb, State.queued_rekeyEnded hslot hqueued]; rfl
  rw [execRekeyDone, if_pos ⟨hon, hserv, hleft, hcross, by rw [hkey]; rfl⟩]
  change Host.Outcome.next (if ((s.rekeyEnded slot).bgDone 0xc014 slot rcSuccess (resultHeader 0 0)).rdb
    F.CRY_RGN_REKEY_QUEUED slot then _ else (s.rekeyEnded slot).bgDone 0xc014 slot rcSuccess (resultHeader 0 0)) = _
  rw [hend, hnone, if_neg Bool.false_ne_true]

end

/-- A sound PATTERN entry stores no sector (R64). -/
theorem State.len_of_sound_pattern (s : State) {slot tile : Nat} {x : Tme} (hfmt : x.fmt = .pattern)
    (h : s.tmeFault slot tile x = 0) : x.len = 0 := by
  by_contra hlen
  rw [State.tmeFault, hfmt] at h
  by_cases hrsv : x.rsv = 0 <;> simp [hrsv, hlen] at h

/-! ## The steps -/

/-- Settles O17: the codec's dispatcher leaves the vault and TMU, the walk's step is the reseal of the entry that the cache
holds, and the end of the rekey finds no command to complete and no rekey queued. -/
theorem rekey : Obligations.Rekey := by
  unfold Obligations.Rekey
  refine ⟨?keyReady, ?walkStep, ?done⟩
  case keyReady =>
    intro s slot hwait hhalt
    refine ⟨_, congrArg Host.Outcome.next (if_pos ⟨hwait, hhalt⟩), ?_⟩
    have hframe : ∀ u : State, Frame [.cdc] (fun _ => False) u u.dispatch := fun u =>
      (Frame.refl _ _ u).dispatch (by decide)
    exact ⟨congrArg Cry.keyWait ((hframe _).1 .cry (by decide)), congrArg Tmu.moves ((hframe _).1 .tmu (by decide)),
      (((Frame.refl _ _ s).setCry _ (by decide)).setTmu _ (by decide)).dispatch (by decide)⟩
  case walkStep =>
    intro s slot tile e ent hon hruns heng hnext hent hdirty hnv hfmt hold hkey hlock hok hfault hwaits hcross hroom hbar
    have hlen : ent.tme.len = 0 := s.len_of_sound_pattern hfmt hfault
    obtain ⟨s1, hreseal, hput, hfree, hframe⟩ := State.reseal_pattern
      (s := s.setTmu (s.tmu.noteUse (tkey slot tile) ent)) (slot := slot) (tile := tile)
      (ent := { ent with used := s.tmu.clock }) (mget_mput_same _ _ _) hdirty hfmt hkey hlock hok hold hcross hroom hbar
      hwaits
    have hstep : s.crossTile slot tile e = some s1 := by
      rw [State.crossTile, State.cacheGood_cached hent hfault]
      simp only [State.tme_noteUse, hnv, hlen, Bool.false_eq_true, if_false, if_true, hreseal]
    rw [State.resealed_setTmu] at hput
    have hwalk : execRekeyWalkStep slot s =
        .next (s1.setCry { s1.cry with walks := mput s1.cry.walks slot (tile + 1) }) := by
      simp only [execRekeyWalkStep, hon, hruns, and_self, if_true, heng, hnext, hstep]
    refine ⟨_, hwalk, ?_, mget_mput_same _ _ _, hfree,
      Frame.setCry (((Frame.refl _ _ s).setTmu _ (by decide)).trans hframe) _ (by decide)⟩
    rw [State.tme_of_cached hent]
    exact hput
  case done =>
    intro s slot hslot hon hserv hleft hcross hkey hbg hqueued
    obtain ⟨hprev, hstate, hraw⟩ := s.rd_rekeyEnded slot
    obtain ⟨hwalks, hagain⟩ := s.rekeyEnded_data slot
    exact ⟨_, State.execRekeyDone_eq hslot hqueued hon hserv hleft hcross hkey hbg, hprev, hstate, hwalks, hagain, hraw,
      s.rekeyEnded_frame slot⟩

end Sys2Proof.Machine
end

section
/-!
PROOFS of O40: it fails at a pipe that does not exist, which the statement does not rule out.
-/
namespace Sys2Proof.Machine
open Sys2Proof.Safety

/-! ## A tag recomputed by a pipe that is not there -/

theorem State.halt_integrityHalt {s : State} (h : s.cry.halt = 0) (slot tile : Nat) (gen : Bool) (src pipe : Nat)
    (stored calcd : BitVec 64) : (s.integrityHalt slot tile gen src pipe stored calcd).cry.halt = 1 := by
  have hraise : ∀ u : State, Frame [.evt] (fun key => key = (F.EVT_RAW_CAUSE 8).key 0 0) u (u.raise cHalt) := fun u =>
    (Frame.refl _ _ u).raise _ _ _ _ (by decide) (.inl rfl)
  rw [State.integrityHalt, if_neg (not_not_intro h)]
  exact congrArg Cry.halt ((hraise _).1 .cry (by decide))

/-- With no other AES pipe ACTIVE, the mismatch that waits for a second pipe stands confirmed (R161). -/
theorem State.execTagRecomputeDone_alone {s : State} {id : Nat} {m : Move} (hmove : s.move id = some m)
    (hstage : m.stage = .tagRetry) (hruns : s.aesRuns = true) (halone : s.otherActive cryKind m.pipe = false)
    (pipe : Nat) (fault : Bool) :
    execTagRecomputeDone id pipe fault s =
      .next (s.integrityHalt m.slot m.tile m.tme.gen m.haltSrc m.pipe m.tme.tag (s.pipeTag m false)) := by
  rw [execTagRecomputeDone, hmove]
  exact congrArg Host.Outcome.next (if_pos ⟨hstage, hruns, by rw [halone]; rfl⟩)

/-- Out of reset, no AES pipe ACTIVE; but page 50 of their register, which the device does not have, holds ACTIVE. -/
def ghostPipe : State := { State.reset with aon := { Aon.reset with held := false } }.wrI F.CRY_PIPE_CTL_STATE 50 1

/-- A stored tile of one sector. -/
def ghostTile : Tme := { farTme 0 with fmt := .lz, len := 1 }

/-- A promotion whose tag pipe 0 did not match, and which is the right one. -/
def ghostMove : Move :=
  { Move.blank 7 .promote .demand 1 2 { ghostTile with tag := ghostPipe.calcTag 1 2 ghostTile [] } with
    stage := .tagRetry }

def ghostState : State := ghostPipe.setTmu { ghostPipe.tmu with moves := [ghostMove] }

/-- A tag covers neither itself nor what TMU holds. -/
theorem State.calcTag_setTmu_tag (s : State) (y : Tmu) (slot tile : Nat) (x : Tme) (ct : List Byte) (tag : BitVec 64) :
    (s.setTmu y).calcTag slot tile { x with tag := tag } ct = s.calcTag slot tile x ct := rfl

theorem calcTag_ghostMove : ghostState.calcTag 1 2 ghostMove.tme [] = ghostMove.tme.tag :=
  ghostPipe.calcTag_setTmu_tag _ 1 2 ghostTile [] _

/-- Refutes O40: its third clause, that a tag which another pipe matches counts a fault of the first, does not keep the
pipe below 50. At pipe 50 the step finds no other ACTIVE pipe among the device's, and an integrity halt begins. -/
theorem not_bulkReads : ¬ Obligations.BulkReads := by
  unfold Obligations.BulkReads
  rintro ⟨-, -, hretry, -⟩
  obtain ⟨t, hexec, -, -, -, hframe⟩ := hretry ghostState 7 50 ghostMove rfl rfl (by decide) (by decide) (by decide)
    calcTag_ghostMove (by decide) (by decide) (by decide)
  have halone := State.execTagRecomputeDone_alone (s := ghostState) (id := 7) (m := ghostMove) rfl rfl (by decide)
    (by decide) 50 false
  have ht : t = _ := Host.Outcome.next.inj (hexec.symm.trans halone)
  have hhalt : t.cry.halt = 1 := by rw [ht]; exact State.halt_integrityHalt rfl _ _ _ _ _ _ _
  have hkept : t.cry.halt = 0 := congrArg Cry.halt (hframe.1 .cry (by decide))
  exact absurd (hhalt.symm.trans hkept) (by decide)

end Sys2Proof.Machine
end

section
/-!
PROOFS of O41: the candidate list, the choice of a demotion and its start, and the NEAR_PIN walks.
-/
namespace Sys2Proof.Machine
open Sys2Proof.Safety

/-! ## Internal work of any class -/

/-- The keys of a register that is not the first of its page (offset 0x40). -/
abbrev OffFirst (key : Nat) : Prop := key / 64 % 0x1000 ≠ 0x40

/-- A counter that advances touches no page's first register. -/
theorem onlyRegs.bump_offFirst (s : State) (f : Fld) (i k n : Nat) (cls : Option Nat) (sat : Bool) (hf : f.blk < 14)
    (hk : OffFirst (f.key i k)) : onlyRegs OffFirst s (s.bump f i k n cls sat) := by
  have hpmu : ∀ b < 14, ∀ c < 6, OffFirst (F.PMU_CNT_COUNT.key b c) ∧ OffFirst (F.PMU_OVF_OVF.key b 0) := by decide
  refine ((onlyRegs.wrAt _ s _ _ _ _ hk).trans (onlyRegs.foldl _ _ _ _ fun u c hc => ?_)).trans
    (onlyRegs.copyAdvance _ _ _ _ _ _)
  obtain ⟨hcount, hovf⟩ := hpmu f.blk hf c (List.mem_range.1 hc)
  split
  · exact onlyRegs.pmuCount_of_keys _ u _ c n hcount hovf (by decide)
  · exact onlyRegs.refl _ u

/-- Work of ADM: it changes ADM and what counts it, takes no slot of the cycle, and leaves every page's first register,
whatever the page: that rule holds for slots beyond the table too, whose registers may be the PMU's. -/
structure AdmWork (s t : State) : Prop where
  frame : AdmFrame s t
  taken : t.adm.taken = s.adm.taken
  first : ∀ key, ¬ OffFirst key → mget t.regs key = mget s.regs key

theorem AdmWork.trans {s t u : State} (h : AdmWork s t) (h' : AdmWork t u) : AdmWork s u :=
  ⟨h.frame.trans h'.frame, h'.taken.trans h.taken, fun key hk => (h'.first key hk).trans (h.first key hk)⟩

theorem AdmWork.setAdm (s : State) (x : Adm) (hx : x.taken = s.adm.taken) : AdmWork s (s.setAdm x) :=
  ⟨(Frame.refl _ _ s).setAdm _ (by decide), hx, fun _ _ => rfl⟩

theorem AdmWork.bump (s : State) (f : Fld) (i k n : Nat) (cls : Option Nat) (hf : f.blk < 14)
    (hk : InBlock 4 (f.key i k)) (hoff : OffFirst (f.key i k)) : AdmWork s (s.bump f i k n cls) where
  frame := (Frame.refl _ _ s).bump _ _ _ _ _ _ (by decide) hf (.inl hk)
  taken := congrArg Adm.taken (((Frame.refl [.evt] (fun _ => True) s).bump f i k n cls false (by decide) hf
    (.inl trivial)).1 .adm (by decide))
  first := (onlyRegs.bump_offFirst s f i k n cls false hf hoff).2

section
variable (s : State) {c : Nat} (hc : c < 16)
include hc

/-- The count of a class at ingress 19 is ADM's. -/
theorem AdmWork.outCount (v : Nat) : AdmWork s (s.wrAt (outF c) 19 (c / 4) v) := by
  have hkeys : ∀ c < 16, InBlock 4 ((outF c).key 19 (c / 4)) ∧ OffFirst ((outF c).key 19 (c / 4)) := by decide
  obtain ⟨hin, hoff⟩ := hkeys c hc
  exact ⟨(Frame.refl _ _ s).wrAt _ _ _ _ (.inl hin), rfl, (onlyRegs.wrAt OffFirst s _ _ _ _ hoff).2⟩

theorem AdmWork.credit (len : Nat) : AdmWork s (s.credit c len) := by
  have hkeys : ∀ c < 16, InBlock 4 (F.ADM_CLS_DELIV_BYTES.key c 0) ∧ OffFirst (F.ADM_CLS_DELIV_BYTES.key c 0) := by
    decide
  obtain ⟨hin, hoff⟩ := hkeys c hc
  unfold State.credit
  exact (AdmWork.setAdm s _ (by rfl)).trans (AdmWork.bump _ _ _ _ _ _ (by decide) hin hoff)

omit hc in
theorem AdmWork.debit (b len : Nat) : AdmWork s (s.debit b c len) := by
  unfold State.debit
  split
  · exact AdmWork.setAdm s _ rfl
  · exact ⟨Frame.refl _ _ s, rfl, fun _ _ => rfl⟩

theorem AdmWork.enter (b len : Nat) : AdmWork s (s.enter 19 c b len 1) := by
  have hwork : AdmWork s (((s.outAdd 19 c 1).debit b c len).credit c len) :=
    ((AdmWork.outCount s hc _).trans (AdmWork.debit _ b len)).trans (AdmWork.credit _ hc len)
  unfold State.enter
  generalize ((s.outAdd 19 c 1).debit b c len).credit c len = s1 at hwork
  dsimp only
  split
  · exact hwork.trans (AdmWork.setAdm _ _ rfl)
  · exact hwork

/-- Internal work leaves (R340, R362). -/
theorem AdmWork.leaveInternal : AdmWork s (s.leaveInternal c false) := by
  have hkeys : ∀ c < 16, InBlock 4 (F.ADM_SLOT_RET_SLOTS.key c 0) ∧ OffFirst (F.ADM_SLOT_RET_SLOTS.key c 0) := by decide
  obtain ⟨hin, hoff⟩ := hkeys c hc
  rw [State.leaveInternal, State.slotDone, if_neg Bool.false_ne_true]
  exact (AdmWork.outCount s hc _).trans (AdmWork.bump _ _ _ _ _ _ (by decide) hin hoff)

variable {s} in
/-- Internal work of a class that nothing bars enters and takes a slot of the cycle (R353). -/
theorem State.admitInternal_of_free {len : Nat} (h : s.barred 19 c (s.pairBucket 19 c) len 1 = 0) :
    ∃ t, s.admitInternal c len = some t ∧ AdmFrame s t ∧ t.adm.taken = s.adm.taken + 1 ∧
      ∀ key, ¬ OffFirst key → mget t.regs key = mget s.regs key := by
  obtain ⟨hframe, htaken, hfirst⟩ := AdmWork.enter s hc (s.pairBucket 19 c) len
  rw [State.admitInternal, if_pos h]
  generalize s.enter 19 c (s.pairBucket 19 c) len 1 = s1 at *
  exact ⟨_, rfl, hframe.setAdm _ (by decide), by rw [← htaken]; rfl, hfirst⟩

end

/-! ## The candidate list (R178) -/

/-- The frames of one read of the frame table: 8 from the cursor on, round the table. -/
def State.readFrames (s : State) (total : Nat) : List Nat :=
  (List.range (min 8 total)).map (fun i => (s.scr.cursor + i) % total)

/-- A frame has an entry that may stand on the list. -/
def State.listable (s : State) (f : Nat) : Bool := match s.fte f with | some e => s.mayList f e | none => false

/-- The list and the cursor after a refill. -/
def Scr.refill (x : Scr) (cands : List Nat) (cursor : Nat) : Scr := { x with cands := cands, cursor := cursor }

/-- With no candidate left the list is what the next read of the frame table gives. -/
theorem State.execCandidateRefill_empty {s s1 : State} {total : Nat} (hruns : s.scarabRuns = true) (hcands : s.cands = [])
    (hadmit : s.admitInternal 13 64 = some s1) (htotal : s.rd F.SCR_FRAMES_TOTAL = total) (hpos : 0 < total) :
    execCandidateRefill s = .next ((s1.setScr (s1.scr.refill ((s.readFrames total).filter s.listable)
      ((s.scr.cursor + 8) % total))).leaveInternal 13 false) := by
  have hfew : ((s.readFrames total).filter s.listable).length ≤ 4096 :=
    (List.length_filter_le _ _).trans (by rw [State.readFrames, List.length_map, List.length_range]; omega)
  have hfresh : (s.readFrames total).filter (fun f => !([] : List Nat).contains f && s.listable f) =
      (s.readFrames total).filter s.listable := by simp
  rw [← List.take_of_length_le hfew, ← hfresh]
  simp only [execCandidateRefill, hruns, hcands, hadmit, htotal, Nat.max_eq_right hpos, List.map_nil, List.length_nil,
    if_true, List.nil_append]
  rw [if_neg (by decide)]
  rfl

end Sys2Proof.Machine

namespace Sys2Proof.Safety
open Sys2Proof.Machine

/-! ## The queues of the memory channels, and a frame's entry -/

/-- The status registers of a channel are NTC's or BTC's. -/
theorem inBlock_chanStatus (key : Nat) : ∀ f ∈ [rqOf key, wqOf key, drainOf key, fbOf key],
    InBlock 10 (f.key (key % 32) 0) ∨ InBlock 11 (f.key (key % 32) 0) := by
  have hnear : ∀ i < 32, ∀ f ∈ [F.NTC_CH_STS_RQ, F.NTC_CH_STS_WQ, F.NTC_CH_STS_DRAIN, F.NTC_CH_STS_FB],
      InBlock 10 (f.key i 0) := by decide
  have hbulk : ∀ i < 32, ∀ f ∈ [F.BTC_SC_STS_RQ, F.BTC_SC_STS_WQ, F.BTC_SC_STS_DRAIN, F.BTC_SC_STS_FB],
      InBlock 11 (f.key i 0) := by decide
  have hlt : key % 32 < 32 := Nat.mod_lt _ (by decide)
  intro f hf
  simp only [rqOf, wqOf, drainOf, fbOf] at hf
  by_cases hk : key < 32
  · simp only [if_pos hk] at hf
    exact .inl (hnear _ hlt f hf)
  · simp only [if_neg hk] at hf
    exact .inr (hbulk _ hlt f hf)

/-- The keys of NTC's and BTC's registers. -/
abbrev ChanKeys (key : Nat) : Prop := InBlock 10 key ∨ InBlock 11 key

theorem Frame.chanStatus {P : List Part} {K : Nat → Prop} {s t : State} (h : Frame P K s t) (key : Nat) (hm : .mem ∈ P)
    (hk : ∀ key, ChanKeys key → K key) : Frame P K s (t.chanStatus key) := by
  have hkey := fun f hf => Or.inl (b := InBlock 14 (f.key (key % 32) 0)) (hk _ (inBlock_chanStatus key f hf))
  exact ((((h.with_mem _ hm).wrI _ _ _ (hkey _ (by simp))).wrI _ _ _ (hkey _ (by simp))).wrb _ _ _
    (hkey _ (by simp))).wrI _ _ _ (hkey _ (by simp))

theorem Frame.enqueue {P : List Part} {K : Nat → Prop} {s t : State} (h : Frame P K s t) (key : Nat) (r : DramReq)
    (hm : .mem ∈ P) (hk : ∀ key, ChanKeys key → K key) : Frame P K s (t.enqueue key r) := by
  unfold State.enqueue
  refine Frame.chanStatus (Frame.with_mem ?_ _ hm) key hm hk
  exact Frame.ite _ (fun _ => h.with_mem _ hm) fun _ => h

theorem Frame.transfer {P : List Part} {K : Nat → Prop} {s t : State} (h : Frame P K s t)
    (at_ : Option (Nat × Nat × Nat)) (id ing cls time : Nat) (write promo : Bool) (hm : .mem ∈ P) (hy : .cry ∈ P)
    (hk : ∀ key, ChanKeys key → K key) : Frame P K s (t.transfer at_ id ing cls time write promo) := by
  unfold State.transfer
  split
  · exact Frame.enqueue (Frame.ite _ (fun _ => h.setCry _ hy) fun _ => h) _ _ hm hk
  · exact h

/-- Reading or writing a frame queues its 64 lines (Table 5.7 step 1). -/
theorem Frame.lineTransfers {P : List Part} {K : Nat → Prop} {s t : State} (h : Frame P K s t) (f id cls : Nat)
    (write : Bool) (hm : .mem ∈ P) (hy : .cry ∈ P) (hk : ∀ key, ChanKeys key → K key) :
    Frame P K s (t.lineTransfers f id cls write) :=
  h.trans (Frame.foldl _ _ t fun u _ _ => (Frame.refl _ _ u).transfer _ _ _ _ _ _ _ hm hy hk)

theorem Frame.putMove {P : List Part} {K : Nat → Prop} {s t : State} (h : Frame P K s t) (m : Move) (ht : .tmu ∈ P)
    (hc : .cdc ∈ P) : Frame P K s (t.putMove m) := (h.setTmu _ ht).dispatch hc

theorem Frame.watchFree {P : List Part} {K : Nat → Prop} {s t : State} (h : Frame P K s t) (hs : .scr ∈ P)
    (he : .evt ∈ P) (hk : K ((F.EVT_RAW_CAUSE 9).key 0 0)) : Frame P K s t.watchFree := by
  unfold State.watchFree
  exact Frame.ite _ (fun _ => Frame.ite _ (fun _ => h) fun _ => (h.setScr _ hs).raise cFrameLow _ _ _ he (.inl hk))
    fun _ => h.setScr _ hs

theorem Frame.setFte {P : List Part} {K : Nat → Prop} {s t : State} (h : Frame P K s t) (f : Nat) (e : Fte)
    (hn : .near ∈ P) (hs : .scr ∈ P) (he : .evt ∈ P) (hk : K ((F.EVT_RAW_CAUSE 9).key 0 0)) :
    Frame P K s (t.setFte f e) := (h.setNear _ hn).watchFree hs he hk

end Sys2Proof.Safety

namespace Sys2Proof.Machine
open Sys2Proof.Safety

/-- A frame's entry goes into the frame table, and nothing else into the near tier's data. -/
theorem State.near_setFte (s : State) (f : Nat) (e : Fte) :
    (s.setFte f e).near = { s.near with ftes := mput s.near.ftes f e } :=
  ((Frame.refl [.scr, .evt] (fun key => key = (F.EVT_RAW_CAUSE 9).key 0 0) _).watchFree (by decide) (by decide) rfl).1
    .near (by decide)

theorem State.fte_setFte_same (s : State) (f : Nat) (e : Fte) : (s.setFte f e).fte f = some e := by
  rw [State.fte, State.near_setFte]; exact mget_mput_same _ _ _

theorem State.tmu_setFte (s : State) (f : Nat) (e : Fte) : (s.setFte f e).tmu = s.tmu :=
  ((Frame.refl [.near, .scr, .evt] (fun key => key = (F.EVT_RAW_CAUSE 9).key 0 0) s).setFte f e (by decide) (by decide)
    (by decide) rfl).1 .tmu (by decide)

theorem State.tmu_dispatch (s : State) : s.dispatch.tmu = s.tmu :=
  ((Frame.refl [.cdc] (fun _ => False) s).dispatch (by decide)).1 .tmu (by decide)

/-! ## The choice of a demotion (R183) -/

/-- A list that holds no CLEAN frame gives none up. -/
theorem State.evictClean_of_dirty {s : State} (h : ∀ x ∈ s.cands, x.2.state = .dirty) (fuel : Nat) :
    State.evictClean fuel s = s := by
  have hnone : s.cands.filter (fun x => s.mayEvict x.2) = [] := by
    refine List.filter_eq_nil_iff.2 fun x hx => ?_
    simp [State.mayEvict, h x hx]
  cases fuel with
  | zero => rfl
  | succ fuel =>
    simp only [State.evictClean, hnone, State.coldest, List.foldl_nil]
    exact ite_self _

theorem State.runPrefetches_nil {s : State} (h : s.scr.prefetch = []) : s.runPrefetches = s := by
  rw [State.runPrefetches, h]
  have hsame : s.setScr { s.scr with prefetch := [] } = s := by rw [← h]; rfl
  exact (congrArg (ite _ s) hsame).trans (ite_self s)

section
variable {s : State} {f : Nat} {e : Fte} {ent : CacheEnt} (hstate : e.state = .dirty)
  (hent : mget s.tmu.cache (tkey e.slot e.tile) = some ent) (hsat : ent.tme.saturated = false)
  (hmoves : s.tmu.moves = []) (hdel : s.isDeleting e.slot = false) (hreads : ∀ r ∈ s.near.reads, r.frame ≠ f)

include hstate hent hsat hmoves hdel hreads in
/-- A DIRTY frame that nothing holds, of a tile with counter values left, may be demoted. -/
theorem State.mayDemote_of_idle : s.mayDemote f e = true := by
  have hread : s.near.reads.any (fun r => decide (r.frame = f) && r.merge) = false := by
    refine List.any_eq_false.2 fun r hr => ?_
    simp [hreads r hr]
  simp [State.mayDemote, State.tme_of_cached hent, State.lockOf, State.stuck, State.noCounter, hstate, hsat, hmoves, hdel,
    hread]

/-- The only candidate, when it may be demoted and is cold or is to be demoted first, is the choice of R183. -/
theorem State.chooseDemotion_only (hcands : s.cands = [(f, e)]) (hmay : s.mayDemote f e = true)
    (hcold : e.first = true ∨ s.heat e ≤ s.rd F.SCR_MOV_CFG_COLD_THRESH) (hwaits : s.tmu.waits = [])
    (hpaused : s.paused = false) : s.chooseDemotion = some (f, 13, .space) := by
  have hwrite : s.waitingWrite = none := by rw [State.waitingWrite, hwaits]; rfl
  have hone : ∀ p : Nat × Fte → Bool, [(f, e)].filter p = if p (f, e) then [(f, e)] else [] := fun p => by
    cases h : p (f, e) <;> simp [h]
  have hdirty : s.cands.filter (fun x => s.mayDemote x.1 x.2) = [(f, e)] := by rw [hcands, hone, if_pos hmay]
  have hpick : s.coldest [(f, e)] = some (f, e) := rfl
  simp only [State.chooseDemotion, hdirty, hwrite, hpaused, Option.bind_none, Bool.false_eq_true, if_false]
  by_cases hfirst : (e.first || s.near.withheld.contains f) = true
  · have hstep2 : [(f, e)].find? (fun x => x.2.first || s.near.withheld.contains x.1) = some (f, e) := by
      rw [List.find?_singleton, if_pos hfirst]
    rw [hstep2]
    rfl
  · have hheat : s.heat e ≤ s.rd F.SCR_MOV_CFG_COLD_THRESH := hcold.resolve_left fun h => hfirst (by rw [h]; rfl)
    have hstep2 : [(f, e)].find? (fun x => x.2.first || s.near.withheld.contains x.1) = none := by
      rw [List.find?_singleton, if_neg hfirst]
    rw [hstep2, hone, if_pos (decide_eq_true hheat), hpick]
    split <;> rfl

end

/-! ## The start of a demotion (Table 5.7 step 1) -/

/-- What a demotion that does not cross holds once it has begun: the counter fixed, the frame read. -/
def State.begun (s : State) (m : Move) (t : Tme) : Move :=
  { m with
    stage := .compress, tme := t, crossing := false, gen := s.curGen m.slot, ctr := t.ctr + 1,
    data := s.frameBytes m.frame, marks := s.frameMarks m.frame, level := s.rd F.TMU_RGN_POLICY_LEVEL m.slot }

/-- The frame of a demotion's start. -/
abbrev StartFrame : State → State → Prop := Frame [.tmu, .near, .scr, .mem, .cry, .cdc, .evt]
  (fun key => ChanKeys key ∨ key = (F.EVT_RAW_CAUSE 9).key 0 0)

section
variable {s : State} {m : Move} {ent : CacheEnt} {e : Fte}
  (hent : mget s.tmu.cache (tkey m.slot m.tile) = some ent) (hdirty : ent.dirty = true)
  (hnew : s.newest m.slot ent.tme = true) (hkey : s.cry.keyWait.contains m.slot = false)
  (hfte : s.fte m.frame = some e) (hmoves : s.tmu.moves = [m])

/-- The frame's lines are queued for the near read and the move is under way; its entry is not yet put. -/
def State.reading (s : State) (m : Move) (t : Tme) : State :=
  (s.lineTransfers m.frame m.id m.cls false).putMove (s.begun m t)

theorem State.reading_frame (s : State) (m : Move) (t : Tme) :
    Frame [.tmu, .mem, .cry, .cdc] ChanKeys s (s.reading m t) :=
  ((Frame.refl _ _ s).lineTransfers _ _ _ _ (by decide) (by decide) fun _ h => h).putMove _ (by decide) (by decide)

include hmoves in
theorem State.tmu_reading (t : Tme) : (s.reading m t).tmu = { s.tmu with moves := [s.begun m t] } := by
  have hlines : (s.lineTransfers m.frame m.id m.cls false).tmu = s.tmu :=
    ((Frame.refl [.mem, .cry] ChanKeys s).lineTransfers _ _ _ _ (by decide) (by decide) fun _ h => h).1 .tmu (by decide)
  have hput : s.tmu.moves.map (fun x => if x.id = (s.begun m t).id then s.begun m t else x) = [s.begun m t] := by
    rw [hmoves, List.map_singleton]; exact congrArg (fun x => [x]) (if_pos rfl)
  rw [State.reading, State.putMove, State.tmu_dispatch, State.setTmu_tmu, hlines, hput]

include hent hdirty hnew hkey hfte hmoves in
/-- The only move, a demotion of a tile of the current generation, begins: TRANSIT, MOVING, the frame read. -/
theorem State.runDemotion_eq :
    s.runDemotion m = ((s.reading m ent.tme).setTmu ((s.reading m ent.tme).tmu.putDirty (tkey m.slot m.tile) ent
      { ent.tme with transit := true })).setFte m.frame { e with state := .moving } := by
  have htake : s.takeCounter m.slot m.tile ent.tme =
      some ({ crossing := false, gen := s.curGen m.slot, ctr := ent.tme.ctr + 1 }, s) := by
    rw [State.takeCounter]; exact if_pos hnew
  have hcached : mget (s.reading m ent.tme).tmu.cache (tkey m.slot m.tile) = some ent := by
    rw [State.tmu_reading hmoves]; exact hent
  have hnear : (s.reading m ent.tme).near = s.near := (s.reading_frame m ent.tme).1 .near (by decide)
  have hstill : ∀ x : Tmu, ((s.reading m ent.tme).setTmu x).fte m.frame = some e := fun x => by
    rw [State.fte, State.setTmu_near, hnear]; exact hfte
  have hread : (s.lineTransfers m.frame m.id m.cls false).putMove { m with
      stage := if s.cry.keyWait.contains m.slot then .keyWait else .compress, tme := ent.tme, crossing := false,
      gen := s.curGen m.slot, ctr := ent.tme.ctr + 1, data := s.frameBytes m.frame, marks := s.frameMarks m.frame,
      level := s.rd F.TMU_RGN_POLICY_LEVEL m.slot } = s.reading m ent.tme := by rw [hkey]; rfl
  simp only [State.runDemotion, State.tme_of_cached hent, htake, hread, State.setTme_cached hcached hdirty, hstill]

include hent hdirty hnew hkey hfte hmoves in
theorem State.runDemotion_spec :
    (s.runDemotion m).tmu.moves = [s.begun m ent.tme] ∧
      (s.runDemotion m).tme m.slot m.tile = { ent.tme with transit := true } ∧
      (s.runDemotion m).near = { s.near with ftes := mput s.near.ftes m.frame { e with state := .moving } } ∧
      StartFrame s (s.runDemotion m) := by
  have hframe := s.reading_frame m ent.tme
  have htmu := State.tmu_reading hmoves ent.tme
  rw [State.runDemotion_eq hent hdirty hnew hkey hfte hmoves]
  generalize s.reading m ent.tme = r at hframe htmu
  have hcached : mget (r.tmu.putDirty (tkey m.slot m.tile) ent { ent.tme with transit := true }).cache
      (tkey m.slot m.tile) = some { ent with used := r.tmu.clock, tme := { ent.tme with transit := true }, dirty := true } :=
    mget_mput_same _ _ _
  refine ⟨?_, ?_, ?_, ?_⟩
  · rw [State.tmu_setFte, State.setTmu_tmu, htmu]; rfl
  · rw [State.tme, State.tmu_setFte, State.setTmu_tmu, hcached]
  · rw [State.near_setFte, State.setTmu_near, hframe.1 .near (by decide)]
  · exact ((hframe.mono (by decide) fun _ h => .inl h).setTmu _ (by decide)).setFte _ _ (by decide) (by decide)
      (by decide) (.inr rfl)

end

/-- A demotion of a tile for space, as it enters the move table. -/
def Move.forSpace (id slot tile f engine : Nat) (t : Tme) : Move :=
  { Move.blank id .demote .space slot tile t with frame := f, engine := some engine }

/-- TMU with a new demotion among its moves: the entry's use noted, the id taken. -/
def Tmu.addDemotion (x : Tmu) (slot tile f engine : Nat) (ent : CacheEnt) : Tmu :=
  { x.noteUse (tkey slot tile) ent with
    nextId := x.nextId + 1, moves := x.moves ++ [Move.forSpace x.nextId slot tile f engine ent.tme] }

theorem State.begun_data (s : State) (m : Move) (t : Tme) : (s.begun m t).data = s.frameBytes m.frame := by
  simp only [State.begun]

theorem State.frameBytes_of_near {s t : State} (hnear : t.near = s.near) (f : Nat) : t.frameBytes f = s.frameBytes f := by
  rw [State.frameBytes, hnear, ← State.frameBytes]

section
variable {s : State} {f engine : Nat} {e : Fte} {ent : CacheEnt}
  (hfte : s.fte f = some e) (hstate : e.state = .dirty)
  (hent : mget s.tmu.cache (tkey e.slot e.tile) = some ent) (hdirty : ent.dirty = true)
  (hnew : s.newest e.slot ent.tme = true) (hsat : ent.tme.saturated = false)
  (hmoves : s.tmu.moves = []) (hdel : s.isDeleting e.slot = false) (hreads : ∀ r ∈ s.near.reads, r.frame ≠ f)
  (hkey : s.cry.keyWait.contains e.slot = false) (hfault : s.tmeFault e.slot e.tile ent.tme = 0)

include hfte hstate hent hsat hmoves hdel hreads hfault in
theorem State.beginDemotion_idle :
    s.beginDemotion f 13 .space (some engine) none =
      some ((s.setTmu (s.tmu.addDemotion e.slot e.tile f engine ent)).runDemotion
        (Move.forSpace s.tmu.nextId e.slot e.tile f engine ent.tme)) := by
  have hmay : s.mayDemote f e = true := State.mayDemote_of_idle hstate hent hsat hmoves hdel hreads
  have hroom : s.lockRoom e.slot = true := by simp [State.lockRoom, State.locks, hmoves]
  simp only [State.beginDemotion, hfte, hmay, hroom, and_self, if_true, State.cacheGood_cached hent hfault, State.freshId,
    State.addMove]
  rw [State.tme_of_cached (slot := e.slot) (tile := e.tile) (ent := { ent with used := s.tmu.clock })
    (mget_mput_same _ _ _)]
  rfl

/-- Internal admission leaves what the start of a demotion looks at. -/
theorem State.admitted_same {s1 : State} (hframe : AdmFrame s s1)
    (hfirst : ∀ key, ¬ OffFirst key → mget s1.regs key = mget s.regs key) (slot tile : Nat) (t : Tme) :
    s1.curGen slot = s.curGen slot ∧ s1.tmeFault slot tile t = s.tmeFault slot tile t := by
  have hrd : ∀ f : Fld, ∀ i, ¬ OffFirst (f.key i 0) → s1.rd f i = s.rd f i := fun f i h => by
    rw [State.rd, mgetD, hfirst _ h]; rfl
  have hcur : s1.curGen slot = s.curGen slot := hrd _ _ (by
    simp only [OffFirst, Fld.key, Fld.addr, F.CRY_RGN_GEN_CUR]; omega)
  have htype : s1.rgnType slot = s.rgnType slot := hrd _ _ (by
    simp only [OffFirst, Fld.key, Fld.addr, F.TMU_RGN_MAP_TYPE]; omega)
  have htotal : s1.rd F.SCR_FRAMES_TOTAL = s.rd F.SCR_FRAMES_TOTAL := hframe.rd _ _ _ (by decide) (by decide)
  have htmu : s1.tmu = s.tmu := hframe.1 .tmu (by decide)
  have hfixed : s1.fixedSlots slot = s.fixedSlots slot := by rw [State.fixedSlots, htype]; rfl
  refine ⟨hcur, ?_⟩
  unfold State.tmeFault
  rw [hfixed, htotal, htmu]

include hfte hstate hent hdirty hnew hsat hmoves hdel hreads hkey hfault in
/-- A demotion for space that nothing bars is admitted under class 13 and begins. -/
theorem State.startDemotion_spec (hbar : s.barred 19 13 (s.pairBucket 19 13) 4096 1 = 0) :
    ∃ t m, s.startDemotion f 13 .space (some engine) = some t ∧ t.move s.tmu.nextId = some m ∧
      (m.kind, m.purpose, m.stage, m.slot, m.tile, m.frame) = (.demote, .space, .compress, e.slot, e.tile, f) ∧
      m.engine = some engine ∧ (m.cls, m.gen, m.ctr, m.crossing) = (13, s.curGen e.slot, ent.tme.ctr + 1, false) ∧
      m.data = s.frameBytes f ∧ t.tme e.slot e.tile = { ent.tme with transit := true } ∧
      t.near = { s.near with ftes := mput s.near.ftes f { e with state := .moving } } ∧
      Frame [.tmu, .near, .scr, .adm, .mem, .cry, .cdc, .evt]
        (fun key => InBlock 4 key ∨ InBlock 10 key ∨ InBlock 11 key ∨ key = (F.EVT_RAW_CAUSE 9).key 0 0) s t := by
  have hmay : s.mayDemote f e = true := State.mayDemote_of_idle hstate hent hsat hmoves hdel hreads
  have hroom : s.lockRoom e.slot = true := by simp [State.lockRoom, State.locks, hmoves]
  obtain ⟨s1, hadmit, hadm, -, hfirst⟩ := State.admitInternal_of_free (s := s) (c := 13) (by decide) hbar
  obtain ⟨hgen, hsound⟩ := State.admitted_same hadm hfirst e.slot e.tile ent.tme
  have htmu : s1.tmu = s.tmu := hadm.1 .tmu (by decide)
  have hnear : s1.near = s.near := hadm.1 .near (by decide)
  have hcry : s1.cry = s.cry := hadm.1 .cry (by decide)
  have hfte1 : s1.fte f = some e := by rw [State.fte, hnear]; exact hfte
  have hbegin := State.beginDemotion_idle (s := s1) (engine := engine) hfte1 hstate (by rw [htmu]; exact hent) hsat
    (by rw [htmu]; exact hmoves) (by rw [State.isDeleting, htmu]; exact hdel) (by rw [hnear]; exact hreads)
    (by rw [hsound]; exact hfault)
  have hnew1 : s1.newest e.slot ent.tme = true := by rw [State.newest, hgen]; exact hnew
  have halone : (s1.tmu.addDemotion e.slot e.tile f engine ent).moves =
      [Move.forSpace s1.tmu.nextId e.slot e.tile f engine ent.tme] := by
    rw [Tmu.addDemotion, htmu, hmoves]; rfl
  obtain ⟨hmove, htme, hftes, hstart⟩ := State.runDemotion_spec
    (s := s1.setTmu (s1.tmu.addDemotion e.slot e.tile f engine ent))
    (m := Move.forSpace s1.tmu.nextId e.slot e.tile f engine ent.tme) (ent := { ent with used := s1.tmu.clock })
    (mget_mput_same _ _ _) hdirty hnew1 (by rw [State.setTmu_cry, hcry]; exact hkey) hfte1 halone
  refine ⟨_, (s1.setTmu (s1.tmu.addDemotion e.slot e.tile f engine ent)).begun
    (Move.forSpace s1.tmu.nextId e.slot e.tile f engine ent.tme) ent.tme, ?_, ?_, rfl, rfl, ?_, ?_, htme, ?_, ?_⟩
  · simp only [State.startDemotion, hfte, hmay, hroom, and_self, if_true, hadmit, Option.bind_some, hbegin]
  · rw [State.move, hmove, htmu]; exact List.find?_cons_of_pos (decide_eq_true rfl)
  · rw [← hgen]; rfl
  · rw [State.begun_data, State.frameBytes_of_near (hnear := (State.setTmu_near _ _).trans hnear)]; rfl
  · rw [hftes, ← hnear]; rfl
  · exact ((hadm.mono (by decide) fun _ h => .inl h).setTmu _ (by decide)).trans
      (hstart.mono (by decide) fun _ h => .inr (or_assoc.1 h))

end

/-- The choice falls on the only candidate, and its demotion begins on the engine. -/
theorem State.execDemotionSelect_only {s t : State} {engine f : Nat} {e : Fte} (hserv : s.serving = true)
    (hmode : s.nearOnly = false) (hpaused : s.paused = false) (hblocks : s.aon.blocks = [])
    (hengine : s.unitState scrKind engine = 1) (hload : s.engineLoad engine < 8)
    (hflush : s.rdb F.SCR_MOV_STS_FLUSH = false) (htarget : s.target = 0) (hprefetch : s.scr.prefetch = [])
    (hcands : s.cands = [(f, e)]) (hstate : e.state = .dirty) (hchoice : s.chooseDemotion = some (f, 13, .space))
    (hstart : s.startDemotion f 13 .space (some engine) = some t) : execDemotionSelect engine s = .next t := by
  have hkeep : (State.evictClean s.scr.cands.length s).runPrefetches = s := by
    rw [State.evictClean_of_dirty (by rw [hcands]; simpa using hstate), State.runPrefetches_nil hprefetch]
  simp [execDemotionSelect, hserv, hmode, hpaused, hblocks, hengine, hflush, htarget, hkeep, hchoice, hstart,
    Nat.not_le.2 hload]

/-! ## NEAR_PIN walks (R174) -/

/-- An unpinned tile in a frame is pinned while the limit has room. -/
theorem State.pinTile_room {s : State} {slot tile f : Nat} {e : Fte} (hfte : s.fte f = some e) (hpin : e.pin = false)
    (hroom : s.pinRoom = true) :
    s.pinTile slot tile f =
      ((s.setFte f { e with pin := true }).setTme slot tile { s.tme slot tile with pinned := true }, true) := by
  simp only [State.pinTile, hfte, hpin, hroom, Bool.false_eq_true, if_false, if_true]

/-- What a walk leaves that finds an unpinned tile in frame f. -/
theorem State.pin_spec {s : State} {slot tile f : Nat} {e : Fte} {ent : CacheEnt}
    (hent : mget s.tmu.cache (tkey slot tile) = some ent) (hdirty : ent.dirty = true) (x : Tme) :
    ((s.setFte f e).setTme slot tile x).fte f = some e ∧ ((s.setFte f e).setTme slot tile x).tme slot tile = x ∧
      Frame [.tmu, .near, .scr, .evt] (fun key => key = (F.EVT_RAW_CAUSE 9).key 0 0) s
        ((s.setFte f e).setTme slot tile x) := by
  rw [State.setTme_cached (by rw [State.tmu_setFte]; exact hent) hdirty]
  have hput : Frame [.tmu, .near, .scr, .evt] (fun key => key = (F.EVT_RAW_CAUSE 9).key 0 0) s (s.setFte f e) :=
    (Frame.refl _ _ s).setFte _ _ (by decide) (by decide) (by decide) rfl
  exact ⟨s.fte_setFte_same f e, State.tme_putDirty _ _ _ _ _, hput.setTmu _ (by decide)⟩

/-- Settles O41. The clauses follow the commands: a refill admitted under class 13, the choice of the one cold candidate
and the start of its demotion, and a NEAR_PIN walk that has ended or that pins a tile in a frame. -/
theorem candidatesAndChoice : Obligations.CandidatesAndChoice := by
  unfold Obligations.CandidatesAndChoice
  refine ⟨?refill, ?select, ?walkEnds, ?walkPins⟩
  case refill =>
    intro s total hruns hcands hbar htotal hpos
    obtain ⟨s1, hadmit, hadm, htaken, -⟩ := State.admitInternal_of_free (by decide) hbar
    have hexec := State.execCandidateRefill_empty hruns hcands hadmit htotal hpos
    have hleave := AdmWork.leaveInternal (s1.setScr (s1.scr.refill ((s.readFrames total).filter s.listable)
      ((s.scr.cursor + 8) % total))) (c := 13) (by decide)
    generalize State.leaveInternal _ 13 false = t at hexec hleave
    have hscr := hleave.frame.1 .scr (by decide)
    have hnear : t.near = s.near := (hleave.frame.1 .near (by decide)).trans (hadm.1 .near (by decide))
    refine ⟨t, hexec, congrArg Scr.cursor hscr, congrArg Scr.cands hscr, hnear, hleave.taken.trans htaken, ?_⟩
    exact ((hadm.mono (by decide) fun _ h => h).setScr _ (by decide)).trans (hleave.frame.mono (by decide) fun _ h => h)
  case select =>
    intro s engine f e ent hserv hmode hpaused hblocks hengine hload hflush htarget hwaits hcands hfte hstate hcold hent
      hdirty hnew hsat hmoves hdel hreads hbar hprefetch hkey hfault
    have hmay := State.mayDemote_of_idle hstate hent hsat hmoves hdel hreads
    have hchoice := State.chooseDemotion_only hcands hmay hcold hwaits hpaused
    obtain ⟨t, m, hstart, hmove, hwhat, hmengine, huse, hdata, htme, hnear, hframe⟩ := State.startDemotion_spec
      (engine := engine) hfte hstate hent hdirty hnew hsat hmoves hdel hreads hkey hfault hbar
    refine ⟨t, State.execDemotionSelect_only hserv hmode hpaused hblocks hengine hload hflush htarget hprefetch hcands
      hstate hchoice hstart, ?_, ?_, ?_, ?_, htme, ?_, by rw [hnear], hframe⟩
    · rw [hmove]; exact congrArg some hwhat
    · rw [hmove]; exact congrArg some hmengine
    · rw [hmove]; exact congrArg some huse
    · rw [hmove]; exact congrArg some hdata
    · rw [State.fte, hnear]; exact mget_mput_same _ _ _
  case walkEnds =>
    intro s r pos hwalk hruns hpast
    have hnone : (s.materialized r).find? (fun t => decide (pos ≤ t)) = none :=
      List.find?_eq_none.2 fun t ht => by simpa using hpast t ht
    refine ⟨s.setScr { s.scr with pinWalks := mdel s.scr.pinWalks r }, ?_, rfl, (Frame.refl _ _ s).setScr _ (by decide)⟩
    show execNearPinWalkStep r s = _
    simp only [execNearPinWalkStep, hwalk, hruns, hnone, Bool.not_true, Bool.false_eq_true, if_false]
  case walkPins =>
    intro s r pos tile ent e hwalk hruns hfind hlock hent hdirty hnv hfte hpin hroom
    have hunlocked : (s.lockOf r tile).isSome = false := by rw [Option.isNone_iff_eq_none.1 hlock]; rfl
    have htme : s.tme r tile = ent.tme := State.tme_of_cached hent
    obtain ⟨hput, hentry, hframe⟩ := State.pin_spec (f := ent.tme.near) (e := { e with pin := true }) hent hdirty
      { ent.tme with pinned := true }
    have hpinned := State.pinTile_room (slot := r) (tile := tile) hfte hpin hroom
    simp only [htme] at hpinned
    generalize (s.setFte ent.tme.near { e with pin := true }).setTme r tile { ent.tme with pinned := true } = u
      at hput hentry hframe hpinned
    refine ⟨u.setScr { u.scr with pinWalks := mput u.scr.pinWalks r (tile + 1) }, ?_, mget_mput_same _ _ _, hput, hentry,
      hframe.setScr _ (by decide)⟩
    show execNearPinWalkStep r s = _
    simp only [execNearPinWalkStep, hwalk, hruns, hfind, hunlocked, htme, hnv, hpinned, Bool.not_true,
      Bool.false_eq_true, if_false, if_true]

end Sys2Proof.Machine
end

section
/-!
PROOFS of O8: the entry to P3, its resume area and canaries, and the exit.
-/
namespace Sys2Proof.Safety
open Sys2Proof.Machine

/-! ## The tile map and its cache -/

section
variable {P : List Part} {K : Nat → Prop} {s t : State}

theorem Frame.mapPut (h : Frame P K s t) (key : Nat) (x : Tme) (ht : .tmu ∈ P) : Frame P K s (t.mapPut key x) :=
  h.setTmu _ ht

theorem Frame.cleanEntry (h : Frame P K s t) (key : Nat) (ht : .tmu ∈ P) : Frame P K s (t.cleanEntry key) := by
  unfold State.cleanEntry
  split
  · exact (h.mapPut _ _ ht).setTmu _ ht
  · exact h

/-- The write-back of the cache changes TMU's data alone (R73). -/
theorem Frame.writeBack (h : Frame P K s t) (ht : .tmu ∈ P) : Frame P K s t.writeBack :=
  h.trans (Frame.foldl _ _ _ fun u _ _ => (Frame.refl P K u).cleanEntry _ ht)

theorem Frame.capDirty (h : Frame P K s t) (ht : .tmu ∈ P) : Frame P K s t.capDirty := by
  unfold State.capDirty
  split
  · split
    · exact h.cleanEntry _ ht
    · exact h
  · exact h

theorem Frame.putCached (h : Frame P K s t) (slot tile : Nat) (x : Tme) (ht : .tmu ∈ P) :
    Frame P K s (t.putCached slot tile x) := by
  unfold State.putCached
  split
  · exact (Frame.ite _ (fun _ => h) fun _ => h.capDirty ht).setTmu _ ht
  · exact h

theorem Frame.useEntry (h : Frame P K s t) (slot tile : Nat) (ht : .tmu ∈ P) : Frame P K s (t.useEntry slot tile) := by
  unfold State.useEntry
  split
  · exact h.setTmu _ ht
  · exact h

theorem Frame.cacheIn (h : Frame P K s t) {slot tile : Nat} {u : State} (hu : t.cacheIn slot tile = some u)
    (ht : .tmu ∈ P) : Frame P K s u := by
  unfold State.cacheIn at hu
  split at hu
  · obtain rfl := Option.some.inj hu
    exact h.useEntry slot tile ht
  · split at hu
    · obtain rfl := Option.some.inj hu
      exact h.setTmu _ ht
    · split at hu
      next k _ =>
        obtain rfl := Option.some.inj hu
        refine Frame.setTmu (Frame.setTmu ?_ _ ht) _ ht
        split
        · exact Frame.ite _ (fun _ => h.cleanEntry k ht) fun _ => h
        · exact h
      · cases hu

/-- A tile's entry is TMU's data. -/
theorem Frame.setTme (h : Frame P K s t) (slot tile : Nat) (x : Tme) (ht : .tmu ∈ P) :
    Frame P K s (t.setTme slot tile x) := by
  unfold State.setTme
  split
  next u hu => exact (h.cacheIn hu ht).putCached _ _ _ ht
  · exact h.mapPut _ _ ht

theorem Frame.putSectors (h : Frame P K s t) (x : Nat) (bs : List Byte) (marks : List Nat) (hb : .bulk ∈ P) :
    Frame P K s (t.putSectors x bs marks) :=
  h.with_bulk _ hb

end
end Sys2Proof.Safety

namespace Sys2Proof.Machine
open Sys2Proof.Safety

/-! ## The commit point -/

/-- The canaries of the banks as bulk memory takes them. -/
def State.putCanaries (s : State) (seq : Nat) : State :=
  s.canaryBanks.foldl (fun s x => s.canaryPut x (canaryBytes seq x.1 x.2.1 x.2.2)) s

theorem State.putCanaries_frame {P : List Part} {K : Nat → Prop} (s : State) (seq : Nat) (hb : .bulk ∈ P) :
    Frame P K s (s.putCanaries seq) :=
  Frame.foldl _ _ _ fun _ _ _ => Frame.foldl _ _ _ fun v _ _ => (Frame.refl _ _ v).putSectors _ _ _ hb

/-- The keys of the canaries and of the resume area (Table 15.5 step 4). -/
abbrev SignKeys (key : Nat) : Prop :=
  key = F.AON_RESUME_VALID.key 0 0 ∨ key = F.AON_CANARY_SEQ.key 0 0 ∨ key = F.AON_CANARY_SIGNED.key 0 0

/-- The signatures of the canaries and the resume area. -/
def State.signCanaries (s : State) (seq : Nat) (sig : List (Nat × BitVec 32)) : State :=
  let s1 := (s.wr F.AON_CANARY_SEQ seq).wr F.AON_CANARY_SIGNED sig.length
  (s1.setMem { s1.mem with canaries := sig, resume := s.runningBody, resumeHeader := s.ctl.header }).wr
    F.AON_RESUME_VALID 1

theorem State.writeCanaries_eq (s : State) : ∃ seq sig, seq = (s.rd F.AON_CANARY_SEQ + 1) % 2 ^ 32 ∧
    s.writeCanaries = (s.putCanaries seq).signCanaries seq sig :=
  ⟨_, _, rfl, rfl⟩

/-- What the writing of the canaries and of the resume area does. -/
theorem State.writeCanaries_spec (s : State) :
    Frame [.bulk, .mem] SignKeys s s.writeCanaries ∧ s.writeCanaries.rd F.AON_RESUME_VALID = 1 ∧
      s.writeCanaries.rd F.AON_CANARY_SEQ = (s.rd F.AON_CANARY_SEQ + 1) % 2 ^ 32 := by
  obtain ⟨seq, sig, hseq, heq⟩ := s.writeCanaries_eq
  have hput : Frame [.bulk, .mem] SignKeys s (s.putCanaries seq) := State.putCanaries_frame _ _ (by decide)
  rw [heq, State.signCanaries]
  refine ⟨?frame, State.rd_wr_same _ _ _, ?next⟩
  case frame =>
    exact (((hput.wr F.AON_CANARY_SEQ _ (by decide)).wr F.AON_CANARY_SIGNED _ (by decide)).setMem _ (by decide)).wr
      F.AON_RESUME_VALID _ (by decide)
  case next =>
    rw [State.rd_wr_ne _ _ _ _ _ _ (by decide), State.setMem_rd, State.rd_wr_ne _ _ _ _ _ _ (by decide),
      State.rd_wr_same, hseq]
    exact Nat.mod_mod _ _

/-- The flush has ended: TMU has written back and FLUSH reads 0. -/
def State.flushed (s : State) : State := (s.writeBack.wr F.SCR_MOV_STS_FLUSH 0).raise cFlushDone

/-- What FLUSH_DONE may change. -/
abbrev CommitKeys (key : Nat) : Prop :=
  key = F.SCR_MOV_STS_FLUSH.key 0 0 ∨ key = F.AON_RESUME_VALID.key 0 0 ∨ key = F.AON_CANARY_SEQ.key 0 0 ∨
    key = F.AON_CANARY_SIGNED.key 0 0 ∨ key = F.BTC_SR_STATE.key 0 0 ∨ key = (F.EVT_RAW_CAUSE 9).key 0 0

theorem State.flushed_spec (s : State) :
    Frame [.evt, .tmu] (fun key => key = F.SCR_MOV_STS_FLUSH.key 0 0 ∨ key = (F.EVT_RAW_CAUSE 9).key 0 0) s s.flushed ∧
      s.flushed.rd F.SCR_MOV_STS_FLUSH = 0 ∧ (s.flushed.rd (F.EVT_RAW_CAUSE 9)).testBit 3 = true := by
  refine ⟨?frame, ?flush, State.raise_testBit _ cFlushDone none none [] (by decide)⟩
  case frame =>
    exact (((Frame.refl _ _ s).writeBack (by decide)).wr F.SCR_MOV_STS_FLUSH 0 (by decide)).raise cFlushDone _ _ _
      (by decide) (by decide)
  case flush => exact (State.rd_raise_ne _ _ _ _ _ _ _ _ (by decide)).trans (State.rd_wr_same _ _ _)

/-- The commit point passes on: BTC's entry to self-refresh begins (Table 15.5 step 5). -/
def State.p3Committed (s : State) : State := (s.setEntry { s.aon.entry with stage := 3 }).srBegin 2

/-- In P3 the bulk tier alone enters self-refresh. -/
theorem State.srBegin_p3 {s : State} (hsr : s.rd F.BTC_SR_STATE = 0) :
    s.srBegin 2 = (s.setMem { s.mem with entry := 2, bulkIn := false, nearIn := false }).wr F.BTC_SR_STATE 1 := by
  have hbulk : ¬ s.bulkSr = 2 := by rw [State.bulkSr, hsr]; decide
  unfold State.srBegin
  rw [if_pos (.inl rfl), if_neg hbulk]

theorem State.p3Committed_spec {s : State} (hsr : s.rd F.BTC_SR_STATE = 0) :
    Frame [.mem, .aon] (fun key => key = F.BTC_SR_STATE.key 0 0) s s.p3Committed ∧ s.p3Committed.aon.entry.stage = 3 ∧
      s.p3Committed.rd F.BTC_SR_STATE = 1 := by
  have heq : s.p3Committed = _ := State.srBegin_p3 (s := s.setEntry { s.aon.entry with stage := 3 }) hsr
  rw [heq]
  exact ⟨(((Frame.refl _ _ s).setEntry _ (by decide)).setMem _ (by decide)).wr F.BTC_SR_STATE 1 (by decide), rfl,
    State.rd_wr_same _ _ _⟩

/-- FLUSH_DONE with no job and no frame in use commits the entry. -/
theorem State.execFlushDone_commits {s : State} (hstage : s.aon.entry.stage = 2)
    (htarget : s.rd F.AON_PWR_MODE_TARGET = 3) (hflush : s.rd F.SCR_MOV_STS_FLUSH = 1) (hjobs : s.job.jobs = [])
    (hftes : s.near.ftes = []) : execFlushDone s = .next s.flushed.writeCanaries.p3Committed := by
  unfold execFlushDone
  rw [if_pos ⟨hstage, htarget, by simp [State.rdb, hflush], by simp [hjobs], by simp [hftes]⟩]
  rfl

/-- The commit point: the flush ends, the canaries are signed, the resume area is valid and BTC enters self-refresh. -/
theorem State.p3Committed_flushed_spec {s : State} (hsr : s.rd F.BTC_SR_STATE = 0) {t : State}
    (ht : s.flushed.writeCanaries.p3Committed = t) :
    t.rd F.SCR_MOV_STS_FLUSH = 0 ∧ (t.rd (F.EVT_RAW_CAUSE 9) 0).testBit 3 = true ∧ t.rd F.AON_RESUME_VALID = 1 ∧
      t.rd F.AON_CANARY_SEQ = (s.rd F.AON_CANARY_SEQ + 1) % 2 ^ 32 ∧ t.aon.entry.stage = 3 ∧
      t.rd F.BTC_SR_STATE = 1 ∧ Frame [.evt, .tmu, .bulk, .mem, .aon] CommitKeys s t := by
  obtain ⟨hfl, hflush, hbit⟩ := s.flushed_spec
  obtain ⟨hcan, hvalid, hseq⟩ := s.flushed.writeCanaries_spec
  have hsr' : s.flushed.writeCanaries.rd F.BTC_SR_STATE = 0 := by
    rw [hcan.rd _ _ _ (by decide) (by decide), hfl.rd _ _ _ (by decide) (by decide), hsr]
  obtain ⟨hcom, hstage, hentering⟩ := State.p3Committed_spec hsr'
  rw [ht] at hcom hstage hentering
  generalize s.flushed.writeCanaries = v at hcan hvalid hseq hcom
  generalize s.flushed = u at *
  refine ⟨?flush, ?cause, ?valid, ?next, hstage, hentering, ?frame⟩
  case flush => rw [hcom.rd _ _ _ (by decide) (by decide), hcan.rd _ _ _ (by decide) (by decide), hflush]
  case cause => rw [hcom.rd _ _ _ (by decide) (by decide), hcan.rd _ _ _ (by decide) (by decide), hbit]
  case valid => rw [hcom.rd _ _ _ (by decide) (by decide), hvalid]
  case next => rw [hcom.rd _ _ _ (by decide) (by decide), hseq, hfl.rd _ _ _ (by decide) (by decide)]
  case frame =>
    exact ((hfl.mono (by decide) (by omega)).trans (hcan.mono (by decide) (by omega))).trans
      (hcom.mono (by decide) (by omega))

/-! ## The resume area after an uncorrectable error, and the canaries -/

/-- A resume area that cannot be read is given up: the ROM boots from flash (R494). -/
theorem State.execResumeAreaCheck_unreadable {s : State} (hcur : s.rd F.AON_PWR_MODE_CUR = 3)
    (hstage : s.aon.entry.stage = 5) (hhealth : s.rd F.CTL_HEALTH_STATE = 0) (hrom : s.ctl.romRan = true) :
    ∃ t, execResumeAreaCheck true s = .next t ∧ t.ctl.romRan = false ∧ t.rd F.AON_RESUME_RESULT = 1 ∧
      t.rd F.AON_RESUME_VALID = 0 ∧
      Frame [.ctl] (fun key => key = F.AON_RESUME_RESULT.key 0 0 ∨ key = F.AON_RESUME_VALID.key 0 0) s t := by
  have heq : execResumeAreaCheck true s =
      .next (((s.setCtl { s.ctl with romRan := false }).wr F.AON_RESUME_RESULT 1).wr F.AON_RESUME_VALID 0) := by
    unfold execResumeAreaCheck
    rw [if_neg (by simp [State.cur, hcur, hstage, hhealth, hrom]), if_neg (by simp)]
  refine ⟨_, heq, rfl, ?_, State.rd_wr_same _ _ _, ?_⟩
  · exact (State.rd_wr_ne _ _ _ _ _ _ (by decide)).trans (State.rd_wr_same _ _ _)
  · exact (((Frame.refl _ _ s).setCtl _ (by decide)).wr F.AON_RESUME_RESULT 1 (by decide)).wr F.AON_RESUME_VALID 0
      (by decide)

/-- The banks that CANARY_CHECK looks at and those of them that fail. -/
def State.checkedBanks (s : State) : List (Nat × Nat × Nat) :=
  s.canaryBanks.filter (fun x => (mget s.mem.canaries (canaryKey x.1 x.2.1 x.2.2)).isSome)
def State.failedBanks (s : State) (bad : List (Nat × Nat × Nat)) (serials : List (Nat × BitVec 32)) :
    List (Nat × Nat × Nat) :=
  s.checkedBanks.filter (s.bankFails bad serials)

/-- The canaries are used up, and the failing banks counted. -/
def State.canariesRead (s : State) (failed : Nat) : State :=
  (s.setMem { s.mem with canaries := [] }).wr F.AON_CANARY_FAILED failed

/-- The cause of a retention loss, and the sweep that it calls for. -/
def State.retentionSweep (s : State) : State :=
  (s.raise cRetentionLoss).setRas { (s.raise cRetentionLoss).ras with sweep := some (0, 0) }

section
variable {s : State} {bad : List (Nat × Nat × Nat)} {serials : List (Nat × BitVec 32)}
  (hcur : s.rd F.AON_PWR_MODE_CUR = 3) (hstage : s.aon.entry.stage = 5) (hcan : s.mem.canaries ≠ [])
include hcur hstage hcan

/-- CANARY_CHECK where no bank fails. -/
theorem State.execCanaryCheck_sound (hfail : s.failedBanks bad serials = []) :
    execCanaryCheck bad [] serials s = .next (s.canariesRead 0) := by
  simp only [execCanaryCheck, ← State.checkedBanks.eq_1, ← State.failedBanks.eq_1, hfail]
  rw [if_neg (by simp [State.cur, hcur, hstage, hcan])]
  rfl

/-- CANARY_CHECK where banks fail: they are listed, and the sweep of R265 is due. -/
theorem State.execCanaryCheck_failed (hfail : s.failedBanks bad serials ≠ []) :
    execCanaryCheck bad [] serials s = .next (((s.canariesRead (s.failedBanks bad serials).length).listBanks
      (s.failedBanks bad serials)).retentionSweep) := by
  simp only [execCanaryCheck, ← State.checkedBanks.eq_1, ← State.failedBanks.eq_1]
  rw [if_neg (by simp [State.cur, hcur, hstage, hcan]), if_neg (by simpa using hfail)]
  rfl

end

/-- The list of failing banks is RAS's registers. -/
theorem State.listBanks_frame (s : State) (l : List (Nat × Nat × Nat)) : Frame [] (fun _ => True) s (s.listBanks l) :=
  Frame.foldl _ _ _ fun u _ _ => ((((Frame.refl _ _ u).wrAt _ _ _ _ (.inl trivial)).wrAt _ _ _ _ (.inl trivial)).wrAt
    _ _ _ _ (.inl trivial)).wrAt _ _ _ _ (.inl trivial)

/-- No bank fails whose signature its canary has, while no DIMM is replaced and no word is bad. -/
theorem State.failedBanks_nil {s : State}
    (h : ∀ x ∈ s.canaryBanks, (mget s.mem.canaries (canaryKey x.1 x.2.1 x.2.2)).isSome = true →
      mget s.mem.canaries (canaryKey x.1 x.2.1 x.2.2) = some (crc32c (s.canaryRead x))) :
    s.failedBanks [] s.mem.serials = [] := by
  refine List.filter_eq_nil_iff.2 fun x hx => ?_
  obtain ⟨hbank, hsigned⟩ := List.mem_filter.1 hx
  simp only [State.bankFails, h x hbank hsigned, List.contains_nil, ne_eq, not_true_eq_false, decide_false,
    Bool.false_or]
  split <;> simp

/-- A bank whose canary has a bad word fails. -/
theorem State.failedBanks_ne_nil {s : State} {bad : List (Nat × Nat × Nat)} {serials : List (Nat × BitVec 32)}
    (h : s.canaryBanks.any (fun x =>
      (mget s.mem.canaries (canaryKey x.1 x.2.1 x.2.2)).isSome && bad.contains x) = true) :
    s.failedBanks bad serials ≠ [] := by
  obtain ⟨x, hbank, hx⟩ := List.any_eq_true.1 h
  obtain ⟨hsigned, hbad⟩ := Bool.and_eq_true_iff.1 hx
  refine List.ne_nil_of_mem (List.mem_filter.2 ⟨List.mem_filter.2 ⟨hbank, hsigned⟩, ?_⟩)
  rw [State.bankFails, hbad]; rfl

/-- A bank that fails has a signature. -/
theorem State.canaries_ne_nil {s : State} {bad : List (Nat × Nat × Nat)} {serials : List (Nat × BitVec 32)}
    (h : s.failedBanks bad serials ≠ []) : s.mem.canaries ≠ [] := by
  intro hnil
  refine h (List.filter_eq_nil_iff.2 fun x hx => ?_)
  obtain ⟨-, hsigned⟩ := List.mem_filter.1 hx
  rw [hnil] at hsigned
  cases hsigned

section
variable {s : State} (hcur : s.rd F.AON_PWR_MODE_CUR = 3) (hstage : s.aon.entry.stage = 5)
include hcur hstage

/-- Every canary read back as signed. -/
theorem State.execCanaryCheck_sound_spec (hcan : s.mem.canaries ≠ [])
    (hsound : ∀ x ∈ s.canaryBanks, (mget s.mem.canaries (canaryKey x.1 x.2.1 x.2.2)).isSome = true →
      mget s.mem.canaries (canaryKey x.1 x.2.1 x.2.2) = some (crc32c (s.canaryRead x))) :
    ∃ t, execCanaryCheck [] [] s.mem.serials s = .next t ∧ t.mem.canaries = [] ∧ t.rd F.AON_CANARY_FAILED = 0 ∧
      t.ras.sweep = s.ras.sweep ∧ Frame [.mem] (fun key => key = F.AON_CANARY_FAILED.key 0 0) s t :=
  ⟨_, State.execCanaryCheck_sound hcur hstage hcan (State.failedBanks_nil hsound), rfl, State.rd_wr_same _ _ _, rfl,
    ((Frame.refl _ _ s).setMem _ (by decide)).wr F.AON_CANARY_FAILED 0 (by decide)⟩

/-- A canary with a bad word starts the sweep. -/
theorem State.execCanaryCheck_bad_spec {bad : List (Nat × Nat × Nat)} {serials : List (Nat × BitVec 32)}
    (hbad : s.canaryBanks.any (fun x =>
      (mget s.mem.canaries (canaryKey x.1 x.2.1 x.2.2)).isSome && bad.contains x) = true) :
    ∃ t, execCanaryCheck bad [] serials s = .next t ∧ t.mem.canaries = [] ∧ t.ras.sweep = some (0, 0) ∧
      (t.rd (F.EVT_RAW_CAUSE 12) 0).testBit 10 = true ∧ t.bulk = s.bulk ∧ t.tmu = s.tmu := by
  have hfail : s.failedBanks bad serials ≠ [] := State.failedBanks_ne_nil hbad
  refine ⟨_, State.execCanaryCheck_failed hcur hstage (State.canaries_ne_nil hfail) hfail, ?_⟩
  have hlist := State.listBanks_frame (s.canariesRead (s.failedBanks bad serials).length) (s.failedBanks bad serials)
  generalize State.listBanks _ _ = u at *
  have hraise : Frame [.evt] (fun _ => True) u (u.raise cRetentionLoss) :=
    (Frame.refl _ _ u).raise _ _ _ _ (by decide) (.inl trivial)
  refine ⟨?canaries, rfl, State.raise_testBit u cRetentionLoss none none [] (by decide), ?bulk, ?tmu⟩
  case canaries => exact congrArg Mem.canaries ((hraise.1 .mem (by decide)).trans (hlist.1 .mem (by decide)))
  case bulk => exact (hraise.1 .bulk (by decide)).trans (hlist.1 .bulk (by decide))
  case tmu => exact (hraise.1 .tmu (by decide)).trans (hlist.1 .tmu (by decide))

end
/-! ## The roles of the cores -/

/-- Core n is given role c + 1. -/
def State.giveRole (s : State) (n c : Nat) : State :=
  s.wrI F.CTL_CORE_ROLE_ROLES n (setBit (s.rd F.CTL_CORE_ROLE_ROLES n) c)

/-- One role of Table 13.1 finds its core. -/
def State.placeRole (s : State) (c : Nat) : State :=
  if s.coreState c = 1 then s.giveRole c c
  else match [14, 15].find? (fun n => decide (s.coreState n = 1 ∧ s.rd F.CTL_CORE_ROLE_ROLES n = 0)) with
    | some n => s.giveRole n c
    | none => match s.coresIn 3 with
      | n :: _ => ((s.wrI F.CTL_CORE_CTL_STATE n 1).giveRole n c).noteCore c n
      | [] => match ((List.range 16).map (fun k => (c + 1 + k) % 16)).find? (fun n => decide (s.coreState n = 1)) with
        | some n => s.giveRole n c
        | none => s

theorem State.placeRoles_eq (s : State) : s.placeRoles = (List.range 14).foldl State.placeRole s := rfl

/-- The keys that the placing of roles may write. -/
abbrev RoleKeys (key : Nat) : Prop :=
  ∃ n < 16, key = F.CTL_CORE_ROLE_ROLES.key n 0 ∨ key = F.CTL_CORE_CTL_STATE.key n 0

/-- Roles are placed: no core loses a role or stops. -/
structure RolesKept (s t : State) : Prop where
  frame : Frame [.ras] RoleKeys s t
  role : ∀ n < 16, ∀ c < 16, (s.rd F.CTL_CORE_ROLE_ROLES n).testBit c = true →
    (t.rd F.CTL_CORE_ROLE_ROLES n).testBit c = true
  active : ∀ n, s.coreState n = 1 → t.coreState n = 1

theorem RolesKept.refl (s : State) : RolesKept s s := ⟨Frame.refl _ _ s, fun _ _ _ _ h => h, fun _ h => h⟩

theorem RolesKept.trans {s t u : State} (h : RolesKept s t) (h' : RolesKept t u) : RolesKept s u :=
  ⟨h.frame.trans h'.frame, fun n hn c hc hr => h'.role n hn c hc (h.role n hn c hc hr),
    fun n hn => h'.active n (h.active n hn)⟩

theorem State.rd_giveRole (s : State) {n c : Nat} :
    (s.giveRole n c).rd F.CTL_CORE_ROLE_ROLES n = setBit (s.rd F.CTL_CORE_ROLE_ROLES n) c % 2 ^ 16 :=
  State.rd_wrI_same _ _ _ _

theorem RolesKept.giveRole (s : State) {n : Nat} (hn : n < 16) (c : Nat) : RolesKept s (s.giveRole n c) where
  frame := (Frame.refl _ _ s).wrI _ _ _ (.inl ⟨n, hn, .inl rfl⟩)
  role m _ b hb h := by
    by_cases hm : m = n
    · subst hm
      rw [State.rd_giveRole, Nat.testBit_mod_two_pow, setBit, Nat.testBit_or, h]
      simp [hb]
    · exact (congrArg (·.testBit b) (s.rd_wrI_ne _ _ _ _ _ _ (Fld.key_ne_of_inst _ _ hm))).trans h
  active m h := (s.rd_wrI_apart _ _ _ (by decide)).trans h

theorem RolesKept.activate (s : State) {n : Nat} (hn : n < 16) : RolesKept s (s.wrI F.CTL_CORE_CTL_STATE n 1) where
  frame := (Frame.refl _ _ s).wrI _ _ _ (.inl ⟨n, hn, .inr rfl⟩)
  role _ _ b _ h := (congrArg (·.testBit b) (s.rd_wrI_apart _ _ _ (by decide))).trans h
  active m h := by
    by_cases hm : m = n
    · subst hm; exact State.rd_wrI_same _ _ _ _
    · exact (s.rd_wrI_ne _ _ _ _ _ _ (Fld.key_ne_of_inst _ _ hm)).trans h

theorem RolesKept.noteCore (s : State) (c n : Nat) : RolesKept s (s.noteCore c n) :=
  ⟨(Frame.refl _ _ s).with_ras _ (by decide), fun _ _ _ _ h => h, fun _ h => h⟩

/-- A role is placed, on its own core while that core runs. -/
theorem State.placeRole_spec (s : State) {c : Nat} (hc : c < 16) : RolesKept s (s.placeRole c) ∧
    (s.coreState c = 1 → ((s.placeRole c).rd F.CTL_CORE_ROLE_ROLES c).testBit c = true) := by
  unfold State.placeRole
  split
  next hrun => exact ⟨RolesKept.giveRole s hc c, fun _ => by rw [State.rd_giveRole]; exact testBit_setBit_mod hc⟩
  next hstop =>
    refine ⟨?_, fun h => absurd h hstop⟩
    split
    next n hn =>
      have hmem := List.mem_of_find?_eq_some hn
      exact RolesKept.giveRole s (by simp at hmem; omega) c
    next =>
      split
      next n l hn =>
        have hspare : n ∈ s.coresIn 3 := hn ▸ List.mem_cons_self
        have hlt : n < 16 := List.mem_range.1 (List.mem_of_mem_filter hspare)
        exact ((RolesKept.activate s hlt).trans (RolesKept.giveRole _ hlt c)).trans (RolesKept.noteCore _ c n)
      next =>
        split
        next n hn =>
          obtain ⟨k, -, rfl⟩ := List.mem_map.1 (List.mem_of_find?_eq_some hn)
          exact RolesKept.giveRole s (Nat.mod_lt _ (by decide)) c
        next => exact RolesKept.refl s

theorem State.foldl_placeRole_spec (l : List Nat) (s : State) (hl : ∀ c ∈ l, c < 16) :
    RolesKept s (l.foldl State.placeRole s) ∧ ∀ c ∈ l, s.coreState c = 1 →
      ((l.foldl State.placeRole s).rd F.CTL_CORE_ROLE_ROLES c).testBit c = true := by
  induction l generalizing s with
  | nil => exact ⟨RolesKept.refl s, by simp⟩
  | cons b l ih =>
    obtain ⟨hb, hl⟩ := List.forall_mem_cons.1 hl
    obtain ⟨hfirst, hgiven⟩ := s.placeRole_spec hb
    obtain ⟨hrest, hothers⟩ := ih (s.placeRole b) hl
    refine ⟨hfirst.trans hrest, List.forall_mem_cons.2 ⟨fun h => ?_, fun c hc h => ?_⟩⟩
    · exact hrest.role b hb b hb (hgiven h)
    · exact hothers c hc (hfirst.active c h)

/-- The placing of the roles gives every core that runs its own. -/
theorem State.placeRoles_spec (s : State) : RolesKept s s.placeRoles ∧
    ∀ c < 14, s.coreState c = 1 → (s.placeRoles.rd F.CTL_CORE_ROLE_ROLES c).testBit c = true := by
  obtain ⟨hkept, hown⟩ := s.foldl_placeRole_spec (List.range 14) fun c hc => by have := List.mem_range.1 hc; omega
  exact ⟨hkept, fun c hc => hown c (List.mem_range.2 hc)⟩

/-! ## The firmware copy that the resume area holds -/

/-- CTL with a copy that runs. -/
def Ctl.running (x : Ctl) (h : List Byte) : Ctl :=
  { x with header := h, checking := none, wdtRuns := true, beats := [], moves := [] }

/-- The copy and its header are noted: its version reads, firmware is booting and the watchdog runs. -/
def State.copyNoted (s : State) (copy : Nat) (h : List Byte) : State :=
  let s1 := (((s.wr F.CTL_BOOT_COPY copy).wr F.CTL_FW_VER_VERSION (numAt h 8 4)).wr F.CTL_FW_VER_SVN (numAt h 0xc 4)).wr
    F.CTL_HEALTH_STATE 2
  s1.setCtl (s1.ctl.running h)

/-- A revert that is due is raised. -/
def State.noteRevert (s : State) : State :=
  if s.ctl.revertDue then (s.raise cFwReverted).setCtl { (s.raise cFwReverted).ctl with revertDue := false } else s

/-- At a cold reset the root key is drawn (R134). -/
def State.drawRoot (s : State) : State :=
  if s.cry.root.isNone ∧ s.rdb F.CRY_MODE_TRNG_OK ∧ !s.aon.seenActive then
    (s.setCry { s.cry with root := some (Config.rootKey s.draw) }).drawn
  else s

theorem State.runCopy_eq (s : State) (copy : Nat) (h : List Byte) :
    s.runCopy copy h = (s.copyNoted copy h).noteRevert.placeRoles.drawRoot := by
  rw [State.drawRoot, State.noteRevert, State.copyNoted, Ctl.running, State.runCopy]

/-- The keys that a copy's start may write beside the roles'. -/
abbrev CopyKeys (key : Nat) : Prop :=
  key = F.CTL_BOOT_COPY.key 0 0 ∨ key = F.CTL_FW_VER_VERSION.key 0 0 ∨ key = F.CTL_FW_VER_SVN.key 0 0 ∨
    key = F.CTL_HEALTH_STATE.key 0 0 ∨ key = (F.EVT_RAW_CAUSE 1).key 0 0

theorem State.copyNoted_frame (s : State) (copy : Nat) (h : List Byte) : Frame [.ctl] CopyKeys s (s.copyNoted copy h) :=
  (((((Frame.refl _ _ s).wr F.CTL_BOOT_COPY _ (by decide)).wr F.CTL_FW_VER_VERSION _ (by decide)).wr F.CTL_FW_VER_SVN _
    (by decide)).wr F.CTL_HEALTH_STATE _ (by decide)).setCtl _ (by decide)

/-- What the registers of a copy that runs read. -/
theorem State.rd_copyNoted (s : State) {copy : Nat} (h : List Byte) (hcopy : copy < 4) {t : State}
    (ht : s.copyNoted copy h = t) :
    t.rd F.CTL_BOOT_COPY = copy ∧ t.rd F.CTL_FW_VER_VERSION = numAt h 8 4 ∧ t.rd F.CTL_FW_VER_SVN = numAt h 0xc 4 ∧
      t.rd F.CTL_HEALTH_STATE = 2 := by
  subst ht
  simp only [State.copyNoted, State.setCtl_rd]
  refine ⟨?copy, ?version, ?svn, State.rd_wr_same _ _ _⟩
  case copy =>
    rw [State.rd_wr_ne _ _ _ _ _ _ (by decide), State.rd_wr_ne _ _ _ _ _ _ (by decide),
      State.rd_wr_ne _ _ _ _ _ _ (by decide), State.rd_wr_same]
    exact Nat.mod_eq_of_lt hcopy
  case version =>
    rw [State.rd_wr_ne _ _ _ _ _ _ (by decide), State.rd_wr_ne _ _ _ _ _ _ (by decide), State.rd_wr_same]
    exact Nat.mod_eq_of_lt (numAt_lt h 8 4)
  case svn =>
    rw [State.rd_wr_ne _ _ _ _ _ _ (by decide), State.rd_wr_same]
    exact Nat.mod_eq_of_lt (numAt_lt h 0xc 4)

theorem State.noteRevert_spec (s : State) :
    Frame [.ctl, .evt] (fun key => key = (F.EVT_RAW_CAUSE 1).key 0 0) s s.noteRevert ∧
    ∃ due, s.noteRevert.ctl = { s.ctl with revertDue := due } := by
  unfold State.noteRevert
  split
  · have hraise : Frame [.evt] (fun key => key = (F.EVT_RAW_CAUSE 1).key 0 0) s (s.raise cFwReverted) :=
      (Frame.refl _ _ s).raise cFwReverted _ _ _ (by decide) (by decide)
    refine ⟨(hraise.mono (by decide) fun _ h => h).setCtl _ (by decide), false, ?_⟩
    rw [State.setCtl_ctl, hraise.1 .ctl (by decide)]
  · exact ⟨Frame.refl _ _ s, s.ctl.revertDue, rfl⟩

theorem State.drawRoot_frame (s : State) : Frame [.cry, .draw] (fun _ => False) s s.drawRoot :=
  Frame.ite _ (fun _ => ((Frame.refl _ _ s).setCry _ (by decide)).with_draw _ (by decide)) fun _ => Frame.refl _ _ s

theorem State.drawRoot_kept {s : State} (h : s.cry.root ≠ none) : s.drawRoot = s := by
  unfold State.drawRoot
  exact if_neg fun hc => h (Option.isNone_iff_eq_none.1 hc.1)

theorem State.drawRoot_drawn {s : State} (h : s.cry.root = none) (htrng : s.rd F.CRY_MODE_TRNG_OK = 1)
    (hseen : s.aon.seenActive = false) : s.drawRoot.cry = { s.cry with root := some (Config.rootKey s.draw) } := by
  unfold State.drawRoot
  rw [if_pos ⟨by rw [h]; rfl, by simp [State.rdb, htrng], by simp [hseen]⟩]
  rfl

/-- The copy of an accepted resume area runs. -/
def State.resumed (s : State) : State :=
  let s1 := s.runCopy (s.rd F.CTL_BOOT_COPY) s.mem.resumeHeader
  (s1.setCtl { s1.ctl with alive := true }).wr F.AON_RESUME_RESULT 0

/-- A resume area that passes the check runs (R494). -/
theorem State.execResumeAreaCheck_ok {s : State} (hcur : s.rd F.AON_PWR_MODE_CUR = 3)
    (hstage : s.aon.entry.stage = 5) (hhealth : s.rd F.CTL_HEALTH_STATE = 0) (hrom : s.ctl.romRan = true)
    (hok : s.resumeOk = true) : execResumeAreaCheck false s = .next s.resumed := by
  unfold execResumeAreaCheck
  rw [if_neg (by simp [State.cur, hcur, hstage, hhealth, hrom]), if_pos ⟨hok, rfl⟩]
  rfl

/-- What a copy's start may change. -/
abbrev ResumeKeys (key : Nat) : Prop :=
  RoleKeys key ∨ key = F.CTL_BOOT_COPY.key 0 0 ∨ key = F.CTL_FW_VER_VERSION.key 0 0 ∨ key = F.CTL_FW_VER_SVN.key 0 0 ∨
    key = F.CTL_HEALTH_STATE.key 0 0 ∨ key = (F.EVT_RAW_CAUSE 1).key 0 0 ∨ key = F.AON_RESUME_RESULT.key 0 0

theorem CopyKeys.resumeKeys {key : Nat} (h : CopyKeys key) : ResumeKeys key := by
  rcases h with h | h | h | h | h
  · exact .inr (.inl h)
  · exact .inr (.inr (.inl h))
  · exact .inr (.inr (.inr (.inl h)))
  · exact .inr (.inr (.inr (.inr (.inl h))))
  · exact .inr (.inr (.inr (.inr (.inr (.inl h)))))

/-- What the start of a copy does to the parts of the state. -/
structure Resumed (s t : State) : Prop where
  frame : Frame [.ctl, .ras, .evt, .cry, .draw] ResumeKeys s t
  copy : t.rd F.CTL_BOOT_COPY = s.rd F.CTL_BOOT_COPY
  version : t.rd F.CTL_FW_VER_VERSION = numAt s.mem.resumeHeader 8 4
  svn : t.rd F.CTL_FW_VER_SVN = numAt s.mem.resumeHeader 0xc 4
  health : t.rd F.CTL_HEALTH_STATE = 2
  roles : ∀ c < 14, s.coreState c = 1 → (t.rd F.CTL_CORE_ROLE_ROLES c).testBit c = true
  ctl : ∃ due, t.ctl = { s.ctl.running s.mem.resumeHeader with revertDue := due }
  rootKept : s.cry.root ≠ none → t.cry = s.cry
  rootDrawn : s.cry.root = none → s.rd F.CRY_MODE_TRNG_OK = 1 → s.aon.seenActive = false →
    t.cry = { s.cry with root := some (Config.rootKey s.draw) }

theorem State.runCopy_resumed {s : State} (hcopy : s.rd F.CTL_BOOT_COPY < 4) :
    Resumed s (s.runCopy (s.rd F.CTL_BOOT_COPY) s.mem.resumeHeader) := by
  rw [State.runCopy_eq]
  have hnoted := State.copyNoted_frame s (s.rd F.CTL_BOOT_COPY) s.mem.resumeHeader
  have hctl : (s.copyNoted (s.rd F.CTL_BOOT_COPY) s.mem.resumeHeader).ctl = s.ctl.running s.mem.resumeHeader := rfl
  obtain ⟨hcop, hver, hsvn, hhealth⟩ := s.rd_copyNoted s.mem.resumeHeader hcopy rfl
  generalize s.copyNoted (s.rd F.CTL_BOOT_COPY) s.mem.resumeHeader = u at *
  obtain ⟨hrevert, due, hdue⟩ := u.noteRevert_spec
  generalize u.noteRevert = v at *
  obtain ⟨hkept, hroles⟩ := v.placeRoles_spec
  generalize v.placeRoles = w at *
  have hroot := State.drawRoot_frame w
  have hread : ∀ f, ¬ RoleKeys (f.key 0 0) → f.key 0 0 ≠ (F.EVT_RAW_CAUSE 1).key 0 0 → ¬ InBlock 14 (f.key 0 0) →
      w.drawRoot.rd f = u.rd f := fun f hrole hcause hpmu => by
    rw [hroot.rd _ _ _ (fun h => h) hpmu, hkept.frame.rd _ _ _ hrole hpmu, hrevert.rd _ _ _ hcause hpmu]
  have hcry : w.cry = s.cry :=
    (hkept.frame.1 .cry (by decide)).trans ((hrevert.1 .cry (by decide)).trans (hnoted.1 .cry (by decide)))
  have hdraw : w.draw = s.draw :=
    (hkept.frame.1 .draw (by decide)).trans ((hrevert.1 .draw (by decide)).trans (hnoted.1 .draw (by decide)))
  have haon : w.aon = s.aon :=
    (hkept.frame.1 .aon (by decide)).trans ((hrevert.1 .aon (by decide)).trans (hnoted.1 .aon (by decide)))
  constructor
  case copy => rw [hread _ (by decide) (by decide) (by decide), hcop]
  case version => rw [hread _ (by decide) (by decide) (by decide), hver]
  case svn => rw [hread _ (by decide) (by decide) (by decide), hsvn]
  case health => rw [hread _ (by decide) (by decide) (by decide), hhealth]
  case frame =>
    refine Frame.trans (Frame.trans (Frame.trans (hnoted.mono (by decide) fun _ h => h.resumeKeys)
      (hrevert.mono (by decide) fun _ h => CopyKeys.resumeKeys (.inr (.inr (.inr (.inr h))))))
      (hkept.frame.mono (by decide) fun _ h => .inl h)) (hroot.mono (by decide) fun _ h => h.elim)
  case roles =>
    have hkeys : ∀ c < 14, ¬ CopyKeys (F.CTL_CORE_CTL_STATE.key c 0) ∧
        ¬ InBlock 14 (F.CTL_CORE_CTL_STATE.key c 0) ∧ ¬ InBlock 14 (F.CTL_CORE_ROLE_ROLES.key c 0) := by decide
    intro c hc hrun
    obtain ⟨hcopyKey, hstate, hrole⟩ := hkeys c hc
    have hv : v.coreState c = 1 := by
      rw [State.coreState, hrevert.rd _ _ _ (fun h => hcopyKey (.inr (.inr (.inr (.inr h))))) hstate,
        hnoted.rd _ _ _ hcopyKey hstate]
      exact hrun
    rw [hroot.rd _ _ _ (fun h => h) hrole]
    exact hroles c hc hv
  case ctl =>
    refine ⟨due, ?_⟩
    rw [hroot.1 .ctl (by decide), hkept.frame.1 .ctl (by decide), hdue, hctl]
  case rootKept =>
    intro h
    rw [State.drawRoot_kept (by rw [hcry]; exact h), hcry]
  case rootDrawn =>
    intro h htrng hseen
    have hrd : w.rd F.CRY_MODE_TRNG_OK = 1 := by
      rw [hkept.frame.rd _ _ _ (by decide) (by decide), hrevert.rd _ _ _ (by decide) (by decide),
        hnoted.rd _ _ _ (by decide) (by decide), htrng]
    rw [State.drawRoot_drawn (by rw [hcry]; exact h) hrd (by rw [haon]; exact hseen), hcry, hdraw]

/-- The copy of an accepted resume area runs: the check itself adds RESULT and that the cores live. -/
theorem Resumed.accepted {s u t : State} (h : Resumed s u)
    (ht : (u.setCtl { u.ctl with alive := true }).wr F.AON_RESUME_RESULT 0 = t) :
    t.rd F.AON_RESUME_RESULT = 0 ∧ (∀ f k, f.key k 0 ≠ F.AON_RESUME_RESULT.key 0 0 → t.rd f k = u.rd f k) ∧
      t.cry = u.cry ∧ (∃ due, t.ctl = { s.ctl.running s.mem.resumeHeader with revertDue := due, alive := true }) ∧
      Frame [.ctl, .ras, .evt, .cry, .draw] ResumeKeys s t := by
  subst ht
  refine ⟨State.rd_wr_same _ _ _, fun f k hf => State.rd_wr_ne _ _ _ _ _ _ hf, rfl, ?ctl, ?frame⟩
  case ctl =>
    obtain ⟨due, hdue⟩ := h.ctl
    exact ⟨due, by rw [State.wr_ctl, State.setCtl_ctl, hdue]⟩
  case frame =>
    refine (h.frame.setCtl _ (by decide)).wr F.AON_RESUME_RESULT 0 (.inl ?_)
    exact .inr (.inr (.inr (.inr (.inr (.inr rfl)))))

/-- The state after RESUME_AREA_CHECK has accepted the area. -/
theorem State.resumed_spec {s t : State} (hcopy : s.rd F.CTL_BOOT_COPY < 4) (ht : s.resumed = t) :
    t.rd F.AON_RESUME_RESULT = 0 ∧ t.ctl.alive = true ∧ t.ctl.checking = none ∧
      t.rd F.CTL_BOOT_COPY = s.rd F.CTL_BOOT_COPY ∧ t.rd F.CTL_FW_VER_VERSION = numAt s.mem.resumeHeader 8 4 ∧
      t.rd F.CTL_FW_VER_SVN = numAt s.mem.resumeHeader 0xc 4 ∧ t.rd F.CTL_HEALTH_STATE = 2 ∧
      t.ctl.header = s.mem.resumeHeader ∧ t.ctl.wdtRuns = true ∧ t.ctl.beats = [] ∧ t.ctl.moves = [] ∧
      (∀ c < 14, s.coreState c = 1 → (t.rd F.CTL_CORE_ROLE_ROLES c).testBit c = true) ∧
      (s.cry.root ≠ none → t.cry = s.cry) ∧
      (s.cry.root = none → s.rd F.CRY_MODE_TRNG_OK = 1 → s.aon.seenActive = false →
        t.cry = { s.cry with root := some (Config.rootKey s.draw) }) ∧
      Frame [.ctl, .ras, .evt, .cry, .draw] ResumeKeys s t := by
  have hrun := State.runCopy_resumed hcopy
  unfold State.resumed at ht
  obtain ⟨hresult, hread, hcry, ⟨due, hctl⟩, hframe⟩ := hrun.accepted ht
  have hroles : ∀ c < 14, F.CTL_CORE_ROLE_ROLES.key c 0 ≠ F.AON_RESUME_RESULT.key 0 0 := by decide
  refine ⟨hresult, ?alive, ?checking, ?copy, ?version, ?svn, ?health, ?header, ?wdt, ?beats, ?moves, ?roles, ?kept,
    ?drawn, hframe⟩
  case copy => rw [hread _ _ (by decide), hrun.copy]
  case version => rw [hread _ _ (by decide), hrun.version]
  case svn => rw [hread _ _ (by decide), hrun.svn]
  case health => rw [hread _ _ (by decide), hrun.health]
  case roles => exact fun c hc h => by rw [hread _ _ (hroles c hc)]; exact hrun.roles c hc h
  case kept => exact fun h => hcry.trans (hrun.rootKept h)
  case drawn => exact fun h htrng hseen => hcry.trans (hrun.rootDrawn h htrng hseen)
  case alive | checking | header | wdt | beats | moves => simp only [hctl, Ctl.running]

end Sys2Proof.Machine

namespace Sys2Proof.Safety
open Sys2Proof.Machine

/-! ## The power-down of P3 -/

section
variable {P : List Part} {K : Nat → Prop} {s t : State}

theorem Frame.drainedStatus (h : Frame P K s t) (keys : List Nat) (hm : .mem ∈ P) (hk : ∀ key, ChanKeys key → K key) :
    Frame P K s (t.drainedStatus keys) := by
  have hnear : ∀ i < 32, ChanKeys (F.NTC_CH_REF_POSTPONED.key i 0) ∧ ChanKeys (F.BTC_SC_REF_POSTPONED.key i 0) := by
    decide
  refine h.trans (Frame.foldl _ _ _ fun u k _ => ((Frame.refl _ _ u).chanStatus k hm hk).wrI _ _ _ (.inl (hk _ ?_)))
  obtain ⟨hn, hb⟩ := hnear (k % 32) (Nat.mod_lt _ (by decide))
  split
  · exact hn
  · exact hb

/-- The bulk commit point is the memory controllers' (R223 step 4). -/
theorem Frame.srBulk (h : Frame P K s t) (hm : .mem ∈ P) (he : .evt ∈ P) (hk : ∀ key, ChanKeys key → K key) :
    Frame P K s t.srBulk :=
  ((h.setMem _ hm).drainedStatus _ hm hk).bump F.BTC_SR_ENTRIES _ _ _ _ _ he (by decide) (.inl (hk _ (by decide)))

theorem Frame.resetQueues (h : Frame P K s t) (sel : Nat → Bool) (hjobs : t.job.jobs = []) (hj : .job ∈ P)
    (h1 : K (F.SCR_JOB_STS_INFLIGHT.key 0 0)) (h2 : K (F.SCR_JOB_STS_ACTIVE.key 0 0)) :
    Frame P K s (t.resetQueues sel) := by
  have hend : Frame P K s (t.endSilently fun j => sel j.queue) := by
    unfold State.endSilently
    simp only [hjobs, List.filter_nil, List.foldl_nil]
    exact (h.setJob _ hj).wr _ _ (.inl h1)
  refine Frame.setJob ?_ _ hj
  exact hend.trans (Frame.foldl _ _ _ fun u _ _ => ((Frame.refl _ _ u).setJob _ hj).wr _ _ (.inl h2))

theorem Frame.admRest (h : Frame P K s t) (ha : .adm ∈ P) : Frame P K s t.admRest := h.setAdm _ ha

/-- No far write waits to be applied: the chain ports alone start afresh. -/
theorem Frame.clxRest (h : Frame P K s t) (requester : Bool) (hdone : t.clx.done = []) (hc : .clx ∈ P) :
    Frame P K s (t.clxRest requester) := by
  unfold State.clxRest
  rw [hdone, List.foldl_nil]
  exact h.setClx _ hc

theorem Frame.ctlRest (h : Frame P K s t) (hc : .ctl ∈ P) : Frame P K s t.ctlRest := h.setCtl _ hc

/-- A reset of register fields changes nothing else. -/
theorem Frame.keepRegs (h : Frame P (fun _ => True) s t) (keep : Fld → Bool) :
    Frame P (fun _ => True) s (t.keepRegs keep) :=
  h.trans ⟨fun p _ => by cases p <;> rfl, fun _ hk => absurd trivial hk⟩

/-- The near tier's end is in its own data and TMU's. -/
theorem Frame.nearOff (h : Frame P K s t) (ht : .tmu ∈ P) (hn : .near ∈ P) : Frame P K s t.nearOff :=
  (h.trans (Frame.foldl _ _ _ fun u _ _ => (Frame.refl _ _ u).setTme _ _ _ ht)).setNear _ hn

end
end Sys2Proof.Safety

namespace Sys2Proof.Machine
open Sys2Proof.Safety

theorem State.resume_chanStatus (s : State) (key : Nat) : (s.chanStatus key).mem.resume = s.mem.resume := by
  simp [State.chanStatus, State.wrb]

theorem State.resume_drainedStatus (s : State) (keys : List Nat) :
    (s.drainedStatus keys).mem.resume = s.mem.resume := by
  unfold State.drainedStatus
  induction keys generalizing s with
  | nil => rfl
  | cons k keys ih =>
    rw [List.foldl_cons, ih, State.wrI_mem, State.resume_chanStatus]

theorem State.srBulk_eq (s : State) : ∃ m keys,
    s.srBulk = ((s.setMem m).drainedStatus keys).bump F.BTC_SR_ENTRIES ∧ m.resume = s.mem.resume :=
  ⟨_, _, rfl, rfl⟩

theorem State.resume_srBulk (s : State) : s.srBulk.mem.resume = s.mem.resume := by
  have hbump : ∀ u : State, (u.bump F.BTC_SR_ENTRIES).mem = u.mem := fun u =>
    ((Frame.refl [.evt] (fun _ => True) u).bump _ _ _ _ _ _ (by decide) (by decide) (.inl trivial)).1 .mem (by decide)
  obtain ⟨m, keys, heq, hm⟩ := s.srBulk_eq
  rw [heq, hbump, State.resume_drainedStatus, State.setMem_mem, hm]

/-- The keys that the end of the queues writes. -/
abbrev QueueKeys (key : Nat) : Prop :=
  key = F.SCR_JOB_STS_INFLIGHT.key 0 0 ∨ key = F.SCR_JOB_STS_ACTIVE.key 0 0

/-- The parts of the core domain that stop, the near tier and the memory controllers apart. -/
def State.stopCore (s : State) : State :=
  let s2 := (s.setTmu { s.tmu with moves := [], cache := [], waits := [], fetches := [] }).setCdc { held := [] }
  (((s2.dirClear.resetQueues (fun _ => true)).admRest).clxRest true).ctlRest

theorem State.stopCore_frame {s : State} (hjobs : s.job.jobs = []) (hdone : s.clx.done = []) :
    Frame [.tmu, .cdc, .dir, .job, .adm, .clx, .ctl] QueueKeys s s.stopCore := by
  have hcdc : Frame [.tmu, .cdc, .dir, .job] QueueKeys s
      ((s.setTmu { s.tmu with moves := [], cache := [], waits := [], fetches := [] }).setCdc { held := [] }).dirClear :=
    (((Frame.refl _ _ s).setTmu _ (by decide)).setCdc _ (by decide)).setDir _ (by decide)
  have hqueues := hcdc.resetQueues (fun _ => true) hjobs (by decide) (.inl rfl) (.inr rfl)
  have hclx : (State.resetQueues (State.dirClear _) _).clx.done = [] :=
    (congrArg Clx.done (hqueues.1 .clx (by decide))).trans hdone
  exact (((hqueues.mono (by decide) fun _ h => h).admRest (by decide)).clxRest true hclx (by decide)).ctlRest
    (by decide)

/-- The memory controllers, SCR, CRY, the links, RAS's copies and the events end. -/
def State.stopRest (s : State) (latched : List (Raise × Nat × Nat)) : State :=
  let s3 := s.memRest
  let s4 := s3.setScr { s3.scr with cands := [], lastPromo := [], prefetch := [], low := false }
  let s5 := s4.setCry { s4.cry with ide := [], ideOn := [], lines := 0, marks := [] }
  let s6 := (s5.setHlx Hlx.empty).setRas { s5.ras with copies := [] }
  s6.setEvt { State.reset.evt with latched := latched }

theorem State.stopRest_frame (s : State) (latched : List (Raise × Nat × Nat)) :
    Frame [.mem, .scr, .cry, .hlx, .ras, .evt] (fun _ => False) s (s.stopRest latched) :=
  ((((((Frame.refl _ _ s).setMem _ (by decide)).setScr _ (by decide)).setCry _ (by decide)).setHlx _ (by decide)).setRas
    _ (by decide)).setEvt _ (by decide)

theorem State.coreOff_eq {s : State} (hmoves : s.tmu.moves = []) :
    s.coreOff = s.nearOff.writeBack.stopCore.stopRest s.evt.latched := by
  have hstop : s.stopMoves = s := by rw [State.stopMoves, hmoves]; rfl
  rw [State.coreOff, hstop, State.stopRest, State.stopCore]

/-- What the power-down of the core domain does. -/
theorem State.coreOff_spec {s : State} (hmoves : s.tmu.moves = []) (hjobs : s.job.jobs = [])
    (hdone : s.clx.done = []) :
    Frame [.tmu, .near, .cdc, .dir, .job, .adm, .clx, .ctl, .mem, .scr, .cry, .hlx, .ras, .evt] QueueKeys s s.coreOff ∧
      s.coreOff.near.mem = [] ∧ s.coreOff.near.ftes = [] ∧ s.coreOff.cry.slotKeys = s.cry.slotKeys ∧
      s.coreOff.mem.resume = s.mem.resume := by
  have hoff : Frame [.tmu, .near] (fun _ => False) s s.nearOff := (Frame.refl _ _ s).nearOff (by decide) (by decide)
  have hback : Frame [.tmu] (fun _ => False) s.nearOff s.nearOff.writeBack :=
    (Frame.refl _ _ _).writeBack (by decide)
  have hnear : s.nearOff.writeBack.near = s.nearOff.near := hback.1 .near (by decide)
  have hend : s.nearOff.near.mem = [] ∧ s.nearOff.near.ftes = [] := ⟨rfl, rfl⟩
  rw [State.coreOff_eq hmoves]
  generalize s.nearOff = a at *
  generalize a.writeBack = b at *
  have hab : Frame [.tmu, .near] (fun _ => False) s b := hoff.trans (hback.mono (by decide) fun _ h => h)
  have hcore := State.stopCore_frame (s := b) (by rw [hab.1 .job (by decide), hjobs])
    (by rw [hab.1 .clx (by decide), hdone])
  have hrest := b.stopCore.stopRest_frame s.evt.latched
  have hkeys : (b.stopCore.stopRest s.evt.latched).cry.slotKeys = b.stopCore.cry.slotKeys := rfl
  have hresume : (b.stopCore.stopRest s.evt.latched).mem.resume = b.stopCore.mem.resume := rfl
  generalize b.stopCore = c at *
  generalize c.stopRest s.evt.latched = d at *
  refine ⟨?frame, ?mem, ?ftes, ?keys, ?resume⟩
  case frame =>
    exact ((hab.mono (by decide) fun _ h => h.elim).trans (hcore.mono (by decide) fun _ h => h)).trans
      (hrest.mono (by decide) fun _ h => h.elim)
  case mem => rw [hrest.1 .near (by decide), hcore.1 .near (by decide), hnear, hend.1]
  case ftes => rw [hrest.1 .near (by decide), hcore.1 .near (by decide), hnear, hend.2]
  case keys => rw [hkeys, hcore.1 .cry (by decide), hab.1 .cry (by decide)]
  case resume => rw [hresume, hcore.1 .mem (by decide), hab.1 .mem (by decide)]

/-! ## The registers that a sleep keeps -/

/-- The value under a key whose field the reset keeps. -/
theorem State.mget_keepRegs (s : State) {keep : Fld → Bool} {key : Nat}
    (h : ∀ g, fieldOf key = some g → keep g = true) : mget (s.keepRegs keep).regs key = mget s.regs key := by
  have hkey : (match fieldOf key with | some g => keep g | none => true) = true := by
    cases hf : fieldOf key with
    | none => rfl
    | some g => exact h g hf
  exact (mget_filter s.regs (fun key => match fieldOf key with | some g => keep g | none => true) _).trans (if_pos hkey)

/-- A field that the reset keeps reads as before. -/
theorem State.rd_keepRegs (s : State) {keep : Fld → Bool} {f : Fld} {i k : Nat}
    (h : ∀ g, fieldOf (f.key i k) = some g → keep g = true) : (s.keepRegs keep).rd f i k = s.rd f i k := by
  rw [State.rd, State.rd, mgetD, mgetD, s.mget_keepRegs h]

theorem State.rd_p3Regs_target (s : State) : s.p3Regs.rd F.AON_PWR_MODE_TARGET = s.rd F.AON_PWR_MODE_TARGET := by
  have hfield : fieldOf (F.AON_PWR_MODE_TARGET.key 0 0) = some F.AON_PWR_MODE_TARGET := by decide
  refine s.rd_keepRegs fun g hg => ?_
  obtain rfl := Option.some.inj (hfield.symm.trans hg)
  decide

/-! ## The end of the entry -/

/-- The registers of an entry that is complete, and its counter. -/
def State.enteredRegs (s : State) (cnt : Fld) : State :=
  ((((s.wr F.AON_PWR_MODE_CUR s.target).wr F.AON_PWR_MODE_PHASE 2).wr F.AON_PWR_MODE_ARM 0).wr
    F.AON_PWR_STS_OUTCOME 0).bump cnt

theorem State.entered_eq {s : State} (cnt : Fld) (hwakes : s.aon.entry.wakes = []) : s.entered cnt =
    ((s.enteredRegs cnt).setEntry { (s.enteredRegs cnt).aon.entry with
      stage := 4, wakes := [], attempts := 0, retry := false }).raise cEntered := by
  rw [State.entered, hwakes]; rfl

/-- No wake was latched: the unit is in P3. -/
theorem State.entered_spec {s t : State} (hwakes : s.aon.entry.wakes = []) (htarget : s.rd F.AON_PWR_MODE_TARGET = 3)
    (ht : s.entered F.AON_PWR_CNT_P3 = t) :
    t.rd F.AON_PWR_MODE_CUR = 3 ∧ t.rd F.AON_PWR_MODE_PHASE = 2 ∧ t.aon.entry.stage = 4 ∧
      t.aon.groups = s.aon.groups ∧ Frame [.evt, .aon] (InBlock 0) s t := by
  rw [State.entered_eq _ hwakes] at ht
  have hregs : Frame [.evt] (InBlock 0) s (s.enteredRegs F.AON_PWR_CNT_P3) :=
    (((((Frame.refl _ _ s).wr F.AON_PWR_MODE_CUR _ (by decide)).wr F.AON_PWR_MODE_PHASE _ (by decide)).wr
      F.AON_PWR_MODE_ARM _ (by decide)).wr F.AON_PWR_STS_OUTCOME _ (by decide)).bump F.AON_PWR_CNT_P3 _ _ _ _ _
      (by decide) (by decide) (by decide)
  have hcur : (s.enteredRegs F.AON_PWR_CNT_P3).rd F.AON_PWR_MODE_CUR = 3 := by
    rw [State.enteredRegs, State.rd_bump_ne _ _ _ _ _ _ _ _ _ _ (by decide) (by decide) (by decide),
      State.rd_wr_ne _ _ _ _ _ _ (by decide), State.rd_wr_ne _ _ _ _ _ _ (by decide),
      State.rd_wr_ne _ _ _ _ _ _ (by decide), State.rd_wr_same, State.target, htarget]
    rfl
  have hphase : (s.enteredRegs F.AON_PWR_CNT_P3).rd F.AON_PWR_MODE_PHASE = 2 := by
    rw [State.enteredRegs, State.rd_bump_ne _ _ _ _ _ _ _ _ _ _ (by decide) (by decide) (by decide),
      State.rd_wr_ne _ _ _ _ _ _ (by decide), State.rd_wr_ne _ _ _ _ _ _ (by decide), State.rd_wr_same]
    rfl
  generalize s.enteredRegs F.AON_PWR_CNT_P3 = u at *
  have hraise : Frame [.evt] (fun key => key = (F.EVT_RAW_CAUSE 0).key 0 0)
      (u.setEntry { u.aon.entry with stage := 4, wakes := [], attempts := 0, retry := false }) t :=
    ht ▸ (Frame.refl _ _ _).raise cEntered _ _ _ (by decide) (by decide)
  have haon := hraise.1 .aon (by decide)
  refine ⟨?cur, ?phase, by rw [haon]; rfl, ?groups, ?frame⟩
  case cur => rw [hraise.rd _ _ _ (by decide) (by decide), State.setEntry_rd, hcur]
  case phase => rw [hraise.rd _ _ _ (by decide) (by decide), State.setEntry_rd, hphase]
  case groups =>
    have hgroups : u.aon.groups = s.aon.groups := congrArg Aon.groups (hregs.1 .aon (by decide))
    rw [haon]; exact hgroups
  case frame =>
    have hset : Frame [.evt, .aon] (InBlock 0) s
        (u.setEntry { u.aon.entry with stage := 4, wakes := [], attempts := 0, retry := false }) :=
      Frame.setEntry (hregs.mono (by decide) fun _ h => h) _ (by decide)
    exact hset.trans (hraise.mono (by decide) (by rintro _ rfl; decide))

/-! ## The supplies fall -/

/-- AON saves the time and what the controllers need at the exit. -/
def State.saveForExit (s : State) (dimms : List Nat) (serials : List (Nat × BitVec 32)) : State :=
  let s1 := s.saveTime
  let s2 := s1.setMem { s1.mem with untrained := dimms, serials := serials }
  s2.setCtl { s2.ctl with romRan := true }

/-- The supplies but one fall, and the DIMMs' that hold no retained rank. -/
def State.cutSupplies (s : State) (dimms : List Nat) : State :=
  let s3 := dimms.foldl (fun s d => s.wrI F.BTC_DIMM_PMIC_OFF d 1) (s.wr F.AON_CLK_STS_LOCK 0)
  let s4 := s3.setAon { s3.aon with groups := 0, passed := 0, pllOk := 0, hubOnCore := false, blocks := [], accs := [] }
  s4.emit (.enables ((List.range 8).map (fun k => decide (k = 5))))

/-- The keys that the fall of the supplies writes leave the target alone, whatever the DIMM. -/
theorem pmicOff_ne_target (d : Nat) : F.BTC_DIMM_PMIC_OFF.key d 0 ≠ F.AON_PWR_MODE_TARGET.key 0 0 := by
  simp only [Fld.key, Fld.addr, F.BTC_DIMM_PMIC_OFF, F.AON_PWR_MODE_TARGET]; omega

theorem State.cutSupplies_spec (s : State) (dimms : List Nat) :
    Frame [.aon, .out] (· ≠ F.AON_PWR_MODE_TARGET.key 0 0) s (s.cutSupplies dimms) ∧
      (s.cutSupplies dimms).aon.entry = s.aon.entry ∧ (s.cutSupplies dimms).aon.groups = 0 := by
  have hregs : Frame [] (· ≠ F.AON_PWR_MODE_TARGET.key 0 0) s
      (dimms.foldl (fun s d => s.wrI F.BTC_DIMM_PMIC_OFF d 1) (s.wr F.AON_CLK_STS_LOCK 0)) :=
    ((Frame.refl _ _ s).wr F.AON_CLK_STS_LOCK 0 (by decide)).trans
      (Frame.foldl _ _ _ fun u d _ => (Frame.refl _ _ u).wrI _ _ _ (.inl (pmicOff_ne_target d)))
  have hentry : (s.cutSupplies dimms).aon.entry = (dimms.foldl (fun s d => s.wrI F.BTC_DIMM_PMIC_OFF d 1)
    (s.wr F.AON_CLK_STS_LOCK 0)).aon.entry := rfl
  refine ⟨?frame, hentry.trans (congrArg Aon.entry (hregs.1 .aon (by decide))), rfl⟩
  exact ((hregs.mono (by decide) fun _ h => h).setAon _ (by decide)).emit _ (by decide)

/-- The save and the fields without S that fall leave the other parts of the state, and the target. -/
theorem State.p3Regs_saveForExit_spec (s : State) (dimms : List Nat) (serials : List (Nat × BitVec 32)) {t : State}
    (ht : (s.saveForExit dimms serials).p3Regs = t) :
    t.rd F.AON_PWR_MODE_TARGET = s.rd F.AON_PWR_MODE_TARGET ∧ t.aon.entry = s.aon.entry ∧
      t.mem.resume = s.mem.resume ∧ Frame [.aon, .mem, .ctl] (fun _ => True) s t := by
  subst ht
  refine ⟨State.rd_p3Regs_target _, rfl, rfl, Frame.keepRegs ?_ _⟩
  exact (((Frame.refl _ _ s).setTime _ (by decide)).setMem _ (by decide)).setCtl _ (by decide)

/-- P3_POWER_DOWN of a committed entry. -/
theorem State.execP3PowerDown_eq {s : State} (hstage : s.aon.entry.stage = 3)
    (htarget : s.rd F.AON_PWR_MODE_TARGET = 3) : execP3PowerDown s =
      .next (((s.srBulk.coreOff.saveForExit s.offDimms (serialsOf s.bulk.dimms)).p3Regs.cutSupplies
        s.offDimms).entered F.AON_PWR_CNT_P3) := by
  unfold execP3PowerDown
  rw [if_pos ⟨hstage, htarget⟩]
  generalize s.srBulk.coreOff = u
  rfl

/-- What the keys of the power-down leave alone. -/
theorem chanKeys_ne_target {key : Nat} (h : ChanKeys key) : key ≠ F.AON_PWR_MODE_TARGET.key 0 0 := by
  rintro rfl; revert h; decide

/-- P3_POWER_DOWN: the near tier is lost, what AON and the bulk tier hold stays, and the unit is in P3. -/
theorem State.execP3PowerDown_spec {s : State} (hstage : s.aon.entry.stage = 3) (hwakes : s.aon.entry.wakes = [])
    (htarget : s.rd F.AON_PWR_MODE_TARGET = 3) (hmoves : s.tmu.moves = []) (hjobs : s.job.jobs = [])
    (hdone : s.clx.done = []) :
    ∃ t, execP3PowerDown s = .next t ∧ t.rd F.AON_PWR_MODE_CUR = 3 ∧ t.rd F.AON_PWR_MODE_PHASE = 2 ∧
      t.aon.entry.stage = 4 ∧ t.near.mem = [] ∧ t.near.ftes = [] ∧ t.bulk.mem = s.bulk.mem ∧
      t.cry.slotKeys = s.cry.slotKeys ∧ t.aon.groups = 0 ∧ t.mem.resume = s.mem.resume ∧ t.pending = s.pending := by
  refine ⟨_, State.execP3PowerDown_eq hstage htarget, ?_⟩
  have hbulk : Frame [.mem, .evt] (· ≠ F.AON_PWR_MODE_TARGET.key 0 0) s s.srBulk :=
    (Frame.refl _ _ s).srBulk (by decide) (by decide) fun _ h => chanKeys_ne_target h
  have hsaved := s.resume_srBulk
  generalize s.srBulk = a at *
  obtain ⟨hoff, hmem, hftes, hkeys, hresume⟩ := State.coreOff_spec (s := a) (by rw [hbulk.1 .tmu (by decide), hmoves])
    (by rw [hbulk.1 .job (by decide), hjobs]) (by rw [hbulk.1 .clx (by decide), hdone])
  generalize a.coreOff = b at *
  obtain ⟨hrd, hentry, hres, hsave⟩ :=
    b.p3Regs_saveForExit_spec s.offDimms (serialsOf s.bulk.dimms) rfl
  generalize (b.saveForExit s.offDimms (serialsOf s.bulk.dimms)).p3Regs = c at *
  obtain ⟨hcut, hentry', hgroups⟩ := c.cutSupplies_spec s.offDimms
  generalize c.cutSupplies s.offDimms = d at *
  have hwakes' : d.aon.entry.wakes = [] := by
    rw [hentry', hentry, hoff.1 .aon (by decide), hbulk.1 .aon (by decide), hwakes]
  have htarget' : d.rd F.AON_PWR_MODE_TARGET = 3 := by
    rw [hcut.rd _ _ _ (by decide) (by decide), hrd, hoff.rd _ _ _ (by decide) (by decide),
      hbulk.rd _ _ _ (by decide) (by decide), htarget]
  obtain ⟨hcur, hphase, hstage', hgroups', hent⟩ := State.entered_spec hwakes' htarget' rfl
  generalize d.entered F.AON_PWR_CNT_P3 = t at *
  refine ⟨hcur, hphase, hstage', ?nearMem, ?nearFtes, ?bulkMem, ?slotKeys, hgroups'.trans hgroups, ?resume, ?queue⟩
  case nearMem => rw [hent.1 .near (by decide), hcut.1 .near (by decide), hsave.1 .near (by decide), hmem]
  case nearFtes => rw [hent.1 .near (by decide), hcut.1 .near (by decide), hsave.1 .near (by decide), hftes]
  case bulkMem =>
    rw [hent.1 .bulk (by decide), hcut.1 .bulk (by decide), hsave.1 .bulk (by decide),
      hoff.1 .bulk (by decide), hbulk.1 .bulk (by decide)]
  case slotKeys =>
    rw [hent.1 .cry (by decide), hcut.1 .cry (by decide), hsave.1 .cry (by decide), hkeys, hbulk.1 .cry (by decide)]
  case resume => rw [hent.1 .mem (by decide), hcut.1 .mem (by decide), hres, hresume, hsaved]
  case queue =>
    rw [hent.1 .pending (by decide), hcut.1 .pending (by decide), hsave.1 .pending (by decide),
      hoff.1 .pending (by decide), hbulk.1 .pending (by decide)]

end Sys2Proof.Machine

namespace Sys2Proof.Safety
open Sys2Proof.Machine

/-- A change of the time's quality is AON's (R523). -/
theorem Frame.setQuality {P : List Part} {K : Nat → Prop} {s t : State} (h : Frame P K s t) (q : Nat) (he : .evt ∈ P)
    (hk : ∀ key, InBlock 0 key → K key) : Frame P K s (t.setQuality q) :=
  Frame.ite _ (fun _ => h) fun _ => (h.wr F.AON_EPOCH_QUALITY _ (.inl (hk _ (by decide)))).raise cTimeQuality _ _ _ he
    (.inl (hk _ (by decide)))

end Sys2Proof.Safety

namespace Sys2Proof.Machine
open Sys2Proof.Safety

/-! ## The exit from P3, up to its last resets -/

/-- The estimate of the time is AON's: its registers and its timebase. -/
theorem State.estimateTime_frame (s : State) (ticks : Nat) (switched : Bool) :
    Frame [.evt, .aon] (InBlock 0) s (s.estimateTime ticks switched) := by
  unfold State.estimateTime
  split
  · exact Frame.refl _ _ s
  · refine Frame.setQuality ?_ _ (by decide) fun _ h => h
    exact ((((((Frame.refl _ _ s).wr F.AON_EPOCH_EPOCH _ (by decide)).wr F.AON_EPOCH_PHASE _ (by decide)).setTime _
      (by decide)).wr F.AON_TIME_EST_ERR _ (by decide)).wr F.AON_TIME_EST_SWITCHED _ (by decide)).wr
      F.AON_TIME_EST_INVALID _ (by decide)

theorem State.inReset_estimateTime (s : State) (ticks : Nat) (switched : Bool) :
    (s.estimateTime ticks switched).inReset = s.inReset := by
  have hwr : ∀ (u : State) (f : Fld) (v : Nat), (u.wr f v).inReset = u.inReset := fun _ _ _ => rfl
  have htime : ∀ (u : State) (x : TimeBase), (u.setTime x).inReset = u.inReset := fun _ _ => rfl
  have hquality : ∀ u : State, (u.setQuality 3).inReset = u.inReset := fun u => by
    rw [State.inReset, ((Frame.refl [.evt] (InBlock 0) u).setQuality 3 (by decide) fun _ h => h).1 .aon (by decide)]
    rfl
  unfold State.estimateTime
  split
  · rfl
  · simp only [hquality, hwr, htime]

/-- The regions without RETAIN become LOST. -/
def State.loseRegions (s : State) : State :=
  (List.range 64).foldl (fun s r => if s.rdb F.TMU_RGN_MAP_RETAIN r then s else s.loseRegion r) s

theorem State.loseRegions_frame (s : State) : Frame [.evt] (InBlock 6) s s.loseRegions := by
  have hkeys : ∀ r < 64, InBlock 6 (F.TMU_RGN_MAP_STATE.key r 0) := by decide
  refine Frame.foldl _ _ _ fun u r hr => Frame.ite _ (fun _ => Frame.refl _ _ u) fun _ => ?_
  refine Frame.ite _ (fun _ => Frame.refl _ _ u) fun _ => ?_
  exact ((Frame.refl _ _ u).wrI _ _ _ (.inl (hkeys r (List.mem_range.1 hr)))).raise cRegionLost _ _ _ (by decide)
    (by decide)

/-- The log restarts, with the records that waited for it. -/
def State.restartLogs (s : State) : State := (s.restartLog 2).recordRetention.recordCores

theorem State.restartLogs_frame (s : State) : Frame [.evt, .ras] (InBlock 12) s s.restartLogs := by
  have hlog : Frame [.evt, .ras] (InBlock 12) s (s.restartLog 2) :=
    ((((Frame.refl _ _ s).wr F.RAS_LOG_PROD 0 (by decide)).wr F.RAS_LOG_CONS 0 (by decide)).setRas _ (by decide)).log _ _
      (by decide) (by decide) (by decide) (by decide) (by decide)
  have hlost : Frame [.evt, .ras] (InBlock 12) s (s.restartLog 2).recordRetention :=
    Frame.ite _ (fun _ => hlog) fun _ => hlog.log _ _ (by decide) (by decide) (by decide) (by decide) (by decide)
  exact (hlost.with_ras _ (by decide)).trans (Frame.foldl _ _ _ fun u e _ => (Frame.refl _ _ u).spare _ _ _ _
    (by decide) (by decide) (by decide) (by decide) (by decide))

/-- The memory tiers serve again, and the control cores report it. -/
def State.openTiers (s : State) : State :=
  (((s.setMem { s.mem with entry := 0, bulkIn := false, nearIn := false }).openSets.wr F.NTC_SR_STATE 0).wr
    F.BTC_SR_STATE 0).wr F.CTL_HEALTH_STATE 3

theorem State.openTiers_spec (s : State) : s.openTiers.rd F.CTL_HEALTH_STATE = 3 ∧
    Frame [.mem, .bulk] (fun key => key = F.NTC_SR_STATE.key 0 0 ∨ key = F.BTC_SR_STATE.key 0 0 ∨
      key = F.CTL_HEALTH_STATE.key 0 0) s s.openTiers :=
  ⟨State.rd_wr_same _ _ _, (((((Frame.refl _ _ s).setMem _ (by decide)).with_bulk _ (by decide)).wr F.NTC_SR_STATE 0
    (by decide)).wr F.BTC_SR_STATE 0 (by decide)).wr F.CTL_HEALTH_STATE 3 (by decide)⟩

/-- Every block is locked (R537). -/
def State.lockBlocks (s : State) : State := (List.range 15).foldl (fun s b => s.wr (F.BLK_CTL_LOCK b) 1) s

/-- The LOCK fields as a list of places. -/
def lockFields : List (Fld × Nat × Nat) := (List.range 15).map (fun b => (F.BLK_CTL_LOCK b, 0, 0))

theorem lock_key (b : Nat) : (F.BLK_CTL_LOCK b).key 0 0 = 0x4000600 + b * 0x4000000 := by
  simp only [Fld.key, Fld.addr, F.BLK_CTL_LOCK]; omega

theorem lockFields_nodup : (lockFields.map fun x => x.1.key x.2.1 x.2.2).Nodup := by
  simp only [lockFields, List.map_map, Function.comp_def, lock_key]
  exact List.nodup_range.map fun a b h => by omega

theorem State.lockBlocks_eq (s : State) :
    s.lockBlocks = lockFields.foldl (fun t x => t.wrAt x.1 x.2.1 x.2.2 1) s := by
  rw [lockFields, List.foldl_map]; rfl

theorem State.rd_lock_lockBlocks (s : State) {b : Nat} (hb : b < 15) : s.lockBlocks.rd (F.BLK_CTL_LOCK b) = 1 := by
  rw [State.lockBlocks_eq]
  exact State.rd_foldl_wrAt lockFields (fun _ => 1) s lockFields_nodup (x := (F.BLK_CTL_LOCK b, 0, 0))
    (List.mem_map.2 ⟨b, List.mem_range.2 hb, rfl⟩)

/-- The keys of LOCK. -/
abbrev LockKeys (key : Nat) : Prop := ∃ b < 15, key = (F.BLK_CTL_LOCK b).key 0 0

theorem State.lockBlocks_frame (s : State) : Frame [] LockKeys s s.lockBlocks :=
  Frame.foldl _ _ _ fun u b hb => (Frame.refl _ _ u).wr _ _ (.inl ⟨b, List.mem_range.1 hb, rfl⟩)

theorem State.enterModes_frame (s : State) : Frame [.evt, .adm] (InBlock 9) s s.enterModes := by
  refine Frame.with_adm ?_ _ (by decide)
  refine Frame.trans (t := if s.selNearOnly ∧ !s.rdb F.SCR_MOV_STS_NEAR_ONLY then
    (s.wr F.SCR_MOV_STS_NEAR_ONLY 1).raise cNearOnly else s) ?_ ?_
  · exact Frame.ite _ (fun _ => ((Frame.refl _ _ _).wr F.SCR_MOV_STS_NEAR_ONLY _ (by decide)).raise cNearOnly _ _ _
      (by decide) (by decide)) fun _ => Frame.refl _ _ _
  · exact Frame.ite _ (fun _ => ((Frame.refl _ _ _).wr F.SCR_MOV_STS_BULK_ONLY _ (by decide)).raise cBulkOnly _ _ _
      (by decide) (by decide)) fun _ => Frame.refl _ _ _

/-- The modes of the channels leave every LOCK, the PMU block's too. -/
theorem State.rd_lock_enterModes (s : State) {b : Nat} (hb : b < 15) :
    s.enterModes.rd (F.BLK_CTL_LOCK b) = s.rd (F.BLK_CTL_LOCK b) := by
  have hkeys : ∀ b < 15, (F.BLK_CTL_LOCK b).key 0 0 ≠ F.SCR_MOV_STS_NEAR_ONLY.key 0 0 ∧
      (F.BLK_CTL_LOCK b).key 0 0 ≠ F.SCR_MOV_STS_BULK_ONLY.key 0 0 ∧
      (F.BLK_CTL_LOCK b).key 0 0 ≠ (F.EVT_RAW_CAUSE 9).key 0 0 := by decide
  obtain ⟨hnear, hbulk, hraw⟩ := hkeys b hb
  have hfirst : ∀ u : State, (if u.selNearOnly ∧ !u.rdb F.SCR_MOV_STS_NEAR_ONLY then
      (u.wr F.SCR_MOV_STS_NEAR_ONLY 1).raise cNearOnly else u).rd (F.BLK_CTL_LOCK b) = u.rd (F.BLK_CTL_LOCK b) := by
    intro u
    split
    · exact (State.rd_raise_ne _ cNearOnly _ _ _ (F.BLK_CTL_LOCK b) 0 0 hraw).trans
        (State.rd_wr_ne u F.SCR_MOV_STS_NEAR_ONLY (F.BLK_CTL_LOCK b) 0 0 1 hnear)
    · rfl
  have hsecond : ∀ u : State, (if u.selBulkOnly ∧ !u.rdb F.SCR_MOV_STS_BULK_ONLY then
      (u.wr F.SCR_MOV_STS_BULK_ONLY 1).raise cBulkOnly else u).rd (F.BLK_CTL_LOCK b) = u.rd (F.BLK_CTL_LOCK b) := by
    intro u
    split
    · exact (State.rd_raise_ne _ cBulkOnly _ _ _ (F.BLK_CTL_LOCK b) 0 0 hraw).trans
        (State.rd_wr_ne u F.SCR_MOV_STS_BULK_ONLY (F.BLK_CTL_LOCK b) 0 0 1 hbulk)
    · rfl
  exact (hsecond _).trans (hfirst s)

/-! ## The minimum service set -/

/-- The registers that the no-service condition looks at beside HEALTH (R43, R44, R135, R165, R276). -/
abbrev ServiceKeys (key : Nat) : Prop :=
  (∃ p < 50, key = F.CRY_PIPE_CTL_STATE.key p 0) ∨
    (∃ n < 16, key = F.HLX_PORT_STS_LINK_UP.key n 0 ∨ key = F.HLX_PORT_STS_WIDTH.key n 0) ∨
    key = F.NTC_CONFIG_POS_ACTIVE.key 0 0 ∨ key = F.BTC_CONFIG_CH_ACTIVE.key 0 0

/-- While firmware runs the condition depends on these registers, CRY's data and the reset alone. -/
theorem State.noService_congr {s t : State} (hreset : t.inReset = s.inReset) (hcry : t.cry = s.cry)
    (hs : 2 ≤ s.rd F.CTL_HEALTH_STATE) (ht : 2 ≤ t.rd F.CTL_HEALTH_STATE)
    (hregs : ∀ key, ServiceKeys key → mget t.regs key = mget s.regs key) : t.noService = s.noService := by
  have hrd : ∀ f i, ServiceKeys (f.key i 0) → t.rd f i = s.rd f i := fun f i h => by
    rw [State.rd, State.rd, mgetD, mgetD, hregs _ h]
  have hpipes : t.unitsIn cryKind 1 = s.unitsIn cryKind 1 :=
    List.filter_congr fun p hp => by
      rw [State.unitState, State.unitState, hrd cryKind.state _ (.inl ⟨p, List.mem_range.1 hp, rfl⟩)]
  have hports : ∀ n ∈ List.range 16,
      (t.rdb F.HLX_PORT_STS_LINK_UP n && decide (3 ≤ t.rd F.HLX_PORT_STS_WIDTH n)) =
        (s.rdb F.HLX_PORT_STS_LINK_UP n && decide (3 ≤ s.rd F.HLX_PORT_STS_WIDTH n)) := fun n hn => by
    have hlt := List.mem_range.1 hn
    rw [State.rdb, State.rdb, hrd _ _ (.inr (.inl ⟨n, hlt, .inl rfl⟩)), hrd _ _ (.inr (.inl ⟨n, hlt, .inr rfl⟩))]
  have hany :
      (List.range 16).any (fun n => t.rdb F.HLX_PORT_STS_LINK_UP n && decide (3 ≤ t.rd F.HLX_PORT_STS_WIDTH n)) =
        (List.range 16).any (fun n => s.rdb F.HLX_PORT_STS_LINK_UP n && decide (3 ≤ s.rd F.HLX_PORT_STS_WIDTH n)) := by
    rw [Bool.eq_iff_iff, List.any_eq_true, List.any_eq_true]
    exact exists_congr fun n => and_congr_right fun hn => by rw [hports n hn]
  unfold State.noService
  rw [hreset, hcry, hpipes, hany, hrd F.NTC_CONFIG_POS_ACTIVE 0 (by decide), hrd F.BTC_CONFIG_CH_ACTIVE 0 (by decide),
    decide_eq_true hs, decide_eq_true ht]

/-! ## The registers at the end of the exit -/

/-- The field that a key belongs to is of the key's block. -/
theorem blk_of_fieldOf {key : Nat} {f : Fld} (h : fieldOf key = some f) : f.blk = (key / 64 - 0x100000) / 0x100000 := by
  have hholds : f.holds key = true := List.find?_some (p := fun f : Fld => f.holds key) h
  simp only [Fld.holds, Bool.and_eq_true, decide_eq_true_eq] at hholds
  exact hholds.1.2.1.symm

/-- The last resets of the exit are AON's. -/
theorem State.mget_aonSleepRegs (s : State) {key : Nat} (h : (key / 64 - 0x100000) / 0x100000 ≠ 0) :
    mget s.aonSleepRegs.regs key = mget s.regs key :=
  s.mget_keepRegs fun g hg => by
    have hblk : g.blk ≠ 0 := by rw [blk_of_fieldOf hg]; exact h
    simp [hblk]

/-- LOCK stands, in every block (R537). -/
theorem State.rd_lock_aonSleepRegs (s : State) {b : Nat} (hb : b < 15) :
    s.aonSleepRegs.rd (F.BLK_CTL_LOCK b) = s.rd (F.BLK_CTL_LOCK b) := by
  have hfield : ∀ b < 15, fieldOf ((F.BLK_CTL_LOCK b).key 0 0) = some (F.BLK_CTL_LOCK b) := by decide
  refine s.rd_keepRegs fun g hg => ?_
  obtain rfl := Option.some.inj ((hfield b hb).symm.trans hg)
  have hlock : (F.BLK_CTL_LOCK b).isLock = true := by simp [Fld.isLock, F.BLK_CTL_LOCK]
  simp [hlock]

/-- The unit is awake: CUR and PHASE read 0 and no entry is under way. -/
def State.awake (s : State) : State :=
  ((s.aonSleepRegs.wr F.AON_PWR_MODE_CUR 0).wr F.AON_PWR_MODE_PHASE 0).setEntry Entry.none

/-- A key outside AON keeps its value. -/
theorem State.mget_awake (s : State) {key : Nat} (h : (key / 64 - 0x100000) / 0x100000 ≠ 0) :
    mget s.awake.regs key = mget s.regs key := by
  have hcur : key ≠ F.AON_PWR_MODE_CUR.key 0 0 := by rintro rfl; exact h (by decide)
  have hphase : key ≠ F.AON_PWR_MODE_PHASE.key 0 0 := by rintro rfl; exact h (by decide)
  have hwr : ∀ (u : State) (f : Fld) (v : Nat), key ≠ f.key 0 0 → mget (u.wr f v).regs key = mget u.regs key :=
    fun _ _ _ hf => mget_mset_ne _ _ _ hf
  rw [State.awake, State.setEntry_regs, hwr _ _ _ hphase, hwr _ _ _ hcur, s.mget_aonSleepRegs h]

theorem State.rd_lock_awake (s : State) {b : Nat} (hb : b < 15) :
    s.awake.rd (F.BLK_CTL_LOCK b) = s.rd (F.BLK_CTL_LOCK b) := by
  have hkeys : ∀ b < 15, (F.BLK_CTL_LOCK b).key 0 0 ≠ F.AON_PWR_MODE_CUR.key 0 0 ∧
      (F.BLK_CTL_LOCK b).key 0 0 ≠ F.AON_PWR_MODE_PHASE.key 0 0 := by decide
  obtain ⟨hcur, hphase⟩ := hkeys b hb
  rw [State.awake, State.setEntry_rd, State.rd_wr_ne _ _ _ _ _ _ hphase, State.rd_wr_ne _ _ _ _ _ _ hcur,
    s.rd_lock_aonSleepRegs hb]

theorem State.awake_spec (s : State) : s.awake.rd F.AON_PWR_MODE_CUR = 0 ∧ s.awake.rd F.AON_PWR_MODE_PHASE = 0 ∧
    s.awake.aon.entry.stage = 0 ∧ s.awake.inReset = s.inReset ∧ Frame [.aon] (fun _ => True) s s.awake := by
  unfold State.awake
  refine ⟨?cur, ?phase, rfl, rfl, ?frame⟩
  case cur => rw [State.setEntry_rd, State.rd_wr_ne _ _ _ _ _ _ (by decide), State.rd_wr_same]; rfl
  case phase => rw [State.setEntry_rd, State.rd_wr_same]; rfl
  case frame =>
    exact ((((Frame.refl _ _ s).keepRegs _).wr _ _ (.inl trivial)).wr _ _ (.inl trivial)).setEntry _ (by decide)

/-! ## The exit -/

/-- What the exit may write before its last resets. -/
abbrev ExitKeys (key : Nat) : Prop :=
  InBlock 0 key ∨ InBlock 6 key ∨ InBlock 9 key ∨ InBlock 12 key ∨ key = F.NTC_SR_STATE.key 0 0 ∨
    key = F.BTC_SR_STATE.key 0 0 ∨ key = F.CTL_HEALTH_STATE.key 0 0 ∨ LockKeys key

/-- The exit up to its last resets. -/
def State.exitReady (s : State) (ticks : Nat) (switched : Bool) : State :=
  (s.estimateTime ticks switched).loseRegions.restartLogs.openTiers.lockBlocks

theorem State.exitReady_spec (s : State) (ticks : Nat) (switched : Bool) {t : State}
    (ht : s.exitReady ticks switched = t) :
    Frame [.evt, .aon, .ras, .mem, .bulk] ExitKeys s t ∧ t.inReset = s.inReset ∧ t.rd F.CTL_HEALTH_STATE = 3 ∧
      ∀ b < 15, t.rd (F.BLK_CTL_LOCK b) = 1 := by
  obtain rfl := ht
  have htime := s.estimateTime_frame ticks switched
  have hreset := s.inReset_estimateTime ticks switched
  unfold State.exitReady
  generalize s.estimateTime ticks switched = a at *
  have hlose := a.loseRegions_frame
  generalize a.loseRegions = b at *
  have hlogs := b.restartLogs_frame
  generalize b.restartLogs = c at *
  obtain ⟨hhealth, hopen⟩ := c.openTiers_spec
  generalize c.openTiers = d at *
  have hlocks := d.lockBlocks_frame
  have haon : d.lockBlocks.aon = a.aon :=
    (hlocks.1 .aon (by decide)).trans ((hopen.1 .aon (by decide)).trans ((hlogs.1 .aon (by decide)).trans
      (hlose.1 .aon (by decide))))
  refine ⟨?frame, ?reset, ?health, fun _ hb => d.rd_lock_lockBlocks hb⟩
  case frame =>
    have hstart : Frame [.evt, .aon, .ras, .mem, .bulk] ExitKeys s c :=
      ((htime.mono (by decide) fun _ h => .inl h).trans (hlose.mono (by decide) fun _ h => .inr (.inl h))).trans
        (hlogs.mono (by decide) fun _ h => .inr (.inr (.inr (.inl h))))
    have hrest : Frame [.evt, .aon, .ras, .mem, .bulk] ExitKeys c d.lockBlocks :=
      (hopen.mono (by decide) fun _ h => .inr (.inr (.inr (.inr (h.imp id fun h => h.imp id .inl))))).trans
        (hlocks.mono (by decide) fun _ h => .inr (.inr (.inr (.inr (.inr (.inr (.inr h)))))))
    exact hstart.trans hrest
  case reset => rw [← hreset, State.inReset, haon]; rfl
  case health => rw [hlocks.rd _ _ _ (by decide) (by decide), hhealth]

/-- P3_EXIT_DONE after a successful boot (Table 15.6 steps 7 and 8), with no trial under way. -/
theorem State.execP3ExitDone_eq {s : State} (ticks : Nat) (switched : Bool) (hcur : s.rd F.AON_PWR_MODE_CUR = 3)
    (hstage : s.aon.entry.stage = 5) (hhealth : s.rd F.CTL_HEALTH_STATE = 2) (hcan : s.mem.canaries = [])
    (htrial : s.rd F.CTL_BOOT_TRIAL = 0) : execP3ExitDone ticks switched s =
      .next ((s.exitReady ticks switched).enterModes.awake.watchService.raise cWake) := by
  have hready : (s.exitReady ticks switched).rdb F.CTL_BOOT_TRIAL = false := by
    obtain ⟨hframe, -⟩ := s.exitReady_spec ticks switched rfl
    rw [State.rdb, hframe.rd _ _ _ (by decide) (by decide), htrial]; rfl
  simp only [execP3ExitDone, ← State.loseRegions.eq_1, ← State.restartLogs.eq_1, ← State.openTiers.eq_1,
    ← State.lockBlocks.eq_1, ← State.exitReady.eq_1, ← State.awake.eq_1]
  rw [if_neg (by simp [State.cur, hcur, hstage, hhealth, hcan]), if_neg (by simp [hready])]

/-- The exit writes no register that the no-service condition looks at. -/
theorem ServiceKeys.apart {key : Nat} (h : ServiceKeys key) :
    ¬ ExitKeys key ∧ ¬ InBlock 14 key ∧ (key / 64 - 0x100000) / 0x100000 ≠ 0 := by
  have hpipes : ∀ p < 50, ¬ ExitKeys (F.CRY_PIPE_CTL_STATE.key p 0) ∧ ¬ InBlock 14 (F.CRY_PIPE_CTL_STATE.key p 0) ∧
      (F.CRY_PIPE_CTL_STATE.key p 0 / 64 - 0x100000) / 0x100000 ≠ 0 := by decide
  have hports : ∀ n < 16, ∀ f ∈ [F.HLX_PORT_STS_LINK_UP, F.HLX_PORT_STS_WIDTH], ¬ ExitKeys (f.key n 0) ∧
      ¬ InBlock 14 (f.key n 0) ∧ (f.key n 0 / 64 - 0x100000) / 0x100000 ≠ 0 := by decide
  rcases h with ⟨p, hp, rfl⟩ | ⟨n, hn, rfl | rfl⟩ | rfl | rfl
  · exact hpipes p hp
  · exact hports n hn _ (by simp)
  · exact hports n hn _ (by simp)
  · decide
  · decide

/-- The state in which the exit looks at the service set. -/
structure Woken (s w : State) : Prop where
  cur : w.rd F.AON_PWR_MODE_CUR = 0
  phase : w.rd F.AON_PWR_MODE_PHASE = 0
  stage : w.aon.entry.stage = 0
  health : w.rd F.CTL_HEALTH_STATE = 3
  locks : ∀ b < 15, w.rd (F.BLK_CTL_LOCK b) = 1
  reset : w.inReset = s.inReset
  near : w.near = s.near
  cry : w.cry = s.cry
  service : ∀ key, ServiceKeys key → mget w.regs key = mget s.regs key

theorem State.exitReady_woken (s : State) (ticks : Nat) (switched : Bool) :
    Woken s (s.exitReady ticks switched).enterModes.awake := by
  obtain ⟨hframe, hreset, hhealth, hlocks⟩ := s.exitReady_spec ticks switched rfl
  generalize s.exitReady ticks switched = u at *
  have hmodes := u.enterModes_frame
  have hlocks' : ∀ b < 15, u.enterModes.rd (F.BLK_CTL_LOCK b) = 1 := fun b hb => by
    rw [u.rd_lock_enterModes hb, hlocks b hb]
  generalize u.enterModes = v at *
  obtain ⟨hcur, hphase, hstage, hreset', hawake⟩ := v.awake_spec
  have hkeep := fun key => v.mget_awake (key := key)
  constructor
  case cur => exact hcur
  case phase => exact hphase
  case stage => exact hstage
  case health =>
    rw [State.rd, mgetD, hkeep _ (by decide)]
    exact (hmodes.rd F.CTL_HEALTH_STATE 0 0 (by decide) (by decide)).trans hhealth
  case locks => exact fun b hb => (v.rd_lock_awake hb).trans (hlocks' b hb)
  case reset =>
    rw [hreset', ← hreset, State.inReset, hmodes.1 .aon (by decide)]; rfl
  case near =>
    exact (hawake.1 .near (by decide)).trans ((hmodes.1 .near (by decide)).trans (hframe.1 .near (by decide)))
  case cry =>
    exact (hawake.1 .cry (by decide)).trans ((hmodes.1 .cry (by decide)).trans (hframe.1 .cry (by decide)))
  case service =>
    intro key hkey
    obtain ⟨hexit, hpmu, hblk⟩ := hkey.apart
    have hscr : ¬ InBlock 9 key := fun h => hexit (.inr (.inr (.inl h)))
    rw [hkeep key hblk, hmodes.2 key hscr hpmu, hframe.2 key hexit hpmu]

/-- The exit finds the service set as it was before it. -/
theorem Woken.noService {s w : State} (h : Woken s w) (hhealth : s.rd F.CTL_HEALTH_STATE = 2) :
    w.noService = s.noService :=
  State.noService_congr h.reset h.cry (by rw [hhealth]) (by rw [h.health]; decide) h.service

/-- MEM_ACTIVE as the exit leaves it: 1 with the service set, 0 without (R44). -/
theorem Woken.watchService {s w : State} (h : Woken s w) (hhealth : s.rd F.CTL_HEALTH_STATE = 2) :
    (s.noService = true → w.watchService = w.wr F.CTL_HEALTH_MEM_ACTIVE 0) ∧
      (s.noService = false → s.inReset = false → s.cry.halt = 0 →
        w.watchService = w.wr F.CTL_HEALTH_MEM_ACTIVE 1) := by
  unfold State.watchService
  rw [h.noService hhealth]
  refine ⟨fun hno => if_pos hno, fun hserv hreset hhalt => ?_⟩
  rw [hserv, if_neg Bool.false_ne_true,
    if_pos ⟨h.health, by rw [h.reset, hreset]; rfl, by rw [h.cry, hhalt], by rw [State.cur, h.cur]; decide⟩]

/-- The wake is reported, in a state that is in P0 and locked. -/
theorem Woken.raised {s w : State} (h : Woken s w) (v : Nat) {t : State}
    (ht : (w.wr F.CTL_HEALTH_MEM_ACTIVE v).raise cWake = t) :
    t.rd F.AON_PWR_MODE_CUR = 0 ∧ t.rd F.AON_PWR_MODE_PHASE = 0 ∧ t.aon.entry.stage = 0 ∧
      t.rd F.CTL_HEALTH_STATE = 3 ∧ t.rd F.CTL_HEALTH_MEM_ACTIVE = v % 2 ∧ (∀ b < 15, t.rd (F.BLK_CTL_LOCK b) = 1) ∧
      (t.rd (F.EVT_RAW_CAUSE 0) 0).testBit 1 = true ∧ t.near = s.near ∧ t.cry = s.cry := by
  have hbit : (t.rd (F.EVT_RAW_CAUSE 0) 0).testBit 1 = true :=
    ht ▸ State.raise_testBit _ cWake none none [] (by decide)
  have hraise : Frame [.evt] (fun key => key = (F.EVT_RAW_CAUSE 0).key 0 0) (w.wr F.CTL_HEALTH_MEM_ACTIVE v) t :=
    ht ▸ (Frame.refl _ _ _).raise cWake _ _ _ (by decide) (by decide)
  have hread : ∀ f : Fld, f.key 0 0 ≠ (F.EVT_RAW_CAUSE 0).key 0 0 → f.key 0 0 ≠ F.CTL_HEALTH_MEM_ACTIVE.key 0 0 →
      t.rd f = w.rd f := fun f hraw hmem => by
    rw [← ht, State.rd_raise_ne _ cWake _ _ _ f 0 0 hraw, State.rd_wr_ne _ _ f 0 0 _ hmem]
  have hlock : ∀ b < 15, (F.BLK_CTL_LOCK b).key 0 0 ≠ (F.EVT_RAW_CAUSE 0).key 0 0 ∧
      (F.BLK_CTL_LOCK b).key 0 0 ≠ F.CTL_HEALTH_MEM_ACTIVE.key 0 0 := by decide
  refine ⟨?cur, ?phase, ?stage, ?health, ?active, ?locks, hbit, ?near, ?cry⟩
  case cur => rw [hread _ (by decide) (by decide), h.cur]
  case phase => rw [hread _ (by decide) (by decide), h.phase]
  case stage => rw [hraise.1 .aon (by decide)]; exact h.stage
  case health => rw [hread _ (by decide) (by decide), h.health]
  case active => rw [hraise.rd _ _ _ (by decide) (by decide), State.rd_wr_same]; rfl
  case locks => exact fun b hb => (hread _ (hlock b hb).1 (hlock b hb).2).trans (h.locks b hb)
  case near => exact (hraise.1 .near (by decide)).trans h.near
  case cry => exact (hraise.1 .cry (by decide)).trans h.cry

/-- The exit to P0, with memory active or not by the service set. -/
theorem State.execP3ExitDone_spec {s : State} (ticks : Nat) (switched : Bool) (hcur : s.rd F.AON_PWR_MODE_CUR = 3)
    (hstage : s.aon.entry.stage = 5) (hhealth : s.rd F.CTL_HEALTH_STATE = 2) (hcan : s.mem.canaries = [])
    (htrial : s.rd F.CTL_BOOT_TRIAL = 0) :
    ∃ w, Woken s w ∧ execP3ExitDone ticks switched s = .next (w.watchService.raise cWake) :=
  ⟨_, s.exitReady_woken ticks switched, State.execP3ExitDone_eq ticks switched hcur hstage hhealth hcan htrial⟩

/-- Settles O8, command by command: FLUSH_DONE, P3_POWER_DOWN, RESUME_AREA_CHECK, CANARY_CHECK and P3_EXIT_DONE. -/
theorem deepSleep : Obligations.DeepSleep := by
  unfold Obligations.DeepSleep
  refine ⟨?flush, ?down, ?unreadable, ?resume, ?sound, ?bad, ?served, ?unserved⟩
  case flush =>
    intro s hstage htarget hflush hjobs hftes hsr
    exact ⟨_, State.execFlushDone_commits hstage htarget hflush hjobs hftes, State.p3Committed_flushed_spec hsr rfl⟩
  case down =>
    exact fun s hstage hwakes htarget hmoves hjobs hdone =>
      State.execP3PowerDown_spec hstage hwakes htarget hmoves hjobs hdone
  case unreadable =>
    exact fun s hcur hstage hhealth hrom => State.execResumeAreaCheck_unreadable hcur hstage hhealth hrom
  case resume =>
    intro s hcur hstage hhealth hrom hcopy hok
    exact ⟨_, State.execResumeAreaCheck_ok hcur hstage hhealth hrom hok, State.resumed_spec hcopy rfl⟩
  case sound => exact fun s hcur hstage hcan hsound => State.execCanaryCheck_sound_spec hcur hstage hcan hsound
  case bad => exact fun s bad hcur hstage hbad => State.execCanaryCheck_bad_spec hcur hstage hbad
  case served =>
    intro s ticks switched hheld hoff hhalt hserv hcur hstage hhealth hcan htrial
    obtain ⟨w, hw, hexec⟩ := State.execP3ExitDone_spec ticks switched hcur hstage hhealth hcan htrial
    have hreset : s.inReset = false := by simp [State.inReset, hheld, hoff]
    rw [(hw.watchService hhealth).2 hserv hreset hhalt] at hexec
    exact ⟨_, hexec, hw.raised 1 rfl⟩
  case unserved =>
    intro s ticks switched _ _ hno hcur hstage hhealth hcan htrial
    obtain ⟨w, hw, hexec⟩ := State.execP3ExitDone_spec ticks switched hcur hstage hhealth hcan htrial
    rw [(hw.watchService hhealth).1 hno] at hexec
    exact ⟨_, hexec, hw.raised 0 rfl⟩

end Sys2Proof.Machine
end

section
/-!
PROOFS of O31: refresh, training and command slots of the memory channels, EDC of write bursts, and the DIMMs that full
training brings back.
-/
namespace Sys2Proof.Machine
open Sys2Proof.Safety

/-! ## The status of a channel -/

/-- The status fields that follow a channel's queue. -/
def statusFields (key : Nat) : List Fld := [rqOf key, wqOf key, drainOf key, fbOf key]

/-- A channel's number is its key's place in its tier. -/
theorem chanKey_mod (tier : Tier) {ch : Nat} (h : ch < 32) : chanKey tier ch % 32 = ch := by
  cases tier with
  | near => exact Nat.mod_eq_of_lt h
  | bulk => simp [chanKey, bulkKeyOf, Nat.mod_eq_of_lt h]

theorem bulkKeyOf_not_near (ch : Nat) : ¬ bulkKeyOf ch < 32 := Nat.not_lt.2 (Nat.le_add_right 32 ch)

/-- The keys of the status fields of near channel ch and of bulk subchannel ch. -/
abbrev StatusKeys (ch key : Nat) : Prop :=
  key = F.NTC_CH_STS_RQ.key ch 0 ∨ key = F.NTC_CH_STS_WQ.key ch 0 ∨ key = F.NTC_CH_STS_DRAIN.key ch 0 ∨
    key = F.NTC_CH_STS_FB.key ch 0 ∨ key = F.BTC_SC_STS_RQ.key ch 0 ∨ key = F.BTC_SC_STS_WQ.key ch 0 ∨
    key = F.BTC_SC_STS_DRAIN.key ch 0 ∨ key = F.BTC_SC_STS_FB.key ch 0

theorem statusKeys_chanKey (tier : Tier) {ch : Nat} (h : ch < 32) :
    ∀ f ∈ statusFields (chanKey tier ch), StatusKeys ch (f.key (chanKey tier ch % 32) 0) := by
  rw [chanKey_mod tier h]
  cases tier with
  | near => simp [StatusKeys, statusFields, chanKey, nearKeyOf, rqOf, wqOf, drainOf, fbOf, h]
  | bulk => simp [StatusKeys, statusFields, chanKey, rqOf, wqOf, drainOf, fbOf, bulkKeyOf_not_near]

/-- A near channel's status stands in NTC. -/
theorem inBlock_statusFields_near : ∀ ch < 32, ∀ f ∈ statusFields ch, InBlock 10 (f.key (ch % 32) 0) := by decide

/-! ## The queue of a channel -/

theorem State.mem_setChanQ (s : State) (key : Nat) (q : List DramReq) : ∃ level, (s.setChanQ key q).mem =
    { s.mem with queues := if q.isEmpty then mdel s.mem.queues key else mput s.mem.queues key q, level := level } :=
  ⟨_, rfl⟩

theorem State.chanQ_setChanQ_same (s : State) (key : Nat) (q : List DramReq) : (s.setChanQ key q).chanQ key = q := by
  obtain ⟨level, hmem⟩ := s.mem_setChanQ key q
  rw [State.chanQ, hmem]
  cases q with
  | nil => exact congrArg (Option.getD · []) (mget_mdel_same s.mem.queues key)
  | cons r q => exact congrArg (Option.getD · []) (mget_mput_same s.mem.queues key (r :: q))

theorem State.chanQ_requeue_same (s : State) (key : Nat) (q : List DramReq) : (s.requeue key q).chanQ key = q :=
  State.chanQ_setChanQ_same _ key q

theorem State.mem_dispatch (s : State) : s.dispatch.mem = s.mem :=
  ((Frame.refl [.cdc] (fun _ => False) s).dispatch (by decide)).1 .mem (by decide)

end Sys2Proof.Machine

namespace Sys2Proof.Safety
open Sys2Proof.Machine

section
variable {P : List Part} {K : Nat → Prop} {s t : State} (h : Frame P K s t) (key : Nat) (q : List DramReq)
  (hm : .mem ∈ P) (hk : ∀ f ∈ statusFields key, K (f.key (key % 32) 0))
include h hm hk

/-- A channel's new queue changes the controllers' data and the status fields of that channel alone. -/
theorem Frame.setChanQ : Frame P K s (t.setChanQ key q) :=
  (((((h.with_mem _ hm).with_mem _ hm).wrI _ _ _ (.inl (hk _ (by simp [statusFields])))).wrI _ _ _
    (.inl (hk _ (by simp [statusFields])))).wrb _ _ _ (.inl (hk _ (by simp [statusFields])))).wrI _ _ _
      (.inl (hk _ (by simp [statusFields])))

theorem Frame.requeue : Frame P K s (t.requeue key q) := (h.with_mem _ hm).setChanQ key q hm hk

theorem Frame.issueReq (x : Ready) (hc : .cdc ∈ P) : Frame P K s (t.issueReq key x) :=
  ((h.setMem _ hm).requeue key _ hm hk).dispatch hc

end
end Sys2Proof.Safety

namespace Sys2Proof.Machine
open Sys2Proof.Safety

/-! ## Refresh (R218, R219) -/

theorem State.execRefreshDue_now {s : State} {tier : Tier} {ch : Nat} (rank : Nat) (hup : s.chanUp tier ch = true)
    (hwin : s.hasWindows (chanKey tier ch) = false) : exec (.refreshDue tier ch rank) s =
      .next (s.setMem { s.mem with refDue := s.mem.refDue ++ [chanKey tier ch * 64 + rank] }) := by
  refine congrArg Host.Outcome.next ?_
  simp [hup, hwin]

theorem State.execRefreshDue_postponed {s : State} {tier : Tier} {ch rank : Nat} (hup : s.chanUp tier ch = true)
    (hwin : s.hasWindows (chanKey tier ch) = true) (hclosed : s.inWindow (chanKey tier ch) = false)
    (hlimit : s.postponed (chanKey tier ch) rank < s.postponeLimit tier) : exec (.refreshDue tier ch rank) s =
      .next (s.setPostponed (chanKey tier ch) rank (s.postponed (chanKey tier ch) rank + 1)) := by
  refine congrArg Host.Outcome.next ?_
  simp [hup, hwin, hclosed, hlimit]

theorem State.postponed_setPostponed (s : State) (key rank n : Nat) : (s.setPostponed key rank n).postponed key rank = n :=
  mgetD_mset_same 0 s.mem.postponed (key * 64 + rank) n

theorem State.setPostponed_frame (s : State) (tier : Tier) {ch : Nat} (h : ch < 32) (rank n : Nat) :
    Frame [.mem] (fun key => key = F.NTC_CH_REF_POSTPONED.key ch 0 ∨ key = F.BTC_SC_REF_POSTPONED.key ch 0) s
      (s.setPostponed (chanKey tier ch) rank n) := by
  refine ((Frame.refl _ _ s).setMem _ (by decide)).wrI _ _ _ (.inl ?_)
  rw [chanKey_mod tier h]
  split
  · exact .inl rfl
  · exact .inr rfl

/-! ## Training (R211) -/

theorem State.execPeriodicTrainingDue_waits {s : State} {tier : Tier} {ch : Nat} (rc : Bool)
    (hup : s.chanUp tier ch = true) (hdue : s.trainingDue (chanKey tier ch) = true)
    (hnone : mget s.mem.due (chanKey tier ch) = none) : exec (.periodicTrainingDue tier ch rc) s =
      .next (s.setMem { s.mem with due := mput s.mem.due (chanKey tier ch) (s.epoch, rc) }) :=
  congrArg Host.Outcome.next (if_pos ⟨hup, hdue, by rw [hnone]; rfl⟩)

/-! ## Command slots (R213, R214) -/

theorem State.execDramCommandSlot_runs {s : State} {tier : Tier} {ch : Nat} (now : Nat) (ready : List DramCmd)
    (hup : s.chanUp tier ch = true) (hruns : s.mem.stopped.contains (chanKey tier ch) = false) :
    exec (.dramCommandSlot tier ch now ready) s = .next (s.slot (chanKey tier ch) now ready) :=
  congrArg Host.Outcome.next (if_pos ⟨hup, by rw [hruns]; rfl⟩)

theorem firstRefresh_only {key rank : Nat} {ready : List DramCmd} (hrank : rank < 64)
    (hready : ready.contains (.refresh rank) = true) : firstRefresh key ready [key * 64 + rank] = some (key * 64 + rank) := by
  have hdiv : (key * 64 + rank) / 64 = key := by omega
  have hmod : (key * 64 + rank) % 64 = rank := by omega
  rw [firstRefresh, List.find?_cons, hdiv, hmod, hready]
  simp

/-- A refresh that is due and does not step back is what the slot issues (R213 step 1). -/
theorem State.slot_refresh {s : State} {key now rank : Nat} {ready : List DramCmd} (hrank : rank < 64)
    (hdue : s.mem.refDue = [key * 64 + rank]) (hback : s.stepsBack key (key * 64 + rank) = false)
    (hready : ready.contains (.refresh rank) = true) :
    s.slot key now ready = (s.setMem { s.mem with refDue := [] }).refreshRank key rank := by
  have hmod : (key * 64 + rank) % 64 = rank := by omega
  have hfilter : s.mem.refDue.filter (fun k => !s.stepsBack key k) = [key * 64 + rank] := by simp [hdue, hback]
  rw [State.slot, hfilter, firstRefresh_only hrank hready]
  simp only [hdue, hmod, List.erase_cons_head]

/-- The one request of a queue as a slot sees it: its place, its urgency, and whether its row is open. -/
def State.onlyReady (s : State) (key now : Nat) (r : DramReq) : Ready :=
  { i := 0, r := r,
    urg := urgency r.target (s.rd (if key < 32 then F.NTC_CTL_AGE_CAP else F.BTC_CTL_AGE_CAP)) (now - r.time),
    hit := decide (mget s.mem.rows (bankKey key r.bank) = some r.row) }

/-- The only candidate is picked: at step 4 of R213 when it is overdue, at step 5 as a write of a draining queue, at step 6
by its open row, at step 7 otherwise. -/
theorem pickRequest_only (drain : Bool) (x : Ready) : pickRequest drain [x] = some x := by
  by_cases hurg : x.urg = 4
  · simp [pickRequest, bestOf, hurg]
  · by_cases hhit : x.hit = true
    · cases drain <;> by_cases hwrite : x.r.write = true <;> simp [pickRequest, bestOf, hurg, hhit, hwrite]
    · by_cases hwrite : x.r.write = true
      · cases drain <;> simp [pickRequest, bestOf, hurg, hhit, hwrite]
      · simp [pickRequest, bestOf, hurg, hhit, hwrite]

section
variable {s : State} {key : Nat} {ready : List DramCmd} {r : DramReq} (hq : s.chanQ key = [r])
  (hcopies : s.ras.copies = []) (hready : ready.contains (.request 0) = true)
include hq hcopies hready

theorem State.readyList_only (now : Nat) : s.readyList key now ready = [s.onlyReady key now r] := by
  have hroom : 0 < queueEntries key := by unfold queueEntries; split <;> decide
  have hin : s.inQueue key 0 r = true := by simp [State.inQueue, hroom]
  have hold : s.oldestOfRow key 0 r = true := by simp [State.oldestOfRow]
  have hcopied : s.rowCopied key r = false := by simp [State.rowCopied, hcopies]
  have hmem : DramCmd.request 0 ∈ ready := by simpa using hready
  simp [State.readyList, State.onlyReady, hq, hmem, hin, hold, hcopied]

variable (hnone : mget s.mem.due key = none)
include hnone

/-- With nothing due and nothing to repay, the slot issues the one request that is ready, a demand promotion's read at step
2 and any other at steps 4 to 7. -/
theorem State.slot_only (now : Nat) (hdue : s.mem.refDue = []) (hrepay : s.mem.repay = []) :
    s.slot key now ready = s.issueReq key (s.onlyReady key now r) := by
  have hlist := State.readyList_only hq hcopies hready now
  have hrequest : s.slotRequest key now ready = s.issueReq key (s.onlyReady key now r) := by
    rw [State.slotRequest, hlist, pickRequest_only]
  have hwindow : s.slotWindow key now ready = s.issueReq key (s.onlyReady key now r) := by
    rw [State.slotWindow, hrepay, hnone, ← hrequest]; rfl
  rw [State.slot, hdue, hnone, hlist]
  by_cases hpromo : 32 ≤ key ∧ (r.promo && !r.write) = true
  · simp [firstRefresh, bestOf, State.onlyReady, hpromo]
  · rw [← hwindow]
    by_cases hbulk : 32 ≤ key
    · have hread : (r.promo && !r.write) = false := by simpa [hbulk] using hpromo
      simp [firstRefresh, bestOf, State.onlyReady, hread]
    · simp [firstRefresh, hbulk]

end

/-- An issued request leaves its queue, its row open. -/
theorem State.issueReq_spec (s : State) (key : Nat) (x : Ready) :
    (s.issueReq key x).chanQ key = (s.chanQ key).eraseIdx x.i ∧
      mget (s.issueReq key x).mem.rows (bankKey key x.r.bank) = some x.r.row := by
  constructor
  · rw [State.issueReq, State.chanQ, State.mem_dispatch]
    exact State.chanQ_requeue_same _ key _
  · rw [State.issueReq, State.mem_dispatch]
    exact mget_mput_same s.mem.rows (bankKey key x.r.bank) x.r.row

/-! ## EDC of a write burst (R207) -/

theorem State.lt_of_chanUp_near {s : State} {ch : Nat} (h : s.chanUp .near ch = true) : ch < 32 := by
  simp only [State.chanUp, State.nearChans, bitList, Bool.and_eq_true, List.contains_iff_mem, List.mem_flatMap,
    List.mem_filter, List.mem_range, List.mem_cons, List.not_mem_nil] at h
  obtain ⟨-, ⟨p, ⟨hp, -⟩, rfl | rfl | hnil⟩, -⟩ := h
  · omega
  · omega
  · exact hnil.elim

/-- The EDC counters of a channel stand in NTC, apart from the PMU's. -/
theorem inBlock_edcFields : ∀ ch < 32, InBlock 10 (F.NTC_CH_EDC_RETRIES.key ch 0) ∧
    InBlock 10 (F.NTC_CH_EDC_EXHAUSTED.key ch 0) ∧ InBlock 10 (F.NTC_CH_EDC_RETRAINS.key ch 0) ∧
    ¬ InBlock 14 (F.NTC_CH_EDC_RETRIES.key ch 0) := by decide

theorem State.edc_retried {s : State} {ch fails : Nat} (hpos : 0 < fails) (hle : fails ≤ s.rd F.NTC_CTL_EDC_RETRY) :
    s.edc ch fails = s.bump F.NTC_CH_EDC_RETRIES ch 0 fails := by
  simp [State.edc, Nat.min_eq_left hle, Nat.ne_of_gt hpos, Nat.not_lt.2 hle]

theorem State.edc_frame (s : State) {ch : Nat} (h : ch < 32) (fails : Nat) :
    Frame [.evt] (InBlock 10) s (s.edc ch fails) := by
  obtain ⟨hretries, hexhausted, -, -⟩ := inBlock_edcFields ch h
  have hcount : Frame [.evt] (InBlock 10) s (if min fails (s.rd F.NTC_CTL_EDC_RETRY) = 0 then s
      else s.bump F.NTC_CH_EDC_RETRIES ch 0 (min fails (s.rd F.NTC_CTL_EDC_RETRY))) :=
    Frame.ite _ (fun _ => Frame.refl _ _ s) fun _ =>
      (Frame.refl _ _ s).bump _ _ _ _ _ _ (by decide) (by decide) (.inl hretries)
  exact Frame.ite _ (fun _ => hcount.bump _ _ _ _ _ _ (by decide) (by decide) (.inl hexhausted)) fun _ => hcount

/-- The state in which a channel stops for a retrain: its counts taken and the record written. -/
def State.edcRecorded (s : State) (ch fails : Nat) : State :=
  ((s.edc ch fails).log 0x0e { location := ch, detail := s.rd F.NTC_CTL_EDC_RETRY }).bump F.NTC_CH_EDC_RETRAINS ch

/-- A channel stops for a retrain. -/
def State.stopChannel (s : State) (ch : Nat) : State :=
  s.setMem { s.mem with stopped := ninsert s.mem.stopped ch }

theorem State.ras_stopChannel (s : State) (ch : Nat) : (s.stopChannel ch).ras = s.ras := rfl

section
variable {s : State} {ch fails : Nat} (hup : s.chanUp .near ch = true) (hruns : s.mem.stopped.contains ch = false)
include hup hruns

theorem State.execEdcWriteFail_retried (hpos : 0 < fails) (hle : fails ≤ s.rd F.NTC_CTL_EDC_RETRY) :
    exec (.edcWriteFail ch fails) s = .next (s.bump F.NTC_CH_EDC_RETRIES ch 0 fails) := by
  refine congrArg Host.Outcome.next ?_
  simp only [hup, hruns, hpos, Bool.not_false, and_self, if_true, hle, State.edc_retried hpos hle]

theorem State.execEdcWriteFail_exhausted (hlt : s.rd F.NTC_CTL_EDC_RETRY < fails) :
    exec (.edcWriteFail ch fails) s = .next (((s.edcRecorded ch fails).stopChannel ch).writeAgain ch) := by
  refine congrArg Host.Outcome.next ?_
  simp only [hup, hruns, Nat.lt_of_le_of_lt (Nat.zero_le _) hlt, Nat.not_le.2 hlt, Bool.not_false, and_self, if_true,
    if_false, State.stopChannel, State.edcRecorded]

end

/-- The registers that an exhausted EDC retry may write: NTC's, the log's ends, and RAS's cause. -/
abbrev EdcKeys (key : Nat) : Prop :=
  InBlock 10 key ∨ key = F.RAS_LOG_PROD.key 0 0 ∨ key = F.RAS_LOG_LOST.key 0 0 ∨ key = (F.EVT_RAW_CAUSE 12).key 0 0

theorem State.edcRecorded_frame (s : State) {ch : Nat} (h : ch < 32) (fails : Nat) :
    Frame [.evt, .ras] EdcKeys s (s.edcRecorded ch fails) := by
  obtain ⟨-, -, hretrains, -⟩ := inBlock_edcFields ch h
  exact ((((s.edc_frame h fails).mono (by decide) fun _ hk => .inl hk).log _ _ (by decide) (by decide) (.inr (.inl rfl))
    (.inr (.inr (.inl rfl))) (.inr (.inr (.inr rfl)))).bump _ _ _ _ _ _ (by decide) (by decide) (.inl (.inl hretrains)))

/-- A record is written where PROD stood, unless the ring is full (R268). -/
theorem State.log_written {s : State} (type : Nat) (a : About)
    (hroom : (s.rd F.RAS_LOG_PROD + 1) % 1024 ≠ s.rd F.RAS_LOG_CONS) :
    mget (s.log type a).ras.log (s.rd F.RAS_LOG_PROD) = some (s.mkRec type a) := by
  unfold State.log
  simp only [if_neg hroom]
  exact mget_mput_same _ _ _

theorem State.edcRecorded_log {s : State} {ch : Nat} (h : ch < 32) (fails : Nat)
    (hroom : (s.rd F.RAS_LOG_PROD + 1) % 1024 ≠ s.rd F.RAS_LOG_CONS) :
    (mget (s.edcRecorded ch fails).ras.log (s.rd F.RAS_LOG_PROD)).map (fun x => (x.type, x.location, x.detail)) =
      some (0x0e, ch, s.rd F.NTC_CTL_EDC_RETRY) := by
  have hedc := s.edc_frame h fails
  have hprod : (s.edc ch fails).rd F.RAS_LOG_PROD = s.rd F.RAS_LOG_PROD := hedc.rd _ _ _ (by decide) (by decide)
  have hcons : (s.edc ch fails).rd F.RAS_LOG_CONS = s.rd F.RAS_LOG_CONS := hedc.rd _ _ _ (by decide) (by decide)
  have hras : ∀ u : State, (u.bump F.NTC_CH_EDC_RETRAINS ch).ras = u.ras := fun u =>
    ((Frame.refl [.evt] (fun _ => True) u).bump _ _ _ _ _ _ (by decide) (by decide) (.inl trivial)).1 .ras (by decide)
  rw [State.edcRecorded, hras, ← hprod, State.log_written _ _ (by rw [hprod, hcons]; exact hroom)]
  rfl

/-- The burst that is issued again stands at the head of its channel's queue. -/
theorem State.writeAgain_of_write {s : State} {ch : Nat} {w : DramReq} (h : mget s.mem.lastWrite ch = some w) :
    (s.writeAgain ch).chanQ ch = w :: s.chanQ ch ∧ mget (s.writeAgain ch).mem.lastWrite ch = none := by
  simp only [State.writeAgain, h]
  exact ⟨State.chanQ_setChanQ_same _ ch _, mget_mdel_same _ ch⟩

theorem State.stopped_setChanQ (s : State) (key : Nat) (q : List DramReq) :
    (s.setChanQ key q).mem.stopped = s.mem.stopped := rfl

theorem State.stopped_writeAgain (s : State) (ch : Nat) : (s.writeAgain ch).mem.stopped = s.mem.stopped := by
  unfold State.writeAgain
  split
  · rw [State.stopped_setChanQ]; rfl
  · rfl

end Sys2Proof.Machine

namespace Sys2Proof.Safety
open Sys2Proof.Machine

theorem Frame.writeAgain {P : List Part} {K : Nat → Prop} {s t : State} (h : Frame P K s t) {ch : Nat} (hch : ch < 32)
    (hm : .mem ∈ P) (hk : ∀ key, InBlock 10 key → K key) : Frame P K s (t.writeAgain ch) := by
  unfold State.writeAgain
  split
  · exact (h.setMem _ hm).setChanQ _ _ hm fun f hf => hk _ (inBlock_statusFields_near ch hch f hf)
  · exact h

end Sys2Proof.Safety

namespace Sys2Proof.Machine
open Sys2Proof.Safety

/-- The channel stops in the controllers' data alone, with the record as it was written. -/
theorem State.mem_edcStopped (s : State) {ch : Nat} (h : ch < 32) (fails : Nat) :
    ((s.edcRecorded ch fails).stopChannel ch).mem = { s.mem with stopped := ninsert s.mem.stopped ch } := by
  have hmem : (s.edcRecorded ch fails).mem = s.mem := (s.edcRecorded_frame h fails).1 .mem (by decide)
  rw [State.stopChannel, State.setMem_mem, hmem]

theorem State.edcStopped_frame (s : State) {ch : Nat} (h : ch < 32) (fails : Nat) :
    Frame [.evt, .mem, .ras] EdcKeys s (((s.edcRecorded ch fails).stopChannel ch).writeAgain ch) :=
  (((s.edcRecorded_frame h fails).mono (by decide) fun _ hk => hk).setMem _ (by decide)).writeAgain h (by decide)
    fun _ hk => .inl hk

theorem State.ras_writeAgain (s : State) {ch : Nat} (h : ch < 32) : (s.writeAgain ch).ras = s.ras :=
  ((Frame.refl [.mem] (InBlock 10) s).writeAgain h (by decide) fun _ hk => hk).1 .ras (by decide)

/-! ## Retrains and full training (R210, R212) -/

theorem State.execChannelRetrainDone_passed {s : State} {tier : Tier} {ch : Nat} (hup : s.chanUp tier ch = true)
    (hstop : s.mem.stopped.contains (chanKey tier ch) = true) : exec (.channelRetrainDone tier ch true) s =
      .next (s.setMem { s.mem with
        stopped := nerase s.mem.stopped (chanKey tier ch), fails := mdel s.mem.fails (chanKey tier ch) }) := by
  refine congrArg Host.Outcome.next ?_
  simp only [hup, hstop, Bool.not_true, Bool.false_eq_true, or_self, if_false, if_true]

/-- Every listed key of a map over keys has its value. -/
theorem mget_map_isSome {α : Type} (f : Nat → α) {l : List Nat} {c : Nat} (h : c ∈ l) :
    (mget (l.map fun k => (k, f k)) c).isSome = true := by
  induction l with
  | nil => exact absurd h List.not_mem_nil
  | cons k l ih =>
    rw [List.map_cons, mget]
    split
    · rfl
    · next hne => exact ih ((List.mem_cons.1 h).resolve_left hne)

/-- The state once every DIMM that was off has been trained: all sets open, the trained values saved. -/
def State.allTrained (s : State) : State :=
  (s.setMem { s.mem with untrained := [], dimmTrain := [] }).openSets.saveTraining

theorem State.execDimmFullTrainingDone_all {s : State} {passed : List Nat} (hheld : s.aon.held = false)
    (hoff : s.aon.off = 0) (hsome : s.mem.untrained ≠ []) (hcur : s.rd F.AON_PWR_MODE_CUR = 0)
    (hall : ∀ d ∈ s.mem.untrained, passed.contains d = true) :
    exec (.dimmFullTrainingDone passed) s = .next s.allTrained := by
  have hreset : s.inReset = false := by simp [State.inReset, hheld, hoff]
  have hleft : s.mem.untrained.filter (fun d => !passed.contains d) = [] :=
    List.filter_eq_nil_iff.2 fun d hd => by rw [hall d hd]; decide
  have hbad : s.mem.untrained.filter (fun d => !passed.contains d ∧ !s.rdb F.BTC_DIMM_ID_EXCLUDED d) = [] :=
    List.filter_eq_nil_iff.2 fun d hd => by rw [hall d hd]; simp
  refine congrArg Host.Outcome.next ?_
  simp only [hreset, State.cur, hcur, List.isEmpty_iff, hsome, hleft, hbad, List.foldl_nil, Bool.false_eq_true, ne_eq,
    not_true, or_self, if_false]
  rfl

theorem State.saveTraining_frame (s : State) : Frame [.aon, .draw] (fun _ => False) s s.saveTraining :=
  ((Frame.refl [.aon, .draw] (fun _ => False) s).with_aon s.saveTraining.aon (by decide)).with_draw (s.draw + 1)
    (by decide)

theorem State.allTrained_frame (s : State) : Frame [.mem, .bulk, .aon, .draw] (fun _ => False) s s.allTrained :=
  (((Frame.refl _ _ s).setMem _ (by decide)).with_bulk _ (by decide)).trans
    ((State.saveTraining_frame _).mono (by decide) fun _ hk => hk)

theorem State.allTrained_spec (s : State) : s.allTrained.mem = { s.mem with untrained := [], dimmTrain := [] } ∧
    (∀ r ∈ s.allTrained.bulk.sets, r.usable = true) ∧ s.allTrained.bulk.mem = s.bulk.mem ∧
    ∀ c ∈ s.nearChans, (mget s.allTrained.aon.trainedValues c).isSome = true := by
  refine ⟨rfl, fun r hr => ?_, rfl, fun c hc => ?_⟩
  · obtain ⟨r', -, rfl⟩ := List.mem_map.1 hr
    rfl
  · exact mget_map_isSome _ (List.mem_append_left _ hc)

/-! ## The commands -/

/-- Settles O31, command by command: each answers the state that its shared operation leaves, and the frame follows. -/
theorem dramControllers : Obligations.DramControllers := by
  unfold Obligations.DramControllers
  refine ⟨?now, ?postponed, ?training, ?refresh, ?request, ?retried, ?recorded, ?again, ?retrained, ?trained⟩
  case now =>
    exact fun s tier ch rank hup hwin =>
      ⟨_, State.execRefreshDue_now rank hup hwin, rfl, (Frame.refl _ _ s).setMem _ (by decide)⟩
  case postponed =>
    intro s tier ch rank hup hch _ hwin hclosed hlimit
    exact ⟨_, State.execRefreshDue_postponed hup hwin hclosed hlimit, State.postponed_setPostponed _ _ _ _, rfl,
      s.setPostponed_frame tier hch _ _⟩
  case training =>
    intro s tier ch rc hup hdue hnone
    exact ⟨_, State.execPeriodicTrainingDue_waits rc hup hdue hnone, mget_mput_same _ _ _, rfl,
      (Frame.refl _ _ s).setMem _ (by decide)⟩
  case refresh =>
    intro s tier ch now ready rank hup hruns hrank hdue hback hready
    refine ⟨_, (State.execDramCommandSlot_runs now ready hup hruns).trans
      (congrArg Host.Outcome.next (State.slot_refresh hrank hdue hback hready)), rfl, rfl, rfl, ?_⟩
    exact ((Frame.refl _ _ s).setMem _ (by decide)).setMem _ (by decide)
  case request =>
    intro s tier ch now ready r hup hch hruns hdue hrepay hnone hq hcopies hready
    obtain ⟨hleft, hrow⟩ := s.issueReq_spec (chanKey tier ch) (s.onlyReady (chanKey tier ch) now r)
    have hframe : Frame [.mem, .cdc] (StatusKeys ch) s (s.issueReq (chanKey tier ch) _) :=
      (Frame.refl _ _ s).issueReq _ (by decide) (statusKeys_chanKey tier hch)
        (s.onlyReady (chanKey tier ch) now r) (by decide)
    refine ⟨_, (State.execDramCommandSlot_runs now ready hup hruns).trans
      (congrArg Host.Outcome.next (State.slot_only hq hcopies hready hnone now hdue hrepay)), ?_, hrow,
      hframe.1 .near (by decide), hframe⟩
    rw [hleft, hq]; rfl
  case retried =>
    intro s ch fails hup hruns hpos hle hlt
    obtain ⟨-, -, -, hpmu⟩ := inBlock_edcFields ch (State.lt_of_chanUp_near hup)
    have hframe : Frame [.evt] (fun key => key = F.NTC_CH_EDC_RETRIES.key ch 0) s
        (s.bump F.NTC_CH_EDC_RETRIES ch 0 fails) :=
      (Frame.refl _ _ s).bump _ _ _ _ _ _ (by decide) (by decide) (.inl rfl)
    exact ⟨_, State.execEdcWriteFail_retried hup hruns hpos hle, s.rd_bump_same _ _ _ _ _ _ (by decide) hpmu hlt,
      hframe.1 .mem (by decide), hframe⟩
  case recorded =>
    intro s ch fails hup hruns hlt hroom
    have hch := State.lt_of_chanUp_near hup
    refine ⟨_, State.execEdcWriteFail_exhausted hup hruns hlt, ?_, ?_, s.edcStopped_frame hch fails⟩
    · rw [State.stopped_writeAgain, s.mem_edcStopped hch]
    · rw [State.ras_writeAgain _ hch, State.ras_stopChannel]
      exact State.edcRecorded_log hch fails hroom
  case again =>
    intro s ch fails w hup hruns hlt hlast
    have hch := State.lt_of_chanUp_near hup
    have hmem := s.mem_edcStopped hch fails
    have hframe := s.edcStopped_frame hch fails
    obtain ⟨hqueue, hnone⟩ := State.writeAgain_of_write (s := (s.edcRecorded ch fails).stopChannel ch)
      (by rw [hmem]; exact hlast)
    refine ⟨_, State.execEdcWriteFail_exhausted hup hruns hlt, ?_, hnone, hframe.1 .near (by decide), hframe⟩
    rw [hqueue, State.chanQ, hmem, State.chanQ]
  case retrained =>
    exact fun s tier ch hup hstop =>
      ⟨_, State.execChannelRetrainDone_passed hup hstop, rfl, (Frame.refl _ _ s).setMem _ (by decide)⟩
  case trained =>
    intro s passed hheld hoff hsome hcur hall
    obtain ⟨hmem, husable, hbytes, hvalues⟩ := s.allTrained_spec
    exact ⟨_, State.execDimmFullTrainingDone_all hheld hoff hsome hcur hall, hmem, husable, hbytes, hvalues,
      s.allTrained_frame⟩

end Sys2Proof.Machine
end

section
/-!
PROOFS of O19: the commands of a mailbox that set registers, by the state that each leaves before its answer.
-/
namespace Sys2Proof.Machine
open Sys2Proof.Safety

/-! ## Answers, and a command that is refused with an effect -/

/-- A command whose effect keeps the outputs and HLX has answered once it replies, and the reply adds those two parts to the
frame of the effect. -/
theorem served_of_frame {s t : State} {P : List Part} {K : Nat → Prop} (hframe : Frame P K s t) (hout : .out ∉ P)
    (hhlx : .hlx ∉ P) (src : MboxSrc) (op rc : Nat) (out : List Byte) :
    Answered s (t.reply src op rc out) src op rc out ∧
      Frame (.out :: P ++ [.hlx]) K s (t.reply src op rc out) := by
  refine ⟨State.answered_reply (hframe.1 .out hout) (hframe.1 .hlx hhlx) _ _ _ _, ?_⟩
  exact (hframe.mono (fun q hq => by simp [hq]) fun _ hk => hk).reply _ _ _ _ (by simp) (by simp)

theorem State.avsar_raised {s : State} {src : MboxSrc} {need : Need} (hr : MboxReady s src need) {op len : Nat}
    {p : List Byte} (hlen : p.length = len) {f : State → Ans} {t : State} {arc detail : Nat}
    (hf : f s = .raised t arc detail) :
    s.avsar src op len need p f = t.reply src op rcSuccess (resultHeader arc detail) := by
  simp [State.avsar, s.knock_of_idle 1 hr.cur hr.stage, hr.up, hr.free, hlen, hr.permitted, hf]

/-! ## Rank sets (R226, R271) -/

section
variable {s : State} {src : MboxSrc} (hr : MboxReady s src (.perm 0)) {p : List Byte} (hlen : p.length = 4)
  (hres : reservedAt p 2 2 = none) (hnone : s.regionsPresent = 0)
include hr hlen hres hnone

theorem State.setRetainSets_served :
    s.setRetainSets src p =
      (s.wr F.BTC_RETAIN_SETS (numAt p 0 2 ||| 1)).reply src 0xc030 rcSuccess (resultHeader 0 0 ++ []) := by
  refine State.avsar_ok hr hlen ?_
  simp only [hres, hnone, ne_eq, not_true, if_false]

/-- SET_SPARE_SET of a set that is there, when none is the spare yet. -/
theorem State.setSpareSet_takes {id : Nat} (hid : numAt p 0 1 = id) (hvalid : numAt p 1 1 = 1) (hlo : 1 ≤ id)
    (hhi : id ≤ 15) (hheld : s.setHeld id = false)
    (hset : s.bulk.sets.any (fun r => decide (r.id = id)) = true)
    (hfailing : (s.rd F.RAS_RANK_STS_FAILING).testBit id = false)
    (hremoved : (s.rd F.RAS_RANK_STS_REMOVED).testBit id = false) (hspare : s.rd F.RAS_SPARE_SET_VALID = 0) :
    s.setSpareSet src p =
      ((s.wr F.RAS_SPARE_SET_SET id).takeSpare id).reply src 0xc031 rcSuccess (resultHeader 0 0 ++ []) := by
  have hdrop : s.dropSpare = s := if_neg (by simp [State.rdb, hspare])
  rw [State.setSpareSet]
  simp only [hid, hvalid, Nat.max_eq_right hlo]
  refine State.avsar_ok hr hlen ?_
  simp [Nat.not_lt.2 hhi, hres, hheld, hnone, hset, hfailing, hremoved, hdrop,
    show bitOf 1 0 = true from rfl]

end

theorem State.setSectors_wr (s : State) (v id : Nat) : (s.wr F.RAS_SPARE_SET_SET v).setSectors id = s.setSectors id := by
  have hnch : (s.wr F.RAS_SPARE_SET_SET v).rd F.BTC_CONFIG_NCH = s.rd F.BTC_CONFIG_NCH :=
    s.rd_wr_ne _ _ _ _ _ (by decide)
  rw [State.setSectors, hnch]; rfl

/-- A set that becomes the spare leaves the capacity and the free intervals (R271). -/
theorem State.takeSpare_spec (s : State) (id : Nat) :
    (s.takeSpare id).rd F.TMU_CAP_TOTAL_SECTORS =
        (s.rd F.TMU_CAP_TOTAL_SECTORS - s.setSectors id) % 2 ^ F.TMU_CAP_TOTAL_SECTORS.width ∧
      (s.takeSpare id).rd F.RAS_SPARE_SET_VALID = 1 ∧ (∀ e ∈ (s.takeSpare id).tmu.freeIv, s.inSet id e.1 = false) ∧
      Frame [.tmu] (fun key => key = F.RAS_SPARE_SET_VALID.key 0 0 ∨ key = F.TMU_CAP_TOTAL_SECTORS.key 0 0) s
        (s.takeSpare id) := by
  refine ⟨?_, State.rd_wr_same _ _ _, fun e he => ?_, ?_⟩
  · rw [State.takeSpare, State.rd_wr_ne _ _ _ _ _ _ (by decide), State.rd_wr_same]; rfl
  · have hout : (!s.inSet id e.1) = true := (List.mem_filter.1 he).2
    simpa using hout
  · exact ((((Frame.refl _ _ s).setTmu _ (by decide)).setTmu _ (by decide)).wr _ _ (.inl (.inr rfl))).wr _ _
      (.inl (.inl rfl))

/-! ## Heads (R279, R293, R301) -/

/-- The LD count of the head, when byte 2 is selected. -/
def State.putLdCount (s : State) (p : List Byte) : State :=
  if (numAt p 24 8).testBit 2 then s.wrI F.HLX_HEAD_LD_LD_COUNT (hl (numAt p 0 1) 0) (numAt p 2 1) else s

/-- The four permissions of LD page i, when byte 3 is selected. -/
def State.putPerms (s : State) (p : List Byte) (i : Nat) : State :=
  if (numAt p 24 8).testBit 3 then
    (List.range 4).foldl (fun s b => s.wrI (permField b) i (bits (numAt p 3 1) b b)) s else s

/-- The queue range and the region slots of LD page i. -/
def State.putRange (s : State) (p : List Byte) (i : Nat) (r : Nat × Nat) : State :=
  let s1 := (s.wrI F.HLX_LD_QUEUES_QFIRST i r.1).wrI F.HLX_LD_QUEUES_QCOUNT i r.2
  s1.wrI F.HLX_LD_RGN_SLOTS i (headBytes p 16 8 (s1.rd F.HLX_LD_RGN_SLOTS i))

theorem State.applyHead_eq (s : State) (p : List Byte) {i : Nat} (hi : i = hl (numAt p 0 1) (numAt p 1 1)) :
    s.applyHead p = ((s.putLdCount p).putPerms p i).putRange p i (s.headRange p i) := by
  subst hi; rfl

/-- A field at another place than the queue range's and the slots' is left by them. -/
theorem State.rd_putRange_apart (s : State) (p : List Byte) (i : Nat) (r : Nat × Nat) {g : Fld} (j : Nat)
    (hg : ∀ f ∈ [F.HLX_LD_QUEUES_QFIRST, F.HLX_LD_QUEUES_QCOUNT, F.HLX_LD_RGN_SLOTS],
      g.place 0 % 0x40000 ≠ f.place 0 % 0x40000) : (s.putRange p i r).rd g j = s.rd g j := by
  rw [State.putRange, State.rd_wrI_apart _ _ _ _ (hg _ (by simp)), State.rd_wrI_apart _ _ _ _ (hg _ (by simp)),
    State.rd_wrI_apart _ _ _ _ (hg _ (by simp))]

theorem State.rd_putRange (s : State) (p : List Byte) (i : Nat) (r : Nat × Nat) :
    (s.putRange p i r).rd F.HLX_LD_QUEUES_QFIRST i = r.1 % 2 ^ F.HLX_LD_QUEUES_QFIRST.width ∧
      (s.putRange p i r).rd F.HLX_LD_QUEUES_QCOUNT i = r.2 % 2 ^ F.HLX_LD_QUEUES_QCOUNT.width := by
  constructor
  · rw [State.putRange, State.rd_wrI_apart _ _ _ _ (by decide), State.rd_wrI_apart _ _ _ _ (by decide),
      State.rd_wrI_same]
  · rw [State.putRange, State.rd_wrI_apart _ _ _ _ (by decide), State.rd_wrI_same]

theorem State.putPerms_selected (s : State) {p : List Byte} (i : Nat) (h : (numAt p 24 8).testBit 3 = true) :
    s.putPerms p i = (((s.wrI (permField 0) i (bits (numAt p 3 1) 0 0)).wrI (permField 1) i
      (bits (numAt p 3 1) 1 1)).wrI (permField 2) i (bits (numAt p 3 1) 2 2)).wrI (permField 3) i
        (bits (numAt p 3 1) 3 3) := if_pos h

/-- A field at another place than the permissions' is left by them. -/
theorem State.rd_putPerms_apart (s : State) (p : List Byte) (i : Nat) {g : Fld} (j : Nat)
    (hg : ∀ b < 4, g.place 0 % 0x40000 ≠ (permField b).place 0 % 0x40000) : (s.putPerms p i).rd g j = s.rd g j := by
  by_cases h : (numAt p 24 8).testBit 3 = true
  · rw [State.putPerms_selected s i h, State.rd_wrI_apart _ _ _ _ (hg 3 (by decide)),
      State.rd_wrI_apart _ _ _ _ (hg 2 (by decide)), State.rd_wrI_apart _ _ _ _ (hg 1 (by decide)),
      State.rd_wrI_apart _ _ _ _ (hg 0 (by decide))]
  · rw [State.putPerms, if_neg h]

theorem permField_width : ∀ b < 4, (permField b).width = 1 := by decide

theorem State.rd_putPerms (s : State) {p : List Byte} (i : Nat) (h : (numAt p 24 8).testBit 3 = true) {b : Nat}
    (hb : b < 4) : (s.putPerms p i).rd (permField b) i = bits (numAt p 3 1) b b := by
  have hbit : bits (numAt p 3 1) b b % 2 ^ (permField b).width = bits (numAt p 3 1) b b := by
    rw [permField_width b hb, bits, Nat.add_sub_cancel_left, Nat.mod_mod]
  rw [State.putPerms_selected s i h, ← hbit]
  interval_cases b <;> simp (disch := decide) only [State.rd_wrI_apart, State.rd_wrI_same]

/-- The keys of what HEAD_CONFIG may write of head h and of LD page i. -/
abbrev HeadKeys (h i key : Nat) : Prop :=
  key = F.HLX_HEAD_LD_LD_COUNT.key (hl h 0) 0 ∨ (∃ b < 4, key = (permField b).key i 0) ∨
    key = F.HLX_LD_QUEUES_QFIRST.key i 0 ∨ key = F.HLX_LD_QUEUES_QCOUNT.key i 0 ∨ key = F.HLX_LD_RGN_SLOTS.key i 0

section
variable (s : State) (p : List Byte) (i : Nat)

theorem State.putLdCount_frame : Frame [] (HeadKeys (numAt p 0 1) i) s (s.putLdCount p) :=
  Frame.ite _ (fun _ => (Frame.refl _ _ s).wrI _ _ _ (.inl (.inl rfl))) fun _ => Frame.refl _ _ s

theorem State.putPerms_frame : Frame [] (HeadKeys (numAt p 0 1) i) s (s.putPerms p i) :=
  Frame.ite _ (fun _ => Frame.foldl _ _ s fun u b hb =>
    (Frame.refl _ _ u).wrI _ _ _ (.inl (.inr (.inl ⟨b, List.mem_range.1 hb, rfl⟩)))) fun _ => Frame.refl _ _ s

theorem State.putRange_frame (r : Nat × Nat) : Frame [] (HeadKeys (numAt p 0 1) i) s (s.putRange p i r) :=
  (((Frame.refl _ _ s).wrI _ _ _ (.inl (.inr (.inr (.inl rfl))))).wrI _ _ _
    (.inl (.inr (.inr (.inr (.inl rfl)))))).wrI _ _ _ (.inl (.inr (.inr (.inr (.inr rfl)))))

end

/-- A payload of HEAD_CONFIG without a bad field asks for an LD count that its field holds. -/
theorem State.ldCount_of_badHead_none {s : State} {p : List Byte} (h : s.badHead p = none)
    (hsel : (numAt p 24 8).testBit 2 = true) : numAt p 2 1 < 8 := by
  simp only [State.badHead, Option.or_eq_none_iff, Option.map_eq_none_iff, List.find?_eq_none] at h
  have hcount := h.1 _ (List.mem_cons_of_mem _ (List.mem_cons_of_mem _ List.mem_cons_self))
  simp only [hsel, Bool.true_and, Bool.not_eq_true', decide_eq_false_iff_not] at hcount
  omega

/-- What HEAD_CONFIG selects is written, and nothing else. -/
theorem State.applyHead_spec {s : State} {p : List Byte} {i : Nat} (hbad : s.badHead p = none)
    (hi : i = hl (numAt p 0 1) (numAt p 1 1)) :
    (s.applyHead p).rd F.HLX_LD_QUEUES_QFIRST i = (s.headRange p i).1 % 2 ^ F.HLX_LD_QUEUES_QFIRST.width ∧
      (s.applyHead p).rd F.HLX_LD_QUEUES_QCOUNT i = (s.headRange p i).2 % 2 ^ F.HLX_LD_QUEUES_QCOUNT.width ∧
      ((numAt p 24 8).testBit 2 = true →
        (s.applyHead p).rd F.HLX_HEAD_LD_LD_COUNT (hl (numAt p 0 1) 0) = numAt p 2 1) ∧
      ((numAt p 24 8).testBit 3 = true →
        ∀ b < 4, (s.applyHead p).rd (permField b) i = bits (numAt p 3 1) b b) ∧
      Frame [] (HeadKeys (numAt p 0 1) i) s (s.applyHead p) := by
  rw [State.applyHead_eq s p hi]
  obtain ⟨hfirst, hcount⟩ := State.rd_putRange ((s.putLdCount p).putPerms p i) p i (s.headRange p i)
  refine ⟨hfirst, hcount, fun hsel => ?_, fun hsel b hb => ?_, ?_⟩
  · rw [State.rd_putRange_apart _ _ _ _ _ (by decide), State.rd_putPerms_apart _ _ _ _ (by decide), State.putLdCount,
      if_pos hsel, State.rd_wrI_same]
    exact Nat.mod_eq_of_lt (State.ldCount_of_badHead_none hbad hsel)
  · have hplaces : ∀ b < 4, ∀ f ∈ [F.HLX_LD_QUEUES_QFIRST, F.HLX_LD_QUEUES_QCOUNT, F.HLX_LD_RGN_SLOTS],
        (permField b).place 0 % 0x40000 ≠ f.place 0 % 0x40000 := by decide
    rw [State.rd_putRange_apart _ _ _ _ _ (hplaces b hb), State.rd_putPerms _ _ hsel hb]
  · exact ((s.putLdCount_frame p i).trans (State.putPerms_frame _ p i)).trans (State.putRange_frame _ p i _)

theorem State.headConfig_served {s : State} {src : MboxSrc} (hr : MboxReady s src (.perm 0)) {p : List Byte}
    (hlen : p.length = 32) (hbad : s.badHead p = none) {i : Nat} (hi : i = hl (numAt p 0 1) (numAt p 1 1))
    (hheld : s.rangeHeld i = false) (hrange : s.rangeRefused i (s.headRange p i) = false) :
    s.headConfig src p = (s.applyHead p).reply src 0xc050 rcSuccess (resultHeader 0 0 ++ []) := by
  subst hi
  refine State.avsar_ok hr hlen ?_
  simp only [hbad, hheld, hrange, Bool.false_eq_true, if_false]

/-! ## HOLD (R247) -/

/-- The HOLD field of a bulk subchannel or of a near channel. -/
def holdField (bulk : Bool) : Fld := if bulk then F.BTC_SC_CTL_HOLD else F.NTC_CH_CTL_HOLD

/-- A number below 2 ^ 16 in four bytes leaves the two high bytes zero. -/
theorem reservedAt_two_of_lt {p : List Byte} (h : numAt p 0 4 < 2 ^ 16) : reservedAt p 2 2 = none := by
  have hnum : numAt p 0 4 = (p.getD 0 0).toNat + 256 * ((p.getD 1 0).toNat + 256 * ((p.getD 2 0).toNat +
    256 * ((p.getD 3 0).toNat + 256 * 0))) := rfl
  have h2 : p.getD 2 0 = 0 := BitVec.eq_of_toNat_eq (show (p.getD 2 0).toNat = 0 by omega)
  have h3 : p.getD 3 0 = 0 := BitVec.eq_of_toNat_eq (show (p.getD 3 0).toNat = 0 by omega)
  refine List.find?_eq_none.2 fun i hi => ?_
  have hcases : i ∈ [2, 3] := hi
  rcases List.mem_pair.1 hcases with rfl | rfl
  · rw [h2]; decide
  · rw [h3]; decide

/-- SET_HOLD with bit 8 set, over both tiers: bit 7 names the tier. -/
theorem State.setHoldCmd_sets {s : State} {src : MboxSrc} (hr : MboxReady s src (.perm 2)) {p : List Byte}
    (hlen : p.length = 4) (bulk : Bool) {ch : Nat} (hv : numAt p 0 4 = 0x100 + 0x80 * b2n bulk + ch) (hch : ch < 32) :
    s.setHoldCmd src p = (s.wrI (holdField bulk) ch 1).reply src 0xc051 rcSuccess (resultHeader 0 0 ++ []) := by
  have htier : b2n bulk ≤ 1 := by cases bulk <;> decide
  have hlow : bits (numAt p 0 4) 6 5 = 0 := by rw [hv, bits]; omega
  have hhigh : bits (numAt p 0 4) 15 9 = 0 := by rw [hv, bits]; omega
  have hres : reservedAt p 2 2 = none := reservedAt_two_of_lt (by rw [hv]; omega)
  have hmod : numAt p 0 4 % 32 = ch := by rw [hv]; omega
  have hset : (numAt p 0 4).testBit 8 = true := by
    rw [Nat.testBit_eq_decide_div_mod_eq, hv, decide_eq_true_eq]; omega
  have hbulk : (numAt p 0 4).testBit 7 = bulk := by
    rw [Nat.testBit_eq_decide_div_mod_eq, hv]
    cases bulk with
    | true => exact decide_eq_true (show (0x100 + 0x80 * 1 + ch) / 2 ^ 7 % 2 = 1 by omega)
    | false => exact decide_eq_false (show ¬ (0x100 + 0x80 * 0 + ch) / 2 ^ 7 % 2 = 1 by omega)
  rw [State.setHoldCmd]
  refine State.avsar_ok hr hlen ?_
  simp only [hlow, hhigh, hres, hmod, hset, hbulk, ne_eq, not_true, if_false, State.putHold, holdField]
  cases bulk <;> rfl

/-- SET_HOLD of either tier sets the HOLD of the channel, and nothing else. -/
theorem State.execSetHold_spec {s : State} {src : MboxSrc} (hr : MboxReady s src (.perm 2)) {p : List Byte}
    (hlen : p.length = 4) (bulk : Bool) {ch : Nat} (hv : numAt p 0 4 = 0x100 + 0x80 * b2n bulk + ch) (hch : ch < 32) :
    ∃ t, exec (.setHold src p) s = .next t ∧ t.rd (holdField bulk) ch = 1 ∧
      Answered s t src 0xc051 0 (resultHeader 0 0 ++ []) ∧
      Frame [.out, .hlx] (fun key => key = (holdField bulk).key ch 0) s t := by
  have hframe : Frame [] (fun key => key = (holdField bulk).key ch 0) s (s.wrI (holdField bulk) ch 1) :=
    (Frame.refl _ _ s).wrI _ _ _ (.inl rfl)
  have hwidth : (holdField bulk).width = 1 := by cases bulk <;> rfl
  obtain ⟨hans, hall⟩ := served_of_frame hframe (by simp) (by simp) src 0xc051 rcSuccess (resultHeader 0 0 ++ [])
  refine ⟨_, congrArg Host.Outcome.next (State.setHoldCmd_sets hr hlen bulk hv hch), ?_, hans, hall⟩
  rw [State.reply_rd, State.rd_wrI_same, hwidth]; rfl

/-! ## The retention loss list (R266) -/

/-- The fields of an entry of the retention loss list. -/
def retFields : List Fld := [F.RAS_RET_VALID, F.RAS_RET_SUBCH, F.RAS_RET_SET, F.RAS_RET_BANK]

/-- Field by field, entry by entry. -/
def retEntries : List (Fld × Nat × Nat) := (List.range 256).flatMap fun n => retFields.map fun f => (f, 0, n)

/-- The retention loss list is cleared. -/
def State.retCleared (s : State) : State := retEntries.foldl State.clearRcField s

theorem retFields_rows : ∀ f ∈ retFields, f ≠ F.CRY_PIPE_WORK_UNITS ∧ f.rst = 0 ∧ f.dyn ≠ 1 := by decide

theorem rstAt_of_mem_retFields {f : Fld} (h : f ∈ retFields) (i k : Nat) : f.rstAt i k = 0 := by
  obtain ⟨-, hrst, hdyn⟩ := retFields_rows f h
  simp [Fld.rstAt, hdyn, hrst]

theorem State.clearRcField_ret (s : State) {f : Fld} (h : f ∈ retFields) (i k : Nat) :
    s.clearRcField (f, i, k) = s.wrAt f i k 0 := by
  rw [State.clearRcField, if_neg (retFields_rows f h).1]

theorem State.clearRetention_served {s : State} {src : MboxSrc} (hr : MboxReady s src (.perm 0)) :
    s.clearRetention src [] = s.retCleared.reply src 0xc033 rcSuccess (resultHeader 0 0 ++ []) := by
  refine State.avsar_ok hr (len := 0) (p := []) rfl ?_
  refine congrArg (Ans.ok · []) ?_
  rw [State.retCleared, retEntries, List.foldl_flatMap]
  refine List.foldl_ext _ _ _ fun t n _ => ?_
  have hclr : ∀ (u : State), ∀ f ∈ retFields, u.clr f 0 n = u.clearRcField (f, 0, n) := fun u f hf => by
    rw [State.clr, rstAt_of_mem_retFields hf, State.clearRcField_ret _ hf]
  rw [hclr _ _ (by simp [retFields]), hclr _ _ (by simp [retFields]), hclr _ _ (by simp [retFields]),
    hclr _ _ (by simp [retFields])]
  rfl

theorem State.retAny_retCleared (s : State) : s.retCleared.retAny = false := by
  refine List.any_eq_false.2 fun n hn => ?_
  have hnone : mget s.retCleared.regs (F.RAS_RET_VALID.key 0 n) = none := by
    refine State.mget_foldl_clearRcField _ s (fun x hx => ?_) _ (.inl ⟨(F.RAS_RET_VALID, 0, n), ?_, rfl⟩)
    · obtain ⟨_, -, hx⟩ := List.mem_flatMap.1 hx
      obtain ⟨f, hf, rfl⟩ := List.mem_map.1 hx
      exact rstAt_of_mem_retFields hf _ _
    · exact List.mem_flatMap.2 ⟨n, hn, List.mem_map_of_mem (by simp [retFields])⟩
  rw [State.rdb, State.rd, mgetD, hnone]
  simp [rstAt_of_mem_retFields (f := F.RAS_RET_VALID) (by simp [retFields])]

theorem State.retAny_reply (s : State) (src : MboxSrc) (op rc : Nat) (out : List Byte) :
    (s.reply src op rc out).retAny = s.retAny := by
  simp only [State.retAny, State.rdb, State.reply_rd]

/-- The keys of the retention loss list. -/
abbrev RetKeys (key : Nat) : Prop :=
  ∃ n < 256, key = F.RAS_RET_VALID.key 0 n ∨ key = F.RAS_RET_SUBCH.key 0 n ∨ key = F.RAS_RET_SET.key 0 n ∨
    key = F.RAS_RET_BANK.key 0 n

theorem State.retCleared_frame (s : State) : Frame [] RetKeys s s.retCleared := by
  refine Frame.foldl _ _ s fun u x hx => ?_
  obtain ⟨n, hn, hx⟩ := List.mem_flatMap.1 hx
  obtain ⟨f, hf, rfl⟩ := List.mem_map.1 hx
  have hkey : f.key 0 n = F.RAS_RET_VALID.key 0 n ∨ f.key 0 n = F.RAS_RET_SUBCH.key 0 n ∨
      f.key 0 n = F.RAS_RET_SET.key 0 n ∨ f.key 0 n = F.RAS_RET_BANK.key 0 n := by
    have hcases : f = F.RAS_RET_VALID ∨ f = F.RAS_RET_SUBCH ∨ f = F.RAS_RET_SET ∨ f = F.RAS_RET_BANK := by
      simpa [retFields] using hf
    exact hcases.imp (congrArg (Fld.key · 0 n)) (Or.imp (congrArg (Fld.key · 0 n)) (Or.imp (congrArg (Fld.key · 0 n))
      (congrArg (Fld.key · 0 n))))
  rw [State.clearRcField_ret _ hf]
  exact (Frame.refl _ _ u).wrAt _ _ _ _ (.inl ⟨n, List.mem_range.1 hn, hkey⟩)

/-! ## The error log (R268) -/

/-- CLEAR_ERROR_LOG of n unread records moves CONS past them. -/
def State.consumed (s : State) (n : Nat) : State :=
  (s.wr F.RAS_LOG_CONS ((s.rd F.RAS_LOG_CONS + n) % 1024)).setRas { s.ras with fullRaised := false }

theorem State.consumed_frame (s : State) (n : Nat) :
    Frame [.ras] (fun key => key = F.RAS_LOG_CONS.key 0 0) s (s.consumed n) :=
  ((Frame.refl [.ras] (fun key => key = F.RAS_LOG_CONS.key 0 0) s).wr F.RAS_LOG_CONS _ (.inl rfl)).setRas _ (by decide)

theorem State.rd_consumed (s : State) (n : Nat) :
    (s.consumed n).rd F.RAS_LOG_CONS = (s.rd F.RAS_LOG_CONS + n) % 1024 := by
  rw [State.consumed, State.setRas_rd, State.rd_wr_same]
  exact Nat.mod_mod _ _

theorem State.clearErrorLog_served {s : State} {src : MboxSrc} (hr : MboxReady s src (.perm 0)) {p : List Byte}
    (hlen : p.length = 4) (hpos : 1 ≤ numAt p 0 4) (hle : numAt p 0 4 ≤ s.unread) :
    s.clearErrorLog src p =
      (s.consumed (numAt p 0 4)).reply src 0xc041 rcSuccess (resultHeader 0 0 ++ leBytes 4 (numAt p 0 4)) := by
  have hsome : ¬ (numAt p 0 4 = 0 ∨ s.unread = 0) := by omega
  refine State.avsar_ok hr hlen ?_
  rw [State.consume, if_neg hsome, Nat.min_eq_left hle]; rfl

/-! ## Power states (R481, R482) -/

/-- An entry to state tgt is armed: the supervisor waits for the unit to be ready. -/
def State.armed (s : State) (tgt : Nat) : State :=
  (((s.wr F.AON_PWR_MODE_TARGET tgt).wr F.AON_PWR_MODE_ARM 1).wr F.AON_PWR_STS_LAST_TARGET tgt).setEntry
    { stage := 1, wakes := [], attempts := 0, retry := false }

section
variable {s : State} {src : MboxSrc} (hr : MboxReady s src .free) {p : List Byte} (hlen : p.length = 4)
include hr hlen

/-- P1 and OFF ask no more than FM and an idle P0. -/
theorem State.setPowerState_arms (hfm : s.srcHas src F.HLX_HEAD_PERM_FM = true) {tgt : Nat} (hv : numAt p 0 4 = tgt)
    (htgt : tgt = 1 ∨ tgt = 4) :
    s.setPowerState src p = (s.armed tgt).reply src 0xc020 rcSuccess (resultHeader 0 0 ++ []) := by
  have hcur : s.cur = 0 := hr.cur
  refine State.avsar_ok hr hlen ?_
  rcases htgt with rfl | rfl <;> simp [State.powerChecks, hfm, hv, hr.stage, hcur, State.armed]

theorem State.setPowerState_refuses (hfm : s.srcHas src F.HLX_HEAD_PERM_FM = false) :
    s.setPowerState src p =
      ((s.wr F.AON_PWR_STS_OUTCOME 1).raise cRefused).reply src 0xc020 rcSuccess (resultHeader 1 0) := by
  refine State.avsar_raised hr hlen ?_
  rw [State.powerChecks, hfm]; rfl

end

theorem State.rd_armed (s : State) {tgt : Nat} (htgt : tgt < 8) :
    (s.armed tgt).rd F.AON_PWR_MODE_TARGET = tgt ∧ (s.armed tgt).rd F.AON_PWR_MODE_ARM = 1 ∧
      (s.armed tgt).rd F.AON_PWR_STS_LAST_TARGET = tgt := by
  unfold State.armed
  refine ⟨?_, ?_, ?_⟩
  · rw [State.setEntry_rd, State.rd_wr_ne _ _ _ _ _ _ (by decide), State.rd_wr_ne _ _ _ _ _ _ (by decide), State.rd_wr_same]
    exact Nat.mod_eq_of_lt htgt
  · rw [State.setEntry_rd, State.rd_wr_ne _ _ _ _ _ _ (by decide), State.rd_wr_same]; rfl
  · rw [State.setEntry_rd, State.rd_wr_same]
    exact Nat.mod_eq_of_lt htgt

theorem State.armed_frame (s : State) (tgt : Nat) :
    Frame [.aon] (fun key => key = F.AON_PWR_MODE_TARGET.key 0 0 ∨ key = F.AON_PWR_MODE_ARM.key 0 0 ∨
      key = F.AON_PWR_STS_LAST_TARGET.key 0 0) s (s.armed tgt) :=
  ((((Frame.refl _ _ s).wr _ _ (.inl (.inl rfl))).wr _ _ (.inl (.inr (.inl rfl)))).wr _ _
    (.inl (.inr (.inr rfl)))).setEntry _ (by decide)

theorem State.refused_frame (s : State) :
    Frame [.evt] (fun key => key = F.AON_PWR_STS_OUTCOME.key 0 0 ∨ key = (F.EVT_RAW_CAUSE 0).key 0 0) s
      ((s.wr F.AON_PWR_STS_OUTCOME 1).raise cRefused) :=
  ((Frame.refl _ _ s).wr _ _ (.inl (.inl rfl))).raise cRefused _ _ _ (by decide) (.inl (.inr rfl))

/-! ## The commands -/

/-- Settles O19, command by command: each is served by the state that it leaves before its answer, and the answer adds to
what leaves the unit and to HLX alone. -/
theorem mailboxSettings : Obligations.MailboxSettings := by
  unfold Obligations.MailboxSettings
  refine ⟨?retain, ?spare, ?head, ?holdBulk, ?holdNear, ?retention, ?log, ?power, ?refused⟩
  case retain =>
    intro s src p hcur hst hup hfree hperm hlen hres hnone hlt
    have hframe : Frame [] (fun key => key = F.BTC_RETAIN_SETS.key 0 0) s (s.wr F.BTC_RETAIN_SETS (numAt p 0 2 ||| 1)) :=
      (Frame.refl _ _ s).wr _ _ (.inl rfl)
    obtain ⟨hans, hall⟩ := served_of_frame hframe (by simp) (by simp) src 0xc030 rcSuccess (resultHeader 0 0 ++ [])
    refine ⟨_, congrArg Host.Outcome.next (State.setRetainSets_served ⟨hcur, hst, hup, hfree, hperm⟩ hlen hres hnone), ?_,
      hans, hall⟩
    rw [State.reply_rd, State.rd_wr_same]
    exact Nat.mod_eq_of_lt (Nat.or_lt_two_pow hlt (by decide))
  case spare =>
    intro s src p id hcur hst hup hfree hperm hlen hid hvalid hlo hhi hres hheld hnone hset hfailing hremoved hspare hcap
    obtain ⟨htotal, hon, hfreeIv, htake⟩ := (s.wr F.RAS_SPARE_SET_SET id).takeSpare_spec id
    have hframe : Frame [.tmu] (fun key => key = F.RAS_SPARE_SET_SET.key 0 0 ∨ key = F.RAS_SPARE_SET_VALID.key 0 0 ∨
        key = F.TMU_CAP_TOTAL_SECTORS.key 0 0) s ((s.wr F.RAS_SPARE_SET_SET id).takeSpare id) :=
      ((Frame.refl _ _ s).wr _ _ (.inl (.inl rfl))).trans (htake.mono (by simp) fun _ hk => .inr hk)
    obtain ⟨hans, hall⟩ := served_of_frame hframe (by decide) (by decide) src 0xc031 rcSuccess (resultHeader 0 0 ++ [])
    refine ⟨_, congrArg Host.Outcome.next (State.setSpareSet_takes ⟨hcur, hst, hup, hfree, hperm⟩ hlen hres hnone hid hvalid
      hlo hhi hheld hset hfailing hremoved hspare), ?_, ?_, ?_, ?_, hans, hall⟩
    · rw [State.reply_rd, htake.rd _ _ _ (by decide) (by decide), State.rd_wr_same]
      exact Nat.mod_eq_of_lt (Nat.lt_of_le_of_lt hhi (by decide))
    · rw [State.reply_rd, hon]
    · rw [State.reply_rd, htotal, State.setSectors_wr, State.rd_wr_ne _ _ _ _ _ _ (by decide)]
      exact Nat.mod_eq_of_lt (Nat.lt_of_le_of_lt (Nat.sub_le _ _) hcap)
    · rw [State.reply_eq]; exact hfreeIv
  case head =>
    intro s src p i hcur hst hup hfree hperm hlen hbad hi hheld hrange
    obtain ⟨hfirst, hcount, hld, hperms, hframe⟩ := State.applyHead_spec hbad hi
    obtain ⟨hans, hall⟩ := served_of_frame hframe (by simp) (by simp) src 0xc050 rcSuccess (resultHeader 0 0 ++ [])
    refine ⟨_, congrArg Host.Outcome.next (State.headConfig_served ⟨hcur, hst, hup, hfree, hperm⟩ hlen hbad hi hheld
      hrange), ?_, ?_, fun hsel => ?_, fun hsel b hb => ?_, hans, hall⟩
    · rw [State.reply_rd, hfirst]
    · rw [State.reply_rd, hcount]
    · rw [State.reply_rd, hld hsel]
    · rw [State.reply_rd, hperms hsel b hb]
  case holdBulk =>
    exact fun s src p ch hcur hst hup hfree hperm hlen hv hch =>
      State.execSetHold_spec ⟨hcur, hst, hup, hfree, hperm⟩ hlen true hv hch
  case holdNear =>
    exact fun s src p ch hcur hst hup hfree hperm hlen hv hch =>
      State.execSetHold_spec ⟨hcur, hst, hup, hfree, hperm⟩ hlen false hv hch
  case retention =>
    intro s src hcur hst hup hfree hperm
    obtain ⟨hans, hall⟩ := served_of_frame s.retCleared_frame (by simp) (by simp) src 0xc033 rcSuccess
      (resultHeader 0 0 ++ [])
    refine ⟨_, congrArg Host.Outcome.next (State.clearRetention_served ⟨hcur, hst, hup, hfree, hperm⟩), ?_, hans, hall⟩
    rw [State.retAny_reply, State.retAny_retCleared]
  case log =>
    intro s src p hcur hst hup hfree hperm hlen hpos hle
    obtain ⟨hans, hall⟩ := served_of_frame (s.consumed_frame (numAt p 0 4)) (by decide) (by decide) src 0xc041 rcSuccess
      (resultHeader 0 0 ++ leBytes 4 (numAt p 0 4))
    refine ⟨_, congrArg Host.Outcome.next (State.clearErrorLog_served ⟨hcur, hst, hup, hfree, hperm⟩ hlen hpos hle), ?_, ?_,
      hans, hall⟩
    · rw [State.reply_rd, State.rd_consumed]
    · rw [State.reply_eq]; rfl
  case power =>
    intro s src p tgt hcur hst hup hfree hfm hlen hv htgt
    obtain ⟨htarget, harm, hlast⟩ := s.rd_armed (tgt := tgt) (by omega)
    obtain ⟨hans, hall⟩ := served_of_frame (s.armed_frame tgt) (by decide) (by decide) src 0xc020 rcSuccess
      (resultHeader 0 0 ++ [])
    refine ⟨_, congrArg Host.Outcome.next (State.setPowerState_arms ⟨hcur, hst, hup, hfree, rfl⟩ hlen hfm hv htgt), ?_, ?_,
      ?_, ?_, hans, hall⟩
    · rw [State.reply_rd, htarget]
    · rw [State.reply_rd, harm]
    · rw [State.reply_rd, hlast]
    · rw [State.reply_eq]; rfl
  case refused =>
    intro s src p hcur hst hup hfree hfm hlen
    obtain ⟨hans, hall⟩ := served_of_frame s.refused_frame (by decide) (by decide) src 0xc020 rcSuccess (resultHeader 1 0)
    refine ⟨_, congrArg Host.Outcome.next (State.setPowerState_refuses ⟨hcur, hst, hup, hfree, rfl⟩ hlen hfm), ?_, ?_,
      hans, hall⟩
    · rw [State.reply_rd, State.rd_raise_ne _ _ _ _ _ _ _ _ (by decide), State.rd_wr_same]; rfl
    · rw [State.reply_rd]; exact State.raise_testBit _ cRefused _ _ _ (by decide)

end Sys2Proof.Machine
end

section
/-!
PROOFS of O33: the scrubber and the sweep after a retention loss.
-/
namespace Sys2Proof.Safety
open Sys2Proof.Machine

theorem Frame.rdb {P : List Part} {K : Nat → Prop} {s t : State} (h : Frame P K s t) (f : Fld) (i k : Nat)
    (hk : ¬ K (f.key i k)) (hpmu : ¬ InBlock 14 (f.key i k)) : t.rdb f i k = s.rdb f i k := by
  rw [State.rdb, State.rdb, h.rd f i k hk hpmu]

end Sys2Proof.Safety

namespace Sys2Proof.Machine
open Sys2Proof.Safety

/-! ## The walkers' allowance (R260) -/

/-- The bulk walker and the near walker reach their cap in this pass with work left (R260). -/
def State.bulkLags (s : State) : Bool :=
  (gainAllow s.ras.bulkAllow (s.rd F.RAS_SCRUB_BULK_RATE)).2 && !s.ras.bulkBehind && s.nextBulk.isSome
def State.nearLags (s : State) : Bool :=
  (gainAllow s.ras.nearAllow (s.rd F.RAS_SCRUB_NEAR_RATE)).2 && !s.ras.nearBehind && s.nextNear.isSome

/-- Both allowances after an epoch. -/
def State.gained (s : State) : Ras :=
  { s.ras with
    bulkAllow := min (4 * s.rd F.RAS_SCRUB_BULK_RATE) (s.ras.bulkAllow + s.rd F.RAS_SCRUB_BULK_RATE),
    nearAllow := min (4 * s.rd F.RAS_SCRUB_NEAR_RATE) (s.ras.nearAllow + s.rd F.RAS_SCRUB_NEAR_RATE),
    bulkBehind := s.ras.bulkBehind || s.bulkLags, nearBehind := s.ras.nearBehind || s.nearLags }

/-- A walker that lags is reported. -/
def State.reportLag (s : State) (late : Bool) : State := if late then s.raise cScrubBehind else s

theorem State.ras_reportLag (s : State) (late : Bool) : (s.reportLag late).ras = s.ras := by
  cases late
  · rfl
  · exact s.ras_raise cScrubBehind none none []

theorem State.reportLag_frame (s : State) (late : Bool) :
    Frame [.ras, .evt] (fun key => key = (F.EVT_RAW_CAUSE 12).key 0 0) s (s.reportLag late) :=
  Frame.ite _ (fun _ => (Frame.refl _ _ s).raise _ _ _ _ (by decide) (.inl rfl)) fun _ => Frame.refl _ _ s

theorem State.execScrubAllowance_serving {s : State} (hserv : s.serving = true) :
    exec .scrubAllowance s = .next (((s.setRas s.gained).reportLag s.bulkLags).reportLag s.nearLags) :=
  congrArg Host.Outcome.next (if_neg (by simp [hserv]))

/-! ## The end of a pass -/

/-- A walker begins anew with x, its pass counted in cnt and reported (R262). -/
def State.passEnded (s : State) (x : Ras) (cnt : Fld) : State :=
  ((s.setRas x).wr cnt (s.rd cnt + 1)).raise cScrubPassDone

theorem State.endNearPass_ended {s : State} (h : s.nextNear = none) :
    s.endNearPass = s.passEnded { s.ras with nearPos := 0, nearBehind := false } F.RAS_SCRUB_STS_NEAR_PASSES := by
  rw [State.endNearPass, h]
  rfl

theorem State.endBulkPass_ended {s : State} (h : s.nextBulk = none) :
    s.endBulkPass = s.passEnded { s.ras with bulkPos := (0, 0), bulkBehind := false } F.RAS_SCRUB_STS_PASSES := by
  rw [State.endBulkPass, h]
  rfl

theorem State.passEnded_spec (s : State) (x : Ras) {cnt : Fld} (hcnt : cnt.key 0 0 ≠ (F.EVT_RAW_CAUSE 12).key 0 0)
    (hlt : s.rd cnt + 1 < 2 ^ cnt.width) :
    (s.passEnded x cnt).ras = x ∧ (s.passEnded x cnt).rd cnt = s.rd cnt + 1 ∧
      ((s.passEnded x cnt).rd (F.EVT_RAW_CAUSE cScrubPassDone.blk) 0).testBit cScrubPassDone.bit = true ∧
      Frame [.ras, .evt] (fun key => key = cnt.key 0 0 ∨ key = (F.EVT_RAW_CAUSE 12).key 0 0) s (s.passEnded x cnt) := by
  refine ⟨State.ras_raise _ _ _ _ _, ?_, State.raise_testBit _ cScrubPassDone _ _ _ (by decide), ?_⟩
  · rw [State.passEnded, State.rd_raise_ne _ cScrubPassDone _ _ _ _ _ _ hcnt, State.rd_wr_same, Nat.mod_eq_of_lt hlt]
  · exact (((Frame.refl _ _ s).setRas _ (by decide)).wr _ _ (.inl (.inl rfl))).raise _ _ _ _ (by decide) (.inl (.inr rfl))

/-! ## A unit of the near walker (R261) -/

theorem AdmFrame.setRas {s t : State} (h : AdmFrame s t) (x : Ras) : AdmFrame (s.setRas x) (t.setRas x) := by
  refine ⟨fun p hp => ?_, h.2⟩
  have hsame := h.1 p hp
  cases p with
  | ras => rfl
  | _ => exact hsame

/-- ADM's work moves no walker: the near one reads its position, the frames and registers of other blocks. -/
theorem AdmFrame.nextNear {s t : State} (h : AdmFrame s t) : t.nextNear = s.nextNear := by
  have hnear : t.near = s.near := h.1 .near (by decide)
  have hras : t.ras = s.ras := h.1 .ras (by decide)
  have htotal : t.rd F.SCR_FRAMES_TOTAL = s.rd F.SCR_FRAMES_TOTAL := h.rd _ _ _ (by decide) (by decide)
  have hmode : t.bulkOnly = s.bulkOnly := h.rdb _ _ _ (by decide) (by decide)
  have hchans : t.rd F.NTC_CONFIG_NCH = s.rd F.NTC_CONFIG_NCH := h.rd _ _ _ (by decide) (by decide)
  have hclam : t.rdb F.NTC_CONFIG_CLAMSHELL = s.rdb F.NTC_CONFIG_CLAMSHELL := h.rdb _ _ _ (by decide) (by decide)
  have hreserved : t.reservedFrames = s.reservedFrames := by
    rw [State.reservedFrames, State.reservedFrames, State.tableFrames, State.tableFrames, htotal, hmode, hchans, hclam]
  rw [State.nextNear, State.nextNear, hnear, hras, htotal, hreserved]

theorem State.execScrubUnit_near {s : State} (found : Found) (hserv : s.serving = true) (hrun : s.paused = false)
    (hrate : s.rd F.RAS_SCRUB_NEAR_RATE ≠ 0) (hsr : s.nearSr = 0) :
    exec (.scrubUnit .near found) s = .next (s.scrubNear found.lines) := by
  refine congrArg Host.Outcome.next ((if_neg (by simp [hserv, hrun])).trans (if_pos ⟨hrate, hsr⟩))

theorem State.execScrubUnit_bulk {s : State} (found : Found) (hserv : s.serving = true) (hrun : s.paused = false)
    (hrate : s.rd F.RAS_SCRUB_BULK_RATE ≠ 0) (hsr : s.bulkSr = 0) (haes : s.aesRuns = true) :
    exec (.scrubUnit .bulk found) s = .next (s.scrubBulk found.sectors found.pipes) := by
  refine congrArg Host.Outcome.next ((if_neg (by simp [hserv, hrun])).trans (if_pos ⟨hrate, hsr, haes⟩))

/-- The near walker after frame f. -/
def Ras.pastFrame (x : Ras) (f : Nat) : Ras := { x with nearAllow := x.nearAllow - 1, nearPos := f + 1 }

/-- A frame without a bad line costs one of the allowance, and the pass goes on while there is a next unit. -/
theorem State.scrubNear_clean {s : State} {f : Nat} (hnext : s.nextNear = some f) (hallow : s.ras.nearAllow ≠ 0)
    (hbar : s.barred 19 13 (s.pairBucket 19 13) 4096 1 = 0)
    (hmore : (s.setRas (s.ras.pastFrame f)).nextNear.isSome = true) :
    AdmFrame (s.setRas (s.ras.pastFrame f)) (s.scrubNear []) ∧ (s.scrubNear []).adm.taken = s.adm.taken + 1 := by
  obtain ⟨s1, hadmit, hframe, htaken, -⟩ := State.admitInternal_of_free (by decide : 13 < 16) hbar
  obtain ⟨hleave, hkept, -⟩ := AdmWork.leaveInternal (s1.setRas (s1.ras.pastFrame f)) (by decide : 13 < 16)
  have hras : s1.ras = s.ras := hframe.1 .ras (by decide)
  have hdone : AdmFrame (s.setRas (s.ras.pastFrame f)) ((s1.setRas (s1.ras.pastFrame f)).leaveInternal 13 false) := by
    rw [hras] at hleave ⊢
    exact (hframe.setRas _).trans hleave
  have hgoes : s.scrubNear [] = (s1.setRas (s1.ras.pastFrame f)).leaveInternal 13 false := by
    rw [State.scrubNear, hnext]
    simp only [hallow, hadmit, if_false]
    refine Eq.trans (b := ((s1.setRas (s1.ras.pastFrame f)).leaveInternal 13 false).endNearPass) rfl ?_
    rw [State.endNearPass, hdone.nextNear, if_pos hmore]
  rw [hgoes]
  exact ⟨hdone, hkept.trans htaken⟩

/-! ## A run goes back (R79, R255) -/

/-- The keys of RAS's and TMU's registers. -/
abbrev RunKeys (key : Nat) : Prop := InBlock 12 key ∨ InBlock 6 key

/-- Work on the sectors of a tile: of TMU it changes the allocator, no tile's entry and no wait. -/
structure RunWork (s t : State) : Prop where
  frame : Frame [.tmu, .ras, .evt] RunKeys s t
  cache : t.tmu.cache = s.tmu.cache
  map : t.tmu.map = s.tmu.map
  waits : t.tmu.waits = s.tmu.waits

theorem RunWork.refl (s : State) : RunWork s s := ⟨Frame.refl _ _ s, rfl, rfl, rfl⟩

theorem RunWork.trans {s t u : State} (h : RunWork s t) (h' : RunWork t u) : RunWork s u :=
  ⟨h.frame.trans h'.frame, h'.cache.trans h.cache, h'.map.trans h.map, h'.waits.trans h.waits⟩

/-- What leaves TMU's data is such work. -/
theorem RunWork.of_frame {s t : State} (h : Frame [.ras, .evt] RunKeys s t) : RunWork s t := by
  have htmu : t.tmu = s.tmu := h.1 .tmu (by decide)
  exact ⟨h.mono (by decide) fun _ hk => hk, by rw [htmu], by rw [htmu], by rw [htmu]⟩

theorem RunWork.setTmu (s : State) (x : Tmu) (hcache : x.cache = s.tmu.cache) (hmap : x.map = s.tmu.map)
    (hwaits : x.waits = s.tmu.waits) : RunWork s (s.setTmu x) :=
  ⟨(Frame.refl _ _ s).setTmu _ (by decide), hcache, hmap, hwaits⟩

theorem RunWork.foldl {α : Type} (f : State → α → State) (l : List α) (s : State) (h : ∀ s x, RunWork s (f s x)) :
    RunWork s (l.foldl f s) := by
  induction l generalizing s with
  | nil => exact RunWork.refl s
  | cons x l ih => exact (h s x).trans (ih _)

theorem RunWork.setPool (s : State) (n : Nat) (l : List Nat) : RunWork s (s.setPool n l) :=
  (RunWork.setTmu s _ rfl rfl rfl).trans (RunWork.setTmu _ _ rfl rfl rfl)

theorem RunWork.freeRun (s : State) (a n : Nat) : RunWork s (s.freeRun a n) := by
  unfold State.freeRun
  split
  · exact RunWork.refl s
  · have hpooled := RunWork.setPool s n (a :: s.pool n)
    dsimp only
    split
    · exact (hpooled.trans (RunWork.foldl _ _ _ fun u e => RunWork.setPool u _ _)).trans
        (RunWork.setTmu _ _ rfl rfl rfl)
    · exact hpooled

theorem State.reserveUse_frame (s : State) (n : Nat) : Frame [.ras, .evt] RunKeys s (s.reserveUse n) := by
  have hfell : Frame [.ras, .evt] RunKeys s (s.wr F.RAS_RESERVE2_REMAIN (s.rd F.RAS_RESERVE2_REMAIN - n)) :=
    (Frame.refl _ _ s).wr _ _ (by decide)
  exact Frame.ite _ (fun _ => hfell.raise _ _ _ _ (by decide) (by decide)) fun _ => hfell

/-- A reserve chunk is released, or RESERVE_EXHAUSTED raised (R255). -/
theorem RunWork.releaseChunk (s : State) : RunWork s s.releaseChunk := by
  unfold State.releaseChunk
  split
  · dsimp only
    refine RunWork.trans ?_ (RunWork.of_frame ((((Frame.refl _ _ _).log _ _ (by decide) (by decide) (by decide)
      (by decide) (by decide)).raise _ _ _ _ (by decide) (by decide)).trans (State.reserveUse_frame _ _)))
    refine RunWork.trans ?_ (RunWork.setTmu _ _ rfl rfl rfl)
    exact RunWork.of_frame ((Frame.refl _ _ s).setRas _ (by decide))
  · exact RunWork.of_frame ((Frame.refl _ _ s).raise _ _ _ _ (by decide) (by decide))

theorem RunWork.retireRun (s : State) (a n : Nat) : RunWork s (s.retireRun a n) := by
  unfold State.retireRun
  split
  · exact RunWork.refl s
  · have hretired := RunWork.setTmu s { s.tmu with retired := (a, n) :: s.tmu.retired } rfl rfl rfl
    dsimp only
    split
    · exact (hretired.trans (RunWork.of_frame ((Frame.refl _ _ _).setRas _ (by decide)))).trans
        (RunWork.releaseChunk _)
    · exact hretired

/-- The registers of an ELASTIC region's account (R80, R83) are TMU's. -/
theorem inBlock_account : ∀ r < 64, InBlock 6 (F.TMU_RGN_USED_USED.key r 0) ∧ InBlock 6 (F.TMU_RGN_THRESH_LEVEL.key r 0) := by
  decide

theorem State.level_frame (s : State) {r : Nat} (hr : r < 64) (before : Nat) :
    Frame [.ras, .evt] RunKeys s (s.level r before) := by
  have hlevel : ∀ v, Frame [.ras, .evt] RunKeys s (s.wrI F.TMU_RGN_THRESH_LEVEL r v) := fun v =>
    (Frame.refl _ _ s).wrI _ _ _ (.inl (.inr (inBlock_account r hr).2))
  exact Frame.ite _ (fun _ => ((hlevel _).wr _ _ (by decide)).raise _ _ _ _ (by decide) (by decide)) fun _ => hlevel _

theorem State.unclaim_frame (s : State) {r : Nat} (hr : r < 64) (n : Nat) :
    Frame [.ras, .evt] RunKeys s (s.unclaim r n) :=
  Frame.ite _ (fun _ => ((Frame.refl _ _ s).wrI _ _ _ (.inl (.inr (inBlock_account r hr).1))).trans
    (State.level_frame _ hr _)) fun _ => Frame.refl _ _ s

theorem RunWork.returnRun (s : State) {r : Nat} (hr : r < 64) (t : Tme) : RunWork s (s.returnRun r t) := by
  unfold State.returnRun
  split
  · exact RunWork.refl s
  · have hunclaimed := RunWork.of_frame (s.unclaim_frame hr t.len)
    dsimp only
    split
    · exact hunclaimed.trans (RunWork.retireRun _ _ _)
    · exact hunclaimed.trans (RunWork.freeRun _ _ _)

/-! ## A tile is poisoned (R236) -/

/-- A tile's entry once it is wholly poisoned, where it had no fixed slot. -/
def Tme.poisoned (t : Tme) : Tme :=
  { t with loc := 0, len := 0, fmt := .zero, poison := true, tcs := 0, tag := 0, unmat := false, retired := false }

/-- An entry that neither the cache nor the map has is one without a run. -/
theorem State.len_tme_congr {s t : State} {slot tile : Nat}
    (hcache : mget t.tmu.cache (tkey slot tile) = mget s.tmu.cache (tkey slot tile)) (hmap : t.tmu.map = s.tmu.map) :
    (t.tme slot tile).len = (s.tme slot tile).len := by
  have hinit : ∀ u : State, (u.initTme slot tile).len = 0 := fun u => by
    unfold State.initTme
    split <;> rfl
  rw [State.tme, State.tme, hcache]
  split
  · rfl
  · rw [State.mapTme, State.mapTme, hmap]
    split
    · rfl
    · rw [hinit, hinit]

theorem mget_putDirty_ne (x : Tmu) {key other : Nat} (h : other ≠ key) (ent : CacheEnt) (t : Tme) :
    mget (x.putDirty key ent t).cache other = mget x.cache other :=
  (mget_mput_ne _ _ h).trans (mget_mput_ne _ _ h)

section
variable {s : State} {r y : Nat} {ent : CacheEnt} (hr : r < 64) (hent : mget s.tmu.cache (tkey r y) = some ent)
  (hdirty : ent.dirty = true) (hnear : ent.tme.nv = false) (hslots : s.fixedSlots r = false)
include hent hdirty hnear hslots

/-- A tile that stands in no frame and whose entry is cached and dirty: its run goes back, its entry is replaced in the cache
and POISON_CREATED is raised. -/
theorem State.poisonTile_eq (hcache : (s.returnRun r ent.tme).tmu.cache = s.tmu.cache) :
    s.poisonTile r y =
      (((s.returnRun r ent.tme).setTmu ((s.returnRun r ent.tme).tmu.putDirty (tkey r y) ent ent.tme.poisoned)).bump
        F.RAS_POISON_CNT_TILES).raise cPoisonCreated (region := some r) := by
  have hput := State.setTme_cached (s := s.returnRun r ent.tme) (by rw [hcache]; exact hent) hdirty ent.tme.poisoned
  rw [← hput]
  simp only [State.poisonTile, Tme.poisoned, State.tme_of_cached hent, hnear, hslots, Bool.false_eq_true, if_false]

include hr

/-- The poisoned tile's entry, and what stays: the lengths of the region's other tiles, the waits. -/
theorem State.poisonTile_spec : (s.poisonTile r y).tme r y = ent.tme.poisoned ∧
    (∀ x ≠ y, ((s.poisonTile r y).tme r x).len = (s.tme r x).len) ∧ (s.poisonTile r y).tmu.waits = s.tmu.waits ∧
    Frame [.tmu, .ras, .evt] RunKeys s (s.poisonTile r y) := by
  obtain ⟨hframe, hcache, hmap, hwaits⟩ := RunWork.returnRun s hr ent.tme
  rw [State.poisonTile_eq hent hdirty hnear hslots hcache]
  generalize s.returnRun r ent.tme = s1 at *
  have hreport : Frame [.ras, .evt] RunKeys (s1.setTmu (s1.tmu.putDirty (tkey r y) ent ent.tme.poisoned))
      (((s1.setTmu (s1.tmu.putDirty (tkey r y) ent ent.tme.poisoned)).bump F.RAS_POISON_CNT_TILES).raise cPoisonCreated
        (region := some r)) :=
    ((Frame.refl _ _ _).bump _ _ _ _ _ _ (by decide) (by decide) (by decide)).raise _ _ _ _ (by decide) (by decide)
  have htmu := hreport.1 .tmu (by decide)
  generalize ((s1.setTmu (s1.tmu.putDirty (tkey r y) ent ent.tme.poisoned)).bump F.RAS_POISON_CNT_TILES).raise
    cPoisonCreated (region := some r) = u at *
  change u.tmu = s1.tmu.putDirty (tkey r y) ent ent.tme.poisoned at htmu
  refine ⟨?_, fun x hx => State.len_tme_congr ?_ ?_, ?_, ?_⟩
  · exact State.tme_of_cached (ent := { ent with used := s1.tmu.clock, tme := ent.tme.poisoned, dirty := true })
      (by rw [htmu]; exact mget_mput_same _ _ _)
  · have hkey : tkey r x ≠ tkey r y := fun h => hx (Nat.add_left_cancel h)
    rw [htmu, mget_putDirty_ne _ hkey, hcache]
  · rw [htmu]; exact hmap
  · rw [htmu]; exact hwaits
  · exact (hframe.setTmu _ (by decide)).trans (hreport.mono (by decide) fun _ hk => hk)

end

/-! ## The sweep (R265) -/

/-- Nothing goes on where no wait is selected. -/
theorem State.resumeWhy_none {s : State} {sel : Waiting → Bool} (h : ∀ w ∈ s.tmu.waits, sel w = false) :
    s.resumeWhy sel = s := by
  rw [State.resumeWhy, List.filter_eq_nil_iff.2 fun w hw => by simp [h w hw]]
  rfl

/-- A step of the sweep that nothing waits for. -/
theorem State.execRetentionSweepStep_eq {s : State} {p : Nat × Nat} (hserv : s.serving = true) (hsr : s.bulkSr = 0)
    (hsweep : s.ras.sweep = some p) (hwaits : (s.sweepStep p.1 p.2).tmu.waits = s.tmu.waits)
    (hnone : ∀ w ∈ s.tmu.waits, w.why ≠ .retention) : exec .retentionSweepStep s = .next (s.sweepStep p.1 p.2) := by
  refine congrArg Host.Outcome.next ?_
  have hidle := State.resumeWhy_none (s := s.sweepStep p.1 p.2)
    (sel := fun w => decide (w.why = .retention) && !(s.sweepStep p.1 p.2).unswept w.slot w.tile)
    fun w hw => by simp [hnone w (hwaits ▸ hw)]
  simp only [hsweep, hserv, hsr, and_self, if_true]
  exact hidle

theorem State.sweepStep_ended {s : State} {r x : Nat} (h : s.sweepRegion r = none) : s.sweepStep r x = s.sweepDone := by
  rw [State.sweepStep, h]

/-- The first map sector from k on that the sweep acts on, in a region (R265). -/
def State.nextSwept (s : State) (r k : Nat) : Option Nat :=
  ((List.range (s.rgnTiles r / 2 - k)).map (k + ·)).find? (s.sweepHits r)

/-- In a region that it visits the sweep acts on the next map sector, or goes on to the next region. The number of tiles is
kept opaque: the kernel would unroll the product by 262,144. -/
theorem State.sweepStep_inside {s : State} {r : Nat} (x : Nat) (h : s.sweepRegion r = some r) :
    s.sweepStep r x = (s.nextSwept r (x / 2)).elim
      ((s.sweepRegion (r + 1)).elim s.sweepDone fun q => s.setRas { s.ras with sweep := some (q, 0) })
      fun k => (s.sweepSector r k).setRas { (s.sweepSector r k).ras with sweep := some (r, 2 * k + 2) } := by
  obtain ⟨tiles, htiles⟩ : ∃ tiles, tiles = s.rgnTiles := ⟨_, rfl⟩
  unfold State.sweepStep State.nextSwept
  rw [← htiles, h]
  dsimp only
  rw [if_pos rfl]
  cases ((List.range (tiles r / 2 - x / 2)).map (x / 2 + ·)).find? (s.sweepHits r) with
  | some k => rfl
  | none => cases s.sweepRegion (r + 1) <;> rfl

theorem State.sweepStep_passed {s : State} {r x q : Nat} (h : s.sweepRegion r = some r)
    (hleft : s.nextSwept r (x / 2) = none) (hnext : s.sweepRegion (r + 1) = some q) :
    s.sweepStep r x = s.setRas { s.ras with sweep := some (q, 0) } := by
  rw [State.sweepStep_inside x h, hleft, hnext, Option.elim_none, Option.elim_some]

theorem State.sweepStep_acts {s : State} {r x k : Nat} (h : s.sweepRegion r = some r)
    (hhit : s.nextSwept r (x / 2) = some k) :
    s.sweepStep r x = (s.sweepSector r k).setRas { (s.sweepSector r k).ras with sweep := some (r, 2 * k + 2) } := by
  rw [State.sweepStep_inside x h, hhit, Option.elim_some]

theorem State.lt_of_sweepRegion {s : State} {r q : Nat} (h : s.sweepRegion r = some q) : q < 64 :=
  List.mem_range.1 (List.mem_of_find?_eq_some h)

theorem State.sweepDone_spec (s : State) : s.sweepDone.ras = { s.ras with sweep := none } ∧
    (s.sweepDone.rd (F.EVT_RAW_CAUSE cRetentionSweepDone.blk) 0).testBit cRetentionSweepDone.bit = true ∧
    Frame [.ras, .evt] (fun key => key = (F.EVT_RAW_CAUSE 12).key 0 0) s s.sweepDone :=
  ⟨State.ras_raise _ _ _ _ _, State.raise_testBit _ cRetentionSweepDone _ _ _ (by decide),
    ((Frame.refl _ _ s).setRas _ (by decide)).raise _ _ _ _ (by decide) (.inl rfl)⟩

/-- A run with a sector in a listed bank. -/
def State.runListed (s : State) (t : Tme) : Bool := (List.range t.len).any fun i => s.sectorListed (t.loc + i)

theorem State.runListed_nil (s : State) {t : Tme} (h : t.len = 0) : s.runListed t = false := by
  rw [State.runListed, h]
  rfl

/-- Of the two tiles of a map sector only the one whose run is listed is poisoned. -/
theorem State.sweepSector_one {s : State} {r k y : Nat} (hmap : s.sectorListed (s.rd F.TMU_RGN_MAPLOC_LOC r + k) = false)
    (hy : y = 2 * k ∨ y = 2 * k + 1) (hlisted : s.runListed (s.tme r y) = true)
    (hother : (s.tme r (4 * k + 1 - y)).len = 0) (hkept : ((s.poisonTile r y).tme r (4 * k + 1 - y)).len = 0) :
    s.sweepSector r k = s.poisonTile r y := by
  have htiles : s.sweepSector r k = [2 * k, 2 * k + 1].foldl
      (fun s t => if s.runListed (s.tme r t) then s.poisonTile r t else s) s := if_neg (by simp [hmap])
  rw [htiles, List.foldl_cons, List.foldl_cons, List.foldl_nil]
  rcases hy with rfl | rfl
  · rw [show 4 * k + 1 - 2 * k = 2 * k + 1 by omega] at hkept
    rw [if_pos hlisted, State.runListed_nil _ hkept, if_neg Bool.false_ne_true]
  · rw [show 4 * k + 1 - (2 * k + 1) = 2 * k by omega] at hother
    rw [State.runListed_nil _ hother, if_neg Bool.false_ne_true, if_pos hlisted]

/-! ## The commands -/

/-- Settles O33, command by command: what each step of a walker or of the sweep leaves is named, and its frame follows. -/
theorem scrubbing : Obligations.Scrubbing := by
  unfold Obligations.Scrubbing
  refine ⟨?allowance, ?unit, ?nearPass, ?bulkPass, ?swept, ?nextRegion, ?poisoned⟩
  case allowance =>
    intro s hserv
    have hras : (((s.setRas s.gained).reportLag s.bulkLags).reportLag s.nearLags).ras = s.gained :=
      (State.ras_reportLag _ _).trans (State.ras_reportLag _ _)
    refine ⟨_, State.execScrubAllowance_serving hserv, ?_⟩
    rw [hras]
    exact ⟨rfl, rfl, rfl, rfl, rfl, (((Frame.refl _ _ s).setRas _ (by decide)).trans (State.reportLag_frame _ _)).trans
      (State.reportLag_frame _ _)⟩
  case unit =>
    intro s f e hserv hrun hrate hsr hnext _ hallow hbar hmore
    obtain ⟨hframe, htaken⟩ := State.scrubNear_clean hnext hallow hbar hmore
    exact ⟨_, State.execScrubUnit_near _ hserv hrun hrate hsr, hframe.1 .ras (by decide),
      hframe.1 .near (by decide), htaken,
      ((Frame.refl _ _ s).setRas _ (by decide)).trans (hframe.mono (by decide) fun _ hk => hk)⟩
  case nearPass =>
    intro s found hserv hrun hrate hsr hnext hlt
    refine ⟨_, (State.execScrubUnit_near found hserv hrun hrate hsr).trans (congrArg _ ?_),
      s.passEnded_spec _ (by decide) hlt⟩
    rw [State.scrubNear, hnext]
    exact State.endNearPass_ended hnext
  case bulkPass =>
    intro s found hserv hrun hrate hsr haes hnext hlt
    refine ⟨_, (State.execScrubUnit_bulk found hserv hrun hrate hsr haes).trans (congrArg _ ?_),
      s.passEnded_spec _ (by decide) hlt⟩
    rw [State.scrubBulk, hnext]
    exact State.endBulkPass_ended hnext
  case swept =>
    intro s p hserv hsr hsweep hregion hnone
    have hstep := State.sweepStep_ended (x := p.2) hregion
    have hframe := s.sweepDone_spec.2.2
    refine ⟨_, (State.execRetentionSweepStep_eq hserv hsr hsweep ?_ hnone).trans (congrArg _ hstep), s.sweepDone_spec⟩
    rw [hstep, (hframe.1 .tmu (by decide) : s.sweepDone.tmu = s.tmu)]
  case nextRegion =>
    intro s r x q hserv hsr hsweep hregion hleft hnext hnone
    have hstep := State.sweepStep_passed hregion hleft hnext
    refine ⟨_, (State.execRetentionSweepStep_eq hserv hsr hsweep ?_ hnone).trans (congrArg _ hstep), rfl,
      (Frame.refl _ _ s).setRas _ (by decide)⟩
    rw [hstep]; rfl
  case poisoned =>
    intro s r x k y ent hserv hsr hsweep hregion hhit hmap hy hent hdirty hlisted hnv hslots hother hnone
    have hr := State.lt_of_sweepRegion hregion
    obtain ⟨htme, hlens, hwaits, hframe⟩ := State.poisonTile_spec hr hent hdirty hnv hslots
    have hsector : s.sweepSector r k = s.poisonTile r y :=
      State.sweepSector_one hmap hy (by rw [State.tme_of_cached hent]; exact hlisted) hother
        ((hlens _ (by omega)).trans hother)
    have hstep := State.sweepStep_acts hregion hhit
    rw [hsector] at hstep
    refine ⟨_, (State.execRetentionSweepStep_eq hserv hsr hsweep ?_ hnone).trans (congrArg _ hstep), rfl, ?_⟩
    · rw [hstep]; exact hwaits
    have htme' : ((s.poisonTile r y).setRas { (s.poisonTile r y).ras with sweep := some (r, 2 * k + 2) }).tme r y =
        ent.tme.poisoned := htme
    rw [htme']
    exact ⟨rfl, rfl, rfl, rfl, hframe.1 .near (by decide), congrArg Bulk.mem (hframe.1 .bulk (by decide)),
      (hframe.mono (by decide) fun _ hk => .inr (.inr hk)).setRas _ (by decide)⟩

end Sys2Proof.Machine
end

section
/-!
REFUTATIONS of O32 and O34: a PMIC fault before the unit has been active, and a read that waits for the row that is remapped.
-/
namespace Sys2Proof.Machine
open Sys2Proof.Safety

/-! ## A PMIC fault before the unit has been active -/

/-- What a command leaves, seen through f. -/
def State.after {α : Type} (s : State) (c : Instr) (f : State → α) : Option α :=
  match exec c s with
  | .next t => some (f t)
  | _ => none

theorem State.eq_of_after {α : Type} {s t : State} {c : Instr} {f : State → α} {x : α} (ha : s.after c f = some x)
    (h : exec c s = .next t) : f t = x := by
  rw [State.after, h] at ha
  exact Option.some.inj ha

/-- Out of reset and not yet active, SPD of DIMM 3 has answered. -/
def bootingDimm : State :=
  (State.reset.setAon { State.reset.aon with held := false }).wrI F.BTC_DIMM_ID_PRESENT 3 1

/-- Before MEM_ACTIVE a warm cause restarts the boot (R506): the unit is held in reset at once. -/
theorem pmicPowerFault_bootingDimm :
    bootingDimm.after (.pmicPowerFault 3) (fun t => (t.aon.quiescing, t.aon.held)) = some (false, true) := by
  decide +kernel

/-- Refutes O32: in bootingDimm memory has never been active, so the warm reset that a PMIC fault requests starts without a
quiesce, which the clause of PMIC_POWER_FAULT claims. The clause lacks that the unit is or was active. -/
theorem not_dramStatus : ¬ Obligations.DramStatus := by
  unfold Obligations.DramStatus
  rintro ⟨-, hfault, -⟩
  obtain ⟨t, hexec, -, -, -, -, hquiescing, -⟩ := hfault bootingDimm 3 (by decide) (by decide) (by decide) (by decide) rfl rfl
  have hafter := congrArg Prod.fst (State.eq_of_after pmicPowerFault_bootingDimm hexec)
  exact absurd (hquiescing.symm.trans hafter) (by decide)

/-! ## A read that waits for a row copy -/

/-- Row 1 of bank 1 is being copied to spare row 995. -/
def copiedRow : RowCopy := { ch := 0, entry := 2, subB := false, set := 0, bank := 1, row := 1, spare := 995 }

/-- A tile stored raw in that row. -/
def rowTile : Tme := { farTme 0 with len := 64, loc := 8192 }

/-- A host read of tile 2 of region 1 that waits for the row. -/
def rowWait : Waiting :=
  { req := { State.reset.hostReq .read 0 0 8256 { mv := .invalid, err := .none } 6 with
      id := 3, cls := 2, unit := 1, hold := some (1, 0) },
    why := .remap, slot := 1, tile := 2 }

/-- Region 1 is ELASTIC and ACTIVE, and its tile 2 is rowTile. -/
def rowCopying : State :=
  let s := (State.reset.setAon { State.reset.aon with held := false }).wr F.CTL_HEALTH_MEM_ACTIVE 1
  let s := (s.wrI F.TMU_RGN_MAP_TYPE 1 2).wrI F.TMU_RGN_MAP_STATE 1 1
  let s := (s.wr F.BTC_CONFIG_CH_ACTIVE 1).wr F.BTC_CONFIG_NCH 1
  let s := s.setBulk { s.bulk with
    sets := [{ id := 0, slot := 0, rank := 0, first := 0, sectors := 8192000, rows := 1000, usable := true }] }
  let s := s.setTmu { s.tmu with cache := [(tkey 1 2, { tme := rowTile, dirty := false, used := 0 })], waits := [rowWait] }
  s.setRas { s.ras with copies := [copiedRow] }

/-- The tile lies in the row under copy; once the row is copied the read waits for its promotion instead. -/
theorem rowRemapCopyDone_rowCopying : rowCopying.underCopy rowTile = true ∧
    rowCopying.after (.rowRemapCopyDone 0 2) (fun t => t.tmu.waits.map (·.why)) = some [.promo] := by
  decide +kernel

/-- Refutes O34: in rowCopying a read waits for the row that is copied, and ROW_REMAP_COPY_DONE lets it proceed, as
step 4 of R252 has it; that changes TMU, outside the frame of the clause, which lacks that nothing waits for the row. -/
theorem not_rowAndRankRepair : ¬ Obligations.RowAndRankRepair := by
  unfold Obligations.RowAndRankRepair
  rintro ⟨hcopy, -⟩
  obtain ⟨t, hexec, -, -, -, -, -, -, -, hframe⟩ := hcopy rowCopying 0 2 copiedRow (by decide) (by decide) rfl rfl rfl
    (by decide) (by decide) (by decide) (by decide) (by decide) (by decide) (by decide +kernel) (by decide)
  have htmu : t.tmu = rowCopying.tmu := hframe.1 .tmu (by decide)
  have hwaits : t.tmu.waits.map (·.why) = [.promo] := State.eq_of_after rowRemapCopyDone_rowCopying.2 hexec
  rw [htmu] at hwaits
  exact absurd hwaits (by decide)

end Sys2Proof.Machine
end

section
/-!
PROOFS of O18: the commands of a mailbox that report. They answer and leave the state as it was.
-/
namespace Sys2Proof.Machine
open Sys2Proof.Safety

/-! ## A command that only reports -/

/-- A report is the answer and nothing else. -/
theorem reported (s : State) (src : MboxSrc) (op rc : Nat) (out : List Byte) :
    Answered s (s.reply src op rc out) src op rc out ∧
      Frame [.out, .hlx] (fun _ => False) s (s.reply src op rc out) :=
  served_of_frame (Frame.refl [] _ s) (by simp) (by simp) src op rc out

theorem State.getInfo_reports {s : State} {h l : Nat} (hr : MboxReady s (.ld h l) .free) :
    s.getInfo (.ld h l) [] = s.reply (.ld h l) 0xc000 rcSuccess (resultHeader 0 0 ++
      (leBytes 2 Config.avsarVersion ++ leBytes 1 ((List.range 64).filter (fun r => decide (s.rgnState r = 0))).length ++
        leBytes 1 (b2n s.vk4) ++ leBytes 1 (s.ldCount h) ++ leBytes 3 0 ++
        leBytes 4 (s.rd F.HLX_LD_QUEUES_QFIRST (hl h l)) ++ leBytes 4 (s.rd F.HLX_LD_QUEUES_QCOUNT (hl h l)))) := by
  rw [State.getInfo]
  exact State.avsar_ok hr (len := 0) (p := []) rfl rfl

/-- GET_SPD of bytes that a present DIMM has. -/
theorem State.getSpd_reports {s : State} {src : MboxSrc} (hr : MboxReady s src (.perm 0)) {p : List Byte}
    (hlen : p.length = 8) (hdimm : numAt p 0 2 ≤ 31) (hlo : 1 ≤ numAt p 4 4) (hhi : numAt p 4 4 ≤ 1024)
    (hpresent : s.rd F.BTC_DIMM_ID_PRESENT (numAt p 0 2) = 1) :
    s.getSpd src p = s.reply src 0xc034 rcSuccess (resultHeader 0 0 ++
      (List.range (numAt p 4 4)).map (fun i => Config.spd (numAt p 0 2) (numAt p 2 2 + i))) := by
  have hcount : ¬ (numAt p 4 4 = 0 ∨ 1024 < numAt p 4 4) := by omega
  rw [State.getSpd]
  refine State.avsar_ok hr hlen ?_
  simp [State.rdb, Nat.not_lt.2 hdimm, hcount, hpresent]

theorem State.getPowerState_reports {s : State} {src : MboxSrc} (hr : MboxReady s src .free) :
    s.getPowerState src [] = s.reply src 0xc021 rcSuccess (resultHeader 0 0 ++
      (leBytes 4 0 ++ leBytes 4 (s.rd F.AON_PWR_STS_LAST_WAKE))) := by
  have hcur : s.cur = 0 := hr.cur
  refine State.avsar_ok hr (p := []) rfl ?_
  simp only [hcur]

theorem State.regionQuery_reports {s : State} {h l : Nat} (hr : MboxReady s (.ld h l) .free) {p : List Byte}
    (hlen : p.length = 4) (hlt : numAt p 0 4 < 64) (hheld : s.slotHeld (numAt p 0 4) = false)
    (hadmits : s.admits h l (numAt p 0 4) = true) :
    s.regionQuery (.ld h l) p = s.reply (.ld h l) 0xc005 rcSuccess (resultHeader 0 0 ++
      (List.range 8).flatMap (fun i => leBytes 8 (s.regWord 6 (1 + numAt p 0 4) (0x40 + 8 * i)))) := by
  rw [State.regionQuery]
  refine State.avsar_ok hr hlen ?_
  simp [srcLd, Nat.not_lt.2 (Nat.le_of_lt_succ hlt), hadmits, hheld]

theorem State.getErrorLog_reports {s : State} {src : MboxSrc} (hr : MboxReady s src .fmOrDiag) {p : List Byte}
    (hlen : p.length = 4) (hlo : 1 ≤ numAt p 0 4) (hhi : numAt p 0 4 ≤ 63) :
    s.getErrorLog src p = s.reply src 0xc040 rcSuccess (resultHeader 0 0 ++
      (leBytes 4 (min (numAt p 0 4) s.unread) ++ (List.range (min (numAt p 0 4) s.unread)).flatMap
        (fun i => (s.recordAt ((s.rd F.RAS_LOG_CONS + i) % 1024)).bytes))) := by
  have hcount : ¬ (numAt p 0 4 < 1 ∨ 63 < numAt p 0 4) := by omega
  rw [State.getErrorLog]
  exact State.avsar_ok hr hlen (if_neg hcount)

/-- An issuer that lacks permission b is told so: DENIED with DETAIL b (R299). -/
theorem State.avsar_denied {s : State} {src : MboxSrc} {need : Need} {b : Nat} (hcur : s.rd F.AON_PWR_MODE_CUR = 0)
    (hst : s.aon.entry.stage = 0) (hup : s.mboxUp src = true) (hfree : s.mboxBusy src = false)
    (hlacks : s.lacks src need = some b) {op len : Nat} {p : List Byte} (hlen : p.length = len) (f : State → Ans) :
    s.avsar src op len need p f = s.reply src op rcSuccess (resultHeader 1 b) := by
  simp [State.avsar, s.knock_of_idle 1 hcur hst, hup, hfree, hlen, hlacks]

theorem State.getSpd_denied {s : State} {src : MboxSrc} (hcur : s.rd F.AON_PWR_MODE_CUR = 0)
    (hst : s.aon.entry.stage = 0) (hup : s.mboxUp src = true) (hfree : s.mboxBusy src = false)
    (hlacks : s.lacks src (.perm 0) = some 0) {p : List Byte} (hlen : p.length = 8) :
    s.getSpd src p = s.reply src 0xc034 rcSuccess (resultHeader 1 0) := by
  rw [State.getSpd]
  exact State.avsar_denied hcur hst hup hfree hlacks hlen _

/-! ## The commands -/

/-- Settles O18, command by command: each answers from the state as it stands. -/
theorem mailboxInfo : Obligations.MailboxInfo := by
  unfold Obligations.MailboxInfo
  refine ⟨?info, ?spd, ?power, ?region, ?log, ?denied⟩
  case info =>
    intro s h l hcur hst hup hfree
    exact ⟨_, congrArg Host.Outcome.next (State.getInfo_reports ⟨hcur, hst, hup, hfree, rfl⟩), reported s _ _ _ _⟩
  case spd =>
    intro s src p d off n hcur hst hup hfree hperm hlen hd hoff hn hd31 hlo hhi hpresent
    subst hd hoff hn
    exact ⟨_, congrArg Host.Outcome.next (State.getSpd_reports ⟨hcur, hst, hup, hfree, hperm⟩ hlen hd31 hlo hhi hpresent),
      reported s _ _ _ _⟩
  case power =>
    intro s src hcur hst hup hfree
    exact ⟨_, congrArg Host.Outcome.next (State.getPowerState_reports ⟨hcur, hst, hup, hfree, rfl⟩), reported s _ _ _ _⟩
  case region =>
    intro s h l p r hcur hst hup hfree hlen hr hlt hheld hadmits
    subst hr
    exact ⟨_, congrArg Host.Outcome.next (State.regionQuery_reports ⟨hcur, hst, hup, hfree, rfl⟩ hlen hlt hheld hadmits),
      reported s _ _ _ _⟩
  case log =>
    intro s src p n hcur hst hup hfree hperm hlen hlo hhi hn
    subst hn
    exact ⟨_, congrArg Host.Outcome.next (State.getErrorLog_reports ⟨hcur, hst, hup, hfree, hperm⟩ hlen hlo hhi),
      reported s _ _ _ _⟩
  case denied =>
    intro s src p hcur hst hup hfree hlen hlacks
    exact ⟨_, congrArg Host.Outcome.next (State.getSpd_denied hcur hst hup hfree hlacks hlen), reported s _ _ _ _⟩

end Sys2Proof.Machine
end

section
/-!
PROOFS of O23: offers, grants and releases of dynamic capacity.
-/
namespace Sys2Proof.Machine
open Sys2Proof.Safety

/-! ## A CXL command that is served -/

/-- A mailbox that is ready runs a CXL command and answers from the state that it leaves. -/
theorem State.cxlCommand_served {s : State} {h l : Nat} (hr : MboxReady s (.ld h l) .free) {op : Nat}
    {f : State → State × Nat × List Byte} {t : State} {rc : Nat} {out : List Byte} (hf : f s = (t, rc, out)) :
    s.cxlCommand h l op f = t.reply (.ld h l) op rc out := by
  simp [State.cxlCommand, s.knock_of_idle 1 hr.cur hr.stage, hr.up, hr.free, hf]

/-! ## A grant (R80, R86) -/

/-- The keys that following USED by LEVEL may write (R83). -/
abbrev LevelKeys (r key : Nat) : Prop :=
  key = F.TMU_RGN_THRESH_LEVEL.key r 0 ∨ key = F.TMU_PRESS_PEND_SLOT.key 0 0 ∨ key = (F.EVT_RAW_CAUSE 6).key 0 0

theorem State.level_keys (s : State) (r before : Nat) : Frame [.evt] (LevelKeys r) s (s.level r before) := by
  have hlevel : ∀ v, Frame [.evt] (LevelKeys r) s (s.wrI F.TMU_RGN_THRESH_LEVEL r v) := fun v =>
    (Frame.refl _ _ s).wrI _ _ _ (.inl (.inl rfl))
  exact Frame.ite _ (fun _ => ((hlevel _).wr _ _ (.inl (.inr (.inl rfl)))).raise _ _ _ _ (by decide)
    (.inl (.inr (.inr rfl)))) fun _ => hlevel _

/-- LEVEL, PRESS_PEND and the causes of TMU are apart from the other registers of a region's page. -/
theorem State.rd_level_apart (s : State) {f : Fld} {r : Nat} (hr : r < 64) (before : Nat)
    (hf : f ∈ [F.TMU_RGN_MAP_STATE, F.TMU_RGN_BUDGET_BUDGET]) : (s.level r before).rd f r = s.rd f r := by
  have hkeys : ∀ r < 64, ∀ f ∈ [F.TMU_RGN_MAP_STATE, F.TMU_RGN_BUDGET_BUDGET],
      ¬ LevelKeys r (f.key r 0) ∧ ¬ InBlock 14 (f.key r 0) := by decide
  exact (s.level_keys r before).rd _ _ _ (hkeys r hr f hf).1 (hkeys r hr f hf).2

/-- Without a fence there is none to lift. -/
theorem State.grantLift_active {s : State} {r : Nat} (hr : r < 64) (hactive : s.rgnState r = 1) :
    s.grantLift r = s.level r (s.rd F.TMU_RGN_USED_USED r) := by
  have hstate : (s.level r (s.rd F.TMU_RGN_USED_USED r)).rgnState r = 1 :=
    (s.rd_level_apart hr _ (by simp)).trans hactive
  rw [State.grantLift]
  exact if_neg (by simp [hstate])

/-- The keys of a grant to region r. -/
abbrev GrantKeys (r key : Nat) : Prop :=
  key = F.TMU_RGN_BUDGET_BUDGET.key r 0 ∨ key = F.TMU_RGN_THRESH_LEVEL.key r 0 ∨ key = F.TMU_PRESS_PEND_SLOT.key 0 0 ∨
    key = (F.EVT_RAW_CAUSE 6).key 0 0

/-- A grant to an ACTIVE region that the capacity covers raises BUDGET. -/
theorem State.grant_active {s : State} {r n : Nat} (hr : r < 64) (hactive : s.rgnState r = 1)
    (hroom : s.committed + n ≤ s.rd F.TMU_CAP_TOTAL_SECTORS) (hlt : s.rd F.TMU_RGN_BUDGET_BUDGET r + n < 2 ^ 40) :
    ∃ t, s.grant r n = some t ∧ t.rd F.TMU_RGN_BUDGET_BUDGET r = s.rd F.TMU_RGN_BUDGET_BUDGET r + n ∧
      t.rgnState r = 1 ∧ Frame [.evt] (GrantKeys r) s t := by
  have hraised := s.rd_wrI_same F.TMU_RGN_BUDGET_BUDGET r (s.rd F.TMU_RGN_BUDGET_BUDGET r + n)
  have hstate : (s.wrI F.TMU_RGN_BUDGET_BUDGET r (s.rd F.TMU_RGN_BUDGET_BUDGET r + n)).rgnState r = 1 :=
    (s.rd_wrI_apart _ _ _ (by decide)).trans hactive
  have hframe : Frame [.evt] (GrantKeys r) s (s.wrI F.TMU_RGN_BUDGET_BUDGET r (s.rd F.TMU_RGN_BUDGET_BUDGET r + n)) :=
    (Frame.refl _ _ s).wrI _ _ _ (.inl (.inl rfl))
  rw [State.grant, if_neg (Nat.not_lt.2 hroom), State.grantLift_active hr hstate]
  refine ⟨_, rfl, ?_, ?_, hframe.trans ((State.level_keys _ r _).mono (by decide) fun _ hk => .inr hk)⟩
  · rw [State.rd_level_apart _ hr _ (by simp), hraised]
    exact Nat.mod_eq_of_lt hlt
  · exact (State.rd_level_apart _ hr _ (by simp)).trans hstate

/-! ## Offers (R285) -/

/-- A region that still has an owner does not expire. -/
theorem State.dcExpire_owned {s : State} {r : Nat} (h : s.owner r ≠ 0) : s.dcExpire r = s := by
  unfold State.dcExpire
  split
  · exact if_neg fun hc => h hc.2.1
  · rfl

/-- A region that is not offered does not expire. -/
theorem State.dcExpire_not_offered {s : State} {r : Nat} (h : mget s.tmu.offers r = none) : s.dcExpire r = s := by
  rw [State.dcExpire, h]

/-- Apart from a SHARED region OWNER changes at once. -/
theorem State.setOwner_unshared {s : State} {r : Nat} (h : s.rgnType r ≠ 3) (new : Nat) :
    s.setOwner r new = s.wrI F.TMU_RGN_MAP_OWNER r new := if_pos h

theorem clrBit_le (v i : Nat) : clrBit v i ≤ v := by
  unfold clrBit
  split
  · exact Nat.sub_le _ _
  · exact le_rfl

/-! ## The commands -/

/-- Settles O23, command by command. -/
theorem dynamicCapacity : Obligations.DynamicCapacity := by
  unfold Obligations.DynamicCapacity
  refine ⟨?accept, ?grant, ?refuse, ?release⟩
  case accept =>
    intro s h l r hcur hst hup hfree hh hr hoffer hmask howner
    have hframe : Frame [.tmu] (fun key => key = F.TMU_RGN_MAP_OWNER.key r 0) s
        ((s.offerAnswered h r).wrI F.TMU_RGN_MAP_OWNER r (setBit (s.owner r) h)) :=
      ((Frame.refl _ _ s).setTmu _ (by decide)).wrI _ _ _ (.inl rfl)
    obtain ⟨hans, hall⟩ := served_of_frame hframe (by decide) (by decide) (.ld h l) 0x4802 rcSuccess []
    refine ⟨_, congrArg Host.Outcome.next (State.cxlCommand_served ⟨hcur, hst, hup, hfree, rfl⟩
      (if_pos ⟨hoffer, hmask⟩)), ?_, ?_, hans, hall⟩
    · rw [State.owner, State.reply_rd, State.rd_wrI_same]
      exact testBit_setBit_mod hh
    · rw [State.reply_eq]; rfl
  case grant =>
    intro s h l r n hcur hst hup hfree hr hactive hdel htype hadmits hpos hblock hroom hlt
    obtain ⟨t, hgrant, hbudget, -, hframe⟩ := State.grant_active hr hactive hroom hlt
    obtain ⟨hans, hall⟩ := served_of_frame hframe (by decide) (by decide) (.ld h l) 0x4802 rcSuccess []
    refine ⟨_, congrArg Host.Outcome.next (State.cxlCommand_served (t := t) (rc := rcSuccess) (out := [])
      ⟨hcur, hst, hup, hfree, rfl⟩ ?_), ?_, hans, hall⟩
    · simp [hactive, hdel, htype, hadmits, hpos, hblock, hgrant]
    · rw [State.reply_rd, hbudget]
  case refuse =>
    intro s h l r hcur hst hup hfree hh hr hoffer hmask howner
    have hkept : (s.offerAnswered h r).dcExpire r = s.offerAnswered h r := State.dcExpire_owned howner
    have hframe : Frame [.tmu] (fun _ => False) s (s.offerAnswered h r) := (Frame.refl _ _ s).setTmu _ (by decide)
    obtain ⟨hans, hall⟩ := served_of_frame hframe (by decide) (by decide) (.ld h l) 0x4802 rcSuccess []
    refine ⟨_, congrArg Host.Outcome.next (State.cxlCommand_served (t := s.offerAnswered h r) (rc := rcSuccess)
      (out := []) ⟨hcur, hst, hup, hfree, rfl⟩ ?_), ?_, ?_, hans, hall⟩
    · simp [hoffer, hmask, hkept]
    · rw [State.reply_eq]; rfl
    · rw [State.rgnState, State.reply_rd]; rfl
  case release =>
    intro s h l r hcur hst hup hfree hh hr hstate hdel htype hadmits hnone howner
    have hkept : (s.setOwner r (clrBit (s.owner r) h)).dcExpire r =
        s.wrI F.TMU_RGN_MAP_OWNER r (clrBit (s.owner r) h) := by
      rw [State.setOwner_unshared htype]
      exact State.dcExpire_not_offered hnone
    have hframe : Frame [] (fun key => key = F.TMU_RGN_MAP_OWNER.key r 0) s
        (s.wrI F.TMU_RGN_MAP_OWNER r (clrBit (s.owner r) h)) := (Frame.refl _ _ s).wrI _ _ _ (.inl rfl)
    obtain ⟨hans, hall⟩ := served_of_frame hframe (by simp) (by simp) (.ld h l) 0x4803 rcSuccess []
    refine ⟨_, congrArg Host.Outcome.next (State.cxlCommand_served (rc := rcSuccess)
      (t := s.wrI F.TMU_RGN_MAP_OWNER r (clrBit (s.owner r) h)) (out := []) ⟨hcur, hst, hup, hfree, rfl⟩ ?_), ?_, hans,
      hall⟩
    · simp [hstate, hdel, hadmits, hkept]
    · rw [State.owner, State.reply_rd, State.rd_wrI_same]
      exact Nat.mod_eq_of_lt (Nat.lt_of_le_of_lt (clrBit_le _ _) howner)

end Sys2Proof.Machine
end

section
/-!
PROOFS of O28: poison, event records, the interrupt policy and the timestamp.
-/
namespace Sys2Proof.Machine
open Sys2Proof.Safety

/-! ## A CXL command that only reports -/

theorem State.cxlCommand_reports {s : State} {h l : Nat} (hr : MboxReady s (.ld h l) .free) (op : Nat)
    (out : State → List Byte) :
    s.cxlCommand h l op (fun s => (s, rcSuccess, out s)) = s.reply (.ld h l) op rcSuccess (out s) :=
  State.cxlCommand_served hr rfl

/-! ## Poison (R288) -/

/-- The line that firmware writes for an LD, in the class and under the key of the region. -/
def State.fwWrite (s : State) (h l : Nat) (dpa : BitVec 64) (data : Line) (poison : Bool) (r : Nat) : Req :=
  { s.hostReq .write h l dpa { mv := .invalid, err := .none } fwTag with
    data := data, poison := poison, cls := s.rd F.TMU_RGN_POLICY_DEF_CLASS r,
    key := if s.vk4 then s.rd F.CRY_RGN_KEY_KEY_BIND r
      else (s.hostReq .write h l dpa { mv := .invalid, err := .none } fwTag).key }

/-- Firmware puts the line before ADM when the address is aligned, bears no reserved tag bit and lies in a region that the LD
may reach, and the LD has DIAG. -/
theorem State.poisonWrite_presents {s : State} {h l : Nat} (hr : MboxReady s (.ld h l) .free) {dpa : BitVec 64} {r : Nat}
    (hregion : s.regionAt (dpa.toNat % 2 ^ 46) s.tmu.nextId = some r)
    (hdiag : s.srcHas (.ld h l) F.HLX_HEAD_PERM_DIAG = true) (halign : dpa.toNat % 64 = 0)
    (htags : s.tagBitsOk h dpa.toNat = true) (hadmits : s.admits h l r = true) (op : Nat) (data : Line) (poison : Bool) :
    s.poisonWrite h l op dpa data poison =
      (s.present (s.fwWrite h l dpa data poison r)).reply (.ld h l) op rcSuccess [] := by
  refine State.cxlCommand_served hr ?_
  have haddr : (s.hostReq .write h l dpa { mv := .invalid, err := .none } fwTag).addr = dpa.toNat % 2 ^ 46 := rfl
  have hbad : (s.hostReq .write h l dpa { mv := .invalid, err := .none } fwTag).bad = 0 := if_pos htags
  simp only [haddr, hbad, hregion, hdiag, halign, hadmits, Bool.not_true, Bool.false_eq_true, ne_eq, not_true, or_self,
    if_false, State.fwWrite]

/-- The line stands last in ADM's queue, and nothing else changes but the answer. -/
theorem State.poisonWrite_spec {s : State} {h l : Nat} (hr : MboxReady s (.ld h l) .free) {dpa : BitVec 64} {r : Nat}
    (hregion : s.regionAt (dpa.toNat % 2 ^ 46) s.tmu.nextId = some r)
    (hdiag : s.srcHas (.ld h l) F.HLX_HEAD_PERM_DIAG = true) (halign : dpa.toNat % 64 = 0)
    (htags : s.tagBitsOk h dpa.toNat = true) (hadmits : s.admits h l r = true) (op : Nat) (data : Line) (poison : Bool)
    {t : State} (ht : s.poisonWrite h l op dpa data poison = t) :
    t.adm.queue = s.adm.queue ++ [s.fwWrite h l dpa data poison r] ∧ Answered s t (.ld h l) op 0 [] ∧
      Frame [.out, .adm, .hlx] (fun _ => False) s t := by
  rw [State.poisonWrite_presents hr hregion hdiag halign htags hadmits] at ht
  subst ht
  refine ⟨?_, served_of_frame (s.present_frame _) (by decide) (by decide) (.ld h l) op rcSuccess []⟩
  rw [State.reply_eq]; rfl

/-! ## Event records (R466) -/

/-- An LD's log without its oldest records. -/
def State.logCleared (s : State) (h l log count : Nat) : State :=
  ((s.setEvt { s.evt with
    records := if (s.logRecs h l log).length = count then mdel s.evt.records (logKey h l log)
      else mput s.evt.records (logKey h l log) ((s.logRecs h l log).drop count),
    overs := mdel s.evt.overs (logKey h l log) }).wrI (heldF log) (hl h l) ((s.logRecs h l log).length - count)).wrI
      F.EVT_LD_LOG_OVF (hl h l) (clrBit (s.rd F.EVT_LD_LOG_OVF (hl h l)) log)

/-- The HELD counts are seven bits wide and stand apart from OVF. -/
theorem heldF_apart : ∀ log < 4, (heldF log).width = 7 ∧
    (heldF log).place 0 % 0x40000 ≠ F.EVT_LD_LOG_OVF.place 0 % 0x40000 := by decide

theorem State.logRecs_logCleared (s : State) (h l log count : Nat) :
    (s.logCleared h l log count).logRecs h l log = (s.logRecs h l log).drop count := by
  change (mget (if (s.logRecs h l log).length = count then mdel s.evt.records (logKey h l log)
    else mput s.evt.records (logKey h l log) ((s.logRecs h l log).drop count)) (logKey h l log)).getD [] = _
  split
  · next hall => rw [mget_mdel_same, ← hall, List.drop_length]; rfl
  · rw [mget_mput_same]; rfl

theorem State.rd_logCleared (s : State) {h l log count : Nat} (hlog : log < 4) (hlen : (s.logRecs h l log).length ≤ 64) :
    (s.logCleared h l log count).rd (heldF log) (hl h l) = (s.logRecs h l log).length - count ∧
      ((s.logCleared h l log count).rd F.EVT_LD_LOG_OVF (hl h l)).testBit log = false := by
  obtain ⟨hwidth, hplace⟩ := heldF_apart log hlog
  constructor
  · rw [State.logCleared, State.rd_wrI_apart _ _ _ _ hplace, State.rd_wrI_same, hwidth]
    exact Nat.mod_eq_of_lt (by omega)
  · rw [State.logCleared, State.rd_wrI_same]
    exact testBit_clrBit_mod _ _ _

theorem State.logCleared_frame (s : State) (h l log count : Nat) :
    Frame [.evt] (fun key => key = (heldF log).key (hl h l) 0 ∨ key = F.EVT_LD_LOG_OVF.key (hl h l) 0) s
      (s.logCleared h l log count) :=
  (((Frame.refl _ _ s).setEvt _ (by decide)).wrI _ _ _ (.inl (.inl rfl))).wrI _ _ _ (.inl (.inr rfl))

theorem State.execClearEventRecords_served {s : State} {h l : Nat} (hr : MboxReady s (.ld h l) .free) {log count : Nat}
    (hlog : log < 4) (hpos : 0 < count) (hle : count ≤ (s.logRecs h l log).length) :
    exec (.clearEventRecords h l log count) s =
      .next ((s.logCleared h l log count).reply (.ld h l) 0x0101 rcSuccess []) := by
  refine congrArg Host.Outcome.next (State.cxlCommand_served hr ?_)
  simp only [Nat.not_le.2 hlog, Nat.not_lt.2 hle, Nat.ne_of_gt hpos, if_false, State.logCleared]

/-! ## The interrupt policy (R465) -/

theorem mem_ninsert {l : List Nat} {k x : Nat} : x ∈ ninsert l k ↔ x = k ∨ x ∈ l := by
  induction l with
  | nil => simp [ninsert]
  | cons y l ih =>
    unfold ninsert
    split
    · simp
    · split
      · next hk => subst hk; simp
      · simp only [List.mem_cons, ih]; tauto

theorem mem_nerase {l : List Nat} {k x : Nat} : x ∈ nerase l k ↔ x ∈ l ∧ x ≠ k := by
  simp [nerase]

/-- One log of an LD is put to MSI-X or taken off it. -/
def putPolicy (h l : Nat) (on : List Bool) (p : List Nat) (log : Nat) : List Nat :=
  if on.getD log false then ninsert p (logKey h l log) else nerase p (logKey h l log)

theorem mem_putPolicy_same {h l log : Nat} {on : List Bool} {p : List Nat} :
    logKey h l log ∈ putPolicy h l on p log ↔ on.getD log false = true := by
  unfold putPolicy
  split
  · next hon => exact iff_of_true (mem_ninsert.2 (.inl rfl)) hon
  · next hoff => exact iff_of_false (fun hmem => (mem_nerase.1 hmem).2 rfl) hoff

theorem mem_putPolicy_ne {h l log other : Nat} {on : List Bool} {p : List Nat} (hne : log ≠ other) :
    logKey h l log ∈ putPolicy h l on p other ↔ logKey h l log ∈ p := by
  have hkey : logKey h l log ≠ logKey h l other := fun e => hne (Nat.add_left_cancel e)
  unfold putPolicy
  split
  · simp [mem_ninsert, hkey]
  · simp [mem_nerase, hkey]

/-- Each log that has been put stands as it was put. -/
theorem mem_foldl_putPolicy {h l log : Nat} {on : List Bool} {logs : List Nat} (hlog : log ∈ logs) (p : List Nat) :
    logKey h l log ∈ logs.foldl (putPolicy h l on) p ↔ on.getD log false = true := by
  induction logs using List.reverseRecOn with
  | nil => simp at hlog
  | append_singleton logs other ih =>
    rw [List.foldl_append, List.foldl_cons, List.foldl_nil]
    by_cases hne : log = other
    · subst hne; exact mem_putPolicy_same
    · rw [mem_putPolicy_ne hne]
      exact ih (by simpa [hne] using hlog)

/-! ## The timestamp (R526) -/

theorem State.timestamp_reply (s : State) (src : MboxSrc) (op rc : Nat) (out : List Byte) :
    (s.reply src op rc out).timestamp = s.timestamp := by
  rw [State.reply_eq]; rfl

/-- The base is written so that base and elapsed time give the value. -/
theorem State.timestamp_set (s : State) (value : BitVec 64) :
    (s.wr F.AON_TS_BASE_BASE (s.rd F.AON_TS_BASE_BASE + value.toNat + 2 ^ 64 - s.timestamp)).timestamp =
      value.toNat := by
  have hphase : ∀ v, (s.wr F.AON_TS_BASE_BASE v).phase = s.phase := fun v => s.rd_wr_ne _ _ _ _ _ (by decide)
  have hbase : ∀ v, (s.wr F.AON_TS_BASE_BASE v).rd F.AON_TS_BASE_BASE = v % 2 ^ 64 := fun v => s.rd_wr_same _ v
  have hnow : ∀ v, (s.wr F.AON_TS_BASE_BASE v).timestamp =
      (v % 2 ^ 64 + (s.aon.time.elapsed + s.phase * s.epochNs / 1024)) % 2 ^ 64 := fun v => by
    rw [State.timestamp, hbase, hphase, Nat.add_assoc]; rfl
  have hold : s.timestamp = (s.rd F.AON_TS_BASE_BASE + (s.aon.time.elapsed + s.phase * s.epochNs / 1024)) % 2 ^ 64 := by
    rw [State.timestamp, Nat.add_assoc]
  have hvalue := value.isLt
  rw [hnow, hold]
  omega

/-! ## The commands -/

/-- Settles O28, command by command. -/
theorem poisonAndEventCommands : Obligations.PoisonAndEventCommands := by
  unfold Obligations.PoisonAndEventCommands
  refine ⟨?list, ?inject, ?clear, ?records, ?clearRecords, ?policy, ?setPolicy, ?timestamp, ?setTimestamp⟩
  case list =>
    intro s h l start limit got hcur hst hup hfree hgot
    subst hgot
    exact ⟨_, congrArg Host.Outcome.next (State.cxlCommand_reports ⟨hcur, hst, hup, hfree, rfl⟩ _ _), reported s _ _ _ _⟩
  case inject =>
    intro s h l dpa r hcur hst hup hfree hregion hdiag halign htags hadmits
    exact ⟨_, rfl, State.poisonWrite_spec ⟨hcur, hst, hup, hfree, rfl⟩ hregion hdiag halign htags hadmits _ _ _ rfl⟩
  case clear =>
    intro s h l dpa data r hcur hst hup hfree hregion hdiag halign htags hadmits
    exact ⟨_, rfl, State.poisonWrite_spec ⟨hcur, hst, hup, hfree, rfl⟩ hregion hdiag halign htags hadmits _ _ _ rfl⟩
  case records =>
    intro s h l log recs ov hcur hst hup hfree hlog hrecs hov
    subst hrecs hov
    exact ⟨_, congrArg Host.Outcome.next (State.cxlCommand_served ⟨hcur, hst, hup, hfree, rfl⟩
      (if_neg (Nat.not_le.2 hlog))), reported s _ _ _ _⟩
  case clearRecords =>
    intro s h l log count hcur hst hup hfree hh hl hlog hpos hle hlen hovf
    obtain ⟨hheld, hclear⟩ := s.rd_logCleared (count := count) hlog hlen
    obtain ⟨hans, hall⟩ := served_of_frame (s.logCleared_frame h l log count) (by decide) (by decide) (.ld h l) 0x0101
      rcSuccess []
    refine ⟨_, State.execClearEventRecords_served ⟨hcur, hst, hup, hfree, rfl⟩ hlog hpos hle, ?_, ?_, ?_, hans, hall⟩
    · rw [State.reply_eq]; exact s.logRecs_logCleared h l log count
    · rw [State.reply_rd, hheld]
    · rw [State.reply_rd, hclear]
  case policy =>
    intro s h l hcur hst hup hfree
    exact ⟨_, congrArg Host.Outcome.next (State.cxlCommand_reports ⟨hcur, hst, hup, hfree, rfl⟩ _ _), reported s _ _ _ _⟩
  case setPolicy =>
    intro s h l on hcur hst hup hfree hon
    have hframe : Frame [.evt] (fun _ => False) s
        (s.setEvt { s.evt with policy := (List.range 4).foldl (putPolicy h l on) s.evt.policy }) :=
      (Frame.refl _ _ s).setEvt _ (by decide)
    obtain ⟨hans, hall⟩ := served_of_frame hframe (by decide) (by decide) (.ld h l) 0x0103 rcSuccess []
    refine ⟨_, congrArg Host.Outcome.next (State.cxlCommand_served ⟨hcur, hst, hup, hfree, rfl⟩
      (if_neg (not_not.2 hon))), fun log hlog => ?_, hans, hall⟩
    rw [State.reply_eq, Bool.eq_iff_iff, List.contains_iff_mem]
    exact mem_foldl_putPolicy (List.mem_range.2 hlog) _
  case timestamp =>
    intro s h l hcur hst hup hfree
    exact ⟨_, congrArg Host.Outcome.next (State.cxlCommand_reports ⟨hcur, hst, hup, hfree, rfl⟩ _ _), reported s _ _ _ _⟩
  case setTimestamp =>
    intro s h l value hcur hst hup hfree
    have hframe : Frame [] (fun key => key = F.AON_TS_BASE_BASE.key 0 0) s (s.wr F.AON_TS_BASE_BASE
        (s.rd F.AON_TS_BASE_BASE + value.toNat + 2 ^ 64 - s.timestamp)) := (Frame.refl _ _ s).wr _ _ (.inl rfl)
    obtain ⟨hans, hall⟩ := served_of_frame hframe (by simp) (by simp) (.ld h l) 0x0301 rcSuccess []
    refine ⟨_, congrArg Host.Outcome.next (State.cxlCommand_served ⟨hcur, hst, hup, hfree, rfl⟩ rfl), ?_, hans, hall⟩
    rw [State.timestamp_reply, s.timestamp_set value]

end Sys2Proof.Machine
end

section
/-!
PROOFS, what O21 and O22 share: the fields of a region's pages, written one after the other.
-/
namespace Sys2Proof.Machine
open Sys2Proof.Safety

/-- Instance i of a field stands i pages above instance 0. -/
theorem Fld.key_inst (f : Fld) (i k : Nat) : f.key i k = f.key 0 k + i * 0x40000 := by
  simp only [Fld.key, Fld.addr]; omega

/-- Fields that share no key in page 0 share none in page r. -/
theorem nodup_keys_inst {l : List Fld} (h : (l.map fun f => f.key 0 0).Nodup) (r : Nat) :
    (l.map fun f => f.key r 0).Nodup := by
  obtain ⟨d, hd⟩ : ∃ d, ∀ f : Fld, f.key r 0 = f.key 0 0 + d := ⟨r * 0x40000, fun f => f.key_inst r 0⟩
  have hshift : (l.map fun f => f.key r 0) = (l.map fun f => f.key 0 0).map (· + d) := by
    rw [List.map_map]
    exact List.map_congr_left fun f _ => hd f
  rw [hshift]
  exact h.map fun a b hab => Nat.add_right_cancel hab

/-- A field of one of the 64 pages from page 1 of a block on, as those of the regions are. -/
def Fld.regional (f : Fld) (b : Nat) : Bool := decide (f.blk = b ∧ f.p0 = 1 ∧ f.off < 0x1000 ∧ f.lo < 64)

theorem Fld.inBlock_regional {f : Fld} {b r : Nat} (h : f.regional b = true) (hr : r < 64) : InBlock b (f.key r 0) := by
  obtain ⟨hblk, hpage, hoff, hlo⟩ := of_decide_eq_true h
  simp only [InBlock, Fld.key, Fld.addr, hblk, hpage]
  omega

/-- Values are written to fields of page r, one after the other. -/
def State.wrFields (s : State) (r : Nat) (l : List (Fld × Nat)) : State := l.foldl (fun s x => s.wrI x.1 r x.2) s

theorem State.rd_wrFields_apart (s : State) {r : Nat} {l : List (Fld × Nat)} {f : Fld} {i : Nat}
    (h : ∀ x ∈ l, f.key i 0 ≠ x.1.key r 0) : (s.wrFields r l).rd f i = s.rd f i := by
  induction l generalizing s with
  | nil => rfl
  | cons y l ih =>
    exact (ih (s.wrI y.1 r y.2) fun x hx => h x (List.mem_cons_of_mem _ hx)).trans
      (s.rd_wrI_ne _ _ _ _ _ _ (h y List.mem_cons_self))

/-- Each field reads as what was written, when no two share a key. -/
theorem State.rd_wrFields (s : State) {r : Nat} {l : List (Fld × Nat)} (hk : (l.map fun x => x.1.key 0 0).Nodup)
    {f : Fld} {v : Nat} (hx : (f, v) ∈ l) : (s.wrFields r l).rd f r = v % 2 ^ f.width := by
  have hkr : (l.map fun x => x.1.key r 0).Nodup := by
    have hfields := nodup_keys_inst (l := l.map Prod.fst) (by rw [List.map_map]; exact hk) r
    rwa [List.map_map] at hfields
  clear hk
  induction l generalizing s with
  | nil => simp at hx
  | cons y l ih =>
    rw [List.map_cons, List.nodup_cons] at hkr
    rcases List.mem_cons.1 hx with rfl | hx
    · have hapart : ∀ x ∈ l, f.key r 0 ≠ x.1.key r 0 := fun x hl heq =>
        hkr.1 (List.mem_map.2 ⟨x, hl, heq.symm⟩)
      exact (State.rd_wrFields_apart _ hapart).trans (s.rd_wrI_same _ _ _)
    · exact ih (s.wrI y.1 r y.2) hx hkr.2

theorem State.wrFields_frame (s : State) {P : List Part} {K : Nat → Prop} {r : Nat} {l : List (Fld × Nat)}
    (h : ∀ x ∈ l, K (x.1.key r 0)) : Frame P K s (s.wrFields r l) :=
  Frame.foldl _ _ s fun t x hx => (Frame.refl _ _ t).wrI _ _ _ (.inl (h x hx))

end Sys2Proof.Machine
end

section
/-!
PROOFS of O22: REGION_SET, REGION_GRANT, REGION_DELETE and its end, and the end of a relocation into retained sets.
-/
namespace Sys2Proof.Machine
open Sys2Proof.Safety

/-- A region's slot that is in range, taken and free of other work passes the checks. -/
theorem State.slotChecks_passed {s : State} {r : Nat} (hr : r < 64) (hstate : s.rgnState r ≠ 0)
    (hheld : s.slotHeld r = false) (hdel : s.isDeleting r = false) (f : State → Ans) : s.slotChecks r f = f s := by
  simp [State.slotChecks, Nat.not_lt.2 (Nat.le_of_lt_succ hr), hstate, hheld, hdel]

/-! ## REGION_SET -/

/-- The fields of the policy that every REGION_SET writes. -/
def State.putAttributes (s : State) (p : List Byte) (r : Nat) : State :=
  ((s.wrI F.TMU_RGN_POLICY_DEF_CLASS r (chosen p 2 1 (s.rd F.TMU_RGN_POLICY_DEF_CLASS r))).wrI F.TMU_RGN_POLICY_LEVEL r
    (min 9 (chosen p 3 1 (s.rd F.TMU_RGN_POLICY_LEVEL r)))).wrI F.TMU_RGN_POLICY_EXPORT_UNIT r
      (chosen p 10 1 (s.rd F.TMU_RGN_POLICY_EXPORT_UNIT r))

/-- The three thresholds, clamped and in order (R22). -/
def State.putThresholds (s : State) (p : List Byte) (r : Nat) : State :=
  let t1 := clampTo 1 99 (chosen p 28 1 (s.rd F.TMU_RGN_THRESH_T1 r))
  let t2 := max t1 (clampTo 1 99 (chosen p 29 1 (s.rd F.TMU_RGN_THRESH_T2 r)))
  let t3 := max t2 (clampTo 1 99 (chosen p 30 1 (s.rd F.TMU_RGN_THRESH_T3 r)))
  ((s.wrI F.TMU_RGN_THRESH_T1 r t1).wrI F.TMU_RGN_THRESH_T2 r t2).wrI F.TMU_RGN_THRESH_T3 r t3

/-- A TIER that stays is only written again. -/
theorem State.setTier_same {s : State} {r new : Nat} (h : s.rd F.TMU_RGN_POLICY_TIER r = new) :
    s.setTier r new = s.wrI F.TMU_RGN_POLICY_TIER r new := if_pos (.inl h)

/-- A REGION_SET of a region with fixed slots that selects neither flags nor OWNER and keeps TIER. -/
theorem State.applySet_fixed {s : State} {p : List Byte} {r : Nat} (htype : s.rgnType r = 1)
    (hflags : (numAt p 60 4).testBit 5 = false) (hlow : (numAt p 60 4).testBit 8 = false)
    (hhigh : (numAt p 60 4).testBit 9 = false)
    (htier : chosen p 4 1 (s.rd F.TMU_RGN_POLICY_TIER r) = s.rd F.TMU_RGN_POLICY_TIER r)
    (hlt : s.rd F.TMU_RGN_POLICY_TIER r < 3) :
    s.applySet p r =
      ((s.putAttributes p r).wrI F.TMU_RGN_POLICY_TIER r (s.rd F.TMU_RGN_POLICY_TIER r)).putThresholds p r := by
  have hold : (s.putAttributes p r).rd F.TMU_RGN_POLICY_TIER r = s.rd F.TMU_RGN_POLICY_TIER r := by
    unfold State.putAttributes
    simp (disch := decide) only [State.rd_wrI_apart]
  have hsame : (s.putAttributes p r).setTier r
      (min 2 (chosen p 4 1 ((s.putAttributes p r).rd F.TMU_RGN_POLICY_TIER r))) =
        (s.putAttributes p r).wrI F.TMU_RGN_POLICY_TIER r (s.rd F.TMU_RGN_POLICY_TIER r) := by
    rw [hold, htier, Nat.min_eq_right (Nat.le_of_lt_succ hlt)]
    exact State.setTier_same hold
  rw [← hsame]
  simp only [State.applySet, hflags, hlow, hhigh, htype, Bool.false_eq_true, if_false, or_self,
    show ¬ 1 = 2 by decide]
  rfl

/-- The keys that such a REGION_SET writes. -/
abbrev SetKeys (r key : Nat) : Prop :=
  key = F.TMU_RGN_POLICY_DEF_CLASS.key r 0 ∨ key = F.TMU_RGN_POLICY_LEVEL.key r 0 ∨
    key = F.TMU_RGN_POLICY_EXPORT_UNIT.key r 0 ∨ key = F.TMU_RGN_POLICY_TIER.key r 0 ∨
    key = F.TMU_RGN_THRESH_T1.key r 0 ∨ key = F.TMU_RGN_THRESH_T2.key r 0 ∨ key = F.TMU_RGN_THRESH_T3.key r 0

theorem State.putAttributes_frame (s : State) (p : List Byte) (r : Nat) : Frame [] (SetKeys r) s (s.putAttributes p r) :=
  (((Frame.refl _ _ s).wrI _ _ _ (.inl (.inl rfl))).wrI _ _ _ (.inl (.inr (.inl rfl)))).wrI _ _ _
    (.inl (.inr (.inr (.inl rfl))))

theorem State.putThresholds_frame (s : State) (p : List Byte) (r : Nat) : Frame [] (SetKeys r) s (s.putThresholds p r) :=
  (((Frame.refl _ _ s).wrI _ _ _ (.inl (.inr (.inr (.inr (.inr (.inl rfl))))))).wrI _ _ _
    (.inl (.inr (.inr (.inr (.inr (.inr (.inl rfl)))))))).wrI _ _ _
      (.inl (.inr (.inr (.inr (.inr (.inr (.inr rfl)))))))

/-- What the fields of a REGION_SET read afterwards. -/
theorem State.rd_set (s : State) (p : List Byte) (r tier : Nat) {t : State}
    (ht : ((s.putAttributes p r).wrI F.TMU_RGN_POLICY_TIER r tier).putThresholds p r = t) :
    t.rd F.TMU_RGN_POLICY_DEF_CLASS r =
        chosen p 2 1 (s.rd F.TMU_RGN_POLICY_DEF_CLASS r) % 2 ^ F.TMU_RGN_POLICY_DEF_CLASS.width ∧
      t.rd F.TMU_RGN_POLICY_LEVEL r = min 9 (chosen p 3 1 (s.rd F.TMU_RGN_POLICY_LEVEL r)) ∧
      t.rd F.TMU_RGN_THRESH_T1 r = clampTo 1 99 (chosen p 28 1 (s.rd F.TMU_RGN_THRESH_T1 r)) ∧ t.owner r = s.owner r ∧
      Frame [] (SetKeys r) s t := by
  subst ht
  refine ⟨?_, ?_, ?_, ?_, (((s.putAttributes_frame p r).wrI _ _ _ (.inl (.inr (.inr (.inr (.inl rfl))))))).trans
    (State.putThresholds_frame _ p r)⟩
  · simp (disch := decide) only [State.putThresholds, State.putAttributes, State.rd_wrI_apart, State.rd_wrI_same]
  · simp (disch := decide) only [State.putThresholds, State.putAttributes, State.rd_wrI_apart, State.rd_wrI_same]
    exact Nat.mod_eq_of_lt (Nat.lt_of_le_of_lt (Nat.min_le_left _ _) (by decide))
  · simp (disch := decide) only [State.putThresholds, State.putAttributes, State.rd_wrI_apart, State.rd_wrI_same]
    exact Nat.mod_eq_of_lt (Nat.lt_of_le_of_lt (Nat.min_le_left _ _) (by decide))
  · simp (disch := decide) only [State.owner, State.putThresholds, State.putAttributes, State.rd_wrI_apart]

/-! ## REGION_DELETE (R62) -/

/-- Decode of region r stops, its offers are withdrawn, and its walk and its pending relocation end. -/
def State.decodeStopped (s : State) (r : Nat) : State :=
  ((s.setTmu { s.tmu with deleting := s.tmu.deleting ++ [(r, s.tmu.nextId)], offers := mdel s.tmu.offers r }).setScr
    { s.scr with pinWalks := mdel s.scr.pinWalks r }).wr F.BTC_RET_PEND_SLOT (clrBit (s.rd F.BTC_RET_PEND_SLOT) r)

/-- With no move of the region in flight and no directory to sweep nothing more is done at once. -/
theorem State.startDelete_idle {s : State} {r : Nat} (htype : s.rgnType r ≠ 3) (hmoves : ∀ m ∈ s.tmu.moves, m.slot ≠ r) :
    s.startDelete r = s.decodeStopped r := by
  have hnone : (s.tmu.moves.filter fun m => decide (m.kind = .demote ∧ m.slot = r)) = [] :=
    List.filter_eq_nil_iff.2 fun m hm => by simp [hmoves m hm]
  rw [State.startDelete, if_neg htype]
  change ((s.tmu.moves.filter fun m => decide (m.kind = .demote ∧ m.slot = r)).foldl
    (fun s m => s.abortDemotion m) (s.decodeStopped r)) = _
  rw [hnone]; rfl

theorem State.decodeStopped_frame (s : State) (r : Nat) :
    Frame [.tmu, .scr] (fun key => key = F.BTC_RET_PEND_SLOT.key 0 0) s (s.decodeStopped r) :=
  (((Frame.refl _ _ s).setTmu _ (by decide)).setScr _ (by decide)).wr _ _ (.inl rfl)

/-- Bit r of the relocations pending is clear once it has been cleared. -/
theorem State.retPend_cleared (s : State) (r : Nat) :
    ((s.wr F.BTC_RET_PEND_SLOT (clrBit (s.rd F.BTC_RET_PEND_SLOT) r)).rd F.BTC_RET_PEND_SLOT).testBit r = false := by
  rw [State.rd_wr_same]; exact testBit_clrBit_mod _ _ _

theorem State.regionDelete_accepted {s : State} {src : MboxSrc} (hr : MboxReady s src (.perm 0)) {p : List Byte}
    (hlen : p.length = 4) {r : Nat} (hnum : numAt p 0 4 = r) (hlt : r < 64) (hheld : s.slotHeld r = false)
    (hdel : s.isDeleting r = false) (hstate : s.rgnState r ≠ 0) (htype : s.rgnType r ≠ 3)
    (hmoves : ∀ m ∈ s.tmu.moves, m.slot ≠ r) :
    s.regionDelete src p = ((s.decodeStopped r).setCtl { s.ctl with
      background := s.ctl.background ++ [BgOp.mk src 0xc002 r] }).reply src 0xc002 rcBackground [] := by
  rw [State.regionDelete]
  simp only [hnum]
  refine State.background_ok hr hlen (t := s.decodeStopped r) (out := []) ?_
  rw [State.slotChecks_passed hlt hstate hheld hdel, State.startDelete_idle htype hmoves]

/-! ## The end of a deletion -/

/-- What the unit knew of region r's tiles, frames and keys goes; its map's sectors are free again. -/
def State.regionForgotten (s : State) (r : Nat) : State :=
  (((s.setNear { s.near with
    ftes := s.near.ftes.filter (fun e => decide (e.2.slot ≠ r)),
    marks := s.near.marks.filter (fun n => !(match s.fte (n / 64) with
      | some e => decide (e.slot = r)
      | none => false)) }).setTmu { s.tmu with
    map := s.tmu.map.filter (fun e => decide (keySlot e.1 ≠ r)),
    cache := s.tmu.cache.filter (fun e => decide (keySlot e.1 ≠ r)),
    fetches := s.tmu.fetches.filter (fun e => decide (keySlot e.1 ≠ r)),
    mapFree := ivInsert s.tmu.mapFree (s.rd F.TMU_RGN_MAPLOC_LOC r) (s.rd F.TMU_RGN_MAP_SIZE r * 131072),
    orphans := nerase s.tmu.orphans r, deleting := s.tmu.deleting.filter (fun e => decide (e.1 ≠ r)),
    offers := mdel s.tmu.offers r }).setCry { s.cry with
    cross := s.cry.cross.filter (fun e => decide (keySlot e.1 ≠ r)), keyWait := nerase s.cry.keyWait r,
    walks := mdel s.cry.walks r, rekeyJobs := s.cry.rekeyJobs.filter (fun e => decide (e.2 ≠ r)),
    ctrHolds := s.cry.ctrHolds.filter (fun k => decide (keySlot k ≠ r)) }).setScr { s.scr with
    lastPromo := s.scr.lastPromo.filter (fun x => decide (x.1 ≠ r)),
    prefetch := s.scr.prefetch.filter (fun x => decide (x.1 ≠ r)) }

/-- No rekey of region r is left. -/
def State.rekeyForgotten (s : State) (r : Nat) (rekeying : Bool) : State :=
  let s1 := s.wrFields r [(F.CRY_RGN_REKEY_STATE, 0), (F.CRY_RGN_REKEY_QUEUED, 0), (F.CRY_RGN_GEN_PREV, 0)]
  if rekeying then s1.setAdm { s1.adm with recompute := true } else s1

/-- The fields of a FREE slot with their reset values. -/
def freeFields : List (Fld × Nat) :=
  [F.TMU_RGN_MAP_BASE, F.TMU_RGN_MAP_SIZE, F.TMU_RGN_MAP_TYPE, F.TMU_RGN_MAP_STATE, F.TMU_RGN_MAP_RETAIN,
    F.TMU_RGN_MAP_OWNER, F.TMU_RGN_POLICY_DEF_CLASS, F.TMU_RGN_POLICY_LEVEL, F.TMU_RGN_POLICY_TIER,
    F.TMU_RGN_POLICY_HOME, F.TMU_RGN_POLICY_HOME_SLOT, F.TMU_RGN_POLICY_EXPORT_EN, F.TMU_RGN_POLICY_EXPORT_UNIT,
    F.TMU_RGN_MAPLOC_LOC, F.TMU_RGN_BUDGET_BUDGET, F.TMU_RGN_DIRTYCAP_DIRTY_CAP, F.TMU_RGN_RESERVE_RESERVE,
    F.TMU_RGN_USED_USED, F.TMU_RGN_THRESH_T1, F.TMU_RGN_THRESH_T2, F.TMU_RGN_THRESH_T3, F.TMU_RGN_THRESH_LEVEL,
    F.TMU_RGN_INIT_WATERMARK].map fun f => (f, f.rst)

/-- Slot r is FREE. -/
def State.slotFreed (s : State) (r : Nat) : State := (s.wrFields r freeFields).watchFree

/-- An ELASTIC region without entries holds no sectors. -/
theorem State.freeBacking_empty {s : State} {r : Nat} (htype : s.rgnType r = 2) (hempty : s.entries r = []) :
    s.freeBacking r = s := by
  simp [State.freeBacking, State.fixedSlots, htype, hempty]

theorem State.finishDelete_empty {s : State} {r : Nat} (hnear : s.nearOnly = false) (htype : s.rgnType r = 2)
    (hempty : s.entries r = []) (horphans : s.tmu.orphans = []) :
    s.finishDelete r = ((s.regionForgotten r).rekeyForgotten r (s.rekeying r)).slotFreed r := by
  have hmap : ¬ (s.nearOnly = true ∨ s.tmu.orphans.contains r = true) := by simp [hnear, horphans]
  rw [State.finishDelete, State.freeBacking_empty htype hempty, if_neg hmap]
  rfl

theorem State.watchFree_frame (s : State) :
    Frame [.scr, .evt] (fun key => key = (F.EVT_RAW_CAUSE 9).key 0 0) s s.watchFree :=
  (Frame.refl _ _ s).watchFree (by decide) (by decide) rfl

/-- The keys and the parts of the end of a deletion. -/
abbrev DeleteKeys (key : Nat) : Prop := InBlock 6 key ∨ InBlock 8 key ∨ key = (F.EVT_RAW_CAUSE 9).key 0 0

theorem State.regionForgotten_frame (s : State) (r : Nat) :
    Frame [.tmu, .near, .cry, .scr] (fun _ => False) s (s.regionForgotten r) :=
  ((((Frame.refl _ _ s).setNear _ (by decide)).setTmu _ (by decide)).setCry _ (by decide)).setScr _ (by decide)

theorem State.rekeyForgotten_frame (s : State) {r : Nat} (hr : r < 64) (rekeying : Bool) :
    Frame [.adm] (InBlock 8) s (s.rekeyForgotten r rekeying) := by
  have hcleared : Frame [.adm] (InBlock 8) s (s.wrFields r
      [(F.CRY_RGN_REKEY_STATE, 0), (F.CRY_RGN_REKEY_QUEUED, 0), (F.CRY_RGN_GEN_PREV, 0)]) := by
    refine s.wrFields_frame fun x hx => Fld.inBlock_regional (f := x.1) ?_ hr
    revert x
    decide
  exact Frame.ite _ (fun _ => hcleared.setAdm _ (by decide)) fun _ => hcleared

theorem State.slotFreed_frame (s : State) {r : Nat} (hr : r < 64) :
    Frame [.scr, .evt] (fun key => InBlock 6 key ∨ key = (F.EVT_RAW_CAUSE 9).key 0 0) s (s.slotFreed r) := by
  have hfields : Frame [.scr, .evt] (fun key => InBlock 6 key ∨ key = (F.EVT_RAW_CAUSE 9).key 0 0) s
      (s.wrFields r freeFields) := by
    refine s.wrFields_frame fun x hx => .inl (Fld.inBlock_regional (f := x.1) ?_ hr)
    revert x
    decide
  exact hfields.watchFree (by decide) (by decide) (.inr rfl)

/-- STATE, TYPE and OWNER of a slot that is FREE. -/
theorem State.rd_slotFreed (s : State) {r : Nat} {f : Fld} (hr : r < 64)
    (hf : f ∈ [F.TMU_RGN_MAP_STATE, F.TMU_RGN_MAP_TYPE, F.TMU_RGN_MAP_OWNER]) : (s.slotFreed r).rd f r = 0 := by
  have hkept : ∀ r < 64, ∀ f ∈ [F.TMU_RGN_MAP_STATE, F.TMU_RGN_MAP_TYPE, F.TMU_RGN_MAP_OWNER],
      f.key r 0 ≠ (F.EVT_RAW_CAUSE 9).key 0 0 ∧ ¬ InBlock 14 (f.key r 0) := by decide
  have hzero : ∀ f ∈ [F.TMU_RGN_MAP_STATE, F.TMU_RGN_MAP_TYPE, F.TMU_RGN_MAP_OWNER], (f, 0) ∈ freeFields := by decide
  have hread := s.rd_wrFields (r := r) (l := freeFields) (by decide) (hzero f hf)
  rw [State.slotFreed, (State.watchFree_frame _).rd _ _ _ (hkept r hr f hf).1 (hkept r hr f hf).2, hread, Nat.zero_mod]

/-- The state in which the deletion of region r ends. -/
def State.deleted (s : State) (r : Nat) : State :=
  ((s.regionForgotten r).rekeyForgotten r (s.rekeying r)).slotFreed r

theorem State.deleted_frame (s : State) {r : Nat} (hr : r < 64) :
    Frame [.tmu, .near, .cry, .scr, .evt, .adm] DeleteKeys s (s.deleted r) :=
  (((s.regionForgotten_frame r).mono (by decide) fun _ h => h.elim).trans
    ((State.rekeyForgotten_frame _ hr _).mono (by decide) fun _ h => .inr (.inl h))).trans
      ((State.slotFreed_frame _ hr).mono (by decide) fun _ h => h.elim .inl fun h => .inr (.inr h))

/-- TMU, the near tier and CRY keep what is left once the region is forgotten. -/
theorem State.deleted_parts (s : State) {r : Nat} (hr : r < 64) :
    (s.deleted r).tmu = (s.regionForgotten r).tmu ∧ (s.deleted r).near = (s.regionForgotten r).near ∧
      (s.deleted r).cry = (s.regionForgotten r).cry := by
  have hrest : Frame [.adm, .scr, .evt] DeleteKeys (s.regionForgotten r) (s.deleted r) :=
    ((State.rekeyForgotten_frame _ hr _).mono (by decide) fun _ h => .inr (.inl h)).trans
      ((State.slotFreed_frame _ hr).mono (by decide) fun _ h => h.elim .inl fun h => .inr (.inr h))
  exact ⟨hrest.1 .tmu (by decide), hrest.1 .near (by decide), hrest.1 .cry (by decide)⟩

theorem State.memClrNext_none {s : State} (h : s.hlx.memclr = []) (r : Nat) (c : Spec) : s.memClrNext r c = s := by
  rw [State.memClrNext, h]; rfl

/-- Nothing waits for the deletion to end: no Mem Clr and no command of a mailbox. -/
theorem execRegionDeleteDone_of_idle {s : State} {r : Nat} (hr : r < 64) (hdel : s.isDeleting r = true)
    (hquiet : s.quiet r = true) (hheld : s.aon.held = false) (hoff : s.aon.off = 0) (hhalt : s.cry.halt = 0)
    (hnear : s.nearOnly = false) (htype : s.rgnType r = 2) (hempty : s.entries r = []) (hclr : s.hlx.memclr = [])
    (hbg : s.ctl.background = []) (horphans : s.tmu.orphans = []) :
    execRegionDeleteDone r s = .next (s.deleted r) := by
  have hframe := s.deleted_frame hr
  have hreset : (!s.inReset) = true := by simp [State.inReset, hheld, hoff]
  have hclr' : (s.deleted r).hlx.memclr = [] := (congrArg Hlx.memclr (hframe.1 .hlx (by decide))).trans hclr
  have hbg' : (s.deleted r).ctl.background = [] := (congrArg Ctl.background (hframe.1 .ctl (by decide))).trans hbg
  have hgone : s.finishDelete r = s.deleted r := State.finishDelete_empty hnear htype hempty horphans
  rw [execRegionDeleteDone, if_pos ⟨hdel, hquiet, hreset, hhalt⟩]
  simp only [hgone, hclr, List.any_nil, Bool.false_eq_true, if_false]
  generalize s.deleted r = gone at *
  have hend : Host.Outcome.next ((gone.memClrNext r (s.specOf r)).bgDone 0xc002 r rcSuccess (resultHeader 0 0)) =
      (Host.Outcome.next gone : Result) := by
    rw [State.memClrNext_none hclr', State.bgDone_nil hbg']
  split <;> exact hend

/-! ## The commands served -/

theorem State.regionSet_served {s : State} {src : MboxSrc} (hr : MboxReady s src (.perm 0)) {p : List Byte}
    (hlen : p.length = 64) {r : Nat} (hnum : numAt p 0 1 = r) (hlt : r < 64) (hheld : s.slotHeld r = false)
    (hdel : s.isDeleting r = false) (hstate : s.rgnState r ≠ 0) (htype : s.rgnType r = 1) (hbad : s.badSet p r = none) :
    s.regionSet src p = (s.applySet p r).reply src 0xc003 rcSuccess (resultHeader 0 0 ++ []) := by
  rw [State.regionSet]
  simp only [hnum]
  refine State.avsar_ok hr hlen ?_
  rw [if_neg (Nat.not_lt.2 (Nat.le_of_lt_succ hlt)), if_neg hstate, hbad]
  simp only [State.slotChecks_passed hlt hstate hheld hdel, htype]
  exact if_neg fun h => absurd h.1 (by decide)

theorem State.regionGrant_served {s t : State} {src : MboxSrc} (hr : MboxReady s src (.perm 0)) {p : List Byte}
    (hlen : p.length = 12) {r n : Nat} (hnum : numAt p 0 4 = r) (hn : numAt p 4 8 = n) (hlt : r < 64)
    (hheld : s.slotHeld r = false) (hdel : s.isDeleting r = false) (hstate : s.rgnState r ≠ 0) (htype : s.rgnType r = 2)
    (hgrant : s.grant r n = some t) :
    s.regionGrant src p =
      t.reply src 0xc004 rcSuccess (resultHeader 0 0 ++ leBytes 8 (t.rd F.TMU_RGN_BUDGET_BUDGET r)) := by
  rw [State.regionGrant]
  simp only [hnum, hn]
  refine State.avsar_ok hr hlen ?_
  simp only [State.slotChecks_passed hlt hstate hheld hdel, htype, hgrant, ne_eq, not_true, if_false]

/-- Nothing of the region lies outside the retained sets and nothing of it moves. -/
theorem execRetainRelocationDone_of_inside {s : State} {r : Nat} (hruns : s.scarabRuns = true)
    (hpend : (s.rd F.BTC_RET_PEND_SLOT).testBit r = true) (hfixed : s.fixedSlots r = false) (hout : s.outside r = [])
    (hmoves : ∀ m ∈ s.tmu.moves, m.slot ≠ r) :
    execRetainRelocationDone r s = .next (s.wr F.BTC_RET_PEND_SLOT (clrBit (s.rd F.BTC_RET_PEND_SLOT) r)) := by
  have hflying : s.flyingOutside r = false :=
    List.any_eq_false.2 fun m hm => by simp [hmoves m hm]
  have hmoving : (s.tmu.moves.any fun m => decide (m.slot = r ∧ m.purpose = .relocate)) = false :=
    List.any_eq_false.2 fun m hm => by simp [hmoves m hm]
  rw [execRetainRelocationDone, if_pos ⟨hpend, hruns⟩]
  simp only [hfixed, Bool.false_eq_true, if_false]
  exact congrArg Host.Outcome.next (if_pos ⟨by rw [hout]; rfl, by rw [hflying]; rfl, by rw [hmoving]; rfl⟩)

/-- Settles O22, command by command. -/
theorem regionChange : Obligations.RegionChange := by
  unfold Obligations.RegionChange
  refine ⟨?set, ?grant, ?delete, ?done, ?relocation⟩
  case set =>
    intro s src p r hcur hst hup hfree hperm hlen hnum hr hheld hdel hstate htype hbad hflags hlow hhigh htier hlt
    obtain ⟨hclass, hlevel, ht1, howner, hframe⟩ := s.rd_set p r (s.rd F.TMU_RGN_POLICY_TIER r) rfl
    rw [← State.applySet_fixed htype hflags hlow hhigh htier hlt] at hclass hlevel ht1 howner hframe
    obtain ⟨hans, hall⟩ := served_of_frame hframe (by simp) (by simp) src 0xc003 rcSuccess (resultHeader 0 0 ++ [])
    refine ⟨_, congrArg Host.Outcome.next
      (State.regionSet_served ⟨hcur, hst, hup, hfree, hperm⟩ hlen hnum hr hheld hdel hstate htype hbad),
      ?_, ?_, ?_, ?_, hans, hall⟩
    · rw [State.reply_rd, hclass]
    · rw [State.reply_rd, hlevel]
    · rw [State.reply_rd, ht1]
    · rw [State.owner, State.reply_rd]; exact howner
  case grant =>
    intro s src p r n hcur hst hup hfree hperm hlen hnum hn hr hheld hdel hactive htype hroom hlt
    obtain ⟨t, hgrant, hbudget, hstate, hframe⟩ := State.grant_active hr hactive hroom hlt
    have hserved := State.regionGrant_served ⟨hcur, hst, hup, hfree, hperm⟩ hlen hnum hn hr hheld hdel
      (by rw [hactive]; decide) htype hgrant
    rw [hbudget] at hserved
    obtain ⟨hans, hall⟩ := served_of_frame hframe (by decide) (by decide) src 0xc004 rcSuccess
      (resultHeader 0 0 ++ leBytes 8 (s.rd F.TMU_RGN_BUDGET_BUDGET r + n))
    refine ⟨_, congrArg Host.Outcome.next hserved, ?_, ?_, hans, hall⟩
    · rw [State.reply_rd, hbudget]
    · rw [State.rgnState, State.reply_rd]; exact hstate
  case delete =>
    intro s src p r hcur hst hup hfree hperm hlen hnum hr hheld hdel hstate htype hmoves hpend
    have hframe : Frame [.tmu, .scr, .ctl] (fun key => key = F.BTC_RET_PEND_SLOT.key 0 0) s
        ((s.decodeStopped r).setCtl { s.ctl with background := s.ctl.background ++ [BgOp.mk src 0xc002 r] }) :=
      ((s.decodeStopped_frame r).mono (by decide) fun _ h => h).setCtl _ (by decide)
    obtain ⟨hans, hall⟩ := served_of_frame hframe (by decide) (by decide) src 0xc002 rcBackground []
    refine ⟨_, congrArg Host.Outcome.next (State.regionDelete_accepted ⟨hcur, hst, hup, hfree, hperm⟩ hlen hnum hr
      hheld hdel hstate htype hmoves), ?_, ?_, ?_, ?_, ?_, ?_, hans, hall⟩
    · simp [State.isDeleting, State.reply_eq, State.decodeStopped]
    · simp [State.reply_eq, State.decodeStopped]
    · rw [State.reply_eq]; exact mget_mdel_same _ r
    · simp [State.reply_eq, State.decodeStopped]
    · rw [State.reply_rd]; exact s.retPend_cleared r
    · simp [State.reply_eq]
  case done =>
    intro s r hr hdel hquiet hheld hoff hhalt hnear htype hempty hclr hbg horphans
    obtain ⟨htmu, hkept, hcry⟩ := s.deleted_parts hr
    refine ⟨_, execRegionDeleteDone_of_idle hr hdel hquiet hheld hoff hhalt hnear htype hempty hclr hbg horphans,
      State.rd_slotFreed _ hr (by simp), State.rd_slotFreed _ hr (by simp), State.rd_slotFreed _ hr (by simp),
      ?_, ?_, ?_, ?_, ?_, s.deleted_frame hr⟩
    · rw [State.isDeleting, htmu]; simp [State.regionForgotten]
    · rw [hkept]; simp [State.regionForgotten]
    · rw [htmu]; simp [State.regionForgotten]
    · rw [htmu]; rfl
    · rw [hcry]; rfl
  case relocation =>
    intro s r hr hruns hpend hlt hfixed hout hmoves
    exact ⟨_, execRetainRelocationDone_of_inside hruns hpend hfixed hout hmoves, s.retPend_cleared r,
      (Frame.refl _ _ s).wr _ _ (.inl rfl)⟩

end Sys2Proof.Machine
end

section
/-!
PROOFS of O21: REGION_CREATE of an ELASTIC region, and the steps of its initialization.
-/
namespace Sys2Proof.Machine
open Sys2Proof.Safety

/-! ## REGION_CREATE (R62, R139, R302) -/

/-- The registers of a region's slot that a creation writes. -/
def createRegs : List Fld :=
  [F.TMU_RGN_MAP_BASE, F.TMU_RGN_MAP_SIZE, F.TMU_RGN_MAP_TYPE, F.TMU_RGN_MAP_STATE, F.TMU_RGN_MAP_RETAIN,
    F.TMU_RGN_MAP_OWNER, F.TMU_RGN_POLICY_DEF_CLASS, F.TMU_RGN_POLICY_LEVEL, F.TMU_RGN_POLICY_TIER,
    F.TMU_RGN_POLICY_KEYGEN, F.TMU_RGN_POLICY_HOME, F.TMU_RGN_POLICY_HOME_SLOT, F.TMU_RGN_POLICY_EXPORT_EN,
    F.TMU_RGN_POLICY_EXPORT_UNIT, F.TMU_RGN_MAPLOC_LOC, F.TMU_RGN_BUDGET_BUDGET, F.TMU_RGN_USED_USED,
    F.TMU_RGN_DIRTYCAP_DIRTY_CAP, F.TMU_RGN_RESERVE_RESERVE, F.TMU_RGN_THRESH_T1, F.TMU_RGN_THRESH_T2,
    F.TMU_RGN_THRESH_T3, F.TMU_RGN_THRESH_LEVEL, F.TMU_RGN_INIT_WATERMARK, F.CRY_RGN_GEN_CUR, F.CRY_RGN_GEN_PREV,
    F.CRY_RGN_KEY_BASE_GEN, F.CRY_RGN_KEY_KEY_BIND]

/-- What a creation of an ELASTIC region under the native key writes, in the order of createRegs. -/
def elasticValues (c : Spec) (loc gen : Nat) : List Nat :=
  [c.base, c.size, 2, 1, b2n c.retain, c.owner, c.defClass, c.level, c.tier, gen, c.home, c.homeSlot, b2n c.exportEn,
    c.exportUnit, loc, c.budget, 0, c.dirtyCap, reserveOf c.dirtyCap, if c.t1 = 0 then 75 else c.t1,
    if c.t1 = 0 then 90 else c.t2, if c.t1 = 0 then 97 else c.t3, 0, 0, gen, 0, gen, 0]

/-- The fields of a new ELASTIC region with their values. -/
def elasticFields (c : Spec) (loc gen : Nat) : List (Fld × Nat) := createRegs.zip (elasticValues c loc gen)

theorem elasticFields_regs (c : Spec) (loc gen : Nat) : (elasticFields c loc gen).map Prod.fst = createRegs := rfl

theorem State.activate_elastic {s : State} {c : Spec} (htype : c.type = 2) (hoffer : c.offer = false)
    (hvk4 : s.vk4 = false) (loc : Nat) :
    s.activate c loc = (s.wrFields c.slot (elasticFields c loc (s.curGen c.slot + 1))).watchFree := by
  simp only [State.activate, htype, hoffer, hvk4, Bool.false_eq_true, if_false, decide_true, if_true]
  rfl

/-- Each field of the new region reads its value. -/
theorem State.rd_elastic (s : State) {r : Nat} (hr : r < 64) (c : Spec) (loc gen : Nat) {f : Fld} {v : Nat}
    (hf : (f, v) ∈ elasticFields c loc gen) :
    (s.wrFields r (elasticFields c loc gen)).watchFree.rd f r = v % 2 ^ f.width := by
  have hmem : f ∈ createRegs := (elasticFields_regs c loc gen) ▸ List.mem_map_of_mem (f := Prod.fst) hf
  have happart : ∀ f ∈ createRegs, ∀ r < 64, f.key r 0 ≠ (F.EVT_RAW_CAUSE 9).key 0 0 ∧ ¬ InBlock 14 (f.key r 0) := by
    decide
  have hnodup : ((elasticFields c loc gen).map fun x => x.1.key 0 0).Nodup := by
    have hregs : (createRegs.map fun f => f.key 0 0).Nodup := by decide
    rwa [← elasticFields_regs c loc gen, List.map_map] at hregs
  rw [(State.watchFree_frame _).rd _ _ _ (happart f hmem r hr).1 (happart f hmem r hr).2]
  exact s.rd_wrFields hnodup hf

theorem State.elastic_frame (s : State) {r : Nat} (hr : r < 64) (c : Spec) (loc gen : Nat) :
    Frame [.scr, .evt] DeleteKeys s (s.wrFields r (elasticFields c loc gen)).watchFree := by
  have hblocks : ∀ f ∈ createRegs, f.regional 6 = true ∨ f.regional 8 = true := by decide
  have hfields : Frame [.scr, .evt] DeleteKeys s (s.wrFields r (elasticFields c loc gen)) :=
    s.wrFields_frame fun x hx =>
      (hblocks x.1 ((elasticFields_regs c loc gen) ▸ List.mem_map_of_mem (f := Prod.fst) hx)).imp
        (Fld.inBlock_regional · hr) fun h => .inl (Fld.inBlock_regional h hr)
  exact hfields.watchFree (by decide) (by decide) (.inr (.inr rfl))

/-- A creation without a bad field names one of the 64 slots. -/
theorem State.slot_of_badCreate_none {s : State} {p : List Byte} (h : s.badCreate p = none) :
    (Spec.ofInput p).slot < 64 := by
  unfold State.badCreate at h
  obtain ⟨hfields, -⟩ := Option.or_eq_none_iff.1 h
  have hfirst := List.find?_eq_none.1 (Option.map_eq_none_iff.1 hfields) _ List.mem_cons_self
  exact Nat.lt_succ_of_le (Nat.not_lt.1 (by simpa using hfirst))

/-- The interval of the map is taken. -/
def State.mapTaken (s : State) (rest : List (Nat × Nat)) : State := s.setTmu { s.tmu with mapFree := rest }

theorem State.place_elastic {s : State} {c : Spec} (htype : c.type = 2) (hnear : s.nearOnly = false)
    (hroom : s.committed + c.commit ≤ s.rd F.TMU_CAP_TOTAL_SECTORS) {a : Nat} {rest : List (Nat × Nat)}
    (hfit : ivFirstFit s.tmu.mapFree (c.size * 131072) = some (a, rest)) :
    s.place c = .ok (a, s.mapTaken rest) := by
  have hfixed : decide (c.type = 1 ∨ c.type = 3) = false := by rw [htype]; rfl
  rw [State.place, if_neg (Nat.not_lt.2 hroom), hnear, hfixed]
  simp only [Bool.false_eq_true, if_false, hfit]
  rfl

/-- REGION_CREATE of an ELASTIC region for which there is a slot, a range, capacity and a map. -/
theorem State.regionCreate_served {s : State} {src : MboxSrc} (hready : MboxReady s src (.perm 0)) {p : List Byte}
    (hlen : p.length = 64) {c : Spec} (hc : c = Spec.ofInput p) (hbad : s.badCreate p = none) (htype : c.type = 2)
    (hnear : s.nearOnly = false) (hheld : s.slotHeld c.slot = false)
    (hstate : s.rgnState c.slot = 0) (hrange : c.base + c.size ≤ 16384) (hover : s.overlapped c.base c.size = none)
    (hvk4 : s.vk4 = false) (hgen : s.curGen c.slot < 0xffffffff)
    (hroom : s.committed + c.commit ≤ s.rd F.TMU_CAP_TOTAL_SECTORS) {a : Nat} {rest : List (Nat × Nat)}
    (hfit : ivFirstFit s.tmu.mapFree (c.size * 131072) = some (a, rest)) :
    s.regionCreate src p = ((s.mapTaken rest).activate c a).reply src 0xc001 rcSuccess
      (resultHeader 0 0 ++ (leBytes 8 a ++ leBytes 8 (reserveOf c.dirtyCap))) := by
  subst hc
  have hgone : s.typeGone 2 = false := by simp [State.typeGone, hnear]
  refine State.avsar_ok hready hlen ?_
  simp only [hbad, hover, State.place_elastic htype hnear hroom hfit]
  simp [htype, hgone, hheld, hstate, Nat.not_lt.2 hrange, hvk4, Nat.ne_of_lt hgen]

/-! ## The steps of an initialization (R62) -/

/-- The next n entries stand in the map. -/
def State.initStep (s : State) (r w : Nat) : State := (s.wrI F.TMU_RGN_INIT_WATERMARK r w).leaveInternal 13 false

theorem execRegionInitStep_admitted {s s1 : State} {r n tiles : Nat} (hserving : s.serving = true)
    (hactive : s.rgnState r = 1) (hdel : s.isDeleting r = false) (hnear : s.nearOnly = false) (hpos : 0 < n)
    (htiles : s.rgnTiles r = tiles) (hle : s.rd F.TMU_RGN_INIT_WATERMARK r + n ≤ tiles)
    (hadmit : s.admitInternal 13 (32 * n) = some s1) :
    execRegionInitStep r n s = .next
      (if n = tiles - s.rd F.TMU_RGN_INIT_WATERMARK r then
        (s1.initStep r (s.rd F.TMU_RGN_INIT_WATERMARK r + n)).raise cInitDone (region := some r)
      else s1.initStep r (s.rd F.TMU_RGN_INIT_WATERMARK r + n)) := by
  have hleft : n ≤ tiles - s.rd F.TMU_RGN_INIT_WATERMARK r := by omega
  simp only [execRegionInitStep, htiles, hserving, hactive, hdel, hnear, hpos, hleft, hadmit, Bool.false_eq_true,
    false_and, if_false, Bool.not_false, true_or, and_self, if_true]
  rfl

/-- The watermark stands where it was put, and besides only ADM works. -/
theorem State.initStep_spec {s s1 : State} (hadmit : AdmFrame s s1) {r w : Nat} (hr : r < 64) (hw : w < 2 ^ 32) :
    (s1.initStep r w).rd F.TMU_RGN_INIT_WATERMARK r = w ∧
      Frame [.adm, .evt] (fun key => key = F.TMU_RGN_INIT_WATERMARK.key r 0 ∨ InBlock 4 key) s (s1.initStep r w) := by
  have hkeys : ∀ r < 64, ¬ InBlock 4 (F.TMU_RGN_INIT_WATERMARK.key r 0) ∧
      ¬ InBlock 14 (F.TMU_RGN_INIT_WATERMARK.key r 0) := by decide
  have hleave := (AdmWork.leaveInternal (s1.wrI F.TMU_RGN_INIT_WATERMARK r w) (c := 13) (by decide)).frame
  refine ⟨?_, ((hadmit.mono (fun _ h => h) fun _ hk => .inr hk).wrI _ _ _ (.inl (.inl rfl))).trans
    (hleave.mono (fun _ h => h) fun _ hk => .inr hk)⟩
  rw [State.initStep, hleave.rd _ _ _ (hkeys r hr).1 (hkeys r hr).2, State.rd_wrI_same]
  exact Nat.mod_eq_of_lt (Nat.lt_of_lt_of_le hw (by decide))

/-- The end of an initialization is reported, and the watermark stays. -/
theorem State.initDone_spec (s : State) {r : Nat} (hr : r < 64) :
    (s.raise cInitDone (region := some r)).rd F.TMU_RGN_INIT_WATERMARK r = s.rd F.TMU_RGN_INIT_WATERMARK r ∧
      Frame [.evt] (fun key => key = (F.EVT_RAW_CAUSE 6).key 0 0) s (s.raise cInitDone (region := some r)) := by
  have hkeys : ∀ r < 64, F.TMU_RGN_INIT_WATERMARK.key r 0 ≠ (F.EVT_RAW_CAUSE 6).key 0 0 ∧
      ¬ InBlock 14 (F.TMU_RGN_INIT_WATERMARK.key r 0) := by decide
  have hframe : Frame [.evt] (fun key => key = (F.EVT_RAW_CAUSE 6).key 0 0) s (s.raise cInitDone (region := some r)) :=
    (Frame.refl _ _ s).raise cInitDone _ _ _ (by decide) (.inl rfl)
  exact ⟨hframe.rd _ _ _ (hkeys r hr).1 (hkeys r hr).2, hframe⟩

/-- Settles O21: the command, a step in the middle and the last step. -/
theorem regionCreate : Obligations.RegionCreate := by
  unfold Obligations.RegionCreate
  refine ⟨?create, ?step, ?last⟩
  case create =>
    intro s src p c a rest hcur hst hup hfree hperm hlen hc hbad htype hoffer hnear hheld hstate hrange hover hvk4 hgen
      hroom hfit
    have hr : c.slot < 64 := hc ▸ State.slot_of_badCreate_none hbad
    have hserved := State.regionCreate_served ⟨hcur, hst, hup, hfree, hperm⟩ hlen hc hbad htype hnear hheld hstate
      hrange hover hvk4 hgen hroom hfit
    rw [State.activate_elastic (s := s.mapTaken rest) htype hoffer hvk4] at hserved
    have hnew := State.elastic_frame (s.mapTaken rest) hr c a (s.curGen c.slot + 1)
    have hread := @State.rd_elastic (s.mapTaken rest) c.slot hr c a (s.curGen c.slot + 1)
    have hframe : Frame [.tmu, .scr, .evt] DeleteKeys s
        ((s.mapTaken rest).wrFields c.slot (elasticFields c a (s.curGen c.slot + 1))).watchFree :=
      ((Frame.refl _ _ s).setTmu _ (by decide)).trans (hnew.mono (by decide) fun _ hk => hk)
    have hmap := congrArg Tmu.mapFree (hnew.1 .tmu (by decide))
    have hcur' : (s.mapTaken rest).curGen c.slot = s.curGen c.slot := rfl
    rw [hcur'] at hserved
    generalize ((s.mapTaken rest).wrFields c.slot (elasticFields c a (s.curGen c.slot + 1))).watchFree = t at *
    obtain ⟨hans, hall⟩ := served_of_frame hframe (by decide) (by decide) src 0xc001 rcSuccess
      (resultHeader 0 0 ++ (leBytes 8 a ++ leBytes 8 (reserveOf c.dirtyCap)))
    have hreply {f : Fld} {v : Nat} (hf : (f, v) ∈ elasticFields c a (s.curGen c.slot + 1)) :=
      (State.reply_rd t src 0xc001 rcSuccess (resultHeader 0 0 ++ (leBytes 8 a ++ leBytes 8 (reserveOf c.dirtyCap)))
        f c.slot 0).trans (hread hf)
    simp only [elasticFields, createRegs, elasticValues, List.zip_cons_cons, List.mem_cons] at hreply
    refine ⟨_, congrArg Host.Outcome.next hserved, hreply (v := 1) ?_, hreply (v := 2) ?_, hreply ?_, hreply ?_, hreply ?_,
      hreply ?_, (hreply (v := s.curGen c.slot + 1) ?_).trans (Nat.mod_eq_of_lt (Nat.succ_lt_succ hgen)),
      hreply (v := 0) ?_, hreply (v := 0) ?_, hreply (v := 0) ?_, hreply ?_, hreply ?_, hreply ?_, ?mapFree, hans, hall⟩
    case mapFree => rw [State.reply_eq]; exact hmap
    all_goals simp only [true_or, or_true]
  case step =>
    intro s r n hr hserving hactive hdel hnear hpos hlt hbound hfree
    obtain ⟨s1, hadmit, hframe, -, -⟩ := State.admitInternal_of_free (s := s) (c := 13) (by decide) hfree
    obtain ⟨hmark, hkeep⟩ := State.initStep_spec hframe hr (w := s.rd F.TMU_RGN_INIT_WATERMARK r + n)
      (Nat.lt_trans hlt hbound)
    have hstep := execRegionInitStep_admitted hserving hactive hdel hnear hpos rfl (Nat.le_of_lt hlt) hadmit
    rw [if_neg (by omega)] at hstep
    exact ⟨_, hstep, hmark, hkeep.1 .near (by decide), hkeep⟩
  case last =>
    intro s r n hr hserving hactive hdel hnear hpos heq hbound hfree
    obtain ⟨s1, hadmit, hframe, -, -⟩ := State.admitInternal_of_free (s := s) (c := 13) (by decide) hfree
    obtain ⟨hmark, hkeep⟩ := State.initStep_spec hframe hr (w := s.rd F.TMU_RGN_INIT_WATERMARK r + n)
      (by rw [heq]; exact hbound)
    obtain ⟨hstays, hraised⟩ := State.initDone_spec (s1.initStep r (s.rd F.TMU_RGN_INIT_WATERMARK r + n)) hr
    have hstep := execRegionInitStep_admitted hserving hactive hdel hnear hpos rfl (Nat.le_of_eq heq) hadmit
    rw [if_pos (by omega)] at hstep
    refine ⟨_, hstep, hstays.trans (hmark.trans heq), State.raise_testBit _ cInitDone _ _ _ (by decide), ?_⟩
    exact (hkeep.mono (fun _ h => h) fun _ hk => hk.imp id .inl).trans
      (hraised.mono (by decide) fun _ hk => .inr (.inr hk))

end Sys2Proof.Machine
end

section
/-!
PROOFS of O37: a port reset that drops a request whose ingress does not exist.
-/
namespace Sys2Proof.Machine
open Sys2Proof.Safety

/-- The key of the count that ingress 600 would have for class 2: a register page of TMU. -/
def farStrayKey : Nat := (outF 2).key 600 0

/-- A host read of port 0 that waits for its tile's entry, noted with ingress 600. -/
def strayWaiting : Waiting :=
  { req := { strayCounted.hostReq .read 0 0 8256 { mv := .invalid, err := .none } 6 with
      id := 3, ing := 600, cls := 2, unit := 1, hold := some (1, 0) },
    why := .miss, slot := 1, tile := 2 }

/-- Out of reset, with the link of port 0 up, that read waiting, and one unit counted for ingress 600 under class 2. -/
def strayPort : State :=
  let s := ((State.reset.setAon { State.reset.aon with held := false }).wrI F.HLX_PORT_STS_LINK_UP 0 1).outAdd 600 2 1
  s.setTmu { s.tmu with waits := [strayWaiting] }

/-- The stray count falls from 1 to 0, its reset value, so that it is listed no more. -/
theorem portReset_lowers_strayCount :
    regAfter (.portReset 0) strayPort farStrayKey = none ∧ mget strayPort.regs farStrayKey = some 1 := by
  decide +kernel

/-- Refutes O37: in strayPort a read of the head that resets came from an ingress that does not exist (R334 has 0 to 19), and
dropping it lowers a count in a register page of TMU, outside the frame of PORT_RESET. The clause lacks a bound on the
ingress (and the class) of the head's requests inside the device. -/
theorem not_hostPorts : ¬ Obligations.HostPorts := by
  unfold Obligations.HostPorts
  rintro ⟨-, hreset, -⟩
  obtain ⟨t, hexec, -, -, -, -, -, -, -, -, -, -, hframe⟩ := hreset strayPort 0 rfl rfl (by decide) (by decide) (by decide)
    (by decide) (by decide) (by decide) (by simp [show strayPort.dir.busy = [] from rfl])
    (by simp [show strayPort.tmu.offers = [] from rfl])
  obtain ⟨hafter, hbefore⟩ := portReset_lowers_strayCount
  exact not_frame_of_regAfter_ne hexec (by rw [hafter, hbefore]; simp) (by decide) (by decide) hframe

end Sys2Proof.Machine
end

section
/-!
PROOFS of O36: coherence commands of hosts, answers to snoops, their timeouts, and the end of a head's reset sweep.
-/
namespace Sys2Proof.Machine
open Sys2Proof.Safety

/-! ## A set's entries -/

/-- An entry put in the place of another is the first that a test finds, when no entry before passed it. -/
theorem find?_putFirst {sel pick : DirEnt → Bool} {x : DirEnt} {l : List DirEnt} (hnone : l.find? sel = none)
    (hroom : l.any pick = true) (hx : sel x = true) : (putFirst pick x l).find? sel = some x := by
  induction l with
  | nil => simp at hroom
  | cons e l ih =>
    have he : sel e = false := by simpa using List.find?_eq_none.1 hnone e (by simp)
    rw [List.find?_cons_of_neg (by simp [he])] at hnone
    cases hpick : pick e with
    | true => simp [putFirst, hpick, hx]
    | false => simp [putFirst, hpick, he, ih hnone (by simpa [hpick] using hroom)]

/-- A set that holds an entry in use reads back as it was written. -/
theorem State.dirEnts_putDirEnts (s : State) (n : Nat) {l : List DirEnt}
    (h : l.all (fun e => decide (e.state = .i)) = false) : (s.putDirEnts n l).dirEnts n = l := by
  simp [State.dirEnts, State.putDirEnts, h, mget_mput_same]

/-- An untracked line takes a free entry of its set (R316). -/
theorem State.dirFind_dirPut_of_untracked {s : State} {line sharers : Nat} {st : DState} (hnone : s.dirFind line = none)
    (hroom : s.dirRoom line = true) (hst : st ≠ .i) (hsh : sharers ≠ 0) :
    (s.dirPut line st sharers).dirFind line = some { line := line, state := st, sharers := sharers } := by
  have hfind := find?_putFirst (x := { line := line, state := st, sharers := sharers }) hnone hroom (by simp [hst])
  have hused : (putFirst (fun e => decide (e.state = .i)) { line := line, state := st, sharers := sharers }
      (s.dirEnts (dirSet line))).all (fun e => decide (e.state = .i)) = false :=
    List.all_eq_false.2 ⟨_, List.mem_of_find?_eq_some hfind, by simp [hst]⟩
  rw [State.dirPut, hnone, if_neg (by simp), if_neg hsh, if_neg hsh, State.dirFind, State.dirEnts_putDirEnts _ _ hused]
  exact hfind

/-! ## What an operation on the directory changes of its data -/

/-- A line's entry stands in the sparse sets, and nowhere else. -/
theorem State.dirPut_shape (s : State) (line : Nat) (st : DState) (sharers : Nat) :
    ∃ x, s.dirPut line st sharers = s.setDir { s.dir with sets := x } := by
  unfold State.dirPut
  by_cases hheld : (s.dirFind line).isSome = true
  · exact ⟨_, if_pos hheld⟩
  · by_cases hnone : sharers = 0
    · exact ⟨s.dir.sets, (if_neg hheld).trans (if_pos hnone)⟩
    · exact ⟨_, (if_neg hheld).trans (if_neg hnone)⟩

theorem State.dirDrop_eq {s : State} {line : Nat} {e : DirEnt} (h : s.dirFind line = some e) (head : Nat) :
    s.dirDrop line head = s.dirPut line e.state (clrBit e.sharers head) := by
  rw [State.dirDrop, h]

theorem State.dirDrop_shape (s : State) (line h : Nat) :
    ∃ x, s.dirDrop line h = s.setDir { s.dir with sets := x } := by
  unfold State.dirDrop
  split
  · exact State.dirPut_shape _ _ _ _
  · exact ⟨s.dir.sets, rfl⟩

/-- Installing a line changes the directory cache (R313). -/
theorem State.dirInstall_shape (s : State) (line : Nat) :
    ∃ c, s.dirInstall line = s.setDir { s.dir with cache := c } := by
  simp only [State.dirInstall]
  split <;> exact ⟨_, rfl⟩

@[simp] theorem State.dirFind_emit (s : State) (o : Out) (line : Nat) :
    (s.emit o).dirFind line = s.dirFind line := rfl

@[simp] theorem State.dirFind_dirInstall (s : State) (x line : Nat) :
    (s.dirInstall x).dirFind line = s.dirFind line := by
  obtain ⟨c, hc⟩ := s.dirInstall_shape x
  rw [hc]; rfl

end Sys2Proof.Machine

namespace Sys2Proof.Safety
open Sys2Proof.Machine

section
variable {P : List Part} {K : Nat → Prop} {s t : State}

theorem Frame.dirPut (h : Frame P K s t) (line : Nat) (st : DState) (sharers : Nat) (hd : .dir ∈ P) :
    Frame P K s (t.dirPut line st sharers) := by
  obtain ⟨x, hx⟩ := t.dirPut_shape line st sharers
  rw [hx]; exact h.setDir _ hd

theorem Frame.dirDrop (h : Frame P K s t) (line head : Nat) (hd : .dir ∈ P) :
    Frame P K s (t.dirDrop line head) := by
  obtain ⟨x, hx⟩ := t.dirDrop_shape line head
  rw [hx]; exact h.setDir _ hd

theorem Frame.dirInstall (h : Frame P K s t) (line : Nat) (hd : .dir ∈ P) : Frame P K s (t.dirInstall line) := by
  obtain ⟨x, hx⟩ := t.dirInstall_shape line
  rw [hx]; exact h.setDir _ hd

/-- The port of a head, read through a frame that leaves the bifurcation alone. -/
theorem Frame.portOf (h : Frame P K s t) (hk : ¬ K (F.HLX_BIFUR_MERGE_ACT.key 0 0)) (n : Nat) :
    t.portOf n = s.portOf n := by
  rw [State.portOf, State.merged, h.rd _ _ _ hk (by decide)]; rfl

/-- Whether a set is unknown, read through a frame that leaves the record of unknown sets alone. -/
theorem Frame.setUnknown (h : Frame P K s t) (hb : ¬ K (F.DIR_STATUS_BROADCAST.key 0 0))
    (hv : ∀ i < 64, ¬ K (F.DIR_UNKNOWN_VALID.key 0 i)) (hs : ∀ i < 64, ¬ K (F.DIR_UNKNOWN_SET.key 0 i)) (n : Nat) :
    t.setUnknown n = s.setUnknown n := by
  have hpmu : ∀ i < 64, ¬ InBlock 14 (F.DIR_UNKNOWN_VALID.key 0 i) ∧ ¬ InBlock 14 (F.DIR_UNKNOWN_SET.key 0 i) := by
    decide
  rw [State.setUnknown, State.setUnknown, h.rdb _ _ _ hb (by decide)]
  congr 1
  rw [Bool.eq_iff_iff, List.any_eq_true, List.any_eq_true]
  refine exists_congr fun i => and_congr_right fun hi => ?_
  have hlt := List.mem_range.1 hi
  rw [h.rdb _ _ _ (hv i hlt) (hpmu i hlt).1, h.rd _ _ _ (hs i hlt) (hpmu i hlt).2]

end

end Sys2Proof.Safety

namespace Sys2Proof.Machine
open Sys2Proof.Safety

/-! ## A lookup -/

/-- The counts of lookups (R313). -/
abbrev LookKeys (key : Nat) : Prop :=
  key = F.DIR_CNT_LOOKUP_MISS.key 0 0 ∨ key = F.DIR_CNT_LOOKUP_HIT.key 0 0

/-- A counter of the directory advances: only it and what counts events change. -/
theorem State.count_frame (s : State) {f : Fld} (hf : f.blk < 14) :
    Frame [.evt] (fun key => key = f.key 0 0) s (s.bump f) :=
  (Frame.refl _ _ s).bump _ _ _ _ _ _ (by decide) hf (.inl rfl)

theorem State.lookCount_frame (s : State) (line : Nat) : Frame [.evt] LookKeys s
    (if (mget s.dir.cache line).isSome then s.bump F.DIR_CNT_LOOKUP_HIT else s.bump F.DIR_CNT_LOOKUP_MISS) :=
  Frame.ite _ (fun _ => (s.count_frame (by decide)).mono (by decide) fun _ => .inr)
    fun _ => (s.count_frame (by decide)).mono (by decide) fun _ => .inl

theorem State.dirLook_frame (s : State) (line : Nat) : Frame [.dir, .evt] LookKeys s (s.dirLook line) :=
  ((s.lookCount_frame line).mono (by decide) fun _ hk => hk).dirInstall line (by decide)

/-- A lookup leaves the sparse sets as they are. -/
theorem State.dirEnts_dirLook (s : State) (line n : Nat) : (s.dirLook line).dirEnts n = s.dirEnts n := by
  obtain ⟨c, hc⟩ := State.dirInstall_shape _ line
  rw [State.dirLook, hc, State.dirEnts, State.setDir_dir, (s.lookCount_frame line).1 .dir (by decide)]
  rfl

@[simp] theorem State.dirFind_dirLook (s : State) (x line : Nat) : (s.dirLook x).dirFind line = s.dirFind line := by
  rw [State.dirFind, State.dirEnts_dirLook]; rfl

@[simp] theorem State.dirRoom_dirLook (s : State) (x line : Nat) : (s.dirLook x).dirRoom line = s.dirRoom line := by
  rw [State.dirRoom, State.dirEnts_dirLook]; rfl

@[simp] theorem State.setUnknown_dirLook (s : State) (line n : Nat) :
    (s.dirLook line).setUnknown n = s.setUnknown n :=
  (s.dirLook_frame line).setUnknown (by decide) (by decide) (by decide) n

/-! ## A request to an untracked line -/

/-- The directory is at rest: no line is busy, no sweep runs, and the block is not in reset. -/
structure DirIdle (s : State) : Prop where
  busy : s.dir.busy = []
  sweeps : s.dir.sweeps = []
  blocks : s.aon.blocks = []

theorem DirIdle.setTmu {s : State} (h : DirIdle s) (x : Tmu) : DirIdle (s.setTmu x) := ⟨h.busy, h.sweeps, h.blocks⟩

/-- A line is untracked, in a set that is sound, known and not full. -/
structure Untracked (s : State) (line : Nat) : Prop where
  sound : (s.dirEnts (dirSet line)).all DirEnt.wellFormed = true
  none : s.dirFind line = none
  room : s.dirRoom line = true
  known : s.setUnknown (dirSet line) = false

theorem Untracked.setTmu {s : State} {line : Nat} (h : Untracked s line) (x : Tmu) : Untracked (s.setTmu x) line :=
  ⟨h.sound, h.none, h.room, h.known⟩

/-- A request to an untracked line needs no snoop and passes (Table 9.3). -/
theorem State.dirStep_untracked {s : State} {q : Req} (hidle : DirIdle s) (hline : Untracked s (q.addr / 64))
    (herr : q.err = .none) (slot : Nat) :
    s.dirStep q slot = .pass (((s.dirLook (q.addr / 64)).dirAfter q).dirInstall (q.addr / 64)) := by
  have hq : { q with err := .none } = q := by rw [← herr]
  have hbusy : s.busyOf (q.addr / 64) = none := by rw [State.busyOf, hidle.busy]; rfl
  have hbars : s.sweepBars (s.reqHead q) slot = false := by rw [State.sweepBars, hidle.sweeps]; rfl
  have hfree : ¬ (s.aon.blocks.contains 5 = true ∨ s.evictsFor q = true) := by
    simp [State.evictsFor, hidle.blocks, hidle.busy]
  have hmeets : s.dirMeets (q.addr / 64) q.err = s := by rw [herr]; exact if_pos (.inr hline.sound)
  have hneed : ((s.dirLook (q.addr / 64)).needSnoops q ((s.dirLook (q.addr / 64)).owner slot)) = (.inv, []) := by
    simp only [State.needSnoops, State.dirFind_dirLook, hline.none, State.setUnknown_dirLook, hline.known]
    rfl
  simp only [State.dirStep, hq, hbusy, hbars, if_neg hfree, hmeets, hneed, hline.known, State.dirFind_dirLook, hline.none,
    State.dirRoom_dirLook, hline.room, List.isEmpty_nil, Bool.and_false, Bool.not_true, Bool.false_eq_true, and_false,
    if_true, if_false]

/-! ## A request to a SHARED region -/

/-- A request of LD l of head h on CXL.mem, outside the windows, that decodes to SHARED region r (R282, R53, R308). -/
structure SharedReq (s : State) (h l : Nat) (hpa dpa : BitVec 64) (look : DirLook) (tag r : Nat) : Prop where
  ready : HostReady s h l
  covered : (s.hdmDecode h l hpa.toNat).map (BitVec.ofNat 64) = some dpa
  outside : (s.hostReq .inv h l dpa look tag).inWindow = false
  region : s.regionAt (dpa.toNat % 2 ^ 46) s.tmu.nextId = some r
  tags : s.tagBitsOk h dpa.toNat = true
  admitted : s.admits h l r = true
  shared : s.rgnType r = 3
  noClass : bits dpa.toNat 49 46 = 0
  unfenced : (s.rd F.DIR_FENCE_HEADS).testBit h = false

/-- The request under the id that is next. -/
def State.hostInv (s : State) (h l : Nat) (dpa : BitVec 64) (look : DirLook) (tag : Nat) : Req :=
  { s.hostReq .inv h l dpa look tag with id := s.tmu.nextId }

section
variable {s : State} {h l : Nat} {hpa dpa : BitVec 64} {look : DirLook} {tag r : Nat}

theorem SharedReq.decode (hq : SharedReq s h l hpa dpa look tag r) :
    s.decode (s.hostInv h l dpa look tag) = .ok r := by
  have hbad : (s.hostInv h l dpa look tag).bad = 0 := if_pos hq.tags
  have hregion : s.regionAt (s.hostInv h l dpa look tag).addr (s.hostInv h l dpa look tag).id = some r := hq.region
  have hclass : bits (s.hostInv h l dpa look tag).raw 49 46 = 0 := hq.noClass
  have horg : (s.hostInv h l dpa look tag).org = .host h l tag := rfl
  simp [State.decode, horg, hbad, hregion, hclass, hq.admitted, hq.unfenced]

/-- MemClnEvct (R316): the head leaves the line. -/
theorem SharedReq.execMemClnEvct (hq : SharedReq s h l hpa dpa { mv := .invalid, err := .none } tag r) :
    exec (.memClnEvct h l hpa tag) s =
      .next ((s.dirDrop (dpa.toNat % 2 ^ 46 / 64) h).emit (.done h l tag .cmp)) := by
  refine congrArg Host.Outcome.next ((State.throughHdm_covered hq.ready tag false _ hq.covered).trans ?_)
  have hout : (s.hostInv h l dpa { mv := .invalid, err := .none } tag).inWindow = false := hq.outside
  have hdec := hq.decode
  simp only [State.hostInv] at hout hdec
  simp only [hout, hdec, hq.shared, if_true, Bool.false_eq_true, if_false]
  rfl

/-- MemInv outside the windows goes to TMU at once. -/
theorem SharedReq.execMemInv (hq : SharedReq s h l hpa dpa look tag r) :
    exec (.memInv h l hpa look tag) s = .next (s.freshId.2.serve (s.hostInv h l dpa look tag) none) :=
  congrArg Host.Outcome.next ((State.throughHdm_covered hq.ready tag false _ hq.covered).trans
    (if_neg (by rw [hq.outside]; simp)))

end

/-! ## A request on its way to the directory -/

/-- TMU serves a decoded request in its region, and holds what it found (R60). -/
theorem State.serve_decoded {s : State} {q : Req} {r : Nat} (hgone : s.jobGone q = false) (hhold : q.hold = none)
    (hdec : s.decode q = .ok r) (hvk : s.vk4 = false) (was : Option Why) :
    s.serve q was = s.serveIn { q with hold := some (r, s.rd F.TMU_RGN_POLICY_TIER r) } r was := by
  simp [State.serve, hgone, hhold, hdec, hvk]

theorem State.serveIn_local {s : State} {r : Nat} (hlost : s.rgnState r ≠ 3) (hfar : s.rgnType r ≠ 4)
    (hnear : s.nearOnly = false) (q : Req) (was : Option Why) :
    s.serveIn q r was = s.serveLocal q r (s.offsetOf q r) was := by
  simp [State.serveIn, hlost, hfar, hnear]

/-- A tile whose sound entry is cached and that nothing moves: its use is noted and the directory comes next (R70). -/
theorem State.serveLocal_cached {s : State} {r off : Nat} {ent : CacheEnt} (hswept : s.ras.sweep = none)
    (hent : mget s.tmu.cache (tkey r (off / 4096)) = some ent) (hsound : s.tmeFault r (off / 4096) ent.tme = 0)
    (hmoves : s.tmu.moves = []) (q : Req) (was : Option Why) :
    s.serveLocal q r off was = (s.setTmu (s.tmu.noteUse (tkey r (off / 4096)) ent)).coherent q r (off / 4096)
      (fun s q => s.serveTile q r (off / 4096) (off / 64 % 64) was) := by
  have huse : s.useEntry r (off / 4096) = s.setTmu (s.tmu.noteUse (tkey r (off / 4096)) ent) := by
    rw [State.useEntry, hent]; rfl
  have hcached : s.cached r (off / 4096) = true := by rw [State.cached, hent]; rfl
  have hkept : s.unswept r (off / 4096) = false := by rw [State.unswept, hswept]
  have hgood : (s.setTmu (s.tmu.noteUse (tkey r (off / 4096)) ent)).tmeFault r (off / 4096) ent.tme = 0 := hsound
  have hlock : (s.setTmu (s.tmu.noteUse (tkey r (off / 4096)) ent)).lockOf r (off / 4096) = none := by
    simp [State.lockOf, Tmu.noteUse, hmoves]
  simp only [State.serveLocal, hkept, hcached, huse, State.tme_noteUse, hgood, hlock, ne_eq, not_true, Bool.not_true,
    Bool.false_eq_true, if_false]

/-- A host's request without data that the directory passes is completed with its grant (Table 9.3). -/
theorem State.coherent_inv_passed {s t : State} {q : Req} {r h l tag : Nat} (hkind : q.kind = .inv)
    (horg : q.org = .host h l tag) (hnew : q.snooped = false) (hwaits : s.tmu.waits = []) (hshared : s.rgnType r = 3)
    (hpass : s.dirStep q r = .pass t) (tile : Nat) (mem : State → Req → State) :
    s.coherent q r tile mem = t.emit (.done h l tag ({ q with snooped := true } : Req).grant) := by
  have hbehind : s.behind q r tile = none := by rw [State.behind, hwaits]; rfl
  simp [State.coherent, Req.writes, hkind, horg, hnew, hbehind, hshared, hpass]

/-- The line of a request that asks for the line whole becomes its head's, in E (Table 9.3). -/
theorem State.dirAfter_owns (s : State) {q : Req} (hmv : q.mv = .any) :
    s.dirAfter q = s.dirPut (q.addr / 64) .e (2 ^ s.reqHead q) := by
  simp [State.dirAfter, hmv]

/-- The tile's sound entry is cached, no move holds the tile and no request waits. -/
structure TileReady (s : State) (r tile : Nat) (ent : CacheEnt) : Prop where
  swept : s.ras.sweep = none
  entry : mget s.tmu.cache (tkey r tile) = some ent
  sound : s.tmeFault r tile ent.tme = 0
  moves : s.tmu.moves = []
  waits : s.tmu.waits = []

/-- The state once a head has taken an untracked line whole. -/
def State.lineTaken (s : State) (line h : Nat) : State :=
  ((s.dirLook line).dirPut line .e (2 ^ s.portOf h)).dirInstall line

theorem State.lineTaken_frame (s : State) (line h : Nat) : Frame [.dir, .evt] LookKeys s (s.lineTaken line h) :=
  ((s.dirLook_frame line).dirPut _ _ _ (by decide)).dirInstall _ (by decide)

theorem State.dirFind_lineTaken {s : State} {line : Nat} (hnone : s.dirFind line = none) (hroom : s.dirRoom line = true)
    (h : Nat) : (s.lineTaken line h).dirFind line = some { line := line, state := .e, sharers := 2 ^ s.portOf h } := by
  rw [State.lineTaken, State.dirFind_dirInstall]
  exact State.dirFind_dirPut_of_untracked ((s.dirFind_dirLook line line).trans hnone)
    ((s.dirRoom_dirLook line line).trans hroom) (by decide) (Nat.two_pow_pos _).ne'

/-- A MemInv of LD l of head h that asks for the line whole, as it comes to TMU. -/
structure TakesLine (q : Req) (h l tag : Nat) : Prop where
  kind : q.kind = .inv
  org : q.org = .host h l tag
  mv : q.mv = .any
  err : q.err = .none
  new : q.snooped = false

theorem TakesLine.grant {q : Req} {h l tag : Nat} (hq : TakesLine q h l tag) :
    ({ q with snooped := true } : Req).grant = .cmpE := by
  simp [Req.grant, Req.writes, hq.kind, hq.mv]

section
variable {s : State} {q : Req} {h l tag r : Nat}

/-- At the directory, the head takes the untracked line and the request is complete with CmpE (Table 9.3). -/
theorem State.coherent_takes (hq : TakesLine q h l tag) (hwaits : s.tmu.waits = []) (hshared : s.rgnType r = 3)
    (hidle : DirIdle s) (hun : Untracked s (q.addr / 64)) (tile : Nat) (mem : State → Req → State) :
    s.coherent q r tile mem = (s.lineTaken (q.addr / 64) h).emit (.done h l tag .cmpE) := by
  have hpass := State.dirStep_untracked hidle hun hq.err r
  have hport : (s.dirLook (q.addr / 64)).reqHead q = s.portOf h := by
    rw [State.reqHead, hq.org]
    exact (s.dirLook_frame _).portOf (by decide) h
  rw [State.dirAfter_owns _ hq.mv, hport] at hpass
  rw [State.coherent_inv_passed hq.kind hq.org hq.new hwaits hshared hpass, hq.grant]
  rfl

/-- MemInv in its region, over a tile that is ready, comes to the directory. -/
theorem State.serveIn_takes {tile : Nat} {ent : CacheEnt} (hq : TakesLine q h l tag) (hactive : s.rgnState r = 1)
    (hshared : s.rgnType r = 3) (hnear : s.nearOnly = false) (htile : s.offsetOf q r / 4096 = tile)
    (hready : TileReady s r tile ent) (hidle : DirIdle s) (hun : Untracked s (q.addr / 64)) (was : Option Why) :
    s.serveIn q r was =
      ((s.setTmu (s.tmu.noteUse (tkey r tile) ent)).lineTaken (q.addr / 64) h).emit (.done h l tag .cmpE) := by
  subst htile
  rw [State.serveIn_local (by rw [hactive]; decide) (by rw [hshared]; decide) hnear,
    State.serveLocal_cached hready.swept hready.entry hready.sound hready.moves]
  exact State.coherent_takes (s := s.setTmu (s.tmu.noteUse (tkey r (s.offsetOf q r / 4096)) ent)) hq hready.waits
    hshared (hidle.setTmu _) (hun.setTmu _) _ _

/-- MemInv that TMU decodes is served in its region. -/
theorem State.serve_takes {tile : Nat} {ent : CacheEnt} (hq : TakesLine q h l tag) (hhold : q.hold = none)
    (hdec : s.decode q = .ok r) (hvk : s.vk4 = false) (hactive : s.rgnState r = 1) (hshared : s.rgnType r = 3)
    (hnear : s.nearOnly = false) (htile : s.offsetOf q r / 4096 = tile) (hready : TileReady s r tile ent)
    (hidle : DirIdle s) (hun : Untracked s (q.addr / 64)) :
    s.serve q none =
      ((s.setTmu (s.tmu.noteUse (tkey r tile) ent)).lineTaken (q.addr / 64) h).emit (.done h l tag .cmpE) := by
  have hgone : s.jobGone q = false := by rw [State.jobGone, hq.org]
  have hheld : TakesLine { q with hold := some (r, s.rd F.TMU_RGN_POLICY_TIER r) } h l tag :=
    ⟨hq.kind, hq.org, hq.mv, hq.err, hq.new⟩
  rw [State.serve_decoded hgone hhold hdec hvk]
  exact State.serveIn_takes hheld hactive hshared hnear htile hready hidle hun none

end

/-- The state in which the directory takes a MemInv: its id is taken and the use of its tile's entry is noted. -/
def State.atDirectory (s : State) (r tile : Nat) (ent : CacheEnt) : State :=
  s.freshId.2.setTmu (s.freshId.2.tmu.noteUse (tkey r tile) ent)

theorem State.atDirectory_frame (s : State) (r tile : Nat) (ent : CacheEnt) :
    Frame [.tmu] (fun _ => False) s (s.atDirectory r tile ent) :=
  ((Frame.refl _ _ s).setTmu _ (by decide)).setTmu _ (by decide)

/-- MemInv of an untracked line (R316): the head owns the line in E, and the request is complete with CmpE. -/
theorem SharedReq.execMemInv_untracked {s : State} {h l : Nat} {hpa dpa : BitVec 64} {tag r : Nat} {ent : CacheEnt}
    (hq : SharedReq s h l hpa dpa { mv := .any, err := .none } tag r) (hvk : s.vk4 = false) (hactive : s.rgnState r = 1)
    (hnear : s.nearOnly = false) (hready : TileReady s r ((dpa.toNat % 2 ^ 46 - s.rgnBase r) / 4096) ent)
    (hidle : DirIdle s) (hun : Untracked s (dpa.toNat % 2 ^ 46 / 64)) :
    exec (.memInv h l hpa { mv := .any, err := .none } tag) s =
      .next (((s.atDirectory r ((dpa.toNat % 2 ^ 46 - s.rgnBase r) / 4096) ent).lineTaken
        (dpa.toNat % 2 ^ 46 / 64) h).emit (.done h l tag .cmpE)) :=
  hq.execMemInv.trans (congrArg Host.Outcome.next
    (State.serve_takes (s := s.freshId.2) (q := s.hostInv h l dpa { mv := .any, err := .none } tag)
      ⟨rfl, rfl, rfl, rfl, rfl⟩ rfl hq.decode hvk hactive hq.shared hnear rfl
      ⟨hready.swept, hready.entry, hready.sound, hready.moves, hready.waits⟩ (hidle.setTmu _) (hun.setTmu _)))

/-! ## An answer to a snoop (R317) -/

/-- One snoop is outstanding, of one head, nothing follows its answer and nothing waits. -/
structure LastSnoop (s : State) (h : Nat) (b : Busy) : Prop where
  busy : s.dir.busy = [b]
  heads : b.heads = [h]
  alone : b.then_ = .nothing
  waits : s.tmu.waits = []

/-- The answer fits the snoop (R317): E follows BISnpCur only, S does not follow BISnpInv. -/
def AnswerFits (a : DState) (k : Snoop) : Prop := (a = .e → k = .cur) ∧ (a = .s → k ≠ .inv)

/-- The directory once the entry of the answered line is as the answer tells: the head has left, keeps the line in S, or
stays in E. -/
def State.entryAnswered (s : State) (h line : Nat) : DState → State
  | .i => s.dirDrop line h
  | .s => match s.dirFind line with
    | some e => s.dirPut line .s e.sharers
    | none => s
  | .e => s

theorem State.entryAnswered_shape (s : State) (h line : Nat) (a : DState) :
    ∃ x, s.entryAnswered h line a = s.setDir { s.dir with sets := x } := by
  cases a with
  | i => exact s.dirDrop_shape line h
  | s =>
    simp only [State.entryAnswered]
    split
    · exact s.dirPut_shape _ _ _
    · exact ⟨s.dir.sets, rfl⟩
  | e => exact ⟨s.dir.sets, rfl⟩

/-- No line is busy any more. -/
def State.idled (s : State) : State := s.setDir { s.dir with busy := [] }

/-- The last answer to a snoop that nothing follows: the entry is as it tells and the line is no longer busy. -/
theorem State.dirAnswer_last {s : State} {h : Nat} {b : Busy} (hs : LastSnoop s h b) {a : DState}
    (hfits : AnswerFits a b.snoop) : s.dirAnswer h b.line a = (s.entryAnswered h b.line a).idled := by
  have hbusy : s.busyOf b.line = some b := by simp [State.busyOf, hs.busy]
  have hgood : ¬ (!b.heads.contains h ∨ (a = .e ∧ b.snoop ≠ .cur) ∨ (a = .s ∧ b.snoop = .inv)) := by
    simpa [hs.heads, AnswerFits] using hfits
  obtain ⟨x, hx⟩ := s.entryAnswered_shape h b.line a
  have hlast : (b.heads.filter fun g => decide (g ≠ h)).isEmpty = true := by simp [hs.heads]
  have hfin : (s.entryAnswered h b.line a).dirFinish { b with heads := b.heads.filter fun g => decide (g ≠ h) } =
      (s.entryAnswered h b.line a).idled := by
    rw [hx]
    simp only [State.dirFinish, hs.alone]
    rw [State.resumeWhy_none (by simp [hs.waits])]
    simp [State.idled, hs.busy]
  rw [← hfin]
  simp only [State.dirAnswer, hbusy, if_neg hgood, hlast, if_true]
  cases a <;> rfl

theorem State.entryAnswered_idled_frame (s : State) (h line : Nat) (a : DState) :
    Frame [.dir] (fun _ => False) s (s.entryAnswered h line a).idled := by
  obtain ⟨x, hx⟩ := s.entryAnswered_shape h line a
  rw [hx]
  exact ((Frame.refl _ _ s).setDir _ (by decide)).setDir _ (by decide)

/-- In P0 with no entry under way, the device serves hosts and head h is presented. -/
structure HeadReady (s : State) (h : Nat) : Prop where
  cur : s.rd F.AON_PWR_MODE_CUR = 0
  stage : s.aon.entry.stage = 0
  serving : s.serving = true
  up : s.headUp h = true

theorem State.takeAnswer_ready {s : State} {h : Nat} (hr : HeadReady s h) (line : Nat) (a : DState) :
    s.takeAnswer h line a = s.dirAnswer h line a := by
  rw [State.takeAnswer, s.rouse_of_idle 1 hr.cur hr.stage]
  exact if_pos ⟨hr.serving, hr.up⟩

/-- The command by which a head answers that it holds the line in a state (R317). -/
def answerOf (h line : Nat) : DState → Instr
  | .i => .birspi h line
  | .s => .birsps h line
  | .e => .birspe h line

theorem exec_answerOf_ready {s : State} {h : Nat} (hr : HeadReady s h) (line : Nat) (a : DState) :
    exec (answerOf h line a) s = .next (s.dirAnswer h line a) := by
  rw [← State.takeAnswer_ready hr]
  cases a <;> rfl

theorem exec_answerOf_last {s : State} {h : Nat} {b : Busy} (hr : HeadReady s h) (hs : LastSnoop s h b) {a : DState}
    (hfits : AnswerFits a b.snoop) : exec (answerOf h b.line a) s = .next (s.entryAnswered h b.line a).idled := by
  rw [exec_answerOf_ready hr, State.dirAnswer_last hs hfits]

/-- An answer that nothing asked for is counted (R317). -/
theorem State.dirAnswer_unasked {s : State} {line : Nat} (hnone : s.busyOf line = none) (h : Nat) (a : DState) :
    s.dirAnswer h line a = s.bump F.DIR_CNT_BI_BAD := by
  simp only [State.dirAnswer, hnone]

/-! ## BIConflict (R321) -/

/-- The acknowledgement that waits for no request leaves at once. -/
theorem State.settleConflicts_one {s : State} {h line : Nat} (hdue : s.dir.conflicts = [(h, line)])
    (hopen : s.openReqs h line = []) :
    s.settleConflicts = (s.emit (.conflictAck h line)).setDir { s.dir with conflicts := [] } := by
  simp [State.settleConflicts, hdue, hopen]

theorem State.openReqs_congr {s t : State} (hnear : t.near = s.near) (htmu : t.tmu = s.tmu)
    (hport : ∀ n, t.portOf n = s.portOf n) (h line : Nat) : t.openReqs h line = s.openReqs h line := by
  have hhead : t.reqHead = s.reqHead := funext fun q => by simp only [State.reqHead, hport]
  rw [State.openReqs, hnear, htmu, hhead]; rfl

/-- A conflict noted while none is due leaves the directory as it was: it is acknowledged at once. -/
theorem State.settleConflicts_noted {s : State} {h line : Nat} (hnone : s.dir.conflicts = [])
    (hopen : s.openReqs h line = []) :
    (s.setDir { s.dir with conflicts := s.dir.conflicts ++ [(h, line)] }).settleConflicts =
      s.emit (.conflictAck h line) := by
  have hsettle := State.settleConflicts_one (h := h) (line := line)
    (s := s.setDir { s.dir with conflicts := s.dir.conflicts ++ [(h, line)] }) (by simp [hnone]) hopen
  rw [hsettle, ← hnone]
  rfl

/-- A conflict on a busy line of the head, with none of its requests to the line inside, is counted and acknowledged. -/
theorem execBiconflict_acknowledged {s : State} {h line : Nat} {b : Busy} (hr : HeadReady s h)
    (hbusy : s.busyOf line = some b) (hheads : b.heads.contains h = true) (hopen : s.openReqs h line = [])
    (hnone : s.dir.conflicts = []) :
    exec (.biconflict h line) s = .next ((s.bump F.DIR_CNT_BI_CONFLICT).emit (.conflictAck h line)) := by
  have hframe := s.count_frame (f := F.DIR_CNT_BI_CONFLICT) (by decide)
  have hport := hframe.portOf (by decide)
  have hclear : (s.bump F.DIR_CNT_BI_CONFLICT).dir.conflicts = [] :=
    (congrArg Dir.conflicts (hframe.1 .dir (by decide))).trans hnone
  have hempty : (s.bump F.DIR_CNT_BI_CONFLICT).openReqs h line = [] :=
    (State.openReqs_congr (hframe.1 .near (by decide)) (hframe.1 .tmu (by decide)) hport h line).trans hopen
  refine congrArg Host.Outcome.next (Eq.trans ?_ (State.settleConflicts_noted hclear hempty))
  simp only [s.rouse_of_idle 1 hr.cur hr.stage, hr.serving, hr.up, and_self, if_true, hbusy, hheads]
  rw [if_neg (by rw [hclear]; simp)]

/-! ## BI_TIMEOUT (R323) -/

/-- The head's fence is set. -/
def State.headFenced (s : State) (h : Nat) : State := s.wr F.DIR_FENCE_HEADS (setBit (s.rd F.DIR_FENCE_HEADS) h)

theorem execBiTimeout_last {s : State} {h : Nat} {b : Busy} (hserv : s.serving = true) (hs : LastSnoop s h b) :
    exec (.biTimeout h) s =
      .next (((s.headFenced h).entryAnswered h b.line .i).idled.raise cBiTimeout (heads := [(h, none)])) := by
  have howed : 0 < s.snoopsOut h := by simp [State.snoopsOut, hs.busy, hs.heads]
  have hgone : (s.headFenced h).dirGone h = ((s.headFenced h).entryAnswered h b.line .i).idled := by
    have hlines : ((s.headFenced h).dir.busy.filter fun b => b.heads.contains h).map (·.line) = [b.line] := by
      rw [show (s.headFenced h).dir.busy = [b] from hs.busy]; simp [hs.heads]
    have hlast : LastSnoop (s.headFenced h) h b := ⟨hs.busy, hs.heads, hs.alone, hs.waits⟩
    rw [State.dirGone, hlines, List.foldl_cons, List.foldl_nil, State.dirAnswer_last (a := .i) hlast ⟨nofun, nofun⟩]
  rw [← hgone]
  exact congrArg Host.Outcome.next (if_pos ⟨hserv, howed⟩)

/-! ## The end of a sweep for a head's reset (R327) -/

/-- The fences and the sweep shown of a head are different fields. -/
theorem fence_apart_sweep : ∀ h < 16, F.DIR_FENCE_HEADS.key 0 0 ≠ F.DIR_HEAD_SWEEP.key 0 h := by decide

/-- The head has left every line, its fence is lifted and its sweep is no longer shown. -/
def State.headCleared (s : State) (h : Nat) : State :=
  (((s.dirLines fun e => e.sharers.testBit h).foldl (fun s e => s.dirDrop e.line h) s).wr F.DIR_FENCE_HEADS
    (clrBit (s.rd F.DIR_FENCE_HEADS) h)).wrAt F.DIR_HEAD_SWEEP 0 h 0

/-- A reset sweep has nothing to snoop: once no line is busy for it, it ends. -/
theorem execDirSweepDone_reset {s : State} {n h : Nat} (hsweeps : s.dir.sweeps = [(n, .reset h)])
    (hdone : ∀ b ∈ s.dir.busy, b.then_ ≠ .sweep n) :
    exec (.dirSweepDone n) s = .next ((s.headCleared h).sweepOver n) := by
  have hfind : s.dir.sweeps.find? (fun e => decide (e.1 = n)) = some (n, .reset h) := by simp [hsweeps]
  have hclear : s.dir.busy.any (fun b => decide (b.then_ = .sweep n)) = false := by simpa using hdone
  refine congrArg Host.Outcome.next ?_
  rw [hfind]
  exact if_pos ⟨rfl, by rw [show (s.sweepSend n (.reset h)).dir.busy = s.dir.busy from rfl, hclear]; rfl⟩

/-- With no request waiting, the end of a sweep takes it off the list. -/
theorem State.sweepOver_quiet {s : State} (hwaits : s.tmu.waits = []) (n : Nat) :
    s.sweepOver n = s.setDir { s.dir with sweeps := s.dir.sweeps.filter fun e => decide (e.1 ≠ n) } :=
  State.resumeWhy_none (by simp [hwaits])

/-! ## The commands -/

/-- Settles O36: each command does what the rules above say of it, and leaves what their frames leave. -/
theorem coherence : Obligations.Coherence := by
  unfold Obligations.Coherence
  refine ⟨?memInv, ?memClnEvct, ?answerI, ?answerS, ?answerE, ?unasked, ?conflict, ?timeout, ?sweepDone⟩
  case memInv =>
    intro s h l hpa dpa tag r ent hcur hst htakes hdec hout hsound hreg htags hadm hshared hclass hfence hvk hactive
      hnear hswept hent hfault hmoves hwaits hbusy hsweeps hblocks hnone hroom hknown _
    have hq : SharedReq s h l hpa dpa { mv := .any, err := .none } tag r :=
      ⟨⟨hcur, hst, htakes⟩, hdec, hout, hreg, htags, hadm, hshared, hclass, hfence⟩
    refine ⟨_, hq.execMemInv_untracked hvk hactive hnear ⟨hswept, hent, hfault, hmoves, hwaits⟩
      ⟨hbusy, hsweeps, hblocks⟩ ⟨hsound, hnone, hroom, hknown⟩, ?_, ?_, ?_⟩
    · rw [State.dirFind_emit]
      exact State.dirFind_lineTaken (s := s.atDirectory r _ ent) hnone hroom h
    · rw [State.emit_out, (State.lineTaken_frame _ _ _).1 .out (by decide)]
      rfl
    · exact (((State.atDirectory_frame s _ _ _).mono (by decide) nofun).trans
        ((State.lineTaken_frame _ _ _).mono (by decide) fun _ hk => hk)).emit _ (by decide)
  case memClnEvct =>
    intro s h l hpa dpa tag r e hcur hst htakes hdec hout hreg htags hadm hshared hclass hfence hfind
    have hq : SharedReq s h l hpa dpa { mv := .invalid, err := .none } tag r :=
      ⟨⟨hcur, hst, htakes⟩, hdec, hout, hreg, htags, hadm, hshared, hclass, hfence⟩
    have hframe : Frame [.dir] (fun _ => False) s (s.dirDrop (dpa.toNat % 2 ^ 46 / 64) h) :=
      (Frame.refl _ _ s).dirDrop _ _ (by decide)
    refine ⟨_, hq.execMemClnEvct, by rw [State.emit_dir, State.dirDrop_eq hfind], ?_, ?_⟩
    · rw [State.emit_out, hframe.1 .out (by decide)]
    · exact (hframe.mono (by decide) fun _ hk => hk).emit _ (by decide)
  case answerI =>
    intro s h line b hcur hst hserv hup hbusy hline hheads halone hwaits
    subst hline
    have hframe := s.entryAnswered_idled_frame h b.line .i
    exact ⟨_, exec_answerOf_last (a := .i) ⟨hcur, hst, hserv, hup⟩ ⟨hbusy, hheads, halone, hwaits⟩
      ⟨nofun, nofun⟩, rfl, hframe.1 .out (by decide), hframe⟩
  case answerS =>
    intro s h line b e hcur hst hserv hup hbusy hline hheads halone hwaits hsnoop hfind
    subst hline
    have hframe := s.entryAnswered_idled_frame h b.line .s
    refine ⟨_, exec_answerOf_last (a := .s) ⟨hcur, hst, hserv, hup⟩ ⟨hbusy, hheads, halone, hwaits⟩
      ⟨nofun, fun _ => hsnoop ▸ nofun⟩, ?_, hframe.1 .out (by decide), hframe⟩
    rw [State.entryAnswered, hfind]
    rfl
  case answerE =>
    intro s h line b hcur hst hserv hup hbusy hline hheads halone hwaits hsnoop
    subst hline
    have hframe := s.entryAnswered_idled_frame h b.line .e
    exact ⟨_, exec_answerOf_last (a := .e) ⟨hcur, hst, hserv, hup⟩ ⟨hbusy, hheads, halone, hwaits⟩
      ⟨fun _ => hsnoop, nofun⟩, rfl, hframe.1 .out (by decide), hframe⟩
  case unasked =>
    intro s h line hcur hst hserv hup hnone hlt
    have hexec : exec (.birspi h line) s = .next (s.bump F.DIR_CNT_BI_BAD) :=
      (exec_answerOf_ready ⟨hcur, hst, hserv, hup⟩ line .i).trans
        (congrArg Host.Outcome.next (State.dirAnswer_unasked hnone h .i))
    have hframe := s.count_frame (f := F.DIR_CNT_BI_BAD) (by decide)
    exact ⟨_, hexec, State.rd_bump_same _ _ _ _ _ _ _ (by decide) (by decide) hlt, hframe.1 .dir (by decide), hframe⟩
  case conflict =>
    intro s h line b hcur hst hserv hup hbusy hline hheads hopen hnone
    have hframe := s.count_frame (f := F.DIR_CNT_BI_CONFLICT) (by decide)
    refine ⟨_, execBiconflict_acknowledged ⟨hcur, hst, hserv, hup⟩ (b := b) (by simp [State.busyOf, hbusy, hline])
      (by simp [hheads]) hopen hnone, ?_, ?_, ?_⟩
    · rw [State.emit_out, hframe.1 .out (by decide)]
    · rw [State.emit_dir, hframe.1 .dir (by decide)]
    · exact (hframe.mono (by decide) fun _ hk => hk).emit _ (by decide)
  case timeout =>
    intro s h b hserv hlt hbusy hheads halone hwaits
    have hset : Frame [] (fun key => key = F.DIR_FENCE_HEADS.key 0 0) s (s.headFenced h) :=
      (Frame.refl _ _ s).wr _ _ (.inl rfl)
    have hanswered := (s.headFenced h).entryAnswered_idled_frame h b.line .i
    refine ⟨_, execBiTimeout_last hserv ⟨hbusy, hheads, halone, hwaits⟩, ?_, ?_,
      State.raise_testBit _ cBiTimeout _ _ _ (by decide), ?_⟩
    · rw [State.rd_raise_ne _ _ _ _ _ _ _ _ (by decide), hanswered.rd _ _ _ id (by decide), State.headFenced,
        State.rd_wr_same]
      exact testBit_setBit_mod hlt
    · obtain ⟨e, he⟩ := ((s.headFenced h).entryAnswered h b.line .i).idled.raise_shape cBiTimeout none none
        [(h, none)]
      rw [he]; rfl
    · exact ((hset.mono (by decide) fun _ hk => .inl hk).trans (hanswered.mono (by decide) nofun)).raise _ _ _ _
        (by decide) (.inl (.inr rfl))
  case sweepDone =>
    intro s n h e hsweeps hlt hdone hwaits hone
    obtain ⟨x, hx⟩ := s.dirDrop_shape e.line h
    have hcleared : s.headCleared h = ((s.dirDrop e.line h).wr F.DIR_FENCE_HEADS
        (clrBit (s.rd F.DIR_FENCE_HEADS) h)).wrAt F.DIR_HEAD_SWEEP 0 h 0 := by rw [State.headCleared, hone]; rfl
    have hquiet : (s.headCleared h).tmu.waits = [] := by rw [hcleared, hx]; exact hwaits
    have hexec := execDirSweepDone_reset hsweeps hdone
    rw [State.sweepOver_quiet hquiet, hcleared] at hexec
    refine ⟨_, hexec, ?_, ?_, ?_, ?_⟩
    · rw [hx]; simp [hsweeps]
    · simp
    · rw [State.setDir_rd, State.rd_wrAt_ne _ _ _ _ _ _ _ _ (fence_apart_sweep h hlt), State.rd_wr_same]
      exact testBit_clrBit_mod _ _ _
    · refine ((Frame.wr ?_ _ _ (.inl (.inr rfl))).wrAt _ _ _ _ (.inl (.inl rfl))).setDir _ (by decide)
      exact (Frame.refl _ _ s).dirDrop e.line h (by decide)

end Sys2Proof.Machine
end

section
/-!
PROOFS of O38: a fabric cycle that admits a request whose ingress does not exist.
-/
namespace Sys2Proof.Machine
open Sys2Proof.Safety

/-- The key of the count that ingress 239 would have for class 15: a register page of DIR. -/
def strayRealTimeKey : Nat := (outF 15).key 239 3

/-- A real-time read of a host that waits at ADM, noted with ingress 239. -/
def strayRealTime : Req :=
  { State.reset.hostReq .read 0 0 8256 { mv := .invalid, err := .none } 6 with ing := 239, cls := 15 }

/-- Region 1 is ELASTIC and ACTIVE, head 0 owns it, none of its tiles is cached, and that read waits alone. -/
def strayArrived : State :=
  let s := (State.reset.setAon { State.reset.aon with held := false }).wr F.CTL_HEALTH_MEM_ACTIVE 1
  let s := ((s.wrI F.TMU_RGN_MAP_TYPE 1 2).wrI F.TMU_RGN_MAP_STATE 1 1).wrI F.TMU_RGN_MAP_SIZE 1 1
  let s := (s.wrI F.TMU_RGN_MAP_OWNER 1 1).wrI F.HLX_LD_RGN_SLOTS 0 2
  s.setAdm { s.adm with queue := [strayRealTime] }

/-- The stray count rises to 1 from its reset value, under which it is not listed. -/
theorem admissionCycle_raises_strayCount :
    regAfter .admissionCycle strayArrived strayRealTimeKey = some 1 ∧ mget strayArrived.regs strayRealTimeKey = none := by
  decide +kernel

/-- Refutes O38: in strayArrived the read that the cycle admits came from an ingress that does not exist (R334 has 0 to 19),
and counting it as outstanding changes a register of DIR, outside the frame of ADMISSION_CYCLE. The clause lacks a bound on
the ingress of the waiting request. -/
theorem not_admissionCycles : ¬ Obligations.AdmissionCycles := by
  unfold Obligations.AdmissionCycles
  rintro ⟨hcycle, -⟩
  obtain ⟨t, hexec, -, -, -, -, -, -, hframe⟩ := hcycle strayArrived strayRealTime 0 0 6 1 (by decide) rfl rfl rfl
    (by decide) (by decide +kernel) (by decide +kernel) (by decide) (by decide) rfl rfl rfl rfl (by decide) (by decide) (by decide)
    (by decide) (by decide) rfl
  obtain ⟨hafter, hbefore⟩ := admissionCycle_raises_strayCount
  exact not_frame_of_regAfter_ne hexec (by rw [hafter, hbefore]; simp) (by decide) (by decide) hframe

end Sys2Proof.Machine
end

section
/-!
PROOFS of O43: ticks and gates, swaps of the banks, monitor windows, and the floor.
-/
namespace Sys2Proof.Machine
open Sys2Proof.Safety

theorem State.inReset_eq_false {s : State} (hheld : s.aon.held = false) (hoff : s.aon.off = 0) : s.inReset = false := by
  rw [State.inReset, hheld, hoff]; rfl

/-! ## The gate list (R345, R349, R350) -/

/-- What an operation leaves as it was for each member of a list stays as it was after all of them. -/
theorem foldl_eq_self {α β : Type} {f : β → α → β} {b : β} {l : List α} (h : ∀ a ∈ l, f b a = b) : l.foldl f b = b := by
  induction l with
  | nil => rfl
  | cons a l ih =>
    rw [List.foldl_cons, h a List.mem_cons_self]
    exact ih fun x hx => h x (List.mem_cons_of_mem _ hx)

theorem State.endLengthen_of_none {s : State} {c : Nat} (h : mget s.adm.lengthen c = none) : s.endLengthen c = s := by
  rw [State.endLengthen, h]

theorem State.endLengthen_of_zero {s : State} {c : Nat} {b : Bool} (h : mget s.adm.lengthen c = some (0, b)) :
    s.endLengthen c = s.setAdm { s.adm with
      lengthen := mdel s.adm.lengthen c,
      gateOpen := if s.listOpen s.gcl c s.tickNo then s.adm.gateOpen else clrBit s.adm.gateOpen c } := by
  rw [State.endLengthen, h]; rfl

theorem testBit_clrBit (v i : Nat) : (clrBit v i).testBit i = false := by
  simpa [Nat.testBit_mod_two_pow] using testBit_clrBit_mod v i (i + 1)

/-- With no class within its MINWIN nothing is counted. -/
theorem State.countMinwin_of_nil {s : State} (h : s.adm.lengthen = []) : s.countMinwin = s := by
  have hfold : (List.range 16).foldl State.endLengthen s = s :=
    List.foldl_fixed' (fun c => State.endLengthen_of_none (by rw [h]; rfl)) _
  have hsame : s.adm.lengthen.map (fun e => (e.1, e.2.1 - 1, e.2.2)) = s.adm.lengthen := by rw [h]; rfl
  rw [State.countMinwin, hfold]
  dsimp only
  rw [hsame]
  rfl

/-- An empty list keeps an open class open (R345). -/
theorem State.gateClass_nil {s : State} {c : Nat} (hlen : mget s.adm.lengthen c = none)
    (hopen : s.adm.gateOpen.testBit c = true) : s.gateClass [] c = s := by
  have hlist : s.listOpen [] c s.tickNo = true := rfl
  rw [State.gateClass, hlen]
  dsimp only
  rw [if_pos hopen, if_pos hlist]

/-- An empty list opens no refresh window (R350). -/
theorem State.gateRefresh_nil (s : State) : s.gateRefresh [] = s.setAdm { s.adm with gateRef := false } := rfl

theorem State.applyGates_of_nil {s : State} (hgcl : s.gcl = []) (hlen : s.adm.lengthen = [])
    (hopen : s.adm.gateOpen = 65535) : s.applyGates = s.setAdm { s.adm with gateRef := false } := by
  have hall : ∀ c < 16, (65535).testBit c = true := by decide
  have hclasses : (List.range 16).foldl (fun t c => t.gateClass [] c) s = s :=
    foldl_eq_self fun c hc =>
      State.gateClass_nil (by rw [hlen]; rfl) (by rw [hopen]; exact hall c (List.mem_range.1 hc))
  rw [State.applyGates, hgcl]
  dsimp only
  rw [hclasses, State.gateRefresh_nil]

/-- A field of a block of ADM or beyond shares no key with the phase. -/
theorem Fld.key_ne_phase {f : Fld} (h : 4 ≤ f.blk) (i k : Nat) : f.key i k ≠ F.AON_EPOCH_PHASE.key 0 0 := by
  simp only [Fld.key, Fld.addr, F.AON_EPOCH_PHASE]; omega

/-- The gate list does not depend on the phase, nor on the epoch of the last tick. -/
theorem State.gcl_ticked (s : State) (v e : Nat) :
    ((s.wr F.AON_EPOCH_PHASE v).setAdm { s.adm with lastEpoch := e }).gcl = s.gcl := by
  have hrd : ∀ f : Fld, 4 ≤ f.blk → ∀ i k, (s.wr F.AON_EPOCH_PHASE v).rd f i k = s.rd f i k := fun f hf i k =>
    s.rd_wr_ne _ _ _ _ _ (Fld.key_ne_phase hf i k)
  simp only [State.gcl, State.rdb, State.setAdm_rd, State.setAdm_adm,
    hrd F.ADM_GCL_CFG_ACTIVE (by decide), hrd F.ADM_GCL_ENT_VALID (by decide), hrd F.ADM_GCL_ENT_EPOCH (by decide),
    hrd F.ADM_GCL_ENT_PHASE (by decide), hrd F.ADM_GCL_ENT_OPEN (by decide), hrd F.ADM_GCL_ENT_REF (by decide)]

/-! ## The histograms (R361) -/

theorem depthBin_lt (d : Nat) : depthBin d < 16 := by
  unfold depthBin; split <;> omega

theorem delayBin_lt (d : Nat) : delayBin d < 16 := by
  have hdepth := depthBin_lt (d / 16)
  unfold delayBin
  split_ifs <;> omega

/-- A field of the histograms: 128 registers in each page of an ingress. -/
def Fld.histogram (f : Fld) : Bool := decide (f.blk = 4 ∧ f.p0 = 17 ∧ f.off ≤ 0x800 ∧ f.stride = 8 ∧ f.lo < 64)

theorem Fld.inBlock_histogram {f : Fld} (h : f.histogram = true) {i c b : Nat} (hi : i < 20) (hc : c < 16) (hb : b < 16) :
    InBlock 4 (f.key i (8 * c + b / 2)) := by
  obtain ⟨hblk, hpage, hoff, hstride, hlo⟩ := of_decide_eq_true h
  simp only [InBlock, Fld.key, Fld.addr, hblk, hpage, hstride]
  omega

theorem State.binUp_frame (s : State) {f0 f1 : Fld} (h0 : f0.histogram = true) (h1 : f1.histogram = true) {i c b : Nat}
    (hi : i < 20) (hc : c < 16) (hb : b < 16) : Frame [.evt] (InBlock 4) s (s.binUp f0 f1 i c b) := by
  have hf : (if b % 2 = 0 then f0 else f1).histogram = true := by split <;> assumption
  have hblk : (if b % 2 = 0 then f0 else f1).blk = 4 := (of_decide_eq_true hf).1
  exact (Frame.refl _ _ s).bump _ _ _ _ _ _ (by decide) (by omega) (.inl (Fld.inBlock_histogram hf hi hc hb))

/-- Sampling the queues counts in ADM's histograms. -/
theorem State.sampleQueues_frame (s : State) : Frame [.evt] (InBlock 4) s s.sampleQueues :=
  Frame.foldl _ _ s fun t i hi => Frame.foldl _ _ t fun u c hc =>
    have hi := List.mem_range.1 hi
    have hc := List.mem_range.1 hc
    (u.binUp_frame (by decide) (by decide) hi hc (depthBin_lt _)).trans
      (State.binUp_frame _ (by decide) (by decide) hi hc (delayBin_lt _))

/-! ## A tick within an epoch (R522) -/

/-- The next tick has begun, and ADM has noted its epoch. -/
def State.ticked (s : State) : State :=
  (s.wr F.AON_EPOCH_PHASE (s.phase + 1)).setAdm { s.adm with lastEpoch := s.epoch }

theorem State.nextTick_of_lt {s : State} (hfresh : s.aon.time.fresh = false) (hphase : s.phase < 1023) :
    s.nextTick = some (s.wr F.AON_EPOCH_PHASE (s.phase + 1)) := by
  rw [State.nextTick, if_neg (by simp [hfresh]), if_pos hphase]

theorem State.admTick_eq (s : State) : (s.wr F.AON_EPOCH_PHASE (s.phase + 1)).admTick false =
    s.ticked.countMinwin.applyGates.monitorTick.sampleQueues := by
  have hepoch : (s.wr F.AON_EPOCH_PHASE (s.phase + 1)).epoch = s.epoch := s.rd_wr_ne _ _ _ _ _ (by decide)
  rw [State.admTick, if_neg Bool.false_ne_true, hepoch]
  rfl

/-- With an empty list, every class open and no monitor window, ADM samples its queues. -/
theorem State.admTick_of_nil {s : State} (hgcl : s.gcl = []) (hlen : s.adm.lengthen = []) (hopen : s.adm.gateOpen = 65535)
    (hmon : s.adm.monValid = false) : (s.wr F.AON_EPOCH_PHASE (s.phase + 1)).admTick false =
      (s.ticked.setAdm { s.ticked.adm with gateRef := false }).sampleQueues := by
  have hgates := State.applyGates_of_nil (s := s.ticked) ((s.gcl_ticked _ _).trans hgcl) hlen hopen
  have hwindow : (s.ticked.setAdm { s.ticked.adm with gateRef := false }).adm.monValid = false := hmon
  rw [State.admTick_eq, State.countMinwin_of_nil (s := s.ticked) hlen, hgates, State.monitorTick,
    if_pos (by rw [hwindow]; rfl)]

/-- Within an epoch the tick is ADM's alone: no cycle starts (R351). -/
theorem execGateTick_of_lt {s : State} (htimed : s.timed = true) (hheld : s.aon.held = false) (hhalt : s.cry.halt = 0)
    (hfresh : s.aon.time.fresh = false) (hphase : s.phase < 1023) :
    execGateTick s = .next ((s.wr F.AON_EPOCH_PHASE (s.phase + 1)).admTick false) := by
  have hoff : s.aon.off = 0 := by
    simp only [State.timed, Bool.and_eq_true, decide_eq_true_eq] at htimed
    obtain ⟨-, hoff⟩ := htimed
    exact hoff
  have hruns : (!s.inReset && decide (s.cry.halt = 0)) = true := by simp [State.inReset_eq_false hheld hoff, hhalt]
  have hstart : s.atCycleStart = false := by simp [State.atCycleStart, hfresh]
  rw [execGateTick, if_neg (by simp [htimed])]
  dsimp only
  rw [if_neg (by simp [hstart]), State.nextTick_of_lt hfresh hphase]
  dsimp only
  rw [if_pos hruns, hfresh]

/-! ## Cycle starts (R351) -/

theorem State.adm_raise (s : State) (c : Cause) : (s.raise c).adm = s.adm := by
  obtain ⟨e, he⟩ := s.raise_shape c none none []
  rw [he]; rfl

theorem State.cycleStart_of_pending {s : State} (h : s.rd F.ADM_GCL_CFG_SWAP_PEND = 1) :
    s.cycleStart = (((s.setAdm { s.adm with cycleNow := s.rd F.ADM_GCL_CFG_CYCLE }).wr F.ADM_GCL_CFG_ACTIVE
      (1 - s.rd F.ADM_GCL_CFG_ACTIVE)).wr F.ADM_GCL_CFG_SWAP_PEND 0).raise cGclSwapped := by
  rw [State.cycleStart, if_pos (by simp [State.rdb, h])]
  rfl

/-- A path that reaches ADM may write it: the unit is in no integrity halt. -/
theorem State.writeReaches_of_reaches {s : State} {path : Path} {page : Nat} (h : s.reaches path 4 page = true) :
    s.writeReaches path 4 page = true := by
  have hhalt : s.cry.halt = 0 := by
    by_contra hhalt
    cases path with
    | cores => simp [State.reaches, hhalt] at h
    | sideband => simp [State.reaches, hhalt] at h
    | ld head l => simp [State.reaches, hhalt] at h
  simp [State.writeReaches, h, hhalt]

/-! ## Monitor windows (R359) -/

/-- A class is noted as having missed its guarantee. -/
def State.noteMissed (s : State) (c : Nat) : State :=
  (s.wr F.ADM_GUAR_PEND_CLASS (setBit (s.rd F.ADM_GUAR_PEND_CLASS) c)).raise cGuarMissed

theorem State.judge_eq_foldl (s : State) : s.judge = ((List.range 16).filter s.missed).foldl State.noteMissed s := rfl

abbrev MissedKeys (key : Nat) : Prop := key = F.ADM_GUAR_PEND_CLASS.key 0 0 ∨ key = (F.EVT_RAW_CAUSE 4).key 0 0

theorem State.noteMissed_frame (s : State) (c : Nat) : Frame [.evt] MissedKeys s (s.noteMissed c) :=
  ((Frame.refl _ _ s).wr _ _ (.inl (.inl rfl))).raise _ _ _ _ (by decide) (.inl (.inr rfl))

theorem State.testBit_noteMissed (s : State) (n : Nat) {c : Nat} (hc : c < 16) :
    ((s.noteMissed n).rd F.ADM_GUAR_PEND_CLASS).testBit c =
      ((s.rd F.ADM_GUAR_PEND_CLASS).testBit c || decide (n = c)) := by
  rw [State.noteMissed, State.rd_raise_ne _ _ _ _ _ _ _ _ (by decide), State.rd_wr_same,
    show F.ADM_GUAR_PEND_CLASS.width = 16 from rfl, Nat.testBit_mod_two_pow, decide_eq_true hc, Bool.true_and, setBit,
    Nat.testBit_or, Nat.testBit_two_pow]

theorem State.testBit_foldl_noteMissed (s : State) (l : List Nat) {c : Nat} (hc : c < 16) :
    ((l.foldl State.noteMissed s).rd F.ADM_GUAR_PEND_CLASS).testBit c =
      ((s.rd F.ADM_GUAR_PEND_CLASS).testBit c || decide (c ∈ l)) := by
  induction l generalizing s with
  | nil => simp
  | cons n l ih => rw [List.foldl_cons, ih, State.testBit_noteMissed _ _ hc]; simp [Bool.or_assoc, eq_comm]

/-- The judgment marks the classes that missed, and changes nothing but PEND and what its raise changes. -/
theorem State.judge_spec (s : State) : Frame [.evt] MissedKeys s s.judge ∧ ∀ c < 16,
    (s.judge.rd F.ADM_GUAR_PEND_CLASS).testBit c = ((s.rd F.ADM_GUAR_PEND_CLASS).testBit c || s.missed c) := by
  rw [State.judge_eq_foldl]
  refine ⟨Frame.foldl _ _ s fun t c _ => t.noteMissed_frame c, fun c hc => ?_⟩
  rw [State.testBit_foldl_noteMissed s _ hc]
  simp [hc]

/-! ## The floor (R356 to R358) -/

/-- The fields of the effective guarantees, one for each class. -/
def guarEffs : List (Fld × Nat × Nat) := (List.range 16).map fun c => (F.ADM_CLS_GUAR_EFF, c, 0)

/-- They stand in ADM's pages, apart from its causes. -/
theorem guarEffs_keys : ∀ y ∈ guarEffs, InBlock 4 (y.1.key y.2.1 y.2.2) ∧
    y.1.key y.2.1 y.2.2 ≠ (F.EVT_RAW_CAUSE 4).key 0 0 ∧ ¬ InBlock 14 (y.1.key y.2.1 y.2.2) := by decide

theorem guarEffs_nodup : (guarEffs.map fun y => y.1.key y.2.1 y.2.2).Nodup := by
  rw [guarEffs, List.map_map]
  refine List.nodup_range.map fun a b hab => ?_
  simp only [Function.comp, Fld.key_inst _ a, Fld.key_inst _ b] at hab
  omega

theorem mem_guarEffs {c : Nat} (hc : c < 16) : (F.ADM_CLS_GUAR_EFF, c, 0) ∈ guarEffs :=
  List.mem_map_of_mem (List.mem_range.2 hc)

/-- The fields of RAW, the floor and the sum of the guarantees. -/
def floorRegs : List Fld := [F.ADM_FLOOR_STS_RAW, F.ADM_FLOOR_STS_FLOOR, F.ADM_GUAR_STS_SUM, F.ADM_GUAR_STS_OVER]

/-- They stand in ADM's page 0, apart from its causes and from the effective guarantees. -/
theorem floorRegs_keys : ∀ f ∈ floorRegs, InBlock 4 (f.key 0 0) ∧ f.key 0 0 ≠ (F.EVT_RAW_CAUSE 4).key 0 0 ∧
    ¬ InBlock 14 (f.key 0 0) ∧ ∀ y ∈ guarEffs, f.key 0 0 ≠ y.1.key y.2.1 y.2.2 := by decide

/-- What a recomputation writes there while the guarantees do not exceed the floor. -/
def State.floorFields (s : State) : List (Fld × Nat) :=
  [(F.ADM_FLOOR_STS_RAW, s.rawBandwidth), (F.ADM_FLOOR_STS_FLOOR, s.floorNow),
   (F.ADM_GUAR_STS_SUM, ((List.range 16).map s.guaranteeOf).sum), (F.ADM_GUAR_STS_OVER, 0)]

theorem State.mem_floorRegs {s : State} {x : Fld × Nat} (h : x ∈ s.floorFields) : x.1 ∈ floorRegs :=
  List.mem_map_of_mem (f := Prod.fst) h

/-- These fields are written, then each class's guarantee takes effect as it stands. -/
def State.guaranteesWritten (s : State) : State :=
  guarEffs.foldl (fun t y => t.wrAt y.1 y.2.1 y.2.2 (s.guaranteeOf y.2.1)) (s.wrFields 0 s.floorFields)

theorem State.recompute_of_le {s : State} (h : ((List.range 16).map s.guaranteeOf).sum ≤ s.floorNow) :
    s.recompute =
      let t := if s.rd F.ADM_FLOOR_STS_FLOOR = s.floorNow then s.guaranteesWritten
        else s.guaranteesWritten.raise cFloorChanged
      t.setAdm { t.adm with recompute := false } := by
  have hfits : decide (s.floorNow < ((List.range 16).map s.guaranteeOf).sum) = false := decide_eq_false (by omega)
  simp only [State.recompute, hfits]
  rfl

theorem State.guaranteesWritten_frame (s : State) : Frame [.evt] (InBlock 4) s s.guaranteesWritten :=
  (s.wrFields_frame fun _ hx => (floorRegs_keys _ (State.mem_floorRegs hx)).1).trans (Frame.foldl _ _ _ fun _ y hy =>
    (Frame.refl _ _ _).wrAt _ _ _ _ (.inl (guarEffs_keys y hy).1))

theorem State.rd_guaranteesWritten_floor {s : State} {f : Fld} {v : Nat} (h : (f, v) ∈ s.floorFields) :
    s.guaranteesWritten.rd f = v % 2 ^ f.width := by
  obtain ⟨-, -, -, hapart⟩ := floorRegs_keys f (State.mem_floorRegs h)
  have hnodup : (s.floorFields.map fun x => x.1.key 0 0).Nodup :=
    show (floorRegs.map fun f => f.key 0 0).Nodup by decide
  rw [State.guaranteesWritten, State.rd_foldl_wrAt_ne _ _ _ _ _ _ hapart]
  exact s.rd_wrFields hnodup h

theorem State.rd_guaranteesWritten_eff (s : State) {c : Nat} (hc : c < 16) :
    s.guaranteesWritten.rd F.ADM_CLS_GUAR_EFF c = s.guaranteeOf c % 2 ^ F.ADM_CLS_GUAR_EFF.width := by
  have hrd := State.rd_foldl_wrAt guarEffs (fun y => s.guaranteeOf y.2.1) (s.wrFields 0 s.floorFields) guarEffs_nodup
    (mem_guarEffs hc)
  rw [State.guaranteesWritten]
  exact hrd

theorem State.guaranteeOf_le_sum (s : State) {c : Nat} (hc : c < 16) :
    s.guaranteeOf c ≤ ((List.range 16).map s.guaranteeOf).sum :=
  List.single_le_sum (fun _ _ => Nat.zero_le _) _ (List.mem_map_of_mem (List.mem_range.2 hc))

/-- A recomputation within the floor writes these registers; a floor that changed is reported (R358). -/
theorem State.recompute_spec {s : State} (h : ((List.range 16).map s.guaranteeOf).sum ≤ s.floorNow) :
    ∃ t, s.recompute = t.setAdm { s.adm with recompute := false } ∧ Frame [.evt] (InBlock 4) s t ∧
      (∀ x ∈ s.floorFields, t.rd x.1 = x.2 % 2 ^ x.1.width) ∧
      ∀ c < 16, t.rd F.ADM_CLS_GUAR_EFF c = s.guaranteeOf c % 2 ^ F.ADM_CLS_GUAR_EFF.width := by
  have hreport : Frame [.evt] (fun key => key = (F.EVT_RAW_CAUSE 4).key 0 0) s.guaranteesWritten
      (if s.rd F.ADM_FLOOR_STS_FLOOR = s.floorNow then s.guaranteesWritten
        else s.guaranteesWritten.raise cFloorChanged) :=
    Frame.ite _ (fun _ => Frame.refl _ _ _) fun _ => (Frame.refl _ _ _).raise _ _ _ _ (by decide) (.inl rfl)
  have hframe := s.guaranteesWritten_frame.trans (hreport.mono (by decide) fun _ hk => hk ▸ by decide)
  have hadm := hframe.1 .adm (by decide)
  refine ⟨_, ?_, hframe, fun x hx => ?_, fun c hc => ?_⟩
  · rw [State.recompute_of_le h]
    dsimp only
    rw [hadm]
  · obtain ⟨-, hcause, hpmu, -⟩ := floorRegs_keys _ (State.mem_floorRegs hx)
    exact (hreport.rd _ _ _ hcause hpmu).trans (State.rd_guaranteesWritten_floor hx)
  · obtain ⟨-, hcause, hpmu⟩ := guarEffs_keys _ (mem_guarEffs hc)
    exact (hreport.rd _ _ _ hcause hpmu).trans (s.rd_guaranteesWritten_eff hc)

/-! ## The commands -/

/-- Settles O43, command by command. -/
theorem gateTicks : Obligations.GateTicks := by
  unfold Obligations.GateTicks
  refine ⟨?tick, ?minwin, ?swap, ?request, ?window, ?floor⟩
  case tick =>
    intro s htimed hheld hhalt hfresh hphase hgcl hlen hopen hmon
    have hexec : exec .gateTick s = .next (s.ticked.setAdm { s.ticked.adm with gateRef := false }).sampleQueues :=
      (execGateTick_of_lt htimed hheld hhalt hfresh hphase).trans
        (congrArg Host.Outcome.next (State.admTick_of_nil hgcl hlen hopen hmon))
    have hsample := (s.ticked.setAdm { s.ticked.adm with gateRef := false }).sampleQueues_frame
    refine ⟨_, hexec, ?_, hsample.1 .adm (by decide), ?_⟩
    · rw [hsample.rd _ _ _ (by decide) (by decide), State.ticked]
      have hlt : s.rd F.AON_EPOCH_PHASE < 1023 := hphase
      exact (State.rd_wr_same _ _ _).trans (Nat.mod_eq_of_lt (show _ < 2 ^ 10 by rw [State.phase]; omega))
    · exact (((Frame.refl _ _ s).wr _ _ (.inl (.inr rfl))).setAdm _ (by decide) |>.setAdm _ (by decide)).trans
        (hsample.mono (by decide) fun _ hk => .inl hk)
  case minwin =>
    intro s c b hheld hoff hzero hc
    have hexec : exec (.minwinEnd c) s = .next (s.endLengthen c) := by
      show execMinwinEnd c s = _
      rw [execMinwinEnd, State.inReset_eq_false hheld hoff]
      rfl
    rw [State.endLengthen_of_zero hzero] at hexec
    refine ⟨_, hexec, mget_mdel_same _ _, ?_, rfl, (Frame.refl _ _ s).setAdm _ (by decide)⟩
    rw [State.setAdm_adm]
    cases hlist : s.listOpen s.gcl c s.tickNo with
    | true => simp
    | false => simp [testBit_clrBit]
  case swap =>
    intro s hheld hoff hstart hpend
    have hexec : exec .gclSwap s = .next s.cycleStart := by
      show execGclSwap s = _
      rw [execGclSwap, if_pos (by simp [State.inReset_eq_false hheld hoff, hstart])]
    rw [State.cycleStart_of_pending hpend] at hexec
    refine ⟨_, hexec, ?_, ?_, ?_, State.raise_testBit _ cGclSwapped _ _ _ (by decide), ?_⟩
    · rw [State.rd_raise_ne _ _ _ _ _ _ _ _ (by decide), State.rd_wr_ne _ _ _ _ _ _ (by decide), State.rd_wr_same]
      exact Nat.mod_eq_of_lt (show _ < 2 ^ 1 by omega)
    · rw [State.rd_raise_ne _ _ _ _ _ _ _ _ (by decide), State.rd_wr_same]
      rfl
    · rw [State.adm_raise]; rfl
    · exact ((((Frame.refl _ _ s).setAdm _ (by decide)).wr _ _ (.inl (.inl rfl))).wr _ _
        (.inl (.inr (.inl rfl)))).raise _ _ _ _ (by decide) (.inl (.inr (.inr rfl)))
  case request =>
    intro s path hreach hmay
    have hexec : exec (.gclSwapRequest path) s = .next (s.wr F.ADM_GCL_CFG_SWAP_PEND 1) := by
      show execGclSwapRequest path s = _
      rw [execGclSwapRequest, State.viaPath, if_pos (State.writeReaches_of_reaches hreach), if_pos hmay]
    exact ⟨_, hexec, State.rd_wr_same _ _ _, (Frame.refl _ _ s).wr _ _ (.inl rfl)⟩
  case window =>
    intro s hheld hoff hdone _
    have hexec : exec .monitorWindowEnd s = .next (s.endMonitor true) := by
      show execMonitorWindowEnd s = _
      rw [execMonitorWindowEnd, if_pos (by simp [State.inReset_eq_false hheld hoff, hdone])]
    obtain ⟨hframe, hpend⟩ := s.judge_spec
    have hadm : s.judge.adm = s.adm := hframe.1 .adm (by decide)
    have hend : s.endMonitor true = s.judge.setAdm { s.adm with monValid := false, monD := [], monB := [] } := by
      rw [← hadm]; rfl
    rw [hend] at hexec
    exact ⟨_, hexec, hpend, rfl, (hframe.mono (by decide) fun _ hk => hk).setAdm _ (by decide)⟩
  case floor =>
    intro s hheld hoff hdue hraw hfloor hsum
    have hexec : exec .floorRecompute s = .next s.recompute := by
      show execFloorRecompute s = _
      rw [execFloorRecompute, if_pos (by simp [State.inReset_eq_false hheld hoff, hdue])]
    obtain ⟨t, hrec, hframe, hwritten, heff⟩ := State.recompute_spec hsum
    rw [hrec] at hexec
    simp only [State.floorFields, List.forall_mem_cons] at hwritten
    obtain ⟨hrd_raw, hrd_floor, hrd_sum, hrd_over, -⟩ := hwritten
    refine ⟨_, hexec, hrd_raw.trans (Nat.mod_eq_of_lt hraw), hrd_floor.trans (Nat.mod_eq_of_lt hfloor),
      hrd_sum.trans (Nat.mod_eq_of_lt ?_), hrd_over, fun c hc => (heff c hc).trans (Nat.mod_eq_of_lt ?_), rfl,
      (hframe.mono (by decide) fun _ hk => hk).setAdm _ (by decide)⟩
    · exact hsum.trans_lt (hfloor.trans (by decide))
    · exact ((s.guaranteeOf_le_sum hc).trans hsum).trans_lt hfloor

end Sys2Proof.Machine
end

section
/-!
PROOFS of O24 to O27: a queue of a head, and jobs of an engine and of a class, that do not exist. The four statements fail
where the model looks a register up by a number that they leave free and the spec bounds: 16 ports (R273) of up to 4 LDs
(R279), 32 engines (R188), 16 classes (R333).
-/
namespace Sys2Proof.Machine
open Sys2Proof.Safety

/-- Out of reset with firmware running and memory active; port 0 may reach region 1, which is ACTIVE, of a type. -/
def regionUp (type : Nat) : State :=
  let s := (State.reset.setAon { State.reset.aon with held := false }).wr F.CTL_HEALTH_MEM_ACTIVE 1
  let s := ((s.wr F.CTL_HEALTH_STATE 3).wrI F.TMU_RGN_MAP_TYPE 1 type).wrI F.TMU_RGN_MAP_STATE 1 1
  (s.wrI F.TMU_RGN_MAP_SIZE 1 1).wrI F.TMU_RGN_MAP_OWNER 1 1

/-! ## A queue of a head that does not exist

QUEUE_SET finds the queue's context in the cache first, which counts a hit (R367), and checks the image then (R369). The owner
that the image takes, h + 16 * l, names head h % 16 and LD h / 16 + l. For h = 16 * 1839 the region mask of that LD would be
the register of the cache's hits: before the hit it reads as its reset value, which admits every region, and after it as 1,
which admits region 0 alone. -/

/-- A head whose queues would belong to LD 1839 of head 0. -/
def strayHead : Nat := 16 * 1839

/-- The mask of that LD is the count of the hits. -/
theorem strayMask_is_hits : F.HLX_LD_RGN_SLOTS.key (hl 0 1839) 0 = F.SCR_JOB_CACHE_HIT.key 0 0 := by decide

/-- Queue 2, and the image of a CQ of 16 entries at address 0. -/
def strayImage : List (BitVec 8) := leBytes 4 2 ++ [1, 0, 0, 0, 0, 0, 4, 0] ++ List.replicate 56 0

/-- Region 1 is PLAIN, the head is up and its range holds queue 2, whose context is cached. -/
def strayQueued : State :=
  let s := ((regionUp 1).wrI F.HLX_PORT_STS_LINK_UP strayHead 1).wrI F.HLX_PORT_STS_HEAD strayHead 1
  let s := s.wrI F.HLX_LD_QUEUES_QCOUNT (hl strayHead 0) 16
  s.setJob { s.job with cache := [(2, 0)] }

/-- The state of queue q that a command leaves. -/
def queueStateAfter (c : Instr) (s : State) (q : Nat) : Option Nat :=
  match exec c s with
  | .next t => some (t.ctx q).state
  | _ => none

/-- The ring's region is not admitted any more: the queue enters ERROR (R369). -/
theorem queueSet_fails_stray : queueStateAfter (.queueSet (.ld strayHead 0) strayImage) strayQueued 2 = some 2 := by
  decide +kernel

/-- Refutes O24: in strayQueued the image passes the activation checks, but the cache hit that QUEUE_SET counts changes the
register that stands for the region mask of its owner, so that the queue enters ERROR. The clause lacks a bound on the head
(and the LD). -/
theorem not_queueCommands : ¬ Obligations.QueueCommands := by
  unfold Obligations.QueueCommands
  rintro ⟨hset, -⟩
  obtain ⟨t, hexec, hctx, -⟩ := hset strayQueued strayHead 0 strayImage 2 _ (by decide) rfl (by decide +kernel) rfl rfl
    (by decide) (by decide +kernel) rfl (by decide) (by decide) (by decide) (by decide) rfl (by decide +kernel)
  have hstate : some (t.ctx 2).state = some 2 := by
    rw [← queueSet_fails_stray, queueStateAfter, hexec]
  rw [hctx] at hstate
  simp at hstate

/-! ## Jobs of engines and classes that do not exist

A job that ends advances the work units of the engine that it holds, and a part that is admitted the bytes of the job's class
(Table 10.10). The model looks both counters up by the number that the state notes for the job; those of number 255 would stand
on the first page of the block after SCR's and after ADM's. -/

/-- A job of queue 1 that waits to start, of class cls, noted with engine 255. -/
def strayJob (cls : Nat) (desc : List Byte) : Job :=
  { id := 4, queue := 1, index := 0, owner := 0, cls := cls, key := 0, bucket := 0, desc := desc, phase := .waiting,
    engine := some 255, parts := [], next := 0, outNext := 0, acc := [], out := none, result := 0, status := none,
    late := none, abort := 0, before := [], ended := 0, blocks := [], cut := 0, nextBlock := 0, made := [],
    lastPipe := none }

/-- Region 1 is ELASTIC, and a job is alone in flight. -/
def strayJobbed (j : Job) : State := (regionUp 2).setJob { (regionUp 2).job with jobs := [j] }

/-- The key of the work units that engine 255 would have: a register of block 10 (NTC). -/
def strayWorkKey : Nat := F.SCR_ENG_WORK_UNITS.key 255 0

theorem strayWorkKey_inBlock : InBlock 10 strayWorkKey := by decide

/-- Hence none of SCR's, which the frames of NOP and PIN allow. -/
theorem strayWorkKey_not_inBlock_nine : ¬ InBlock 9 strayWorkKey := fun h =>
  absurd h.2 (Nat.not_lt.2 strayWorkKey_inBlock.1)

/-- A NOP that asks for no completion on OK. -/
def strayNop : Job := strayJob 2 [0, 2]

theorem nop_counts_strayWork : regAfter (.nop strayNop.id) (strayJobbed strayNop) strayWorkKey = some 1 ∧
    mget (strayJobbed strayNop).regs strayWorkKey = none := by
  decide +kernel

/-- Refutes O25: the NOP of strayJobbed strayNop holds an engine that does not exist, and counting its end there changes a
register of NTC, outside the frame of NOP. The clauses of NOP, of FENCE and of the last part lack a bound on the engine
(and those that count by the job's class one on that). -/
theorem not_fetchAndSimpleJobs : ¬ Obligations.FetchAndSimpleJobs := by
  unfold Obligations.FetchAndSimpleJobs
  rintro ⟨-, hnop, -⟩
  obtain ⟨t, hexec, -, -, -, hframe⟩ := hnop (strayJobbed strayNop) strayNop (by decide) (by decide) rfl rfl rfl rfl rfl
    rfl rfl rfl rfl rfl rfl rfl (by decide) (by decide)
  obtain ⟨hafter, hbefore⟩ := nop_counts_strayWork
  exact not_frame_of_regAfter_ne (key := strayWorkKey) hexec (by rw [hafter, hbefore]; simp)
    strayWorkKey_not_inBlock_nine (by decide) hframe

/-- The key of the bytes that class 255 would have: a register of block 5 (DIR). -/
def strayBytesKey : Nat := F.ADM_CLS_DELIV_BYTES.key 255 0

/-- A FILL of the first line of region 1 under class 255. -/
def strayFill : Job := strayJob 255 ([0x11, 2] ++ List.replicate 22 0 ++ [64])

/-- The gate of that class is forced open. -/
def strayFilling : State := (strayJobbed strayFill).wrI F.ADM_CLS_CFG_FORCE_OPEN 255 1

theorem fill_counts_strayBytes : regAfter (.fill strayFill.id) strayFilling strayBytesKey = some 64 ∧
    mget strayFilling.regs strayBytesKey = none := by
  decide +kernel

/-- Neither ADM's nor the status of a bulk channel, which the frame of FILL allows. -/
theorem strayBytesKey_apart : ¬ (InBlock 4 strayBytesKey ∨ ∃ i < 32, strayBytesKey ∈
    [F.BTC_SC_STS_RQ.key i 0, F.BTC_SC_STS_WQ.key i 0, F.BTC_SC_STS_DRAIN.key i 0, F.BTC_SC_STS_FB.key i 0]) := by
  decide +kernel

/-- Refutes O26: the FILL of strayFilling is of a class that does not exist, and counting the bytes of its part there
changes a register of DIR, outside the frame of FILL. The clauses lack a bound on the job's class. -/
theorem not_dataJobs : ¬ Obligations.DataJobs := by
  unfold Obligations.DataJobs
  rintro ⟨hfill, -⟩
  obtain ⟨t, hexec, -, -, hframe⟩ := hfill strayFilling strayFill 1 (by decide) (by decide) rfl rfl rfl rfl rfl rfl rfl
    rfl rfl rfl (by decide) (by decide) (by decide +kernel) (by decide) (by decide) (by decide) (by decide) (by decide)
    rfl rfl (by decide +kernel) (by decide)
  obtain ⟨hafter, hbefore⟩ := fill_counts_strayBytes
  exact not_frame_of_regAfter_ne (key := strayBytesKey) hexec (by rw [hafter, hbefore]; simp) strayBytesKey_apart
    (by decide) hframe

/-- A PIN of the first tile of region 1 that asks for no completion on OK. -/
def strayPin : Job := strayJob 2 ([0x32, 2] ++ List.replicate 23 0 ++ [0x10])

/-- That tile is cached and UNMAT. -/
def strayPinning : State :=
  let s := strayJobbed strayPin
  s.setTmu { s.tmu with cache := [(tkey 1 0, { tme := State.reset.initTme 1 0, dirty := true, used := 0 })] }

theorem pin_counts_strayWork : regAfter (.pin strayPin.id) strayPinning strayWorkKey = some 1 ∧
    mget strayPinning.regs strayWorkKey = none := by
  decide +kernel

/-- Refutes O27: the PIN of strayPinning holds an engine that does not exist, and counting its end there changes a register
of NTC, outside the frame of PIN. The clauses whose job ends lack a bound on the engine (and those that count a part one on
the class). -/
theorem not_tileJobs : ¬ Obligations.TileJobs := by
  unfold Obligations.TileJobs
  rintro ⟨-, -, hpin, -⟩
  obtain ⟨t, hexec, -, -, -, -, hframe⟩ := hpin strayPinning strayPin 1 0 _ (by decide) (by decide) rfl rfl rfl rfl rfl rfl
    rfl rfl rfl (by decide) rfl (by decide) (by decide) rfl (by decide) rfl (by decide +kernel) (by decide) (by decide)
    (by decide) (by decide) (by decide) rfl (by decide) (by decide) rfl rfl rfl (by decide) (by decide)
  obtain ⟨hafter, hbefore⟩ := pin_counts_strayWork
  exact not_frame_of_regAfter_ne (key := strayWorkKey) hexec (by rw [hafter, hbefore]; simp)
    strayWorkKey_not_inBlock_nine (by decide) hframe

end Sys2Proof.Machine
end

section
/-!
PROOFS of O54: the slots of messages parse into those messages (R409, R410).
-/
namespace Sys2Proof.Machine

/-! ## Numbers in byte strings -/

@[simp] theorem length_leBytes (n v : Nat) : (leBytes n v).length = n := by
  induction n generalizing v with
  | zero => rfl
  | succ n ih => simp [leBytes, ih]

theorem leBytes_add (a b v : Nat) : leBytes (a + b) v = leBytes a v ++ leBytes b (v / 256 ^ a) := by
  induction a generalizing v with
  | zero => simp [leBytes]
  | succ a ih => rw [Nat.succ_add, leBytes, ih, leBytes, Nat.div_div_eq_div_mul, ← Nat.pow_succ', List.cons_append]

theorem leNat_leBytes (n v : Nat) : leNat (leBytes n v) = v % 256 ^ n := by
  induction n generalizing v with
  | zero => simp [leBytes, leNat, Nat.mod_one]
  | succ n ih => rw [leBytes, leNat, ih, BitVec.toNat_ofNat, Nat.pow_succ' (m := 256), Nat.mod_mul]

/-- The bytes that a string begins with. -/
theorem bytesAt_append_length (l r : List Byte) : bytesAt (l ++ r) 0 l.length = l :=
  List.ext_getElem (by simp [bytesAt]) fun i h _ => by
    have hi : i < l.length := by simpa [bytesAt] using h
    simp [bytesAt, List.getD_eq_getElem?_getD, List.getElem?_append_left hi, hi]

theorem numAt_leBytes_append (n v : Nat) (r : List Byte) : numAt (leBytes n v ++ r) 0 n = v % 256 ^ n := by
  have h := bytesAt_append_length (leBytes n v) r
  rw [length_leBytes] at h
  rw [numAt, h, leNat_leBytes]

/-- A number that lies beyond the first n bytes. -/
theorem numAt_append_skip {k a : Nat} (n v : Nat) (r : List Byte) (h : k ≤ a) :
    numAt (leBytes k v ++ r) a n = numAt r (a - k) n := by
  have hdrop : (leBytes k v ++ r).drop a = r.drop (a - k) := by
    simp [List.drop_append, List.drop_eq_nil_of_le, h]
  simp [numAt, bytesAt, hdrop]

theorem ofNat_leNat_leBytes (n : Nat) (v : BitVec (8 * n)) : BitVec.ofNat (8 * n) (leNat (leBytes n v.toNat)) = v := by
  have hlt : v.toNat < 256 ^ n := by rw [show 256 ^ n = 2 ^ (8 * n) from (Nat.pow_mul 2 8 n).symm]; exact v.isLt
  rw [leNat_leBytes, Nat.mod_eq_of_lt hlt, BitVec.ofNat_toNat, BitVec.setWidth_eq]

theorem lineOf_lineBytes (v : Line) : lineOf (lineBytes v) = v := ofNat_leNat_leBytes 64 v

/-! ## One message -/

@[simp] theorem Msg.length_header (m : Msg) : m.header.length = 16 := by simp [Msg.header]

/-- A message takes the slots of its OP. -/
theorem Msg.length_bytes {m : Msg} (h : opKnown m.op = true) : m.bytes.length = 16 * opSlots m.op := by
  have hop : m.op = 1 ∨ m.op = 2 ∨ m.op = 3 ∨ m.op = 4 ∨ m.op = 0x11 ∨ m.op = 0x12 ∨ m.op = 0x14 := by
    simpa [opKnown] using h
  rcases hop with e | e | e | e | e | e | e <;> simp [Msg.bytes, lineBytes, opData, opSlots, e]

theorem op_lt_of_opKnown {op : Nat} (h : opKnown op = true) : op < 256 := by
  simp only [opKnown, List.contains_eq_mem, List.mem_cons, List.not_mem_nil, or_false, decide_eq_true_eq] at h
  omega

/-- The fields of the header slot read back, whatever follows it. -/
theorem Msg.bytes_fields {m : Msg} (h : m.wf = true) (r : List Byte) :
    numAt (m.bytes ++ r) 0 1 = m.op ∧ numAt (m.bytes ++ r) 1 1 = m.dst + 16 * m.src ∧
      numAt (m.bytes ++ r) 2 1 = m.cls + 16 * m.ttl ∧ numAt (m.bytes ++ r) 3 1 = m.key + 64 * b2n m.poison ∧
      numAt (m.bytes ++ r) 4 2 = m.tag ∧ numAt (m.bytes ++ r) 6 1 = m.stat ∧ numAt (m.bytes ++ r) 7 5 = m.line ∧
      numAt (m.bytes ++ r) 12 4 = m.seq := by
  obtain ⟨hop, hdst, hsrc, hcls, httl, hkey, htag, hstat, hline, hseq, -, -⟩ := by
    simpa only [Msg.wf, Bool.and_eq_true, decide_eq_true_eq] using h
  have hop' := op_lt_of_opKnown hop
  have hb : b2n m.poison < 2 := by cases m.poison <;> decide
  simp only [Msg.bytes, Msg.header, List.append_assoc]
  simp [numAt_append_skip, numAt_leBytes_append]
  omega

/-- The data of a message lies in its last four slots. -/
theorem Msg.data_bytes {m : Msg} (hzero : opData m.op = 0 → m.data = 0) (r : List Byte) :
    (if opData m.op = 1 then lineOf (((m.bytes ++ r).drop (16 * (opSlots m.op - 4))).take 64) else 0) = m.data := by
  by_cases hd : opData m.op = 1
  · have hpre : (m.header ++ if m.op = 0x03 then leBytes 16 m.be.toNat else []).length = 16 * (opSlots m.op - 4) := by
      have hop : m.op = 2 ∨ m.op = 3 ∨ m.op = 0x11 := by
        unfold opData at hd; split at hd <;> [assumption; omega]
      rcases hop with e | e | e <;> simp [opSlots, e]
    have hlen : (lineBytes m.data).length = 64 := length_leBytes 64 _
    rw [if_pos hd, Msg.bytes, if_pos hd, List.append_assoc, List.drop_left' hpre, List.take_left' hlen,
      lineOf_lineBytes]
  · have hz : opData m.op = 0 := by unfold opData at hd ⊢; split at hd <;> simp_all
    rw [if_neg hd, hzero hz]

/-- The byte enables of a partial write lie in its second slot. -/
theorem Msg.be_bytes {m : Msg} (hzero : m.op ≠ 0x03 → m.be = 0) (r : List Byte) :
    (if m.op = 0x03 then BitVec.ofNat 64 (numAt (m.bytes ++ r) 16 8) else 0) = m.be := by
  by_cases hop : m.op = 0x03
  · have hnum : numAt (m.bytes ++ r) 16 8 = m.be.toNat := by
      have hsplit : leBytes 16 m.be.toNat = leBytes 8 m.be.toNat ++ leBytes 8 (m.be.toNat / 256 ^ 8) := leBytes_add 8 8 _
      have hbytes : m.bytes ++ r = m.header ++
          (leBytes 8 m.be.toNat ++ (leBytes 8 (m.be.toNat / 256 ^ 8) ++ (lineBytes m.data ++ r))) := by
        simp [Msg.bytes, opData, hop, hsplit]
      rw [hbytes, numAt, bytesAt, List.drop_left' m.length_header]
      exact (numAt_leBytes_append 8 _ _).trans (Nat.mod_eq_of_lt m.be.isLt)
    rw [if_pos hop, hnum, BitVec.ofNat_toNat, BitVec.setWidth_eq]
  · rw [if_neg hop, hzero hop]

/-- The message that a header's numbers and what follows it spell. -/
theorem Msg.parse_eq {bs : List Byte} (hop : opKnown (numAt bs 0 1) = true) (hlen : 16 * opSlots (numAt bs 0 1) ≤ bs.length) :
    Msg.parse bs = some
      { op := numAt bs 0 1, dst := bits (numAt bs 1 1) 3 0, src := bits (numAt bs 1 1) 7 4,
        cls := bits (numAt bs 2 1) 3 0, ttl := bits (numAt bs 2 1) 7 4, key := bits (numAt bs 3 1) 5 0,
        poison := (numAt bs 3 1).testBit 6, tag := numAt bs 4 2, stat := numAt bs 6 1,
        line := bits (numAt bs 7 5) 37 0, seq := numAt bs 12 4,
        data := if opData (numAt bs 0 1) = 1 then lineOf ((bs.drop (16 * (opSlots (numAt bs 0 1) - 4))).take 64) else 0,
        be := if numAt bs 0 1 = 0x03 then BitVec.ofNat 64 (numAt bs 16 8) else 0 } := by
  have hno : ¬ ((!opKnown (numAt bs 0 1)) = true ∨ bs.length < 16 * opSlots (numAt bs 0 1)) := by
    rw [hop]; simpa using hlen
  exact if_neg hno

/-- A message reads back from its slots, whatever follows them. -/
theorem Msg.parse_bytes {m : Msg} (h : m.wf = true) (r : List Byte) : Msg.parse (m.bytes ++ r) = some m := by
  obtain ⟨f0, f1, f2, f3, f4, f6, f7, f12⟩ := Msg.bytes_fields h r
  obtain ⟨hop, hdst, hsrc, hcls, httl, hkey, -, -, hline, -, hdata, hbe⟩ := by
    simpa only [Msg.wf, Bool.and_eq_true, decide_eq_true_eq] using h
  have hlen : 16 * opSlots m.op ≤ (m.bytes ++ r).length := by
    rw [List.length_append, Msg.length_bytes hop]; exact Nat.le_add_right _ _
  have hb : b2n m.poison < 2 := by cases m.poison <;> decide
  have e1 : bits (m.dst + 16 * m.src) 3 0 = m.dst := by unfold bits; omega
  have e2 : bits (m.dst + 16 * m.src) 7 4 = m.src := by unfold bits; omega
  have e3 : bits (m.cls + 16 * m.ttl) 3 0 = m.cls := by unfold bits; omega
  have e4 : bits (m.cls + 16 * m.ttl) 7 4 = m.ttl := by unfold bits; omega
  have e5 : bits (m.key + 64 * b2n m.poison) 5 0 = m.key := by unfold bits; omega
  have e6 : bits m.line 37 0 = m.line := by unfold bits; omega
  have e7 : (m.key + 64 * b2n m.poison).testBit 6 = m.poison := by
    have hdiv : (m.key + 64 * b2n m.poison) / 2 ^ 6 = b2n m.poison := by omega
    rw [Nat.testBit_eq_decide_div_mod_eq, hdiv]
    cases m.poison <;> rfl
  rw [Msg.parse_eq (by rw [f0]; exact hop) (by rw [f0]; exact hlen)]
  simp only [f0, f1, f2, f3, f4, f6, f7, f12, e1, e2, e3, e4, e5, e6, e7, Msg.data_bytes hdata, Msg.be_bytes hbe]

/-! ## A stream of messages -/

theorem opSlots_pos (op : Nat) : 1 ≤ opSlots op := by unfold opSlots; split_ifs <;> decide

/-- One message of a stream is read whole, and the reading goes on behind it. -/
theorem parseSlots_message {m : Msg} (h : m.wf = true) (fuel : Nat) (r : List Byte) (acc : List Msg) :
    parseSlots (fuel + 1) (m.bytes ++ r) acc = parseSlots fuel r (m :: acc) := by
  have hop : opKnown m.op = true := (Bool.and_eq_true_iff.1 h).1
  have hnum : numAt (m.bytes ++ r) 0 1 = m.op := (Msg.bytes_fields h r).1
  have hne : m.op ≠ 0 := fun e => by rw [e] at hop; exact absurd hop (by decide)
  have hlen := Msg.length_bytes hop
  have hlong : ¬ (m.bytes ++ r).length < 16 := by
    have := opSlots_pos m.op
    rw [List.length_append]; omega
  rw [parseSlots, if_neg hlong, hnum, if_neg hne, Msg.parse_bytes h]
  exact congrArg (fun l => parseSlots fuel l (m :: acc)) (List.drop_left' hlen)

theorem parseSlots_messages (ms : List Msg) (hwf : ∀ m ∈ ms, m.wf = true) (fuel : Nat) (hfuel : ms.length ≤ fuel)
    (acc : List Msg) : parseSlots fuel (ms.map Msg.bytes).flatten acc = (acc.reverse ++ ms, []) := by
  induction ms generalizing fuel acc with
  | nil => cases fuel <;> simp [parseSlots]
  | cons m ms ih =>
    obtain ⟨hm, hms⟩ := List.forall_mem_cons.1 hwf
    obtain ⟨n, rfl⟩ : ∃ n, fuel = n + 1 := ⟨fuel - 1, by simp at hfuel; omega⟩
    rw [List.map_cons, List.flatten_cons, parseSlots_message hm, ih hms n (by simpa using hfuel)]
    simp

/-- Every message takes a slot at least. -/
theorem length_le_slots (ms : List Msg) (hwf : ∀ m ∈ ms, m.wf = true) :
    16 * ms.length ≤ (ms.map Msg.bytes).flatten.length := by
  induction ms with
  | nil => simp
  | cons m ms ih =>
    obtain ⟨hm, hms⟩ := List.forall_mem_cons.1 hwf
    have h1 := Msg.length_bytes (Bool.and_eq_true_iff.1 hm).1
    have h2 := opSlots_pos m.op
    have h3 := ih hms
    rw [List.map_cons, List.flatten_cons, List.length_append, List.length_cons]
    omega

/-- Settles O54, by induction on the messages: each is read whole from the slots that it took. -/
theorem messageRoundTrip : Obligations.MessageRoundTrip := by
  unfold Obligations.MessageRoundTrip
  intro ms hwf
  have hlen := length_le_slots ms hwf
  exact parseSlots_messages ms hwf _ (by omega) []

end Sys2Proof.Machine
end

section
/-!
PROOFS of O1, O57 and O59: what a step runs, the form of the state at reset, and that every command answers.
-/
namespace Sys2Proof.Machine
open Sys2Proof.Safety

/-- Settles O1: step takes the front of the queue and runs it. -/
theorem stepRunsFront : Obligations.StepRunsFront := by
  unfold Obligations.StepRunsFront
  intro c rest s
  rfl

/-- Settles O57: at reset nothing is listed or stored. -/
theorem resetCanonical : Obligations.ResetCanonical := by
  unfold Obligations.ResetCanonical
  refine ⟨rfl, fun e he => ?_, rfl, rfl, rfl, rfl⟩
  exact absurd he List.not_mem_nil

/-- Settles O59: every arm of exec is an answer with a next state, also where it reports a refused access. -/
theorem everyCommandAnswers : Obligations.EveryCommandAnswers := by
  unfold Obligations.EveryCommandAnswers
  intro c s
  cases c <;> exact ⟨_, rfl⟩

end Sys2Proof.Machine
end

section
/-!
PROOFS of the negations of O12, O45 and O46: a state that meets a clause's hypotheses and breaks its conclusion.
-/
namespace Sys2Proof.Machine
open Sys2Proof.Safety

/-! ## The roles of a core

The hypotheses bound the roles that move, but not those that the heir's register lists already. -/

/-- A unit out of reset with its fuses loaded and its clocks locked. -/
def unitUp : State :=
  State.reset.setAon { State.reset.aon with
    held := false, loaded := true, strapped := true, groups := 4, passed := 1023, pllOk := 1023, seenActive := true }

/-- A spare core 15 whose ROLES register lists a number of 17 bits; the move of core 2's roles to it is under way. -/
def strayHeir : State :=
  let s := (unitUp.wrI F.CTL_CORE_CTL_STATE 2 1).wrI F.CTL_CORE_CTL_STATE 15 3
  { s with regs := mput s.regs (F.CTL_CORE_ROLE_ROLES.key 15 0) (2 ^ 16), ctl := { s.ctl with moves := [(2, 4, 15)] } }

/-- What a command leaves in an indexed register. -/
def rdAfter (c : Instr) (s : State) (f : Fld) (i : Nat) : Option Nat :=
  match exec c s with
  | .next t => some (t.rd f i)
  | _ => none

theorem rdAfter_of_next {c : Instr} {s t : State} (hexec : exec c s = .next t) (f : Fld) (i : Nat) :
    rdAfter c s f i = some (t.rd f i) := by
  simp only [rdAfter, hexec]

/-- The write keeps 16 bits of the union. -/
theorem coreRoleMoveDone_truncates_roles :
    rdAfter (.coreRoleMoveDone 2) strayHeir F.CTL_CORE_ROLE_ROLES 15 = some 4 ∧
      strayHeir.rd F.CTL_CORE_ROLE_ROLES 15 = 2 ^ 16 := by
  decide +kernel

/-- Refutes O12: the heir of strayHeir lists roles beyond the register's 16 bits, which CORE_ROLE_MOVE_DONE does not keep.
The clause lacks a bound on the roles that the heir has. -/
theorem not_cores : ¬ Obligations.Cores := by
  unfold Obligations.Cores
  rintro ⟨-, -, hmove, -⟩
  obtain ⟨t, hexec, -, -, -, hroles, -⟩ := hmove strayHeir 2 15 4 (by decide) (by decide) (by decide) rfl rfl (by decide)
  obtain ⟨hafter, hbefore⟩ := coreRoleMoveDone_truncates_roles
  rw [rdAfter_of_next hexec, hroles, hbefore] at hafter
  exact absurd hafter (by decide)

/-! ## The FEC failures of a port -/

/-- A unit with serial number 7, in memory service, with both chain ports ACTIVE. -/
def chained : State :=
  let s := ((unitUp.wr F.CTL_HEALTH_MEM_ACTIVE 1).wrI F.CLX_PORT_STS_STATE 0 5).wrI F.CLX_PORT_STS_STATE 1 5
  { s with fuses := { s.fuses with sn := 7 } }

/-- A link state block without an acknowledgement. -/
def noAck : LinkState := { ack := none, reqH := 9, reqD := 8, rspH := 7, rspD := 6 }

/-- Port CL1 has seen one uncorrectable flit since the last good one (R405). -/
def onceFailed : State := chained.setClp 1 { ClPort.fresh with fecFails := 1 }

/-- The failures in a row that a command leaves on port CL1. -/
def fecFailsAfter (c : Instr) (s : State) : Option Nat :=
  match exec c s with
  | .next t => some (t.clp 1).fecFails
  | _ => none

/-- A control flit that has been taken ends the row of failures. -/
theorem idle_clears_fecFails :
    fecFailsAfter (.idle 1 noAck) onceFailed = some 0 ∧ (onceFailed.clp 1).fecFails = 1 := by
  decide +kernel

/-- Refutes O45: IDLE in onceFailed sets the count of the FEC failures in a row back, where the clause keeps every part of
the port but the credits that are returned. The clauses of the control flits lack that count. -/
theorem not_chainFlits : ¬ Obligations.ChainFlits := by
  unfold Obligations.ChainFlits
  rintro ⟨hidle, -⟩
  obtain ⟨t, hexec, hport, -⟩ := hidle onceFailed 1 noAck (by decide) (by decide) rfl rfl rfl rfl
  obtain ⟨hafter, hbefore⟩ := idle_clears_fecFails
  have hkept : fecFailsAfter (.idle 1 noAck) onceFailed = some 1 := by
    simp only [fecFailsAfter, hexec, hport, hbefore]
  rw [hafter] at hkept
  exact absurd hkept (by decide)

/-! ## The home of the entries of a unit that takes a new ID -/

/-- A unit of the chain without an ID, which caches the entry of tile 0 of region 1. -/
def unnamed : State :=
  chained.setTmu { chained.tmu with cache := [(tkey 1 0, { tme := chained.initTme 1 0, dirty := false, used := 0 })] }

/-- An ASSIGN that gives this unit ID 5. -/
def assignFive : AssignBody :=
  { round := 4, headSn := 9, line := false,
    order := [{ sn := 9, id := 0, valid := true }, { sn := 7, id := 5, valid := true }] }

/-- The homes that the cached entries name after a command. -/
def cachedHomesAfter (c : Instr) (s : State) : Option (List Nat) :=
  match exec c s with
  | .next t => some (t.tmu.cache.map (·.2.tme.home))
  | _ => none

theorem cachedHomesAfter_of_frame {c : Instr} {s t : State} {P : List Part} {K : Nat → Prop}
    (hexec : exec c s = .next t) (hframe : Frame P K s t) (htmu : .tmu ∉ P) :
    cachedHomesAfter c s = some (s.tmu.cache.map (·.2.tme.home)) := by
  have hsame : t.tmu = s.tmu := hframe.1 .tmu htmu
  simp only [cachedHomesAfter, hexec, hsame]

/-- The entry names the new ID as its home. -/
theorem assign_rehomes_entries : cachedHomesAfter (.assign 1 noAck assignFive) unnamed = some [5] ∧
    unnamed.tmu.cache.map (·.2.tme.home) = [0] := by
  decide +kernel

/-- Refutes O46: unnamed takes a new ID from the ASSIGN, so that the entry that it caches names a new home, outside the
frame of ASSIGN. The clause lacks TMU among the frame's parts, or the hypothesis that the ID stays. -/
theorem not_ringControl : ¬ Obligations.RingControl := by
  unfold Obligations.RingControl
  rintro ⟨-, -, -, hassign, -⟩
  obtain ⟨t, hexec, -, -, -, -, -, -, -, -, -, -, hframe⟩ := hassign unnamed 1 noAck assignFive
    { sn := 7, id := 5, valid := true } (by decide) (by decide) rfl rfl rfl rfl (by decide) (by decide) (by decide)
    (by decide) (by decide) rfl (by decide)
  obtain ⟨hafter, hbefore⟩ := assign_rehomes_entries
  have hsame := cachedHomesAfter_of_frame hexec hframe (by decide)
  rw [hafter, hbefore] at hsame
  exact absurd hsame (by decide)

end Sys2Proof.Machine
end

section
/-!
PROOFS of O2, O3 and O4: the supplies and clocks of the power-up, the brown throttle, thermal shutdown, straps and JTAG.
-/
namespace Sys2Proof.Machine
open Sys2Proof.Safety

/-! ## The answer of a command with a condition -/

theorem next_of_pos {c : Prop} [Decidable c] {a b : State} (h : c) : (.next (if c then a else b) : Result) = .next a := by
  rw [if_pos h]

theorem next_of_neg {c : Prop} [Decidable c] {a b : State} (h : ¬ c) :
    (.next (if c then a else b) : Result) = .next b := by
  rw [if_neg h]

/-! ## What a raise and a count leave alone -/

@[simp] theorem State.aon_raise (s : State) (c : Cause) (r q : Option Nat) (hs : List (Nat × Option Nat)) :
    (s.raise c r q hs).aon = s.aon := by
  obtain ⟨e, he⟩ := s.raise_shape c r q hs
  rw [he]; rfl

@[simp] theorem State.out_raise (s : State) (c : Cause) (r q : Option Nat) (hs : List (Nat × Option Nat)) :
    (s.raise c r q hs).out = s.out := by
  obtain ⟨e, he⟩ := s.raise_shape c r q hs
  rw [he]; rfl

/-- A count is registers and EVT's data alone. -/
theorem State.bump_frame (s : State) (f : Fld) (i k n : Nat) (cls : Option Nat) (sat : Bool) (hf : f.blk < 14) :
    Frame [.evt] (fun key => key = f.key i k) s (s.bump f i k n cls sat) :=
  (Frame.refl _ _ s).bump f i k n cls sat (by decide) hf (.inl rfl)

/-! ## The power-up sequence (R565, R566, R519, R501) -/

/-- The enables of the groups up to g, as Table 18.4 assigns the supplies. -/
theorem enablesOf_eq (g : Nat) : enablesOf g = [decide (1 ≤ g), decide (2 ≤ g), decide (2 ≤ g), decide (3 ≤ g),
    decide (4 ≤ g), decide (4 ≤ g), decide (4 ≤ g), decide (3 ≤ g)] := rfl

theorem enablesOf_zero : enablesOf 0 = List.replicate 8 false := rfl

theorem State.supplyGroupEnable_spec {s : State} {g : Nat} (hheld : s.aon.held = true) (hloaded : s.aon.loaded = true)
    (hon : s.aon.off = 0) (hnext : g = s.aon.groups + 1) (hg : g ≤ 4) :
    ∃ t, execSupplyGroupEnable g s = .next t ∧ t.aon.groups = g ∧ t.out = s.out ++ [.enables (enablesOf g)] ∧
      Frame [.aon, .out] (fun _ => False) s t := by
  refine ⟨_, next_of_pos (⟨hheld, hloaded, hon, hnext, hg⟩), rfl, rfl, ?_⟩
  exact ((Frame.refl _ _ s).setAon _ (by decide)).emit _ (by decide)

/-- Setting bit i of a field that has it. -/
theorem State.testBit_wr_setBit (s : State) (f : Fld) {v i : Nat} (hi : i < f.width) :
    ((s.wr f (setBit v i)).rd f).testBit i = true := by
  rw [State.rd_wr_same]; exact testBit_setBit_mod hi

theorem State.supplyRiseTimeout_spec {s : State} {i : Nat} (hon : s.aon.off = 0) (hlo : 2 ≤ i) (hhi : i < 10)
    (hgroup : supplyGroup i ≤ s.aon.groups) (hpassed : s.aon.passed.testBit i = false) :
    ∃ t, execSupplyRiseTimeout i s = .next t ∧ t.aon.groups = 0 ∧ t.aon.held = true ∧
      (t.rd F.AON_SUP_STS_WARN).testBit i = true ∧
      t.out = s.out ++ [.enables (List.replicate 8 false), .resetN true, .alertN true] ∧
      Frame [.aon, .out] (fun key => key = F.AON_SUP_STS_WARN.key 0 0) s t := by
  refine ⟨_, next_of_pos (⟨hon, hlo, hgroup, by simp [State.masked, hlo, hpassed]⟩), rfl, rfl, ?warn, ?out, ?frame⟩
  case warn => exact State.testBit_wr_setBit _ _ hhi
  case out => simp [State.emit, enablesOf_zero, State.wr, State.wrAt, State.setAon]
  case frame =>
    exact (((((Frame.refl _ _ s).setAon _ (by decide)).wr F.AON_SUP_STS_WARN _ (by decide)).emit _ (by decide)).emit _
      (by decide)).emit _ (by decide)

theorem State.pllQualified_spec {s : State} {pll : Nat} (hon : s.aon.off = 0) (hgroups : s.aon.groups = 4)
    (hpll : pll < 10) :
    ∃ t, execPllQualified pll s = .next t ∧ (t.rd F.AON_CLK_STS_LOCK).testBit pll = true ∧
      t.aon.pllOk.testBit pll = true ∧ Frame [.aon] (fun key => key = F.AON_CLK_STS_LOCK.key 0 0) s t := by
  refine ⟨_, next_of_neg ((by omega)), State.testBit_wr_setBit _ F.AON_CLK_STS_LOCK (Nat.lt_add_right 2 hpll),
    ?ok, ?frame⟩
  case ok => simp [setBit]
  case frame => exact ((Frame.refl _ _ s).wr F.AON_CLK_STS_LOCK _ (by decide)).setAon _ (by decide)

theorem State.pllRelockRetry_spec {s : State} {pll : Nat} (hlost : s.aon.pllOk.testBit pll = false) (hpll : pll < 10) :
    ∃ t, execPllRelockRetry pll true s = .next t ∧ (t.rd F.AON_CLK_STS_LOCK).testBit pll = true ∧
      Frame [] (fun key => key = F.AON_CLK_STS_LOCK.key 0 0) s t :=
  ⟨_, next_of_pos ((by simp [hlost])),
    State.testBit_wr_setBit _ F.AON_CLK_STS_LOCK (Nat.lt_add_right 2 hpll),
    (Frame.refl _ _ s).wr F.AON_CLK_STS_LOCK _ (by decide)⟩

theorem State.resetRelease_spec {s : State} (hheld : s.aon.held = true) (hext : s.aon.extLow = false)
    (hloaded : s.aon.loaded = true) (hxtal : s.rd F.AON_CLK_STS_XTAL_OK = 1) (hgroups : s.aon.groups = 4)
    (hon : s.aon.off = 0) (hhub : s.aon.pllOk.testBit 0 = true) (hcores : s.aon.pllOk.testBit 1 = true) :
    ∃ t, execResetRelease s = .next t ∧ t.aon.held = false ∧ t.out = s.out ++ [.resetN false] ∧
      Frame [.aon, .out] (fun _ => False) s t := by
  have hall : s.aon.held ∧ !s.aon.extLow ∧ s.aon.loaded ∧ s.rdb F.AON_CLK_STS_XTAL_OK ∧ s.aon.groups = 4 ∧
      s.aon.off = 0 ∧ s.aon.pllOk.testBit 0 ∧ s.aon.pllOk.testBit 1 :=
    ⟨hheld, by simp [hext], hloaded, by simp [State.rdb, hxtal], hgroups, hon, hhub, hcores⟩
  exact ⟨_, next_of_pos (hall), rfl, rfl, ((Frame.refl _ _ s).setAon _ (by decide)).emit _ (by decide)⟩

/-- Settles O2: each command is taken, and what it writes is read off. -/
theorem supplyEnables : Obligations.SupplyEnables := by
  unfold Obligations.SupplyEnables
  refine ⟨?enable, ?rise, ?qualified, ?relock, ?release⟩
  case enable =>
    intro s g hheld hloaded hon hnext hg
    exact State.supplyGroupEnable_spec hheld hloaded hon hnext hg
  case rise =>
    intro s i hon hlo hhi hgroup hpassed
    exact State.supplyRiseTimeout_spec hon hlo hhi hgroup hpassed
  case qualified =>
    intro s pll hon hgroups hpll
    exact State.pllQualified_spec hon hgroups hpll
  case relock =>
    intro s pll hlost hpll
    exact State.pllRelockRetry_spec hlost hpll
  case release =>
    intro s hheld hext hloaded hxtal hgroups hon hhub hcores
    exact State.resetRelease_spec hheld hext hloaded hxtal hgroups hon hhub hcores

/-! ## Brown throttle (R360, R515, R573) -/

/-- The brown bucket is full while no throttle runs. -/
def State.brownFilled (s : State) : State :=
  if s.rdb F.ADM_BROWN_ACTIVE then s else { s with adm := { s.adm with brown := 65536 } }

theorem State.brownFilled_frame (s : State) (K : Nat → Prop) : Frame [.adm] K s s.brownFilled :=
  Frame.ite _ (fun _ => Frame.refl _ _ s) fun _ => (Frame.refl _ _ s).with_adm _ (by decide)

/-- Outside an entry to a power state a throttle ends no entry. -/
theorem State.brownStart_of_idle {s : State} (code : Nat) (hidle : s.aon.entry.stage = 0) :
    s.brownStart code = (s.brownFilled.wr F.ADM_BROWN_ACTIVE 1).setAdm { s.brownFilled.adm with recompute := true } := by
  have haon : s.brownFilled.aon = s.aon := (s.brownFilled_frame fun _ => False).1 .aon (by decide)
  have hwake := State.wake_of_stage_zero (s.brownFilled.wr F.ADM_BROWN_ACTIVE 1) code
    (show s.brownFilled.aon.entry.stage = 0 from haon ▸ hidle)
  simp only [State.brownStart, ← State.brownFilled.eq_1, hwake]
  rfl

/-- The start of a throttle outside an entry to a power state: ACTIVE reads 1 and ADM recomputes its floor. -/
theorem State.brownStart_spec {s : State} (code : Nat) (hidle : s.aon.entry.stage = 0) :
    (s.brownStart code).rd F.ADM_BROWN_ACTIVE = 1 ∧ (s.brownStart code).adm.recompute = true ∧
      Frame [.adm] (fun key => key = F.ADM_BROWN_ACTIVE.key 0 0) s (s.brownStart code) := by
  rw [State.brownStart_of_idle code hidle]
  exact ⟨State.rd_wr_same s.brownFilled F.ADM_BROWN_ACTIVE 1, rfl, ((s.brownFilled_frame _).wr F.ADM_BROWN_ACTIVE 1 (by decide)).setAdm _ (by decide)⟩

/-- The end of a throttle: ADM recomputes, and ACTIVE reads 0 when no other throttle runs. -/
theorem State.brownEnd_spec (s : State) : s.brownEnd.adm.recompute = true ∧
    (s.aon.brownSupply = false → s.aon.brownThermal = false → s.brownEnd.rd F.ADM_BROWN_ACTIVE = 0) ∧
      Frame [.adm] (fun key => key = F.ADM_BROWN_ACTIVE.key 0 0) s s.brownEnd := by
  refine ⟨rfl, fun hsupply hthermal => ?active, ?frame⟩
  case active =>
    unfold State.brownEnd
    rw [if_neg (by simp [hsupply, hthermal])]
    exact State.rd_wr_same s F.ADM_BROWN_ACTIVE 0
  case frame =>
    exact (Frame.ite _ (fun _ => Frame.refl _ _ s) fun _ =>
      (Frame.refl _ _ s).wr F.ADM_BROWN_ACTIVE 0 (by decide)).with_adm _ (by decide)

/-- The warning of a supply as AON records it (R515). -/
def State.warned (s : State) (i : Nat) : State :=
  let s1 := ((s.wr F.AON_SUP_STS_WARN (setBit (s.rd F.AON_SUP_STS_WARN) i)).bump F.AON_SUP_CNT_WARNS).raise cSupplyWarn
  s1.setAon { s1.aon with brownSupply := true, liftDue := false }

/-- The keys that a supply warning writes. -/
abbrev WarnKeys (key : Nat) : Prop :=
  key = F.AON_SUP_STS_WARN.key 0 0 ∨ key = F.AON_SUP_CNT_WARNS.key 0 0 ∨ key = (F.EVT_RAW_CAUSE 0).key 2 0

theorem State.warned_spec {s : State} {i : Nat} (hi : i < 10) (hroom : s.rd F.AON_SUP_CNT_WARNS + 1 < 2 ^ 32) :
    ((s.warned i).rd F.AON_SUP_STS_WARN).testBit i = true ∧
      (s.warned i).rd F.AON_SUP_CNT_WARNS = s.rd F.AON_SUP_CNT_WARNS + 1 ∧
      ((s.warned i).rd (F.EVT_RAW_CAUSE 0) 2).testBit 0 = true ∧ (s.warned i).aon.brownSupply = true ∧
      (s.warned i).aon.entry = s.aon.entry ∧ Frame [.evt, .aon] WarnKeys s (s.warned i) := by
  have hbump := State.bump_frame (s.wr F.AON_SUP_STS_WARN (setBit (s.rd F.AON_SUP_STS_WARN) i)) F.AON_SUP_CNT_WARNS
    0 0 1 none false (by decide)
  refine ⟨?warn, ?count, State.raise_testBit _ cSupplyWarn none none [] (by decide), rfl, ?entry, ?frame⟩
  case warn =>
    rw [State.warned, State.setAon_rd, State.rd_raise_ne _ _ _ _ _ _ _ _ (by decide),
      hbump.rd _ _ _ (by decide) (by decide)]
    exact State.testBit_wr_setBit _ F.AON_SUP_STS_WARN hi
  case count =>
    rw [State.warned, State.setAon_rd, State.rd_raise_ne _ _ _ _ _ _ _ _ (by decide),
      State.rd_bump_same _ _ _ _ _ _ _ (by decide) (by decide), State.rd_wr_ne _ _ _ _ _ _ (by decide)]
    rw [State.rd_wr_ne _ _ _ _ _ _ (by decide)]
    exact hroom
  case entry =>
    have haon := (State.aon_raise _ cSupplyWarn none none []).trans (hbump.1 .aon (by decide))
    exact (congrArg Aon.entry haon :)
  case frame =>
    exact ((((Frame.refl _ _ s).wr F.AON_SUP_STS_WARN _ (by decide)).bump F.AON_SUP_CNT_WARNS _ _ _ _ _ (by decide)
      (by decide) (by decide)).raise cSupplyWarn _ _ _ (by decide) (by decide)).setAon _ (by decide)

theorem State.supplyWarn_spec {s : State} {i : Nat} (hi : i < 10) (hseen : s.masked i = false) (hon : s.aon.off = 0)
    (hidle : s.aon.entry.stage = 0) (hroom : s.rd F.AON_SUP_CNT_WARNS + 1 < 2 ^ 32) :
    ∃ t, execSupplyWarn i s = .next t ∧ (t.rd F.AON_SUP_STS_WARN).testBit i = true ∧
      t.rd F.AON_SUP_CNT_WARNS = s.rd F.AON_SUP_CNT_WARNS + 1 ∧ (t.rd (F.EVT_RAW_CAUSE 0) 2).testBit 0 = true ∧
      t.aon.brownSupply = true ∧ t.rd F.ADM_BROWN_ACTIVE = 1 ∧ t.adm.recompute = true ∧
      Frame [.evt, .aon, .adm] (fun key => key = F.AON_SUP_STS_WARN.key 0 0 ∨ key = F.AON_SUP_CNT_WARNS.key 0 0 ∨
        key = F.ADM_BROWN_ACTIVE.key 0 0 ∨ key = (F.EVT_RAW_CAUSE 0).key 2 0) s t := by
  obtain ⟨hwarn, hcount, hcause, hbrown, hentry, hframe⟩ := State.warned_spec hi hroom
  obtain ⟨hactive, hadm, hstart⟩ := State.brownStart_spec (s := s.warned i) 7 (by rw [hentry, hidle])
  have hexec : execSupplyWarn i s = .next ((s.warned i).brownStart 7) := next_of_neg (by simp [hseen, hon])
  refine ⟨_, hexec, ?_, ?_, ?_, ?_, hactive, hadm, ?frame⟩
  case frame => exact (hframe.mono (by decide) (by omega)).trans (hstart.mono (by decide) (by omega))
  · rw [hstart.rd _ _ _ (by decide) (by decide), hwarn]
  · rw [hstart.rd _ _ _ (by decide) (by decide), hcount]
  · rw [hstart.rd _ _ _ (by decide) (by decide), hcause]
  · rw [hstart.1 .aon (by decide), hbrown]

/-- The only supply below warning recovers. -/
theorem clrBit_two_pow (i : Nat) : clrBit (2 ^ i) i = 0 := by
  simp [clrBit, Nat.testBit_two_pow_self]

theorem State.supplyRecovered_spec {s : State} {i : Nat} (hon : s.aon.off = 0)
    (honly : s.rd F.AON_SUP_STS_WARN = 2 ^ i) :
    ∃ t, execSupplyRecovered i s = .next t ∧ t.rd F.AON_SUP_STS_WARN = 0 ∧ t.aon.liftDue = s.aon.brownSupply ∧
      Frame [.aon] (fun key => key = F.AON_SUP_STS_WARN.key 0 0) s t := by
  have hclear : (s.wr F.AON_SUP_STS_WARN (clrBit (s.rd F.AON_SUP_STS_WARN) i)).rd F.AON_SUP_STS_WARN = 0 := by
    rw [State.rd_wr_same, honly, clrBit_two_pow, Nat.zero_mod]
  refine ⟨_, next_of_pos ⟨by rw [honly]; exact Nat.testBit_two_pow_self, hon⟩, hclear, ?lift, ?frame⟩
  case lift =>
    show (decide (_ = 0) && s.aon.brownSupply) = _
    rw [hclear]; rfl
  case frame => exact ((Frame.refl _ _ s).wr F.AON_SUP_STS_WARN _ (by decide)).setAon _ (by decide)

theorem State.brownThrottleLift_spec {s : State} (hdue : s.aon.liftDue = true) :
    ∃ t, execBrownThrottleLift s = .next t ∧ t.aon.brownSupply = false ∧ t.aon.liftDue = false ∧
      t.adm.recompute = true ∧ (s.aon.brownThermal = false → t.rd F.ADM_BROWN_ACTIVE = 0) ∧
      Frame [.aon, .adm] (fun key => key = F.ADM_BROWN_ACTIVE.key 0 0) s t := by
  obtain ⟨hadm, hactive, hend⟩ :=
    State.brownEnd_spec (s.setAon { s.aon with liftDue := false, brownSupply := false })
  have haon := hend.1 .aon (by decide)
  refine ⟨_, next_of_pos hdue, ?_, ?_, hadm, hactive rfl, ?frame⟩
  case frame => exact ((Frame.refl _ _ s).setAon _ (by decide)).trans (hend.mono (by decide) fun _ h => h)
  · exact congrArg Aon.brownSupply haon
  · exact congrArg Aon.liftDue haon

theorem State.thermalThrottleLift_spec {s : State} (hthermal : s.aon.brownThermal = true) :
    ∃ t, execThermalThrottleLift s = .next t ∧ t.aon.brownThermal = false ∧ t.adm.recompute = true ∧
      (s.aon.brownSupply = false → t.rd F.ADM_BROWN_ACTIVE = 0) ∧
      Frame [.aon, .adm] (fun key => key = F.ADM_BROWN_ACTIVE.key 0 0) s t := by
  obtain ⟨hadm, hactive, hend⟩ := State.brownEnd_spec (s.setAon { s.aon with brownThermal := false })
  refine ⟨_, next_of_pos hthermal, ?_, hadm, fun h => hactive h rfl, ?frame⟩
  case frame => exact ((Frame.refl _ _ s).setAon _ (by decide)).trans (hend.mono (by decide) fun _ h => h)
  · exact congrArg Aon.brownThermal (hend.1 .aon (by decide))

/-- The heat as AON records it (R573). -/
def State.heated (s : State) (tj : Nat) : State :=
  let s1 := s.wr F.AON_THERM_TJ tj
  (s1.raise cThermalThrottle).setAon { s1.aon with brownThermal := true }

theorem State.thermalThrottle_spec {s : State} {tj : Nat} (hlo : 105 ≤ tj) (hhi : tj < 256) (hon : s.aon.off = 0)
    (hidle : s.aon.entry.stage = 0) (hcool : s.aon.brownThermal = false) :
    ∃ t, execThermalThrottle tj s = .next t ∧ t.rd F.AON_THERM_TJ = tj ∧ t.aon.brownThermal = true ∧
      (t.rd (F.EVT_RAW_CAUSE 0) 2).testBit 1 = true ∧ t.rd F.ADM_BROWN_ACTIVE = 1 ∧ t.adm.recompute = true ∧
      Frame [.evt, .aon, .adm] (fun key => key = F.AON_THERM_TJ.key 0 0 ∨ key = F.ADM_BROWN_ACTIVE.key 0 0 ∨
        key = (F.EVT_RAW_CAUSE 0).key 2 0) s t := by
  have hframe : Frame [.evt, .aon, .adm] (fun key => key = F.AON_THERM_TJ.key 0 0 ∨
      key = F.ADM_BROWN_ACTIVE.key 0 0 ∨ key = (F.EVT_RAW_CAUSE 0).key 2 0) s (s.heated tj) :=
    (((Frame.refl _ _ s).wr F.AON_THERM_TJ _ (by decide)).raise cThermalThrottle _ _ _ (by decide) (by decide)).setAon _
      (by decide)
  have hread : (s.heated tj).rd F.AON_THERM_TJ = tj := by
    rw [State.heated, State.setAon_rd, State.rd_raise_ne _ _ _ _ _ _ _ _ (by decide), State.rd_wr_same]
    exact Nat.mod_eq_of_lt hhi
  obtain ⟨hactive, hadm, hstart⟩ := State.brownStart_spec (s := s.heated tj) 6 hidle
  have hexec : execThermalThrottle tj s = .next ((s.heated tj).brownStart 6) := by
    unfold execThermalThrottle
    rw [if_neg (by simp [hon])]
    exact next_of_neg (not_or.2 ⟨by omega, fun h => absurd (hcool.symm.trans h) (by decide)⟩)
  refine ⟨_, hexec, ?_, ?_, ?_, hactive, hadm, ?frame⟩
  case frame => exact hframe.trans (hstart.mono (by decide) (by omega))
  · rw [hstart.rd _ _ _ (by decide) (by decide), hread]
  · exact congrArg Aon.brownThermal (hstart.1 .aon (by decide))
  · rw [hstart.rd _ _ _ (by decide) (by decide)]
    exact State.raise_testBit _ cThermalThrottle none none [] (by decide)

/-- A one-bit field that stands alone reads the truth value written to it. -/
theorem State.rdb_wr_b2n (s : State) {f : Fld} (b : Bool) (hf : 0 < f.width) : (s.wr f (b2n b)).rdb f = b := by
  have hlt : b2n b < 2 ^ f.width := Nat.lt_of_le_of_lt (by cases b <;> decide) (Nat.one_lt_two_pow (by omega))
  rw [State.rdb, State.rd_wr_same, Nat.mod_eq_of_lt hlt]
  cases b <;> decide

theorem State.lsclkSwitch_spec {s : State} {toRc : Bool} (hother : s.rdb F.AON_CLK_STS_LS_RC ≠ toRc)
    (hxtal : s.rd F.AON_CLK_STS_XTAL_OK = 1) :
    ∃ t, execLsclkSwitch toRc s = .next t ∧ t.rdb F.AON_CLK_STS_LS_RC = toRc ∧
      (t.rd (F.EVT_RAW_CAUSE 0) 2).testBit 4 = true ∧
      Frame [.evt] (fun key => key = F.AON_CLK_STS_LS_RC.key 0 0 ∨ key = (F.EVT_RAW_CAUSE 0).key 2 0) s t := by
  refine ⟨_, next_of_neg (not_or.2 ⟨hother, by simp [State.rdb, hxtal]⟩), ?_,
    State.raise_testBit _ cLsclkSwitch none none [] (by decide), ?frame⟩
  case frame =>
    exact ((Frame.refl _ _ s).wr F.AON_CLK_STS_LS_RC _ (by decide)).raise cLsclkSwitch _ _ _ (by decide) (by decide)
  · rw [State.rdb, State.rd_raise_ne _ _ _ _ _ _ _ _ (by decide)]
    exact State.rdb_wr_b2n s toRc (by decide)

/-- Settles O3: what starts the throttle ends in brownStart, what lifts it in brownEnd. -/
theorem brownThrottle : Obligations.BrownThrottle := by
  unfold Obligations.BrownThrottle
  refine ⟨?warn, ?recovered, ?lift, ?heat, ?cool, ?switch⟩
  case warn =>
    intro s i hi hseen hon hidle hroom
    exact State.supplyWarn_spec hi hseen hon hidle hroom
  case recovered =>
    intro s i _ hon honly
    exact State.supplyRecovered_spec hon honly
  case lift =>
    intro s hdue
    exact State.brownThrottleLift_spec hdue
  case heat =>
    intro s tj hlo hhi hon hidle hcool
    exact State.thermalThrottle_spec hlo hhi hon hidle hcool
  case cool =>
    intro s hthermal
    exact State.thermalThrottleLift_spec hthermal
  case switch =>
    intro s toRc hother hxtal
    exact State.lsclkSwitch_spec hother hxtal

end Sys2Proof.Machine
end

section
/-!
PROOFS of O4: thermal shutdown, the qualified crystal with its straps, and JTAG.
-/
namespace Sys2Proof.Machine
open Sys2Proof.Safety

/-! ## A field written on several instance pages -/

theorem State.rd_foldl_wrI_ne (f g : Fld) (v : Nat → Nat) (l : List Nat) (s : State) (j k : Nat)
    (h : ∀ i ∈ l, g.key j k ≠ f.key i 0) : (l.foldl (fun s i => s.wrI f i (v i)) s).rd g j k = s.rd g j k := by
  induction l generalizing s with
  | nil => rfl
  | cons i l ih =>
    obtain ⟨hi, hl⟩ := List.forall_mem_cons.1 h
    rw [List.foldl_cons, ih _ hl, State.rd_wrI_ne _ _ _ _ _ _ _ hi]

theorem State.rd_foldl_wrI_mem (f : Fld) (v : Nat → Nat) {l : List Nat} (s : State) {i : Nat} (hi : i ∈ l) :
    (l.foldl (fun s i => s.wrI f i (v i)) s).rd f i = v i % 2 ^ f.width := by
  induction l generalizing s with
  | nil => cases hi
  | cons j l ih =>
    by_cases hlater : i ∈ l
    · exact ih _ hlater
    · obtain rfl : i = j := (List.mem_cons.1 hi).resolve_right hlater
      have hne : ∀ j ∈ l, f.key i 0 ≠ f.key j 0 := fun j hj => Fld.key_ne_of_inst f 0 fun h => hlater (h ▸ hj)
      rw [List.foldl_cons, State.rd_foldl_wrI_ne _ _ _ _ _ _ _ hne, State.rd_wrI_same]

/-! ## Thermal shutdown (R508, R574) -/

theorem State.rd_setCause_ne (s : State) (c : Cause) (g : Fld) (j l : Nat)
    (h : g.key j l ≠ (F.EVT_RAW_CAUSE c.blk).key c.page 0) : (s.setCause c).rd g j l = s.rd g j l :=
  State.rd_wrI_ne _ _ _ _ _ _ _ h

theorem State.thermalShutdown_spec {s : State} (hon : s.aon.off = 0) :
    ∃ t, execThermalShutdown s = .next t ∧ t.aon.off = 2 ∧ t.rd F.AON_RST_CAUSE_CAUSE = 7 ∧ t.cry.root = none ∧
      t.cry.slotKeys = [] ∧ t.near.mem = [] ∧ t.bulk.mem = [] ∧ t.aon.brownThermal = true ∧ t.straps = s.straps ∧
      t.pending = s.pending ∧ t.out = s.out ++ [.alertN true, .resetN true, .enables (List.replicate 8 false)] := by
  refine ⟨_, next_of_neg (by simp [hon]), rfl, ?cause, rfl, rfl, rfl, rfl, rfl, rfl, rfl, ?out⟩
  case cause =>
    rw [State.emit_rd, State.emit_rd, State.emit_rd, State.rd_wr_ne _ _ _ _ _ _ (by decide),
      State.rd_setCause_ne _ _ _ _ _ (by decide)]
    exact State.rd_wr_same s.blank F.AON_RST_CAUSE_CAUSE 7
  case out =>
    simp only [State.emit, List.append_assoc, List.cons_append, List.nil_append]
    rfl

/-! ## The crystal, the straps and JTAG (R521, R558, R561) -/

/-- ALERT_N is released. -/
def State.alertReleased (s : State) : State := (s.wr F.AON_CLK_STS_XTAL_OK 1).emit (.alertN false)

/-- The reference clock mode that the straps give port p. -/
def strapRefmode (x : Straps) (p : Nat) : Nat := min 2 (if p < 8 then x.refmode0 else x.refmode1)

/-- The straps are noted. -/
def State.strapsNoted (s : State) (x : Straps) : State :=
  { s with straps := x, aon := { s.aon with strapped := true, loading := true } }

/-- The bifurcation that the straps ask for. -/
def State.merges (s : State) (m : Nat) : State := (s.wr F.HLX_BIFUR_MERGE m).wr F.HLX_BIFUR_MERGE_ACT m

/-- The reference clock modes that the straps ask for. -/
def State.refmodes (s : State) (x : Straps) : State :=
  (List.range 16).foldl (fun s p => s.wrI F.HLX_PORT_CTL_REFMODE p (strapRefmode x p)) s

/-- The straps as sampled. -/
def State.sampled (s : State) (x : Straps) : State :=
  (((s.strapsNoted x).merges x.bifur.toNat).refmodes x).wr F.CLX_ID_HEAD (b2n x.chainHead)

theorem State.execXtalQualified_sampled {s : State} {x : Straps} (hxtal : s.rd F.AON_CLK_STS_XTAL_OK = 0)
    (hon : s.aon.off = 0) (hfirst : s.aon.strapped = false) :
    execXtalQualified x s = .next (s.alertReleased.sampled x) := by
  have hgo : ¬ (s.rdb F.AON_CLK_STS_XTAL_OK = true ∨ s.aon.off = 1 ∨ s.aon.off = 2) := by simp [State.rdb, hxtal, hon]
  have hsample : ¬ s.alertReleased.aon.strapped = true := fun h => absurd (hfirst.symm.trans h) (by decide)
  unfold execXtalQualified
  rw [if_neg hgo]
  show (.next (if s.alertReleased.aon.strapped then _ else _) : Result) = _
  rw [if_neg hsample]
  rfl

theorem State.rd_refmodes (s : State) (x : Straps) {p : Nat} (hp : p < 16) :
    (s.refmodes x).rd F.HLX_PORT_CTL_REFMODE p = strapRefmode x p := by
  rw [State.refmodes, State.rd_foldl_wrI_mem _ _ _ (List.mem_range.2 hp)]
  exact Nat.mod_eq_of_lt (Nat.lt_of_le_of_lt (Nat.min_le_left 2 _) (by decide))

theorem State.rd_refmodes_ne (s : State) (x : Straps) (g : Fld)
    (h : ∀ i ∈ List.range 16, g.key 0 0 ≠ F.HLX_PORT_CTL_REFMODE.key i 0) : (s.refmodes x).rd g = s.rd g :=
  State.rd_foldl_wrI_ne _ _ _ _ _ _ _ h

/-- The keys that the straps set. -/
abbrev StrapKeys (key : Nat) : Prop :=
  (∃ p < 16, key = F.HLX_PORT_CTL_REFMODE.key p 0) ∨ key = F.AON_CLK_STS_XTAL_OK.key 0 0 ∨
    key = F.HLX_BIFUR_MERGE.key 0 0 ∨ key = F.HLX_BIFUR_MERGE_ACT.key 0 0 ∨ key = F.CLX_ID_HEAD.key 0 0

theorem State.refmodes_frame (s : State) (x : Straps) : Frame [] StrapKeys s (s.refmodes x) :=
  Frame.foldl _ _ _ fun u p hp => (Frame.refl _ _ u).wrI _ _ _ (.inl (.inl ⟨p, List.mem_range.1 hp, rfl⟩))

theorem State.sampled_frame (s : State) (x : Straps) : Frame [.out, .straps, .aon] StrapKeys s (s.sampled x) := by
  have hnoted : Frame [.out, .straps, .aon] StrapKeys s (s.strapsNoted x) :=
    ((Frame.refl [.out, .straps, .aon] StrapKeys s).with_straps x (by decide)).with_aon _ (by decide)
  have hmerges : Frame [.out, .straps, .aon] StrapKeys s ((s.strapsNoted x).merges x.bifur.toNat) :=
    (hnoted.wr F.HLX_BIFUR_MERGE _ (by decide)).wr F.HLX_BIFUR_MERGE_ACT _ (by decide)
  exact (hmerges.trans ((State.refmodes_frame _ _).mono (by simp) fun _ h => h)).wr F.CLX_ID_HEAD _ (by decide)

/-- What the sampling does to the parts of the state. -/
theorem State.sampled_parts (s : State) (x : Straps) : (s.sampled x).straps = x ∧
    (s.sampled x).aon = { s.aon with strapped := true, loading := true } ∧ (s.sampled x).out = s.out := by
  obtain ⟨hparts, -⟩ := State.refmodes_frame ((s.strapsNoted x).merges x.bifur.toNat) x
  rw [State.sampled]
  generalize State.refmodes _ x = u at *
  exact ⟨hparts .straps List.not_mem_nil, hparts .aon List.not_mem_nil, hparts .out List.not_mem_nil⟩

/-- A field apart from the modes and from the chain head reads as before them. -/
theorem State.rd_sampled_ne (s : State) (x : Straps) {g : Fld}
    (hmode : ∀ i ∈ List.range 16, g.key 0 0 ≠ F.HLX_PORT_CTL_REFMODE.key i 0)
    (hhead : g.key 0 0 ≠ F.CLX_ID_HEAD.key 0 0) : (s.sampled x).rd g = (s.merges x.bifur.toNat).rd g := by
  rw [State.sampled, State.rd_wr_ne _ _ _ _ _ _ hhead, State.rd_refmodes_ne _ _ _ hmode]
  rfl

/-- What the registers read after the sampling. -/
theorem State.rd_sampled (s : State) (x : Straps) :
    (s.sampled x).rd F.AON_CLK_STS_XTAL_OK = s.rd F.AON_CLK_STS_XTAL_OK ∧
      (s.sampled x).rd F.HLX_BIFUR_MERGE = x.bifur.toNat ∧ (s.sampled x).rd F.HLX_BIFUR_MERGE_ACT = x.bifur.toNat ∧
      (∀ p < 16, (s.sampled x).rd F.HLX_PORT_CTL_REFMODE p = strapRefmode x p) ∧
      (s.sampled x).rdb F.CLX_ID_HEAD = x.chainHead := by
  refine ⟨?xtal, ?merge, ?act, ?modes, State.rdb_wr_b2n _ _ (by decide)⟩
  case xtal =>
    rw [State.rd_sampled_ne _ _ (by decide) (by decide), State.merges, State.rd_wr_ne _ _ _ _ _ _ (by decide),
      State.rd_wr_ne _ _ _ _ _ _ (by decide)]
  case merge =>
    rw [State.rd_sampled_ne _ _ (by decide) (by decide), State.merges, State.rd_wr_ne _ _ _ _ _ _ (by decide),
      State.rd_wr_same]
    exact Nat.mod_eq_of_lt x.bifur.isLt
  case act =>
    rw [State.rd_sampled_ne _ _ (by decide) (by decide), State.merges, State.rd_wr_same]
    exact Nat.mod_eq_of_lt x.bifur.isLt
  case modes =>
    intro p hp
    rw [State.sampled, State.rd_wr_ne _ _ _ _ _ _ (Fld.key_ne_of_place (by decide)), State.rd_refmodes _ _ hp]

/-- The crystal qualifies for the first time. -/
theorem State.xtalQualified_spec {s t : State} {x : Straps} (ht : s.alertReleased.sampled x = t) :
    t.rd F.AON_CLK_STS_XTAL_OK = 1 ∧ t.straps = x ∧ t.aon.strapped = true ∧ t.aon.loading = true ∧
      t.rd F.HLX_BIFUR_MERGE = x.bifur.toNat ∧ t.rd F.HLX_BIFUR_MERGE_ACT = x.bifur.toNat ∧
      (∀ p < 8, t.rd F.HLX_PORT_CTL_REFMODE p = min 2 x.refmode0) ∧
      (∀ p < 8, t.rd F.HLX_PORT_CTL_REFMODE (p + 8) = min 2 x.refmode1) ∧ t.rdb F.CLX_ID_HEAD = x.chainHead ∧
      t.out = s.out ++ [Out.alertN false] ∧ Frame [.out, .straps, .aon] StrapKeys s t := by
  obtain ⟨hxtal, hmerge, hact, hmodes, hhead⟩ := s.alertReleased.rd_sampled x
  obtain ⟨hstraps, haon, hout⟩ := s.alertReleased.sampled_parts x
  have hsampled := s.alertReleased.sampled_frame x
  rw [ht] at hxtal hmerge hact hmodes hhead hstraps haon hout hsampled
  have hreleased : Frame [.out, .straps, .aon] StrapKeys s s.alertReleased :=
    ((Frame.refl _ _ s).wr F.AON_CLK_STS_XTAL_OK 1 (by decide)).emit _ (by decide)
  refine ⟨hxtal.trans (State.rd_wr_same s F.AON_CLK_STS_XTAL_OK 1), hstraps, by rw [haon], by rw [haon], hmerge, hact,
    fun p hp => ?low, fun p hp => ?high, hhead, hout, hreleased.trans hsampled⟩
  case low => rw [hmodes p (by omega), strapRefmode, if_pos hp]
  case high => rw [hmodes _ (by omega), strapRefmode, if_neg (by omega)]

/-- Settles O4: a shutdown starts from a blank state; the sampling of the straps writes what they ask for. -/
theorem offAndIdentity : Obligations.OffAndIdentity := by
  unfold Obligations.OffAndIdentity
  refine ⟨?shutdown, ?crystal, ?test, ?permitted⟩
  case shutdown =>
    intro s hon
    exact State.thermalShutdown_spec hon
  case crystal =>
    intro s x hxtal hon hfirst
    exact ⟨_, State.execXtalQualified_sampled hxtal hon hfirst, State.xtalQualified_spec rfl⟩
  case test =>
    intro s ir hir
    refine ⟨_, rfl, ?_, (Frame.refl _ _ s).setAon _ (by decide)⟩
    show (if ir ≤ 2 ∨ s.aon.extLow = true then ir else 0) = _
    simp [Nat.not_le.2 hir]
  case permitted =>
    intro s ir hir
    refine ⟨_, rfl, ?_, (Frame.refl _ _ s).setAon _ (by decide)⟩
    exact if_pos (.inl hir)

end Sys2Proof.Machine
end

section
/-!
PROOFS of O5 and O51: fabric time, and register accesses of another width or alignment.
-/
namespace Sys2Proof.Machine
open Sys2Proof.Safety

/-! ## A misaligned access (R544) -/

/-- The selection of PMU counter c reads the PMU's registers alone. -/
theorem State.pmuSelects_wrAt (s : State) (f : Fld) (i k v : Nat) (g : Fld) (j l : Nat) (cls : Option Nat) {c : Nat}
    (h : ∀ sel ∈ [F.PMU_SEL_CODE, F.PMU_SEL_CLASS_MASK, F.PMU_SEL_INST, F.PMU_SEL_INST_BASE],
      sel.key g.blk c ≠ f.key i k) :
    (s.wrAt f i k v).pmuSelects g j l cls c = s.pmuSelects g j l cls c := by
  obtain ⟨hcode, hmask, hinst, hbase, -⟩ := by simpa only [List.forall_mem_cons] using h
  simp only [State.pmuSelects, State.rd_wrAt_ne _ _ _ _ _ _ _ _ hcode, State.rd_wrAt_ne _ _ _ _ _ _ _ _ hmask,
    State.rd_wrAt_ne _ _ _ _ _ _ _ _ hinst, State.rd_wrAt_ne _ _ _ _ _ _ _ _ hbase]

/-- While no PMU counter selects WIDTH, the count of a misaligned access is that register's alone. -/
theorem State.badWidth_of_unselected {s : State}
    (h : ∀ c ∈ List.range 6, s.pmuSelects F.AON_GLB_ACCERR_WIDTH 0 0 none c = false) :
    s.badWidth = s.wrAt F.AON_GLB_ACCERR_WIDTH 0 0
      (counterNext F.AON_GLB_ACCERR_WIDTH s.draw (s.rd F.AON_GLB_ACCERR_WIDTH) 1 true) := by
  have hsel : ∀ c ∈ List.range 6, ∀ sel ∈ [F.PMU_SEL_CODE, F.PMU_SEL_CLASS_MASK, F.PMU_SEL_INST, F.PMU_SEL_INST_BASE],
      sel.key F.AON_GLB_ACCERR_WIDTH.blk c ≠ F.AON_GLB_ACCERR_WIDTH.key 0 0 := by decide
  have hcopy : ¬ (F.AON_GLB_ACCERR_WIDTH.blk = 4 ∧ fireflyFields.contains F.AON_GLB_ACCERR_WIDTH) := by decide
  rw [State.badWidth, State.bump, State.copyAdvance, if_neg hcopy]
  refine foldl_eq_self fun c hc => ?_
  rw [State.pmuSelects_wrAt _ _ _ _ _ _ _ _ _ (hsel c hc), h c hc]
  exact if_neg Bool.false_ne_true

theorem State.badWidth_frame {s : State} (P : List Part)
    (h : ∀ c ∈ List.range 6, s.pmuSelects F.AON_GLB_ACCERR_WIDTH 0 0 none c = false) :
    Frame P (fun key => key = F.AON_GLB_ACCERR_WIDTH.key 0 0) s s.badWidth := by
  rw [State.badWidth_of_unselected h]
  exact (Frame.refl _ _ s).wrAt _ _ _ _ (.inl rfl)

/-- Settles O51: such an access ends in the count of WIDTH. -/
theorem misalignedAccess : Obligations.MisalignedAccess := by
  unfold Obligations.MisalignedAccess
  refine ⟨?write, ?read⟩
  case write =>
    intro s path addr width value hreach hcur hidle hwidth hsel
    have hexec := execRegisterWrite_of_reached value (s.regKnock_of_idle path hcur hidle) hreach
      (s.blockBusy_of_bad_width _ _ hwidth)
    rw [s.writeAny_of_bad_width path _ hwidth] at hexec
    exact ⟨_, hexec, s.rd_badWidth_width, State.badWidth_frame _ hsel⟩
  case read =>
    intro s path addr width hreach hcur hidle hwidth hsel
    have hexec := execRegisterReadClear_of_reached (s.regKnock_of_idle path hcur hidle) hreach
      (s.blockBusy_of_bad_width _ _ hwidth)
    have hread : s.readAny path addr width = (0, s.badWidth) := by simp [State.readAny, hwidth]
    simp only [hread] at hexec
    have hout : s.badWidth.out = s.out := (State.badWidth_frame [] hsel).1 .out List.not_mem_nil
    have hframe := (State.badWidth_frame [.out] hsel).emit (.regRead path addr width 0) (by decide)
    refine ⟨_, hexec, ?_, ?_, hframe⟩
    · rw [State.emit, hout]
    · rw [State.emit_rd, s.rd_badWidth_width]

/-! ## Boundaries of fabric time (R522 to R525) -/

/-- The keys that a boundary writes. -/
abbrev BoundaryKeys (key : Nat) : Prop := key = F.AON_EPOCH_EPOCH.key 0 0 ∨ key = F.AON_EPOCH_PHASE.key 0 0

/-- The timebase after n boundaries. -/
def State.timePassed (s : State) (n : Nat) : TimeBase :=
  { s.aon.time with elapsed := (s.aon.time.elapsed + n * s.epochNs) % 2 ^ 64, fresh := s.aon.time.fresh || decide (n ≠ 0) }

/-- While PERIOD is as in force, boundaries advance EPOCH and set the phase to 0. -/
theorem State.passBoundaries_eq {s : State} (n : Nat) (hperiod : s.rd F.AON_TIME_CFG_PERIOD = s.aon.time.period) :
    s.passBoundaries n =
      ((s.wr F.AON_EPOCH_EPOCH (s.epoch + n)).wr F.AON_EPOCH_PHASE 0).setTime (s.timePassed n) := by
  rw [State.passBoundaries, if_pos (.inr hperiod)]
  rfl

/-- What the registers and the timebase are after boundaries. -/
theorem State.passBoundaries_spec {s : State} (n : Nat) (hperiod : s.rd F.AON_TIME_CFG_PERIOD = s.aon.time.period) :
    (s.passBoundaries n).rd F.AON_EPOCH_EPOCH = (s.rd F.AON_EPOCH_EPOCH + n) % 2 ^ 48 ∧
      (s.passBoundaries n).rd F.AON_EPOCH_PHASE = 0 ∧ (s.passBoundaries n).aon.time = s.timePassed n ∧
      Frame [.aon] BoundaryKeys s (s.passBoundaries n) := by
  rw [State.passBoundaries_eq n hperiod]
  refine ⟨?_, State.rd_wr_same (s.wr F.AON_EPOCH_EPOCH (s.epoch + n)) F.AON_EPOCH_PHASE 0, rfl, ?frame⟩
  case frame =>
    exact (((Frame.refl _ _ s).wr F.AON_EPOCH_EPOCH _ (by decide)).wr F.AON_EPOCH_PHASE _ (by decide)).setTime _
      (by decide)
  · rw [State.setTime_rd, State.rd_wr_ne _ _ _ _ _ _ (by decide), State.rd_wr_same]
    rfl

theorem State.loadPoint_of_unarmed {s : State} (h : s.rd F.AON_EPOCH_LOAD_ARM = 0) : s.loadPoint = s := by
  unfold State.loadPoint
  exact if_neg (by simp [State.rdb, h])

/-- The keys that a load point writes. -/
abbrev LoadKeys (key : Nat) : Prop :=
  key = F.AON_EPOCH_EPOCH.key 0 0 ∨ key = F.AON_EPOCH_LOAD_ARM.key 0 0 ∨ key = F.AON_TIME_STS_AMBIG.key 0 0

theorem State.loadPoint_of_armed {s : State} (h : s.rd F.AON_EPOCH_LOAD_ARM = 1) :
    ∃ x, s.loadPoint = (((s.wr F.AON_EPOCH_EPOCH (s.rd F.AON_EPOCH_LOAD_VALUE)).wr F.AON_EPOCH_LOAD_ARM 0).wr
      F.AON_TIME_STS_AMBIG 0).setTime x := by
  unfold State.loadPoint
  rw [if_pos (by simp [State.rdb, h])]
  exact ⟨_, rfl⟩

/-- The load that was armed is performed (R525). -/
theorem State.loadPoint_spec {s : State} (h : s.rd F.AON_EPOCH_LOAD_ARM = 1) :
    s.loadPoint.rd F.AON_EPOCH_EPOCH = s.rd F.AON_EPOCH_LOAD_VALUE % 2 ^ 48 ∧ s.loadPoint.rd F.AON_EPOCH_LOAD_ARM = 0 ∧
      s.loadPoint.rd F.AON_TIME_STS_AMBIG = 0 ∧ Frame [.aon] LoadKeys s s.loadPoint := by
  obtain ⟨x, hx⟩ := State.loadPoint_of_armed h
  rw [hx]
  generalize s.rd F.AON_EPOCH_LOAD_VALUE = v
  refine ⟨?epoch, ?arm, State.rd_wr_same ((s.wr F.AON_EPOCH_EPOCH v).wr F.AON_EPOCH_LOAD_ARM 0) F.AON_TIME_STS_AMBIG 0,
    ?frame⟩
  case epoch =>
    rw [State.setTime_rd, State.rd_wr_ne _ _ _ _ _ _ (by decide), State.rd_wr_ne _ _ _ _ _ _ (by decide),
      State.rd_wr_same]
    rfl
  case arm => rw [State.setTime_rd, State.rd_wr_ne _ _ _ _ _ _ (by decide), State.rd_wr_same]; rfl
  case frame =>
    exact ((((Frame.refl _ _ s).wr F.AON_EPOCH_EPOCH _ (by decide)).wr F.AON_EPOCH_LOAD_ARM _ (by decide)).wr
      F.AON_TIME_STS_AMBIG _ (by decide)).setTime _ (by decide)

/-- The keys that a change of quality writes. -/
abbrev QualityKeys (key : Nat) : Prop := key = F.AON_EPOCH_QUALITY.key 0 0 ∨ key = (F.EVT_RAW_CAUSE 0).key 3 0

/-- A change of quality is written and raised (R523). -/
theorem State.setQuality_spec {s : State} {q : Nat} (hne : s.rd F.AON_EPOCH_QUALITY ≠ q) (hq : q < 4) :
    (s.setQuality q).rd F.AON_EPOCH_QUALITY = q ∧ ((s.setQuality q).rd (F.EVT_RAW_CAUSE 0) 3).testBit 0 = true ∧
      (s.setQuality q).aon = s.aon ∧ Frame [.evt] QualityKeys s (s.setQuality q) := by
  rw [State.setQuality, if_neg hne]
  refine ⟨?read, State.raise_testBit _ cTimeQuality none none [] (by decide), State.aon_raise _ _ _ _ _, ?frame⟩
  case read =>
    rw [State.rd_raise_ne _ _ _ _ _ _ _ _ (by decide), State.rd_wr_same]
    exact Nat.mod_eq_of_lt hq
  case frame =>
    exact ((Frame.refl _ _ s).wr F.AON_EPOCH_QUALITY _ (by decide)).raise cTimeQuality _ _ _ (by decide) (by decide)

/-- The keys of the clauses about boundaries that change the quality. -/
abbrev TimeKeys (key : Nat) : Prop :=
  key = F.AON_EPOCH_EPOCH.key 0 0 ∨ key = F.AON_EPOCH_PHASE.key 0 0 ∨ key = F.AON_EPOCH_QUALITY.key 0 0 ∨
    key = (F.EVT_RAW_CAUSE 0).key 3 0

theorem BoundaryKeys.timeKeys {key : Nat} (h : BoundaryKeys key) : TimeKeys key := by
  rcases h with h | h
  · exact .inl h
  · exact .inr (.inl h)

theorem QualityKeys.timeKeys {key : Nat} (h : QualityKeys key) : TimeKeys key := .inr (.inr h)

/-- Boundaries pass, the timebase is replaced, and the quality changes, while no load is armed. -/
theorem State.boundary_spec {s t : State} {n q : Nat} (x : TimeBase)
    (hperiod : s.rd F.AON_TIME_CFG_PERIOD = s.aon.time.period) (hne : s.rd F.AON_EPOCH_QUALITY ≠ q) (hq : q < 4)
    (ht : ((s.passBoundaries n).setTime x).setQuality q = t) :
    t.rd F.AON_EPOCH_EPOCH = (s.rd F.AON_EPOCH_EPOCH + n) % 2 ^ 48 ∧ t.rd F.AON_EPOCH_PHASE = 0 ∧
      t.rd F.AON_EPOCH_QUALITY = q ∧ (t.rd (F.EVT_RAW_CAUSE 0) 3).testBit 0 = true ∧ Frame [.evt, .aon] TimeKeys s t := by
  obtain ⟨hepoch, hphase, -, hpass⟩ := State.passBoundaries_spec n hperiod
  have hread : ((s.passBoundaries n).setTime x).rd F.AON_EPOCH_QUALITY ≠ q := by
    rw [State.setTime_rd, hpass.rd _ _ _ (by decide) (by decide)]; exact hne
  obtain ⟨hquality, hcause, -, hset⟩ := State.setQuality_spec hread hq
  rw [ht] at hquality hcause hset
  refine ⟨?epoch, ?phase, hquality, hcause, ?frame⟩
  case epoch => rw [hset.rd _ _ _ (by decide) (by decide), State.setTime_rd, hepoch]
  case phase => rw [hset.rd _ _ _ (by decide) (by decide), State.setTime_rd, hphase]
  case frame =>
    exact ((hpass.mono (by decide) fun _ h => h.timeKeys).setTime x (by decide)).trans
      (hset.mono (by decide) fun _ h => h.timeKeys)

/-- AON watches FTIME. -/
theorem State.timed_of {s : State} (hxtal : s.rd F.AON_CLK_STS_XTAL_OK = 1) (hcur : s.rd F.AON_PWR_MODE_CUR < 3)
    (hon : s.aon.off = 0) : s.timed = true := by
  simp [State.timed, State.rdb, hxtal, hcur, hon]

/-- The timebase after a boundary that a pulse marks. -/
def State.timeAccepted (s : State) (n : Nat) : TimeBase :=
  { (s.passBoundaries n).aon.time with offs := [], hold := 0, windowOpen := false }

/-- A pulse that is taken, while no load is armed. -/
theorem State.acceptPulse_eq {s : State} (p : Nat) (hperiod : s.rd F.AON_TIME_CFG_PERIOD = s.aon.time.period)
    (harm : s.rd F.AON_EPOCH_LOAD_ARM = 0) :
    s.acceptPulse p = ((s.passBoundaries ((p + s.epochNs / 2) / s.epochNs)).setTime
      (s.timeAccepted ((p + s.epochNs / 2) / s.epochNs))).setQuality 0 := by
  obtain ⟨-, -, -, hpass⟩ := State.passBoundaries_spec ((p + s.epochNs / 2) / s.epochNs) hperiod
  have hload := State.loadPoint_of_unarmed (s := (s.passBoundaries ((p + s.epochNs / 2) / s.epochNs)).setTime
    (s.timeAccepted ((p + s.epochNs / 2) / s.epochNs)))
    (by rw [State.setTime_rd, hpass.rd _ _ _ (by decide) (by decide), harm])
  exact congrArg (State.setQuality · 0) hload

/-- Out of LOCKED, and of the estimate after P3, every pulse is taken (R524). -/
theorem State.pulse_of_unlocked {s : State} (p : Nat)
    (hq : s.rd F.AON_EPOCH_QUALITY = 1 ∨ s.rd F.AON_EPOCH_QUALITY = 2) : s.pulse p = s.acceptPulse p := by
  simp only [State.pulse]
  rw [if_neg (by omega), if_neg (by omega)]

theorem State.ftimePulse_locks {s : State} {p : Nat} (hxtal : s.rd F.AON_CLK_STS_XTAL_OK = 1)
    (hcur : s.rd F.AON_PWR_MODE_CUR < 3) (hon : s.aon.off = 0)
    (hq : s.rd F.AON_EPOCH_QUALITY = 1 ∨ s.rd F.AON_EPOCH_QUALITY = 2) (harm : s.rd F.AON_EPOCH_LOAD_ARM = 0)
    (hperiod : s.rd F.AON_TIME_CFG_PERIOD = s.aon.time.period) :
    ∃ t, execFtimePulse p s = .next t ∧
      t.rd F.AON_EPOCH_EPOCH = (s.rd F.AON_EPOCH_EPOCH + (p + s.epochNs / 2) / s.epochNs) % 2 ^ 48 ∧
      t.rd F.AON_EPOCH_PHASE = 0 ∧ t.rd F.AON_EPOCH_QUALITY = 0 ∧ (t.rd (F.EVT_RAW_CAUSE 0) 3).testBit 0 = true ∧
      Frame [.evt, .aon] TimeKeys s t := by
  have hpulse := (State.pulse_of_unlocked p hq).trans (State.acceptPulse_eq p hperiod harm)
  exact ⟨_, next_of_pos (State.timed_of hxtal hcur hon),
    State.boundary_spec _ hperiod (by omega) (by decide) hpulse.symm⟩

/-- In LOCKED a pulse outside the window of every boundary, and the first such one, is counted and noted. -/
theorem State.pulse_off {s : State} {p : Nat} (hq : s.rd F.AON_EPOCH_QUALITY = 0)
    (hclosed : s.aon.time.windowOpen = false) (hoffs : s.aon.time.offs = [])
    (hp : p + s.rd F.AON_TIME_CFG_WIN < s.aon.time.period * 1000) :
    ∃ x, s.pulse p = (s.bump F.AON_TIME_STS_OFFWIN).setTime x := by
  have htime : (s.bump F.AON_TIME_STS_OFFWIN).aon.time.offs = [] := by
    rw [(s.bump_frame F.AON_TIME_STS_OFFWIN 0 0 1 none false (by decide)).1 .aon (by decide), hoffs]
  have hfar : ¬ (s.epochNs ≤ p + s.rd F.AON_TIME_CFG_WIN ∧ p ≤ s.epochNs + s.rd F.AON_TIME_CFG_WIN) :=
    fun h => absurd h.1 (Nat.not_le.2 hp)
  simp only [State.pulse]
  rw [if_pos hq, if_neg (by simp [hclosed]), if_neg hfar, htime]
  exact ⟨_, if_neg (by simp [State.spaced])⟩

theorem State.ftimePulse_counts {s : State} {p : Nat} (hxtal : s.rd F.AON_CLK_STS_XTAL_OK = 1)
    (hcur : s.rd F.AON_PWR_MODE_CUR < 3) (hon : s.aon.off = 0) (hq : s.rd F.AON_EPOCH_QUALITY = 0)
    (hclosed : s.aon.time.windowOpen = false) (hoffs : s.aon.time.offs = [])
    (hp : p + s.rd F.AON_TIME_CFG_WIN < s.aon.time.period * 1000) (hroom : s.rd F.AON_TIME_STS_OFFWIN + 1 < 2 ^ 32) :
    ∃ t, execFtimePulse p s = .next t ∧ t.rd F.AON_TIME_STS_OFFWIN = s.rd F.AON_TIME_STS_OFFWIN + 1 ∧
      t.rd F.AON_EPOCH_QUALITY = 0 ∧ Frame [.evt, .aon] (fun key => key = F.AON_TIME_STS_OFFWIN.key 0 0) s t := by
  obtain ⟨x, hx⟩ := State.pulse_off hq hclosed hoffs hp
  have hbump := s.bump_frame F.AON_TIME_STS_OFFWIN 0 0 1 none false (by decide)
  refine ⟨_, next_of_pos (State.timed_of hxtal hcur hon), ?count, ?quality, ?frame⟩
  all_goals rw [hx]
  case count =>
    rw [State.setTime_rd]
    exact State.rd_bump_same s F.AON_TIME_STS_OFFWIN 0 0 1 none false (by decide) (by decide) hroom
  case quality => rw [State.setTime_rd, hbump.rd _ _ _ (by decide) (by decide), hq]
  case frame => exact (hbump.mono (by decide) fun _ h => h).setTime x (by decide)

theorem State.ftimePulseMissed_spec {s : State} (hxtal : s.rd F.AON_CLK_STS_XTAL_OK = 1)
    (hcur : s.rd F.AON_PWR_MODE_CUR < 3) (hon : s.aon.off = 0) (hq : s.rd F.AON_EPOCH_QUALITY = 0)
    (hopen : s.aon.time.windowOpen = true) (harm : s.rd F.AON_EPOCH_LOAD_ARM = 0) :
    ∃ t, execFtimePulseMissed s = .next t ∧ t.rd F.AON_EPOCH_QUALITY = 1 ∧
      (t.rd (F.EVT_RAW_CAUSE 0) 3).testBit 0 = true ∧ t.aon.time.windowOpen = false ∧
      Frame [.evt, .aon] QualityKeys s t := by
  have hmissed : s.pulseMissed =
      (s.setTime { s.aon.time with windowOpen := false, hold := 0, offs := [] }).setQuality 1 := by
    simp only [State.pulseMissed, hopen, if_pos, State.loadPoint_of_unarmed harm]
  obtain ⟨hquality, hcause, haon, hset⟩ := State.setQuality_spec (q := 1)
    (s := s.setTime { s.aon.time with windowOpen := false, hold := 0, offs := [] })
    (by rw [State.setTime_rd, hq]; decide) (by decide)
  refine ⟨_, next_of_pos ⟨State.timed_of hxtal hcur hon, hq⟩, ?_⟩
  rw [hmissed]
  exact ⟨hquality, hcause, by rw [haon]; rfl,
    ((Frame.refl _ _ s).setTime _ (by decide)).trans (hset.mono (by decide) fun _ h => h)⟩

/-- The boundary at which HOLDOVER reaches HOLD_LIMIT. -/
theorem State.xtalBoundary_free_eq {s : State} (hq : s.rd F.AON_EPOCH_QUALITY = 1) (harm : s.rd F.AON_EPOCH_LOAD_ARM = 0)
    (hperiod : s.rd F.AON_TIME_CFG_PERIOD = s.aon.time.period)
    (hlimit : s.rd F.AON_TIME_CFG_HOLD_LIMIT = s.aon.time.hold + 1) :
    ∃ x, s.xtalBoundary = ((s.passBoundaries 1).setTime x).setQuality 2 := by
  obtain ⟨-, -, htime, hpass⟩ := State.passBoundaries_spec 1 hperiod
  have hload : (s.passBoundaries 1).loadPoint = s.passBoundaries 1 :=
    State.loadPoint_of_unarmed (by rw [hpass.rd _ _ _ (by decide) (by decide), harm])
  have hhold : (s.passBoundaries 1).aon.time.hold = s.aon.time.hold := by rw [htime]; rfl
  simp only [State.xtalBoundary]
  rw [if_neg (by omega), if_pos hq, hload]
  exact ⟨_, if_pos (by rw [hlimit]; exact Nat.le_of_eq (congrArg (· + 1) hhold.symm))⟩

theorem State.xtalBoundary_frees {s : State} (hxtal : s.rd F.AON_CLK_STS_XTAL_OK = 1)
    (hcur : s.rd F.AON_PWR_MODE_CUR < 3) (hon : s.aon.off = 0) (hq : s.rd F.AON_EPOCH_QUALITY = 1)
    (harm : s.rd F.AON_EPOCH_LOAD_ARM = 0) (hperiod : s.rd F.AON_TIME_CFG_PERIOD = s.aon.time.period)
    (hlimit : s.rd F.AON_TIME_CFG_HOLD_LIMIT = s.aon.time.hold + 1) :
    ∃ t, execXtalBoundary s = .next t ∧ t.rd F.AON_EPOCH_EPOCH = (s.rd F.AON_EPOCH_EPOCH + 1) % 2 ^ 48 ∧
      t.rd F.AON_EPOCH_PHASE = 0 ∧ t.rd F.AON_EPOCH_QUALITY = 2 ∧ (t.rd (F.EVT_RAW_CAUSE 0) 3).testBit 0 = true ∧
      Frame [.evt, .aon] TimeKeys s t := by
  obtain ⟨x, hx⟩ := State.xtalBoundary_free_eq hq harm hperiod hlimit
  exact ⟨_, next_of_pos (State.timed_of hxtal hcur hon), State.boundary_spec x hperiod (by omega) (by decide) hx.symm⟩

theorem State.xtalBoundary_loads {s : State} (hxtal : s.rd F.AON_CLK_STS_XTAL_OK = 1)
    (hcur : s.rd F.AON_PWR_MODE_CUR < 3) (hon : s.aon.off = 0) (hq : s.rd F.AON_EPOCH_QUALITY = 2)
    (harm : s.rd F.AON_EPOCH_LOAD_ARM = 1) (hperiod : s.rd F.AON_TIME_CFG_PERIOD = s.aon.time.period) :
    ∃ t, execXtalBoundary s = .next t ∧ t.rd F.AON_EPOCH_EPOCH = s.rd F.AON_EPOCH_LOAD_VALUE % 2 ^ 48 ∧
      t.rd F.AON_EPOCH_PHASE = 0 ∧ t.rd F.AON_EPOCH_LOAD_ARM = 0 ∧ t.rd F.AON_TIME_STS_AMBIG = 0 ∧
      Frame [.aon] (fun key => key = F.AON_EPOCH_EPOCH.key 0 0 ∨ key = F.AON_EPOCH_PHASE.key 0 0 ∨
        key = F.AON_EPOCH_LOAD_ARM.key 0 0 ∨ key = F.AON_TIME_STS_AMBIG.key 0 0) s t := by
  obtain ⟨-, hphase, -, hpass⟩ := State.passBoundaries_spec 1 hperiod
  obtain ⟨hepoch, hdone, hambig, hload⟩ := State.loadPoint_spec (s := s.passBoundaries 1)
    (by rw [hpass.rd _ _ _ (by decide) (by decide), harm])
  have hxtalB : s.xtalBoundary = (s.passBoundaries 1).loadPoint := by
    simp only [State.xtalBoundary]
    rw [if_neg (by omega), if_neg (by omega)]
  refine ⟨_, next_of_pos (State.timed_of hxtal hcur hon), ?_⟩
  rw [hxtalB]
  refine ⟨?_, ?_, hdone, hambig, (hpass.mono (by decide) (by omega)).trans (hload.mono (by decide) (by omega))⟩
  · rw [hepoch, hpass.rd _ _ _ (by decide) (by decide)]
  · rw [hload.rd _ _ _ (by decide) (by decide), hphase]

/-- A path that reaches AON and manages the device orders the command. -/
theorem State.viaPath_of_reaches {s : State} {path : Path} {page : Nat} {may : Bool} (hreach : s.reaches path 0 page = true)
    (hmay : may = true) (f : State → State) : s.viaPath path 0 page may f = f s := by
  have hwrite : s.writeReaches path 0 page = true := by simp [State.writeReaches, hreach]
  rw [State.viaPath, if_pos hwrite, if_pos hmay]

theorem State.epochLoad_spec {s : State} {path : Path} {value : BitVec 48} (hreach : s.reaches path 0 3 = true)
    (hmanages : s.manages path = true) :
    ∃ t, execEpochLoad path value s = .next t ∧ t.rd F.AON_EPOCH_LOAD_VALUE = value.toNat ∧
      t.rd F.AON_EPOCH_LOAD_ARM = 1 ∧
      Frame [] (fun key => key = F.AON_EPOCH_LOAD_VALUE.key 0 0 ∨ key = F.AON_EPOCH_LOAD_ARM.key 0 0) s t := by
  refine ⟨_, congrArg Host.Outcome.next (State.viaPath_of_reaches hreach hmanages _), ?value, ?arm, ?frame⟩
  case value =>
    rw [State.rd_wr_ne _ _ _ _ _ _ (by decide), State.rd_wr_same]
    exact Nat.mod_eq_of_lt value.isLt
  case arm => exact State.rd_wr_same (s.wr F.AON_EPOCH_LOAD_VALUE value.toNat) F.AON_EPOCH_LOAD_ARM 1
  case frame =>
    exact ((Frame.refl _ _ s).wr F.AON_EPOCH_LOAD_VALUE _ (by decide)).wr F.AON_EPOCH_LOAD_ARM _ (by decide)

theorem State.lsCalibration_spec {s : State} {ratio : BitVec 32} (hxtal : s.rd F.AON_CLK_STS_XTAL_OK = 1)
    (hcur : s.rd F.AON_PWR_MODE_CUR < 3) (hon : s.aon.off = 0) :
    ∃ t, execLsCalibration ratio s = .next t ∧ t.rd F.AON_LS_CAL_RATIO = ratio.toNat ∧
      Frame [] (fun key => key = F.AON_LS_CAL_RATIO.key 0 0) s t := by
  refine ⟨_, next_of_pos (State.timed_of hxtal hcur hon), ?ratio, (Frame.refl _ _ s).wr F.AON_LS_CAL_RATIO _ (by decide)⟩
  rw [State.rd_wr_same]
  exact Nat.mod_eq_of_lt ratio.isLt

theorem State.epochAlarm_spec {s : State} (hheld : s.aon.held = false) (hon : s.aon.off = 0)
    (hen : s.rd F.AON_ALARM_EN = 1) (hidle : s.aon.entry.stage = 0) (hpos : 0 < s.rd F.AON_ALARM_CYCLE)
    (hepoch : s.rd F.AON_EPOCH_EPOCH % s.rd F.AON_ALARM_CYCLE = s.rd F.AON_ALARM_EPOCH % s.rd F.AON_ALARM_CYCLE)
    (hphase : s.rd F.AON_EPOCH_PHASE = s.rd F.AON_ALARM_PHASE) :
    ∃ t, execEpochAlarm s = .next t ∧ (t.rd (F.EVT_RAW_CAUSE 0) 0).testBit 0 = true ∧
      Frame [.evt] (fun key => key = (F.EVT_RAW_CAUSE 0).key 0 0) s t := by
  have hcycle : max 1 (s.rd F.AON_ALARM_CYCLE) = s.rd F.AON_ALARM_CYCLE := by omega
  have hwake : (s.raise cAlarm).wake 5 = s.raise cAlarm :=
    State.wake_of_stage_zero _ _ (by rw [State.aon_raise, hidle])
  have hexec : execEpochAlarm s = .next (s.raise cAlarm) := by
    simp only [execEpochAlarm, hcycle, hwake]
    rw [if_neg (by simp [State.inReset_eq_false hheld hon, State.rdb, hen]), if_pos (.inr ⟨hepoch, hphase⟩)]
  exact ⟨_, hexec, State.raise_testBit _ cAlarm none none [] (by decide),
    (Frame.refl _ _ s).raise cAlarm _ _ _ (by decide) (by decide)⟩

/-- Settles O5: pulses and boundaries are boundaries that pass, a load point, and a change of quality. -/
theorem timebase : Obligations.Timebase := by
  unfold Obligations.Timebase
  refine ⟨?lock, ?off, ?missed, ?free, ?loads, ?arm, ?calibrate, ?alarm⟩
  case lock =>
    intro s p hxtal hcur hon hq harm hperiod
    exact State.ftimePulse_locks hxtal hcur hon hq harm hperiod
  case off =>
    intro s p hxtal hcur hon hq hclosed hoffs hp hroom
    exact State.ftimePulse_counts hxtal hcur hon hq hclosed hoffs hp hroom
  case missed =>
    intro s hxtal hcur hon hq hopen harm
    exact State.ftimePulseMissed_spec hxtal hcur hon hq hopen harm
  case free =>
    intro s hxtal hcur hon hq harm hperiod hlimit
    exact State.xtalBoundary_frees hxtal hcur hon hq harm hperiod hlimit
  case loads =>
    intro s hxtal hcur hon hq harm hperiod
    exact State.xtalBoundary_loads hxtal hcur hon hq harm hperiod
  case arm =>
    intro s path value hreach hmanages
    exact State.epochLoad_spec hreach hmanages
  case calibrate =>
    intro s ratio hxtal hcur hon
    exact State.lsCalibration_spec hxtal hcur hon
  case alarm =>
    intro s hheld hon hen hidle hpos hepoch hphase
    exact State.epochAlarm_spec hheld hon hen hidle hpos hepoch hphase

end Sys2Proof.Machine
end

section
/-!
PROOFS of O6: the entry to P1 and P2, and an entry that a pending event ends.
-/
namespace Sys2Proof.Machine
open Sys2Proof.Safety

/-! ## The end of an entry (R483) -/

/-- The fields that an entry writes beside its counter, and its cause. -/
def entryFields : List Fld :=
  [F.AON_PWR_MODE_CUR, F.AON_PWR_MODE_PHASE, F.AON_PWR_MODE_ARM, F.AON_PWR_STS_OUTCOME, F.AON_PWR_MODE_TARGET]

/-- A counter that stands apart from the fields of an entry and from its cause. -/
structure EntryCount (cnt : Fld) : Prop where
  blk : cnt.blk < 14
  pmu : ¬ InBlock 14 (cnt.key 0 0)
  apart : ∀ f ∈ entryFields, f.key 0 0 ≠ cnt.key 0 0
  cause : cnt.key 0 0 ≠ (F.EVT_RAW_CAUSE 0).key 0 0

theorem entryCount_p1 : EntryCount F.AON_PWR_CNT_P1 := ⟨by decide, by decide, by decide, by decide⟩
theorem entryCount_p2 : EntryCount F.AON_PWR_CNT_P2 := ⟨by decide, by decide, by decide, by decide⟩

/-- The keys that the end of an entry writes. -/
abbrev EnteredKeys (cnt : Fld) (key : Nat) : Prop :=
  key = F.AON_PWR_MODE_CUR.key 0 0 ∨ key = F.AON_PWR_MODE_PHASE.key 0 0 ∨ key = F.AON_PWR_MODE_ARM.key 0 0 ∨
    key = F.AON_PWR_STS_OUTCOME.key 0 0 ∨ key = cnt.key 0 0 ∨ key = (F.EVT_RAW_CAUSE 0).key 0 0

/-- The mode registers of an entry that is complete, before its counter. -/
def State.enteredMode (s : State) : State :=
  (((s.wr F.AON_PWR_MODE_CUR s.target).wr F.AON_PWR_MODE_PHASE 2).wr F.AON_PWR_MODE_ARM 0).wr F.AON_PWR_STS_OUTCOME 0

theorem State.enteredMode_spec (s : State) : s.enteredMode.rd F.AON_PWR_MODE_CUR = s.target % 2 ^ 3 ∧
    s.enteredMode.rd F.AON_PWR_MODE_PHASE = 2 ∧ s.enteredMode.rd F.AON_PWR_MODE_ARM = 0 ∧
      s.enteredMode.rd F.AON_PWR_STS_OUTCOME = 0 := by
  unfold State.enteredMode
  refine ⟨?cur, ?phase, ?arm, ?outcome⟩
  case cur =>
    rw [State.rd_wr_ne _ _ _ _ _ _ (by decide), State.rd_wr_ne _ _ _ _ _ _ (by decide),
      State.rd_wr_ne _ _ _ _ _ _ (by decide), State.rd_wr_same]
    rfl
  case phase =>
    rw [State.rd_wr_ne _ _ _ _ _ _ (by decide), State.rd_wr_ne _ _ _ _ _ _ (by decide), State.rd_wr_same]
    rfl
  case arm => rw [State.rd_wr_ne _ _ _ _ _ _ (by decide), State.rd_wr_same]; rfl
  case outcome => rw [State.rd_wr_same]; rfl

theorem State.rd_enteredMode_count (s : State) {cnt : Fld} (h : EntryCount cnt) : s.enteredMode.rd cnt = s.rd cnt := by
  have hne : ∀ f ∈ entryFields, cnt.key 0 0 ≠ f.key 0 0 := fun f hf => (h.apart f hf).symm
  unfold State.enteredMode
  rw [State.rd_wr_ne _ _ _ _ _ _ (hne _ (by decide)), State.rd_wr_ne _ _ _ _ _ _ (hne _ (by decide)),
    State.rd_wr_ne _ _ _ _ _ _ (hne _ (by decide)), State.rd_wr_ne _ _ _ _ _ _ (hne _ (by decide))]

/-- An entry without a latched wake is complete: CUR is the target and the entry is counted. -/
theorem State.entered_counts {s t : State} {cnt : Fld} (hcnt : EntryCount cnt) (hwakes : s.aon.entry.wakes = [])
    (hroom : s.rd cnt + 1 < 2 ^ cnt.width) (ht : s.entered cnt = t) :
    t.rd F.AON_PWR_MODE_CUR = s.target % 2 ^ 3 ∧ t.rd F.AON_PWR_MODE_PHASE = 2 ∧ t.rd F.AON_PWR_MODE_ARM = 0 ∧
      t.rd F.AON_PWR_STS_OUTCOME = 0 ∧ t.rd cnt = s.rd cnt + 1 ∧ t.aon.entry.stage = 4 ∧
      (t.rd (F.EVT_RAW_CAUSE 0) 0).testBit 8 = true ∧ Frame [.evt, .aon] (EnteredKeys cnt) s t := by
  rw [State.entered_eq cnt hwakes] at ht
  obtain ⟨hcur, hphase, harm, houtcome⟩ := s.enteredMode_spec
  have hbump := s.enteredMode.bump_frame cnt 0 0 1 none false hcnt.blk
  have hread : ∀ f ∈ entryFields, f.key 0 0 ≠ (F.EVT_RAW_CAUSE 0).key 0 0 → ¬ InBlock 14 (f.key 0 0) →
      t.rd f = s.enteredMode.rd f := fun f hf hraw hpmu => by
    rw [← ht, State.rd_raise_ne _ cEntered _ _ _ _ _ _ hraw, State.setEntry_rd]
    exact hbump.rd f 0 0 (hcnt.apart f hf) hpmu
  refine ⟨?cur, ?phase, ?arm, ?outcome, ?count, ?stage, ?cause, ?frame⟩
  case cur => rw [hread _ (by decide) (by decide) (by decide), hcur]
  case phase => rw [hread _ (by decide) (by decide) (by decide), hphase]
  case arm => rw [hread _ (by decide) (by decide) (by decide), harm]
  case outcome => rw [hread _ (by decide) (by decide) (by decide), houtcome]
  case count =>
    rw [← ht, State.rd_raise_ne _ cEntered _ _ _ _ _ _ hcnt.cause, State.setEntry_rd, ← s.rd_enteredMode_count hcnt]
    exact State.rd_bump_same s.enteredMode cnt 0 0 1 none false hcnt.blk hcnt.pmu
      (by rw [s.rd_enteredMode_count hcnt]; exact hroom)
  case stage => rw [← ht, State.aon_raise]; rfl
  case cause => rw [← ht]; exact State.raise_testBit _ cEntered none none [] (by decide)
  case frame =>
    have hmode : Frame [.evt, .aon] (EnteredKeys cnt) s s.enteredMode :=
      ((((Frame.refl _ _ s).wr F.AON_PWR_MODE_CUR _ (.inl (.inl rfl))).wr F.AON_PWR_MODE_PHASE _
        (.inl (.inr (.inl rfl)))).wr F.AON_PWR_MODE_ARM _ (.inl (.inr (.inr (.inl rfl))))).wr F.AON_PWR_STS_OUTCOME _
        (.inl (.inr (.inr (.inr (.inl rfl)))))
    rw [← ht]
    exact ((hmode.trans (hbump.mono (by decide) fun _ h => .inr (.inr (.inr (.inr (.inl h)))))).setEntry _
      (by decide)).raise cEntered _ _ _ (by decide) (.inl (.inr (.inr (.inr (.inr (.inr rfl))))))

/-! ## AON_ENTRY_START -/

section
variable {s : State} (hheld : s.aon.held = false) (hon : s.aon.off = 0) (hhalt : s.cry.halt = 0)
  (hstage : s.aon.entry.stage = 1) (harm : s.rd F.AON_PWR_MODE_ARM = 1) (hcur : s.rd F.AON_PWR_MODE_CUR = 0)
include hheld hon hhalt hstage harm hcur

/-- An armed unit in P0 starts its entry. -/
theorem State.entryStart_goes : ¬ (s.inReset ∨ s.aon.entry.stage ≠ 1 ∨ !s.rdb F.AON_PWR_MODE_ARM ∨ s.cur ≠ 0 ∨
    s.cry.halt ≠ 0) := by
  simp [State.inReset_eq_false hheld hon, hstage, State.rdb, harm, State.cur, hcur, hhalt]

/-- The target P1 is entered at once. -/
theorem State.execAonEntryStart_p1 (htarget : s.rd F.AON_PWR_MODE_TARGET = 1) :
    execAonEntryStart false s = .next ((s.wr F.AON_PWR_MODE_PHASE 1).entered F.AON_PWR_CNT_P1) := by
  unfold execAonEntryStart
  rw [if_neg (State.entryStart_goes hheld hon hhalt hstage harm hcur)]
  simp only [State.target, htarget, Bool.false_eq_true, if_false, if_true]

theorem State.execAonEntryStart_ended :
    execAonEntryStart true s = .next ((s.wr F.AON_PWR_MODE_PHASE 1).endEntry false) := by
  unfold execAonEntryStart
  rw [if_neg (State.entryStart_goes hheld hon hhalt hstage harm hcur)]
  rfl

end

/-- The entry to P2 goes on: the attempt is counted and AON takes its bus address. -/
def State.p2Started (s : State) : State :=
  (((s.wr F.AON_PWR_MODE_PHASE 1).setEntry { s.aon.entry with stage := 2, attempts := s.aon.entry.attempts + 1 }).wr
    F.AON_PWR_STS_ATTEMPTS (min (s.aon.entry.attempts + 1) 15)).wr F.AON_CRICKET_ADDR s.targetAddr

theorem State.execAonEntryStart_p2 {s : State} (hheld : s.aon.held = false) (hon : s.aon.off = 0)
    (hhalt : s.cry.halt = 0) (hstage : s.aon.entry.stage = 1) (harm : s.rd F.AON_PWR_MODE_ARM = 1)
    (hcur : s.rd F.AON_PWR_MODE_CUR = 0) (htarget : s.rd F.AON_PWR_MODE_TARGET = 2) :
    execAonEntryStart false s = .next (s.p2Started.srBegin 1) := by
  unfold execAonEntryStart
  rw [if_neg (State.entryStart_goes hheld hon hhalt hstage harm hcur)]
  simp only [State.target, htarget, Bool.false_eq_true, if_false, if_true, Nat.succ_ne_self]
  rfl

/-- Both tiers begin their self-refresh for a P2 (Table 6.5). -/
theorem State.srBegin_p2 {s : State} (hnear : s.rd F.NTC_SR_STATE = 0) (hbulk : s.rd F.BTC_SR_STATE = 0) :
    s.srBegin 1 = ((s.setMem { s.mem with entry := 1, bulkIn := false, nearIn := false }).wr F.BTC_SR_STATE 1).wr
      F.NTC_SR_STATE 1 := by
  have hn : ¬ (1 = 2 ∨ s.nearSr = 2) := by rw [State.nearSr, hnear]; decide
  have hb : ¬ s.bulkSr = 2 := by rw [State.bulkSr, hbulk]; decide
  unfold State.srBegin
  rw [if_neg hn, if_neg hb]

/-- The keys of the start of a P2 entry, the tiers' apart. -/
abbrev StartKeys (key : Nat) : Prop :=
  key = F.AON_PWR_MODE_PHASE.key 0 0 ∨ key = F.AON_PWR_STS_ATTEMPTS.key 0 0 ∨ key = F.AON_CRICKET_ADDR.key 0 0

theorem State.p2Started_spec {s : State} (h0 : s.straps.addr0 < 3) (h1 : s.straps.addr1 < 3) (h2 : s.straps.addr2 < 3) :
    s.p2Started.rd F.AON_PWR_MODE_PHASE = 1 ∧ s.p2Started.aon.entry.stage = 2 ∧
      s.p2Started.rd F.AON_PWR_STS_ATTEMPTS = min (s.aon.entry.attempts + 1) 15 ∧
      s.p2Started.rd F.AON_CRICKET_ADDR = 0x30 + 9 * s.straps.addr2 + 3 * s.straps.addr1 + s.straps.addr0 ∧
      Frame [.aon] StartKeys s s.p2Started := by
  unfold State.p2Started
  refine ⟨?phase, rfl, ?attempts, ?addr, ?frame⟩
  case phase =>
    rw [State.rd_wr_ne _ _ _ _ _ _ (by decide), State.rd_wr_ne _ _ _ _ _ _ (by decide), State.setEntry_rd,
      State.rd_wr_same]
    rfl
  case attempts =>
    rw [State.rd_wr_ne _ _ _ _ _ _ (by decide), State.rd_wr_same]
    exact Nat.mod_eq_of_lt (Nat.lt_of_le_of_lt (Nat.min_le_right _ 15) (by decide))
  case addr =>
    have hwidth : F.AON_CRICKET_ADDR.width = 7 := rfl
    rw [State.rd_wr_same, State.targetAddr, strapAddr, hwidth]
    omega
  case frame =>
    exact ((((Frame.refl _ _ s).wr F.AON_PWR_MODE_PHASE _ (by decide)).setEntry _ (by decide)).wr
      F.AON_PWR_STS_ATTEMPTS _ (by decide)).wr F.AON_CRICKET_ADDR _ (by decide)

theorem State.p2Begun_spec {s : State} (hnear : s.rd F.NTC_SR_STATE = 0) (hbulk : s.rd F.BTC_SR_STATE = 0)
    (h0 : s.straps.addr0 < 3) (h1 : s.straps.addr1 < 3) (h2 : s.straps.addr2 < 3) {t : State}
    (ht : s.p2Started.srBegin 1 = t) :
    t.rd F.AON_PWR_MODE_PHASE = 1 ∧ t.aon.entry.stage = 2 ∧
      t.rd F.AON_PWR_STS_ATTEMPTS = min (s.aon.entry.attempts + 1) 15 ∧
      t.rd F.AON_CRICKET_ADDR = 0x30 + 9 * s.straps.addr2 + 3 * s.straps.addr1 + s.straps.addr0 ∧
      t.rd F.NTC_SR_STATE = 1 ∧ t.rd F.BTC_SR_STATE = 1 ∧ t.mem.entry = 1 ∧
      Frame [.aon, .mem] (fun key => key = F.AON_PWR_MODE_PHASE.key 0 0 ∨ key = F.AON_PWR_STS_ATTEMPTS.key 0 0 ∨
        key = F.AON_CRICKET_ADDR.key 0 0 ∨ key = F.NTC_SR_STATE.key 0 0 ∨ key = F.BTC_SR_STATE.key 0 0) s t := by
  obtain ⟨hphase, hstage, hattempts, haddr, hstart⟩ := State.p2Started_spec h0 h1 h2
  rw [State.srBegin_p2 (by rw [hstart.rd _ _ _ (by decide) (by decide), hnear])
    (by rw [hstart.rd _ _ _ (by decide) (by decide), hbulk])] at ht
  generalize s.p2Started = u at *
  have htiers : Frame [.mem] (fun key => key = F.NTC_SR_STATE.key 0 0 ∨ key = F.BTC_SR_STATE.key 0 0) u t :=
    ht ▸ (((Frame.refl _ _ u).setMem _ (by decide)).wr F.BTC_SR_STATE 1 (by decide)).wr F.NTC_SR_STATE 1 (by decide)
  refine ⟨?phase, ?stage, ?attempts, ?addr, ?near, ?bulk, ?entry, ?frame⟩
  case phase => rw [htiers.rd _ _ _ (by decide) (by decide), hphase]
  case stage => rw [htiers.1 .aon (by decide), hstage]
  case attempts => rw [htiers.rd _ _ _ (by decide) (by decide), hattempts]
  case addr => rw [htiers.rd _ _ _ (by decide) (by decide), haddr]
  case near => rw [← ht, State.rd_wr_same]; rfl
  case bulk => rw [← ht, State.rd_wr_ne _ _ _ _ _ _ (by decide), State.rd_wr_same]; rfl
  case entry => rw [← ht]; rfl
  case frame => exact (hstart.mono (by decide) (by omega)).trans (htiers.mono (by decide) (by omega))

/-! ## An entry that an event ends (R484, R485) -/

/-- What the end of an entry records: ARM and PHASE clear, the abort is counted, and OUTCOME reads 2. -/
def State.entryAborted (s : State) : State :=
  ((((s.wr F.AON_PWR_MODE_ARM 0).wr F.AON_PWR_MODE_PHASE 0).bump F.AON_PWR_CNT_ABORTS).wr F.AON_PWR_STS_OUTCOME 2).raise
    cAborted

/-- The entry is over. -/
def State.entryCleared (s : State) : State :=
  ((s.setAon { s.aon with time := { s.aon.time with saved := none } }).wr F.SCR_MOV_STS_FLUSH 0).setEntry Entry.none

/-- With both tiers active, no request that ends the entry: nothing is tried again. -/
theorem State.endEntry_of_active {s : State} (hnear : s.rd F.NTC_SR_STATE = 0) (hbulk : s.rd F.BTC_SR_STATE = 0) :
    s.endEntry false = s.entryAborted.entryCleared.ringHeld.srSettle := by
  have hb : s.srAbort .bulk = s := if_neg (by simp [State.bulkSr, hbulk])
  have hn : s.srAbort .near = s := if_neg (by simp [State.nearSr, hnear])
  have hx : s.srExit .bulk = s := if_neg (by simp [State.bulkSr, hbulk])
  simp only [State.endEntry, hb, hn, hx, Bool.and_false, Bool.false_and, Bool.false_eq_true, if_false]
  rfl

/-- The keys that the end of an entry writes. -/
abbrev AbortKeys (key : Nat) : Prop :=
  key = F.AON_PWR_MODE_ARM.key 0 0 ∨ key = F.AON_PWR_MODE_PHASE.key 0 0 ∨ key = F.AON_PWR_STS_OUTCOME.key 0 0 ∨
    key = F.AON_PWR_CNT_ABORTS.key 0 0 ∨ key = F.SCR_MOV_STS_FLUSH.key 0 0 ∨ key = (F.EVT_RAW_CAUSE 0).key 0 0

theorem State.entryAborted_spec {s : State} (hroom : s.rd F.AON_PWR_CNT_ABORTS + 1 < 2 ^ 16) :
    s.entryAborted.rd F.AON_PWR_MODE_ARM = 0 ∧ s.entryAborted.rd F.AON_PWR_MODE_PHASE = 0 ∧
      s.entryAborted.rd F.AON_PWR_STS_OUTCOME = 2 ∧
      s.entryAborted.rd F.AON_PWR_CNT_ABORTS = s.rd F.AON_PWR_CNT_ABORTS + 1 ∧
      (s.entryAborted.rd (F.EVT_RAW_CAUSE 0) 0).testBit 10 = true ∧ Frame [.evt] AbortKeys s s.entryAborted := by
  have hbump := ((s.wr F.AON_PWR_MODE_ARM 0).wr F.AON_PWR_MODE_PHASE 0).bump_frame F.AON_PWR_CNT_ABORTS 0 0 1 none false
    (by decide)
  refine ⟨?arm, ?phase, ?outcome, ?count, State.raise_testBit _ cAborted none none [] (by decide), ?frame⟩
  case frame =>
    exact ((((Frame.refl _ _ s).wr F.AON_PWR_MODE_ARM _ (by decide)).wr F.AON_PWR_MODE_PHASE _ (by decide)).bump
      F.AON_PWR_CNT_ABORTS _ _ _ _ _ (by decide) (by decide) (by decide)).wr F.AON_PWR_STS_OUTCOME _ (by decide)
        |>.raise cAborted _ _ _ (by decide) (by decide)
  all_goals rw [State.entryAborted, State.rd_raise_ne _ _ _ _ _ _ _ _ (by decide)]
  case arm =>
    rw [State.rd_wr_ne _ _ _ _ _ _ (by decide), hbump.rd _ _ _ (by decide) (by decide),
      State.rd_wr_ne _ _ _ _ _ _ (by decide), State.rd_wr_same]
    rfl
  case phase =>
    rw [State.rd_wr_ne _ _ _ _ _ _ (by decide), hbump.rd _ _ _ (by decide) (by decide), State.rd_wr_same]
    rfl
  case outcome => rw [State.rd_wr_same]; rfl
  case count =>
    have hkept : ((s.wr F.AON_PWR_MODE_ARM 0).wr F.AON_PWR_MODE_PHASE 0).rd F.AON_PWR_CNT_ABORTS =
        s.rd F.AON_PWR_CNT_ABORTS := by
      rw [State.rd_wr_ne _ _ _ _ _ _ (by decide), State.rd_wr_ne _ _ _ _ _ _ (by decide)]
    rw [State.rd_wr_ne _ _ _ _ _ _ (by decide), ← hkept]
    exact State.rd_bump_same _ F.AON_PWR_CNT_ABORTS 0 0 1 none false (by decide) (by decide) (by rw [hkept]; exact hroom)

theorem State.entryCleared_frame (s : State) :
    Frame [.aon] (fun key => key = F.SCR_MOV_STS_FLUSH.key 0 0) s s.entryCleared :=
  (((Frame.refl _ _ s).setAon _ (by decide)).wr F.SCR_MOV_STS_FLUSH 0 (by decide)).setEntry _ (by decide)

/-- With no doorbell held, the entry's last steps are the jobs' and the memory controllers' data alone. -/
theorem State.ringHeld_frame {s : State} (hheld : s.job.held = []) (K : Nat → Prop) : Frame [.job] K s s.ringHeld := by
  unfold State.ringHeld
  rw [hheld, List.foldl_nil]
  exact (Frame.refl _ _ s).setJob _ (by decide)

theorem State.srSettle_frame (s : State) (K : Nat → Prop) : Frame [.mem] K s s.srSettle :=
  Frame.ite _ (fun _ => (Frame.refl _ _ s).setMem _ (by decide)) fun _ => Frame.refl _ _ s

theorem State.endEntry_spec {s t : State} (hnear : s.rd F.NTC_SR_STATE = 0) (hbulk : s.rd F.BTC_SR_STATE = 0)
    (hheld : s.job.held = []) (hroom : s.rd F.AON_PWR_CNT_ABORTS + 1 < 2 ^ 16) (ht : s.endEntry false = t) :
    t.rd F.AON_PWR_MODE_ARM = 0 ∧ t.rd F.AON_PWR_MODE_PHASE = 0 ∧ t.rd F.AON_PWR_STS_OUTCOME = 2 ∧
      t.rd F.AON_PWR_CNT_ABORTS = s.rd F.AON_PWR_CNT_ABORTS + 1 ∧ t.aon.entry.stage = 0 ∧
      (t.rd (F.EVT_RAW_CAUSE 0) 0).testBit 10 = true ∧ Frame [.evt, .aon, .mem, .job] AbortKeys s t := by
  obtain ⟨harm, hphase, houtcome, hcount, hcause, habort⟩ := State.entryAborted_spec hroom
  rw [State.endEntry_of_active hnear hbulk] at ht
  generalize s.entryAborted = u at *
  have hclear := u.entryCleared_frame
  have hstage : u.entryCleared.aon.entry.stage = 0 := rfl
  generalize u.entryCleared = v at *
  have hring := State.ringHeld_frame (s := v) (by rw [hclear.1 .job (by decide), habort.1 .job (by decide), hheld])
    fun _ => False
  generalize v.ringHeld = w at *
  have hsettle := w.srSettle_frame fun _ => False
  rw [ht] at hsettle
  have hread : ∀ f, f.key 0 0 ≠ F.SCR_MOV_STS_FLUSH.key 0 0 → ¬ InBlock 14 (f.key 0 0) → t.rd f = u.rd f :=
    fun f hflush hpmu => by
      rw [hsettle.rd _ _ _ (fun h => h) hpmu, hring.rd _ _ _ (fun h => h) hpmu, hclear.rd _ _ _ hflush hpmu]
  refine ⟨?arm, ?phase, ?outcome, ?count, ?stage, ?cause, ?frame⟩
  case arm => rw [hread _ (by decide) (by decide), harm]
  case phase => rw [hread _ (by decide) (by decide), hphase]
  case outcome => rw [hread _ (by decide) (by decide), houtcome]
  case count => rw [hread _ (by decide) (by decide), hcount]
  case stage => rw [hsettle.1 .aon (by decide), hring.1 .aon (by decide), hstage]
  case cause => rw [hread _ (by decide) (by decide), hcause]
  case frame =>
    have hcleared : Frame [.evt, .aon, .mem, .job] AbortKeys s v :=
      (habort.mono (by decide) fun _ h => h).trans (hclear.mono (by decide) fun _ h => .inr (.inr (.inr (.inr (.inl h)))))
    exact (hcleared.trans (hring.mono (by decide) fun _ h => h.elim)).trans (hsettle.mono (by decide) fun _ h => h.elim)

/-! ## The commit points of self-refresh (R223) -/

/-- The status registers of the bulk channels. -/
abbrev BulkStatusKeys (key : Nat) : Prop :=
  ∃ i < 32, key ∈ [F.BTC_SC_STS_RQ.key i 0, F.BTC_SC_STS_WQ.key i 0, F.BTC_SC_STS_DRAIN.key i 0,
    F.BTC_SC_STS_FB.key i 0, F.BTC_SC_REF_POSTPONED.key i 0]

/-- The status registers of the near channels. -/
abbrev NearStatusKeys (key : Nat) : Prop :=
  ∃ i < 32, key ∈ [F.NTC_CH_STS_RQ.key i 0, F.NTC_CH_STS_WQ.key i 0, F.NTC_CH_STS_DRAIN.key i 0,
    F.NTC_CH_STS_FB.key i 0, F.NTC_CH_REF_POSTPONED.key i 0]

/-- A channel's status is in its five registers and the memory controllers' data. -/
theorem State.drained_frame {K : Nat → Prop} (s : State) (k : Nat)
    (h : ∀ f ∈ [rqOf k, wqOf k, drainOf k, fbOf k, if k < 32 then F.NTC_CH_REF_POSTPONED else F.BTC_SC_REF_POSTPONED],
      K (f.key (k % 32) 0)) :
    Frame [.mem] K s ((s.chanStatus k).wrI (if k < 32 then F.NTC_CH_REF_POSTPONED else F.BTC_SC_REF_POSTPONED)
      (k % 32) 0) := by
  obtain ⟨hrq, hwq, hdrain, hfb, hpost, -⟩ := by simpa only [List.forall_mem_cons] using h
  exact ((((((Frame.refl _ _ s).with_mem _ (by decide)).wrI _ _ _ (.inl hrq)).wrI _ _ _ (.inl hwq)).wrb _ _ _
    (.inl hdrain)).wrI _ _ _ (.inl hfb)).wrI _ _ _ (.inl hpost)

theorem State.drainedStatus_frame_bulk (s : State) {keys : List Nat} (h : ∀ k ∈ keys, 32 ≤ k) :
    Frame [.mem] BulkStatusKeys s (s.drainedStatus keys) :=
  Frame.foldl _ _ _ fun u k hk => u.drained_frame k fun f hf => by
    refine ⟨k % 32, Nat.mod_lt _ (by decide), ?_⟩
    simp only [rqOf, wqOf, drainOf, fbOf, if_neg (Nat.not_lt.2 (h k hk))] at hf
    exact List.mem_map_of_mem (f := fun f : Fld => f.key (k % 32) 0) hf

theorem State.drainedStatus_frame_near (s : State) {keys : List Nat} (h : ∀ k ∈ keys, k < 32) :
    Frame [.mem] NearStatusKeys s (s.drainedStatus keys) :=
  Frame.foldl _ _ _ fun u k hk => u.drained_frame k fun f hf => by
    refine ⟨k % 32, Nat.mod_lt _ (by decide), ?_⟩
    simp only [rqOf, wqOf, drainOf, fbOf, if_pos (h k hk)] at hf
    exact List.mem_map_of_mem (f := fun f : Fld => f.key (k % 32) 0) hf

/-- The status of the channels is the feedback level in the memory controllers' data. -/
theorem State.mem_drainedStatus (s : State) (keys : List Nat) :
    ∃ l, (s.drainedStatus keys).mem = { s.mem with level := l } := by
  unfold State.drainedStatus
  induction keys generalizing s with
  | nil => exact ⟨s.mem.level, rfl⟩
  | cons k keys ih =>
    obtain ⟨l, hl⟩ := ih ((s.chanStatus k).wrI (if k < 32 then F.NTC_CH_REF_POSTPONED else F.BTC_SC_REF_POSTPONED)
      (k % 32) 0)
    exact ⟨l, by rw [List.foldl_cons, hl]; rfl⟩

/-- The memory controllers' data at the bulk commit point. -/
def Mem.bulkCommitted (m : Mem) : Mem :=
  { m with bulkIn := true, queues := m.queues.filter (fun e => decide (e.1 < 32)),
           postponed := m.postponed.filter (fun e => decide (e.1 < 32 * 64)),
           refDue := m.refDue.filter (fun k => decide (k < 32 * 64)),
           repay := m.repay.filter (fun k => decide (k < 32 * 64)),
           rows := m.rows.filter (fun e => decide (e.1 < 32 * 1024)),
           inOrder := m.inOrder.filter (fun e => decide (e.1 < 32 * 1024)) }

/-- The memory controllers' data at the near commit point. -/
def Mem.nearCommitted (m : Mem) : Mem :=
  { m with nearIn := true, lastWrite := [], queues := m.queues.filter (fun e => decide (32 ≤ e.1)),
           postponed := m.postponed.filter (fun e => decide (32 * 64 ≤ e.1)),
           refDue := m.refDue.filter (fun k => decide (32 * 64 ≤ k)),
           repay := m.repay.filter (fun k => decide (32 * 64 ≤ k)),
           rows := m.rows.filter (fun e => decide (32 * 1024 ≤ e.1)),
           inOrder := m.inOrder.filter (fun e => decide (32 * 1024 ≤ e.1)) }

/-- The channels of a tier, drained at its commit point. -/
def State.bulkDrained (s : State) : State :=
  (s.setMem s.mem.bulkCommitted).drainedStatus (s.bulkChans.flatMap (fun c => [bulkKeyOf (2 * c), bulkKeyOf (2 * c + 1)]))
def State.nearDrained (s : State) : State :=
  (s.setMem s.mem.nearCommitted).drainedStatus (s.nearChans.map nearKeyOf)

theorem State.srBulk_eq_bump (s : State) : s.srBulk = s.bulkDrained.bump F.BTC_SR_ENTRIES := rfl

theorem State.srNear_eq_bump (s : State) :
    s.srNear = ((s.nearDrained.bump F.NTC_SR_ENTRIES).wr F.NTC_SR_STATE 2).wr F.BTC_SR_STATE 2 := rfl

theorem State.bulkDrained_spec (s : State) :
    s.bulkDrained.mem.bulkIn = true ∧ Frame [.mem] BulkStatusKeys s s.bulkDrained := by
  obtain ⟨l, hl⟩ := State.mem_drainedStatus (s.setMem s.mem.bulkCommitted)
    (s.bulkChans.flatMap (fun c => [bulkKeyOf (2 * c), bulkKeyOf (2 * c + 1)]))
  refine ⟨by rw [State.bulkDrained, hl]; rfl, ((Frame.refl _ _ s).setMem _ (by decide)).trans
    (State.drainedStatus_frame_bulk _ fun k hk => ?_)⟩
  obtain ⟨c, -, hc⟩ := List.mem_flatMap.1 hk
  simp only [bulkKeyOf, List.mem_cons, List.not_mem_nil, or_false] at hc
  omega

/-- The near channels are below 32. -/
theorem State.lt_of_mem_nearChans (s : State) {k : Nat} (h : k ∈ s.nearChans) : k < 32 := by
  obtain ⟨p, hp, hk⟩ := List.mem_flatMap.1 h
  have hlt : p < 16 := List.mem_range.1 (List.mem_of_mem_filter hp)
  simp only [List.mem_cons, List.not_mem_nil, or_false] at hk
  omega

theorem State.nearDrained_spec (s : State) :
    s.nearDrained.mem.nearIn = true ∧ Frame [.mem] NearStatusKeys s s.nearDrained := by
  obtain ⟨l, hl⟩ := State.mem_drainedStatus (s.setMem s.mem.nearCommitted) (s.nearChans.map nearKeyOf)
  refine ⟨by rw [State.nearDrained, hl]; rfl, ((Frame.refl _ _ s).setMem _ (by decide)).trans
    (State.drainedStatus_frame_near _ fun k hk => ?_)⟩
  obtain ⟨c, hc, rfl⟩ := List.mem_map.1 hk
  exact s.lt_of_mem_nearChans hc

theorem State.srBulk_spec {s t : State} (hroom : s.rd F.BTC_SR_ENTRIES + 1 < 2 ^ 16) (ht : s.srBulk = t) :
    t.mem.bulkIn = true ∧ t.rd F.BTC_SR_ENTRIES = s.rd F.BTC_SR_ENTRIES + 1 ∧
      Frame [.evt, .mem] (fun key => BulkStatusKeys key ∨ key = F.BTC_SR_ENTRIES.key 0 0) s t := by
  obtain ⟨hin, hdrain⟩ := s.bulkDrained_spec
  have hbump := s.bulkDrained.bump_frame F.BTC_SR_ENTRIES 0 0 1 none false (by decide)
  have hkept : s.bulkDrained.rd F.BTC_SR_ENTRIES = s.rd F.BTC_SR_ENTRIES := hdrain.rd _ _ _ (by decide) (by decide)
  have hcount := State.rd_bump_same s.bulkDrained F.BTC_SR_ENTRIES 0 0 1 none false (by decide) (by decide)
    (by rw [hkept]; exact hroom)
  rw [State.srBulk_eq_bump] at ht
  rw [ht] at hbump hcount
  refine ⟨?_, hcount.trans (congrArg (· + 1) hkept), (hdrain.mono (by decide) fun _ h => .inl h).trans
    (hbump.mono (by decide) fun _ h => .inr h)⟩
  rw [hbump.1 .mem (by decide), hin]

theorem State.srNear_spec {s t : State} (hroom : s.rd F.NTC_SR_ENTRIES + 1 < 2 ^ 16) (ht : s.srNear = t) :
    t.mem.nearIn = true ∧ t.rd F.NTC_SR_STATE = 2 ∧ t.rd F.BTC_SR_STATE = 2 ∧
      t.rd F.NTC_SR_ENTRIES = s.rd F.NTC_SR_ENTRIES + 1 ∧
      Frame [.evt, .mem] (fun key => NearStatusKeys key ∨ key = F.NTC_SR_STATE.key 0 0 ∨ key = F.BTC_SR_STATE.key 0 0 ∨
        key = F.NTC_SR_ENTRIES.key 0 0) s t := by
  obtain ⟨hin, hdrain⟩ := s.nearDrained_spec
  have hbump := s.nearDrained.bump_frame F.NTC_SR_ENTRIES 0 0 1 none false (by decide)
  have hkept : s.nearDrained.rd F.NTC_SR_ENTRIES = s.rd F.NTC_SR_ENTRIES := hdrain.rd _ _ _ (by decide) (by decide)
  have hcount := State.rd_bump_same s.nearDrained F.NTC_SR_ENTRIES 0 0 1 none false (by decide) (by decide)
    (by rw [hkept]; exact hroom)
  rw [State.srNear_eq_bump] at ht
  generalize State.bump s.nearDrained F.NTC_SR_ENTRIES = u at *
  subst ht
  refine ⟨?_, ?_, State.rd_wr_same (u.wr F.NTC_SR_STATE 2) F.BTC_SR_STATE 2, ?_, ?frame⟩
  case frame =>
    exact (((hdrain.mono (by decide) fun _ h => .inl h).trans
      (hbump.mono (by decide) fun _ h => .inr (.inr (.inr h)))).wr F.NTC_SR_STATE 2 (.inl (.inr (.inl rfl)))).wr
      F.BTC_SR_STATE 2 (.inl (.inr (.inr (.inl rfl))))
  · have hmem : u.mem = s.nearDrained.mem := hbump.1 .mem (by decide)
    exact (congrArg Mem.nearIn hmem).trans hin
  · rw [State.rd_wr_ne _ _ _ _ _ _ (by decide), State.rd_wr_same]
    rfl
  · rw [State.rd_wr_ne _ _ _ _ _ _ (by decide), State.rd_wr_ne _ _ _ _ _ _ (by decide), hcount, hkept]

/-- With no move under way, a P2 entry commits the bulk tier once TMU has written back. -/
theorem State.execSelfRefreshBulkCommit_p2 {s : State} (hheld : s.aon.held = false) (hon : s.aon.off = 0)
    (hsr : s.rd F.BTC_SR_STATE = 1) (hin : s.mem.bulkIn = false) (hentry : s.mem.entry = 1)
    (hstage : s.aon.entry.stage = 2) (hmoves : s.tmu.moves = []) :
    execSelfRefreshBulkCommit s = .next (s.writeBack.srBulk.setEntry
      { s.writeBack.srBulk.aon.entry with stage := 3 }) := by
  have hstop : s.stopMoves = s := by rw [State.stopMoves, hmoves]; rfl
  unfold execSelfRefreshBulkCommit
  rw [if_neg (by simp [State.inReset_eq_false hheld hon, State.bulkSr, hsr, hin]), if_pos hentry,
    if_pos ⟨hstage, by simp [hmoves]⟩, hstop]

theorem State.selfRefreshBulkCommit_spec {s : State} (hheld : s.aon.held = false) (hon : s.aon.off = 0)
    (hsr : s.rd F.BTC_SR_STATE = 1) (hin : s.mem.bulkIn = false) (hentry : s.mem.entry = 1)
    (hstage : s.aon.entry.stage = 2) (hmoves : s.tmu.moves = []) (hroom : s.rd F.BTC_SR_ENTRIES + 1 < 2 ^ 16) :
    ∃ t, execSelfRefreshBulkCommit s = .next t ∧ t.mem.bulkIn = true ∧ t.aon.entry.stage = 3 ∧
      t.rd F.BTC_SR_ENTRIES = s.rd F.BTC_SR_ENTRIES + 1 ∧
      Frame [.evt, .tmu, .mem, .aon] (fun key => BulkStatusKeys key ∨ key = F.BTC_SR_ENTRIES.key 0 0) s t := by
  have hback : Frame [.tmu] (fun _ => False) s s.writeBack := (Frame.refl _ _ s).writeBack (by decide)
  have hkept : s.writeBack.rd F.BTC_SR_ENTRIES = s.rd F.BTC_SR_ENTRIES := hback.rd _ _ _ (fun h => h) (by decide)
  obtain ⟨hbulk, hcount, hcommit⟩ := State.srBulk_spec (by rw [hkept]; exact hroom) (rfl : s.writeBack.srBulk = _)
  refine ⟨_, State.execSelfRefreshBulkCommit_p2 hheld hon hsr hin hentry hstage hmoves, ?_⟩
  generalize s.writeBack.srBulk = u at *
  exact ⟨hbulk, rfl, hcount.trans (congrArg (· + 1) hkept),
    ((hback.mono (by decide) fun _ h => h.elim).trans (hcommit.mono (by decide) fun _ h => h)).setEntry _ (by decide)⟩

/-- Settles O6: the entry's start, its end by an event, the two commit points, and its completion. -/
theorem powerEntry : Obligations.PowerEntry := by
  unfold Obligations.PowerEntry
  refine ⟨?p1, ?p2, ?ended, ?bulk, ?near, ?complete⟩
  case p1 =>
    intro s hheld hon hhalt hstage hwakes harm hcur htarget hroom
    have hkept : (s.wr F.AON_PWR_MODE_PHASE 1).rd F.AON_PWR_CNT_P1 = s.rd F.AON_PWR_CNT_P1 :=
      State.rd_wr_ne _ _ _ _ _ _ (by decide)
    have hmode : (s.wr F.AON_PWR_MODE_PHASE 1).target = 1 := (State.rd_wr_ne _ _ _ _ _ _ (by decide)).trans htarget
    obtain ⟨hcur', hphase, harm', houtcome, hcount, hstage', hcause, hframe⟩ :=
      State.entered_counts (s := s.wr F.AON_PWR_MODE_PHASE 1) entryCount_p1 hwakes (by rw [hkept]; exact hroom) rfl
    refine ⟨_, State.execAonEntryStart_p1 hheld hon hhalt hstage harm hcur htarget, ?_⟩
    refine ⟨hcur'.trans (by rw [hmode]; rfl), hphase, harm', houtcome, by rw [hcount, hkept], hstage', hcause, ?frame⟩
    exact ((Frame.refl _ _ s).wr F.AON_PWR_MODE_PHASE 1 (.inl (.inr (.inl rfl)))).trans hframe
  case p2 =>
    intro s hheld hon hhalt hstage harm hcur htarget hnear hbulk h0 h1 h2
    exact ⟨_, State.execAonEntryStart_p2 hheld hon hhalt hstage harm hcur htarget,
      State.p2Begun_spec hnear hbulk h0 h1 h2 rfl⟩
  case ended =>
    intro s hheld hon hhalt hstage harm hcur hnear hbulk hjobs hroom
    have hkept : ∀ f : Fld, f.key 0 0 ≠ F.AON_PWR_MODE_PHASE.key 0 0 → (s.wr F.AON_PWR_MODE_PHASE 1).rd f = s.rd f :=
      fun f hf => State.rd_wr_ne _ _ _ _ _ _ hf
    obtain ⟨harm', hphase, houtcome, hcount, hstage', hcause, hframe⟩ :=
      State.endEntry_spec (s := s.wr F.AON_PWR_MODE_PHASE 1) (by rw [hkept _ (by decide), hnear])
        (by rw [hkept _ (by decide), hbulk]) hjobs (by rw [hkept _ (by decide)]; exact hroom) rfl
    refine ⟨_, State.execAonEntryStart_ended hheld hon hhalt hstage harm hcur, harm', hphase, houtcome, ?_, hstage',
      hcause, ((Frame.refl _ _ s).wr F.AON_PWR_MODE_PHASE 1 (.inl (.inr (.inl rfl)))).trans hframe⟩
    rw [hcount, hkept _ (by decide)]
  case bulk =>
    intro s hheld hon hsr hin hentry hstage hmoves hroom
    exact State.selfRefreshBulkCommit_spec hheld hon hsr hin hentry hstage hmoves hroom
  case near =>
    intro s hheld hon hsr hbulk hin hroom
    have hgo : ¬ (s.inReset ∨ s.nearSr ≠ 1 ∨ !s.mem.bulkIn ∨ s.mem.nearIn) := by
      simp [State.inReset_eq_false hheld hon, State.nearSr, hsr, hbulk, hin]
    exact ⟨_, next_of_neg hgo, State.srNear_spec hroom rfl⟩
  case complete =>
    intro s hstage hwakes htarget hnear hbulk hroom
    obtain ⟨hcur, hphase, harm, -, hcount, hstage', -, hframe⟩ := State.entered_counts entryCount_p2 hwakes hroom rfl
    exact ⟨_, next_of_pos ⟨hstage, htarget, hnear, hbulk⟩, hcur.trans (by rw [State.target, htarget]; rfl), hphase, harm, hcount,
      hstage', hframe⟩

end Sys2Proof.Machine
end

section
/-!
PROOFS of O7: the wakes, the exits from P1, P2 and P4, and the retry of P2.
-/
namespace Sys2Proof.Machine
open Sys2Proof.Safety

/-! ## Wakes (R484, R486, R488) -/

/-- A wake code of a resident state starts its exit. -/
theorem State.wake_resident {s : State} {code : Nat} (hstage : s.aon.entry.stage = 4)
    (hwakes : s.wakes s.target code = true) : s.wake code = s.beginExit code := by
  simp [State.wake, hwakes, hstage]

theorem State.execWakeEvent_on {s : State} (code : Nat) (hon : s.aon.off = 0) :
    execWakeEvent code s = .next (s.wake code) :=
  next_of_neg (by simp [hon])

/-- The start of an exit, the tiers apart. -/
def State.exitBegun (s : State) (code : Nat) : State :=
  ((s.wr F.AON_PWR_STS_LAST_WAKE code).wr F.AON_PWR_MODE_PHASE 3).setEntry { s.aon.entry with stage := 5, wakes := [] }

/-- The keys of the start of an exit. -/
abbrev WakeKeys (key : Nat) : Prop :=
  key = F.AON_PWR_STS_LAST_WAKE.key 0 0 ∨ key = F.AON_PWR_MODE_PHASE.key 0 0

theorem State.exitBegun_spec (s : State) {code : Nat} (hcode : code < 16) :
    (s.exitBegun code).rd F.AON_PWR_STS_LAST_WAKE = code ∧ (s.exitBegun code).rd F.AON_PWR_MODE_PHASE = 3 ∧
      (s.exitBegun code).aon.entry.stage = 5 ∧ Frame [.aon] WakeKeys s (s.exitBegun code) := by
  unfold State.exitBegun
  refine ⟨?code, ?phase, rfl, ?frame⟩
  case code =>
    rw [State.setEntry_rd, State.rd_wr_ne _ _ _ _ _ _ (by decide), State.rd_wr_same]
    exact Nat.mod_eq_of_lt hcode
  case phase => rw [State.setEntry_rd, State.rd_wr_same]; rfl
  case frame =>
    exact (((Frame.refl _ _ s).wr F.AON_PWR_STS_LAST_WAKE _ (by decide)).wr F.AON_PWR_MODE_PHASE _ (by decide)).setEntry _
      (by decide)

theorem State.beginExit_p1 {s : State} (code : Nat) (hcur : s.rd F.AON_PWR_MODE_CUR = 1) :
    s.beginExit code = s.exitBegun code := by
  have h3 : ¬ s.cur = 3 := by rw [State.cur, hcur]; decide
  have h2 : ¬ s.cur = 2 := by rw [State.cur, hcur]; decide
  unfold State.beginExit
  rw [if_neg h3, if_neg h2]
  rfl

/-- Both tiers leave self-refresh with the exit from P2 (R225). -/
theorem State.beginExit_p2 {s : State} (code : Nat) (hcur : s.rd F.AON_PWR_MODE_CUR = 2)
    (hnear : s.rd F.NTC_SR_STATE = 2) (hbulk : s.rd F.BTC_SR_STATE = 2) :
    s.beginExit code = ((s.exitBegun code).wr F.BTC_SR_STATE 3).wr F.NTC_SR_STATE 3 := by
  have h3 : ¬ s.cur = 3 := by rw [State.cur, hcur]; decide
  have hkept : ∀ f : Fld, f.key 0 0 ≠ F.AON_PWR_MODE_PHASE.key 0 0 → f.key 0 0 ≠ F.AON_PWR_STS_LAST_WAKE.key 0 0 →
      (s.exitBegun code).rd f = s.rd f := fun f hphase hwake => by
    rw [State.exitBegun, State.setEntry_rd, State.rd_wr_ne _ _ _ _ _ _ hphase, State.rd_wr_ne _ _ _ _ _ _ hwake]
  have hx : (s.exitBegun code).srExit .bulk = (s.exitBegun code).wr F.BTC_SR_STATE 3 :=
    if_pos (.inl ((hkept _ (by decide) (by decide)).trans hbulk))
  have hy : ((s.exitBegun code).wr F.BTC_SR_STATE 3).srExit .near =
      ((s.exitBegun code).wr F.BTC_SR_STATE 3).wr F.NTC_SR_STATE 3 :=
    if_pos ((State.rd_wr_ne _ _ _ _ _ _ (by decide)).trans ((hkept _ (by decide) (by decide)).trans hnear))
  unfold State.beginExit
  rw [if_neg h3, if_pos (show s.cur = 2 from hcur), ← hy, ← hx]
  rfl

theorem State.wakeEvent_p2_spec {s t : State} {code : Nat} (hcode : code < 16)
    (ht : ((s.exitBegun code).wr F.BTC_SR_STATE 3).wr F.NTC_SR_STATE 3 = t) :
    t.rd F.AON_PWR_STS_LAST_WAKE = code ∧ t.rd F.AON_PWR_MODE_PHASE = 3 ∧ t.aon.entry.stage = 5 ∧
      t.rd F.NTC_SR_STATE = 3 ∧ t.rd F.BTC_SR_STATE = 3 ∧
      Frame [.aon] (fun key => key = F.AON_PWR_STS_LAST_WAKE.key 0 0 ∨ key = F.AON_PWR_MODE_PHASE.key 0 0 ∨
        key = F.NTC_SR_STATE.key 0 0 ∨ key = F.BTC_SR_STATE.key 0 0) s t := by
  obtain ⟨hwake, hphase, hstage, hframe⟩ := s.exitBegun_spec hcode
  generalize s.exitBegun code = u at *
  have htiers : Frame [.aon] (fun key => key = F.NTC_SR_STATE.key 0 0 ∨ key = F.BTC_SR_STATE.key 0 0) u t :=
    ht ▸ ((Frame.refl _ _ u).wr F.BTC_SR_STATE 3 (by decide)).wr F.NTC_SR_STATE 3 (by decide)
  refine ⟨?code, ?phase, ?stage, ?near, ?bulk, ?frame⟩
  case code => rw [htiers.rd _ _ _ (by decide) (by decide), hwake]
  case phase => rw [htiers.rd _ _ _ (by decide) (by decide), hphase]
  case stage => rw [← ht]; exact hstage
  case near => rw [← ht, State.rd_wr_same]; rfl
  case bulk => rw [← ht, State.rd_wr_ne _ _ _ _ _ _ (by decide), State.rd_wr_same]; rfl
  case frame => exact (hframe.mono (by decide) (by omega)).trans (htiers.mono (by decide) (by omega))

/-- Which codes wake is read from the enables of AON and the target. -/
theorem State.wakes_congr {s u : State} (h : ∀ f ∈ [F.AON_PWR_CFG_CRICKET_EN, F.AON_PWR_CFG_WAKEN_EN,
    F.AON_PWR_CFG_ALARM_EN], u.rd f = s.rd f) (t code : Nat) : u.wakes t code = s.wakes t code := by
  obtain ⟨hcricket, hwaken, halarm, -⟩ := by simpa only [List.forall_mem_cons] using h
  simp only [State.wakes, State.rdb, hcricket, hwaken, halarm]

/-- A match past the commit point of a P2 entry is counted and latched. -/
theorem State.execCricketMatch_latched {s : State} {addr : BitVec 7} (hon : s.aon.off = 0)
    (hstage : s.aon.entry.stage = 3) (htarget : s.rd F.AON_PWR_MODE_TARGET = 2)
    (hen : s.rd F.AON_PWR_CFG_CRICKET_EN = 1) (haddr : addr.toNat = s.rd F.AON_CRICKET_ADDR) (hcast : addr ≠ 0x7e) :
    execCricketMatch addr s = .next (((s.bump F.AON_CRICKET_MATCHES).wr F.AON_PWR_STS_LAST_WAKE 3).setEntry
      { (s.bump F.AON_CRICKET_MATCHES).aon.entry with wakes := (s.bump F.AON_CRICKET_MATCHES).aon.entry.wakes ++ [3] }) := by
  have hbump := s.bump_frame F.AON_CRICKET_MATCHES 0 0 1 none false (by decide)
  have hwakes : s.wakes s.target 3 = true := by simp [State.wakes, State.target, htarget, State.rdb, hen]
  have hgo : s.aon.off = 0 ∧ (s.target = 2 ∨ s.target = 3) ∧ 2 ≤ s.aon.entry.stage ∧ s.aon.entry.stage ≤ 4 ∧
      addr.toNat = s.rd F.AON_CRICKET_ADDR ∧ addr ≠ 0x7e ∧ s.wakes s.target 3 :=
    ⟨hon, .inl htarget, by omega, by omega, haddr, hcast, hwakes⟩
  have hsame : (s.bump F.AON_CRICKET_MATCHES).wakes (s.bump F.AON_CRICKET_MATCHES).target 3 = true := by
    have htgt : (s.bump F.AON_CRICKET_MATCHES).target = s.target := hbump.rd _ _ _ (by decide) (by decide)
    rw [htgt, State.wakes_congr (s := s) fun f hf => ?_, hwakes]
    have hkeys : ∀ f ∈ [F.AON_PWR_CFG_CRICKET_EN, F.AON_PWR_CFG_WAKEN_EN, F.AON_PWR_CFG_ALARM_EN],
        f.key 0 0 ≠ F.AON_CRICKET_MATCHES.key 0 0 ∧ ¬ InBlock 14 (f.key 0 0) := by decide
    exact hbump.rd f 0 0 (hkeys f hf).1 (hkeys f hf).2
  have hstage' : (s.bump F.AON_CRICKET_MATCHES).aon.entry.stage = 3 := by rw [hbump.1 .aon (by decide), hstage]
  refine (next_of_pos hgo).trans (congrArg Host.Outcome.next ?_)
  generalize s.bump F.AON_CRICKET_MATCHES = u at *
  simp [State.wake, hsame, hstage']

theorem State.cricketMatch_spec {s : State} {addr : BitVec 7} (hon : s.aon.off = 0)
    (hstage : s.aon.entry.stage = 3) (htarget : s.rd F.AON_PWR_MODE_TARGET = 2)
    (hen : s.rd F.AON_PWR_CFG_CRICKET_EN = 1) (haddr : addr.toNat = s.rd F.AON_CRICKET_ADDR) (hcast : addr ≠ 0x7e)
    (hroom : s.rd F.AON_CRICKET_MATCHES + 1 < 2 ^ 16) :
    ∃ t, execCricketMatch addr s = .next t ∧ t.rd F.AON_CRICKET_MATCHES = s.rd F.AON_CRICKET_MATCHES + 1 ∧
      t.rd F.AON_PWR_STS_LAST_WAKE = 3 ∧ t.aon.entry.wakes = s.aon.entry.wakes ++ [3] ∧
      Frame [.evt, .aon] (fun key => key = F.AON_CRICKET_MATCHES.key 0 0 ∨ key = F.AON_PWR_STS_LAST_WAKE.key 0 0)
        s t := by
  have hbump := s.bump_frame F.AON_CRICKET_MATCHES 0 0 1 none false (by decide)
  have hcount := State.rd_bump_same s F.AON_CRICKET_MATCHES 0 0 1 none false (by decide) (by decide) hroom
  refine ⟨_, State.execCricketMatch_latched hon hstage htarget hen haddr hcast, ?count, ?wake, ?wakes, ?frame⟩
  all_goals generalize State.bump s F.AON_CRICKET_MATCHES = u at *
  case count => rw [State.setEntry_rd, State.rd_wr_ne _ _ _ _ _ _ (by decide), hcount]
  case wake => rw [State.setEntry_rd, State.rd_wr_same]; rfl
  case wakes =>
    have haon : u.aon = s.aon := hbump.1 .aon (by decide)
    exact congrArg (fun a => Entry.wakes (Aon.entry a) ++ [3]) haon
  case frame =>
    exact ((hbump.mono (by decide) fun _ h => .inl h).wr F.AON_PWR_STS_LAST_WAKE 3 (by decide)).setEntry _ (by decide)

/-! ## Exits (R487, R489, R496, R225) -/

theorem State.wakeN_spec {s : State} (hoff : s.aon.off = 1) :
    ∃ t, execWakeN s = .next t ∧ t.aon.off = 0 ∧ t.aon.held = true ∧ t.aon.groups = 0 ∧
      t.rd F.AON_PWR_STS_LAST_WAKE = 4 ∧ t.rd F.AON_RST_CAUSE_CAUSE = 1 ∧ t.cry.root = none ∧ t.near.mem = [] ∧
      t.bulk.mem = [] ∧ t.ctl.flash = s.ctl.flash ∧ t.pending = s.pending := by
  have hexec : execWakeN s = .next s.leaveOff := congrArg Host.Outcome.next (if_pos hoff)
  refine ⟨_, hexec, rfl, rfl, ?groups, State.rd_wr_same _ F.AON_PWR_STS_LAST_WAKE 4, ?cause, rfl, rfl, rfl, rfl, rfl⟩
  case groups =>
    show (if (!false && decide (s.aon.off = 0)) = true then s.aon.groups else 0) = 0
    rw [hoff]; rfl
  case cause =>
    rw [State.leaveOff, State.rd_wr_ne _ _ _ _ _ _ (by decide)]
    show State.rd (State.wr _ F.AON_RST_CAUSE_WARM_LOST (b2n false)) F.AON_RST_CAUSE_CAUSE = 1
    rw [State.rd_wr_ne _ _ _ _ _ _ (by decide)]
    rfl

/-- The unit is in P0 again. -/
def State.backInP0 (s : State) : State :=
  ((s.wr F.AON_PWR_MODE_CUR 0).wr F.AON_PWR_MODE_PHASE 0).setEntry Entry.none

/-- The keys of a return to P0. -/
abbrev BackKeys (key : Nat) : Prop :=
  key = F.AON_PWR_MODE_CUR.key 0 0 ∨ key = F.AON_PWR_MODE_PHASE.key 0 0 ∨ key = (F.EVT_RAW_CAUSE 0).key 0 0

theorem State.backInP0_raise_spec (s : State) {t : State} (ht : s.backInP0.raise cWake = t) :
    t.rd F.AON_PWR_MODE_CUR = 0 ∧ t.rd F.AON_PWR_MODE_PHASE = 0 ∧ t.aon.entry.stage = 0 ∧
      (t.rd (F.EVT_RAW_CAUSE 0) 0).testBit 1 = true ∧ Frame [.evt, .aon] BackKeys s t := by
  subst ht
  refine ⟨?cur, ?phase, ?stage, State.raise_testBit _ cWake none none [] (by decide), ?frame⟩
  case cur =>
    rw [State.rd_raise_ne _ _ _ _ _ _ _ _ (by decide), State.backInP0, State.setEntry_rd,
      State.rd_wr_ne _ _ _ _ _ _ (by decide), State.rd_wr_same]
    rfl
  case phase =>
    rw [State.rd_raise_ne _ _ _ _ _ _ _ _ (by decide), State.backInP0, State.setEntry_rd, State.rd_wr_same]
    rfl
  case stage => rw [State.aon_raise]; rfl
  case frame =>
    exact ((((Frame.refl _ _ s).wr F.AON_PWR_MODE_CUR _ (by decide)).wr F.AON_PWR_MODE_PHASE _ (by decide)).setEntry _
      (by decide)).raise cWake _ _ _ (by decide) (by decide)

theorem State.p2ExitDone_spec {s : State} (hcur : s.rd F.AON_PWR_MODE_CUR = 2) (hstage : s.aon.entry.stage = 5)
    (hnear : s.rd F.NTC_SR_STATE = 0) (hbulk : s.rd F.BTC_SR_STATE = 0) (hwaits : s.tmu.waits = []) :
    ∃ t, execP2ExitDone s = .next t ∧ t.rd F.AON_PWR_MODE_CUR = 0 ∧ t.rd F.AON_PWR_MODE_PHASE = 0 ∧
      t.aon.entry.stage = 0 ∧ (t.rd (F.EVT_RAW_CAUSE 0) 0).testBit 1 = true ∧ t.tmu = s.tmu ∧ t.near = s.near ∧
      t.bulk = s.bulk ∧ t.cry = s.cry := by
  have hregs : Frame [] (fun _ => True) s s.p2Regs := ((Frame.refl _ _ s).keepRegs _).keepRegs _
  obtain ⟨hcur', hphase, hstage', hcause, hback⟩ := s.p2Regs.backInP0_raise_spec rfl
  have htmu : (s.p2Regs.backInP0.raise cWake).tmu = s.tmu := (hback.1 .tmu (by decide)).trans (hregs.1 .tmu (by decide))
  have hexec : execP2ExitDone s = .next (s.p2Regs.backInP0.raise cWake) := by
    refine (next_of_pos ⟨hcur, hstage, hnear, hbulk⟩).trans (congrArg Host.Outcome.next ?_)
    have hnone : ∀ w ∈ (s.p2Regs.backInP0.raise cWake).tmu.waits, decide (w.why = .selfRefresh) = false := by
      simp [htmu, hwaits]
    exact State.resumeWhy_none hnone
  exact ⟨_, hexec, hcur', hphase, hstage', hcause, htmu, (hback.1 .near (by decide)).trans (hregs.1 .near (by decide)),
    (hback.1 .bulk (by decide)).trans (hregs.1 .bulk (by decide)),
    (hback.1 .cry (by decide)).trans (hregs.1 .cry (by decide))⟩

/-- Once both tiers are active the entry to self-refresh is over. -/
theorem State.srSettle_entry {s : State} (hnear : s.rd F.NTC_SR_STATE = 0) (hbulk : s.rd F.BTC_SR_STATE = 0) :
    s.srSettle.mem.entry = 0 := by
  rw [State.srSettle, if_pos ⟨hnear, hbulk⟩]; rfl

theorem State.rd_srSettle (s : State) (f : Fld) : s.srSettle.rd f = s.rd f := by
  unfold State.srSettle
  split <;> rfl

/-- The register that tells the state of a tier. -/
def srState : Tier → Fld
  | .near => F.NTC_SR_STATE
  | .bulk => F.BTC_SR_STATE

theorem State.srDone_of_exiting {s : State} {tier : Tier} (h : s.rd (srState tier) = 3) :
    s.srDone tier = (s.wr (srState tier) 0).srSettle := by
  cases tier <;> exact if_pos h

/-- With nothing that waits, the end of a tier's exit is its register and, with the other tier active, the entry's end. -/
theorem State.selfRefreshExitDone_spec {s : State} {tier : Tier} (hheld : s.aon.held = false) (hon : s.aon.off = 0)
    (hsr : s.rd (srState tier) = 3) (hwaits : s.tmu.waits = []) :
    ∃ t, execSelfRefreshExitDone tier s = .next t ∧ t.rd (srState tier) = 0 ∧
      (s.wr (srState tier) 0).srSettle = t ∧ Frame [.mem] (fun key => key = (srState tier).key 0 0) s t := by
  have hframe : Frame [.mem] (fun key => key = (srState tier).key 0 0) s (s.wr (srState tier) 0).srSettle := by
    have hsettle := (s.wr (srState tier) 0).srSettle_frame fun key => key = (srState tier).key 0 0
    exact Frame.trans (Frame.wr (Frame.refl _ _ s) (srState tier) 0 (.inl rfl)) hsettle
  have hwaits' : (s.srDone tier).tmu.waits = [] := by
    have htmu : (s.wr (srState tier) 0).srSettle.tmu = s.tmu := hframe.1 .tmu (by decide)
    rw [State.srDone_of_exiting hsr, htmu, hwaits]
  have hnone : (s.srDone tier).resumeWhy (fun w => decide (w.why = .selfRefresh)) = s.srDone tier :=
    State.resumeWhy_none (by simp [hwaits'])
  have hexec : execSelfRefreshExitDone tier s = .next (s.srDone tier) := by
    have hreset := State.inReset_eq_false hheld hon
    rw [← hnone]
    cases tier
    case near => exact next_of_neg (by simp [hreset, show s.nearSr = 3 from hsr])
    case bulk => exact next_of_neg (by simp [hreset, show s.bulkSr = 3 from hsr])
  refine ⟨_, hexec.trans (congrArg Host.Outcome.next (State.srDone_of_exiting hsr)), ?_, rfl, hframe⟩
  rw [State.rd_srSettle, State.rd_wr_same, Nat.zero_mod]

theorem State.p2EntryRetry_spec {s : State} (hretry : s.aon.entry.retry = true) (hstage : s.aon.entry.stage = 0)
    (hruns : s.fwRuns = true) :
    ∃ t, execP2EntryRetry s = .next t ∧ t.aon.entry.stage = 1 ∧ t.rd F.AON_PWR_MODE_TARGET = 2 ∧
      t.rd F.AON_PWR_MODE_ARM = 1 ∧ t.aon.entry.attempts = s.aon.entry.attempts ∧
      Frame [.aon] (fun key => key = F.AON_PWR_MODE_TARGET.key 0 0 ∨ key = F.AON_PWR_MODE_ARM.key 0 0) s t := by
  refine ⟨_, next_of_pos ⟨hretry, hstage, hruns⟩, rfl, ?target, State.rd_wr_same _ F.AON_PWR_MODE_ARM 1, rfl, ?frame⟩
  case target =>
    rw [State.rd_wr_ne _ _ _ _ _ _ (by decide), State.rd_wr_same]
    rfl
  case frame =>
    exact (((Frame.refl _ _ s).setEntry _ (by decide)).wr F.AON_PWR_MODE_TARGET _ (by decide)).wr F.AON_PWR_MODE_ARM _
      (by decide)

/-- Settles O7: a wake begins the exit of the state that the unit is in, and each exit ends where its tables say. -/
theorem powerWake : Obligations.PowerWake := by
  unfold Obligations.PowerWake
  refine ⟨?wakeP1, ?wakeP2, ?cricket, ?wakeN, ?exitP1, ?exitP2, ?near, ?bulk, ?retry⟩
  case wakeP1 =>
    intro s code hon hstage hcur hcode hwakes
    have hexec := State.execWakeEvent_on code hon
    rw [State.wake_resident hstage hwakes, State.beginExit_p1 code hcur] at hexec
    exact ⟨_, hexec, s.exitBegun_spec hcode⟩
  case wakeP2 =>
    intro s code hon hstage hcur hnear hbulk hcode hwakes
    have hexec := State.execWakeEvent_on code hon
    rw [State.wake_resident hstage hwakes, State.beginExit_p2 code hcur hnear hbulk] at hexec
    exact ⟨_, hexec, State.wakeEvent_p2_spec hcode rfl⟩
  case cricket =>
    intro s addr hon hstage htarget hen haddr hcast hroom
    exact State.cricketMatch_spec hon hstage htarget hen haddr hcast hroom
  case wakeN =>
    intro s hoff
    exact State.wakeN_spec hoff
  case exitP1 =>
    intro s hcur hstage
    exact ⟨_, next_of_pos ⟨hcur, hstage⟩, s.backInP0_raise_spec rfl⟩
  case exitP2 =>
    intro s hcur hstage hnear hbulk hwaits
    exact State.p2ExitDone_spec hcur hstage hnear hbulk hwaits
  case near =>
    intro s hheld hon hsr hwaits
    obtain ⟨t, hexec, hdone, hsettled, hframe⟩ := State.selfRefreshExitDone_spec (tier := .near) hheld hon hsr hwaits
    exact ⟨t, hexec, hdone, fun hother => hsettled ▸ State.srSettle_entry (State.rd_wr_same _ F.NTC_SR_STATE 0)
      ((State.rd_wr_ne _ F.NTC_SR_STATE _ _ _ _ (by decide)).trans hother), hframe⟩
  case bulk =>
    intro s hheld hon hsr hwaits
    obtain ⟨t, hexec, hdone, hsettled, hframe⟩ := State.selfRefreshExitDone_spec (tier := .bulk) hheld hon hsr hwaits
    exact ⟨t, hexec, hdone, fun hother => hsettled ▸ State.srSettle_entry
      ((State.rd_wr_ne _ F.BTC_SR_STATE _ _ _ _ (by decide)).trans hother) (State.rd_wr_same _ F.BTC_SR_STATE 0), hframe⟩
  case retry =>
    intro s hretry hstage hruns
    exact State.p2EntryRetry_spec hretry hstage hruns

end Sys2Proof.Machine
end

section
/-!
PROOFS of O9 and O10: cold resets, and the causes of a warm reset up to its quiesce.
-/
namespace Sys2Proof.Machine
open Sys2Proof.Safety

/-! ## Cold resets (R499, R505, R506, R531) -/

/-- The only register that a cold reset leaves apart from its reset value. -/
theorem State.mget_cold {s : State} {por lost : Bool} {key : Nat} (h : key ≠ F.AON_RST_CAUSE_WARM_LOST.key 0 0) :
    mget (s.cold por lost).regs key = none :=
  mget_mset_ne (F.AON_RST_CAUSE_WARM_LOST.rstAt 0 0) [] (b2n lost % 2 ^ F.AON_RST_CAUSE_WARM_LOST.width) h

theorem State.rd_cold_cause (s : State) (por lost : Bool) : (s.cold por lost).rd F.AON_RST_CAUSE_CAUSE = 1 := by
  rw [State.rd, mgetD, State.mget_cold (by decide)]; rfl

theorem State.rd_cold_warmLost (s : State) (por lost : Bool) :
    (s.cold por lost).rd F.AON_RST_CAUSE_WARM_LOST = b2n lost := by
  rw [State.cold, State.emit_rd, State.emit_rd, State.rd_wr_same]
  cases lost <;> rfl

theorem State.out_cold (s : State) (por lost : Bool) :
    (s.cold por lost).out = s.out ++ [.resetN true, .alertN true] := by
  show (s.out ++ [.resetN true]) ++ [.alertN true] = _
  rw [List.append_assoc]; rfl

/-- What a cold reset forgets and keeps. -/
structure Cold (s t : State) : Prop where
  held : t.aon.held = true
  cause : t.rd F.AON_RST_CAUSE_CAUSE = 1
  map : t.tmu.map = []
  near : t.near.mem = []
  bulk : t.bulk.mem = []
  root : t.cry.root = none
  slotKeys : t.cry.slotKeys = []
  jobs : t.job.jobs = []
  flash : t.ctl.flash = s.ctl.flash
  pending : t.pending = s.pending
  out : t.out = s.out ++ [.resetN true, .alertN true]

theorem State.cold_spec (s : State) (por lost : Bool) : Cold s (s.cold por lost) :=
  ⟨rfl, s.rd_cold_cause por lost, rfl, rfl, rfl, rfl, rfl, rfl, rfl, rfl, s.out_cold por lost⟩

/-- Settles O9: each of the causes ends in cold. -/
theorem coldReset : Obligations.ColdReset := by
  unfold Obligations.ColdReset
  refine ⟨?por, ?cmd, ?timeout, ?brownout⟩
  case por =>
    intro s
    have hexec : execPowerOnReset s = .next (s.cold true false) := congrArg Host.Outcome.next (if_neg (by simp))
    obtain ⟨hheld, hcause, hmap, hnear, hbulk, hroot, hkeys, hjobs, hflash, hpending, hout⟩ := s.cold_spec true false
    exact ⟨_, hexec, hheld, hcause, hmap, hnear, hbulk, hroot, hkeys, hjobs, hflash, hpending, hout,
      s.rd_cold_warmLost true false, rfl, fun _ h => State.mget_cold h⟩
  case cmd =>
    intro s hon hloaded hreach
    have hcmd : ¬ (s.aon.off = 1 ∨ (s.aon.off = 2 ∧ s.aon.brownThermal)) := by omega
    have hfailed : ¬ s.aon.off = 3 := by omega
    have hcold : s.coldCause false = s.cold false false := if_neg (by simp [hloaded])
    have hexec : execColdCmd .sideband s = .next (s.cold false false) := by
      unfold execColdCmd
      rw [State.viaPath_of_reaches hreach (by rfl), if_neg hcmd, if_neg hfailed, hcold]
    obtain ⟨hheld, hcause, hmap, hnear, hbulk, hroot, hkeys, hjobs, hflash, hpending, hout⟩ := s.cold_spec false false
    refine ⟨_, hexec, hheld, hcause, hmap, hnear, hbulk, hroot, hkeys, hjobs, hflash, hpending, hout,
      s.rd_cold_warmLost false false, ?groups, fun _ h => State.mget_cold h⟩
    show (if (!false && decide (s.aon.off = 0)) = true then s.aon.groups else 0) = _
    rw [hon]; rfl
  case timeout =>
    intro s hquiescing
    obtain ⟨hheld, hcause, hmap, hnear, hbulk, hroot, hkeys, hjobs, hflash, hpending, hout⟩ := s.cold_spec false true
    exact ⟨_, next_of_pos hquiescing, hheld, hcause, hmap, hnear, hbulk, hroot, hkeys, hjobs, hflash, hpending, hout,
      s.rd_cold_warmLost false true, fun _ h => State.mget_cold h⟩
  case brownout =>
    intro s i hi
    have hcold : s.coldCause true = s.cold true false := if_neg (by simp)
    have hexec : execSupplyResetCrossing i s = .next (s.cold true false) :=
      congrArg Host.Outcome.next ((if_pos hi).trans hcold)
    obtain ⟨hheld, hcause, hmap, hnear, hbulk, hroot, hkeys, hjobs, hflash, hpending, hout⟩ := s.cold_spec true false
    exact ⟨_, hexec, hheld, hcause, hmap, hnear, hbulk, hroot, hkeys, hjobs, hflash, hpending, hout,
      s.rd_cold_warmLost true false⟩

/-! ## The quiesce (R504) -/

/-- The count of any class stands outside AON's block, also that of a class that does not exist. -/
theorem not_inBlock_aon_outF (i c : Nat) : ¬ InBlock 0 ((outF c).key i (c / 4)) := by
  have hmod := Nat.mod_lt c (show 0 < 4 by decide)
  have hfld : outF c ∈ [F.ADM_ING_OUT_COUNT0, F.ADM_ING_OUT_COUNT1, F.ADM_ING_OUT_COUNT2, F.ADM_ING_OUT_COUNT3] := by
    unfold outF
    interval_cases c % 4 <;> simp
  have hblk : (outF c).blk = 4 := by
    have hall : ∀ f ∈ [F.ADM_ING_OUT_COUNT0, F.ADM_ING_OUT_COUNT1, F.ADM_ING_OUT_COUNT2, F.ADM_ING_OUT_COUNT3],
        f.blk = 4 := by decide
    exact hall _ hfld
  simp only [Fld.key, Fld.addr, hblk]
  omega

/-- The end of jobs is the jobs' data and registers outside AON's. -/
theorem State.endSilently_frame (s : State) (sel : Job → Bool) :
    Frame [.job] (fun key => ¬ InBlock 0 key) s (s.endSilently sel) := by
  unfold State.endSilently
  refine Frame.wr ?_ F.SCR_JOB_STS_INFLIGHT _ (.inl (by decide))
  refine ((Frame.refl _ _ s).setJob _ (by decide)).trans (Frame.foldl _ _ _ fun u j _ => ?_)
  have hsub : Frame [.job] (fun key => ¬ InBlock 0 key) u (u.outSub 18 j.cls j.units) :=
    (Frame.refl _ _ u).wrAt _ _ _ _ (.inl (not_inBlock_aon_outF 18 j.cls))
  exact Frame.ite _ (fun _ => (hsub.setJob _ (by decide)).wr F.SCR_JOB_STS_ACTIVE _ (.inl (by decide))) fun _ => hsub

/-- Requests that end are taken from the parts that hold them. -/
theorem State.dropRequests_frame (s : State) (gone : Req → Bool) (K : Nat → Prop) :
    Frame [.adm, .tmu, .near, .dir, .clx] K s (s.dropRequests gone) := by
  refine ⟨fun p hp => ?_, fun _ _ _ => rfl⟩
  cases p
  case adm | tmu | near | dir | clx => exact absurd (by decide) hp
  all_goals rfl

/-- A request of a host. -/
def Req.fromHost (q : Req) : Bool := match q.org with | .host _ _ _ => true | _ => false

/-- The keys that a quiesce may write. -/
abbrev QuiesceKeys (key : Nat) : Prop :=
  ¬ InBlock 0 key ∨ key = F.AON_PWR_MODE_ARM.key 0 0 ∨ key = F.AON_PWR_MODE_CUR.key 0 0 ∨
    key = F.AON_PWR_MODE_PHASE.key 0 0 ∨ key = F.AON_PWR_MODE_TARGET.key 0 0

/-- AON notes the quiesce, and drives RESET_N unless it is driven from outside. -/
def State.quiesceNoted (s : State) (external : Bool) : State :=
  let s1 := s.setAon { s.aon with quiescing := true, entry := Entry.none }
  if external then s1 else s1.emit (.resetN true)

/-- The mode registers clear. -/
def State.modeCleared (s : State) : State :=
  (((s.wr F.AON_PWR_MODE_ARM 0).wr F.AON_PWR_MODE_CUR 0).wr F.AON_PWR_MODE_PHASE 0).wr F.AON_PWR_MODE_TARGET 0

theorem State.quiesce_eq (s : State) (external : Bool) : s.quiesce external =
    ((((s.quiesceNoted external).dropRequests Req.fromHost).endSilently fun _ => true).modeCleared).srBegin 3 := rfl

theorem State.srBegin_frame (s : State) (kind : Nat) {K : Nat → Prop} (hn : K (F.NTC_SR_STATE.key 0 0))
    (hb : K (F.BTC_SR_STATE.key 0 0)) : Frame [.mem] K s (s.srBegin kind) := by
  have hbulk : Frame [.mem] K s (if s.bulkSr = 2
      then s.setMem { s.mem with entry := kind, bulkIn := false, nearIn := false }
      else (s.setMem { s.mem with entry := kind, bulkIn := false, nearIn := false }).wr F.BTC_SR_STATE 1) :=
    Frame.ite _ (fun _ => (Frame.refl _ _ s).setMem _ (by decide))
      fun _ => ((Frame.refl _ _ s).setMem _ (by decide)).wr F.BTC_SR_STATE 1 (.inl hb)
  exact Frame.ite _ (fun _ => hbulk) fun _ => hbulk.wr F.NTC_SR_STATE 1 (.inl hn)

theorem State.srBegin_entry (s : State) (kind : Nat) : (s.srBegin kind).mem.entry = kind := by
  unfold State.srBegin
  split <;> split <;> rfl

/-- The parts that a quiesce may change. -/
abbrev quiesceParts : List Part := [.aon, .out, .adm, .tmu, .near, .dir, .clx, .job, .mem]

/-- What a quiesce does. -/
structure Quiesced (s t : State) : Prop where
  aon : t.aon = { s.aon with quiescing := true, entry := Entry.none }
  entry : t.mem.entry = 3
  hosts : ∀ q ∈ t.adm.queue, ∀ h l tag, q.org ≠ .host h l tag
  near : t.near.mem = s.near.mem
  map : t.tmu.map = s.tmu.map
  frame : Frame quiesceParts QuiesceKeys s t

theorem State.quiesce_spec (s : State) (external : Bool) : Quiesced s (s.quiesce external) := by
  rw [State.quiesce_eq]
  have hnoted : Frame quiesceParts QuiesceKeys s (s.quiesceNoted external) :=
    Frame.ite _ (fun _ => (Frame.refl _ _ s).setAon _ (by decide))
      fun _ => ((Frame.refl _ _ s).setAon _ (by decide)).emit _ (by decide)
  have haon : (s.quiesceNoted external).aon = { s.aon with quiescing := true, entry := Entry.none } := by
    cases external <;> rfl
  have hnear : (s.quiesceNoted external).near = s.near := by cases external <;> rfl
  have htmu : (s.quiesceNoted external).tmu = s.tmu := by cases external <;> rfl
  generalize s.quiesceNoted external = u at *
  have hdrop : Frame quiesceParts QuiesceKeys u (u.dropRequests Req.fromHost) :=
    (u.dropRequests_frame Req.fromHost QuiesceKeys).mono (by decide) fun _ h => h
  have hhosts : ∀ q ∈ (u.dropRequests Req.fromHost).adm.queue, ∀ h l tag, q.org ≠ .host h l tag := by
    intro q hq h l tag horg
    obtain ⟨-, hkept⟩ := List.mem_filter.1 hq
    simp [Req.fromHost, horg] at hkept
  have hdropped : (u.dropRequests Req.fromHost).near.mem = u.near.mem ∧ (u.dropRequests Req.fromHost).tmu.map = u.tmu.map ∧
      (u.dropRequests Req.fromHost).aon = u.aon := ⟨rfl, rfl, rfl⟩
  generalize u.dropRequests Req.fromHost = v at *
  have hmode : Frame [.job, .mem] QuiesceKeys v ((v.endSilently fun _ => true).modeCleared) :=
    (((((v.endSilently_frame fun _ => true).mono (by decide) fun _ h => .inl h).wr F.AON_PWR_MODE_ARM 0 (by decide)).wr
      F.AON_PWR_MODE_CUR 0 (by decide)).wr F.AON_PWR_MODE_PHASE 0 (by decide)).wr F.AON_PWR_MODE_TARGET 0 (by decide)
  generalize (v.endSilently fun _ => true).modeCleared = w at *
  have hrest : Frame [.job, .mem] QuiesceKeys v (w.srBegin 3) :=
    hmode.trans ((w.srBegin_frame 3 (.inl (by decide)) (.inl (by decide))).mono (by decide) fun _ h => h)
  obtain ⟨hmem, hmap, haon'⟩ := hdropped
  refine ⟨?aon, w.srBegin_entry 3, ?hosts, ?near, ?map, ?frame⟩
  case aon => rw [hrest.1 .aon (by decide), haon', haon]
  case hosts => rw [hrest.1 .adm (by decide)]; exact hhosts
  case near => rw [hrest.1 .near (by decide), hmem, hnear]
  case map => rw [hrest.1 .tmu (by decide), hmap, htmu]
  case frame => exact (hnoted.trans hdrop).trans (hrest.mono (by decide) fun _ h => h)

/-! ## Warm causes (R502, R503, R516, R520, R455, R46) -/

/-- A unit that serves memory and that no reset, sleep or halt holds. -/
structure WarmReady (s : State) : Prop where
  held : s.aon.held = false
  on : s.aon.off = 0
  halt : s.cry.halt = 0
  loaded : s.aon.loading = false
  running : s.aon.quiescing = false
  cur : s.rd F.AON_PWR_MODE_CUR = 0
  active : s.rd F.CTL_HEALTH_MEM_ACTIVE = 1

/-- In such a unit a warm cause is written and the quiesce begins. -/
theorem State.warm_of_ready {s : State} (h : WarmReady s) (code supply : Nat) :
    s.warm code supply = (s.writeCause code supply).quiesce (decide (code = 2)) := by
  have hcur : ¬ s.cur = 3 := by rw [State.cur, h.cur]; decide
  unfold State.warm
  rw [if_neg (by simp [h.halt, h.on]), if_neg (by simp [h.loaded]), if_neg hcur, if_neg (by simp [h.running, h.held]),
    if_neg (by simp [h.active])]

/-- The keys of a warm reset's cause. -/
abbrev CauseKeys (key : Nat) : Prop :=
  key = F.AON_RST_CAUSE_CAUSE.key 0 0 ∨ key = F.AON_RST_CAUSE_SUPPLY.key 0 0 ∨ key = F.AON_RST_CAUSE_WARM_LOST.key 0 0

theorem State.writeCause_spec (s : State) {code supply : Nat} (hcode : code < 16) (hsupply : supply < 16) :
    (s.writeCause code supply).rd F.AON_RST_CAUSE_CAUSE = code ∧
      (s.writeCause code supply).rd F.AON_RST_CAUSE_SUPPLY = supply ∧
      (s.writeCause code supply).rd F.AON_RST_CAUSE_WARM_LOST = 0 ∧ Frame [] CauseKeys s (s.writeCause code supply) := by
  unfold State.writeCause
  refine ⟨?cause, ?supply, State.rd_wr_same _ _ 0, ?frame⟩
  case cause =>
    rw [State.rd_wr_ne _ _ _ _ _ _ (by decide), State.rd_wr_ne _ _ _ _ _ _ (by decide), State.rd_wr_same]
    exact Nat.mod_eq_of_lt hcode
  case supply =>
    rw [State.rd_wr_ne _ _ _ _ _ _ (by decide), State.rd_wr_same]
    exact Nat.mod_eq_of_lt hsupply
  case frame =>
    exact (((Frame.refl _ _ s).wr F.AON_RST_CAUSE_CAUSE _ (by decide)).wr F.AON_RST_CAUSE_SUPPLY _ (by decide)).wr
      F.AON_RST_CAUSE_WARM_LOST _ (by decide)

/-- What a warm cause does up to the quiesce. -/
structure WarmStarted (s t : State) (code supply : Nat) : Prop where
  cause : t.rd F.AON_RST_CAUSE_CAUSE = code
  supply : t.rd F.AON_RST_CAUSE_SUPPLY = supply
  warmLost : t.rd F.AON_RST_CAUSE_WARM_LOST = 0
  quiescing : t.aon.quiescing = true
  entry : t.mem.entry = 3
  hosts : ∀ q ∈ t.adm.queue, ∀ h l tag, q.org ≠ .host h l tag
  near : t.near.mem = s.near.mem
  bulk : t.bulk = s.bulk
  cry : t.cry = s.cry
  map : t.tmu.map = s.tmu.map

/-- A field of AON that neither the cause nor the quiesce writes reads as before a warm cause. -/
theorem State.rd_warm_ne {s : State} (h : WarmReady s) {code supply : Nat} {f : Fld} {i : Nat}
    (hquiesce : ¬ QuiesceKeys (f.key i 0)) (hcause : ¬ CauseKeys (f.key i 0)) (hpmu : ¬ InBlock 14 (f.key i 0))
    (hcode : code < 16) (hsupply : supply < 16) : (s.warm code supply).rd f i = s.rd f i := by
  rw [State.warm_of_ready h, ((s.writeCause code supply).quiesce_spec _).frame.rd _ _ _ hquiesce hpmu]
  exact (s.writeCause_spec hcode hsupply).2.2.2.rd _ _ _ hcause hpmu

theorem State.warm_spec {s : State} (h : WarmReady s) {code supply : Nat} (hcode : code < 16) (hsupply : supply < 16) :
    WarmStarted s (s.warm code supply) code supply := by
  rw [State.warm_of_ready h]
  obtain ⟨hcause, hsup, hlost, hwritten⟩ := s.writeCause_spec hcode hsupply
  generalize s.writeCause code supply = u at *
  obtain ⟨haon, hentry, hhosts, hnear, hmap, hframe⟩ := u.quiesce_spec (decide (code = 2))
  generalize u.quiesce _ = t at *
  constructor
  case cause => rw [hframe.rd _ _ _ (by decide) (by decide), hcause]
  case supply => rw [hframe.rd _ _ _ (by decide) (by decide), hsup]
  case warmLost => rw [hframe.rd _ _ _ (by decide) (by decide), hlost]
  case quiescing => rw [haon]
  case entry => exact hentry
  case hosts => exact hhosts
  case near => rw [hnear, hwritten.1 .near (by decide)]
  case bulk => rw [hframe.1 .bulk (by decide), hwritten.1 .bulk (by decide)]
  case cry => rw [hframe.1 .cry (by decide), hwritten.1 .cry (by decide)]
  case map => rw [hmap, hwritten.1 .tmu (by decide)]

/-- What comes before a warm cause is AON's and EVT's: registers of AON, and AON's data but for what WarmReady reads. -/
structure WarmPrelude (s u : State) : Prop where
  frame : Frame [.aon, .evt] (fun key => InBlock 0 key ∧ key ≠ F.AON_PWR_MODE_CUR.key 0 0) s u
  held : u.aon.held = s.aon.held
  off : u.aon.off = s.aon.off
  loading : u.aon.loading = s.aon.loading
  quiescing : u.aon.quiescing = s.aon.quiescing

theorem WarmReady.after {s u : State} (h : WarmReady s) (hu : WarmPrelude s u) : WarmReady u where
  held := hu.held.trans h.held
  on := hu.off.trans h.on
  halt := (congrArg Cry.halt (hu.frame.1 .cry (by decide))).trans h.halt
  loaded := hu.loading.trans h.loaded
  running := hu.quiescing.trans h.running
  cur := (hu.frame.rd _ _ _ (by decide) (by decide)).trans h.cur
  active := (hu.frame.rd _ _ _ (by decide) (by decide)).trans h.active

theorem WarmStarted.after {s u t : State} {code supply : Nat} (h : WarmStarted u t code supply)
    (hu : WarmPrelude s u) : WarmStarted s t code supply :=
  { h with
    near := h.near.trans (congrArg Near.mem (hu.frame.1 .near (by decide)))
    bulk := h.bulk.trans (hu.frame.1 .bulk (by decide))
    cry := h.cry.trans (hu.frame.1 .cry (by decide))
    map := h.map.trans (congrArg Tmu.map (hu.frame.1 .tmu (by decide))) }

theorem WarmReady.inReset {s : State} (h : WarmReady s) : s.inReset = false := State.inReset_eq_false h.held h.on

theorem WarmReady.reaches {s : State} (h : WarmReady s) (blk page : Nat) : s.writeReaches .cores blk page = true := by
  simp [State.writeReaches, State.reaches, h.inReset, h.halt, h.cur]

/-- The loss of a PLL as AON notes it (R520). -/
def State.pllNoted (s : State) (pll : Nat) : State :=
  let s1 := (s.wr F.AON_CLK_STS_LOCK (clrBit (s.rd F.AON_CLK_STS_LOCK) pll)).setAon
    { s.aon with pllOk := clrBit s.aon.pllOk pll }
  (s1.wr F.AON_CLK_STS_LOST (setBit (s1.rd F.AON_CLK_STS_LOST) pll)).raise cClkFault

theorem State.aon_pllNoted (s : State) (pll : Nat) :
    (s.pllNoted pll).aon = { s.aon with pllOk := clrBit s.aon.pllOk pll } := by
  rw [State.pllNoted, State.aon_raise]; rfl

theorem State.pllNoted_prelude (s : State) (pll : Nat) : WarmPrelude s (s.pllNoted pll) where
  frame :=
    ((((Frame.refl _ _ s).wr F.AON_CLK_STS_LOCK _ (by decide)).setAon _ (by decide)).wr F.AON_CLK_STS_LOST _
      (by decide)).raise cClkFault _ _ _ (by decide) (by decide)
  held := by rw [State.aon_pllNoted]
  off := by rw [State.aon_pllNoted]
  loading := by rw [State.aon_pllNoted]
  quiescing := by rw [State.aon_pllNoted]

theorem State.pllNoted_spec (s : State) {pll : Nat} (hpll : pll < 12) :
    ((s.pllNoted pll).rd F.AON_CLK_STS_LOST).testBit pll = true ∧
      ((s.pllNoted pll).rd F.AON_CLK_STS_LOCK).testBit pll = false ∧
      ((s.pllNoted pll).rd (F.EVT_RAW_CAUSE 0) 2).testBit 3 = true := by
  refine ⟨?lost, ?lock, State.raise_testBit _ cClkFault none none [] (by decide)⟩
  case lost =>
    rw [State.pllNoted, State.rd_raise_ne _ _ _ _ _ _ _ _ (by decide)]
    exact State.testBit_wr_setBit _ F.AON_CLK_STS_LOST hpll
  case lock =>
    rw [State.pllNoted, State.rd_raise_ne _ _ _ _ _ _ _ _ (by decide), State.rd_wr_ne _ _ _ _ _ _ (by decide),
      State.setAon_rd, State.rd_wr_same]
    exact testBit_clrBit_mod _ _ _

/-- The loss of a PLL of the core domain, of the hub's and the cores' own apart, is a warm cause. -/
theorem State.execPllLockLoss_warm {s : State} (h : WarmReady s) {pll : Nat} (hlo : 2 ≤ pll) (hhi : pll < 6)
    (hok : s.aon.pllOk.testBit pll = true) : execPllLockLoss pll s = .next ((s.pllNoted pll).warm 6 0) := by
  have hlost : (s.pllNoted pll).pllLost pll = (s.pllNoted pll).warm 6 0 := by
    unfold State.pllLost
    rw [if_neg (by omega), if_neg (by omega), if_pos hhi]
  refine (next_of_neg (by simp [hok]; omega)).trans (congrArg Host.Outcome.next ?_)
  rw [← hlost]
  exact if_neg (by show ¬ s.inReset = true; rw [h.inReset]; decide)

/-- The loss of a die-to-die link as AON notes it (R32). -/
def State.d2dNoted (s : State) (k : Nat) : State :=
  (s.wr F.AON_D2D_LOST (setBit (s.rd F.AON_D2D_LOST) k)).raise (cD2d k)

theorem State.aon_d2dNoted (s : State) (k : Nat) : (s.d2dNoted k).aon = s.aon := by
  rw [State.d2dNoted, State.aon_raise]; rfl

theorem State.d2dNoted_prelude (s : State) (k : Nat) : WarmPrelude s (s.d2dNoted k) where
  frame :=
    ((Frame.refl _ _ s).wr F.AON_D2D_LOST _ (by decide)).raise (cD2d k) _ _ _ (by decide)
      (.inl ⟨by show InBlock 0 ((F.EVT_RAW_CAUSE 0).key 1 0); decide,
        by show (F.EVT_RAW_CAUSE 0).key 1 0 ≠ _; decide⟩)
  held := by rw [State.aon_d2dNoted]
  off := by rw [State.aon_d2dNoted]
  loading := by rw [State.aon_d2dNoted]
  quiescing := by rw [State.aon_d2dNoted]

/-- The loss of the link to E0 or E1 is a warm cause (R46). -/
theorem State.execD2dLinkLost_warm {s : State} (h : WarmReady s) {k : Nat} (hk : k < 2)
    (hup : (s.rd F.AON_D2D_LOST).testBit k = false) : execD2dLinkLost k s = .next ((s.d2dNoted k).warm 5 0) := by
  have hcur : ¬ s.cur = 3 := by rw [State.cur, h.cur]; decide
  have hreset : (s.d2dNoted k).inReset = false := (h.after (s.d2dNoted_prelude k)).inReset
  have hgo : ¬ (4 ≤ k ∨ (s.rd F.AON_D2D_LOST).testBit k ∨ s.aon.off ≠ 0 ∨ s.cur = 3) := by
    simp [hup, h.on, hcur]; omega
  have hclx : ¬ (2 ≤ k ∧ !(s.d2dNoted k).inReset) := fun hc => absurd hc.1 (by omega)
  have hwarm : ¬ (s.d2dNoted k).inReset = true := by rw [hreset]; decide
  unfold execD2dLinkLost State.d2dLost
  rw [if_neg hgo]
  simp only [← State.d2dNoted.eq_1]
  rw [if_neg hclx, if_neg hwarm]

theorem State.testBit_rd_d2dNoted (s : State) {k : Nat} (hk : k < 4) :
    ((s.d2dNoted k).rd F.AON_D2D_LOST).testBit k = true := by
  have hraw : F.AON_D2D_LOST.key 0 0 ≠ (F.EVT_RAW_CAUSE (cD2d k).blk).key (cD2d k).page 0 := by
    show _ ≠ (F.EVT_RAW_CAUSE 0).key 1 0
    decide
  rw [State.d2dNoted, State.rd_raise_ne _ _ _ _ _ _ _ _ hraw]
  exact State.testBit_wr_setBit _ F.AON_D2D_LOST hk

/-! ## The request of a block reset (R509) -/

/-- The blocks whose reset is a warm reset are blocks. -/
theorem warmBlock_lt {block : Nat} (h : block ∈ [0, 1, 4, 6, 8, 10, 11]) : block < 12 := by
  revert block; decide

theorem State.blockNamed_prelude (s : State) (block : Nat) : WarmPrelude s (s.wr F.AON_BLK_RST_BLOCK block) :=
  ⟨(Frame.refl _ _ s).wr F.AON_BLK_RST_BLOCK _ (by decide), rfl, rfl, rfl, rfl⟩

/-- A block that cannot be reset alone takes the unit into a warm reset. -/
theorem State.execBlkRstReq_warm {s : State} (h : WarmReady s) {block : Nat} (hblock : block ∈ [0, 1, 4, 6, 8, 10, 11])
    (hblocks : s.aon.blocks = []) :
    execBlkRstReq .cores block s = .next ((s.wr F.AON_BLK_RST_BLOCK block).warm 5 0) := by
  have hlt := warmBlock_lt hblock
  have hgo : ¬ (15 ≤ block ∨ s.inReset ∨ s.aon.quiescing ∨ s.cry.halt ≠ 0 ∨ s.aon.blocks.contains block) := by
    simp [h.inReset, h.running, h.halt, hblocks]; omega
  have hwarm : warmBlock block = true := List.contains_iff_mem.2 hblock
  unfold execBlkRstReq
  rw [State.viaPath, if_pos (h.reaches 0 1), if_pos (show (isCores .cores || isSideband .cores) = true from rfl),
    State.resetBlock]
  simp only [if_neg hgo, if_pos hwarm]

/-- Settles O10: each cause notes what it is about and starts a quiesce, which ends the requests of hosts. -/
theorem warmReset : Obligations.WarmReset := by
  unfold Obligations.WarmReset
  refine ⟨?pin, ?firmware, ?supply, ?clock, ?link, ?watchdog, ?block⟩
  case pin =>
    intro s hheld hon hhalt hloaded hrunning hcur hactive
    have hready : WarmReady s := ⟨hheld, hon, hhalt, hloaded, hrunning, hcur, hactive⟩
    have hext : WarmPrelude s (s.setAon { s.aon with extLow := true }) :=
      ⟨(Frame.refl _ _ s).setAon _ (by decide), rfl, rfl, rfl, rfl⟩
    have hexec : execResetNLow true s = .next ((s.setAon { s.aon with extLow := true }).warm 2 0) :=
      congrArg Host.Outcome.next (if_pos (by simp [hheld, hrunning, hon]))
    have hwarm := State.warm_spec (hready.after hext) (code := 2) (supply := 0) (by decide) (by decide)
    have haon := ((s.setAon { s.aon with extLow := true }).writeCause 2 0).quiesce_spec (decide (2 = 2)) |>.aon
    rw [← State.warm_of_ready (hready.after hext)] at haon
    obtain ⟨hcause, hsupply, hlost, hq, hentry, hhosts, hnear, hbulk, hcry, hmap⟩ := hwarm.after hext
    exact ⟨_, hexec, hcause, hsupply, hlost, hq, hentry, hhosts, hnear, hbulk, hcry, hmap, by rw [haon]; rfl⟩
  case firmware =>
    intro s hheld hon hhalt hloaded hrunning hcur hactive
    have hready : WarmReady s := ⟨hheld, hon, hhalt, hloaded, hrunning, hcur, hactive⟩
    obtain ⟨hcause, hsupply, hlost, hq, hentry, hhosts, hnear, hbulk, hcry, hmap⟩ :=
      State.warm_spec hready (code := 5) (supply := 0) (by decide) (by decide)
    exact ⟨_, congrArg Host.Outcome.next (State.viaPath_cores (hready.reaches 0 1) _), hcause, hsupply, hlost, hq, hentry,
      hhosts, hnear, hbulk, hcry, hmap⟩
  case supply =>
    intro s i hheld hon hhalt hloaded hrunning hcur hactive hlo hhi hpassed
    have hready : WarmReady s := ⟨hheld, hon, hhalt, hloaded, hrunning, hcur, hactive⟩
    have hexec : execSupplyResetCrossing i s = .next (s.warm 3 i) :=
      (next_of_neg (by omega)).trans (next_of_neg (by simp [State.masked, hpassed]))
    obtain ⟨hcause, hsupply, hlost, hq, hentry, hhosts, hnear, hbulk, hcry, hmap⟩ :=
      State.warm_spec hready (code := 3) (supply := i) (by decide) (by omega)
    exact ⟨_, hexec, hcause, hsupply, hlost, hq, hentry, hhosts, hnear, hbulk, hcry, hmap⟩
  case clock =>
    intro s pll hheld hon hhalt hloaded hrunning hcur hactive hlo hhi hok
    have hready : WarmReady s := ⟨hheld, hon, hhalt, hloaded, hrunning, hcur, hactive⟩
    have hpre := s.pllNoted_prelude pll
    have hwarm := State.warm_spec (hready.after hpre) (code := 6) (supply := 0) (by decide) (by decide)
    obtain ⟨hlostBit, hlock, hbit⟩ := s.pllNoted_spec (pll := pll) (by omega)
    have hread : ∀ (f : Fld) (i : Nat), ¬ QuiesceKeys (f.key i 0) → ¬ CauseKeys (f.key i 0) → ¬ InBlock 14 (f.key i 0) →
        ((s.pllNoted pll).warm 6 0).rd f i = (s.pllNoted pll).rd f i := fun f i hk hc hp =>
      State.rd_warm_ne (hready.after hpre) hk hc hp (by decide) (by decide)
    obtain ⟨hcause, hsupply, hlost, hq, hentry, hhosts, hnear, hbulk, hcry, hmap⟩ := hwarm.after hpre
    refine ⟨_, State.execPllLockLoss_warm hready hlo hhi hok, hcause, hsupply, hlost, hq, hentry, hhosts, hnear, hbulk,
      hcry, hmap, ?_, ?_, ?_⟩
    · rw [hread _ _ (by decide) (by decide) (by decide), hlostBit]
    · rw [hread _ _ (by decide) (by decide) (by decide), hlock]
    · rw [hread _ _ (by decide) (by decide) (by decide), hbit]
  case link =>
    intro s k hheld hon hhalt hloaded hrunning hcur hactive hk hup
    have hready : WarmReady s := ⟨hheld, hon, hhalt, hloaded, hrunning, hcur, hactive⟩
    have hpre := s.d2dNoted_prelude k
    have hwarm := State.warm_spec (hready.after hpre) (code := 5) (supply := 0) (by decide) (by decide)
    have hread : ∀ (f : Fld) (i : Nat), ¬ QuiesceKeys (f.key i 0) → ¬ CauseKeys (f.key i 0) → ¬ InBlock 14 (f.key i 0) →
        ((s.d2dNoted k).warm 5 0).rd f i = (s.d2dNoted k).rd f i := fun f i hkey hc hp =>
      State.rd_warm_ne (hready.after hpre) hkey hc hp (by decide) (by decide)
    obtain ⟨hcause, hsupply, hlost, hq, hentry, hhosts, hnear, hbulk, hcry, hmap⟩ := hwarm.after hpre
    refine ⟨_, State.execD2dLinkLost_warm hready hk hup, hcause, hsupply, hlost, hq, hentry, hhosts, hnear, hbulk, hcry,
      hmap, ?_, ?_⟩
    · rw [hread _ _ (by decide) (by decide) (by decide)]
      exact s.testBit_rd_d2dNoted (by omega)
    · rw [hread _ _ (by decide) (by decide) (by decide)]
      exact State.raise_testBit _ (cD2d k) none none [] (by show 8 + k < 64; omega)
  case watchdog =>
    intro s hheld hon hhalt hloaded hrunning hcur hactive hwdt
    have hready : WarmReady s := ⟨hheld, hon, hhalt, hloaded, hrunning, hcur, hactive⟩
    have hcounts : s.wdtCounts = true := by
      simp [State.wdtCounts, hwdt, hready.inReset, hrunning, hhalt, State.cur, hcur]
    obtain ⟨hcause, hsupply, hlost, hq, hentry, hhosts, hnear, hbulk, hcry, hmap⟩ :=
      State.warm_spec hready (code := 4) (supply := 0) (by decide) (by decide)
    exact ⟨_, next_of_pos hcounts, hcause, hsupply, hlost, hq, hentry, hhosts, hnear, hbulk, hcry, hmap⟩
  case block =>
    intro s block hheld hon hhalt hloaded hrunning hcur hactive hblock hblocks
    have hready : WarmReady s := ⟨hheld, hon, hhalt, hloaded, hrunning, hcur, hactive⟩
    have hpre := s.blockNamed_prelude block
    have hwarm := State.warm_spec (hready.after hpre) (code := 5) (supply := 0) (by decide) (by decide)
    obtain ⟨hcause, hsupply, hlost, hq, hentry, hhosts, hnear, hbulk, hcry, hmap⟩ := hwarm.after hpre
    refine ⟨_, State.execBlkRstReq_warm hready hblock hblocks, hcause, hsupply, hlost, hq, hentry, hhosts, hnear, hbulk,
      hcry, hmap, ?_⟩
    rw [State.rd_warm_ne (hready.after hpre) (by decide) (by decide) (by decide) (by decide) (by decide), State.rd_wr_same]
    exact Nat.mod_eq_of_lt (Nat.lt_trans (warmBlock_lt hblock) (by decide))

end Sys2Proof.Machine
end

section
/-!
PROOFS of O11: the end of a quiesce, block resets, and corrected replays.
-/
namespace Sys2Proof.Machine
open Sys2Proof.Safety

/-! ## Every block is held (Table 16.2 step 4) -/

/-- TMU and the codec stop: the cache is written back, and nothing moves or waits. -/
def State.tmuHalted (s : State) : State :=
  let s1 := s.writeBack
  ((s1.setTmu { s1.tmu with moves := [], cache := [], waits := [], fetches := [] }).setCdc { held := [] }).setNear
    { s1.near with reads := [] }

/-- The directory, the queues, ADM, the chain, CTL and the memory controllers start afresh. -/
def State.coreRested (s : State) : State :=
  ((((s.dirClear.resetQueues (fun _ => true)).admRest).clxRest false).ctlRest).memRest

/-- SCR, CRY, the links, RAS's copies and the events end. -/
def State.dataRested (s : State) : State :=
  let s4 := s.setScr { s.scr with cands := [], lastPromo := [], prefetch := [], low := false }
  let s5 := ((s4.setCry { s4.cry with ide := [], ideOn := [], lines := 0, marks := [] }).setHlx Hlx.empty).setRas
    { s4.ras with copies := [] }
  s5.setEvt State.reset.evt

/-- The registers of a warm reset, self-refresh and the boot core. -/
def State.warmRegsHeld (s : State) (override : Option Nat) : State :=
  ((s.warmRegs.wr F.NTC_SR_STATE 2).wr F.BTC_SR_STATE 2).wr F.CTL_BOOT_BOOT_CORE
    (override.getD (s.warmRegs.rd F.CTL_BOOT_BOOT_CORE))

/-- Reset is held. -/
def State.warmHeld (s : State) : State :=
  let s8 := s.setCtl { s.ctl with romRan := false, trained := !(s.nearBroken || s.bulkBroken) }
  s8.setAon { s8.aon with held := true, quiescing := false, entry := Entry.none, blocks := [], accs := [], pllOk := 0 }

/-- The lost links are reported again (R32). -/
def State.linksReported (s : State) : State :=
  (bitList 4 (s.rd F.AON_D2D_LOST)).foldl (fun s k => s.raise (cD2d k)) s.brownAgain

theorem State.warmHold_eq {s : State} (hmoves : s.tmu.moves = []) :
    s.warmHold = (((s.tmuHalted.coreRested.dataRested).warmRegsHeld s.ctl.override).warmHeld).linksReported := by
  have hstop : s.stopMoves = s := by rw [State.stopMoves, hmoves]; rfl
  rw [State.warmHold, hstop]
  rfl

theorem State.tmuHalted_spec (s : State) : s.tmuHalted.tmu.waits = [] ∧ s.tmuHalted.tmu.cache = [] ∧
    s.tmuHalted.near.mem = s.near.mem ∧ s.tmuHalted.near.ftes = s.near.ftes ∧
      Frame [.tmu, .cdc, .near] (fun _ => True) s s.tmuHalted := by
  have hback : Frame [.tmu, .cdc, .near] (fun _ => True) s s.writeBack := (Frame.refl _ _ s).writeBack (by decide)
  have hnear : s.writeBack.near = s.near := ((Frame.refl [.tmu] (fun _ => True) s).writeBack (by decide)).1 .near (by decide)
  unfold State.tmuHalted
  generalize s.writeBack = u at *
  exact ⟨rfl, rfl, (congrArg Near.mem hnear :), (congrArg Near.ftes hnear :),
    ((hback.setTmu _ (by decide)).setCdc _ (by decide)).setNear _ (by decide)⟩

/-- Every context returns to its reset image: the jobs' data and registers alone. -/
theorem State.resetQueues_frame (s : State) (sel : Nat → Bool) :
    Frame [.job] (fun _ => True) s (s.resetQueues sel) := by
  have hend : Frame [.job] (fun _ => True) s (s.endSilently fun j => sel j.queue) :=
    (s.endSilently_frame _).mono (by decide) fun _ _ => trivial
  refine Frame.setJob ?_ _ (by decide)
  exact hend.trans (Frame.foldl _ _ _ fun u _ _ => ((Frame.refl _ _ u).setJob _ (by decide)).wr _ _ (.inl trivial))

theorem State.coreRested_frame {s : State} (hdone : s.clx.done = []) :
    Frame [.dir, .job, .adm, .clx, .ctl, .mem] (fun _ => True) s s.coreRested := by
  have hqueues : Frame [.dir, .job, .adm, .clx, .ctl, .mem] (fun _ => True) s (s.dirClear.resetQueues fun _ => true) :=
    ((Frame.refl _ _ s).setDir _ (by decide)).trans ((State.resetQueues_frame _ _).mono (by decide) fun _ h => h)
  have hclx : (s.dirClear.resetQueues fun _ => true).clx = s.clx :=
    (State.resetQueues_frame s.dirClear fun _ => true).1 .clx (by decide)
  unfold State.coreRested
  generalize s.dirClear.resetQueues (fun _ => true) = u at *
  have hdone' : u.admRest.clx.done = [] := (congrArg Clx.done hclx).trans hdone
  exact (((hqueues.admRest (by decide)).clxRest false hdone' (by decide)).ctlRest (by decide)).setMem _ (by decide)

theorem State.dataRested_spec (s : State) : s.dataRested.cry.root = s.cry.root ∧
    s.dataRested.cry.slotKeys = s.cry.slotKeys ∧ Frame [.scr, .cry, .hlx, .ras, .evt] (fun _ => True) s s.dataRested :=
  ⟨rfl, rfl, (((((Frame.refl _ _ s).setScr _ (by decide)).setCry _ (by decide)).setHlx _ (by decide)).setRas _
    (by decide)).setEvt _ (by decide)⟩

theorem State.warmRegsHeld_spec (s : State) (override : Option Nat) :
    (s.warmRegsHeld override).rd F.NTC_SR_STATE = 2 ∧ (s.warmRegsHeld override).rd F.BTC_SR_STATE = 2 ∧
      Frame [] (fun _ => True) s (s.warmRegsHeld override) := by
  unfold State.warmRegsHeld
  refine ⟨?near, ?bulk, ?frame⟩
  case near =>
    rw [State.rd_wr_ne _ _ _ _ _ _ (by decide), State.rd_wr_ne _ _ _ _ _ _ (by decide), State.rd_wr_same]
    rfl
  case bulk => rw [State.rd_wr_ne _ _ _ _ _ _ (by decide), State.rd_wr_same]; rfl
  case frame =>
    have hregs : Frame [] (fun _ => True) s s.warmRegs :=
      (((Frame.refl _ _ s).keepRegs _).wr F.AON_PIN_STATE _ (.inl trivial)).wr F.HLX_BIFUR_MERGE_ACT _ (.inl trivial)
    exact ((hregs.wr F.NTC_SR_STATE _ (.inl trivial)).wr F.BTC_SR_STATE _ (.inl trivial)).wr F.CTL_BOOT_BOOT_CORE _
      (.inl trivial)

theorem State.linksReported_frame (s : State) :
    Frame [.adm, .evt] (fun key => key = F.ADM_BROWN_ACTIVE.key 0 0 ∨ key = (F.EVT_RAW_CAUSE 0).key 1 0) s
      s.linksReported := by
  have hbrown : Frame [.adm, .evt] (fun key => key = F.ADM_BROWN_ACTIVE.key 0 0 ∨ key = (F.EVT_RAW_CAUSE 0).key 1 0) s
      s.brownAgain :=
    Frame.ite _ (fun _ => ((Frame.refl _ _ s).wr F.ADM_BROWN_ACTIVE 1 (by decide)).setAdm _ (by decide))
      fun _ => Frame.refl _ _ s
  exact hbrown.trans (Frame.foldl _ _ _ fun u k _ =>
    (Frame.refl _ _ u).raise (cD2d k) _ _ _ (by decide) (.inl (.inr rfl)))

theorem State.warmHold_spec {s t : State} (hmoves : s.tmu.moves = []) (hdone : s.clx.done = []) (ht : s.warmHold = t) :
    t.aon.held = true ∧ t.aon.quiescing = false ∧ t.aon.entry.stage = 0 ∧ t.rd F.NTC_SR_STATE = 2 ∧
      t.rd F.BTC_SR_STATE = 2 ∧ t.tmu.waits = [] ∧ t.tmu.cache = [] ∧ t.near.mem = s.near.mem ∧
      t.near.ftes = s.near.ftes ∧ t.bulk = s.bulk ∧ t.cry.root = s.cry.root ∧ t.cry.slotKeys = s.cry.slotKeys ∧
      t.pending = s.pending := by
  rw [State.warmHold_eq hmoves] at ht
  obtain ⟨hwaits, hcache, hmem, hftes, hhalted⟩ := s.tmuHalted_spec
  generalize s.tmuHalted = a at *
  have hrest := State.coreRested_frame (s := a) (by rw [hhalted.1 .clx (by decide), hdone])
  generalize a.coreRested = b at *
  obtain ⟨hroot, hkeys, hdata⟩ := b.dataRested_spec
  generalize b.dataRested = c at *
  obtain ⟨hnear, hbulk, hregs⟩ := c.warmRegsHeld_spec s.ctl.override
  generalize c.warmRegsHeld s.ctl.override = d at *
  have hheld : Frame [.ctl, .aon] (fun _ => False) d d.warmHeld :=
    ((Frame.refl _ _ d).setCtl _ (by decide)).setAon _ (by decide)
  have haon : d.warmHeld.aon.held = true ∧ d.warmHeld.aon.quiescing = false ∧ d.warmHeld.aon.entry.stage = 0 :=
    ⟨rfl, rfl, rfl⟩
  generalize d.warmHeld = e at *
  have hreported := e.linksReported_frame
  rw [ht] at hreported
  obtain ⟨hreset, hdoneQ, hstage⟩ := haon
  have htmu : t.tmu = a.tmu := (hreported.1 .tmu (by decide)).trans ((hheld.1 .tmu (by decide)).trans
    ((hregs.1 .tmu (by decide)).trans ((hdata.1 .tmu (by decide)).trans (hrest.1 .tmu (by decide)))))
  have hnearD : t.near = a.near := (hreported.1 .near (by decide)).trans ((hheld.1 .near (by decide)).trans
    ((hregs.1 .near (by decide)).trans ((hdata.1 .near (by decide)).trans (hrest.1 .near (by decide)))))
  have hbulkD : t.bulk = s.bulk := (hreported.1 .bulk (by decide)).trans ((hheld.1 .bulk (by decide)).trans
    ((hregs.1 .bulk (by decide)).trans ((hdata.1 .bulk (by decide)).trans ((hrest.1 .bulk (by decide)).trans
      (hhalted.1 .bulk (by decide))))))
  have hcry : t.cry = c.cry :=
    (hreported.1 .cry (by decide)).trans ((hheld.1 .cry (by decide)).trans (hregs.1 .cry (by decide)))
  have hcryS : b.cry = s.cry := (hrest.1 .cry (by decide)).trans (hhalted.1 .cry (by decide))
  have hpending : t.pending = s.pending := (hreported.1 .pending (by decide)).trans ((hheld.1 .pending (by decide)).trans
    ((hregs.1 .pending (by decide)).trans ((hdata.1 .pending (by decide)).trans ((hrest.1 .pending (by decide)).trans
      (hhalted.1 .pending (by decide))))))
  have haonD : t.aon = e.aon := hreported.1 .aon (by decide)
  refine ⟨?_, ?_, ?_, ?_, ?_, ?_, ?_, ?_, ?_, hbulkD, ?_, ?_, hpending⟩
  · rw [haonD, hreset]
  · rw [haonD, hdoneQ]
  · rw [haonD, hstage]
  · rw [hreported.rd _ _ _ (by decide) (by decide), hheld.rd _ _ _ (fun h => h) (by decide), hnear]
  · rw [hreported.rd _ _ _ (by decide) (by decide), hheld.rd _ _ _ (fun h => h) (by decide), hbulk]
  · rw [htmu, hwaits]
  · rw [htmu, hcache]
  · rw [hnearD, hmem]
  · rw [hnearD, hftes]
  · rw [hcry, hroot, hcryS]
  · rw [hcry, hkeys, hcryS]

/-! ## Block resets (R509) -/

/-- A block reset of registers is that block's. -/
theorem State.blockRegs_frame (s : State) {b : Nat} (hb : 0 < b) : Frame [] (InBlock b) s (s.blockRegs b) := by
  refine ⟨fun p _ => by cases p <;> rfl, fun key hkey _ => s.mget_keepRegs fun g hg => ?_⟩
  have hblk := blk_of_fieldOf hg
  have hne : g.blk ≠ b := fun h => hkey (by rw [h] at hblk; simp only [InBlock]; omega)
  simp [hne]

theorem State.rd_blockRegs_ne (s : State) {b : Nat} {f : Fld} (hfield : fieldOf (f.key 0 0) = some f) (hne : f.blk ≠ b) :
    (s.blockRegs b).rd f = s.rd f := by
  refine s.rd_keepRegs fun g hg => ?_
  obtain rfl := Option.some.inj (hfield.symm.trans hg)
  simp [hne]

/-- The directory's reset as far as AON and the directory note it. -/
def State.dirNoted (s : State) : State :=
  let s2 := ((s.wr F.AON_BLK_RST_BLOCK 5).wr F.AON_BLK_RST_LAST 5).setDir { s.dir with cache := [] }
  s2.setAon { s2.aon with blocks := s2.aon.blocks ++ [5] }

theorem State.resetBlock_dir {s : State} (hheld : s.aon.held = false) (hon : s.aon.off = 0)
    (hrunning : s.aon.quiescing = false) (hhalt : s.cry.halt = 0) (hblocks : s.aon.blocks = []) :
    s.resetBlock 5 = s.dirNoted.blockRegs 5 := by
  have hgo : ¬ (15 ≤ 5 ∨ s.inReset ∨ s.aon.quiescing ∨ s.cry.halt ≠ 0 ∨ s.aon.blocks.contains 5) := by
    simp [State.inReset_eq_false hheld hon, hrunning, hhalt, hblocks]
  have hwarm : ¬ warmBlock 5 = true := by decide
  simp only [State.resetBlock, if_neg hgo, if_neg hwarm]
  rfl

theorem State.dirReset_spec {s t : State} (hblocks : s.aon.blocks = []) (ht : s.dirNoted.blockRegs 5 = t) :
    t.rd F.AON_BLK_RST_BLOCK = 5 ∧ t.rd F.AON_BLK_RST_LAST = 5 ∧ t.aon.blocks = [5] ∧
      t.dir = { s.dir with cache := [] } ∧
      Frame [.dir, .aon] (fun key => InBlock 5 key ∨ key = F.AON_BLK_RST_BLOCK.key 0 0 ∨
        key = F.AON_BLK_RST_LAST.key 0 0) s t := by
  subst ht
  have hnoted : Frame [.dir, .aon] (fun key => InBlock 5 key ∨ key = F.AON_BLK_RST_BLOCK.key 0 0 ∨
      key = F.AON_BLK_RST_LAST.key 0 0) s s.dirNoted :=
    ((((Frame.refl _ _ s).wr F.AON_BLK_RST_BLOCK 5 (by decide)).wr F.AON_BLK_RST_LAST 5 (by decide)).setDir _
      (by decide)).setAon _ (by decide)
  refine ⟨?block, ?last, ?blocks, rfl,
    hnoted.trans ((s.dirNoted.blockRegs_frame (by decide)).mono (by simp) fun _ h => .inl h)⟩
  case block =>
    rw [State.rd_blockRegs_ne _ (by decide) (by decide), State.dirNoted, State.setAon_rd, State.setDir_rd,
      State.rd_wr_ne _ _ _ _ _ _ (by decide), State.rd_wr_same]
    rfl
  case last =>
    rw [State.rd_blockRegs_ne _ (by decide) (by decide), State.dirNoted, State.setAon_rd, State.setDir_rd,
      State.rd_wr_same]
    rfl
  case blocks =>
    show s.aon.blocks ++ [5] = [5]
    rw [hblocks, List.nil_append]

/-- With no codec work and no pipe held the dispatcher does nothing. -/
theorem State.dispatch_of_idle {s : State} (hmoves : s.tmu.moves = []) (hjobs : s.job.jobs = [])
    (hheld : s.cdc.held = []) : s.dispatch = s := by
  have hwork : s.codecWork = [] := by simp [State.codecWork, hmoves, hjobs]
  simp [State.dispatch, hwork, hheld]

/-- The end of a block reset that nothing waits for. -/
theorem State.execBlockResetEnd_quiet {s : State} {block : Nat} (hin : s.aon.blocks.contains block = true)
    (hwaits : s.tmu.waits = []) (haccs : s.aon.accs = [])
    (hcodec : block ≠ 7 ∨ (s.tmu.moves = [] ∧ s.job.jobs = [] ∧ s.cdc.held = [])) :
    execBlockResetEnd block s = .next (s.setAon { s.aon with blocks := s.aon.blocks.erase block, accs := [] }) := by
  have hdone : (s.setAon { s.aon with blocks := s.aon.blocks.erase block }).doAccs block =
      s.setAon { s.aon with blocks := s.aon.blocks.erase block, accs := [] } := by
    simp only [State.doAccs, State.setAon_aon, haccs, List.filter_nil, List.foldl_nil]
    rfl
  unfold execBlockResetEnd
  rw [if_neg (by simpa using hin)]
  simp only [hdone]
  have hresume : ∀ sel, (s.setAon { s.aon with blocks := s.aon.blocks.erase block, accs := [] }).resumeWhy sel =
      s.setAon { s.aon with blocks := s.aon.blocks.erase block, accs := [] } := fun sel =>
    State.resumeWhy_none (by simp [hwaits])
  rw [hresume, hresume]
  by_cases h7 : block = 7
  · obtain ⟨hmoves, hjobs, hheld⟩ := hcodec.resolve_left (not_not.2 h7)
    have hidle : (s.setAon { s.aon with blocks := s.aon.blocks.erase block, accs := [] }).dispatch = _ :=
      State.dispatch_of_idle hmoves hjobs hheld
    rw [hidle]
    simp only [ite_self]
  · simp only [if_neg h7, ite_self]

/-- Settles O11: warmHold keeps memory and keys; a block reset is its effect and its registers; a replay is counted. -/
theorem resetProgress : Obligations.ResetProgress := by
  unfold Obligations.ResetProgress
  refine ⟨?quiesced, ?dir, ?ended, ?replay⟩
  case quiesced =>
    intro s hquiescing hnear hbulk hmoves hdone
    exact ⟨_, next_of_pos ⟨hquiescing, hnear, hbulk⟩, State.warmHold_spec hmoves hdone rfl⟩
  case dir =>
    intro s hheld hon hrunning hhalt hcur hblocks
    have hreach : s.writeReaches .cores 0 1 = true := by
      simp [State.writeReaches, State.reaches, State.inReset_eq_false hheld hon, hhalt, hcur]
    have hexec : execBlkRstReq .cores 5 s = .next (s.dirNoted.blockRegs 5) := by
      unfold execBlkRstReq
      rw [State.viaPath, if_pos hreach, if_pos (show (isCores .cores || isSideband .cores) = true from rfl),
        State.resetBlock_dir hheld hon hrunning hhalt hblocks]
    exact ⟨_, hexec, State.dirReset_spec hblocks rfl⟩
  case ended =>
    intro s block hin hwaits haccs hcodec
    exact ⟨_, State.execBlockResetEnd_quiet hin hwaits haccs hcodec, rfl, (Frame.refl _ _ s).setAon _ (by decide)⟩
  case replay =>
    intro s k failures hheld hon hk hup hfew
    refine ⟨_, congrArg Host.Outcome.next ((if_neg ?_).trans (if_neg (by omega))), mget_mput_same _ _ _,
      (Frame.refl _ _ s).setAon _ (by decide)⟩
    simp [State.inReset_eq_false hheld hon, hup]
    omega

end Sys2Proof.Machine
end

section
/-!
PROOFS of O44: the states of a chain port.
-/
namespace Sys2Proof.Safety
open Sys2Proof.Machine

theorem Frame.setClp {P : List Part} {K : Nat → Prop} {s t : State} (h : Frame P K s t) (p : Nat) (x : ClPort)
    (hc : .clx ∈ P) : Frame P K s (t.setClp p x) := h.with_clx _ hc

end Sys2Proof.Safety

namespace Sys2Proof.Machine
open Sys2Proof.Safety

/-! ## The ports of the chain -/

@[simp] theorem State.clp_setClp_same (s : State) {p : Nat} (x : ClPort) (h : p < s.clx.ports.length) :
    (s.setClp p x).clp p = x := by
  simp [State.clp, State.setClp, List.getD_eq_getElem?_getD, h]

theorem State.clp_setClp_ne (s : State) {p q : Nat} (x : ClPort) (h : q ≠ p) : (s.setClp p x).clp q = s.clp q := by
  simp [State.clp, State.setClp, List.getD_eq_getElem?_getD, List.getElem?_set_ne h.symm]

theorem State.clp_of_clx {s t : State} (h : t.clx = s.clx) (p : Nat) : t.clp p = s.clp p := by
  rw [State.clp, State.clp, h]

@[simp] theorem State.setClp_rd (s : State) (p : Nat) (x : ClPort) (f : Fld) (i k : Nat) :
    (s.setClp p x).rd f i k = s.rd f i k := rfl

theorem State.clState_written (s : State) (p : Nat) {v : Nat} (hv : v < 8) :
    (s.wrI F.CLX_PORT_STS_STATE p v).clState p = v :=
  (s.rd_wrI_same _ _ _).trans (Nat.mod_eq_of_lt hv)

/-- The other port. -/
theorem other_ne {p : Nat} (hp : p < 2) : 1 - p ≠ p := by omega

/-! ## Lanes (R398, R403) -/

theorem sum_bitList : ∀ lanes : BitVec 9, ((bitList 9 lanes.toNat).map (fun l => 2 ^ l)).sum = lanes.toNat := by
  decide +kernel

theorem bitList_lost (n : Nat) : (bitList 9 n).filter (fun l => !n.testBit l) = [] := by
  simp [bitList]

theorem mem_bitList {n v i : Nat} : i ∈ bitList n v ↔ i < n ∧ v.testBit i = true := by
  simp [bitList]

theorem chooseLanes_width_lt (n w : Nat) : (chooseLanes n w).1 < 4 := by
  have hown : (if 8 ≤ (bitList 9 n).length then 2 else if 4 ≤ (bitList 9 n).length then 1 else 0) < 4 := by
    split
    · decide
    · split <;> decide
  exact Nat.lt_of_le_of_lt (Nat.min_le_left _ _) hown

/-- The keys that choosing lanes writes. -/
abbrev LaneKeys (p key : Nat) : Prop :=
  key = F.CLX_PORT_STS_WIDTH.key p 0 ∨ key = (F.EVT_RAW_CAUSE 3).key (1 + p) 0

/-- The failing lanes are noted as dealt with: there is none. -/
def State.lanesNoted (s : State) (p : Nat) : State := s.setClx { s.clx with lanesRec := mput s.clx.lanesRec p 0 }

/-- The width and the lanes that are chosen. -/
def State.lanesChosen (s : State) (p : Nat) (c : Nat × Nat) : State :=
  let s1 := (s.wrI F.CLX_PORT_STS_WIDTH p c.1).setClp p { s.clp p with lanes := BitVec.ofNat 9 c.2 }
  if c.1 = 1 then s1.raise (cClLane p 10) else s1

/-- No lane fails: the lanes are chosen among those of the port, and no substitute is taken. -/
theorem State.trainLanes_clean {s : State} {p : Nat} {lanes : BitVec 9} (hfailed : s.clFailed p = 0)
    (hlanes : (s.clp p).lanes = lanes) (w : Nat) :
    s.trainLanes p lanes.toNat w =
      ((s.lanesNoted p).lanesChosen p (chooseLanes lanes.toNat w), (chooseLanes lanes.toNat w).1) := by
  have hnone : bitList 9 0 = [] := by decide
  have hspared : s.spareLanes p = s.lanesNoted p := by simp [State.spareLanes, State.lanesNoted, hfailed, hnone]
  have hkept : (s.lanesNoted p).clFailed p = 0 := hfailed
  have hwork : ((bitList 9 lanes.toNat).filter (fun l => !(0 : Nat).testBit l)).map (fun l => 2 ^ l) =
      (bitList 9 lanes.toNat).map (fun l => 2 ^ l) := by simp
  simp only [State.trainLanes, hlanes, bitList_lost, List.foldl_nil, hspared, hkept, hwork, sum_bitList]
  rfl

theorem State.lanesChosen_spec {s : State} {p : Nat} {c : Nat × Nat} (hp : p < s.clx.ports.length) (hc : c.1 < 4) :
    (s.lanesChosen p c).rd F.CLX_PORT_STS_WIDTH p = c.1 ∧
      (s.lanesChosen p c).clp p = { s.clp p with lanes := BitVec.ofNat 9 c.2 } ∧
      (s.lanesChosen p c).clx.ports.length = s.clx.ports.length ∧
      Frame [.clx, .evt] (LaneKeys p) s (s.lanesChosen p c) := by
  have hset : Frame [.clx, .evt] (LaneKeys p) s
      ((s.wrI F.CLX_PORT_STS_WIDTH p c.1).setClp p { s.clp p with lanes := BitVec.ofNat 9 c.2 }) :=
    ((Frame.refl _ _ s).wrI _ _ _ (.inl (.inl rfl))).setClp p _ (by decide)
  have hwidth : ((s.wrI F.CLX_PORT_STS_WIDTH p c.1).setClp p { s.clp p with lanes := BitVec.ofNat 9 c.2 }).rd
      F.CLX_PORT_STS_WIDTH p = c.1 := (s.rd_wrI_same _ _ _).trans (Nat.mod_eq_of_lt hc)
  have hport : ((s.wrI F.CLX_PORT_STS_WIDTH p c.1).setClp p { s.clp p with lanes := BitVec.ofNat 9 c.2 }).clp p =
      { s.clp p with lanes := BitVec.ofNat 9 c.2 } := State.clp_setClp_same _ _ hp
  have hlen : ((s.wrI F.CLX_PORT_STS_WIDTH p c.1).setClp p { s.clp p with lanes := BitVec.ofNat 9 c.2 }).clx.ports.length =
      s.clx.ports.length := List.length_set ..
  rw [State.lanesChosen]
  generalize (s.wrI F.CLX_PORT_STS_WIDTH p c.1).setClp p { s.clp p with lanes := BitVec.ofNat 9 c.2 } = u at *
  dsimp only
  split
  · have hraise : (u.raise (cClLane p 10)).clx = u.clx :=
      ((Frame.refl [.evt] (LaneKeys p) u).raise (cClLane p 10) none none [] (by decide) (.inl (.inr rfl))).1 .clx (by decide)
    refine ⟨?_, (State.clp_of_clx hraise p).trans hport, (congrArg (fun x => x.ports.length) hraise).trans hlen,
      hset.raise (cClLane p 10) none none [] (by decide) (.inl (.inr rfl))⟩
    rw [State.rd_raise_ne _ (cClLane p 10) _ _ _ _ _ _ (Fld.key_ne_of_place (g := F.EVT_RAW_CAUSE 3) (by decide)), hwidth]
  · exact ⟨hwidth, hport, hlen, hset⟩

/-- The port after its lanes are chosen, none of them failing. -/
theorem State.trainLanes_spec {s : State} {p : Nat} {lanes : BitVec 9} (hp : p < s.clx.ports.length)
    (hfailed : s.clFailed p = 0) (hlanes : (s.clp p).lanes = lanes) (w : Nat) :
    ∃ t, s.trainLanes p lanes.toNat w = (t, (chooseLanes lanes.toNat w).1) ∧
      t.rd F.CLX_PORT_STS_WIDTH p = (chooseLanes lanes.toNat w).1 ∧
      t.clp p = { s.clp p with lanes := BitVec.ofNat 9 (chooseLanes lanes.toNat w).2 } ∧
      t.clx.ports.length = s.clx.ports.length ∧ Frame [.clx, .evt] (LaneKeys p) s t := by
  obtain ⟨hwidth, hport, hlen, hframe⟩ := State.lanesChosen_spec (s := s.lanesNoted p) (p := p) hp
    (chooseLanes_width_lt lanes.toNat w)
  exact ⟨_, State.trainLanes_clean hfailed hlanes w, hwidth, hport, hlen,
    Frame.trans ((Frame.refl _ _ s).setClx _ (by decide)) hframe⟩

/-- What marking a lane records. -/
theorem State.markLane_spec {s : State} {p l : Nat} (hl : l < 9) (hlt : s.clFailed p < 512) :
    (s.markLane p l).clFailed p < 512 ∧
      (∀ i, ((s.markLane p l).clFailed p).testBit i = ((s.clFailed p).testBit i || decide (i = l))) ∧
      Frame [.evt] (fun key => key = F.CLX_PORT_STS_FAILED.key p 0 ∨ key = (F.EVT_RAW_CAUSE 3).key (1 + p) 0) s
        (s.markLane p l) := by
  rw [State.markLane]
  split
  next hset =>
    refine ⟨hlt, fun i => ?_, Frame.refl _ _ s⟩
    by_cases hi : i = l
    · simp [hi, hset]
    · simp [hi]
  next =>
    have hpow : 2 ^ l < 2 ^ 9 := Nat.pow_lt_pow_right (by decide) hl
    have hval : ((s.wrI F.CLX_PORT_STS_FAILED p (setBit (s.clFailed p) l)).raise (cClLane p 8)).clFailed p =
        setBit (s.clFailed p) l := by
      rw [State.clFailed, State.rd_raise_ne _ (cClLane p 8) _ _ _ _ _ _
        (Fld.key_ne_of_place (g := F.EVT_RAW_CAUSE 3) (by decide)), State.rd_wrI_same]
      exact Nat.mod_eq_of_lt (Nat.or_lt_two_pow (n := 9) hlt hpow)
    refine ⟨?_, fun i => ?_, ((Frame.refl _ _ s).wrI _ _ _ (.inl (.inl rfl))).raise (cClLane p 8) _ _ _ (by decide) (.inl (.inr rfl))⟩
    · rw [hval]; exact Nat.or_lt_two_pow (n := 9) hlt hpow
    · rw [hval, setBit, Nat.testBit_or, Nat.testBit_two_pow]
      simp only [eq_comm]

theorem State.foldl_markLane_spec (l : List Nat) (s : State) {p : Nat} (hl : ∀ i ∈ l, i < 9) (hlt : s.clFailed p < 512) :
    (∀ i, ((l.foldl (fun s l => s.markLane p l) s).clFailed p).testBit i = ((s.clFailed p).testBit i || decide (i ∈ l))) ∧
      Frame [.evt] (fun key => key = F.CLX_PORT_STS_FAILED.key p 0 ∨ key = (F.EVT_RAW_CAUSE 3).key (1 + p) 0) s
        (l.foldl (fun s l => s.markLane p l) s) := by
  induction l generalizing s with
  | nil => exact ⟨fun i => by simp, Frame.refl _ _ s⟩
  | cons a l ih =>
    obtain ⟨hlt1, hbits, hframe⟩ := State.markLane_spec (hl a List.mem_cons_self) hlt
    obtain ⟨hrest, hframe1⟩ := ih (s.markLane p a) (fun i hi => hl i (List.mem_cons_of_mem _ hi)) hlt1
    refine ⟨fun i => ?_, hframe.trans hframe1⟩
    rw [List.foldl_cons, hrest, hbits, Bool.or_assoc]
    simp only [List.mem_cons, Bool.decide_or]

/-! ## Down (R412, R420) -/

/-- The keys of a port that a fresh start writes. -/
abbrev FreshKeys (p key : Nat) : Prop :=
  key = F.CLX_PORT_STS_STATE.key p 0 ∨ key = F.CLX_PORT_STS_WIDTH.key p 0 ∨ key = F.CLX_PORT_STS_PEER_SN.key p 0 ∨
    key = F.CLX_PORT_SEQ_TX_NEXT.key p 0 ∨ key = F.CLX_PORT_SEQ_TX_ACKED.key p 0 ∨ key = F.CLX_PORT_SEQ_RX_EXP.key p 0

theorem State.clFresh_spec (s : State) {p : Nat} (hp : p < s.clx.ports.length) :
    (s.clFresh p).clState p = 0 ∧ (s.clFresh p).clp p = ClPort.fresh ∧
      (∀ q, q ≠ p → (s.clFresh p).clp q = s.clp q) ∧ (s.clFresh p).clx.ucnt = s.clx.ucnt ∧
      Frame [.clx] (FreshKeys p) s (s.clFresh p) := by
  refine ⟨?state, ?port, fun q hq => ?other, rfl, ?frame⟩
  case state =>
    rw [State.clState, State.clFresh, State.setClp_rd]
    simp only [List.foldl_cons, List.foldl_nil]
    rw [State.rd_wrI_apart _ _ _ _ (by decide), State.rd_wrI_apart _ _ _ _ (by decide),
      State.rd_wrI_apart _ _ _ _ (by decide), State.rd_wrI_apart _ _ _ _ (by decide),
      State.rd_wrI_apart _ _ _ _ (by decide), State.rd_wrI_same]
    rfl
  case port => exact State.clp_setClp_same _ _ hp
  case other => exact State.clp_setClp_ne _ _ hq
  case frame =>
    refine (Frame.foldl _ _ s fun t f hf => (Frame.refl _ _ t).wrI f p 0 ?_).setClp p _ (by decide)
    simp only [List.mem_cons, List.not_mem_nil, or_false] at hf
    refine .inl ?_
    obtain rfl | rfl | rfl | rfl | rfl | rfl := hf
    · exact .inl rfl
    · exact .inr (.inl rfl)
    · exact .inr (.inr (.inl rfl))
    · exact .inr (.inr (.inr (.inl rfl)))
    · exact .inr (.inr (.inr (.inr (.inl rfl))))
    · exact .inr (.inr (.inr (.inr (.inr rfl))))

/-- A unit without a chain ID counts a change of a port and says nothing. -/
theorem State.portChanged_without_id {s : State} (h : s.rd F.CLX_ID_VALID = 0) :
    s.portChanged = s.setClx { s.clx with ucnt := (s.clx.ucnt + 1) % 64 } := by
  have hid : (s.setClx { s.clx with ucnt := (s.clx.ucnt + 1) % 64 }).idValid = false := by
    simp [State.idValid, State.rdb, h]
  rw [State.portChanged]
  exact if_neg (by simp [hid])

/-- A link that is declared down: its messages are counted, and its loss is raised. -/
def State.clLost (s : State) (p : Nat) : State :=
  let n := (s.clp p).pass.length + (s.clp p).orig.length + replayMessages (s.clp p).replay
  (if n = 0 then s else s.bump F.CLX_PORT_DROP_DEAD p (n := n)).raise (cClLink p 0)

theorem State.clDown_of_up {s : State} {p : Nat} (h : s.clUp p = true) :
    s.clDown p = ((s.clLost p).clFresh p).portChanged := if_pos h

theorem State.clDown_of_not_up {s : State} {p : Nat} (h : s.clUp p = false) : s.clDown p = s.clFresh p :=
  if_neg (by simp [h])

/-- The keys that declaring a link down writes beside those of its fresh start. -/
abbrev LostKeys (p key : Nat) : Prop :=
  key = F.CLX_PORT_DROP_DEAD.key p 0 ∨ key = (F.EVT_RAW_CAUSE 3).key (1 + p) 0

theorem State.clLost_spec (s : State) (p : Nat) :
    ((s.clLost p).rd (F.EVT_RAW_CAUSE 3) (1 + p)).testBit 0 = true ∧ Frame [.evt] (LostKeys p) s (s.clLost p) := by
  refine ⟨State.raise_testBit _ (cClLink p 0) none none [] (show 0 < 64 by decide), ?_⟩
  refine Frame.raise ?_ (cClLink p 0) none none [] (by decide) (.inl (.inr rfl))
  split
  · exact Frame.refl _ _ s
  · exact (State.bump_frame s F.CLX_PORT_DROP_DEAD p 0 _ none false (by decide)).mono (by decide) fun _ h => .inl h

/-- A register apart from those of a link that goes down keeps its value. -/
theorem State.rd_of_fresh_lost {s t u : State} {p : Nat} (hlost : Frame [.evt] (LostKeys p) s t)
    (hfresh : Frame [.clx] (FreshKeys p) t u) (f : Fld)
    (hplaces : ∀ g ∈ [F.CLX_PORT_STS_STATE, F.CLX_PORT_STS_WIDTH, F.CLX_PORT_STS_PEER_SN, F.CLX_PORT_SEQ_TX_NEXT,
      F.CLX_PORT_SEQ_TX_ACKED, F.CLX_PORT_SEQ_RX_EXP, F.CLX_PORT_DROP_DEAD, F.EVT_RAW_CAUSE 3],
        f.place 0 % 0x40000 ≠ g.place 0 % 0x40000) (hpmu : ¬ InBlock 14 (f.key 0 0)) : u.rd f = s.rd f := by
  simp only [List.forall_mem_cons] at hplaces
  obtain ⟨h1, h2, h3, h4, h5, h6, h7, h8, -⟩ := hplaces
  exact (hfresh.rd f 0 0 (by simp only [FreshKeys, Fld.key_ne_of_place h1, Fld.key_ne_of_place h2, Fld.key_ne_of_place h3,
      Fld.key_ne_of_place h4, Fld.key_ne_of_place h5, Fld.key_ne_of_place h6, or_self, not_false_eq_true]) hpmu).trans
    (hlost.rd f 0 0 (not_or.2 ⟨Fld.key_ne_of_place h7, Fld.key_ne_of_place h8⟩) hpmu)

/-- The causes of a port are no registers of its fresh start. -/
theorem rawCause_not_fresh (p : Nat) : ¬ FreshKeys p ((F.EVT_RAW_CAUSE 3).key (1 + p) 0) := by
  have hplaces : ∀ g ∈ [F.CLX_PORT_STS_STATE, F.CLX_PORT_STS_WIDTH, F.CLX_PORT_STS_PEER_SN, F.CLX_PORT_SEQ_TX_NEXT,
      F.CLX_PORT_SEQ_TX_ACKED, F.CLX_PORT_SEQ_RX_EXP], (F.EVT_RAW_CAUSE 3).place 0 % 0x40000 ≠ g.place 0 % 0x40000 := by
    decide
  simp only [List.forall_mem_cons] at hplaces
  obtain ⟨h1, h2, h3, h4, h5, h6, -⟩ := hplaces
  simp only [FreshKeys, Fld.key_ne_of_place h1, Fld.key_ne_of_place h2, Fld.key_ne_of_place h3, Fld.key_ne_of_place h4,
    Fld.key_ne_of_place h5, Fld.key_ne_of_place h6, or_self, not_false_eq_true]

theorem rawCause_outside : ∀ p, p < 2 → ¬ InBlock 14 ((F.EVT_RAW_CAUSE 3).key (1 + p) 0) := by decide

theorem portRegs_outside : ∀ p, p < 2 → ∀ f ∈ [F.CLX_PORT_STS_STATE, F.CLX_PORT_STS_WIDTH, F.CLX_PORT_STS_FAILED,
    F.CLX_PORT_RPL_RETRAINS], ¬ InBlock 14 (f.key p 0) := by decide

/-- A dead link is down, fresh and reported. -/
theorem State.clLinkDown_spec {s : State} {p : Nat} (hp : p < 2) (hworks : s.clWorks p = true)
    (hlen : s.clx.ports.length = 2) (hstate : s.clState p = 6) (hid : s.rd F.CLX_ID_VALID = 0) :
    ∃ t, execClLinkDown p s = .next t ∧ t.clState p = 0 ∧ t.clp p = ClPort.fresh ∧
      t.clx.ucnt = (s.clx.ucnt + 1) % 64 ∧ (t.rd (F.EVT_RAW_CAUSE 3) (1 + p)).testBit 0 = true ∧
      t.clp (1 - p) = s.clp (1 - p) ∧
      Frame [.clx, .evt] (fun key => FreshKeys p key ∨ LostKeys p key) s t := by
  have hup : s.clUp p = true := by simp [State.clUp, hstate]
  obtain ⟨hraised, hlost⟩ := s.clLost_spec p
  have hclx : (s.clLost p).clx = s.clx := hlost.1 .clx (by decide)
  obtain ⟨hzero, hport, hother, hucnt, hfresh⟩ :=
    (s.clLost p).clFresh_spec (by rw [hclx, hlen]; exact hp : p < (s.clLost p).clx.ports.length)
  have hid1 : ((s.clLost p).clFresh p).rd F.CLX_ID_VALID = 0 :=
    (State.rd_of_fresh_lost hlost hfresh _ (by decide) (by decide)).trans hid
  have hexec : execClLinkDown p s = .next (((s.clLost p).clFresh p).setClx
      { ((s.clLost p).clFresh p).clx with ucnt := (((s.clLost p).clFresh p).clx.ucnt + 1) % 64 }) :=
    (next_of_pos ⟨hworks, hstate⟩).trans
      (congrArg Host.Outcome.next ((State.clDown_of_up hup).trans (State.portChanged_without_id hid1)))
  have hkept : ((s.clLost p).clFresh p).rd (F.EVT_RAW_CAUSE 3) (1 + p) = (s.clLost p).rd (F.EVT_RAW_CAUSE 3) (1 + p) :=
    hfresh.rd _ _ _ (rawCause_not_fresh p) (rawCause_outside p hp)
  have hframe := Frame.trans (hlost.mono (Q := [.clx, .evt]) (L := fun key => FreshKeys p key ∨ LostKeys p key)
    (by decide) fun _ h => .inr h) (hfresh.mono (by decide) fun _ h => .inl h)
  rw [hclx] at hucnt
  generalize (s.clLost p).clFresh p = v at *
  refine ⟨_, hexec, hzero, hport, ?_, ?_, ?_, hframe.setClx _ (by decide)⟩
  · exact congrArg (fun n => (n + 1) % 64) hucnt
  · rw [State.setClx_rd, hkept]; exact hraised
  · exact (hother _ (other_ne hp)).trans (State.clp_of_clx hclx _)

/-! ## Retrain (R402) -/

theorem State.clRetrainStart_spec {s : State} {p : Nat}
    (hroom : s.rd F.CLX_PORT_RPL_RETRAINS p + 1 < 2 ^ F.CLX_PORT_RPL_RETRAINS.width) (hp : p < 2) :
    (s.clRetrainStart p).clState p = 6 ∧
      (s.clRetrainStart p).rd F.CLX_PORT_RPL_RETRAINS p = s.rd F.CLX_PORT_RPL_RETRAINS p + 1 ∧
      (s.clRetrainStart p).clx = s.clx ∧
      Frame [.evt] (fun key => key = F.CLX_PORT_STS_STATE.key p 0 ∨ key = F.CLX_PORT_RPL_RETRAINS.key p 0) s
        (s.clRetrainStart p) := by
  have hbump := State.bump_frame (s.wrI F.CLX_PORT_STS_STATE p 6) F.CLX_PORT_RPL_RETRAINS p 0 1 none false (by decide)
  have hkept : (s.wrI F.CLX_PORT_STS_STATE p 6).rd F.CLX_PORT_RPL_RETRAINS p = s.rd F.CLX_PORT_RPL_RETRAINS p :=
    State.rd_wrI_apart _ _ _ _ (by decide)
  refine ⟨?state, ?count, hbump.1 .clx (by decide), ?frame⟩
  case state =>
    exact (State.rd_bump_ne _ _ _ _ _ _ _ _ _ _ (by decide) (Fld.key_ne_of_place (by decide)) (portRegs_outside p hp _ (by decide))).trans
      (State.clState_written s p (by decide))
  case count =>
    rw [State.clRetrainStart, State.rd_bump_same _ _ _ _ _ _ _ (by decide) (portRegs_outside p hp _ (by decide)) (by rw [hkept]; exact hroom), hkept]
  case frame =>
    exact Frame.trans ((Frame.refl _ _ s).wrI _ _ _ (.inl (.inl rfl))) (hbump.mono (by decide) fun _ h => .inr h)

/-- The port is ACTIVE again: no replay is counted, and it leaves its low-power substate. -/
def State.portBack (s : State) (p : Nat) : State :=
  let s1 := s.wrI F.CLX_PORT_STS_STATE p 5
  s1.setClp p { s1.clp p with tries := 0, low := false }

theorem State.portBack_spec {s : State} {p : Nat} (hp : p < s.clx.ports.length) :
    (s.portBack p).clState p = 5 ∧ (s.portBack p).clp p = { s.clp p with tries := 0, low := false } ∧
      (s.portBack p).clx.ports.length = s.clx.ports.length ∧
      Frame [.clx] (fun key => key = F.CLX_PORT_STS_STATE.key p 0) s (s.portBack p) :=
  ⟨(State.setClp_rd ..).trans (State.clState_written s p (by decide)), State.clp_setClp_same _ _ hp, List.length_set ..,
    ((Frame.refl [.clx] (fun key => key = F.CLX_PORT_STS_STATE.key p 0) s).wrI _ _ _ (.inl rfl)).setClp p _ (by decide)⟩

/-- A port with nothing queued sends nothing. -/
theorem State.pump_idle {s : State} {p : Nat} (hp : p < s.clx.ports.length) (hpass : (s.clp p).pass = [])
    (horig : (s.clp p).orig = []) : (s.pump p).clp p = s.clp p ∧ Frame [.clx] (fun _ => False) s (s.pump p) := by
  rw [State.pump]
  split
  · have hgather : ClPort.gather ((s.clp p).pass.length + (s.clp p).orig.length) (7 * (768 - (s.clp p).replay.length))
        (s.clp p) [] = (s.clp p, []) := by rw [hpass, horig]; rfl
    simp only [hgather]
    exact ⟨State.clp_setClp_same s _ hp, (Frame.refl _ _ s).setClp p _ (by decide)⟩
  · exact ⟨rfl, Frame.refl _ _ s⟩

/-- A retrain that ends with no lane failing and nothing queued. -/
theorem State.clRetrainDone_spec {s : State} {p w : Nat} {lanes : BitVec 9} (hp : p < 2) (hworks : s.clWorks p = true)
    (hlen : s.clx.ports.length = 2) (hstate : s.clState p = 6) (hfailed : s.clFailed p = 0)
    (hlanes : (s.clp p).lanes = lanes) (hchosen : (chooseLanes lanes.toNat w).1 ≠ 0) (hreplay : (s.clp p).replay = [])
    (hpass : (s.clp p).pass = []) (horig : (s.clp p).orig = []) :
    ∃ t, execClRetrainDone p lanes w s = .next t ∧ t.clState p = 5 ∧
      t.rd F.CLX_PORT_STS_WIDTH p = (chooseLanes lanes.toNat w).1 ∧ (t.clp p).tries = 0 ∧ t.out = s.out ∧
      Frame [.clx, .evt] (fun key => key = F.CLX_PORT_STS_STATE.key p 0 ∨ LaneKeys p key) s t := by
  obtain ⟨u, htrain, hwidth, hport, hports, hframe⟩ :=
    State.trainLanes_spec (hlen ▸ hp : p < s.clx.ports.length) hfailed hlanes w
  have hpu : p < u.clx.ports.length := by rw [hports, hlen]; exact hp
  obtain ⟨hback, hbackport, hbacklen, hbackframe⟩ := State.portBack_spec hpu
  have hempty : ((u.portBack p).clp p).replay = [] ∧ ((u.portBack p).clp p).pass = [] ∧
      ((u.portBack p).clp p).orig = [] := by rw [hbackport, hport]; exact ⟨hreplay, hpass, horig⟩
  obtain ⟨hpump, hpumpframe⟩ := State.pump_idle (hbacklen ▸ hpu) hempty.2.1 hempty.2.2
  have hexec : execClRetrainDone p lanes w s = .next ((u.portBack p).pump p) := by
    refine (next_of_pos ⟨hworks, hstate⟩).trans ?_
    rw [htrain]
    refine (next_of_neg hchosen).trans (congrArg Host.Outcome.next ?_)
    show (match ((u.portBack p).clp p).replay with
      | e :: _ => ((u.portBack p).startReplay p e.1).pump p
      | [] => (u.portBack p).pump p) = _
    rw [hempty.1]
  have hframes := ((hframe.mono (L := fun key => key = F.CLX_PORT_STS_STATE.key p 0 ∨ LaneKeys p key) (fun _ h => h)
    fun _ h => .inr h).trans (hbackframe.mono (by decide) fun _ h => .inl h)).trans
      (hpumpframe.mono (by decide) fun _ h => h.elim)
  generalize hv : (u.portBack p).pump p = v at *
  refine ⟨v, hexec, ?_, ?_, ?_, hframes.1 .out (by decide), hframes⟩
  · exact (hpumpframe.rd _ _ _ (fun h => h) (portRegs_outside p hp _ (by decide))).trans hback
  · refine (hpumpframe.rd _ _ _ (fun h => h) (portRegs_outside p hp _ (by decide))).trans
      ((hbackframe.rd _ _ _ (Fld.key_ne_of_place (by decide)) (portRegs_outside p hp _ (by decide))).trans hwidth)
  · rw [hpump, hbackport]

/-- A path whose access reaches a page while no integrity halt is in force orders the command there. -/
theorem State.viaPath_of_open {s : State} {path : Path} {blk page : Nat} {may : Bool}
    (hreach : s.reaches path blk page = true) (hblk : blk = 3) (hmay : may = true) (f : State → State) :
    s.viaPath path blk page may f = f s := by
  have hhalt : s.cry.halt = 0 := by
    subst hblk
    by_contra hh
    cases path with
    | cores => simp [State.reaches, hh] at hreach
    | sideband => simp [State.reaches, hh] at hreach
    | ld h l => simp [State.reaches, hh] at hreach
  have hwrite : s.writeReaches path blk page = true := by simp [State.writeReaches, hreach, hhalt]
  rw [State.viaPath, if_pos hwrite, if_pos hmay]

/-- Settles O44: each command of a port state does what its function of the port says, and the frames are those of the
registers and the port it writes. -/
theorem chainPortStates : Obligations.ChainPortStates := by
  unfold Obligations.ChainPortStates
  refine ⟨?down, ?detect, ?train, ?sync, ?timeout, ?lost, ?dead, ?retrained, ?retrain, ?mark, ?enable, ?low⟩
  case down =>
    intro s p hp hworks hlen hstate hen
    exact ⟨_, next_of_pos ⟨hworks, hstate, by simp [State.rdb, hen]⟩, State.clState_written s p (by decide),
      (Frame.refl _ _ s).wrI _ _ _ (.inl rfl)⟩
  case detect =>
    intro s p lanes hp hworks hlen hstate hlanes
    refine ⟨_, next_of_pos ⟨hworks, hstate, hlanes⟩, State.clState_written _ p (by decide),
      State.clp_setClp_same s _ (hlen ▸ hp), State.clp_setClp_ne s _ (other_ne hp), ?_⟩
    exact ((Frame.refl _ _ s).setClp p _ (by decide)).wrI _ _ _ (.inl rfl)
  case train =>
    intro s p lanes w hp hworks hlen hstate hfailed hlanes hchosen
    obtain ⟨u, htrain, hwidth, hport, -, hframe⟩ :=
      State.trainLanes_spec (hlen ▸ hp : p < s.clx.ports.length) hfailed hlanes w
    have hexec : exec (.clTrainLock p lanes w) s = .next (u.wrI F.CLX_PORT_STS_STATE p 3) := by
      refine (next_of_pos ⟨hworks, hstate⟩).trans ?_
      rw [htrain]
      exact next_of_neg hchosen
    refine ⟨_, hexec, State.clState_written _ p (by decide), ?_, ?_, ?_, ?_⟩
    · rw [State.rd_wrI_apart _ _ _ _ (by decide), hwidth]
    · exact (congrArg (fun x => x.lanes.toNat) hport).trans (BitVec.toNat_ofNat ..)
    · rw [State.clFailed, State.rd_wrI_apart _ _ _ _ (by decide)]
      exact (hframe.rd _ _ _ (not_or.2 ⟨Fld.key_ne_of_place (by decide), Fld.key_ne_of_place (by decide)⟩)
        (portRegs_outside p hp _ (by decide))).trans hfailed
    · exact (hframe.mono (fun _ h => h) fun _ h => .inr h).wrI _ _ _ (.inl (.inl rfl))
  case sync =>
    intro s p hp hworks hlen hstate
    exact ⟨_, next_of_pos ⟨hworks, hstate⟩, State.clState_written s p (by decide), (Frame.refl _ _ s).wrI _ _ _ (.inl rfl)⟩
  case timeout =>
    intro s p hp hworks hlen hstate
    have hup : s.clUp p = false := by simp only [State.clUp, decide_eq_false_iff_not]; omega
    obtain ⟨hzero, hport, hother, -, hframe⟩ := s.clFresh_spec (hlen ▸ hp : p < s.clx.ports.length)
    exact ⟨_, (next_of_pos ⟨hworks, hstate⟩).trans (congrArg Host.Outcome.next (State.clDown_of_not_up hup)), hzero, hport,
      hother _ (other_ne hp), hframe⟩
  case lost =>
    intro s p hp hworks hlen hstate hroom
    exact ⟨_, next_of_pos ⟨hworks, by simp [State.clActive, hstate]⟩, State.clRetrainStart_spec hroom hp⟩
  case dead =>
    intro s p hp hworks hlen hstate hid
    obtain ⟨t, hexec, hzero, hport, hucnt, hraised, hother, hframe⟩ := State.clLinkDown_spec hp hworks hlen hstate hid
    exact ⟨t, hexec, hzero, hport, hucnt, hraised, hother,
      hframe.mono (fun _ h => h) fun _ h => by simpa only [FreshKeys, LostKeys, or_assoc] using h⟩
  case retrained =>
    intro s p lanes w hp hworks hlen hstate hfailed hlanes hchosen hreplay hpass horig
    exact State.clRetrainDone_spec hp hworks hlen hstate hfailed hlanes hchosen hreplay hpass horig
  case retrain =>
    intro s p hp hworks hlen hreach hstate hroom
    have hexec : exec (.clRetrain .cores p) s = .next (s.clRetrainStart p) := by
      refine (next_of_pos hp).trans (congrArg Host.Outcome.next ?_)
      rw [State.viaPath_of_open hreach rfl (by rfl)]
      exact if_pos ⟨hworks, by simp [State.clActive, hstate]⟩
    exact ⟨_, hexec, State.clRetrainStart_spec hroom hp⟩
  case mark =>
    intro s p lanes hp hreach hlt
    obtain ⟨hbits, hframe⟩ := State.foldl_markLane_spec (bitList 9 lanes.toNat) s (fun i hi => (mem_bitList.1 hi).1) hlt
    have hexec : exec (.clMark .cores p lanes) s =
        .next ((bitList 9 lanes.toNat).foldl (fun s l => s.markLane p l) s) := by
      refine (next_of_pos hp).trans (congrArg Host.Outcome.next ?_)
      rw [State.viaPath_of_open hreach rfl (by rfl)]
    refine ⟨_, hexec, ?_, hframe⟩
    refine Nat.eq_of_testBit_eq fun i => ?_
    rw [hbits, Nat.testBit_or]
    congr 1
    have hbit : lanes.toNat.testBit i = true → i < 9 := fun h => by
      by_contra hi
      rw [Nat.testBit_lt_two_pow (Nat.lt_of_lt_of_le lanes.isLt (Nat.pow_le_pow_right (by decide) (Nat.not_lt.1 hi)))] at h
      cases h
    by_cases hset : lanes.toNat.testBit i = true
    · simp [hset, mem_bitList, hbit hset]
    · simp [hset, mem_bitList]
  case enable =>
    intro s path p on hp hreach hmay hstays
    have hkept : (s.wrb F.CLX_PORT_CTL_ENABLE p on).clState p = s.clState p := State.rd_wrI_apart _ _ _ _ (by decide)
    have hexec : exec (.clPortEnable path p on) s = .next (s.wrb F.CLX_PORT_CTL_ENABLE p on) := by
      refine (next_of_pos hp).trans (congrArg Host.Outcome.next ?_)
      rw [State.viaPath_of_open hreach rfl hmay]
      exact if_pos (by rwa [hkept])
    refine ⟨_, hexec, ?_, hkept, (Frame.refl _ _ s).wrb _ _ _ (.inl rfl)⟩
    exact (State.rd_wrI_same _ _ _ _).trans (by cases on <;> rfl)
  case low =>
    intro s p hp hcur hstate hlen
    exact ⟨_, next_of_pos ⟨hp, hcur, by simp [State.clActive, hstate]⟩, State.clp_setClp_same s _ (hlen ▸ hp),
      State.clp_setClp_ne s _ (other_ne hp), (Frame.refl _ _ s).setClp p _ (by decide)⟩

end Sys2Proof.Machine
end

section
/-!
PROOFS of O53: a far read waits behind an unconfirmed far write of its line.
-/
namespace Sys2Proof.Machine
open Sys2Proof.Safety

/-! ## What sending leaves of the far requests -/

theorem foldl_reqs {α : Type} (l : List α) (g : State → α → State) (h : ∀ t a, (g t a).clx.reqs = t.clx.reqs)
    (s : State) : (l.foldl g s).clx.reqs = s.clx.reqs := by
  induction l generalizing s with
  | nil => rfl
  | cons a l ih => rw [List.foldl_cons, ih, h]

theorem State.reqs_pump (s : State) (p : Nat) : (s.pump p).clx.reqs = s.clx.reqs := by
  rw [State.pump]
  split
  · exact foldl_reqs _ (fun s _ => s.sendData p _ _) (fun _ _ => rfl) _
  · rfl

theorem State.reqs_originate (s : State) (p : Nat) (m : Msg) : (s.originate p m).clx.reqs = s.clx.reqs := by
  rw [State.originate]
  split
  · exact State.reqs_pump _ _
  · exact congrArg Clx.reqs ((State.bump_frame s F.CLX_PORT_DROP_DEAD p 0 1 none false (by decide)).1 .clx (by decide))

theorem State.reqs_sendMsg (s : State) (m : Msg) : (s.sendMsg m).clx.reqs = s.clx.reqs := by
  rw [State.sendMsg]
  split
  · exact State.reqs_originate s 0 m
  · split
    · exact State.reqs_originate s 1 m
    · rfl

theorem State.reqs_startSync (s : State) (h : Nat) : (s.startSync h).clx.reqs = s.clx.reqs := by
  rw [State.startSync]
  split
  · rfl
  · exact State.reqs_sendMsg _ _

/-- A far request that goes out for the first time. -/
def FarOut.underway (f : FarOut) (tag port seq : Nat) : FarOut := { f with sent := true, tag := tag, port := port, seq := seq }

/-- A request that goes out is replaced by itself as sent. -/
theorem State.reqs_farSend (s : State) (f : FarOut) : (s.farSend f).clx.reqs = s.clx.reqs.map
    (fun g => if g.id = f.id then f.underway s.freshTag (s.route f.home) (s.rd F.CLX_PEER_TX_NEXT f.home) else g) := by
  rw [State.farSend, State.reqs_sendMsg]
  split <;> rfl

/-! ## A read behind a write (R422) -/

/-- A read f waits, and a write g to its line stands before it, sent or not. -/
def Behind (f g : FarOut) (reqs : List FarOut) : Prop :=
  f ∈ reqs ∧ ∃ g' ∈ reqs, g'.id = g.id ∧ g'.req = g.req ∧ g'.home = g.home ∧ g'.slot = g.slot ∧ g'.line = g.line

/-- Another request going out leaves the read behind the write. -/
theorem Behind.sent {f g h : FarOut} {reqs : List FarOut} (hb : Behind f g reqs) (hf : h.id ≠ f.id)
    (hg : h.id = g.id → h = g) (tag port seq : Nat) :
    Behind f g (reqs.map (fun x => if x.id = h.id then h.underway tag port seq else x)) := by
  obtain ⟨hmem, g', hg', hid, hsame⟩ := hb
  refine ⟨List.mem_map.2 ⟨f, hmem, if_neg (Ne.symm hf)⟩, _, List.mem_map_of_mem hg', ?_⟩
  split
  next heq =>
    obtain rfl : h = g := hg (heq.symm.trans hid)
    exact ⟨rfl, rfl, rfl, rfl, rfl⟩
  next => exact ⟨hid, hsame⟩

/-- A read behind an unconfirmed write to its line may not go. -/
theorem State.farMay_behind {s : State} {f g : FarOut} (hb : Behind f g s.clx.reqs) (hread : f.isWrite = false)
    (hwrite : g.isWrite = true) (hhome : g.home = f.home) (hslot : g.slot = f.slot) (hline : g.line = f.line)
    (hid : g.id < f.id) : s.farMay f = false := by
  obtain ⟨-, g', hg', hid', hreq, hhome', hslot', hline'⟩ := hb
  have hw : g'.isWrite = true := by rw [FarOut.isWrite, hreq]; exact hwrite
  have hbehind : ∃ x ∈ s.clx.reqs, x.isWrite = true ∧ x.home = f.home ∧ x.slot = f.slot ∧ x.line = f.line ∧ x.id < f.id :=
    ⟨g', hg', hw, hhome'.trans hhome, hslot'.trans hslot, hline'.trans hline, hid' ▸ hid⟩
  simpa [State.farMay, hread] using fun _ _ _ => hbehind

/-- What the pump does with one waiting request. -/
def State.farTry (s : State) (f : FarOut) : State :=
  if s.farMay f then s.farSend f
  else if f.isWrite ∧ s.rdb F.CLX_PEER_TX_SYNCED f.home = false ∧ (s.route f.home = 1 ∨ s.route f.home = 2)
    then s.startSync f.home
  else s

theorem Behind.farTry {s : State} {f g : FarOut} (hb : Behind f g s.clx.reqs) (hread : f.isWrite = false)
    (hwrite : g.isWrite = true) (hhome : g.home = f.home) (hslot : g.slot = f.slot) (hline : g.line = f.line)
    (hid : g.id < f.id) {h : FarOut} (hf : h.id = f.id → h = f) (hg : h.id = g.id → h = g) :
    Behind f g (s.farTry h).clx.reqs := by
  rw [State.farTry]
  split
  next hmay =>
    have hne : h.id ≠ f.id := fun heq => by
      rw [hf heq, State.farMay_behind hb hread hwrite hhome hslot hline hid] at hmay
      cases hmay
    rw [State.reqs_farSend]
    exact hb.sent hne hg _ _ _
  next =>
    split
    · rw [State.reqs_startSync]; exact hb
    · exact hb

theorem Behind.foldl_farTry {f g : FarOut} (hread : f.isWrite = false) (hwrite : g.isWrite = true)
    (hhome : g.home = f.home) (hslot : g.slot = f.slot) (hline : g.line = f.line) (hid : g.id < f.id)
    (l : List FarOut) (s : State) (hb : Behind f g s.clx.reqs) (hl : ∀ h ∈ l, (h.id = f.id → h = f) ∧ (h.id = g.id → h = g)) :
    Behind f g (l.foldl State.farTry s).clx.reqs := by
  induction l generalizing s with
  | nil => exact hb
  | cons h l ih =>
    obtain ⟨hf, hg⟩ := hl h List.mem_cons_self
    exact ih _ (hb.farTry hread hwrite hhome hslot hline hid hf hg) fun x hx => hl x (List.mem_cons_of_mem _ hx)

/-- Settles O53: as long as the write stands before it, the read is passed over; without one, its other conditions let it
go. -/
theorem farReadWaits : Obligations.FarReadWaits := by
  unfold Obligations.FarReadWaits
  refine ⟨?waits, ?goes⟩
  case waits =>
    intro s f g hids hf hsent hread hg hwrite hhome hslot hline hid
    have hsame : ∀ x ∈ s.clx.reqs, ∀ y ∈ s.clx.reqs, x.id = y.id → x = y :=
      fun x hx y hy h => List.inj_on_of_nodup_map hids hx hy h
    exact (Behind.foldl_farTry hread hwrite hhome hslot hline hid _ s ⟨hf, g, hg, rfl, rfl, rfl, rfl, rfl⟩
      fun h hh => ⟨hsame h (List.mem_of_mem_filter hh) f hf, hsame h (List.mem_of_mem_filter hh) g hg⟩).1
  case goes =>
    intro s f hread hnone hroute hheld hcount
    have hclear : ∀ x ∈ s.clx.reqs, x.isWrite = true → x.home = f.home → x.slot = f.slot → x.line = f.line →
        f.id ≤ x.id := fun x hx hw hh hs hl => Nat.not_lt.1 fun hlt => hnone x hx hw ⟨hh, hs, hl, hlt⟩
    simpa [State.farMay, hread, hroute, hheld, hcount] using hclear

end Sys2Proof.Machine
end

section
/-!
PROOFS of the negation of O30: a raise whose destinations the tick's own counting changes.
-/
namespace Sys2Proof.Machine
open Sys2Proof.Safety

/-! ## A raise for a stray head

The clause does not bound the heads that a raise names. The region mask of head 767 stands where counter 1 of EVT's PMU
stands, and this counter may count the deliveries of a source: the raise reaches no LD before the tick counts it, and one
after. -/

/-- A raise of source 83 (NOTICE, to the cores) that concerns region 0 and head 767. -/
def strayRaise : Raise :=
  { src := 83, blk := 5, page := 0, bits := 8, region := some 0, queue := none, heads := [(767, none)] }

/-- Out of reset, with the raise held, PMU counter 1 of EVT on the deliveries of its source, two of them counted, and the
source enabled for the LD. -/
def strayTicking : State :=
  let s := ((unitUp.wrAt F.PMU_SEL_CODE 13 1 (rcCode F.EVT_SRC_COUNT 83)).wrAt F.PMU_CNT_COUNT 13 1 2).wrAt
    F.EVT_LD_EN_SRC (hl 767 0) 1 (2 ^ 19)
  s.setEvt { s.evt with raises := [strayRaise] }

/-- The register of pending sources of LD 0 of head 767. -/
def strayPending : Nat := F.EVT_LD_PEND_SRC.key (hl 767 0) 1

/-- It lies beyond EVT's registers, and the PMU's. -/
theorem strayPending_outside : ¬ InBlock 13 strayPending ∧ ¬ InBlock 14 strayPending := by decide

/-- The tick delivers the raise to the LD. -/
theorem eventTick_marks_strayPending :
    regAfter .eventTick strayTicking strayPending ≠ mget strayTicking.regs strayPending := by
  decide +kernel

/-- Refutes O30: EVENT_TICK in strayTicking delivers to an LD that the raise did not concern before the tick counted it. The
clause of the delivery to the cores lacks a bound on the heads that the raise names. -/
theorem not_events : ¬ Obligations.Events := by
  unfold Obligations.Events
  rintro ⟨-, hcores, -⟩
  obtain ⟨t, hexec, -, -, -, -, -, -, hframe⟩ := hcores strayTicking strayRaise (by decide +kernel) rfl rfl
    (by decide +kernel) rfl
    (by decide) (by decide) (by decide) (by decide +kernel) rfl (by decide +kernel) (by decide +kernel)
  obtain ⟨hevt, hpmu⟩ := strayPending_outside
  exact not_frame_of_regAfter_ne hexec eventTick_marks_strayPending hevt hpmu hframe

end Sys2Proof.Machine
end

section
/-!
PROOFS of O29: the firmware commands, attestation, the keys of IDE, and an Avsar command in a session.
-/
namespace Sys2Proof.Machine
open Sys2Proof.Safety

/-! ## The commands that the ROM's mailbox serves too -/

theorem State.recovery_eq_false {s : State} (h : s.rd F.CTL_HEALTH_STATE ≠ 4) : s.recovery = false := decide_eq_false h

/-- Outside recovery a command that the ROM serves goes through the LD's mailbox. -/
theorem State.romCommand_served {s : State} {h l : Nat} (hr : MboxReady s (.ld h l) .free)
    (hhealth : s.rd F.CTL_HEALTH_STATE ≠ 4) {op : Nat} {f : State → State × Nat × List Byte} {t : State} {rc : Nat}
    {out : List Byte} (hf : f s = (t, rc, out)) : s.romCommand h l op f = t.reply (.ld h l) op rc out := by
  have hrom : s.romMailbox h l = false := by simp [State.romMailbox, State.recovery_eq_false hhealth]
  rw [State.romCommand, if_neg (by simp [hrom])]
  exact State.cxlCommand_served hr hf

theorem State.fwLacks_eq_false {s : State} {h l : Nat} (hfm : s.srcHas (.ld h l) F.HLX_HEAD_PERM_FM = true) :
    s.fwLacks h l = false := by simp [State.fwLacks, hfm]

/-! ## Flash (R447, R451) -/

theorem length_descBytes (d : Desc) : d.bytes.length = 64 := by
  simp [Desc.bytes, length_leBytes]

/-- Bytes that have just been written to flash read back. -/
theorem State.flash_written (s : State) (m : List Host.Cell) (a : Nat) (bs : List Byte) :
    (s.setCtl { s.ctl with flash := memWrite 0xff m a bs }).flash a bs.length = bs :=
  (memReadN_memWrite 0xff m a bs 0 bs.length (Nat.le_of_eq (Nat.zero_add _))).trans (List.take_length ..)

theorem State.ctl_reply (s : State) (src : MboxSrc) (op rc : Nat) (out : List Byte) : (s.reply src op rc out).ctl = s.ctl := by
  rw [State.reply_eq]

theorem State.flash_of_ctl {s t : State} (h : t.ctl = s.ctl) (a n : Nat) : t.flash a n = s.flash a n := by
  rw [State.flash, State.flash, h]

/-- The first part of a transfer, outside recovery: the copy is erased and the part stands at its first byte. -/
def State.firstPart (s : State) (h l slot : Nat) (data : List Byte) : State :=
  let a := copyBase (slot - 1)
  let s1 := s.setCtl { s.ctl with
    flash := memWrite 0xff (s.ctl.flash.filter (fun c => decide (c.1 < a ∨ a + 0x800000 ≤ c.1))) a data }
  s1.setCtl { s1.ctl with xfer := some { slot := slot, next := data.length, h := h, l := l, whole := false } }

theorem execTransferFw_first {s : State} {h l fwSlot : Nat} {data : List Byte} (hr : MboxReady s (.ld h l) .free)
    (hhealth : s.rd F.CTL_HEALTH_STATE ≠ 4) (hfm : s.srcHas (.ld h l) F.HLX_HEAD_PERM_FM = true)
    (hslot : fwSlot = 1 ∨ fwSlot = 2) (hother : fwSlot ≠ s.activeSlot) (hnone : s.ctl.xfer = none) (hdata : data ≠ [])
    (hlen : data.length ≤ xferBytes) :
    execTransferFw h l fwSlot 0 data false s = .next ((s.firstPart h l fwSlot data).reply (.ld h l) 0x0201 rcSuccess []) := by
  have hsize : xferBytes = 3968 := rfl
  refine congrArg Host.Outcome.next (State.romCommand_served hr hhealth ?_)
  dsimp only
  rw [if_neg (by simp [State.fwLacks_eq_false hfm]), if_neg (by omega), hnone, if_neg (by simp),
    if_neg (by simp [State.fwInOrder]), if_neg (by simp [hdata]; omega)]
  simp [State.fwPart, State.recovery_eq_false hhealth, State.firstPart]

theorem State.firstPart_spec (s : State) (h l slot : Nat) (data : List Byte) :
    (s.firstPart h l slot data).flash (copyBase (slot - 1)) data.length = data ∧
      (s.firstPart h l slot data).ctl.xfer = some { slot := slot, next := data.length, h := h, l := l, whole := false } ∧
      Frame [.ctl] (fun _ => False) s (s.firstPart h l slot data) :=
  ⟨s.flash_written _ _ _, rfl, ((Frame.refl _ _ s).setCtl _ (by decide)).setCtl _ (by decide)⟩

theorem State.writeDesc_spec (s : State) (prefer : Nat) (trial tried : Bool) :
    (s.writeDesc prefer trial tried).flash (65536 * (1 - s.descNow.1)) 64 =
        ({ seq := (s.descNow.2.seq + 1) % 2 ^ 32, prefer := prefer, trial := trial, tried := tried } : Desc).bytes ∧
      Frame [.ctl] (fun _ => False) s (s.writeDesc prefer trial tried) := by
  refine ⟨?_, (Frame.refl _ _ s).setCtl _ (by decide)⟩
  have hread := s.flash_written (s.ctl.flash.filter (fun c => decide (c.1 < 65536 * (1 - s.descNow.1) ∨
    65536 * (1 - s.descNow.1) + 65536 ≤ c.1))) (65536 * (1 - s.descNow.1))
    ({ seq := (s.descNow.2.seq + 1) % 2 ^ 32, prefer := prefer, trial := trial, tried := tried } : Desc).bytes
  rw [length_descBytes] at hread
  exact hread

/-! ## The end of a transfer -/

/-- The only background command completes. -/
theorem State.bgDone_only {s : State} {src : MboxSrc} {op arg : Nat} (h : s.ctl.background = [BgOp.mk src op arg])
    (rc : Nat) (out : List Byte) :
    s.bgDone op arg rc out = (s.setCtl { s.ctl with background := [] }).reply src op rc out := by
  simp [State.bgDone, h, State.setCtl]

/-- The state in which a transfer has been checked and its command has completed. -/
def State.xferEnded (s : State) : State := s.setCtl { s.ctl with xfer := none, background := [] }

theorem execTransferFwDone_eq {s : State} {x : FwXfer} {src : MboxSrc} (readErr : Bool) (hxfer : s.ctl.xfer = some x)
    (hwhole : x.whole = true) (hheld : s.aon.held = false) (hoff : s.aon.off = 0) (hhealth : s.rd F.CTL_HEALTH_STATE ≠ 4)
    (hback : s.ctl.background = [BgOp.mk src 0x0201 x.slot]) :
    execTransferFwDone readErr s = .next (s.xferEnded.reply src 0x0201
      (if s.checkFlash (x.slot - 1) readErr = 0 then rcSuccess else rcFwAuth) []) := by
  have hrec := State.recovery_eq_false hhealth
  have hrun : ¬ (!x.whole ∨ s.inReset = true) := by simp [hwhole, State.inReset, hheld, hoff]
  have hcheck : s.checkXfer x.slot readErr = s.checkFlash (x.slot - 1) readErr := if_neg (by simp [hrec])
  have hback1 : (s.setCtl { s.ctl with xfer := none }).ctl.background = [BgOp.mk src 0x0201 x.slot] := hback
  unfold execTransferFwDone
  rw [hxfer]
  refine (next_of_neg hrun).trans (congrArg Host.Outcome.next ?_)
  dsimp only
  rw [if_neg (fun h => absurd h.2 (by simp [hrec])), State.bgDone_only hback1, hcheck]
  simp only [State.xferEnded, State.setCtl]

/-! ## Attestation -/

/-- A request of the DOE mailbox in P0 with no entry under way. -/
theorem State.spdmMessage_ready {s : State} {h l : Nat} (hcur : s.rd F.AON_PWR_MODE_CUR = 0) (hst : s.aon.entry.stage = 0)
    (hup : s.mboxUp (.ld h l) = true) (msg : SpdmMsg) : execSpdmMessage h l msg s = .next (s.spdm h l msg) := by
  simp only [execSpdmMessage, s.knock_of_idle 1 hcur hst, if_pos hup]

theorem State.avsarOf_low {s : State} {src : MboxSrc} {opcode : Nat} {p : List Byte} (h : opcode < 0xc000) :
    s.avsarOf src opcode p = none := by
  rw [State.avsarOf] <;> omega

/-! ## The keys of IDE (R159) -/

/-- A message on one of the three streams of a port in P0 with no entry under way. -/
theorem execIdeKmMessage_ready {s : State} {port : Nat} (hcur : s.rd F.AON_PWR_MODE_CUR = 0) (hst : s.aon.entry.stage = 0)
    (hup : s.mboxUp (.ld port 0) = true) {stream : Nat} (hstream : stream < 3) :
    (∀ rx k, execIdeKmMessage port (.keyProg stream rx k) s = .next ((s.setCry { s.cry with
        ide := mput s.cry.ide port (mput ((mget s.cry.ide port).getD []) (ideKey stream rx) k) }).spdmAnswer port 0 0 [])) ∧
      ∀ rx, (mget ((mget s.cry.ide port).getD []) (ideKey stream rx)).isSome = true →
        execIdeKmMessage port (.setGo stream rx) s = .next ((s.setIde port stream true).spdmAnswer port 0 0 []) := by
  have hin : ¬ ideStreams ≤ stream := Nat.not_le.2 hstream
  refine ⟨fun rx k => ?_, fun rx hkey => ?_⟩
  · simp [execIdeKmMessage, s.knock_of_idle 1 hcur hst, hup, ideStream, hin]
  · simp [execIdeKmMessage, s.knock_of_idle 1 hcur hst, hup, ideStream, hin, hkey]

/-- A stream that goes is active, and its port says so. -/
theorem State.setIde_go (s : State) (n stream : Nat) :
    (s.setIde n stream true).rd F.HLX_PORT_STS_IDE n = 1 ∧ (s.setIde n stream true).cry.ide = s.cry.ide ∧
      Frame [.cry] (fun key => key = F.HLX_PORT_STS_IDE.key n 0) s (s.setIde n stream true) := by
  refine ⟨?_, rfl, ((Frame.refl _ _ s).setCry _ (by decide)).wrb _ _ _ (.inl rfl)⟩
  exact (State.rd_wrI_same _ _ _ _).trans (by simp [b2n, show 0 < F.HLX_PORT_STS_IDE.width by decide])

/-- Settles O29: the firmware commands through the mailbox that serves them, the requests of the DOE mailbox, the keys of
IDE, and an Avsar command through a session. -/
theorem firmwareCommands : Obligations.FirmwareCommands := by
  unfold Obligations.FirmwareCommands
  refine ⟨?identify, ?info, ?part, ?checked, ?activate, ?version, ?table, ?session, ?ended, ?key, ?go, ?avsar, ?unknown⟩
  case identify =>
    intro s h l hcur hst hup hfree hhealth
    have hrec := State.recovery_eq_false hhealth
    refine ⟨_, congrArg Host.Outcome.next (State.romCommand_served ⟨hcur, hst, hup, hfree, rfl⟩ hhealth rfl), ?_,
      (Frame.refl _ _ s).reply _ _ _ _ (by decide) (by decide)⟩
    simp only [hrec]
    exact State.answered_reply rfl rfl _ _ _ _
  case info =>
    intro s h l hcur hst hup hfree hhealth hfm
    refine ⟨_, congrArg Host.Outcome.next (State.romCommand_served ⟨hcur, hst, hup, hfree, rfl⟩ hhealth
      (if_neg (by simp [State.fwLacks_eq_false hfm]))), State.answered_reply rfl rfl _ _ _ _,
      (Frame.refl _ _ s).reply _ _ _ _ (by decide) (by decide)⟩
  case part =>
    intro s h l fwSlot data hcur hst hup hfree hhealth hfm hslot hother hnone hdata hlen
    obtain ⟨hflash, hxfer, hframe⟩ := s.firstPart_spec h l fwSlot data
    obtain ⟨hans, hall⟩ := served_of_frame hframe (by decide) (by decide) (.ld h l) 0x0201 rcSuccess []
    have hexec := execTransferFw_first ⟨hcur, hst, hup, hfree, rfl⟩ hhealth hfm hslot hother hnone hdata hlen
    have hctl := (s.firstPart h l fwSlot data).ctl_reply (.ld h l) 0x0201 rcSuccess []
    exact ⟨_, hexec, (State.flash_of_ctl hctl _ _).trans hflash, (congrArg Ctl.xfer hctl).trans hxfer, hans, hall⟩
  case checked =>
    intro s readErr x src hxfer hwhole hheld hoff hhealth hback
    obtain ⟨hans, hall⟩ := served_of_frame (s := s) (t := s.xferEnded) (P := [.ctl]) (K := fun _ => False)
      ((Frame.refl _ _ s).setCtl _ (by decide)) (by decide) (by decide) src 0x0201
      (if s.checkFlash (x.slot - 1) readErr = 0 then rcSuccess else rcFwAuth) []
    have hexec := execTransferFwDone_eq readErr hxfer hwhole hheld hoff hhealth hback
    have hctl := s.xferEnded.ctl_reply src 0x0201 (if s.checkFlash (x.slot - 1) readErr = 0 then rcSuccess else rcFwAuth) []
    exact ⟨_, hexec, congrArg Ctl.xfer hctl, congrArg Ctl.background hctl, (congrArg Ctl.flash hctl :), hans, hall⟩
  case activate =>
    intro s h l fwSlot hcur hst hup hfree hhealth hfm hslot
    have hexec : exec (.activateFw h l fwSlot false) s =
        .next ((s.writeDesc (fwSlot - 1) true false).reply (.ld h l) 0x0202 rcSuccess []) := by
      refine congrArg Host.Outcome.next (State.cxlCommand_served ⟨hcur, hst, hup, hfree, rfl⟩ ?_)
      rw [if_neg (by simp [State.fwLacks_eq_false hfm]), if_neg (by omega)]
    obtain ⟨hflash, hframe⟩ := s.writeDesc_spec (fwSlot - 1) true false
    obtain ⟨hans, hall⟩ := served_of_frame hframe (by decide) (by decide) (.ld h l) 0x0202 rcSuccess []
    have hctl := (s.writeDesc (fwSlot - 1) true false).ctl_reply (.ld h l) 0x0202 rcSuccess []
    exact ⟨_, hexec, (State.flash_of_ctl hctl _ _).trans hflash, hans, hall⟩
  case version =>
    intro s h l hcur hst hup
    exact ⟨_, State.spdmMessage_ready hcur hst hup _, rfl, (Frame.refl _ _ s).emit _ (by decide)⟩
  case table =>
    intro s h l hcur hst hup
    exact ⟨_, State.spdmMessage_ready hcur hst hup _, rfl, (Frame.refl _ _ s).emit _ (by decide)⟩
  case session =>
    intro s h l sid authd root hcur hst hup hsecret hnew
    have hnone : ¬ (s.fuses.secret.isNone = true ∨
        s.ctl.sessions.any (fun x => decide (x.h = h ∧ x.l = l ∧ x.sid = sid)) = true) := by
      simp only [List.any_eq_true, decide_eq_true_eq, not_or, not_exists, not_and]
      exact ⟨by simpa [← Option.isSome_iff_ne_none] using hsecret, fun x hx _ _ => hnew x hx⟩
    have hexec : exec (.spdmMessage h l (.session sid authd root)) s = .next ((s.setCtl { s.ctl with
        sessions := s.ctl.sessions ++ [{ h := h, l := l, sid := sid, authd := authd, listed := s.rootListed root }]
      }).spdmSigned h l 2 []) := (State.spdmMessage_ready hcur hst hup _).trans (next_of_neg hnone)
    exact ⟨_, hexec, rfl, rfl, rfl,
      (((Frame.refl _ _ s).setCtl _ (by decide)).emit _ (by decide)).with_draw _ (by decide)⟩
  case ended =>
    intro s h l sid hcur hst hup hopen
    have hexec : exec (.spdmMessage h l (.endSession sid)) s = .next ((s.setCtl { s.ctl with
        sessions := s.ctl.sessions.filter (fun x => !decide (x.h = h ∧ x.l = l ∧ x.sid = sid)) }).spdmAnswer h l 0 []) :=
      (State.spdmMessage_ready hcur hst hup _).trans (next_of_pos hopen)
    exact ⟨_, hexec, rfl, rfl, ((Frame.refl _ _ s).setCtl _ (by decide)).emit _ (by decide)⟩
  case key =>
    intro s port stream rx k hcur hst hup hstream
    refine ⟨_, (execIdeKmMessage_ready hcur hst hup hstream).1 rx k, ?_, rfl, rfl,
      ((Frame.refl _ _ s).setCry _ (by decide)).emit _ (by decide)⟩
    show mget ((mget (mput _ port _) port).getD []) _ = _
    rw [mget_mput_same]
    exact mget_mput_same _ _ _
  case go =>
    intro s port stream rx hcur hst hup hport hstream hkey
    obtain ⟨hon, hide, hframe⟩ := s.setIde_go port stream
    exact ⟨_, (execIdeKmMessage_ready hcur hst hup hstream).2 rx hkey, hon, hide, rfl,
      (hframe.mono (by decide) fun _ h => h).emit _ (by decide)⟩
  case avsar =>
    intro s h l sid hcur hst hup hfree
    have hready : MboxReady s (.session h l sid) .free := ⟨hcur, hst, hup, hfree, rfl⟩
    have hexec : exec (.spdmSecuredAvsar h l sid 0xc021 []) s = .next (s.reply (.session h l sid) 0xc021 rcSuccess
        (resultHeader 0 0 ++ (leBytes 4 s.cur ++ leBytes 4 (s.rd F.AON_PWR_STS_LAST_WAKE)))) :=
      congrArg Host.Outcome.next (State.avsar_ok hready (op := 0xc021) (len := 0) (p := []) rfl
        (f := fun s => .ok s (leBytes 4 s.cur ++ leBytes 4 (s.rd F.AON_PWR_STS_LAST_WAKE))) rfl)
    have hzero : s.cur = 0 := hcur
    rw [hzero] at hexec
    exact ⟨_, hexec, State.answered_reply rfl rfl _ _ _ _, (Frame.refl _ _ s).reply _ _ _ _ (by decide) (by decide)⟩
  case unknown =>
    intro s h l sid opcode payload hcur hst hup hfree hop
    have hexec : exec (.spdmSecuredAvsar h l sid opcode payload) s =
        .next (s.reply (.session h l sid) opcode rcUnsupported []) := by
      refine congrArg Host.Outcome.next ?_
      rw [State.avsarOf_low hop]
      simp only [s.knock_of_idle 1 hcur hst, if_pos hup]
    exact ⟨_, hexec, State.answered_reply rfl rfl _ _ _ _, (Frame.refl _ _ s).reply _ _ _ _ (by decide) (by decide)⟩

end Sys2Proof.Machine
end

section
/-!
PROOFS of O13: the boot ROM and the copy checks, the fuse load, memory training, and the start of memory service.
-/
namespace Sys2Proof.Machine
open Sys2Proof.Safety

/-! ## The boot core and the ROM (R446, R448) -/

/-- C0 is passed over and C14, which was a spare, boots in its place. -/
def State.bootPassed (s : State) : State :=
  let s1 := (s.wrI F.CTL_CORE_CTL_STATE 0 4).setCtl { s.ctl with passed := ninsert s.ctl.passed 0 }
  ((s1.wr F.CTL_BOOT_BOOT_CORE 14).wrI F.CTL_CORE_CTL_STATE 14 1).noteCore 0 14

theorem execBootCoreAliveTimeout_passes {s : State} (hheld : s.aon.held = false) (hoff : s.aon.off = 0)
    (hloaded : s.aon.loaded = true) (halive : s.ctl.alive = false) (hcore : s.rd F.CTL_BOOT_BOOT_CORE = 0)
    (hrun : s.coreState 0 = 1) (hspare : s.coreState 14 = 3) : execBootCoreAliveTimeout s = .next s.bootPassed := by
  have hboot : s.bootCore = 0 := hcore
  have hok : s.bootCoreOk = true := by simp [State.bootCoreOk, hboot, hrun]
  have hnext : (bootOrder.dropWhile (fun k => decide (k ≠ 0))).find? (fun k => decide (k ≠ 0 ∧ s.coreState k ≠ 4)) =
      some 14 := by simp [bootOrder, List.find?, hspare]
  refine (next_of_neg (by simp [State.inReset, hheld, hoff, hloaded, halive, hok])).trans (congrArg Host.Outcome.next ?_)
  simp only [hboot, hnext, hspare]
  rfl

theorem State.bootPassed_spec (s : State) :
    s.bootPassed.coreState 0 = 4 ∧ s.bootPassed.rd F.CTL_BOOT_BOOT_CORE = 14 ∧ s.bootPassed.coreState 14 = 1 ∧
      s.bootPassed.ctl.passed = ninsert s.ctl.passed 0 ∧ s.bootPassed.ras.subs = s.ras.subs ++ [(1, 0, 14)] ∧
      Frame [.ctl, .ras] (fun key => key = F.CTL_BOOT_BOOT_CORE.key 0 0 ∨ key = F.CTL_CORE_CTL_STATE.key 0 0 ∨
        key = F.CTL_CORE_CTL_STATE.key 14 0) s s.bootPassed := by
  have hnote : ∀ (u : State) (f : Fld) (i : Nat), (u.noteCore 0 14).rd f i = u.rd f i := fun _ _ _ => rfl
  refine ⟨?failed, ?boot, ?heir, rfl, rfl, ?frame⟩
  case failed =>
    rw [State.coreState, State.bootPassed, hnote, State.rd_wrI_ne _ _ _ _ _ _ _ (by decide),
      State.rd_wr_ne _ _ _ _ _ _ (by decide), State.setCtl_rd, State.rd_wrI_same]
    rfl
  case boot =>
    rw [State.bootPassed, hnote, State.rd_wrI_ne _ _ _ _ _ _ _ (by decide), State.rd_wr_same]
    rfl
  case heir => exact State.rd_wrI_same _ F.CTL_CORE_CTL_STATE 14 1
  case frame =>
    exact (((((Frame.refl _ _ s).wrI F.CTL_CORE_CTL_STATE 0 4 (by decide)).setCtl _ (by decide)).wr F.CTL_BOOT_BOOT_CORE 14
      (by decide)).wrI F.CTL_CORE_CTL_STATE 14 1 (by decide)).with_ras _ (by decide)

/-- The ROM takes the preferred copy of a descriptor without TRIAL. -/
def State.romTakes (s : State) : State :=
  let s1 := s.wrI F.CTL_CORE_CTL_STATE s.bootCore 1
  (s1.setCtl { s1.ctl with alive := true, romRan := true, checking := some s.descNow.2.prefer, firstTry := true }).wr
    F.CTL_HEALTH_STATE 1

theorem execBootRom_plain {s : State} (hheld : s.aon.held = false) (hoff : s.aon.off = 0) (hloaded : s.aon.loaded = true)
    (hrom : s.ctl.romRan = false) (hok : s.bootCoreOk = true) (htrial : s.descNow.2.trial = false) :
    execBootRom s = .next s.romTakes := by
  have hdesc : (s.wrI F.CTL_CORE_CTL_STATE s.bootCore 1).descNow = s.descNow := rfl
  refine (next_of_neg (by simp [State.inReset, hheld, hoff, hloaded, hrom, hok])).trans (congrArg Host.Outcome.next ?_)
  dsimp only
  rw [hdesc, if_neg (by simp [htrial]), if_neg (by simp [htrial]), hdesc]
  rfl

theorem State.romTakes_frame (s : State) :
    Frame [.ctl] (fun key => key = F.CTL_HEALTH_STATE.key 0 0 ∨ key = F.CTL_CORE_CTL_STATE.key s.bootCore 0) s s.romTakes :=
  (((Frame.refl _ _ s).wrI _ _ _ (.inl (.inr rfl))).setCtl _ (by decide)).wr F.CTL_HEALTH_STATE 1 (.inl (.inl rfl))

/-! ## An accepted copy (R446 step 4) -/

/-- What the start of a copy with header h does to the parts of the state. -/
structure CopyRuns (s : State) (copy : Nat) (h : List Byte) (t : State) : Prop where
  frame : Frame [.ctl, .ras, .evt, .cry, .draw] (fun key => RoleKeys key ∨ CopyKeys key) s t
  copy : t.rd F.CTL_BOOT_COPY = copy
  version : t.rd F.CTL_FW_VER_VERSION = numAt h 8 4
  svn : t.rd F.CTL_FW_VER_SVN = numAt h 0xc 4
  health : t.rd F.CTL_HEALTH_STATE = 2
  roles : ∀ c < 14, s.coreState c = 1 → (t.rd F.CTL_CORE_ROLE_ROLES c).testBit c = true
  ctl : ∃ due, t.ctl = { s.ctl.running h with revertDue := due }
  rootKept : s.cry.root ≠ none → t.cry = s.cry
  rootDrawn : s.cry.root = none → s.rd F.CRY_MODE_TRNG_OK = 1 → s.aon.seenActive = false →
    t.cry = { s.cry with root := some (Config.rootKey s.draw) }

/-- The keys that a copy's start and the placing of roles may write, apart from the roles of the cores below C14. -/
theorem coreState_not_copyKeys : ∀ c < 14, ¬ CopyKeys (F.CTL_CORE_CTL_STATE.key c 0) ∧
    ¬ InBlock 14 (F.CTL_CORE_CTL_STATE.key c 0) ∧ ¬ InBlock 14 (F.CTL_CORE_ROLE_ROLES.key c 0) := by decide

/-- The steps of a copy's start in their order: the copy is noted, a revert raised, the roles placed, the root key drawn. -/
theorem State.runCopy_runs (s : State) {copy : Nat} (h : List Byte) (hcopy : copy < 4) :
    CopyRuns s copy h (s.runCopy copy h) := by
  rw [State.runCopy_eq]
  have hnoted := State.copyNoted_frame s copy h
  have hctl : (s.copyNoted copy h).ctl = s.ctl.running h := rfl
  obtain ⟨hcop, hver, hsvn, hhealth⟩ := s.rd_copyNoted h hcopy rfl
  generalize s.copyNoted copy h = u at *
  obtain ⟨hrevert, due, hdue⟩ := u.noteRevert_spec
  generalize u.noteRevert = v at *
  have hpre : Frame [.ctl, .evt] CopyKeys s v := Frame.trans (hnoted.mono (by decide) fun _ h => h)
    (hrevert.mono (by decide) fun _ h => .inr (.inr (.inr (.inr h))))
  obtain ⟨hkept, hroles⟩ := v.placeRoles_spec
  generalize v.placeRoles = w at *
  have hplaced : Frame [.ctl, .ras, .evt] (fun key => RoleKeys key ∨ CopyKeys key) s w :=
    Frame.trans (hpre.mono (by decide) fun _ h => .inr h) (hkept.frame.mono (by decide) fun _ h => .inl h)
  have hroot := State.drawRoot_frame w
  have hread : ∀ f, ¬ RoleKeys (f.key 0 0) → f.key 0 0 ≠ (F.EVT_RAW_CAUSE 1).key 0 0 → ¬ InBlock 14 (f.key 0 0) →
      w.drawRoot.rd f = u.rd f := fun f hrole hcause hpmu => by
    rw [hroot.rd _ _ _ (fun h => h) hpmu, hkept.frame.rd _ _ _ hrole hpmu, hrevert.rd _ _ _ hcause hpmu]
  have hcry : w.cry = s.cry := hplaced.1 .cry (by decide)
  have hdraw : w.draw = s.draw := hplaced.1 .draw (by decide)
  have haon : w.aon = s.aon := hplaced.1 .aon (by decide)
  constructor
  case copy => rw [hread _ (by decide) (by decide) (by decide), hcop]
  case version => rw [hread _ (by decide) (by decide) (by decide), hver]
  case svn => rw [hread _ (by decide) (by decide) (by decide), hsvn]
  case health => rw [hread _ (by decide) (by decide) (by decide), hhealth]
  case frame => exact Frame.trans (hplaced.mono (by decide) fun _ h => h) (hroot.mono (by decide) fun _ h => h.elim)
  case roles =>
    intro c hc hrun
    obtain ⟨hcopyKey, hstate, hrole⟩ := coreState_not_copyKeys c hc
    rw [hroot.rd _ _ _ (fun h => h) hrole]
    exact hroles c hc ((hpre.rd _ _ _ hcopyKey hstate).trans hrun)
  case ctl => exact ⟨due, (hroot.1 .ctl (by decide)).trans ((hkept.frame.1 .ctl (by decide)).trans (by rw [hdue, hctl]))⟩
  case rootKept =>
    intro hsome
    rw [State.drawRoot_kept (by rw [hcry]; exact hsome), hcry]
  case rootDrawn =>
    intro hnone htrng hseen
    have hrd : w.rd F.CRY_MODE_TRNG_OK = 1 := (hplaced.rd _ _ _ (by decide) (by decide)).trans htrng
    rw [State.drawRoot_drawn (by rw [hcry]; exact hnone) hrd (by rw [haon]; exact hseen), hcry, hdraw]

/-- How an accepted copy ends the boot: the first notes TRIAL, the second that it is the fallback. -/
def State.bootNoted (s t : State) : State :=
  if s.ctl.firstTry then t.wr F.CTL_BOOT_TRIAL (b2n s.descNow.2.trial) else (t.wr F.CTL_BOOT_FALLBACK 1).raise cFwFallback

/-- The keys that the note writes. -/
abbrev NoteKeys (key : Nat) : Prop :=
  key = (F.EVT_RAW_CAUSE 1).key 0 0 ∨ key = F.CTL_BOOT_TRIAL.key 0 0 ∨ key = F.CTL_BOOT_FALLBACK.key 0 0

theorem State.bootNoted_spec (s t : State) :
    (s.ctl.firstTry = true → (s.bootNoted t).rd F.CTL_BOOT_TRIAL = b2n s.descNow.2.trial) ∧
      (s.ctl.firstTry = false → (s.bootNoted t).rd F.CTL_BOOT_FALLBACK = 1) ∧
      (s.ctl.firstTry = false → ((s.bootNoted t).rd (F.EVT_RAW_CAUSE 1) 0).testBit 3 = true) ∧
      Frame [.evt] NoteKeys t (s.bootNoted t) := by
  cases hfirst : s.ctl.firstTry with
  | true =>
    rw [State.bootNoted, if_pos hfirst]
    refine ⟨fun _ => (State.rd_wr_same _ _ _).trans (by cases s.descNow.2.trial <;> rfl), by simp, by simp,
      (Frame.refl _ _ t).wr F.CTL_BOOT_TRIAL _ (by decide)⟩
  | false =>
    rw [State.bootNoted, if_neg (by simp [hfirst])]
    refine ⟨by simp, fun _ => ?_, fun _ => State.raise_testBit _ cFwFallback none none [] (by decide),
      ((Frame.refl _ _ t).wr F.CTL_BOOT_FALLBACK 1 (by decide)).raise cFwFallback _ _ _ (by decide) (by decide)⟩
    rw [State.rd_raise_ne _ cFwFallback _ _ _ _ _ _ (by decide), State.rd_wr_same]
    rfl

theorem execFlashCopyChecked_accepts {s : State} {copy : Nat} {readErr : Bool} (hheld : s.aon.held = false)
    (hoff : s.aon.off = 0) (hcopy : copy < 2) (hchecking : s.ctl.checking = some copy)
    (hgood : s.checkFlash copy readErr = 0) : execFlashCopyChecked copy readErr s =
      .next (s.bootNoted (s.runCopy copy (s.flash (copyBase copy) 512))) := by
  refine (next_of_neg (by simp [State.inReset, hheld, hoff, hchecking]; omega)).trans (congrArg Host.Outcome.next ?_)
  dsimp only
  rw [if_pos hgood]
  rfl

/-! ## A rejected copy (R450) -/

/-- The register that holds the code of a rejected copy. -/
def rejField (copy : Nat) : Fld := if copy = 0 then F.CTL_BOOT_REJ_A else F.CTL_BOOT_REJ_B

theorem checkKeys_lt (f : Fuses) (h body : List Byte) : checkKeys f h body < 16 := by
  unfold checkKeys
  dsimp only
  split_ifs <;> decide

theorem checkCopy_lt (f : Fuses) (h body : List Byte) (readErr : Bool) : checkCopy f h body readErr < 16 := by
  unfold checkCopy
  dsimp only
  split_ifs
  exacts [by decide, by decide, by decide, checkKeys_lt f h body, by decide, by decide]

theorem State.checkFlash_lt (s : State) (copy : Nat) (readErr : Bool) : s.checkFlash copy readErr < 2 ^ 4 := by
  rw [State.checkFlash]
  exact checkCopy_lt _ _ _ _

theorem State.rd_rejected (s : State) (copy : Nat) (readErr : Bool) :
    (s.wr (rejField copy) (s.checkFlash copy readErr)).rd (rejField copy) = s.checkFlash copy readErr := by
  have hwidth : (rejField copy).width = 4 := by unfold rejField; split <;> rfl
  rw [State.rd_wr_same, hwidth]
  exact Nat.mod_eq_of_lt (s.checkFlash_lt copy readErr)

theorem rejField_key (copy : Nat) :
    (rejField copy).key 0 0 = F.CTL_BOOT_REJ_A.key 0 0 ∨ (rejField copy).key 0 0 = F.CTL_BOOT_REJ_B.key 0 0 := by
  unfold rejField
  split
  · exact .inl rfl
  · exact .inr rfl

/-- The code of a rejected copy is kept, and the other is checked. -/
def State.triesOther (s : State) (copy code : Nat) : State :=
  let s1 := s.wr (rejField copy) code
  s1.setCtl { s1.ctl with checking := some (1 - copy), firstTry := false }

/-- Both copies are rejected: recovery. -/
def State.recovers (s : State) (copy code : Nat) : State :=
  let s1 := s.wr (rejField copy) code
  ((s1.setCtl { s1.ctl with checking := none }).wr F.CTL_HEALTH_STATE 4).raise cFwRecovery

theorem execFlashCopyChecked_rejects {s : State} {copy : Nat} {readErr : Bool} (hheld : s.aon.held = false)
    (hoff : s.aon.off = 0) (hcopy : copy < 2) (hchecking : s.ctl.checking = some copy)
    (hbad : s.checkFlash copy readErr ≠ 0) : execFlashCopyChecked copy readErr s =
      .next (if s.ctl.firstTry then s.triesOther copy (s.checkFlash copy readErr)
        else s.recovers copy (s.checkFlash copy readErr)) := by
  refine (next_of_neg (by simp [State.inReset, hheld, hoff, hchecking]; omega)).trans (congrArg Host.Outcome.next ?_)
  dsimp only
  rw [if_neg hbad]
  rfl

theorem State.triesOther_spec (s : State) (copy : Nat) (readErr : Bool) {t : State}
    (ht : s.triesOther copy (s.checkFlash copy readErr) = t) :
    t.rd (rejField copy) = s.checkFlash copy readErr ∧ t.ctl.checking = some (1 - copy) ∧ t.ctl.firstTry = false ∧
      Frame [.ctl] (fun key => key = F.CTL_BOOT_REJ_A.key 0 0 ∨ key = F.CTL_BOOT_REJ_B.key 0 0) s t := by
  subst ht
  have hrej := s.rd_rejected copy readErr
  have hwrite : Frame [.ctl] (fun key => key = F.CTL_BOOT_REJ_A.key 0 0 ∨ key = F.CTL_BOOT_REJ_B.key 0 0) s
      (s.wr (rejField copy) (s.checkFlash copy readErr)) := (Frame.refl _ _ s).wr _ _ (.inl (rejField_key copy))
  unfold State.triesOther
  dsimp only
  generalize s.wr (rejField copy) (s.checkFlash copy readErr) = u at *
  exact ⟨hrej, rfl, rfl, hwrite.setCtl _ (by decide)⟩

theorem State.recovers_spec (s : State) (copy : Nat) (readErr : Bool) {t : State}
    (ht : s.recovers copy (s.checkFlash copy readErr) = t) :
    t.rd (rejField copy) = s.checkFlash copy readErr ∧ t.ctl.checking = none ∧ t.rd F.CTL_HEALTH_STATE = 4 ∧
      (t.rd (F.EVT_RAW_CAUSE 1) 0).testBit 4 = true ∧
      Frame [.ctl, .evt] (fun key => key = F.CTL_BOOT_REJ_A.key 0 0 ∨ key = F.CTL_BOOT_REJ_B.key 0 0 ∨
        key = F.CTL_HEALTH_STATE.key 0 0 ∨ key = (F.EVT_RAW_CAUSE 1).key 0 0) s t := by
  subst ht
  have hrej := s.rd_rejected copy readErr
  have hkey := rejField_key copy
  have hapart : (rejField copy).key 0 0 ≠ F.CTL_HEALTH_STATE.key 0 0 ∧
      (rejField copy).key 0 0 ≠ (F.EVT_RAW_CAUSE 1).key 0 0 := by
    rcases hkey with h | h <;> rw [h] <;> decide
  have hwrite : Frame [.ctl, .evt] (fun key => key = F.CTL_BOOT_REJ_A.key 0 0 ∨ key = F.CTL_BOOT_REJ_B.key 0 0 ∨
      key = F.CTL_HEALTH_STATE.key 0 0 ∨ key = (F.EVT_RAW_CAUSE 1).key 0 0) s
        (s.wr (rejField copy) (s.checkFlash copy readErr)) :=
    (Frame.refl _ _ s).wr _ _ (.inl (hkey.elim .inl fun h => .inr (.inl h)))
  unfold State.recovers
  dsimp only
  generalize s.wr (rejField copy) (s.checkFlash copy readErr) = u at *
  have hraise : ((u.setCtl { u.ctl with checking := none }).wr F.CTL_HEALTH_STATE 4).ctl =
      { u.ctl with checking := none } := rfl
  have hset := ((hwrite.setCtl { u.ctl with checking := none } (by decide)).wr F.CTL_HEALTH_STATE 4 (by decide))
  have hread : ((u.setCtl { u.ctl with checking := none }).wr F.CTL_HEALTH_STATE 4).rd (rejField copy) =
      s.checkFlash copy readErr := (State.rd_wr_ne _ _ _ _ _ _ hapart.1).trans hrej
  have hstate : ((u.setCtl { u.ctl with checking := none }).wr F.CTL_HEALTH_STATE 4).rd F.CTL_HEALTH_STATE = 4 :=
    State.rd_wr_same _ _ _
  generalize (u.setCtl { u.ctl with checking := none }).wr F.CTL_HEALTH_STATE 4 = v at *
  have hlast := (Frame.refl [.evt] (fun key => key = (F.EVT_RAW_CAUSE 1).key 0 0) v).raise cFwRecovery none none []
    (by decide) (.inl rfl)
  refine ⟨?_, ?_, ?_, State.raise_testBit v cFwRecovery none none [] (by decide),
    hset.raise cFwRecovery none none [] (by decide) (by decide)⟩
  · exact (State.rd_raise_ne v cFwRecovery _ _ _ _ _ _ hapart.2).trans hread
  · exact congrArg Ctl.checking ((hlast.1 .ctl (by decide)).trans hraise)
  · exact (State.rd_raise_ne v cFwRecovery _ _ _ _ _ _ (by decide)).trans hstate

/-! ## The fuse load (R510) -/

/-- The parts that following the fuses may change. -/
abbrev FuseParts : List Part := [.evt, .ras, .job, .cdc]

theorem State.fuseUnits_frame (s : State) (k : Kind) (bad act : Nat) :
    Frame FuseParts (fun _ => True) s (s.fuseUnits k bad act) :=
  Frame.foldl _ _ s fun t _ _ => (Frame.refl _ _ t).wrI _ _ _ (.inl trivial)

theorem State.fuseCores_frame (s : State) (bad : Nat) : Frame FuseParts (fun _ => True) s (s.fuseCores bad) := by
  have hcores : Frame FuseParts (fun _ => True) s ((List.range 16).foldl (fun s n => s.wrI F.CTL_CORE_CTL_STATE n
      (if bad.testBit n then 4 else if n < 14 then 1 else 3)) s) :=
    Frame.foldl _ _ s fun t _ _ => (Frame.refl _ _ t).wrI _ _ _ (.inl trivial)
  unfold State.fuseCores
  dsimp only
  split
  next n _ =>
    have hboot := (hcores.wr F.CTL_BOOT_BOOT_CORE n (.inl trivial)).wrI F.CTL_CORE_CTL_STATE n 1 (.inl trivial)
    exact Frame.ite _ (fun _ => hboot) fun _ => hboot.with_ras _ (by decide)
  next => exact hcores

/-- The ways of the directory banks by fuse. -/
def State.fuseWays (s : State) (ways : List Nat) : State :=
  (List.range 16).foldl (fun s n =>
    let bad := ways.getD n 0
    (s.wrI F.DIR_BANK_WAYS_ACTIVE n (waysOf bad)).wrI F.DIR_BANK_WAYS_FAILED n (bad % 2 ^ 17)) s

theorem State.fuseWays_frame (s : State) (ways : List Nat) : Frame FuseParts (fun _ => True) s (s.fuseWays ways) :=
  Frame.foldl _ _ s fun t _ _ => ((Frame.refl _ _ t).wrI _ _ _ (.inl trivial)).wrI _ _ _ (.inl trivial)

/-- The units of every kind by fuse. -/
def State.fuseKinds (s : State) (f : Fuses) : State :=
  (((s.fuseCores f.badCores).fuseUnits cdcKind f.badCodec 16).fuseUnits cryKind f.badCrypto 48).fuseUnits scrKind
    f.badScarab 32

theorem State.fuseKinds_frame (s : State) (f : Fuses) : Frame FuseParts (fun _ => True) s (s.fuseKinds f) :=
  (((State.fuseCores_frame s f.badCores).trans (State.fuseUnits_frame _ cdcKind f.badCodec 16)).trans
    (State.fuseUnits_frame _ cryKind f.badCrypto 48)).trans (State.fuseUnits_frame _ scrKind f.badScarab 32)

/-- The registers that take their values from the fuses, up to MIN_SVN. -/
def State.fuseRegs (s : State) (f : Fuses) : State :=
  let s1 := (({ s with fuses := f }).fuseKinds f).fuseWays f.badWays
  let s2 := if f.dirFailed then (s1.wr F.DIR_STATUS_OFFLINE 1).raise cDirOffline else s1
  (s2.wr F.CTL_FUSE_SVN_MIN_SVN f.minSvn.toNat).wr F.CTL_FUSE_SVN_REVOKED f.revoked

theorem State.fuseRegs_frame (s : State) (f : Fuses) :
    Frame FuseParts (fun _ => True) { s with fuses := f } (s.fuseRegs f) := by
  have hways := (State.fuseKinds_frame { s with fuses := f } f).trans (State.fuseWays_frame _ f.badWays)
  refine Frame.wr (Frame.wr ?_ _ _ (.inl trivial)) _ _ (.inl trivial)
  exact Frame.ite _ (fun _ => (hways.wr _ _ (.inl trivial)).raise _ _ _ _ (by decide) (.inl trivial)) fun _ => hways

theorem State.applyFuses_eq (s : State) (f : Fuses) (hperms : f.perms = []) :
    s.applyFuses f = ((s.fuseRegs f).wr F.AON_PIN_STATE f.pins).watchUnits := by
  rw [State.applyFuses, State.fusePerms, hperms]
  rfl

theorem State.applyFuses_spec (s : State) {f : Fuses} (hperms : f.perms = []) {t : State} (ht : s.applyFuses f = t) :
    t.rd F.AON_PIN_STATE = f.pins % 2 ^ F.AON_PIN_STATE.width ∧ t.fuses = f ∧
      Frame (.fuses :: FuseParts) (fun _ => True) s t := by
  subst ht
  rw [State.applyFuses_eq s f hperms]
  have hregs := State.fuseRegs_frame s f
  generalize s.fuseRegs f = u at *
  have hall : Frame FuseParts (fun _ => True) { s with fuses := f } (u.wr F.AON_PIN_STATE f.pins).watchUnits :=
    (hregs.wr F.AON_PIN_STATE _ (.inl trivial)).watchUnits (by decide) (by decide) (by decide) fun _ _ => trivial
  refine ⟨?_, hall.1 .fuses (by decide), ?_⟩
  · exact ((Frame.of_watchUnits _).rd _ _ _ (by decide) (by decide)).trans (State.rd_wr_same _ _ _)
  · exact Frame.trans ((Frame.refl _ _ s).with_fuses f (by decide)) (hall.mono (by decide) fun _ h => h)

/-- FUSE_LOAD_DONE records the rows before it applies the fuses. -/
def State.rowsNoted (s : State) (copies defaults : Nat) : State :=
  let s1 := s.setAon { s.aon with loading := false, loaded := true }
  let s2 := (s1.wr F.AON_FUSE_STS_COPY copies).wr F.AON_FUSE_STS_DEFAULT defaults
  if defaults = 0 then s2 else s2.raise cFuseDegraded

theorem State.rowsNoted_spec (s : State) (copies defaults : Nat) :
    (s.rowsNoted copies defaults).aon = { s.aon with loading := false, loaded := true } ∧
      Frame [.evt, .aon] (fun _ => True) s (s.rowsNoted copies defaults) := by
  have hregs : Frame [.evt] (fun _ => True) (s.setAon { s.aon with loading := false, loaded := true })
      (s.rowsNoted copies defaults) := by
    have hwritten := ((Frame.refl [.evt] (fun _ => True) (s.setAon { s.aon with loading := false, loaded := true })).wr
      F.AON_FUSE_STS_COPY copies (.inl trivial)).wr F.AON_FUSE_STS_DEFAULT defaults (.inl trivial)
    exact Frame.ite _ (fun _ => hwritten) fun _ => hwritten.raise _ _ _ _ (by decide) (.inl trivial)
  exact ⟨hregs.1 .aon (by decide), Frame.trans ((Frame.refl _ _ s).setAon _ (by decide))
    (hregs.mono (by decide) fun _ h => h)⟩

/-- FUSE_LOAD_DONE without a reset that waited. -/
theorem execFuseLoadDone_spec {s : State} (rows : List (Nat × FuseOutcome)) (fuses : Fuses) (trngFails : Nat)
    (hloading : s.aon.loading = true) (hwaiting : s.aon.waiting = []) (htrng : trngFails < 3) (hperms : fuses.perms = []) :
    ∃ t, execFuseLoadDone rows fuses trngFails s = .next t ∧ t.aon.loading = false ∧ t.aon.loaded = true ∧
      t.fuses = fusesLoaded rows fuses ∧
      t.rd F.AON_PIN_STATE = (fusesLoaded rows fuses).pins % 2 ^ F.AON_PIN_STATE.width ∧ t.rd F.CRY_MODE_TRNG_OK = 1 ∧
      Frame (.aon :: .fuses :: FuseParts) (fun _ => True) s t := by
  have hnoperms : (fusesLoaded rows fuses).perms = [] := by
    show (if _ then fusesNone.perms else fuses.perms) = []
    split
    · rfl
    · exact hperms
  have hexec : ∃ c d, execFuseLoadDone rows fuses trngFails s =
      .next ((((s.rowsNoted c d).applyFuses (fusesLoaded rows fuses)).trngStart trngFails).actWaiting) :=
    ⟨_, _, next_of_neg (by simp [hloading])⟩
  obtain ⟨c, d, hexec⟩ := hexec
  obtain ⟨haon, hnoted⟩ := s.rowsNoted_spec c d
  generalize s.rowsNoted c d = u at *
  obtain ⟨hpin, hfuses, happlied⟩ := u.applyFuses_spec hnoperms rfl
  generalize u.applyFuses (fusesLoaded rows fuses) = v at *
  have htested : v.trngStart trngFails = v.wr F.CRY_MODE_TRNG_OK 1 := if_neg (Nat.not_le.2 htrng)
  have haon1 : v.aon = { s.aon with loading := false, loaded := true } := (happlied.1 .aon (by decide)).trans haon
  have hact : (v.wr F.CRY_MODE_TRNG_OK 1).actWaiting = (v.wr F.CRY_MODE_TRNG_OK 1).setAon { v.aon with waiting := [] } := by
    simp [State.actWaiting, haon1, hwaiting]
  rw [htested, hact] at hexec
  refine ⟨_, hexec, ?_, ?_, hfuses, ?_, ?_, ?_⟩
  · rw [State.setAon_aon, haon1]
  · rw [State.setAon_aon, haon1]
  · rw [State.setAon_rd, State.rd_wr_ne _ _ _ _ _ _ (by decide), hpin]
  · rw [State.setAon_rd, State.rd_wr_same]; rfl
  · refine Frame.setAon (Frame.wr ?_ _ _ (.inl trivial)) _ (by decide)
    exact Frame.trans (hnoted.mono (by decide) fun _ h => h) (happlied.mono (by decide) fun _ h => h)

/-! ## Memory training (R209) -/

/-- The places of the near tier's configuration. -/
def nearConfig : List Fld := [F.NTC_CONFIG_POS_ACTIVE, F.NTC_CONFIG_NCH]

/-- The keys of registers that share no place with the near tier's configuration. -/
abbrev AwayKeys (key : Nat) : Prop := ∀ g ∈ nearConfig, key ≠ g.key 0 0

theorem awayKeys_of_place {f : Fld} (i k : Nat) (h : ∀ g ∈ nearConfig, f.place k % 0x40000 ≠ g.place 0 % 0x40000) :
    AwayKeys (f.key i k) := fun g hg => Fld.key_ne_of_place (h g hg)

/-- The registers of BTC and of the blocks after it lie behind those of NTC, whatever the page. -/
theorem awayKeys_of_blk {f : Fld} (i k : Nat) (h : 11 ≤ f.blk) : AwayKeys (f.key i k) := by
  have hlt : ∀ g ∈ nearConfig, g.key 0 0 < (0x100000 + 11 * 0x100000) * 64 := by decide
  intro g hg heq
  have hg := hlt g hg
  rw [← heq, Fld.key, Fld.addr] at hg
  omega

/-- A frame away from the near tier's configuration keeps it. -/
theorem rd_of_away {P : List Part} {s t : State} (h : Frame P AwayKeys s t) {f : Fld} (hf : f ∈ nearConfig) :
    t.rd f = s.rd f := by
  have hpmu : ∀ g ∈ nearConfig, ¬ InBlock 14 (g.key 0 0) := by decide
  exact h.rd f 0 0 (fun hk => hk f hf rfl) (hpmu f hf)

/-- The near tier's configuration is written. -/
def State.nearConfigured (s : State) (act rate clam nch : Nat) : State :=
  (((s.wr F.NTC_CONFIG_POS_ACTIVE act).wr F.NTC_CONFIG_RATE rate).wr F.NTC_CONFIG_CLAMSHELL clam).wr F.NTC_CONFIG_NCH nch

theorem State.nearConfigured_spec (s : State) (act rate clam nch : Nat) :
    (s.nearConfigured act rate clam nch).rd F.NTC_CONFIG_POS_ACTIVE = act % 2 ^ 16 ∧
      (s.nearConfigured act rate clam nch).rd F.NTC_CONFIG_NCH = nch % 2 ^ F.NTC_CONFIG_NCH.width ∧
      Frame [] (fun _ => True) s (s.nearConfigured act rate clam nch) := by
  refine ⟨?_, State.rd_wr_same _ _ _, (((((Frame.refl _ _ s).wr _ _ (.inl trivial)).wr _ _ (.inl trivial)).wr _ _
    (.inl trivial)).wr _ _ (.inl trivial))⟩
  rw [State.nearConfigured, State.rd_wr_ne _ _ _ _ _ _ (by decide), State.rd_wr_ne _ _ _ _ _ _ (by decide),
    State.rd_wr_ne _ _ _ _ _ _ (by decide), State.rd_wr_same]
  rfl

/-- The positions and channels that are left out are noted, and the frames counted. -/
def State.nearExcluded (s : State) (act excl frames : Nat) : State :=
  (List.range 32).foldl (fun s c =>
    if act.testBit (c / 2) then s.wrI F.NTC_CH_CTL_EXCLUDED c 0
    else (s.wrI F.NTC_CH_CTL_EXCLUDED c 1).raise (cNtc c 1))
    ((s.wr F.NTC_CONFIG_POS_EXCL excl).wr F.SCR_FRAMES_TOTAL frames)

theorem State.nearExcluded_frame (s : State) (act excl frames : Nat) :
    Frame [.evt] AwayKeys s (s.nearExcluded act excl frames) := by
  refine Frame.trans (((Frame.refl _ _ s).wr F.NTC_CONFIG_POS_EXCL _ (by decide)).wr F.SCR_FRAMES_TOTAL _ (by decide))
    (Frame.foldl _ _ _ fun u c _ => ?_)
  have hkey : ∀ v, Frame [.evt] AwayKeys u (u.wrI F.NTC_CH_CTL_EXCLUDED c v) := fun v =>
    (Frame.refl _ _ u).wrI _ _ _ (.inl (awayKeys_of_place _ _ (by decide)))
  exact Frame.ite _ (fun _ => hkey 0) fun _ => (hkey 1).raise (cNtc c 1) _ _ _ (by decide)
    (.inl (awayKeys_of_place (f := F.EVT_RAW_CAUSE 10) _ _ (by decide)))

/-- The near side of a selection writes the positions and the number of channels, and then other registers. -/
theorem State.layNear_spec (s : State) (r : TrainResult) {t : State} (ht : s.layNear r = t) :
    t.rd F.NTC_CONFIG_POS_ACTIVE = maskOf ((selectNear 17 (s.workingNear r)).map (·.pos)) % 2 ^ 16 ∧
      t.rd F.NTC_CONFIG_NCH = 2 * (selectNear 17 (s.workingNear r)).length % 2 ^ F.NTC_CONFIG_NCH.width ∧
      Frame [.evt] (fun _ => True) s t := by
  have hlay : ∃ rate clam excl frames, s.layNear r =
      (s.nearConfigured (maskOf ((selectNear 17 (s.workingNear r)).map (·.pos))) rate clam
        (2 * (selectNear 17 (s.workingNear r)).length)).nearExcluded
          (maskOf ((selectNear 17 (s.workingNear r)).map (·.pos))) excl frames := ⟨_, _, _, _, rfl⟩
  obtain ⟨rate, clam, excl, frames, hlay⟩ := hlay
  obtain ⟨hact, hnch, hconf⟩ := s.nearConfigured_spec (maskOf ((selectNear 17 (s.workingNear r)).map (·.pos))) rate clam
    (2 * (selectNear 17 (s.workingNear r)).length)
  rw [hlay] at ht
  subst ht
  generalize s.nearConfigured _ rate clam _ = u at *
  have hexcl := u.nearExcluded_frame (maskOf ((selectNear 17 (s.workingNear r)).map (·.pos))) excl frames
  exact ⟨(rd_of_away hexcl (by decide)).trans hact, (rd_of_away hexcl (by decide)).trans hnch,
    Frame.trans (hconf.mono (by decide) fun _ h => h) (hexcl.mono (by decide) fun _ _ => trivial)⟩

/-- The fields of a DIMM's page. -/
def State.dimmNoted (s : State) (d : DimmInfo) (used : Bool) : State :=
  let i := 2 * d.ch + d.slot
  ((((s.wrI F.BTC_DIMM_ID_PRESENT i 1).wrI F.BTC_DIMM_ID_EXCLUDED i (b2n (!used))).wrI F.BTC_DIMM_ID_RANKS i
    (dimmRanks d)).wrI F.BTC_DIMM_ID_DENSITY i d.density).wrI F.BTC_DIMM_ID_SERIAL i d.serial.toNat

theorem State.dimmNoted_frame (s : State) (d : DimmInfo) (used : Bool) : Frame [] AwayKeys s (s.dimmNoted d used) := by
  have hwrite : ∀ (u : State) (f : Fld) (i v : Nat), 11 ≤ f.blk → Frame [] AwayKeys u (u.wrI f i v) := fun u f i v hf =>
    (Frame.refl _ _ u).wrI f i v (.inl (awayKeys_of_blk i 0 hf))
  exact ((((hwrite _ _ _ _ (by decide)).trans (hwrite _ _ _ _ (by decide))).trans (hwrite _ _ _ _ (by decide))).trans
    (hwrite _ _ _ _ (by decide))).trans (hwrite _ _ _ _ (by decide))

/-- The configuration of the bulk tier is written, and its DIMMs are kept. -/
def State.bulkConfigured (s : State) (slow act nch sets rate : Nat) (l : List RankSet) (dimms : List DimmInfo) : State :=
  let s1 := ((((s.wr F.BTC_SB_SLOW slow).wr F.BTC_CONFIG_CH_ACTIVE act).wr F.BTC_CONFIG_NCH nch).wr F.BTC_CONFIG_SETS
    sets).wr F.BTC_CONFIG_RATE rate
  { s1 with bulk := { s1.bulk with sets := l, dimms := dimms } }

/-- The subchannels that the selection leaves out are noted and raised. -/
def State.bulkExcluded (s : State) (act : Nat) (out : Nat → Bool) : State :=
  (List.range 32).foldl (fun s u =>
    let s4 := s.wrI F.BTC_SC_CTL_EXCLUDED u (b2n (!act.testBit (u / 2)))
    if !act.testBit (u / 2) ∨ out u then s4.raise (cBtc u 1) else s4) s

theorem State.bulkExcluded_frame (s : State) (act : Nat) (out : Nat → Bool) :
    Frame [.evt] AwayKeys s (s.bulkExcluded act out) :=
  Frame.foldl _ _ s fun t u _ => by
    have hkey : Frame [.evt] AwayKeys t (t.wrI F.BTC_SC_CTL_EXCLUDED u (b2n (!act.testBit (u / 2)))) :=
      (Frame.refl _ _ t).wrI _ _ _ (.inl (awayKeys_of_blk _ _ (by decide)))
    exact Frame.ite _ (fun _ => hkey.raise (cBtc u 1) _ _ _ (by decide)
      (.inl (awayKeys_of_blk (f := F.EVT_RAW_CAUSE 11) _ _ (by decide)))) fun _ => hkey

/-- The bulk side of a selection keeps the DIMMs it was given, and leaves the near tier's configuration. -/
theorem State.layBulk_spec (s : State) (r : TrainResult) {t : State} (ht : s.layBulk r = t) :
    t.bulk.dimms = r.dimms ∧ Frame [.evt, .bulk] AwayKeys s t := by
  have hlay : ∃ (slow act nch sets rate : Nat) (l : List RankSet) (used : DimmInfo → Bool) (out : Nat → Bool), s.layBulk r =
      (r.dimms.foldl (fun u d => u.dimmNoted d (used d)) (s.bulkConfigured slow act nch sets rate l r.dimms)).bulkExcluded
        act out := by
    unfold State.layBulk
    dsimp only
    generalize (selectBulk 33 (s.workingDimms r)).getD { chans := [], slots := [], dimms := [] } = a
    exact ⟨_, _, _, _, _, _, fun d => a.dimms.contains d,
      fun u => r.dimms.any (fun d => decide (d.ch = u / 2) && !a.dimms.contains d), rfl⟩
  obtain ⟨slow, act, nch, sets, rate, l, used, out, hlay⟩ := hlay
  rw [hlay] at ht
  subst ht
  have hconf : Frame [.bulk] AwayKeys s (s.bulkConfigured slow act nch sets rate l r.dimms) :=
    ((((((Frame.refl _ _ s).wr _ _ (.inl (awayKeys_of_blk _ _ (by decide)))).wr _ _ (.inl (awayKeys_of_blk _ _
      (by decide)))).wr _ _ (.inl (awayKeys_of_blk _ _ (by decide)))).wr _ _ (.inl (awayKeys_of_blk _ _ (by decide)))).wr
        _ _ (.inl (awayKeys_of_blk _ _ (by decide)))).with_bulk _ (by decide)
  have hdimms : (s.bulkConfigured slow act nch sets rate l r.dimms).bulk.dimms = r.dimms := rfl
  generalize s.bulkConfigured slow act nch sets rate l r.dimms = u at *
  have hnoted : Frame [] AwayKeys u (r.dimms.foldl (fun u d => u.dimmNoted d (used d)) u) :=
    Frame.foldl _ _ u fun t d _ => t.dimmNoted_frame d (used d)
  generalize r.dimms.foldl (fun u d => u.dimmNoted d (used d)) u = v at *
  have hexcl := v.bulkExcluded_frame act out
  refine ⟨?_, (Frame.trans (hconf.mono (by decide) fun _ h => h) (hnoted.mono (by decide) fun _ h => h)).trans
    (hexcl.mono (by decide) fun _ h => h)⟩
  exact (congrArg Bulk.dimms ((hexcl.1 .bulk (by decide)).trans (hnoted.1 .bulk (by decide)))).trans hdimms

theorem State.laySpace_frame (s : State) : Frame [.tmu] AwayKeys s s.laySpace :=
  ((((((((Frame.refl _ _ s).wr F.TMU_CAP_TOTAL_SECTORS _ (by decide)).wr F.TMU_MAP_BASE_LOC _ (by decide)).wr
    F.TMU_MAP_SIZE_SECTORS _ (by decide)).wr F.SCR_FRAMES_TOTAL _ (by decide)).wr F.RAS_RESERVE_TOTAL _ (by decide)).wr
      F.RAS_RESERVE2_REMAIN _ (by decide)).with_tmu _ (by decide))

theorem State.enterModes_spec (s : State) : s.enterModes.adm.recompute = true ∧
    Frame [.evt, .adm] AwayKeys s s.enterModes := by
  have hle : ∀ g ∈ nearConfig, (0x100000 + 10 * 0x100000) * 64 ≤ g.key 0 0 := by decide
  refine ⟨rfl, s.enterModes_frame.mono (fun _ h => h) fun key h g hg heq => ?_⟩
  have hlt := h.2
  have hnear := hle g hg
  omega

/-- What training finds at a cold reset is laid out afresh. -/
def State.laidOut (s : State) (r : TrainResult) : State := ((s.layNear r).layBulk r).laySpace.enterModes

theorem State.laidOut_spec (s : State) (r : TrainResult) {t : State} (ht : s.laidOut r = t) :
    t.rd F.NTC_CONFIG_POS_ACTIVE = maskOf ((selectNear 17 (s.workingNear r)).map (·.pos)) % 2 ^ 16 ∧
      t.rd F.NTC_CONFIG_NCH = 2 * (selectNear 17 (s.workingNear r)).length % 2 ^ F.NTC_CONFIG_NCH.width ∧
      t.bulk.dimms = r.dimms ∧ t.adm.recompute = true ∧ Frame [.evt, .bulk, .tmu, .adm] (fun _ => True) s t := by
  subst ht
  obtain ⟨hact, hnch, hnear⟩ := s.layNear_spec r rfl
  unfold State.laidOut
  generalize s.layNear r = u at *
  obtain ⟨hdimms, hbulk⟩ := u.layBulk_spec r rfl
  generalize u.layBulk r = v at *
  have hspace := v.laySpace_frame
  generalize v.laySpace = w at *
  obtain ⟨hrecompute, hmodes⟩ := w.enterModes_spec
  have hkept : ∀ f ∈ nearConfig, w.enterModes.rd f = u.rd f := fun f hf =>
    (rd_of_away hmodes hf).trans ((rd_of_away hspace hf).trans (rd_of_away hbulk hf))
  refine ⟨(hkept _ (by decide)).trans hact, (hkept _ (by decide)).trans hnch, ?_, hrecompute, ?_⟩
  · exact (congrArg Bulk.dimms ((hmodes.1 .bulk (by decide)).trans (hspace.1 .bulk (by decide)))).trans hdimms
  · exact (((hnear.mono (by decide) fun _ h => h).trans (hbulk.mono (by decide) fun _ _ => trivial)).trans
      (hspace.mono (by decide) fun _ _ => trivial)).trans (hmodes.mono (by decide) fun _ _ => trivial)

/-- Training ends: the serial numbers and the trained values are kept. -/
def State.trainingKept (s : State) (r : TrainResult) : State :=
  let s1 := s.wr F.BTC_SB_SLOW r.slow.toNat
  let s2 := s1.setMem { s1.mem with serials := serialsOf r.dimms }
  (s2.setCtl { s2.ctl with trained := true }).saveTraining

theorem State.trainingKept_spec (s : State) (r : TrainResult) :
    (s.trainingKept r).ctl.trained = true ∧ (s.trainingKept r).mem.serials = serialsOf r.dimms ∧
      Frame [.mem, .ctl, .aon, .draw] AwayKeys s (s.trainingKept r) := by
  refine ⟨rfl, rfl, Frame.trans (Frame.setCtl (Frame.setMem ((Frame.refl _ _ s).wr F.BTC_SB_SLOW _
    (.inl (awayKeys_of_blk _ _ (by decide)))) _ (by decide)) _ (by decide)) ((State.saveTraining_frame _).mono (by decide)
      fun _ h => h.elim)⟩

theorem execMemoryTrainingDone_cold {s : State} (r : TrainResult) (hheld : s.aon.held = false) (hoff : s.aon.off = 0)
    (hhealth : s.rd F.CTL_HEALTH_STATE = 2) (hclocks : s.memClocks = true) (htrained : s.ctl.trained = false)
    (hseen : s.aon.seenActive = false) : execMemoryTrainingDone r s = .next ((s.laidOut r).trainingKept r) := by
  refine (next_of_neg (by simp [State.inReset, hheld, hoff, hhealth, hclocks])).trans
    ((next_of_neg (by simp [htrained])).trans (congrArg Host.Outcome.next ?_))
  have hlaid : s.applyTraining r = s.laidOut r := if_pos (by simp [hseen])
  rw [hlaid]
  rfl

/-! ## Memory service (R449, R537) -/

/-- The keys of the error log. -/
abbrev LogKeys (key : Nat) : Prop :=
  key = F.RAS_LOG_PROD.key 0 0 ∨ key = F.RAS_LOG_CONS.key 0 0 ∨ key = F.RAS_LOG_LOST.key 0 0 ∨
    key = (F.EVT_RAW_CAUSE 12).key 0 0

theorem State.restartLog_frame (s : State) (cause : Nat) : Frame [.evt, .ras] LogKeys s (s.restartLog cause) :=
  ((((Frame.refl _ _ s).wr F.RAS_LOG_PROD 0 (by decide)).wr F.RAS_LOG_CONS 0 (by decide)).setRas _ (by decide)).log _ _
    (by decide) (by decide) (by decide) (by decide) (by decide)

theorem State.recordCores_frame (s : State) : Frame [.evt, .ras] LogKeys s s.recordCores :=
  Frame.trans ((Frame.refl _ _ s).with_ras _ (by decide)) (Frame.foldl _ _ _ fun u _ _ =>
    (Frame.refl _ _ u).spare _ _ _ _ (by decide) (by decide) (by decide) (by decide) (by decide))

/-- The keys of the modes of the tiers. -/
abbrev ModeKeys (key : Nat) : Prop :=
  key = F.SCR_MOV_STS_NEAR_ONLY.key 0 0 ∨ key = F.SCR_MOV_STS_BULK_ONLY.key 0 0 ∨ key = (F.EVT_RAW_CAUSE 9).key 0 0

theorem State.enterModes_keys (s : State) : Frame [.evt, .adm] ModeKeys s s.enterModes := by
  refine Frame.with_adm ?_ _ (by decide)
  refine Frame.trans (t := if s.selNearOnly ∧ !s.rdb F.SCR_MOV_STS_NEAR_ONLY then
    (s.wr F.SCR_MOV_STS_NEAR_ONLY 1).raise cNearOnly else s) ?_ ?_
  · exact Frame.ite _ (fun _ => ((Frame.refl _ _ _).wr F.SCR_MOV_STS_NEAR_ONLY _ (by decide)).raise cNearOnly _ _ _
      (by decide) (by decide)) fun _ => Frame.refl _ _ _
  · exact Frame.ite _ (fun _ => ((Frame.refl _ _ _).wr F.SCR_MOV_STS_BULK_ONLY _ (by decide)).raise cBulkOnly _ _ _
      (by decide) (by decide)) fun _ => Frame.refl _ _ _

/-- The log takes the substitutions of the boot; at a cold reset it restarts first. -/
def State.logReady (s : State) : State := (if s.aon.seenActive then s else s.restartLog 1).recordCores

theorem State.logReady_frame (s : State) : Frame [.evt, .ras] LogKeys s s.logReady :=
  Frame.trans (Frame.ite _ (fun _ => Frame.refl _ _ s) fun _ => s.restartLog_frame 1) (State.recordCores_frame _)

/-- The registers of both tiers and of HEALTH say that memory serves. -/
def State.serviceOpen (s : State) : State :=
  let s3 := ((s.wr F.NTC_SR_STATE 0).wr F.BTC_SR_STATE 0).setMem { s.mem with entry := 0, bulkIn := false, nearIn := false }
  ((s3.wr F.CTL_HEALTH_STATE 3).wr F.CTL_HEALTH_MEM_ACTIVE 1).setAon { s3.aon with seenActive := true }

/-- The keys of the registers that open memory service. -/
abbrev OpenKeys (key : Nat) : Prop :=
  key = F.CTL_HEALTH_STATE.key 0 0 ∨ key = F.CTL_HEALTH_MEM_ACTIVE.key 0 0 ∨ key = F.NTC_SR_STATE.key 0 0 ∨
    key = F.BTC_SR_STATE.key 0 0

theorem State.serviceOpen_spec (s : State) :
    s.serviceOpen.rd F.CTL_HEALTH_STATE = 3 ∧ s.serviceOpen.rd F.CTL_HEALTH_MEM_ACTIVE = 1 ∧
      s.serviceOpen.rd F.NTC_SR_STATE = 0 ∧ s.serviceOpen.rd F.BTC_SR_STATE = 0 ∧ s.serviceOpen.aon.seenActive = true ∧
      Frame [.aon, .mem] OpenKeys s s.serviceOpen := by
  unfold State.serviceOpen
  refine ⟨?health, ?active, ?near, ?bulk, rfl, ?frame⟩
  case health =>
    rw [State.setAon_rd, State.rd_wr_ne _ _ _ _ _ _ (by decide), State.rd_wr_same]; rfl
  case active => rw [State.setAon_rd, State.rd_wr_same]; rfl
  case near =>
    rw [State.setAon_rd, State.rd_wr_ne _ _ _ _ _ _ (by decide), State.rd_wr_ne _ _ _ _ _ _ (by decide), State.setMem_rd,
      State.rd_wr_ne _ _ _ _ _ _ (by decide), State.rd_wr_same]; rfl
  case bulk =>
    rw [State.setAon_rd, State.rd_wr_ne _ _ _ _ _ _ (by decide), State.rd_wr_ne _ _ _ _ _ _ (by decide), State.setMem_rd,
      State.rd_wr_same]; rfl
  case frame =>
    exact (((((Frame.refl _ _ s).wr F.NTC_SR_STATE 0 (by decide)).wr F.BTC_SR_STATE 0 (by decide)).setMem _ (by decide)).wr
      F.CTL_HEALTH_STATE 3 (by decide)).wr F.CTL_HEALTH_MEM_ACTIVE 1 (by decide) |>.setAon _ (by decide)

/-- The keys of a copy's start beside the roles'. -/
abbrev BootKeys (key : Nat) : Prop :=
  key = F.CTL_BOOT_COPY.key 0 0 ∨ key = F.CTL_FW_VER_VERSION.key 0 0 ∨ key = F.CTL_FW_VER_SVN.key 0 0 ∨
    key = F.CTL_HEALTH_STATE.key 0 0 ∨ key = (F.EVT_RAW_CAUSE 1).key 0 0 ∨ key = F.CTL_BOOT_TRIAL.key 0 0 ∨
    key = F.CTL_BOOT_FALLBACK.key 0 0

theorem copyKeys_boot {key : Nat} (h : CopyKeys key) : BootKeys key := by
  rcases h with h | h | h | h | h
  · exact .inl h
  · exact .inr (.inl h)
  · exact .inr (.inr (.inl h))
  · exact .inr (.inr (.inr (.inl h)))
  · exact .inr (.inr (.inr (.inr (.inl h))))

theorem noteKeys_boot {key : Nat} (h : NoteKeys key) : BootKeys key := .inr (.inr (.inr (.inr h)))

theorem State.rd_lock_serviceOpen (s : State) {b : Nat} (hb : b < 15) :
    s.serviceOpen.rd (F.BLK_CTL_LOCK b) = s.rd (F.BLK_CTL_LOCK b) := by
  have hkeys : ∀ b < 15, (F.BLK_CTL_LOCK b).key 0 0 ≠ F.CTL_HEALTH_STATE.key 0 0 ∧
      (F.BLK_CTL_LOCK b).key 0 0 ≠ F.CTL_HEALTH_MEM_ACTIVE.key 0 0 ∧
      (F.BLK_CTL_LOCK b).key 0 0 ≠ F.NTC_SR_STATE.key 0 0 ∧ (F.BLK_CTL_LOCK b).key 0 0 ≠ F.BTC_SR_STATE.key 0 0 := by
    decide
  obtain ⟨hhealth, hactive, hnear, hbulk⟩ := hkeys b hb
  rw [State.serviceOpen, State.setAon_rd, State.rd_wr_ne _ _ _ _ _ _ hactive, State.rd_wr_ne _ _ _ _ _ _ hhealth,
    State.setMem_rd, State.rd_wr_ne _ _ _ _ _ _ hbulk, State.rd_wr_ne _ _ _ _ _ _ hnear]

/-- Memory serves: the log is ready, every block is locked, and the registers say so. -/
def State.served (s : State) : State := s.logReady.lockBlocks.serviceOpen

/-- The keys that the start of memory service writes, in the order of its steps. -/
abbrev ServedKeys (key : Nat) : Prop :=
  LockKeys key ∨ (key = F.CTL_HEALTH_STATE.key 0 0 ∨ key = F.CTL_HEALTH_MEM_ACTIVE.key 0 0 ∨
    key = F.NTC_SR_STATE.key 0 0 ∨ key = F.BTC_SR_STATE.key 0 0) ∨ LogKeys key

theorem State.served_spec (s : State) {t : State} (ht : s.served = t) :
    t.rd F.CTL_HEALTH_STATE = 3 ∧ t.rd F.CTL_HEALTH_MEM_ACTIVE = 1 ∧ t.rd F.NTC_SR_STATE = 0 ∧
      t.rd F.BTC_SR_STATE = 0 ∧ t.aon.seenActive = true ∧ (∀ b < 15, t.rd (F.BLK_CTL_LOCK b) = 1) ∧
      Frame [.evt, .ras, .aon, .mem] ServedKeys s t := by
  subst ht
  have hlog := s.logReady_frame
  unfold State.served
  generalize s.logReady = u at *
  have hlock := u.lockBlocks_frame
  have hlocked : ∀ b < 15, u.lockBlocks.rd (F.BLK_CTL_LOCK b) = 1 := fun b hb => u.rd_lock_lockBlocks hb
  generalize u.lockBlocks = v at *
  obtain ⟨hhealth, hactive, hnear, hbulk, hseen, hopen⟩ := v.serviceOpen_spec
  refine ⟨hhealth, hactive, hnear, hbulk, hseen, fun b hb => (v.rd_lock_serviceOpen hb).trans (hlocked b hb), ?_⟩
  exact ((hlog.mono (by decide) fun _ h => .inr (.inr h)).trans (hlock.mono (by decide) fun _ h => .inl h)).trans
    (hopen.mono (by decide) fun _ h => .inr (.inl h))

/-- The end of the start: the modes of the tiers are entered and the reset cause is raised. -/
theorem State.servedEnd_spec (s : State) {t : State} (ht : s.enterModes.raise cResetCause = t) :
    (t.rd (F.EVT_RAW_CAUSE 0) 1).testBit 12 = true ∧ (∀ b < 15, t.rd (F.BLK_CTL_LOCK b) = s.rd (F.BLK_CTL_LOCK b)) ∧
      Frame [.evt, .adm] (fun key => ModeKeys key ∨ key = (F.EVT_RAW_CAUSE 0).key 1 0) s t := by
  subst ht
  have hraw : ∀ b < 15, (F.BLK_CTL_LOCK b).key 0 0 ≠ (F.EVT_RAW_CAUSE 0).key 1 0 := by decide
  refine ⟨State.raise_testBit _ cResetCause none none [] (by decide), fun b hb => ?_,
    (s.enterModes_keys.mono (fun _ h => h) fun _ h => .inl h).raise cResetCause _ _ _ (by decide) (.inl (.inr rfl))⟩
  exact (State.rd_raise_ne _ cResetCause _ _ _ _ _ _ (hraw b hb)).trans (s.rd_lock_enterModes hb)

/-- The keys of the start of memory service, in the order of the statement. -/
theorem serviceKeys_of_served {key : Nat}
    (h : ServedKeys key ∨ ModeKeys key ∨ key = (F.EVT_RAW_CAUSE 0).key 1 0) :
    LockKeys key ∨ key = F.CTL_HEALTH_STATE.key 0 0 ∨ key = F.CTL_HEALTH_MEM_ACTIVE.key 0 0 ∨
      key = F.NTC_SR_STATE.key 0 0 ∨ key = F.BTC_SR_STATE.key 0 0 ∨ key = F.RAS_LOG_PROD.key 0 0 ∨
      key = F.RAS_LOG_CONS.key 0 0 ∨ key = F.RAS_LOG_LOST.key 0 0 ∨ key = F.SCR_MOV_STS_NEAR_ONLY.key 0 0 ∨
      key = F.SCR_MOV_STS_BULK_ONLY.key 0 0 ∨ key = (F.EVT_RAW_CAUSE 0).key 1 0 ∨ key = (F.EVT_RAW_CAUSE 9).key 0 0 ∨
      key = (F.EVT_RAW_CAUSE 12).key 0 0 := by
  simp only [ServedKeys, LogKeys, ModeKeys] at h
  rcases h with (h | (h | h | h | h) | (h | h | h | h)) | (h | h | h) | h <;> simp only [h, true_or, or_true]

theorem execMemActive_serves {s : State} (hheld : s.aon.held = false) (hoff : s.aon.off = 0)
    (hquiet : s.aon.quiescing = false) (hhealth : s.rd F.CTL_HEALTH_STATE = 2) (htrained : s.ctl.trained = true)
    (hservice : s.noService = false) (hhalt : s.cry.halt = 0)
    (htrial : s.served.rd F.CTL_BOOT_TRIAL = 0) :
    execMemActive s = .next (s.served.enterModes.raise cResetCause) := by
  refine (next_of_neg (by simp [State.inReset, hheld, hoff, hquiet, hhealth, htrained, hservice, hhalt])).trans
    (congrArg Host.Outcome.next ?_)
  have hplain : ¬ s.served.rdb F.CTL_BOOT_TRIAL = true := by simp [State.rdb, htrial]
  show State.raise (State.enterModes (if s.served.rdb F.CTL_BOOT_TRIAL then _ else s.served)) cResetCause = _
  rw [if_neg hplain]

/-- Settles O13: the ROM and the copy checks by their steps, the fuse load and training by what each stage leaves, and the
start of memory service. -/
theorem bootCopiesAndMemory : Obligations.BootCopiesAndMemory := by
  unfold Obligations.BootCopiesAndMemory
  refine ⟨?passed, ?rom, ?accepted, ?rejected, ?recovery, ?fuses, ?trained, ?active⟩
  case passed =>
    exact fun s hheld hoff hloaded halive hcore hrun hspare =>
      ⟨_, execBootCoreAliveTimeout_passes hheld hoff hloaded halive hcore hrun hspare, s.bootPassed_spec⟩
  case rom =>
    intro s hheld hoff hloaded hrom hok htrial
    exact ⟨_, execBootRom_plain hheld hoff hloaded hrom hok htrial, rfl, rfl, rfl, State.rd_wr_same _ _ _, rfl,
      s.romTakes_frame⟩
  case accepted =>
    intro s copy readErr hheld hoff hcopy hchecking hgood
    have hexec := execFlashCopyChecked_accepts hheld hoff hcopy hchecking hgood
    have hrun := s.runCopy_runs (s.flash (copyBase copy) 512) (Nat.lt_trans hcopy (by decide))
    generalize s.flash (copyBase copy) 512 = header at *
    generalize s.runCopy copy header = u at *
    obtain ⟨htrial, hfallback, hcause, hnote⟩ := s.bootNoted_spec u
    generalize s.bootNoted u = t at *
    have hroles : ∀ c < 14, ¬ NoteKeys (F.CTL_CORE_ROLE_ROLES.key c 0) := by decide
    have hcry : t.cry = u.cry := hnote.1 .cry (by decide)
    obtain ⟨due, hctl⟩ := hrun.ctl
    have hctl1 : t.ctl = { s.ctl.running header with revertDue := due } :=
      (hnote.1 .ctl (by decide)).trans hctl
    refine ⟨t, hexec, ?_, ?_, htrial, hfallback, hcause, ?_, ?_, ?_, ?_, ?_, ?_, ?_, ?_, ?_, ?_, ?_⟩
    · exact (hnote.rd _ _ _ (by decide) (by decide)).trans hrun.copy
    · rw [hctl1]; rfl
    · exact (hnote.rd _ _ _ (by decide) (by decide)).trans hrun.version
    · exact (hnote.rd _ _ _ (by decide) (by decide)).trans hrun.svn
    · exact (hnote.rd _ _ _ (by decide) (by decide)).trans hrun.health
    · exact congrArg Ctl.header hctl1
    · rw [hctl1]; rfl
    · rw [hctl1]; rfl
    · rw [hctl1]; rfl
    · intro c hc h
      rw [hnote.rd _ _ _ (hroles c hc) (coreState_not_copyKeys c hc).2.2]
      exact hrun.roles c hc h
    · exact fun h => hcry.trans (hrun.rootKept h)
    · exact fun h htrng hseen => hcry.trans (hrun.rootDrawn h htrng hseen)
    · refine Frame.trans (hrun.frame.mono (fun _ h => h) fun _ h => ?_) (hnote.mono (by decide) fun _ h => ?_)
      · exact h.elim .inl fun h => .inr (copyKeys_boot h)
      · exact .inr (noteKeys_boot h)
  case rejected =>
    intro s copy readErr hheld hoff hcopy hchecking hbad hfirst
    have hexec := (execFlashCopyChecked_rejects hheld hoff hcopy hchecking hbad).trans (next_of_pos hfirst)
    exact ⟨_, hexec, s.triesOther_spec copy readErr rfl⟩
  case recovery =>
    intro s copy readErr hheld hoff hcopy hchecking hbad hsecond
    have hexec := (execFlashCopyChecked_rejects hheld hoff hcopy hchecking hbad).trans
      (next_of_neg (by simp [hsecond]))
    exact ⟨_, hexec, s.recovers_spec copy readErr rfl⟩
  case fuses =>
    intro s rows fuses trngFails hloading hwaiting htrng _ hperms
    obtain ⟨t, hexec, hload, hloaded, hfuses, hpins, hok, hframe⟩ :=
      execFuseLoadDone_spec rows fuses trngFails hloading hwaiting htrng hperms
    exact ⟨t, hexec, hload, hloaded, hfuses, hpins, hok, hframe.1 .near (by decide), hframe.1 .bulk (by decide),
      hframe.1 .ctl (by decide), hframe.1 .pending (by decide), hframe.1 .out (by decide)⟩
  case trained =>
    intro s r hheld hoff hhealth hclocks htrained hseen
    have hexec := execMemoryTrainingDone_cold r hheld hoff hhealth hclocks htrained hseen
    obtain ⟨hact, hnch, hdimms, hrecompute, hlaid⟩ := s.laidOut_spec r rfl
    generalize s.laidOut r = u at *
    obtain ⟨hdone, hserials, hkept⟩ := u.trainingKept_spec r
    have hall : Frame [.evt, .bulk, .tmu, .adm, .mem, .ctl, .aon, .draw] (fun _ => True) s (u.trainingKept r) :=
      Frame.trans (hlaid.mono (by decide) fun _ h => h) (hkept.mono (by decide) fun _ _ => trivial)
    exact ⟨_, hexec, hdone, (rd_of_away hkept (by decide)).trans hact, (rd_of_away hkept (by decide)).trans hnch, hserials,
      (congrArg Bulk.dimms (hkept.1 .bulk (by decide))).trans hdimms,
      (congrArg Adm.recompute (hkept.1 .adm (by decide))).trans hrecompute, hall.1 .cry (by decide),
      hall.1 .pending (by decide), hall.1 .out (by decide)⟩
  case active =>
    intro s hheld hoff hquiet hhealth htrained hservice hhalt htrial
    have hserved : ∀ v, s.served = v → v.rd F.CTL_BOOT_TRIAL = 0 := fun v hv => by
      obtain ⟨-, -, -, -, -, -, hframe⟩ := s.served_spec hv
      exact (hframe.rd _ _ _ (by decide) (by decide)).trans htrial
    have hexec := execMemActive_serves hheld hoff hquiet hhealth htrained hservice hhalt (hserved _ rfl)
    obtain ⟨hstate, hactive, hnear, hbulk, hseen, hlocks, hframe⟩ := s.served_spec rfl
    generalize s.served = u at *
    obtain ⟨hcause, hkept, hend⟩ := u.servedEnd_spec rfl
    generalize u.enterModes.raise cResetCause = t at *
    have hall : Frame [.evt, .ras, .adm, .aon, .mem] (fun key => ServedKeys key ∨ ModeKeys key ∨
        key = (F.EVT_RAW_CAUSE 0).key 1 0) s t :=
      Frame.trans (hframe.mono (by decide) fun _ h => .inl h) (hend.mono (by decide) fun _ h => .inr h)
    refine ⟨t, hexec, ?_, ?_, fun b hb => (hkept b hb).trans (hlocks b hb), ?_, ?_, ?_, hcause, hall.1 .near (by decide),
      hall.1 .bulk (by decide), hall.1 .tmu (by decide), hall.1 .cry (by decide), hall.mono (fun _ h => h) ?_⟩
    · exact (hend.rd _ _ _ (by decide) (by decide)).trans hstate
    · exact (hend.rd _ _ _ (by decide) (by decide)).trans hactive
    · exact (hend.rd _ _ _ (by decide) (by decide)).trans hnear
    · exact (hend.rd _ _ _ (by decide) (by decide)).trans hbulk
    · exact (congrArg Aon.seenActive (hend.1 .aon (by decide))).trans hseen
    · exact fun key h => serviceKeys_of_served h

end Sys2Proof.Machine
end

section
/-!
PROOFS for O56 and O58, the rules: a state that keeps the queue of commands and the canonical form of another, and how
branches, loops, optional results and the two primitive writes, of a register and of a byte memory, keep them.
-/
namespace Sys2Proof.Machine
open Sys2Proof.Safety

/-! ## What is kept -/

/-- t has the queue of s, and is in canonical form when s is. -/
structure Keeps (s t : State) : Prop where
  queue : t.pending = s.pending
  canonical : Canonical s → Canonical t

/-- The state that an attempt to snoop answers, if it answers one, keeps s. -/
def SnoopKeeps (s : State) : Snooped → Prop
  | .free u => Keeps s u
  | .busy u => Keeps s u
  | .credit => True

/-- The state that the directory's step answers keeps s. -/
def DirKeeps (s : State) : DirAns → Prop
  | .pass u => Keeps s u
  | .held u => Keeps s u
  | .wait u _ => Keeps s u

/-- The state that a step of a tile job answers, if it answers one, keeps s. -/
def TileKeeps (s : State) : TileStep → Prop
  | .done u _ => Keeps s u
  | .begun u => Keeps s u
  | .later => True
  | .noFrame => True
  | .stop u _ _ => Keeps s u

/-- The state of a placed region, or nothing where it has no place, keeps s. -/
def PlaceKeeps (s : State) (r : Except (Nat × Nat) (Nat × State)) : Prop := ∀ p, r = .ok p → Keeps s p.2

/-- The state of a refused target of a job keeps s. -/
def TargetKeeps (s : State) (r : Except (State × Nat × Nat) Nat) : Prop := ∀ e, r = .error e → Keeps s e.1

/-- The fields of a kind of unit that its commands write fit a register. -/
structure Kind.Fits (k : Kind) : Prop where
  state : k.state.width ≤ 64
  count : k.count.width ≤ 64
  total : k.total.width ≤ 64

/-- Every state that an optional result holds keeps s. -/
def Yields (s : State) (o : Option State) : Prop := ∀ u, o = some u → Keeps s u

/-- Every state that an optional pair holds keeps s. -/
def YieldsSnd {α : Type} (s : State) (o : Option (α × State)) : Prop := ∀ p, o = some p → Keeps s p.2

/-- The state that a check of a mailbox command answers, if it answers one, keeps s. -/
def Replies (s : State) : Ans → Prop
  | .ok u _ => Keeps s u
  | .err _ _ => True
  | .raised u _ _ => Keeps s u

/-- The state that a command answers, if it answers one, keeps s. -/
def Ends (s : State) : Result → Prop
  | .next u => Keeps s u
  | _ => True

theorem Keeps.refl (s : State) : Keeps s s := ⟨rfl, id⟩

/-! ## Changes of one part -/

section
variable {s t : State} (h : Keeps s t)
include h

theorem Keeps.withOut {x : List Out} : Keeps s { t with out := x } := ⟨h.queue, h.canonical⟩

theorem Keeps.withDraw {x : Nat} : Keeps s { t with draw := x } := ⟨h.queue, h.canonical⟩

theorem Keeps.withFuses {x : Fuses} : Keeps s { t with fuses := x } := ⟨h.queue, h.canonical⟩

theorem Keeps.withStraps {x : Straps} : Keeps s { t with straps := x } := ⟨h.queue, h.canonical⟩

theorem Keeps.withEvt {x : Evt} : Keeps s { t with evt := x } := ⟨h.queue, h.canonical⟩

theorem Keeps.withTmu {x : Tmu} : Keeps s { t with tmu := x } := ⟨h.queue, h.canonical⟩

theorem Keeps.withCry {x : Cry} : Keeps s { t with cry := x } := ⟨h.queue, h.canonical⟩

theorem Keeps.withScr {x : Scr} : Keeps s { t with scr := x } := ⟨h.queue, h.canonical⟩

theorem Keeps.withCdc {x : Cdc} : Keeps s { t with cdc := x } := ⟨h.queue, h.canonical⟩

theorem Keeps.withRas {x : Ras} : Keeps s { t with ras := x } := ⟨h.queue, h.canonical⟩

theorem Keeps.withAdm {x : Adm} : Keeps s { t with adm := x } := ⟨h.queue, h.canonical⟩

theorem Keeps.withDir {x : Dir} : Keeps s { t with dir := x } := ⟨h.queue, h.canonical⟩

theorem Keeps.withJob {x : JobMgr} : Keeps s { t with job := x } := ⟨h.queue, h.canonical⟩

theorem Keeps.withMem {x : Mem} : Keeps s { t with mem := x } := ⟨h.queue, h.canonical⟩

theorem Keeps.withHlx {x : Hlx} : Keeps s { t with hlx := x } := ⟨h.queue, h.canonical⟩

theorem Keeps.withAon {x : Aon} : Keeps s { t with aon := x } := ⟨h.queue, h.canonical⟩

/-- The registers change, and stay canonical. -/
theorem Keeps.withRegs {x : List (Nat × Nat)} (hx : mwf t.regs = true → mwf x = true)
    (hw : (∀ e ∈ t.regs, e.2 < 2 ^ 64) → ∀ e ∈ x, e.2 < 2 ^ 64) : Keeps s { t with regs := x } := by
  refine ⟨h.queue, fun hs => ?_⟩
  obtain ⟨hmap, hwords, hmem⟩ := h.canonical hs
  exact ⟨hx hmap, hw hwords, hmem⟩

/-- The near tier changes, and its memory keeps its form. -/
theorem Keeps.withNearMem {x : Near} (hx : memWf 0 t.near.mem = true → memWf 0 x.mem = true) :
    Keeps s { t with near := x } := by
  refine ⟨h.queue, fun hs => ?_⟩
  obtain ⟨hmap, hwords, hnear, hbulk, hflash, hports⟩ := h.canonical hs
  exact ⟨hmap, hwords, hx hnear, hbulk, hflash, hports⟩

/-- The bulk tier changes, and its memory keeps its form. -/
theorem Keeps.withBulkMem {x : Bulk} (hx : memWf 0 t.bulk.mem = true → memWf 0 x.mem = true) :
    Keeps s { t with bulk := x } := by
  refine ⟨h.queue, fun hs => ?_⟩
  obtain ⟨hmap, hwords, hnear, hbulk, hflash, hports⟩ := h.canonical hs
  exact ⟨hmap, hwords, hnear, hx hbulk, hflash, hports⟩

/-- CTL changes, and the flash keeps its form. -/
theorem Keeps.withFlash {x : Ctl} (hx : memWf 0xff t.ctl.flash = true → memWf 0xff x.flash = true) :
    Keeps s { t with ctl := x } := by
  refine ⟨h.queue, fun hs => ?_⟩
  obtain ⟨hmap, hwords, hnear, hbulk, hflash, hports⟩ := h.canonical hs
  exact ⟨hmap, hwords, hnear, hbulk, hx hflash, hports⟩

theorem Keeps.withNear {x : Near} (hx : x.mem = t.near.mem := by with_reducible rfl) : Keeps s { t with near := x } :=
  h.withNearMem fun hm => hx.symm ▸ hm

theorem Keeps.withBulk {x : Bulk} (hx : x.mem = t.bulk.mem := by with_reducible rfl) : Keeps s { t with bulk := x } :=
  h.withBulkMem fun hm => hx.symm ▸ hm

theorem Keeps.withCtl {x : Ctl} (hx : x.flash = t.ctl.flash := by with_reducible rfl) : Keeps s { t with ctl := x } :=
  h.withFlash fun hm => hx.symm ▸ hm

/-- CLX changes, and keeps the number of its ports. -/
theorem Keeps.withClx {x : Clx} (hx : x.ports.length = t.clx.ports.length := by with_reducible rfl) :
    Keeps s { t with clx := x } := by
  refine ⟨h.queue, fun hs => ?_⟩
  obtain ⟨hmap, hwords, hnear, hbulk, hflash, hports⟩ := h.canonical hs
  exact ⟨hmap, hwords, hnear, hbulk, hflash, hx.trans hports⟩

end

/-- Changes of several parts that leave the queue, the registers, the memories and the number of ports alone. -/
theorem Keeps.elsewhere {s t u : State} (h : Keeps s t) (hpending : u.pending = t.pending := by with_reducible rfl)
    (hregs : u.regs = t.regs := by with_reducible rfl) (hnear : u.near.mem = t.near.mem := by with_reducible rfl)
    (hbulk : u.bulk.mem = t.bulk.mem := by with_reducible rfl)
    (hflash : u.ctl.flash = t.ctl.flash := by with_reducible rfl)
    (hports : u.clx.ports = t.clx.ports := by with_reducible rfl) : Keeps s u := by
  refine ⟨hpending.trans h.queue, fun hs => ?_⟩
  have ht := h.canonical hs
  rwa [Canonical, hregs, hnear, hbulk, hflash, hports]

/-! ## Optional results -/

theorem mapImp {α β : Type} {P : α → Prop} {Q : β → Prop} {o : Option α} {f : α → β} (ho : ∀ a, o = some a → P a)
    (hf : ∀ a, P a → Q (f a)) : ∀ b, o.map f = some b → Q b := by
  intro b hb
  obtain ⟨a, ha, rfl⟩ := Option.map_eq_some_iff.1 hb
  exact hf a (ho a ha)

theorem bindImp {α β : Type} {P : α → Prop} {Q : β → Prop} {o : Option α} {f : α → Option β}
    (ho : ∀ a, o = some a → P a) (hf : ∀ a, P a → ∀ b, f a = some b → Q b) : ∀ b, o.bind f = some b → Q b := by
  intro b hb
  obtain ⟨a, ha, hfa⟩ := Option.bind_eq_some_iff.1 hb
  exact hf a (ho a ha) b hfa

theorem findSomeImp {α β : Type} {Q : β → Prop} {l : List α} {f : α → Option β} (hf : ∀ a b, f a = some b → Q b) :
    ∀ b, l.findSome? f = some b → Q b := by
  intro b hb
  obtain ⟨a, -, hfa⟩ := List.exists_of_findSome?_eq_some hb
  exact hf a b hfa

/-! ## Branches and loops -/

section
variable {s t : State}

theorem Keeps.ite {c : Prop} [Decidable c] {a b : State} (ha : Keeps s a) (hb : Keeps s b) :
    Keeps s (if c then a else b) := by
  split
  · exact ha
  · exact hb

theorem Keeps.iteFst {α : Type} {c : Prop} [Decidable c] {a b : State × α} (ha : Keeps s a.1) (hb : Keeps s b.1) :
    Keeps s (if c then a else b).1 := by
  split
  · exact ha
  · exact hb

theorem Keeps.iteSnd {α : Type} {c : Prop} [Decidable c] {a b : α × State} (ha : Keeps s a.2) (hb : Keeps s b.2) :
    Keeps s (if c then a else b).2 := by
  split
  · exact ha
  · exact hb

theorem Keeps.foldl {α : Type} {f : State → α → State} (h : Keeps s t) (hf : ∀ u a, Keeps s u → Keeps s (f u a))
    {l : List α} : Keeps s (l.foldl f t) := by
  induction l generalizing t with
  | nil => exact h
  | cons a l ih => exact ih (hf t a h)

/-- A loop whose steps need to know that their element is in the list. -/
theorem Keeps.foldl_mem {α : Type} {f : State → α → State} {l : List α} (h : Keeps s t)
    (hf : ∀ u, ∀ a ∈ l, Keeps s u → Keeps s (f u a)) : Keeps s (l.foldl f t) := by
  induction l generalizing t with
  | nil => exact h
  | cons a l ih => exact ih (hf t a (by simp) h) fun u b hb => hf u b (by simp [hb])

theorem Yields.none : Yields s none := fun _ hu => (Option.some_ne_none _ hu.symm).elim

theorem Yields.some (h : Keeps s t) : Yields s (some t) := fun _ hu => Option.some.inj hu ▸ h

theorem Yields.ite {c : Prop} [Decidable c] {a b : Option State} (ha : Yields s a) (hb : Yields s b) :
    Yields s (if c then a else b) := by
  split
  · exact ha
  · exact hb

theorem Keeps.getD {o : Option State} (ho : Yields s o) (h : Keeps s t) : Keeps s (o.getD t) := by
  cases o with
  | none => exact h
  | some u => exact ho u rfl

theorem Keeps.getDSnd {α : Type} {o : Option (α × State)} {p : α × State} (ho : YieldsSnd s o) (h : Keeps s p.2) :
    Keeps s (o.getD p).2 := by
  cases o with
  | none => exact h
  | some q => exact ho q rfl

theorem YieldsSnd.none {α : Type} : YieldsSnd (α := α) s none :=
  fun _ hp => (Option.some_ne_none _ hp.symm).elim

theorem YieldsSnd.some {α : Type} {p : α × State} (h : Keeps s p.2) : YieldsSnd s (some p) :=
  fun _ hp => Option.some.inj hp ▸ h

theorem YieldsSnd.ite {α : Type} {c : Prop} [Decidable c] {a b : Option (α × State)} (ha : YieldsSnd s a)
    (hb : YieldsSnd s b) : YieldsSnd s (if c then a else b) := by
  split
  · exact ha
  · exact hb

theorem Keeps.fst {α : Type} {p : State × α} {a : α} (h : Keeps s p.1) (hp : p = (t, a)) : Keeps s t := by
  rwa [hp] at h

theorem Keeps.snd {α : Type} {p : α × State} {a : α} (h : Keeps s p.2) (hp : p = (a, t)) : Keeps s t := by
  rwa [hp] at h

theorem Replies.ok {out : List Byte} (h : Keeps s t) : Replies s (.ok t out) := h

theorem Replies.err {arc detail : Nat} : Replies s (.err arc detail) := trivial

theorem Replies.raised {arc detail : Nat} (h : Keeps s t) : Replies s (.raised t arc detail) := h

theorem Replies.ofOk {a : Ans} {out : List Byte} (h : Replies s a) (ha : a = .ok t out) : Keeps s t := by
  rwa [ha] at h

theorem Replies.ofRaised {a : Ans} {arc detail : Nat} (h : Replies s a) (ha : a = .raised t arc detail) :
    Keeps s t := by
  rwa [ha] at h

theorem Replies.ite {c : Prop} [Decidable c] {a b : Ans} (ha : Replies s a) (hb : Replies s b) :
    Replies s (if c then a else b) := by
  split
  · exact ha
  · exact hb

theorem Ends.next (h : Keeps s t) : Ends s (.next t) := h

theorem Ends.ofNext {r : Result} (h : Ends s r) (hr : r = .next t) : Keeps s t := by
  rwa [hr] at h

theorem SnoopKeeps.free (h : Keeps s t) : SnoopKeeps s (.free t) := h

theorem SnoopKeeps.busy (h : Keeps s t) : SnoopKeeps s (.busy t) := h

theorem SnoopKeeps.credit : SnoopKeeps s .credit := trivial

theorem SnoopKeeps.ofFree {r : Snooped} (h : SnoopKeeps s r) (hr : r = .free t) : Keeps s t := by
  rwa [hr] at h

theorem SnoopKeeps.ofBusy {r : Snooped} (h : SnoopKeeps s r) (hr : r = .busy t) : Keeps s t := by
  rwa [hr] at h

theorem SnoopKeeps.ite {c : Prop} [Decidable c] {a b : Snooped} (ha : SnoopKeeps s a) (hb : SnoopKeeps s b) :
    SnoopKeeps s (if c then a else b) := by
  split
  · exact ha
  · exact hb

theorem DirKeeps.pass (h : Keeps s t) : DirKeeps s (.pass t) := h

theorem DirKeeps.held (h : Keeps s t) : DirKeeps s (.held t) := h

theorem DirKeeps.wait {w : Why} (h : Keeps s t) : DirKeeps s (.wait t w) := h

theorem DirKeeps.ofPass {r : DirAns} (h : DirKeeps s r) (hr : r = .pass t) : Keeps s t := by
  rwa [hr] at h

theorem DirKeeps.ofHeld {r : DirAns} (h : DirKeeps s r) (hr : r = .held t) : Keeps s t := by
  rwa [hr] at h

theorem DirKeeps.ofWait {r : DirAns} {w : Why} (h : DirKeeps s r) (hr : r = .wait t w) : Keeps s t := by
  rwa [hr] at h

theorem DirKeeps.ite {c : Prop} [Decidable c] {a b : DirAns} (ha : DirKeeps s a) (hb : DirKeeps s b) :
    DirKeeps s (if c then a else b) := by
  split
  · exact ha
  · exact hb

theorem TileKeeps.done {n : Nat} (h : Keeps s t) : TileKeeps s (.done t n) := h

theorem TileKeeps.begun (h : Keeps s t) : TileKeeps s (.begun t) := h

theorem TileKeeps.later : TileKeeps s .later := trivial

theorem TileKeeps.noFrame : TileKeeps s .noFrame := trivial

theorem TileKeeps.stop {status detail : Nat} (h : Keeps s t) : TileKeeps s (.stop t status detail) := h

theorem TileKeeps.ofDone {r : TileStep} {n : Nat} (h : TileKeeps s r) (hr : r = .done t n) : Keeps s t := by
  rwa [hr] at h

theorem TileKeeps.ofBegun {r : TileStep} (h : TileKeeps s r) (hr : r = .begun t) : Keeps s t := by
  rwa [hr] at h

theorem TileKeeps.ofStop {r : TileStep} {status detail : Nat} (h : TileKeeps s r) (hr : r = .stop t status detail) :
    Keeps s t := by
  rwa [hr] at h

theorem TileKeeps.ite {c : Prop} [Decidable c] {a b : TileStep} (ha : TileKeeps s a) (hb : TileKeeps s b) :
    TileKeeps s (if c then a else b) := by
  split
  · exact ha
  · exact hb

theorem PlaceKeeps.error {e : Nat × Nat} : PlaceKeeps s (.error e) := fun _ hp => by cases hp

theorem PlaceKeeps.ok {a : Nat} (h : Keeps s t) : PlaceKeeps s (.ok (a, t)) := fun _ hp => Except.ok.inj hp ▸ h

theorem TargetKeeps.error {status detail : Nat} (h : Keeps s t) : TargetKeeps s (.error (t, status, detail)) :=
  fun _ he => Except.error.inj he ▸ h

theorem TargetKeeps.ok {r : Nat} : TargetKeeps s (.ok r) := fun _ he => by cases he

/-! ## Widths of fields -/

theorem getD_fits {l : List Fld} {d : Fld} {i : Nat} (hl : ∀ f ∈ l, f.width ≤ 64) (hd : d.width ≤ 64) :
    (l.getD i d).width ≤ 64 := by
  rw [List.getD_eq_getElem?_getD]
  cases h : l[i]? with
  | none => exact hd
  | some f => exact hl f (List.mem_of_getElem? h)

theorem ite_fits {c : Prop} [Decidable c] {f g : Fld} (hf : f.width ≤ 64 := by exact Nat.le_of_ble_eq_true rfl)
    (hg : g.width ≤ 64 := by exact Nat.le_of_ble_eq_true rfl) : (if c then f else g).width ≤ 64 := by
  split
  · exact hf
  · exact hg

theorem outF_fits {c : Nat} : (outF c).width ≤ 64 := getD_fits (by decide) (by decide)

theorem heldF_fits {log : Nat} : (heldF log).width ≤ 64 := getD_fits (by decide) (by decide)

theorem rqOf_fits {key : Nat} : (rqOf key).width ≤ 64 := ite_fits

theorem wqOf_fits {key : Nat} : (wqOf key).width ≤ 64 := ite_fits

theorem drainOf_fits {key : Nat} : (drainOf key).width ≤ 64 := ite_fits

theorem fbOf_fits {key : Nat} : (fbOf key).width ≤ 64 := ite_fits

theorem permField_fits {bit : Nat} : (permField bit).width ≤ 64 := ite_fits (by decide) (ite_fits (by decide) ite_fits)

theorem blockTable_fits {b : Nat} : ∀ f ∈ blockTable b, f.width ≤ 64 := by
  rcases Nat.lt_or_ge b 15 with hb | hb
  · exact (by decide : ∀ b < 15, ∀ f ∈ blockTable b, f.width ≤ 64) b hb
  · obtain ⟨n, rfl⟩ := Nat.exists_eq_add_of_le' hb
    exact nofun

theorem fits_of_mem_fieldsAt {blk page off : Nat} {x : Fld × Nat × Nat} (hx : x ∈ fieldsAt blk page off) :
    x.1.width ≤ 64 :=
  blockTable_fits _ (mem_blockTable_of_mem_fieldsAt hx)

/-- A loop over a list of fields. -/
theorem Keeps.foldl_fields {α : Type} {l : List α} {g : State → α → State} (h : Keeps s t) (π : α → Fld)
    (hg : ∀ u a, (π a).width ≤ 64 → Keeps s u → Keeps s (g u a))
    (hl : l.all (fun a => (π a).width.ble 64) = true := by rfl) : Keeps s (l.foldl g t) :=
  h.foldl_mem fun u a ha hu => hg u a (Nat.le_of_ble_eq_true (List.all_eq_true.1 hl a ha)) hu

/-! ## The primitive writes -/

theorem mem_mset {α : Type} [DecidableEq α] {d v : α} {m : List (Nat × α)} {k : Nat} {e : Nat × α}
    (he : e ∈ mset d m k v) : e = (k, v) ∨ e ∈ m := by
  unfold mset at he
  split at he
  · exact .inr (List.mem_of_mem_filter he)
  · exact mem_mput he

theorem memWf_ite_filter {c : Prop} [Decidable c] {d : Byte} {m : List Host.Cell} {p : Host.Cell → Bool}
    (hm : memWf d m = true) : memWf d (if c then m.filter p else m) = true := by
  split
  · simp only [memWf, Bool.and_eq_true, List.all_eq_true] at hm ⊢
    exact ⟨filter_wf _ _ hm.1, fun e he => hm.2 e (List.mem_of_mem_filter he)⟩
  · exact hm

/-- A register write keeps the canonical form: no field is wider than a register. -/
theorem Keeps.wrAt {f : Fld} {i k v : Nat} (h : Keeps s t)
    (hf : f.width ≤ 64 := by exact Nat.le_of_ble_eq_true rfl) : Keeps s (t.wrAt f i k v) := by
  refine h.withRegs (mset_wf _ _ _ _) fun hwords e he => ?_
  rcases mem_mset he with rfl | he
  · calc v % 2 ^ f.width < 2 ^ f.width := Nat.mod_lt _ (by positivity)
      _ ≤ 2 ^ 64 := Nat.pow_le_pow_right (by omega) hf
  · exact hwords e he

end

end Sys2Proof.Machine
end

section
/-!
PROOFS for O56 and O58: registers, events, the log, the tiers' bytes and resets
keep the queue and the canonical form, one lemma per operation of the model, in the order of its files.
-/
namespace Sys2Proof.Machine
open Sys2Proof.Safety

section
-- a lemma whose width check runs by default waits for those before it: one thread, so that none waits idle
set_option Elab.async false
variable {s₀ s : State} (hs : Keeps s₀ s)
include hs

/-! ## Register fields, raises, counters and the log (Ops) -/

theorem Keeps.wr {f} {v} (hf : f.width ≤ 64 := by exact Nat.le_of_ble_eq_true rfl) : Keeps s₀ (s.wr f v) := hs.wrAt hf

theorem Keeps.wrI {f} {i} {v} (hf : f.width ≤ 64 := by exact Nat.le_of_ble_eq_true rfl) : Keeps s₀ (s.wrI f i v) :=
  hs.wrAt hf

theorem Keeps.wrb {f} {i} {b} (hf : f.width ≤ 64 := by exact Nat.le_of_ble_eq_true rfl) : Keeps s₀ (s.wrb f i b) :=
  hs.wrAt hf

theorem Keeps.clr {f} {i} {k} (hf : f.width ≤ 64 := by exact Nat.le_of_ble_eq_true rfl) : Keeps s₀ (s.clr f i k) :=
  hs.wrAt hf

theorem Keeps.drawn : Keeps s₀ s.drawn := hs.withDraw

theorem Keeps.emit {o} : Keeps s₀ (s.emit o) := hs.withOut

theorem Keeps.setCause {c} : Keeps s₀ (s.setCause c) := hs.wrI

theorem Keeps.hold {r} : Keeps s₀ (s.hold r) := .ite (.ite hs.withEvt hs) hs.withEvt

theorem Keeps.raise {c} {region} {queue} {heads} : Keeps s₀ (s.raise c region queue heads) :=
  .ite hs.setCause.hold hs.setCause

theorem Keeps.pmuCount {b} {k} {n} : Keeps s₀ (s.pmuCount b k n) := .ite hs.wrAt (.ite hs.wrAt.wrI.raise hs.wrAt.wrI)

theorem Keeps.pmuAdvance {f} {i} {k} {n} {cls} : Keeps s₀ (s.pmuAdvance f i k n cls) :=
  .foldl hs fun _ _ hu => .ite hu.pmuCount hu

theorem Keeps.copyAdvance {f} {i} {k} {n} : Keeps s₀ (s.copyAdvance f i k n) := .ite hs.withEvt hs

theorem Keeps.bump {f} {i} {k} {n} {cls} {sat} (hf : f.width ≤ 64 := by exact Nat.le_of_ble_eq_true rfl) :
    Keeps s₀ (s.bump f i k n cls sat) :=
  (hs.wrAt hf).pmuAdvance.copyAdvance

theorem Keeps.sat {f} {i} {k} {n} (hf : f.width ≤ 64 := by exact Nat.le_of_ble_eq_true rfl) :
    Keeps s₀ (s.sat f i k n) :=
  hs.wrAt hf

theorem Keeps.log {type} {a} : Keeps s₀ (s.log type a) := .ite (.ite hs.bump hs.bump.raise.withRas) hs.wr.withRas

/-! ## Paths (Paths) -/

theorem Keeps.denied {p} : Keeps s₀ (s.denied p) := hs.bump.wr.wr

theorem Keeps.viaPath {p} {blk} {page} {may} {f : State → State} (hf : ∀ u, Keeps s₀ u → Keeps s₀ (f u)) :
    Keeps s₀ (s.viaPath p blk page may f) :=
  .ite (.ite (hf _ hs) hs.denied) hs

/-! ## Queues and MSI-X (Queues) -/

theorem Keeps.outAdd {i} {c} {n} : Keeps s₀ (s.outAdd i c n) := hs.wrAt outF_fits

theorem Keeps.outSub {i} {c} {n} : Keeps s₀ (s.outSub i c n) := hs.wrAt outF_fits

theorem Keeps.slotDone {c} {wasted} : Keeps s₀ (s.slotDone c wasted) := hs.bump ite_fits

theorem Keeps.leavePart {c} : Keeps s₀ (s.leavePart c) := hs.outSub.slotDone

theorem Keeps.setHlx {x} : Keeps s₀ (s.setHlx x) := hs.withHlx

theorem Keeps.sendMsix {h} {l} {vec} : Keeps s₀ (s.sendMsix h l vec) := hs.emit

theorem Keeps.msix {h} {l} {vec} : Keeps s₀ (s.msix h l vec) := .ite hs (.ite hs.setHlx hs.sendMsix)

theorem Keeps.bar2Put {h} {l} {n} {off} {v} : Keeps s₀ (s.bar2Put h l n off v) :=
  .ite (.ite hs.setHlx.setHlx.sendMsix hs.setHlx) hs

theorem Keeps.setJob {j} : Keeps s₀ (s.setJob j) := hs.withJob

theorem Keeps.setCtx {q} {c} : Keeps s₀ (s.setCtx q c) := hs.setJob.wr

theorem Keeps.queueError {q} {cause} {index} : Keeps s₀ (s.queueError q cause index) := hs.setCtx.wr.wr.raise

theorem Keeps.endSilently {sel} : Keeps s₀ (s.endSilently sel) :=
  .wr (.foldl hs.setJob fun _ _ hu => .ite hu.outSub.setCtx hu.outSub)

theorem Keeps.touchCtx {q} : Keeps s₀ (s.touchCtx q) := .ite hs.setJob.bump (.ite hs.setJob.bump.raise hs.setJob.bump)

theorem Keeps.ctxLost {q} : Keeps s₀ (s.ctxLost q) := .ite hs.endSilently.setCtx.queueError.setJob.raise hs

theorem Keeps.ring {q} {v} : Keeps s₀ (s.ring q v) := .ite hs.touchCtx.ctxLost.setCtx hs.touchCtx.ctxLost.setCtx

theorem Keeps.resetQueues {sel} : Keeps s₀ (s.resetQueues sel) :=
  .setJob (.foldl hs.endSilently fun _ _ hu => hu.setCtx)

/-! ## Self-refresh and power entry (Sleep) -/

theorem Keeps.setAon {a} : Keeps s₀ (s.setAon a) := hs.withAon

theorem Keeps.setEntry {e} : Keeps s₀ (s.setEntry e) := hs.setAon

theorem Keeps.setMem {m} : Keeps s₀ (s.setMem m) := hs.withMem

theorem Keeps.srBegin {kind} : Keeps s₀ (s.srBegin kind) :=
  .ite (.ite hs.setMem hs.setMem.wr) (.wr (.ite hs.setMem hs.setMem.wr))

theorem Keeps.srExit {t} : Keeps s₀ (s.srExit t) := by
  unfold State.srExit
  split <;> exact .ite hs.wr hs

theorem Keeps.srAbort {t} : Keeps s₀ (s.srAbort t) := by
  unfold State.srAbort
  split <;> exact .ite hs.wr.bump hs

theorem Keeps.srSettle : Keeps s₀ s.srSettle := .ite hs.setMem hs

theorem Keeps.srDone {t} : Keeps s₀ (s.srDone t) := by
  unfold State.srDone
  split <;> exact .ite hs.wr.srSettle hs

theorem Keeps.ringHeld : Keeps s₀ s.ringHeld := .foldl hs.setJob fun _ _ hu => hu.ring

theorem Keeps.endEntry {byRequest} : Keeps s₀ (s.endEntry byRequest) := by
  unfold State.endEntry
  extract_lets _ _ _ _ s1 s2 s3 s4 _ _ s5 s6
  have hs1 : Keeps s₀ s1 := hs.srAbort.srAbort.srExit
  have hs2 : Keeps s₀ s2 := hs1.wr.wr.bump
  have hs3 : Keeps s₀ s3 := hs2.wr.raise
  have hs4 : Keeps s₀ s4 := .ite hs3.raise hs3
  have hs5 : Keeps s₀ s5 := hs4.setAon.wr
  have hs6 : Keeps s₀ s6 := hs5.setEntry
  exact hs6.ringHeld.srSettle

theorem Keeps.leaveP3 : Keeps s₀ s.leaveP3 := .emit (.setAon (.foldl hs.wr.setEntry fun _ _ hu => hu.wrI))

theorem Keeps.beginExit {code} : Keeps s₀ (s.beginExit code) :=
  .ite hs.wr.leaveP3 (.ite hs.wr.wr.setEntry.srExit.srExit hs.wr.wr.setEntry)

theorem Keeps.wake {code} : Keeps s₀ (s.wake code) :=
  .ite (.ite hs.wr.endEntry (.ite hs.wr.setEntry (.ite hs.beginExit hs))) hs

theorem Keeps.exitP1 : Keeps s₀ s.exitP1 := hs.wr.wr.setEntry.raise

theorem Keeps.rouse {code} : Keeps s₀ (s.rouse code) := .ite (.ite hs.wake.exitP1 hs.wake) (.ite hs.wake hs)

theorem Keeps.knock {code} : Keeps s₀ (s.knock code) := .ite hs.wake.exitP1 hs.wake

theorem Keeps.reachTier {t} : Keeps s₀ (s.reachTier t).1 := by
  unfold State.reachTier
  extract_lets _ s1
  have hs1 : Keeps s₀ s1 := hs.srAbort.srExit
  refine .iteFst hs (.iteFst (.iteFst hs.endEntry (.iteFst ?_ ?_)) hs)
  · dsimp only
    exact hs1.endEntry
  · exact hs.srExit.srExit.wake

/-! ## Replies (Reply) -/

theorem Keeps.reply {src} {opcode} {rc} {out} : Keeps s₀ (s.reply src opcode rc out) := by
  unfold State.reply
  extract_lets s1
  have hs1 : Keeps s₀ s1 := hs.emit
  split
  · exact hs1.msix
  · exact hs1

theorem Keeps.unserved {src} {opcode} : Keeps s₀ (s.unserved src opcode) := by
  unfold State.unserved
  split
  · exact .ite hs.reply hs
  · exact hs

theorem Keeps.avsar {src} {opcode} {len} {need} {input} {f : State → Ans} (hf : ∀ u, Keeps s₀ u → Replies s₀ (f u)) :
    Keeps s₀ (s.avsar src opcode len need input f) := by
  unfold State.avsar
  extract_lets s'
  have hs' : Keeps s₀ s' := hs.knock
  refine .ite hs'.unserved ?_
  refine .ite hs'.reply ?_
  refine .ite hs'.reply ?_
  split
  · exact hs'.reply
  split
  · rename_i s1 out heq
    have hs1 : Keeps s₀ s1 := (hf _ hs').ofOk heq
    exact hs1.reply
  · exact hs'.reply
  · rename_i s1 arc detail heq
    have hs1 : Keeps s₀ s1 := (hf _ hs').ofRaised heq
    exact hs1.reply

theorem Keeps.background {src} {opcode} {len} {need} {input} {arg} {f : State → Ans}
    (hf : ∀ u, Keeps s₀ u → Replies s₀ (f u)) :
    Keeps s₀ (s.background src opcode len need input arg f) := by
  unfold State.background
  extract_lets s'
  have hs' : Keeps s₀ s' := hs.knock
  refine .ite hs'.unserved ?_
  refine .ite hs'.reply ?_
  refine .ite hs'.reply ?_
  split
  · exact hs'.reply
  split
  · rename_i s1 out heq
    have hs1 : Keeps s₀ s1 := (hf _ hs').ofOk heq
    exact hs1.withCtl.reply
  · exact hs'.reply
  · rename_i s1 arc detail heq
    have hs1 : Keeps s₀ s1 := (hf _ hs').ofRaised heq
    exact hs1.reply

theorem Keeps.bgDone {opcode} {arg} {rc} {out} : Keeps s₀ (s.bgDone opcode arg rc out) :=
  .foldl hs.withCtl fun _ _ hu => hu.reply

theorem Keeps.cxlCommand {h} {l} {opcode} {f : State → State × ℕ × List Byte}
    (hf : ∀ u, Keeps s₀ u → Keeps s₀ (f u).1) :
    Keeps s₀ (s.cxlCommand h l opcode f) :=
  .ite hs.knock.unserved (.ite hs.knock.reply ((hf _ hs.knock).reply))

/-! ## The bytes of both tiers (Operands) -/

theorem Keeps.saveTraining : Keeps s₀ s.saveTraining := by
  unfold State.saveTraining
  extract_lets
  exact hs.elsewhere

theorem Keeps.putLine {f} {l} {v} {poison} : Keeps s₀ (s.putLine f l v poison) := hs.withNearMem (memWrite_wf _ _ _ _)

theorem Keeps.putFrame {f} {bs} {marks} : Keeps s₀ (s.putFrame f bs marks) := hs.withNearMem (memWrite_wf _ _ _ _)

theorem Keeps.poisonFrame {f} : Keeps s₀ (s.poisonFrame f) := hs.withNear

theorem Keeps.putSectors {x} {bs} {marks} : Keeps s₀ (s.putSectors x bs marks) := hs.withBulkMem (memWrite_wf _ _ _ _)

/-! ## Resets (Restart) -/

theorem Keeps.keepRegs {keep} : Keeps s₀ (s.keepRegs keep) :=
  hs.withRegs (filter_wf _ _) fun hw e he => hw e (List.mem_of_mem_filter he)

theorem Keeps.warmRegs : Keeps s₀ s.warmRegs := hs.keepRegs.wr.wr

theorem Keeps.p3Regs : Keeps s₀ s.p3Regs := hs.keepRegs

theorem Keeps.aonSleepRegs : Keeps s₀ s.aonSleepRegs := hs.keepRegs

theorem Keeps.p2Regs : Keeps s₀ s.p2Regs := hs.keepRegs.aonSleepRegs

theorem Keeps.blockRegs {b} : Keeps s₀ (s.blockRegs b) := hs.keepRegs

theorem Keeps.writeCause {code} {supply} : Keeps s₀ (s.writeCause code supply) := hs.wr.wr.wr

theorem Keeps.blank : Keeps s₀ s.blank := by
  refine ⟨hs.queue, fun h₀ => ?_⟩
  obtain ⟨-, -, -, -, hflash, -⟩ := hs.canonical h₀
  exact ⟨rfl, nofun, rfl, rfl, hflash, rfl⟩

theorem Keeps.cold {por} {warmLost} : Keeps s₀ (s.cold por warmLost) := hs.blank.setAon.wr.emit.emit

theorem Keeps.retrySupplies : Keeps s₀ s.retrySupplies := hs.setAon.wr.emit

theorem Keeps.coldCause {por} : Keeps s₀ (s.coldCause por) := .ite hs.setAon hs.cold

theorem Keeps.dropRequests {gone} : Keeps s₀ (s.dropRequests gone) := by
  unfold State.dropRequests
  exact hs.elsewhere

theorem Keeps.quiesce {external} : Keeps s₀ (s.quiesce external) :=
  .srBegin (.wr (.wr (.wr (.wr (.endSilently (.dropRequests (.ite hs.setAon hs.setAon.emit)))))))

theorem Keeps.warm {code} {supply} : Keeps s₀ (s.warm code supply) := by
  unfold State.warm
  refine .ite hs ?_
  refine .ite hs.setAon ?_
  refine .ite (.ite (.ite hs.writeCause hs.writeCause.leaveP3) hs) ?_
  refine .ite hs.writeCause ?_
  refine .ite ?_ hs.writeCause.quiesce
  extract_lets _ s1 _ _ s2 s3
  have hs1 : Keeps s₀ s1 := hs.writeCause.setAon
  have hs2 : Keeps s₀ s2 := hs1.elsewhere
  have hs3 : Keeps s₀ s3 := hs2.warmRegs.writeCause.wr
  exact .ite hs3 hs3.emit

theorem Keeps.warmLost : Keeps s₀ s.warmLost := hs.cold

theorem Keeps.brownStart {wakeCode} : Keeps s₀ (s.brownStart wakeCode) := .withAdm (.wake (.wr (.ite hs hs.withAdm)))

theorem Keeps.brownEnd : Keeps s₀ s.brownEnd := .withAdm (.ite hs hs.wr)

theorem Keeps.spare {kind} {failing} {sub} {inside} : Keeps s₀ (s.spare kind failing sub inside) :=
  .ite hs.log.raise hs.log

end

end Sys2Proof.Machine
end

section
/-!
PROOFS for O56 and O58: allocation, time, admission, the chain, tiles and faults
keep the queue and the canonical form, one lemma per operation of the model, in the order of its files.
-/
namespace Sys2Proof.Machine
open Sys2Proof.Safety

section
-- a lemma whose width check runs by default waits for those before it: one thread, so that none waits idle
set_option Elab.async false
variable {s₀ s : State} (hs : Keeps s₀ s)
include hs

/-! ## Allocation (Alloc) -/

theorem Keeps.setTmu {t} : Keeps s₀ (s.setTmu t) := hs.withTmu

theorem Keeps.setNear {n} (hn : n.mem = s.near.mem := by with_reducible rfl) : Keeps s₀ (s.setNear n) := hs.withNear hn

theorem Keeps.setScr {x} : Keeps s₀ (s.setScr x) := hs.withScr

theorem Keeps.setCry {x} : Keeps s₀ (s.setCry x) := hs.withCry

theorem Keeps.setRas {x} : Keeps s₀ (s.setRas x) := hs.withRas

theorem Keeps.setAdm {x} : Keeps s₀ (s.setAdm x) := hs.withAdm

theorem Keeps.setDir {x} : Keeps s₀ (s.setDir x) := hs.withDir

theorem Keeps.setClx {x} (hx : x.ports.length = s.clx.ports.length := by with_reducible rfl) :
    Keeps s₀ (s.setClx x) := hs.withClx hx

theorem Keeps.setCdc {x} : Keeps s₀ (s.setCdc x) := hs.withCdc

theorem Keeps.setEvt {x} : Keeps s₀ (s.setEvt x) := hs.withEvt

theorem Keeps.setStack {n} {l} : Keeps s₀ (s.setStack n l) := hs.setTmu

theorem Keeps.setFreeList {n} {l} : Keeps s₀ (s.setFreeList n l) := hs.setTmu

theorem Keeps.setPool {n} {l} : Keeps s₀ (s.setPool n l) := hs.setStack.setFreeList

theorem Keeps.keepRuns {keep} : Keeps s₀ (s.keepRuns keep) := hs.setTmu

theorem Keeps.popStack {ok} {n} : YieldsSnd s₀ (s.popStack ok n) := mapImp (fun _ _ => trivial) fun _ _ => hs.setStack

theorem Keeps.popRefilled {ok} {n} : YieldsSnd s₀ (s.popRefilled ok n) :=
  mapImp (fun _ _ => trivial) fun _ _ => hs.setStack.setFreeList

theorem Keeps.popRun {ok} {n} : YieldsSnd s₀ (s.popRun ok n) := by
  unfold State.popRun
  split
  · rename_i r heq
    have hr : Keeps s₀ r.2 := hs.popStack _ heq
    exact .some hr
  · exact hs.popRefilled

theorem Keeps.carve {ok} {n} : YieldsSnd s₀ (s.carve ok n) :=
  mapImp (fun _ _ => trivial) fun _ _ => .ite hs.setTmu.setPool hs.setTmu.setPool.setPool

theorem Keeps.splitRun {ok} {n} : YieldsSnd s₀ (s.splitRun ok n) := by
  unfold State.splitRun
  induction (List.range 64).map (· + 1) using List.reverseRecOn with
  | nil => exact .none
  | append_singleton ms m ih =>
    rw [List.foldl_append, List.foldl_cons, List.foldl_nil]
    exact .ite ih (mapImp hs.popRun fun _ hu => hu.setPool)

theorem Keeps.allocFrom {ok} {n} : YieldsSnd s₀ (s.allocFrom ok n) := by
  unfold State.allocFrom
  split
  · rename_i r heq
    have hr : Keeps s₀ r.2 := hs.popRun _ heq
    exact .some hr
  split
  · rename_i r heq
    have hr : Keeps s₀ r.2 := hs.carve _ heq
    exact .some hr
  · exact hs.splitRun

theorem Keeps.alloc {slot} {n} : YieldsSnd s₀ (s.alloc slot n) := by
  unfold State.alloc
  refine .ite hs.allocFrom ?_
  split
  · rename_i r heq
    have hr : Keeps s₀ r.2 := hs.allocFrom _ heq
    exact .some hr
  · exact hs.allocFrom

theorem Keeps.takeSlots {ok} {n} : Keeps s₀ (s.takeSlots ok n).2 := by
  unfold State.takeSlots
  split
  exact .ite hs.setTmu hs.setTmu.setPool

theorem Keeps.takeFixed {retain} {n} : YieldsSnd s₀ (s.takeFixed retain n) :=
  .ite (.some (.iteSnd (.iteSnd hs hs.takeSlots) (.takeSlots (.iteSnd hs hs.takeSlots)))) .none

theorem Keeps.freeRun {a} {n} : Keeps s₀ (s.freeRun a n) :=
  .ite hs (.ite (.setTmu (.foldl hs.setPool fun _ _ hu => hu.setPool)) hs.setPool)

theorem Keeps.giveBack {es} : Keeps s₀ (s.giveBack es) := .foldl hs fun _ _ hu => .ite hu.freeRun hu.setTmu

theorem Keeps.reserveUse {n} : Keeps s₀ (s.reserveUse n) := .ite hs.wr.raise hs.wr

theorem Keeps.releaseChunk : Keeps s₀ s.releaseChunk := by
  unfold State.releaseChunk
  split
  · exact hs.setRas.setTmu.log.raise.reserveUse
  · exact hs.raise

theorem Keeps.setSlot {r} {t} {a} : Keeps s₀ (s.setSlot r t a) := by
  unfold State.setSlot
  split
  · exact hs.setTmu
  · exact hs

theorem Keeps.retireRun {a} {n} : Keeps s₀ (s.retireRun a n) := .ite hs (.ite hs.setTmu.setRas.releaseChunk hs.setTmu)

theorem Keeps.level {r} {before} : Keeps s₀ (s.level r before) := .ite hs.wrI.wr.raise hs.wrI

theorem Keeps.claim {r} {n} : Keeps s₀ (s.claim r n) := .ite (.level (.wrI (.ite hs.wrI.wr.raise hs))) hs

theorem Keeps.unclaim {r} {n} : Keeps s₀ (s.unclaim r n) := .ite hs.wrI.level hs

theorem Keeps.grantLift {r} : Keeps s₀ (s.grantLift r) := .ite hs.level.wrI.wr.raise hs.level

/-! ## Fabric time (TimeBase) -/

theorem Keeps.guardBands : Keeps s₀ s.guardBands := .foldl hs fun _ _ hu => hu.wrI.wrI

theorem Keeps.setTime {t} : Keeps s₀ (s.setTime t) := hs.withAon

theorem Keeps.setQuality {q} : Keeps s₀ (s.setQuality q) := .ite hs hs.wr.raise

theorem Keeps.passBoundaries {n} : Keeps s₀ (s.passBoundaries n) :=
  .ite hs.wr.wr.setTime hs.wr.wr.setTime.setTime.guardBands

theorem Keeps.loadPoint : Keeps s₀ s.loadPoint := .ite hs.wr.wr.wr.setTime hs

theorem Keeps.acceptPulse {t} : Keeps s₀ (s.acceptPulse t) := hs.passBoundaries.setTime.loadPoint.setQuality

theorem Keeps.pulse {t} : Keeps s₀ (s.pulse t) := by
  unfold State.pulse
  extract_lets _ _ s1 _ s1' _ _ _ _ s14
  have hs1 : Keeps s₀ s1 := hs.wr
  have hs1' : Keeps s₀ s1' := hs.bump
  have hs14 : Keeps s₀ s14 := hs.acceptPulse
  refine .ite (.ite hs1.setTime.loadPoint (.ite hs.acceptPulse (.ite hs1'.acceptPulse hs1'.setTime))) ?_
  exact .ite (.ite (.ite hs14 hs14.wr) hs.acceptPulse) hs.acceptPulse

theorem Keeps.xtalBoundary : Keeps s₀ s.xtalBoundary := by
  unfold State.xtalBoundary
  extract_lets s1 _ s2 _ s3
  have hs1 : Keeps s₀ s1 := hs.passBoundaries
  have hs2 : Keeps s₀ s2 := hs1.loadPoint
  have hs3 : Keeps s₀ s3 := hs2.setTime
  exact .ite hs1.setTime (.ite (.ite hs3.setQuality hs3) hs2)

theorem Keeps.pulseMissed : Keeps s₀ s.pulseMissed := .setQuality (.setTime (.loadPoint (.ite hs hs.passBoundaries)))

theorem Keeps.execFtimePulse {t} : Ends s₀ (execFtimePulse t s) := .next (.ite hs.pulse hs)

theorem Keeps.execFtimePulseMissed : Ends s₀ (execFtimePulseMissed s) := .next (.ite hs.pulseMissed hs)

theorem Keeps.execXtalBoundary : Ends s₀ (execXtalBoundary s) := .next (.ite hs.xtalBoundary hs)

theorem Keeps.execEpochLoad {path} {value} : Ends s₀ (execEpochLoad path value s) :=
  .next (hs.viaPath (fun _ hu => hu.wr.wr))

theorem Keeps.execLsCalibration {ratio} : Ends s₀ (execLsCalibration ratio s) := .next (.ite hs.wr hs)

/-! ## Admission (Admit) -/

theorem Keeps.setBucket {b} {x} : Keeps s₀ (s.setBucket b x) := hs.setAdm

theorem Keeps.debit {b} {c} {len} : Keeps s₀ (s.debit b c len) := .ite hs.setBucket hs

theorem Keeps.credit {c} {len} : Keeps s₀ (s.credit c len) := hs.setAdm.bump

theorem Keeps.enter {i} {c} {b} {len} {lines} : Keeps s₀ (s.enter i c b len lines) := by
  unfold State.enter
  extract_lets s1
  have hs1 : Keeps s₀ s1 := hs.outAdd.debit.credit
  exact .ite hs1.setAdm hs1

theorem Keeps.continue_ {c} {b} {len} : Keeps s₀ (s.continue_ c b len) := hs.debit.credit

theorem Keeps.admitInternal {c} {len} : Yields s₀ (s.admitInternal c len) := .ite (.some hs.enter.setAdm) .none

theorem Keeps.leaveInternal {c} {wasted} : Keeps s₀ (s.leaveInternal c wasted) := hs.outSub.slotDone

theorem Keeps.admitPart {c} {b} {len} : Yields s₀ (s.admitPart c b len) := .ite (.some hs.enter.setAdm) .none

theorem Keeps.leaveUnit {u} : Keeps s₀ (s.leaveUnit u) := by
  unfold State.leaveUnit
  split
  · exact .ite hs.setAdm.slotDone hs.setAdm
  · exact hs

theorem Keeps.leaveReq {q} : Keeps s₀ (s.leaveReq q) := .ite hs hs.outSub.leaveUnit

/-! ## The chain (Chain) -/

theorem Keeps.setClp {p} {x} : Keeps s₀ (s.setClp p x) := hs.withClx List.length_set

theorem Keeps.sendCtl {p} {ctype} {body} : Keeps s₀ (s.sendCtl p ctype body) := .ite hs.emit.setClp hs

theorem Keeps.sendData {p} {first} {slots} : Keeps s₀ (s.sendData p first slots) := hs.emit.wrI.setClp

theorem Keeps.pump {p} : Keeps s₀ (s.pump p) := by
  unfold State.pump
  refine .ite ?_ hs
  extract_lets
  split
  exact .foldl hs.setClp fun _ _ hu => hu.sendData

theorem Keeps.originate {p} {m} : Keeps s₀ (s.originate p m) := .ite hs.setClp.pump hs.bump

theorem Keeps.sendMsg {m} : Keeps s₀ (s.sendMsg m) := .ite hs.originate (.ite hs.originate hs)

theorem Keeps.setFar {f} : Keeps s₀ (s.setFar f) := hs.withClx

theorem Keeps.dropFar {id} : Keeps s₀ (s.dropFar id) := hs.withClx

theorem Keeps.startSync {h} : Keeps s₀ (s.startSync h) := .ite hs hs.withClx.sendMsg

theorem Keeps.farSend {f} : Keeps s₀ (s.farSend f) := .sendMsg (.ite hs.setFar.withClx.wrI hs.setFar.withClx)

theorem Keeps.farPump : Keeps s₀ s.farPump := .foldl hs fun _ _ hu => .ite hu.farSend (.ite hu.startSync hu)

theorem Keeps.farIssue {q} {home} {slot} {line} : Keeps s₀ (s.farIssue q home slot line) := hs.elsewhere.farPump

theorem Keeps.farReadRsp {src} {tag} {status} {poison} {v} : Keeps s₀ (s.farReadRsp src tag status poison v) :=
  hs.sendMsg

theorem Keeps.farWriteRsp {src} {tag} {status} {seq} : Keeps s₀ (s.farWriteRsp src tag status seq) := hs.sendMsg

/-! ## Tiles (Tiles) -/

theorem Keeps.mapPut {key} {t} : Keeps s₀ (s.mapPut key t) := hs.setTmu

theorem Keeps.cleanEntry {key} : Keeps s₀ (s.cleanEntry key) := by
  unfold State.cleanEntry
  split
  · exact hs.mapPut.setTmu
  · exact hs

theorem Keeps.capDirty : Keeps s₀ s.capDirty := by
  unfold State.capDirty
  refine .ite ?_ hs
  split
  · exact hs.cleanEntry
  · exact hs

theorem Keeps.useEntry {slot} {tile} : Keeps s₀ (s.useEntry slot tile) := by
  unfold State.useEntry
  split
  · exact hs.setTmu
  · exact hs

theorem Keeps.cacheIn {slot} {tile} : Yields s₀ (s.cacheIn slot tile) := by
  unfold State.cacheIn
  refine .ite (.some hs.useEntry) ?_
  extract_lets put
  have hput : ∀ u, Keeps s₀ u → Keeps s₀ (put u) := fun _ hu => hu.setTmu
  refine .ite (.some (hput _ hs)) ?_
  split
  · extract_lets s1
    have hs1 : Keeps s₀ s1 := by
      unfold s1
      split
      · exact .ite hs.cleanEntry hs
      · exact hs
    exact .some (hput _ hs1.setTmu)
  · exact .none

theorem Keeps.putCached {slot} {tile} {t} : Keeps s₀ (s.putCached slot tile t) := by
  unfold State.putCached
  split
  · exact .setTmu (.ite hs hs.capDirty)
  · exact hs

theorem Keeps.setTme {slot} {tile} {t} : Keeps s₀ (s.setTme slot tile t) := by
  unfold State.setTme
  split
  · rename_i s1 heq
    have hs1 : Keeps s₀ s1 := hs.cacheIn _ heq
    exact hs1.putCached
  · exact hs.mapPut

theorem Keeps.writeBack : Keeps s₀ s.writeBack := .foldl hs fun _ _ hu => hu.cleanEntry

theorem Keeps.watchFree : Keeps s₀ s.watchFree := .ite (.ite hs hs.setScr.raise) hs.setScr

theorem Keeps.setFte {f} {e} : Keeps s₀ (s.setFte f e) := hs.setNear.watchFree

theorem Keeps.freeFte {f} : Keeps s₀ (s.freeFte f) := .watchFree (.setNear (.ite hs.setScr hs))

theorem Keeps.unlist {f} : Keeps s₀ (s.unlist f) := .ite hs.setScr hs

theorem Keeps.sample {f} : Keeps s₀ (s.sample f) := by
  unfold State.sample
  split
  · exact .ite (.ite hs.drawn.setFte hs.drawn.setFte.unlist) hs.drawn
  · exact hs

theorem Keeps.evict {f} : Keeps s₀ (s.evict f) := by
  unfold State.evict
  split
  · exact .ite hs.setTme.freeFte.bump hs
  · exact hs

theorem Keeps.takeFrame : YieldsSnd s₀ s.takeFrame := by
  unfold State.takeFrame
  split
  · exact .some hs
  split
  · exact .ite (.some hs.evict) .none
  · exact .none

theorem Keeps.pinTile {slot} {tile} {f} : Keeps s₀ (s.pinTile slot tile f).1 := by
  unfold State.pinTile
  extract_lets
  split
  · exact .iteFst hs (.iteFst hs.setFte.setTme hs.setTme)
  · exact hs

theorem Keeps.install {slot} {tile} {f} {bs} {marks} {heat} {st} : Keeps s₀ (s.install slot tile f bs marks heat st) :=
  .ite hs.unlist.putFrame.setFte.setTme.pinTile hs.unlist.putFrame.setFte.setTme

theorem Keeps.returnRun {slot} {t} : Keeps s₀ (s.returnRun slot t) :=
  .ite hs (.ite hs.unclaim.retireRun hs.unclaim.freeRun)

theorem Keeps.poisonTile {slot} {tile} : Keeps s₀ (s.poisonTile slot tile) :=
  .raise (.bump (.ite hs.returnRun.setTme.poisonFrame hs.returnRun.setTme))

/-! ## Training (Training) -/

theorem Keeps.layNear {r} : Keeps s₀ (s.layNear r) := .foldl hs.wr.wr.wr.wr.wr.wr fun _ _ hu => .ite hu.wrI hu.wrI.raise

theorem Keeps.layBulk {r} : Keeps s₀ (s.layBulk r) := by
  unfold State.layBulk
  extract_lets _ _ _ _ s1 _ s2 s3
  have hs1 : Keeps s₀ s1 := hs.wr.wr.wr.wr.wr
  have hs2 : Keeps s₀ s2 := hs1.withBulk
  have hs3 : Keeps s₀ s3 := .foldl hs2 fun _ _ hu => hu.wrI.wrI.wrI.wrI.wrI
  exact .foldl hs3 fun _ _ hu => .ite hu.wrI.raise hu.wrI

theorem Keeps.enterModes : Keeps s₀ s.enterModes :=
  .withAdm (.ite (.raise (.wr (.ite hs.wr.raise hs))) (.ite hs.wr.raise hs))

theorem Keeps.laySpace : Keeps s₀ s.laySpace := hs.wr.wr.wr.wr.wr.wr.withTmu

/-! ## Faults (Faults) -/

theorem Keeps.startEvacuation {id} : Keeps s₀ (s.startEvacuation id) :=
  .ite (.ite hs.setRas.setRas.setTmu.giveBack.wr hs.setRas.setRas.setTmu.giveBack) hs.setRas

theorem Keeps.rankFailing {id} {cause} : Keeps s₀ (s.rankFailing id cause) :=
  .ite hs (.ite hs.wr.log.raise hs.wr.log.raise.startEvacuation)

theorem Keeps.ueWords {id} {n} : Keeps s₀ (s.ueWords id n) := .ite hs.setRas.rankFailing hs.setRas

theorem Keeps.remapFull {page} {key} {cause} {who} : Keeps s₀ (s.remapFull page key cause who) :=
  .ite hs.setRas hs.setRas.setRas.log.raise

theorem Keeps.noteRemap {page} : Keeps s₀ (s.noteRemap page) := hs.wrI.wrb

theorem Keeps.withholdRow {page} {key} {entry} : Keeps s₀ (s.withholdRow page key entry) :=
  .raise (.watchFree (.wr (.foldl hs.wrAt.wrAt.wrAt.wrAt.noteRemap fun _ _ hu => hu.setNear.evict)))

theorem Keeps.hardFault {page} {key} {count} {first} {who} : Keeps s₀ (s.hardFault page key count first who) := by
  unfold State.hardFault
  extract_lets s1 _ full
  have hs1 : Keeps s₀ s1 := hs.log.raise.bump
  have hfull : ∀ u cause, Keeps s₀ u → Keeps s₀ (full u cause) := fun _ _ hu =>
    .ite hu.remapFull.rankFailing hu.remapFull
  refine .ite hs1 ?_
  refine .ite ?_ ?_
  · refine .ite hs1 ?_
    split
    · exact hs1.withholdRow
    · exact hs1.remapFull
  split
  · exact hfull _ _ hs1
  · exact hfull _ _ hs1
  · exact hs1.setRas

theorem Keeps.putTracker {page} {k} {key} {first} {count} : Keeps s₀ (s.putTracker page k key first count) :=
  hs.wrAt.wrAt.wrAt.wrAt

theorem Keeps.dropTracker {page} {k} : Keeps s₀ (s.dropTracker page k) := hs.wrAt.wrAt.wrAt.wrAt.wrAt

theorem Keeps.trackerAct {page} {k} {who} : Keeps s₀ (s.trackerAct page k who) := by
  unfold State.trackerAct
  extract_lets
  exact hs.dropTracker.hardFault

theorem Keeps.track {p} {who} : Keeps s₀ (s.track p who) := by
  unfold State.track
  extract_lets s1 hit _ r
  have hs1 : Keeps s₀ s1 := by
    unfold s1
    split
    · exact hs.remapFull
    · exact hs
  have hr : Keeps s₀ r.2 := by
    unfold r
    clear_value hit
    split
    · split <;> exact hs1.putTracker
    · exact hs1.dropTracker.putTracker
  exact .ite hr (.ite hr.wrAt.setRas hr.trackerAct)

theorem Keeps.countCorr {p} {n} : Keeps s₀ (s.countCorr p n) := .ite hs.bump hs.bump

theorem Keeps.countUe {p} {n} : Keeps s₀ (s.countUe p n) := .ite hs.bump hs.bump

theorem Keeps.corrected {p} {who} : Keeps s₀ (s.corrected p who) := hs.countCorr.track

theorem Keeps.poisonLine {slot} {f} {l} : Keeps s₀ (s.poisonLine slot f l) := .raise (.bump (.ite hs hs.setNear))

theorem Keeps.nearUe {slot} {tile} {f} {l} {edc} : Keeps s₀ (s.nearUe slot tile f l edc) :=
  .poisonLine (.drawn (.ite hs.countUe.log hs.countUe.log.ueWords))

theorem Keeps.bulkUe {slot} {tile} {loc} {bad} : Keeps s₀ (s.bulkUe slot tile loc bad) :=
  .poisonTile (.log (.foldl hs fun _ _ hu => hu.countUe.ueWords))

theorem Keeps.sectorsCorrected {slot} {tile} {loc} {idx} : Keeps s₀ (s.sectorsCorrected slot tile loc idx) :=
  .foldl hs fun _ _ hu => hu.corrected

theorem Keeps.tmeFaulted {slot} {tile} {cause} {blk} : Keeps s₀ (s.tmeFaulted slot tile cause blk) :=
  hs.log.setTme.poisonTile

theorem Keeps.cacheGood {slot} {tile} : Yields s₀ (s.cacheGood slot tile) :=
  mapImp hs.cacheIn fun _ hu => .ite hu.tmeFaulted hu

theorem Keeps.entryLost {slot} {t} : Keeps s₀ (s.entryLost slot t) := by
  unfold State.entryLost
  extract_lets _ _ _ s2 s3 place frame _ _ _ s4 s5 s6
  have hs3 : Keeps s₀ s3 := hs.wr.unclaim
  have hplace : Keeps s₀ place.2 := by
    unfold place
    split
    · split
      · rename_i r heq
        exact hs3.alloc _ heq
      · exact .getDSnd hs3.releaseChunk.alloc hs3.releaseChunk
    · exact hs3
  have hs4 : Keeps s₀ s4 := .drawn (.ite hplace.setSlot hplace)
  have hs5 : Keeps s₀ s5 := .ite hs4.setTme hs4.mapPut
  have hs6 : Keeps s₀ s6 := by
    unfold s6
    clear_value frame
    split
    · exact hs5.poisonFrame
    · exact hs5
  exact hs6.bump.raise

theorem Keeps.mapSectorLost {slot} {tile} : Keeps s₀ (s.mapSectorLost slot tile) :=
  .foldl hs.countUe.ueWords.log.raise fun _ _ hu => .ite hu hu.entryLost

/-! ## Queues of the controllers (DramQ) -/

theorem Keeps.chanStatus {key} : Keeps s₀ (s.chanStatus key) :=
  (((hs.withMem.wrI rqOf_fits).wrI wqOf_fits).wrb drainOf_fits).wrI fbOf_fits

theorem Keeps.setChanQ {key} {q} : Keeps s₀ (s.setChanQ key q) := hs.withMem.chanStatus

theorem Keeps.enqueue {key} {r} : Keeps s₀ (s.enqueue key r) := .setChanQ (.ite hs.withMem hs)

theorem Keeps.requeue {key} {q} : Keeps s₀ (s.requeue key q) := hs.withMem.setChanQ

theorem Keeps.issued {id} : Keeps s₀ (s.issued id) := .foldl hs fun _ _ hu => .ite hu.requeue hu

theorem Keeps.transfer {at_} {id} {ing} {cls} {time} {write} {promo} :
    Keeps s₀ (s.transfer at_ id ing cls time write promo) := by
  unfold State.transfer
  split
  · exact .enqueue (.ite hs.setCry hs)
  · exact hs

theorem Keeps.sectorTransfers {x} {n} {id} {cls} {write} {promo} :
    Keeps s₀ (s.sectorTransfers x n id cls write promo) :=
  .foldl hs fun _ _ hu => hu.transfer

theorem Keeps.freshId : Keeps s₀ s.freshId.2 := hs.setTmu

/-! ## The control cluster (Control) -/

theorem Keeps.setCtl {c} (hc : c.flash = s.ctl.flash := by with_reducible rfl) : Keeps s₀ (s.setCtl c) := hs.withCtl hc

theorem Keeps.noteCore {n} {k} : Keeps s₀ (s.noteCore n k) := hs.withRas

theorem Keeps.recordCores : Keeps s₀ s.recordCores := .foldl hs.withRas fun _ _ hu => hu.spare

theorem Keeps.placeRoles : Keeps s₀ s.placeRoles := by
  unfold State.placeRoles
  refine .foldl hs fun _ _ hu => ?_
  extract_lets give
  have hgive : ∀ u n, Keeps s₀ u → Keeps s₀ (give u n) := fun _ _ hv => hv.wrI
  refine .ite (hgive _ _ hu) ?_
  split
  · exact hgive _ _ hu
  split
  · exact (hgive _ _ hu.wrI).noteCore
  split
  · exact hgive _ _ hu
  · exact hu

theorem Keeps.coreFails {n} : Keeps s₀ (s.coreFails n) := .ite hs (.ite hs.setCtl.setCtl hs.setCtl)

theorem Keeps.moveDone {n} : Keeps s₀ (s.moveDone n) := by
  unfold State.moveDone
  split
  · exact hs
  extract_lets _ _ s1 s2 s3 s4 s5 _ s6
  have hs1 : Keeps s₀ s1 := hs.setCtl
  have hs2 : Keeps s₀ s2 := .ite hs1.wrI.wrI hs1
  have hs3 : Keeps s₀ s3 := .ite hs2 hs2.wrI
  have hs4 : Keeps s₀ s4 := hs3.wrI.wrI
  have hs5 : Keeps s₀ s5 := hs4.spare
  have hs6 : Keeps s₀ s6 := .ite hs5.setCtl hs5
  exact .ite hs6.raise hs6.raise

theorem Keeps.beatCheck {n} {beat} : Keeps s₀ (s.beatCheck n beat) :=
  .ite hs (.ite hs.setCtl.wrI.coreFails hs.setCtl.wrI)

theorem Keeps.execHeartbeatCheck {beats} : Ends s₀ (execHeartbeatCheck beats s) :=
  .next (.ite (.foldl hs fun _ _ hu => hu.beatCheck) hs)

theorem Keeps.execCoreRoleMoveDone {core} : Ends s₀ (execCoreRoleMoveDone core s) := .next hs.moveDone

theorem Keeps.execCoreSramError {core} {uncorrectable} : Ends s₀ (execCoreSramError core uncorrectable s) :=
  .next (.ite hs (.ite hs.sat.sat.coreFails hs.sat.sat))

theorem Keeps.coreActivate {n} : Keeps s₀ (s.coreActivate n) := .ite hs.wrI.wrI hs

theorem Keeps.coreCmdFail {n} : Keeps s₀ (s.coreCmdFail n) := .ite hs.coreFails (.ite hs.wrI hs)

theorem Keeps.execKick {path} : Ends s₀ (execKick path s) := .next (hs.viaPath (fun _ hu => .ite hu.wr hu))

theorem Keeps.execWdtHalfTimeout : Ends s₀ (execWdtHalfTimeout s) := .next (.ite hs.wr.raise hs)

theorem Keeps.execWdtTimeout : Ends s₀ (execWdtTimeout s) := .next (.ite hs.warm hs)

end

end Sys2Proof.Machine
end

section
/-!
PROOFS for O56 and O58: pipes, moves, the directory and requests
keep the queue and the canonical form, one lemma per operation of the model, in the order of its files.
-/
namespace Sys2Proof.Machine
open Sys2Proof.Safety

section
-- a lemma whose width check runs by default waits for those before it: one thread, so that none waits idle
set_option Elab.async false
variable {s₀ s : State} (hs : Keeps s₀ s)
include hs

/-! ## Pipes and engines (Pipes) -/

theorem Keeps.assign {fuel} : Keeps s₀ (State.assign fuel s) := by
  induction fuel generalizing s with
  | zero => exact hs
  | succ fuel ih =>
    unfold State.assign
    extract_lets
    split
    · exact ih hs.setCdc
    · exact hs

theorem Keeps.dispatch : Keeps s₀ s.dispatch := .ite hs (.ite hs.setCdc hs.setCdc.assign)

theorem Keeps.letGo {p} : Keeps s₀ (s.letGo p) := hs.setCdc

theorem Keeps.stopCodecJobs : Keeps s₀ s.stopCodecJobs := hs.setJob

theorem Keeps.watchService : Keeps s₀ s.watchService := .ite hs.wr (.ite hs.wr hs)

theorem Keeps.watchUnits : Keeps s₀ s.watchUnits :=
  .watchService (.dispatch (.ite hs.wr.raise.stopCodecJobs (.ite hs.wr hs)))

theorem Keeps.raiseOpt {a} : Keeps s₀ (s.raiseOpt a) := by
  unfold State.raiseOpt
  split
  · exact hs.raise
  · exact hs

theorem Keeps.activateUnit {k} {p}
    (hk : k.Fits := by exact ⟨Nat.le_of_ble_eq_true rfl, Nat.le_of_ble_eq_true rfl, Nat.le_of_ble_eq_true rfl⟩) :
    Keeps s₀ (s.activateUnit k p) :=
  ((hs.wrI hk.state).wrI hk.count).watchUnits

theorem Keeps.substitute {k} {p}
    (hk : k.Fits := by exact ⟨Nat.le_of_ble_eq_true rfl, Nat.le_of_ble_eq_true rfl, Nat.le_of_ble_eq_true rfl⟩) :
    Keeps s₀ (s.substitute k p) := by
  unfold State.substitute
  extract_lets s1 _ s2
  have hs1 : Keeps s₀ s1 := hs.raiseOpt
  have hs2 : Keeps s₀ s2 := by
    unfold s2
    split
    · exact (hs1.activateUnit hk).setRas
    · exact hs1
  exact (hs2.wrI hk.state).watchUnits

theorem Keeps.unitFault {k} {p}
    (hk : k.Fits := by exact ⟨Nat.le_of_ble_eq_true rfl, Nat.le_of_ble_eq_true rfl, Nat.le_of_ble_eq_true rfl⟩) :
    Keeps s₀ (s.unitFault k p) :=
  .ite (((hs.sat hk.count).sat hk.total).substitute hk) ((hs.sat hk.count).sat hk.total)

theorem Keeps.unitFailed {k} {p}
    (hk : k.Fits := by exact ⟨Nat.le_of_ble_eq_true rfl, Nat.le_of_ble_eq_true rfl, Nat.le_of_ble_eq_true rfl⟩) :
    Keeps s₀ (s.unitFailed k p) := by
  unfold State.unitFailed
  extract_lets s1 _ s2
  have hs1 : Keeps s₀ s1 := .wrI (.ite hs.letGo hs) hk.state
  have hs2 : Keeps s₀ s2 := by
    unfold s2
    split
    · exact hs1.setRas.spare.raiseOpt
    · exact .ite hs1.spare.raise hs1
  exact hs2.watchUnits

theorem Keeps.unitDrained {k} {p}
    (hk : k.Fits := by exact ⟨Nat.le_of_ble_eq_true rfl, Nat.le_of_ble_eq_true rfl, Nat.le_of_ble_eq_true rfl⟩) :
    Keeps s₀ (s.unitDrained k p) :=
  .ite (hs.unitFailed hk) hs

theorem Keeps.cmdActivate {k} {p}
    (hk : k.Fits := by exact ⟨Nat.le_of_ble_eq_true rfl, Nat.le_of_ble_eq_true rfl, Nat.le_of_ble_eq_true rfl⟩) :
    Keeps s₀ (s.cmdActivate k p) :=
  .ite ((hs.activateUnit hk).setRas) (.ite (hs.activateUnit hk) hs)

theorem Keeps.cmdDrain {k} {p}
    (hk : k.Fits := by exact ⟨Nat.le_of_ble_eq_true rfl, Nat.le_of_ble_eq_true rfl, Nat.le_of_ble_eq_true rfl⟩) :
    Keeps s₀ (s.cmdDrain k p) :=
  .ite ((hs.wrI hk.state).watchUnits) hs

theorem Keeps.cmdFail {k} {p}
    (hk : k.Fits := by exact ⟨Nat.le_of_ble_eq_true rfl, Nat.le_of_ble_eq_true rfl, Nat.le_of_ble_eq_true rfl⟩) :
    Keeps s₀ (s.cmdFail k p) :=
  .ite (hs.unitFailed hk) hs

theorem Keeps.execCodecPipeDrained {p} : Ends s₀ (execCodecPipeDrained p s) := .next (.ite hs.unitDrained hs)

theorem Keeps.execCdcPipeActivate {path} {p} : Ends s₀ (execCdcPipeActivate path p s) :=
  .next (hs.viaPath (fun _ hu => hu.cmdActivate))

theorem Keeps.execCdcPipeDrain {path} {p} : Ends s₀ (execCdcPipeDrain path p s) :=
  .next (hs.viaPath (fun _ hu => hu.cmdDrain))

theorem Keeps.execCdcPipeFail {path} {p} : Ends s₀ (execCdcPipeFail path p s) :=
  .next (hs.viaPath (fun _ hu => hu.cmdFail))

theorem Keeps.aesActivate {p} {katPass} : Keeps s₀ (s.aesActivate p katPass) :=
  .ite (.ite hs.cmdActivate hs.cmdActivate.unitFault) hs

theorem Keeps.execCryPipeActivate {path} {p} {katPass} : Ends s₀ (execCryPipeActivate path p katPass s) :=
  .next (hs.viaPath (fun _ hu => hu.aesActivate))

theorem Keeps.execCryPipeDrain {path} {p} : Ends s₀ (execCryPipeDrain path p s) :=
  .next (hs.viaPath (fun _ hu => hu.cmdDrain))

theorem Keeps.execCryPipeFail {path} {p} : Ends s₀ (execCryPipeFail path p s) :=
  .next (hs.viaPath (fun _ hu => hu.cmdFail))

theorem Keeps.execAesPipeDrained {p} : Ends s₀ (execAesPipeDrained p s) := .next hs.unitDrained

theorem Keeps.execAesKnownAnswerTest {p} {pass} : Ends s₀ (execAesKnownAnswerTest p pass s) :=
  .next (.ite hs.unitFault hs)

theorem Keeps.execAesKeyParityError {p} : Ends s₀ (execAesKeyParityError p s) := .next (.ite hs.unitFault hs)

theorem Keeps.execScrEngActivate {path} {e} : Ends s₀ (execScrEngActivate path e s) :=
  .next (hs.viaPath (fun _ hu => hu.cmdActivate))

theorem Keeps.execScrEngDrain {path} {e} : Ends s₀ (execScrEngDrain path e s) :=
  .next (hs.viaPath (fun _ hu => hu.cmdDrain))

theorem Keeps.execScrEngFail {path} {e} : Ends s₀ (execScrEngFail path e s) :=
  .next (hs.viaPath (fun _ hu => hu.cmdFail))

theorem Keeps.execScarabEngineDrained {e} : Ends s₀ (execScarabEngineDrained e s) := .next (.ite hs.unitDrained hs)

theorem Keeps.execScarabEngineFault {e} : Ends s₀ (execScarabEngineFault e s) := .next (.ite hs.unitFault hs)

theorem Keeps.wayOn {bank} {way} : Keeps s₀ (s.wayOn bank way) := .ite hs.wrI.wrAt.setRas hs

theorem Keeps.wayOff {bank} {way} : Keeps s₀ (s.wayOff bank way) := by
  unfold State.wayOff
  refine .ite ?_ hs
  extract_lets s1
  have hs1 : Keeps s₀ s1 := hs.wrI.wrI
  split
  · exact hs1.setRas.spare.raise
  · exact .ite hs1.raise hs1.spare.raise

theorem Keeps.wayFault {bank} {way} : Keeps s₀ (s.wayFault bank way) := by
  unfold State.wayFault
  extract_lets s1
  have hs1 : Keeps s₀ s1 := hs.sat.sat
  refine .ite ?_ hs1
  refine .wayOff ?_
  split
  · exact hs1.wayOn
  · exact hs1

theorem Keeps.execDirBankActivate {path} {bank} {way} : Ends s₀ (execDirBankActivate path bank way s) :=
  .next (hs.viaPath (fun _ hu => hu.wayOn))

theorem Keeps.execDirBankFail {path} {bank} {way} : Ends s₀ (execDirBankFail path bank way s) :=
  .next (hs.viaPath (fun _ hu => hu.wayOff))

theorem Keeps.execCtlCoreActivate {path} {core} : Ends s₀ (execCtlCoreActivate path core s) :=
  .next (hs.viaPath (fun _ hu => hu.coreActivate))

theorem Keeps.execCtlCoreFail {path} {core} : Ends s₀ (execCtlCoreFail path core s) :=
  .next (hs.viaPath (fun _ hu => hu.coreCmdFail))

/-! ## Moves of tiles (Moves) -/

theorem Keeps.addMove {m} : Keeps s₀ (s.addMove m) := hs.setTmu

theorem Keeps.putMove {m} : Keeps s₀ (s.putMove m) := hs.setTmu.dispatch

theorem Keeps.dropMove {id} : Keeps s₀ (s.dropMove id) := hs.setTmu.dispatch

theorem Keeps.jobMoved {id} {tile} {wasted} : Keeps s₀ (s.jobMoved id tile wasted) := hs.setJob

theorem Keeps.leaveMove {m} {wasted} : Keeps s₀ (s.leaveMove m wasted) := by
  unfold State.leaveMove
  refine .ite hs ?_
  split
  · exact .ite hs.jobMoved hs.outSub.slotDone
  · exact hs.leaveInternal

theorem Keeps.engineDone {m} : Keeps s₀ (s.engineDone m) := by
  unfold State.engineDone
  split
  · exact hs.bump
  · exact hs

theorem Keeps.startRekey {slot} {cause} : Keeps s₀ (s.startRekey slot cause) :=
  .ite hs.raise hs.wrI.wrI.wrI.wrI.wrI.setCry.withAdm.raise

theorem Keeps.saturate {slot} {tile} : Keeps s₀ (s.saturate slot tile) := by
  unfold State.saturate
  extract_lets _ s1 _ s2
  have hs1 : Keeps s₀ s1 := hs.setTme
  have hs2 : Keeps s₀ s2 := hs1.setCry
  refine .ite hs ?_
  exact .ite (.ite hs1.raise.raise hs1) (.ite hs1.startRekey (.ite hs2.wrI.bump.raise hs1))

theorem Keeps.takeCounter {slot} {tile} {t} : YieldsSnd s₀ (s.takeCounter slot tile t) := by
  unfold State.takeCounter
  extract_lets
  refine .ite (.some hs) ?_
  split
  · exact .some hs.setCry
  · exact .ite (.some hs.setCry) .none

theorem Keeps.lineTransfers {f} {id} {cls} {write} : Keeps s₀ (s.lineTransfers f id cls write) :=
  .foldl hs fun _ _ hu => hu.transfer

theorem Keeps.runDemotion {m} : Keeps s₀ (s.runDemotion m) := by
  unfold State.runDemotion
  extract_lets
  split
  · exact hs.putMove.bump
  · rename_i u s1 heq
    have hs1 : Keeps s₀ s1 := hs.takeCounter _ heq
    extract_lets _ _ s2
    have hs2 : Keeps s₀ s2 := hs1.lineTransfers.putMove.setTme
    split
    · exact hs2.setFte
    · exact hs2

theorem Keeps.beginDemotion {f} {cls} {purpose} {engine} {job} :
    Yields s₀ (s.beginDemotion f cls purpose engine job) := by
  unfold State.beginDemotion
  split
  · exact .none
  refine .ite ?_ .none
  split
  · exact .none
  · rename_i s1 heq
    have hs1 : Keeps s₀ s1 := hs.cacheGood _ heq
    split
    · rename_i id s2 heq
      have hs2 : Keeps s₀ s2 := hs1.freshId.snd heq
      exact .some hs2.addMove.runDemotion

theorem Keeps.startDemotion {f} {cls} {purpose} {engine} : Yields s₀ (s.startDemotion f cls purpose engine) := by
  unfold State.startDemotion
  split
  · exact .none
  · exact .ite (bindImp hs.admitInternal fun _ hu => hu.beginDemotion) .none

theorem Keeps.claimMove {m} : Keeps s₀ (s.claimMove m) := .ite hs.claim.putMove hs.putMove

theorem Keeps.sealMove {m} {loc} : Keeps s₀ (s.sealMove m loc) := by
  unfold State.sealMove
  extract_lets _ _ _ _ _ _ _ s1
  have hs1 : Keeps s₀ s1 := hs.putMove.putSectors
  split
  · exact hs.putMove
  · exact hs.putMove
  · exact hs1.sectorTransfers

theorem Keeps.placeMove {m} : Keeps s₀ (s.placeMove m) := by
  unfold State.placeMove
  extract_lets
  refine .ite hs.sealMove ?_
  refine .ite hs.sealMove ?_
  split
  · rename_i a s1 heq
    have hs1 : Keeps s₀ s1 := hs.alloc _ heq
    exact hs1.sealMove
  · exact hs.putMove.raise

theorem Keeps.compressed {m} {forceRaw} : Keeps s₀ (s.compressed m forceRaw) := by
  unfold State.compressed
  extract_lets _ _ _ s1 s2 s3
  have hs1 : Keeps s₀ s1 := .ite hs hs.bump.bump
  have hs2 : Keeps s₀ s2 := .ite hs1.bump hs1
  have hs3 : Keeps s₀ s3 := hs2.claimMove
  split
  · exact hs3.placeMove
  · exact hs3

theorem Keeps.abortDemotion {m} : Keeps s₀ (s.abortDemotion m) := by
  unfold State.abortDemotion
  extract_lets s1 s2 s3 _ s4 s5
  have hs1 : Keeps s₀ s1 := hs.dropMove.issued
  have hs2 : Keeps s₀ s2 := .ite hs1.freeRun hs1
  have hs3 : Keeps s₀ s3 := hs2.unclaim
  have hs4 : Keeps s₀ s4 := hs3.setTme
  have hs5 : Keeps s₀ s5 := by
    unfold s5
    split
    · exact hs4.setFte
    · exact hs4
  exact .ite hs1.leaveMove hs5.saturate.bump.leaveMove.engineDone

theorem Keeps.tileRetired {slot} {tile} {loc} {len} : Keeps s₀ (s.tileRetired slot tile loc len) := hs.log.raise

theorem Keeps.commitDemotion {m} : Keeps s₀ (s.commitDemotion m) := by
  unfold State.commitDemotion
  extract_lets _ _ s1 _ s2 s4 s3 s3' s5 _ s6 s7 s8
  have hs1 : Keeps s₀ s1 := hs.dropMove.issued
  have hs2 : Keeps s₀ s2 := hs1.setTme
  have hs4 : Keeps s₀ s4 := hs2.unclaim
  have hs3 : Keeps s₀ s3 := by
    unfold s3
    exact .ite (.ite (.ite hs2.retireRun hs2.freeRun) hs2) (.ite hs2 (.ite hs4.retireRun hs4.freeRun))
  have hs3' : Keeps s₀ s3' := .ite hs3.setSlot hs3
  have hs5 : Keeps s₀ s5 := .ite hs3'.tileRetired hs3'
  have hs6 : Keeps s₀ s6 := .ite hs5.setCry hs5
  have hs7 : Keeps s₀ s7 := by
    unfold s7
    split
    · exact hs6.setFte
    · exact hs6
  have hs8 : Keeps s₀ s8 := hs7.saturate.bump.leaveMove.engineDone
  exact .ite hs8.evict hs8

theorem Keeps.tcsMismatch {slot} {tile} {blk} {detail} : Keeps s₀ (s.tcsMismatch slot tile blk detail) :=
  hs.log.poisonTile

theorem Keeps.expandMismatch {slot} {tile} : Keeps s₀ (s.expandMismatch slot tile) := hs.tcsMismatch

theorem Keeps.expandMove {m} : Keeps s₀ (s.expandMove m) := .ite hs.putMove (.ite hs.putMove hs.expandMismatch.putMove)

theorem Keeps.beginPromotion {slot} {tile} {f} {cls} {purpose} {engine} {job} {req} :
    Keeps s₀ (s.beginPromotion slot tile f cls purpose engine job req) := by
  unfold State.beginPromotion
  extract_lets
  split
  · rename_i id s1 heq
    have hs1 : Keeps s₀ s1 := hs.freshId.snd heq
    exact .ite hs1.setFte.addMove.expandMove hs1.setFte.addMove.sectorTransfers

theorem Keeps.beginRead {slot} {tile} {cls} {q} : Keeps s₀ (s.beginRead slot tile cls q) := by
  unfold State.beginRead
  extract_lets
  split
  · rename_i id s1 heq
    have hs1 : Keeps s₀ s1 := hs.freshId.snd heq
    exact .foldl hs1.addMove fun _ _ hu => hu.transfer

theorem Keeps.integrityHalt {slot} {tile} {gen} {src} {pipe} {stored} {calcd} :
    Keeps s₀ (s.integrityHalt slot tile gen src pipe stored calcd) :=
  .ite hs hs.wr.wr.wr.wr.wr.wr.wr.setCry.raise.emit

theorem Keeps.copyRun {slot} {tile} {a} {cls} : Keeps s₀ (s.copyRun slot tile a cls) := by
  unfold State.copyRun
  extract_lets
  split
  · rename_i id s0 heq
    have hs0 : Keeps s₀ s0 := hs.freshId.snd heq
    extract_lets s1 s2 s3 s4
    have hs1 : Keeps s₀ s1 := hs0.sectorTransfers
    have hs2 : Keeps s₀ s2 := hs1.putSectors.sectorTransfers
    have hs3 : Keeps s₀ s3 := hs2.setTme
    have hs4 : Keeps s₀ s4 := .ite hs3.setSlot hs3
    exact .ite hs1.integrityHalt (.ite hs4.retireRun.tileRetired hs4.freeRun)

theorem Keeps.moveSlot {slot} {tile} {a} : Keeps s₀ (s.moveSlot slot tile a) :=
  .ite hs.setTme.setSlot.retireRun.tileRetired hs.setTme.setSlot.freeRun

theorem Keeps.startPromotion {slot} {tile} {cls} {purpose} {engine} :
    Yields s₀ (s.startPromotion slot tile cls purpose engine) := by
  unfold State.startPromotion
  split
  · exact .none
  · rename_i s1 heq
    have hs1 : Keeps s₀ s1 := hs.cacheGood _ heq
    refine .ite ?_ .none
    split
    · exact .none
    · rename_i f s2 heq
      have hs2 : Keeps s₀ s2 := hs1.takeFrame _ heq
      exact mapImp hs2.admitInternal fun _ hu => hu.beginPromotion

theorem Keeps.jobPromotion {slot} {tile} {cls} {purpose} {engine} {job} :
    Yields s₀ (s.jobPromotion slot tile cls purpose engine job) := by
  unfold State.jobPromotion
  split
  · exact .none
  · rename_i s1 heq
    have hs1 : Keeps s₀ s1 := hs.cacheGood _ heq
    exact .ite (mapImp hs1.takeFrame fun _ hu => hu.beginPromotion) .none

theorem Keeps.stopPinWalk {slot} : Keeps s₀ (s.stopPinWalk slot) := hs.setScr.raise

theorem Keeps.installWrites {f} {cls} : Keeps s₀ (s.installWrites f cls) := by
  unfold State.installWrites
  split
  · rename_i id s1 heq
    have hs1 : Keeps s₀ s1 := hs.freshId.snd heq
    exact hs1.lineTransfers

theorem Keeps.installMove {m} : Keeps s₀ (s.installMove m) := by
  unfold State.installMove
  extract_lets s1 s2 s3 r s4
  have hs1 : Keeps s₀ s1 := hs.dropMove.issued
  have hs2 : Keeps s₀ s2 := hs1.install.installWrites
  have hs3 : Keeps s₀ s3 := by
    unfold s3
    split
    · exact hs2.bump
    · exact hs2.bump
    · exact hs2
  have hr : Keeps s₀ r.1 := hs3.pinTile
  have hs4 : Keeps s₀ s4 := .ite (.ite hr.stopPinWalk hr) hs3
  exact hs4.leaveMove.engineDone

theorem Keeps.dropPrefetch : Keeps s₀ s.dropPrefetch := hs.withAdm.slotDone.bump

theorem Keeps.prefetchTile {slot} {tile} : Keeps s₀ (s.prefetchTile slot tile) := by
  unfold State.prefetchTile
  extract_lets _ later
  have hlater : Keeps s₀ later := hs.setScr
  refine .ite hs ?_
  split
  · exact hlater
  · rename_i s1 heq
    have hs1 : Keeps s₀ s1 := hs.cacheGood _ heq
    extract_lets
    refine .ite hs1.dropPrefetch ?_
    split
    · exact hlater
    · exact .getD hs1.startPromotion hlater

theorem Keeps.runPrefetches : Keeps s₀ s.runPrefetches := .ite hs (.foldl hs.setScr fun _ _ hu => hu.prefetchTile)

theorem Keeps.notePromotion {slot} {tile} : Keeps s₀ (s.notePromotion slot tile) := by
  unfold State.notePromotion
  extract_lets _ _ s1 _ from_
  clear_value from_
  split
  · exact .ite hs.setScr (.foldl hs.setScr fun _ _ hu => hu.prefetchTile)
  · exact hs.setScr

/-! ## The directory (Coherence) -/

theorem Keeps.putDirEnts {n} {l} : Keeps s₀ (s.putDirEnts n l) := hs.setDir

theorem Keeps.dirPut {line} {st} {sharers} : Keeps s₀ (s.dirPut line st sharers) :=
  .ite hs.putDirEnts (.ite hs hs.putDirEnts)

theorem Keeps.dirDrop {line} {h} : Keeps s₀ (s.dirDrop line h) := by
  unfold State.dirDrop
  split
  · exact hs.dirPut
  · exact hs

theorem Keeps.dirLost {n} : Keeps s₀ (s.dirLost n) := by
  unfold State.dirLost
  extract_lets s0 _ s1
  have hs0 : Keeps s₀ s0 := hs.putDirEnts
  have hs1 : Keeps s₀ s1 := hs0.setDir
  split
  · exact hs1.wrAt.wrAt.wr.raise
  · exact hs1.wr.raise

theorem Keeps.dirInstall {line} : Keeps s₀ (s.dirInstall line) := .ite hs.setDir hs.setDir

theorem Keeps.dirLook {line} : Keeps s₀ (s.dirLook line) := .dirInstall (.ite hs.bump hs.bump)

theorem Keeps.dirMeets {line} {err} : Keeps s₀ (s.dirMeets line err) := by
  unfold State.dirMeets
  extract_lets
  split
  · exact .ite hs.wayFault hs
  · exact .ite hs.setDir.wayFault hs
  · exact .ite hs hs.dirLost
  · exact .ite hs hs.dirLost

theorem Keeps.sendSnoop {h} {line} {k} : Keeps s₀ (s.sendSnoop h line k) := hs.emit.bump

theorem Keeps.snoopAll {line} {k} {heads} {next} : SnoopKeeps s₀ (s.snoopAll line k heads next) := by
  unfold State.snoopAll
  extract_lets _ _ s1 s2
  have hs1 : Keeps s₀ s1 := .foldl hs fun _ _ hu => hu.dirDrop
  have hs2 : Keeps s₀ s2 := .foldl hs1 fun _ _ hu => hu.sendSnoop
  exact .ite .credit (.ite (.free hs1) (.busy hs2.setDir))

theorem Keeps.dirAfter {q} : Keeps s₀ (s.dirAfter q) := by
  unfold State.dirAfter
  extract_lets
  refine .ite ?_ ?_
  · split
    · exact hs.dirDrop
    · exact hs.dirPut
    · exact hs.dirPut
  split
  · exact hs
  · exact hs.dirPut
  · exact hs.dirPut

theorem Keeps.countEviction : Keeps s₀ s.countEviction := .ite hs.setDir.bump.raise hs.setDir.bump

theorem Keeps.dirStep {q} {slot} : DirKeeps s₀ (s.dirStep q slot) := by
  unfold State.dirStep
  extract_lets h line s0 q' unknown s1 need told r
  have hs1 : Keeps s₀ s1 := hs.dirMeets.dirLook
  have htold : ∀ u, Keeps s₀ u → Keeps s₀ (told u) := fun _ hu => .ite hu.bump hu
  have hr : SnoopKeeps s₀ r := .ite (.free hs1) hs1.snoopAll
  clear_value r told
  split
  · exact .ite (.pass hs) (.wait hs)
  refine .ite (.wait hs) (.ite (.wait hs) ?_)
  split
  · exact .wait hs
  · exact .held (htold _ hr)
  refine .ite ?_ (.pass (htold _ (Keeps.dirInstall (Keeps.dirAfter hr))))
  split
  · exact .wait hs
  split
  · exact .wait hs
  · rename_i s3 heq
    exact .held ((Keeps.snoopAll hr).ofBusy heq)
  · rename_i s3 heq
    exact .pass (htold _ ((Keeps.snoopAll hr).ofFree heq).dirPut.countEviction.dirAfter.dirInstall)

theorem Keeps.sweepSend {n} {w} : Keeps s₀ (s.sweepSend n w) := by
  unfold State.sweepSend
  refine .foldl hs fun _ _ hu => ?_
  refine .ite hu ?_
  split
  · rename_i s1 heq
    have hs1 : Keeps s₀ s1 := hu.snoopAll.ofFree heq
    exact hs1
  · rename_i s1 heq
    have hs1 : Keeps s₀ s1 := hu.snoopAll.ofBusy heq
    exact hs1
  · exact hu

theorem Keeps.startSweep {w} : Keeps s₀ (s.startSweep w) := by
  unfold State.startSweep
  extract_lets _ _ s1
  have hs1 : Keeps s₀ s1 := hs.setDir
  split
  · exact hs1.wrAt
  · exact hs1.sweepSend

theorem Keeps.dirClear : Keeps s₀ s.dirClear := hs.setDir

/-! ## Ends of jobs (JobEnd) -/

theorem Keeps.putJob {j} : Keeps s₀ (s.putJob j) := hs.setJob

theorem Keeps.removeJob {j} : Keeps s₀ (s.removeJob j) := by
  unfold State.removeJob
  extract_lets _ s1 _ _ s2 _ _ s3 _ s4
  have hs1 : Keeps s₀ s1 := hs.setJob
  have hs2 : Keeps s₀ s2 := .ite hs1.setCtx hs1
  have hs3 : Keeps s₀ s3 := hs2.setCtx
  have hs4 : Keeps s₀ s4 := hs3.setJob
  exact .ite hs2 (.ite hs2 (.foldl hs4 fun _ _ hu => hu.reply))

theorem Keeps.endJob {j} {status} {detail} {result} : Keeps s₀ (s.endJob j status detail result) := by
  unfold State.endJob
  extract_lets _ s1 _ s2 s3 s4 s5
  have hs1 : Keeps s₀ s1 := hs.putJob
  have hs2 : Keeps s₀ s2 := hs1.setJob.bump
  have hs3 : Keeps s₀ s3 := .ite hs2 hs2.bump
  have hs4 : Keeps s₀ s4 := by
    unfold s4
    split
    · exact hs3.bump
    · exact hs3
  have hs5 : Keeps s₀ s5 := .ite hs4.queueError hs4
  exact .ite hs5.setJob hs4

theorem Keeps.countJob {q} : Keeps s₀ (s.countJob q) := .ite hs.setCtx hs

theorem Keeps.interrupt {k} {status} {irq} : Keeps s₀ (s.interrupt k status irq) := .ite hs.setJob.msix hs.setJob

theorem Keeps.posted {j} : Keeps s₀ (s.posted j) := by
  unfold State.posted
  extract_lets _ _ _ s1
  have hs1 : Keeps s₀ s1 := hs.setCtx
  exact hs1.countJob.removeJob.interrupt

theorem Keeps.postLost {j} {poisoned} : Keeps s₀ (s.postLost j poisoned) :=
  .removeJob (.countJob (.ite hs.queueError.bump.raise hs.queueError))

theorem Keeps.fetched {j} {v} {poison} {fault} : Keeps s₀ (s.fetched j v poison fault) := by
  unfold State.fetched
  extract_lets s0 _ s1
  have hs0 : Keeps s₀ s0 := hs.leavePart
  have hs1 : Keeps s₀ s1 := hs0.setCtx
  split
  · exact .removeJob (.ite hs0.queueError hs0)
  · exact .ite hs1.endJob (.ite hs1.endJob hs1.putJob)

theorem Keeps.jobRead {id} {what} {off} {line} {v} {poison} {fault} :
    Keeps s₀ (s.jobRead id what off line v poison fault) := by
  unfold State.jobRead
  split
  · exact hs
  · exact .ite (.ite hs.fetched hs) hs.putJob

theorem Keeps.jobWrote {id} {what} {off} {line} {fault} : Keeps s₀ (s.jobWrote id what off line fault) := by
  unfold State.jobWrote
  split
  · exact hs
  · exact .ite (.ite hs (.ite hs.postLost (.ite hs.postLost hs.posted))) hs.putJob

/-! ## Requests (Serve) -/

theorem Keeps.settleConflicts : Keeps s₀ s.settleConflicts := .foldl hs fun _ _ hu => .ite hu.emit.setDir hu

theorem Keeps.answerRead {q} {poison} {v} {refused} : Keeps s₀ (s.answerRead q poison v refused) := by
  unfold State.answerRead
  extract_lets _ s1
  have hs1 : Keeps s₀ s1 := by
    unfold s1
    split
    · exact hs.emit
    · exact hs.farReadRsp
    · exact hs.jobRead
    · exact hs
  exact hs1.leaveReq.settleConflicts

theorem Keeps.answerWrite {q} {refused} : Keeps s₀ (s.answerWrite q refused) := by
  unfold State.answerWrite
  split
  · exact .settleConflicts (.leaveReq (.ite hs hs.emit))
  · exact hs.withClx
  · exact hs.jobWrote
  · exact hs.leaveReq

theorem Keeps.refuse {q} {refused} : Keeps s₀ (s.refuse q refused) := by
  unfold State.refuse
  split
  · exact hs.answerRead
  · split
    · exact hs.emit
    · exact hs
  · exact hs.answerWrite

theorem Keeps.decodeMiss {q} {cause} : Keeps s₀ (s.decodeMiss q cause) := hs.wr.wr.wr.raise.refuse

theorem Keeps.fetchSector {slot} {tile} {cls} : Keeps s₀ (s.fetchSector slot tile cls) := by
  unfold State.fetchSector
  split
  · exact hs
  split
  · rename_i id s1 heq
    have hs1 : Keeps s₀ s1 := hs.freshId.snd heq
    exact hs1.setTmu.transfer

theorem Keeps.waitFor {q} {why} {slot} {tile} : Keeps s₀ (s.waitFor q why slot tile) :=
  .ite hs.setTmu.fetchSector hs.setTmu

theorem Keeps.mayfly {q} {f} : Keeps s₀ (s.mayfly q f) := by
  unfold State.mayfly
  split
  · exact hs
  · exact hs
  · exact .ite hs hs.sample

theorem Keeps.nearRead {q} {f} {l} {merge} : Keeps s₀ (s.nearRead q f l merge) := by
  unfold State.nearRead
  split
  · rename_i id s1 heq
    have hs1 : Keeps s₀ s1 := hs.freshId.snd heq
    exact hs1.setNear.transfer

theorem Keeps.nearWrite {q} {f} {l} : Keeps s₀ (s.nearWrite q f l) := by
  unfold State.nearWrite
  split
  · rename_i id s0 heq
    have hs0 : Keeps s₀ s0 := hs.freshId.snd heq
    refine .ite hs0.putLine.transfer.setNear.answerWrite ?_
    exact .ite hs.answerWrite hs.nearRead.putLine.transfer

theorem Keeps.waitDirty {q} {why} {slot} {tile} {was} : Keeps s₀ (s.waitDirty q why slot tile was) :=
  .ite hs.waitFor.raise hs.waitFor

theorem Keeps.waitFrame {q} {slot} {tile} {was} : Keeps s₀ (s.waitFrame q slot tile was) :=
  .ite hs.waitFor hs.waitFor.bump.raise

theorem Keeps.writeFrame {q} {slot} {tile} {f} {l} {was} : Keeps s₀ (s.writeFrame q slot tile f l was) := by
  unfold State.writeFrame
  refine .ite hs.waitFor ?_
  extract_lets s1
  have hs1 : Keeps s₀ s1 := by
    unfold s1
    split
    · exact .ite hs.abortDemotion hs
    · exact hs
  split
  · exact hs1.refuse
  extract_lets put
  have hput : ∀ u, Keeps s₀ u → Keeps s₀ (put u) := fun _ hu => .nearWrite (.mayfly (.ite hu.setFte.pinTile hu.setFte))
  refine .ite ?_ (hput _ hs1)
  split
  · exact hs1.waitDirty
  · exact hput _ hs1

theorem Keeps.writeNew {q} {slot} {tile} {l} {was} : Keeps s₀ (s.writeNew q slot tile l was) := by
  unfold State.writeNew
  extract_lets _ _ s0
  have hs0 : Keeps s₀ s0 := .ite hs hs.expandMismatch
  refine .ite hs.waitFor ?_
  split
  · exact hs.waitDirty
  split
  · exact hs0.waitFrame
  · rename_i f s1 heq
    have hs1 : Keeps s₀ s1 := hs0.takeFrame _ heq
    extract_lets _ s2 s3
    have hs2 : Keeps s₀ s2 := hs1.setTme
    have hs3 : Keeps s₀ s3 := hs2.install.installWrites
    split
    · exact hs3.setFte.mayfly.nearWrite
    · exact hs3

theorem Keeps.readNew {q} {slot} {tile} {l} : Keeps s₀ (s.readNew q slot tile l) := by
  unfold State.readNew
  extract_lets _ _ s0 _ _ _ s1
  have hs0 : Keeps s₀ s0 := .ite hs hs.expandMismatch
  have hs1 : Keeps s₀ s1 := hs0.answerRead
  refine .ite hs.answerRead ?_
  refine .ite hs1 ?_
  split
  · exact hs1.bump
  · rename_i f s2 heq
    have hs2 : Keeps s₀ s2 := hs1.takeFrame _ heq
    exact hs2.continue_.install.installWrites.bump.notePromotion

theorem Keeps.nearOnlyTile {q} {slot} {off} : Keeps s₀ (s.nearOnlyTile q slot off) := by
  unfold State.nearOnlyTile
  extract_lets
  split
  · rename_i s1 heq
    have hs1 : Keeps s₀ s1 := hs.reachTier.fst heq
    exact hs1.waitFor
  · rename_i s1 heq
    have hs1 : Keeps s₀ s1 := hs.reachTier.fst heq
    exact .ite (.ite hs1.answerRead hs1.nearRead) (.nearWrite (.ite hs1.putFrame.setNear hs1))

theorem Keeps.serveTile {q} {slot} {tile} {l} {was} : Keeps s₀ (s.serveTile q slot tile l was) := by
  unfold State.serveTile
  extract_lets _ s1
  have hs1 : Keeps s₀ s1 := hs.bump.log.raise
  refine .ite ?_ ?_
  · split
    · rename_i s1' heq
      have hs1' : Keeps s₀ s1' := hs.reachTier.fst heq
      exact hs1'.waitFor
    · rename_i s1' heq
      have hs1' : Keeps s₀ s1' := hs.reachTier.fst heq
      exact .ite hs1'.writeFrame hs1'.mayfly.nearRead
  refine .ite hs1.answerWrite ?_
  refine .ite ?_ ?_
  · refine .ite ?_ hs.readNew
    split
    · rename_i s1' heq
      have hs1' : Keeps s₀ s1' := hs.reachTier.fst heq
      exact hs1'.waitFor
    · rename_i s1' heq
      have hs1' : Keeps s₀ s1' := hs.reachTier.fst heq
      exact hs1'.writeNew
  refine .ite hs.waitFor ?_
  split
  · rename_i s1' heq
    have hs1' : Keeps s₀ s1' := hs.reachTier.fst heq
    exact hs1'.waitFor
  · rename_i s1' heq
    have hs1' : Keeps s₀ s1' := hs.reachTier.fst heq
    exact .ite hs1'.beginRead hs1'.waitFor

theorem Keeps.coherent {q} {slot} {tile} {mem : State → Req → State} (hmem : ∀ u a, Keeps s₀ u → Keeps s₀ (mem u a)) :
    Keeps s₀ (s.coherent q slot tile mem) := by
  unfold State.coherent
  extract_lets
  split
  · exact hs.waitFor
  refine .ite ?_ (.ite hs.refuse (hmem _ _ hs))
  split
  · rename_i s2 why heq
    have hs2 : Keeps s₀ s2 := hs.dirStep.ofWait heq
    exact hs2.waitFor
  · rename_i s2 heq
    have hs2 : Keeps s₀ s2 := hs.dirStep.ofHeld heq
    exact hs2
  · rename_i s2 heq
    have hs2 : Keeps s₀ s2 := hs.dirStep.ofPass heq
    refine .ite ?_ (hmem _ _ hs2)
    split
    · exact hs2.emit
    · exact hs2

theorem Keeps.serveLocal {q} {slot} {off} {was} : Keeps s₀ (s.serveLocal q slot off was) := by
  unfold State.serveLocal
  extract_lets _ _ s0 _ s1
  have hs0 : Keeps s₀ s0 := hs.useEntry
  have hs1 : Keeps s₀ s1 := .ite hs0.tmeFaulted hs0
  refine .ite hs.waitFor ?_
  refine .ite hs.waitFor ?_
  split
  · exact hs1.waitFor
  · exact hs1.coherent (fun _ _ hu => hu.serveTile)

theorem Keeps.serveNearOnly {q} {slot} {off} : Keeps s₀ (s.serveNearOnly q slot off) :=
  hs.coherent (fun _ _ hu => hu.nearOnlyTile)

theorem Keeps.serveFar {q} {slot} {off} : Keeps s₀ (s.serveFar q slot off) :=
  .ite hs.refuse (.ite hs.refuse hs.farIssue)

theorem Keeps.serveIn {q} {r} {was} : Keeps s₀ (s.serveIn q r was) :=
  .ite (.ite hs.bump.answerWrite hs.refuse) (.ite hs.serveFar (.ite hs.serveNearOnly hs.serveLocal))

theorem Keeps.serve {q} {was} : Keeps s₀ (s.serve q was) := by
  unfold State.serve
  refine .ite hs ?_
  split
  · exact hs.serveIn
  split
  · exact .ite hs.answerWrite hs.decodeMiss
  · exact .ite hs.bump.raise.refuse hs.serveIn

theorem Keeps.resumeTile {slot} {tile} : Keeps s₀ (s.resumeTile slot tile) := .foldl hs.setTmu fun _ _ hu => hu.serve

theorem Keeps.resumeWhy {sel} : Keeps s₀ (s.resumeWhy sel) := .foldl hs fun _ _ hu => hu.resumeTile

theorem Keeps.releaseHold {slot} {tile} : Keeps s₀ (s.releaseHold slot tile) := .ite hs.setCry.resumeTile hs.setCry

theorem Keeps.commitMove {m} : Keeps s₀ (s.commitMove m) := .ite hs.commitDemotion.releaseHold hs.commitDemotion

theorem Keeps.dirProceed {q} : Keeps s₀ (s.dirProceed q) := by
  unfold State.dirProceed
  extract_lets _ go
  have hgo : ∀ u, Keeps s₀ u → Keeps s₀ (go u) := fun _ hu => hu.dirAfter.dirInstall.serve
  refine .ite (hgo _ hs) ?_
  split
  · exact hs.serve
  split
  · exact hs.serve
  · rename_i s1 heq
    have hs1 : Keeps s₀ s1 := hs.snoopAll.ofBusy heq
    exact hs1
  · rename_i s1 heq
    have hs1 : Keeps s₀ s1 := hs.snoopAll.ofFree heq
    exact hgo _ hs1.dirPut.countEviction

theorem Keeps.dirFinish {b} : Keeps s₀ (s.dirFinish b) := by
  unfold State.dirFinish
  extract_lets _ s1 s3 s2
  have hs1 : Keeps s₀ s1 := hs.setDir
  have hs3 : Keeps s₀ s3 := hs1.dirPut.countEviction
  have hs2 : Keeps s₀ s2 := by
    unfold s2
    split
    · exact hs1.dirProceed
    · exact .ite hs3.dirProceed hs3.serve
    · exact hs1.dirPut
    · exact hs1
  exact hs2.resumeWhy

theorem Keeps.dirAnswer {h} {line} {a} : Keeps s₀ (s.dirAnswer h line a) := by
  unfold State.dirAnswer
  extract_lets bad s1
  have hbad : Keeps s₀ bad := hs.bump
  have hs1 : Keeps s₀ s1 := by
    unfold s1
    split
    · exact hs.dirDrop
    · split
      · exact hs.dirPut
      · exact hs
    · exact hs
  split
  · exact hbad
  · exact .ite hbad (.ite hs1.dirFinish hs1.setDir)

theorem Keeps.dirGone {h} : Keeps s₀ (s.dirGone h) := .foldl hs fun _ _ hu => hu.dirAnswer

theorem Keeps.moveReady {m} : Keeps s₀ (s.moveReady m) := by
  unfold State.moveReady
  extract_lets _ give s1 s1'
  have hgive : ∀ u q, Keeps s₀ u → Keeps s₀ (give u q) := fun _ _ hu => hu.answerRead
  have hs1 : Keeps s₀ s1 := hs.dropMove.issued
  have hs1' : Keeps s₀ s1' := hs.putMove
  refine .ite ?_ ?_
  · split
    · exact hgive _ _ hs1
    · exact hs1
  split
  · exact .ite ((hgive _ _ hs1'.setTmu).putMove) hs1'
  · exact hs1'

theorem Keeps.moveWhole {m} : Keeps s₀ (s.moveWhole m) := hs.moveReady

/-! ## Events (Events) -/

theorem Keeps.pushCore {x} : Keeps s₀ (s.pushCore x) := hs.setEvt.wr.wrAt

theorem Keeps.toCore {x} : Keeps s₀ (s.toCore x) := .ite hs.pushCore (.ite hs.setEvt hs.bump.raise)

theorem Keeps.appendRec {h} {l} {x} : Keeps s₀ (s.appendRec h l x) := .ite (hs.setEvt.wrI heldF_fits) hs.setEvt.wrI

theorem Keeps.toLd {h} {l} {x} : Keeps s₀ (s.toLd h l x) := .ite hs (.ite hs.wrAt.appendRec.msix hs.wrAt.appendRec)

theorem Keeps.toAlert {src} : Keeps s₀ (s.toAlert src) := .ite (.ite hs.wrAt hs.wrAt.emit) hs

theorem Keeps.stir {cls} : Keeps s₀ (s.stir cls) := .ite hs.knock hs

theorem Keeps.deliver {d} : Keeps s₀ (s.deliver d) := by
  unfold State.deliver
  extract_lets s0 s1
  have hs0 : Keeps s₀ s0 := hs.bump
  have hs1 : Keeps s₀ s1 := hs0.wrAt
  split
  · exact hs1
  · exact .toAlert (.foldl (.ite hs1.toCore.stir hs1) fun _ _ hu => hu.toLd)

theorem Keeps.snapshot {srcs} : Keeps s₀ (s.snapshot srcs) := .ite hs (.ite hs.setEvt.wr hs.setEvt.wr.bump.raise)

theorem Keeps.execEventTick : Ends s₀ (execEventTick s) := by
  unfold Machine.execEventTick
  refine .next (.ite ?_ hs)
  extract_lets _ s0 _ s1 _ _ s2
  have hs0 : Keeps s₀ s0 := hs.snapshot
  have hs1 : Keeps s₀ s1 := hs0.setEvt.wr
  have hs2 : Keeps s₀ s2 := .ite hs1.setEvt.pushCore hs1
  exact .foldl hs2 fun _ _ hu => hu.deliver

theorem Keeps.execEvtLdTest {path} {h} {l} : Ends s₀ (execEvtLdTest path h l s) :=
  .next (hs.viaPath (fun _ hu => hu.raise))

theorem Keeps.execEvtFmTest {path} : Ends s₀ (execEvtFmTest path s) := .next (hs.viaPath (fun _ hu => hu.raise))

theorem Keeps.execNow {path} : Ends s₀ (execNow path s) := .next (hs.viaPath (fun _ hu => hu.setEvt))

theorem Keeps.execGetEventRecords {h} {l} {log} : Ends s₀ (execGetEventRecords h l log s) :=
  .next (hs.cxlCommand (fun _ hu => .iteFst hu hu))

theorem Keeps.execClearEventRecords {h} {l} {log} {count} : Ends s₀ (execClearEventRecords h l log count s) := by
  unfold Machine.execClearEventRecords
  exact .next (hs.cxlCommand (fun _ hu => .iteFst hu (.iteFst hu (.iteFst hu ((hu.setEvt.wrI heldF_fits).wrI)))))

theorem Keeps.execGetEventInterruptPolicy {h} {l} : Ends s₀ (execGetEventInterruptPolicy h l s) :=
  .next (hs.cxlCommand (fun _ hu => hu))

theorem Keeps.execSetEventInterruptPolicy {h} {l} {on} : Ends s₀ (execSetEventInterruptPolicy h l on s) :=
  .next (hs.cxlCommand (fun _ hu => .iteFst hu hu.setEvt))

theorem Keeps.execGetTimestamp {h} {l} : Ends s₀ (execGetTimestamp h l s) := .next (hs.cxlCommand (fun _ hu => hu))

theorem Keeps.execSetTimestamp {h} {l} {value} : Ends s₀ (execSetTimestamp h l value s) :=
  .next (hs.cxlCommand (fun _ hu => hu.wr))

theorem Keeps.dbReject {h} {l} : Keeps s₀ (s.dbReject h l) := by
  unfold State.dbReject
  extract_lets s1
  have hs1 : Keeps s₀ s1 := hs.bump
  exact .ite hs1 hs1.setHlx.raise

theorem Keeps.doorbellWrite {h} {l} {q} {v} {be} : Keeps s₀ (s.doorbellWrite h l q v be) :=
  .ite hs (.ite hs.dbReject (.ite hs.setJob hs.ring))

theorem Keeps.doorbellRead {h} {l} {q} {tag} : Keeps s₀ (s.doorbellRead h l q tag) :=
  .ite hs.touchCtx.ctxLost.emit hs.emit

theorem Keeps.fireflyRead {h} {l} {off} {tag} : Keeps s₀ (s.fireflyRead h l off tag) := hs.emit

theorem Keeps.execDoorbellWrite {h} {l} {q} {value} {be} : Ends s₀ (execDoorbellWrite h l q value be s) :=
  .next (.ite hs.rouse (.ite hs.rouse.bump hs.rouse.doorbellWrite))

theorem Keeps.execDoorbellRead {h} {l} {q} {tag} : Ends s₀ (execDoorbellRead h l q tag s) :=
  .next (.ite hs.rouse.doorbellRead hs.rouse)

theorem Keeps.execFireflyWindowRead {h} {l} {off} {tag} : Ends s₀ (execFireflyWindowRead h l off tag s) :=
  .next (.ite hs.rouse.fireflyRead hs.rouse)

/-! ## Host accesses (HostPath) -/

theorem Keeps.putLow {i} {addr} {v} : Keeps s₀ (s.putLow i addr v) := hs.setHlx

theorem Keeps.hdmControl {h} {l} {n} {v} : Keeps s₀ (s.hdmControl h l n v) :=
  .ite (.ite hs hs.putLow) (.ite hs.putLow hs.putLow)

theorem Keeps.hdmPut {h} {l} {addr} {v} : Keeps s₀ (s.hdmPut h l addr v) :=
  .ite hs.putLow (.ite hs (.ite hs.hdmControl (.ite hs (.ite hs.putLow hs.putLow))))

theorem Keeps.clearLd {h} {l} : Keeps s₀ (s.clearLd h l) := hs.setHlx

theorem Keeps.present {q} : Keeps s₀ (s.present q) := hs.setAdm

theorem Keeps.uncovered {h} {l} {tag} {read} : Keeps s₀ (s.uncovered h l tag read) := hs.emit

theorem Keeps.throughHdm {h} {l} {hpa} {tag} {read} {f : State → BitVec 64 → State}
    (hf : ∀ u a, Keeps s₀ u → Keeps s₀ (f u a)) :
    Keeps s₀ (s.throughHdm h l hpa tag read f) := by
  unfold State.throughHdm
  extract_lets s'
  have hs' : Keeps s₀ s' := hs.rouse
  refine .ite hs' ?_
  split
  · exact hs'.uncovered
  · exact hf _ _ hs'

theorem Keeps.hostWrites {q} {h} {l} {tag} : Keeps s₀ (s.hostWrites q h l tag) :=
  .ite hs.bump.emit (.ite hs.doorbellWrite.emit (.ite hs.emit hs.present))

theorem Keeps.execHostRead {h} {l} {hpa} {look} {tag} : Ends s₀ (execHostRead h l hpa look tag s) :=
  .next (hs.throughHdm (fun _ _ hu => .ite hu.doorbellRead (.ite hu.fireflyRead hu.present)))

theorem Keeps.execHostWrite {h} {l} {hpa} {look} {tag} {data} {poison} :
    Ends s₀ (execHostWrite h l hpa look tag data poison s) :=
  .next (hs.throughHdm (fun _ _ hu => hu.hostWrites))

theorem Keeps.execHostPartialWrite {h} {l} {hpa} {look} {tag} {data} {be} {poison} :
    Ends s₀ (execHostPartialWrite h l hpa look tag data be poison s) :=
  .next (hs.throughHdm (fun _ _ hu => hu.hostWrites))

theorem Keeps.execMemInv {h} {l} {hpa} {look} {tag} : Ends s₀ (execMemInv h l hpa look tag s) := by
  unfold Machine.execMemInv
  refine .next (.throughHdm hs (fun _ _ hu => ?_))
  extract_lets
  refine .ite hu.emit ?_
  split
  · rename_i id s1 heq
    have hs1 : Keeps s₀ s1 := hu.freshId.snd heq
    exact hs1.serve

theorem Keeps.execMemClnEvct {h} {l} {hpa} {tag} : Ends s₀ (execMemClnEvct h l hpa tag s) := by
  unfold Machine.execMemClnEvct
  refine .next (.throughHdm hs (fun _ _ hu => ?_))
  extract_lets
  refine .ite hu.emit ?_
  split
  · exact hu.decodeMiss
  · exact .emit (.ite hu.dirDrop hu)

end

end Sys2Proof.Machine
end

section
/-!
PROOFS for O56 and O58: the admission cycle, fills, demotions, regions and boot
keep the queue and the canonical form, one lemma per operation of the model, in the order of its files.
-/
namespace Sys2Proof.Machine
open Sys2Proof.Safety

section
-- a lemma whose width check runs by default waits for those before it: one thread, so that none waits idle
set_option Elab.async false
variable {s₀ s : State} (hs : Keeps s₀ s)
include hs

/-! ## The admission cycle (Admission) -/

theorem Keeps.idleSlots {n} : Keeps s₀ (s.idleSlots n) := by
  unfold State.idleSlots
  refine .ite hs ?_
  split
  · exact hs.bump
  · split <;> exact hs.bump

theorem Keeps.tickPmus : Keeps s₀ s.tickPmus := .foldl hs fun _ _ hu => .ite hu hu.wrI

omit hs in
theorem Keeps.take_st {c : Cycle} {u : HeadUnit} (hc : Keeps s₀ c.st) : Keeps s₀ (c.take u).st :=
  .setTmu (.ite hc.setAdm.enter hc.setAdm.enter.bump)

omit hs in
theorem Keeps.realTime_st {fuel : Nat} {c : Cycle} (hc : Keeps s₀ c.st) : Keeps s₀ (realTime fuel c).st := by
  induction fuel generalizing c with
  | zero => exact hc
  | succ fuel ih =>
    unfold Machine.realTime
    split
    · exact hc
    split
    · exact ih hc.take_st
    · exact hc

omit hs in
theorem Keeps.serveClass_st {c : Cycle} {u : HeadUnit} (hc : Keeps s₀ c.st) : Keeps s₀ (c.serveClass u).st :=
  hc.take_st.setAdm

omit hs in
theorem Keeps.turn_st {c : Cycle} (hc : Keeps s₀ c.st) : Keeps s₀ c.turn.st := hc.setAdm

omit hs in
theorem Keeps.guaranteed_st {fuel : Nat} {c : Cycle} (hc : Keeps s₀ c.st) : Keeps s₀ (guaranteed fuel c).st := by
  induction fuel generalizing c with
  | zero => exact hc
  | succ fuel ih =>
    unfold Machine.guaranteed
    split
    · exact hc
    split
    · exact ih hc.serveClass_st.setAdm
    · exact hc

omit hs in
theorem Keeps.deficits_st {fuel : Nat} {c : Cycle} (hc : Keeps s₀ c.st) : Keeps s₀ (deficits fuel c).st := by
  induction fuel generalizing c with
  | zero => exact hc
  | succ fuel ih =>
    unfold Machine.deficits
    split
    · exact hc
    extract_lets k d put
    have hput : ∀ c v, Keeps s₀ c.st → Keeps s₀ (put c v).st := fun _ _ hu => hu.setAdm
    split
    · exact ih (hput _ _ hc).turn_st
    split
    · exact ih (hput _ _ hc.serveClass_st)
    · exact ih hc.turn_st

theorem Keeps.execAdmissionCycle : Ends s₀ (execAdmissionCycle s) := by
  unfold Machine.execAdmissionCycle
  refine .next (.ite hs ?_)
  extract_lets s0 s1 taken _ c0 c1
  have hs0 : Keeps s₀ s0 := hs.tickPmus
  have hc1 : Keeps s₀ c1.st := .deficits_st (.guaranteed_st (.realTime_st hs0.bump.setAdm))
  exact .ite hs0 (.ite hs0.bump.idleSlots (.foldl hc1.idleSlots fun _ _ hu => hu.serve))

theorem Keeps.refillBrown : Keeps s₀ s.refillBrown := .ite hs.setAdm hs

theorem Keeps.execTokenRefill : Ends s₀ (execTokenRefill s) := .next (.ite hs hs.setAdm.refillBrown)

/-! ## Fills (Fill) -/

theorem Keeps.retag {slot} {tile} {f} : Keeps s₀ (s.retag slot tile f) := hs.setTmu

theorem Keeps.fillEntry {slot} {tile} : Keeps s₀ (s.fillEntry slot tile) := by
  unfold State.fillEntry
  split
  · rename_i s1 heq
    have hs1 : Keeps s₀ s1 := hs.cacheIn _ heq
    exact hs1.resumeTile
  · exact hs.retag

theorem Keeps.sectorArrived {slot} {tile} {bad} : Keeps s₀ (s.sectorArrived slot tile bad) := by
  unfold State.sectorArrived
  extract_lets _ _ s0 s1
  have hs0 : Keeps s₀ s0 := hs.setTmu
  have hs1 : Keeps s₀ s1 := by
    unfold s1
    split
    · exact hs0
    · exact hs0.corrected
    · exact hs0.mapSectorLost
  exact .foldl hs1 fun _ _ hu => .ite hu.fillEntry hu

theorem Keeps.execTmeMissFill {slot} {tile} {bad} : Ends s₀ (execTmeMissFill slot tile bad s) := by
  unfold Machine.execTmeMissFill
  refine .next (.ite hs ?_)
  split
  · exact .ite hs hs.sectorArrived
  · exact .ite hs.fillEntry hs

theorem Keeps.starved {slot} {tile} : Keeps s₀ (s.starved slot tile) :=
  .foldl hs fun _ _ hu => .ite hu.setTmu.waitFrame (.ite hu hu.setTmu.beginRead.bump)

theorem Keeps.demandPromotion {slot} {tile} : Keeps s₀ (s.demandPromotion slot tile) := by
  unfold State.demandPromotion
  split
  · exact hs
  extract_lets
  refine .ite hs.retag ?_
  refine .ite hs.resumeTile ?_
  split
  · rename_i s1 heq
    have hs1 : Keeps s₀ s1 := hs.reachTier.fst heq
    exact hs1.retag
  · rename_i s1 heq
    have hs1 : Keeps s₀ s1 := hs.reachTier.fst heq
    refine .ite (.ite hs1.retag.raise hs1.retag) ?_
    split
    · exact hs1.starved
    · rename_i f s2 heq
      have hs2 : Keeps s₀ s2 := hs1.takeFrame _ heq
      exact hs2.continue_.retag.beginPromotion.notePromotion

theorem Keeps.execDemandPromotion {slot} {tile} : Ends s₀ (execDemandPromotion slot tile s) :=
  .next (.ite hs.demandPromotion hs)

theorem Keeps.tagMatched {m} : Keeps s₀ (s.tagMatched m) := hs.putMove

theorem Keeps.bulkReadDone {m} {bad} {flips} {pipe} {fault} : Keeps s₀ (s.bulkReadDone m bad flips pipe fault) := by
  unfold State.bulkReadDone
  extract_lets _ _ s1 _ _ s2
  have hs1 : Keeps s₀ s1 := hs.issued.sectorsCorrected.bump
  have hs2 : Keeps s₀ s2 := .ite hs1.drawn hs1
  exact .ite hs1.bulkUe.moveWhole (.ite hs2.tagMatched (.ite hs2.putMove hs2.integrityHalt))

theorem Keeps.execBulkTileReadDone {id} {bad} {flips} {pipe} {pipeFault} :
    Ends s₀ (execBulkTileReadDone id bad flips pipe pipeFault s) := by
  unfold Machine.execBulkTileReadDone
  refine .next ?_
  split
  · exact .ite hs.bulkReadDone hs
  · exact hs

theorem Keeps.execTagRecomputeDone {id} {pipe} {pipeFault} : Ends s₀ (execTagRecomputeDone id pipe pipeFault s) := by
  unfold Machine.execTagRecomputeDone
  refine .next ?_
  split
  · refine .ite hs.integrityHalt ?_
    refine .ite ?_ hs
    extract_lets s1 _ s2
    have hs1 : Keeps s₀ s1 := hs.bump
    have hs2 : Keeps s₀ s2 := .ite hs1.drawn hs1
    exact .ite hs2.unitFault.tagMatched hs2.integrityHalt
  · exact hs

theorem Keeps.moveMismatch {m} : Keeps s₀ (s.moveMismatch m) := by
  unfold State.moveMismatch
  split
  · exact hs.tcsMismatch.moveWhole
  · exact hs.drawn.tcsMismatch.moveWhole

theorem Keeps.offlineRead {m} : Keeps s₀ (s.offlineRead m) := by
  unfold State.offlineRead
  extract_lets _ _ s1 _ s2
  have hs1 : Keeps s₀ s1 := hs.dropMove.freeFte
  have hs2 : Keeps s₀ s2 := hs1.setTmu
  exact .ite hs.moveReady (.engineDone (.leaveMove (.foldl hs2 fun _ _ hu => hu.answerRead)))

theorem Keeps.pipeDone {p} : Keeps s₀ (s.pipeDone p) := hs.letGo.bump

theorem Keeps.checkedByTmu {m} : Keeps s₀ (s.checkedByTmu m) := by
  unfold State.checkedByTmu
  split
  · exact hs.offlineRead
  split
  · exact hs.moveReady
  · exact hs.tcsMismatch.moveWhole

theorem Keeps.codecDone {m} {pipe} {fault} : Keeps s₀ (s.codecDone m pipe fault) := by
  unfold State.codecDone
  split
  · exact .ite hs.checkedByTmu hs
  refine .ite hs ?_
  split
  · exact hs.pipeDone.moveReady
  · exact .ite hs.letGo.putMove.bump hs.letGo.moveMismatch

theorem Keeps.execCodecTileDone {id} {pipe} {pipeFault} : Ends s₀ (execCodecTileDone id pipe pipeFault s) := by
  unfold Machine.execCodecTileDone
  refine .next ?_
  split
  · exact .ite hs.codecDone hs
  · exact hs

theorem Keeps.retryDone {m} {pipe} {fault} : Keeps s₀ (s.retryDone m pipe fault) := by
  unfold State.retryDone
  split
  · exact .ite hs.checkedByTmu (.ite hs hs.moveMismatch)
  refine .ite hs ?_
  split
  · exact hs.pipeDone.unitFault.moveReady
  · exact hs.letGo.bump.moveMismatch

theorem Keeps.execTcsRetryDone {id} {pipe} {pipeFault} : Ends s₀ (execTcsRetryDone id pipe pipeFault s) := by
  unfold Machine.execTcsRetryDone
  refine .next ?_
  split
  · exact .ite hs.retryDone hs
  · exact hs

theorem Keeps.promotionInstall {m} : Keeps s₀ (s.promotionInstall m) := by
  unfold State.promotionInstall
  extract_lets s1 s2
  have hs1 : Keeps s₀ s1 := hs.installMove
  have hs2 : Keeps s₀ s2 := by
    unfold s2
    refine .ite ?_ hs1
    split
    · extract_lets s3
      have hs3 : Keeps s₀ s3 := hs1.setFte
      split
      · exact hs3
      · exact .getD hs3.startDemotion hs3
    · exact hs1
  exact hs2.resumeTile.runPrefetches

theorem Keeps.execPromotionInstall {id} : Ends s₀ (execPromotionInstall id s) := by
  unfold Machine.execPromotionInstall
  refine .next ?_
  split
  · exact .ite hs.promotionInstall hs
  · exact hs

/-! ## Demotions (Movement) -/

theorem Keeps.execCandidateRefill : Ends s₀ (execCandidateRefill s) := by
  unfold Machine.execCandidateRefill
  refine .next (.ite ?_ hs)
  extract_lets
  refine .ite hs ?_
  split
  · exact hs
  · rename_i s1 heq
    have hs1 : Keeps s₀ s1 := hs.admitInternal _ heq
    exact hs1.setScr.leaveInternal

theorem Keeps.admitHeldOpen {len} : Yields s₀ (s.admitHeldOpen len) := .ite .none (.some hs.outAdd.credit)

theorem Keeps.evictClean {fuel} : Keeps s₀ (State.evictClean fuel s) := by
  induction fuel generalizing s with
  | zero => exact hs
  | succ fuel ih =>
    unfold State.evictClean
    refine .ite ?_ hs
    split
    · exact ih hs.evict
    · exact hs

theorem Keeps.execDemotionSelect {engine} : Ends s₀ (execDemotionSelect engine s) := by
  unfold Machine.execDemotionSelect
  refine .next (.ite ?_ hs)
  extract_lets s0
  have hs0 : Keeps s₀ s0 := .ite hs hs.evictClean.runPrefetches
  refine .ite hs0 ?_
  refine .ite ?_ ?_
  · split
    · exact .getD (bindImp hs0.admitHeldOpen fun _ hu => hu.beginDemotion) hs0
    · exact hs0
  split
  · exact .getD hs0.startDemotion hs0
  · exact hs0

theorem Keeps.demotedLines {m} {bad} : Keeps s₀ (s.demotedLines m bad).1 :=
  .iteFst hs (.foldl (.foldl hs fun _ _ hu => hu.corrected) fun _ _ hu => hu.nearUe)

theorem Keeps.compressDone {m} {pipe} {fault} {bad} : Keeps s₀ (s.compressDone m pipe fault bad) := by
  unfold State.compressDone
  extract_lets r
  have hr : Keeps s₀ r.1 := hs.demotedLines
  split
  · exact .ite hr.compressed hs
  refine .ite hs ?_
  exact .ite hr.pipeDone.compressed (.ite hr.letGo.putMove.unitFault hr.letGo.unitFault.compressed)

theorem Keeps.execDemotionCompressDone {id} {pipe} {bad} : Ends s₀ (execDemotionCompressDone id pipe bad s) := by
  unfold Machine.execDemotionCompressDone
  refine .next ?_
  split
  · exact .ite hs.compressDone hs
  · exact hs

theorem Keeps.execDemotionCommit {id} : Ends s₀ (execDemotionCommit id s) := by
  unfold Machine.execDemotionCommit
  refine .next ?_
  split
  · exact .ite hs.commitMove hs
  · exact hs

theorem Keeps.mergeIn {ok} {n} {c} : YieldsSnd s₀ (s.mergeIn ok n c) := by
  unfold State.mergeIn
  extract_lets
  exact mapImp (fun _ _ => trivial) fun _ hu => .foldl (.foldl hs fun _ _ hu => hu.setPool) fun _ _ hu => hu.setPool

theorem Keeps.mergeRuns {ok} {n} : YieldsSnd s₀ (s.mergeRuns ok n) := findSomeImp fun _ => hs.mergeIn

theorem Keeps.relocateRun {slot} {tile} : Yields s₀ (s.relocateRun slot tile) := by
  unfold State.relocateRun
  split
  · exact .none
  · rename_i s1 heq
    have hs1 : Keeps s₀ s1 := hs.cacheGood _ heq
    extract_lets _ _ place
    have hplace : YieldsSnd s₀ place := by
      unfold place
      refine .ite hs1.allocFrom ?_
      split
      · rename_i r heq
        have hr : Keeps s₀ r.2 := hs1.allocFrom _ heq
        exact .some hr
      · exact hs1.allocFrom
    refine .ite .none ?_
    exact bindImp hplace fun _ hu => mapImp hu.admitInternal fun _ hv => hv.copyRun.leaveInternal

theorem Keeps.makeIn {ok} {n} : YieldsSnd s₀ (s.makeIn ok n) := by
  unfold State.makeIn
  split
  · rename_i r heq
    exact .some (hs.mergeRuns _ heq)
  · exact findSomeImp fun _ => bindImp hs.relocateRun fun _ hu =>
      YieldsSnd.ite (.some hu) (mapImp hu.mergeIn fun _ hv => hv)

theorem Keeps.makeRun {slot} {n} : YieldsSnd s₀ (s.makeRun slot n) := by
  unfold State.makeRun
  split
  · rename_i r heq
    have hr : Keeps s₀ r.2 := hs.alloc _ heq
    exact .some hr
  refine .ite hs.makeIn ?_
  split
  · rename_i r heq
    have hr : Keeps s₀ r.2 := hs.makeIn _ heq
    exact .some hr
  · exact hs.makeIn

theorem Keeps.execAllocEscalationResolved {id} : Ends s₀ (execAllocEscalationResolved id s) := by
  unfold Machine.execAllocEscalationResolved
  refine .next ?_
  split
  · refine .ite ?_ hs
    split
    · rename_i a s1 heq
      have hs1 : Keeps s₀ s1 := hs.makeRun _ heq
      exact hs1.sealMove
    · rename_i s1 heq
      have hs1 : Keeps s₀ s1 := hs.makeRun _ heq
      exact hs1
    · exact hs
  · exact hs

theorem Keeps.execWriteWaitResume {rid} : Ends s₀ (execWriteWaitResume rid s) := by
  unfold Machine.execWriteWaitResume
  refine .next ?_
  split
  · exact .ite (.ite hs.resumeTile.retag.demandPromotion hs.resumeTile) hs
  · exact hs

theorem Keeps.execCrossingWaitResume {slot} {tile} : Ends s₀ (execCrossingWaitResume slot tile s) := by
  unfold Machine.execCrossingWaitResume
  refine .next ?_
  split
  · split
    · rename_i s1 heq
      have hs1 : Keeps s₀ s1 := hs.cacheGood _ heq
      exact .ite hs1.runDemotion hs
    · exact hs
  · exact hs

theorem Keeps.execNearPinWalkStep {slot} : Ends s₀ (execNearPinWalkStep slot s) := by
  unfold Machine.execNearPinWalkStep
  refine .next ?_
  split
  · refine .ite hs ?_
    split
    · exact hs.setScr
    extract_lets on _ r
    have hon : ∀ u, Keeps s₀ u → Keeps s₀ (on u) := fun _ hu => hu.setScr
    have hr : Keeps s₀ r.1 := hs.pinTile
    refine .ite hs ?_
    refine .ite (.ite (hon _ hr) hr.stopPinWalk) ?_
    refine .ite hs.stopPinWalk ?_
    split
    · exact .getD (mapImp hs.startPromotion fun _ hu => (hon _ hu)) hs
    · exact hs
  · exact hs

/-! ## Supplies and clocks (Supplies) -/

theorem Keeps.execSupplyGroupEnable {g} : Ends s₀ (execSupplyGroupEnable g s) := .next (.ite hs.setAon.emit hs)

theorem Keeps.execSupplyRiseTimeout {i} : Ends s₀ (execSupplyRiseTimeout i s) :=
  .next (.ite hs.setAon.wr.emit.emit.emit hs)

theorem Keeps.execSupplyWarn {i} : Ends s₀ (execSupplyWarn i s) := .next (.ite hs hs.wr.bump.raise.setAon.brownStart)

theorem Keeps.execSupplyRecovered {i} : Ends s₀ (execSupplyRecovered i s) := .next (.ite hs.wr.setAon hs)

theorem Keeps.execBrownThrottleLift : Ends s₀ (execBrownThrottleLift s) := .next (.ite hs.setAon.brownEnd hs)

theorem Keeps.execSupplyResetCrossing {i} : Ends s₀ (execSupplyResetCrossing i s) :=
  .next (.ite hs.coldCause (.ite hs hs.warm))

theorem Keeps.execXtalQualified {straps} : Ends s₀ (execXtalQualified straps s) := by
  unfold Machine.execXtalQualified
  refine .next (.ite hs ?_)
  extract_lets s1 m _ s2 s3 s4
  have hs1 : Keeps s₀ s1 := hs.wr.emit
  have hs2 : Keeps s₀ s2 := hs1.elsewhere
  exact .ite hs1 (.wr (.foldl hs2.wr.wr fun _ _ hu => hu.wrI))

theorem Keeps.execLsclkSwitch {toRc} : Ends s₀ (execLsclkSwitch toRc s) := .next (.ite hs hs.wr.raise)

theorem Keeps.execPllRelockRetry {pll} {locked} : Ends s₀ (execPllRelockRetry pll locked s) := .next (.ite hs.wr hs)

theorem Keeps.execPllQualified {pll} : Ends s₀ (execPllQualified pll s) := .next (.ite hs hs.wr.setAon)

theorem Keeps.execThermalThrottle {tj} : Ends s₀ (execThermalThrottle tj s) :=
  .next (.ite hs (.ite hs.wr hs.wr.raise.setAon.brownStart))

theorem Keeps.execThermalThrottleLift : Ends s₀ (execThermalThrottleLift s) := .next (.ite hs.setAon.brownEnd hs)

theorem Keeps.execThermalShutdown : Ends s₀ (execThermalShutdown s) :=
  .next (.ite hs hs.blank.wr.setAon.withStraps.setCause.wr.emit.emit.emit)

theorem Keeps.execJtagInstruction {ir} : Ends s₀ (execJtagInstruction ir s) := .next hs.setAon

/-! ## Regions (Regions) -/

theorem Keeps.place {c} : PlaceKeeps s₀ (s.place c) := by
  unfold State.place
  split
  · exact .error
  split
  · split
    · exact .ok hs
    split
    · exact .ok hs
    · exact .error
  extract_lets fixed
  have hfixed : YieldsSnd s₀ (if fixed then (s.takeFixed c.retain (64 * c.tiles)).map (fun r => (some r.1, r.2))
      else some (none, s)) := .ite (mapImp hs.takeFixed fun _ hu => hu) (.some hs)
  split
  · exact .error
  · rename_i iv s1 heq
    have hs1 : Keeps s₀ s1 := hfixed _ heq
    split
    · exact .error
    · exact .ok hs1.setTmu

theorem Keeps.activate {c} {loc} : Keeps s₀ (s.activate c loc) := by
  unfold State.activate
  extract_lets r gen el owner s1 s2
  have hs1 : Keeps s₀ s1 := .foldl_fields hs (·.1) fun _ _ hf hu => hu.wrI hf
  exact .ite (.foldl hs1.watchFree.setTmu fun _ _ hu => hu.emit) hs1.watchFree

theorem Keeps.regionCreate {src} {p} : Keeps s₀ (s.regionCreate src p) := by
  unfold State.regionCreate
  refine hs.avsar fun _ hu => ?_
  extract_lets c
  split
  · exact .err
  refine .ite .err (.ite .err (.ite .err (.ite .err ?_)))
  split
  · exact .err
  refine .ite .err (.ite (.raised hu.raise) ?_)
  split
  · exact .err
  · rename_i loc s1 heq
    exact .ok (Keeps.activate (hu.place _ heq))

theorem Keeps.execRegionCreate {src} {payload} : Ends s₀ (execRegionCreate src payload s) := .next hs.regionCreate

theorem Keeps.execRegionInitStep {slot} {n} : Ends s₀ (execRegionInitStep slot n s) := by
  unfold Machine.execRegionInitStep
  refine .next ?_
  extract_lets
  refine .ite ?_ hs
  split
  · exact hs
  · rename_i s1 heq
    have hs1 : Keeps s₀ s1 := hs.admitInternal _ heq
    extract_lets s2 s3
    have hs2 : Keeps s₀ s2 := .ite (.foldl hs1 fun _ _ hu => .ite hu hu.putFrame) hs1
    have hs3 : Keeps s₀ s3 := hs2.wrI.leaveInternal
    exact .ite hs3.raise hs3

theorem Keeps.startDelete {r} : Keeps s₀ (s.startDelete r) := by
  unfold State.startDelete
  extract_lets _ s1 _ s2 s3 s4
  have hs1 : Keeps s₀ s1 := hs.setTmu
  have hs2 : Keeps s₀ s2 := hs1.setScr
  have hs3 : Keeps s₀ s3 := hs2.wr
  have hs4 : Keeps s₀ s4 := .foldl hs3 fun _ _ hu => hu.abortDemotion
  exact .ite hs4.startSweep hs4

theorem Keeps.freeInterval {a} {n} : Keeps s₀ (s.freeInterval a n) :=
  .foldl (.ite hs hs.setTmu) fun _ _ hu => hu.freeRun

theorem Keeps.freeBacking {r} : Keeps s₀ (s.freeBacking r) := by
  unfold State.freeBacking
  extract_lets _ _ _ _ _ s1 s2 s3
  have hs1 : Keeps s₀ s1 := .foldl hs fun _ _ hu => hu.freeInterval
  have hs2 : Keeps s₀ s2 := .foldl hs1 fun _ _ hu => hu.retireRun
  have hs3 : Keeps s₀ s3 := .foldl hs2 fun _ _ hu => .ite hu.retireRun hu.freeRun
  exact .ite hs3.setTmu (.foldl hs fun _ _ hu => hu.returnRun)

theorem Keeps.finishDelete {r} : Keeps s₀ (s.finishDelete r) := by
  unfold State.finishDelete
  extract_lets s1 _ s2 _ _ s3 _ s4 _ s4' s5 _ s6
  have hs1 : Keeps s₀ s1 := hs.freeBacking
  have hs2 : Keeps s₀ s2 := hs1.setNear
  have hs3 : Keeps s₀ s3 := hs2.setTmu
  have hs4 : Keeps s₀ s4 := hs3.setCry
  have hs4' : Keeps s₀ s4' := hs4.setScr
  have hs5 : Keeps s₀ s5 := .foldl_fields hs4' id fun _ _ hf hu => (hu.wrI hf)
  have hs6 : Keeps s₀ s6 := .ite hs5.withAdm hs5
  exact .watchFree (.foldl_fields hs6 id fun _ _ hf hu => (hu.clr hf))

theorem Keeps.memClrNext {r} {c} : Keeps s₀ (s.memClrNext r c) := by
  unfold State.memClrNext
  refine .ite (.setHlx ?_) hs
  split
  · rename_i loc s1 heq
    have hs1 : Keeps s₀ s1 := hs.place _ heq
    split
    · exact hs1.activate.setTmu
    · exact hs1.activate
  · exact hs.setTmu

theorem Keeps.execRegionDeleteDone {slot} : Ends s₀ (execRegionDeleteDone slot s) :=
  .next (.ite hs.finishDelete.setTmu.memClrNext.bgDone hs)

theorem Keeps.slotChecks {r} {f : State → Ans} (hf : ∀ u, Keeps s₀ u → Replies s₀ (f u)) :
    Replies s₀ (s.slotChecks r f) :=
  .ite .err (.ite .err (.ite .err (hf _ hs)))

theorem Keeps.regionDelete {src} {p} : Keeps s₀ (s.regionDelete src p) := by
  unfold State.regionDelete
  extract_lets
  exact hs.background (fun _ hu => (hu.slotChecks (fun _ hv => .ok hv.startDelete)))

theorem Keeps.execRegionDelete {src} {payload} : Ends s₀ (execRegionDelete src payload s) := .next hs.regionDelete

theorem Keeps.dcExpire {r} : Keeps s₀ (s.dcExpire r) := by
  unfold State.dcExpire
  split
  · exact .ite hs.startDelete hs
  · exact hs

theorem Keeps.setOwner {r} {new} : Keeps s₀ (s.setOwner r new) :=
  .ite hs.wrI (.foldl hs.wrI fun _ _ hu => hu.startSweep)

theorem Keeps.setRetain {r} {on} : Keeps s₀ (s.setRetain r on) := .ite hs.wrI.wr (.ite hs.wrI.wr hs.wrI)

theorem Keeps.setTier {r} {new} : Keeps s₀ (s.setTier r new) := by
  unfold State.setTier
  extract_lets _ s1 s2 _ s3 _ s2'
  have hs1 : Keeps s₀ s1 := hs.wrI
  have hs2 : Keeps s₀ s2 := .foldl hs1 fun _ _ hu => .ite hu.setTme hu
  have hs3 : Keeps s₀ s3 := hs2.setNear
  have hs2' : Keeps s₀ s2' := .ite hs3.setScr hs1
  exact .ite hs1 (.ite hs2'.setScr (.ite hs2'.setNear hs2'))

theorem Keeps.applySet {p} {r} : Keeps s₀ (s.applySet p r) := by
  unfold State.applySet
  extract_lets _ s1 s2 s3 _ _ _ s4 _ s5
  have hs1 : Keeps s₀ s1 := hs.wrI.wrI.wrI
  have hs2 : Keeps s₀ s2 := .ite hs1.wrI.setRetain hs1
  have hs3 : Keeps s₀ s3 := hs2.setTier
  have hs4 : Keeps s₀ s4 := hs3.wrI.wrI.wrI
  have hs5 : Keeps s₀ s5 := .ite hs4.wrI.wrI.level hs4
  exact .ite hs5.setOwner.dcExpire hs5

theorem Keeps.regionSet {src} {p} : Keeps s₀ (s.regionSet src p) := by
  unfold State.regionSet
  extract_lets
  refine .avsar hs (fun _ hu => (.ite .err ?_))
  refine .ite ?_ ?_
  · split <;> exact .err
  split
  · exact .err
  · exact hu.slotChecks (fun _ hv => .ite .err (.ok hv.applySet))

theorem Keeps.execRegionSet {src} {payload} : Ends s₀ (execRegionSet src payload s) := .next hs.regionSet

theorem Keeps.grant {r} {n} : Yields s₀ (s.grant r n) := .ite .none (.some hs.wrI.grantLift)

theorem Keeps.regionGrant {src} {p} : Keeps s₀ (s.regionGrant src p) := by
  unfold State.regionGrant
  extract_lets
  refine .avsar hs (fun _ hu => (Keeps.slotChecks hu (fun _ hv => (.ite .err ?_))))
  split
  · exact .err
  · rename_i s1 heq
    have hs1 : Keeps s₀ s1 := hv.grant _ heq
    exact .ok hs1

theorem Keeps.execRegionGrant {src} {payload} : Ends s₀ (execRegionGrant src payload s) := .next hs.regionGrant

theorem Keeps.regionQuery {src} {p} : Keeps s₀ (s.regionQuery src p) := by
  unfold State.regionQuery
  extract_lets
  exact hs.avsar (fun _ hu => .ite .err (.ite .err (.ite .err (.ok hu))))

theorem Keeps.execRegionQuery {src} {payload} : Ends s₀ (execRegionQuery src payload s) := .next hs.regionQuery

theorem Keeps.exchangeFixed {r} {leave} {retain} : Yields s₀ (s.exchangeFixed r leave retain) := by
  unfold State.exchangeFixed
  extract_lets
  refine .ite (.some hs) ?_
  exact mapImp hs.takeFixed fun _ hu =>
    .foldl (.foldl hu.setTmu fun _ _ hv => .ite hv.setTme hv) fun _ _ hv => hv.freeInterval

theorem Keeps.moveTile {r} {tile} {purpose} {e} : Yields s₀ (s.moveTile r tile purpose e) := by
  unfold State.moveTile
  split
  · exact .none
  · rename_i s0 heq
    have hs0 : Keeps s₀ s0 := hs.cacheGood _ heq
    extract_lets
    refine .ite ?_ ?_
    · refine .ite .none ?_
      exact bindImp hs0.alloc fun _ hu => mapImp hu.admitInternal fun _ hv => hv.copyRun.leaveInternal
    refine .ite ?_ hs0.startPromotion
    split
    · exact Keeps.startDemotion (.ite hs0.setFte hs0)
    · exact .none

theorem Keeps.execRetainRelocationDone {slot} : Ends s₀ (execRetainRelocationDone slot s) := by
  unfold Machine.execRetainRelocationDone
  refine .next (.ite ?_ hs)
  split
  · exact hs
  · rename_i s1 heq
    have hs1 : Keeps s₀ s1 := (Yields.ite hs.exchangeFixed (.some hs)) _ heq
    extract_lets
    refine .ite hs1.wr ?_
    split
    · exact .getD hs1.moveTile hs1
    · exact hs1

/-! ## Boot (Boot) -/

theorem Keeps.fuseUnits {k} {bad} {act}
    (hk : k.Fits := by exact ⟨Nat.le_of_ble_eq_true rfl, Nat.le_of_ble_eq_true rfl, Nat.le_of_ble_eq_true rfl⟩) :
    Keeps s₀ (s.fuseUnits k bad act) :=
  .foldl hs fun _ _ hu => (hu.wrI hk.state)

theorem Keeps.fuseCores {bad} : Keeps s₀ (s.fuseCores bad) := by
  unfold State.fuseCores
  extract_lets s1
  have hs1 : Keeps s₀ s1 := .foldl hs fun _ _ hu => hu.wrI
  split
  · exact .ite hs1.wr.wrI hs1.wr.wrI.noteCore
  · exact hs1

theorem Keeps.fusePerms {l} : Keeps s₀ (s.fusePerms l) := .foldl hs fun _ _ hu => hu.wrb.wrb.wrb.wrb

theorem Keeps.applyFuses {f} : Keeps s₀ (s.applyFuses f) := by
  unfold State.applyFuses
  extract_lets s1 s2 s3 s4 s5
  have hs1 : Keeps s₀ s1 := hs.withFuses.fuseCores
  have hs2 : Keeps s₀ s2 := hs1.fuseUnits.fuseUnits.fuseUnits
  have hs3 : Keeps s₀ s3 := .foldl hs2 fun _ _ hu => hu.wrI.wrI
  have hs4 : Keeps s₀ s4 := .ite hs3.wr.raise hs3
  have hs5 : Keeps s₀ s5 := hs4.wr.wr.wr
  exact hs5.fusePerms.watchUnits

theorem Keeps.trngStart {fails} : Keeps s₀ (s.trngStart fails) := .ite hs.raise hs.wr

theorem Keeps.actWaiting : Keeps s₀ s.actWaiting := .ite hs.setAon.cold (.foldl hs.setAon fun _ _ hu => hu.warm)

theorem Keeps.execFuseLoadDone {rows} {fuses} {trngFails} : Ends s₀ (execFuseLoadDone rows fuses trngFails s) := by
  unfold Machine.execFuseLoadDone
  refine .next (.ite hs ?_)
  exact .actWaiting (.trngStart (.applyFuses (.ite hs.setAon.wr.wr hs.setAon.wr.wr.raise)))

theorem Keeps.flashWrite {a} {bs} {erase} : Keeps s₀ (s.flashWrite a bs erase) :=
  hs.withFlash fun hm => memWrite_wf _ _ _ _ (memWf_ite_filter hm)

theorem Keeps.writeDesc {prefer} {trial} {tried} : Keeps s₀ (s.writeDesc prefer trial tried) := by
  unfold State.writeDesc
  split
  exact hs.flashWrite

theorem Keeps.execBootCoreAliveTimeout : Ends s₀ (execBootCoreAliveTimeout s) := by
  unfold Machine.execBootCoreAliveTimeout
  refine .next (.ite hs ?_)
  extract_lets _ _ s1
  have hs1 : Keeps s₀ s1 := hs.wrI.setCtl (by rfl)
  split
  · exact .ite hs1.wr.wrI.noteCore hs1.wr.wrI
  · exact hs1

theorem Keeps.execBootRom : Ends s₀ (execBootRom s) :=
  .next (.ite hs (.wr (.setCtl (.ite hs.wrI.writeDesc.setCtl (.ite hs.wrI.writeDesc hs.wrI)))))

theorem Keeps.runCopy {copy} {h} : Keeps s₀ (s.runCopy copy h) := by
  unfold State.runCopy
  extract_lets s1 _ s2 _ s3 s4
  have hs1 : Keeps s₀ s1 := hs.wr.wr.wr.wr
  have hs2 : Keeps s₀ s2 := hs1.setCtl
  have hs3 : Keeps s₀ s3 := .ite hs2.raise.setCtl hs2
  have hs4 : Keeps s₀ s4 := hs3.placeRoles
  exact .ite hs4.setCry.drawn hs4

theorem Keeps.execFlashCopyChecked {copy} {readErr} : Ends s₀ (execFlashCopyChecked copy readErr s) := by
  unfold Machine.execFlashCopyChecked
  refine .next (.ite hs ?_)
  extract_lets code s1 s2
  have hs2 : Keeps s₀ s2 := hs.wr ite_fits
  exact .ite (.ite hs.runCopy.wr hs.runCopy.wr.raise) (.ite hs2.setCtl hs2.setCtl.wr.raise)

theorem Keeps.loseRegion {r} : Keeps s₀ (s.loseRegion r) := .ite hs hs.wrI.raise

theorem Keeps.restartLog {cause} : Keeps s₀ (s.restartLog cause) := hs.wr.wr.setRas.log

theorem Keeps.rewithhold : Keeps s₀ s.rewithhold := hs.setNear.wr

theorem Keeps.nearLoss : Keeps s₀ s.nearLoss := by
  unfold State.nearLoss
  extract_lets _ s1 _ s2 s3
  have hs1 : Keeps s₀ s1 := .foldl hs fun _ _ hu => .ite hu.setTme.poisonTile hu
  have hs2 : Keeps s₀ s2 := hs1.withNearMem fun _ => rfl
  exact .restartLog (.foldl hs2 fun _ _ hu => .ite hu.loseRegion hu)

theorem Keeps.bulkLoss : Keeps s₀ s.bulkLoss := by
  unfold State.bulkLoss
  extract_lets s1 gone _ s2 _ s3
  have hs1 : Keeps s₀ s1 := .foldl hs fun _ _ hu => hu.loseRegion
  have hs3 : Keeps s₀ s3 := hs1.setTmu.withBulkMem fun _ => rfl
  exact hs3.setNear

theorem Keeps.moveAside {r} {t} : Keeps s₀ (s.moveAside r t) := by
  unfold State.moveAside
  extract_lets
  refine .ite ?_ ?_
  · split
    · rename_i a snd tail s1 heq
      have hs1 : Keeps s₀ s1 := hs.takeFixed _ heq
      exact .ite hs1.moveSlot hs1.copyRun
    · exact hs.loseRegion
  split
  · rename_i a s1 heq
    have hs1 : Keeps s₀ s1 := hs.alloc _ heq
    exact hs1.copyRun
  · exact hs.loseRegion

theorem Keeps.shutArea {a} {n} : Keeps s₀ (s.shutArea a n) := hs.setTmu.keepRuns

theorem Keeps.setApart : Keeps s₀ s.setApart :=
  .ite hs (.wr (.shutArea (.foldl hs.wr.shutArea fun _ _ hu => .foldl hu fun _ _ hv => hv.moveAside)))

theorem Keeps.applyTraining {r} : Keeps s₀ (s.applyTraining r) := by
  unfold State.applyTraining
  refine .ite hs.layNear.layBulk.laySpace.enterModes ?_
  extract_lets _ s1 s2
  have hs1 : Keeps s₀ s1 := .ite hs.bulkLoss.layBulk.laySpace hs
  have hs2 : Keeps s₀ s2 := .ite hs1.nearLoss.layNear.setApart.rewithhold hs1
  exact hs2.enterModes.watchService

theorem Keeps.execMemoryTrainingDone {result} : Ends s₀ (execMemoryTrainingDone result s) :=
  .next (.ite hs (.ite hs.wr hs.applyTraining.wr.setMem.setCtl.saveTraining))

theorem Keeps.execMemActive : Ends s₀ (execMemActive s) := by
  unfold Machine.execMemActive
  refine .next (.ite hs ?_)
  extract_lets s1 s2 _ s3 _ s4 s5
  have hs1 : Keeps s₀ s1 := .recordCores (.ite hs hs.restartLog)
  have hs2 : Keeps s₀ s2 := .foldl hs1 fun _ _ hu => hu.wr
  have hs3 : Keeps s₀ s3 := hs2.wr.wr.setMem
  have hs4 : Keeps s₀ s4 := hs3.wr.wr.setAon
  have hs5 : Keeps s₀ s5 := .ite hs4.writeDesc.raise hs4
  exact hs5.enterModes.raise

end

end Sys2Proof.Machine
end

section
/-!
PROOFS for O56 and O58: far accesses, links, DRAM, keys and evacuation
keep the queue and the canonical form, one lemma per operation of the model, in the order of its files.
-/
namespace Sys2Proof.Machine
open Sys2Proof.Safety

section
-- a lemma whose width check runs by default waits for those before it: one thread, so that none waits idle
set_option Elab.async false
variable {s₀ s : State} (hs : Keeps s₀ s)
include hs

/-! ## Far accesses (ChainFar) -/

theorem Keeps.raiseFar {bit} {h} : Keeps s₀ (s.raiseFar bit h) := hs.raise

theorem Keeps.freeCredit {p} {m} : Keeps s₀ (s.freeCredit p m) := hs.setClp

theorem Keeps.setPair {src} {x} : Keeps s₀ (s.setPair src x) := hs.setClx

theorem Keeps.takeRead {p} {m} : Keeps s₀ (s.takeRead p m) := hs.present

theorem Keeps.takeWrite {p} {kind} {m} : Keeps s₀ (s.takeWrite p kind m) := by
  unfold State.takeWrite
  extract_lets
  refine .ite hs.farWriteRsp ?_
  exact .ite hs.bump.farWriteRsp (.ite (.ite hs.bump hs.setPair.present) hs.bump.raiseFar)

theorem Keeps.syncAck {src} {tag} {base} : Keeps s₀ (s.syncAck src tag base) := hs.sendMsg

theorem Keeps.newSync {src} {tag} {token} : Keeps s₀ (s.newSync src tag token) := hs.setPair.wrI.wrI.syncAck

theorem Keeps.takeSync {m} : Keeps s₀ (s.takeSync m) := by
  unfold State.takeSync
  split
  · exact hs.syncAck
  · exact hs.newSync

theorem Keeps.advanceLast {fuel} {src} : Keeps s₀ (State.advanceLast fuel s src) := by
  induction fuel generalizing s with
  | zero => exact hs
  | succ fuel ih =>
    unfold State.advanceLast
    exact .ite (ih hs.setPair.wrI) hs

theorem Keeps.farApplied {d} : Keeps s₀ (s.farApplied d) := by
  unfold State.farApplied
  extract_lets _ s1 _ _ _ s2 s3
  have hs1 : Keeps s₀ s1 := hs.setClx
  have hs2 : Keeps s₀ s2 := .ite hs1 hs1.setPair.advanceLast
  have hs3 : Keeps s₀ s3 := hs2.farWriteRsp
  exact .ite hs3 hs3.outSub.leaveUnit

theorem Keeps.execFarWriteApplied {src} {seq} : Ends s₀ (execFarWriteApplied src seq s) := by
  unfold Machine.execFarWriteApplied
  refine .next ?_
  split
  · exact .ite hs hs.farApplied
  · exact hs

theorem Keeps.killTag {tag} : Keeps s₀ (s.killTag tag) := hs.setClx

theorem Keeps.farSettle : Keeps s₀ s.farSettle := hs.setClx.farPump

theorem Keeps.farResend {f} : Keeps s₀ (s.farResend f) :=
  .ite hs (.ite hs.setFar.sendMsg hs.killTag.setFar.setClx.sendMsg)

theorem Keeps.rerouteHome {h} : Keeps s₀ (s.rerouteHome h) :=
  .foldl (.foldl hs fun _ _ hu => hu.farResend) fun _ _ hu => hu.farResend

theorem Keeps.farReadDone {f} {poison} {v} {fault} : Keeps s₀ (s.farReadDone f poison v fault) := by
  unfold State.farReadDone
  extract_lets s1
  have hs1 : Keeps s₀ s1 := hs.dropFar
  split
  · exact hs1.jobRead
  · exact hs1.answerRead

theorem Keeps.farWriteDone {f} {fault} : Keeps s₀ (s.farWriteDone f fault) := by
  unfold State.farWriteDone
  extract_lets s1
  have hs1 : Keeps s₀ s1 := hs.dropFar
  split
  · exact hs1.jobWrote
  · exact hs1.answerWrite

theorem Keeps.dropWrite {f} : Keeps s₀ (s.dropWrite f) := hs.bump.log.raiseFar.farWriteDone.wrI

theorem Keeps.needSync {h} : Keeps s₀ (s.needSync h) :=
  .startSync (.wrI (.foldl hs.raiseFar fun _ _ hu => hu.dropWrite))

theorem Keeps.takeReadRsp {m} : Keeps s₀ (s.takeReadRsp m) := by
  unfold State.takeReadRsp
  split
  · exact hs.farReadDone.farSettle
  · exact hs

theorem Keeps.takeWriteRsp {m} : Keeps s₀ (s.takeWriteRsp m) := by
  unfold State.takeWriteRsp
  split
  · exact .ite hs.needSync.farSettle hs.farWriteDone.farSettle
  · exact hs

theorem Keeps.takeSyncAck {m} : Keeps s₀ (s.takeSyncAck m) := by
  unfold State.takeSyncAck
  split
  · exact hs.setClx.wrI.wrI.farPump
  · exact hs

theorem Keeps.takeMine {p} {m} : Keeps s₀ (s.takeMine p m) := by
  unfold State.takeMine
  refine .ite hs.takeRead ?_
  refine .ite hs.takeWrite ?_
  refine .ite hs.takeWrite ?_
  exact .ite hs.takeSync (.ite hs.takeReadRsp (.ite hs.takeWriteRsp hs.takeSyncAck))

theorem Keeps.takeMsg {p} {m} : Keeps s₀ (s.takeMsg p m) := by
  unfold State.takeMsg
  extract_lets s1
  have hs1 : Keeps s₀ s1 := hs.freeCredit
  exact .ite hs1.rouse.takeMine (.ite hs1.bump (.ite hs1.bump hs1.setClp.pump))

theorem Keeps.arrives {p} {m} : Keeps s₀ (s.arrives p m) := .ite hs.takeMsg hs

theorem Keeps.execRd {p} {msg} : Ends s₀ (execRd p msg s) := .next hs.arrives

theorem Keeps.execWr {p} {msg} {data} : Ends s₀ (execWr p msg data s) := .next hs.arrives

theorem Keeps.execWrp {p} {msg} {data} {be} : Ends s₀ (execWrp p msg data be s) := .next hs.arrives

theorem Keeps.execSync {p} {src} {token} : Ends s₀ (execSync p src token s) := .next hs.arrives

theorem Keeps.execRdRsp {p} {src} {tag} {status} {poison} {data} : Ends s₀ (execRdRsp p src tag status poison data s) :=
  .next hs.arrives

theorem Keeps.execWrRsp {p} {src} {tag} {status} {seq} : Ends s₀ (execWrRsp p src tag status seq s) := .next hs.arrives

theorem Keeps.execSyncAck {p} {src} {base} : Ends s₀ (execSyncAck p src base s) := .next hs.arrives

theorem Keeps.execE2eTimeout {id} {sync} : Ends s₀ (execE2eTimeout id sync s) := by
  unfold Machine.execE2eTimeout
  refine .next (.ite hs ?_)
  split
  · split
    · exact hs.sendMsg
    · exact hs
  split
  · exact hs.farResend
  · exact hs

theorem Keeps.execFarLimitExpiry {id} : Ends s₀ (execFarLimitExpiry id s) := by
  unfold Machine.execFarLimitExpiry
  refine .next (.ite hs ?_)
  split
  · exact .ite hs.dropWrite.farSettle hs.farReadDone.killTag.farSettle
  · exact hs

/-! ## The ring (ChainRing) -/

theorem Keeps.takeAck {p} {a} : Keeps s₀ (s.takeAck p a) := .ite hs.setClp.wrI hs

theorem Keeps.takeLsb {p} {l} : Keeps s₀ (s.takeLsb p l) := by
  unfold State.takeLsb
  extract_lets s1
  have hs1 : Keeps s₀ s1 := by
    unfold s1
    split
    · exact hs.takeAck
    · exact hs
  exact hs1.setClp.pump

theorem Keeps.sendRing {p} : Keeps s₀ (s.sendRing p) := .ite hs.sendCtl hs

theorem Keeps.rehome {h} : Keeps s₀ (s.rehome h) :=
  .ite (.ite hs.setClx.rerouteHome (.ite hs.setClx hs.setClx.setClx)) (.ite hs hs.setClx)

theorem Keeps.computeRoutes : Keeps s₀ s.computeRoutes := by
  unfold State.computeRoutes
  extract_lets _ _ _ _ _ s1 s2 _ s3
  have hs1 : Keeps s₀ s1 := hs.wr.wr.wr.wr
  have hs2 : Keeps s₀ s2 := .ite hs1 hs1.raise
  have hs3 : Keeps s₀ s3 := .foldl hs2 fun _ _ hu => hu.raiseFar
  exact .farPump (.foldl hs3 fun _ _ hu => hu.rehome)

theorem Keeps.portChanged : Keeps s₀ s.portChanged := .ite hs.setClx.sendRing.sendRing.computeRoutes hs.setClx

theorem Keeps.takeRing {p} {reports} {round} : Keeps s₀ (s.takeRing p reports round) :=
  .ite (.ite hs hs.setClx.sendRing.computeRoutes) hs

theorem Keeps.takesCtl {p} {l} {f : State → State} (hf : ∀ u, Keeps s₀ u → Keeps s₀ (f u)) :
    Keeps s₀ (s.takesCtl p l f) :=
  .ite (hf _ hs.setClp.takeLsb) hs

theorem Keeps.execRing {p} {lsb} {reports} {round} : Ends s₀ (execRing p lsb reports round s) :=
  .next (hs.takesCtl (fun _ hu => hu.takeRing))

theorem Keeps.execRingPeriodic : Ends s₀ (execRingPeriodic s) := .next (.ite hs.sendRing.sendRing hs)

theorem Keeps.sendToken {p} {t} : Keeps s₀ (s.sendToken p t) := .ite hs.sendCtl hs

theorem Keeps.sendAssign {p} {t} : Keeps s₀ (s.sendAssign p t) := .ite hs.sendCtl hs

theorem Keeps.rehomeTmes {id} : Keeps s₀ (s.rehomeTmes id) := hs.setTmu

theorem Keeps.adopt {t} {id} : Keeps s₀ (s.adopt t id) := by
  unfold State.adopt
  extract_lets _ _ s1 _ s2 s3
  have hs1 : Keeps s₀ s1 := hs.wr.wr.wr.wr.wr
  have hs2 : Keeps s₀ s2 := hs1.setClx
  have hs3 : Keeps s₀ s3 := .raise (.ite hs2.rehomeTmes.raise hs2)
  exact hs3.sendRing.sendRing.computeRoutes

theorem Keeps.ringDone {line} {order} : Keeps s₀ (s.ringDone line order) :=
  .ite hs.setClx.raise (.adopt (.ite hs.setClx.sendAssign.sendAssign hs.setClx.sendAssign))

theorem Keeps.otherSide {side} : Keeps s₀ (s.otherSide side) := .ite hs.setClx.sendToken hs.ringDone

theorem Keeps.headToken {p} {t} : Keeps s₀ (s.headToken p t) := by
  unfold State.headToken
  refine .ite hs ?_
  refine .ite ?_ (.ite hs.otherSide hs)
  refine .ite hs.ringDone ?_
  split
  · exact hs.ringDone
  · exact hs

theorem Keeps.passToken {p} {t} : Keeps s₀ (s.passToken p t) :=
  .ite hs.sendToken (.ite hs.raise (.ite hs.sendToken hs.sendToken))

theorem Keeps.takeToken {p} {t} : Keeps s₀ (s.takeToken p t) :=
  .ite hs.raise (.ite hs.setClx.raise (.ite hs.setClx.headToken hs.setClx.passToken))

theorem Keeps.execToken {p} {lsb} {body} : Ends s₀ (execToken p lsb body s) :=
  .next (hs.takesCtl (fun _ hu => hu.takeToken))

theorem Keeps.takeAssign {p} {t} : Keeps s₀ (s.takeAssign p t) := by
  unfold State.takeAssign
  split
  · exact .ite hs.adopt.sendAssign hs
  · exact hs

theorem Keeps.execAssign {p} {lsb} {body} : Ends s₀ (execAssign p lsb body s) :=
  .next (hs.takesCtl (fun _ hu => hu.takeAssign))

theorem Keeps.startRound : Keeps s₀ s.startRound := .ite hs.setClx.sendToken hs.setClx.otherSide

theorem Keeps.execDiscoveryRound : Ends s₀ (execDiscoveryRound s) := .next (.ite hs.startRound hs)

theorem Keeps.execAssignTimeout : Ends s₀ (execAssignTimeout s) := .next (.ite hs.raise hs)

/-! ## Chain links (ChainLink) -/

theorem Keeps.markLane {p} {l} : Keeps s₀ (s.markLane p l) := .ite hs hs.wrI.raise

theorem Keeps.spareLane {p} {l} : Keeps s₀ (s.spareLane p l) := .ite hs.wrI.raise.spare hs.spare

theorem Keeps.spareLanes {p} : Keeps s₀ (s.spareLanes p) := .setClx (.foldl hs fun _ _ hu => hu.spareLane)

theorem Keeps.clFresh {p} : Keeps s₀ (s.clFresh p) := .setClp (.foldl_fields hs id fun _ _ hf hu => (hu.wrI hf))

theorem Keeps.clDown {p} : Keeps s₀ (s.clDown p) := .ite (.portChanged (.clFresh (.raise (.ite hs hs.bump)))) hs.clFresh

theorem Keeps.protoError {p} : Keeps s₀ (s.protoError p) := hs.bump.raise.clDown

theorem Keeps.clRetrainStart {p} : Keeps s₀ (s.clRetrainStart p) := hs.wrI.bump

theorem Keeps.emitReplay {p} {n} : Keeps s₀ (s.emitReplay p n) := .setClp (.foldl hs.bump.sendCtl fun _ _ hu => hu.emit)

theorem Keeps.startReplay {p} {n} : Keeps s₀ (s.startReplay p n) :=
  .ite hs (.ite hs.raise.clRetrainStart hs.setClp.emitReplay)

theorem Keeps.takeNak {p} {n} : Keeps s₀ (s.takeNak p n) := .ite hs.startReplay (.ite hs hs.protoError)

theorem Keeps.execNak {p} {lsb} {seq} : Ends s₀ (execNak p lsb seq s) := .next (hs.takesCtl (fun _ hu => hu.takeNak))

theorem Keeps.execReplayTimerExpiry {p} : Ends s₀ (execReplayTimerExpiry p s) := by
  unfold Machine.execReplayTimerExpiry
  refine .next (.ite ?_ hs)
  split
  · exact hs.bump.startReplay
  · exact hs

theorem Keeps.execControlFlitDue {p} : Ends s₀ (execControlFlitDue p s) := .next (.ite hs.sendCtl hs)

theorem Keeps.execIdle {p} {lsb} : Ends s₀ (execIdle p lsb s) := .next (hs.takesCtl (fun _ hu => hu))

theorem Keeps.takeReplay {p} {n} : Keeps s₀ (s.takeReplay p n) := .ite hs.setClp hs.protoError

theorem Keeps.execReplay {p} {lsb} {seq} : Ends s₀ (execReplay p lsb seq s) :=
  .next (hs.takesCtl (fun _ hu => hu.takeReplay))

theorem Keeps.crcFailure {p} : Keeps s₀ (s.crcFailure p) := hs.bump.bump.sendCtl.setClp

theorem Keeps.acceptFlit {p} {bs} : Keeps s₀ (s.acceptFlit p bs) :=
  .pump (.foldl (.setClp (.ite hs.wrI.takeAck hs.wrI)) fun _ _ hu => hu.takeMsg)

theorem Keeps.laneErrors {p} {wire} {fixed} : Keeps s₀ (s.laneErrors p wire fixed) :=
  .foldl hs.setClp fun _ _ hu => hu.markLane

theorem Keeps.checkFlit {p} {bs} : Keeps s₀ (s.checkFlit p bs) :=
  .ite hs (.ite hs.crcFailure (.ite hs.acceptFlit hs.setClp))

theorem Keeps.fecFailure {p} : Keeps s₀ (s.fecFailure p) := by
  unfold State.fecFailure
  extract_lets _ _ s1 s2
  have hs1 : Keeps s₀ s1 := hs.setClp
  have hs2 : Keeps s₀ s2 := .ite hs1 hs1.crcFailure
  exact .ite hs2.setClp.clRetrainStart hs2

theorem Keeps.decodedFlit {p} {bs} : Keeps s₀ (s.decodedFlit p bs) := .ite hs.setClp hs.setClp.checkFlit

theorem Keeps.takeFlit {p} {wire} : Keeps s₀ (s.takeFlit p wire) := by
  unfold State.takeFlit
  split
  · exact hs.fecFailure
  refine .ite (.ite hs.bump.laneErrors.decodedFlit.clRetrainStart hs.bump.laneErrors.decodedFlit) ?_
  exact hs.decodedFlit

theorem Keeps.execDataFlit {p} {bytes} : Ends s₀ (execDataFlit p bytes s) := .next (.ite hs.takeFlit hs)

theorem Keeps.goActive {p} : Keeps s₀ (s.goActive p) :=
  .ite (.portChanged (.raise (.wrI (.foldl_fields hs.setClp id fun _ _ hf hu => (hu.wrI hf))))) hs

theorem Keeps.takeInit {p} {b} : Keeps s₀ (s.takeInit p b) := .ite hs.raise hs.setClp.wrI.goActive

theorem Keeps.execInit {p} {lsb} {body} : Ends s₀ (execInit p lsb body s) :=
  .next (.ite hs.takeInit (hs.takesCtl (fun _ hu => hu)))

theorem Keeps.execInitResend {p} : Ends s₀ (execInitResend p s) := .next (.ite hs.sendCtl.setClp.goActive hs)

theorem Keeps.execClDownTimer {p} : Ends s₀ (execClDownTimer p s) := .next (.ite hs.wrI hs)

theorem Keeps.execClDetect {p} {lanes} : Ends s₀ (execClDetect p lanes s) := .next (.ite hs.setClp.wrI hs)

theorem Keeps.trainLanes {p} {lanes} {peerWidth} : Keeps s₀ (s.trainLanes p lanes peerWidth).1 := by
  unfold State.trainLanes
  extract_lets _ s1 _ _ _ s2
  have hs1 : Keeps s₀ s1 := .spareLanes (.foldl hs fun _ _ hu => hu.markLane)
  have hs2 : Keeps s₀ s2 := hs1.wrI.setClp
  exact .ite hs2.raise hs2

theorem Keeps.execClTrainLock {p} {lanes} {peerWidth} : Ends s₀ (execClTrainLock p lanes peerWidth s) :=
  .next (.ite (.ite hs.trainLanes.clDown hs.trainLanes.wrI) hs)

theorem Keeps.execClFlitLock {p} : Ends s₀ (execClFlitLock p s) := .next (.ite hs.wrI hs)

theorem Keeps.execClStateTimeout {p} : Ends s₀ (execClStateTimeout p s) := .next (.ite hs.clDown hs)

theorem Keeps.execClLockLoss {p} : Ends s₀ (execClLockLoss p s) := .next (.ite hs.clRetrainStart hs)

theorem Keeps.execClLinkDown {p} : Ends s₀ (execClLinkDown p s) := .next (.ite hs.clDown hs)

theorem Keeps.execClRetrainDone {p} {lanes} {peerWidth} : Ends s₀ (execClRetrainDone p lanes peerWidth s) := by
  unfold Machine.execClRetrainDone
  refine .next (.ite ?_ hs)
  extract_lets r s1 _ s2
  have hr : Keeps s₀ r.1 := hs.trainLanes
  have hs1 : Keeps s₀ s1 := hr.wrI
  have hs2 : Keeps s₀ s2 := hs1.setClp
  refine .ite hr.clDown ?_
  split
  · exact hs2.startReplay.pump
  · exact hs2.pump

theorem Keeps.execClRetrain {path} {p} : Ends s₀ (execClRetrain path p s) :=
  .next (.ite (hs.viaPath (fun _ hu => .ite hu.clRetrainStart hu)) hs)

theorem Keeps.execClMark {path} {p} {lanes} : Ends s₀ (execClMark path p lanes s) :=
  .next (.ite (hs.viaPath (fun _ hu => .foldl hu fun _ _ hv => hv.markLane)) hs)

theorem Keeps.execClPortEnable {path} {p} {on} : Ends s₀ (execClPortEnable path p on s) :=
  .next (.ite (hs.viaPath (fun _ hu => .ite hu.wrb hu.wrb.clDown)) hs)

theorem Keeps.execChainLowPowerSubstate {p} : Ends s₀ (execChainLowPowerSubstate p s) := .next (.ite hs.setClp hs)

/-! ## Answers of hosts (Directory) -/

theorem Keeps.takeAnswer {h} {line} {a} : Keeps s₀ (s.takeAnswer h line a) := .ite hs.rouse.dirAnswer hs.rouse

theorem Keeps.execBirspi {h} {line} : Ends s₀ (execBirspi h line s) := .next hs.takeAnswer

theorem Keeps.execBirsps {h} {line} : Ends s₀ (execBirsps h line s) := .next hs.takeAnswer

theorem Keeps.execBirspe {h} {line} : Ends s₀ (execBirspe h line s) := .next hs.takeAnswer

theorem Keeps.execBiconflict {h} {line} : Ends s₀ (execBiconflict h line s) := by
  unfold Machine.execBiconflict
  refine .next ?_
  extract_lets s' s1
  have hs' : Keeps s₀ s' := hs.rouse
  have hs1 : Keeps s₀ s1 := hs'.bump
  refine .ite ?_ hs'
  split
  · exact .ite (.settleConflicts (.ite hs1 hs1.setDir)) hs'.bump
  · exact hs'.bump

theorem Keeps.execBiTimeout {h} : Ends s₀ (execBiTimeout h s) := .next (.ite hs.wr.dirGone.raise hs)

theorem Keeps.sweepOver {n} : Keeps s₀ (s.sweepOver n) := hs.setDir.resumeWhy

theorem Keeps.sweepEnds {n} {w} : Keeps s₀ (s.sweepEnds n w) := by
  unfold State.sweepEnds
  split
  · exact .sweepOver (.wrAt (.wr (.foldl hs fun _ _ hu => hu.dirDrop)))
  · exact .dcExpire (.sweepOver (.ite hs.wrI hs))
  · exact .sweepOver (.ite hs.wr hs)
  · exact hs.sweepOver

theorem Keeps.execDirSweepDone {n} : Ends s₀ (execDirSweepDone n s) := by
  unfold Machine.execDirSweepDone
  refine .next ?_
  split
  · exact hs
  · exact .ite hs.sweepSend.sweepEnds hs.sweepSend

/-! ## DRAM (Dram) -/

theorem Keeps.showPostponed {key} : Keeps s₀ (s.showPostponed key) := hs.wrI ite_fits

theorem Keeps.setPostponed {key} {rank} {n} : Keeps s₀ (s.setPostponed key rank n) := hs.setMem.showPostponed

theorem Keeps.windowOpens {key} : Keeps s₀ (s.windowOpens key) := hs.setMem.showPostponed

theorem Keeps.execRefreshDue {tier} {ch} {rank} : Ends s₀ (execRefreshDue tier ch rank s) := by
  unfold Machine.execRefreshDue
  refine .next (.ite hs (.ite hs.setMem (.ite hs.setPostponed ?_)))
  cases tier with
  | near => exact hs.setMem.bump
  | bulk => exact hs.setMem.bump

theorem Keeps.execPeriodicTrainingDue {tier} {ch} {recentre} : Ends s₀ (execPeriodicTrainingDue tier ch recentre s) :=
  .next (.ite hs.setMem hs)

theorem Keeps.train {key} {recentre} : Keeps s₀ (s.train key recentre) := .ite hs.setMem.setMem.bump hs.setMem

theorem Keeps.refreshRank {key} {rank} : Keeps s₀ (s.refreshRank key rank) := hs.setMem

theorem Keeps.issueReq {key} {x} : Keeps s₀ (s.issueReq key x) := hs.setMem.requeue.dispatch

theorem Keeps.slotRequest {key} {now} {ready} : Keeps s₀ (s.slotRequest key now ready) := by
  unfold State.slotRequest
  split
  · exact hs.issueReq
  split
  · exact .ite hs.setMem hs
  · exact hs

theorem Keeps.slotWindow {key} {now} {ready} : Keeps s₀ (s.slotWindow key now ready) := by
  unfold State.slotWindow
  split
  · exact hs.setMem.refreshRank
  · exact .ite hs.train hs.slotRequest
  · exact hs.slotRequest

theorem Keeps.slot {key} {now} {ready} : Keeps s₀ (s.slot key now ready) := by
  unfold State.slot
  split
  · exact hs.setMem.refreshRank
  extract_lets forced
  clear_value forced
  split
  · exact hs.train
  split
  · exact hs.issueReq
  · exact hs.slotWindow

theorem Keeps.execDramCommandSlot {tier} {ch} {now} {ready} : Ends s₀ (execDramCommandSlot tier ch now ready s) :=
  .next (.ite hs.slot hs)

theorem Keeps.edc {ch} {fails} : Keeps s₀ (s.edc ch fails) := .ite (.bump (.ite hs hs.bump)) (.ite hs hs.bump)

theorem Keeps.readUe {r} {edc} : Keeps s₀ (s.readUe r edc) := by
  unfold State.readUe
  split
  exact .ite hs.countUe (.nearUe (.ite hs.putLine hs))

theorem Keeps.readEnd {r} {poison} : Keeps s₀ (s.readEnd r poison) := .ite hs.answerWrite hs.answerRead

theorem Keeps.readData {r} {edcFails} {ecc} : Keeps s₀ (s.readData r edcFails ecc) := by
  unfold State.readData
  extract_lets _ s0 _ _ s1
  have hs0 : Keeps s₀ s0 := hs.setNear
  have hs1 : Keeps s₀ s1 := .ite hs0 hs0.edc
  split
  split
  · exact hs1.readEnd
  · exact hs1.corrected.readEnd
  · exact hs1.readUe.readEnd

theorem Keeps.execDramReadData {id} {edcFails} {bad} : Ends s₀ (execDramReadData id edcFails bad s) := by
  unfold Machine.execDramReadData
  refine .next ?_
  split
  · exact .ite hs.readData hs
  · exact hs

theorem Keeps.chanFailed {t} {ch} : Keeps s₀ (s.chanFailed t ch) := by
  unfold State.chanFailed
  refine .warm ?_
  split <;> exact hs.wrI.raise

theorem Keeps.writeAgain {ch} : Keeps s₀ (s.writeAgain ch) := by
  unfold State.writeAgain
  split
  · exact hs.setMem.setChanQ
  · exact hs

theorem Keeps.execEdcWriteFail {ch} {fails} : Ends s₀ (execEdcWriteFail ch fails s) :=
  .next (.ite (.ite hs.edc hs.edc.log.bump.setMem.writeAgain) hs)

theorem Keeps.execChannelRetrainDone {tier} {ch} {ok} : Ends s₀ (execChannelRetrainDone tier ch ok s) := by
  unfold Machine.execChannelRetrainDone
  refine .next ?_
  extract_lets _ _ _ s1 _ s2
  have hs1 : Keeps s₀ s1 := by
    unfold s1
    split
    · exact hs.raise
    · exact hs.bump.raise
  have hs2 : Keeps s₀ s2 := hs1.setMem
  refine .ite hs ?_
  refine .ite hs.setMem ?_
  refine .ite hs2.chanFailed ?_
  split
  · exact hs2.bump
  · exact hs2

theorem Keeps.execPmicPowerFault {d} : Ends s₀ (execPmicPowerFault d s) := .next (.ite hs.wrI.raise.raise.raise.warm hs)

theorem Keeps.execPmicStatusPoll {status} {warn} : Ends s₀ (execPmicStatusPoll status warn s) :=
  .next (.foldl (.foldl hs fun _ _ hu => .ite hu.wrI hu) fun _ _ hu => .ite hu.wrI.raise hu)

theorem Keeps.baseTemp {key} : Keeps s₀ (s.baseTemp key) := by
  unfold State.baseTemp
  split
  · exact hs.setMem
  · exact hs

theorem Keeps.nearTemp {r} : Keeps s₀ (s.nearTemp r) := by
  unfold State.nearTemp
  extract_lets _ _ _ _ _ _ _ s1
  have hs1 : Keeps s₀ s1 := hs.setMem
  refine .foldl hs1 fun _ _ hu => ?_
  extract_lets s2 s3
  have hs2 : Keeps s₀ s2 := .ite hu hu.wrI.baseTemp
  have hs3 : Keeps s₀ s3 := hs2.wrb.chanStatus
  exact .ite hs3.raise hs3

theorem Keeps.dimmTemp {r} : Keeps s₀ (s.dimmTemp r) := by
  unfold State.dimmTemp
  extract_lets _ _ _ _ _ s1 s2 s0 s3
  have hs1 : Keeps s₀ s1 := hs.setMem
  have hs2 : Keeps s₀ s2 := .ite hs1 hs1.wrI.wrI
  have hs0 : Keeps s₀ s0 := hs2.wrb
  have hs3 : Keeps s₀ s3 := .ite hs0.wr hs0
  exact .foldl hs3 fun _ _ hu => .ite hu.wrb.baseTemp.chanStatus.raise hu.wrb.baseTemp.chanStatus

theorem Keeps.execTemperaturePoll {tier} {readings} : Ends s₀ (execTemperaturePoll tier readings s) := by
  unfold Machine.execTemperaturePoll
  refine .next (.foldl hs fun _ _ hu => ?_)
  split
  · exact .ite hu.nearTemp hu
  · exact .ite hu.dimmTemp hu

theorem Keeps.openSets : Keeps s₀ s.openSets := hs.withBulk

theorem Keeps.execDimmFullTrainingDone {passed} : Ends s₀ (execDimmFullTrainingDone passed s) :=
  .next (.ite hs (.foldl hs.setMem.openSets.saveTraining fun _ _ hu => hu.wrI.raise.raise))

/-! ## Keys (Keys) -/

theorem Keeps.execHaltViral : Ends s₀ (execHaltViral s) :=
  .next (.ite (.setCry (.wr (.dropRequests (.foldl hs fun _ _ hu => hu.emit)))) hs)

theorem Keeps.execHaltChainStop : Ends s₀ (execHaltChainStop s) := .next (.ite hs.setCry hs)

theorem Keeps.zeroizeGens : Keeps s₀ s.zeroizeGens :=
  .foldl hs fun _ _ hu => .foldl_fields hu id fun _ _ hf hv => (hv.wrI hf)

theorem Keeps.execHaltZeroize : Ends s₀ (execHaltZeroize s) := by
  unfold Machine.execHaltZeroize
  refine .next (.ite ?_ hs)
  extract_lets _ s1 _ s2
  have hs2 : Keeps s₀ s2 := hs.zeroizeGens.setCry.setClx
  exact hs2.elsewhere

theorem Keeps.execTrngHealthFail : Ends s₀ (execTrngHealthFail s) := .next (.ite hs.wr.raise hs)

theorem Keeps.execRekeyKeyReady {slot} : Ends s₀ (execRekeyKeyReady slot s) := .next (.ite hs.setCry.setTmu.dispatch hs)

theorem Keeps.reseal {slot} {tile} : Yields s₀ (s.reseal slot tile) := by
  unfold State.reseal
  refine .ite .none ?_
  extract_lets
  refine .ite (mapImp hs.admitInternal fun _ hu => hu.expandMismatch.leaveInternal) ?_
  split
  · exact .some hs.bump
  · rename_i u s0 heq
    have hs0 : Keeps s₀ s0 := hs.takeCounter _ heq
    exact mapImp hs0.admitInternal fun _ hu => hu.setTme.setCry.leaveInternal.releaseHold

theorem Keeps.crossTile {slot} {tile} {e} : Yields s₀ (s.crossTile slot tile e) := by
  unfold State.crossTile
  split
  · exact .none
  · rename_i s0 heq
    have hs0 : Keeps s₀ s0 := hs.cacheGood _ heq
    extract_lets
    refine .ite ?_ (.ite hs0.reseal hs0.startPromotion)
    split
    · exact Keeps.startDemotion (.ite hs0.setFte hs0)
    · exact .none

theorem Keeps.execRekeyWalkStep {slot} : Ends s₀ (execRekeyWalkStep slot s) := by
  unfold Machine.execRekeyWalkStep
  refine .next (.ite ?_ hs)
  split
  · split
    · rename_i s1 heq
      have hs1 : Keeps s₀ s1 := hs.crossTile _ heq
      exact hs1.setCry
    · exact hs
  · exact hs

theorem Keeps.execRekeyDone {slot} : Ends s₀ (execRekeyDone slot s) := by
  unfold Machine.execRekeyDone
  refine .next (.ite ?_ hs)
  extract_lets _ s1 _ s2 s3
  have hs1 : Keeps s₀ s1 := hs.wrI.wrI.setCry
  have hs2 : Keeps s₀ s2 := hs1.withAdm.raise
  have hs3 : Keeps s₀ s3 := hs2.bgDone
  exact .ite hs3.wrI.startRekey hs3

theorem Keeps.setKeyMode {src} {p} : Keeps s₀ (s.setKeyMode src p) := by
  exact hs.avsar (fun _ hu => .ite .err (.ite .err (.ok (.ite (.foldl hu.wr fun _ _ hv => hv.wrAt) hu.wr))))

theorem Keeps.loadWrapKey {src} {p} : Keeps s₀ (s.loadWrapKey src p) := by
  unfold State.loadWrapKey
  refine .avsar hs (fun _ hu => (.ite .err ?_))
  split
  · exact .err
  · exact .ok hu.setCry

theorem Keeps.loadKeySlot {src} {p} : Keeps s₀ (s.loadKeySlot src p) := by
  unfold State.loadKeySlot
  -- the kernel would run the unwrapping where it is not a variable
  obtain ⟨unwrap, hunwrap⟩ : ∃ unwrap, kwUnwrap = unwrap := ⟨_, rfl⟩
  simp only [hunwrap]
  refine hs.avsar fun _ hu => ?_
  extract_lets
  refine .ite .err ?_
  split
  · exact .err
  split
  · exact .err
  · exact .ite .err (.ok hu.setCry)

theorem Keeps.clearKeySlot {src} {p} : Keeps s₀ (s.clearKeySlot src p) :=
  hs.avsar (fun _ hu => .ite .err (.ite .err (.ok hu.setCry)))

theorem Keeps.rekeyRegion {src} {p} : Keeps s₀ (s.rekeyRegion src p) := by
  unfold State.rekeyRegion
  extract_lets r checks
  have hchecks : ∀ f u, Keeps s₀ u → (∀ v, Keeps s₀ v → Replies s₀ (f v)) → Replies s₀ (checks u f) := fun _ u hu hf =>
    .ite .err (.ite .err (.ite .err (.ite .err (.ite .err (hf u hu)))))
  clear_value checks
  refine .ite (hs.avsar fun _ hu => hchecks _ _ hu fun _ hv => .ok hv) ?_
  exact hs.background fun _ hu => hchecks _ _ hu fun _ hv => .ite (.ok hv) (.ite (.raised hv.raise) (.ok hv.startRekey))

theorem Keeps.execSetKeyMode {src} {payload} : Ends s₀ (execSetKeyMode src payload s) := .next hs.setKeyMode

theorem Keeps.execLoadWrapKey {src} {payload} : Ends s₀ (execLoadWrapKey src payload s) := .next hs.loadWrapKey

theorem Keeps.execLoadKeySlot {src} {payload} : Ends s₀ (execLoadKeySlot src payload s) := .next hs.loadKeySlot

theorem Keeps.execClearKeySlot {src} {payload} : Ends s₀ (execClearKeySlot src payload s) := .next hs.clearKeySlot

theorem Keeps.execRekeyRegion {src} {payload} : Ends s₀ (execRekeyRegion src payload s) := .next hs.rekeyRegion

/-! ## Evacuation and scrubbing (Ras) -/

theorem Keeps.remapRow {c} : Keeps s₀ (s.remapRow c) :=
  hs.setRas.wrAt.wrAt.wrAt.wrAt.wrAt.wrAt.noteRemap.reserveUse.log.raise.log.raise

theorem Keeps.execRowRemapCopyDone {ch} {entry} : Ends s₀ (execRowRemapCopyDone ch entry s) := by
  unfold Machine.execRowRemapCopyDone
  refine .next ?_
  split
  · refine .ite ?_ hs
    split
    · rename_i s1 heq
      have hs1 : Keeps s₀ s1 := hs.admitInternal _ heq
      exact hs1.remapRow.leaveInternal.resumeWhy
    · exact hs
  · exact hs

theorem Keeps.retainedRoom {n} : YieldsSnd s₀ (s.retainedRoom n) := mapImp (fun _ _ => trivial) fun _ _ => hs.setTmu

theorem Keeps.shiftMaps {a} : Keeps s₀ (s.shiftMaps a) := .setTmu (.wr (.foldl hs fun _ _ hu => .ite hu.wrI hu))

theorem Keeps.moveMaps {id} : Yields s₀ (s.moveMaps id) := by
  unfold State.moveMaps
  split
  · rename_i a s1 heq
    have hs1 : Keeps s₀ s1 := (YieldsSnd.ite hs.retainedRoom .none) _ heq
    exact .some hs1.shiftMaps
  split
  · exact .some hs
  · exact mapImp hs.retainedRoom fun _ hu => hu.wrI

theorem Keeps.stall : Keeps s₀ s.stall := .ite hs hs.wr.raise

theorem Keeps.removeSet {id} : Keeps s₀ (s.removeSet id) := by
  unfold State.removeSet
  extract_lets dest _ _ s1 s2 _ size s3 s4 next _ s5
  have hs2 : Keeps s₀ s2 := hs.setTmu.keepRuns.wr.wr.wr
  have hs3 : Keeps s₀ s3 := by
    unfold s3
    cases dest with
    | none => exact hs2.wr.spare
    | some d => exact hs2.wr.spare
  have hs5 : Keeps s₀ s5 := by
    unfold s5
    cases next with
    | none => exact hs3.log.raise.setRas
    | some k => exact hs3.log.raise.startEvacuation
  exact hs5.setAdm.bgDone

theorem Keeps.evacuate {id} : Keeps s₀ (s.evacuate id) := by
  unfold State.evacuate
  extract_lets going
  have hgoing : ∀ u, Keeps s₀ u → Keeps s₀ (going u) := fun _ hu => hu.wr
  refine .ite ?_ ?_
  · split
    · rename_i s1 heq
      have hs1 : Keeps s₀ s1 := hs.moveMaps _ heq
      exact hgoing _ hs1
    · exact hs.stall
  split
  · split
    · rename_i s1 heq
      have hs1 : Keeps s₀ s1 := hs.exchangeFixed _ heq
      exact hgoing _ hs1
    · exact hs.stall
  split
  · refine .ite hs.stall ?_
    split
    · exact .getD (mapImp hs.moveTile fun _ hu => (hgoing _ hu)) hs
    · exact hs
  · exact .ite hs hs.removeSet

theorem Keeps.execEvacuationMove : Ends s₀ (execEvacuationMove s) := by
  unfold Machine.execEvacuationMove
  refine .next ?_
  split
  · exact .ite hs.evacuate hs
  · exact hs

theorem Keeps.evacuateSet {src} {p} : Keeps s₀ (s.evacuateSet src p) := by
  unfold State.evacuateSet
  extract_lets
  exact hs.background (fun _ hu => .ite .err (.ite .err (.ite .err (.ok hu.rankFailing))))

theorem Keeps.execEvacuateSet {src} {payload} : Ends s₀ (execEvacuateSet src payload s) := .next hs.evacuateSet

theorem Keeps.execScrubAllowance : Ends s₀ (execScrubAllowance s) :=
  .next (.ite hs (.ite (.raise (.ite hs.setRas.raise hs.setRas)) (.ite hs.setRas.raise hs.setRas)))

theorem Keeps.endBulkPass : Keeps s₀ s.endBulkPass := .ite hs hs.setRas.wr.raise

theorem Keeps.endNearPass : Keeps s₀ s.endNearPass := .ite hs hs.setRas.wr.raise

theorem Keeps.scrubMismatch {m} : Keeps s₀ (s.scrubMismatch m) := by
  unfold State.scrubMismatch
  split
  · exact hs.tcsMismatch
  · exact hs.drawn.tcsMismatch

theorem Keeps.scrubTcs {m} {faults} : Keeps s₀ (s.scrubTcs m faults) := by
  unfold State.scrubTcs
  split
  · exact .ite hs hs.tcsMismatch
  refine .ite hs.bump ?_
  split
  · exact .ite hs.bump.bump.unitFault hs.bump.bump.scrubMismatch
  · exact hs.scrubMismatch

theorem Keeps.scrubTag {m} {src} {tcs} {faults} : Keeps s₀ (s.scrubTag m src tcs faults) := by
  unfold State.scrubTag
  extract_lets go try_
  have hgo : ∀ u, Keeps s₀ u → Keeps s₀ (go u) := fun _ hu => .ite hu.scrubTcs hu
  have htry : ∀ u p fault, Keeps s₀ u → Keeps s₀ (try_ u p fault).2 := by
    intro u p fault hu
    simp only [try_]
    exact .bump (.ite hu.drawn hu)
  clear_value go try_
  split
  · exact hs
  rename_i p rest heq
  rcases h1 : try_ s p faults.aes with ⟨tag, s1⟩
  have hs1 : Keeps s₀ s1 := (htry s p faults.aes hs).snd h1
  refine .ite (hgo _ hs1) ?_
  split
  · exact hs1.integrityHalt
  rename_i q rest'
  rcases h2 : try_ s1 q faults.aesRetry with ⟨tag2, s2⟩
  have hs2 : Keeps s₀ s2 := (htry s1 q faults.aesRetry hs1).snd h2
  exact .ite (hgo _ hs2.unitFault) hs2.integrityHalt

theorem Keeps.scrubTile {r} {t} {bad} {src} {tcs} {faults} : Keeps s₀ (s.scrubTile r t bad src tcs faults) := by
  unfold State.scrubTile
  split
  · exact hs
  · rename_i s0 heq
    have hs0 : Keeps s₀ s0 := hs.cacheGood _ heq
    exact .ite hs0 (.ite hs0.sectorsCorrected.bulkUe hs0.sectorsCorrected.scrubTag)

theorem Keeps.scrubBulk {bad} {faults} : Keeps s₀ (s.scrubBulk bad faults) := by
  unfold State.scrubBulk
  split
  · exact hs.endBulkPass
  refine .ite hs ?_
  split
  · exact hs
  · rename_i s1 heq
    have hs1 : Keeps s₀ s1 := hs.admitInternal _ heq
    exact hs1.setRas.scrubTile.leaveInternal.endBulkPass

theorem Keeps.reservedUe {f} {l} : Keeps s₀ (s.reservedUe f l) := by
  unfold State.reservedUe
  split
  extract_lets _ s0 s1
  have hs0 : Keeps s₀ s0 := .ite hs.countUe hs.countUe.ueWords
  have hs1 : Keeps s₀ s1 := hs0.log.raise
  refine .ite hs1.dirLost ?_
  refine .ite hs1.setJob.ctxLost ?_
  refine .ite hs1.setRas ?_
  refine .foldl hs1 fun _ _ hu => ?_
  split
  · exact hu.tmeFaulted
  · exact hu

theorem Keeps.scrubNear {bad} : Keeps s₀ (s.scrubNear bad) := by
  unfold State.scrubNear
  split
  · exact hs.endNearPass
  refine .ite hs ?_
  split
  · exact hs
  · rename_i s1 heq
    have hs1 : Keeps s₀ s1 := hs.admitInternal _ heq
    extract_lets _ s2 _ _ s3 s4
    have hs2 : Keeps s₀ s2 := hs1.setRas
    have hs3 : Keeps s₀ s3 := .foldl hs2 fun _ _ hu => hu.corrected
    have hs4 : Keeps s₀ s4 := by
      unfold s4
      refine .foldl hs3 fun _ _ hu => ?_
      split
      · exact hu.nearUe
      · exact hu.reservedUe
    exact hs4.leaveInternal.endNearPass

theorem Keeps.execScrubUnit {tier} {found} : Ends s₀ (execScrubUnit tier found s) := by
  unfold Machine.execScrubUnit
  refine .next (.ite hs ?_)
  split
  · exact .ite hs.scrubBulk hs
  · exact .ite hs.scrubNear hs

theorem Keeps.sweepSector {r} {k} : Keeps s₀ (s.sweepSector r k) :=
  .ite hs.mapSectorLost (.foldl hs fun _ _ hu => .ite hu.poisonTile hu)

theorem Keeps.sweepDone : Keeps s₀ s.sweepDone := hs.setRas.raise

theorem Keeps.sweepStep {r0} {t0} : Keeps s₀ (s.sweepStep r0 t0) := by
  unfold State.sweepStep
  -- the kernel would compute with the number of tiles where it is not a variable
  obtain ⟨tiles, htiles⟩ : ∃ tiles, s.rgnTiles = tiles := ⟨_, rfl⟩
  rw [htiles]
  split
  · exact hs.sweepDone
  extract_lets
  split
  · exact hs.sweepSector.setRas
  split
  · exact hs.setRas
  · exact hs.sweepDone

theorem Keeps.execRetentionSweepStep : Ends s₀ (execRetentionSweepStep s) := by
  unfold Machine.execRetentionSweepStep
  refine .next ?_
  split
  · exact .ite hs.sweepStep.resumeWhy hs
  · exact hs

theorem Keeps.clearRetention {src} {p} : Keeps s₀ (s.clearRetention src p) :=
  hs.avsar (fun _ hu => .ok (.foldl hu fun _ _ hv => hv.clr.clr.clr.clr))

theorem Keeps.execClearRetention {src} {payload} : Ends s₀ (execClearRetention src payload s) := .next hs.clearRetention

theorem Keeps.consume {n} : Keeps s₀ (s.consume n) := .ite hs hs.wr.setRas

theorem Keeps.getErrorLog {src} {p} : Keeps s₀ (s.getErrorLog src p) := by
  unfold State.getErrorLog
  exact hs.avsar fun _ hu => .ite .err (.ok hu)

theorem Keeps.execGetErrorLog {src} {payload} : Ends s₀ (execGetErrorLog src payload s) := .next hs.getErrorLog

theorem Keeps.clearErrorLog {src} {p} : Keeps s₀ (s.clearErrorLog src p) := hs.avsar (fun _ hu => .ok hu.consume)

theorem Keeps.execClearErrorLog {src} {payload} : Ends s₀ (execClearErrorLog src payload s) := .next hs.clearErrorLog

theorem Keeps.actPending {page} {mine} : Keeps s₀ (s.actPending page mine) :=
  .foldl hs fun _ _ hu => .ite hu.trackerAct hu

theorem Keeps.putHold {bulk} {ch} {v} : Keeps s₀ (s.putHold bulk ch v) :=
  .ite (.ite hs.wrb hs.wrb.actPending) (.ite hs.wrb hs.wrb.actPending)

theorem Keeps.setHoldCmd {src} {p} : Keeps s₀ (s.setHoldCmd src p) := by
  unfold State.setHoldCmd
  extract_lets
  refine .avsar hs (fun _ hu => (.ite .err ?_))
  refine .ite .err ?_
  split
  · exact .err
  · exact .ok hu.putHold

theorem Keeps.execSetHold {src} {payload} : Ends s₀ (execSetHold src payload s) := .next hs.setHoldCmd

end

end Sys2Proof.Machine
end

section
/-!
PROOFS for O56 and O58: jobs, power states, the mailbox, firmware and register accesses
keep the queue and the canonical form, one lemma per operation of the model, in the order of its files.
-/
namespace Sys2Proof.Machine
open Sys2Proof.Safety

section
-- a lemma whose width check runs by default waits for those before it: one thread, so that none waits idle
set_option Elab.async false
variable {s₀ s : State} (hs : Keeps s₀ s)
include hs

/-! ## Jobs (Jobs) -/

theorem Keeps.jobServe {j} {what} {off} {addr} {kind} {data} {be} :
    Keeps s₀ (s.jobServe j what off addr kind data be) := by
  unfold State.jobServe
  split
  · rename_i id s1 heq
    have hs1 : Keeps s₀ s1 := hs.freshId.snd heq
    exact hs1.serve

theorem Keeps.jobWrite {j} {off} {addr} {bs} : Keeps s₀ (s.jobWrite j off addr bs) :=
  .foldl hs fun _ _ hu => hu.jobServe

theorem Keeps.jobFill {j} {off} {addr} {len} : Keeps s₀ (s.jobFill j off addr len) :=
  .foldl hs fun _ _ hu => hu.jobServe

theorem Keeps.jobTarget {j} {addr} : TargetKeeps s₀ (s.jobTarget j addr) := by
  unfold State.jobTarget
  extract_lets q
  split
  · exact .error hs.wr.wr.wr.raise
  split
  · exact .error hs
  split
  · exact .error hs.bump.raise
  split
  · exact .error hs
  · exact .ok

theorem Keeps.spoil {j} {addr} {len} : Keeps s₀ (s.spoil j addr len) := by
  unfold State.spoil
  refine .foldl hs fun _ _ hu => ?_
  extract_lets
  split
  · refine .ite hu.drawn ?_
    split
    · rename_i id s1 heq
      have hs1 : Keeps s₀ s1 := hu.drawn.drawn.freshId.snd heq
      exact hs1.serve
  · exact hu.drawn

theorem Keeps.spoilRest {j} {from_} : Keeps s₀ (s.spoilRest j from_) := .ite hs.spoil (.ite hs.spoil hs)

theorem Keeps.tryPost {id} : Keeps s₀ (s.tryPost id) := by
  unfold State.tryPost
  split
  · exact hs
  refine .ite hs ?_
  refine .ite hs.countJob.removeJob ?_
  extract_lets _ s1 _ _ s2
  have hs1 : Keeps s₀ s1 := hs.touchCtx.ctxLost
  have hs2 : Keeps s₀ s2 := hs1.putJob.continue_
  exact .ite (.removeJob (.countJob (.ite hs1.queueError hs1))) (.ite hs hs2.jobServe)

theorem Keeps.postAll : Keeps s₀ s.postAll := .foldl hs fun _ _ hu => hu.tryPost

theorem Keeps.abortJobs {cause} {sel} : Keeps s₀ (s.abortJobs cause sel) :=
  .dispatch (.foldl hs.setJob fun _ _ hu => hu.spoilRest.endJob)

theorem Keeps.beginWrites {j} {p} {bs} {addr} : Keeps s₀ (s.beginWrites j p bs addr) := hs.putJob.jobWrite

theorem Keeps.nextPart {j} : Yields s₀ (s.nextPart j) := by
  unfold State.nextPart
  split
  · exact .ite .none (mapImp hs.admitPart fun _ hu => hu.putJob.beginWrites)
  extract_lets
  refine .ite .none ?_
  refine .ite (.some hs.putJob) ?_
  exact mapImp hs.admitPart fun _ hu => .ite hu.putJob.beginWrites hu.putJob.jobFill

theorem Keeps.tileMove {j} {tile} {f : State → Option State} (hf : ∀ u, Keeps s₀ u → Yields s₀ (f u)) :
    TileKeeps s₀ (s.tileMove j tile f) := by
  unfold State.tileMove
  split
  · exact .later
  · rename_i s1 heq
    have hs1 : Keeps s₀ s1 := hs.admitPart _ heq
    extract_lets
    split
    · rename_i s2 heq
      have hs2 : Keeps s₀ s2 := (hf _ hs1.putJob) _ heq
      exact .begun hs2
    · exact .later

theorem Keeps.tilePromote {j} {r} {tile} {k} {purpose} : TileKeeps s₀ (s.tilePromote j r tile k purpose) :=
  .ite .later (.ite .noFrame (hs.tileMove (fun _ hu => hu.jobPromotion)))

theorem Keeps.tileStep {j} {r} {tile} {k} : TileKeeps s₀ (s.tileStep j r tile k) := by
  unfold State.tileStep
  extract_lets t e p had s1 s2 s0
  have hp : Keeps s₀ p.1 := hs.pinTile
  have hs1 : Keeps s₀ s1 := .ite hs.setTme hs
  have hs2 : Keeps s₀ s2 := by
    unfold s2
    cases e with
    | none => exact hs1
    | some x => exact .ite hs1.setFte hs1
  have hs0 : Keeps s₀ s0 := hs.setTme
  clear_value e s2 s0
  refine .ite (.ite (.done hs) hs.tilePromote) (.ite ?_ (.ite (.ite (.done hs.setTme) ?_)
    (.ite (.ite (.done hs) (.done hs2)) (.ite (.ite (.stop hs) (.ite (.done hs) (.ite .later (.ite ?_ (.ite ?_ ?_)))))
      (.ite (.done hs) ?_)))))
  · split
    · exact .done hs
    · exact .ite (.done hs.evict) (.ite (.done hs) (.ite .later (hs.tileMove fun _ hu => hu.beginDemotion)))
  · split
    · exact .ite (.done hp) (.stop hp.raise)
    · exact .ite (.stop hs.raise) hs.tilePromote
  · split
    · rename_i a s1' heq
      exact .done (Keeps.moveSlot (Keeps.setTme (hs.alloc _ heq)))
    · exact .later
  · refine .ite .later ?_
    split
    · rename_i a s1' heq
      have hs1' : Keeps s₀ s1' := hs.alloc _ heq
      split
      · rename_i s2' heq
        have hs2' : Keeps s₀ s2' := hs1'.admitPart _ heq
        exact .done hs2'.setTme.copyRun.outSub.slotDone
      · exact .later
    · exact .later
  · split
    · extract_lets s1'
      have hs1' : Keeps s₀ s1' := .ite hs0.setFte hs0
      split
      · exact .ite (hs1'.tileMove fun _ hu => hu.beginDemotion) .later
      · exact .later
    · exact hs0.tilePromote
  · split
    · exact .later
    · rename_i s1' heq
      exact .begun (Keeps.putJob (hs.admitPart _ heq))

theorem Keeps.nextTilePart {j} : Yields s₀ (s.nextTilePart j) := by
  unfold State.nextTilePart
  refine .ite .none ?_
  extract_lets addr on
  have hon : ∀ u f, Keeps s₀ u → Keeps s₀ (on u f) := by
    intro u f hu
    unfold on
    split
    · exact hu.putJob
    · exact hu
  clear_value on
  split
  · rename_i s1 st d heq
    have hs1 : Keeps s₀ s1 := hs.jobTarget _ heq
    exact .some hs1.putJob
  refine .ite (.some (hon _ _ hs)) ?_
  split
  · exact .none
  rename_i s0 heq
  have hs0 : Keeps s₀ s0 := hs.cacheGood _ heq
  split
  · rename_i s1 n heq
    exact .some (hon _ _ (hs0.tileStep.ofDone heq))
  · rename_i s1 heq
    exact .some (hon _ _ (hs0.tileStep.ofBegun heq))
  · exact .none
  · exact .some (hon _ _ hs0)
  · rename_i s1 st d heq
    exact .some (hs0.tileStep.ofStop heq).putJob

theorem Keeps.scrubPart {j} {k} {sectors} {lines} {faults} : Keeps s₀ (s.scrubPart j k sectors lines faults) := by
  unfold State.scrubPart
  split
  · exact hs
  extract_lets tile s1 t f ecc s2
  have hs1 : Keeps s₀ s1 := .ite hs.scrubTile hs
  exact .ite (.foldl (.foldl hs1 fun _ _ hu => hu.corrected) fun _ _ hu => hu.nearUe) hs1

theorem Keeps.blockDone {jid} {p} {fault} : Keeps s₀ (s.blockDone jid p fault) := by
  unfold State.blockDone
  split
  · refine .ite hs ?_
    split
    · exact hs
    · exact .ite (.ite hs.letGo.putJob.dispatch.unitFault hs.letGo.putJob.unitFault) hs.pipeDone.putJob
  · exact hs

theorem Keeps.takeBlock {j} {b} {pipe} {cause} {bytes} : Keeps s₀ (s.takeBlock j b pipe cause bytes) := by
  unfold State.takeBlock
  extract_lets j1 stop
  refine .ite ?_ (.ite (.ite hs.wr.wr.wr.putJob (.ite hs.putJob (.ite hs.putJob hs.putJob))) hs.putJob)
  split <;> exact hs.putJob

theorem Keeps.takeBlocks {fuel} {id} : Keeps s₀ (State.takeBlocks fuel s id) := by
  induction fuel generalizing s with
  | zero => exact hs
  | succ fuel ih =>
    unfold State.takeBlocks
    split
    · exact hs
    split
    · split
      · exact ih hs.takeBlock
      · exact hs
    · exact hs

theorem Keeps.runBlocks {id} : Keeps s₀ (s.runBlocks id) := by
  unfold State.runBlocks
  extract_lets s0 _ s1
  have hs0 : Keeps s₀ s0 := by
    unfold s0
    split
    · exact .ite hs.putJob hs
    · exact hs
  have hs1 : Keeps s₀ s1 := hs0.takeBlocks
  split
  · exact hs1
  refine .ite hs1 ?_
  split
  · exact hs1.putJob
  refine .ite ?_ hs1
  extract_lets
  split <;> exact hs1.putJob

theorem Keeps.takeSource {j} {p} : Keeps s₀ (s.takeSource j p) := .ite hs.putJob hs.putJob

theorem Keeps.takePart {j} {p} {sectors} {lines} {faults} : Keeps s₀ (s.takePart j p sectors lines faults) := by
  unfold State.takePart
  extract_lets s1 _ s2
  have hs1 : Keeps s₀ s1 := hs.outSub.slotDone
  have hs2 : Keeps s₀ s2 := .ite hs1.putJob.scrubPart hs1
  refine .ite (.ite hs2.raise.putJob hs2.putJob) ?_
  refine .ite hs1.takeSource ?_
  refine .ite hs1.putJob ?_
  split <;> exact hs1.putJob

theorem Keeps.takeParts {fuel} {id} {sectors} {lines} {faults} :
    Keeps s₀ (State.takeParts fuel s id sectors lines faults) := by
  induction fuel generalizing s sectors lines faults with
  | zero => exact hs
  | succ fuel ih =>
    unfold State.takeParts
    split
    · exact hs
    split
    · exact hs
    · exact .ite (ih hs.takePart) hs

theorem Keeps.followUp {id} : Keeps s₀ (s.followUp id) := by
  unfold State.followUp
  split
  · exact hs
  refine .foldl hs fun _ _ hu => ?_
  split
  · exact hu
  refine .ite hu (.ite hu.beginWrites (.ite ?_ hu))
  split
  · exact hu.putJob
  · exact .ite hu.putJob (.getD hu.putJob.beginDemotion hu)

theorem Keeps.admitParts {fuel} {id} : Keeps s₀ (State.admitParts fuel s id) := by
  induction fuel generalizing s with
  | zero => exact hs
  | succ fuel ih =>
    unfold State.admitParts
    split
    · exact hs
    refine .ite hs ?_
    split
    · rename_i s1 heq
      exact ih (Yields.ite hs.nextTilePart hs.nextPart _ heq)
    · exact hs

theorem Keeps.wholeDone {j} : Keeps s₀ (s.wholeDone j) := by
  unfold State.wholeDone
  refine .ite hs.endJob ?_
  refine .ite ?_ ?_
  · split
    · exact .ite hs.endJob hs
    · exact hs
  refine .ite hs.endJob ?_
  split <;> exact hs.endJob

theorem Keeps.runParts {id} {sectors} {lines} {faults} : Keeps s₀ (s.runParts id sectors lines faults) := by
  unfold State.runParts
  extract_lets s1
  have hs1 : Keeps s₀ s1 := hs.followUp.takeParts.runBlocks
  split
  · exact hs1
  refine .ite hs1 ?_
  refine .ite (.ite hs1.putJob.outSub.spoilRest.endJob hs1.putJob.outSub) ?_
  exact .ite (.ite hs1 hs1.endJob) (.admitParts (.ite hs1.wholeDone hs1))

theorem Keeps.runJob {id} {sectors} {lines} {faults} : Keeps s₀ (s.runJob id sectors lines faults) :=
  hs.runParts.dispatch

theorem Keeps.startJob {id} {op} {begin_ : State → Job → State} (hbegin_ : ∀ u a, Keeps s₀ u → Keeps s₀ (begin_ u a)) :
    Keeps s₀ (s.startJob id op begin_) := by
  unfold State.startJob
  split
  · exact hs
  · exact .ite hs ((hbegin_ _ _ hs.putJob).runJob.runJob.postAll)

theorem Keeps.codecStart {j} : Keeps s₀ (s.codecStart j) := .ite hs.endJob (.ite hs.putJob hs)

theorem Keeps.execNop {jid} : Ends s₀ (execNop jid s) := .next (hs.startJob (fun _ _ hu => hu.endJob))

theorem Keeps.execFence {jid} : Ends s₀ (execFence jid s) := .next (hs.startJob (fun _ _ hu => hu.endJob))

theorem Keeps.execCopy {jid} : Ends s₀ (execCopy jid s) := .next (hs.startJob (fun _ _ hu => hu))

theorem Keeps.execFill {jid} : Ends s₀ (execFill jid s) := .next (hs.startJob (fun _ _ hu => hu))

theorem Keeps.execZero {jid} : Ends s₀ (execZero jid s) := .next (hs.startJob (fun _ _ hu => hu))

theorem Keeps.execCompress {jid} : Ends s₀ (execCompress jid s) := .next (hs.startJob (fun _ _ hu => hu.codecStart))

theorem Keeps.execDecompress {jid} : Ends s₀ (execDecompress jid s) := .next (hs.startJob (fun _ _ hu => hu.codecStart))

theorem Keeps.execChecksum {jid} : Ends s₀ (execChecksum jid s) := .next (hs.startJob (fun _ _ hu => hu.codecStart))

theorem Keeps.execPromote {jid} : Ends s₀ (execPromote jid s) := .next (hs.startJob (fun _ _ hu => hu))

theorem Keeps.execDemote {jid} : Ends s₀ (execDemote jid s) := .next (hs.startJob (fun _ _ hu => .ite hu.endJob hu))

theorem Keeps.execPin {jid} : Ends s₀ (execPin jid s) := .next (hs.startJob (fun _ _ hu => hu))

theorem Keeps.execUnpin {jid} : Ends s₀ (execUnpin jid s) := .next (hs.startJob (fun _ _ hu => hu))

theorem Keeps.execRetire {jid} : Ends s₀ (execRetire jid s) := .next (hs.startJob (fun _ _ hu => .ite hu.endJob hu))

theorem Keeps.rekeyJob {j} : Keeps s₀ (s.rekeyJob j) := by
  unfold State.rekeyJob
  split
  · rename_i s1 st d heq
    have hs1 : Keeps s₀ s1 := hs.jobTarget _ heq
    exact hs1.endJob
  · exact .ite hs.endJob (.ite hs.setCry (.ite hs.raise.drawn.endJob hs.startRekey.setCry))

theorem Keeps.execRekey {jid} : Ends s₀ (execRekey jid s) := .next (hs.startJob (fun _ _ hu => hu.rekeyJob))

theorem Keeps.execScrubRange {jid} : Ends s₀ (execScrubRange jid s) := .next (hs.startJob (fun _ _ hu => hu))

theorem Keeps.execJobPartDone {jid} {found} {pipes} : Ends s₀ (execJobPartDone jid found pipes s) := by
  unfold Machine.execJobPartDone
  refine .next (.ite hs ?_)
  split
  · exact hs
  · exact .postAll (.runJob (.runJob (.foldl (.ite hs.endJob hs) fun _ _ hu => hu.blockDone)))

/-! ## Queue commands (JobQueues) -/

theorem Keeps.putQueue {q} {h} {l} {img} : Replies s₀ (s.putQueue q h l img) :=
  .ite (.ite .err (.ok hs.setCtx)) (.ok (.ite hs.setCtx.setJob hs.setCtx.setJob.queueError))

theorem Keeps.queueSet {src} {p} : Keeps s₀ (s.queueSet src p) := by
  unfold State.queueSet
  refine .avsar hs fun _ hu => ?_
  extract_lets
  split
  · exact .err
  · exact .ite .err hu.touchCtx.ctxLost.putQueue

theorem Keeps.execQueueSet {src} {payload} : Ends s₀ (execQueueSet src payload s) := .next hs.queueSet

theorem Keeps.queueDisable {src} {p} : Keeps s₀ (s.queueDisable src p) := by
  unfold State.queueDisable
  extract_lets _ _ k _ s1
  have hk : Keeps s₀ k := hs.knock
  have hs1 : Keeps s₀ s1 := hk.setJob
  refine .ite hs1.abortJobs.postAll ?_
  refine .avsar hs fun _ hu => ?_
  split
  · exact .err
  · exact .ite .err (.ite .err (.ok hu.touchCtx.ctxLost.setCtx))

theorem Keeps.execQueueDisable {src} {payload} : Ends s₀ (execQueueDisable src payload s) := .next hs.queueDisable

theorem Keeps.queueQuery {src} {p} : Keeps s₀ (s.queueQuery src p) := by
  unfold State.queueQuery
  refine .avsar hs fun _ hu => ?_
  extract_lets _ s1
  have hs1 : Keeps s₀ s1 := hu.touchCtx.ctxLost
  split
  · exact .err
  · exact .ok hs1

theorem Keeps.execQueueQuery {src} {payload} : Ends s₀ (execQueueQuery src payload s) := .next hs.queueQuery

theorem Keeps.tookTurn {q} : Keeps s₀ (s.tookTurn q) := hs.setJob

theorem Keeps.fetch {q} : Keeps s₀ (s.fetch q) := by
  unfold State.fetch
  extract_lets _ s1
  have hs1 : Keeps s₀ s1 := hs.touchCtx.ctxLost
  refine .ite hs1.tookTurn.queueError ?_
  split
  · exact hs
  refine .ite hs ?_
  split
  · exact hs
  · rename_i s2 heq
    have hs2 : Keeps s₀ s2 := hs1.admitPart _ heq
    exact hs2.tookTurn.setJob.setCtx.jobServe.postAll

theorem Keeps.execDescriptorFetch {q} : Ends s₀ (execDescriptorFetch q s) :=
  .next (.ite hs (.ite hs.touchCtx.ctxLost.fetch hs.touchCtx.ctxLost))

theorem Keeps.execCoalTimeExpiry {q} : Ends s₀ (execCoalTimeExpiry q s) := by
  unfold Machine.execCoalTimeExpiry
  refine .next ?_
  split
  · exact .ite hs.setJob.msix hs
  · exact hs

/-! ## Power states (Power) -/

theorem Keeps.stopMove {m} : Keeps s₀ (s.stopMove m) := by
  unfold State.stopMove
  split
  · exact hs.abortDemotion
  · extract_lets s1 s2
    have hs1 : Keeps s₀ s1 := hs.dropMove.issued
    have hs2 : Keeps s₀ s2 := by
      unfold s2
      split
      · exact .ite hs1.freeFte hs1
      · exact hs1
    exact hs2.leaveMove
  · exact hs.dropMove.issued

theorem Keeps.stopMoves : Keeps s₀ s.stopMoves := .foldl hs fun _ _ hu => hu.stopMove

theorem Keeps.admRest : Keeps s₀ s.admRest := hs.setAdm

theorem Keeps.clxRest {requester} : Keeps s₀ (s.clxRest requester) := by
  have hs1 : Keeps s₀ (s.clx.done.foldl State.farApplied s) := .foldl hs fun _ _ hu => hu.farApplied
  refine ⟨hs1.queue, fun h₀ => ?_⟩
  obtain ⟨hmap, hwords, hnear, hbulk, hflash, -⟩ := hs1.canonical h₀
  exact ⟨hmap, hwords, hnear, hbulk, hflash, rfl⟩

theorem Keeps.ctlRest : Keeps s₀ s.ctlRest := hs.setCtl

theorem Keeps.memRest : Keeps s₀ s.memRest := hs.setMem

theorem Keeps.drainedStatus {keys} :
    Keeps s₀ (s.drainedStatus keys) := .foldl hs fun _ _ hu => hu.chanStatus.wrI ite_fits

theorem Keeps.srBulk : Keeps s₀ s.srBulk := hs.setMem.drainedStatus.bump

theorem Keeps.srNear : Keeps s₀ s.srNear := hs.setMem.drainedStatus.bump.wr.wr

theorem Keeps.execSelfRefreshBulkCommit : Ends s₀ (execSelfRefreshBulkCommit s) := by
  unfold Machine.execSelfRefreshBulkCommit
  refine .next (.ite hs ?_)
  exact .ite (.ite hs.stopMoves.writeBack.srBulk.setEntry hs) (.ite hs.writeBack.srBulk hs)

theorem Keeps.execSelfRefreshNearCommit : Ends s₀ (execSelfRefreshNearCommit s) := .next (.ite hs hs.srNear)

theorem Keeps.execSelfRefreshExitDone {tier} : Ends s₀ (execSelfRefreshExitDone tier s) :=
  .next (.ite hs hs.srDone.resumeWhy)

theorem Keeps.refusePower {arc} {detail} : Replies s₀ (s.refusePower arc detail) := .raised hs.wr.raise

theorem Keeps.powerChecks {src} {t} : Replies s₀ (s.powerChecks src t) := by
  unfold State.powerChecks
  refine .ite hs.refusePower ?_
  refine .ite hs.refusePower ?_
  refine .ite hs.refusePower ?_
  refine .ite hs.refusePower ?_
  refine .ite hs.refusePower ?_
  exact .ite hs.refusePower (.ite hs.refusePower (.ite hs.refusePower (.ok hs.wr.wr.wr.setEntry)))

theorem Keeps.setPowerState {src} {p} : Keeps s₀ (s.setPowerState src p) := hs.avsar (fun _ hu => hu.powerChecks)

theorem Keeps.execSetPowerState {src} {payload} : Ends s₀ (execSetPowerState src payload s) := .next hs.setPowerState

theorem Keeps.getPowerState {src} {p} : Keeps s₀ (s.getPowerState src p) := hs.avsar (fun _ hu => .ok hu)

theorem Keeps.execGetPowerState {src} {payload} : Ends s₀ (execGetPowerState src payload s) := .next hs.getPowerState

theorem Keeps.entered {cnt} (hcnt : cnt.width ≤ 64 := by exact Nat.le_of_ble_eq_true rfl) :
    Keeps s₀ (s.entered cnt) := by
  unfold State.entered
  extract_lets s1 _ s2
  have hs1 : Keeps s₀ s1 := hs.wr.wr.wr.wr.bump hcnt
  have hs2 : Keeps s₀ s2 := hs1.setEntry.raise
  split
  · exact hs2.wake
  · exact hs2

theorem Keeps.enterOff : Keeps s₀ s.enterOff := hs.blank.elsewhere.emit.emit

theorem Keeps.execAonEntryStart {pendingEvent} : Ends s₀ (execAonEntryStart pendingEvent s) := by
  unfold Machine.execAonEntryStart
  refine .next (.ite hs ?_)
  extract_lets _ s1 _ _ s2 s2'
  have hs1 : Keeps s₀ s1 := hs.wr
  have hs2 : Keeps s₀ s2 := hs1.setEntry
  have hs2' : Keeps s₀ s2' := hs1.setEntry.wr
  refine .ite hs1.endEntry ?_
  refine .ite hs1.entered ?_
  exact .ite hs2.wr.wr.srBegin (.ite hs2'.abortJobs.postAll.startSweep (.ite hs1.enterOff hs))

theorem Keeps.execP2EntryComplete : Ends s₀ (execP2EntryComplete s) := .next (.ite hs.entered hs)

theorem Keeps.canaryPut {x} {bs} : Keeps s₀ (s.canaryPut x bs) := .foldl hs fun _ _ hu => hu.putSectors

theorem Keeps.writeCanaries : Keeps s₀ s.writeCanaries :=
  .wr (.setMem (.wr (.wr (.foldl hs fun _ _ hu => hu.canaryPut))))

theorem Keeps.execFlushDone : Ends s₀ (execFlushDone s) :=
  .next (.ite hs.writeBack.wr.raise.writeCanaries.setEntry.srBegin hs)

theorem Keeps.nearOff : Keeps s₀ s.nearOff := by
  unfold State.nearOff
  extract_lets s1
  have hs1 : Keeps s₀ s1 := .foldl hs fun _ _ hu => hu.setTme
  exact hs1.withNearMem fun _ => rfl

theorem Keeps.coreOff : Keeps s₀ s.coreOff := by
  unfold State.coreOff
  extract_lets s1 _ s2 s3 _ s4 _ s5 _ s6
  have hs1 : Keeps s₀ s1 := hs.stopMoves.nearOff.writeBack
  have hs2 : Keeps s₀ s2 := hs1.setTmu.setCdc
  have hs3 : Keeps s₀ s3 := hs2.dirClear.resetQueues.admRest.clxRest.ctlRest.memRest
  have hs4 : Keeps s₀ s4 := hs3.setScr
  have hs5 : Keeps s₀ s5 := hs4.setCry
  have hs6 : Keeps s₀ s6 := hs5.setHlx.setRas
  exact hs6.setEvt

theorem Keeps.saveTime : Keeps s₀ s.saveTime := hs.setTime

theorem Keeps.execP3PowerDown : Ends s₀ (execP3PowerDown s) := by
  unfold Machine.execP3PowerDown
  refine .next (.ite ?_ hs)
  extract_lets s1 _ s2 _ s3 s4
  have hs2 : Keeps s₀ s2 := hs.srBulk.coreOff.saveTime.setMem
  have hs3 : Keeps s₀ s3 := .foldl hs2.setCtl.p3Regs.wr fun _ _ hu => hu.wrI
  exact hs3.setAon.emit.entered

theorem Keeps.leaveOff : Keeps s₀ s.leaveOff := hs.cold.wr

theorem Keeps.wakePin : Keeps s₀ s.wakePin := .ite hs.leaveOff (.ite hs (.ite hs.cold (.ite hs.retrySupplies hs.wake)))

theorem Keeps.execWakeEvent {code} : Ends s₀ (execWakeEvent code s) := .next (.ite (.ite hs.wakePin hs) hs.wake)

theorem Keeps.execP2EntryRetry : Ends s₀ (execP2EntryRetry s) := .next (.ite hs.setEntry.wr.wr hs)

theorem Keeps.execCricketMatch {addr} : Ends s₀ (execCricketMatch addr s) := .next (.ite hs.bump.wake hs)

theorem Keeps.execWakeN : Ends s₀ (execWakeN s) := .next hs.wakePin

theorem Keeps.execEpochAlarm : Ends s₀ (execEpochAlarm s) := .next (.ite hs (.ite hs.raise.wake hs))

theorem Keeps.execP1ExitDone : Ends s₀ (execP1ExitDone s) := .next (.ite hs.exitP1 hs)

theorem Keeps.execP2ExitDone : Ends s₀ (execP2ExitDone s) := .next (.ite hs.p2Regs.wr.wr.setEntry.raise.resumeWhy hs)

theorem Keeps.execResumeAreaCheck {uncorrectable} : Ends s₀ (execResumeAreaCheck uncorrectable s) :=
  .next (.ite hs (.ite hs.runCopy.setCtl.wr hs.setCtl.wr.wr))

theorem Keeps.listBanks {l} : Keeps s₀ (s.listBanks l) := .foldl hs fun _ _ hu => hu.wrAt.wrAt.wrAt.wrAt

theorem Keeps.execCanaryCheck {bad} {corrected} {serials} : Ends s₀ (execCanaryCheck bad corrected serials s) := by
  unfold Machine.execCanaryCheck
  refine .next (.ite hs ?_)
  extract_lets _ _ s1 _ s2 s3
  have hs1 : Keeps s₀ s1 := .foldl hs fun _ _ hu => hu.corrected
  have hs2 : Keeps s₀ s2 := hs1.setMem.wr
  have hs3 : Keeps s₀ s3 := hs2.listBanks
  exact .ite hs2 hs3.raise.setRas

theorem Keeps.recordRetention : Keeps s₀ s.recordRetention := .ite hs hs.log

theorem Keeps.estimateTime {ticks} {switched} : Keeps s₀ (s.estimateTime ticks switched) := by
  unfold State.estimateTime
  split
  · exact hs
  · exact hs.wr.wr.setTime.wr.wr.wr.setQuality

theorem Keeps.execP3ExitDone {lsTicks} {switched} : Ends s₀ (execP3ExitDone lsTicks switched s) := by
  unfold Machine.execP3ExitDone
  refine .next (.ite hs ?_)
  extract_lets s0 s1 s2 _ s3 s4 s5 s6
  have hs0 : Keeps s₀ s0 := hs.estimateTime
  have hs1 : Keeps s₀ s1 := .foldl hs0 fun _ _ hu => .ite hu hu.loseRegion
  have hs2 : Keeps s₀ s2 := hs1.restartLog.recordRetention.recordCores
  have hs3 : Keeps s₀ s3 := hs2.setMem.openSets
  have hs4 : Keeps s₀ s4 := hs3.wr.wr.wr
  have hs5 : Keeps s₀ s5 := .foldl hs4 fun _ _ hu => hu.wr
  have hs6 : Keeps s₀ s6 := .ite hs5.writeDesc.raise hs5
  exact hs6.enterModes.aonSleepRegs.wr.wr.setEntry.watchService.raise

/-! ## Mailbox commands (Mailbox) -/

theorem Keeps.getInfo {src} {p} : Keeps s₀ (s.getInfo src p) := hs.avsar (fun _ hu => .ok hu)

theorem Keeps.execGetInfo {src} {payload} : Ends s₀ (execGetInfo src payload s) := .next hs.getInfo

theorem Keeps.getSpd {src} {p} : Keeps s₀ (s.getSpd src p) := by
  unfold State.getSpd
  extract_lets
  exact hs.avsar (fun _ hu => .ite .err (.ite .err (.ite .err (.ok hu))))

theorem Keeps.execGetSpd {src} {payload} : Ends s₀ (execGetSpd src payload s) := .next hs.getSpd

theorem Keeps.setRetainSets {src} {p} : Keeps s₀ (s.setRetainSets src p) := by
  unfold State.setRetainSets
  refine .avsar hs fun _ hu => ?_
  split
  · exact .err
  · exact .ite .err (.ok hu.wr)

theorem Keeps.execSetRetainSets {src} {payload} : Ends s₀ (execSetRetainSets src payload s) := .next hs.setRetainSets

theorem Keeps.dropSpare : Keeps s₀ s.dropSpare := .ite hs.setTmu.giveBack.wr.wr hs

theorem Keeps.takeSpare {id} : Keeps s₀ (s.takeSpare id) := hs.setTmu.keepRuns.wr.wr

theorem Keeps.setSpareSet {src} {p} : Keeps s₀ (s.setSpareSet src p) := by
  unfold State.setSpareSet
  extract_lets
  refine .avsar hs (fun _ hu => (.ite .err ?_))
  refine .ite .err ?_
  split
  · exact .err
  · exact .ite .err (.ite .err (.ite .err (.ok (.ite hu.dropSpare.wr.takeSpare hu.dropSpare.wr))))

theorem Keeps.execSetSpareSet {src} {payload} : Ends s₀ (execSetSpareSet src payload s) := .next hs.setSpareSet

theorem Keeps.applyHead {p} : Keeps s₀ (s.applyHead p) := by
  unfold State.applyHead
  extract_lets _ _ _ _ s1 s2 s3
  have hs1 : Keeps s₀ s1 := .ite hs.wrI hs
  have hs2 : Keeps s₀ s2 := .ite (.foldl hs1 fun _ _ hu => (hu.wrI permField_fits)) hs1
  have hs3 : Keeps s₀ s3 := hs2.wrI.wrI
  exact hs3.wrI

theorem Keeps.headConfig {src} {p} : Keeps s₀ (s.headConfig src p) := by
  unfold State.headConfig
  refine .avsar hs fun _ hu => ?_
  split
  · exact .err
  · exact .ite .err (.ite .err (.ok hu.applyHead))

theorem Keeps.execHeadConfig {src} {payload} : Ends s₀ (execHeadConfig src payload s) := .next hs.headConfig

theorem Keeps.execGetPoisonList {h} {l} {start} {limit} : Ends s₀ (execGetPoisonList h l start limit s) :=
  .next (hs.cxlCommand (fun _ hu => hu))

theorem Keeps.poisonWrite {h} {l} {opcode} {dpa} {data} {poison} :
    Keeps s₀ (s.poisonWrite h l opcode dpa data poison) := by
  unfold State.poisonWrite
  refine .cxlCommand hs fun _ hu => ?_
  extract_lets
  split
  · exact hu
  · exact .iteFst hu (.iteFst hu (.iteFst hu hu.present))

theorem Keeps.execInjectPoison {h} {l} {dpa} : Ends s₀ (execInjectPoison h l dpa s) := .next hs.poisonWrite

theorem Keeps.execClearPoison {h} {l} {dpa} {data} : Ends s₀ (execClearPoison h l dpa data s) := .next hs.poisonWrite

theorem Keeps.offerAnswered {h} {slot} : Keeps s₀ (s.offerAnswered h slot) := hs.setTmu

theorem Keeps.execDcAddAccept {h} {l} {slot} {grant} : Ends s₀ (execDcAddAccept h l slot grant s) := by
  unfold Machine.execDcAddAccept
  refine .next (.cxlCommand hs (fun _ hu => ?_))
  split
  · exact .iteFst hu.offerAnswered.wrI hu
  refine .iteFst ?_ hu
  split
  · rename_i s1 heq
    have hs1 : Keeps s₀ s1 := hu.grant _ heq
    exact hs1
  · exact hu

theorem Keeps.execDcAddRefuse {h} {l} {slot} : Ends s₀ (execDcAddRefuse h l slot s) :=
  .next (hs.cxlCommand (fun _ hu => .iteFst hu.offerAnswered.dcExpire hu))

theorem Keeps.execDcRelease {h} {l} {slot} : Ends s₀ (execDcRelease h l slot s) :=
  .next (hs.cxlCommand (fun _ hu => .iteFst hu.setOwner.dcExpire hu))

/-! ## Ports (Ports) -/

theorem Keeps.trained {n} {width} {rate} {flit} {cxl} : Keeps s₀ (s.trained n width rate flit cxl) := by
  unfold State.trained
  extract_lets _ _ _ _ _ _ s1 s2 s3
  have hs1 : Keeps s₀ s1 := hs.wrI.wrI.wrI.wrI.wrb
  have hs2 : Keeps s₀ s2 := .ite hs1.bump.raise hs1
  have hs3 : Keeps s₀ s3 := .ite hs2.raise hs2
  exact .watchService (.ite hs3 hs3.raise)

theorem Keeps.execLinkTrained {port} {width} {rate} {flit} {cxl} :
    Ends s₀ (execLinkTrained port width rate flit cxl s) :=
  .next (.ite hs.trained hs)

theorem Keeps.dropHead {h} : Keeps s₀ (s.dropHead h) := .dropRequests (.foldl hs fun _ _ hu => hu.leaveReq)

theorem Keeps.dropOffers {h} : Keeps s₀ (s.dropOffers h) := .foldl hs fun _ _ hu => hu.setTmu.dcExpire

theorem Keeps.portRegs {n} : Keeps s₀ (s.portRegs n) := by
  unfold State.portRegs
  extract_lets _ s1 s2
  have hs1 : Keeps s₀ s1 := .wrI (.foldl_fields hs id fun _ _ hf hu => (hu.wrI hf))
  have hs2 : Keeps s₀ s2 := .foldl hs1 fun _ _ hu => .foldl_fields hu id fun _ _ hf hv => (hv.wrI hf)
  exact hs2.setJob

theorem Keeps.headReset {h} : Keeps s₀ (s.headReset h) := hs.setDir.dirGone.startSweep.dropOffers

theorem Keeps.portReset {n} : Keeps s₀ (s.portReset n) :=
  .ite hs hs.dropHead.portRegs.bump.setCry.headReset.raise.watchService

theorem Keeps.execPortReset {port} : Ends s₀ (execPortReset port s) := .next (.ite hs hs.portReset)

theorem Keeps.clearLdEvents {h} {l} : Keeps s₀ (s.clearLdEvents h l) :=
  .setEvt (.wrI (.foldl hs fun _ _ hu => (hu.wrAt.wrI heldF_fits)))

theorem Keeps.clearInPlace {r} : Keeps s₀ (s.clearInPlace r) := by
  unfold State.clearInPlace
  extract_lets s1 _ s2 _ s4
  have hs1 : Keeps s₀ s1 := by
    unfold s1
    refine .foldl hs fun _ _ hu => ?_
    split
    · exact hu.abortDemotion
    · exact hu.dropMove.issued
  have hs2 : Keeps s₀ s2 := .foldl hs1 fun _ _ hu => .setTme (.ite hu hu.returnRun)
  have hs4 : Keeps s₀ s4 := hs2.setNear
  exact hs4.watchFree.raise.resumeWhy

theorem Keeps.functionRegs {h} {l} : Keeps s₀ (s.functionRegs h l) :=
  .wrAt (.wrAt (.foldl (.foldl_fields hs.wrI id fun _ _ hf hu => (hu.wrI hf)) fun _ _ hu => hu.wrAt))

theorem Keeps.execFunctionReset {h} {l} {memClr} : Ends s₀ (execFunctionReset h l memClr s) := by
  unfold Machine.execFunctionReset
  refine .next (.ite hs ?_)
  extract_lets _ s1 s2 s3 _ _ s4 _ _ _ s5
  have hs1 : Keeps s₀ s1 := hs.functionRegs.clearLd
  have hs2 : Keeps s₀ s2 := hs1.clearLdEvents.resetQueues
  have hs3 : Keeps s₀ s3 := hs2.headReset
  have hs4 : Keeps s₀ s4 := .foldl hs3 fun _ _ hu => hu.clearInPlace
  have hs5 : Keeps s₀ s5 := .foldl hs4.setHlx fun _ _ hu => hu.startDelete
  exact .ite hs3 hs5.setTmu

theorem Keeps.execMemclrDone {h} {l} : Ends s₀ (execMemclrDone h l s) := by
  unfold Machine.execMemclrDone
  refine .next ?_
  split
  · exact hs.setHlx.raise
  · exact hs

theorem Keeps.execHostViral {port} : Ends s₀ (execHostViral port s) := .next (.ite hs hs.wrI.wr.raise)

theorem Keeps.setIde {n} {stream} {on} : Keeps s₀ (s.setIde n stream on) := hs.setCry.wrb

theorem Keeps.execIdeIntegrityFailure {stream} : Ends s₀ (execIdeIntegrityFailure stream s) :=
  .next (.ite hs hs.bump.setIde.raise)

/-! ## Firmware (Firmware) -/

theorem Keeps.romCommand {h} {l} {opcode} {f : State → State × ℕ × List Byte}
    (hf : ∀ u, Keeps s₀ u → Keeps s₀ (f u).1) :
    Keeps s₀ (s.romCommand h l opcode f) :=
  .ite (.ite hs.reply ((hf _ hs).reply)) (hs.cxlCommand hf)

theorem Keeps.execIdentifyMemoryDevice {h} {l} : Ends s₀ (execIdentifyMemoryDevice h l s) :=
  .next (hs.romCommand (fun _ hu => hu))

theorem Keeps.execGetFwInfo {h} {l} : Ends s₀ (execGetFwInfo h l s) := .next (hs.romCommand (fun _ hu => .iteFst hu hu))

theorem Keeps.fwPart {copy} {off} {data} : Keeps s₀ (s.fwPart copy off data) :=
  .ite hs.setCtl (hs.withFlash fun hm => memWrite_wf _ _ _ _ (memWf_ite_filter hm))

theorem Keeps.execTransferFw {h} {l} {fwSlot} {offset} {data} {last} :
    Ends s₀ (execTransferFw h l fwSlot offset data last s) := by
  unfold Machine.execTransferFw
  refine .next (hs.romCommand fun u hu => ?_)
  refine .iteFst hu (.iteFst hu (.iteFst hu (.iteFst hu (.iteFst hu ?_))))
  extract_lets s1 x _ s2
  have hs2 : Keeps s₀ s2 := hu.fwPart.setCtl
  exact .iteFst hs2.setCtl hs2

theorem Keeps.execTransferFwDone {readErr} : Ends s₀ (execTransferFwDone readErr s) := by
  unfold Machine.execTransferFwDone
  refine .next ?_
  split
  · exact hs
  · exact .ite hs (.ite hs.setCtl.bgDone.runCopy hs.setCtl.bgDone)

theorem Keeps.execActivateFw {h} {l} {fwSlot} {online} : Ends s₀ (execActivateFw h l fwSlot online s) :=
  .next (hs.cxlCommand (fun _ hu => .iteFst hu (.iteFst hu hu.writeDesc)))

theorem Keeps.spdmAnswer {h} {l} {code} {out} : Keeps s₀ (s.spdmAnswer h l code out) := hs.emit

theorem Keeps.spdmSigned {h} {l} {sel} {out} : Keeps s₀ (s.spdmSigned h l sel out) := hs.spdmAnswer.drawn

theorem Keeps.spdm {h} {l} {msg} : Keeps s₀ (s.spdm h l msg) := by
  unfold State.spdm
  extract_lets
  split
  · exact .ite hs.spdmAnswer hs.spdmAnswer
  · refine .ite hs.spdmAnswer ?_
    exact .ite hs.spdmSigned (.ite hs.spdmSigned (.ite hs.spdmAnswer hs.spdmSigned))
  · exact hs.spdmAnswer
  · exact .ite hs.spdmAnswer hs.spdmSigned
  · exact .ite hs.spdmAnswer hs.setCtl.spdmSigned
  · exact .ite hs.setCtl.spdmAnswer hs.spdmAnswer
  · exact hs.spdmAnswer
  · exact hs.spdmAnswer

theorem Keeps.execSpdmMessage {h} {l} {msg} : Ends s₀ (execSpdmMessage h l msg s) := .next (.ite hs.knock.spdm hs.knock)

theorem Keeps.execIdeKmMessage {port} {msg} : Ends s₀ (execIdeKmMessage port msg s) := by
  unfold Machine.execIdeKmMessage
  refine .next ?_
  extract_lets s'
  have hs' : Keeps s₀ s' := hs.knock
  refine .ite hs' ?_
  refine .ite hs'.spdmAnswer ?_
  split
  · exact hs'.setCry.spdmAnswer
  · exact .ite hs'.setIde.spdmAnswer hs'.spdmAnswer
  · exact .spdmAnswer (.ite hs'.setCry hs'.setCry.setIde)

theorem Keeps.avsarOf {src} {opcode} {p} : Yields s₀ (s.avsarOf src opcode p) := by
  unfold State.avsarOf
  split
  · exact .some hs.getInfo
  · exact .some hs.regionCreate
  · exact .some hs.regionDelete
  · exact .some hs.regionSet
  · exact .some hs.regionGrant
  · exact .some hs.regionQuery
  · exact .some hs.setKeyMode
  · exact .some hs.loadWrapKey
  · exact .some hs.loadKeySlot
  · exact .some hs.clearKeySlot
  · exact .some hs.rekeyRegion
  · exact .some hs.setPowerState
  · exact .some hs.getPowerState
  · exact .some hs.setRetainSets
  · exact .some hs.setSpareSet
  · exact .some hs.evacuateSet
  · exact .some hs.clearRetention
  · exact .some hs.getSpd
  · exact .some hs.getErrorLog
  · exact .some hs.clearErrorLog
  · exact .some hs.headConfig
  · exact .some hs.setHoldCmd
  · exact .some hs.queueSet
  · exact .some hs.queueDisable
  · exact .some hs.queueQuery
  · exact .none

theorem Keeps.execSpdmSecuredAvsar {h} {l} {sid} {opcode} {payload} :
    Ends s₀ (execSpdmSecuredAvsar h l sid opcode payload s) := by
  unfold Machine.execSpdmSecuredAvsar
  refine .next ?_
  split
  · rename_i s1 heq
    have hs1 : Keeps s₀ s1 := hs.avsarOf _ heq
    exact hs1
  · exact .ite hs.knock.reply hs.knock

/-! ## Gates (Gates) -/

theorem Keeps.endLengthen {c} : Keeps s₀ (s.endLengthen c) := by
  unfold State.endLengthen
  split
  · exact hs.setAdm
  · exact hs

theorem Keeps.gateClass {l} {c} : Keeps s₀ (s.gateClass l c) := by
  unfold State.gateClass
  extract_lets
  split
  · exact .ite hs.setAdm.bump.raise hs
  · exact .ite (.ite hs hs.setAdm) (.ite hs.setAdm hs)

theorem Keeps.gateRefresh {l} : Keeps s₀ (s.gateRefresh l) :=
  .ite (.foldl hs.setAdm fun _ _ hu => .ite hu.windowOpens hu) hs.setAdm

theorem Keeps.applyGates : Keeps s₀ s.applyGates := .gateRefresh (.foldl hs fun _ _ hu => hu.gateClass)

theorem Keeps.execMinwinEnd {c} : Ends s₀ (execMinwinEnd c s) := .next (.ite hs hs.endLengthen)

theorem Keeps.cycleStart : Keeps s₀ s.cycleStart := .ite hs.setAdm.wr.wr.raise hs.setAdm

theorem Keeps.execGclSwap : Ends s₀ (execGclSwap s) := .next (.ite hs.cycleStart hs)

theorem Keeps.execGclSwapRequest {path} : Ends s₀ (execGclSwapRequest path s) := .next (hs.viaPath (fun _ hu => hu.wr))

theorem Keeps.judge : Keeps s₀ s.judge := .foldl hs fun _ _ hu => hu.wr.raise

theorem Keeps.endMonitor {judged} : Keeps s₀ (s.endMonitor judged) := .setAdm (.ite hs.judge hs)

theorem Keeps.execMonitorWindowEnd : Ends s₀ (execMonitorWindowEnd s) := .next (.ite hs.endMonitor hs)

theorem Keeps.monitorEpoch : Keeps s₀ s.monitorEpoch := by
  unfold State.monitorEpoch
  extract_lets _ s1
  have hs1 : Keeps s₀ s1 := .ite (.ite hs.endMonitor (.ite hs.endMonitor hs)) hs
  exact .ite hs1.setAdm hs1

theorem Keeps.monitorTick : Keeps s₀ s.monitorTick := .ite hs hs.setAdm

theorem Keeps.binUp {f0} {f1} {i} {c} {b} (hf0 : f0.width ≤ 64 := by exact Nat.le_of_ble_eq_true rfl)
    (hf1 : f1.width ≤ 64 := by exact Nat.le_of_ble_eq_true rfl) : Keeps s₀ (s.binUp f0 f1 i c b) :=
  hs.bump (ite_fits hf0 hf1)

theorem Keeps.sampleQueues : Keeps s₀ s.sampleQueues := .foldl hs fun _ _ hu => .foldl hu fun _ _ hv => hv.binUp.binUp

theorem Keeps.nextTick : Yields s₀ s.nextTick := .ite (.some hs.setTime) (.ite (.some hs.wr) .none)

theorem Keeps.countMinwin : Keeps s₀ s.countMinwin := .setAdm (.foldl hs fun _ _ hu => hu.endLengthen)

theorem Keeps.admTick {first} : Keeps s₀ (s.admTick first) := by
  unfold State.admTick
  extract_lets s1 _ s2
  have hs1 : Keeps s₀ s1 := by
    unfold s1
    exact .ite hs.monitorEpoch hs
  have hs2 : Keeps s₀ s2 := hs1.setAdm.countMinwin.applyGates
  exact hs2.monitorTick.sampleQueues

theorem Keeps.execGateTick : Ends s₀ (execGateTick s) := by
  unfold Machine.execGateTick
  refine .next (.ite hs ?_)
  extract_lets _ s0
  have hs0 : Keeps s₀ s0 := .ite hs.cycleStart hs
  split
  · exact hs
  · rename_i s1 heq
    have hs1 : Keeps s₀ s1 := hs0.nextTick _ heq
    exact .ite hs1.admTick hs1

theorem Keeps.recompute : Keeps s₀ s.recompute := by
  unfold State.recompute
  extract_lets _ _ _ s1 s2 s3 s4
  have hs1 : Keeps s₀ s1 := hs.wr.wr.wr.wr
  have hs2 : Keeps s₀ s2 := .foldl hs1 fun _ _ hu => hu.wrI
  have hs3 : Keeps s₀ s3 := .ite hs2 hs2.raise
  have hs4 : Keeps s₀ s4 := .ite hs3.raise hs3
  exact hs4.setAdm

theorem Keeps.execFloorRecompute : Ends s₀ (execFloorRecompute s) := .next (.ite hs.recompute hs)

/-! ## Reset commands (Resets) -/

theorem Keeps.execPowerOnReset : Ends s₀ (execPowerOnReset s) := .next hs.coldCause

theorem Keeps.execColdCmd {path} : Ends s₀ (execColdCmd path s) :=
  .next (hs.viaPath (fun _ hu => .ite hu (.ite hu.retrySupplies hu.coldCause)))

theorem Keeps.execResetNLow {low} : Ends s₀ (execResetNLow low s) := .next (.ite hs.setAon.warm hs.setAon)

theorem Keeps.execWarmReq {path} : Ends s₀ (execWarmReq path s) := .next (hs.viaPath (fun _ hu => hu.warm))

theorem Keeps.brownAgain : Keeps s₀ s.brownAgain := .ite hs.wr.setAdm hs

theorem Keeps.warmHold : Keeps s₀ s.warmHold := by
  unfold State.warmHold
  extract_lets s1 _ _ s2 s3 _ s4 _ _ s5 s6 s7 _ s8 _ s9
  have hs2 : Keeps s₀ s2 := hs.stopMoves.writeBack.setTmu.setCdc.setNear (by rfl)
  have hs5 : Keeps s₀ s5 := hs2.dirClear.resetQueues.admRest.clxRest.ctlRest.memRest.setScr.setCry.setHlx.setRas
  have hs7 : Keeps s₀ s7 := hs5.setEvt.warmRegs.wr.wr.wr
  have hs8 : Keeps s₀ s8 := hs7.setCtl
  exact .foldl hs8.setAon.brownAgain fun _ _ hu => hu.raise

theorem Keeps.execQuiesceDone : Ends s₀ (execQuiesceDone s) := .next (.ite hs.warmHold hs)

theorem Keeps.execQuiesceTimeout : Ends s₀ (execQuiesceTimeout s) := .next (.ite hs.warmLost hs)

theorem Keeps.execResetRelease : Ends s₀ (execResetRelease s) := .next (.ite hs.setAon.emit hs)

theorem Keeps.pllLost {pll} : Keeps s₀ (s.pllLost pll) := by
  unfold State.pllLost
  refine .ite (.ite hs.warmLost hs.setAon.warm) ?_
  refine .ite hs.warmLost ?_
  exact .ite hs.warm (.ite (.ite hs (.foldl hs fun _ _ hu => hu.portReset)) hs.clDown)

theorem Keeps.execPllLockLoss {pll} : Ends s₀ (execPllLockLoss pll s) :=
  .next (.ite hs (.ite hs.wr.setAon hs.wr.setAon.wr.raise.pllLost))

theorem Keeps.d2dLost {k} : Keeps s₀ (s.d2dLost k) := by
  unfold State.d2dLost
  refine .ite hs ?_
  extract_lets s1 s2
  have hs1 : Keeps s₀ s1 := hs.wr.raise
  have hs2 : Keeps s₀ s2 := .ite hs1.clDown hs1
  exact .ite hs2.setCtl hs2.warm

theorem Keeps.execD2dLinkLost {k} : Ends s₀ (execD2dLinkLost k s) := .next hs.d2dLost

theorem Keeps.execD2dTransferReplay {k} {failures} : Ends s₀ (execD2dTransferReplay k failures s) :=
  .next (.ite hs (.ite hs.d2dLost hs.setAon))

theorem Keeps.endFar {f} : Keeps s₀ (s.endFar f) := by
  unfold State.endFar
  split
  · exact .ite hs.jobWrote hs.jobRead
  · exact hs.leaveReq

theorem Keeps.resetClx : Keeps s₀ s.resetClx := by
  unfold State.resetClx
  extract_lets s1 s2 _ _ s3 s4
  have hs1 : Keeps s₀ s1 := .dropRequests (.foldl hs fun _ _ hu => hu.leaveReq)
  have hs2 : Keeps s₀ s2 := .foldl hs1 fun _ _ hu => hu.farApplied
  have hs3 : Keeps s₀ s3 := hs2.setClx
  have hs4 : Keeps s₀ s4 := .foldl hs3 fun _ _ hu => hu.wrI.wrI
  exact .foldl hs4.clDown.clDown fun _ _ hu => hu.endFar

theorem Keeps.abortMove {m} : Keeps s₀ (s.abortMove m) := by
  unfold State.abortMove
  refine .ite hs ?_
  split
  · exact hs.stopMove.waitFor
  · exact hs.stopMove

theorem Keeps.resetScr : Keeps s₀ s.resetScr := .endSilently (.foldl hs fun _ _ hu => hu.abortMove)

theorem Keeps.resetEvt : Keeps s₀ s.resetEvt := .foldl hs.setEvt.wr.wr fun _ _ hu => hu.wrAt

theorem Keeps.blockEffect {b} : Keeps s₀ (s.blockEffect b) := by
  unfold State.blockEffect
  refine .ite (.foldl hs fun _ _ hu => hu.portReset) ?_
  refine .ite hs.resetClx ?_
  refine .ite hs.setDir ?_
  refine .ite hs.setCdc ?_
  exact .ite hs.resetScr (.ite hs.keepRegs (.ite hs.resetEvt (.ite hs.setEvt.wr hs)))

theorem Keeps.resetBlock {b} : Keeps s₀ (s.resetBlock b) :=
  .ite hs.wr (.ite hs.wr.warm hs.wr.wr.blockEffect.setAon.blockRegs)

theorem Keeps.execBlkRstReq {path} {block} : Ends s₀ (execBlkRstReq path block s) :=
  .next (hs.viaPath (fun _ hu => hu.resetBlock))

/-! ## Register accesses (RegAccess) -/

theorem Keeps.badWidth : Keeps s₀ s.badWidth := hs.bump

theorem Keeps.freeEntries {v} : Keeps s₀ (s.freeEntries v) := hs.setEvt.wr

theorem Keeps.newBucket {g} : Keeps s₀ (s.newBucket g) := hs.setBucket

theorem Keeps.lowerPinMax {v} : Keeps s₀ (s.lowerPinMax v) := .ite hs.wr.raise hs.wr

theorem Keeps.store {p} {f} {i} {k} {v} (hf : f.width ≤ 64 := by exact Nat.le_of_ble_eq_true rfl) :
    Keeps s₀ (s.store p f i k v) := by
  unfold State.store
  refine .ite hs.newBucket ?_
  refine .ite hs.newBucket ?_
  refine .ite (hs.wrAt hf) ?_
  refine .ite hs.putHold ?_
  refine .ite hs.putHold ?_
  refine .ite hs.lowerPinMax ?_
  refine .ite hs.consume ?_
  refine .ite hs.freeEntries ?_
  refine .ite ?_ (hs.wrAt hf)
  split
  · rename_i t heq
    have ht : Keeps s₀ t := hs.execClPortEnable.ofNext heq
    exact ht
  · exact hs

theorem Keeps.clearOnes {f} {i} {k} {n} (hf : f.width ≤ 64 := by exact Nat.le_of_ble_eq_true rfl) :
    Keeps s₀ (s.clearOnes f i k n) :=
  .ite ((hs.wrAt hf).emit) (hs.wrAt hf)

theorem Keeps.settle {blk} {page} {off} : Keeps s₀ (s.settle blk page off) := by
  unfold State.settle
  refine .ite hs.wr.watchFree ?_
  refine .ite hs.wr.wr ?_
  refine .ite hs.wr.wr ?_
  refine .ite hs.wr.setAdm ?_
  exact .ite hs.setAdm (.ite hs.guardBands (.ite (.ite hs.setEntry (.ite hs.setEntry hs)) hs))

theorem Keeps.run {r : State → Result} (hr : ∀ u, Keeps s₀ u → Ends s₀ (r u)) : Keeps s₀ (s.run r) := by
  unfold State.run
  split
  · rename_i t heq
    have ht : Keeps s₀ t := (hr _ hs).ofNext heq
    exact ht
  · exact hs

theorem Keeps.act {p} {f} {i} {v} : Keeps s₀ (s.act p f i v) := by
  unfold State.act
  refine .ite ?_ ?_
  · refine .ite (hs.run (fun _ hu => hu.execCdcPipeActivate)) ?_
    refine .ite (hs.run (fun _ hu => hu.execCdcPipeDrain)) ?_
    exact .ite (hs.run (fun _ hu => hu.execCdcPipeFail)) hs
  refine .ite ?_ ?_
  · refine .ite ((hs.run (fun _ hu => hu.execCryPipeActivate)).drawn) ?_
    refine .ite (hs.run (fun _ hu => hu.execCryPipeDrain)) ?_
    exact .ite (hs.run (fun _ hu => hu.execCryPipeFail)) hs
  refine .ite ?_ ?_
  · refine .ite (hs.run (fun _ hu => hu.execScrEngActivate)) ?_
    refine .ite (hs.run (fun _ hu => hu.execScrEngDrain)) ?_
    exact .ite (hs.run (fun _ hu => hu.execScrEngFail)) hs
  refine .ite ?_ ?_
  · refine .ite (hs.run (fun _ hu => hu.execCtlCoreActivate)) ?_
    exact .ite (hs.run (fun _ hu => hu.execCtlCoreFail)) hs
  refine .ite hs ?_
  refine .ite (hs.run (fun _ hu => hu.execClRetrain)) ?_
  refine .ite (hs.run (fun _ hu => hu.execClMark)) ?_
  refine .ite (hs.run (fun _ hu => hu.execKick)) ?_
  refine .ite (hs.run (fun _ hu => hu.execGclSwapRequest)) ?_
  refine .ite (hs.run (fun _ hu => hu.execEvtFmTest)) ?_
  refine .ite (hs.run (fun _ hu => hu.execEvtLdTest)) ?_
  refine .ite (hs.run (fun _ hu => hu.execNow)) ?_
  refine .ite (hs.run (fun _ hu => hu.execWarmReq)) ?_
  exact .ite (hs.run (fun _ hu => hu.execColdCmd)) (.ite (hs.run (fun _ hu => hu.execBlkRstReq)) hs)

theorem Keeps.actWay {p} {bank} {way} {v} : Keeps s₀ (s.actWay p bank way v) := by
  unfold State.actWay
  refine .ite (hs.run (fun _ hu => hu.execDirBankActivate)) ?_
  exact .ite (hs.run (fun _ hu => hu.execDirBankFail)) hs

theorem Keeps.writeFields {p} {blk} {page} {off} {m} {d} : Keeps s₀ (s.writeFields p blk page off m d) := by
  unfold State.writeFields
  extract_lets l s1 s2 s3 w
  have hl : ∀ x ∈ l, x.1.width ≤ 64 := fun x hx => fits_of_mem_fieldsAt (List.mem_of_mem_filter hx)
  have hs1 : Keeps s₀ s1 := .foldl_mem hs fun _ x hx hu => hu.store (hl x (List.mem_of_mem_filter hx))
  have hs2 : Keeps s₀ s2 := .ite hs1 hs1.settle
  have hs3 : Keeps s₀ s3 := .foldl_mem hs2 fun _ x hx hu => hu.clearOnes (hl x (List.mem_of_mem_filter hx))
  exact .ite hs3.actWay (.foldl hs3 fun _ _ hu => hu.act)

theorem Keeps.setLock {blk} : Keeps s₀ (s.setLock blk) := hs.wr

theorem Keeps.writeHeader {p} {blk} {page} {off} {m} {d} : Keeps s₀ (s.writeHeader p blk page off m d) := by
  unfold State.writeHeader
  extract_lets _ _ _ s1
  have hs1 : Keeps s₀ s1 := .ite hs hs.denied
  refine .ite (.ite hs1.setLock (.ite hs.denied hs)) ?_
  refine .ite (.ite (.ite hs.wrI hs) (.ite hs.denied hs)) ?_
  exact .ite (.ite hs.wrI (.ite hs.denied hs)) (.ite hs.denied hs)

theorem Keeps.writeReg {p} {addr} {width} {v} : Keeps s₀ (s.writeReg p addr width v) :=
  .ite hs.writeHeader (.writeFields (.ite hs.denied hs))

theorem Keeps.clearRc {blk} {page} {off} {m} : Keeps s₀ (s.clearRc blk page off m) :=
  .foldl_mem hs fun _ _ hx hu => (Keeps.ite hu.setCry hu).wrAt (fits_of_mem_fieldsAt (List.mem_of_mem_filter hx))

theorem Keeps.dropShadow {p} : Keeps s₀ (s.dropShadow p) := hs.setHlx

theorem Keeps.readReg {p} {addr} {width} : Keeps s₀ (s.readReg p addr width).2 := by
  unfold State.readReg
  extract_lets _ _ _ _ s1 s2
  have hs1 : Keeps s₀ s1 := hs.dropShadow
  have hs2 : Keeps s₀ s2 := hs1.clearRc
  refine .iteSnd hs1 ?_
  refine .iteSnd hs1.clearRc ?_
  refine .iteSnd hs2.setHlx ?_
  split
  · exact hs1
  · exact hs1.clearRc

theorem Keeps.mboxDoorbell {src} {opcode} : Keeps s₀ (s.mboxDoorbell src opcode) := .ite hs hs.reply

theorem Keeps.writeLow {p} {addr} {v} : Keeps s₀ (s.writeLow p addr v) := by
  unfold State.writeLow
  extract_lets
  split
  · exact .ite hs.hdmPut (.ite (.ite hs.mboxDoorbell hs) (.ite hs.putLow hs))
  · exact .ite (.ite hs.mboxDoorbell hs) (.ite hs.putLow hs)

theorem Keeps.writeBar2 {p} {addr} {v} : Keeps s₀ (s.writeBar2 p addr v) := by
  unfold State.writeBar2
  split
  · exact .ite hs.bar2Put hs
  · exact hs

theorem Keeps.wordsTo {f : State → ℕ → ℕ → State} {addr} {width} {v} (hf : ∀ u a a', Keeps s₀ u → Keeps s₀ (f u a a')) :
    Keeps s₀ (s.wordsTo f addr width v) :=
  .ite (hf _ _ _ (hf _ _ _ hs)) (hf _ _ _ hs)

theorem Keeps.readAny {p} {addr} {width} : Keeps s₀ (s.readAny p addr width).2 := by
  unfold State.readAny
  refine .iteSnd ?_ (.iteSnd ?_ (.iteSnd ?_ ?_))
  · dsimp only
    exact hs.badWidth
  · dsimp only
    exact .ite hs.dropShadow.drawn hs.dropShadow
  · dsimp only
    exact hs.dropShadow
  · exact hs.readReg

theorem Keeps.writeAny {p} {addr} {width} {v} : Keeps s₀ (s.writeAny p addr width v) := by
  unfold State.writeAny
  refine .ite hs.badWidth ?_
  extract_lets s1
  have hs1 : Keeps s₀ s1 := hs.dropShadow
  refine .ite (hs1.wordsTo (fun _ _ _ hu => hu.writeLow)) ?_
  exact .ite (hs1.wordsTo (fun _ _ _ hu => hu.writeBar2)) hs1.writeReg

theorem Keeps.regKnock {p} : Keeps s₀ (s.regKnock p) := by
  unfold State.regKnock
  split
  · exact hs.rouse
  · exact .ite hs.knock hs
  · exact hs

theorem Keeps.holdAcc {a} : Keeps s₀ (s.holdAcc a) := hs.setAon

theorem Keeps.execRegisterWrite {path} {addr} {width} {value} : Ends s₀ (execRegisterWrite path addr width value s) :=
  .next (.ite hs.regKnock (.ite hs.regKnock.holdAcc hs.regKnock.writeAny))

theorem Keeps.execRegisterReadClear {path} {addr} {width} : Ends s₀ (execRegisterReadClear path addr width s) :=
  .next (.ite hs.regKnock (.ite hs.regKnock.holdAcc hs.regKnock.readAny.emit))

theorem Keeps.execLock {path} {block} : Ends s₀ (execLock path block s) :=
  .next (hs.viaPath (fun _ hu => .ite (.ite hu.setLock hu) (.ite hu hu.denied)))

theorem Keeps.respond {i2c} {status} {data} : Keeps s₀ (s.respond i2c status data) := hs.emit

theorem Keeps.dropReply : Keeps s₀ s.dropReply := .ite hs hs.setAon

theorem Keeps.sideband {op} {len} {n} {req} {pec} {data} {f : State → State × List Byte}
    (hf : ∀ u, Keeps s₀ u → Keeps s₀ (f u).1) :
    Keeps s₀ (s.sideband op len n req pec data f) := by
  unfold State.sideband
  extract_lets s' _ _ r
  have hs' : Keeps s₀ s' := hs.regKnock.dropReply
  have hr : Keeps s₀ r.1 := hf _ hs'
  exact .ite hs' (.ite hs'.respond (.ite hs'.respond (.ite hs'.holdAcc.respond hr.respond)))

theorem Keeps.execRead32 {req} {pec} : Ends s₀ (execRead32 req pec s) := .next (hs.sideband (fun _ hu => hu.readAny))

theorem Keeps.execRead64 {req} {pec} : Ends s₀ (execRead64 req pec s) := .next (hs.sideband (fun _ hu => hu.readAny))

theorem Keeps.execWrite32 {req} {pec} : Ends s₀ (execWrite32 req pec s) := .next (hs.sideband (fun _ hu => hu.writeAny))

theorem Keeps.execWrite64 {req} {pec} : Ends s₀ (execWrite64 req pec s) := .next (hs.sideband (fun _ hu => hu.writeAny))

theorem Keeps.doAcc {a} : Keeps s₀ (s.doAcc a) := by
  unfold State.doAcc
  split
  · extract_lets s1
    have hs1 : Keeps s₀ s1 := hs.writeAny
    split
    · exact hs1.respond
    · exact hs1
  extract_lets r
  have hr : Keeps s₀ r.2 := hs.readAny
  split
  · exact hr.respond
  · exact hr
  · exact hr.emit

theorem Keeps.doAccs {block} : Keeps s₀ (s.doAccs block) := .foldl hs.setAon fun _ _ hu => hu.doAcc

theorem Keeps.execBlockResetEnd {block} : Ends s₀ (execBlockResetEnd block s) := by
  unfold Machine.execBlockResetEnd
  refine .next (.ite hs ?_)
  extract_lets _ s0 s1
  have hs0 : Keeps s₀ s0 := hs.setAon
  have hs1 : Keeps s₀ s1 := hs0.doAccs
  exact .ite hs1.resumeWhy (.ite hs1.dispatch (.ite hs1.resumeWhy hs1))

end

end Sys2Proof.Machine
end

section
/-!
PROOFS for O56 and O58: every command keeps the queue and the canonical form, from the lemmas about the commands.
-/
namespace Sys2Proof.Machine
open Sys2Proof.Safety

theorem Keeps.exec {s₀ s : State} (hs : Keeps s₀ s) (c : Instr) : Ends s₀ (exec c s) := by
  cases c with
  | hostRead => exact hs.execHostRead
  | hostWrite => exact hs.execHostWrite
  | hostPartialWrite => exact hs.execHostPartialWrite
  | memInv => exact hs.execMemInv
  | memClnEvct => exact hs.execMemClnEvct
  | admissionCycle => exact hs.execAdmissionCycle
  | tokenRefill => exact hs.execTokenRefill
  | tmeMissFill => exact hs.execTmeMissFill
  | demandPromotion => exact hs.execDemandPromotion
  | bulkTileReadDone => exact hs.execBulkTileReadDone
  | tagRecomputeDone => exact hs.execTagRecomputeDone
  | haltViral => exact hs.execHaltViral
  | haltChainStop => exact hs.execHaltChainStop
  | haltZeroize => exact hs.execHaltZeroize
  | codecTileDone => exact hs.execCodecTileDone
  | tcsRetryDone => exact hs.execTcsRetryDone
  | promotionInstall => exact hs.execPromotionInstall
  | candidateRefill => exact hs.execCandidateRefill
  | demotionSelect => exact hs.execDemotionSelect
  | demotionCompressDone => exact hs.execDemotionCompressDone
  | allocEscalationResolved => exact hs.execAllocEscalationResolved
  | demotionCommit => exact hs.execDemotionCommit
  | writeWaitResume => exact hs.execWriteWaitResume
  | crossingWaitResume => exact hs.execCrossingWaitResume
  | regionInitStep => exact hs.execRegionInitStep
  | nearPinWalkStep => exact hs.execNearPinWalkStep
  | retainRelocationDone => exact hs.execRetainRelocationDone
  | codecPipeDrained => exact hs.execCodecPipeDrained
  | cdcPipeActivate => exact hs.execCdcPipeActivate
  | cdcPipeDrain => exact hs.execCdcPipeDrain
  | cdcPipeFail => exact hs.execCdcPipeFail
  | cryPipeActivate => exact hs.execCryPipeActivate
  | cryPipeDrain => exact hs.execCryPipeDrain
  | cryPipeFail => exact hs.execCryPipeFail
  | aesPipeDrained => exact hs.execAesPipeDrained
  | aesKnownAnswerTest => exact hs.execAesKnownAnswerTest
  | scrEngActivate => exact hs.execScrEngActivate
  | scrEngDrain => exact hs.execScrEngDrain
  | scrEngFail => exact hs.execScrEngFail
  | scarabEngineDrained => exact hs.execScarabEngineDrained
  | dirBankActivate => exact hs.execDirBankActivate
  | dirBankFail => exact hs.execDirBankFail
  | ctlCoreActivate => exact hs.execCtlCoreActivate
  | ctlCoreFail => exact hs.execCtlCoreFail
  | trngHealthFail => exact hs.execTrngHealthFail
  | rekeyKeyReady => exact hs.execRekeyKeyReady
  | rekeyWalkStep => exact hs.execRekeyWalkStep
  | rekeyDone => exact hs.execRekeyDone
  | dramCommandSlot => exact hs.execDramCommandSlot
  | dramReadData => exact hs.execDramReadData
  | rowRemapCopyDone => exact hs.execRowRemapCopyDone
  | edcWriteFail => exact hs.execEdcWriteFail
  | channelRetrainDone => exact hs.execChannelRetrainDone
  | pmicPowerFault => exact hs.execPmicPowerFault
  | pmicStatusPoll => exact hs.execPmicStatusPoll
  | temperaturePoll => exact hs.execTemperaturePoll
  | refreshDue => exact hs.execRefreshDue
  | periodicTrainingDue => exact hs.execPeriodicTrainingDue
  | memoryTrainingDone => exact hs.execMemoryTrainingDone
  | dimmFullTrainingDone => exact hs.execDimmFullTrainingDone
  | selfRefreshBulkCommit => exact hs.execSelfRefreshBulkCommit
  | selfRefreshNearCommit => exact hs.execSelfRefreshNearCommit
  | selfRefreshExitDone => exact hs.execSelfRefreshExitDone
  | evacuationMove => exact hs.execEvacuationMove
  | scrubAllowance => exact hs.execScrubAllowance
  | scrubUnit => exact hs.execScrubUnit
  | retentionSweepStep => exact hs.execRetentionSweepStep
  | linkTrained => exact hs.execLinkTrained
  | portReset => exact hs.execPortReset
  | functionReset => exact hs.execFunctionReset
  | memclrDone => exact hs.execMemclrDone
  | hostViral => exact hs.execHostViral
  | doorbellWrite => exact hs.execDoorbellWrite
  | doorbellRead => exact hs.execDoorbellRead
  | fireflyWindowRead => exact hs.execFireflyWindowRead
  | getInfo => exact hs.execGetInfo
  | regionCreate => exact hs.execRegionCreate
  | regionDelete => exact hs.execRegionDelete
  | regionDeleteDone => exact hs.execRegionDeleteDone
  | regionSet => exact hs.execRegionSet
  | regionGrant => exact hs.execRegionGrant
  | regionQuery => exact hs.execRegionQuery
  | setKeyMode => exact hs.execSetKeyMode
  | loadWrapKey => exact hs.execLoadWrapKey
  | loadKeySlot => exact hs.execLoadKeySlot
  | clearKeySlot => exact hs.execClearKeySlot
  | rekeyRegion => exact hs.execRekeyRegion
  | setPowerState => exact hs.execSetPowerState
  | getPowerState => exact hs.execGetPowerState
  | setRetainSets => exact hs.execSetRetainSets
  | setSpareSet => exact hs.execSetSpareSet
  | evacuateSet => exact hs.execEvacuateSet
  | clearRetention => exact hs.execClearRetention
  | getSpd => exact hs.execGetSpd
  | getErrorLog => exact hs.execGetErrorLog
  | clearErrorLog => exact hs.execClearErrorLog
  | headConfig => exact hs.execHeadConfig
  | setHold => exact hs.execSetHold
  | queueSet => exact hs.execQueueSet
  | queueDisable => exact hs.execQueueDisable
  | queueQuery => exact hs.execQueueQuery
  | getPoisonList => exact hs.execGetPoisonList
  | injectPoison => exact hs.execInjectPoison
  | clearPoison => exact hs.execClearPoison
  | getEventRecords => exact hs.execGetEventRecords
  | clearEventRecords => exact hs.execClearEventRecords
  | getEventInterruptPolicy => exact hs.execGetEventInterruptPolicy
  | setEventInterruptPolicy => exact hs.execSetEventInterruptPolicy
  | getTimestamp => exact hs.execGetTimestamp
  | setTimestamp => exact hs.execSetTimestamp
  | identifyMemoryDevice => exact hs.execIdentifyMemoryDevice
  | getFwInfo => exact hs.execGetFwInfo
  | transferFw => exact hs.execTransferFw
  | transferFwDone => exact hs.execTransferFwDone
  | activateFw => exact hs.execActivateFw
  | dcAddAccept => exact hs.execDcAddAccept
  | dcAddRefuse => exact hs.execDcAddRefuse
  | dcRelease => exact hs.execDcRelease
  | ideKmMessage => exact hs.execIdeKmMessage
  | spdmMessage => exact hs.execSpdmMessage
  | spdmSecuredAvsar => exact hs.execSpdmSecuredAvsar
  | birspi => exact hs.execBirspi
  | birsps => exact hs.execBirsps
  | birspe => exact hs.execBirspe
  | biconflict => exact hs.execBiconflict
  | biTimeout => exact hs.execBiTimeout
  | dirSweepDone => exact hs.execDirSweepDone
  | gateTick => exact hs.execGateTick
  | minwinEnd => exact hs.execMinwinEnd
  | gclSwap => exact hs.execGclSwap
  | gclSwapRequest => exact hs.execGclSwapRequest
  | monitorWindowEnd => exact hs.execMonitorWindowEnd
  | floorRecompute => exact hs.execFloorRecompute
  | descriptorFetch => exact hs.execDescriptorFetch
  | nop => exact hs.execNop
  | fence => exact hs.execFence
  | copy => exact hs.execCopy
  | fill => exact hs.execFill
  | zero => exact hs.execZero
  | compress => exact hs.execCompress
  | decompress => exact hs.execDecompress
  | checksum => exact hs.execChecksum
  | promote => exact hs.execPromote
  | demote => exact hs.execDemote
  | pin => exact hs.execPin
  | unpin => exact hs.execUnpin
  | retire => exact hs.execRetire
  | rekey => exact hs.execRekey
  | scrubRange => exact hs.execScrubRange
  | jobPartDone => exact hs.execJobPartDone
  | coalTimeExpiry => exact hs.execCoalTimeExpiry
  | clDownTimer => exact hs.execClDownTimer
  | clDetect => exact hs.execClDetect
  | clTrainLock => exact hs.execClTrainLock
  | clFlitLock => exact hs.execClFlitLock
  | clStateTimeout => exact hs.execClStateTimeout
  | clLockLoss => exact hs.execClLockLoss
  | clLinkDown => exact hs.execClLinkDown
  | clRetrainDone => exact hs.execClRetrainDone
  | clRetrain => exact hs.execClRetrain
  | clMark => exact hs.execClMark
  | clPortEnable => exact hs.execClPortEnable
  | dataFlit => exact hs.execDataFlit
  | idle => exact hs.execIdle
  | init => exact hs.execInit
  | nak => exact hs.execNak
  | replay => exact hs.execReplay
  | ring => exact hs.execRing
  | token => exact hs.execToken
  | assign => exact hs.execAssign
  | replayTimerExpiry => exact hs.execReplayTimerExpiry
  | controlFlitDue => exact hs.execControlFlitDue
  | initResend => exact hs.execInitResend
  | ringPeriodic => exact hs.execRingPeriodic
  | rd => exact hs.execRd
  | wr => exact hs.execWr
  | wrp => exact hs.execWrp
  | sync => exact hs.execSync
  | rdRsp => exact hs.execRdRsp
  | wrRsp => exact hs.execWrRsp
  | syncAck => exact hs.execSyncAck
  | farWriteApplied => exact hs.execFarWriteApplied
  | e2eTimeout => exact hs.execE2eTimeout
  | farLimitExpiry => exact hs.execFarLimitExpiry
  | discoveryRound => exact hs.execDiscoveryRound
  | assignTimeout => exact hs.execAssignTimeout
  | heartbeatCheck => exact hs.execHeartbeatCheck
  | coreRoleMoveDone => exact hs.execCoreRoleMoveDone
  | bootCoreAliveTimeout => exact hs.execBootCoreAliveTimeout
  | bootRom => exact hs.execBootRom
  | flashCopyChecked => exact hs.execFlashCopyChecked
  | memActive => exact hs.execMemActive
  | kick => exact hs.execKick
  | wdtHalfTimeout => exact hs.execWdtHalfTimeout
  | wdtTimeout => exact hs.execWdtTimeout
  | eventTick => exact hs.execEventTick
  | evtLdTest => exact hs.execEvtLdTest
  | evtFmTest => exact hs.execEvtFmTest
  | now => exact hs.execNow
  | aonEntryStart => exact hs.execAonEntryStart
  | p2EntryComplete => exact hs.execP2EntryComplete
  | flushDone => exact hs.execFlushDone
  | p3PowerDown => exact hs.execP3PowerDown
  | wakeEvent => exact hs.execWakeEvent
  | p2EntryRetry => exact hs.execP2EntryRetry
  | cricketMatch => exact hs.execCricketMatch
  | wakeN => exact hs.execWakeN
  | epochAlarm => exact hs.execEpochAlarm
  | p1ExitDone => exact hs.execP1ExitDone
  | p2ExitDone => exact hs.execP2ExitDone
  | resumeAreaCheck => exact hs.execResumeAreaCheck
  | canaryCheck => exact hs.execCanaryCheck
  | p3ExitDone => exact hs.execP3ExitDone
  | powerOnReset => exact hs.execPowerOnReset
  | coldCmd => exact hs.execColdCmd
  | warmReq => exact hs.execWarmReq
  | resetNLow => exact hs.execResetNLow
  | quiesceDone => exact hs.execQuiesceDone
  | quiesceTimeout => exact hs.execQuiesceTimeout
  | resetRelease => exact hs.execResetRelease
  | blkRstReq => exact hs.execBlkRstReq
  | blockResetEnd => exact hs.execBlockResetEnd
  | fuseLoadDone => exact hs.execFuseLoadDone
  | xtalQualified => exact hs.execXtalQualified
  | lsclkSwitch => exact hs.execLsclkSwitch
  | pllLockLoss => exact hs.execPllLockLoss
  | pllRelockRetry => exact hs.execPllRelockRetry
  | pllQualified => exact hs.execPllQualified
  | supplyGroupEnable => exact hs.execSupplyGroupEnable
  | supplyRiseTimeout => exact hs.execSupplyRiseTimeout
  | supplyWarn => exact hs.execSupplyWarn
  | supplyRecovered => exact hs.execSupplyRecovered
  | brownThrottleLift => exact hs.execBrownThrottleLift
  | supplyResetCrossing => exact hs.execSupplyResetCrossing
  | thermalThrottle => exact hs.execThermalThrottle
  | thermalThrottleLift => exact hs.execThermalThrottleLift
  | thermalShutdown => exact hs.execThermalShutdown
  | d2dLinkLost => exact hs.execD2dLinkLost
  | ftimePulse => exact hs.execFtimePulse
  | ftimePulseMissed => exact hs.execFtimePulseMissed
  | xtalBoundary => exact hs.execXtalBoundary
  | epochLoad => exact hs.execEpochLoad
  | lsCalibration => exact hs.execLsCalibration
  | read32 => exact hs.execRead32
  | read64 => exact hs.execRead64
  | write32 => exact hs.execWrite32
  | write64 => exact hs.execWrite64
  | registerWrite => exact hs.execRegisterWrite
  | registerReadClear => exact hs.execRegisterReadClear
  | lock => exact hs.execLock
  | aesKeyParityError => exact hs.execAesKeyParityError
  | scarabEngineFault => exact hs.execScarabEngineFault
  | coreSramError => exact hs.execCoreSramError
  | chainLowPowerSubstate => exact hs.execChainLowPowerSubstate
  | ideIntegrityFailure => exact hs.execIdeIntegrityFailure
  | jtagInstruction => exact hs.execJtagInstruction
  | d2dTransferReplay => exact hs.execD2dTransferReplay

/-- Settles O58: a command's answer keeps the queue, by the lemma about the command. -/
theorem execKeepsQueue : Obligations.ExecKeepsQueue := by
  unfold Obligations.ExecKeepsQueue
  intro c s t h
  exact ((Keeps.refl s).exec c |>.ofNext h).queue

/-- Settles O56: on an empty queue nothing changes; otherwise the front command keeps the canonical form. -/
theorem stepKeepsCanonical : Obligations.StepKeepsCanonical := by
  unfold Obligations.StepKeepsCanonical
  intro s t hs h
  unfold step at h
  split at h
  · cases h
    exact hs
  · rename_i c rest _
    have hrest : Canonical { s with pending := rest } := hs
    exact ((Keeps.refl _).exec c |>.ofNext h).canonical hrest

end Sys2Proof.Machine
end
